-- ==== Sys2Proof/Word.lean ====
section
/-!
DEFINITION. The words of the device and the plainest shapes the model uses: bytes and words as bit vectors (R5: bit 0
is the least significant bit), the access codes of the register tables (R6), a named register field, and the data a
read of host memory brings back.
-/
namespace Sys2Proof

/-- A byte. -/
abbrev Byte := BitVec 8
/-- A halfword: one unit of the keeper's code store. -/
abbrev Half := BitVec 16
/-- A 32-bit value: a keeper accumulator, a signal value. -/
abbrev Long := BitVec 32
/-- A 64-bit word: a register, an order word, a time. -/
abbrev Word := BitVec 64

/-- The access codes of R6. -/
inductive Acc where
  | ro | rw | rwnv | w1c | w1s | wo | rc
deriving DecidableEq, Repr

/-- A register field by its BAR0 address, its lowest bit, its width and its reset value (R9). -/
structure Fld where
  addr : Nat
  lo   : Nat
  w    : Nat
  rst  : Nat
deriving DecidableEq, Repr

/-- What a read of host memory returns: the bytes, or a failure (Unsupported Request, Completer Abort, completion
timeout or poisoned data; R63, R70). Host memory is outside the device, so a command that stands for the return of a
host read carries what was read. -/
inductive HostRd where
  | ok (bytes : List Byte)
  | fail
deriving DecidableEq, Repr

/-- A posted write toward host memory. -/
structure HostWrite where
  addr : Nat
  data : List Byte
deriving DecidableEq, Repr

end Sys2Proof
end

