-- ==== Sys2Proof/Syntax.lean ====
section
/-!
DEFINITION. The commands of the block: one constructor of `Instr` for each row of spec/opcode_table.json, in the table's
order, with what the world outside the block brings with it (a channel, a thread, a written value, a received frame, the
data a host read returned). Channels, threads, drives and the like are indices of their range, so an operand out of
range cannot be written down.
-/
namespace Sys2Proof

/-- A CAN frame as it becomes valid (R178, R233): `tx` when this channel sent it. -/
structure CanFrame where
  xl   : Bool
  id   : BitVec 29
  ide  : Bool
  fdf  : Bool
  brs  : Bool
  rtr  : Bool
  esi  : Bool
  dlc  : BitVec 4
  data : List Byte
  sdt  : Byte
  vcid : Byte
  af   : BitVec 32
  sec  : Bool
  rrs  : Bool
  fcrc : BitVec 32
  tx   : Bool
deriving DecidableEq, Repr

/-- A LIN frame as it ends (R181, R233): the protected identifier, the response and the checksum as they were on the bus. -/
structure LinFrame where
  pid    : Byte
  data   : List Byte
  sum    : Byte
  rate   : Half
  tx     : Bool
deriving DecidableEq, Repr

/-- A SENT message as it ends (R182, R233): KIND, status nibble, calibration pulse in ns, data, serial ID, and the CRC as it was
received: 4 bits, or 6 of an enhanced serial message. -/
structure SentMsg where
  kind     : Byte
  status   : Byte
  cal      : BitVec 32
  data     : BitVec 32
  serialId : Byte
  crc      : BitVec 6
deriving DecidableEq, Repr

/-- A gPTP message received (R221, R228), times in ns: a Sync, `sfd` the TIME_NS at which the end of its SFD crossed the serial
interface, with the origin and correction its Follow_Up carries; a Pdelay_Req; a Pdelay_Resp with the request's receipt time `t2`,
its own departure `t3` that its Follow_Up carries, and the neighbour's rate ratio less 1 in units of 10^−9; another kind. -/
inductive PtpMsg where
  | syncPair (sfd origin corr : BitVec 64)
  | pdelayReq (sfd : BitVec 64)
  | pdelay (sfd t2 t3 : BitVec 64) (ratio : BitVec 32)
  | other
deriving DecidableEq, Repr

/-- What an identification of a drive finds (R283, R299, R301, R311): the version register VS, the NVM command set, CSTS.RDY in
time, CAP.MPSMIN and CAP.MQES, MDTS; of namespace 1 whether it is active, the LBA size as a power of two, its metadata bytes, its
size in LBAs; support of Deallocate, a volatile write cache, Critical Warning; the bytes read of superblock copies A and B, of the
header and the footer of the open segment, and of its span area by segment offset. -/
structure DriveId where
  version : BitVec 32
  nvmSet  : Bool
  ready   : Bool
  mpsmin  : BitVec 4
  mqes    : BitVec 16
  mdts    : Byte
  active  : Bool
  lbads   : Byte
  meta_   : BitVec 16
  lbas    : BitVec 64
  trim    : Bool
  vwc     : Bool
  warn    : Byte
  copyA   : List Byte
  copyB   : List Byte
  header  : List Byte
  footer  : List Byte
  area    : List (Nat × List Byte)
deriving DecidableEq, Repr

/-- The results of a self-test (R359): the step among 2, 4, 6 and 7 whose check sends the device to DRYDOCK (any other number:
none) with its detail, the tiles that failed BIST, the SRAM rows repaired (tile, instance, row), whether the repair map's CRC
failed, DRAM size in GiB, trained rate, the DRAM pages marked bad, duration in ms, PLLs locked, ring oscillator counts. -/
structure SelfTest where
  step     : BitVec 4
  detail   : BitVec 12
  tiles    : BitVec 61
  rows     : List (Byte × Half × BitVec 32)
  mapBad   : Bool
  dram     : BitVec 8
  rate     : Half
  pages    : List (BitVec 32)
  ms       : Half
  plls     : BitVec 8
  rings    : List (BitVec 32)
deriving DecidableEq, Repr

/-- Where a scrub read looks (R337): a DRAM byte address, a word of a channel's keeper SRAM or code store by byte offset, a word of
the Toll House MRAM or of the Basin SRAMs by its number. -/
inductive ScrubAt where
  | dram (addr : Word)
  | sram (c : Fin 56) (off : Half)
  | code (c : Fin 56) (off : BitVec 17)
  | mram (word : BitVec 32)
  | basin (word : BitVec 32)
deriving DecidableEq, Repr

/-- A part of a frame that a MAC receives (R223): the bytes, and whether a code error has come with them. -/
structure EthPart where
  data    : List Byte
  codeErr : Bool
deriving DecidableEq, Repr

/-- A towpath frame as it arrives (R384): SRC_POS, DST_POS, HOPS, SEQ, payload words, the syndrome of each word under that SEQ, the
header first (R335), and a TYPE that the spec does not define, when it has one in place of its command's own (R385). -/
structure TpFrame where
  src   : Byte
  dst   : Byte
  hops  : Byte
  seq   : Half
  words : List Word
  syn   : List Byte
  alien : Option Byte
deriving DecidableEq, Repr

/-- What a reset release brings (R354, R378, R410): BOOTMODE and TEST0–TEST6 as sampled, and whether the ROM's checks of what
slots A and B were shipped with pass. -/
structure Boot where
  mode : BitVec 2
  test : BitVec 7
  okA  : Bool
  okB  : Bool
deriving DecidableEq, Repr

/-- What of the Toll House's MRAM a power-down may tear, VDD_AON falling first (R413): the newest log entry, a key slot, a firmware
slot or the configuration staging that is being written. -/
inductive Torn where
  | log | staging
  | key (k : Fin 16)
  | fw (k : Fin 2)
deriving DecidableEq, Repr

/-- What comes before a cold reset's release: whether VDD_AON has come up with it, and what its fall tore. -/
structure PowerUp where
  fresh : Bool
  torn  : Option Torn
deriving DecidableEq, Repr

/-- A monitor's crossing (R350): its index, the level it measures and the TIME_NS since which it is below. -/
structure MonDip where
  mon : Fin 10
  mv  : Half
  ts  : Word
deriving DecidableEq, Repr

/-- A monitor's level, and the other monitors that cross in the same AONCLK. -/
structure DipStart where
  mv   : Half
  also : List MonDip
deriving DecidableEq, Repr

/-- An error pin's assertion (R339): the pin, its code, and whether it stays asserted. -/
structure PinLevel where
  pin  : Fin 64
  code : Byte
  hold : Bool
deriving DecidableEq, Repr

/-- A pin's code, whether it stays asserted, and the other pins that assert in the same BCLK (R340). -/
structure PinEvent where
  code : Byte
  hold : Bool
  also : List PinLevel
deriving DecidableEq, Repr

/-- What an access through the JTAG port does (R380). -/
inductive JtagOp where
  | bypass | idcode | sample | extest | clamp | vendor
  | challenge (level : Byte)
  | unlock (sig cust : List Byte)
deriving DecidableEq, Repr

/-- The size of a register access through BAR0: the whole 64-bit word, low or high half; a longer request of so many double words,
with the data of a write; or any other (a size error, R396). -/
inductive AccSize where
  | word | low | high | bad
  | long (dws : BitVec 10) (data : List Byte)
deriving DecidableEq, Repr

/-- What a register access goes to: BAR0 in a size, the MSI-X table of BAR4 (64 bits wide, or 32), configuration space. -/
inductive RegSpace where
  | bar0 (size : AccSize)
  | bar4 (wide : Bool)
  | config
deriving DecidableEq, Repr

/-- What a read by the host goes to, and the address there. -/
structure HostRead where
  sp : RegSpace
  a  : BitVec 26
deriving DecidableEq, Repr

/-- The end of an order's TIMEOUT: its channel, and the bytes of an SPI or I2C transfer that have not been transferred. -/
structure TimedOut where
  chan : Fin 56
  left : Half
deriving DecidableEq, Repr

/-- A LIN header as it stood on the bus: the protected identifier with its parity, and the length of the break in bit times. -/
structure LinHead where
  pid : Byte
  brk : Byte
deriving DecidableEq, Repr

/-- A frame that a stream channel has sent: its channel, and TIME_NS at the end of its SFD. -/
structure SentFrame where
  chan : Fin 56
  sfd  : Word
deriving DecidableEq, Repr

/-- How a MOVE's transfer ended: the host could be reached, and the uncorrectable word met in the source. -/
structure MoveEnd where
  ok  : Bool
  ecc : Option (BitVec 21)
deriving DecidableEq, Repr

/-- The commands. -/
inductive Instr where
  /-- PORESET (R354, R413): Release of PORESET_N after a cold reset starts the ROM, increments the boot count, samples
  BOOTMODE and begins start-up in SELFTEST. Operands: whether VDD_AON has come up with it, and what its fall tore. -/
  | poreset (b : Boot) (p : PowerUp)
  /-- WARMRESET (R354): Release of WARMRESET_N, or an internal warm reset, restarts the device in SELFTEST with the
  MRAM kept as R357 states. -/
  | warmreset (b : Boot)
  /-- HOST_PERST (R356): Assertion of HOST_PERST_N resets only the host port, acting as a hot reset of the function. -/
  | hostPerst
  /-- SELFTEST_COMPLETE (R359): Self-test ends; the device goes on to apply its configuration, or enters DRYDOCK on a
  failure that requires it. -/
  | selftestComplete (t : SelfTest)
  /-- FW_TRIAL_TIMEOUT (R378): A trial boot that has not reached READY or DRYDOCK within 2 s marks its slot FAILED and
  warm-resets into the previous slot. -/
  | fwTrialTimeout (b : Boot)
  /-- SUPPLY_WARN (R350): A monitor stays below WARN_MV for FILT_US; the device enters BRACE, sets SUPPLY_EVT.WARN and
  logs it. Operands: monitor `n`, at the level of `d`, is below its own since `ts`; others may cross with it. -/
  | supplyWarn (n : Fin 10) (d : DipStart) (ts : Word)
  /-- SUPPLY_RECOVER (R350): Every monitor stays above WARN_MV plus HYST_MV for FILT_US, so BRACE ends at the next
  tick edge. Operands: the ten levels, and the lowest in the dip. -/
  | supplyRecover (levels : List Half) (low : Half)
  /-- SUPPLY_RESET (R351): A monitor at or below RESET_MV for FILT_US resets the device within 2 µs with LAST_RESET
  cause 3. -/
  | supplyReset (n : Fin 10) (mv : Half) (b : Boot)
  /-- THERMAL_SAMPLE (R352): Every 1 ms the 16 die sensors are read and TMAX_C is updated. Operands: sixteen signed
  temperatures. -/
  | thermalSample (temps : List Byte)
  /-- TICK_EDGE (R35): The tick edge advances TICKNO, swaps every chamber, closes the previous course, starts TK
  orders and counts down WAIT orders. -/
  | tickEdge
  /-- SUB_TICK_SWAP (R37): At sub-tick point j a channel with LOCK_RATE above 1 swaps its chamber halves without
  closing a course. -/
  | subTickSwap (c : Fin 56) (j : Fin 16)
  /-- WAIT_EXPIRE (R36): A WAIT order's count reaches zero; it completes and its successor starts now or at the next
  edge. -/
  | waitExpire (c : Fin 56)
  /-- TICK_CFG_WRITE (R33): A write to TICK_CFG is checked and, if accepted, held pending. -/
  | tickCfgWrite (v : Word)
  /-- LS_COMMIT (R39): LS_CTRL.COMMIT checks the shadow lock schedule and captures it pending, or sets REJECT. -/
  | lsCommit (v : Word)
  /-- KEY_CFG_WRITE (R41): A write of KEY_CFG.OFFSET_NS is checked against the period and takes effect at the next
  edge. -/
  | keyCfgWrite (v : Word)
  /-- TIME_NS_READ (R31): A host read of TIMEBASE.TIME_NS returns the time and latches TICKNO into TIME_SNAP. -/
  | timeNsRead
  /-- TB_CTRL_WRITE (R47): A write of TB_CTRL, including a change of SRC, reconfigures the servo and sends it to
  ACQUIRE or FREE. -/
  | tbCtrlWrite (v : Word)
  /-- PPS_IN_EDGE (R46): A rising PPS_IN edge is timestamped and either discarded or used as one servo measurement. -/
  | ppsInEdge
  /-- HOLDOVER_TIMEOUT (R47): No valid measurement for HOLDOVER_MS sends the servo to HOLDOVER with TRIM frozen. -/
  | holdoverTimeout
  /-- STEP_GO (R49): STEP_CTRL.GO requests a time step, applied within 1 µs, refused, or deferred to the next edge
  when forced. -/
  | stepGo (v : Word)
  /-- PPS_OUT_RISE (R422): PPS_OUT rises when TIME_NS mod 10^9 reaches 0. -/
  | ppsOutRise
  /-- PPS_OUT_FALL (R422): PPS_OUT falls 100 ms after it rose. -/
  | ppsOutFall
  /-- WQ_ENABLE (R57): Setting WQ_CFG.EN restarts the queue with CONS 0 and PHASE 1, unless its completion ring is
  disabled. -/
  | wqEnable (n : Fin 256) (v : Word)
  /-- WQ_DISABLE (R87): Clearing WQ_CFG.EN stops polling and drops undispatched accepted entries. -/
  | wqDisable (n : Fin 256) (v : Word)
  /-- WQ_POLL (R67): At its poll interval, or at a tick edge with POLL_TICK, a queue issues reads of its entry window. -/
  | wqPoll (n : Fin 256)
  /-- WQ_POLL_RETURN (R66): The poll read returns; entries with the expected phase are accepted in index order and the
  rest are discarded. -/
  | wqPollReturn (n : Fin 256) (data : HostRd)
  /-- ENTRY_DISPATCH (R71): The weighted round-robin arbiter dispatches one accepted entry every 8 ns into its command
  queue. -/
  | entryDispatch
  /-- CR_ENABLE (R78): Setting CR_CFG.EN enables the completion ring and zeroes TAIL, HEAD and CR_OVF. -/
  | crEnable (r : Fin 64) (v : Word)
  /-- CR_DISABLE (R78): A write clearing CR_CFG.EN disables the ring, refused while an enabled queue names it. -/
  | crDisable (r : Fin 64) (v : Word)
  /-- CR_HEAD_WRITE (R78): A CR_HEAD write within HEAD to TAIL frees ring space; any other value is refused with
  HEAD_BAD. -/
  | crHeadWrite (r : Fin 64) (v : Word)
  /-- LONG_OP_STEP_DONE (R81): A 4 KiB step of a long operation finishes, and the last step completes the entry. -/
  | longOpStepDone (serial : Nat) (data : HostRd)
  /-- FENCE_COMPLETE (R83): A FENCE completes once every earlier entry in its scope has completed and its writes have
  been issued. -/
  | fenceComplete (serial : Nat)
  /-- HOST_D3HOT_ENTRY (R86): The function enters D3hot; polling, dispatch and host requests stop and completions are
  held. -/
  | hostD3hotEntry
  /-- HOST_D0_RETURN (R86): Return to D0 with Bus Master Enable writes the held completions, delivers pending
  interrupts and resumes polling. -/
  | hostD0Return
  /-- HOST_BME_CLEAR (R86): Clearing Bus Master Enable stops host memory requests as in D3hot. -/
  | hostBmeClear
  /-- PME_REPEAT (R326): Every 100 ms while PME_Status, PME_En and a HELD source remain, PM_PME is sent again. -/
  | pmeRepeat
  /-- HOST_LINK_DOWN (R326): Hot reset or link down resets the MSI-X table, PBA and host vector stacks only. -/
  | hostLinkDown
  /-- ROUTE_START (R107): ROUTE_START checks the channel and begins admission of a route, or is rejected. -/
  | routeStart (c : Fin 56)
  /-- ROUTE_RESUME (R112): ROUTE_RESUME re-admits a suspended route from its suspension point. -/
  | routeResume (c : Fin 56)
  /-- ROUTE_SUSPEND (R111): ROUTE_SUSPEND suspends the route at the next order boundary, wait or edge. -/
  | routeSuspend (c : Fin 56)
  /-- ROUTE_HALT (R113): ROUTE_HALT puts the route into STOPPING, ending it by the next edge. -/
  | routeHalt (c : Fin 56)
  /-- CHANNEL_ENABLE (R173): CHANNEL_ENABLE waits for the next tick edge, where it enables the channel or is rejected. -/
  | channelEnable (c : Fin 56)
  /-- CHANNEL_DISABLE (R115): CHANNEL_DISABLE stops the route and starts the disable sequence, which ends within two
  ticks. -/
  | channelDisable (c : Fin 56)
  /-- CHANNEL_RESEAT (R345): CHANNEL_RESEAT moves a channel onto a spare tile, starting the listening phase and code
  copy. Operands: `ok` is the test of the target tile (R344). -/
  | channelReseat (c : Fin 56) (ok : Bool)
  /-- KEEPER_LOAD (R170): KEEPER_LOAD writes and checks a keeper image in steps as a long operation. -/
  | keeperLoad (c : Fin 56)
  /-- KEEPER_THREAD_START (R150): KEEPER_THREAD with ACTION 1 starts a thread at a START entry. -/
  | keeperThreadStart (c : Fin 56)
  /-- KEEPER_THREAD_STOP (R147): KEEPER_THREAD with ACTION 0 stops a thread at its next instruction boundary. -/
  | keeperThreadStop (c : Fin 56)
  /-- STREAM_DEFINE (R268): STREAM_DEFINE reads and checks a descriptor and opens the stream or changes its policy at
  the next edge. -/
  | streamDefine (serial : Nat) (data : HostRd)
  /-- STREAM_CLOSE (R268): STREAM_CLOSE puts the stream CLOSING and removes its bindings at the next edge. -/
  | streamClose (serial : Nat)
  /-- STREAM_CLOSE_DONE (R268): When the last span is committed or abandoned the stream becomes UNDEFINED and
  STREAM_CLOSE completes. Operands: `abandon`: what has not been placed is given up. -/
  | streamCloseDone (n : Fin 256) (abandon : Bool)
  /-- KEYSTONE_LOAD (R260): KEYSTONE_LOAD reads and checks a keystone program for installation at the next edge. -/
  | keystoneLoad (serial : Nat) (data : HostRd)
  /-- READBACK (R293): READBACK copies bytes from a drive namespace to a host or device address as a long operation. -/
  | readback (serial : Nat)
  /-- REG_BATCH (R62): REG_BATCH reads a list of masked register writes to commit at the next edge. -/
  | regBatch (serial : Nat) (data : HostRd)
  /-- CONFIG_IMAGE_WRITE (R369): CONFIG_IMAGE_WRITE stages and checks a user configuration image and switches the
  active pointer. -/
  | configImageWrite (serial : Nat)
  /-- FIRMWARE_STAGE (R377): FIRMWARE_STAGE writes and verifies a firmware image in the inactive slot. -/
  | firmwareStage (serial : Nat)
  /-- SNAPSHOT (R294): SNAPSHOT copies a range of retained courses from the ring to host memory as a long operation. -/
  | snapshot (serial : Nat)
  /-- FENCE (R83): FENCE waits for the earlier entries in its scope and blocks its own queue behind it. -/
  | fence (serial : Nat)
  /-- ADMISSION_END (R108): The route checker finishes admission, admitting the route or rejecting it with a REASON.
  Operands: the orders that lie in host memory, as its reads return them. -/
  | admissionEnd (c : Fin 56) (orders : List (Nat × HostRd))
  /-- ORDER_FETCH_RETURN (R109): A fetched order arrives and is hashed against its stored hash. -/
  | orderFetchReturn (c : Fin 56) (data : HostRd) (late : Bool)
  /-- FETCH_TIMEOUT (R89): An order fetch still waiting after 1 ms ends the route with BUS_ERROR. -/
  | fetchTimeout (c : Fin 56)
  /-- HOST_TRANSFER_TIMEOUT (R89): A host-space data transfer or post not done within 1 ms completes the order with
  BUS_ERROR. -/
  | hostTransferTimeout (c : Fin 56)
  /-- RECEIVE (R100): A RECEIVE order takes bytes from the channel's receive path into its buffer. -/
  | receive (c : Fin 56)
  /-- TRANSMIT (R100): A TRANSMIT order sends the TX items of its buffer. -/
  | transmit (c : Fin 56) (data : HostRd)
  /-- EXCHANGE (R189): An EXCHANGE order shifts bytes out and in through SPI, I2C or UART. -/
  | exchange (c : Fin 56) (data : HostRd)
  /-- WAIT (R94): A WAIT order starts its count of tick edges. -/
  | wait (c : Fin 56)
  /-- JUMP (R93): A JUMP order continues the route at its target index. -/
  | jump (c : Fin 56)
  /-- CALL_KEEPER (R104): A CALL-KEEPER order places a message in a keeper thread's mailbox and waits for its reply. -/
  | callKeeper (c : Fin 56)
  /-- PUBLISH (R105): A PUBLISH order binds the channel's records to a stream or removes the binding. -/
  | publish (c : Fin 56)
  /-- SKIPIF (R99): A SKIPIF order tests its condition and skips COUNT orders when it is true. -/
  | skipif (c : Fin 56)
  /-- MARK (R106): A MARK order commits a diagnostic record of subtype MARK. -/
  | mark (c : Fin 56)
  /-- LOOP (R98): A LOOP order loads or decrements its counter and branches to its target while it is nonzero. -/
  | loop (c : Fin 56)
  /-- STOP (R93): A STOP order ends the route with OK. -/
  | stop (c : Fin 56)
  /-- ORDER_DONE (R93): An order that took time completes and the sequencer chooses the next order or ends the route. -/
  | orderDone (c : Fin 56)
  /-- ORDER_TIMEOUT (R100): An order's TIMEOUT edges pass and it completes with TIMEOUT and its residual. -/
  | orderTimeout (x : TimedOut)
  /-- MOV_B (R124): MOV.B Dd,Ds copies a data register. -/
  | movB (c : Fin 56) (t : Fin 8) (d r : BitVec 3)
  /-- ADD_B (R124): ADD.B adds two data registers mod 2^8. -/
  | addB (c : Fin 56) (t : Fin 8) (d r : BitVec 3)
  /-- SUB_B (R124): SUB.B subtracts two data registers mod 2^8. -/
  | subB (c : Fin 56) (t : Fin 8) (d r : BitVec 3)
  /-- AND_B (R124): AND.B ands two data registers. -/
  | andB (c : Fin 56) (t : Fin 8) (d r : BitVec 3)
  /-- OR_B (R124): OR.B ors two data registers. -/
  | orB (c : Fin 56) (t : Fin 8) (d r : BitVec 3)
  /-- XOR_B (R124): XOR.B xors two data registers. -/
  | xorB (c : Fin 56) (t : Fin 8) (d r : BitVec 3)
  /-- NOT_B (R124): NOT.B inverts a data register. -/
  | notB (c : Fin 56) (t : Fin 8) (d r : BitVec 3)
  /-- NEG_B (R124): NEG.B negates a data register. -/
  | negB (c : Fin 56) (t : Fin 8) (d r : BitVec 3)
  /-- SHL_B (R124): SHL.B shifts a data register left by a register count. -/
  | shlB (c : Fin 56) (t : Fin 8) (d r : BitVec 3)
  /-- SHR_B (R124): SHR.B shifts a data register right logically by a register count. -/
  | shrB (c : Fin 56) (t : Fin 8) (d r : BitVec 3)
  /-- SAR_B (R124): SAR.B shifts a data register right arithmetically by a register count. -/
  | sarB (c : Fin 56) (t : Fin 8) (d r : BitVec 3)
  /-- ROL_B (R124): ROL.B rotates a data register left by a register count. -/
  | rolB (c : Fin 56) (t : Fin 8) (d r : BitVec 3)
  /-- MINU_B (R124): MINU.B keeps the unsigned smaller of two data registers. -/
  | minuB (c : Fin 56) (t : Fin 8) (d r : BitVec 3)
  /-- MAXU_B (R124): MAXU.B keeps the unsigned larger of two data registers. -/
  | maxuB (c : Fin 56) (t : Fin 8) (d r : BitVec 3)
  /-- SWN_B (R124): SWN.B swaps the nibbles of a data register. -/
  | swnB (c : Fin 56) (t : Fin 8) (d r : BitVec 3)
  /-- MOVI_B (R125): MOVI.B loads an 8-bit immediate. -/
  | moviB (c : Fin 56) (t : Fin 8) (d : BitVec 3) (imm : Byte)
  /-- ADDI_B (R125): ADDI.B adds an 8-bit immediate. -/
  | addiB (c : Fin 56) (t : Fin 8) (d : BitVec 3) (imm : Byte)
  /-- ANDI_B (R125): ANDI.B ands an 8-bit immediate. -/
  | andiB (c : Fin 56) (t : Fin 8) (d : BitVec 3) (imm : Byte)
  /-- ORI_B (R125): ORI.B ors an 8-bit immediate. -/
  | oriB (c : Fin 56) (t : Fin 8) (d : BitVec 3) (imm : Byte)
  /-- SHL_B_IMM (R125): SHL.B with an immediate count. -/
  | shlBImm (c : Fin 56) (t : Fin 8) (d u : BitVec 3)
  /-- SHR_B_IMM (R125): SHR.B with an immediate count. -/
  | shrBImm (c : Fin 56) (t : Fin 8) (d u : BitVec 3)
  /-- SAR_B_IMM (R125): SAR.B with an immediate count. -/
  | sarBImm (c : Fin 56) (t : Fin 8) (d u : BitVec 3)
  /-- ROL_B_IMM (R125): ROL.B with an immediate count. -/
  | rolBImm (c : Fin 56) (t : Fin 8) (d u : BitVec 3)
  /-- MOV_W (R126): MOV.W copies an address register. -/
  | movW (c : Fin 56) (t : Fin 8) (x y : BitVec 3)
  /-- ADD_W (R126): ADD.W adds address registers mod 2^16. -/
  | addW (c : Fin 56) (t : Fin 8) (x y : BitVec 3)
  /-- SUB_W (R126): SUB.W subtracts address registers mod 2^16. -/
  | subW (c : Fin 56) (t : Fin 8) (x y : BitVec 3)
  /-- ADDQ_W (R126): ADDQ.W adds a small signed immediate to an address register. -/
  | addqW (c : Fin 56) (t : Fin 8) (x : BitVec 3) (imm : BitVec 5)
  /-- ADDX_W (R126): ADDX.W adds a zero-extended data register to an address register. -/
  | addxW (c : Fin 56) (t : Fin 8) (x y : BitVec 3)
  /-- MOVL_B (R126): MOVL.B copies the low byte of an address register to a data register. -/
  | movlB (c : Fin 56) (t : Fin 8) (x y : BitVec 3)
  /-- MOVH_B (R126): MOVH.B copies the high byte of an address register to a data register. -/
  | movhB (c : Fin 56) (t : Fin 8) (x y : BitVec 3)
  /-- MOVZ_W (R126): MOVZ.W zero-extends a data register into an address register. -/
  | movzW (c : Fin 56) (t : Fin 8) (x y : BitVec 3)
  /-- INSH_W (R126): INSH.W inserts a data register into the high byte of an address register. -/
  | inshW (c : Fin 56) (t : Fin 8) (x y : BitVec 3)
  /-- MOVZ_L_D (R126): MOVZ.L Qq,Dy zero-extends a data register into an accumulator. -/
  | movzLD (c : Fin 56) (t : Fin 8) (x y : BitVec 3)
  /-- MOVS_L_D (R126): MOVS.L Qq,Dy sign-extends a data register into an accumulator. -/
  | movsLD (c : Fin 56) (t : Fin 8) (x y : BitVec 3)
  /-- MOVZ_L_A (R126): MOVZ.L Qq,Ay zero-extends an address register into an accumulator. -/
  | movzLA (c : Fin 56) (t : Fin 8) (x y : BitVec 3)
  /-- MOVS_L_A (R126): MOVS.L Qq,Ay sign-extends an address register into an accumulator. -/
  | movsLA (c : Fin 56) (t : Fin 8) (x y : BitVec 3)
  /-- MOV_B_Q (R126): MOV.B Dy,Qq copies the low byte of an accumulator. -/
  | movBQ (c : Fin 56) (t : Fin 8) (x y : BitVec 3)
  /-- MOV_W_Q (R126): MOV.W Ay,Qq copies the low halfword of an accumulator. -/
  | movWQ (c : Fin 56) (t : Fin 8) (x y : BitVec 3)
  /-- SHIN_L (R126): SHIN.L shifts a data byte into an accumulator from the right. -/
  | shinL (c : Fin 56) (t : Fin 8) (x y : BitVec 3)
  /-- SHOUT_L (R126): SHOUT.L shifts the top byte of an accumulator out into a data register. -/
  | shoutL (c : Fin 56) (t : Fin 8) (x y : BitVec 3)
  /-- MOV_L (R127): MOV.L copies an accumulator. -/
  | movL (c : Fin 56) (t : Fin 8) (d r : BitVec 2)
  /-- ADD_L (R127): ADD.L adds accumulators mod 2^32. -/
  | addL (c : Fin 56) (t : Fin 8) (d r : BitVec 2)
  /-- SUB_L (R127): SUB.L subtracts accumulators mod 2^32. -/
  | subL (c : Fin 56) (t : Fin 8) (d r : BitVec 2)
  /-- AND_L (R127): AND.L ands accumulators. -/
  | andL (c : Fin 56) (t : Fin 8) (d r : BitVec 2)
  /-- OR_L (R127): OR.L ors accumulators. -/
  | orL (c : Fin 56) (t : Fin 8) (d r : BitVec 2)
  /-- XOR_L (R127): XOR.L xors accumulators. -/
  | xorL (c : Fin 56) (t : Fin 8) (d r : BitVec 2)
  /-- NEG_L (R127): NEG.L negates an accumulator. -/
  | negL (c : Fin 56) (t : Fin 8) (d r : BitVec 2)
  /-- NOT_L (R127): NOT.L inverts an accumulator. -/
  | notL (c : Fin 56) (t : Fin 8) (d r : BitVec 2)
  /-- MUL (R127): MUL multiplies the signed halves of an accumulator. -/
  | mul (c : Fin 56) (t : Fin 8) (d r : BitVec 2)
  /-- MULU (R127): MULU multiplies the unsigned halves of an accumulator. -/
  | mulu (c : Fin 56) (t : Fin 8) (d r : BitVec 2)
  /-- MAC (R127): MAC adds the signed product of an accumulator's halves. -/
  | mac (c : Fin 56) (t : Fin 8) (d r : BitVec 2)
  /-- MACU (R127): MACU adds the unsigned product of an accumulator's halves. -/
  | macu (c : Fin 56) (t : Fin 8) (d r : BitVec 2)
  /-- SHL_L (R127): SHL.L shifts an accumulator left by a register count. -/
  | shlL (c : Fin 56) (t : Fin 8) (d r : BitVec 2)
  /-- SHR_L (R127): SHR.L shifts an accumulator right logically by a register count. -/
  | shrL (c : Fin 56) (t : Fin 8) (d r : BitVec 2)
  /-- SAR_L (R127): SAR.L shifts an accumulator right arithmetically by a register count. -/
  | sarL (c : Fin 56) (t : Fin 8) (d r : BitVec 2)
  /-- SHL_L_IMM (R128): SHL.L with an immediate count. -/
  | shlLImm (c : Fin 56) (t : Fin 8) (q : BitVec 2) (u : BitVec 5)
  /-- SHR_L_IMM (R128): SHR.L with an immediate count. -/
  | shrLImm (c : Fin 56) (t : Fin 8) (q : BitVec 2) (u : BitVec 5)
  /-- SAR_L_IMM (R128): SAR.L with an immediate count. -/
  | sarLImm (c : Fin 56) (t : Fin 8) (q : BitVec 2) (u : BitVec 5)
  /-- ROR_L (R128): ROR.L rotates an accumulator right by an immediate count. -/
  | rorL (c : Fin 56) (t : Fin 8) (q : BitVec 2) (u : BitVec 5)
  /-- ADDQ_L (R128): ADDQ.L adds a small signed immediate to an accumulator. -/
  | addqL (c : Fin 56) (t : Fin 8) (q : BitVec 2) (imm : BitVec 6)
  /-- MOVI_W (R129): MOVI.W loads a 16-bit immediate into an address register. -/
  | moviW (c : Fin 56) (t : Fin 8) (n : BitVec 3) (imm : Half)
  /-- ADDI_W (R129): ADDI.W adds a 16-bit immediate to an address register. -/
  | addiW (c : Fin 56) (t : Fin 8) (n : BitVec 3) (imm : Half)
  /-- MOVI_L (R129): MOVI.L loads a sign-extended 16-bit immediate into an accumulator. -/
  | moviL (c : Fin 56) (t : Fin 8) (q : BitVec 2) (imm : Half)
  /-- MOVHI_L (R129): MOVHI.L sets the high half of an accumulator. -/
  | movhiL (c : Fin 56) (t : Fin 8) (q : BitVec 2) (imm : Half)
  /-- ADDI_L (R129): ADDI.L adds a sign-extended 16-bit immediate to an accumulator. -/
  | addiL (c : Fin 56) (t : Fin 8) (q : BitVec 2) (imm : Half)
  /-- BFX (R129): BFX extracts a bit field. -/
  | bfx (c : Fin 56) (t : Fin 8) (d r : BitVec 2) (pos wm1 : BitVec 5)
  /-- BFI (R129): BFI inserts a bit field. -/
  | bfi (c : Fin 56) (t : Fin 8) (d r : BitVec 2) (pos wm1 : BitVec 5)
  /-- DIVQ (R130): DIVQ divides an accumulator by an address register in 17 thread cycles, or takes the DIV trap. -/
  | divq (c : Fin 56) (t : Fin 8) (d : BitVec 2) (x : BitVec 3)
  /-- LD_B (R131): LD.B loads a byte, visible after the load delay. -/
  | ldB (c : Fin 56) (t : Fin 8) (d n : BitVec 3) (u : BitVec 5)
  /-- ST_B (R131): ST.B stores a byte. -/
  | stB (c : Fin 56) (t : Fin 8) (d n : BitVec 3) (u : BitVec 5)
  /-- LD_W (R131): LD.W loads a word into an address register. -/
  | ldW (c : Fin 56) (t : Fin 8) (d n : BitVec 3) (u : BitVec 5)
  /-- ST_W (R131): ST.W stores an address register. -/
  | stW (c : Fin 56) (t : Fin 8) (d n : BitVec 3) (u : BitVec 5)
  /-- LD_L (R131): LD.L loads a long into an accumulator. -/
  | ldL (c : Fin 56) (t : Fin 8) (q : BitVec 2) (n : BitVec 3) (u : BitVec 6)
  /-- ST_L (R131): ST.L stores an accumulator. -/
  | stL (c : Fin 56) (t : Fin 8) (q : BitVec 2) (n : BitVec 3) (u : BitVec 6)
  /-- MM2_MOV (R133): Two-operand memory-to-memory MOV. -/
  | mm2Mov (c : Fin 56) (t : Fin 8) (dm dr sm sr : BitVec 3) (x : BitVec 12)
  /-- MM2_ADD (R133): Two-operand memory-to-memory ADD. -/
  | mm2Add (c : Fin 56) (t : Fin 8) (dm dr sm sr : BitVec 3) (x : BitVec 12)
  /-- MM2_SUB (R133): Two-operand memory-to-memory SUB. -/
  | mm2Sub (c : Fin 56) (t : Fin 8) (dm dr sm sr : BitVec 3) (x : BitVec 12)
  /-- MM2_AND (R133): Two-operand memory-to-memory AND. -/
  | mm2And (c : Fin 56) (t : Fin 8) (dm dr sm sr : BitVec 3) (x : BitVec 12)
  /-- MM2_OR (R133): Two-operand memory-to-memory OR. -/
  | mm2Or (c : Fin 56) (t : Fin 8) (dm dr sm sr : BitVec 3) (x : BitVec 12)
  /-- MM2_XOR (R133): Two-operand memory-to-memory XOR. -/
  | mm2Xor (c : Fin 56) (t : Fin 8) (dm dr sm sr : BitVec 3) (x : BitVec 12)
  /-- MM2_NOT (R133): Two-operand memory-to-memory NOT. -/
  | mm2Not (c : Fin 56) (t : Fin 8) (dm dr sm sr : BitVec 3) (x : BitVec 12)
  /-- MM2_NEG (R133): Two-operand memory-to-memory NEG. -/
  | mm2Neg (c : Fin 56) (t : Fin 8) (dm dr sm sr : BitVec 3) (x : BitVec 12)
  /-- MM3_ADD (R133): Three-operand memory-to-memory ADD. -/
  | mm3Add (c : Fin 56) (t : Fin 8) (dm dr am ar bm br : BitVec 3) (x : BitVec 6)
  /-- MM3_SUB (R133): Three-operand memory-to-memory SUB. -/
  | mm3Sub (c : Fin 56) (t : Fin 8) (dm dr am ar bm br : BitVec 3) (x : BitVec 6)
  /-- MM3_AND (R133): Three-operand memory-to-memory AND. -/
  | mm3And (c : Fin 56) (t : Fin 8) (dm dr am ar bm br : BitVec 3) (x : BitVec 6)
  /-- MM3_OR (R133): Three-operand memory-to-memory OR. -/
  | mm3Or (c : Fin 56) (t : Fin 8) (dm dr am ar bm br : BitVec 3) (x : BitVec 6)
  /-- MM3_XOR (R133): Three-operand memory-to-memory XOR. -/
  | mm3Xor (c : Fin 56) (t : Fin 8) (dm dr am ar bm br : BitVec 3) (x : BitVec 6)
  /-- MM3_MINU (R133): Three-operand memory-to-memory MINU. -/
  | mm3Minu (c : Fin 56) (t : Fin 8) (dm dr am ar bm br : BitVec 3) (x : BitVec 6)
  /-- MM3_MAXU (R133): Three-operand memory-to-memory MAXU. -/
  | mm3Maxu (c : Fin 56) (t : Fin 8) (dm dr am ar bm br : BitVec 3) (x : BitVec 6)
  /-- CB_P (R136): CB.P compares and branches through a target buffer entry, or takes TBMISS. -/
  | cbP (c : Fin 56) (t : Fin 8) (cond : BitVec 3) (cls : BitVec 2) (r q : BitVec 3) (k : BitVec 4)
  /-- CB (R136): CB compares two registers and branches to an absolute target. -/
  | cb (c : Fin 56) (t : Fin 8) (cond : BitVec 3) (cls : BitVec 2) (r q : BitVec 3) (target : Half)
  /-- CBI (R136): CBI compares a data register with an immediate and branches by displacement. -/
  | cbi (c : Fin 56) (t : Fin 8) (cond r : BitVec 3) (imm : Byte) (disp : BitVec 11)
  /-- JMP_P (R136): JMP.P jumps through a target buffer entry. -/
  | jmpP (c : Fin 56) (t : Fin 8) (k : BitVec 4)
  /-- CALL_P (R136): CALL.P calls through a target buffer entry and writes LK. -/
  | callP (c : Fin 56) (t : Fin 8) (k : BitVec 4)
  /-- RET_P (R136): RET.P returns to A7 through a held line. -/
  | retP (c : Fin 56) (t : Fin 8)
  /-- JMP (R136): JMP jumps to an absolute address. -/
  | jmp (c : Fin 56) (t : Fin 8) (target : Half)
  /-- CALL (R136): CALL calls an absolute address and writes LK. -/
  | call (c : Fin 56) (t : Fin 8) (target : Half)
  /-- JMP_INDIRECT (R136): JMP (An) jumps to the address in An. -/
  | jmpIndirect (c : Fin 56) (t : Fin 8) (n : BitVec 3)
  /-- CALL_INDIRECT (R136): CALL (An) calls the address in An and writes LK. -/
  | callIndirect (c : Fin 56) (t : Fin 8) (n : BitVec 3)
  /-- RET (R136): RET returns to A7. -/
  | ret (c : Fin 56) (t : Fin 8)
  /-- TBL (R137): TBL loads a target buffer entry with a target and its line. -/
  | tbl (c : Fin 56) (t : Fin 8) (k : BitVec 4) (target : Half)
  /-- TAS (R138): TAS reads a shared byte and sets it to 0xFF. -/
  | tas (c : Fin 56) (t : Fin 8) (d n : BitVec 3)
  /-- LR_B (R138): LR.B reads a shared byte and sets the thread's reservation. -/
  | lrB (c : Fin 56) (t : Fin 8) (d n : BitVec 3)
  /-- SC_B (R138): SC.B stores a byte only if the reservation holds. -/
  | scB (c : Fin 56) (t : Fin 8) (d n : BitVec 3)
  /-- REP_IMM (R140): REP #u repeats the next instruction u times. -/
  | repImm (c : Fin 56) (t : Fin 8) (u : Byte)
  /-- REP_REG (R140): REP An repeats the next instruction as many times as An holds. -/
  | repReg (c : Fin 56) (t : Fin 8) (n : BitVec 3)
  /-- NOP (R142): NOP does nothing for one thread cycle. -/
  | nop (c : Fin 56) (t : Fin 8)
  /-- YIELD (R45): YIELD ends the thread's work for the tick. -/
  | yield (c : Fin 56) (t : Fin 8)
  /-- RETI (R159): RETI returns from a trap, resuming any REP and any yield. -/
  | reti (c : Fin 56) (t : Fin 8)
  /-- IFLUSH (R142): IFLUSH refills the line buffers and refetches every valid target buffer line. -/
  | iflush (c : Fin 56) (t : Fin 8)
  /-- SYS (R142): SYS takes the SYS trap. -/
  | sys (c : Fin 56) (t : Fin 8) (imm : Byte)
  /-- BRK (R142): BRK takes the BREAK trap. -/
  | brk (c : Fin 56) (t : Fin 8) (imm : Byte)
  /-- WAITEV (R163): WAITEV continues if a selected event bit is set, or puts the thread in WAITEV. -/
  | waitev (c : Fin 56) (t : Fin 8) (mask : Byte)
  /-- SIGNAL (R142): SIGNAL sets event bit 0 of a thread of the tile. -/
  | signal (c : Fin 56) (t : Fin 8) (u : BitVec 3)
  /-- UNDEFINED_INSTRUCTION (R144): An undefined encoding takes the UNDEF trap with no other effect. -/
  | undefinedInstruction (c : Fin 56) (t : Fin 8)
  /-- BUDGET_TRAP (R44): A thread's counter reaches BUDGET before YIELD; a bound thread traps and an unbound one sets
  OVER. -/
  | budgetTrap (c : Fin 56) (t : Fin 8)
  /-- THREAD_INTERRUPT_TRAP (R161): A delivered interrupt begins trap entry with cause 7 in the thread's next slot.
  Operands: `spent` cycles of a DIVQ have passed. -/
  | threadInterruptTrap (c : Fin 56) (t : Fin 8) (spent : Fin 17)
  /-- WAITEV_WAKE (R163): A selected event bit set wakes a waiting thread within 3 to 10 KCLK. -/
  | waitevWake (c : Fin 56) (t : Fin 8)
  /-- KEEPER_EOI (R161): A keeper write to EOI pops the thread target's priority stack. -/
  | keeperEoi (c : Fin 56) (t : Fin 8)
  /-- MB_REPLY (R167): A write to MB_REPLY completes the CALL-KEEPER order with the status and residual. -/
  | mbReply (c : Fin 56) (t : Fin 8) (v : Byte)
  /-- PUB_GO (R253): PUB_GO publishes value, quality and time into a signal slot's live copy. -/
  | pubGo (c : Fin 56)
  /-- CH_COMMIT_WINDOW (R235): CH_COMMIT with SRC 0 commits a record built in the chamber window. -/
  | chCommitWindow (c : Fin 56) (t : Fin 8) (w : Long)
  /-- CH_COMMIT_RX (R236): CH_COMMIT with SRC 1 commits the RX FIFO's head item whole. -/
  | chCommitRx (c : Fin 56) (t : Fin 8) (w : Long)
  /-- COMMIT_COPY_DONE (R235): A commit's copy into the half completes and its result becomes DONE. -/
  | commitCopyDone (c : Fin 56) (t : Fin 8)
  /-- CS_DATA_WRITE (R427): A CS_DATA store queues one code-store halfword and advances CS_ADDR, or is discarded. -/
  | csDataWrite (c : Fin 56) (h : Half)
  /-- CS_PROGRAM_DONE (R427): The code-store write queue programs one halfword into MRAM every 40 ns. -/
  | csProgramDone (c : Fin 56)
  /-- KEEPER_TIME_READ (R31): A keeper read of tile I/O TIME_NS latches TIME_NS and TICKNO. -/
  | keeperTimeRead (c : Fin 56) (t : Fin 8)
  /-- RX_DATA_READ (R188): A read of RX_DATA returns 8 B of the head item and advances it. -/
  | rxDataRead (c : Fin 56)
  /-- RX_POP (R188): RX_POP removes the rest of the head item. -/
  | rxPop (c : Fin 56)
  /-- TX_DATA_WRITE (R188): A write of TX_DATA appends 8 B to the TX item being built. -/
  | txDataWrite (c : Fin 56) (v : Word)
  /-- TX_PUSH (R189): TX_PUSH ends the TX item, which is checked and queued or discarded. -/
  | txPush (c : Fin 56)
  /-- MBI_DATA_READ (R188): A keeper read of MBI_DATA removes the head of mailbox in. -/
  | mbiDataRead (c : Fin 56)
  /-- KEEPER_MBO_PUSH (R188): A keeper write of MBO_DATA pushes 8 B to mailbox out. -/
  | keeperMboPush (c : Fin 56) (v : Word)
  /-- HOST_MBI_PUSH (R188): A host write of MBI_DATA pushes 8 B to mailbox in. -/
  | hostMbiPush (c : Fin 56) (v : Word)
  /-- HOST_MBO_READ (R188): A host read of MBO_DATA returns and removes the head of mailbox out. -/
  | hostMboRead (c : Fin 56)
  /-- BE_MODE_WRITE (R172): A write of BE_MODE sets the bus mode while the channel is disabled, or is refused. -/
  | beModeWrite (c : Fin 56) (v : Word)
  /-- CAN_FRAME (R178): A CAN frame becomes valid; it is filtered and placed in the RX FIFO as an item. -/
  | canFrame (c : Fin 56) (f : CanFrame) (ts : Word)
  /-- CAN_PROTOCOL_ERROR (R178): A CAN protocol error is counted under fault confinement. -/
  | canProtocolError (c : Fin 56) (kind : Fin 5) (tx primary : Bool)
  /-- CAN_RECOVERY_DONE (R180): The bus-off recovery sequence ends and the engine returns to ON. -/
  | canRecoveryDone (c : Fin 56)
  /-- LIN_HEADER (R181): A LIN header arrives and a responder answers from a matching TX item or stays silent. -/
  | linHeader (c : Fin 56) (h : LinHead) (ts : Word)
  /-- LIN_FRAME (R181): A LIN frame ends after its checksum and is placed as an item. -/
  | linFrame (c : Fin 56) (f : LinFrame) (ts : Word)
  /-- LIN_RESPONSE_TIMEOUT (R177): A LIN response timeout ends a header-only item. -/
  | linResponseTimeout (c : Fin 56) (pid : Byte) (rate : Half)
  /-- SENT_MESSAGE (R182): A SENT message ends after its CRC nibble and is placed as an item, or discarded on a bad
  calibration pulse. -/
  | sentMessage (c : Fin 56) (m : SentMsg) (ts : Word)
  /-- PSI5_FRAME (R183): A PSI5 frame ends and is placed as an item of its slot. -/
  | psi5Frame (c : Fin 56) (data : Long) (ts : Word) (check : BitVec 3) (manchErr : Bool)
  /-- PSI5_SYNC (R183): In synchronous mode the engine raises SYNC for 15 µs at each SYNC_PERIOD_US multiple. -/
  | psi5Sync (c : Fin 56)
  /-- UART_CHARACTER (R177): A UART character is received into the current item, which ends on DELIM or MAX_LEN. -/
  | uartCharacter (c : Fin 56) (ch : BitVec 9) (ts : Word) (frErr paErr : Bool)
  /-- UART_ITEM_END (R177): IDLE_BITS idle bit times end the current UART item. -/
  | uartItemEnd (c : Fin 56)
  /-- DIGITAL_EDGE (R186): A filtered edge on a digital input places an item. -/
  | digitalEdge (c : Fin 56) (n : Fin 4) (level : Bool) (ts : Word)
  /-- CAPTURE_EDGE (R186): A counted edge on a capture or quadrature pin updates its tick summary. -/
  | captureEdge (c : Fin 56) (n : Fin 4) (level : Bool) (ts : Word)
  /-- TX_ITEM_SENT (R100): A TX item has left the engine, counting TX_OK and completing a TRANSMIT when it was the
  last. -/
  | txItemSent (c : Fin 56)
  /-- SPI_TRANSFER_DONE (R189): An SPI exchange finishes shifting and its received data is accepted. -/
  | spiTransferDone (c : Fin 56) (bs : List Byte)
  /-- I2C_TRANSFER_DONE (R184): An I2C transaction ends and its order completes. -/
  | i2cTransferDone (c : Fin 56) (addr : BitVec 7) (bs : List Byte)
  /-- I2C_STRETCH_TIMEOUT (R184): A clock stretch longer than STRETCH_MAX ends the order with BUS_ERROR. -/
  | i2cStretchTimeout (c : Fin 56) (left : Half)
  /-- I2C_ARB_LOST (R184): Lost arbitration ends the order with BUS_ERROR. -/
  | i2cArbLost (c : Fin 56) (left : Half)
  /-- I2C_NACK (R184): A NACK ends the order with NO_PARTNER or BUS_ERROR. -/
  | i2cNack (c : Fin 56) (ofAddr : Bool) (addr : BitVec 7) (left : Half)
  /-- PIN_STUCK (R338): A push-pull output reads back opposite for 64 QCLK cycles and the channel pin asserts code
  0x07. -/
  | pinStuck (c : Fin 56)
  /-- BUS_ON_LISTEN (R190): Control code 0x0001 turns the engine on in listen-only operation. -/
  | busOnListen (c : Fin 56)
  /-- BUS_ON (R190): Control code 0x0002 turns the engine on as configured or starts CAN recovery. -/
  | busOn (c : Fin 56)
  /-- BUS_OFF (R190): Control code 0x0003 turns the engine off with outputs at safe levels. -/
  | busOff (c : Fin 56)
  /-- SET_MODE (R190): Control code 0x0004 changes MODE and RXPATH with the engine off. -/
  | setMode (c : Fin 56)
  /-- CLEAR_PARTNERS (R190): Control code 0x0006 makes every partner entry FREE. -/
  | clearPartners (c : Fin 56)
  /-- PARTNER_SCAN (R190): Control code 0x0007 probes I2C addresses and updates the partner table. -/
  | partnerScan (c : Fin 56) (acks : BitVec 128)
  /-- CLEAR_COUNTERS (R190): Control code 0x0008 clears the STATS counters. -/
  | clearCounters (c : Fin 56)
  /-- SET_CFG (R190): Control codes 0x0100 upward write a BUSENG configuration register. -/
  | setCfg (c : Fin 56)
  /-- SENSE_COUNTERS (R191): Sense code 0x0001 writes the 64 B counter snapshot. -/
  | senseCounters (c : Fin 56)
  /-- SENSE_BE_STATUS (R191): Sense code 0x0002 writes BE_STATUS. -/
  | senseBeStatus (c : Fin 56)
  /-- SENSE_PARTNER_TABLE (R191): Sense code 0x0003 writes the partner table. -/
  | sensePartnerTable (c : Fin 56)
  /-- SENSE_BUSENG_CONFIG (R191): Sense code 0x0004 writes the BUSENG configuration registers. -/
  | senseBusengConfig (c : Fin 56)
  /-- ETH_FILTER_DECISION (R222): After 22 bytes or the frame end, the MAC decides KEEP, DROP or FIFO by the filters. -/
  | ethFilterDecision (c : Fin 56) (sfd : Word) (h : List Byte)
  /-- ETH_PIECE_COMMIT (R223): A full 8,192 B piece of a long frame is committed as soon as it is complete. Operands:
  bytes that have arrived since the last part. -/
  | ethPieceCommit (c : Fin 56) (p : EthPart)
  /-- ETH_FRAME_END (R223): A received frame ends and its last piece, and any FIFO item, is committed. -/
  | ethFrameEnd (c : Fin 56) (data : List Byte) (fcsErr codeErr : Bool)
  /-- ETH_FRAME_SENT (R225): A transmitted frame ends, in strict priority order. -/
  | ethFrameSent (x : SentFrame)
  /-- LINK_UP (R230): The PCS and PHY report link up; the link partner entry becomes PRESENT. -/
  | linkUp (c : Fin 56) (speed : Fin 6)
  /-- LINK_DOWN (R230): The link goes down; the link partner entry becomes ABSENT at once. -/
  | linkDown (c : Fin 56) (data : List Byte)
  /-- PHY_INT (R219): A falling PHY_INTn_N sets BE_EVT.PHY_INT. -/
  | phyInt (c : Fin 56)
  /-- MDIO_GO (R220): MDIO_CMD.GO sends an MDIO command and sets BUSY. -/
  | mdioGo (c : Fin 56) (v : Word)
  /-- MDIO_DONE (R220): An MDIO command completes, clearing BUSY and setting MDIO_DONE. -/
  | mdioDone (c : Fin 56) (data : Half)
  /-- PTP_SYNC_SEND (R228): A grandmaster sends two-step Sync every 2^LOG_SYNC s. -/
  | ptpSyncSend (c : Fin 56)
  /-- PTP_PDELAY_SEND (R228): A gPTP port sends Pdelay_Req every 2^LOG_PDELAY s. -/
  | ptpPdelaySend (c : Fin 56)
  /-- PTP_MESSAGE (R228): A received gPTP message updates link delay, asCapable and, for the selected follower, the
  servo. -/
  | ptpMessage (c : Fin 56) (m : PtpMsg)
  /-- TEL_DATAGRAM_SEND (R229): A queued telemetry datagram is sent under the rate limit. -/
  | telDatagramSend (c : Fin 56)
  /-- BM_ARM (R210): BM_CTRL.ARM arms the shadow set for hand-over, or is refused. -/
  | bmArm (c : Fin 56) (v : Word)
  /-- BM_DISARM (R209): BM_CTRL.DISARM clears ARM unless the hand-over has already won. -/
  | bmDisarm (c : Fin 56) (v : Word)
  /-- BM_SHADOW_WRITE (R209): A write to the shadow set is stored, or refused while ARM is 1. Operands: SH_PROG,
  SH_BA0 to SH_BA3 or SH_CNT. -/
  | bmShadowWrite (c : Fin 56) (r : Fin 6) (v : Word)
  /-- BM_KICK (R203): BM_CMD.KICK sets BM_STATUS.KICK, merging with a pending kick. -/
  | bmKick (c : Fin 56)
  /-- BM_ABORT (R211): BM_CMD.ABORT ends the running program at its next instruction boundary. -/
  | bmAbort (c : Fin 56)
  /-- BM_CLEAR (R212): BM_CMD.CLEAR takes the mover from ERROR to IDLE. -/
  | bmClear (c : Fin 56)
  /-- HANDOVER (R210): The armed shadow set is copied to the active set and the program starts at instruction 0. -/
  | handover (c : Fin 56)
  /-- BARGE_MOVE (R201): A MOVE checks its ranges and starts copying LEN bytes. -/
  | bargeMove (c : Fin 56)
  /-- BARGE_MOVE_DONE (R208): A MOVE's transfer completes and its increments apply. Operands: what the host returned,
  and how the transfer ended. -/
  | bargeMoveDone (c : Fin 56) (data : List Byte) (e : MoveEnd)
  /-- BARGE_HOST_TIMEOUT (R215): A host request that cannot be issued for 1 ms ends the program with BARGE_HOST.
  Operands: `n` bytes had been moved. -/
  | bargeHostTimeout (c : Fin 56) (data : List Byte) (n : Nat)
  /-- BARGE_LOOP (R202): A barge LOOP decrements its counter and branches or reloads and falls through. -/
  | bargeLoop (c : Fin 56)
  /-- BARGE_WAIT (R203): A barge WAIT holds the program until its TICK, LOCK, TIME or KICK condition. -/
  | bargeWait (c : Fin 56)
  /-- BARGE_WAIT_END (R203): A barge WAIT's condition is met and the next instruction is dispatched. -/
  | bargeWaitEnd (c : Fin 56)
  /-- BARGE_SIGNAL (R204): A barge SIGNAL waits until earlier writes have left the mover. -/
  | bargeSignal (c : Fin 56)
  /-- BARGE_SIGNAL_FIRE (R213): The SIGNAL fires, setting LASTSIG and a thread event bit or BM_EVT.SIGNAL. -/
  | bargeSignalFire (c : Fin 56)
  /-- BARGE_FENCE (R205): A barge FENCE waits for earlier writes in its scope to arrive. -/
  | bargeFence (c : Fin 56)
  /-- BARGE_FENCE_DONE (R214): All acknowledgements of a barge FENCE return. -/
  | bargeFenceDone (c : Fin 56) (ok : Bool)
  /-- BARGE_SETL (R206): ADDR SETL sets the low 48 bits and bit 63 of an address register. -/
  | bargeSetl (c : Fin 56)
  /-- BARGE_SETH (R206): ADDR SETH sets bits 62:48 of an address register. -/
  | bargeSeth (c : Fin 56)
  /-- BARGE_ADD (R206): ADDR ADD adds a signed immediate to an address register. -/
  | bargeAdd (c : Fin 56)
  /-- BARGE_MOV (R206): ADDR MOV copies one address register to another. -/
  | bargeMov (c : Fin 56)
  /-- BARGE_SWAP (R206): ADDR SWAP exchanges two address registers. -/
  | bargeSwap (c : Fin 56)
  /-- BARGE_RESTORE (R206): ADDR RESTORE reloads an address register from its initial value. -/
  | bargeRestore (c : Fin 56)
  /-- BARGE_NOP (R207): A barge NOP does nothing. -/
  | bargeNop (c : Fin 56)
  /-- BARGE_STOP (R207): A barge STOP ends the program and takes a pending hand-over or goes IDLE. -/
  | bargeStop (c : Fin 56)
  /-- BARGE_UNDEFINED (R207): An undefined barge instruction ends the program with BARGE_INVALID. -/
  | bargeUndefined (c : Fin 56)
  /-- DRAIN_SLOT (R40): At a lock schedule entry's offset the oldest FULL half requests credits and starts draining,
  waits or is refused. -/
  | drainSlot (n : Fin 448)
  /-- DRAIN_END (R237): A drain's last byte reaches the pound and the half becomes EMPTY, leaving WEIR if it was in
  it. -/
  | drainEnd (c : Fin 56)
  /-- CREDIT_RELEASE (R244): DRAM accepts a credit's last write and the credit is freed in allocation order. -/
  | creditRelease
  /-- BASIN_CHAMBER_DRAIN (R242): The Basin chamber drains 1 µs after each tick edge. -/
  | basinChamberDrain
  /-- COURSE_COMPLETE (R246): When every half of tick N has drained, the course header is written in ascending tick
  order. -/
  | courseComplete
  /-- LOST_DRAIN (R243): A half still FULL when the disable bound expires is discarded and replaced by a gap extent. -/
  | lostDrain (c : Fin 56)
  /-- RING_CONFIG_WRITE (R248): A write of RING_BASE or RING_SIZE with every channel disabled empties the ring. -/
  | ringConfigWrite (size : Bool) (v : Word)
  /-- POUND_STATUS_READ (R8): A read of POUND_STATUS returns MIN_FREE and restarts it at FREE. -/
  | poundStatusRead
  /-- MON_MIN_READ (R8): A read of MONn word 1 returns MIN_MV and restarts it at NOW_MV. -/
  | monMinRead (n : Fin 10)
  /-- SIG_RANGE_WRITE (R251): A write of SIG_RANGEc assigns slots and empties every slot entering or leaving the
  range. -/
  | sigRangeWrite (n : Fin 57) (v : Word)
  /-- SIG_HOST_PUB (R256): A host write of SIG_HOST_PUB publishes into the host's range. -/
  | sigHostPub (v : Word)
  /-- SIGNAL_SLOT_READ (R256): A read of word 0 of a slot entry latches word 1 of that slot. -/
  | signalSlotRead (live : Bool) (n : BitVec 12)
  /-- KEYSTONE_EVALUATION (R261): Keystone k evaluates its terms over the view and ends at its fixed point end_k. -/
  | keystoneEvaluation (k : Fin 64)
  /-- TRIG_OUT_END (R263): A trigger output falls PULSE_US after its last rise point. -/
  | trigOutEnd (n : Fin 2)
  /-- TRIG_IN_EDGE (R258): A rising edge on TRIG_IN0 or TRIG_IN1 is latched with its time. Operands: the pin's level;
  a rise is the edge that is latched. -/
  | trigInEdge (n : Fin 2) (level : Bool)
  /-- KEYSTONE_ENABLE (R265): Setting KEY_CTRLk.EN schedules the keystone's enable for the next edge. -/
  | keystoneEnable (k : Fin 64)
  /-- KEYSTONE_DISABLE (R265): Clearing KEY_CTRLk.EN schedules the keystone's disable for the next edge. -/
  | keystoneDisable (k : Fin 64)
  /-- KEYSTONE_UNLOAD (R265): KEY_CTRLk.UNLOAD removes the program at the next edge. -/
  | keystoneUnload (k : Fin 64)
  /-- COMPRESSION_DONE (R273): An engine finishes compressing a span, which then enters placement. -/
  | compressionDone (id : Nat)
  /-- DEGRADATION_STEP (R288): After STEP_TICKS the degradation LEVEL rises, falls or stays by staging and free space. -/
  | degradationStep
  /-- SEGMENT_COMMIT (R310): A segment starts its commit after its last span write completes: footer, Flush,
  superblock. -/
  | segmentCommit (n : Fin 4)
  /-- COMMIT_MS_EXPIRE (R310): COMMIT_MS after a segment's first span, the segment is committed. -/
  | commitMsExpire (n : Fin 4)
  /-- SPAN_WRITE_DONE (R310): An NVMe Write of a span completes. -/
  | spanWriteDone (n : Fin 4) (id : Nat)
  /-- FOOTER_WRITE_DONE (R310): The footer write completes and Flush is issued. -/
  | footerWriteDone (n : Fin 4)
  /-- FLUSH_DONE (R310): The Flush completes and the superblock is written. -/
  | flushDone (n : Fin 4)
  /-- SUPERBLOCK_WRITE_DONE (R300): The FUA superblock write completes and the segment counts as committed. -/
  | superblockWriteDone (n : Fin 4)
  /-- DRIVE_PRESENT (R286): PRSNT# asserted with ENABLE 1 moves the drive to LINKING. -/
  | drivePresent (n : Fin 4)
  /-- DRIVE_PERST_RELEASE (R286): PERST# is released 100 ms after presence. -/
  | drivePerstRelease (n : Fin 4)
  /-- DRIVE_LINK_UP (R286): The drive link trains and the drive moves to IDENTIFY. -/
  | driveLinkUp (n : Fin 4) (width : BitVec 3)
  /-- DRIVE_LINK_TIMEOUT (R283): No link within 100 ms of PERST# release fails the drive. -/
  | driveLinkTimeout (n : Fin 4)
  /-- DRIVE_IDENTIFY_DONE (R301): Identification ends and the drive becomes ONLINE, READ_ONLY, BLANK or FAILED by its
  superblock. -/
  | driveIdentifyDone (n : Fin 4) (d : DriveId)
  /-- NVME_COMPLETION_POLL (R284): Every 1 µs the completion queues are polled and completed commands are taken.
  Operands: `comps`: the completions found, each the place of its command among those posted and not yet completed,
  and whether it reports an error. -/
  | nvmeCompletionPoll (n : Fin 4) (comps : List (Nat × Bool))
  /-- DRIVE_COMMAND_TIMEOUT (R283): A command not completed within 5 s fails the drive. -/
  | driveCommandTimeout (n : Fin 4)
  /-- SMART_POLL (R284): Every 10 s the SMART log is read and a Critical Warning is flagged. -/
  | smartPoll (n : Fin 4) (warn : Byte)
  /-- DRIVE_LINK_LOST (R283): Link loss with PRSNT# still asserted fails the drive. -/
  | driveLinkLost (n : Fin 4)
  /-- DRIVE_REMOVED (R286): PRSNT# deasserted makes the drive ABSENT at once and its uncommitted spans are placed
  again. -/
  | driveRemoved (n : Fin 4)
  /-- DRIVE_FORMAT (R287): DRIVE_CTRL.FORMAT writes a fresh Quay layout to a BLANK drive, or a READ_ONLY one with
  ERASE_OK. -/
  | driveFormat (n : Fin 4) (v : Word)
  /-- DRIVE_EJECT (R286): DRIVE_CTRL.EJECT commits open segments, deletes the I/O queues and makes the drive EJECTED. -/
  | driveEject (n : Fin 4) (v : Word)
  /-- DRIVE_ENABLE (R286): A write of DRIVE_CTRL.ENABLE takes the drive out of use or brings it back to LINKING. -/
  | driveEnable (n : Fin 4) (v : Word)
  /-- IC_DELIVERY (R321): The highest eligible pending source is delivered to its target and pushed on its stack. -/
  | icDelivery (t : BitVec 10)
  /-- HOLDOFF_EXPIRE (R324): A hold-off group's interval ends and its pending members become eligible. -/
  | holdoffExpire (g : BitVec 7)
  /-- HV_EOI_WRITE (R323): A write of HV_EOIv pops host vector v's stack. -/
  | hvEoiWrite (v : Fin 64) (x : Word)
  /-- IC_SRC_SET (R318): SRCs.SET sets the source's edge latch. -/
  | icSrcSet (n : Fin 640)
  /-- IC_SRC_CLR (R318): SRCs.CLR clears the source's edge latch. -/
  | icSrcClr (n : Fin 640)
  /-- ERROR_PIN_ASSERT (R340): An error pin asserts; its FAULT_STATUS bit sets and the first fault latches and starts
  the grace timer. Operands: with its code, whether it stays asserted, and the pins that assert with it. -/
  | errorPinAssert (pin : Fin 64) (e : PinEvent)
  /-- FAULT_ACK (R341): A FAULT_ACK write with the right token clears VALID and stops the timer, or is refused. -/
  | faultAck (v : Word)
  /-- FAULT_ESCALATION (R342): REMAINING reaches zero and the first fault escalates to a fence, HALT or critical
  reset. Operands: `bad` spare tiles fail the test of a reseat that follows. -/
  | faultEscalation (bad : BitVec 3) (b : Boot)
  /-- RESEAT_COPY_DONE (R345): The code-store copy to the target tile finishes and the channel waits for a cutover
  edge. -/
  | reseatCopyDone (c : Fin 56)
  /-- RESEAT_RESUME (R345): The state copy ends and threads and sequencer resume on the target tile. -/
  | reseatResume (c : Fin 56)
  /-- RESEAT_TIMEOUT (R345): No qualifying edge within 16 ticks completes the reseat with TIMEOUT. -/
  | reseatTimeout (c : Fin 56)
  /-- SCRUB_READ (R337): A scrub read checks a word, correcting it or rewriting it poisoned. Operands: the place and
  the syndrome of its word. -/
  | scrubRead (p : ScrubAt) (syn : Byte)
  /-- LANE_RETIRE (R348): A lane reporting 16 receiver errors within 1 s is retired and the port retrains narrower. -/
  | laneRetire (p : Fin 15) (lane : Fin 8)
  /-- GET_INFO (R371): Mailbox GET_INFO returns version, slot, boot and identity information. -/
  | getInfo
  /-- SENSORS (R371): Mailbox SENSORS returns temperatures, rail levels, PLL locks and ring-oscillator counts. -/
  | sensors
  /-- LOG_READ (R371): Mailbox LOG_READ copies event-log entries to host memory. -/
  | logRead
  /-- REPAIR_READ (R371): Mailbox REPAIR_READ copies the repair map to host memory. -/
  | repairRead
  /-- REPAIR_CLEAR (R371): Mailbox REPAIR_CLEAR removes repair map entries of the selected kinds. -/
  | repairClear
  /-- MB_HALT (R371): Mailbox HALT puts the device in HALT with HALT_CAUSE 0x03. -/
  | mbHalt
  /-- MB_RESET (R372): Mailbox RESET schedules a warm reset, after an orderly halt when ORDERLY is set. -/
  | mbReset
  /-- MB_RESET_FIRE (R371): 10 ms after the RESET response the warm reset is asserted. -/
  | mbResetFire (b : Boot)
  /-- KEY_WRITE (R375): Mailbox KEY_WRITE stores a key in an empty slot and returns its KCV. -/
  | keyWrite
  /-- KEY_CLEAR (R375): Mailbox KEY_CLEAR empties a key slot not named by an open stream. -/
  | keyClear
  /-- KEY_INFO (R371): Mailbox KEY_INFO returns each slot's kind, KCV and EPOCH. -/
  | keyInfo
  /-- FW_RECOVER (R377): Mailbox FW_RECOVER stages a firmware image as FIRMWARE_STAGE does. -/
  | fwRecover
  /-- FW_SELECT (R378): Mailbox FW_SELECT marks a VALID slot PENDING for the next reset. -/
  | fwSelect
  /-- DEBUG_CHALLENGE (R380): Mailbox DEBUG_CHALLENGE returns a fresh nonce and the serial number. -/
  | debugChallenge
  /-- DEBUG_UNLOCK (R380): Mailbox DEBUG_UNLOCK checks the signatures and opens debug level 1 or 2. -/
  | debugUnlock
  /-- DEBUG_NONCE_EXPIRE (R380): A debug nonce expires 10 minutes after its challenge. -/
  | debugNonceExpire
  /-- COSIGN_SET (R379): Mailbox COSIGN_SET stores the customer key hash once in the device's life. -/
  | cosignSet
  /-- CONFIG_READ (R371): Mailbox CONFIG_READ copies the configuration image in force to host memory. -/
  | configRead
  /-- MAILBOX_LONG_DONE (R370): A long mailbox command finishes, writing its response and status and setting DONE. -/
  | mailboxLongDone (data : HostRd)
  /-- LOG_RATE_SECOND (R374): At the end of each second suppressed event counts are written as LOG_SUPPRESSED entries. -/
  | logRateSecond
  /-- DRYDOCK_CONSOLE_REPEAT (R363): In DRYDOCK the console line for the failing step repeats every 2 s. -/
  | drydockConsoleRepeat
  /-- TP_SIGNAL_DETECT (R386): An enabled towpath port detects signal and starts TRAINING. -/
  | tpSignalDetect (p : Fin 2)
  /-- TP_BLOCK_LOCK (R386): Block lock on a lane pair moves the port to NEGOTIATE. Operands: on both lane pairs or on
  one. -/
  | tpBlockLock (p : Fin 2) (two : Bool)
  /-- TP_TRAINING_TIMEOUT (R386): No block lock within 100 ms returns the port to DOWN. -/
  | tpTrainingTimeout (p : Fin 2)
  /-- TP_RETRY (R386): 1 s after a failed training the port retries. -/
  | tpRetry (p : Fin 2)
  /-- TP_HELLO_SEND (R385): Every 1 ms, and at each change, a port sends HELLO. -/
  | tpHelloSend (p : Fin 2)
  /-- HELLO (R386): A received HELLO negotiates the link revision and updates position and election. -/
  | hello (p : Fin 2) (f : TpFrame)
  /-- TP_HELLO_TIMEOUT (R386): Three HELLO periods without a HELLO take the link DOWN. -/
  | tpHelloTimeout (p : Fin 2)
  /-- TP_LINK_LOSS (R386): Block lock lost or 16 uncorrectable words in 1 s take the link DOWN and assert the towpath
  pin. -/
  | tpLinkLoss (p : Fin 2)
  /-- SYNC_REQ_SEND (R389): Every 1 ms a non-master sends SYNC_REQ on its master-facing port. -/
  | syncReqSend
  /-- SYNC_REQ (R389): A received SYNC_REQ is answered with SYNC_RSP. -/
  | syncReq (p : Fin 2) (f : TpFrame)
  /-- SYNC_RSP (R389): A received SYNC_RSP yields a delay and offset measurement for the servo. -/
  | syncRsp (p : Fin 2) (f : TpFrame)
  /-- KS_EVENT (R391): A received KS_EVENT is latched for the next tick, forwarded and pulses source 524. -/
  | ksEvent (p : Fin 2) (f : TpFrame)
  /-- SIGNALS (R392): A received SIGNALS frame imports its entries as host-range publishes. -/
  | signals (p : Fin 2) (f : TpFrame)
  /-- BEACON_SEND (R393): In DRYDOCK a BEACON is sent on each port every 100 ms. -/
  | beaconSend (p : Fin 2)
  /-- BEACON (R393): A received BEACON sets BEACON_SEEN and is logged once per boot of the sender. -/
  | beacon (p : Fin 2) (f : TpFrame)
  /-- SPLIT_LOW_WRITE (R397): A 32-bit write of a register's low half is staged in the page's split buffer. -/
  | splitLowWrite (a : BitVec 26) (v : Long)
  /-- SPLIT_HIGH_WRITE (R397): A 32-bit write of a high half acts as one 64-bit write with the staged or present low
  half. Operands: `a` is the address of the 64-bit register. -/
  | splitHighWrite (a : BitVec 26) (v : Long)
  /-- LOW_HALF_READ (R397): A 32-bit read of a low half reads the register with its read action and keeps the high
  half as snapshot. Operands: `r` is what is read: a low half of BAR0; the table has no row for the host's other
  reads, of other sizes (R396), of BAR4 (R325) or of configuration space (R406), which come with it. -/
  | lowHalfRead (r : HostRead)
  /-- HIGH_HALF_READ (R397): A 32-bit read of a high half returns the snapshot or reads the register afresh. Operands:
  `a` is the address of the 64-bit register. -/
  | highHalfRead (a : BitVec 26)
  /-- UNMAPPED_ACCESS (R395): An access to an unassigned BAR0 address reads zero or is ignored and counts in HP_STATS. -/
  | unmappedAccess (a : BitVec 26) (write : Bool)
  /-- REGISTER_WRITE (R398): A write to a register with no row of its own acts on its defined fields under its access
  codes and state rules. -/
  | registerWrite (sp : RegSpace) (a : BitVec 26) (v : Word)
  /-- SHADOW_HOLD (R402): Setting SHADOW_CTRL.HOLD starts staging writes to the page. Operands: of the page that holds
  `a`. -/
  | shadowHold (a : BitVec 26)
  /-- SHADOW_RELEASE (R402): Clearing HOLD with no commit pending drops the staged writes. -/
  | shadowRelease (a : BitVec 26)
  /-- SHADOW_COMMIT (R402): SHADOW_CTRL.COMMIT schedules the staged writes for the next edge. -/
  | shadowCommit (a : BitVec 26)
  /-- SHADOW_DISCARD (R402): SHADOW_CTRL.DISCARD drops staged writes that are not committed. -/
  | shadowDiscard (a : BitVec 26)
  /-- BAR2_READ (R404): A BAR2 read returns device DRAM through the aperture in 8 B parts. -/
  | bar2Read (x : BitVec 36) (n : Half)
  /-- BAR2_WRITE (R404): A BAR2 write reaches device DRAM, or is discarded by range, WP or the device region. -/
  | bar2Write (x : BitVec 36) (bs : List Byte)
  /-- HOST_LINK_UP (R358): The host port completes link training and its link comes up, so configuration requests and
  device memory requests can flow. -/
  | hostLinkUp (width : BitVec 4)
  /-- BUS_MASTER_ENABLE_SET (R86): The host sets Bus Master Enable while the function is in D0, so held completions
  are written, pending interrupts delivered and polling resumed. -/
  | busMasterEnableSet
  /-- PWM_PERIOD (R186): A PWM output's QCLK count reaches HIGH or PERIOD, changing the pin level and, at the period
  start, taking up a newly written PERIOD or HIGH. -/
  | pwmPeriod (c : Fin 56) (n : Fin 4)
  /-- PSI5_SYNC_FALL (R183): 15 µs after it rose, the PSI5 SYNC request falls. -/
  | psi5SyncFall (c : Fin 56)
  /-- STAT_BLINK (R361): The STAT blink timer toggles STAT0, STAT1 or STAT2, or steps the DRYDOCK blink code. -/
  | statBlink
  /-- ORDERLY_RESET_TIMEOUT (R372): 2 s after an orderly RESET requested HALT without the commits finishing, the Toll
  House responds and schedules the reset anyway. -/
  | orderlyResetTimeout
  /-- BRACE_COMMIT_TIMEOUT (R342): 10 ms after a critical escalation in BRACE with BRACE_COMMIT still 1, the warm
  reset is asserted. -/
  | braceCommitTimeout (b : Boot)
  /-- UNKNOWN_CMD (R370): MB_CMD.GO with an opcode not in R371 completes at once with 0x85 UNKNOWN_CMD. -/
  | unknownCmd (v : Word)
  /-- CONTROL_CODE_UNDEFINED (R91): A CONTROL order whose code the channel's current mode does not define completes
  with REJECTED_STATE. -/
  | controlCodeUndefined (c : Fin 56)
  /-- SENSE_CODE_UNDEFINED (R91): A SENSE order whose code the channel's current mode does not define completes with
  REJECTED_STATE. -/
  | senseCodeUndefined (c : Fin 56)
  /-- JTAG_INSTRUCTION (R380): An instruction or data-register access through the JTAG port, including BYPASS, IDCODE,
  SAMPLE/PRELOAD, the gated instructions and the unlock register. -/
  | jtagInstruction (o : JtagOp)
deriving DecidableEq, Repr

end Sys2Proof
end

