-- ==== Sys2Proof/Decode.lean ====
section
/-!
DEFINITION. The command a table word spells. The rows of spec/opcode_table.json give no bits (their `fields` are empty), so no
word spells one. The words the device itself decodes, the keeper's halfwords, are in Machine/KeeperIsa.lean.
-/
namespace Sys2Proof

/-- The command a word of the opcode table's bits spells: the table gives no row any. -/
def decodeTableWord (_nbits _w : Nat) : Option Instr := none

end Sys2Proof
end

