-- ==== Sys2Proof/Config.lean ====
section
/-!
DEFINITION. What the spec leaves open or names by a published standard only: constants without a body. No proof can see a
value of one, so a statement that mentions one holds for every value it could have.
-/
namespace Sys2Proof

/-- The free value of a number: `State.free` counts them (a result the spec leaves open). -/
opaque Config.freeWord : Nat → Word

/-- TRIM the servo's PI law gives after a measurement (R48 names the law and bounds TRIM; it gives no gains): the offset,
the last TRIM and the number of the measurement, in units of 2^−40 ns per TBCLK. -/
opaque Config.servoTrim : Int → Int → Nat → Int

/-- The match an LZ4 engine finds at a place of a span's raw bytes: offset and length (R274 leaves the choice to the engine; one
that the format does not allow there stands for none). -/
opaque Config.lz4Match : List Byte → Nat → Nat × Nat

/-- The ECDSA P-384 signature of a digest verifies under a public key (R376, R380): `key` 0 is Grenath's key. -/
opaque Config.sigOk (key digest sig : List Byte) : Bool

/-- Grenath's public key (R377). -/
opaque Config.grenathKey : List Byte

end Sys2Proof
end

