-- ==== Sys2Proof/Machine/Fields.lean ====
section
/-!
DEFINITION. Every register of the register tables of `spec/` by the name the spec gives it: its BAR0 address
(R394, R403) and, for each of its fields, the bits it occupies and its reset value (R9).
`Reg.<REGISTER>` is the address, `Fld.<REGISTER>_<FIELD>` the field. Arguments: `c` a channel index, `n` a drive,
`i` the index in an array of registers, `p` the address of a page (the common header of R400).
-/
namespace Sys2Proof.Machine

/-- BAR0 address of page `p` of channel window `c` (R394). -/
def chPage (c p : Nat) : Nat := 0x1000000 + c * 0x40000 + p * 0x1000

/-- Reset values of CAN_NBT, CAN_DBT and CAN_XBT in that order (07, R178). -/
def canBtReset (i a b x : Nat) : Nat := if i = 0 then a else if i = 1 then b else x

/-- Factory WARN_MV of monitor `n` (15, R348). -/
def monWarnReset (n : Nat) : Nat := [715, 810, 810, 1140, 1710, 3130, 1000, 475, 1710, 9000].getD n 0

/-- Factory RESET_MV of monitor `n` (15, R348). -/
def monResetReset (n : Nat) : Nat := [690, 780, 780, 1100, 1650, 3000, 960, 455, 1650, 0].getD n 0

/-- Nominal level of monitor `n` in mV (15, R348); VSENSE has none, so the bound is the field's range. -/
def monNominal (n : Nat) : Nat := [750, 850, 850, 1200, 1800, 3300, 1050, 500, 1800, 65535].getD n 0

/-- DEV_STATE (01, R17). -/
def Reg.DEV_STATE : Nat := 0x100
def Fld.DEV_STATE_STATE : Fld := ⟨Reg.DEV_STATE, 0, 4, 1⟩
def Fld.DEV_STATE_PREV_STATE : Fld := ⟨Reg.DEV_STATE, 4, 4, 0⟩
def Fld.DEV_STATE_HALT_CAUSE : Fld := ⟨Reg.DEV_STATE, 8, 8, 0⟩
def Fld.DEV_STATE_BRACE_COUNT : Fld := ⟨Reg.DEV_STATE, 16, 8, 0⟩
/-- DEV_STATE_TICK (01, R17). -/
def Reg.DEV_STATE_TICK : Nat := 0x108
def Fld.DEV_STATE_TICK_ENTRY_TICK : Fld := ⟨Reg.DEV_STATE_TICK, 0, 48, 0⟩
/-- TIME_NS (02, R31). -/
def Reg.TIME_NS : Nat := 0x2100
def Fld.TIME_NS_TIME_NS : Fld := ⟨Reg.TIME_NS, 0, 64, 0⟩
/-- TICKNO (02, R31). -/
def Reg.TICKNO : Nat := 0x2108
def Fld.TICKNO_TICKNO : Fld := ⟨Reg.TICKNO, 0, 48, 0⟩
/-- TIME_SNAP (02, R31). -/
def Reg.TIME_SNAP : Nat := 0x2110
def Fld.TIME_SNAP_TICKNO : Fld := ⟨Reg.TIME_SNAP, 0, 48, 0⟩
/-- TICK_CFG (02, R32). -/
def Reg.TICK_CFG : Nat := 0x2118
def Fld.TICK_CFG_PERIOD_US : Fld := ⟨Reg.TICK_CFG, 0, 14, 100⟩
def Fld.TICK_CFG_PHASE_NS : Fld := ⟨Reg.TICK_CFG, 16, 24, 0⟩
/-- LOCK_CFG (02, R37). -/
def Reg.LOCK_CFG (c : Nat) : Nat := chPage c 0 + 0x100
def Fld.LOCK_CFG_RATE_LOG2 (c : Nat) : Fld := ⟨(Reg.LOCK_CFG c), 0, 3, (if 48 ≤ c then 1 else 0)⟩
/-- LS_ENTRY (02, R38). -/
def Reg.LS_ENTRY (i : Nat) : Nat := 0x4100 + i * 0x8
def Fld.LS_ENTRY_OFFSET_NS (i : Nat) : Fld := ⟨(Reg.LS_ENTRY i), 0, 24, 0⟩
def Fld.LS_ENTRY_CHANNEL (i : Nat) : Fld := ⟨(Reg.LS_ENTRY i), 24, 8, 0⟩
def Fld.LS_ENTRY_SUB (i : Nat) : Fld := ⟨(Reg.LS_ENTRY i), 32, 4, 0⟩
/-- LS_CTRL (02, R38). -/
def Reg.LS_CTRL : Nat := 0x3100
def Fld.LS_CTRL_COMMIT : Fld := ⟨Reg.LS_CTRL, 0, 1, 0⟩
def Fld.LS_CTRL_COUNT : Fld := ⟨Reg.LS_CTRL, 16, 9, 0⟩
def Fld.LS_CTRL_PENDING : Fld := ⟨Reg.LS_CTRL, 32, 1, 0⟩
def Fld.LS_CTRL_REJECT : Fld := ⟨Reg.LS_CTRL, 36, 4, 0⟩
/-- KEY_CFG (02, R40). -/
def Reg.KEY_CFG : Nat := 0x2120
def Fld.KEY_CFG_OFFSET_NS : Fld := ⟨Reg.KEY_CFG, 0, 24, 50000⟩
def Fld.KEY_CFG_EVAL_NS : Fld := ⟨Reg.KEY_CFG, 32, 24, 0⟩
/-- SEQ_BUDGET (02, R41). -/
def Reg.SEQ_BUDGET (c : Nat) : Nat := chPage c 1 + 0x100
def Fld.SEQ_BUDGET_BUDGET (c : Nat) : Fld := ⟨(Reg.SEQ_BUDGET c), 0, 24, 72000⟩
def Fld.SEQ_BUDGET_USED_LAST (c : Nat) : Fld := ⟨(Reg.SEQ_BUDGET c), 32, 32, 0⟩
/-- THREAD_BUDGET (02, R41). -/
def Reg.THREAD_BUDGET (c i : Nat) : Nat := chPage c 6 + 0x100 + i * 0x8
def Fld.THREAD_BUDGET_BUDGET (c i : Nat) : Fld := ⟨(Reg.THREAD_BUDGET c i), 0, 24, 9000⟩
def Fld.THREAD_BUDGET_BOUND (c i : Nat) : Fld := ⟨(Reg.THREAD_BUDGET c i), 24, 1, 1⟩
def Fld.THREAD_BUDGET_OVER (c i : Nat) : Fld := ⟨(Reg.THREAD_BUDGET c i), 25, 1, 0⟩
def Fld.THREAD_BUDGET_USED_LAST (c i : Nat) : Fld := ⟨(Reg.THREAD_BUDGET c i), 32, 32, 0⟩
/-- TB_CTRL (02, R45). -/
def Reg.TB_CTRL : Nat := 0x2128
def Fld.TB_CTRL_SRC : Fld := ⟨Reg.TB_CTRL, 0, 3, 0⟩
def Fld.TB_CTRL_SRC_CHAN : Fld := ⟨Reg.TB_CTRL, 3, 3, 0⟩
def Fld.TB_CTRL_AUTO_STEP : Fld := ⟨Reg.TB_CTRL, 8, 1, 1⟩
def Fld.TB_CTRL_PPS_OUT_EN : Fld := ⟨Reg.TB_CTRL, 9, 1, 1⟩
def Fld.TB_CTRL_LOCK_THRESH_NS : Fld := ⟨Reg.TB_CTRL, 16, 16, 100⟩
def Fld.TB_CTRL_HOLDOVER_MS : Fld := ⟨Reg.TB_CTRL, 32, 16, 3000⟩
def Fld.TB_CTRL_STEP_THRESH_US : Fld := ⟨Reg.TB_CTRL, 48, 16, 1000⟩
/-- TB_STATUS (02, R46). -/
def Reg.TB_STATUS : Nat := 0x2130
def Fld.TB_STATUS_SERVO : Fld := ⟨Reg.TB_STATUS, 0, 3, 0⟩
def Fld.TB_STATUS_ACTIVE_SRC : Fld := ⟨Reg.TB_STATUS, 4, 3, 0⟩
def Fld.TB_STATUS_CFG_PENDING : Fld := ⟨Reg.TB_STATUS, 7, 1, 0⟩
def Fld.TB_STATUS_OFFSET_NS : Fld := ⟨Reg.TB_STATUS, 32, 32, 0⟩
/-- TB_TRIM (02, R46). -/
def Reg.TB_TRIM : Nat := 0x2138
def Fld.TB_TRIM_TRIM : Fld := ⟨Reg.TB_TRIM, 0, 32, 0⟩
/-- STEP_DELTA (02, R48). -/
def Reg.STEP_DELTA : Nat := 0x2148
def Fld.STEP_DELTA_VALUE : Fld := ⟨Reg.STEP_DELTA, 0, 64, 0⟩
/-- STEP_CTRL (02, R48). -/
def Reg.STEP_CTRL : Nat := 0x2150
def Fld.STEP_CTRL_GO : Fld := ⟨Reg.STEP_CTRL, 0, 1, 0⟩
def Fld.STEP_CTRL_FORCE : Fld := ⟨Reg.STEP_CTRL, 1, 1, 0⟩
def Fld.STEP_CTRL_ABS : Fld := ⟨Reg.STEP_CTRL, 2, 1, 0⟩
/-- STEP_RESULT (02, R48). -/
def Reg.STEP_RESULT : Nat := 0x2158
def Fld.STEP_RESULT_APPLIED : Fld := ⟨Reg.STEP_RESULT, 0, 64, 0⟩
/-- TB_EVENTS (02, R52). -/
def Reg.TB_EVENTS : Nat := 0x2140
def Fld.TB_EVENTS_CFG_REFUSED : Fld := ⟨Reg.TB_EVENTS, 0, 1, 0⟩
def Fld.TB_EVENTS_STEP_REFUSED : Fld := ⟨Reg.TB_EVENTS, 1, 1, 0⟩
def Fld.TB_EVENTS_STEP_DONE : Fld := ⟨Reg.TB_EVENTS, 2, 1, 0⟩
def Fld.TB_EVENTS_LOCKED : Fld := ⟨Reg.TB_EVENTS, 3, 1, 0⟩
def Fld.TB_EVENTS_HOLDOVER : Fld := ⟨Reg.TB_EVENTS, 4, 1, 0⟩
def Fld.TB_EVENTS_LARGE_OFFSET : Fld := ⟨Reg.TB_EVENTS, 5, 1, 0⟩
def Fld.TB_EVENTS_PPS_REJECT : Fld := ⟨Reg.TB_EVENTS, 6, 1, 0⟩
def Fld.TB_EVENTS_COURSE_LATE : Fld := ⟨Reg.TB_EVENTS, 7, 1, 0⟩
/-- WQ_BASE (03, R55). -/
def Reg.WQ_BASE (i : Nat) : Nat := 0x11000 + (i / 32) * 0x1000 + 0x100 + (i % 32) * 0x40
def Fld.WQ_BASE_ADDR (i : Nat) : Fld := ⟨(Reg.WQ_BASE i), 6, 57, 0⟩
/-- WQ_CFG (03, R55). -/
def Reg.WQ_CFG (i : Nat) : Nat := 0x11000 + (i / 32) * 0x1000 + 0x108 + (i % 32) * 0x40
def Fld.WQ_CFG_EN (i : Nat) : Fld := ⟨(Reg.WQ_CFG i), 0, 1, 0⟩
def Fld.WQ_CFG_CHK (i : Nat) : Fld := ⟨(Reg.WQ_CFG i), 1, 1, 0⟩
def Fld.WQ_CFG_SIZE_LOG2 (i : Nat) : Fld := ⟨(Reg.WQ_CFG i), 4, 5, 4⟩
def Fld.WQ_CFG_POLL_TICK (i : Nat) : Fld := ⟨(Reg.WQ_CFG i), 9, 1, 0⟩
def Fld.WQ_CFG_POLL_INTERVAL (i : Nat) : Fld := ⟨(Reg.WQ_CFG i), 16, 16, 100⟩
def Fld.WQ_CFG_PREFETCH_DEPTH (i : Nat) : Fld := ⟨(Reg.WQ_CFG i), 32, 5, 0⟩
def Fld.WQ_CFG_CR (i : Nat) : Fld := ⟨(Reg.WQ_CFG i), 40, 8, 255⟩
/-- WQ_ARB (03, R55). -/
def Reg.WQ_ARB (i : Nat) : Nat := 0x11000 + (i / 32) * 0x1000 + 0x110 + (i % 32) * 0x40
def Fld.WQ_ARB_WEIGHT (i : Nat) : Fld := ⟨(Reg.WQ_ARB i), 0, 8, 1⟩
def Fld.WQ_ARB_BURST (i : Nat) : Fld := ⟨(Reg.WQ_ARB i), 8, 7, 1⟩
/-- WQ_CONS (03, R55). -/
def Reg.WQ_CONS (i : Nat) : Nat := 0x11000 + (i / 32) * 0x1000 + 0x118 + (i % 32) * 0x40
def Fld.WQ_CONS_CONS (i : Nat) : Fld := ⟨(Reg.WQ_CONS i), 0, 32, 0⟩
def Fld.WQ_CONS_PHASE (i : Nat) : Fld := ⟨(Reg.WQ_CONS i), 32, 1, 1⟩
def Fld.WQ_CONS_FAILED (i : Nat) : Fld := ⟨(Reg.WQ_CONS i), 33, 1, 0⟩
def Fld.WQ_CONS_LONG_ACTIVE (i : Nat) : Fld := ⟨(Reg.WQ_CONS i), 34, 1, 0⟩
/-- WQ_STAT (03, R55). -/
def Reg.WQ_STAT (i : Nat) : Nat := 0x11000 + (i / 32) * 0x1000 + 0x120 + (i % 32) * 0x40
def Fld.WQ_STAT_ACCEPTED (i : Nat) : Fld := ⟨(Reg.WQ_STAT i), 0, 32, 0⟩
def Fld.WQ_STAT_DISCARDS (i : Nat) : Fld := ⟨(Reg.WQ_STAT i), 32, 32, 0⟩
/-- MALF_INFO (03, R75). -/
def Reg.MALF_INFO : Nat := 0x10100
def Fld.MALF_INFO_WQ : Fld := ⟨Reg.MALF_INFO, 0, 8, 0⟩
def Fld.MALF_INFO_REASON : Fld := ⟨Reg.MALF_INFO, 8, 4, 0⟩
def Fld.MALF_INFO_BYTE : Fld := ⟨Reg.MALF_INFO, 16, 6, 0⟩
def Fld.MALF_INFO_INDEX : Fld := ⟨Reg.MALF_INFO, 32, 32, 0⟩
/-- MALF_TICK (03, R75). -/
def Reg.MALF_TICK : Nat := 0x10108
def Fld.MALF_TICK_TICK : Fld := ⟨Reg.MALF_TICK, 0, 48, 0⟩
/-- MALF_ENTRY (03, R75). -/
def Reg.MALF_ENTRY (i : Nat) : Nat := 0x10110 + i * 0x8
def Fld.MALF_ENTRY_BYTES (i : Nat) : Fld := ⟨(Reg.MALF_ENTRY i), 0, 64, 0⟩
/-- WQ_EVT (03, R75). -/
def Reg.WQ_EVT : Nat := 0x10150
def Fld.WQ_EVT_POLL_FAIL : Fld := ⟨Reg.WQ_EVT, 0, 1, 0⟩
/-- CR_BASE (03, R77). -/
def Reg.CR_BASE (i : Nat) : Nat := 0x19000 + (i / 16) * 0x1000 + 0x100 + (i % 16) * 0x40
def Fld.CR_BASE_ADDR (i : Nat) : Fld := ⟨(Reg.CR_BASE i), 6, 57, 0⟩
/-- CR_CFG (03, R77). -/
def Reg.CR_CFG (i : Nat) : Nat := 0x19000 + (i / 16) * 0x1000 + 0x108 + (i % 16) * 0x40
def Fld.CR_CFG_EN (i : Nat) : Fld := ⟨(Reg.CR_CFG i), 0, 1, 0⟩
def Fld.CR_CFG_SIZE_LOG2 (i : Nat) : Fld := ⟨(Reg.CR_CFG i), 4, 5, 4⟩
def Fld.CR_CFG_IRQ_MODE (i : Nat) : Fld := ⟨(Reg.CR_CFG i), 10, 2, 0⟩
/-- CR_TAIL (03, R77). -/
def Reg.CR_TAIL (i : Nat) : Nat := 0x19000 + (i / 16) * 0x1000 + 0x110 + (i % 16) * 0x40
def Fld.CR_TAIL_TAIL (i : Nat) : Fld := ⟨(Reg.CR_TAIL i), 0, 32, 0⟩
def Fld.CR_TAIL_GAP_PENDING (i : Nat) : Fld := ⟨(Reg.CR_TAIL i), 32, 1, 0⟩
/-- CR_HEAD (03, R77). -/
def Reg.CR_HEAD (i : Nat) : Nat := 0x19000 + (i / 16) * 0x1000 + 0x118 + (i % 16) * 0x40
def Fld.CR_HEAD_HEAD (i : Nat) : Fld := ⟨(Reg.CR_HEAD i), 0, 32, 0⟩
/-- CR_OVF (03, R77). -/
def Reg.CR_OVF (i : Nat) : Nat := 0x19000 + (i / 16) * 0x1000 + 0x120 + (i % 16) * 0x40
def Fld.CR_OVF_TOTAL (i : Nat) : Fld := ⟨(Reg.CR_OVF i), 0, 32, 0⟩
def Fld.CR_OVF_PENDING (i : Nat) : Fld := ⟨(Reg.CR_OVF i), 32, 32, 0⟩
/-- CR_EVT (03, R77). -/
def Reg.CR_EVT (i : Nat) : Nat := 0x19000 + (i / 16) * 0x1000 + 0x128 + (i % 16) * 0x40
def Fld.CR_EVT_RECORD (i : Nat) : Fld := ⟨(Reg.CR_EVT i), 0, 1, 0⟩
def Fld.CR_EVT_GAP (i : Nat) : Fld := ⟨(Reg.CR_EVT i), 1, 1, 0⟩
def Fld.CR_EVT_HEAD_BAD (i : Nat) : Fld := ⟨(Reg.CR_EVT i), 2, 1, 0⟩
/-- ROUTE_STATE (04, R107). -/
def Reg.ROUTE_STATE (c : Nat) : Nat := chPage c 1 + 0x108
def Fld.ROUTE_STATE_STATE (c : Nat) : Fld := ⟨(Reg.ROUTE_STATE c), 0, 3, 0⟩
def Fld.ROUTE_STATE_END_VALID (c : Nat) : Fld := ⟨(Reg.ROUTE_STATE c), 4, 1, 0⟩
def Fld.ROUTE_STATE_END_STATUS (c : Nat) : Fld := ⟨(Reg.ROUTE_STATE c), 8, 8, 0⟩
def Fld.ROUTE_STATE_ORDER (c : Nat) : Fld := ⟨(Reg.ROUTE_STATE c), 16, 10, 0⟩
def Fld.ROUTE_STATE_RESIDUAL (c : Nat) : Fld := ⟨(Reg.ROUTE_STATE c), 32, 16, 0⟩
/-- ROUTE_ADDR (04, R107). -/
def Reg.ROUTE_ADDR (c : Nat) : Nat := chPage c 1 + 0x110
def Fld.ROUTE_ADDR_ADDR (c : Nat) : Fld := ⟨(Reg.ROUTE_ADDR c), 0, 64, 0⟩
/-- ROUTE_INFO (04, R107). -/
def Reg.ROUTE_INFO (c : Nat) : Nat := chPage c 1 + 0x118
def Fld.ROUTE_INFO_ORDER_LIMIT (c : Nat) : Fld := ⟨(Reg.ROUTE_INFO c), 0, 11, 0⟩
def Fld.ROUTE_INFO_ADMITTED (c : Nat) : Fld := ⟨(Reg.ROUTE_INFO c), 16, 11, 0⟩
def Fld.ROUTE_INFO_WORST_CYCLES (c : Nat) : Fld := ⟨(Reg.ROUTE_INFO c), 32, 32, 0⟩
/-- ROUTE_EVT (04, R107). -/
def Reg.ROUTE_EVT (c : Nat) : Nat := chPage c 1 + 0x120
def Fld.ROUTE_EVT_NOTIFY (c : Nat) : Fld := ⟨(Reg.ROUTE_EVT c), 0, 1, 0⟩
def Fld.ROUTE_EVT_END (c : Nat) : Fld := ⟨(Reg.ROUTE_EVT c), 1, 1, 0⟩
def Fld.ROUTE_EVT_SUSPEND (c : Nat) : Fld := ⟨(Reg.ROUTE_EVT c), 2, 1, 0⟩
def Fld.ROUTE_EVT_KS_REFUSED (c : Nat) : Fld := ⟨(Reg.ROUTE_EVT c), 3, 1, 0⟩
def Fld.ROUTE_EVT_STRAY_REPLY (c : Nat) : Fld := ⟨(Reg.ROUTE_EVT c), 4, 1, 0⟩
def Fld.ROUTE_EVT_BAD_REPLY (c : Nat) : Fld := ⟨(Reg.ROUTE_EVT c), 5, 1, 0⟩
def Fld.ROUTE_EVT_FETCH_LATE (c : Nat) : Fld := ⟨(Reg.ROUTE_EVT c), 6, 1, 0⟩
/-- ADMIT_RESULT (04, R107). -/
def Reg.ADMIT_RESULT (c : Nat) : Nat := chPage c 1 + 0x128
def Fld.ADMIT_RESULT_REASON (c : Nat) : Fld := ⟨(Reg.ADMIT_RESULT c), 0, 4, 0⟩
def Fld.ADMIT_RESULT_THREAD (c : Nat) : Fld := ⟨(Reg.ADMIT_RESULT c), 4, 3, 0⟩
def Fld.ADMIT_RESULT_INDEX (c : Nat) : Fld := ⟨(Reg.ADMIT_RESULT c), 16, 10, 0⟩
def Fld.ADMIT_RESULT_CYCLES (c : Nat) : Fld := ⟨(Reg.ADMIT_RESULT c), 32, 32, 0⟩
/-- HOST_FETCH (04, R107). -/
def Reg.HOST_FETCH (c : Nat) : Nat := chPage c 1 + 0x130
def Fld.HOST_FETCH_CYCLES (c : Nat) : Fld := ⟨(Reg.HOST_FETCH c), 0, 16, 2400⟩
/-- ROUTE_FLAGS (04, R107). -/
def Reg.ROUTE_FLAGS (c : Nat) : Nat := chPage c 1 + 0x138
def Fld.ROUTE_FLAGS_FLAGS (c : Nat) : Fld := ⟨(Reg.ROUTE_FLAGS c), 0, 64, 0⟩
/-- SEQ_STATS (04, R107). -/
def Reg.SEQ_STATS (c : Nat) : Nat := chPage c 1 + 0x140
def Fld.SEQ_STATS_ORDERS_DONE (c : Nat) : Fld := ⟨(Reg.SEQ_STATS c), 0, 32, 0⟩
def Fld.SEQ_STATS_FETCH_LATE (c : Nat) : Fld := ⟨(Reg.SEQ_STATS c), 32, 16, 0⟩
def Fld.SEQ_STATS_STRAY_REPLY (c : Nat) : Fld := ⟨(Reg.SEQ_STATS c), 48, 16, 0⟩
/-- THREAD_STATE (06, R148). -/
def Reg.THREAD_STATE (c i : Nat) : Nat := chPage c 6 + 0x140 + i * 0x8
def Fld.THREAD_STATE_STATE (c i : Nat) : Fld := ⟨(Reg.THREAD_STATE c i), 0, 3, 0⟩
def Fld.THREAD_STATE_INH (c i : Nat) : Fld := ⟨(Reg.THREAD_STATE c i), 3, 1, 0⟩
def Fld.THREAD_STATE_CAUSE (c i : Nat) : Fld := ⟨(Reg.THREAD_STATE c i), 4, 4, 0⟩
def Fld.THREAD_STATE_EVT (c i : Nat) : Fld := ⟨(Reg.THREAD_STATE c i), 8, 8, 0⟩
def Fld.THREAD_STATE_PC (c i : Nat) : Fld := ⟨(Reg.THREAD_STATE c i), 16, 16, 0⟩
def Fld.THREAD_STATE_XPC (c i : Nat) : Fld := ⟨(Reg.THREAD_STATE c i), 32, 16, 0⟩
def Fld.THREAD_STATE_XRC (c i : Nat) : Fld := ⟨(Reg.THREAD_STATE c i), 48, 16, 0⟩
/-- KSTATUS (06, R168). -/
def Reg.KSTATUS (c : Nat) : Nat := chPage c 6 + 0x180
def Fld.KSTATUS_IMAGE_VALID (c : Nat) : Fld := ⟨(Reg.KSTATUS c), 0, 1, 0⟩
def Fld.KSTATUS_CS_WRITE (c : Nat) : Fld := ⟨(Reg.KSTATUS c), 1, 1, 0⟩
def Fld.KSTATUS_LOAD_REASON (c : Nat) : Fld := ⟨(Reg.KSTATUS c), 4, 4, 0⟩
def Fld.KSTATUS_HALTED_MASK (c : Nat) : Fld := ⟨(Reg.KSTATUS c), 8, 8, 0⟩
def Fld.KSTATUS_ECC_CORR (c : Nat) : Fld := ⟨(Reg.KSTATUS c), 16, 16, 0⟩
def Fld.KSTATUS_ECC_UNCORR (c : Nat) : Fld := ⟨(Reg.KSTATUS c), 32, 16, 0⟩
/-- KEVT (06, R168). -/
def Reg.KEVT (c : Nat) : Nat := chPage c 6 + 0x188
def Fld.KEVT_DOUBLE_FAULT (c : Nat) : Fld := ⟨(Reg.KEVT c), 0, 1, 0⟩
def Fld.KEVT_ECC_UNCORR (c : Nat) : Fld := ⟨(Reg.KEVT c), 1, 1, 0⟩
def Fld.KEVT_CS_LOST (c : Nat) : Fld := ⟨(Reg.KEVT c), 2, 1, 0⟩
def Fld.KEVT_CS_REFUSED (c : Nat) : Fld := ⟨(Reg.KEVT c), 3, 1, 0⟩
def Fld.KEVT_IO_UNMAPPED (c : Nat) : Fld := ⟨(Reg.KEVT c), 4, 1, 0⟩
def Fld.KEVT_PUB_REFUSED (c : Nat) : Fld := ⟨(Reg.KEVT c), 5, 1, 0⟩
/-- IMAGE_INFO (06, R168). -/
def Reg.IMAGE_INFO (c : Nat) : Nat := chPage c 6 + 0x190
def Fld.IMAGE_INFO_CRC (c : Nat) : Fld := ⟨(Reg.IMAGE_INFO c), 0, 32, 0⟩
def Fld.IMAGE_INFO_ENTRIES (c : Nat) : Fld := ⟨(Reg.IMAGE_INFO c), 32, 11, 0⟩
/-- DF_INFO (06, R168). -/
def Reg.DF_INFO (c : Nat) : Nat := chPage c 6 + 0x198
def Fld.DF_INFO_THREAD (c : Nat) : Fld := ⟨(Reg.DF_INFO c), 0, 3, 0⟩
def Fld.DF_INFO_CAUSE2 (c : Nat) : Fld := ⟨(Reg.DF_INFO c), 4, 4, 0⟩
def Fld.DF_INFO_PC2 (c : Nat) : Fld := ⟨(Reg.DF_INFO c), 8, 16, 0⟩
/-- BE_MODE (07, R171). -/
def Reg.BE_MODE (c : Nat) : Nat := chPage c 2 + 0x100
def Fld.BE_MODE_MODE (c : Nat) : Fld := ⟨(Reg.BE_MODE c), 0, 4, 0⟩
def Fld.BE_MODE_RXPATH (c : Nat) : Fld := ⟨(Reg.BE_MODE c), 4, 1, 0⟩
def Fld.BE_MODE_SPI_CS (c : Nat) : Fld := ⟨(Reg.BE_MODE c), 5, 1, 0⟩
def Fld.BE_MODE_AUTO_ON (c : Nat) : Fld := ⟨(Reg.BE_MODE c), 6, 1, 0⟩
/-- CHAN_STATE (07, R426). -/
def Reg.CHAN_STATE (c : Nat) : Nat := chPage c 0 + 0x108
def Fld.CHAN_STATE_STATE (c : Nat) : Fld := ⟨(Reg.CHAN_STATE c), 0, 3, 0⟩
def Fld.CHAN_STATE_TILE (c : Nat) : Fld := ⟨(Reg.CHAN_STATE c), 8, 8, 0⟩
/-- CAN_CFG (07, R178). -/
def Reg.CAN_CFG (c : Nat) : Nat := chPage c 2 + 0x108
def Fld.CAN_CFG_LISTEN (c : Nat) : Fld := ⟨(Reg.CAN_CFG c), 0, 1, 1⟩
def Fld.CAN_CFG_RESTRICTED (c : Nat) : Fld := ⟨(Reg.CAN_CFG c), 1, 1, 0⟩
def Fld.CAN_CFG_FD_EN (c : Nat) : Fld := ⟨(Reg.CAN_CFG c), 2, 1, 1⟩
def Fld.CAN_CFG_XL_EN (c : Nat) : Fld := ⟨(Reg.CAN_CFG c), 3, 1, 0⟩
def Fld.CAN_CFG_XLMS (c : Nat) : Fld := ⟨(Reg.CAN_CFG c), 4, 2, 0⟩
def Fld.CAN_CFG_NO_RETX (c : Nat) : Fld := ⟨(Reg.CAN_CFG c), 6, 1, 0⟩
def Fld.CAN_CFG_PROTO_EXC (c : Nat) : Fld := ⟨(Reg.CAN_CFG c), 7, 1, 1⟩
def Fld.CAN_CFG_PWMS (c : Nat) : Fld := ⟨(Reg.CAN_CFG c), 16, 6, 2⟩
def Fld.CAN_CFG_PWML (c : Nat) : Fld := ⟨(Reg.CAN_CFG c), 24, 6, 6⟩
/-- CAN_BT (07, R178). -/
def Reg.CAN_BT (c i : Nat) : Nat := chPage c 2 + 0x110 + i * 0x8
def Fld.CAN_BT_BRP (c i : Nat) : Fld := ⟨(Reg.CAN_BT c i), 0, 5, (canBtReset i 1 0 0)⟩
def Fld.CAN_BT_TSEG1 (c i : Nat) : Fld := ⟨(Reg.CAN_BT c i), 8, 8, (canBtReset i 0x7E 0x3A 0x0A)⟩
def Fld.CAN_BT_TSEG2 (c i : Nat) : Fld := ⟨(Reg.CAN_BT c i), 16, 7, (canBtReset i 0x1F 0x13 0x03)⟩
def Fld.CAN_BT_SJW (c i : Nat) : Fld := ⟨(Reg.CAN_BT c i), 24, 7, (canBtReset i 0x1F 0x13 0x03)⟩
def Fld.CAN_BT_TDC_EN (c i : Nat) : Fld := ⟨(Reg.CAN_BT c i), 31, 1, (canBtReset i 0 1 1)⟩
def Fld.CAN_BT_TDCO (c i : Nat) : Fld := ⟨(Reg.CAN_BT c i), 32, 8, (canBtReset i 0 60 12)⟩
/-- LIN_CFG (07, R181). -/
def Reg.LIN_CFG (c : Nat) : Nat := chPage c 2 + 0x128
def Fld.LIN_CFG_ROLE (c : Nat) : Fld := ⟨(Reg.LIN_CFG c), 0, 2, 0⟩
def Fld.LIN_CFG_AUTOBAUD (c : Nat) : Fld := ⟨(Reg.LIN_CFG c), 2, 1, 1⟩
def Fld.LIN_CFG_BAUD (c : Nat) : Fld := ⟨(Reg.LIN_CFG c), 8, 15, 19200⟩
def Fld.LIN_CFG_BREAK_DETECT (c : Nat) : Fld := ⟨(Reg.LIN_CFG c), 32, 5, 11⟩
/-- SENT_CFG (07, R182). -/
def Reg.SENT_CFG (c : Nat) : Nat := chPage c 2 + 0x130
def Fld.SENT_CFG_TICK_NS (c : Nat) : Fld := ⟨(Reg.SENT_CFG c), 0, 17, 3000⟩
def Fld.SENT_CFG_NIBBLES (c : Nat) : Fld := ⟨(Reg.SENT_CFG c), 17, 3, 6⟩
def Fld.SENT_CFG_CRC_LEGACY (c : Nat) : Fld := ⟨(Reg.SENT_CFG c), 20, 1, 0⟩
def Fld.SENT_CFG_PAUSE (c : Nat) : Fld := ⟨(Reg.SENT_CFG c), 21, 1, 0⟩
def Fld.SENT_CFG_SERIAL (c : Nat) : Fld := ⟨(Reg.SENT_CFG c), 22, 2, 0⟩
/-- PSI5_CFG (07, R183). -/
def Reg.PSI5_CFG (c : Nat) : Nat := chPage c 2 + 0x138
def Fld.PSI5_CFG_SYNC (c : Nat) : Fld := ⟨(Reg.PSI5_CFG c), 0, 1, 0⟩
def Fld.PSI5_CFG_RATE (c : Nat) : Fld := ⟨(Reg.PSI5_CFG c), 1, 1, 0⟩
def Fld.PSI5_CFG_DATA_BITS (c : Nat) : Fld := ⟨(Reg.PSI5_CFG c), 2, 5, 10⟩
def Fld.PSI5_CFG_CHECK (c : Nat) : Fld := ⟨(Reg.PSI5_CFG c), 7, 1, 0⟩
def Fld.PSI5_CFG_SYNC_PERIOD_US (c : Nat) : Fld := ⟨(Reg.PSI5_CFG c), 12, 12, 500⟩
def Fld.PSI5_CFG_SLOT1 (c : Nat) : Fld := ⟨(Reg.PSI5_CFG c), 32, 8, 0⟩
def Fld.PSI5_CFG_SLOT2 (c : Nat) : Fld := ⟨(Reg.PSI5_CFG c), 40, 8, 0⟩
def Fld.PSI5_CFG_SLOT3 (c : Nat) : Fld := ⟨(Reg.PSI5_CFG c), 48, 8, 0⟩
def Fld.PSI5_CFG_SLOT4 (c : Nat) : Fld := ⟨(Reg.PSI5_CFG c), 56, 8, 0⟩
/-- UART_CFG (07, R183). -/
def Reg.UART_CFG (c : Nat) : Nat := chPage c 2 + 0x140
def Fld.UART_CFG_BAUD (c : Nat) : Fld := ⟨(Reg.UART_CFG c), 0, 24, 115200⟩
def Fld.UART_CFG_DATA_BITS (c : Nat) : Fld := ⟨(Reg.UART_CFG c), 24, 4, 8⟩
def Fld.UART_CFG_PARITY (c : Nat) : Fld := ⟨(Reg.UART_CFG c), 28, 2, 0⟩
def Fld.UART_CFG_STOP2 (c : Nat) : Fld := ⟨(Reg.UART_CFG c), 30, 1, 0⟩
def Fld.UART_CFG_RTSCTS (c : Nat) : Fld := ⟨(Reg.UART_CFG c), 31, 1, 0⟩
def Fld.UART_CFG_IDLE_BITS (c : Nat) : Fld := ⟨(Reg.UART_CFG c), 32, 8, 10⟩
def Fld.UART_CFG_MAX_LEN (c : Nat) : Fld := ⟨(Reg.UART_CFG c), 40, 12, 256⟩
def Fld.UART_CFG_DELIM_EN (c : Nat) : Fld := ⟨(Reg.UART_CFG c), 52, 1, 0⟩
def Fld.UART_CFG_DELIM (c : Nat) : Fld := ⟨(Reg.UART_CFG c), 56, 8, 10⟩
/-- SPI_CFG (07, R183). -/
def Reg.SPI_CFG (c : Nat) : Nat := chPage c 2 + 0x148
def Fld.SPI_CFG_DIV (c : Nat) : Fld := ⟨(Reg.SPI_CFG c), 0, 8, 15⟩
def Fld.SPI_CFG_SPI_MODE (c : Nat) : Fld := ⟨(Reg.SPI_CFG c), 8, 2, 0⟩
def Fld.SPI_CFG_LSB_FIRST (c : Nat) : Fld := ⟨(Reg.SPI_CFG c), 10, 1, 0⟩
def Fld.SPI_CFG_CS_SETUP (c : Nat) : Fld := ⟨(Reg.SPI_CFG c), 12, 4, 1⟩
def Fld.SPI_CFG_CS_HOLD (c : Nat) : Fld := ⟨(Reg.SPI_CFG c), 16, 4, 1⟩
def Fld.SPI_CFG_CS_GAP (c : Nat) : Fld := ⟨(Reg.SPI_CFG c), 20, 4, 2⟩
/-- I2C_CFG (07, R183). -/
def Reg.I2C_CFG (c : Nat) : Nat := chPage c 2 + 0x150
def Fld.I2C_CFG_SPEED (c : Nat) : Fld := ⟨(Reg.I2C_CFG c), 0, 2, 1⟩
def Fld.I2C_CFG_STRETCH_EN (c : Nat) : Fld := ⟨(Reg.I2C_CFG c), 2, 1, 1⟩
def Fld.I2C_CFG_STRETCH_MAX (c : Nat) : Fld := ⟨(Reg.I2C_CFG c), 8, 8, 100⟩
/-- PIN_CFG (07, R184). -/
def Reg.PIN_CFG (c i : Nat) : Nat := chPage c 2 + 0x158 + i * 0x8
def Fld.PIN_CFG_FUNC (c i : Nat) : Fld := ⟨(Reg.PIN_CFG c i), 0, 3, 0⟩
def Fld.PIN_CFG_INVERT (c i : Nat) : Fld := ⟨(Reg.PIN_CFG c i), 3, 1, 0⟩
def Fld.PIN_CFG_SAFE (c i : Nat) : Fld := ⟨(Reg.PIN_CFG c i), 4, 2, 2⟩
def Fld.PIN_CFG_LEVEL (c i : Nat) : Fld := ⟨(Reg.PIN_CFG c i), 6, 1, 0⟩
def Fld.PIN_CFG_GLITCH (c i : Nat) : Fld := ⟨(Reg.PIN_CFG c i), 8, 8, 0⟩
def Fld.PIN_CFG_PERIOD (c i : Nat) : Fld := ⟨(Reg.PIN_CFG c i), 16, 24, 0⟩
def Fld.PIN_CFG_HIGH (c i : Nat) : Fld := ⟨(Reg.PIN_CFG c i), 40, 24, 0⟩
/-- FILTER (07, R187). -/
def Reg.FILTER (c i : Nat) : Nat := chPage c 2 + 0x200 + i * 0x8
def Fld.FILTER_ID (c i : Nat) : Fld := ⟨(Reg.FILTER c i), 0, 29, 0⟩
def Fld.FILTER_IDE (c i : Nat) : Fld := ⟨(Reg.FILTER c i), 29, 1, 0⟩
def Fld.FILTER_XL (c i : Nat) : Fld := ⟨(Reg.FILTER c i), 30, 1, 0⟩
def Fld.FILTER_MASK (c i : Nat) : Fld := ⟨(Reg.FILTER c i), 32, 29, 0⟩
def Fld.FILTER_TRACK (c i : Nat) : Fld := ⟨(Reg.FILTER c i), 61, 1, 0⟩
def Fld.FILTER_ACTION (c i : Nat) : Fld := ⟨(Reg.FILTER c i), 62, 2, 0⟩
/-- FIFO_CFG (07, R188). -/
def Reg.FIFO_CFG (c : Nat) : Nat := chPage c 4 + 0x100
def Fld.FIFO_CFG_TX_WM (c : Nat) : Fld := ⟨(Reg.FIFO_CFG c), 0, 6, 8⟩
/-- FIFO_STATUS (07, R188). -/
def Reg.FIFO_STATUS (c : Nat) : Nat := chPage c 4 + 0x108
def Fld.FIFO_STATUS_RX_ITEMS (c : Nat) : Fld := ⟨(Reg.FIFO_STATUS c), 0, 7, 0⟩
def Fld.FIFO_STATUS_RX_MARK (c : Nat) : Fld := ⟨(Reg.FIFO_STATUS c), 7, 1, 0⟩
def Fld.FIFO_STATUS_TX_ITEMS (c : Nat) : Fld := ⟨(Reg.FIFO_STATUS c), 8, 7, 0⟩
def Fld.FIFO_STATUS_TX_MARK (c : Nat) : Fld := ⟨(Reg.FIFO_STATUS c), 15, 1, 0⟩
def Fld.FIFO_STATUS_MBI_ITEMS (c : Nat) : Fld := ⟨(Reg.FIFO_STATUS c), 16, 5, 0⟩
def Fld.FIFO_STATUS_MBI_MARK (c : Nat) : Fld := ⟨(Reg.FIFO_STATUS c), 21, 1, 0⟩
def Fld.FIFO_STATUS_MBO_ITEMS (c : Nat) : Fld := ⟨(Reg.FIFO_STATUS c), 24, 5, 0⟩
def Fld.FIFO_STATUS_MBO_MARK (c : Nat) : Fld := ⟨(Reg.FIFO_STATUS c), 29, 1, 0⟩
def Fld.FIFO_STATUS_RX_FREE (c : Nat) : Fld := ⟨(Reg.FIFO_STATUS c), 32, 16, 16384⟩
def Fld.FIFO_STATUS_TX_FREE (c : Nat) : Fld := ⟨(Reg.FIFO_STATUS c), 48, 16, 8192⟩
/-- FIFO_EVT (07, R188). -/
def Reg.FIFO_EVT (c : Nat) : Nat := chPage c 4 + 0x110
def Fld.FIFO_EVT_RX_GAP (c : Nat) : Fld := ⟨(Reg.FIFO_EVT c), 0, 1, 0⟩
def Fld.FIFO_EVT_TX_GAP (c : Nat) : Fld := ⟨(Reg.FIFO_EVT c), 1, 1, 0⟩
def Fld.FIFO_EVT_MBI_GAP (c : Nat) : Fld := ⟨(Reg.FIFO_EVT c), 2, 1, 0⟩
def Fld.FIFO_EVT_MBO_GAP (c : Nat) : Fld := ⟨(Reg.FIFO_EVT c), 3, 1, 0⟩
def Fld.FIFO_EVT_RX_UNDERRUN (c : Nat) : Fld := ⟨(Reg.FIFO_EVT c), 4, 1, 0⟩
def Fld.FIFO_EVT_MBI_UNDERRUN (c : Nat) : Fld := ⟨(Reg.FIFO_EVT c), 5, 1, 0⟩
def Fld.FIFO_EVT_MBO_UNDERRUN (c : Nat) : Fld := ⟨(Reg.FIFO_EVT c), 6, 1, 0⟩
def Fld.FIFO_EVT_TX_BAD (c : Nat) : Fld := ⟨(Reg.FIFO_EVT c), 7, 1, 0⟩
/-- MBI_DATA (07, R188). -/
def Reg.MBI_DATA (c : Nat) : Nat := chPage c 4 + 0x118
def Fld.MBI_DATA_DATA (c : Nat) : Fld := ⟨(Reg.MBI_DATA c), 0, 64, 0⟩
/-- MBO_DATA (07, R188). -/
def Reg.MBO_DATA (c : Nat) : Nat := chPage c 4 + 0x120
def Fld.MBO_DATA_DATA (c : Nat) : Fld := ⟨(Reg.MBO_DATA c), 0, 64, 0⟩
/-- MBO_HEAD (07, R188). -/
def Reg.MBO_HEAD (c : Nat) : Nat := chPage c 4 + 0x128
def Fld.MBO_HEAD_KIND (c : Nat) : Fld := ⟨(Reg.MBO_HEAD c), 0, 2, 0⟩
def Fld.MBO_HEAD_COUNT (c : Nat) : Fld := ⟨(Reg.MBO_HEAD c), 32, 32, 0⟩
/-- BE_STATUS (07, R191). -/
def Reg.BE_STATUS (c : Nat) : Nat := chPage c 2 + 0x180
def Fld.BE_STATUS_ENGINE (c : Nat) : Fld := ⟨(Reg.BE_STATUS c), 0, 3, 0⟩
def Fld.BE_STATUS_FCS (c : Nat) : Fld := ⟨(Reg.BE_STATUS c), 3, 2, 0⟩
def Fld.BE_STATUS_TEC (c : Nat) : Fld := ⟨(Reg.BE_STATUS c), 8, 8, 0⟩
def Fld.BE_STATUS_REC (c : Nat) : Fld := ⟨(Reg.BE_STATUS c), 16, 8, 0⟩
/-- BE_EVT (07, R191). -/
def Reg.BE_EVT (c : Nat) : Nat := chPage c 2 + 0x188
def Fld.BE_EVT_CFG_REFUSED (c : Nat) : Fld := ⟨(Reg.BE_EVT c), 0, 1, 0⟩
def Fld.BE_EVT_PROTO_ERR (c : Nat) : Fld := ⟨(Reg.BE_EVT c), 1, 1, 0⟩
def Fld.BE_EVT_BUS_OFF (c : Nat) : Fld := ⟨(Reg.BE_EVT c), 2, 1, 0⟩
def Fld.BE_EVT_ERR_PASSIVE (c : Nat) : Fld := ⟨(Reg.BE_EVT c), 3, 1, 0⟩
def Fld.BE_EVT_SYNC_LOST (c : Nat) : Fld := ⟨(Reg.BE_EVT c), 4, 1, 0⟩
def Fld.BE_EVT_NO_RESPONSE (c : Nat) : Fld := ⟨(Reg.BE_EVT c), 5, 1, 0⟩
def Fld.BE_EVT_ARB_LOST (c : Nat) : Fld := ⟨(Reg.BE_EVT c), 6, 1, 0⟩
/-- PT_CFG (07, R193). -/
def Reg.PT_CFG (c : Nat) : Nat := chPage c 5 + 0x100
def Fld.PT_CFG_DISAPPEAR_TICKS (c : Nat) : Fld := ⟨(Reg.PT_CFG c), 0, 16, 10000⟩
/-- PT_STATUS (07, R193). -/
def Reg.PT_STATUS (c : Nat) : Nat := chPage c 5 + 0x108
def Fld.PT_STATUS_USED (c : Nat) : Fld := ⟨(Reg.PT_STATUS c), 0, 7, 0⟩
def Fld.PT_STATUS_DROPPED (c : Nat) : Fld := ⟨(Reg.PT_STATUS c), 16, 16, 0⟩
/-- PT_EVT (07, R193). -/
def Reg.PT_EVT (c : Nat) : Nat := chPage c 5 + 0x110
def Fld.PT_EVT_APPEAR (c : Nat) : Fld := ⟨(Reg.PT_EVT c), 0, 1, 0⟩
def Fld.PT_EVT_DISAPPEAR (c : Nat) : Fld := ⟨(Reg.PT_EVT c), 1, 1, 0⟩
def Fld.PT_EVT_FULL (c : Nat) : Fld := ⟨(Reg.PT_EVT c), 2, 1, 0⟩
/-- PT_ENTRY (07, R193). -/
def Reg.PT_ENTRY (c i : Nat) : Nat := chPage c 5 + 0x200 + i * 0x10
def Fld.PT_ENTRY_STATE (c i : Nat) : Fld := ⟨(Reg.PT_ENTRY c i), 0, 2, 0⟩
def Fld.PT_ENTRY_KIND (c i : Nat) : Fld := ⟨(Reg.PT_ENTRY c i), 8, 8, 0⟩
def Fld.PT_ENTRY_KEY (c i : Nat) : Fld := ⟨(Reg.PT_ENTRY c i), 16, 32, 0⟩
/-- PT_ENTRY1 (07, R193). -/
def Reg.PT_ENTRY1 (c i : Nat) : Nat := chPage c 5 + 0x208 + i * 0x10
def Fld.PT_ENTRY1_LAST_TICK (c i : Nat) : Fld := ⟨(Reg.PT_ENTRY1 c i), 0, 48, 0⟩
def Fld.PT_ENTRY1_SEEN (c i : Nat) : Fld := ⟨(Reg.PT_ENTRY1 c i), 48, 16, 0⟩
/-- SH_PROG (08, R208). -/
def Reg.SH_PROG (c : Nat) : Nat := chPage c 3 + 0x100
def Fld.SH_PROG_PROG (c : Nat) : Fld := ⟨(Reg.SH_PROG c), 0, 64, 0⟩
/-- SH_BA (08, R208). -/
def Reg.SH_BA (c i : Nat) : Nat := chPage c 3 + 0x108 + i * 0x8
def Fld.SH_BA_BA (c i : Nat) : Fld := ⟨(Reg.SH_BA c i), 0, 64, 0⟩
/-- SH_CNT (08, R208). -/
def Reg.SH_CNT (c : Nat) : Nat := chPage c 3 + 0x128
def Fld.SH_CNT_CNT0 (c : Nat) : Fld := ⟨(Reg.SH_CNT c), 0, 32, 0⟩
def Fld.SH_CNT_CNT1 (c : Nat) : Fld := ⟨(Reg.SH_CNT c), 32, 32, 0⟩
/-- BM_CTRL (08, R208). -/
def Reg.BM_CTRL (c : Nat) : Nat := chPage c 3 + 0x130
def Fld.BM_CTRL_ARM (c : Nat) : Fld := ⟨(Reg.BM_CTRL c), 0, 1, 0⟩
def Fld.BM_CTRL_DISARM (c : Nat) : Fld := ⟨(Reg.BM_CTRL c), 1, 1, 0⟩
def Fld.BM_CTRL_HANDOVER_TICK (c : Nat) : Fld := ⟨(Reg.BM_CTRL c), 2, 1, 0⟩
/-- BM_CMD (08, R208). -/
def Reg.BM_CMD (c : Nat) : Nat := chPage c 3 + 0x138
def Fld.BM_CMD_KICK (c : Nat) : Fld := ⟨(Reg.BM_CMD c), 0, 1, 0⟩
def Fld.BM_CMD_ABORT (c : Nat) : Fld := ⟨(Reg.BM_CMD c), 1, 1, 0⟩
def Fld.BM_CMD_CLEAR (c : Nat) : Fld := ⟨(Reg.BM_CMD c), 2, 1, 0⟩
/-- ACT_PROG (08, R208). -/
def Reg.ACT_PROG (c : Nat) : Nat := chPage c 3 + 0x160
def Fld.ACT_PROG_PROG (c : Nat) : Fld := ⟨(Reg.ACT_PROG c), 0, 64, 0⟩
/-- BA (08, R208). -/
def Reg.BA (c i : Nat) : Nat := chPage c 3 + 0x168 + i * 0x8
def Fld.BA_BA (c i : Nat) : Fld := ⟨(Reg.BA c i), 0, 64, 0⟩
/-- CNT (08, R208). -/
def Reg.CNT (c : Nat) : Nat := chPage c 3 + 0x188
def Fld.CNT_CNT0 (c : Nat) : Fld := ⟨(Reg.CNT c), 0, 32, 0⟩
def Fld.CNT_CNT1 (c : Nat) : Fld := ⟨(Reg.CNT c), 32, 32, 0⟩
/-- BA_INIT (08, R208). -/
def Reg.BA_INIT (c i : Nat) : Nat := chPage c 3 + 0x190 + i * 0x8
def Fld.BA_INIT_BA (c i : Nat) : Fld := ⟨(Reg.BA_INIT c i), 0, 64, 0⟩
/-- CNT_INIT (08, R208). -/
def Reg.CNT_INIT (c : Nat) : Nat := chPage c 3 + 0x1b0
def Fld.CNT_INIT_CNT0 (c : Nat) : Fld := ⟨(Reg.CNT_INIT c), 0, 32, 0⟩
def Fld.CNT_INIT_CNT1 (c : Nat) : Fld := ⟨(Reg.CNT_INIT c), 32, 32, 0⟩
/-- BM_STATUS (08, R208). -/
def Reg.BM_STATUS (c : Nat) : Nat := chPage c 3 + 0x140
def Fld.BM_STATUS_STATE (c : Nat) : Fld := ⟨(Reg.BM_STATUS c), 0, 3, 0⟩
def Fld.BM_STATUS_KICK (c : Nat) : Fld := ⟨(Reg.BM_STATUS c), 8, 1, 0⟩
def Fld.BM_STATUS_PC (c : Nat) : Fld := ⟨(Reg.BM_STATUS c), 16, 16, 0⟩
def Fld.BM_STATUS_LASTSIG (c : Nat) : Fld := ⟨(Reg.BM_STATUS c), 48, 16, 0⟩
/-- BM_EVT (08, R208). -/
def Reg.BM_EVT (c : Nat) : Nat := chPage c 3 + 0x148
def Fld.BM_EVT_SIGNAL (c : Nat) : Fld := ⟨(Reg.BM_EVT c), 0, 1, 0⟩
def Fld.BM_EVT_ERROR (c : Nat) : Fld := ⟨(Reg.BM_EVT c), 1, 1, 0⟩
def Fld.BM_EVT_SHADOW_BUSY (c : Nat) : Fld := ⟨(Reg.BM_EVT c), 2, 1, 0⟩
def Fld.BM_EVT_ARM_REFUSED (c : Nat) : Fld := ⟨(Reg.BM_EVT c), 3, 1, 0⟩
def Fld.BM_EVT_HANDOVER (c : Nat) : Fld := ⟨(Reg.BM_EVT c), 4, 1, 0⟩
/-- BM_ERR (08, R208). -/
def Reg.BM_ERR (c : Nat) : Nat := chPage c 3 + 0x150
def Fld.BM_ERR_CODE (c : Nat) : Fld := ⟨(Reg.BM_ERR c), 0, 4, 0⟩
def Fld.BM_ERR_PC (c : Nat) : Fld := ⟨(Reg.BM_ERR c), 16, 16, 0⟩
def Fld.BM_ERR_RESIDUAL (c : Nat) : Fld := ⟨(Reg.BM_ERR c), 32, 32, 0⟩
/-- BM_ERRINS (08, R208). -/
def Reg.BM_ERRINS (c : Nat) : Nat := chPage c 3 + 0x158
def Fld.BM_ERRINS_WORD (c : Nat) : Fld := ⟨(Reg.BM_ERRINS c), 0, 64, 0⟩
/-- BM_BYTES (08, R208). -/
def Reg.BM_BYTES (c : Nat) : Nat := chPage c 3 + 0x1b8
def Fld.BM_BYTES_BYTES (c : Nat) : Fld := ⟨(Reg.BM_BYTES c), 0, 64, 0⟩
/-- BM_COUNTS (08, R208). -/
def Reg.BM_COUNTS (c : Nat) : Nat := chPage c 3 + 0x1c0
def Fld.BM_COUNTS_HANDOVERS (c : Nat) : Fld := ⟨(Reg.BM_COUNTS c), 0, 32, 0⟩
def Fld.BM_COUNTS_KICK_MERGED (c : Nat) : Fld := ⟨(Reg.BM_COUNTS c), 32, 16, 0⟩
def Fld.BM_COUNTS_SHADOW_REFUSED (c : Nat) : Fld := ⟨(Reg.BM_COUNTS c), 48, 16, 0⟩
/-- ETH_CFG (09, R219). -/
def Reg.ETH_CFG (c : Nat) : Nat := chPage c 2 + 0x108
def Fld.ETH_CFG_IF (c : Nat) : Fld := ⟨(Reg.ETH_CFG c), 0, 2, 0⟩
def Fld.ETH_CFG_SPEED (c : Nat) : Fld := ⟨(Reg.ETH_CFG c), 2, 3, 0⟩
def Fld.ETH_CFG_TX_EN (c : Nat) : Fld := ⟨(Reg.ETH_CFG c), 5, 1, 0⟩
def Fld.ETH_CFG_STRIP_FCS (c : Nat) : Fld := ⟨(Reg.ETH_CFG c), 6, 1, 0⟩
def Fld.ETH_CFG_ERR_KEEP (c : Nat) : Fld := ⟨(Reg.ETH_CFG c), 7, 1, 1⟩
def Fld.ETH_CFG_CAP_EN (c : Nat) : Fld := ⟨(Reg.ETH_CFG c), 8, 1, 1⟩
def Fld.ETH_CFG_MDC_DIV (c : Nat) : Fld := ⟨(Reg.ETH_CFG c), 10, 6, 19⟩
/-- ETH_LAT (09, R219). -/
def Reg.ETH_LAT (c : Nat) : Nat := chPage c 2 + 0x110
def Fld.ETH_LAT_RX_LAT_NS (c : Nat) : Fld := ⟨(Reg.ETH_LAT c), 0, 16, 0⟩
def Fld.ETH_LAT_TX_LAT_NS (c : Nat) : Fld := ⟨(Reg.ETH_LAT c), 16, 16, 0⟩
/-- SNAP_CFG (09, R219). -/
def Reg.SNAP_CFG (c : Nat) : Nat := chPage c 2 + 0x118
def Fld.SNAP_CFG_SNAP0 (c : Nat) : Fld := ⟨(Reg.SNAP_CFG c), 0, 15, 16384⟩
def Fld.SNAP_CFG_SNAP1 (c : Nat) : Fld := ⟨(Reg.SNAP_CFG c), 16, 15, 128⟩
/-- MDIO_CMD (09, R219). -/
def Reg.MDIO_CMD (c : Nat) : Nat := chPage c 2 + 0x120
def Fld.MDIO_CMD_DATA (c : Nat) : Fld := ⟨(Reg.MDIO_CMD c), 0, 16, 0⟩
def Fld.MDIO_CMD_PHYAD (c : Nat) : Fld := ⟨(Reg.MDIO_CMD c), 16, 5, 0⟩
def Fld.MDIO_CMD_DEVAD (c : Nat) : Fld := ⟨(Reg.MDIO_CMD c), 21, 5, 0⟩
def Fld.MDIO_CMD_REG (c : Nat) : Fld := ⟨(Reg.MDIO_CMD c), 26, 16, 0⟩
def Fld.MDIO_CMD_READ (c : Nat) : Fld := ⟨(Reg.MDIO_CMD c), 42, 1, 0⟩
def Fld.MDIO_CMD_C45 (c : Nat) : Fld := ⟨(Reg.MDIO_CMD c), 43, 1, 0⟩
def Fld.MDIO_CMD_GO (c : Nat) : Fld := ⟨(Reg.MDIO_CMD c), 44, 1, 0⟩
def Fld.MDIO_CMD_BUSY (c : Nat) : Fld := ⟨(Reg.MDIO_CMD c), 45, 1, 0⟩
/-- PTP_CFG (09, R219). -/
def Reg.PTP_CFG (c : Nat) : Nat := chPage c 2 + 0x130
def Fld.PTP_CFG_ROLE (c : Nat) : Fld := ⟨(Reg.PTP_CFG c), 0, 2, 0⟩
def Fld.PTP_CFG_LOG_SYNC (c : Nat) : Fld := ⟨(Reg.PTP_CFG c), 4, 4, 13⟩
def Fld.PTP_CFG_LOG_PDELAY (c : Nat) : Fld := ⟨(Reg.PTP_CFG c), 8, 4, 0⟩
def Fld.PTP_CFG_DOMAIN (c : Nat) : Fld := ⟨(Reg.PTP_CFG c), 12, 8, 0⟩
def Fld.PTP_CFG_PDELAY_MAX_NS (c : Nat) : Fld := ⟨(Reg.PTP_CFG c), 32, 32, 800⟩
/-- TEL_CFG (09, R219). -/
def Reg.TEL_CFG (c : Nat) : Nat := chPage c 2 + 0x138
def Fld.TEL_CFG_EN (c : Nat) : Fld := ⟨(Reg.TEL_CFG c), 0, 1, 0⟩
def Fld.TEL_CFG_IPV6 (c : Nat) : Fld := ⟨(Reg.TEL_CFG c), 1, 1, 0⟩
def Fld.TEL_CFG_CSUM4 (c : Nat) : Fld := ⟨(Reg.TEL_CFG c), 2, 1, 1⟩
def Fld.TEL_CFG_RATE_MBPS (c : Nat) : Fld := ⟨(Reg.TEL_CFG c), 8, 14, 0⟩
def Fld.TEL_CFG_MTU (c : Nat) : Fld := ⟨(Reg.TEL_CFG c), 32, 14, 1500⟩
def Fld.TEL_CFG_DEVICE_ID (c : Nat) : Fld := ⟨(Reg.TEL_CFG c), 48, 16, 0⟩
/-- TEL_DST (09, R219). -/
def Reg.TEL_DST (c : Nat) : Nat := chPage c 2 + 0x148
def Fld.TEL_DST_DMAC (c : Nat) : Fld := ⟨(Reg.TEL_DST c), 0, 48, 0⟩
def Fld.TEL_DST_VID (c : Nat) : Fld := ⟨(Reg.TEL_DST c), 48, 12, 0⟩
def Fld.TEL_DST_PCP (c : Nat) : Fld := ⟨(Reg.TEL_DST c), 60, 3, 0⟩
def Fld.TEL_DST_TAG (c : Nat) : Fld := ⟨(Reg.TEL_DST c), 63, 1, 0⟩
/-- TEL_IP4 (09, R219). -/
def Reg.TEL_IP4 (c : Nat) : Nat := chPage c 2 + 0x150
def Fld.TEL_IP4_SRC (c : Nat) : Fld := ⟨(Reg.TEL_IP4 c), 0, 32, 0⟩
def Fld.TEL_IP4_DST (c : Nat) : Fld := ⟨(Reg.TEL_IP4 c), 32, 32, 0⟩
/-- TEL_PORTS (09, R219). -/
def Reg.TEL_PORTS (c : Nat) : Nat := chPage c 2 + 0x158
def Fld.TEL_PORTS_SPORT (c : Nat) : Fld := ⟨(Reg.TEL_PORTS c), 0, 16, 22112⟩
def Fld.TEL_PORTS_DPORT (c : Nat) : Fld := ⟨(Reg.TEL_PORTS c), 16, 16, 22112⟩
def Fld.TEL_PORTS_DSCP (c : Nat) : Fld := ⟨(Reg.TEL_PORTS c), 32, 6, 0⟩
def Fld.TEL_PORTS_TTL (c : Nat) : Fld := ⟨(Reg.TEL_PORTS c), 40, 8, 64⟩
/-- TEL_IP6_SRC (09, R219). -/
def Reg.TEL_IP6_SRC (c i : Nat) : Nat := chPage c 2 + 0x160 + i * 0x8
def Fld.TEL_IP6_SRC_ADDR (c i : Nat) : Fld := ⟨(Reg.TEL_IP6_SRC c i), 0, 64, 0⟩
/-- TEL_IP6_DST (09, R219). -/
def Reg.TEL_IP6_DST (c i : Nat) : Nat := chPage c 2 + 0x170 + i * 0x8
def Fld.TEL_IP6_DST_ADDR (c i : Nat) : Fld := ⟨(Reg.TEL_IP6_DST c i), 0, 64, 0⟩
/-- STATION (09, R219). -/
def Reg.STATION (c : Nat) : Nat := chPage c 2 + 0x140
def Fld.STATION_MAC (c : Nat) : Fld := ⟨(Reg.STATION c), 0, 48, 0⟩
/-- ETH_STATUS (09, R219). -/
def Reg.ETH_STATUS (c : Nat) : Nat := chPage c 2 + 0x180
def Fld.ETH_STATUS_ENGINE (c : Nat) : Fld := ⟨(Reg.ETH_STATUS c), 0, 3, 0⟩
def Fld.ETH_STATUS_LINK (c : Nat) : Fld := ⟨(Reg.ETH_STATUS c), 3, 1, 0⟩
def Fld.ETH_STATUS_SPEED_ACT (c : Nat) : Fld := ⟨(Reg.ETH_STATUS c), 4, 3, 0⟩
def Fld.ETH_STATUS_PTP (c : Nat) : Fld := ⟨(Reg.ETH_STATUS c), 7, 2, 0⟩
/-- ETH_EVT (09, R219). -/
def Reg.ETH_EVT (c : Nat) : Nat := chPage c 2 + 0x188
def Fld.ETH_EVT_CFG_REFUSED (c : Nat) : Fld := ⟨(Reg.ETH_EVT c), 0, 1, 0⟩
def Fld.ETH_EVT_LINK_UP (c : Nat) : Fld := ⟨(Reg.ETH_EVT c), 1, 1, 0⟩
def Fld.ETH_EVT_LINK_DOWN (c : Nat) : Fld := ⟨(Reg.ETH_EVT c), 2, 1, 0⟩
def Fld.ETH_EVT_MDIO_DONE (c : Nat) : Fld := ⟨(Reg.ETH_EVT c), 3, 1, 0⟩
def Fld.ETH_EVT_PHY_INT (c : Nat) : Fld := ⟨(Reg.ETH_EVT c), 4, 1, 0⟩
def Fld.ETH_EVT_TEL_DROP (c : Nat) : Fld := ⟨(Reg.ETH_EVT c), 5, 1, 0⟩
/-- TEL_STATS (09, R219). -/
def Reg.TEL_STATS (c : Nat) : Nat := chPage c 2 + 0x198
def Fld.TEL_STATS_DGRAMS (c : Nat) : Fld := ⟨(Reg.TEL_STATS c), 0, 32, 0⟩
def Fld.TEL_STATS_DROPPED (c : Nat) : Fld := ⟨(Reg.TEL_STATS c), 32, 32, 0⟩
/-- POUND_QUOTA (10, R240). -/
def Reg.POUND_QUOTA (c : Nat) : Nat := chPage c 0 + 0x110
def Fld.POUND_QUOTA_QUOTA (c : Nat) : Fld := ⟨(Reg.POUND_QUOTA c), 0, 10, (if 48 ≤ c then 64 else 2)⟩
def Fld.POUND_QUOTA_POOL_LIMIT (c : Nat) : Fld := ⟨(Reg.POUND_QUOTA c), 16, 10, 128⟩
/-- CHAMBER (10, R240). -/
def Reg.CHAMBER (c : Nat) : Nat := chPage c 0 + 0x118
def Fld.CHAMBER_FILL_USED (c : Nat) : Fld := ⟨(Reg.CHAMBER c), 0, 18, 0⟩
def Fld.CHAMBER_H0 (c : Nat) : Fld := ⟨(Reg.CHAMBER c), 18, 2, 0⟩
def Fld.CHAMBER_H1 (c : Nat) : Fld := ⟨(Reg.CHAMBER c), 20, 2, 0⟩
def Fld.CHAMBER_FILL_HALF (c : Nat) : Fld := ⟨(Reg.CHAMBER c), 22, 1, 0⟩
def Fld.CHAMBER_WEIR (c : Nat) : Fld := ⟨(Reg.CHAMBER c), 23, 1, 0⟩
def Fld.CHAMBER_HELD (c : Nat) : Fld := ⟨(Reg.CHAMBER c), 32, 10, 0⟩
/-- CH_STATS0 (10, R240). -/
def Reg.CH_STATS0 (c : Nat) : Nat := chPage c 0 + 0x120
def Fld.CH_STATS0_DRAINS (c : Nat) : Fld := ⟨(Reg.CH_STATS0 c), 0, 32, 0⟩
def Fld.CH_STATS0_REFUSED (c : Nat) : Fld := ⟨(Reg.CH_STATS0 c), 32, 32, 0⟩
/-- CH_STATS1 (10, R240). -/
def Reg.CH_STATS1 (c : Nat) : Nat := chPage c 0 + 0x128
def Fld.CH_STATS1_DROPPED (c : Nat) : Fld := ⟨(Reg.CH_STATS1 c), 0, 32, 0⟩
def Fld.CH_STATS1_GAPS (c : Nat) : Fld := ⟨(Reg.CH_STATS1 c), 32, 32, 0⟩
/-- CH_EVT (10, R240). -/
def Reg.CH_EVT (c : Nat) : Nat := chPage c 0 + 0x130
def Fld.CH_EVT_SPILL (c : Nat) : Fld := ⟨(Reg.CH_EVT c), 0, 1, 0⟩
def Fld.CH_EVT_WEIR (c : Nat) : Fld := ⟨(Reg.CH_EVT c), 1, 1, 0⟩
def Fld.CH_EVT_REFUSED (c : Nat) : Fld := ⟨(Reg.CH_EVT c), 2, 1, 0⟩
def Fld.CH_EVT_BAD (c : Nat) : Fld := ⟨(Reg.CH_EVT c), 3, 1, 0⟩
def Fld.CH_EVT_LOST (c : Nat) : Fld := ⟨(Reg.CH_EVT c), 4, 1, 0⟩
/-- POUND_HOLD (10, R240). -/
def Reg.POUND_HOLD (c : Nat) : Nat := chPage c 0 + 0x138
def Fld.POUND_HOLD_FIRST (c : Nat) : Fld := ⟨(Reg.POUND_HOLD c), 0, 10, 0⟩
def Fld.POUND_HOLD_COUNT (c : Nat) : Fld := ⟨(Reg.POUND_HOLD c), 16, 10, 0⟩
/-- POUND_STATUS (10, R245). -/
def Reg.POUND_STATUS : Nat := 0x6100
def Fld.POUND_STATUS_FREE : Fld := ⟨Reg.POUND_STATUS, 0, 10, 768⟩
def Fld.POUND_STATUS_POOL_FREE : Fld := ⟨Reg.POUND_STATUS, 16, 10, 144⟩
def Fld.POUND_STATUS_QUOTA_SUM : Fld := ⟨Reg.POUND_STATUS, 32, 10, 608⟩
def Fld.POUND_STATUS_MIN_FREE : Fld := ⟨Reg.POUND_STATUS, 48, 10, 768⟩
/-- POUND_EVT (10, R245). -/
def Reg.POUND_EVT : Nat := 0x6108
def Fld.POUND_EVT_REFUSED : Fld := ⟨Reg.POUND_EVT, 0, 1, 0⟩
def Fld.POUND_EVT_WEIR : Fld := ⟨Reg.POUND_EVT, 1, 1, 0⟩
def Fld.POUND_EVT_RING_FULL : Fld := ⟨Reg.POUND_EVT, 2, 1, 0⟩
def Fld.POUND_EVT_LOST_DRAIN : Fld := ⟨Reg.POUND_EVT, 3, 1, 0⟩
/-- POUND_CHAN (10, R245). -/
def Reg.POUND_CHAN : Nat := 0x6110
def Fld.POUND_CHAN_CHAN : Fld := ⟨Reg.POUND_CHAN, 0, 56, 0⟩
/-- POUND_STATS (10, R245). -/
def Reg.POUND_STATS : Nat := 0x6118
def Fld.POUND_STATS_GRANTS : Fld := ⟨Reg.POUND_STATS, 0, 32, 0⟩
def Fld.POUND_STATS_REFUSALS : Fld := ⟨Reg.POUND_STATS, 32, 32, 0⟩
/-- RING_BASE (10, R247). -/
def Reg.RING_BASE : Nat := 0x7100
def Fld.RING_BASE_ADDR : Fld := ⟨Reg.RING_BASE, 20, 16, 0⟩
/-- RING_SIZE (10, R247). -/
def Reg.RING_SIZE : Nat := 0x7108
def Fld.RING_SIZE_MIB : Fld := ⟨Reg.RING_SIZE, 0, 16, 10922⟩
/-- RING_HEAD (10, R247). -/
def Reg.RING_HEAD : Nat := 0x7110
def Fld.RING_HEAD_OFFSET : Fld := ⟨Reg.RING_HEAD, 0, 64, 0⟩
/-- RING_TAIL (10, R247). -/
def Reg.RING_TAIL : Nat := 0x7118
def Fld.RING_TAIL_OFFSET : Fld := ⟨Reg.RING_TAIL, 0, 64, 0⟩
/-- RING_LAST (10, R247). -/
def Reg.RING_LAST : Nat := 0x7120
def Fld.RING_LAST_TICK : Fld := ⟨Reg.RING_LAST, 0, 48, 0⟩
/-- RING_LAST_HDR (10, R247). -/
def Reg.RING_LAST_HDR : Nat := 0x7128
def Fld.RING_LAST_HDR_OFFSET : Fld := ⟨Reg.RING_LAST_HDR, 0, 64, 0⟩
/-- RING_OLDEST (10, R247). -/
def Reg.RING_OLDEST : Nat := 0x7130
def Fld.RING_OLDEST_TICK : Fld := ⟨Reg.RING_OLDEST, 0, 48, 0⟩
/-- SIG_RANGE (11, R251). -/
def Reg.SIG_RANGE (i : Nat) : Nat := 0x2100100 + i * 0x8
def Fld.SIG_RANGE_BASE (i : Nat) : Fld := ⟨(Reg.SIG_RANGE i), 0, 12, 0⟩
def Fld.SIG_RANGE_COUNT (i : Nat) : Fld := ⟨(Reg.SIG_RANGE i), 12, 13, 0⟩
def Fld.SIG_RANGE_STALE_TICKS (i : Nat) : Fld := ⟨(Reg.SIG_RANGE i), 32, 16, 0⟩
/-- SIG_HOST_PUB (11, R256). -/
def Reg.SIG_HOST_PUB : Nat := 0x2100300
def Fld.SIG_HOST_PUB_VALUE : Fld := ⟨Reg.SIG_HOST_PUB, 0, 32, 0⟩
def Fld.SIG_HOST_PUB_SLOT : Fld := ⟨Reg.SIG_HOST_PUB, 32, 12, 0⟩
def Fld.SIG_HOST_PUB_QUAL : Fld := ⟨Reg.SIG_HOST_PUB, 48, 8, 0⟩
/-- SIG_EVT (11, R256). -/
def Reg.SIG_EVT : Nat := 0x2100308
def Fld.SIG_EVT_HOST_REFUSED : Fld := ⟨Reg.SIG_EVT, 0, 1, 0⟩
/-- KEY_CTRL (11, R264). -/
def Reg.KEY_CTRL (i : Nat) : Nat := 0x2140100 + i * 0x8
def Fld.KEY_CTRL_EN (i : Nat) : Fld := ⟨(Reg.KEY_CTRL i), 0, 1, 0⟩
def Fld.KEY_CTRL_UNLOAD (i : Nat) : Fld := ⟨(Reg.KEY_CTRL i), 1, 1, 0⟩
def Fld.KEY_CTRL_STATE (i : Nat) : Fld := ⟨(Reg.KEY_CTRL i), 2, 2, 0⟩
def Fld.KEY_CTRL_OUT (i : Nat) : Fld := ⟨(Reg.KEY_CTRL i), 4, 1, 0⟩
def Fld.KEY_CTRL_TERMS (i : Nat) : Fld := ⟨(Reg.KEY_CTRL i), 8, 6, 0⟩
def Fld.KEY_CTRL_COST_NS (i : Nat) : Fld := ⟨(Reg.KEY_CTRL i), 16, 16, 0⟩
/-- KS_EVT (11, R265). -/
def Reg.KS_EVT : Nat := 0x2140300
def Fld.KS_EVT_LOAD_REJECTED : Fld := ⟨Reg.KS_EVT, 0, 1, 0⟩
def Fld.KS_EVT_ROUTE_DROPPED : Fld := ⟨Reg.KS_EVT, 1, 1, 0⟩
def Fld.KS_EVT_ROUTE_REJECTED : Fld := ⟨Reg.KS_EVT, 2, 1, 0⟩
def Fld.KS_EVT_TOWPATH_DROPPED : Fld := ⟨Reg.KS_EVT, 3, 1, 0⟩
def Fld.KS_EVT_SUPPRESSED : Fld := ⟨Reg.KS_EVT, 4, 1, 0⟩
/-- KS_IRQ (11, R265). -/
def Reg.KS_IRQ : Nat := 0x2140308
def Fld.KS_IRQ_IRQ : Fld := ⟨Reg.KS_IRQ, 0, 64, 0⟩
/-- KS_LOAD_RESULT (11, R265). -/
def Reg.KS_LOAD_RESULT : Nat := 0x2140310
def Fld.KS_LOAD_RESULT_KEYSTONE : Fld := ⟨Reg.KS_LOAD_RESULT, 0, 6, 0⟩
def Fld.KS_LOAD_RESULT_REASON : Fld := ⟨Reg.KS_LOAD_RESULT, 8, 4, 0⟩
def Fld.KS_LOAD_RESULT_TERM : Fld := ⟨Reg.KS_LOAD_RESULT, 16, 5, 0⟩
/-- KS_OUT (11, R265). -/
def Reg.KS_OUT : Nat := 0x2140318
def Fld.KS_OUT_OUT : Fld := ⟨Reg.KS_OUT, 0, 64, 0⟩
/-- TRIG_IN_TIME (11, R265). -/
def Reg.TRIG_IN_TIME (i : Nat) : Nat := 0x2140320 + i * 0x8
def Fld.TRIG_IN_TIME_TIME_NS (i : Nat) : Fld := ⟨(Reg.TRIG_IN_TIME i), 0, 64, 0⟩
/-- KSTATS (11, R265). -/
def Reg.KSTATS (i : Nat) : Nat := 0x2141100 + i * 0x8
def Fld.KSTATS_ACTIONS (i : Nat) : Fld := ⟨(Reg.KSTATS i), 0, 32, 0⟩
def Fld.KSTATS_SUPPRESSED (i : Nat) : Fld := ⟨(Reg.KSTATS i), 32, 16, 0⟩
def Fld.KSTATS_ROUTE_DROPPED (i : Nat) : Fld := ⟨(Reg.KSTATS i), 48, 8, 0⟩
def Fld.KSTATS_ROUTE_REJECTED (i : Nat) : Fld := ⟨(Reg.KSTATS i), 56, 8, 0⟩
/-- PLACE_CFG (12, R294). -/
def Reg.PLACE_CFG : Nat := 0x20100
def Fld.PLACE_CFG_RECYCLE : Fld := ⟨Reg.PLACE_CFG, 0, 1, 0⟩
def Fld.PLACE_CFG_AUTO_FORMAT : Fld := ⟨Reg.PLACE_CFG, 1, 1, 0⟩
def Fld.PLACE_CFG_STAGE_HIGH : Fld := ⟨Reg.PLACE_CFG, 8, 7, 75⟩
def Fld.PLACE_CFG_STAGE_LOW : Fld := ⟨Reg.PLACE_CFG, 16, 7, 50⟩
def Fld.PLACE_CFG_SPACE_LOW : Fld := ⟨Reg.PLACE_CFG, 24, 8, 8⟩
def Fld.PLACE_CFG_COMMIT_MS : Fld := ⟨Reg.PLACE_CFG, 32, 16, 1000⟩
def Fld.PLACE_CFG_STEP_TICKS : Fld := ⟨Reg.PLACE_CFG, 48, 16, 100⟩
/-- STAGE_BASE (12, R294). -/
def Reg.STAGE_BASE : Nat := 0x20108
def Fld.STAGE_BASE_ADDR : Fld := ⟨Reg.STAGE_BASE, 20, 16, 10922⟩
/-- STAGE_SIZE (12, R294). -/
def Reg.STAGE_SIZE : Nat := 0x20110
def Fld.STAGE_SIZE_MIB : Fld := ⟨Reg.STAGE_SIZE, 0, 16, 3072⟩
/-- PLACE_STATUS (12, R294). -/
def Reg.PLACE_STATUS : Nat := 0x20118
def Fld.PLACE_STATUS_LEVEL : Fld := ⟨Reg.PLACE_STATUS, 0, 5, 0⟩
def Fld.PLACE_STATUS_STAGE_PCT : Fld := ⟨Reg.PLACE_STATUS, 8, 7, 0⟩
def Fld.PLACE_STATUS_BRACE_COMMIT : Fld := ⟨Reg.PLACE_STATUS, 15, 1, 0⟩
def Fld.PLACE_STATUS_OPEN : Fld := ⟨Reg.PLACE_STATUS, 16, 9, 0⟩
/-- PLACE_EVT (12, R294). -/
def Reg.PLACE_EVT : Nat := 0x20120
def Fld.PLACE_EVT_DEGRADE : Fld := ⟨Reg.PLACE_EVT, 0, 1, 0⟩
def Fld.PLACE_EVT_RESTORE : Fld := ⟨Reg.PLACE_EVT, 1, 1, 0⟩
def Fld.PLACE_EVT_STORAGE_FULL : Fld := ⟨Reg.PLACE_EVT, 2, 1, 0⟩
def Fld.PLACE_EVT_MIRROR_SHORT : Fld := ⟨Reg.PLACE_EVT, 3, 1, 0⟩
def Fld.PLACE_EVT_BRACE_DONE : Fld := ⟨Reg.PLACE_EVT, 4, 1, 0⟩
def Fld.PLACE_EVT_DEF_REJECTED : Fld := ⟨Reg.PLACE_EVT, 5, 1, 0⟩
/-- DEF_RESULT (12, R294). -/
def Reg.DEF_RESULT : Nat := 0x20128
def Fld.DEF_RESULT_STREAM : Fld := ⟨Reg.DEF_RESULT, 0, 8, 0⟩
def Fld.DEF_RESULT_REASON : Fld := ⟨Reg.DEF_RESULT, 8, 4, 0⟩
/-- STRM_STATE (12, R294). -/
def Reg.STRM_STATE (i : Nat) : Nat := 0x28000 + (i / 64) * 0x1000 + 0x100 + (i % 64) * 0x20
def Fld.STRM_STATE_STATE (i : Nat) : Fld := ⟨(Reg.STRM_STATE i), 0, 2, 0⟩
def Fld.STRM_STATE_DROPPING (i : Nat) : Fld := ⟨(Reg.STRM_STATE i), 2, 1, 0⟩
def Fld.STRM_STATE_FULL (i : Nat) : Fld := ⟨(Reg.STRM_STATE i), 3, 1, 0⟩
def Fld.STRM_STATE_MIRROR_SHORT (i : Nat) : Fld := ⟨(Reg.STRM_STATE i), 4, 1, 0⟩
def Fld.STRM_STATE_MIRRORS_NOW (i : Nat) : Fld := ⟨(Reg.STRM_STATE i), 8, 8, 0⟩
def Fld.STRM_STATE_LAST_TICK (i : Nat) : Fld := ⟨(Reg.STRM_STATE i), 16, 48, 0⟩
/-- STRM_STATS0 (12, R294). -/
def Reg.STRM_STATS0 (i : Nat) : Nat := 0x28000 + (i / 64) * 0x1000 + 0x108 + (i % 64) * 0x20
def Fld.STRM_STATS0_SPANS (i : Nat) : Fld := ⟨(Reg.STRM_STATS0 i), 0, 32, 0⟩
def Fld.STRM_STATS0_DROPPED (i : Nat) : Fld := ⟨(Reg.STRM_STATS0 i), 32, 32, 0⟩
/-- STRM_STATS1 (12, R294). -/
def Reg.STRM_STATS1 (i : Nat) : Nat := 0x28000 + (i / 64) * 0x1000 + 0x110 + (i % 64) * 0x20
def Fld.STRM_STATS1_GAP_SPANS (i : Nat) : Fld := ⟨(Reg.STRM_STATS1 i), 0, 32, 0⟩
def Fld.STRM_STATS1_TEL_SKIPPED (i : Nat) : Fld := ⟨(Reg.STRM_STATS1 i), 32, 32, 0⟩
/-- STRM_TEL (12, R294). -/
def Reg.STRM_TEL (i : Nat) : Nat := 0x28000 + (i / 64) * 0x1000 + 0x118 + (i % 64) * 0x20
def Fld.STRM_TEL_EPOCH (i : Nat) : Fld := ⟨(Reg.STRM_TEL i), 0, 32, 0⟩
/-- DRIVE_STATE (12, R294). -/
def Reg.DRIVE_STATE (n : Nat) : Nat := 0x21000 + n * 0x1000 + 0x100
def Fld.DRIVE_STATE_STATE (n : Nat) : Fld := ⟨(Reg.DRIVE_STATE n), 0, 4, 0⟩
def Fld.DRIVE_STATE_FAIL_REASON (n : Nat) : Fld := ⟨(Reg.DRIVE_STATE n), 4, 4, 0⟩
def Fld.DRIVE_STATE_LBA_SHIFT (n : Nat) : Fld := ⟨(Reg.DRIVE_STATE n), 8, 8, 0⟩
def Fld.DRIVE_STATE_FREE_SEGMENTS (n : Nat) : Fld := ⟨(Reg.DRIVE_STATE n), 32, 32, 0⟩
/-- DRIVE_CAP (12, R294). -/
def Reg.DRIVE_CAP (n : Nat) : Nat := 0x21000 + n * 0x1000 + 0x108
def Fld.DRIVE_CAP_SEGMENTS (n : Nat) : Fld := ⟨(Reg.DRIVE_CAP n), 0, 32, 0⟩
/-- DRIVE_CTRL (12, R294). -/
def Reg.DRIVE_CTRL (n : Nat) : Nat := 0x21000 + n * 0x1000 + 0x110
def Fld.DRIVE_CTRL_FORMAT (n : Nat) : Fld := ⟨(Reg.DRIVE_CTRL n), 0, 1, 0⟩
def Fld.DRIVE_CTRL_ERASE_OK (n : Nat) : Fld := ⟨(Reg.DRIVE_CTRL n), 1, 1, 0⟩
def Fld.DRIVE_CTRL_EJECT (n : Nat) : Fld := ⟨(Reg.DRIVE_CTRL n), 2, 1, 0⟩
def Fld.DRIVE_CTRL_ENABLE (n : Nat) : Fld := ⟨(Reg.DRIVE_CTRL n), 3, 1, 1⟩
/-- DRIVE_EVT (12, R294). -/
def Reg.DRIVE_EVT (n : Nat) : Nat := 0x21000 + n * 0x1000 + 0x118
def Fld.DRIVE_EVT_ARRIVED (n : Nat) : Fld := ⟨(Reg.DRIVE_EVT n), 0, 1, 0⟩
def Fld.DRIVE_EVT_REMOVED (n : Nat) : Fld := ⟨(Reg.DRIVE_EVT n), 1, 1, 0⟩
def Fld.DRIVE_EVT_MOUNTED (n : Nat) : Fld := ⟨(Reg.DRIVE_EVT n), 2, 1, 0⟩
def Fld.DRIVE_EVT_FAILED (n : Nat) : Fld := ⟨(Reg.DRIVE_EVT n), 3, 1, 0⟩
def Fld.DRIVE_EVT_SMART_WARN (n : Nat) : Fld := ⟨(Reg.DRIVE_EVT n), 4, 1, 0⟩
def Fld.DRIVE_EVT_FULL (n : Nat) : Fld := ⟨(Reg.DRIVE_EVT n), 5, 1, 0⟩
def Fld.DRIVE_EVT_EJECT_DONE (n : Nat) : Fld := ⟨(Reg.DRIVE_EVT n), 6, 1, 0⟩
/-- DRIVE_IO (12, R294). -/
def Reg.DRIVE_IO (n : Nat) : Nat := 0x21000 + n * 0x1000 + 0x120
def Fld.DRIVE_IO_CMD_ERRORS (n : Nat) : Fld := ⟨(Reg.DRIVE_IO n), 0, 16, 0⟩
def Fld.DRIVE_IO_TIMEOUTS (n : Nat) : Fld := ⟨(Reg.DRIVE_IO n), 16, 16, 0⟩
def Fld.DRIVE_IO_CRIT_WARN (n : Nat) : Fld := ⟨(Reg.DRIVE_IO n), 32, 8, 0⟩
/-- QUAY_CFG (13, R313). -/
def Reg.QUAY_CFG : Nat := 0x20130
def Fld.QUAY_CFG_FORMAT_TARGET : Fld := ⟨Reg.QUAY_CFG, 0, 4, 0⟩
/-- SRC (14, R318). -/
def Reg.SRC (i : Nat) : Nat := 0x2001000 + (i / 128) * 0x1000 + 0x100 + (i % 128) * 0x8
def Fld.SRC_PRIO (i : Nat) : Fld := ⟨(Reg.SRC i), 0, 4, 15⟩
def Fld.SRC_SENSE (i : Nat) : Fld := ⟨(Reg.SRC i), 4, 3, (if i = 513 ∨ i = 524 then 1 else 0)⟩
def Fld.SRC_TARGET (i : Nat) : Fld := ⟨(Reg.SRC i), 8, 10, 0⟩
def Fld.SRC_GROUP (i : Nat) : Fld := ⟨(Reg.SRC i), 24, 7, 0⟩
def Fld.SRC_GROUP_EN (i : Nat) : Fld := ⟨(Reg.SRC i), 31, 1, 0⟩
def Fld.SRC_RAW (i : Nat) : Fld := ⟨(Reg.SRC i), 32, 1, 0⟩
def Fld.SRC_PENDING (i : Nat) : Fld := ⟨(Reg.SRC i), 33, 1, 0⟩
def Fld.SRC_IN_SERVICE (i : Nat) : Fld := ⟨(Reg.SRC i), 34, 1, 0⟩
def Fld.SRC_TARGET_STOPPED (i : Nat) : Fld := ⟨(Reg.SRC i), 35, 1, 0⟩
def Fld.SRC_HELD (i : Nat) : Fld := ⟨(Reg.SRC i), 36, 1, 0⟩
def Fld.SRC_SET (i : Nat) : Fld := ⟨(Reg.SRC i), 37, 1, 0⟩
def Fld.SRC_CLR (i : Nat) : Fld := ⟨(Reg.SRC i), 38, 1, 0⟩
/-- GRP (14, R324). -/
def Reg.GRP (i : Nat) : Nat := 0x2006100 + i * 0x8
def Fld.GRP_INTERVAL (i : Nat) : Fld := ⟨(Reg.GRP i), 0, 16, 0⟩
def Fld.GRP_UNIT (i : Nat) : Fld := ⟨(Reg.GRP i), 16, 1, 0⟩
def Fld.GRP_HOLDING (i : Nat) : Fld := ⟨(Reg.GRP i), 17, 1, 0⟩
def Fld.GRP_COALESCED (i : Nat) : Fld := ⟨(Reg.GRP i), 32, 32, 0⟩
/-- HV_EOI (14, R325). -/
def Reg.HV_EOI (i : Nat) : Nat := 0x2007100 + i * 0x10
def Fld.HV_EOI_EOI (i : Nat) : Fld := ⟨(Reg.HV_EOI i), 0, 64, 0⟩
/-- HV_STACK (14, R325). -/
def Reg.HV_STACK (i : Nat) : Nat := 0x2007108 + i * 0x10
def Fld.HV_STACK_DEPTH (i : Nat) : Fld := ⟨(Reg.HV_STACK i), 0, 4, 0⟩
def Fld.HV_STACK_RUNNING (i : Nat) : Fld := ⟨(Reg.HV_STACK i), 4, 5, 16⟩
def Fld.HV_STACK_PRIOS (i : Nat) : Fld := ⟨(Reg.HV_STACK i), 16, 32, 0⟩
def Fld.HV_STACK_TOP_SRC (i : Nat) : Fld := ⟨(Reg.HV_STACK i), 48, 10, 1023⟩
/-- IC_EVT (14, R328). -/
def Reg.IC_EVT : Nat := 0x2000100
def Fld.IC_EVT_EOI_EMPTY : Fld := ⟨Reg.IC_EVT, 0, 1, 0⟩
def Fld.IC_EVT_STACK_FULL : Fld := ⟨Reg.IC_EVT, 1, 1, 0⟩
/-- PEND (14, R328). -/
def Reg.PEND (i : Nat) : Nat := 0x2000108 + i * 0x8
def Fld.PEND_PEND (i : Nat) : Fld := ⟨(Reg.PEND i), 0, 64, 0⟩
/-- INS (14, R328). -/
def Reg.INS (i : Nat) : Nat := 0x2000158 + i * 0x8
def Fld.INS_INS (i : Nat) : Fld := ⟨(Reg.INS i), 0, 64, 0⟩
/-- ECC_DRAM (15, R337). -/
def Reg.ECC_DRAM : Nat := 0x31100
def Fld.ECC_DRAM_CORR : Fld := ⟨Reg.ECC_DRAM, 0, 32, 0⟩
def Fld.ECC_DRAM_UNCORR : Fld := ⟨Reg.ECC_DRAM, 32, 32, 0⟩
/-- ECC_OTHER (15, R337). -/
def Reg.ECC_OTHER (i : Nat) : Nat := 0x31108 + i * 0x8
def Fld.ECC_OTHER_CORR (i : Nat) : Fld := ⟨(Reg.ECC_OTHER i), 0, 32, 0⟩
def Fld.ECC_OTHER_UNCORR (i : Nat) : Fld := ⟨(Reg.ECC_OTHER i), 32, 32, 0⟩
/-- DRAM_RAS (15, R337). -/
def Reg.DRAM_RAS : Nat := 0x31128
def Fld.DRAM_RAS_SPARES_FREE : Fld := ⟨Reg.DRAM_RAS, 0, 6, 32⟩
def Fld.DRAM_RAS_CE_RETIRE : Fld := ⟨Reg.DRAM_RAS, 8, 8, 4⟩
def Fld.DRAM_RAS_RETIRED : Fld := ⟨Reg.DRAM_RAS, 16, 16, 0⟩
def Fld.DRAM_RAS_SCRUB_HOURS : Fld := ⟨Reg.DRAM_RAS, 32, 8, 12⟩
def Fld.DRAM_RAS_SCRUB_EN : Fld := ⟨Reg.DRAM_RAS, 40, 1, 1⟩
/-- DRAM_LAST (15, R337). -/
def Reg.DRAM_LAST : Nat := 0x31130
def Fld.DRAM_LAST_ADDR : Fld := ⟨Reg.DRAM_LAST, 0, 48, 0⟩
/-- LINK_STATE (15, R337). -/
def Reg.LINK_STATE : Nat := 0x31138
def Fld.LINK_STATE_HOST_WIDTH : Fld := ⟨Reg.LINK_STATE, 0, 4, 0⟩
def Fld.LINK_STATE_HOST_RETIRED : Fld := ⟨Reg.LINK_STATE, 4, 8, 0⟩
def Fld.LINK_STATE_SP_WIDTH0 : Fld := ⟨Reg.LINK_STATE, 16, 4, 0⟩
def Fld.LINK_STATE_SP_WIDTH1 : Fld := ⟨Reg.LINK_STATE, 24, 4, 0⟩
def Fld.LINK_STATE_SP_WIDTH2 : Fld := ⟨Reg.LINK_STATE, 32, 4, 0⟩
def Fld.LINK_STATE_SP_WIDTH3 : Fld := ⟨Reg.LINK_STATE, 40, 4, 0⟩
def Fld.LINK_STATE_SP_RETIRED0 : Fld := ⟨Reg.LINK_STATE, 20, 4, 0⟩
def Fld.LINK_STATE_SP_RETIRED1 : Fld := ⟨Reg.LINK_STATE, 28, 4, 0⟩
def Fld.LINK_STATE_SP_RETIRED2 : Fld := ⟨Reg.LINK_STATE, 36, 4, 0⟩
def Fld.LINK_STATE_SP_RETIRED3 : Fld := ⟨Reg.LINK_STATE, 44, 4, 0⟩
/-- REPAIR (15, R337). -/
def Reg.REPAIR : Nat := 0x31140
def Fld.REPAIR_ENTRIES : Fld := ⟨Reg.REPAIR, 0, 12, 0⟩
def Fld.REPAIR_FIELD_SPARES : Fld := ⟨Reg.REPAIR, 12, 4, 4⟩
def Fld.REPAIR_STREAM_SPARE : Fld := ⟨Reg.REPAIR, 16, 1, 1⟩
def Fld.REPAIR_TILES_RETIRED : Fld := ⟨Reg.REPAIR, 32, 8, 0⟩
/-- RAS_EVT (15, R337). -/
def Reg.RAS_EVT : Nat := 0x31148
def Fld.RAS_EVT_DRAM_UNCORR : Fld := ⟨Reg.RAS_EVT, 0, 1, 0⟩
def Fld.RAS_EVT_PAGE_RETIRED : Fld := ⟨Reg.RAS_EVT, 1, 1, 0⟩
def Fld.RAS_EVT_SPARES_EXHAUSTED : Fld := ⟨Reg.RAS_EVT, 2, 1, 0⟩
def Fld.RAS_EVT_HOST_LANE : Fld := ⟨Reg.RAS_EVT, 3, 1, 0⟩
def Fld.RAS_EVT_HOST_RETRAIN : Fld := ⟨Reg.RAS_EVT, 4, 1, 0⟩
def Fld.RAS_EVT_ENGINE_RETIRED : Fld := ⟨Reg.RAS_EVT, 5, 1, 0⟩
def Fld.RAS_EVT_STOR_LANE : Fld := ⟨Reg.RAS_EVT, 6, 1, 0⟩
def Fld.RAS_EVT_REPAIR_FULL : Fld := ⟨Reg.RAS_EVT, 7, 1, 0⟩
/-- FAULT_STATUS (15, R340). -/
def Reg.FAULT_STATUS : Nat := 0x30100
def Fld.FAULT_STATUS_STATUS : Fld := ⟨Reg.FAULT_STATUS, 0, 64, 0⟩
/-- FAULT_FIRST (15, R340). -/
def Reg.FAULT_FIRST : Nat := 0x30108
def Fld.FAULT_FIRST_BIT : Fld := ⟨Reg.FAULT_FIRST, 0, 6, 0⟩
def Fld.FAULT_FIRST_CLASS : Fld := ⟨Reg.FAULT_FIRST, 6, 2, 0⟩
def Fld.FAULT_FIRST_CODE : Fld := ⟨Reg.FAULT_FIRST, 8, 8, 0⟩
def Fld.FAULT_FIRST_TICK : Fld := ⟨Reg.FAULT_FIRST, 16, 48, 0⟩
/-- FAULT_TIMER (15, R340). -/
def Reg.FAULT_TIMER : Nat := 0x30110
def Fld.FAULT_TIMER_VALID : Fld := ⟨Reg.FAULT_TIMER, 0, 1, 0⟩
def Fld.FAULT_TIMER_FAULT_OVF : Fld := ⟨Reg.FAULT_TIMER, 1, 1, 0⟩
def Fld.FAULT_TIMER_REMAINING : Fld := ⟨Reg.FAULT_TIMER, 16, 16, 0⟩
/-- FAULT_ACK (15, R340). -/
def Reg.FAULT_ACK : Nat := 0x30118
def Fld.FAULT_ACK_TOKEN : Fld := ⟨Reg.FAULT_ACK, 0, 16, 0⟩
/-- FAULT_CLASS0 (15, R340). -/
def Reg.FAULT_CLASS0 : Nat := 0x30120
def Fld.FAULT_CLASS0_CLASS : Fld := ⟨Reg.FAULT_CLASS0, 0, 64, 0⟩
/-- FAULT_CLASS1 (15, R340). -/
def Reg.FAULT_CLASS1 : Nat := 0x30128
def Fld.FAULT_CLASS1_CLASS : Fld := ⟨Reg.FAULT_CLASS1, 0, 64, 5190398570544496640⟩
/-- FAULT_CTRL (15, R340). -/
def Reg.FAULT_CTRL : Nat := 0x30130
def Fld.FAULT_CTRL_GRACE_MINOR : Fld := ⟨Reg.FAULT_CTRL, 0, 16, 100⟩
def Fld.FAULT_CTRL_GRACE_MAJOR : Fld := ⟨Reg.FAULT_CTRL, 16, 16, 10⟩
def Fld.FAULT_CTRL_AUTO_RESEAT : Fld := ⟨Reg.FAULT_CTRL, 32, 1, 1⟩
/-- FAULT_EVT (15, R340). -/
def Reg.FAULT_EVT : Nat := 0x30138
def Fld.FAULT_EVT_ACK_REFUSED : Fld := ⟨Reg.FAULT_EVT, 0, 1, 0⟩
def Fld.FAULT_EVT_ACK_LATE : Fld := ⟨Reg.FAULT_EVT, 1, 1, 0⟩
def Fld.FAULT_EVT_ESCALATED : Fld := ⟨Reg.FAULT_EVT, 2, 1, 0⟩
def Fld.FAULT_EVT_FENCED : Fld := ⟨Reg.FAULT_EVT, 3, 1, 0⟩
def Fld.FAULT_EVT_RESEAT_DONE : Fld := ⟨Reg.FAULT_EVT, 4, 1, 0⟩
def Fld.FAULT_EVT_RESEAT_FAIL : Fld := ⟨Reg.FAULT_EVT, 5, 1, 0⟩
/-- VSENSE_CFG (15, R348). -/
def Reg.VSENSE_CFG : Nat := 0x32100
def Fld.VSENSE_CFG_SCALE : Fld := ⟨Reg.VSENSE_CFG, 0, 16, 5120⟩
/-- SUPPLY_EVT (15, R348). -/
def Reg.SUPPLY_EVT : Nat := 0x32108
def Fld.SUPPLY_EVT_WARN : Fld := ⟨Reg.SUPPLY_EVT, 0, 1, 0⟩
def Fld.SUPPLY_EVT_RECOVER : Fld := ⟨Reg.SUPPLY_EVT, 1, 1, 0⟩
def Fld.SUPPLY_EVT_RESET_SEEN : Fld := ⟨Reg.SUPPLY_EVT, 2, 1, 0⟩
/-- MON0 (15, R348). -/
def Reg.MON0 (i : Nat) : Nat := 0x32110 + i * 0x10
def Fld.MON0_WARN_MV (i : Nat) : Fld := ⟨(Reg.MON0 i), 0, 16, (monWarnReset i)⟩
def Fld.MON0_RESET_MV (i : Nat) : Fld := ⟨(Reg.MON0 i), 16, 16, (monResetReset i)⟩
def Fld.MON0_HYST_MV (i : Nat) : Fld := ⟨(Reg.MON0 i), 32, 16, (if i = 9 then 500 else 20)⟩
def Fld.MON0_FILT_US (i : Nat) : Fld := ⟨(Reg.MON0 i), 48, 8, 2⟩
/-- MON1 (15, R348). -/
def Reg.MON1 (i : Nat) : Nat := 0x32118 + i * 0x10
def Fld.MON1_NOW_MV (i : Nat) : Fld := ⟨(Reg.MON1 i), 0, 16, 0⟩
def Fld.MON1_MIN_MV (i : Nat) : Fld := ⟨(Reg.MON1 i), 16, 16, 65535⟩
def Fld.MON1_BELOW (i : Nat) : Fld := ⟨(Reg.MON1 i), 32, 1, 0⟩
/-- LAST_RESET (15, R348). -/
def Reg.LAST_RESET : Nat := 0x321b0
def Fld.LAST_RESET_CAUSE : Fld := ⟨Reg.LAST_RESET, 0, 4, 0⟩
def Fld.LAST_RESET_MONITOR : Fld := ⟨Reg.LAST_RESET, 4, 4, 0⟩
def Fld.LAST_RESET_MIN_MV : Fld := ⟨Reg.LAST_RESET, 8, 16, 0⟩
/-- THERM_CFG (15, R351). -/
def Reg.THERM_CFG : Nat := 0x321c0
def Fld.THERM_CFG_WARN_C : Fld := ⟨Reg.THERM_CFG, 0, 8, 110⟩
def Fld.THERM_CFG_THROTTLE_C : Fld := ⟨Reg.THERM_CFG, 8, 8, 118⟩
def Fld.THERM_CFG_CRIT_C : Fld := ⟨Reg.THERM_CFG, 16, 8, 127⟩
/-- THERM_STATUS (15, R351). -/
def Reg.THERM_STATUS : Nat := 0x321c8
def Fld.THERM_STATUS_TMAX_C : Fld := ⟨Reg.THERM_STATUS, 0, 8, 0⟩
def Fld.THERM_STATUS_SENSOR : Fld := ⟨Reg.THERM_STATUS, 8, 4, 0⟩
def Fld.THERM_STATUS_LEVEL : Fld := ⟨Reg.THERM_STATUS, 12, 2, 0⟩
/-- THERM_EVT (15, R351). -/
def Reg.THERM_EVT : Nat := 0x321d0
def Fld.THERM_EVT_WARN : Fld := ⟨Reg.THERM_EVT, 0, 1, 0⟩
def Fld.THERM_EVT_THROTTLE : Fld := ⟨Reg.THERM_EVT, 1, 1, 0⟩
def Fld.THERM_EVT_CRIT : Fld := ⟨Reg.THERM_EVT, 2, 1, 0⟩
def Fld.THERM_EVT_NORMAL : Fld := ⟨Reg.THERM_EVT, 3, 1, 0⟩
/-- ST_SUMMARY (16, R359). -/
def Reg.ST_SUMMARY : Nat := 0x41100
def Fld.ST_SUMMARY_PASS : Fld := ⟨Reg.ST_SUMMARY, 0, 1, 0⟩
def Fld.ST_SUMMARY_FAIL_STEP : Fld := ⟨Reg.ST_SUMMARY, 4, 4, 0⟩
def Fld.ST_SUMMARY_FAIL_CODE : Fld := ⟨Reg.ST_SUMMARY, 8, 16, 0⟩
def Fld.ST_SUMMARY_DURATION_MS : Fld := ⟨Reg.ST_SUMMARY, 32, 16, 0⟩
/-- CHMAP (16, R359). -/
def Reg.CHMAP (i : Nat) : Nat := 0x41108 + i * 0x8
def Fld.CHMAP_TILES (i : Nat) : Fld := ⟨(Reg.CHMAP i), 0, 64, 18446744073709551615⟩
/-- TILE_FAIL (16, R359). -/
def Reg.TILE_FAIL : Nat := 0x41140
def Fld.TILE_FAIL_FAIL : Fld := ⟨Reg.TILE_FAIL, 0, 61, 0⟩
/-- SRAM_RESULT (16, R359). -/
def Reg.SRAM_RESULT : Nat := 0x41148
def Fld.SRAM_RESULT_REPAIRED : Fld := ⟨Reg.SRAM_RESULT, 0, 16, 0⟩
def Fld.SRAM_RESULT_FROM_MAP : Fld := ⟨Reg.SRAM_RESULT, 16, 16, 0⟩
/-- DRAM_RESULT (16, R359). -/
def Reg.DRAM_RESULT : Nat := 0x41150
def Fld.DRAM_RESULT_SIZE : Fld := ⟨Reg.DRAM_RESULT, 0, 4, 0⟩
def Fld.DRAM_RESULT_RATE : Fld := ⟨Reg.DRAM_RESULT, 4, 16, 0⟩
def Fld.DRAM_RESULT_RETIRED : Fld := ⟨Reg.DRAM_RESULT, 20, 16, 0⟩
/-- BOOT_INFO (16, R359). -/
def Reg.BOOT_INFO : Nat := 0x41158
def Fld.BOOT_INFO_BOOT : Fld := ⟨Reg.BOOT_INFO, 0, 32, 0⟩
def Fld.BOOT_INFO_SLOT : Fld := ⟨Reg.BOOT_INFO, 32, 1, 0⟩
def Fld.BOOT_INFO_TRIAL : Fld := ⟨Reg.BOOT_INFO, 33, 1, 0⟩
def Fld.BOOT_INFO_BOOTMODE : Fld := ⟨Reg.BOOT_INFO, 34, 2, 0⟩
/-- FW_VERSION (16, R359). -/
def Reg.FW_VERSION : Nat := 0x41160
def Fld.FW_VERSION_VERSION : Fld := ⟨Reg.FW_VERSION, 0, 32, 0⟩
/-- CFG_STATUS (16, R359). -/
def Reg.CFG_STATUS : Nat := 0x41168
def Fld.CFG_STATUS_USER : Fld := ⟨Reg.CFG_STATUS, 0, 2, 0⟩
def Fld.CFG_STATUS_REASON : Fld := ⟨Reg.CFG_STATUS, 4, 4, 0⟩
def Fld.CFG_STATUS_REJECTED : Fld := ⟨Reg.CFG_STATUS, 8, 16, 0⟩
def Fld.CFG_STATUS_GENERATION : Fld := ⟨Reg.CFG_STATUS, 32, 32, 0⟩
/-- MB_CMD (16, R369). -/
def Reg.MB_CMD : Nat := 0x40100
def Fld.MB_CMD_OPCODE : Fld := ⟨Reg.MB_CMD, 0, 16, 0⟩
def Fld.MB_CMD_TAG : Fld := ⟨Reg.MB_CMD, 16, 16, 0⟩
def Fld.MB_CMD_GO : Fld := ⟨Reg.MB_CMD, 32, 1, 0⟩
/-- MB_STATUS (16, R369). -/
def Reg.MB_STATUS : Nat := 0x40108
def Fld.MB_STATUS_BUSY : Fld := ⟨Reg.MB_STATUS, 0, 1, 0⟩
def Fld.MB_STATUS_STATUS : Fld := ⟨Reg.MB_STATUS, 8, 8, 0⟩
def Fld.MB_STATUS_TAG : Fld := ⟨Reg.MB_STATUS, 16, 16, 0⟩
def Fld.MB_STATUS_RSP_WORDS : Fld := ⟨Reg.MB_STATUS, 32, 8, 0⟩
/-- MB_EVT (16, R369). -/
def Reg.MB_EVT : Nat := 0x40110
def Fld.MB_EVT_DONE : Fld := ⟨Reg.MB_EVT, 0, 1, 0⟩
def Fld.MB_EVT_REFUSED : Fld := ⟨Reg.MB_EVT, 1, 1, 0⟩
/-- MB_REQ (16, R369). -/
def Reg.MB_REQ (i : Nat) : Nat := 0x40200 + i * 0x8
def Fld.MB_REQ_WORD (i : Nat) : Fld := ⟨(Reg.MB_REQ i), 0, 64, 0⟩
/-- MB_RSP (16, R369). -/
def Reg.MB_RSP (i : Nat) : Nat := 0x40300 + i * 0x8
def Fld.MB_RSP_WORD (i : Nat) : Fld := ⟨(Reg.MB_RSP i), 0, 64, 0⟩
/-- TP_CFG (17, R393). -/
def Reg.TP_CFG : Nat := 0x50100
def Fld.TP_CFG_MASTER_PRIO : Fld := ⟨Reg.TP_CFG, 0, 8, 128⟩
def Fld.TP_CFG_EXPORT_EN : Fld := ⟨Reg.TP_CFG, 8, 1, 0⟩
/-- TP_STATUS (17, R393). -/
def Reg.TP_STATUS : Nat := 0x50108
def Fld.TP_STATUS_POSITION : Fld := ⟨Reg.TP_STATUS, 0, 4, 15⟩
def Fld.TP_STATUS_MASTER_POS : Fld := ⟨Reg.TP_STATUS, 4, 4, 15⟩
def Fld.TP_STATUS_IS_MASTER : Fld := ⟨Reg.TP_STATUS, 8, 1, 0⟩
def Fld.TP_STATUS_TICK_MATCH : Fld := ⟨Reg.TP_STATUS, 9, 1, 0⟩
def Fld.TP_STATUS_RING : Fld := ⟨Reg.TP_STATUS, 10, 1, 0⟩
def Fld.TP_STATUS_CHAIN_LEN : Fld := ⟨Reg.TP_STATUS, 16, 4, 1⟩
/-- TP_MASTER (17, R393). -/
def Reg.TP_MASTER : Nat := 0x50110
def Fld.TP_MASTER_SERIAL : Fld := ⟨Reg.TP_MASTER, 0, 64, 0⟩
/-- TP_EVT (17, R393). -/
def Reg.TP_EVT : Nat := 0x50118
def Fld.TP_EVT_TOPOLOGY : Fld := ⟨Reg.TP_EVT, 0, 1, 0⟩
def Fld.TP_EVT_MASTER_CHANGE : Fld := ⟨Reg.TP_EVT, 1, 1, 0⟩
def Fld.TP_EVT_TICK_MISMATCH : Fld := ⟨Reg.TP_EVT, 2, 1, 0⟩
def Fld.TP_EVT_BEACON_SEEN : Fld := ⟨Reg.TP_EVT, 3, 1, 0⟩
/-- TP_STATS (17, R393). -/
def Reg.TP_STATS : Nat := 0x50120
def Fld.TP_STATS_KS_DROP : Fld := ⟨Reg.TP_STATS, 0, 16, 0⟩
def Fld.TP_STATS_IMPORT_REFUSED : Fld := ⟨Reg.TP_STATS, 16, 16, 0⟩
/-- TP_PORT_CFG (17, R393). -/
def Reg.TP_PORT_CFG (i : Nat) : Nat := 0x50140 + i * 0x20
def Fld.TP_PORT_CFG_EN (i : Nat) : Fld := ⟨(Reg.TP_PORT_CFG i), 0, 1, 1⟩
def Fld.TP_PORT_CFG_ASYM_NS (i : Nat) : Fld := ⟨(Reg.TP_PORT_CFG i), 16, 16, 0⟩
/-- TP_PORT_STATUS (17, R393). -/
def Reg.TP_PORT_STATUS (i : Nat) : Nat := 0x50148 + i * 0x20
def Fld.TP_PORT_STATUS_STATE (i : Nat) : Fld := ⟨(Reg.TP_PORT_STATUS i), 0, 3, 0⟩
def Fld.TP_PORT_STATUS_WIDTH (i : Nat) : Fld := ⟨(Reg.TP_PORT_STATUS i), 3, 2, 0⟩
def Fld.TP_PORT_STATUS_REV (i : Nat) : Fld := ⟨(Reg.TP_PORT_STATUS i), 8, 8, 0⟩
def Fld.TP_PORT_STATUS_REDUCED (i : Nat) : Fld := ⟨(Reg.TP_PORT_STATUS i), 16, 1, 0⟩
def Fld.TP_PORT_STATUS_DELAY_NS (i : Nat) : Fld := ⟨(Reg.TP_PORT_STATUS i), 32, 16, 0⟩
/-- TP_PORT_EVT (17, R393). -/
def Reg.TP_PORT_EVT (i : Nat) : Nat := 0x50150 + i * 0x20
def Fld.TP_PORT_EVT_UP (i : Nat) : Fld := ⟨(Reg.TP_PORT_EVT i), 0, 1, 0⟩
def Fld.TP_PORT_EVT_DOWN (i : Nat) : Fld := ⟨(Reg.TP_PORT_EVT i), 1, 1, 0⟩
def Fld.TP_PORT_EVT_BLOCKED (i : Nat) : Fld := ⟨(Reg.TP_PORT_EVT i), 2, 1, 0⟩
def Fld.TP_PORT_EVT_REDUCED (i : Nat) : Fld := ⟨(Reg.TP_PORT_EVT i), 3, 1, 0⟩
def Fld.TP_PORT_EVT_MISWIRED (i : Nat) : Fld := ⟨(Reg.TP_PORT_EVT i), 4, 1, 0⟩
def Fld.TP_PORT_EVT_RX_BAD (i : Nat) : Fld := ⟨(Reg.TP_PORT_EVT i), 5, 1, 0⟩
/-- TP_PORT_STATS (17, R393). -/
def Reg.TP_PORT_STATS (i : Nat) : Nat := 0x50158 + i * 0x20
def Fld.TP_PORT_STATS_RX_BAD (i : Nat) : Fld := ⟨(Reg.TP_PORT_STATS i), 0, 32, 0⟩
def Fld.TP_PORT_STATS_ECC_CORR (i : Nat) : Fld := ⟨(Reg.TP_PORT_STATS i), 32, 16, 0⟩
def Fld.TP_PORT_STATS_DOWNREV_DROP (i : Nat) : Fld := ⟨(Reg.TP_PORT_STATS i), 48, 16, 0⟩
/-- TP_EXPORT (17, R393). -/
def Reg.TP_EXPORT (i : Nat) : Nat := 0x50200 + i * 0x8
def Fld.TP_EXPORT_SRC_SLOT (i : Nat) : Fld := ⟨(Reg.TP_EXPORT i), 0, 12, 0⟩
def Fld.TP_EXPORT_DST_SLOT (i : Nat) : Fld := ⟨(Reg.TP_EXPORT i), 16, 12, 0⟩
def Fld.TP_EXPORT_DEST (i : Nat) : Fld := ⟨(Reg.TP_EXPORT i), 32, 8, 255⟩
def Fld.TP_EXPORT_EN (i : Nat) : Fld := ⟨(Reg.TP_EXPORT i), 40, 1, 0⟩
/-- PAGE_ID (18, R400). -/
def Reg.PAGE_ID (p : Nat) : Nat := p + 0x0
def Fld.PAGE_ID_TYPE (p : Nat) : Fld := ⟨(Reg.PAGE_ID p), 0, 16, 0⟩
def Fld.PAGE_ID_INSTANCE (p : Nat) : Fld := ⟨(Reg.PAGE_ID p), 16, 16, 0⟩
def Fld.PAGE_ID_PAGE_INDEX (p : Nat) : Fld := ⟨(Reg.PAGE_ID p), 32, 8, 0⟩
def Fld.PAGE_ID_VERSION (p : Nat) : Fld := ⟨(Reg.PAGE_ID p), 40, 8, 1⟩
/-- PAGE_CTRL (18, R400). -/
def Reg.PAGE_CTRL (p : Nat) : Nat := p + 0x8
def Fld.PAGE_CTRL_WR_LOCK (p : Nat) : Fld := ⟨(Reg.PAGE_CTRL p), 0, 1, 0⟩
/-- PAGE_STATUS (18, R400). -/
def Reg.PAGE_STATUS (p : Nat) : Nat := p + 0x10
def Fld.PAGE_STATUS_PRESENT (p : Nat) : Fld := ⟨(Reg.PAGE_STATUS p), 0, 1, 1⟩
def Fld.PAGE_STATUS_SPLIT (p : Nat) : Fld := ⟨(Reg.PAGE_STATUS p), 1, 1, 0⟩
def Fld.PAGE_STATUS_SNAP (p : Nat) : Fld := ⟨(Reg.PAGE_STATUS p), 2, 1, 0⟩
/-- ERR_STATUS (18, R400). -/
def Reg.ERR_STATUS (p : Nat) : Nat := p + 0x18
def Fld.ERR_STATUS_RSV_WRITE (p : Nat) : Fld := ⟨(Reg.ERR_STATUS p), 0, 1, 0⟩
def Fld.ERR_STATUS_STATE_WRITE (p : Nat) : Fld := ⟨(Reg.ERR_STATUS p), 1, 1, 0⟩
def Fld.ERR_STATUS_SIZE (p : Nat) : Fld := ⟨(Reg.ERR_STATUS p), 2, 1, 0⟩
def Fld.ERR_STATUS_SPLIT_LOST (p : Nat) : Fld := ⟨(Reg.ERR_STATUS p), 3, 1, 0⟩
def Fld.ERR_STATUS_SHADOW_FULL (p : Nat) : Fld := ⟨(Reg.ERR_STATUS p), 4, 1, 0⟩
/-- ERR_FIRST (18, R400). -/
def Reg.ERR_FIRST (p : Nat) : Nat := p + 0x20
def Fld.ERR_FIRST_OFFSET (p : Nat) : Fld := ⟨(Reg.ERR_FIRST p), 0, 12, 0⟩
def Fld.ERR_FIRST_BIT (p : Nat) : Fld := ⟨(Reg.ERR_FIRST p), 12, 4, 0⟩
def Fld.ERR_FIRST_VALID (p : Nat) : Fld := ⟨(Reg.ERR_FIRST p), 16, 1, 0⟩
def Fld.ERR_FIRST_TICK (p : Nat) : Fld := ⟨(Reg.ERR_FIRST p), 32, 32, 0⟩
/-- ERR_MASK (18, R400). -/
def Reg.ERR_MASK (p : Nat) : Nat := p + 0x28
def Fld.ERR_MASK_MASK (p : Nat) : Fld := ⟨(Reg.ERR_MASK p), 0, 5, 0⟩
/-- EVT_RAW (18, R400). -/
def Reg.EVT_RAW (p : Nat) : Nat := p + 0x30
def Fld.EVT_RAW_ERR (p : Nat) : Fld := ⟨(Reg.EVT_RAW p), 0, 1, 0⟩
def Fld.EVT_RAW_BLOCK (p : Nat) : Fld := ⟨(Reg.EVT_RAW p), 1, 1, 0⟩
/-- EVT_ENABLE (18, R400). -/
def Reg.EVT_ENABLE (p : Nat) : Nat := p + 0x38
def Fld.EVT_ENABLE_ERR_EN (p : Nat) : Fld := ⟨(Reg.EVT_ENABLE p), 0, 1, 0⟩
/-- SHADOW_CTRL (18, R400). -/
def Reg.SHADOW_CTRL (p : Nat) : Nat := p + 0x40
def Fld.SHADOW_CTRL_HOLD (p : Nat) : Fld := ⟨(Reg.SHADOW_CTRL p), 0, 1, 0⟩
def Fld.SHADOW_CTRL_COMMIT (p : Nat) : Fld := ⟨(Reg.SHADOW_CTRL p), 1, 1, 0⟩
def Fld.SHADOW_CTRL_DISCARD (p : Nat) : Fld := ⟨(Reg.SHADOW_CTRL p), 2, 1, 0⟩
def Fld.SHADOW_CTRL_PENDING (p : Nat) : Fld := ⟨(Reg.SHADOW_CTRL p), 3, 1, 0⟩
def Fld.SHADOW_CTRL_STAGED (p : Nat) : Fld := ⟨(Reg.SHADOW_CTRL p), 4, 6, 0⟩
/-- BAR2_BASE (18, R403). -/
def Reg.BAR2_BASE : Nat := 0x1100
def Fld.BAR2_BASE_ADDR : Fld := ⟨Reg.BAR2_BASE, 20, 16, 0⟩
/-- BAR2_CTRL (18, R403). -/
def Reg.BAR2_CTRL : Nat := 0x1108
def Fld.BAR2_CTRL_EN : Fld := ⟨Reg.BAR2_CTRL, 0, 1, 1⟩
def Fld.BAR2_CTRL_WP : Fld := ⟨Reg.BAR2_CTRL, 1, 1, 1⟩
/-- HP_EVT (18, R403). -/
def Reg.HP_EVT : Nat := 0x1110
def Fld.HP_EVT_BAR2_RANGE : Fld := ⟨Reg.HP_EVT, 0, 1, 0⟩
def Fld.HP_EVT_BAR2_WP : Fld := ⟨Reg.HP_EVT, 1, 1, 0⟩
def Fld.HP_EVT_UNMAPPED : Fld := ⟨Reg.HP_EVT, 2, 1, 0⟩
/-- HP_STATS (18, R403). -/
def Reg.HP_STATS : Nat := 0x1118
def Fld.HP_STATS_BAR2_DISCARDS : Fld := ⟨Reg.HP_STATS, 0, 32, 0⟩
def Fld.HP_STATS_UNMAPPED : Fld := ⟨Reg.HP_STATS, 32, 32, 0⟩
/-- LS_ACTIVE (02, R38). -/
def Reg.LS_ACTIVE (i : Nat) : Nat := 0x5100 + i * 0x8
def Fld.LS_ACTIVE_OFFSET_NS (i : Nat) : Fld := ⟨(Reg.LS_ACTIVE i), 0, 24, 0⟩
def Fld.LS_ACTIVE_CHANNEL (i : Nat) : Fld := ⟨(Reg.LS_ACTIVE i), 24, 8, 0⟩
def Fld.LS_ACTIVE_SUB (i : Nat) : Fld := ⟨(Reg.LS_ACTIVE i), 32, 4, 0⟩
/-- FILT_CTRL (07, R187). -/
def Reg.FILT_CTRL (c : Nat) : Nat := chPage c 2 + 0x190
def Fld.FILT_CTRL_DEFAULT (c : Nat) : Fld := ⟨(Reg.FILT_CTRL c), 0, 1, 0⟩
/-- ETH_FILTER0 (09, R222). -/
def Reg.ETH_FILTER0 (c i : Nat) : Nat := chPage c 2 + 0x200 + i * 0x18
def Fld.ETH_FILTER0_DA (c i : Nat) : Fld := ⟨(Reg.ETH_FILTER0 c i), 0, 48, 0⟩
def Fld.ETH_FILTER0_ETYPE (c i : Nat) : Fld := ⟨(Reg.ETH_FILTER0 c i), 48, 16, 0⟩
/-- ETH_FILTER1 (09, R222). -/
def Reg.ETH_FILTER1 (c i : Nat) : Nat := chPage c 2 + 0x208 + i * 0x18
def Fld.ETH_FILTER1_DA_MASK (c i : Nat) : Fld := ⟨(Reg.ETH_FILTER1 c i), 0, 48, 0⟩
def Fld.ETH_FILTER1_ETYPE_MASK (c i : Nat) : Fld := ⟨(Reg.ETH_FILTER1 c i), 48, 16, 0⟩
/-- ETH_FILTER2 (09, R222). -/
def Reg.ETH_FILTER2 (c i : Nat) : Nat := chPage c 2 + 0x210 + i * 0x18
def Fld.ETH_FILTER2_VID (c i : Nat) : Fld := ⟨(Reg.ETH_FILTER2 c i), 0, 12, 0⟩
def Fld.ETH_FILTER2_VID_EN (c i : Nat) : Fld := ⟨(Reg.ETH_FILTER2 c i), 12, 1, 0⟩
def Fld.ETH_FILTER2_SNAP_SEL (c i : Nat) : Fld := ⟨(Reg.ETH_FILTER2 c i), 13, 1, 0⟩
def Fld.ETH_FILTER2_TRACK (c i : Nat) : Fld := ⟨(Reg.ETH_FILTER2 c i), 14, 1, 0⟩
def Fld.ETH_FILTER2_ACTION (c i : Nat) : Fld := ⟨(Reg.ETH_FILTER2 c i), 16, 3, 0⟩
/-- STATS_CNT (07, R192). -/
def Reg.STATS_CNT (c i : Nat) : Nat := chPage c 7 + 0x100 + i * 0x8
def Fld.STATS_CNT_COUNT (c i : Nat) : Fld := ⟨(Reg.STATS_CNT c i), 0, 64, 0⟩
/-- TSTACK (14, R328). -/
def Reg.TSTACK (i : Nat) : Nat := 0x2008100 + i * 0x8
def Fld.TSTACK_DEPTH (i : Nat) : Fld := ⟨(Reg.TSTACK i), 0, 4, 0⟩
def Fld.TSTACK_RUNNING (i : Nat) : Fld := ⟨(Reg.TSTACK i), 4, 5, 16⟩
def Fld.TSTACK_PRIOS (i : Nat) : Fld := ⟨(Reg.TSTACK i), 16, 32, 0⟩
def Fld.TSTACK_TOP_SRC (i : Nat) : Fld := ⟨(Reg.TSTACK i), 48, 10, 1023⟩
/-- TH_STACK (14, R328). -/
def Reg.TH_STACK : Nat := 0x2008f00
def Fld.TH_STACK_DEPTH : Fld := ⟨Reg.TH_STACK, 0, 4, 0⟩
def Fld.TH_STACK_RUNNING : Fld := ⟨Reg.TH_STACK, 4, 5, 16⟩
def Fld.TH_STACK_PRIOS : Fld := ⟨Reg.TH_STACK, 16, 32, 0⟩
def Fld.TH_STACK_TOP_SRC : Fld := ⟨Reg.TH_STACK, 48, 10, 1023⟩

end Sys2Proof.Machine
end

