-- ==== Sys2Proof/Machine/SMap.lean ====
section
/-!
DEFINITION. Sparse data by key in ONE canonical form: a list of key and value pairs, keys strictly rising, no entry
equal to what an unlisted key reads as. Memories, code stores, register fields and tables of the device use it.
-/
namespace Sys2Proof.Machine

/-- The value listed for a key, if any. -/
def SMap.find? {α : Type} (m : List (Nat × α)) (k : Nat) : Option α :=
  match m with
  | [] => none
  | (j, v) :: t => if j = k then some v else SMap.find? t k

/-- Remove a key. -/
def SMap.erase {α : Type} (m : List (Nat × α)) (k : Nat) : List (Nat × α) :=
  match m with
  | [] => []
  | (j, v) :: t => if j = k then SMap.erase t k else (j, v) :: SMap.erase t k

/-- List a value for a key, in rising order of keys. -/
def SMap.insert {α : Type} (m : List (Nat × α)) (k : Nat) (v : α) : List (Nat × α) :=
  match m with
  | [] => [(k, v)]
  | (j, w) :: t =>
    if k < j then (k, v) :: (j, w) :: t
    else if k = j then (k, v) :: t
    else (j, w) :: SMap.insert t k v

/-- Read a key; an unlisted key reads as `d`. -/
def SMap.get {α : Type} (d : α) (m : List (Nat × α)) (k : Nat) : α :=
  match SMap.find? m k with
  | some v => v
  | none => d

/-- Write a key; writing what an unlisted key reads as removes the entry. -/
def SMap.set {α : Type} [DecidableEq α] (d : α) (m : List (Nat × α)) (k : Nat) (v : α) : List (Nat × α) :=
  if v = d then SMap.erase m k else SMap.insert m k v

/-- Keys strictly rising above `lo`, and no value equal to the default of its key. -/
def SMap.wfFrom {α : Type} [DecidableEq α] (d : Nat → α) (lo : Nat) (m : List (Nat × α)) : Bool :=
  match m with
  | [] => true
  | (k, v) :: t => decide (lo ≤ k) && decide (v ≠ d k) && SMap.wfFrom d (k + 1) t

/-- The canonical form. -/
def SMap.wf {α : Type} [DecidableEq α] (d : Nat → α) (m : List (Nat × α)) : Bool := SMap.wfFrom d 0 m

end Sys2Proof.Machine
end

