-- ==== Sys2Proof/Machine/State.lean ====
section
/-!
DEFINITION. The state of the device as plain data (one section per chapter of the spec), the reasons a step can stop, and
the state right after reset. Register fields stand in one sparse store (`State.fld`, the fields in Machine/Fields.lean);
what the spec describes as queues, memories, engines and sequencers stands in structures of its own. An unwritten byte of
a memory reads 0.
-/
namespace Sys2Proof.Machine

/-! ### Work queues and completions (03) -/

/-- Where a command in a command queue came from: a work queue of the host, keystone `k`'s route-start action or an
autostart record (R114). -/
inductive EntrySrc where
  | queue
  | keystone (k : Nat)
  | autostart
deriving DecidableEq, Repr

/-- How far a dispatched work entry has come: not started, executing, or waiting for the next tick edge to take
effect. -/
inductive EntryStage where
  | queued | running | edge
deriving DecidableEq, Repr

/-- A work entry as accepted (R58, R61), with what its execution needs to remember. -/
structure WorkEntry where
  /-- The 64 bytes as accepted. -/
  bytes   : List Byte
  src     : EntrySrc
  /-- Work queue and free-running index. -/
  wq      : Nat
  idx     : Nat
  /-- Host address of the entry's slot. -/
  slot    : Nat
  /-- Completion ring named by WQ_CFG.CR at dispatch (R77); 0xFF none. -/
  ring    : Nat
  /-- Dispatch number: entries are dispatched in rising order of it. -/
  serial  : Nat
  stage   : EntryStage
  /-- FENCE: dispatch numbers of the entries it waits for (R83). -/
  waits   : List Nat
  /-- FENCE: how many entries it waited for. -/
  waited  : Nat
  /-- Long operation: steps in all, steps done, and whether a step ended in this tick (R81). -/
  total   : Nat
  done    : Nat
  stepped : Bool
  /-- Operand data read so far. -/
  data    : List Byte
  /-- Long operation: it ends with the step in progress (R75); it stands at a step boundary because the host port issues no
  requests (R86). -/
  last    : Bool
  idle    : Bool
deriving DecidableEq, Repr

/-- A poll whose read has been issued and has not returned: queue, first index, number of entries (R66). -/
structure Poll where
  wq    : Nat
  first : Nat
  count : Nat
deriving DecidableEq, Repr

/-- The weighted round-robin arbiter (R71): credits and bursts of the present round by queue, the queue being visited
and what is left of its visit. -/
structure Arbiter where
  credits : List Nat
  bursts  : List Nat
  pos     : Nat
  left    : Nat
deriving DecidableEq, Repr

/-! ### Routes and orders (04) -/

/-- An order as fetched: words 0 to 3 (R90). -/
structure Order where
  w0 : Word
  w1 : Word
  w2 : Word
  w3 : Word
deriving DecidableEq, Repr

/-- Where the sequencer's fetch of its next order stands (R89, R109). -/
inductive Fetch where
  | none
  | wait (i : Nat)
  | ready (i : Nat) (o : Order)
  | bad (i status : Nat)
deriving DecidableEq, Repr

/-- The order being executed: its index, its data chain, what has been transferred, the order after it and, once they are
known, its status and residual. -/
structure ExecOrder where
  idx      : Nat
  order    : Order
  /-- The CONTINUE orders of its data chain, in order (R96). -/
  chain    : List Order
  /-- Bytes transferred (RECEIVE, TRANSMIT, EXCHANGE) or ticks left (WAIT). -/
  count    : Nat
  /-- Edges that have passed since it started (TIMEOUT). -/
  edges    : Nat
  /-- The data to send has been read and handed to the engine. -/
  loaded   : Bool
  /-- The order that follows it, once that is known (R93). -/
  next     : Option Nat
  result   : Option (Nat × Nat)
deriving DecidableEq, Repr

/-- An admission in progress (R108): from SUSPENDED or from IDLE, and the start index. -/
structure Admission where
  resume : Bool
  start  : Nat
deriving DecidableEq, Repr

/-- What a pending stop of the route is (R113): ROUTE_HALT, CHANNEL_DISABLE, a device HALT, or a fence. -/
inductive StopKind where
  | halt | disable | deviceHalt | fence
deriving DecidableEq, Repr

/-- The order sequencer of a channel, beside its registers on the ORDSEQ page. -/
structure Seq where
  admission : Option Admission
  /-- Hashes of words 0 to 2 of the admitted orders, by index (R108 step 6). -/
  hashes    : List (Nat × BitVec 16)
  /-- LOOP counters that are not idle, by index (R98). -/
  loops     : List (Nat × Nat)
  /-- Executions of each order since the route started, by index (R102). -/
  runs      : List (Nat × Nat)
  /-- Index of the order that is due or executing. -/
  pc        : Nat
  /-- A CONTINUE of the chain being fetched before the head starts. -/
  chainBuf  : List Order
  chainHead : Option (Nat × Order)
  fetch     : Fetch
  /-- The order has become due. -/
  due       : Bool
  /-- The due order waits for a tick edge: it carries TK, or it is the first order of the route (R94, R95). -/
  atEdge    : Bool
  exec      : Option ExecOrder
  /-- Status and residual of the order that completed last (R99). -/
  prev      : Nat × Nat
  suspend   : Bool
  stop      : Option StopKind
  /-- The route has been admitted and its first order has not become due (R95). -/
  first     : Bool
  /-- Charged sequencer cycles of this tick (R109). -/
  used      : Nat
deriving DecidableEq, Repr

/-! ### Records, lock chambers, the pound and the courses (10) -/

/-- A record: its header (R231) and its payload bytes. -/
structure Rec where
  ts      : Nat
  typ     : Nat
  chan    : Nat
  seq     : Nat
  flags   : Nat
  payload : List Byte
deriving DecidableEq, Repr

/-- States of a chamber half (R237). -/
inductive HalfState where
  | empty | filling | full | draining
deriving DecidableEq, Repr

/-- The gap record a chamber is counting into: records dropped, timestamp of the first and of the last (R239, R240). -/
structure GapCount where
  count : Nat
  first : Nat
  last  : Nat
deriving DecidableEq, Repr

/-- One half of a lock chamber. -/
structure ChHalf where
  st      : HalfState
  /-- Records in commit order, and the stream each belongs to (R105). -/
  recs    : List Rec
  tags    : List (Option Nat)
  /-- Bytes they occupy. -/
  used    : Nat
  /-- The gap record in the reserved space, while it counts (R239). -/
  gap     : Option GapCount
  /-- SEQ of the first number the half consumed, and how many it consumed (R232). -/
  firstSeq : Nat
  nSeq    : Nat
  /-- Tick whose course holds the records, and the swap index that ended the half. -/
  tick    : Nat
  sub     : Nat
  /-- A drain was refused credits. -/
  refused : Bool
  /-- Order in which halves became FULL. -/
  stamp   : Nat
deriving DecidableEq, Repr

/-- A copy from the chamber window into a half that is not yet complete (R235): committing thread, half, position
among its records, window offset, whether the device gave the TIMESTAMP (R234), the bytes to copy (none for an RX item), and those of the blocks
read so far. -/
structure Copy where
  thread : Nat
  half   : Nat
  pos    : Nat
  off    : Nat
  stamp  : Bool
  size   : Nat
  got    : List Byte
deriving DecidableEq, Repr

/-- A lock chamber of two halves; the halves that a reseat left on the old tile and that have not drained, the older first (R345),
count as halves 2 and 3. -/
structure Chamber where
  h0      : ChHalf
  h1      : ChHalf
  old0    : ChHalf
  old1    : ChHalf
  filling : Nat
  weir    : Bool
  /-- Records dropped while in WEIR (R240). -/
  weirGap : Option GapCount
  /-- The channel's next SEQ (R232). -/
  seq     : Nat
  /-- Stream the channel is bound to (R105). -/
  bind    : Option Nat
  copies  : List Copy
  /-- A slot has come at which the oldest FULL half waits for its copies (R238). -/
  due     : Bool
  stamp   : Nat
  /-- Swap points of the present tick that have passed, the edge counted. -/
  swaps   : Nat
deriving DecidableEq, Repr

/-- A credit of the pound that is held (R242): its number, its holder, whether it came from the shared pool, its
contents, whether the drain has filled it, the extent it belongs to and its place in the extent. -/
structure Credit where
  num    : Nat
  chan   : Nat
  pool   : Bool
  data   : List Byte
  filled : Bool
  ext    : Nat
  pos    : Nat
deriving DecidableEq, Repr

/-- An extent of the ring (R246): its number, holder, tick and swap index, its record bytes, its records, its flags,
and its ring offset once the builder has placed it. -/
structure Extent where
  num     : Nat
  chan    : Nat
  tick    : Nat
  sub     : Nat
  len     : Nat
  recs    : List Rec
  tags    : List (Option Nat)
  hasGap  : Bool
  refused : Bool
  off     : Option Nat
deriving DecidableEq, Repr

/-- A course that is open or closed and not written: its tick, the time of its edge, whether it was incomplete after the edge
that ended the next tick (R246), and the time-step records of the steps that fell in it (R52). -/
structure Course where
  tick   : Nat
  edgeNs : Nat
  late   : Bool
  step   : List Rec
  exts   : List Extent
deriving DecidableEq, Repr

/-- A complete course retained in the ring: tick, ring offsets of its first byte, its header and its end, and its
extents. -/
structure DoneCourse where
  tick   : Nat
  edgeNs : Nat
  start  : Nat
  hdr    : Nat
  stop   : Nat
  step   : List Rec
  exts   : List Extent
deriving DecidableEq, Repr

/-! ### Interrupts and the host function (14, 18) -/

/-- The interrupt controller beside its registers: the edge latches that are set, the edge-sensed sources whose signal
was high in the BCLK before, the priority stacks by target (top entry first, priority and source), the sources that
already wait for a full stack, and the ticks left of the hold-off intervals counted in ticks. -/
structure Ic where
  latch    : List Nat
  prev     : List Nat
  stackTab   : List (Nat × List (Nat × Nat))
  fullWait : List Nat
  ticks    : List (Nat × Nat)
deriving DecidableEq, Repr

/-- An MSI-X table entry (R325). -/
structure MsixEntry where
  addr : Nat
  data : Nat
  mask : Bool
deriving DecidableEq, Repr

/-- The host port's function: link, D-state, Bus Master Enable, MSI-X Enable and Function Mask, PME_En and
PME_Status, the MSI-X table by vector, the completion writes held while the host may not be written (R86), and the
Uncorrectable Error Status of Advanced Error Reporting (R406). -/
structure HostFn where
  link      : Bool
  d3hot     : Bool
  bme       : Bool
  msixEn    : Bool
  fnMask    : Bool
  pmeEn     : Bool
  pmeStatus : Bool
  msix      : List (Nat × MsixEntry)
  held      : List HostWrite
  /-- AER's Uncorrectable Error Status (R70, R406). -/
  aer       : Nat
  /-- A source is HELD in D3hot with PME_En set, and PM_PME has been sent for it (R326). -/
  pmeOn     : Bool
  /-- Configuration space: what software has written to the read-write fields that R406 leaves to PCI Express, by double word. -/
  cfg       : List (Nat × Nat)
deriving DecidableEq, Repr

/-- An access of the host to a register or window of BAR0, with the value of a write. -/
structure HostAcc where
  size : AccSize
  a    : Nat
  v    : Option Nat
deriving DecidableEq, Repr

/-- A page's accesses that span two commands (R397, R402): the low half staged in the split buffer, the snapshot of a
low-half read, and the writes staged while SHADOW_CTRL.HOLD is 1. -/
structure PageBuf where
  split  : Option (Nat × Nat)
  snap   : Option (Nat × Nat)
  shadow : List (Nat × Word)
deriving DecidableEq, Repr

/-! ### Timebase (02) -/

/-- A forced step request that waits for the next tick edge (R51): the requested amount, or with `abs` the time asked
for. -/
structure TimeStep where
  abs : Bool
  req : Int
deriving DecidableEq, Repr

/-- The timebase and tick generator beside the TIMEBASE page. -/
structure Timebase where
  /-- TIME_NS of the edge that began the present tick. -/
  edgeNs   : Nat
  /-- An edge has come since the reset: there is a present tick. -/
  begun    : Bool
  /-- Grid points up to and including this one are used (R32); `none` before the first edge. -/
  used     : Option Nat
  /-- No edge falls before this time (R34, R49). -/
  notBefore : Nat
  /-- Period in ns and phase in force. -/
  period   : Nat
  phase    : Nat
  /-- An accepted TICK_CFG that is pending: PERIOD_US and PHASE_NS (R33). -/
  cfg      : Option (Nat × Nat)
  /-- KEY_CFG.OFFSET_NS in force; a write takes effect at the next edge (R41). -/
  keyOff   : Nat
  /-- The lock schedule a valid COMMIT captured (R39). -/
  sched    : Option (List Word)
  /-- The active lock schedule. -/
  active   : List Word
  /-- The servo's fractional accumulator, in units of 2^−40 ns. -/
  acc      : Int
  /-- The last trims, newest first, at most 16 (R47). -/
  trims    : List Int
  good     : Nat
  bad      : Nat
  /-- TIME_NS of the last valid PPS_IN edge (R46). -/
  pps      : Option Nat
  ppsOut   : Bool
  step     : Option TimeStep
  /-- A drain slot of the present tick that has been served: entry indices of the active schedule. -/
  served   : List Nat
deriving DecidableEq, Repr

/-! ### Signal board and keystones (11) -/

/-- A signal slot (R250). -/
structure Sig where
  value : Long
  qual  : Nat
  ts    : Nat
  tick  : Nat
deriving DecidableEq, Repr

/-- A keystone term (R258); `a` and `b` as the 32 bits of the record. -/
structure KsTerm where
  typ : Nat
  op  : Nat
  src : Nat
  a   : Long
  b   : Long
  inv : Bool
deriving DecidableEq, Repr

/-- An installed keystone program (R257). -/
structure KsProg where
  fire      : Nat
  actions   : Nat
  routeChan : Nat
  limit     : Nat
  tpCode    : Nat
  routeAddr : Word
  pulseUs   : Nat
  holdoff   : Nat
  terms     : List KsTerm
deriving DecidableEq, Repr

/-- The memory of a term: hysteresis state, previous value (RATE), how many evaluations in a row its operand has been
true, and how many evaluations ago it was last true (DURATION). -/
structure KsTermSt where
  hyst  : Bool
  prev  : Option Int
  run   : Nat
  since : Option Nat
deriving DecidableEq, Repr

/-- What waits for the next edge on a keystone (R260, R265). -/
inductive KsPend where
  | none
  | load (p : KsProg) (serial : Nat)
  | unload
  | enable (en : Bool)
deriving DecidableEq, Repr

/-- A keystone beside its registers. -/
structure Keystone where
  prog    : Option KsProg
  states  : List KsTermSt
  lastAct : Option Nat
  pend    : KsPend
  /-- It has been evaluated in the present tick. -/
  evald   : Bool
deriving DecidableEq, Repr

/-- A trigger input (R258 EVENT, R265): its level, an edge latched in the present and in the previous tick, its level in
the cycle of the last edge. -/
structure TrigIn where
  level   : Bool
  edgeNow : Bool
  edgeOld : Bool
  atEdge  : Bool
deriving DecidableEq, Repr

/-- The signal board, the keystones and the trigger pins. -/
structure Board where
  live    : List (Nat × Sig)
  view    : List (Nat × Sig)
  /-- Word 1 latched by a read of word 0, by address of word 1 (R256). -/
  latched : List (Nat × Nat)
  ks      : List (Nat × Keystone)
  in0     : TrigIn
  in1     : TrigIn
  /-- Trigger outputs: level, and TIME_NS at which the pulse ends. -/
  out0    : Bool × Nat
  out1    : Bool × Nat
  /-- Towpath keystone events of the present and of the previous tick: code and position. -/
  tpNow   : List (Nat × Nat)
  tpOld   : List (Nat × Nat)
  /-- Keystones whose RETAIN action fired in the present tick. -/
  retain  : List Nat
deriving DecidableEq, Repr

/-! ### Keeper (05, 06) -/

/-- Thread states (R147). -/
inductive ThState where
  | stopped | run | waitev | yielded | halted
deriving DecidableEq, Repr

/-- A line of 16 halfwords held by a thread: its line number, its halfwords, and which of its four 8 B words were
uncorrectable when it was read. -/
structure Line where
  num   : Nat
  words : List Half
  bad   : List Nat
deriving DecidableEq, Repr

/-- A target buffer entry: its target and the line held (R137, R152). -/
structure TbEntry where
  target : Half
  line   : Line
deriving DecidableEq, Repr

/-- A register a load writes. -/
inductive LoadDst where
  | d (i : BitVec 3)
  | a (i : BitVec 3)
  | q (i : BitVec 2)
deriving DecidableEq, Repr

/-- A load whose result is not yet visible: how many instructions still see the old value (R119). -/
structure PendLoad where
  delay : Nat
  dst   : LoadDst
  value : Long
deriving DecidableEq, Repr

/-- The order mailbox of a thread (R104, R167): the last CALL-KEEPER message, MB_STATUS.FULL; `live` is false when the
message's order no longer waits for the reply. -/
structure Mail where
  full  : Bool
  order : Nat
  entry : Nat
  count : Nat
  addr  : Word
  word2 : Word
  live  : Bool
deriving DecidableEq, Repr

/-- A keeper thread (R116, R147–R163). -/
structure Thread where
  st       : ThState
  d        : Vector Byte 8
  a        : Vector Half 8
  q        : Vector Long 4
  pc       : Half
  inh      : Bool
  /-- Cause of the last trap. -/
  cause    : Nat
  xpc      : Half
  xrc      : Half
  xcause   : Nat
  repact   : Bool
  yld      : Bool
  divab    : Bool
  xov      : Bool
  xins     : Long
  xaddr    : Half
  vec      : Half
  intSrc   : Half
  /-- Sticky event bits (R162). -/
  evt      : Byte
  /-- Reservation: the granule (byte address / 8) of shared SRAM (R139). -/
  resv     : Option Nat
  loads    : List PendLoad
  /-- Repetitions of the instruction at PC that are left, under a REP. -/
  rep      : Option Nat
  cur      : Option Line
  nxt      : Option Line
  tb       : List (Nat × TbEntry)
  /-- Event bits a WAITEV waits for (R163). -/
  waitMask : Byte
  /-- A delivered interrupt whose trap entry has not been made. -/
  deliver  : Option Nat
  /-- The cycles counted when it was delivered, while one more instruction may come before the entry: the entry takes the first
  slot at least 3 KCLK after the delivery (R161). -/
  slack    : Option Nat
  /-- The waiting state the delivery took the thread from (R147). -/
  woken    : Option ThState
  /-- Thread cycles counted in this tick (R43), YIELD executed in it, BUDGET trap taken in it. -/
  used     : Nat
  yielded  : Bool
  trapped  : Bool
  /-- A BUDGET trap of an earlier tick has not been taken (R155). -/
  owed     : Bool
  /-- The thread is YIELDED when the repetitions that RETI resumed are done (R159). -/
  yldAfter : Bool
  mail     : Option Mail
  mbRes    : Half
  priv     : List Host.Cell
deriving DecidableEq, Repr

/-- A thread record of the image (R169). -/
structure KThreadRec where
  resident  : Nat
  vec       : Half
  start     : Nat
  autostart : Bool
deriving DecidableEq, Repr

/-- An entry record of the image (R169). -/
structure KEntry where
  thread : Nat
  kind   : Nat
  addr   : Half
  cost   : Nat
deriving DecidableEq, Repr

/-- The tables of the loaded keeper image. -/
structure KImage where
  threads : List KThreadRec
  entries : List KEntry
  pins    : List (Nat × Nat × Half)
deriving DecidableEq, Repr

/-- What a tile's keeper shares among its threads, beside its registers. -/
structure Keeper where
  sram    : List Host.Cell
  window  : List Host.Cell
  /-- Code store: the halfword last accepted at each address (R154). -/
  code    : List (Nat × Half)
  /-- 8 B words of the code store known to be bad (R336). -/
  codeBad : List Nat
  /-- Halfwords queued for MRAM programming. -/
  csq     : Nat
  csAddr  : Half
  image   : Option KImage
  /-- PUB_VALUE, PUB_SLOT, PUB_QUAL and PUB_TIME. -/
  pubVal  : Long
  pubSlot : Half
  pubQual : Byte
  pubTime : Word
  /-- TIME_NS and TICKNO latched for keeper reads (R31). -/
  latTime : Nat
  latTick : Nat
  /-- CH_RESULT by thread, and threads whose BUSY result waits for the earlier copy (R235). -/
  result    : Vector Nat 8
  /-- Bytes written so far to a register of tile I/O that acts when its last byte is written (R166), by address. -/
  ioBuf   : List Host.Cell
deriving DecidableEq, Repr

/-! ### FIFOs and bus engines of the field channels (07) -/

/-- An entry of the TX FIFO: an item by its bytes, flagged when a TRANSMIT order put it there, or a gap marker. -/
inductive TxEnt where
  | item (bytes : List Byte) (order : Bool)
  | marker (count : Nat)
deriving DecidableEq, Repr

/-- An entry of a mailbox FIFO. -/
inductive MbEnt where
  | data (w : Word)
  | marker (count : Nat)
deriving DecidableEq, Repr

/-- The four FIFOs of a channel (R188). An RX item has the shape of a record; a gap marker is an item of type 0x3E. -/
structure Fifos where
  rx      : List Rec
  /-- Bytes of the head item already read through RX_DATA, and the value last read. -/
  rxPos   : Nat
  rxLast  : Word
  tx      : List TxEnt
  /-- The TX item being built through TX_DATA. -/
  build   : List Byte
  mbi     : List MbEnt
  mbiLast : Word
  mbo     : List MbEnt
  mboLast : Word
deriving DecidableEq, Repr

/-- The UART item being received (R177): characters, timestamp of the first, framing and parity error seen, index of the
first erroneous character. -/
structure UartItem where
  ts    : Nat
  chars : List Nat
  frErr : Bool
  paErr : Bool
  first : Nat
deriving DecidableEq, Repr

/-- A TIMER pin (R186): its filtered level, the summary of the present tick, and the PWM in force. -/
structure TimerPin where
  level   : Bool
  rises   : Nat
  firstNs : Option Nat
  lastNs  : Nat
  /-- QCLK count of the last rising edge, and of the instant from which the present high time is counted. -/
  lastQ   : Option Nat
  minP    : Nat
  maxP    : Nat
  highFrom : Nat
  highQ   : Nat
  pwm     : Bool
  period  : Nat
  high    : Nat
deriving DecidableEq, Repr

/-- The quadrature counter: position since enable, its change in the tick, index pulses, time of the last. -/
structure Quad where
  pos    : Int
  delta  : Int
  index  : Nat
  idxNs  : Nat
  /-- TIME_NS of the first counted edge of A or B in the tick (R177). -/
  firstNs : Option Nat
deriving DecidableEq, Repr

/-- The bus engine of a channel beside its BUSENG registers. -/
structure Bus where
  uart    : Option UartItem
  pins    : Vector TimerPin 4
  quad    : Quad
  psiSync : Bool
  /-- TIME_NS of the last PSI5 sync. -/
  psiNs   : Nat
  /-- A sync has risen since the engine turned ON, and the one before the last (R183). -/
  psiSeen : Bool
  psiPrev : Option Nat
  /-- The engine was turned ON in listen-only operation, whatever its configuration holds (R180, R190). -/
  listen  : Bool
  /-- TIME_NS at which the engine turned OFF, until an item that was arriving then has ended (R190). -/
  offNs   : Option Nat
  /-- The last accepted SENT calibration pulse in ns (R182). -/
  sentCal : Option Nat
  /-- ID of a LIN header whose response is awaited, and its timestamp. -/
  linHdr  : Option (Nat × Nat)
  /-- A LIN responder sends the TX item at the head, its answer to a header (R181). -/
  linSend : Bool
  /-- Items of a TRANSMIT order that wait for room in the TX FIFO (R188, R100). -/
  txWait  : List (List Byte)
  /-- Bytes received so far by an EXCHANGE in UART mode. -/
  exRx    : List Byte
  /-- Configuration writes that wait for the end of an SPI or I2C transfer (R184): address and value. -/
  later   : List (Nat × Word)
  /-- Staged keeper writes to BUSENG registers (R171): byte address and byte. -/
  kStage  : List Host.Cell
deriving DecidableEq, Repr

/-! ### Barge mover (08) -/

/-- A MOVE in progress: source and destination BARGE addresses as they stood at its start, and its bytes. -/
structure BMove where
  /-- Bytes of a host source that have been asked for (R208). -/
  asked : Nat
  src : Word
  dst : Word
  len : Nat
deriving DecidableEq, Repr

/-- What a barge WAIT waits for: edges left, a lock swap, a TIME_NS, a kick. -/
inductive BWait where
  | tick (n : Nat)
  | lock
  | time (due : Nat)
  | kick
deriving DecidableEq, Repr

/-- The mover beside its registers: the instruction fetched for the index `npc`, the instruction fetched ahead, the
instruction in progress, an ABORT that waits for a MOVE, a tick hand-over that waits for a MOVE, and a program that has
ended with a hand-over to come. -/
structure Barge where
  npc    : Nat
  cur    : Option Word
  ahead  : Option Word
  move   : Option BMove
  wait   : Option BWait
  met    : Bool
  signal : Bool
  fence  : Bool
  abort  : Bool
  /-- What waits is a channel stop (R216). -/
  stop   : Bool
  tickHo : Bool
  ended  : Bool
  /-- Address of the program's last host write (R214). -/
  hostAt : Option Nat
deriving DecidableEq, Repr

/-! ### Stream channels (09) -/

/-- A frame being received (R221–R223): timestamp, action and filter, snap length, bytes received so far, bytes already
committed in pieces, what the filter decision learned of it. -/
structure EthRx where
  ts      : Nat
  action  : Nat
  filter  : Nat
  matched : Bool
  track   : Bool
  snap    : Nat
  bytes   : List Byte
  cut     : Nat
  vlan    : Bool
  ptp     : Bool
  /-- Bytes that have arrived beyond the pieces committed, and whether a code error has come. -/
  rest    : List Byte
  err     : Bool
deriving DecidableEq, Repr

/-- A commit that waits for the last piece of a frame (R223): its record, and for a commit of keeper code its thread, window offset
and size, and whether its timestamp is the device's. -/
structure HeldRec where
  r  : Rec
  by_ : Option (Nat × Nat × Nat × Bool)
deriving DecidableEq, Repr

/-- A gPTP message sent (R228): kind, domain, source MAC, the time it carries in ns, and of an announcement clockClass and
timeSource. -/
structure PtpOut where
  kind   : Nat
  domain : Nat
  mac    : Nat
  ts     : Nat
  clock  : Nat
  source : Nat
deriving DecidableEq, Repr

/-- A telemetry datagram in the queue: its stream, the bytes of its IP packet's data (header, data and tag). -/
structure Datagram where
  stream : Nat
  bytes  : List Byte
deriving DecidableEq, Repr

/-- A stream channel's MAC beside its BUSENG registers: the frame being received, gPTP messages that wait to be sent,
the telemetry queue (R229), the IPv4 identification, bytes the rate bucket holds and when it was filled last, the
link delay once measured and the rate ratio. -/
structure Eth where
  rx      : Option EthRx
  /-- Commits that wait for the end of a frame of two pieces. -/
  held    : List HeldRec
  /-- gPTP messages that wait to be sent: kind, and the time one carries. -/
  ptpQ    : List (Nat × Nat)
  /-- Departure of the Pdelay_Req whose response is awaited. -/
  ptpT1   : Option Nat
  telQ    : List Datagram
  ipId    : Nat
  bucket  : Nat
  bucketNs : Nat
  delay   : Option Nat
  ratio   : Int
  mdio    : Option Word
  /-- ETH_LAT and the filters as they were before their writes of the last millisecond: the time of a write, and the register fields
  before it (R219). -/
  before  : List (Nat × List (Nat × Nat))
deriving DecidableEq, Repr

/-! ### Channel sequences (06, 07, 15) -/

/-- A disable or fence in progress (R115, R343): the entry that asked for it, the tick in which it began, and whether E1
has passed. -/
structure Stopping where
  serial : Option Nat
  fenced : Bool
  tick   : Nat
  /-- Edges passed: 1 after E1, 2 after E2. -/
  edges  : Nat
  /-- A route, barge program or keeper work was in flight. -/
  busy   : Bool
  /-- Items lost while the engine was off, for the gap record: how many, the timestamps of the first and the last, 0 when the last is
  not known. -/
  lost   : GapCount
deriving DecidableEq, Repr

/-- Phases of a reseat (R345, R346). -/
inductive ReseatPhase where
  | copying | waitEdge | frozen | draining | waitEnable
deriving DecidableEq, Repr

/-- A reseat in progress. -/
structure Reseat where
  serial  : Option Nat
  /-- The tile it leaves and the tile it takes. -/
  old     : Nat
  target  : Nat
  fenced  : Bool
  phase   : ReseatPhase
  /-- Edges passed while waiting for a cutover edge. -/
  edges   : Nat
  cutTick : Nat
deriving DecidableEq, Repr

/-! ### Streams, compression, placement and drives (12, 13) -/

/-- A stream's policy: the fields of its descriptor (R266). -/
structure Policy where
  retain     : Nat
  compress   : Nat
  mirrors    : Nat
  drives     : Nat
  prio       : Nat
  flags      : Nat
  telChan    : Nat
  pre        : Nat
  post       : Nat
  keystones  : Nat
  decimate   : Nat
  telDecimate : Nat
  xtsSlot    : Nat
  gcmSlot    : Nat
  spanRaw    : Nat
  closeTicks : Nat
deriving DecidableEq, Repr

/-- A record of a stream's share: its tick, its address in device DRAM, the record. -/
structure ShareRec where
  tick : Nat
  addr : Nat
  r    : Rec
deriving DecidableEq, Repr

/-- A span in progress (R272): its records, whether its first course continues a split one. -/
structure SpanBuild where
  pol   : Policy
  recs  : List ShareRec
  split : Bool
deriving DecidableEq, Repr

/-- Records dropped and not yet committed in a gap span (R289), with the dropped tick range, the identity below which the
stream's spans lie before them, and their policy. -/
structure DropCount where
  count     : Nat
  firstNs   : Nat
  lastNs    : Nat
  firstTick : Nat
  lastTick  : Nat
  before    : Nat
  pol       : Policy
deriving DecidableEq, Repr

/-- A telemetry datagram being built, and what was not sent before it (R229, R278). -/
structure TelBuild where
  recs  : List (Nat × Rec)
  gap   : Option GapCount
  seq   : Nat
  /-- The policy of its records. -/
  pol   : Option Policy
deriving DecidableEq, Repr

/-- A stream beside its registers. -/
structure Stream where
  /-- Policies with the tick from which each is in force, oldest first (R268). -/
  policies : List (Nat × Policy)
  /-- A definition that waits for the next edge, and its entry. -/
  pend    : Option (Policy × Option Nat)
  /-- STREAM_CLOSE: its entry, and whether the bindings are to be removed at the next edge. -/
  close   : Option Nat
  unbind  : Bool
  /-- First tick whose records belong to no stream any more. -/
  upto    : Option Nat
  /-- Shares of complete courses not yet decided or taken: tick and records. -/
  shares  : List (Nat × List ShareRec)
  /-- Ticks in which a keystone of the policy fired RETAIN. -/
  trigs   : List Nat
  build   : Option SpanBuild
  /-- The last share that was decided was kept. -/
  lastKept : Bool
  nextSpan : Nat
  drops   : Option DropCount
  /-- A span was committed on fewer drives than intended, and records were dropped for want of space (R268). -/
  short   : Bool
  lost    : Bool
  tel     : TelBuild
  /-- Identity of the newest span committed on every drive chosen for it. -/
  newest  : Nat
deriving DecidableEq, Repr

/-- A closed span (R272, R306) until it is committed everywhere it was placed: identity, stream, SPAN_NO, tick range, records;
its policy; mode and stored bytes once compressed; drives chosen, and those on which it is
committed. -/
structure Span where
  id      : Nat
  stream  : Nat
  no      : Nat
  gap     : Bool
  splitS  : Bool
  splitE  : Bool
  first   : Nat
  last    : Nat
  recs    : List ShareRec
  pol     : Policy
  /-- The records dropped that a gap span counts. -/
  drop    : Option DropCount
  stored  : Option (Nat × List Byte)
  placed  : Bool
  /-- Copies that departed drives held, to be placed again (R281). -/
  again   : Nat
  drives  : List Nat
  done    : List Nat
  /-- A word of it in staging is bad (R336). -/
  bad     : Bool
deriving DecidableEq, Repr

/-- A span in a segment: its index entry (R309), and whether its Write has completed. -/
structure SegSpan where
  id     : Nat
  off    : Nat
  len    : Nat
  stream : Nat
  mode   : Nat
  flags  : Nat
  no     : Nat
  first  : Nat
  last   : Nat
  written : Bool
deriving DecidableEq, Repr

/-- Steps of a commit (R310); `ready`: flushed, and the superblock cannot be written yet. -/
inductive SegStage where
  | opened | closing | footer | flush | ready | super
deriving DecidableEq, Repr

/-- An open or committing segment (R303). -/
structure Segment where
  seq     : Nat
  version : Nat
  openNs  : Nat
  openTick : Nat
  stage   : SegStage
  cause   : Nat
  closeNs : Nat
  firstNs : Option Nat
  used    : Nat
  spans   : List SegSpan
deriving DecidableEq, Repr

/-- The current superblock as the device holds it (R298). -/
structure Super where
  version   : Nat
  gen       : Nat
  volume    : List Byte
  nsBytes   : Nat
  lba       : Nat
  count     : Nat
  tail      : Nat
  next      : Nat
deriving DecidableEq, Repr

/-- A command to a drive's submission queues (R284). -/
inductive NvmeCmd where
  | write (off : Nat) (data : List Byte) (fua : Bool)
  | read (off len : Nat)
  | flush
  | dealloc (off len : Nat)
  | identify (cns : Nat)
  | createCq (entries : Nat)
  | createSq (entries : Nat)
  | deleteSq
  | deleteCq
  | smart
  | setFeature (id value : Nat)
  | getFeature (id : Nat)
deriving DecidableEq, Repr

/-- What waits on a drive until placement may write again (R291): a FORMAT, or the end of an identification. -/
inductive DriveWait where
  | format
  | mount (d : DriveId)
deriving DecidableEq, Repr

/-- A drive beside its page: presence, PERST#, EJECT in progress, the superblock, the namespace size identified, the largest
transfer, its segments (the last is open, the others commit in order), the commands posted and not completed. -/
structure Drive where
  present : Bool
  perst   : Bool
  eject   : Bool
  sb      : Option Super
  /-- The superblock being written (R310 step 4). -/
  sbNew   : Option Super
  /-- Newest span of each stream that the drive holds, by identity (R279); the same of the committed ones; and the spans of segments
  that were not committed when it left ONLINE (segment, stream, SPAN_NO, identity), which it may still hold. -/
  newest  : List (Nat × Nat)
  kept    : List (Nat × Nat)
  was     : List (Nat × Nat × Nat × Nat)
  volume  : List Byte
  nsBytes : Nat
  dealloc : Bool
  /-- Bytes of the largest Write or Read: min(MDTS, 1 MiB). -/
  mdts    : Nat
  segs    : List Segment
  /-- Commands posted and not yet completed, oldest first, each with whether it has failed once (R284). -/
  cmds    : List (NvmeCmd × Bool)
  wait    : Option DriveWait
deriving DecidableEq, Repr

/-- Placement beside its registers: tick of the last LEVEL change, next span identity, spans, HALT commit begun, engines
retired until reset, snapshots in progress as tick ranges by entry. -/
structure Place where
  levelTick : Nat
  nextId    : Nat
  spans     : List Span
  haltDone  : Bool
  engines   : List Nat
  snaps     : List (Nat × Nat × Nat)
deriving DecidableEq, Repr

/-! ### Faults, supply, Toll House (15, 16) -/

/-- A dip in progress (R350): start tick, monitor, its lowest level, TIME_NS at which it fell below WARN_MV. -/
structure Dip where
  tick : Nat
  mon  : Nat
  low  : Nat
  ts   : Nat
deriving DecidableEq, Repr

/-- An escalated first fault whose action is to be taken (R342): pin, class, code, TICKNO of its latch. -/
structure Escal where
  pin   : Nat
  cls   : Nat
  code  : Nat
  tick  : Nat
deriving DecidableEq, Repr

/-- A firmware slot (R377): state, version, security version, image bytes. -/
structure FwSlot where
  state : Nat
  version : Nat
  svn   : Nat
  image : List Byte
deriving DecidableEq, Repr

/-- A key slot (R375): kind (0 empty, 1 XTS, 2 GCM), key bytes, EPOCH (R277). -/
structure KeySlot where
  kind  : Nat
  key   : List Byte
  epoch : Nat
deriving DecidableEq, Repr

/-- An event-log entry (R373). -/
structure LogEnt where
  seq  : Nat
  boot : Nat
  time : Nat
  tick : Nat
  sev  : Nat
  src  : Nat
  code : Nat
  data : List Byte
deriving DecidableEq, Repr

/-- A repair-map entry (15): KIND, UNIT, SUB, INDEX, BOOT. -/
structure RepEnt where
  kind  : Nat
  unit  : Nat
  sub   : Nat
  index : Nat
  boot  : Nat
deriving DecidableEq, Repr

/-- The mailbox command in progress (R370): opcode, the request words as read when GO was accepted, and whether a long command
has been taken up. -/
structure MbLong where
  opcode : Nat
  req    : List Word
  run    : Bool
deriving DecidableEq, Repr

/-- An AUTOSTART record (R365) to be taken at the first edge after READY. -/
structure AutoRec where
  index   : Nat
  chan    : Nat
  enable  : Bool
  route   : Bool
  bind    : Bool
  stream  : Nat
  limit   : Nat
  addr    : Word
deriving DecidableEq, Repr

/-- Where start-up stands after self-test (R366). -/
inductive StartUp where
  | none | waitReady | waitAuto
deriving DecidableEq, Repr

/-- The Toll House: MRAM contents and what runs. -/
structure TollHouse where
  boot      : Nat
  rollback  : Nat
  slotA     : FwSlot
  slotB     : FwSlot
  cosign    : Option (List Byte)
  factory   : List Byte
  config    : List Byte
  staging   : List Byte
  serial    : Nat
  macs      : List Nat
  log       : List LogEnt
  logSeq    : Nat
  /-- By code: entries written and events suppressed in the present second (R374). -/
  logRate   : List (Nat × Nat × Nat)
  repair    : List RepEnt
  repairBoot : Nat
  keys      : Vector KeySlot 16
  /-- Boot mode sampled, factory test mode (R410), DRYDOCK held by the ROM (R362), full test requested. -/
  bootmode  : Nat
  testMode  : Bool
  rom       : Bool
  fullTest  : Bool
  /-- A firmware trial that has not succeeded yet (R378): the slot on trial and the slot active before it. -/
  trial     : Option (Nat × Nat)
  active    : Nat
  start     : StartUp
  auto      : List AutoRec
  long      : Option MbLong
  /-- The slot that FIRMWARE_STAGE or FW_RECOVER is writing. -/
  fwBusy    : Option Nat
  cfgBusy   : Bool
  orderly   : Bool
  resetIn   : Option Bool
  nonce     : Option (Nat × Nat)
  unlockFails : Nat
  unlocked  : Nat
  temps     : List Int
  rings     : List Nat
  plls      : Nat
  /-- STAT[2:0], and console lines are outputs; the blink phase. -/
  blink     : Nat
  jtag      : Nat
deriving DecidableEq, Repr

/-! ### Towpath (17) -/

/-- The contents of a HELLO (R385). -/
structure Hello where
  serial  : Nat
  fw      : Nat
  revMax  : Nat
  port    : Nat
  prio    : Nat
  quality : Nat
  pos     : Nat
  state   : Nat
  period  : Nat
  phase   : Nat
  bSerial : Nat
  bPrio   : Nat
  bQual   : Nat
  bHops   : Nat
deriving DecidableEq, Repr

/-- A towpath port beside its registers: the neighbour's last HELLO, whether a HELLO has been sent since NEGOTIATE, SEQ of the next
frame sent, SEQ awaited of the next frame received, T1 of an unanswered SYNC_REQ, a failed training that waits for its retry. -/
structure TpPort where
  hello   : Option Hello
  sent    : Bool
  seq     : Nat
  rx      : Option Nat
  t1      : Option Nat
  retry   : Bool
deriving DecidableEq, Repr

/-- A sender's beacon (R393): its serial, what it said, and when it came last. -/
structure BeaconSeen where
  serial : Nat
  words  : List Nat
  at_    : Nat
deriving DecidableEq, Repr

/-- The towpath: ports, incumbent master (serial, PRIO, QUALITY) and the port it was learned through, the contents of the HELLO as
last told, and the senders whose beacon has been logged in this boot of theirs. -/
structure Towpath where
  p0      : TpPort
  p1      : TpPort
  master  : Option (Nat × Nat × Nat)
  via     : Option Nat
  told    : List Nat
  beacons : List BeaconSeen
deriving DecidableEq, Repr

/-! ### The whole device -/

/-- What the device sends to the world outside it, in the order it sends it. -/
inductive OutEvent where
  /-- A posted write to host memory. -/
  | hostWrite (w : HostWrite)
  /-- A read of host memory issued. -/
  | hostRead (addr len : Nat)
  /-- An MSI-X write (R325). -/
  | msix (vector addr data : Nat)
  | pmPme
  /-- An error reported through Advanced Error Reporting (R70). -/
  | aer
  /-- Data a read of the host returned. -/
  | readData (v : Word) (poisoned : Bool)
  /-- A configuration request is answered with Configuration Request Retry Status (R358). -/
  | configRetry
  | busTx (chan : Nat) (bytes : List Byte)
  /-- Pin FIOc_n is driven, or becomes an input or is released (R175); every field pin becomes an input (R411). -/
  | pin (chan n : Nat) (level : Bool)
  | pinOff (chan n : Nat)
  | fieldOff
  /-- A LIN break of a number of dominant bits (R181); the PWM coding of a CAN XL data phase, its phases in time quanta (R178). -/
  | linBreak (chan bits : Nat)
  | xlPwm (chan short long : Nat)
  | trigOut (n : Nat) (level : Bool)
  | ppsOut (level : Bool)
  | ethTx (chan : Nat) (bytes : List Byte)
  | ptpTx (chan : Nat) (m : PtpOut)
  | mdio (chan : Nat) (cmd : Word)
  | nvme (drive : Nat) (c : NvmeCmd)
  | perst (drive : Nat) (asserted : Bool)
  | towpath (port : Nat) (frame : List Byte)
  | console (code : Nat) (text : List Byte)
  | stat (bits : Nat)
  /-- TDO shifts a word out, or goes High-Z (R411). -/
  | jtag (v : Word)
  | tdoOff
  /-- The storage ports' reference clocks run or are low; lanes are active or in electrical idle, the host's and the others'; the pins
  MDC, MDIO and PHY_INT are active or inputs (R411). -/
  | spRef (on : Bool)
  | lanes (host others : Bool)
  | stationPins (active : Bool)
  /-- Link Bandwidth Notification: the host port has retrained to a width (R348). -/
  | linkBandwidth (width : Nat)
  | phyRst (chan : Nat) (asserted : Bool)
deriving DecidableEq, Repr

/-- A logical channel. -/
structure Chan where
  threads  : Vector Thread 8
  kp       : Keeper
  fifos    : Fifos
  bus      : Bus
  sq       : Seq
  chamber  : Chamber
  barge    : Barge
  eth      : Eth
  /-- Command queue: at most 8 entries, the head executes first (R59). -/
  cmdq     : List WorkEntry
  /-- A CHANNEL_ENABLE that waits for the next edge: `none` inside for an autostart record. -/
  enabling : Option (Option Nat)
  stopping : Option Stopping
  reseat   : Option Reseat
deriving DecidableEq, Repr

/-- The machine: everything the spec gives the device, and the queue of commands that are waiting. -/
structure State where
  /-- Commands that are waiting, first in, first out. -/
  pending  : List Instr
  /-- Register fields that do not hold their reset value: key 64 × address + lowest bit. -/
  fld      : List (Nat × Nat)
  chans    : Vector Chan 56
  tb       : Timebase
  board    : Board
  /-- Accepted entries that are not dispatched, in order of acceptance. -/
  accepted : List WorkEntry
  polls    : List Poll
  /-- TIME_NS at which the last poll of a queue started, by queue; queues whose next poll starts at once (R67). -/
  wqPolled : List (Nat × Nat)
  wqAgain  : List Nat
  arb      : Arbiter
  /-- TICKNO of the first completion a ring has suppressed since its last GAP record (R77). -/
  crGap    : List (Nat × Nat)
  /-- The Basin's command queue. -/
  basinq   : List WorkEntry
  serial   : Nat
  /-- The Basin chamber. -/
  basin    : Chamber
  credits  : List Credit
  /-- Number of the next credit to allocate and of the next extent. -/
  nextCredit : Nat
  nextExt  : Nat
  /-- Courses that are open, closed but not complete, oldest first. -/
  courses  : List Course
  dones    : List DoneCourse
  /-- No course header has been written since the ring was configured (R246). -/
  ringFirst : Bool
  /-- Device DRAM by byte address; an unlisted byte reads 0. -/
  dram     : List Host.Cell
  /-- Physical DRAM in GiB: 8, 16 or 32. -/
  dramGiB  : Nat
  /-- Words known to be bad (R336): DRAM granules, 2^40 + channel × 2^17 + granule of a tile's SRAM, 2^41 + word of the MRAM and
  2^42 + word of the Basin SRAMs. -/
  poison   : List Nat
  /-- Corrected words by DRAM page since reset (R347). -/
  pageCorr : List (Nat × Nat)
  /-- Corrected words by row of a tile's SRAM since reset (15). -/
  rowCorr  : List (Nat × Nat)
  /-- DRAM pages retired onto spares (R347). -/
  retired  : List Nat
  ic       : Ic
  host     : HostFn
  /-- Accesses of the host that wait for a channel's cutover to end, oldest first (R399). -/
  waiting  : List HostAcc
  pages    : List (Nat × PageBuf)
  streams  : List (Nat × Stream)
  drives   : Vector Drive 4
  place    : Place
  dip      : Option Dip
  /-- The supply has recovered; BRACE ends at the next edge. -/
  recovered : Bool
  /-- Escalations whose action is to be taken, oldest first; and a critical one that waits in BRACE for BRACE_COMMIT. -/
  escal    : List Escal
  critWait : Bool
  /-- Pins that have asserted since the last self-test or reseat, and pins that stay asserted (R339), by bit; tiles out of use until
  reset. -/
  pinsSeen : Nat
  /-- Error pins that have stayed asserted (R339). -/
  pinsHeld : Nat
  tilesOut : List Nat
  /-- By port (R348): lanes below full width at which the host port (0) or a storage port (1–4) is held; of another port, its lanes
  that are retired, by bit. -/
  portOut  : List (Nat × Nat)
  toll     : TollHouse
  tp       : Towpath
  /-- HALT has been entered and the routes stop at the next edge (R75). -/
  halting  : Bool
  /-- The model's own: number of the next free value. -/
  free     : Nat
  /-- The model's own: what the device has sent, oldest first. -/
  out      : List OutEvent
deriving DecidableEq, Repr

/-- Why the machine stops. -/
inductive Fault where
  /-- Raised by no meaning: the spec gives every command of the table an effect. Safe. -/
  | none_
deriving DecidableEq, Repr

/-- Why the model refuses a command. -/
inductive Refusal where
  /-- The command has no meaning in this model yet. Safe: the run ends. Raised by an arm of `exec` only. -/
  | notModelled (mnemonic : String)
deriving DecidableEq, Repr

/-! ### Reset -/

def Thread.reset : Thread where
  st := .stopped
  d := Vector.replicate 8 0
  a := Vector.replicate 8 0
  q := Vector.replicate 4 0
  pc := 0
  inh := false
  cause := 0
  xpc := 0
  xrc := 0
  xcause := 0
  repact := false
  yld := false
  divab := false
  xov := false
  xins := 0
  xaddr := 0
  vec := 0
  intSrc := 0xFFFF
  evt := 0
  resv := none
  loads := []
  rep := none
  cur := none
  nxt := none
  tb := []
  waitMask := 0
  deliver := none
  slack := none
  woken := none
  used := 0
  yielded := false
  trapped := false
  owed := false
  yldAfter := false
  mail := none
  mbRes := 0
  priv := []

def Keeper.reset : Keeper where
  sram := []
  window := []
  code := []
  codeBad := []
  csq := 0
  csAddr := 0
  image := none
  pubVal := 0
  pubSlot := 0
  pubQual := 0
  pubTime := 0
  latTime := 0
  latTick := 0
  result := Vector.replicate 8 0
  ioBuf := []

def Fifos.reset : Fifos := ⟨[], 0, 0, [], [], [], 0, [], 0⟩

def TimerPin.reset : TimerPin := ⟨false, 0, none, 0, none, 0, 0, 0, 0, false, 0, 0⟩

def Quad.reset : Quad := ⟨0, 0, 0, 0, none⟩

def Bus.reset : Bus :=
  ⟨none, Vector.replicate 4 TimerPin.reset, Quad.reset, false, 0, false, none, false, none, none, none, false, [], [], [], []⟩

def Seq.reset : Seq :=
  ⟨none, [], [], [], 0, [], none, .none, false, false, none, (0, 0), false, none, false, 0⟩

def ChHalf.reset : ChHalf := ⟨.empty, [], [], 0, none, 0, 0, 0, 0, false, 0⟩

/-- A chamber of a channel that has not been enabled since reset. -/
def Chamber.idle : Chamber := ⟨ChHalf.reset, ChHalf.reset, ChHalf.reset, ChHalf.reset, 0, false, none, 0, none, [], false, 0, 1⟩

/-- A chamber as CHANNEL_ENABLE leaves it (R241), and the Basin's at reset: half 0 fills. -/
def Chamber.reset : Chamber := { Chamber.idle with h0 := { ChHalf.reset with st := .filling } }

def Barge.reset : Barge := ⟨0, none, none, none, none, false, false, false, false, false, false, false, none⟩

def Eth.reset : Eth := ⟨none, [], [], none, [], 0, 0, 0, none, 0, none, []⟩

def Chan.reset : Chan where
  threads := Vector.replicate 8 Thread.reset
  kp := Keeper.reset
  fifos := Fifos.reset
  bus := Bus.reset
  sq := Seq.reset
  chamber := Chamber.idle
  barge := Barge.reset
  eth := Eth.reset
  cmdq := []
  enabling := none
  stopping := none
  reseat := none

def Timebase.reset : Timebase where
  edgeNs := 0
  begun := false
  used := none
  notBefore := 0
  period := 100000
  phase := 0
  cfg := none
  keyOff := 50000
  sched := none
  active := []
  acc := 0
  trims := []
  good := 0
  bad := 0
  pps := none
  ppsOut := false
  step := none
  served := []

def TrigIn.reset : TrigIn := ⟨false, false, false, false⟩

def Board.reset : Board :=
  ⟨[], [], [], [], TrigIn.reset, TrigIn.reset, (false, 0), (false, 0), [], [], []⟩

def Keystone.reset : Keystone := ⟨none, [], none, .none, false⟩

def Stream.reset : Stream :=
  ⟨[], none, none, false, none, [], [], none, false, 0, none, false, false, ⟨[], none, 0, none⟩, 0⟩

def Drive.reset : Drive := ⟨false, true, false, none, none, [], [], [], [], 0, false, 2 ^ 20, [], [], none⟩

def FwSlot.reset : FwSlot := ⟨0, 0, 0, []⟩

def TollHouse.reset : TollHouse where
  boot := 0
  rollback := 0
  slotA := { FwSlot.reset with state := 3 }
  slotB := FwSlot.reset
  cosign := none
  factory := []
  config := []
  staging := []
  serial := 0
  macs := List.replicate 8 0
  log := []
  logSeq := 0
  logRate := []
  repair := []
  repairBoot := 0
  keys := Vector.replicate 16 ⟨0, [], 0⟩
  bootmode := 0
  testMode := false
  rom := false
  fullTest := false
  trial := none
  active := 0
  start := .none
  auto := []
  long := none
  fwBusy := none
  cfgBusy := false
  orderly := false
  resetIn := none
  nonce := none
  unlockFails := 0
  unlocked := 0
  temps := List.replicate 16 0
  rings := List.replicate 8 0
  plls := 0
  blink := 0
  jtag := 0

def TpPort.reset : TpPort := ⟨none, false, 0, none, none, false⟩

def Towpath.reset : Towpath := ⟨TpPort.reset, TpPort.reset, none, none, [], []⟩

/-- The machine right after reset: in SELFTEST, every register at its reset value, every queue and memory empty. -/
def State.reset : State where
  pending := []
  fld := []
  chans := Vector.replicate 56 Chan.reset
  tb := Timebase.reset
  board := Board.reset
  accepted := []
  polls := []
  wqPolled := []
  wqAgain := []
  arb := ⟨[], [], 0, 0⟩
  crGap := []
  basinq := []
  serial := 0
  basin := Chamber.reset
  credits := []
  nextCredit := 0
  nextExt := 0
  courses := [⟨0, 0, false, [], []⟩]
  ringFirst := true
  dones := []
  dram := []
  dramGiB := 16
  poison := []
  pageCorr := []
  rowCorr := []
  retired := []
  ic := ⟨[], [], [], [], []⟩
  host := ⟨false, false, false, false, false, false, false, [], [], 0, false, []⟩
  waiting := []
  pages := []
  streams := []
  drives := Vector.replicate 4 Drive.reset
  place := ⟨0, 1, [], false, [], []⟩
  dip := none
  recovered := false
  escal := []
  critWait := false
  pinsSeen := 0
  pinsHeld := 0
  tilesOut := []
  portOut := []
  toll := TollHouse.reset
  tp := Towpath.reset
  halting := false
  free := 0
  out := []

end Sys2Proof.Machine
end

