-- ==== Sys2Proof/Machine/Ops.lean ====
section
/-!
DEFINITION. The named operations over the state: register fields, channels, threads, drives, streams, bytes, device DRAM, time,
free values and what the device sends.
-/
namespace Sys2Proof.Machine

/-! ### Bytes (R5) -/

/-- The number little-endian bytes spell. -/
def leNat (bs : List Byte) : Nat :=
  match bs with
  | [] => 0
  | b :: t => b.toNat + 256 * leNat t

/-- The low `n` bytes of a number, little-endian. -/
def leBytes (n v : Nat) : List Byte :=
  match n with
  | 0 => []
  | k + 1 => BitVec.ofNat 8 v :: leBytes k (v / 256)

/-- A big-endian number, and the low `n` bytes of a number, big-endian. -/
def beNat (bs : List Byte) : Nat := bs.foldl (fun a b => a * 256 + b.toNat) 0
def beBytes (n v : Nat) : List Byte := (leBytes n v).reverse

/-- A signed number in `n` bytes. -/
def leInt (n : Nat) (i : Int) : List Byte := leBytes n (BitVec.ofInt (8 * n) i).toNat

/-- Bytes `off` to `off + n − 1`. -/
def bsub (bs : List Byte) (off n : Nat) : List Byte := (bs.drop off).take n

/-- The little-endian number at an offset. -/
def leAt (bs : List Byte) (off n : Nat) : Nat := leNat (bsub bs off n)

/-- Zero bytes. -/
def zeros (n : Nat) : List Byte := List.replicate n 0

/-- Every byte of a range is zero. -/
def allZero (bs : List Byte) (off n : Nat) : Bool := (bsub bs off n).all (· == 0)

/-- Pad with zeros to a multiple of `m`. -/
def padTo (m : Nat) (bs : List Byte) : List Byte := bs ++ zeros ((m - bs.length % m) % m)

/-- A value rounded up to a multiple. -/
def roundUp (m n : Nat) : Nat := (n + m - 1) / m * m

/-- Bits of a value. -/
def bf (v lo w : Nat) : Nat := v / 2 ^ lo % 2 ^ w

/-- A bit of a value. -/
def bit (v i : Nat) : Bool := v / 2 ^ i % 2 == 1

/-- 1 for true. -/
def b2n (b : Bool) : Nat := if b then 1 else 0

/-! ### Check codes -/

/-- One step of a reflected CRC-32C over a bit (R295). -/
def crcBit (c : BitVec 32) : BitVec 32 := if c.getLsbD 0 then (c >>> 1) ^^^ 0x82F63B78 else c >>> 1

/-- CRC-32C of a byte added to a running value. -/
def crcByte (c : BitVec 32) (b : Byte) : BitVec 32 :=
  crcBit (crcBit (crcBit (crcBit (crcBit (crcBit (crcBit (crcBit (c ^^^ b.setWidth 32))))))))

/-- CRC-32C (R295). -/
def crc32c (bs : List Byte) : Nat := ((bs.foldl crcByte 0xFFFFFFFF) ^^^ 0xFFFFFFFF).toNat

/-- The frame check sequence of an Ethernet frame (R225): the CRC-32 of IEEE 802.3, least significant byte first. -/
def fcsBytes (bs : List Byte) : List Byte :=
  let step (c : BitVec 32) : BitVec 32 := if c.getLsbD 0 then (c >>> 1) ^^^ 0xEDB88320 else c >>> 1
  let byte (c : BitVec 32) (b : Byte) : BitVec 32 := step (step (step (step (step (step (step (step (c ^^^ b.setWidth 32))))))))
  leBytes 4 ((bs.foldl byte 0xFFFFFFFF) ^^^ 0xFFFFFFFF).toNat

/-- A structure with its CRC-32C written in the four bytes at `off`, which are zero before. -/
def withCrc (bs : List Byte) (off : Nat) : List Byte := bs.take off ++ leBytes 4 (crc32c bs) ++ bs.drop (off + 4)

/-- The CRC-32C in the four bytes at `off` is right. -/
def crcOk (bs : List Byte) (off : Nat) : Bool :=
  leAt bs off 4 == crc32c (bs.take off ++ zeros 4 ++ bs.drop (off + 4))

/-- A non-reflected CRC over a byte, by its eight bits. -/
def crcMsb {w : Nat} (poly : BitVec w) (c : BitVec w) (b : Byte) : BitVec w :=
  (List.range 8).foldl (fun c i =>
    let top := c.getMsbD 0 != b.getMsbD i
    if top then (c <<< 1) ^^^ poly else c <<< 1) c

/-- CRC-8 of a work entry (R60): polynomial 0x2F, initial value and final XOR 0xFF. -/
def crc8 (bs : List Byte) : Byte := (bs.foldl (crcMsb 0x2F) 0xFF) ^^^ 0xFF

/-- CRC-16 of an order's words (R108): polynomial 0x1021, initial value 0xFFFF. -/
def crc16 (bs : List Byte) : Half := bs.foldl (crcMsb 0x1021) 0xFFFF

/-! ### Register fields -/

/-- Key of a field in the store. -/
def fldKey (f : Fld) : Nat := f.addr * 64 + f.lo

/-- A field's value. -/
def State.get (s : State) (f : Fld) : Nat := SMap.get f.rst s.fld (fldKey f)

/-- Set a field. -/
def State.put (s : State) (f : Fld) (v : Nat) : State := { s with fld := SMap.set f.rst s.fld (fldKey f) (v % 2 ^ f.w) }

/-- A flag is set. -/
def State.isSet (s : State) (f : Fld) : Bool := s.get f != 0

/-- Set a flag. -/
def State.raise (s : State) (f : Fld) : State := s.put f 1

/-- Clear a flag. -/
def State.clear (s : State) (f : Fld) : State := s.put f 0

/-- Set or clear a flag. -/
def State.putB (s : State) (f : Fld) (b : Bool) : State := s.put f (b2n b)

/-- Add to a counter that wraps. -/
def State.bumpWrap (s : State) (f : Fld) (n : Nat) : State := s.put f (s.get f + n)

/-- Add to a counter that saturates. -/
def State.bumpSat (s : State) (f : Fld) (n : Nat) : State := s.put f (min (2 ^ f.w - 1) (s.get f + n))

/-- Restore a field's reset value. -/
def State.unset (s : State) (f : Fld) : State := s.put f f.rst

/-! ### Time -/

/-- TIME_NS. -/
def State.now (s : State) : Nat := s.get Fld.TIME_NS_TIME_NS

/-- TICKNO. -/
def State.tick (s : State) : Nat := s.get Fld.TICKNO_TICKNO

/-- A stored time moved by `d`, as a 64-bit count (R30). -/
def shift (t : Nat) (d : Int) : Nat := (((t : Int) + d) % 2 ^ 64).toNat

/-- The first grid point at or after `lo` (R32). -/
def gridFrom (period phase lo : Nat) : Nat := lo + (phase + period - lo % period) % period

/-- The grid point of the next edge: not used by an earlier edge, and not before the time a change or a step sets. One that
lies beyond the wrap of TIME_NS is a grid point of the count from 0, and is given 2^64 higher. -/
def nextGrid (s : State) : Nat :=
  let lo := match s.tb.used with
    | some u => u + 1
    | none => 0
  let g := gridFrom s.tb.period s.tb.phase (max lo s.tb.notBefore)
  if g < 2 ^ 64 then g else 2 ^ 64 + gridFrom s.tb.period s.tb.phase (s.tb.notBefore - 2 ^ 64)

/-- TIME_NS advances by `n`. When it wraps, every grid point lies ahead again. -/
def State.pass (s : State) (n : Nat) : State :=
  let t := s.now + n
  let s := s.put Fld.TIME_NS_TIME_NS t
  if t < 2 ^ 64 then s else { s with tb := { s.tb with used := none, notBefore := s.tb.notBefore - 2 ^ 64 } }

/-- How far a time lies ahead of TIME_NS, as a 64-bit count; 0 when it has been reached. -/
def State.ahead (s : State) (ns : Nat) : Nat :=
  let d := (ns + 2 ^ 64 - s.now) % 2 ^ 64
  if d < 2 ^ 63 then d else 0

/-- TIME_NS can reach a time before the next tick edge is due: no edge is missed (R32, R53). -/
def State.canReach (s : State) (ns : Nat) : Bool := s.ahead ns == 0 || decide (s.now + s.ahead ns ≤ nextGrid s)

/-- Let TIME_NS reach a value, if it has not yet. -/
def State.advanceTo (s : State) (ns : Nat) : State := s.pass (s.ahead ns)

/-- Tick `b` comes after tick `a`: TICKNO wraps (R30). -/
def tickAfter (a b : Nat) : Bool := decide (0 < (b + 2 ^ 48 - a) % 2 ^ 48 ∧ (b + 2 ^ 48 - a) % 2 ^ 48 < 2 ^ 47)

/-- Ticks from `a` to `b`. -/
def ticksFrom (a b : Nat) : Nat := (b + 2 ^ 48 - a) % 2 ^ 48

/-- The later of two ticks, and the earliest of a tick and a list. -/
def laterTick (a b : Nat) : Nat := if tickAfter a b then b else a
def earliestTick (t : Nat) (l : List Nat) : Nat := l.foldl (fun m x => if tickAfter x m then x else m) t

/-! ### Device states (R17) -/

def devSelftest : Nat := 1
def devDrydock : Nat := 2
def devReady : Nat := 3
def devRun : Nat := 4
def devBrace : Nat := 5
def devHalt : Nat := 6

/-- DEV_STATE.STATE. -/
def State.devState (s : State) : Nat := s.get Fld.DEV_STATE_STATE

/-- The device serves work: READY, RUN or BRACE. -/
def State.serving (s : State) : Bool := s.devState == devReady || s.devState == devRun || s.devState == devBrace

/-! ### Channels and threads -/

/-- A channel. -/
def State.ch (s : State) (c : Fin 56) : Chan := s.chans[c]

/-- Update a channel. -/
def State.modCh (s : State) (c : Fin 56) (f : Chan → Chan) : State := { s with chans := s.chans.set c (f (s.ch c)) }

/-- A keeper thread. -/
def State.th (s : State) (c : Fin 56) (t : Fin 8) : Thread := (s.ch c).threads[t]

/-- Update a keeper thread. -/
def State.modTh (s : State) (c : Fin 56) (t : Fin 8) (f : Thread → Thread) : State :=
  s.modCh c (fun x => { x with threads := x.threads.set t (f x.threads[t]) })

/-- A reseat holds the channel's threads and sequencer between tiles (R345). -/
def State.frozen (s : State) (c : Fin 56) : Bool :=
  match (s.ch c).reseat with
  | some r => r.phase == .frozen
  | none => false

/-- What a keeper's threads share. -/
def State.kp (s : State) (c : Fin 56) : Keeper := (s.ch c).kp
def State.modKp (s : State) (c : Fin 56) (f : Keeper → Keeper) : State := s.modCh c (fun x => { x with kp := f x.kp })
def State.modFifos (s : State) (c : Fin 56) (f : Fifos → Fifos) : State :=
  s.modCh c (fun x => { x with fifos := f x.fifos })
def State.modBus (s : State) (c : Fin 56) (f : Bus → Bus) : State := s.modCh c (fun x => { x with bus := f x.bus })
def State.sq (s : State) (c : Fin 56) : Seq := (s.ch c).sq
def State.modSq (s : State) (c : Fin 56) (f : Seq → Seq) : State := s.modCh c (fun x => { x with sq := f x.sq })
def State.barge (s : State) (c : Fin 56) : Barge := (s.ch c).barge
def State.modBarge (s : State) (c : Fin 56) (f : Barge → Barge) : State :=
  s.modCh c (fun x => { x with barge := f x.barge })
def State.eth (s : State) (c : Fin 56) : Eth := (s.ch c).eth
def State.modEth (s : State) (c : Fin 56) (f : Eth → Eth) : State := s.modCh c (fun x => { x with eth := f x.eth })

/-- Apply an operation to every channel in ascending order. -/
def State.eachCh (s : State) (f : State → Fin 56 → State) : State := (List.finRange 56).foldl f s

/-- Apply an operation to every thread of a channel. -/
def State.eachTh (s : State) (c : Fin 56) (f : State → Fin 56 → Fin 8 → State) : State :=
  (List.finRange 8).foldl (fun s t => f s c t) s

/-! ### Drives, streams, Toll House, towpath -/

def State.drive (s : State) (n : Fin 4) : Drive := s.drives[n]
def State.modDrive (s : State) (n : Fin 4) (f : Drive → Drive) : State :=
  { s with drives := s.drives.set n (f (s.drive n)) }
def State.strm (s : State) (i : Nat) : Stream := SMap.get Stream.reset s.streams i
def State.modStrm (s : State) (i : Nat) (f : Stream → Stream) : State :=
  { s with streams := SMap.insert s.streams i (f (s.strm i)) }
def State.modToll (s : State) (f : TollHouse → TollHouse) : State := { s with toll := f s.toll }
def State.modTb (s : State) (f : Timebase → Timebase) : State := { s with tb := f s.tb }
def State.modBoard (s : State) (f : Board → Board) : State := { s with board := f s.board }
def State.modPlace (s : State) (f : Place → Place) : State := { s with place := f s.place }
def State.modIc (s : State) (f : Ic → Ic) : State := { s with ic := f s.ic }
def State.modHost (s : State) (f : HostFn → HostFn) : State := { s with host := f s.host }
def State.ks (s : State) (k : Nat) : Keystone := SMap.get Keystone.reset s.board.ks k
def State.modKs (s : State) (k : Nat) (f : Keystone → Keystone) : State :=
  s.modBoard (fun b => { b with ks := SMap.insert b.ks k (f (SMap.get Keystone.reset b.ks k)) })
def State.tpPort (s : State) (p : Fin 2) : TpPort := if p = 0 then s.tp.p0 else s.tp.p1
def State.modTpPort (s : State) (p : Fin 2) (f : TpPort → TpPort) : State :=
  if p = 0 then { s with tp := { s.tp with p0 := f s.tp.p0 } } else { s with tp := { s.tp with p1 := f s.tp.p1 } }

/-! ### Free values and output -/

/-- Take the number of the next free value (`Config.freeWord`); eight values belong to each number. -/
def State.drawFree (s : State) : Nat × State := (s.free, { s with free := s.free + 8 })

/-- Send something to the world outside. -/
def State.emit (s : State) (e : OutEvent) : State := { s with out := s.out ++ [e] }

/-- Data returned to a read of the host. -/
def State.answer (s : State) (v : Nat) : State := s.emit (.readData (BitVec.ofNat 64 v) false)

/-! ### Host (R86) -/

/-- Requests toward host memory can be issued. -/
def State.hostOk (s : State) : Bool := s.host.link && !s.host.d3hot && s.host.bme

/-- A posted write to host memory, issued now. -/
def State.hostWrite (s : State) (addr : Nat) (data : List Byte) : State := s.emit (.hostWrite ⟨addr, data⟩)

/-! ### Device DRAM (R28, R285) -/

/-- MiB of usable DRAM. -/
def State.usableMiB (s : State) : Nat := if s.dramGiB = 8 then 7281 else if s.dramGiB = 16 then 14563 else 29126

/-- First address above usable DRAM. -/
def State.dramTop (s : State) : Nat := s.usableMiB * 2 ^ 20

/-- First address of the device region. -/
def State.devRegion (s : State) : Nat := (s.usableMiB - 64) * 2 ^ 20

/-- A range of device DRAM that software may use. -/
def State.dramFree (s : State) (a n : Nat) : Bool := decide (a + n ≤ s.devRegion)

/-- RING_SIZE, STAGE_BASE and STAGE_SIZE at the reset values that belong to the fitted DRAM (R9, R248, R280). -/
def State.dramSizes (s : State) : State :=
  let (ring, base, size) := if s.dramGiB = 8 then (5460, 5460, 1536) else if s.dramGiB = 32 then (21845, 21845, 6144)
    else (10922, 10922, 3072)
  ((s.put Fld.RING_SIZE_MIB ring).put Fld.STAGE_BASE_ADDR base).put Fld.STAGE_SIZE_MIB size

/-- A byte of device DRAM. -/
def State.dramByte (s : State) (a : Nat) : Byte := SMap.get 0 s.dram a

/-- Bytes of device DRAM. -/
def State.dramRead (s : State) (a n : Nat) : List Byte := (List.range n).map (fun i => s.dramByte (a + i))

/-- Write bytes into a byte memory. -/
def memWrite (m : List Host.Cell) (a : Nat) (bs : List Byte) : List Host.Cell :=
  match bs with
  | [] => m
  | b :: t => memWrite (SMap.set 0 m a b) (a + 1) t

/-- Granules `lo` to `hi − 1` that a write covers whole are no longer poisoned (R336). -/
def unpoison (l : List Nat) (base a n : Nat) : List Nat :=
  l.filter (fun g => !(decide (base ≤ g) && decide (a ≤ (g - base) * 8) && decide ((g - base) * 8 + 8 ≤ a + n)))

/-- Write bytes of device DRAM. -/
def State.dramWrite (s : State) (a : Nat) (bs : List Byte) : State :=
  { s with dram := memWrite s.dram a bs, poison := unpoison s.poison 0 a bs.length }

/-- Base of a tile's granules in `State.poison`. -/
def tileGranule (c : Nat) : Nat := 2 ^ 40 + c * 2 ^ 17

/-- A range holds a poisoned word. -/
def State.poisoned (s : State) (base a n : Nat) : Bool :=
  s.poison.any (fun g => decide (base + a / 8 ≤ g) && decide (g * 8 < base * 8 + a + n))

/-- Insert in the ascending order of a key, before those of the same key. -/
def sortIn {α : Type} (key : α → Nat) (x : α) (l : List α) : List α :=
  match l with
  | [] => [x]
  | y :: t => if key x ≤ key y then x :: l else y :: sortIn key x t

/-- A list in the ascending order of a key. -/
def sorted {α : Type} (key : α → Nat) (l : List α) : List α := l.foldr (sortIn key) []

/-- Addresses of the bad words of device DRAM in a range, ascending. -/
def State.dramBad (s : State) (a n : Nat) : List Nat :=
  sorted id ((s.poison.filter (fun g => decide (a / 8 ≤ g) && decide (g * 8 < a + n))).map (· * 8))

/-! ### Status codes (R64, R65) -/

def St.ok : Nat := 0x00
def St.okResidual : Nat := 0x01
def St.suspended : Nat := 0x02
def St.abandoned : Nat := 0x03
def St.rejectedBudget : Nat := 0x04
def St.rejectedState : Nat := 0x05
def St.orderInvalid : Nat := 0x06
def St.orderChanged : Nat := 0x07
def St.busError : Nat := 0x08
def St.overrun : Nat := 0x09
def St.noPartner : Nat := 0x0A
def St.storageFull : Nat := 0x0B
def St.authFail : Nat := 0x0C
def St.inProgress : Nat := 0x0D
def St.fenced : Nat := 0x0E
def St.timeout : Nat := 0x0F
def St.badOperand : Nat := 0x80

/-! ### The order in execution (R101) -/

/-- The result of the executing order `idx` becomes known, unless it already is. -/
def State.orderResult (s : State) (c : Fin 56) (idx status residual : Nat) : State :=
  s.modSq c (fun q =>
    match q.exec with
    | some e => if e.idx = idx ∧ e.result = none then { q with exec := some { e with result := some (status, residual) } } else q
    | none => q)

/-! ### Sticky thread events (R162) -/

/-- Set sticky event bit `b` of a thread. -/
def State.setEvt (s : State) (c : Fin 56) (t : Fin 8) (b : Nat) : State :=
  s.modTh c t (fun th => { th with evt := th.evt ||| BitVec.ofNat 8 (2 ^ b) })

end Sys2Proof.Machine
end

