-- ==== Sys2Proof/Machine/Cipher.lean ====
section
/-!
DEFINITION. The published functions the spec names: AES-256 (FIPS 197), XTS (IEEE 1619, R276), GCM (R277), SHA-384 (FIPS 180-4)
and the LZ4 block format (R274). Their insides are PRESUMED, from the standards (log entry 73).
-/
namespace Sys2Proof.Machine

/-! ### AES-256 -/

/-- Product in the field of 256 elements. -/
def gfMul (a b : Byte) : Byte :=
  ((List.range 8).foldl (fun (r : Byte × Byte) i =>
    (if b.getLsbD i then r.1 ^^^ r.2 else r.1, (r.2 <<< 1) ^^^ (if r.2.getLsbD 7 then 0x1B else 0))) (0, a)).1

/-- Inverse in the field, 0 for 0: the power 254. -/
def gfInv (a : Byte) : Byte :=
  ((List.range 7).foldl (fun (r : Byte × Byte) _ => let q := gfMul r.2 r.2; (gfMul r.1 q, q)) (1, a)).1

/-- The S-box. -/
def aesSub (a : Byte) : Byte :=
  let b := gfInv a
  b ^^^ b.rotateLeft 1 ^^^ b.rotateLeft 2 ^^^ b.rotateLeft 3 ^^^ b.rotateLeft 4 ^^^ 0x63

/-- Bytes added without carry. -/
def xorBytes (a b : List Byte) : List Byte := List.zipWith (· ^^^ ·) a b

/-- `n` more words of the key schedule from word `i` on; the newest word stands first. -/
def aesWords (n i : Nat) (ws : List (List Byte)) : List (List Byte) :=
  match n with
  | 0 => ws
  | k + 1 =>
    let t := ws.headD []
    let t := if i % 8 = 0 then xorBytes ((t.drop 1 ++ t.take 1).map aesSub) [BitVec.ofNat 8 (2 ^ (i / 8 - 1)), 0, 0, 0]
      else if i % 8 = 4 then t.map aesSub else t
    aesWords k (i + 1) (xorBytes (ws.getD 7 []) t :: ws)

/-- The fifteen round keys of a 32 B key. -/
def aesKeys (key : List Byte) : List (List Byte) :=
  let key := (key ++ zeros 32).take 32
  let ws := (aesWords 52 8 ((List.range 8).map (fun i => bsub key (4 * i) 4)).reverse).reverse
  (List.range 15).map (fun r => ((ws.drop (4 * r)).take 4).flatten)

/-- SubBytes and ShiftRows. -/
def aesShift (b : List Byte) : List Byte := (List.range 16).map (fun i => aesSub (b.getD (5 * i % 16) 0))

/-- MixColumns. -/
def aesMix (b : List Byte) : List Byte :=
  (List.range 16).map (fun i =>
    let at_ (k : Nat) : Byte := b.getD (i / 4 * 4 + (i + k) % 4) 0
    gfMul 2 (at_ 0) ^^^ gfMul 3 (at_ 1) ^^^ at_ 2 ^^^ at_ 3)

/-- A block of 16 B under round keys: those of the middle rounds, then the last. -/
def aesRounds (ks : List (List Byte)) (b : List Byte) : List Byte :=
  match ks with
  | [] => b
  | [k] => xorBytes (aesShift b) k
  | k :: t => aesRounds t (xorBytes (aesMix (aesShift b)) k)

/-- The AES-256 encryption of a block of 16 B. -/
def aes (key block : List Byte) : List Byte :=
  let ks := aesKeys key
  aesRounds (ks.drop 1) (xorBytes block (ks.headD []))

/-! ### XTS (R276, R308) -/

/-- The tweak of the next block: the product with α. -/
def xtsNext (t : List Byte) : List Byte :=
  let v := leNat t * 2
  leBytes 16 (if 2 ^ 128 ≤ v then (v % 2 ^ 128) ^^^ 0x87 else v)

/-- Blocks of 16 B under the data key and a running tweak. -/
def xtsBlocks (n : Nat) (key t bs : List Byte) : List Byte :=
  match n with
  | 0 => []
  | k + 1 => xorBytes (aes key (xorBytes (bs.take 16) t)) t ++ xtsBlocks k key (xtsNext t) (bs.drop 16)

/-- The AES-256-XTS encryption of a data unit, whose length is a multiple of 16, under a 64 B key and a 16 B tweak. -/
def aesXts (key tweak unit : List Byte) : List Byte :=
  xtsBlocks (unit.length / 16) (key.take 32) (aes (key.drop 32) tweak) unit

/-! ### GCM (R229, R277) -/

/-- Product in GCM's field. -/
def ghashMul (x y : Nat) : Nat :=
  ((List.range 128).foldl (fun (r : Nat × Nat) i =>
    (if bit x (127 - i) then r.1 ^^^ r.2 else r.1, if bit r.2 0 then (r.2 / 2) ^^^ (0xE1 * 2 ^ 120) else r.2 / 2)) (0, y)).1

/-- GHASH of whole blocks. -/
def ghash (n h y : Nat) (bs : List Byte) : Nat :=
  match n with
  | 0 => y
  | k + 1 => ghash k h (ghashMul (y ^^^ beNat (bs.take 16)) h) (bs.drop 16)

/-- Counter mode from counter value `c` on. -/
def gcmCtr (n : Nat) (key iv : List Byte) (c : Nat) (bs : List Byte) : List Byte :=
  match n with
  | 0 => []
  | k + 1 => xorBytes (bs.take 16) (aes key (iv ++ beBytes 4 c)) ++ gcmCtr k key iv (c + 1) (bs.drop 16)

/-- AES-256-GCM under a 12 B IV: the ciphertext, then the 16 B tag. -/
def aesGcm (key iv aad plain : List Byte) : List Byte :=
  let ct := gcmCtr ((plain.length + 15) / 16) key iv 2 plain
  let h := beNat (aes key (zeros 16))
  let m := padTo 16 aad ++ padTo 16 ct ++ beBytes 8 (aad.length * 8) ++ beBytes 8 (ct.length * 8)
  ct ++ xorBytes (beBytes 16 (ghash (m.length / 16) h 0 m)) (aes key (iv ++ beBytes 4 1))

/-! ### SHA-384 -/

/-- The largest number below 2^`k` more than `r` whose power `e` is at most `m`. -/
def rootOf (k e m r : Nat) : Nat :=
  match k with
  | 0 => r
  | j + 1 => rootOf j e m (if (r + 2 ^ j) ^ e ≤ m then r + 2 ^ j else r)

/-- The first 80 primes. -/
def primes80 : List Nat :=
  (List.range 410).filter (fun n => decide (2 ≤ n) && (List.range 19).all (fun d => d + 2 == n || n % (d + 2) != 0))

/-- The first 64 bits of the fraction of the `e`-th root of a prime. -/
def rootBits (e p : Nat) : Word := BitVec.ofNat 64 (rootOf 72 e (p * 2 ^ (64 * e)) 0)

/-- The round constants and the initial digest. -/
def shaK : List Word := primes80.map (rootBits 3)
def sha384Init : List Word := ((primes80.drop 8).take 8).map (rootBits 2)

/-- `n` more words of the message schedule; the newest stands first. -/
def shaWords (n : Nat) (w : List Word) : List Word :=
  match n with
  | 0 => w
  | k + 1 =>
    let a := w.getD 14 0
    let b := w.getD 1 0
    let s0 := a.rotateRight 1 ^^^ a.rotateRight 8 ^^^ (a >>> 7)
    let s1 := b.rotateRight 19 ^^^ b.rotateRight 61 ^^^ (b >>> 6)
    shaWords k ((s1 + w.getD 6 0 + s0 + w.getD 15 0) :: w)

/-- The eight working variables. -/
abbrev ShaVars := Word × Word × Word × Word × Word × Word × Word × Word

/-- The rounds of a block over the sums of constants and schedule words. -/
def shaRounds (kw : List Word) (v : ShaVars) : ShaVars :=
  kw.foldl (fun (a, b, c, d, e, f, g, h) x =>
    let t1 := h + (e.rotateRight 14 ^^^ e.rotateRight 18 ^^^ e.rotateRight 41) + ((e &&& f) ^^^ (~~~e &&& g)) + x
    let t2 := (a.rotateRight 28 ^^^ a.rotateRight 34 ^^^ a.rotateRight 39) + ((a &&& b) ^^^ (a &&& c) ^^^ (b &&& c))
    (t1 + t2, a, b, c, d + t1, e, f, g)) v

/-- The digest after `n` blocks of 128 B. -/
def shaBlocks (n : Nat) (d : List Word) (bs : List Byte) : List Word :=
  match n with
  | 0 => d
  | k + 1 =>
    let w := (shaWords 64 ((List.range 16).map (fun i => BitVec.ofNat 64 (beNat (bsub bs (8 * i) 8)))).reverse).reverse
    let g (i : Nat) : Word := d.getD i 0
    let (a, b, c, d', e, f, g', h) := shaRounds (List.zipWith (· + ·) shaK w) (g 0, g 1, g 2, g 3, g 4, g 5, g 6, g 7)
    shaBlocks k (List.zipWith (· + ·) d [a, b, c, d', e, f, g', h]) (bs.drop 128)

/-- SHA-384 of a message. -/
def sha384 (m : List Byte) : List Byte :=
  let p := m ++ [0x80] ++ zeros ((239 - m.length % 128) % 128) ++ beBytes 16 (m.length * 8)
  (((shaBlocks (p.length / 128) sha384Init p).take 6).map (fun w => beBytes 8 w.toNat)).flatten

/-! ### LZ4 blocks (R274) -/

/-- A length above 15 continues in further bytes. -/
def lz4Ext (fuel n : Nat) : List Byte :=
  match fuel with
  | 0 => []
  | k + 1 => if n < 255 then leBytes 1 n else 0xFF :: lz4Ext k (n - 255)

/-- A sequence: its literals, and a match of `len` bytes at offset `off` back (none in the last sequence). -/
def lz4Seq (lits : List Byte) (m : Option (Nat × Nat)) : List Byte :=
  let n := lits.length
  let ml := match m with | some (_, len) => len - 4 | none => 0
  leBytes 1 (min 15 n * 16 + min 15 ml) ++ (if n < 15 then [] else lz4Ext (n + 1) (n - 15)) ++ lits
    ++ (match m with
      | some (off, len) => leBytes 2 off ++ (if len - 4 < 15 then [] else lz4Ext len (len - 19))
      | none => [])

/-- A match at `p` is one the format and R274 allow: its offset, its length, the bytes it repeats, and how far it stays from the
end. -/
def lz4MatchOk (raw : List Byte) (p off len : Nat) : Bool :=
  decide (1 ≤ off ∧ off ≤ 65535 ∧ off ≤ p ∧ 4 ≤ len ∧ p + 12 ≤ raw.length ∧ p + len + 5 ≤ raw.length)
    && bsub raw p len == bsub raw (p - off) len

/-- The sequences from `p` on, with the literals gathered; where matches begin is the engine's free choice. -/
def lz4From (fuel : Nat) (raw lits : List Byte) (p : Nat) : List Byte :=
  match fuel with
  | 0 => lz4Seq lits none
  | k + 1 =>
    match raw[p]? with
    | none => lz4Seq lits none
    | some b =>
      let (off, len) := Config.lz4Match raw p
      if lz4MatchOk raw p off len then lz4Seq lits (some (off, len)) ++ lz4From k raw [] (p + len)
      else lz4From k raw (lits ++ [b]) (p + 1)

/-- The LZ4 block an engine makes of a span's raw bytes. -/
def lz4Block (raw : List Byte) : List Byte := lz4From (raw.length + 1) raw [] 0

end Sys2Proof.Machine
end

