-- ==== Sys2Proof/Machine/Records.lean ====
section
/-!
DEFINITION. Records, the lock chambers, the pound and the retention ring (10).
-/
namespace Sys2Proof.Machine

/-! ### Records (R231) -/

/-- Bytes a record occupies. -/
def recSize (r : Rec) : Nat := 16 + 8 * ((r.payload.length + 7) / 8)

/-- A record's bytes. -/
def recBytes (r : Rec) : List Byte :=
  leBytes 8 r.ts ++ leBytes 2 r.payload.length ++ leBytes 1 r.typ ++ leBytes 1 r.chan ++ leBytes 2 r.seq
    ++ leBytes 2 r.flags ++ padTo 8 r.payload

/-- A gap record: COUNT, SOURCE and LAST_NS (R233). -/
def gapRec (ts chan seq count src last : Nat) : Rec :=
  ⟨ts, 0x3E, chan, seq, 0, leBytes 4 (min 0xFFFFFFFF count) ++ leBytes 1 src ++ zeros 3 ++ leBytes 8 last⟩

/-! ### Chambers (R237–R240) -/

/-- A half by its index. -/
def Chamber.half (ch : Chamber) (i : Nat) : ChHalf :=
  if i = 0 then ch.h0 else if i = 1 then ch.h1 else if i = 2 then ch.old0 else ch.old1

/-- The halves that are FULL or DRAINING, by index, in the order in which they became FULL. -/
def Chamber.owing (ch : Chamber) : List Nat :=
  sorted (fun i => (ch.half i).stamp) ([2, 3, 0, 1].filter (fun i => (ch.half i).st == .full || (ch.half i).st == .draining))

/-- Update a half. -/
def Chamber.modHalf (ch : Chamber) (i : Nat) (f : ChHalf → ChHalf) : Chamber :=
  if i = 0 then { ch with h0 := f ch.h0 } else if i = 1 then { ch with h1 := f ch.h1 }
  else if i = 2 then { ch with old0 := f ch.old0 } else { ch with old1 := f ch.old1 }

/-- Size of a channel's chamber half: 8 KiB on field tiles and in the Basin, 128 KiB on stream tiles. -/
def halfSize (c : Nat) : Nat := if 48 ≤ c ∧ c < 56 then 131072 else 8192

/-- Usable bytes of a half: R239's 32 B are reserved, and no more than the channel can be granted. -/
def chUsable (s : State) (c : Nat) : Nat :=
  if c < 56 then min (halfSize c - 32) ((s.get (Fld.POUND_QUOTA_QUOTA c) + s.get (Fld.POUND_QUOTA_POOL_LIMIT c)) * 512 - 32)
  else 8160

/-- One more record lost. -/
def GapCount.add (g : Option GapCount) (ts : Nat) : GapCount :=
  match g with
  | some g => { g with count := g.count + 1, last := ts }
  | none => ⟨1, ts, ts⟩

/-- What became of a commit. -/
inductive Stored where
  | stored (half pos : Nat)
  | spilled (first : Bool)
  | weir
  /-- It waits for the last piece of a frame (R223). -/
  | held
deriving DecidableEq, Repr

/-- Commit a record into a chamber: its number is consumed, and it is stored, dropped into the gap record of the half
(R239) or, in WEIR, counted (R240). Basin records carry SEQ 0. -/
def Chamber.commit (ch : Chamber) (usable : Nat) (r : Rec) : Stored × Chamber :=
  let r := if r.chan = 0xFF then { r with seq := 0 } else { r with seq := ch.seq }
  let ch := { ch with seq := if r.chan = 0xFF then 0 else (ch.seq + 1) % 65536 }
  if ch.weir then (.weir, { ch with weirGap := some (GapCount.add ch.weirGap r.ts) })
  else
    let h := ch.half ch.filling
    let first := if h.nSeq = 0 then r.seq else h.firstSeq
    if h.gap.isNone && decide (h.used + recSize r ≤ usable) then
      (.stored ch.filling h.recs.length, ch.modHalf ch.filling (fun h =>
        { h with recs := h.recs ++ [r], tags := h.tags ++ [ch.bind], used := h.used + recSize r, firstSeq := first, nSeq := h.nSeq + 1 }))
    else
      (.spilled h.gap.isNone, ch.modHalf ch.filling (fun h =>
        { h with gap := some (GapCount.add h.gap r.ts), firstSeq := first, nSeq := h.nSeq + 1 }))

/-- A half begins to fill: after WEIR its first record counts what was dropped (R240). -/
def Chamber.fill (ch : Chamber) (i chan : Nat) : Chamber :=
  let ch := { ch with filling := i, weir := false }
  let ch := ch.modHalf i (fun _ => { ChHalf.reset with st := .filling })
  match ch.weirGap with
  | none => ch
  | some g =>
    let seq := if chan = 0xFF then 0 else ch.seq
    let r := gapRec g.first chan seq g.count 0x04 g.last
    let ch := { ch with weirGap := none, seq := if chan = 0xFF then 0 else (ch.seq + 1) % 65536 }
    ch.modHalf i (fun h => { h with recs := [r], tags := [ch.bind], used := 32, firstSeq := seq, nSeq := 1 })

/-- The filling half becomes FULL (R237): its gap record, if any, takes its number and is the last record (R239). -/
def Chamber.closeHalf (ch : Chamber) (chan tick sub : Nat) : Chamber :=
  let h := ch.half ch.filling
  let ch1 := match h.gap with
    | none => ch
    | some g =>
      let seq := if chan = 0xFF then 0 else ch.seq
      let r := gapRec g.first chan seq g.count 0x03 g.last
      ({ ch with seq := if chan = 0xFF then 0 else (ch.seq + 1) % 65536 }).modHalf ch.filling (fun h =>
        { h with recs := h.recs ++ [r], tags := h.tags ++ [ch.bind], used := h.used + 32, gap := none, nSeq := h.nSeq + 1 })
  let ch2 := ch1.modHalf ch.filling (fun h =>
    { h with st := .full, tick := tick, sub := sub, refused := false, stamp := ch.stamp })
  { ch2 with stamp := ch2.stamp + 1 }

/-- A swap point (R237): `true` when it puts the chamber in WEIR. A chamber already in WEIR has no half to swap. -/
def Chamber.swap (ch : Chamber) (chan tick sub : Nat) : Bool × Chamber :=
  if ch.weir then (false, ch)
  else
    let i := ch.filling
    let ch := ch.closeHalf chan tick sub
    if (ch.half (1 - i)).st = .empty then (false, ch.fill (1 - i) chan) else (true, { ch with weir := true })

/-- The oldest FULL half. -/
def Chamber.oldestFull (ch : Chamber) : Option Nat := ch.owing.find? (fun i => (ch.half i).st == .full)

/-- A half is DRAINING. -/
def Chamber.draining (ch : Chamber) : Option Nat := ch.owing.find? (fun i => (ch.half i).st == .draining)

/-- The frame being received has committed a piece, and its last piece is to come: no record of the channel comes between (R223). -/
def midFrame (s : State) (c : Fin 56) : Bool :=
  match (s.eth c).rx with
  | some r => decide (0 < r.cut) && (r.action == 1 || r.action == 3) && s.isSet (Fld.ETH_CFG_CAP_EN c)
  | none => false

/-- Commit a record on a channel now, with the counters and events of R239 and R240. -/
def chCommitNow (s : State) (c : Fin 56) (r : Rec) : Stored × State :=
  let (o, ch) := (s.ch c).chamber.commit (chUsable s c) { r with chan := c.val }
  let s := s.modCh c (fun x => { x with chamber := ch })
  match o with
  | .stored .. => (o, s)
  | .spilled first =>
    let s := (s.bumpSat (Fld.CH_STATS1_DROPPED c) 1).raise (Fld.CH_EVT_SPILL c)
    (o, if first then s.bumpWrap (Fld.CH_STATS1_GAPS c) 1 else s)
  | .weir => (o, (s.bumpSat (Fld.CH_STATS1_DROPPED c) 1).raise (Fld.CH_EVT_SPILL c))
  | .held => (o, s)

/-- Commit a record on a channel; one that would come between the pieces of a frame takes effect after the last of them (DEDUCED,
log entry 118). -/
def chCommit (s : State) (c : Fin 56) (r : Rec) : Stored × State :=
  if midFrame s c then (.held, s.modEth c (fun e => { e with held := e.held ++ [⟨r, none⟩] })) else chCommitNow s c r

/-- Commit a record into the Basin chamber. -/
def basinCommit (s : State) (r : Rec) : State :=
  { s with basin := (s.basin.commit (chUsable s 0xFF) { r with chan := 0xFF }).2 }

/-- A diagnostic record of the Basin (R353): SUBTYPE, then 23 bytes. -/
def diagRec (s : State) (subtype b1 w2 w4 w8 w16 : Nat) : State :=
  basinCommit s ⟨s.now, 0x41, 0xFF, 0, 0,
    leBytes 1 subtype ++ leBytes 1 b1 ++ leBytes 2 w2 ++ leBytes 4 w4 ++ leBytes 8 w8 ++ leBytes 6 w16 ++ zeros 2⟩

/-- The swap of a channel's chamber at a swap point of a tick. -/
def chSwap (s : State) (c : Fin 56) (tick sub : Nat) : State :=
  let weirBefore := (s.ch c).chamber.weir
  let (w, ch) := (s.ch c).chamber.swap c tick sub
  let s := s.modCh c (fun x => { x with chamber := ch })
  if w && !weirBefore then (s.raise (Fld.CH_EVT_WEIR c)).raise Fld.POUND_EVT_WEIR else s

/-- Event bits 5 of the threads at a lock swap (R162). -/
def swapEvents (s : State) (c : Fin 56) (b : Nat) : State := s.eachTh c (fun s c t => s.setEvt c t b)

/-! ### The pound (R241–R245) -/

/-- Credits held. -/
def poundHeld (s : State) : Nat := s.credits.length

/-- Quota and pool credits a channel holds. -/
def quotaHeld (s : State) (c : Nat) : Nat := (s.credits.filter (fun k => k.chan == c && !k.pool)).length
def poolHeld (s : State) (c : Nat) : Nat := (s.credits.filter (fun k => k.chan == c && k.pool)).length

/-- Sum of all QUOTA fields. -/
def quotaSum (s : State) : Nat := ((List.range 56).map (fun c => s.get (Fld.POUND_QUOTA_QUOTA c))).sum

/-- Pool credits free. -/
def poolFree (s : State) : Nat := 752 - quotaSum s - (s.credits.filter (fun k => k.pool)).length

/-- POUND_STATUS follows what is held; MIN_FREE keeps the lowest FREE. -/
def poundStatus (s : State) : State :=
  let free := 768 - poundHeld s
  let s := (s.put Fld.POUND_STATUS_FREE free).put Fld.POUND_STATUS_POOL_FREE (poolFree s)
  let s := s.put Fld.POUND_STATUS_QUOTA_SUM (quotaSum s)
  if free < s.get Fld.POUND_STATUS_MIN_FREE then s.put Fld.POUND_STATUS_MIN_FREE free else s

/-- The grant of `k` credits to a channel (R242): how many come from the pool; `none` when it is refused. The Basin chamber
draws on the sixteen credits reserved for it. -/
def poundGrant (s : State) (c k : Nat) : Option Nat :=
  if c = 0xFF then (if quotaHeld s 0xFF + k ≤ 16 then some 0 else none)
  else
    let p := k - min k (s.get (Fld.POUND_QUOTA_QUOTA c) - quotaHeld s c)
    if p ≤ poolFree s ∧ poolHeld s c + p ≤ s.get (Fld.POUND_QUOTA_POOL_LIMIT c) then some p else none

/-- Allocate `k` credits to extent `ext` of channel `c`, `p` of them from the pool, in the pound's ring order. -/
def poundTake (s : State) (c k p ext : Nat) : State :=
  let new := (List.range k).map (fun i =>
    (⟨(s.nextCredit + i) % 768, c, decide (k - p ≤ i), [], false, ext, i⟩ : Credit))
  poundStatus { s with credits := s.credits ++ new, nextCredit := (s.nextCredit + k) % 768 }

/-! ### The ring (R246–R248) -/

/-- Ring size in bytes and base address. -/
def ringSize (s : State) : Nat := s.get Fld.RING_SIZE_MIB * 2 ^ 20
def ringBase (s : State) : Nat := s.get Fld.RING_BASE_ADDR * 2 ^ 20

/-- Room for `n` bytes at the head: the offset they take, or `none` when the write would reach the tail. A piece that
would cross the ring's end lies at offset 0 (R247). -/
def ringPlace (s : State) (n : Nat) : Option Nat :=
  let size := ringSize s
  let h := s.get Fld.RING_HEAD_OFFSET
  let t := s.get Fld.RING_TAIL_OFFSET
  let free := if h = t then size else (t + size - h) % size
  let off := if h + n ≤ size then h else 0
  let used := if h + n ≤ size then n else size - h + n
  if used < free then some off else none

/-- The head moves past `n` bytes placed at `off`. -/
def ringTake (s : State) (off n : Nat) : State :=
  let h := off + n
  s.put Fld.RING_HEAD_OFFSET (if h = ringSize s then 0 else h)

/-- Bytes an extent occupies. -/
def extSize (e : Extent) : Nat := roundUp 64 (16 + e.len)

/-- FLAGS of an extent. -/
def extFlags (e : Extent) : Nat := b2n e.hasGap + 2 * b2n e.refused + 16 * e.sub

/-- The extent header (10). -/
def extHeader (e : Extent) : List Byte :=
  [0x56, 0x45, 0x58, 0x54] ++ leBytes 4 e.len ++ leBytes 6 e.tick ++ leBytes 1 e.chan ++ leBytes 1 (extFlags e)

/-- Update an extent by its number in whichever course holds it. -/
def modExt (s : State) (num : Nat) (f : Extent → Extent) : State :=
  { s with courses := s.courses.map (fun c =>
      { c with exts := c.exts.map (fun e => if e.num = num then f e else e) }) }

/-- The oldest extent that has no place in the ring yet. -/
def unplaced (s : State) : Option Extent :=
  let l := (s.courses.map (fun c => c.exts.filter (fun e => e.off.isNone))).flatten
  l.foldl (fun o e => match o with | none => some e | some m => if e.num < m.num then some e else some m) none

/-- Give unplaced extents their place in the order of their numbers; the header and the padding are written at once, and so
are the records of an extent that no drain fills (R243). -/
def placeExts (fuel : Nat) (s : State) : State :=
  match fuel with
  | 0 => s
  | k + 1 =>
    match unplaced s with
    | none => s
    | some e =>
      match ringPlace s (extSize e) with
      | none => s.raise Fld.POUND_EVT_RING_FULL
      | some off =>
        let s := ringTake s off (extSize e)
        let s := modExt s e.num (fun e => { e with off := some off })
        let s := s.dramWrite (ringBase s + off) (extHeader e)
        let s := s.dramWrite (ringBase s + off + 16 + e.len) (zeros (extSize e - 16 - e.len))
        let s := if s.credits.any (fun k => k.ext == e.num) then s
          else s.dramWrite (ringBase s + off + 16) (e.recs.map recBytes).flatten
        placeExts k s

/-- A new extent of a half of tick `tick` joins its course. -/
def addExt (s : State) (e : Extent) : State :=
  let s := { s with nextExt := s.nextExt + 1,
                    courses := s.courses.map (fun c => if c.tick = e.tick then { c with exts := c.exts ++ [e] } else c) }
  placeExts 64 s

/-- Records of a half as an extent. -/
def halfExt (s : State) (c : Nat) (h : ChHalf) : Extent :=
  ⟨s.nextExt, c, h.tick, h.sub, h.used, h.recs, h.tags, h.recs.any (fun r => r.typ == 0x3E), h.refused, none⟩

/-- The drain of half `i` of chamber `c` begins with its credits granted (R237, R242, R246): a half without records drains
without credits and without an extent. -/
def drainStart (s : State) (c i : Nat) (ch : Chamber) (p : Nat) : State × Chamber :=
  let h := ch.half i
  let ch := ch.modHalf i (fun h => { h with st := .draining })
  if h.recs.isEmpty then (s, ch)
  else
    let k := (h.used + 511) / 512
    let e := halfExt s c h
    let s := poundTake s c k p e.num
    let s := if c < 56 then (s.put (Fld.POUND_HOLD_FIRST c) ((s.nextCredit + 768 - k) % 768)).put (Fld.POUND_HOLD_COUNT c) k
      else s
    (addExt (s.bumpWrap Fld.POUND_STATS_GRANTS 1) e, ch)

/-- The credits of the draining half of chamber `c` receive its bytes. -/
def fillCredits (s : State) (c : Nat) (h : ChHalf) : State :=
  let bs := (h.recs.map recBytes).flatten
  { s with credits := s.credits.map (fun k =>
      if k.chan = c ∧ !k.filled then { k with filled := true, data := bsub bs (k.pos * 512) 512 } else k) }

/-- The drain of a chamber ends (R237): the half becomes EMPTY, or FILLING when the chamber is in WEIR. -/
def drainEnd (ch : Chamber) (i chan : Nat) : Chamber :=
  let ch := ch.modHalf i (fun _ => ChHalf.reset)
  if ch.weir && decide (i < 2) then ch.fill i chan else ch

/-- What a credit receives: its share of the half that its channel drains, which it may have before the drain's end. -/
def creditData (s : State) (k : Credit) : List Byte :=
  if k.filled then k.data
  else if h : k.chan < 56 then
    let ch := (s.ch ⟨k.chan, h⟩).chamber
    match ch.draining with
    | some i => bsub ((ch.half i).recs.map recBytes).flatten (k.pos * 512) 512
    | none => k.data
  else k.data

/-- The credit at the head of the pound's ring is written to DRAM and freed as soon as it is filled, in the course of its drain or
after it (R244); nothing happens while the ring gives its extent no place. -/
def creditRelease (s : State) : State :=
  match s.credits with
  | [] => s
  | k :: t =>
    let s := placeExts 64 s
    let ext := ((s.courses.map (fun c => c.exts)).flatten).find? (fun e => e.num = k.ext)
    match ext.bind (fun e => e.off) with
    | none => s
    | some off =>
      let s := s.dramWrite (ringBase s + off + 16 + k.pos * 512) (creditData s k)
      poundStatus { s with credits := t }

/-! ### Courses -/

/-- The chambers still owe course `n` a drain. -/
def courseOwed (s : State) (n : Nat) : Bool :=
  let owes (ch : Chamber) : Bool := ch.owing.any (fun i => (ch.half i).tick == n && !(ch.half i).recs.isEmpty)
  owes s.basin || (List.finRange 56).any (fun c => owes (s.ch c).chamber)

/-- The Basin chamber's half of tick `n` has drained. -/
def basinDrained (s : State) (n : Nat) : Bool :=
  !s.basin.owing.any (fun i => (s.basin.half i).tick == n)

/-- The extents of a course in table order (R247): ascending CHANNEL, each channel's in drain order. -/
def courseOrder (c : Course) : List Extent :=
  ((List.range 256).map (fun k => c.exts.filter (fun e => e.chan = k))).flatten

/-- The course header with its table (R246). -/
def courseHeader (c : Course) (late : Bool) (prev : Nat) : List Byte :=
  let exts := courseOrder c
  let flags := b2n late + 2 * b2n (c.exts.any (fun e => e.hasGap)) + 4 * b2n (!c.step.isEmpty)
  let tab := (exts.map (fun e =>
    leBytes 8 (e.off.getD 0) ++ leBytes 4 e.len ++ leBytes 1 e.chan ++ leBytes 1 (extFlags e) ++ zeros 2)).flatten
  let h := [0x56, 0x43, 0x52, 0x53] ++ leBytes 1 1 ++ leBytes 1 flags ++ leBytes 2 exts.length ++ leBytes 6 c.tick
    ++ zeros 2 ++ leBytes 8 c.edgeNs ++ leBytes 8 prev ++ leBytes 4 ((exts.map (fun e => e.recs.length)).sum)
    ++ leBytes 4 ((exts.map (fun e => e.len)).sum) ++ zeros 8 ++ tab
  padTo 64 (withCrc h 40)

/-- The header of the oldest course is written when the course is complete (R246), none of its runs being left in the pound (R16):
what was written, and the state; `none` when it is not complete or the ring has no room. -/
def courseWrite (s : State) : State × Option DoneCourse :=
  match s.courses with
  | [] => (s, none)
  | [_] => (s, none)
  | c :: rest =>
    let s := placeExts 64 s
    let c := s.courses.headD c
    if courseOwed s c.tick || !basinDrained s c.tick || c.exts.any (fun e => e.off.isNone)
        || s.credits.any (fun k => c.exts.any (fun e => e.num = k.ext)) then (s, none)
    else
      let prev := if s.ringFirst then 2 ^ 64 - 1 else s.get Fld.RING_LAST_HDR_OFFSET
      let h := courseHeader c c.late prev
      match ringPlace s h.length with
      | none => (s.raise Fld.POUND_EVT_RING_FULL, none)
      | some off =>
        let s := (ringTake s off h.length).dramWrite (ringBase s + off) h
        let s := (s.put Fld.RING_LAST_TICK c.tick).put Fld.RING_LAST_HDR_OFFSET off
        let s := if c.late then s.raise Fld.TB_EVENTS_COURSE_LATE else s
        let start := match c.exts with | e :: _ => e.off.getD off | [] => off
        let d : DoneCourse := ⟨c.tick, c.edgeNs, start, off, off + h.length, c.step, c.exts⟩
        let s := if s.dones.isEmpty then s.put Fld.RING_OLDEST_TICK c.tick else s
        ({ s with courses := rest, dones := s.dones ++ [d], ringFirst := false }, some d)

/-- Offsets in the ring that are still retained: extents of the open courses, extents and headers of complete ones. -/
def retainedOffs (s : State) : List Nat :=
  ((s.dones.map (fun d => d.hdr :: d.exts.filterMap (fun e => e.off))).flatten)
    ++ ((s.courses.map (fun c => c.exts.filterMap (fun e => e.off))).flatten)

/-- The tail moves to the oldest byte still retained (R248, R271). -/
def ringTail (s : State) : State :=
  let size := ringSize s
  let t := s.get Fld.RING_TAIL_OFFSET
  let dist (o : Nat) : Nat := (o + size - t) % size
  let h := s.get Fld.RING_HEAD_OFFSET
  let o := (retainedOffs s).foldl (fun m o => if dist o < dist m then o else m) h
  let first := (retainedOffs s).any (fun o => o = t)
  s.put Fld.RING_TAIL_OFFSET (if first then t else o)

/-- The oldest complete courses are released while `free` allows it. -/
def releaseCourses (s : State) (free : Nat → Bool) : State :=
  let kept := s.dones.dropWhile (fun d => free d.tick)
  if kept.length = s.dones.length then s
  else
    let s := ringTail { s with dones := kept }
    s.put Fld.RING_OLDEST_TICK (match kept with | d :: _ => d.tick | [] => s.get Fld.RING_LAST_TICK)

end Sys2Proof.Machine
end

