-- ==== Sys2Proof/Machine/Quay.lean ====
section
/-!
DEFINITION. The Quay recording format: what the device writes on a drive (13), and SIGDELTA (12, R275).
-/
namespace Sys2Proof.Machine

/-! ### SIGDELTA (R275) -/

/-- zz of a difference of width `w`. -/
def zz (w d : Nat) : Nat := if d < 2 ^ (w - 1) then 2 * d else 2 ^ (w + 1) - 2 * d - 1

/-- LEB128 in at most `fuel` bytes. -/
def uv (fuel x : Nat) : List Byte :=
  match fuel with
  | 0 => []
  | k + 1 => if x < 128 then leBytes 1 x else leBytes 1 (x % 128 + 128) ++ uv k (x / 128)

/-- A difference modulo 2^w. -/
def subMod (w a b : Nat) : Nat := (a % 2 ^ w + 2 ^ w - b % 2 ^ w) % 2 ^ w

/-- Payload words against the context's. -/
def sdWords (c ws : List Nat) : List Byte :=
  match ws with
  | [] => []
  | w :: t =>
    (match c with
     | p :: _ => uv 5 (zz 32 (subMod 32 w p)) ++ uv 5 (zz 32 (subMod 32 (w / 2 ^ 32) (p / 2 ^ 32)))
     | [] => leBytes 8 w) ++ sdWords (c.drop 1) t

/-- A context: ts, seq, len, flags and at most eight payload words. -/
abbrev SdCtx := Nat × Nat × Nat × Nat × List Nat

/-- The context at the start of a span. -/
def sdFresh : SdCtx := (0, 0xFFFF, 0, 0, [])

/-- Payload words of a record with its padding. -/
def recWords (r : Rec) : List Nat := (List.range ((r.payload.length + 7) / 8)).map (fun i => leAt (padTo 8 r.payload) (8 * i) 8)

/-- One record's code against its context. -/
def sdRec (c : SdCtx) (r : Rec) : List Byte :=
  let (ts, seq, len, flags, ws) := c
  let n := r.payload.length
  let sSeq := r.seq == (seq + 1) % 65536
  let sLen := n == len
  let sFlags := r.flags == flags
  leBytes 1 r.chan ++ leBytes 1 r.typ ++ leBytes 1 (b2n sSeq + 2 * b2n sLen + 4 * b2n sFlags)
    ++ (if sSeq then [] else leBytes 2 r.seq) ++ (if sLen then [] else leBytes 2 n)
    ++ (if sFlags then [] else leBytes 2 r.flags) ++ uv 10 (zz 64 (subMod 64 r.ts ts)) ++ sdWords ws (recWords r)

/-- SIGDELTA of a record sequence; contexts by CHANNEL × 256 + TYPE. -/
def sigdelta (rs : List Rec) (ctx : List (Nat × SdCtx)) : List Byte :=
  match rs with
  | [] => []
  | r :: t =>
    let k := r.chan * 256 + r.typ
    sdRec (SMap.get sdFresh ctx k) r
      ++ sigdelta t (SMap.insert ctx k (r.ts, r.seq, r.payload.length, r.flags, (recWords r).take 8))

/-! ### Layout (R296, R297, R303) -/

/-- The unit U: bytes of a segment. -/
def quayU : Nat := 67108864

/-- SEGMENT_COUNT of a namespace. -/
def segmentCount (nsBytes : Nat) : Nat := nsBytes / quayU - 1

/-- Namespace byte of segment `seq`. -/
def segBase (count seq : Nat) : Nat := quayU * (1 + seq % count)

/-- End of the span area and place of the footer. -/
def footerOff : Nat := 63 * 2 ^ 20

/-- How far sequence number `a` stands past `b` (R297). -/
def seqPast (a b : Nat) : Nat := (a + 2 ^ 64 - b) % 2 ^ 64

/-! ### Superblocks (R298, R299) -/

/-- A superblock's 4096 bytes: writer's serial number, firmware version, boot count and time. -/
def superBytes (b : Super) (serial fw boot now : Nat) : List Byte :=
  withCrc ([0x56, 0x51, 0x53, 0x42] ++ leBytes 2 b.version ++ leBytes 2 b.version ++ leBytes 8 b.gen
    ++ (b.volume ++ zeros 16).take 16 ++ leBytes 8 b.nsBytes ++ leBytes 4 b.lba ++ leBytes 4 b.count ++ leBytes 8 b.tail
    ++ leBytes 8 b.next ++ leBytes 8 serial ++ leBytes 4 fw ++ leBytes 4 boot ++ leBytes 8 now ++ zeros 4008) 88

/-- Namespace byte of the copy that generation `g` is written to (R300). -/
def superOff (g : Nat) : Nat := if g % 2 = 0 then 0 else 2 ^ 20

/-- A valid superblock copy, with its MIN_READER. -/
def superParse (b : List Byte) : Option (Super × Nat) :=
  let ns := leAt b 32 8
  let lba := leAt b 40 4
  let count := leAt b 44 4
  if b.length = 4096 ∧ b.take 4 = [0x56, 0x51, 0x53, 0x42] ∧ crcOk b 88 ∧ allZero b 92 4004 ∧ (lba = 512 ∨ lba = 4096)
      ∧ count = segmentCount ns ∧ seqPast (leAt b 56 8) (leAt b 48 8) + 1 ≤ count then
    some (⟨leAt b 4 2, leAt b 8 8, bsub b 16 16, ns, lba, count, leAt b 48 8, leAt b 56 8⟩, leAt b 6 2)
  else none

/-- The current superblock of two copies. -/
def superCurrent (a b : List Byte) : Option (Super × Nat) :=
  match superParse a, superParse b with
  | some x, some y => some (if x.1.gen < y.1.gen then y else x)
  | some x, none => some x
  | none, o => o

/-! ### Segments and footers (R303, R309) -/

/-- The segment header. -/
def segHeader (g : Segment) (volume : List Byte) (serial fw boot : Nat) : List Byte :=
  withCrc ([0x56, 0x51, 0x53, 0x47] ++ leBytes 2 g.version ++ zeros 2 ++ leBytes 8 g.seq ++ (volume ++ zeros 16).take 16
    ++ leBytes 8 serial ++ leBytes 4 fw ++ leBytes 4 boot ++ leBytes 8 g.openNs ++ leBytes 6 g.openTick ++ zeros 2
    ++ zeros 4 ++ zeros 4028) 64

/-- First and last of a list of ticks, 0 when it is empty. -/
def firstOf (l : List Nat) : Nat := match l with | [] => 0 | a :: t => earliestTick a t
def lastOf (l : List Nat) : Nat := match l with | [] => 0 | a :: t => t.foldl laterTick a

/-- An index entry. -/
def indexEntry (x : SegSpan) : List Byte :=
  leBytes 4 x.off ++ leBytes 4 x.len ++ leBytes 1 x.stream ++ leBytes 1 x.mode ++ leBytes 1 x.flags ++ zeros 1
    ++ leBytes 4 x.no ++ leBytes 6 x.first ++ zeros 2 ++ leBytes 6 x.last ++ zeros 2

/-- Streams with spans in a segment, ascending. -/
def segStreams (xs : List SegSpan) : List Nat := (List.range 256).filter (fun i => xs.any (fun x => x.stream == i))

/-- A stream summary entry. -/
def summaryEntry (xs : List SegSpan) (i : Nat) : List Byte :=
  let l := xs.filter (fun x => x.stream == i)
  leBytes 1 i ++ zeros 1 ++ leBytes 2 l.length ++ leBytes 6 (firstOf (l.map SegSpan.first))
    ++ leBytes 6 (lastOf (l.map SegSpan.last))

/-- The footer, filled up to whole LBAs. -/
def footerBytes (g : Segment) (lba now : Nat) : List Byte :=
  let ss := if g.version = 2 then segStreams g.spans else []
  padTo lba <| withCrc ([0x56, 0x51, 0x46, 0x54] ++ leBytes 2 g.version ++ zeros 2 ++ leBytes 8 g.seq ++ leBytes 4 g.spans.length
    ++ leBytes 4 ss.length ++ leBytes 4 g.used ++ leBytes 1 g.cause ++ zeros 3 ++ leBytes 6 (firstOf (g.spans.map SegSpan.first))
    ++ zeros 2 ++ leBytes 6 (lastOf (g.spans.map SegSpan.last)) ++ zeros 2 ++ leBytes 8 now ++ zeros 8
    ++ (g.spans.map indexEntry).flatten ++ (ss.map (summaryEntry g.spans)).flatten) 56

/-! ### Spans (R306–R308) -/

/-- Raw content of a span. -/
def spanRaw (sp : Span) : List Byte := (sp.recs.map (fun x => recBytes x.r)).flatten

/-- The course table: ticks with the offset of their first record. -/
def courseTable (rs : List ShareRec) (last : Option Nat) (off : Nat) : List (Nat × Nat) :=
  match rs with
  | [] => []
  | x :: t =>
    (if last = some x.tick then [] else [(x.tick, off)]) ++ courseTable t (some x.tick) (off + recSize x.r)

/-- HDR_LEN. -/
def hdrLen (courses : Nat) : Nat := roundUp 64 (64 + 8 * courses)

/-- LENGTH of a span on a drive. -/
def spanLen (sp : Span) : Nat :=
  let courses := if sp.gap then 1 else (courseTable sp.recs none 0).length
  hdrLen courses + roundUp 16 ((sp.stored.map (fun x => x.2.length)).getD 0)

/-- FLAGS of a span. -/
def spanFlags (sp : Span) : Nat :=
  b2n (bit sp.pol.flags 1) + 2 * b2n sp.gap + 4 * b2n sp.splitS + 8 * b2n sp.splitE

/-- The stored payload encrypted in data units (R308): `at` is the namespace byte of the payload, `seq` the segment's. -/
def xtsUnits (fuel : Nat) (key : List Byte) (at_ seq : Nat) (bs : List Byte) : List Byte :=
  match fuel with
  | 0 => []
  | k + 1 =>
    if bs.isEmpty then []
    else
      let u := bs.take 4096
      aesXts key (leBytes 8 at_ ++ leBytes 8 seq) u ++ xtsUnits k key (at_ + 4096) seq (bs.drop 4096)

/-- A span's bytes as they are written at namespace byte `at_` of segment `seq`. -/
def spanBytes (sp : Span) (key : List Byte) (at_ seq : Nat) : List Byte :=
  let raw := spanRaw sp
  let (mode, stored) := sp.stored.getD (0, raw)
  let tab := if sp.gap then [(sp.first, 0)] else courseTable sp.recs none 0
  let h := hdrLen tab.length
  let xts := bit sp.pol.flags 1
  let pad := padTo 16 stored
  let pay := if xts then xtsUnits (pad.length / 4096 + 1) key (at_ + h) seq pad else pad
  let head := [0x56, 0x51, 0x53, 0x50] ++ leBytes 1 mode ++ leBytes 1 (spanFlags sp) ++ leBytes 1 sp.stream
    ++ leBytes 1 (if xts then sp.pol.xtsSlot else 0) ++ leBytes 6 sp.first ++ leBytes 2 tab.length ++ leBytes 6 sp.last ++ zeros 2
    ++ leBytes 4 raw.length ++ leBytes 4 stored.length ++ leBytes 4 sp.recs.length ++ leBytes 4 h ++ leBytes 4 sp.no
    ++ leBytes 4 seq ++ leBytes 4 (crc32c raw) ++ leBytes 4 (crc32c pay) ++ zeros 8
    ++ (tab.map (fun e => leBytes 4 (e.1 - sp.first) ++ leBytes 4 e.2)).flatten
  withCrc (head ++ zeros (h - head.length)) 56 ++ pay

/-! ### What the device reads back at a mount (R304, R311, R312) -/

/-- A segment header is valid for a sequence number (R304). -/
def headerOk (b volume : List Byte) (seq : Nat) : Bool :=
  b.length == 4096 && b.take 4 == [0x56, 0x51, 0x53, 0x47] && crcOk b 64 && bsub b 16 16 == volume && leAt b 8 8 == seq
    && allZero b 6 2 && allZero b 62 2 && allZero b 68 4028

/-- The course table of a span header obeys R307: `n` entries from `off` on, above the tick and the offset before. -/
def tableOk (n : Nat) (b : List Byte) (off raw : Nat) (last : Option (Nat × Nat)) : Bool :=
  match n with
  | 0 => true
  | k + 1 =>
    let t := leAt b off 4
    let r := leAt b (off + 4) 4
    (match last with | some l => decide (l.1 < t ∧ l.2 < r) | none => t == 0 && r == 0) && decide (r < raw)
      && tableOk k b (off + 8) raw (some (t, r))

/-- The span copy that starts at segment offset `off` with bytes `b` passes (R312): its index entry. -/
def spanPass (b : List Byte) (off seq : Nat) : Option SegSpan :=
  let n := leAt b 14 2
  let h := leAt b 36 4
  let len := h + roundUp 16 (leAt b 28 4)
  if b.take 4 == [0x56, 0x51, 0x53, 0x50] && n != 0 && h == hdrLen n && decide (len ≤ b.length) && crcOk (b.take h) 56
      && leAt b 44 4 == seq % 2 ^ 32 && decide (off + len ≤ footerOff) && leAt b 52 4 == crc32c (bsub b h (len - h))
      && tableOk n b 64 (leAt b 24 4) none && decide (leAt b 5 1 < 16) && allZero b 22 2 && allZero b 60 4
      && allZero b (64 + 8 * n) (h - (64 + 8 * n)) && (!bit (leAt b 5 1) 1 || n == 1) then
    some ⟨0, off, len, leAt b 6 1, leAt b 4 1, leAt b 5 1, leAt b 40 4, leAt b 8 6, leAt b 16 6, true⟩
  else none

/-- What lies at an offset of the span area, as far as it was read. -/
def areaAt (area : List (Nat × List Byte)) (off : Nat) : List Byte :=
  match area.find? (fun p => p.1 == off) with
  | some p => p.2
  | none => []

/-- The scan of step 3 of R311 from offset `off` on. -/
def spanScan (fuel : Nat) (area : List (Nat × List Byte)) (seq off : Nat) : List SegSpan :=
  match fuel with
  | 0 => []
  | k + 1 =>
    match spanPass (areaAt area off) off seq with
    | some x => x :: spanScan k area seq (roundUp 4096 (off + x.len))
    | none => []

/-- A footer is valid for a sequence number, and every span it lists passes (R311 step 2). -/
def footerOk (b : List Byte) (area : List (Nat × List Byte)) (seq : Nat) : Bool :=
  let n := leAt b 16 4
  let m := leAt b 20 4
  let len := 64 + 32 * n + 16 * m
  b.take 4 == [0x56, 0x51, 0x46, 0x54] && leAt b 8 8 == seq && decide (n ≤ 16127 ∧ m ≤ 256 ∧ len ≤ b.length)
    && crcOk (b.take len) 56 && allZero b 6 2 && allZero b 29 3 && allZero b 38 2 && allZero b 46 2 && allZero b 60 4
    && (List.range n).all (fun i =>
      let off := leAt b (64 + 32 * i) 4
      (spanPass (areaAt area off) off seq).isSome)

/-- What a mount finds of the segment with sequence number `seq` (R311): nothing; or it is accepted as it stands (`none` within),
or sealed with the spans that the scan accepts. -/
def segFound (d : DriveId) (volume : List Byte) (seq : Nat) : Option (Option (List SegSpan)) :=
  if !headerOk d.header volume seq then none
  else if footerOk d.footer d.area seq then some none
  else some (some (spanScan 16127 d.area seq 4096))

end Sys2Proof.Machine
end

