-- ==== Sys2Proof/Machine/KeeperIsa.lean ====
section
/-!
DEFINITION. The keeper's instruction set at level 1 (05, R120–R144): the instructions, and the decoder from halfwords.
-/
namespace Sys2Proof.Machine

/-- Data register operations (R124), in the order of OP. -/
inductive DOp where
  | mov | add | sub | and | or | xor | not | neg | shl | shr | sar | rol | minu | maxu | swn
deriving DecidableEq, Repr

/-- Data immediates (R125). -/
inductive DImm where
  | movi | addi | andi | ori
deriving DecidableEq, Repr

/-- Data shifts by an immediate (R125). -/
inductive DSh where
  | shl | shr | sar | rol
deriving DecidableEq, Repr

/-- Address register operations and transfers (R126) that name two registers. -/
inductive AOp where
  | movW | addW | subW | addxW | movlB | movhB | movzW | inshW
  | movzLD | movsLD | movzLA | movsLA | movBQ | movWQ | shinL | shoutL
deriving DecidableEq, Repr

/-- Accumulator register operations (R127), in the order of op. -/
inductive QOp where
  | mov | add | sub | and | or | xor | neg | not | mul | mulu | mac | macu | shl | shr | sar
deriving DecidableEq, Repr

/-- Accumulator shifts by an immediate (R128). -/
inductive QSh where
  | shl | shr | sar | ror
deriving DecidableEq, Repr

/-- Two-operand memory-to-memory operations (R133). -/
inductive M2Op where
  | mov | add | sub | and | or | xor | not | neg
deriving DecidableEq, Repr

/-- Three-operand memory-to-memory operations (R133). -/
inductive M3Op where
  | add | sub | and | or | xor | minu | maxu
deriving DecidableEq, Repr

/-- Conditions of a compare-and-branch (R135). -/
inductive Cond where
  | eq | ne | lt | ge | ltu | geu | any | none
deriving DecidableEq, Repr

/-- Register classes of a compare-and-branch. -/
inductive Cls where
  | d | a | q
deriving DecidableEq, Repr

/-- An operand of a memory-to-memory form: mode and register (R132). -/
structure MOpnd where
  mode : BitVec 3
  reg  : BitVec 3
deriving DecidableEq, Repr

/-- The instructions of level 1. -/
inductive KInstr where
  | dreg (op : DOp) (d s : BitVec 3)
  | dimm (op : DImm) (d : BitVec 3) (imm : Byte)
  | dsh (op : DSh) (d u : BitVec 3)
  | areg (op : AOp) (x y : BitVec 3)
  | addqW (x : BitVec 3) (simm : BitVec 5)
  | qreg (op : QOp) (d s : BitVec 2)
  | qsh (op : QSh) (q : BitVec 2) (u : BitVec 5)
  | addqL (q : BitVec 2) (simm : BitVec 6)
  | moviW (n : BitVec 3) (imm : Half)
  | addiW (n : BitVec 3) (imm : Half)
  | moviL (q : BitVec 2) (imm : Half)
  | movhiL (q : BitVec 2) (imm : Half)
  | addiL (q : BitVec 2) (imm : Half)
  | bfx (d s : BitVec 2) (pos wm1 : BitVec 5)
  | bfi (d s : BitVec 2) (pos wm1 : BitVec 5)
  | divq (d : BitVec 2) (x : BitVec 3)
  | ldB (d n : BitVec 3) (u : BitVec 5)
  | stB (d n : BitVec 3) (u : BitVec 5)
  | ldW (a n : BitVec 3) (u : BitVec 5)
  | stW (a n : BitVec 3) (u : BitVec 5)
  | ldL (q : BitVec 2) (n : BitVec 3) (u : BitVec 6)
  | stL (q : BitVec 2) (n : BitVec 3) (u : BitVec 6)
  | mm2 (op : M2Op) (dst src : MOpnd) (x : BitVec 12)
  | mm3 (op : M3Op) (dst a b : MOpnd) (x : BitVec 6)
  | cbP (cond : Cond) (cls : Cls) (r s : BitVec 3) (k : BitVec 4)
  | cb (cond : Cond) (cls : Cls) (r s : BitVec 3) (target : Half)
  | cbi (cond : Cond) (r : BitVec 3) (imm : Byte) (disp : BitVec 11)
  | jmpP (k : BitVec 4)
  | callP (k : BitVec 4)
  | retP
  | jmp (target : Half)
  | call (target : Half)
  | jmpI (n : BitVec 3)
  | callI (n : BitVec 3)
  | ret
  | tbl (k : BitVec 4) (target : Half)
  | tas (d n : BitVec 3)
  | lrB (d n : BitVec 3)
  | scB (d n : BitVec 3)
  | repImm (u : Byte)
  | repReg (n : BitVec 3)
  | nop
  | yield
  | reti
  | iflush
  | sys (imm : Byte)
  | brk (imm : Byte)
  | waitev (mask : Byte)
  | signal (t : BitVec 3)
deriving DecidableEq, Repr

/-- Bits `hi` down to `lo` of a halfword as a number. -/
def bits (h : Half) (hi lo : Nat) : Nat := (h.toNat / 2 ^ lo) % 2 ^ (hi + 1 - lo)

/-- The field of width `w` at bit `lo` of a halfword. -/
def fieldAt (w : Nat) (h : Half) (lo : Nat) : BitVec w := BitVec.ofNat w (h.toNat / 2 ^ lo)

/-- A first halfword begins a long form when its top two bits are 0b11 (R120). -/
def isLong (h0 : Half) : Bool := bits h0 15 14 == 3

/-- Length of an instruction in halfwords. -/
def kLen (h0 : Half) : Nat := if isLong h0 then 2 else 1

/-- Group 0x0, system and control (R122, R136, R138, R140, R142). -/
def decodeSys (h : Half) : Option KInstr :=
  let lo := fieldAt 8 h 0
  match bits h 11 8 with
  | 0x0 => match bits h 7 0 with
    | 1 => some .nop | 2 => some .yield | 3 => some .ret | 4 => some .retP | 5 => some .reti | 6 => some .iflush
    | _ => none
  | 0x1 => some (.sys lo)
  | 0x2 => some (.brk lo)
  | 0x3 => if lo = 0 then none else some (.waitev lo)
  | 0x4 => if bits h 7 3 = 0 then some (.signal (fieldAt 3 h 0)) else none
  | 0x5 => some (.repImm lo)
  | 0x6 => if bits h 7 3 = 0 then some (.repReg (fieldAt 3 h 0)) else none
  | 0x7 => if bits h 7 4 = 0 then some (.jmpP (fieldAt 4 h 0)) else none
  | 0x8 => if bits h 7 4 = 0 then some (.callP (fieldAt 4 h 0)) else none
  | 0x9 => if bits h 7 6 = 0 then some (.tas (fieldAt 3 h 3) (fieldAt 3 h 0)) else none
  | 0xA => if bits h 7 6 = 0 then some (.lrB (fieldAt 3 h 3) (fieldAt 3 h 0)) else none
  | 0xB => if bits h 7 6 = 0 then some (.scB (fieldAt 3 h 3) (fieldAt 3 h 0)) else none
  | _ => none

/-- Data register operation by OP (R124). -/
def dOpOf (n : Nat) : Option DOp :=
  match n with
  | 0 => some .mov | 1 => some .add | 2 => some .sub | 3 => some .and | 4 => some .or | 5 => some .xor
  | 6 => some .not | 7 => some .neg | 8 => some .shl | 9 => some .shr | 10 => some .sar | 11 => some .rol
  | 12 => some .minu | 13 => some .maxu | 14 => some .swn | _ => none

/-- Accumulator register operation by op (R127). -/
def qOpOf (n : Nat) : Option QOp :=
  match n with
  | 0 => some .mov | 1 => some .add | 2 => some .sub | 3 => some .and | 4 => some .or | 5 => some .xor
  | 6 => some .neg | 7 => some .not | 8 => some .mul | 9 => some .mulu | 10 => some .mac | 11 => some .macu
  | 12 => some .shl | 13 => some .shr | 14 => some .sar | _ => none

/-- Condition by number (R135). -/
def condOf (n : Nat) : Cond :=
  match n with
  | 0 => .eq | 1 => .ne | 2 => .lt | 3 => .ge | 4 => .ltu | 5 => .geu | 6 => .any | _ => .none

/-- The A class has no signed conditions (R135). -/
def condOk (c : Cond) (cl : Cls) : Bool :=
  match cl, c with
  | .a, .lt => false
  | .a, .ge => false
  | _, _ => true

/-- Group 0x7, address, accumulator and transfer operations (R125–R128, R130). -/
def decodeAcc (h : Half) : Option KInstr :=
  let x := fieldAt 3 h 3
  let y := fieldAt 3 h 0
  match bits h 11 8 with
  | 0x0 => if bits h 7 6 = 0 then some (.areg .movW x y) else none
  | 0x1 => if bits h 7 6 = 0 then some (.areg .addW x y) else none
  | 0x2 => if bits h 7 6 = 0 then some (.areg .subW x y) else none
  | 0x3 => some (.addqW (fieldAt 3 h 5) (fieldAt 5 h 0))
  | 0x4 => if bits h 7 6 = 0 then some (.areg .addxW x y) else none
  | 0x5 => match bits h 7 6 with
    | 0 => some (.areg .movlB x y) | 1 => some (.areg .movhB x y)
    | 2 => some (.areg .movzW x y) | _ => some (.areg .inshW x y)
  | 0x6 =>
    let q := BitVec.ofNat 3 (bits h 4 3)
    match bits h 7 5 with
    | 0 => some (.areg .movzLD q y) | 1 => some (.areg .movsLD q y) | 2 => some (.areg .movzLA q y)
    | 3 => some (.areg .movsLA q y) | 4 => some (.areg .movBQ q y) | 5 => some (.areg .movWQ q y)
    | 6 => some (.areg .shinL q y) | _ => some (.areg .shoutL q y)
  | 0x7 => (qOpOf (bits h 7 4)).map fun op => .qreg op (fieldAt 2 h 2) (fieldAt 2 h 0)
  | 0x8 => if bits h 7 5 = 0 then some (.divq (fieldAt 2 h 3) y) else none
  | 0x9 => some (.qsh (if bits h 7 7 = 0 then .shl else .shr) (fieldAt 2 h 5) (fieldAt 5 h 0))
  | 0xA => some (.qsh (if bits h 7 7 = 0 then .sar else .ror) (fieldAt 2 h 5) (fieldAt 5 h 0))
  | 0xB => match bits h 7 6 with
    | 0 => some (.dsh .shl x y) | 1 => some (.dsh .shr x y) | 2 => some (.dsh .sar x y) | _ => some (.dsh .rol x y)
  | 0xC => some (.addqL (fieldAt 2 h 0) (fieldAt 6 h 2))
  | _ => none

/-- A short form (R122). -/
def decodeShort (h : Half) : Option KInstr :=
  match bits h 15 12 with
  | 0x0 => decodeSys h
  | 0x1 => if bits h 1 0 = 0 then (dOpOf (bits h 11 8)).map fun op => .dreg op (fieldAt 3 h 5) (fieldAt 3 h 2) else none
  | 0x2 => some (.dimm (if bits h 11 11 = 0 then .movi else .addi) (fieldAt 3 h 8) (fieldAt 8 h 0))
  | 0x3 => some (.dimm (if bits h 11 11 = 0 then .andi else .ori) (fieldAt 3 h 8) (fieldAt 8 h 0))
  | 0x4 => some (if bits h 11 11 = 0 then .ldB (fieldAt 3 h 8) (fieldAt 3 h 5) (fieldAt 5 h 0)
                 else .stB (fieldAt 3 h 8) (fieldAt 3 h 5) (fieldAt 5 h 0))
  | 0x5 => some (if bits h 11 11 = 0 then .ldW (fieldAt 3 h 8) (fieldAt 3 h 5) (fieldAt 5 h 0)
                 else .stW (fieldAt 3 h 8) (fieldAt 3 h 5) (fieldAt 5 h 0))
  | 0x6 => some (if bits h 11 11 = 0 then .ldL (fieldAt 2 h 9) (fieldAt 3 h 6) (fieldAt 6 h 0)
                 else .stL (fieldAt 2 h 9) (fieldAt 3 h 6) (fieldAt 6 h 0))
  | 0x7 => decodeAcc h
  | _ =>
    let c := condOf (bits h 13 11)
    let cl : Cls := if bits h 10 10 = 0 then .d else .a
    if condOk c cl then some (.cbP c cl (fieldAt 3 h 7) (fieldAt 3 h 4) (fieldAt 4 h 0)) else none

/-- The 0xC000–0xCFFF long forms (R123, R136). -/
def decodeBranch (h0 h1 : Half) : Option KInstr :=
  if bits h0 11 11 = 0 then
    let c := condOf (bits h0 10 8)
    let r := fieldAt 3 h0 3
    let s := fieldAt 3 h0 0
    match bits h0 7 6 with
    | 0 => some (.cb c .d r s h1)
    | 1 => if condOk c .a then some (.cb c .a r s h1) else none
    | 2 => if bits h0 5 5 = 0 ∧ bits h0 2 2 = 0 then some (.cb c .q r s h1) else none
    | _ => none
  else match bits h0 10 9 with
    | 0 => some (.cbi (condOf (bits h0 8 6)) (fieldAt 3 h0 3)
        (BitVec.ofNat 8 (bits h0 2 0 * 32 + bits h1 15 11)) (fieldAt 11 h1 0))
    | 1 =>
      if bits h0 6 3 ≠ 0 then none
      else if bits h0 7 7 = 0 then
        if bits h0 2 0 ≠ 0 then none else some (if bits h0 8 8 = 0 then .jmp h1 else .call h1)
      else if h1 ≠ 0 then none
      else some (if bits h0 8 8 = 0 then .jmpI (fieldAt 3 h0 0) else .callI (fieldAt 3 h0 0))
    | 2 => if bits h0 8 4 = 0 then some (.tbl (fieldAt 4 h0 0) h1) else none
    | _ => none

/-- The 0xD000–0xDFFF long immediates and bit fields (R129). -/
def decodeImm (h0 h1 : Half) : Option KInstr :=
  match bits h0 11 9 with
  | 0 => if bits h0 8 3 = 0 then some (.moviW (fieldAt 3 h0 0) h1) else none
  | 1 => if bits h0 8 3 = 0 then some (.addiW (fieldAt 3 h0 0) h1) else none
  | 2 => if bits h0 8 2 = 0 then some (.moviL (fieldAt 2 h0 0) h1) else none
  | 3 => if bits h0 8 2 = 0 then some (.movhiL (fieldAt 2 h0 0) h1) else none
  | 4 => if bits h0 8 2 = 0 then some (.addiL (fieldAt 2 h0 0) h1) else none
  | 5 =>
    if bits h1 9 0 ≠ 0 ∨ 32 < bits h0 4 0 + bits h1 15 11 + 1 then none
    else
      let d := fieldAt 2 h0 7
      let s := fieldAt 2 h0 5
      let pos := fieldAt 5 h0 0
      let wm1 := fieldAt 5 h1 11
      some (if bits h1 10 10 = 0 then .bfx d s pos wm1 else .bfi d s pos wm1)
  | _ => none

/-- A mode that uses X (R132). -/
def usesX (m : BitVec 3) : Bool := m == 3 || m == 4 || m == 5 || m == 6

/-- Two-operand operation by op (R133). -/
def m2OpOf (n : Nat) : M2Op :=
  match n with
  | 0 => .mov | 1 => .add | 2 => .sub | 3 => .and | 4 => .or | 5 => .xor | 6 => .not | _ => .neg

/-- Three-operand operation by op (R133). -/
def m3OpOf (n : Nat) : Option M3Op :=
  match n with
  | 0 => some .add | 1 => some .sub | 2 => some .and | 3 => some .or | 4 => some .xor | 5 => some .minu
  | 6 => some .maxu | _ => none

/-- The memory-to-memory forms (R123, R132, R133). -/
def decodeMm (h0 h1 : Half) : Option KInstr :=
  let dst : MOpnd := ⟨fieldAt 3 h0 5, fieldAt 3 h0 2⟩
  let src : MOpnd := ⟨BitVec.ofNat 3 (bits h0 1 0 * 2 + bits h1 15 15), fieldAt 3 h1 12⟩
  if bits h0 11 11 = 0 then
    let x := fieldAt 12 h1 0
    if usesX dst.mode && usesX src.mode then none
    else if !usesX dst.mode && !usesX src.mode && x != 0 then none
    else if (dst.mode == 4 || src.mode == 4) && bits h1 11 3 != 0 then none
    else some (.mm2 (m2OpOf (bits h0 10 8)) dst src x)
  else
    let b : MOpnd := ⟨fieldAt 3 h1 9, fieldAt 3 h1 6⟩
    let x := fieldAt 6 h1 0
    let uses := [dst.mode, src.mode, b.mode].filter usesX
    if uses.length > 1 then none
    else if uses.length == 0 && x != 0 then none
    else if uses.any (fun m => m == 5 || m == 6) then none
    else if uses.any (· == 4) && bits h1 5 3 != 0 then none
    else (m3OpOf (bits h0 10 8)).map fun op => .mm3 op dst src b x

/-- The instruction that halfwords H0 and H1 spell; `none` is an undefined encoding (R144). H1 is not looked at for a
short form. -/
def kDecode (h0 h1 : Half) : Option KInstr :=
  if isLong h0 then
    match bits h0 13 12 with
    | 0 => decodeBranch h0 h1
    | 1 => decodeImm h0 h1
    | 2 => none
    | _ => decodeMm h0 h1
  else decodeShort h0

/-- Instructions that may not stand under REP (R141). -/
def repForbidden (i : KInstr) : Bool :=
  match i with
  | .cbP .. | .cb .. | .cbi .. | .jmpP .. | .jmp .. | .jmpI .. | .callP .. | .call .. | .callI .. | .retP | .ret
  | .reti | .repImm .. | .repReg .. | .sys .. | .brk .. | .tbl .. | .iflush | .lrB .. | .scB .. | .tas .. | .divq ..
  | .yield | .waitev .. => true
  | _ => false

/-- Thread cycles of each form (R143). -/
def kCycles (i : KInstr) : Nat :=
  match i with
  | .mm2 .. => 3
  | .mm3 .. => 4
  | .cb .. | .cbi .. | .jmp .. | .jmpI .. | .call .. | .callI .. | .ret => 3
  | .tbl .. | .iflush => 4
  | .divq .. => 17
  | .tas .. | .scB .. | .sys .. | .brk .. => 2
  | .reti => 3
  | _ => 1

end Sys2Proof.Machine
end

