-- ==== Sys2Proof/Machine/Flags.lean ====
section
/-!
DEFINITION. What the keeper's instructions compute. The keeper has no flags (05, R116): an operation's result is all it
leaves, and conditions are computed by the compare-and-branch forms themselves (R135).
-/
namespace Sys2Proof.Machine

/-- Rotate left by a number of places. -/
def rotl {w : Nat} (x : BitVec w) (n : Nat) : BitVec w := x.rotateLeft n

/-- Data register operations (R124); a shift count is Ds[2:0]. -/
def dOpVal (op : DOp) (d s : Byte) : Byte :=
  let n := s.toNat % 8
  match op with
  | .mov => s
  | .add => d + s
  | .sub => d - s
  | .and => d &&& s
  | .or  => d ||| s
  | .xor => d ^^^ s
  | .not => ~~~ s
  | .neg => 0 - s
  | .shl => d <<< n
  | .shr => d >>> n
  | .sar => d.sshiftRight n
  | .rol => rotl d n
  | .minu => if d.toNat ≤ s.toNat then d else s
  | .maxu => if d.toNat ≤ s.toNat then s else d
  | .swn => BitVec.ofNat 8 (s.toNat % 16 * 16 + s.toNat / 16)

/-- Data immediates (R125). -/
def dImmVal (op : DImm) (d imm : Byte) : Byte :=
  match op with
  | .movi => imm
  | .addi => d + imm
  | .andi => d &&& imm
  | .ori  => d ||| imm

/-- Data shifts by an immediate (R125). -/
def dShVal (op : DSh) (d : Byte) (u : Nat) : Byte :=
  match op with
  | .shl => d <<< u
  | .shr => d >>> u
  | .sar => d.sshiftRight u
  | .rol => rotl d u

/-- The low and the high half of an accumulator as signed numbers, and their product (R127). -/
def sProd (q : Long) : Long :=
  BitVec.ofInt 32 ((BitVec.ofNat 16 q.toNat).toInt * (BitVec.ofNat 16 (q.toNat / 65536)).toInt)

/-- The product of the unsigned halves of an accumulator (R127). -/
def uProd (q : Long) : Long := BitVec.ofNat 32 (q.toNat % 65536 * (q.toNat / 65536))

/-- Accumulator register operations (R127); a shift count is Qs[4:0]. -/
def qOpVal (op : QOp) (d s : Long) : Long :=
  let n := s.toNat % 32
  match op with
  | .mov => s
  | .add => d + s
  | .sub => d - s
  | .and => d &&& s
  | .or  => d ||| s
  | .xor => d ^^^ s
  | .neg => 0 - s
  | .not => ~~~ s
  | .mul => sProd s
  | .mulu => uProd s
  | .mac => d + sProd s
  | .macu => d + uProd s
  | .shl => d <<< n
  | .shr => d >>> n
  | .sar => d.sshiftRight n

/-- Accumulator shifts by an immediate (R128). -/
def qShVal (op : QSh) (q : Long) (u : Nat) : Long :=
  match op with
  | .shl => q <<< u
  | .shr => q >>> u
  | .sar => q.sshiftRight u
  | .ror => q.rotateRight u

/-- Two-operand memory-to-memory operations on bytes (R133). -/
def m2Val (op : M2Op) (d s : Byte) : Byte :=
  match op with
  | .mov => s
  | .add => d + s
  | .sub => d - s
  | .and => d &&& s
  | .or  => d ||| s
  | .xor => d ^^^ s
  | .not => ~~~ s
  | .neg => 0 - s

/-- Three-operand memory-to-memory operations on bytes (R133). -/
def m3Val (op : M3Op) (a b : Byte) : Byte :=
  match op with
  | .add => a + b
  | .sub => a - b
  | .and => a &&& b
  | .or  => a ||| b
  | .xor => a ^^^ b
  | .minu => if a.toNat ≤ b.toNat then a else b
  | .maxu => if a.toNat ≤ b.toNat then b else a

/-- BFX: bits `pos` to `pos + w − 1` of `s`, zero-extended (R129). -/
def bfxVal (s : Long) (pos w : Nat) : Long := BitVec.ofNat 32 (s.toNat / 2 ^ pos % 2 ^ w)

/-- BFI: bits `pos` to `pos + w − 1` of `d` replaced by the low `w` bits of `s` (R129). -/
def bfiVal (d s : Long) (pos w : Nat) : Long :=
  let mask := (2 ^ w - 1) * 2 ^ pos
  BitVec.ofNat 32 (d.toNat - (d.toNat &&& mask) + s.toNat % 2 ^ w * 2 ^ pos)

/-- DIVQ: quotient in the low and remainder in the high half; `none` is the DIV trap (R130). -/
def divqVal (q : Long) (x : Half) : Option Long :=
  if x = 0 ∨ q.toNat / 65536 ≥ x.toNat then none
  else some (BitVec.ofNat 32 (q.toNat % x.toNat * 65536 + q.toNat / x.toNat))

/-- A condition on two values of one width (R135). -/
def condHolds {w : Nat} (c : Cond) (r s : BitVec w) : Bool :=
  match c with
  | .eq => r == s
  | .ne => r != s
  | .lt => decide (r.toInt < s.toInt)
  | .ge => decide (s.toInt ≤ r.toInt)
  | .ltu => decide (r.toNat < s.toNat)
  | .geu => decide (s.toNat ≤ r.toNat)
  | .any => (r &&& s) != 0
  | .none => (r &&& s) == 0

end Sys2Proof.Machine
end

