-- ==== Sys2Proof/Machine/Operands.lean ====
section
/-!
DEFINITION. The keeper's registers and operand forms: register reads and writes with the load delay of R119, the regions
of the data space (R25, R118) and the operand modes of the memory-to-memory forms (R132, R134).
-/
namespace Sys2Proof.Machine

/-- Data register. -/
def Thread.getD (th : Thread) (i : BitVec 3) : Byte := th.d[i.toNat]
/-- Address register. -/
def Thread.getA (th : Thread) (i : BitVec 3) : Half := th.a[i.toNat]
/-- Accumulator. -/
def Thread.getQ (th : Thread) (i : BitVec 2) : Long := th.q[i.toNat]

/-- An instruction's write to a register stands over a delayed load into it (R119). -/
def Thread.dropLoad (th : Thread) (x : LoadDst) : Thread :=
  { th with loads := th.loads.filter (fun l => l.dst != x) }

/-- Write a data register. -/
def Thread.setD (th : Thread) (i : BitVec 3) (v : Byte) : Thread :=
  let th := th.dropLoad (.d i)
  { th with d := th.d.set i.toNat v }

/-- Write an address register. -/
def Thread.setA (th : Thread) (i : BitVec 3) (v : Half) : Thread :=
  let th := th.dropLoad (.a i)
  { th with a := th.a.set i.toNat v }

/-- Write an accumulator. -/
def Thread.setQ (th : Thread) (i : BitVec 2) (v : Long) : Thread :=
  let th := th.dropLoad (.q i)
  { th with q := th.q.set i.toNat v }

/-- Put a loaded value into its register. -/
def Thread.commitLoad (th : Thread) (l : PendLoad) : Thread :=
  match l.dst with
  | .d i => { th with d := th.d.set i.toNat (BitVec.ofNat 8 l.value.toNat) }
  | .a i => { th with a := th.a.set i.toNat (BitVec.ofNat 16 l.value.toNat) }
  | .q i => { th with q := th.q.set i.toNat l.value }

/-- Complete every delayed load (R156 step 1). -/
def Thread.commitAll (th : Thread) : Thread :=
  { th.loads.foldl Thread.commitLoad th with loads := [] }

/-- One instruction has issued: every load on its way has been seen old once more (R119). -/
def Thread.ageLoads (th : Thread) : Thread :=
  { (th.loads.filter (fun l => l.delay ≤ 1)).foldl Thread.commitLoad th with
    loads := (th.loads.filter (fun l => 1 < l.delay)).map (fun l => { l with delay := l.delay - 1 }) }

/-- A load issues: its value becomes visible after `delay` further instructions; its own issue ages it too. -/
def Thread.addLoad (th : Thread) (delay : Nat) (dst : LoadDst) (v : Long) : Thread :=
  let th := th.dropLoad dst
  { th with loads := th.loads ++ [⟨delay + 1, dst, v⟩] }

/-- The regions of a thread's data space (R25). -/
inductive Region where
  | shared | priv | io | window
deriving DecidableEq, Repr

/-- The region of a byte address; `none` in the reserved range and beyond 0xFFFF. -/
def regionOf (a : Nat) : Option Region :=
  if a < 0xA000 then some .shared
  else if a < 0xA800 then some .priv
  else if a < 0xB000 then none
  else if a < 0xC000 then some .io
  else if a < 0x10000 then some .window
  else none

/-- The first failing address of an access of `n` bytes at `a` (R118, R158), if it fails. `only` restricts the access to
one region (R138). -/
def alignFail (only : Option Region) (a n : Nat) : Option Nat :=
  match regionOf a with
  | none => some a
  | some r =>
    if only.isSome && only != some r then some a
    else ((List.range n).map (a + ·)).find? (fun x => regionOf x != some r)

/-- The load delay of a region (R119). -/
def loadDelay (a : Nat) : Nat := if regionOf a = some .io then 2 else 1

/-- Where a memory-to-memory operand lies. -/
inductive OpPlace where
  | mem (a : Nat)
  | reg (i : BitVec 3)
deriving DecidableEq, Repr

/-- Form one operand (R132, R134 phase 1): its place, and the address registers after its pre-decrement or
post-increment. `d` are the data registers before the instruction. -/
def formOpnd (a : Vector Half 8) (d : Vector Byte 8) (o : MOpnd) (x : Nat) : OpPlace × Vector Half 8 :=
  let i := o.reg.toNat
  let an := a[o.reg.toNat]
  match o.mode.toNat with
  | 0 => (.mem an.toNat, a)
  | 1 => (.mem an.toNat, a.set o.reg.toNat (an + 1))
  | 2 => (.mem (an - 1).toNat, a.set o.reg.toNat (an - 1))
  | 3 => (.mem (an.toNat + x), a)
  | 4 => (.mem (an.toNat + (d[x % 8]).toNat), a)
  | 5 => (.mem (i * 0x1000 + x), a)
  | 6 => (.mem (0x8000 + i * 0x1000 + x), a)
  | _ => (.reg o.reg, a)

/-- The failing address of an operand, if it fails R118. -/
def placeFail (p : OpPlace) : Option Nat :=
  match p with
  | .mem a => alignFail none a 1
  | .reg _ => none

end Sys2Proof.Machine
end

