-- ==== Sys2Proof/Machine/Interrupts.lean ====
section
/-!
DEFINITION. The event log (16), the interrupt controller (14), the device state and the fault collector's latch (01, 15).
-/
namespace Sys2Proof.Machine

/-! ### Event log and console (R363, R373, R374) -/

/-- Decimal digits as ASCII bytes. -/
def asciiNat (base n : Nat) : List Byte := (Nat.toDigits base n).map (fun c => BitVec.ofNat 8 c.toNat)

/-- A console line `TH <boot> <tick> <code> <text>` (R363); the spec gives no text. -/
def consoleLine (s : State) (code : Nat) : State :=
  s.emit (.console code ([0x54, 0x48, 0x20] ++ asciiNat 10 s.toll.boot ++ [0x20] ++ asciiNat 10 s.tick ++ [0x20]
    ++ asciiNat 16 code ++ [0x0D, 0x0A]))

/-- Write an entry into the event log. The spec gives no code its SEVERITY: it is a free value; an entry of severity 2 has
a console line. -/
def logWrite (s : State) (src code : Nat) (data : List Byte) : State :=
  let (n, s) := s.drawFree
  let sev := (Config.freeWord n).toNat % 3
  let e : LogEnt := ⟨s.toll.logSeq, s.toll.boot, s.now, s.tick, sev, src, code, (data ++ zeros 32).take 32⟩
  let s := s.modToll (fun t => { t with log := (e :: t.log).take 16384, logSeq := t.logSeq + 1 })
  if sev = 2 then consoleLine s code else s

/-- An event for the log, under the rate limit of R374. -/
def thLog (s : State) (src code : Nat) (data : List Byte) : State :=
  let (w, x) := SMap.get (0, 0) s.toll.logRate code
  if w < 64 then
    let s := s.modToll (fun t => { t with logRate := SMap.insert t.logRate code (w + 1, x) })
    logWrite s src code data
  else s.modToll (fun t => { t with logRate := SMap.insert t.logRate code (w, x + 1) })

/-- Event bit 7 of the channel's threads: a bus engine event (R162). -/
def busEvent (s : State) (c : Fin 56) : State := s.eachTh c (fun s c t => s.setEvt c t 7)

/-! ### Sources (R315, R316) -/

/-- A register of event bits is nonzero. -/
def evtAny (s : State) (addr : Nat) : Bool := s.fld.any (fun kv => kv.1 / 64 == addr && kv.2 != 0)

/-- The page at an address counts an access error that is not masked (R400). -/
def errRaw (s : State) (p : Nat) : Bool :=
  let e := s.get (Fld.ERR_STATUS_RSV_WRITE p) + 2 * s.get (Fld.ERR_STATUS_STATE_WRITE p)
    + 4 * s.get (Fld.ERR_STATUS_SIZE p) + 8 * s.get (Fld.ERR_STATUS_SPLIT_LOST p)
    + 16 * s.get (Fld.ERR_STATUS_SHADOW_FULL p)
  (e &&& (31 - s.get (Fld.ERR_MASK_MASK p))) != 0

/-- The interrupt source a page's ERR_EN drives (R403). -/
def pageSource (p : Nat) : Option Nat :=
  if 0x1000000 ≤ p ∧ p < 0x1E00000 then
    let c := (p - 0x1000000) / 0x40000
    match (p % 0x40000) / 0x1000 with
    | 1 => some (c * 8 + 1)
    | 2 => some (c * 8 + 3)
    | 3 => some (c * 8 + 7)
    | 4 => some (c * 8 + 4)
    | 5 => some (c * 8 + 6)
    | 6 => some (c * 8 + 2)
    | _ => none
  else if p = 0x1000 then some 535
  else if p = 0x2000 then some 514
  else if p = 0x6000 ∨ p = 0x7000 then some 520
  else if 0x10000 ≤ p ∧ p < 0x19000 then some 512
  else if p = 0x20000 ∨ (0x28000 ≤ p ∧ p < 0x2C000) then some 528
  else if 0x21000 ≤ p ∧ p < 0x25000 then some (529 + (p - 0x21000) / 0x1000)
  else if p = 0x30000 then some 515
  else if p = 0x31000 then some 533
  else if p = 0x32000 then some 516
  else if p = 0x40000 then some 518
  else if p = 0x50000 then some 522
  else if 0x2000000 ≤ p ∧ p < 0x2009000 then some 519
  else if p = 0x2100000 ∨ p = 0x2140000 then some 575
  else none

/-- A page whose ERR_EN is set drives the source. -/
def errSource (s : State) (src : Nat) : Bool :=
  s.fld.any (fun kv => kv.1 % (0x1000 * 64) == 0x38 * 64 && kv.2 == 1
    && pageSource (kv.1 / 64 - 0x38) == some src && errRaw s (kv.1 / 64 - 0x38))

/-- The source signal of a channel's source `k`. -/
def chanRaw (s : State) (c : Fin 56) (k : Nat) : Bool :=
  match k with
  | 0 => s.isSet (Fld.ROUTE_EVT_NOTIFY c)
  | 1 => s.isSet (Fld.ROUTE_EVT_END c) || s.isSet (Fld.ROUTE_EVT_SUSPEND c) || s.isSet (Fld.ROUTE_EVT_KS_REFUSED c)
      || s.isSet (Fld.ROUTE_EVT_STRAY_REPLY c) || s.isSet (Fld.ROUTE_EVT_BAD_REPLY c)
      || s.isSet (Fld.ROUTE_EVT_FETCH_LATE c)
  | 2 => evtAny s (Reg.KEVT c)
  | 3 => evtAny s (Reg.BE_EVT c)
  | 4 => evtAny s (Reg.FIFO_EVT c)
  | 5 => !(s.ch c).fifos.mbo.isEmpty
  | 6 => evtAny s (Reg.PT_EVT c)
  | _ => evtAny s (Reg.BM_EVT c)

/-- The source signal of a Basin source. -/
def basinRaw (s : State) (src : Nat) : Bool :=
  if src < 512 then s.isSet (Fld.CR_EVT_RECORD (src - 448)) || s.isSet (Fld.CR_EVT_GAP (src - 448))
  else if 576 ≤ src then bit (s.get Fld.KS_IRQ_IRQ) (src - 576)
  else match src with
    | 512 => evtAny s Reg.WQ_EVT
    | 514 => evtAny s Reg.TB_EVENTS
    | 515 => s.isSet Fld.FAULT_TIMER_VALID || evtAny s Reg.FAULT_EVT || s.isSet Fld.RAS_EVT_STOR_LANE
        || s.isSet Fld.RAS_EVT_REPAIR_FULL
    | 516 => evtAny s Reg.SUPPLY_EVT
    | 517 => evtAny s Reg.THERM_EVT
    | 518 => s.isSet Fld.MB_EVT_DONE
    | 519 => evtAny s Reg.IC_EVT
    | 520 => evtAny s Reg.POUND_EVT
    | 522 => evtAny s (Reg.TP_PORT_EVT 0) || evtAny s Reg.TP_EVT
    | 523 => evtAny s (Reg.TP_PORT_EVT 1)
    | 528 => evtAny s Reg.PLACE_EVT
    | 529 => evtAny s (Reg.DRIVE_EVT 0)
    | 530 => evtAny s (Reg.DRIVE_EVT 1)
    | 531 => evtAny s (Reg.DRIVE_EVT 2)
    | 532 => evtAny s (Reg.DRIVE_EVT 3)
    | 533 => s.isSet Fld.RAS_EVT_DRAM_UNCORR || s.isSet Fld.RAS_EVT_PAGE_RETIRED || s.isSet Fld.RAS_EVT_SPARES_EXHAUSTED
    | 534 => s.isSet Fld.RAS_EVT_ENGINE_RETIRED
    | 535 => s.isSet Fld.RAS_EVT_HOST_LANE || s.isSet Fld.RAS_EVT_HOST_RETRAIN
    | 575 => evtAny s Reg.KS_EVT || evtAny s Reg.SIG_EVT
    | _ => false

/-- A reserved source is never high (R316). -/
def srcReserved (src : Nat) : Bool :=
  src == 521 || (decide (525 ≤ src) && decide (src ≤ 527)) || (decide (536 ≤ src) && decide (src ≤ 574)) || decide (640 ≤ src)

/-- RAW of a source; the pulse sources are low between their pulses. -/
def rawOf (s : State) (src : Nat) : Bool :=
  if srcReserved src then false
  else (if h : src / 8 < 56 then chanRaw s ⟨src / 8, h⟩ (src % 8) else basinRaw s src) || errSource s src

/-! ### Sensing (R317, R318) -/

/-- SENSE of a source: 1 at reset for the pulse sources. -/
def senseOf (s : State) (src : Nat) : Nat := s.get (Fld.SRC_SENSE src)

/-- A source is edge-sensed. -/
def edgeSensed (s : State) (src : Nat) : Bool := decide (1 ≤ senseOf s src ∧ senseOf s src ≤ 3)

/-- PENDING of a source. -/
def srcPending (s : State) (src : Nat) : Bool :=
  if srcReserved src then false
  else if s.devState = devDrydock then src == 518 && rawOf s src
  else match senseOf s src with
    | 0 => rawOf s src
    | 4 => !rawOf s src
    | _ => s.ic.latch.contains src

/-- Source of a source register's address. -/
def srcOfAddr (a : Nat) : Nat := (a - 0x2001000) / 0x1000 * 128 + (a % 0x1000 - 0x100) / 8

/-- Sources of which a field at bit `lo` does not hold its reset value. -/
def srcsWith (s : State) (lo : Nat) : List Nat :=
  (s.fld.filter (fun kv => decide (0x2001000 ≤ kv.1 / 64) && decide (kv.1 / 64 < 0x2006000) && kv.1 % 64 == lo)).map
    (fun kv => srcOfAddr (kv.1 / 64))

/-- Sources that are sampled for edges; 513 and 524 have no level. -/
def sampled (s : State) : List Nat := (srcsWith s 4).filter (fun i => edgeSensed s i && i != 513 && i != 524)

/-- Compare the edge-sensed sources with their values one BCLK earlier and set latches. -/
def icSample (s : State) : State :=
  let l := sampled s
  let s' := s.modIc (fun ic =>
    let hits := l.filter (fun i =>
      let now := rawOf s i
      let was := ic.prev.contains i
      match senseOf s i with
      | 1 => now && !was
      | 2 => !now && was
      | _ => now != was)
    { ic with latch := ic.latch ++ hits.filter (fun i => !ic.latch.contains i), prev := l.filter (fun i => rawOf s i) })
  if l.isEmpty && s.ic.prev.isEmpty then s else s'

/-- The controller takes a source's present level as the one before, so that a new sense sees no change that was not. -/
def icSeen (s : State) (i : Nat) : State :=
  s.modIc (fun ic => { ic with prev := if rawOf s i then i :: ic.prev.filter (· != i) else ic.prev.filter (· != i) })

/-- The same for every source: their senses come from the configuration. -/
def icResense (s : State) : State := (sampled s).foldl icSeen s

/-! ### Stacks and targets (R320, R322) -/

/-- Target number of the Toll House and of a keeper thread. -/
def tgtToll : Nat := 0x40
def tgtThread (c t : Nat) : Nat := 0x100 + c * 8 + t

/-- A TARGET value that is accepted. -/
def targetOk (t : Nat) : Bool := decide (t ≤ 0x40) || (decide (0x100 ≤ t) && decide (t < 0x100 + 448))

/-- The thread a target names. -/
def targetThread (t : Nat) : Option (Fin 56 × Fin 8) :=
  if 0x100 ≤ t then
    if h : (t - 0x100) / 8 < 56 then some (⟨(t - 0x100) / 8, h⟩, ⟨(t - 0x100) % 8, Nat.mod_lt _ (by decide)⟩) else none
  else none

/-- A target's stack, top entry first. -/
def stackOf (s : State) (t : Nat) : List (Nat × Nat) := SMap.get [] s.ic.stackTab t

/-- Running priority. -/
def runningPrio (s : State) (t : Nat) : Nat :=
  match stackOf s t with
  | [] => 16
  | e :: _ => e.1

/-- A source is IN_SERVICE. -/
def inService (s : State) (src : Nat) : Bool := s.ic.stackTab.any (fun p => p.2.any (fun e => e.2 == src))

/-- MSI-X table entry of a vector. -/
def msixOf (s : State) (v : Nat) : MsixEntry := SMap.get ⟨0, 0, true⟩ s.host.msix v

/-- A target accepts a delivery (R322). -/
def accepting (s : State) (t : Nat) : Bool :=
  if t < 0x40 then
    s.host.msixEn && !s.host.fnMask && !(msixOf s t).mask && s.host.bme && !s.host.d3hot && s.host.link
  else if t = tgtToll then s.devState != devDrydock
  else match targetThread t with
    | some (c, k) =>
      let th := s.th c k
      (th.st == .run || th.st == .waitev || th.st == .yielded) && th.deliver.isNone
    | none => false

/-- TARGET and PRIO of a source; DRYDOCK fixes those of 518 (R332). -/
def targetOf (s : State) (src : Nat) : Nat := if s.devState = devDrydock then 0 else s.get (Fld.SRC_TARGET src)
def prioOf (s : State) (src : Nat) : Nat := if s.devState = devDrydock then 0 else s.get (Fld.SRC_PRIO src)

/-- The source's hold-off group is holding; in DRYDOCK there is no hold-off (R332). -/
def srcHolding (s : State) (src : Nat) : Bool :=
  s.devState != devDrydock && s.isSet (Fld.SRC_GROUP_EN src) && s.isSet (Fld.GRP_HOLDING (s.get (Fld.SRC_GROUP src)))

/-- A source is eligible but for its target's acceptance and the depth of its stack (R320). -/
def eligible0 (s : State) (src : Nat) : Bool :=
  srcPending s src && !inService s src && decide (prioOf s src < 15)
    && decide (prioOf s src < runningPrio s (targetOf s src)) && !srcHolding s src

/-- A source is HELD (R322). -/
def srcHeld (s : State) (src : Nat) : Bool :=
  let t := targetOf s src
  eligible0 s src && decide ((stackOf s t).length < 8) && !accepting s t

/-- A source waits for a stopped or halted thread (R327). -/
def targetStopped (s : State) (src : Nat) : Bool :=
  match targetThread (targetOf s src) with
  | some (c, t) => srcPending s src && ((s.th c t).st == .stopped || (s.th c t).st == .halted)
  | none => false

/-- Sources that could be delivered: those whose PRIO is not 15. -/
def unmasked (s : State) : List Nat := if s.devState = devDrydock then [518] else srcsWith s 0

/-- Sources eligible for a target, the stack's room left out. -/
def eligibleFor (s : State) (t : Nat) : List Nat := (unmasked s).filter (fun i => targetOf s i == t && eligible0 s i)

/-- The source to deliver: lowest PRIO, then lowest number. -/
def bestSource (s : State) (t : Nat) : Option Nat :=
  (eligibleFor s t).foldl (fun o i =>
    match o with
    | none => some i
    | some m => if prioOf s i * 1024 + i < prioOf s m * 1024 + m then some i else some m) none

/-- Pop a target's stack (R323); `true` when it was empty. -/
def icPop (s : State) (t : Nat) : Bool × State :=
  match stackOf s t with
  | [] => (true, s)
  | _ :: rest => (false, s.modIc (fun ic => { ic with stackTab := SMap.set [] ic.stackTab t rest }))

/-- EOI of a target (R323). -/
def icEoi (s : State) (t : Nat) : State :=
  let (e, s) := icPop s t
  if e then s.raise Fld.IC_EVT_EOI_EMPTY else s

/-- Empty a target's stack: its sources leave IN_SERVICE (R326, R327). -/
def icEmptyStack (s : State) (t : Nat) : State :=
  s.modIc (fun ic => { ic with stackTab := SMap.erase ic.stackTab t })

/-- A delivery whose trap entry has not been made is withdrawn: an edge-sensed source has its latch set again (R327). -/
def icWithdraw (s : State) (src : Nat) : State :=
  if edgeSensed s src && !s.ic.latch.contains src then s.modIc (fun ic => { ic with latch := ic.latch ++ [src] }) else s

/-- Hold-off begins and other pending members routed to the same target are coalesced (R324). -/
def holdOff (s : State) (src t : Nat) : State :=
  let g := s.get (Fld.SRC_GROUP src)
  if s.devState != devDrydock && s.isSet (Fld.SRC_GROUP_EN src) && s.get (Fld.GRP_INTERVAL g) != 0 then
    let s := s.raise (Fld.GRP_HOLDING g)
    let hit := s.ic.latch.filter (fun i => i != src && edgeSensed s i && s.isSet (Fld.SRC_GROUP_EN i)
      && s.get (Fld.SRC_GROUP i) == g && s.get (Fld.SRC_TARGET i) == t)
    let s := s.bumpSat (Fld.GRP_COALESCED g) hit.length
    let ticks := if s.isSet (Fld.GRP_UNIT g) then s.get (Fld.GRP_INTERVAL g) else 0
    s.modIc (fun ic => { ic with latch := ic.latch.filter (fun i => !hit.contains i),
                                 ticks := SMap.set 0 ic.ticks g ticks })
  else s

/-- Inform the target of a delivery (R325, R327, R328). A thread that waits goes to RUN (R147): its trap entry comes next, or, in a
handler, the instruction after the wait. -/
def icInform (s : State) (src t : Nat) : State :=
  if t < 0x40 then s.emit (.msix t (msixOf s t).addr (msixOf s t).data)
  else if t = tgtToll then
    let s := thLog s 0xFE 0x0500 (leBytes 2 src)
    (icPop s t).2
  else match targetThread t with
    | some (c, k) => s.modTh c k (fun th =>
      let waits := th.st == .waitev || th.st == .yielded
      { th with deliver := some src, intSrc := BitVec.ofNat 16 src, st := if waits then .run else th.st
                slack := if waits || th.inh then none else some th.used
                woken := if waits && !th.inh then some th.st else none })
    | none => s

/-- Delivery of source `src` to its target (R321). -/
def icDeliverSrc (s : State) (src : Nat) : State :=
  let t := targetOf s src
  let p := prioOf s src
  let s := s.modIc (fun ic => { ic with stackTab := SMap.insert ic.stackTab t ((p, src) :: SMap.get [] ic.stackTab t) })
  let s := s.modIc (fun ic => { ic with latch := ic.latch.filter (· != src) })
  icInform (holdOff s src t) src t

/-- The controller delivers in READY, RUN, BRACE and HALT, and 518 alone in DRYDOCK (R330–R332). -/
def icDelivers (s : State) : Bool := s.devState != devSelftest

/-- IC_DELIVERY: a target takes its best eligible source (R320, R321). -/
def icDeliver (s : State) (t : Nat) : State :=
  if icDelivers s && accepting s t && decide ((stackOf s t).length < 8) then
    match bestSource s t with
    | some src => icDeliverSrc s src
    | none => s
  else s

/-- A pulse source fires (R316): an edge sense latches it; a level sense is pending for one BCLK, so it is delivered now
if its target has no better eligible source (R320), or not at all. -/
def icPulse (s : State) (src : Nat) : State :=
  if s.devState = devDrydock then s
  else match senseOf s src with
    | 0 =>
      let t := targetOf s src
      let best := match bestSource s t with | some m => decide (prioOf s src * 1024 + src ≤ prioOf s m * 1024 + m) | none => true
      if icDelivers s && best && !inService s src && decide (prioOf s src < 15) && decide (prioOf s src < runningPrio s t)
          && !srcHolding s src && decide ((stackOf s t).length < 8) && accepting s t then icDeliverSrc s src else s
    | 4 => s
    | _ => if s.ic.latch.contains src then s else s.modIc (fun ic => { ic with latch := ic.latch ++ [src] })

/-- STACK_FULL is set once for each source's wait for a full stack that begins (R323, DEDUCED, log entry 121). -/
def icFullWait (s : State) : State :=
  let full := (s.ic.stackTab.filter (fun p => decide (8 ≤ p.2.length))).map (·.1)
  let waits := (full.map (eligibleFor s)).flatten
  if full.isEmpty && s.ic.fullWait.isEmpty then s
  else (if waits.all s.ic.fullWait.contains then s else s.raise Fld.IC_EVT_STACK_FULL).modIc (fun ic => { ic with fullWait := waits })

/-- A source routed to a host vector is HELD. -/
def hostHeld (s : State) : Bool := (unmasked s).any (fun i => decide (targetOf s i < 0x40) && srcHeld s i)

/-- A source is HELD in D3hot with PME_En set. -/
def pmeDue (s : State) : Bool := s.host.d3hot && s.host.pmeEn && hostHeld s

/-- In D3hot with PME_En, the first HELD source sets PME_Status and sends PM_PME, once while one stays HELD (R326): software that
clears PME_Status ends it. -/
def icPme (s : State) : State :=
  let on := pmeDue s
  if on = s.host.pmeOn then s
  else if on then (s.modHost (fun h => { h with pmeOn := true, pmeStatus := true })).emit .pmPme
  else s.modHost (fun h => { h with pmeOn := false })

/-- In DRYDOCK the host reaches no EOI (R332): 518 leaves IN_SERVICE when its signal drops (DESIGN CHOICE, log entry 120). -/
def icDry (s : State) : State :=
  if s.devState == devDrydock && !rawOf s 518 && inService s 518 then icEmptyStack s 0 else s

/-! ### Device state (R17–R19, R361) -/

/-- Levels of STAT[2:0] (R361); a blinking or coded indicator shows its blink phase. -/
def statBits (s : State) : Nat :=
  let valid := b2n (s.isSet Fld.FAULT_TIMER_VALID)
  let b := s.toll.blink % 2
  let st := s.devState
  if st = devSelftest then b
  else if st = devReady then 1 + 4 * valid
  else if st = devRun then 3 + 4 * valid
  else if st = devBrace then 1 + 2 * b + 4 * valid
  else if st = devHalt then 4
  else
    let k := s.get Fld.ST_SUMMARY_FAIL_STEP
    let p := s.toll.blink % (2 * k + 1)
    4 * b2n (k == 0 || (decide (p < 2 * k) && p % 2 == 0))

/-- FAULT_TIMER.VALID changes, and STAT with it (R361). -/
def faultValid (s : State) (v : Bool) : State :=
  let t := s.putB Fld.FAULT_TIMER_VALID v
  if statBits t = statBits s then t else t.emit (.stat (statBits t))

/-- The device changes state (R17, R18): PREV_STATE, ENTRY_TICK, source 513, event 0x0004, a console line, STAT. -/
def setDev (s : State) (st : Nat) : State :=
  if s.devState = st then s
  else
    let old := s.devState
    let s := ((s.put Fld.DEV_STATE_PREV_STATE old).put Fld.DEV_STATE_STATE st).put Fld.DEV_STATE_TICK_ENTRY_TICK s.tick
    let s := icPulse s 513
    let s := thLog s 0xFF 0x0004 (leBytes 1 old ++ leBytes 1 st ++ leBytes 1 (s.get Fld.DEV_STATE_HALT_CAUSE))
    let s := consoleLine s 0x0004
    s.emit (.stat (statBits s))

/-! ### Route states (R107) -/

def rtIdle : Nat := 0
def rtAdmit : Nat := 1
def rtRun : Nat := 2
def rtWait : Nat := 3
def rtSuspended : Nat := 4
def rtStopping : Nat := 5

/-- ROUTE_STATE.STATE. -/
def rtState (s : State) (c : Nat) : Nat := s.get (Fld.ROUTE_STATE_STATE c)
/-- The route takes a state. -/
def rtSet (s : State) (c st : Nat) : State := s.put (Fld.ROUTE_STATE_STATE c) st

/-- The sequencer holds no order. -/
def seqIdle (q : Seq) : Seq :=
  { q with admission := none, chainBuf := [], chainHead := none, fetch := .none, due := false, atEdge := false, exec := none
           suspend := false, first := false }

/-- The route is IDLE: it has ended with a status, its last order and that order's residual (R101, R107). -/
def routeEnds (s : State) (c : Fin 56) (status idx residual : Nat) : State :=
  let s := (rtSet s c rtIdle).raise (Fld.ROUTE_STATE_END_VALID c)
  let s := (s.put (Fld.ROUTE_STATE_END_STATUS c) status).put (Fld.ROUTE_STATE_ORDER c) idx
  let s := (s.put (Fld.ROUTE_STATE_RESIDUAL c) residual).raise (Fld.ROUTE_EVT_END c)
  s.modSq c (fun q => { seqIdle q with stop := none })

/-- A running or waiting route is STOPPING: it fetches no further order (R113). -/
def routeStopping (s : State) (c : Fin 56) (k : StopKind) : State :=
  (rtSet s c rtStopping).modSq c (fun q =>
    { q with stop := some k, suspend := false, fetch := .none, chainHead := none, chainBuf := [] })

/-- What the cause of a device HALT does to a route when it is accepted (R107, R113). -/
def haltRoute (s : State) (c : Fin 56) : State :=
  let st := rtState s c
  if st = rtSuspended then
    routeEnds s c St.abandoned (s.get (Fld.ROUTE_STATE_ORDER c)) (s.get (Fld.ROUTE_STATE_RESIDUAL c))
  else if st = rtRun ∨ st = rtWait then routeStopping s c .deviceHalt else s

/-! ### HALT -/

/-- A cause of HALT is latched (R17, R18); the routes stop as R113 states. -/
def devHaltNow (s : State) (cause : Nat) : State :=
  if s.serving then (setDev { s.put Fld.DEV_STATE_HALT_CAUSE cause with halting := true } devHalt).eachCh haltRoute else s

/-! ### The fault collector (R338–R340) -/

/-- Class of a pin from FAULT_CLASS0 and FAULT_CLASS1. -/
def faultClass (s : State) (pin : Nat) : Nat :=
  if pin < 32 then bf (s.get Fld.FAULT_CLASS0_CLASS) (2 * pin) 2 else bf (s.get Fld.FAULT_CLASS1_CLASS) (2 * (pin - 32)) 2

/-- The FAULT diagnostic record (R353); bit 15 of its second word tells a latch from an escalation. -/
def faultRec (s : State) (pin code cls tick : Nat) (esc : Bool) : State :=
  let st := s.get Fld.FAULT_STATUS_STATUS
  diagRec s 0x02 pin (code + cls * 2 ^ 8 + b2n esc * 2 ^ 15) (st % 2 ^ 32) (st / 2 ^ 32) tick

/-- An error pin asserts with a code (R339, R340); one that has stayed asserted makes no new fault. The collector does not run in
SELFTEST or DRYDOCK (R342). -/
def errorPin (s : State) (pin code : Nat) : State :=
  if s.devState = devSelftest ∨ s.devState = devDrydock ∨ bit s.pinsHeld pin then s
  else
    let s := { s with pinsSeen := s.pinsSeen ||| 2 ^ pin }
    let s := s.put Fld.FAULT_STATUS_STATUS (s.get Fld.FAULT_STATUS_STATUS ||| 2 ^ pin)
    if s.isSet Fld.FAULT_TIMER_VALID then s.raise Fld.FAULT_TIMER_FAULT_OVF
    else
      let cls := faultClass s pin
      let grace := if cls = 0 then s.get Fld.FAULT_CTRL_GRACE_MINOR else if cls = 1 then s.get Fld.FAULT_CTRL_GRACE_MAJOR
        else 2
      let s := (s.put Fld.FAULT_FIRST_BIT pin).put Fld.FAULT_FIRST_CLASS cls
      let s := (s.put Fld.FAULT_FIRST_CODE code).put Fld.FAULT_FIRST_TICK s.tick
      let s := (faultValid s true).clear Fld.FAULT_TIMER_FAULT_OVF
      let s := s.put Fld.FAULT_TIMER_REMAINING grace
      let first := pin + cls * 2 ^ 6 + code * 2 ^ 8 + s.tick * 2 ^ 16
      let s := thLog s pin 0x0200 (leBytes 8 first ++ leBytes 8 (s.get Fld.FAULT_STATUS_STATUS))
      faultRec s pin code cls s.tick false

/-- Self-test has not found PLL `i` without lock (R359). -/
def pllOk (s : State) (i : Nat) : Bool := (s.devState == devSelftest && s.toll.start == .none) || bit s.toll.plls i

/-- Codes of the channel pins (R338). -/
def Pin.doubleFault : Nat := 0x01
def Pin.keeperSram : Nat := 0x02
def Pin.pinStuck : Nat := 0x07
def pinHost : Nat := 56
def pinPound : Nat := 57
def pinComp : Nat := 58
def pinPlace : Nat := 59
def pinDram : Nat := 60
def pinTowpath : Nat := 62
def pinToll : Nat := 63

end Sys2Proof.Machine
end

