-- ==== Sys2Proof/Machine/Pins.lean ====
section
/-!
DEFINITION. Modes, engine and channel states, and the levels of the field pins (07, R171–R176, R191, R411).
-/
namespace Sys2Proof.Machine

/-- A field channel (F0–F47). -/
def isField (c : Nat) : Bool := decide (c < 48)

/-! ### Modes (R171) -/

def modeNone : Nat := 0x0
def modeCan : Nat := 0x1
def modeLin : Nat := 0x2
def modeSent : Nat := 0x3
def modePsi5 : Nat := 0x4
def modeUart : Nat := 0x5
def modeSpi : Nat := 0x6
def modeI2c : Nat := 0x7
def modeTimer : Nat := 0x8
def modeLend : Nat := 0xF

/-- MODE of a field channel. -/
def modeOf (s : State) (c : Nat) : Nat := s.get (Fld.BE_MODE_MODE c)

/-- A mode BE_MODE accepts. -/
def modeOk (m : Nat) : Bool := decide (m ≤ 8) || m == modeLend

/-! ### Engine states (R191) -/

def engOff : Nat := 0
def engOn : Nat := 1
def engListen : Nat := 2
def engBusOff : Nat := 3
def engRecovering : Nat := 4

/-- ENGINE of a field or stream channel: the two registers share their address. -/
def engineOf (s : State) (c : Nat) : Nat := s.get (Fld.BE_STATUS_ENGINE c)

/-- The engine takes part in traffic. -/
def engineUp (s : State) (c : Nat) : Bool := engineOf s c == engOn || engineOf s c == engListen

/-! ### Channel states (R173, R425) -/

def chDisabled : Nat := 0
def chEnabled : Nat := 1
def chDisabling : Nat := 2
def chFenced : Nat := 3
def chReseating : Nat := 4
def chAbsent : Nat := 5
def chLent : Nat := 6

/-- CHAN_STATE.STATE. -/
def chState (s : State) (c : Nat) : Nat := s.get (Fld.CHAN_STATE_STATE c)

/-- The channel accepts new work (R425). -/
def chAccepts (s : State) (c : Nat) : Bool := chState s c == chEnabled || chState s c == chReseating

/-- An enabled channel for the lock schedule (R425). -/
def chLocks (s : State) (c : Nat) : Bool :=
  chState s c == chEnabled || chState s c == chFenced || chState s c == chDisabling || chState s c == chReseating

/-- A disabled channel in a condition that permits a configuration write (R425). -/
def chConfigurable (s : State) (c : Nat) : Bool :=
  chState s c == chDisabled || chState s c == chLent || chState s c == chAbsent

/-! ### Room in the RX FIFO (R188) -/

/-- A gap marker (R188). -/
def isMarker (r : Rec) : Bool := r.typ == 0x3E

/-- Bytes the items of the RX store occupy; the marker lies in the reserved slot. -/
def rxBytes (l : List Rec) : Nat := ((l.filter (fun r => !isMarker r)).map recSize).sum

/-- Free bytes of the RX store. -/
def rxFree (f : Fifos) : Nat := 16384 - rxBytes f.rx

/-! ### Pins (R175, R176, R411) -/

/-- SPI and I2C controllers are ON whenever their channel is enabled (R184). -/
def ctrlMode (m : Nat) : Bool := m == modeSpi || m == modeI2c

/-- An SPI or I2C transfer of a route order is in progress (R184, R189). -/
def inTransfer (s : State) (c : Fin 56) : Bool :=
  ctrlMode (modeOf s c) && isField c &&
    match (s.sq c).exec with
    | some e => e.loaded && e.result.isNone && decide (2 ≤ bf e.order.w0.toNat 0 8 ∧ bf e.order.w0.toNat 0 8 ≤ 3)
    | none => false

/-- Every field pin rests at its safe level (R176): engine off, channel not serving, device in HALT once the edge has stopped the
routes. -/
def pinsSafe (s : State) (c : Fin 56) : Bool :=
  engineOf s c == engOff || chState s c == chDisabled || chState s c == chFenced
    || (chState s c == chDisabling && (match (s.ch c).stopping with | some p => decide (1 ≤ p.edges) | none => true))
    || (s.devState == devHalt && !s.halting)

/-- The safe level of pin `n` of a channel in a mode: `some` level driven, `none` an input or released (R176). -/
def safeLevel (s : State) (c n : Nat) : Option Bool :=
  let m := modeOf s c
  if m = modeCan then [none, some true, some true, some false].getD n none
  else if m = modeLin then [none, some true, some false, none].getD n none
  else if m = modePsi5 then [none, some false, none, none].getD n none
  else if m = modeUart then [none, some true, some true, none].getD n none
  else if m = modeSpi then [none, some false, some (decide (2 ≤ s.get (Fld.SPI_CFG_SPI_MODE c))), some true].getD n none
  else if m = modeTimer then
    if s.get (Fld.PIN_CFG_FUNC c n) = 4 ∨ s.get (Fld.PIN_CFG_FUNC c n) = 5 then
      (match s.get (Fld.PIN_CFG_SAFE c n) with | 0 => some false | 1 => some true | _ => none)
    else none
  else if m = modeLend then some true
  else none

/-- Chip select `k` of an SPI channel is active: its engine is ON and a transfer with that SELECT is in progress (R189). -/
def csActive (s : State) (c : Fin 56) (k : Nat) : Bool :=
  modeOf s c == modeSpi && engineOf s c == engOn && inTransfer s c &&
    match (s.sq c).exec with
    | some e => bf e.order.w0.toNat 40 8 == k
    | none => false

/-- RTS_N: high while the RX FIFO is short of room (UART_CFG). DESIGN CHOICE (log entry 114): it rests high with RTSCTS 0. -/
def rtsLevel (s : State) (c : Fin 56) : Bool :=
  let f := (s.ch c).fifos
  !s.isSet (Fld.UART_CFG_RTSCTS c)
    || decide (63 - (f.rx.filter (fun r => !isMarker r)).length < 4) || decide (rxFree f < 2 * s.get (Fld.UART_CFG_MAX_LEN c))

/-- The level of pin `n` of an engine that is ON, while no frame is on the bus: the bits of a frame are the event that carries it.
Log entry 114 marks the levels the spec does not state: STB low, SLP_N high, MOSI low. -/
def onLevel (s : State) (c : Fin 56) (n : Nat) : Option Bool :=
  let m := modeOf s c
  if m = modeCan then [none, some true, some false, some false].getD n none
  else if m = modeLin then [none, some true, some true, none].getD n none
  else if m = modePsi5 then [none, some (s.ch c).bus.psiSync, none, none].getD n none
  else if m = modeUart then [none, some true, some (rtsLevel s c), none].getD n none
  else if m = modeSpi then
    [none, some false, some (decide (2 ≤ s.get (Fld.SPI_CFG_SPI_MODE c))), some (!csActive s c 0)].getD n none
  else if m = modeTimer then
    if s.get (Fld.PIN_CFG_FUNC c n) = 4 then some ((s.ch c).bus.pins.toList.getD n TimerPin.reset |>.pwm |> (· != s.isSet (Fld.PIN_CFG_INVERT c n)))
    else if s.get (Fld.PIN_CFG_FUNC c n) = 5 then some (s.isSet (Fld.PIN_CFG_LEVEL c n) != s.isSet (Fld.PIN_CFG_INVERT c n))
    else none
  else none

/-- Pin `n` of a lender: chip select `n + 1` of the channel before it, which is high unless that channel uses it (R174). -/
def lentLevel (s : State) (c : Fin 56) (n : Nat) : Option Bool :=
  if h : 0 < c.val ∧ chState s c = chLent then
    some (!csActive s ⟨c.val - 1, by omega⟩ (n + 1))
  else some true

/-- What the device does with pin FIOc_n (R175, R176, R411): `some` level driven, `none` an input, with its weak pull-up, or a
released open drain. During reset, self-test and in DRYDOCK every pin is an input. -/
def fioPin (s : State) (c : Fin 56) (n : Nat) : Option Bool :=
  if s.devState < devReady then none
  else if modeOf s c = modeLend then lentLevel s c n
  else if pinsSafe s c then safeLevel s c n
  else onLevel s c n

/-- Put pin `n` at its level. -/
def drivePin (s : State) (c : Fin 56) (n : Nat) : State :=
  s.emit (match fioPin s c n with | some l => .pin c n l | none => .pinOff c n)

/-- Put the four pins of a field channel at their levels. -/
def drivePins (s : State) (c : Fin 56) : State := if isField c then [0, 1, 2, 3].foldl (fun s n => drivePin s c n) s else s

/-- The pins of the lender behind an SPI channel, which are its chip selects 1 to 4 (R174). -/
def driveLender (s : State) (c : Fin 56) : State :=
  if h : modeOf s c = modeSpi ∧ s.isSet (Fld.BE_MODE_SPI_CS c) ∧ c.val + 1 < 56 then drivePins s ⟨c.val + 1, h.2.2⟩ else s

/-- The chip selects of a transfer that begins or ends: the pin of the channel, and those of the lender (R174). -/
def driveSelects (s : State) (c : Fin 56) : State :=
  if modeOf s c = modeSpi then driveLender (drivePin s c 3) c else s

/-- RTS_N follows the room of the RX FIFO: `s` is what has become of `old` (R175, UART_CFG). -/
def rtsMoves (old s : State) (c : Fin 56) : State :=
  if modeOf s c = modeUart ∧ c.val < 48 ∧ fioPin s c 2 ≠ fioPin old c 2 then drivePin s c 2 else s

end Sys2Proof.Machine
end

