-- ==== Sys2Proof/Machine/Fifo.lean ====
section
/-!
DEFINITION. The FIFOs of a channel (07, R177, R188), the partner table (R193–R195) and the counters of R192.
-/
namespace Sys2Proof.Machine

/-! ### Counters (R192) -/

/-- Add to counter `i` of the STATS page; the counters wrap. -/
def statAdd (s : State) (c i n : Nat) : State := s.bumpWrap (Fld.STATS_CNT_COUNT c i) n

def statItemsOk : Nat := 0
def statFiltered : Nat := 1
def statDropped : Nat := 2
def statProto : Nat := 3
def statTxOk : Nat := 4
def statTxDropped : Nat := 5
def statDetail : Nat := 6

/-- Clear the counters of R192. -/
def statClear (s : State) (c : Nat) : State :=
  (List.range 8).foldl (fun s i => s.put (Fld.STATS_CNT_COUNT c i) 0) s

/-- Add one, saturating, to the 16-bit or 32-bit part of MODE_DETAIL at bit `lo`. -/
def detailAdd (s : State) (c lo w : Nat) : State :=
  let v := s.get (Fld.STATS_CNT_COUNT c statDetail)
  let part := v / 2 ^ lo % 2 ^ w
  if part + 1 < 2 ^ w then s.put (Fld.STATS_CNT_COUNT c statDetail) (v + 2 ^ lo) else s

/-! ### RX FIFO -/

/-- A marker with a count and a source. -/
def markerRec (ts c count src : Nat) : Rec :=
  ⟨ts, 0x3E, c, 0, 0, leBytes 4 count ++ leBytes 4 src⟩

/-- COUNT of a marker. -/
def markerCount (r : Rec) : Nat := leNat (r.payload.take 4)

/-- Place an item in the RX FIFO (R177, R188): it is dropped into the marker when there is no room or a marker is
held. On stream channels ITEMS_OK and ITEMS_DROPPED count frames (R224), not items. -/
def rxPlace (s : State) (c : Fin 56) (r : Rec) : State :=
  let f := (s.ch c).fifos
  let items := (f.rx.filter (fun r => !isMarker r)).length
  let t := if f.rx.any isMarker then
      let s := if c.val < 48 then statAdd s c statDropped 1 else s
      s.modFifos c (fun f => { f with rx := f.rx.map (fun m =>
        if isMarker m then markerRec m.ts m.chan (min 0xFFFFFFFF (markerCount m + 1)) 1 else m) })
    else if items < 63 ∧ recSize r ≤ rxFree f then
      (if c.val < 48 then statAdd s c statItemsOk 1 else s).modFifos c (fun f => { f with rx := f.rx ++ [r] })
    else
      let s := if c.val < 48 then statAdd s c statDropped 1 else s
      (s.modFifos c (fun f => { f with rx := f.rx ++ [markerRec r.ts c 1 1] })).raise (Fld.FIFO_EVT_RX_GAP c)
  rtsMoves s t c

/-- Remove the head item. -/
def rxDrop (s : State) (c : Fin 56) : State :=
  rtsMoves s (s.modFifos c (fun f => { f with rx := f.rx.tail, rxPos := 0 })) c

/-- RX_DATA read (R188): the next 8 B of the head item; the item goes after its last 8 B. An empty FIFO gives the value
last read and sets RX_UNDERRUN. -/
def rxDataRead (s : State) (c : Fin 56) : Word × State :=
  let f := (s.ch c).fifos
  match f.rx with
  | [] => (f.rxLast, s.raise (Fld.FIFO_EVT_RX_UNDERRUN c))
  | r :: _ =>
    let v : Word := BitVec.ofNat 64 (leNat (((recBytes r).drop f.rxPos).take 8))
    let s := s.modFifos c (fun f => { f with rxLast := v, rxPos := f.rxPos + 8 })
    (v, if recSize r ≤ f.rxPos + 8 then rxDrop s c else s)

/-- RX_POP (R188): the rest of the head item goes. On an empty FIFO it sets RX_UNDERRUN, though it is no read (DESIGN CHOICE, log
entry 140). -/
def rxPop (s : State) (c : Fin 56) : State :=
  match (s.ch c).fifos.rx with
  | [] => s.raise (Fld.FIFO_EVT_RX_UNDERRUN c)
  | _ => rxDrop s c

/-! ### TX FIFO -/

/-- Bytes the items of the TX store occupy. -/
def txBytes (l : List TxEnt) : Nat :=
  (l.map (fun e => match e with | .item b _ => b.length | .marker _ => 0)).sum

/-- Free bytes of the TX store. -/
def txFree (f : Fifos) : Nat := 8192 - txBytes f.tx

/-- Items held, a marker excluded. -/
def txItems (f : Fifos) : Nat := (f.tx.filter (fun e => match e with | .item .. => true | _ => false)).length

/-- A marker is held in the TX FIFO. -/
def txHasMarker (f : Fifos) : Bool := f.tx.any (fun e => match e with | .marker _ => true | _ => false)

/-- Free item slots, the reserved slot excluded. -/
def txSlots (f : Fifos) : Nat := 31 - txItems f

/-- Queue an item whose bytes are whole, or drop it into the marker (R188). -/
def txQueue (s : State) (c : Fin 56) (b : List Byte) : State :=
  let f := (s.ch c).fifos
  if txHasMarker f then
    s.modFifos c (fun f => { f with tx := f.tx.map (fun e =>
      match e with | .marker n => .marker (min 0xFFFFFFFF (n + 1)) | e => e) })
  else if txItems f < 31 ∧ b.length ≤ txFree f then s.modFifos c (fun f => { f with tx := f.tx ++ [.item b false] })
  else s.modFifos c (fun f => { f with tx := f.tx ++ [.marker 1] })

/-- The engine reaches markers at the head of the TX FIFO: it discards them and counts what they stand for (R188). -/
def txReach (s : State) (c : Fin 56) : State :=
  match (s.ch c).fifos.tx with
  | .marker n :: _ =>
    let s := (statAdd s c statTxDropped n).raise (Fld.FIFO_EVT_TX_GAP c)
    s.modFifos c (fun f => { f with tx := f.tx.tail })
  | _ => s

/-- TX_DATA write (R188): 8 B are appended to the item being built. -/
def txDataWrite (s : State) (c : Fin 56) (w : Word) : State :=
  s.modFifos c (fun f => { f with build := f.build ++ leBytes 8 w.toNat })

/-- The head item has left the engine (R100, R192): TX_OK counts it; when it was the last of a TRANSMIT's items, the order
in execution is done. The item, if there was one, and the state. -/
def txSent (s : State) (c : Fin 56) : Option (List Byte) × State :=
  let s := txReach s c
  match (s.ch c).fifos.tx with
  | .item b o :: rest =>
    let s := (statAdd s c statTxOk 1).modFifos c (fun f => { f with tx := rest })
    let more := rest.any (fun e => match e with | .item _ o => o | .marker _ => false) || !(s.ch c).bus.txWait.isEmpty
    let s := if o && !more then
        (match (s.sq c).exec with | some e => s.orderResult c e.idx St.ok 0 | none => s)
      else s
    (some b, txReach s c)
  | _ => (none, s)

/-! ### Mailboxes -/

/-- Push 8 B to a mailbox FIFO of 16 slots; `true` when the push created a marker (R188). -/
def mbPush (l : List MbEnt) (w : Word) : List MbEnt × Bool :=
  if l.any (fun e => match e with | .marker _ => true | _ => false) then
    (l.map (fun e => match e with | .marker n => .marker (min 0xFFFFFFFF (n + 1)) | e => e), false)
  else if l.length < 15 then (l ++ [.data w], false)
  else (l ++ [.marker 1], true)

/-- The value an entry reads as through its data port: a marker shows its count in [31:0] of MBI_DATA. -/
def mbValue (e : MbEnt) : Word :=
  match e with
  | .data w => w
  | .marker n => BitVec.ofNat 64 n

/-- Kind of the head: 0 empty, 1 data, 2 marker. -/
def mbKind (l : List MbEnt) : Nat :=
  match l with
  | [] => 0
  | .data _ :: _ => 1
  | .marker _ :: _ => 2

/-- Host write of MBI_DATA (R188). -/
def mbiPush (s : State) (c : Fin 56) (w : Word) : State :=
  let (l, g) := mbPush (s.ch c).fifos.mbi w
  let s := s.modFifos c (fun f => { f with mbi := l })
  if g then s.raise (Fld.FIFO_EVT_MBI_GAP c) else s

/-- Keeper read of MBI_DATA (R188): the head is removed. -/
def mbiRead (s : State) (c : Fin 56) : Word × State :=
  let f := (s.ch c).fifos
  match f.mbi with
  | [] => (f.mbiLast, s.raise (Fld.FIFO_EVT_MBI_UNDERRUN c))
  | e :: t => (mbValue e, s.modFifos c (fun f => { f with mbi := t, mbiLast := mbValue e }))

/-- Keeper write of MBO_DATA (R188). -/
def mboPush (s : State) (c : Fin 56) (w : Word) : State :=
  let (l, g) := mbPush (s.ch c).fifos.mbo w
  let s := s.modFifos c (fun f => { f with mbo := l })
  if g then s.raise (Fld.FIFO_EVT_MBO_GAP c) else s

/-- Host read of MBO_DATA (R188): a marker reads 0 and is removed. -/
def mboRead (s : State) (c : Fin 56) : Word × State :=
  let f := (s.ch c).fifos
  match f.mbo with
  | [] => (f.mboLast, s.raise (Fld.FIFO_EVT_MBO_UNDERRUN c))
  | .data w :: t => (w, s.modFifos c (fun f => { f with mbo := t, mboLast := w }))
  | .marker _ :: t => (0, s.modFifos c (fun f => { f with mbo := t, mboLast := 0 }))

/-- Empty the FIFOs of a channel, their markers included (R173). -/
def fifosClear (s : State) (c : Fin 56) : State :=
  s.modFifos c (fun f => { f with rx := [], rxPos := 0, tx := [], build := [], mbi := [], mbo := [] })

/-! ### Partners (R193–R195) -/

def partnerFree : Nat := 0
def partnerPresent : Nat := 1
def partnerAbsent : Nat := 2

/-- Entries not FREE. -/
def partnerUsed (s : State) (c : Nat) : Nat :=
  ((List.range 64).filter (fun i => s.get (Fld.PT_ENTRY_STATE c i) != partnerFree)).length

/-- A discovery item (10, type 0x40): appearance 1 or disappearance 2 of entry `i`. -/
def discoveryRec (s : State) (c i kind lastTick ts : Nat) : Rec :=
  ⟨ts, 0x40, c, 0, 0,
    leBytes 1 i ++ leBytes 1 kind ++ leBytes 1 (s.get (Fld.PT_ENTRY_KIND c i)) ++ leBytes 1 0
      ++ leBytes 4 (s.get (Fld.PT_ENTRY_KEY c i)) ++ leBytes 6 lastTick ++ leBytes 2 0⟩

/-- Entry `i` appears with an item of timestamp `ts`. -/
def partnerAppear (s : State) (c : Fin 56) (i ts : Nat) : State :=
  let s := (s.put (Fld.PT_ENTRY_STATE c i) partnerPresent).raise (Fld.PT_EVT_APPEAR c)
  let s := s.put (Fld.PT_ENTRY1_SEEN c i) 0
  rxPlace s c (discoveryRec s c i 1 0 ts)

/-- Entry `i` disappears at time `ts`. -/
def partnerLeave (s : State) (c : Fin 56) (i ts : Nat) : State :=
  let s := (s.put (Fld.PT_ENTRY_STATE c i) partnerAbsent).raise (Fld.PT_EVT_DISAPPEAR c)
  rxPlace s c (discoveryRec s c i 2 (s.get (Fld.PT_ENTRY1_LAST_TICK c i)) ts)

/-- A valid item of `kind` and `key` has been placed (R194, R195). -/
def partnerSeen (s : State) (c : Fin 56) (kind key ts : Nat) : State :=
  let held := (List.range 64).find? (fun i => s.get (Fld.PT_ENTRY_STATE c i) != partnerFree
    && s.get (Fld.PT_ENTRY_KIND c i) == kind && s.get (Fld.PT_ENTRY_KEY c i) == key)
  let note (s : State) (i : Nat) : State :=
    (s.put (Fld.PT_ENTRY1_LAST_TICK c i) s.tick).bumpSat (Fld.PT_ENTRY1_SEEN c i) 1
  match held with
  | some i =>
    let s := if s.get (Fld.PT_ENTRY_STATE c i) = partnerAbsent then partnerAppear s c i ts else s
    note s i
  | none =>
    match (List.range 64).find? (fun i => s.get (Fld.PT_ENTRY_STATE c i) == partnerFree) with
    | some i =>
      let s := (s.put (Fld.PT_ENTRY_KIND c i) kind).put (Fld.PT_ENTRY_KEY c i) key
      note (partnerAppear s c i ts) i
    | none => (s.bumpSat (Fld.PT_STATUS_DROPPED c) 1).raise (Fld.PT_EVT_FULL c)

/-- A NACK of an address in I2C mode makes its entry ABSENT at once (R195). -/
def partnerNack (s : State) (c : Fin 56) (key : Nat) : State :=
  match (List.range 64).find? (fun i => s.get (Fld.PT_ENTRY_STATE c i) == partnerPresent
      && s.get (Fld.PT_ENTRY_KIND c i) == 0x07 && s.get (Fld.PT_ENTRY_KEY c i) == key) with
  | some i => partnerLeave s c i s.now
  | none => s

/-- The entry of a stream channel's link (R230), which only LINK_UP and LINK_DOWN change. -/
def linkEntry (s : State) (c i : Nat) : Bool :=
  s.get (Fld.PT_ENTRY_KIND c i) == 0x10 && s.get (Fld.PT_ENTRY_KEY c i) == 0xFFFFFFFF

/-- The disappearance check of a tick edge (R195). -/
def partnersAtEdge (s : State) (c : Fin 56) : State :=
  (List.range 64).foldl (fun s i =>
    if s.get (Fld.PT_ENTRY_STATE c i) = partnerPresent ∧ !linkEntry s c i
        ∧ s.get (Fld.PT_CFG_DISAPPEAR_TICKS c) < (s.tick + 2 ^ 48 - s.get (Fld.PT_ENTRY1_LAST_TICK c i)) % 2 ^ 48
    then partnerLeave s c i s.now else s) s

/-- CLEAR_PARTNERS (R190): every entry becomes FREE. -/
def partnersClear (s : State) (c : Fin 56) : State :=
  (List.range 64).foldl (fun s i => s.put (Fld.PT_ENTRY_STATE c i) partnerFree) s

end Sys2Proof.Machine
end

