-- ==== Sys2Proof/Machine/FieldChannel.lean ====
section
/-!
DEFINITION. Field channels (07): modes and pins, the checks of the bus engine registers, the engine's states, the traffic
of every mode, the control and sense codes of a route, and the TX path.
-/
namespace Sys2Proof.Machine

/-! ### Checks of the bus engine registers (R178–R187, R426) -/

/-- Timing of CAN_NBT, CAN_DBT or CAN_XBT, `i` = 0, 1, 2 (R179). -/
def canTimingOk (i v : Nat) : Bool :=
  let brp := bf v 0 5
  let t1 := bf v 8 8
  let t2 := bf v 16 7
  let sjw := bf v 24 7
  let q := 3 + t1 + t2
  let top := if i = 0 then 1 else if i = 1 then 8 else 20
  decide ((if i = 2 then 5 else 8) ≤ q) && decide (sjw ≤ t2) && !(i == 0 && bf v 31 1 == 1)
    && decide (160 ≤ top * ((brp + 1) * q))

/-- Slots in use are those whose field is nonzero; their starts ascend (R183). -/
def psiSlotsOk (v : Nat) : Bool :=
  let used := ([32, 40, 48, 56].map (fun lo => bf v lo 8)).filter (· != 0)
  (used.zip used.tail).all (fun p => decide (p.1 < p.2))

/-- The checks of one PIN_CFGn write (R185, R186, R426): PERIOD and HIGH are held to their ranges whatever FUNC is. -/
def pinCfgOk (s : State) (c n v : Nat) : Bool :=
  let func := bf v 0 3
  let old := s.get (Fld.PIN_CFG_FUNC c n)
  decide (func ≤ 5) && bf v 4 2 != 3 && !(func == 3 && n != 0)
    && decide (2 ≤ bf v 16 24 ∧ bf v 40 24 ≤ bf v 16 24)
    && (func == old || engineOf s c == engOff)
    && !(n == 0 && func == 3 && (s.get (Fld.PIN_CFG_FUNC c 1) != 0 || s.get (Fld.PIN_CFG_FUNC c 2) != 0))
    && !((n == 1 || n == 2) && func != 0 && s.get (Fld.PIN_CFG_FUNC c 0) == 3)

/-- A write of `v` to the BUSENG configuration register at offset `off` of a field channel is accepted. -/
def busCfgOk (s : State) (c off v : Nat) : Bool :=
  let canBusy := modeOf s c == modeCan && engineOf s c != engOff
  if off = 0x108 then bf v 4 2 != 3 && bf v 16 6 != 0 && bf v 24 6 != 0 && !canBusy
  else if off = 0x110 ∨ off = 0x118 ∨ off = 0x120 then canTimingOk ((off - 0x110) / 8) v && !canBusy
  else if off = 0x128 then
    bf v 0 2 != 3 && decide (1000 ≤ bf v 8 15 ∧ bf v 8 15 ≤ 20000) && decide (10 ≤ bf v 32 5)
  else if off = 0x130 then
    decide (500 ≤ bf v 0 17 ∧ bf v 0 17 ≤ 100000) && decide (1 ≤ bf v 17 3 ∧ bf v 17 3 ≤ 6) && bf v 22 2 != 3
  else if off = 0x138 then
    decide (10 ≤ bf v 2 5 ∧ bf v 2 5 ≤ 28) && decide (100 ≤ bf v 12 12 ∧ bf v 12 12 ≤ 4000) && psiSlotsOk v
  else if off = 0x140 then
    decide (300 ≤ bf v 0 24 ∧ bf v 0 24 ≤ 12000000) && decide (5 ≤ bf v 24 4 ∧ bf v 24 4 ≤ 9)
      && bf v 28 2 != 3 && bf v 32 8 != 0 && decide (1 ≤ bf v 40 12 ∧ bf v 40 12 ≤ 2048)
  else if off = 0x148 then decide (7 ≤ bf v 0 8) && bf v 12 4 != 0 && bf v 16 4 != 0 && bf v 20 4 != 0
  else if off = 0x150 then bf v 0 2 != 3 && bf v 8 8 != 0
  else if off = 0x158 ∨ off = 0x160 ∨ off = 0x168 ∨ off = 0x170 then pinCfgOk s c ((off - 0x158) / 8) v
  else if 0x200 ≤ off ∧ off < 0x300 then bf v 62 2 != 3
  else true

/-! ### Engine control (R176, R180, R190) -/

/-- The engine turns ON, in listen-only operation when `listen`. SENT, PSI5, UART and TIMER have no listen-only
operation of their own. DESIGN CHOICE (log entry 140): one that is ON already starts afresh. -/
def busTurnOn (s : State) (c : Fin 56) (listen : Bool) : State :=
  let m := modeOf s c
  let e := if listen && (m == modeCan || m == modeLin) then engListen
    else if m == modeCan && s.isSet (Fld.CAN_CFG_LISTEN c) then engListen
    else if m == modeLin && s.get (Fld.LIN_CFG_ROLE c) == 0 then engListen
    else engOn
  let s := s.put (Fld.BE_STATUS_ENGINE c) e
  let s := if m == modeCan then
      ((s.put (Fld.BE_STATUS_TEC c) 0).put (Fld.BE_STATUS_REC c) 0).put (Fld.BE_STATUS_FCS c) 0
    else s
  let s := s.modBus c (fun b => { b with
    quad := Quad.reset
    sentCal := none
    psiSeen := false
    psiPrev := none
    listen := listen
    offNs := none
    pins := Vector.ofFn (fun n : Fin 4 =>
      let p := b.pins[n]
      let hi := decide (0 < s.get (Fld.PIN_CFG_HIGH c n))
      { p with rises := 0, firstNs := none, lastQ := none, minP := 0, maxP := 0, highQ := 0
               pwm := hi, period := s.get (Fld.PIN_CFG_PERIOD c n), high := s.get (Fld.PIN_CFG_HIGH c n) }) })
  drivePins s c

/-- The engine turns OFF: an item still arriving is counted in ITEMS_DROPPED (R190), at once where its beginning has been
received, otherwise when it ends (`lateItem`); the outputs go to their safe levels (R176). -/
def busTurnOff (s : State) (c : Fin 56) : State :=
  let b := (s.ch c).bus
  let lost := (if b.uart.isSome then 1 else 0) + (if b.linHdr.isSome then 1 else 0)
  let s := statAdd s c statDropped lost
  let off := if engineUp s c && lost == 0 then some s.now else b.offNs
  let s := s.put (Fld.BE_STATUS_ENGINE c) engOff
  driveLender (drivePins (s.modBus c (fun b =>
    { b with uart := none, linHdr := none, linSend := false, psiSync := false, offNs := off })) c) c

/-- An item that began at `ts` ends while the engine is OFF: it was arriving when the engine turned OFF when it began before that,
and is counted as lost (R190, R192). -/
def lateItem (s : State) (c : Fin 56) (ts : Nat) : State :=
  match engineOf s c == engOff, (s.ch c).bus.offNs with
  | true, some t =>
    (if ts < t then statAdd s c statDropped 1 else s).modBus c (fun b => { b with offNs := none })
  | _, _ => s

/-! ### Filters (R187) -/

/-- What the filters decide on a frame: accepted or not, and whether by a TRACK filter. -/
def filterDecide (s : State) (c id : Nat) (ide xl : Bool) : Bool × Bool :=
  let hit := (List.range 32).find? (fun i =>
    s.get (Fld.FILTER_ACTION c i) != 0
      && (s.get (Fld.FILTER_IDE c i) == 1) == ide && (s.get (Fld.FILTER_XL c i) == 1) == xl
      && (id &&& s.get (Fld.FILTER_MASK c i)) == (s.get (Fld.FILTER_ID c i) &&& s.get (Fld.FILTER_MASK c i)))
  match hit with
  | some i => (s.get (Fld.FILTER_ACTION c i) == 1, s.get (Fld.FILTER_ACTION c i) == 1 && s.isSet (Fld.FILTER_TRACK c i))
  | none => (s.get (Fld.FILT_CTRL_DEFAULT c) == 0, false)

/-- A protocol error of the mode is counted (R192) and sets BE_EVT.PROTO_ERR. -/
def protoError (s : State) (c : Fin 56) : State :=
  busEvent ((statAdd s c statProto 1).raise (Fld.BE_EVT_PROTO_ERR c)) c

/-- An item timestamp is never later than the present (R15). -/
def clampTs (s : State) (ts : Nat) : Nat := min ts s.now

/-! ### CAN -/

/-- Fault confinement after a change of the error counters (R178, R180): error-passive above 127, bus-off when the
transmit counter passes 255. -/
def canConfine (s : State) (c : Fin 56) (tec rec_ : Nat) : State :=
  let old := s.get (Fld.BE_STATUS_FCS c)
  let fcs := if 255 < tec then 2 else if 127 < tec ∨ 127 < rec_ then 1 else 0
  let s := ((s.put (Fld.BE_STATUS_TEC c) (min tec 255)).put (Fld.BE_STATUS_REC c) (min rec_ 255)).put
    (Fld.BE_STATUS_FCS c) fcs
  let s := if fcs = 1 ∧ old ≠ 1 then busEvent (s.raise (Fld.BE_EVT_ERR_PASSIVE c)) c else s
  if fcs = 2 then
    busEvent ((s.put (Fld.BE_STATUS_ENGINE c) engBusOff).raise (Fld.BE_EVT_BUS_OFF c)) c
  else s

/-- Payload of a CAN or CAN XL record (10, R233). -/
def canPayload (f : CanFrame) : List Byte :=
  if f.xl then
    leBytes 4 (f.id.toNat % 2048 + f.sdt.toNat * 2 ^ 16 + f.vcid.toNat * 2 ^ 24) ++ leBytes 4 f.af.toNat
      ++ leBytes 2 f.data.length ++ leBytes 1 ((if f.sec then 1 else 0) + (if f.rrs then 2 else 0)) ++ leBytes 1 0
      ++ leBytes 4 f.fcrc.toNat ++ f.data
  else
    leBytes 4 (f.id.toNat % 2 ^ 29) ++ leBytes 1 f.dlc.toNat ++ leBytes 1 f.data.length
      ++ leBytes 1 ((if f.ide then 1 else 0) + (if f.fdf then 2 else 0) + (if f.brs then 4 else 0)
          + (if f.rtr then 8 else 0) + (if f.esi then 16 else 0))
      ++ leBytes 1 0 ++ f.data

/-- A CAN protocol error (R178): kind 0 bit, 1 stuff, 2 form, 3 CRC, 4 acknowledgement. As transmitter the transmit counter rises
by 8, as receiver the receive counter by 1, or by 8 when it is the `primary` error of the standard. An error-passive transmitter
that is not acknowledged keeps its counter unless a dominant bit showed in its error flag (`primary`); a receiver meets no
acknowledgement error. -/
def canError (s : State) (c : Fin 56) (kind : Nat) (tx primary : Bool) : State :=
  if modeOf s c == modeCan && engineUp s c && (tx || kind != 4) then
    let s := if kind = 4 then protoError s c else detailAdd (protoError s c) c (16 * (kind % 4)) 16
    let tec := s.get (Fld.BE_STATUS_TEC c)
    let rc := s.get (Fld.BE_STATUS_REC c)
    if engineOf s c == engListen then canConfine s c tec (rc + 1)
    else if tx then canConfine s c (if kind = 4 ∧ s.get (Fld.BE_STATUS_FCS c) = 1 ∧ !primary then tec else tec + 8) rc
    else canConfine s c tec (rc + (if primary then 8 else 1))
  else s

/-- The format of a frame is enabled. -/
def canEnabled (s : State) (c : Nat) (f : CanFrame) : Bool :=
  (!f.xl || s.isSet (Fld.CAN_CFG_XL_EN c)) && (!f.fdf || s.isSet (Fld.CAN_CFG_FD_EN c))

/-- What transceiver mode switching shows in the data phase of an XL frame (XLMS): the PWM coding of a frame the channel sends, or
the level on FIOc_3. -/
def xlSwitch (s : State) (c : Fin 56) (f : CanFrame) : State :=
  let m := s.get (Fld.CAN_CFG_XLMS c)
  if !f.xl then s
  else if m = 1 ∧ f.tx then s.emit (.xlPwm c (s.get (Fld.CAN_CFG_PWMS c)) (s.get (Fld.CAN_CFG_PWML c)))
  else if m = 2 then (s.emit (.pin c 3 true)).emit (.pin c 3 false)
  else s

/-- A CAN frame becomes valid (R177, R178, R187). One of a format that is not enabled is a protocol exception, which the engine
waits out, or with PROTO_EXC 0 a form error. -/
def canFrame (s : State) (c : Fin 56) (f : CanFrame) (ts : Nat) : State :=
  if modeOf s c == modeCan && engineUp s c && !canEnabled s c f then
    if s.isSet (Fld.CAN_CFG_PROTO_EXC c) then s else canError s c 2 false false
  else if modeOf s c == modeCan && engineUp s c then
    let s := xlSwitch s c f
    let tec := s.get (Fld.BE_STATUS_TEC c)
    let rc := s.get (Fld.BE_STATUS_REC c)
    let s := if f.tx then canConfine s c (tec - 1) rc
      else canConfine s c tec (if 127 < rc then 127 else rc - 1)
    let (ok, track) := filterDecide s c f.id.toNat f.ide f.xl
    if ok then
      let t := clampTs s ts
      let s := rxPlace s c ⟨t, if f.xl then 0x02 else 0x01, c, 0, if f.tx then 1 else 0, canPayload f⟩
      if track then partnerSeen s c (if f.xl then 0x02 else 0x01)
        (f.id.toNat % 2 ^ 29 + (if f.ide then 2 ^ 29 else 0) + (if f.xl then 2 ^ 30 else 0)) t
      else s
    else statAdd s c statFiltered 1
  else if modeOf s c == modeCan then lateItem s c ts
  else s

/-- The bus-off recovery sequence ends (R180). -/
def canRecovered (s : State) (c : Fin 56) : State :=
  if engineOf s c = engRecovering then
    (((s.put (Fld.BE_STATUS_ENGINE c) engOn).put (Fld.BE_STATUS_TEC c) 0).put (Fld.BE_STATUS_REC c) 0).put
      (Fld.BE_STATUS_FCS c) 0
  else s

/-! ### LIN -/

/-- The PID of an identifier: its two parity bits above it (ISO 17987). -/
def linPid (id : Nat) : Nat :=
  let b (i : Nat) : Nat := bf id i 1
  id % 64 + (b 0 + b 1 + b 2 + b 4) % 2 * 64 + (1 + b 1 + b 3 + b 4 + b 5) % 2 * 128

/-- The checksum of a response (R181): the inverted sum with carries of its bytes, and of the PID for IDs 0x00 to 0x3B. -/
def linSum (pid : Nat) (data : List Byte) : Nat :=
  let start := if pid % 64 < 0x3C then pid else 0
  255 - data.foldl (fun a b => let x := a + b.toNat; if 256 ≤ x then x - 255 else x) start

/-- The errors of a frame: its checksum, the parity of its PID. -/
def linSumBad (f : LinFrame) : Bool := f.sum.toNat != linSum f.pid.toNat f.data
def linParBad (pid : Nat) : Bool := pid != linPid pid

/-- What a responder puts on the bus from a TX item: its response bytes and their checksum; a commander sends the break and the
header first, and the item's response when it has any (R181). -/
def linResponse (b : List Byte) : List Byte :=
  let pid := linPid (leNat ((b.drop 4).take 4))
  let data := (b.drop 16).take (leNat (b.take 2))
  if data.isEmpty then [] else data ++ leBytes 1 (linSum pid data)
def linCommand (s : State) (c : Fin 56) (b : List Byte) : State :=
  (s.emit (.linBreak c 13)).emit (.busTx c ([0x55] ++ leBytes 1 (linPid (leNat ((b.drop 4).take 4))) ++ linResponse b))

/-- The oldest TX item of a LIN responder whose ID matches (R181). -/
def linMatch (f : Fifos) (id : Nat) : Option (List Byte) :=
  (f.tx.filterMap (fun e => match e with | .item b _ => some b | _ => none)).find?
    (fun b => leNat ((b.drop 4).take 4) % 64 = id % 64)

/-- The item that answers a header is taken first (R181). -/
def linFirst (s : State) (c : Fin 56) (id : Nat) : State :=
  let hit (e : TxEnt) : Bool := match e with | .item b _ => leNat ((b.drop 4).take 4) % 64 == id % 64 | _ => false
  s.modFifos c (fun f => { f with tx := match f.tx.find? hit with
    | some e => e :: f.tx.eraseP hit
    | none => f.tx })

/-- The bit rate of a LIN frame (R181): that measured from the sync field, `rate`, for a listener or responder with AUTOBAUD; else
BAUD. -/
def linRate (s : State) (c rate : Nat) : Nat :=
  if s.isSet (Fld.LIN_CFG_AUTOBAUD c) && s.get (Fld.LIN_CFG_ROLE c) != 2 then rate else s.get (Fld.LIN_CFG_BAUD c)

/-- A LIN header arrives after a break of `brk` dominant bits (R181): a responder answers from a matching TX item or stays silent. A
shorter break than BREAK_DETECT begins no header; a responder answers no PID whose parity is wrong. -/
def linHeader (s : State) (c : Fin 56) (pid brk ts : Nat) : State :=
  if modeOf s c == modeLin && engineUp s c && decide (s.get (Fld.LIN_CFG_BREAK_DETECT c) ≤ brk) then
    let s := s.modBus c (fun b => { b with linHdr := some (pid % 64, clampTs s ts), linSend := false })
    if engineOf s c == engOn && s.get (Fld.LIN_CFG_ROLE c) == 1 && !linParBad pid then
      match linMatch (s.ch c).fifos pid with
      | some b => ((linFirst s c pid).modBus c (fun b => { b with linSend := true })).emit (.busTx c (linResponse b))
      | none => busEvent (s.raise (Fld.BE_EVT_NO_RESPONSE c)) c
    else s
  else s

/-- Payload of a LIN record (10, R233): PID, response, checksum, flags, measured bit rate. -/
def linPayload (pid : Nat) (data : List Byte) (sum flags rate : Nat) : List Byte :=
  leBytes 1 pid ++ leBytes 1 data.length ++ leBytes 1 sum ++ leBytes 1 flags ++ leBytes 2 rate ++ leBytes 2 0 ++ data

/-- A LIN frame ends after its checksum (R181, R177). -/
def linFrame (s : State) (c : Fin 56) (f : LinFrame) (ts : Nat) : State :=
  if modeOf s c == modeLin && engineUp s c then
    let id := f.pid.toNat % 64
    let par := linParBad f.pid.toNat
    let err := linSumBad f || par
    let s := s.modBus c (fun b => { b with linHdr := none })
    let s := if err then protoError s c else s
    let (ok, _) := filterDecide s c id false false
    if ok then
      let t := clampTs s ts
      let flags := (if linSumBad f then 2 else 0) + (if par then 4 else 0) + (if 0x3C ≤ id then 8 else 0)
      let s := rxPlace s c ⟨t, 0x03, c, 0, (if f.tx then 1 else 0) + (if err then 2 else 0),
        linPayload f.pid.toNat f.data f.sum.toNat flags (linRate s c f.rate.toNat)⟩
      if err then s else partnerSeen s c 0x03 id t
    else statAdd s c statFiltered 1
  else if modeOf s c == modeLin then lateItem s c ts
  else s

/-- A LIN response timeout ends a header-only item (R177). -/
def linTimeout (s : State) (c : Fin 56) (pid rate : Nat) : State :=
  match (s.ch c).bus.linHdr with
  | some (id, t) =>
    let s := s.modBus c (fun b => { b with linHdr := none })
    let (ok, _) := filterDecide s c id false false
    if ok then rxPlace s c ⟨t, 0x03, c, 0, 0, linPayload pid [] 0 (1 + (if 0x3C ≤ id then 8 else 0)) (linRate s c rate)⟩
    else statAdd s c statFiltered 1
  | none => s

/-! ### SENT and PSI5 -/

/-- The calibration pulse is accepted (R182): within ±25 % of 56 × TICK_NS and within 1/64 of the last accepted one. -/
def sentCalOk (s : State) (c : Fin 56) (cal : Nat) : Bool :=
  let nom := 56 * s.get (Fld.SENT_CFG_TICK_NS c)
  decide (3 * nom ≤ 4 * cal ∧ 4 * cal ≤ 5 * nom)
    && (match (s.ch c).bus.sentCal with
        | some p => decide (64 * (max cal p - min cal p) ≤ p)
        | none => true)

/-- The 4-bit CRC of SENT over nibbles, first nibble first: x^4 + x^3 + x^2 + 1 from 5. The recommended one takes a zero nibble
after the data, which the legacy one does not. PRESUMED (log entry 115): SAE J2716. -/
def sentCrc4 (legacy : Bool) (l : List Nat) : Nat :=
  (l ++ if legacy then [] else [0]).foldl (fun a d =>
    [0, 13, 7, 10, 14, 3, 9, 4, 1, 12, 6, 11, 15, 2, 8, 5].getD a 0 ^^^ (d % 16)) 5

/-- The 6-bit CRC of an enhanced serial message over the bits 3 and 2 of frames 7 to 18: x^6 + x^4 + x^3 + 1 from 0x15, six zero bits
after the message. PRESUMED (log entry 115): SAE J2716. -/
def sentCrc6 (bits : List Nat) : Nat :=
  (bits ++ List.replicate 6 0).foldl (fun a b => let x := 2 * a + b; if 64 ≤ x then x ^^^ 0x59 else x) 0x15

/-- The message bits of an enhanced serial message: for frames 7 to 18 the data bit in bit 2, then the bit 3 of the format. -/
def sentBits (wide : Bool) (id data : Nat) : List Nat :=
  let b3 (i : Nat) : Nat :=
    if i = 1 then (if wide then 1 else 0)
    else if 2 ≤ i ∧ i ≤ 5 then (if wide then bf id (5 - i) 1 else bf id (9 - i) 1)
    else if 7 ≤ i ∧ i ≤ 10 then (if wide then bf data (22 - i) 1 else bf id (10 - i) 1)
    else 0
  ((List.range 12).map (fun i => [bf data (11 - i) 1, b3 i])).flatten

/-- The CRC a SENT message must carry. -/
def sentCrc (s : State) (c : Nat) (m : SentMsg) : Nat :=
  let d := m.data.toNat
  let legacy := s.isSet (Fld.SENT_CFG_CRC_LEGACY c)
  let n := s.get (Fld.SENT_CFG_NIBBLES c)
  if m.kind = 1 then sentCrc4 legacy ((List.range n).map (fun i => d / 16 ^ (n - 1 - i) % 16))
  else if m.kind = 2 then sentCrc4 legacy [m.serialId.toNat % 16, d / 16 % 16, d % 16]
  else sentCrc6 (sentBits (m.kind == 4) m.serialId.toNat d)

/-- The message is kept with a CRC error. -/
def sentCrcBad (s : State) (c : Nat) (m : SentMsg) : Bool := m.crc.toNat != sentCrc s c m

/-- The engine takes messages of this kind: the fast channel always, short serial messages with SERIAL 1, enhanced ones with
SERIAL 2 (SENT_CFG). -/
def sentTakes (s : State) (c : Nat) (kind : Nat) : Bool :=
  kind == 1 || (kind == 2 && s.get (Fld.SENT_CFG_SERIAL c) == 1)
    || ((kind == 3 || kind == 4) && s.get (Fld.SENT_CFG_SERIAL c) == 2)

/-- A SENT message ends (R182): KIND 0x01 fast, 0x02 to 0x04 serial. PAUSE tells the receiver of one more pulse after the CRC, which
ends no item. DESIGN CHOICE (log entry 140): a CRC error counts as a protocol error and sets no BE_EVT bit. -/
def sentMessage (s : State) (c : Fin 56) (m : SentMsg) (ts : Nat) : State :=
  if modeOf s c == modeSent && engineUp s c && !sentTakes s c m.kind.toNat then s
  else if modeOf s c == modeSent && engineUp s c then
    let bad := sentCrcBad s c m
    if !sentCalOk s c m.cal.toNat then
      let s := detailAdd (statAdd s c statProto 1) c 32 32
      busEvent (s.raise (Fld.BE_EVT_SYNC_LOST c)) c
    else
      let s := s.modBus c (fun b => { b with sentCal := some m.cal.toNat })
      let s := if bad then detailAdd (statAdd s c statProto 1) c 0 32 else s
      let fast := m.kind.toNat == 1
      let n := if fast then s.get (Fld.SENT_CFG_NIBBLES c) else 0
      let t := clampTs s ts
      let s := rxPlace s c ⟨t, 0x04, c, 0, if bad then 2 else 0,
        leBytes 1 m.kind.toNat ++ leBytes 1 n ++ leBytes 1 (if fast then m.status.toNat % 16 else 0)
          ++ leBytes 1 (if bad then 1 else 0) ++ leBytes 4 m.cal.toNat ++ leBytes 4 m.data.toNat
          ++ leBytes 1 m.serialId.toNat ++ leBytes 3 0⟩
      if bad then s else partnerSeen s c 0x04 0 t
  else if modeOf s c == modeSent then lateItem s c ts
  else s

/-- The PSI5 slot whose window holds a time after the sync: SLOTk × 2 µs to the next slot in use or the next sync. -/
def psiSlot (s : State) (c : Fin 56) (since : Nat) : Option Nat :=
  let starts := (List.range 4).filterMap (fun k =>
    let v := ([s.get (Fld.PSI5_CFG_SLOT1 c), s.get (Fld.PSI5_CFG_SLOT2 c), s.get (Fld.PSI5_CFG_SLOT3 c),
      s.get (Fld.PSI5_CFG_SLOT4 c)]).getD k 0
    if v = 0 then none else some (k + 1, v * 2000))
  ((starts.filter (fun p => decide (p.2 ≤ since))).getLast?).map (·.1)

/-- Time from the sync in whose period a time lies: the last sync, or the one before it for a frame that ends after the last. -/
def psiSince (b : Bus) (t : Nat) : Option Nat :=
  if b.psiSeen && decide (b.psiNs ≤ t) then some (t - b.psiNs)
  else match b.psiPrev with
    | some p => if b.psiSeen && decide (p ≤ t) then some (t - p) else none
    | none => none

/-- The check bits of a PSI5 frame of `n` data bits, the first bit received the highest: even parity, or the CRC x^3 + x + 1 from 111
with three zero bits after the data. PRESUMED (log entry 145): PSI5 2.3. -/
def psi5Check (crc : Bool) (n data : Nat) : Nat :=
  let bits := (List.range n).map (fun i => bf data (n - 1 - i) 1)
  if crc then (bits ++ [0, 0, 0]).foldl (fun a b => let x := 2 * a + b; if 8 ≤ x then x ^^^ 0xB else x) 7 else bits.sum % 2

/-- A PSI5 frame ends, with the check bits as they were received (R183). One that starts in no window counts as a protocol error, in
MODE_DETAIL as a sync error (DEDUCED, log entry 116). -/
def psi5Frame (s : State) (c : Fin 56) (data ts check : Nat) (manchErr : Bool) : State :=
  if modeOf s c == modePsi5 && engineUp s c then
    let n := s.get (Fld.PSI5_CFG_DATA_BITS c)
    let data := data % 2 ^ n
    let crc := s.isSet (Fld.PSI5_CFG_CHECK c)
    let checkErr := check % (if crc then 8 else 2) != psi5Check crc n data
    let t := clampTs s ts
    let sync := s.isSet (Fld.PSI5_CFG_SYNC c)
    let slot := if sync then (psiSince (s.ch c).bus t).bind (psiSlot s c) else some 0
    match slot with
    | none => detailAdd (protoError s c) c 32 32
    | some k =>
      let err := checkErr || manchErr
      let s := if checkErr then detailAdd s c 0 32 else s
      let s := if err then protoError s c else s
      let s := rxPlace s c ⟨t, 0x05, c, 0, if err then 2 else 0,
        leBytes 4 data ++ leBytes 1 k ++ leBytes 1 ((if checkErr then 1 else 0) + (if manchErr then 2 else 0))
          ++ leBytes 2 0⟩
      if err then s else partnerSeen s c 0x05 k t
  else if modeOf s c == modePsi5 then lateItem s c ts
  else s

/-- The PSI5 SYNC request rises at a multiple of SYNC_PERIOD_US (R183), once at each multiple. -/
def psi5Sync (s : State) (c : Fin 56) : State :=
  let p := s.get (Fld.PSI5_CFG_SYNC_PERIOD_US c) * 1000
  let at_ := s.now / p * p
  let b := (s.ch c).bus
  if modeOf s c == modePsi5 && engineUp s c && s.isSet (Fld.PSI5_CFG_SYNC c) && !(b.psiSeen && b.psiNs == at_) then
    let s := s.modBus c (fun b =>
      { b with psiSync := true, psiNs := at_, psiSeen := true, psiPrev := if b.psiSeen then some b.psiNs else none })
    s.emit (.pin c 1 true)
  else s

/-- The SYNC request falls 15 µs after it rose. -/
def psi5SyncFall (s : State) (c : Fin 56) : State :=
  if (s.ch c).bus.psiSync then
    (s.modBus c (fun b => { b with psiSync := false })).emit (.pin c 1 false)
  else s

/-! ### UART -/

/-- The current UART item ends (R177); `why` is its end flag: 4 DELIM, 8 MAX_LEN, 16 idle. -/
def uartEnd (s : State) (c : Fin 56) (why : Nat) : State :=
  match (s.ch c).bus.uart with
  | none => s
  | some u =>
    let wide := s.get (Fld.UART_CFG_DATA_BITS c) == 9
    let err := u.frErr || u.paErr
    let s := s.modBus c (fun b => { b with uart := none })
    rxPlace s c ⟨u.ts, 0x06, c, 0, if err then 2 else 0,
      leBytes 2 u.chars.length ++ leBytes 1 ((if u.frErr then 1 else 0) + (if u.paErr then 2 else 0) + why)
        ++ leBytes 1 0 ++ leBytes 2 (if err then u.first else 0xFFFF) ++ leBytes 2 0
        ++ (u.chars.map (fun x => leBytes (if wide then 2 else 1) x)).flatten⟩

/-- A UART character is received into the current item (R177); DELIM or MAX_LEN ends the item. -/
def uartChar (s : State) (c : Fin 56) (ch ts : Nat) (frErr paErr : Bool) : State :=
  if modeOf s c == modeUart && engineUp s c then
    let wide := s.get (Fld.UART_CFG_DATA_BITS c) == 9
    let t := clampTs s ts
    let s := if frErr || paErr then protoError s c else s
    let s := s.modBus c (fun b =>
      let u := b.uart.getD ⟨t, [], false, false, 0⟩
      let first := if (u.frErr || u.paErr) then u.first else u.chars.length
      { b with uart := some ⟨u.ts, u.chars ++ [ch], u.frErr || frErr, u.paErr || paErr, first⟩ })
    let n := match (s.ch c).bus.uart with | some u => u.chars.length | none => 0
    if s.isSet (Fld.UART_CFG_DELIM_EN c) && ch == s.get (Fld.UART_CFG_DELIM c) then uartEnd s c 4
    else if s.get (Fld.UART_CFG_MAX_LEN c) ≤ n * (if wide then 2 else 1) then uartEnd s c 8
    else s
  else s

/-! ### TIMER (R186) -/

/-- QCLK cycles that have passed at a TIME_NS: 160 MHz. -/
def qclk (ns : Nat) : Nat := ns * 4 / 25

/-- Update one TIMER pin. -/
def modPin (s : State) (c : Fin 56) (n : Fin 4) (f : TimerPin → TimerPin) : State :=
  s.modBus c (fun b => { b with pins := b.pins.set n (f b.pins[n]) })

/-- A filtered edge on a digital input places an item (R177). -/
def digitalEdge (s : State) (c : Fin 56) (n : Fin 4) (level : Bool) (ts : Nat) : State :=
  if modeOf s c == modeTimer && engineUp s c && s.get (Fld.PIN_CFG_FUNC c n) == 1 then
    let level := level != s.isSet (Fld.PIN_CFG_INVERT c n)
    let s := modPin s c n (fun p => { p with level := level })
    rxPlace s c ⟨clampTs s ts, 0x08, c, 0, 0,
      leBytes 1 n ++ leBytes 1 3 ++ leBytes 1 (if level then 1 else 0) ++ leBytes 1 0 ++ leBytes 4 0⟩
  else s

/-- A counted edge on a capture pin: rising edges count and their distances are measured, falling edges end a high
time. -/
def capturePin (p : TimerPin) (level : Bool) (ts : Nat) : TimerPin :=
  let q := qclk ts
  if level then
    let d := match p.lastQ with | some l => q - l | none => 0
    let two := p.lastQ.isSome && decide (0 < p.rises)
    { p with level := true, rises := p.rises + 1, firstNs := some (p.firstNs.getD ts), lastNs := ts, lastQ := some q
             minP := if two then (if p.minP = 0 then d else min p.minP d) else p.minP
             maxP := if two then max p.maxP d else p.maxP, highFrom := q }
  else { p with level := false, highQ := p.highQ + (if p.level then q - p.highFrom else 0) }

/-- The direction of a quadrature edge from the levels of A and B before and after it: every edge of A or B counts one
step. -/
def quadStep (a b a' b' : Bool) : Int :=
  if a != a' then (if a' != b' then 1 else -1)
  else if b != b' then (if a' == b' then 1 else -1)
  else 0

/-- A counted edge on a capture or quadrature pin (R186). -/
def captureEdge (s : State) (c : Fin 56) (n : Fin 4) (level : Bool) (ts : Nat) : State :=
  if modeOf s c == modeTimer && engineUp s c then
    let ts := clampTs s ts
    if s.get (Fld.PIN_CFG_FUNC c 0) == 3 && decide (n.val < 3) then
      let b := (s.ch c).bus
      let lv (i : Fin 4) : Bool := b.pins[i].level
      let level := level != s.isSet (Fld.PIN_CFG_INVERT c n)
      let s := modPin s c n (fun p => { p with level := level })
      if n = 2 then
        if level && !lv 2 then s.modBus c (fun b => { b with quad := { b.quad with index := b.quad.index + 1, idxNs := ts } })
        else s
      else
        let d := if n = 0 then quadStep (lv 0) (lv 1) level (lv 1) else quadStep (lv 0) (lv 1) (lv 0) level
        let first (q : Quad) : Option Nat := if d = 0 then q.firstNs else some (q.firstNs.getD ts)
        s.modBus c (fun b => { b with quad :=
          { b.quad with pos := b.quad.pos + d, delta := b.quad.delta + d, firstNs := first b.quad } })
    else if s.get (Fld.PIN_CFG_FUNC c n) == 2 then
      modPin s c n (fun p => capturePin p (level != s.isSet (Fld.PIN_CFG_INVERT c n)) ts)
    else s
  else s

/-- The summary items of the capture and quadrature pins at a tick edge (R177, R186). -/
def timerAtEdge (s : State) (c : Fin 56) : State :=
  if modeOf s c == modeTimer && engineUp s c then
    (List.finRange 4).foldl (fun (s : State) (n : Fin 4) =>
      let b := (s.ch c).bus
      let p := b.pins[n]
      let q := qclk s.now
      if s.get (Fld.PIN_CFG_FUNC c n) = 2 then
        let high := p.highQ + (if p.level then q - p.highFrom else 0)
        let few := decide (p.rises < 2)
        let s := rxPlace s c ⟨p.firstNs.getD s.now, 0x08, c, 0, 0,
          leBytes 1 n ++ leBytes 1 1 ++ leBytes 1 (if p.level then 1 else 0) ++ leBytes 1 0 ++ leBytes 4 p.rises
            ++ leBytes 8 p.lastNs ++ leBytes 4 (if few then 0 else p.minP) ++ leBytes 4 (if few then 0 else p.maxP)
            ++ leBytes 4 high ++ leBytes 4 0⟩
        modPin s c n (fun p => { p with rises := 0, firstNs := none, minP := 0, maxP := 0, highQ := 0, highFrom := q })
      else if s.get (Fld.PIN_CFG_FUNC c n) = 3 then
        let s := rxPlace s c ⟨b.quad.firstNs.getD s.now, 0x08, c, 0, 0,
          leBytes 1 0 ++ leBytes 1 2 ++ leBytes 1 (if p.level then 1 else 0) ++ leBytes 1 0 ++ leInt 4 b.quad.delta
            ++ leBytes 8 b.quad.idxNs ++ leInt 4 b.quad.pos ++ leBytes 4 b.quad.index ++ leBytes 4 0 ++ leBytes 4 0⟩
        s.modBus c (fun b => { b with quad := { b.quad with delta := 0, firstNs := none } })
      else s) s
  else s

/-- A PWM output's count reaches HIGH or PERIOD (R186): the pin falls at HIGH and rises at PERIOD, where a new PERIOD
and HIGH apply. -/
def pwmPeriod (s : State) (c : Fin 56) (n : Fin 4) : State :=
  if modeOf s c == modeTimer && engineUp s c && s.get (Fld.PIN_CFG_FUNC c n) == 4 then
    let p := (s.ch c).bus.pins[n]
    let inv := s.isSet (Fld.PIN_CFG_INVERT c n)
    if p.pwm && decide (p.high < p.period) then
      (modPin s c n (fun p => { p with pwm := false })).emit (.pin c n inv)
    else
      let hi := s.get (Fld.PIN_CFG_HIGH c n)
      let lvl := decide (0 < hi)
      (modPin s c n (fun p => { p with pwm := lvl, period := s.get (Fld.PIN_CFG_PERIOD c n), high := hi })).emit
        (.pin c n (lvl != inv))
  else s

/-! ### TX items (R189) -/

/-- The item's payload length, its kind and its flags. -/
def txLen (b : List Byte) : Nat := leNat (b.take 2)
def txKind (b : List Byte) : Nat := leNat ((b.drop 2).take 1)
def txFlags (b : List Byte) : Nat := leNat ((b.drop 3).take 1)

/-- Bytes a whole item occupies. -/
def txSize (b : List Byte) : Nat := 16 + (txLen b + 7) / 8 * 8

/-- The header of a TX item obeys the table of R189 and the channel's mode can send it. -/
def txItemOk (s : State) (c : Nat) (b : List Byte) : Bool :=
  let len := txLen b
  let kind := txKind b
  let fl := txFlags b
  let fdf := bf fl 1 1 == 1
  let zeros (lo n : Nat) : Bool := ((b.drop lo).take n).all (· == 0)
  decide (16 ≤ b.length) && b.length == txSize b && zeros 10 2 &&
  (if kind = 1 then modeOf s c == modeCan && decide (fl < 32) && bf fl 4 1 == 0 && zeros 8 2 && zeros 12 4
      && decide (len ≤ if fdf then 64 else 8) && (!fdf || s.isSet (Fld.CAN_CFG_FD_EN c))
   else if kind = 2 then modeOf s c == modeCan && s.isSet (Fld.CAN_CFG_XL_EN c) && decide (fl < 32)
      && decide (1 ≤ len ∧ len ≤ 2048)
   else if kind = 3 then modeOf s c == modeLin && fl == 0 && decide (len ≤ 8) && zeros 8 2 && zeros 12 4
      && decide (leNat ((b.drop 4).take 4) < 64)
   else if kind = 6 then modeOf s c == modeUart && fl == 0 && decide (1 ≤ len ∧ len ≤ 2048) && zeros 4 4
      && zeros 8 2 && zeros 12 4
   else if kind = 0x10 then modeOf s c == 9 && fl == 0 && decide (14 ≤ len ∧ len ≤ 16380) && zeros 4 6 && zeros 12 4
   else false)

/-- TX_PUSH (R189): the item being built is checked and queued, or discarded with TX_BAD. -/
def txPush (s : State) (c : Fin 56) : State :=
  let b := (s.ch c).fifos.build
  let s := s.modFifos c (fun f => { f with build := [] })
  if txItemOk s c b then txQueue s c b else s.raise (Fld.FIFO_EVT_TX_BAD c)

/-- Cut the buffer of a TRANSMIT into its whole items (R189); `none` when it holds anything else. -/
def txSplit (fuel : Nat) (b : List Byte) : Option (List (List Byte)) :=
  match fuel, b with
  | _, [] => some []
  | 0, _ => none
  | k + 1, b =>
    if b.length < 16 ∨ b.length < txSize b then none
    else (txSplit k (b.drop (txSize b))).map (fun l => b.take (txSize b) :: l)

/-- Move waiting items of a TRANSMIT into the TX FIFO while there is room (R188). -/
def txFeed (fuel : Nat) (s : State) (c : Fin 56) : State :=
  match fuel with
  | 0 => s
  | k + 1 =>
    let f := (s.ch c).fifos
    match (s.ch c).bus.txWait with
    | [] => s
    | b :: t =>
      if txItems f < 31 ∧ b.length ≤ txFree f then
        let s := s.modFifos c (fun f => { f with tx := f.tx ++ [.item b true] })
        txFeed k (s.modBus c (fun b => { b with txWait := t })) c
      else s

/-! ### Control and sense codes (R190, R191) -/

/-- Block of SENSE code 0x0001: the counters of R192, SNAP_TICK last. -/
def countersBlock (s : State) (c : Nat) : List Byte :=
  ((List.range 7).map (fun i => leBytes 8 (s.get (Fld.STATS_CNT_COUNT c i)))).flatten ++ leBytes 8 s.tick

/-- Block of SENSE code 0x0003: the partner table. -/
def partnersBlock (s : State) (c : Nat) : List Byte :=
  ((List.range 64).map (fun i =>
    leBytes 8 (s.get (Fld.PT_ENTRY_STATE c i) + s.get (Fld.PT_ENTRY_KIND c i) * 2 ^ 8
        + s.get (Fld.PT_ENTRY_KEY c i) * 2 ^ 16)
      ++ leBytes 8 (s.get (Fld.PT_ENTRY1_LAST_TICK c i) + s.get (Fld.PT_ENTRY1_SEEN c i) * 2 ^ 48))).flatten

/-- The codes that turn the engine on or off in a mode: MODE NONE has no engine; SPI and I2C stay ON. -/
def engineCode (s : State) (c : Fin 56) (f : State → State) : Nat × State :=
  let m := modeOf s c
  if m = modeNone ∨ m = modeLend then (St.rejectedState, s)
  else if ctrlMode m then (St.ok, s)
  else (St.ok, f s)

/-- BUS_ON_LISTEN on a field channel (R190). DESIGN CHOICE (log entry 140): in BUS_OFF and RECOVERING it does nothing. -/
def fieldOnListen (s : State) (c : Fin 56) : Nat × State :=
  engineCode s c (fun s => if engineOf s c = engBusOff ∨ engineOf s c = engRecovering then s else busTurnOn s c true)

/-- BUS_ON on a field channel: in CAN BUS_OFF state, recovery starts (R180, R190). -/
def fieldOn (s : State) (c : Fin 56) : Nat × State :=
  engineCode s c (fun s =>
    if engineOf s c = engBusOff then s.put (Fld.BE_STATUS_ENGINE c) engRecovering
    else if engineOf s c = engRecovering then s
    else busTurnOn s c false)

/-- BUS_OFF on a field channel (R190). -/
def fieldOff (s : State) (c : Fin 56) : Nat × State := engineCode s c (fun s => busTurnOff s c)

/-- The checks CHANNEL_ENABLE makes on MODE and SPI_CS (R173). -/
def modeChecks (s : State) (c mode : Nat) : Bool :=
  let cs := s.isSet (Fld.BE_MODE_SPI_CS c)
  mode != modeLend
    && (!cs || (mode == modeSpi && c != 47 && chState s (c + 1) == chDisabled && modeOf s (c + 1) == modeLend
        || mode == modeSpi && c != 47 && chState s (c + 1) == chLent))

/-- SET_MODE (R190): the engine must be OFF, which an SPI or I2C controller never is (R184). DESIGN CHOICE (log entry 140): one that
fails the checks of CHANNEL_ENABLE holds a value that is refused, and ends with 0x82. -/
def fieldSetMode (s : State) (c : Fin 56) (w2 : Nat) : Nat × State :=
  let mode := bf w2 0 4
  if 2 ^ 5 ≤ w2 ∨ !modeOk mode then (0x82, s)
  else if engineOf s c ≠ engOff then (St.rejectedState, s)
  else if !modeChecks s c mode then (0x82, s)
  else
    let s := (s.put (Fld.BE_MODE_MODE c) mode).put (Fld.BE_MODE_RXPATH c) (bf w2 4 1)
    (St.ok, drivePins (s.put (Fld.BE_STATUS_ENGINE c) (if ctrlMode mode then engOn else engOff)) c)

end Sys2Proof.Machine
end

