-- ==== Sys2Proof/Machine/TowFrames.lean ====
section
/-!
DEFINITION. The guard code (15, R333–R335) and the frames of the towpath (17, R384–R387).
-/
namespace Sys2Proof.Machine

/-! ### The guard code -/

/-- Number of ones of an 8-bit value. -/
def weight8 (v : Nat) : Nat := ((List.range 8).filter (fun i => bit v i)).length

/-- Columns H(0) to H(63). -/
def guardCols : List Nat :=
  ((List.range 256).filter (fun v => weight8 v == 3)) ++ [0x1F, 0x2F, 0x37, 0x3B, 0x3D, 0x3E, 0x4F, 0x57]

/-- The 7-bit groups of a granule address folded together. -/
def fold7 (fuel g : Nat) : Nat :=
  match fuel with
  | 0 => 0
  | k + 1 => (g % 128) ^^^ fold7 k (g / 128)

/-- fold(g) (R334). -/
def guardFold (g : Nat) : Nat :=
  let f := fold7 10 g
  f + 128 * (weight8 f % 2)

/-- The check bits of a word at granule `g` (R333, R334). -/
def guardBits (data g : Nat) : Nat :=
  (guardCols.zipIdx).foldl (fun c p => if bit data p.2 then c ^^^ p.1 else c) (guardFold g)

/-- What a syndrome says (R335): clean, corrected (the data bit that was inverted, if it was one), uncorrectable. -/
inductive Ecc where
  | clean
  | corrected (bit : Option Nat)
  | bad
deriving DecidableEq, Repr

/-- R335. -/
def eccOf (syn : Nat) : Ecc :=
  if syn = 0 then .clean
  else if weight8 syn = 1 then .corrected none
  else match guardCols.findIdx? (· == syn) with
    | some i => .corrected (some i)
    | none => .bad

/-! ### Frames (R384) -/

/-- Frame types. -/
def tpHello : Nat := 1
def tpSyncReq : Nat := 2
def tpSyncRsp : Nat := 3
def tpKsEvent : Nat := 4
def tpSignals : Nat := 5
def tpBeacon : Nat := 6

/-- The words of a frame with a check block after every 8 words and after the last. -/
def frameBlocks (fuel base : Nat) (ws : List Nat) : List Byte :=
  match fuel with
  | 0 => []
  | k + 1 =>
    let now := ws.take 8
    if now.isEmpty then []
    else (now.map (leBytes 8)).flatten
      ++ padTo 8 ((now.zipIdx.map (fun p => leBytes 1 (guardBits p.1 (base + p.2)))).flatten)
      ++ frameBlocks k (base + 8) (ws.drop 8)

/-- A frame: header word, payload words, check blocks. -/
def frameBytes (typ src dst seq rev hops : Nat) (payload : List Nat) : List Byte :=
  let hdr := typ + payload.length * 2 ^ 8 + src * 2 ^ 16 + dst * 2 ^ 24 + seq * 2 ^ 32 + rev * 2 ^ 48 + hops * 2 ^ 56
  frameBlocks 8 (seq * 64) (hdr :: payload)

/-- States of a port (R386). -/
def tpDown : Nat := 0
def tpTraining : Nat := 1
def tpNegotiate : Nat := 2
def tpUp : Nat := 3
def tpBlocked : Nat := 4

/-- A port's state. -/
def tpState (s : State) (p : Fin 2) : Nat := s.get (Fld.TP_PORT_STATUS_STATE p)

/-- Send a frame on a port with a given HOPS and source (R384). -/
def tpSendRaw (s : State) (p : Fin 2) (typ src dst hops : Nat) (payload : List Nat) : State :=
  let seq := (s.tpPort p).seq
  let s := s.emit (.towpath p (frameBytes typ src dst seq (s.get (Fld.TP_PORT_STATUS_REV p)) hops payload))
  s.modTpPort p (fun q => { q with seq := (q.seq + 1) % 65536 })

/-- Highest revision spoken, by the firmware's major version. -/
def tpRevMax (s : State) : Nat :=
  let v := if s.toll.active = 0 then s.toll.slotA.version else s.toll.slotB.version
  if v / 2 ^ 24 = 2 then 1 else 2

/-- A frame a revision-1 link does not carry is withheld (R387); REDUCED is a revision-2 device's. -/
def tpWithhold (s : State) (p : Fin 2) : State :=
  let s := s.bumpSat (Fld.TP_PORT_STATS_DOWNREV_DROP p) 1
  if s.isSet (Fld.TP_PORT_STATUS_REDUCED p) || tpRevMax s == 1 then s
  else (s.raise (Fld.TP_PORT_STATUS_REDUCED p)).raise (Fld.TP_PORT_EVT_REDUCED p)

/-- A frame type and code that need revision 2 (R387). -/
def tpNeeds2 (typ : Nat) (payload : List Nat) : Bool :=
  typ == tpSignals || (typ == tpKsEvent && decide (0xFF < bf (payload.headD 0) 16 16))

/-- Send a frame of this device on a port that is UP (R391, R392). -/
def tpSend (s : State) (p : Fin 2) (typ dst : Nat) (payload : List Nat) : State :=
  if tpState s p ≠ tpUp then s
  else if tpNeeds2 typ payload && decide (s.get (Fld.TP_PORT_STATUS_REV p) < 2) then tpWithhold s p
  else tpSendRaw s p typ (s.get Fld.TP_STATUS_POSITION) dst 0 payload

/-- Send on both ports. -/
def tpSendAll (s : State) (typ : Nat) (payload : List Nat) : State :=
  tpSend (tpSend s 0 typ 0xFF payload) 1 typ 0xFF payload

/-- A link is UP. -/
def tpAnyUp (s : State) : Bool := tpState s 0 == tpUp || tpState s 1 == tpUp

/-- Payload of a KS_EVENT (R391). -/
def ksEventWords (k code tick endNs : Nat) : List Nat :=
  [k + code * 2 ^ 16 + tick % 2 ^ 32 * 2 ^ 32, tick / 2 ^ 32, endNs]

end Sys2Proof.Machine
end

