-- ==== Sys2Proof/Machine/Signals.lean ====
section
/-!
DEFINITION. The signal board and the keystones (11, R250–R265): publishing, ranges, staleness, the check of a keystone
program, its evaluation and its actions, the trigger pins.
-/
namespace Sys2Proof.Machine

/-! ### Signal slots (R250–R256) -/

/-- An EMPTY slot. -/
def Sig.empty : Sig := ⟨0, 0, 0, 0⟩

/-- A slot of the live copy and of the view. -/
def liveSlot (s : State) (i : Nat) : Sig := SMap.get Sig.empty s.board.live i
def viewSlot (s : State) (i : Nat) : Sig := SMap.get Sig.empty s.board.view i

/-- The publisher a slot belongs to (R251): 0–55 a channel, 56 the host. -/
def slotOwner (s : State) (i : Nat) : Option Nat :=
  (List.range 57).find? (fun p =>
    let b := s.get (Fld.SIG_RANGE_BASE p)
    decide (b ≤ i) && decide (i < b + s.get (Fld.SIG_RANGE_COUNT p)))

/-- A publish by publisher `p` (R253); `none` when it is refused. -/
def sigPublish (s : State) (p slot : Nat) (value : Long) (qual ts : Nat) : Option State :=
  if slotOwner s slot = some p ∧ 1 ≤ qual ∧ qual ≤ 3 ∧ ts ≤ s.now then
    let g : Sig := ⟨value, qual, if ts = 0 then s.now else ts, s.tick⟩
    some (s.modBoard (fun b => { b with live := SMap.set Sig.empty b.live slot g }))
  else none

/-- Make the slots of a run EMPTY in both copies. -/
def sigEmpty (s : State) (base n : Nat) : State :=
  let out (l : List (Nat × Sig)) := l.filter (fun e => !(decide (base ≤ e.1) && decide (e.1 < base + n)))
  s.modBoard (fun b => { b with live := out b.live, view := out b.view })

/-- Make a published slot STALE. -/
def Sig.stale (g : Sig) : Sig := if g.qual = 0 then g else { g with qual := 4 }

/-- A channel's disable has completed: all its slots are STALE in both copies, those never published too (R255). -/
def sigStale (s : State) (c : Nat) : State :=
  let b := s.get (Fld.SIG_RANGE_BASE c)
  let f (l : List (Nat × Sig)) := (List.range (s.get (Fld.SIG_RANGE_COUNT c))).foldl (fun l i =>
    SMap.set Sig.empty l (b + i) { SMap.get Sig.empty l (b + i) with qual := 4 }) l
  s.modBoard (fun b => { b with live := f b.live, view := f b.view })

/-- CHANNEL_ENABLE takes effect: the channel's slots are EMPTY (R255). -/
def sigClearChan (s : State) (c : Nat) : State :=
  sigEmpty s (s.get (Fld.SIG_RANGE_BASE c)) (s.get (Fld.SIG_RANGE_COUNT c))

/-- Step 2 of a tick edge (R254): staleness is tested, then the view is copied from the live copy. -/
def sigEdge (s : State) : State :=
  let n := s.tick
  let live := s.board.live.map (fun e =>
    match slotOwner s e.1 with
    | none => e
    | some p =>
      let t := s.get (Fld.SIG_RANGE_STALE_TICKS p)
      if t ≠ 0 ∧ 1 ≤ e.2.qual ∧ e.2.qual ≤ 3 ∧ t < (n + 2 ^ 48 - e.2.tick) % 2 ^ 48 then (e.1, e.2.stale) else e)
  s.modBoard (fun b => { b with live := live, view := live })

/-- A write of SIG_RANGEi (R251): accepted, or `none` when it is refused. -/
def wrSigRange (s : State) (i v : Nat) : Option State :=
  let base := bf v 0 12
  let n := bf v 12 13
  let overlaps := (List.range 57).any (fun j =>
    let b := s.get (Fld.SIG_RANGE_BASE j)
    let m := s.get (Fld.SIG_RANGE_COUNT j)
    j != i && m != 0 && n != 0 && decide (base < b + m) && decide (b < base + n))
  if 4096 < base + n ∨ overlaps ∨ (i < 56 ∧ !chConfigurable s i) then none
  else
    let ob := s.get (Fld.SIG_RANGE_BASE i)
    let on := s.get (Fld.SIG_RANGE_COUNT i)
    let inOld (k : Nat) : Bool := decide (ob ≤ k) && decide (k < ob + on)
    let inNew (k : Nat) : Bool := decide (base ≤ k) && decide (k < base + n)
    let keep (l : List (Nat × Sig)) := l.filter (fun e => inOld e.1 == inNew e.1)
    let s := s.modBoard (fun b => { b with live := keep b.live, view := keep b.view })
    let s := (s.put (Fld.SIG_RANGE_BASE i) base).put (Fld.SIG_RANGE_COUNT i) n
    some (s.put (Fld.SIG_RANGE_STALE_TICKS i) (bf v 32 16))

/-- A write of SIG_HOST_PUB (R256). -/
def wrSigHostPub (s : State) (v : Nat) : State :=
  match sigPublish s 56 (bf v 32 12) (BitVec.ofNat 32 v) (bf v 48 8) 0 with
  | some s => s
  | none => s.raise Fld.SIG_EVT_HOST_REFUSED

/-- Word 0 of a slot's entry in a window. -/
def sigWord0 (s : State) (g : Sig) (i : Nat) : Nat :=
  g.value.toNat + g.qual * 2 ^ 32 + (slotOwner s i).getD 0xFF * 2 ^ 40

/-- A host read of a slot entry (R256): word 0 latches word 1; the next read of that word 1 returns what was latched. -/
def sigRead (s : State) (addr : Nat) : Nat × State :=
  let live := decide (0x2120000 ≤ addr)
  let off := addr - (if live then 0x2120000 else 0x2110000)
  let i := off / 16
  let g := if live then liveSlot s i else viewSlot s i
  if off % 16 = 0 then
    (sigWord0 s g i, s.modBoard (fun b => { b with latched := SMap.insert b.latched (addr + 8) g.ts }))
  else match SMap.find? s.board.latched addr with
    | some t => (t, s.modBoard (fun b => { b with latched := SMap.erase b.latched addr }))
    | none => (g.ts, s)

/-! ### The check of a program (R257, R258, R260) -/

/-- Signed value of a parameter. -/
def KsTerm.ai (t : KsTerm) : Int := t.a.toInt
def KsTerm.bi (t : KsTerm) : Int := t.b.toInt

/-- A term record. -/
def ksTerm (bs : List Byte) : KsTerm :=
  ⟨leAt bs 0 1, leAt bs 1 1, leAt bs 2 2, BitVec.ofNat 32 (leAt bs 4 4), BitVec.ofNat 32 (leAt bs 8 4),
    bit (leAt bs 12 1) 0⟩

/-- A program as its bytes give it. -/
def ksProg (bs : List Byte) : KsProg :=
  ⟨leAt bs 6 1, leAt bs 8 2, leAt bs 10 1, leAt bs 12 2, leAt bs 14 2, BitVec.ofNat 64 (leAt bs 16 8), leAt bs 24 2,
    leAt bs 26 2, (List.range (leAt bs 5 1)).map (fun i => ksTerm (bs.drop (32 + 16 * i)))⟩

/-- The TYPE is defined, and the OP for it (REASON 3). -/
def ksOpOk (t : KsTerm) : Bool :=
  match t.typ with
  | 1 => decide (t.op ≤ 7)
  | 2 => decide (t.op ≤ 1)
  | 3 => decide (t.op ≤ 2)
  | 4 => decide (t.op ≤ 1)
  | 5 => decide (t.op ≤ 3)
  | 6 => decide (t.op ≤ 4)
  | _ => false

/-- A DURATION or COMBINE refers to earlier terms only (REASON 5). -/
def ksRefOk (i : Nat) (t : KsTerm) : Bool :=
  match t.typ with
  | 4 => decide (t.src < i)
  | 5 => decide (t.a.toNat < 2 ^ i)
  | _ => true

/-- The constraints of R258 on the parameters (REASON 6). -/
def ksParamOk (t : KsTerm) : Bool :=
  let slot := decide (t.src ≤ 4095)
  match t.typ with
  | 1 => slot && (if t.op ≤ 5 then t.b == 0 else decide (t.ai ≤ t.bi))
  | 2 => slot && (if t.op = 0 then decide (t.bi < t.ai) else decide (t.ai < t.bi))
  | 3 => slot && t.b == 0 && (t.op != 2 || decide (0 ≤ t.ai))
  | 4 => decide (1 ≤ t.a.toNat ∧ t.a.toNat ≤ 65535) && t.b == 0
  | 5 => t.a != 0 && t.src == 0 && (if t.op = 3 then decide (1 ≤ t.b.toNat ∧ t.b.toNat ≤ 32) else t.b == 0)
  | _ => t.src == 0
      && (if t.op = 4 then decide (t.a.toNat < 65536) && (decide (t.b.toNat ≤ 7) || t.b == 0xFF)
          else t.a == 0 && t.b == 0)

/-- The array of a route from `addr` lies where R88 allows it, and is aligned. -/
def routeAddrOk (s : State) (addr limit : Nat) : Bool :=
  addr % 32 == 0
    && (if 2 ^ 63 ≤ addr then decide (addr % 2 ^ 63 + limit * 32 ≤ 2 ^ 63) else s.dramFree addr (limit * 32))

/-- The header's fields obey R257 (REASON 7). -/
def ksHeaderOk (s : State) (p : KsProg) : Bool :=
  let act (i : Nat) : Bool := bit p.actions i
  (p.actions == 0 || p.fire != 0)
    && (if act 2 then decide (p.routeChan < 56) && decide (1 ≤ p.limit ∧ p.limit ≤ 1024)
          && routeAddrOk s p.routeAddr.toNat p.limit
        else p.routeChan == 0 && p.limit == 0 && p.routeAddr == 0)
    && (act 4 || p.tpCode == 0)
    && (if act 5 || act 6 then p.pulseUs != 0 else p.pulseUs == 0)

/-- Cost of a program in ns (R261). -/
def ksCost (p : KsProg) : Nat := 40 + 20 * p.terms.length

/-- Program keystone `k` will hold after the next edge. -/
def ksNext (s : State) (k : Nat) : Option KsProg :=
  match (s.ks k).pend with
  | .load p _ => some p
  | .unload => none
  | _ => (s.ks k).prog

/-- EVAL_NS once `p` stands in keystone `k` beside the programs that are loaded or wait to be. -/
def ksEvalWith (s : State) (k : Nat) (p : KsProg) : Nat :=
  100 + ksCost p + (((List.range 64).filter (· != k)).map (fun j =>
    match ksNext s j with | some q => ksCost q | none => 0)).sum

/-- The longest period an evaluation must fit: the one in force and the pending one, whichever is shorter. -/
def keyPeriod (s : State) : Nat :=
  match s.tb.cfg with
  | some (p, _) => min s.tb.period (p * 1000)
  | none => s.tb.period

/-- The first failure of a program by REASON and term (R260). -/
def ksCheck (s : State) (k len : Nat) (bs : List Byte) : Option (Nat × Nat) :=
  let n := leAt bs 5 1
  let p := ksProg bs
  let badTerm (f : Nat → KsTerm → Bool) : Option Nat := (p.terms.zipIdx.find? (fun e => !f e.2 e.1)).map (·.2)
  let hdr4 := decide (4 ≤ p.fire) || decide (128 ≤ p.actions) || !allZero bs 7 1 || !allZero bs 11 1 || !allZero bs 28 4
  let term4 := (List.range n).find? (fun i => decide (2 ≤ leAt bs (32 + 16 * i + 12) 1) || !allZero bs (32 + 16 * i + 13) 3)
  if leAt bs 0 4 ≠ 0x54534B56 ∨ leAt bs 4 1 ≠ 1 then some (1, 0)
  else if n = 0 ∨ 32 < n ∨ len ≠ 32 + 16 * n then some (2, 0)
  else match badTerm (fun _ t => ksOpOk t) with
    | some i => some (3, i)
    | none =>
      if hdr4 then some (4, 0)
      else match term4 with
        | some i => some (4, i)
        | none =>
          match badTerm ksRefOk with
          | some i => some (5, i)
          | none =>
            match badTerm (fun _ t => ksParamOk t) with
            | some i => some (6, i)
            | none =>
              if !ksHeaderOk s p then some (7, 0)
              else if keyPeriod s < s.get Fld.KEY_CFG_OFFSET_NS + ksEvalWith s k p then some (8, 0)
              else none

/-! ### Installing, enabling, unloading (R260, R265) -/

/-- KEY_CTRLk.STATE follows the keystone. -/
def ksState (s : State) (k : Nat) : State :=
  let x := s.ks k
  s.put (Fld.KEY_CTRL_STATE k) (if x.pend ≠ .none then 3 else if x.prog.isNone then 0
    else if s.isSet (Fld.KEY_CTRL_EN k) then 2 else 1)

/-- Something waits for the next edge. -/
def ksPend (s : State) (k : Nat) (p : KsPend) : State := ksState (s.modKs k (fun x => { x with pend := p })) k

/-- Fresh term states (R259). -/
def ksFresh (p : KsProg) : List KsTermSt := p.terms.map (fun _ => ⟨false, none, 0, none⟩)

/-- EVAL_NS over the loaded keystones (R261). -/
def ksEvalNs (s : State) : State :=
  s.put Fld.KEY_CFG_EVAL_NS (100 + ((List.range 64).map (fun j =>
    match (s.ks j).prog with | some q => ksCost q | none => 0)).sum)

/-- Set OUT. -/
def ksOut (s : State) (k : Nat) (b : Bool) : State := s.putB (Fld.KEY_CTRL_OUT k) b

/-- What waits on keystone `k` takes effect at step 2 of an edge. The last action point stays known, so that a hold-off goes on
over a load (R262). -/
def ksEdge1 (s : State) (k : Nat) : State :=
  match (s.ks k).pend with
  | .none => s
  | .load p _ =>
    let s := s.modKs k (fun x => { x with prog := some p, states := ksFresh p, pend := .none })
    let s := (ksOut s k false).raise (Fld.KEY_CTRL_EN k)
    let s := (s.put (Fld.KEY_CTRL_TERMS k) p.terms.length).put (Fld.KEY_CTRL_COST_NS k) (ksCost p)
    let s := (s.put (Fld.KSTATS_ACTIONS k) 0).put (Fld.KSTATS_SUPPRESSED k) 0
    ksState ((s.put (Fld.KSTATS_ROUTE_DROPPED k) 0).put (Fld.KSTATS_ROUTE_REJECTED k) 0) k
  | .unload =>
    let s := s.modKs k (fun x => { x with prog := none, states := [], pend := .none })
    let s := (ksOut s k false).clear (Fld.KEY_CTRL_EN k)
    ksState ((s.put (Fld.KEY_CTRL_TERMS k) 0).put (Fld.KEY_CTRL_COST_NS k) 0) k
  | .enable en =>
    let s := s.modKs k (fun x => { x with states := (x.prog.map ksFresh).getD [], pend := .none })
    ksState ((ksOut s k false).putB (Fld.KEY_CTRL_EN k) en) k

/-- All keystones at step 2 of an edge; the trigger inputs and towpath events of the tick that ends become those of the
previous tick. -/
def ksEdge (s : State) : State :=
  let load := s.board.ks.any (fun e => match e.2.pend with | .load .. | .unload => true | _ => false)
  let s := (List.range 64).foldl ksEdge1 s
  let s := if load then ksEvalNs s else s
  let turn (t : TrigIn) : TrigIn := { t with edgeOld := t.edgeNow, edgeNow := false, atEdge := t.level }
  s.modBoard (fun b => { b with ks := b.ks.map (fun e => (e.1, { e.2 with evald := false }))
                                in0 := turn b.in0, in1 := turn b.in1, tpOld := b.tpNow, tpNow := [], retain := [] })

/-- A write of KEY_CTRLk (R265); `none` when it is refused. -/
def wrKeyCtrl (s : State) (k v : Nat) : Option State :=
  let x := s.ks k
  let en := bit v 0
  let un := bit v 1
  let change := en != s.isSet (Fld.KEY_CTRL_EN k)
  if !change && !un then some s
  else if x.pend ≠ .none ∨ x.prog.isNone then none
  else some (ksPend s k (if un then .unload else .enable en))

/-! ### Evaluation (R259, R261) -/

/-- A route start of a keystone or of an autostart record (R114) as an entry of the command queue. -/
def routeEntry (s : State) (src : EntrySrc) (c : Nat) (addr limit : Nat) : WorkEntry :=
  let b := [0x80, 0x01] ++ leBytes 1 c ++ [0x01] ++ zeros 20 ++ leBytes 8 addr ++ leBytes 2 limit ++ zeros 30
  ⟨b, src, 0, 0, 0, 0xFF, s.serial, .queued, [], 0, 0, 0, false, [], false, false⟩

/-- Put an entry into a channel's command queue, unless it is full. -/
def cmdPush (s : State) (c : Fin 56) (e : WorkEntry) : Option State :=
  if (s.ch c).cmdq.length < 8 then
    some ({ s with serial := s.serial + 1 }.modCh c (fun x => { x with cmdq := x.cmdq ++ [e] }))
  else none

/-- A keystone's route start is dropped (R263). -/
def ksRouteDropped (s : State) (k : Nat) (c : Fin 56) : State :=
  let s := (s.bumpSat (Fld.KSTATS_ROUTE_DROPPED k) 1).raise Fld.KS_EVT_ROUTE_DROPPED
  s.raise (Fld.ROUTE_EVT_KS_REFUSED c)

/-- Compare under an OP of COMPARE. -/
def ksCompare (op : Nat) (v a b : Int) : Bool :=
  match op with
  | 0 => decide (v < a)
  | 1 => decide (v ≤ a)
  | 2 => decide (a < v)
  | 3 => decide (a ≤ v)
  | 4 => decide (v = a)
  | 5 => decide (v ≠ a)
  | 6 => decide (a ≤ v ∧ v ≤ b)
  | _ => decide (v < a ∨ b < v)

/-- The value of a term before INVERT, and its state after. -/
def ksTermEval (s : State) (t : KsTerm) (st : KsTermSt) (outs : List Bool) : Bool × KsTermSt :=
  let g := viewSlot s t.src
  let good := g.qual == 1
  let v := g.value.toInt
  match t.typ with
  | 1 => (good && ksCompare t.op v t.ai t.bi, st)
  | 2 =>
    let h := if t.op = 0 then (if t.ai ≤ v then true else if v ≤ t.bi then false else st.hyst)
      else (if v ≤ t.ai then true else if t.bi ≤ v then false else st.hyst)
    if good then (h, { st with hyst := h }) else (false, st)
  | 3 =>
    if !good then (false, if st.run < 2 then { st with run := 0 } else st)
    else
      let n := min 2 (st.run + 1)
      let d := v - st.prev.getD v
      let r := match t.op with
        | 0 => decide (t.ai ≤ d)
        | 1 => decide (d ≤ t.ai)
        | _ => decide (t.ai ≤ d.natAbs)
      (n == 2 && st.prev.isSome && r, { st with run := n, prev := some v })
  | 4 =>
    let x := outs.getD t.src false
    if t.op = 0 then
      let n := if x then min 65535 (st.run + 1) else 0
      (decide (t.a.toNat ≤ n), { st with run := n })
    else
      let since := if x then some 0 else st.since.map (fun n => min 65536 (n + 1))
      (match since with | some n => decide (n ≤ t.a.toNat) | none => false, { st with since := since })
  | 5 =>
    let sel := (List.range 32).filter (fun i => bit t.a.toNat i)
    let n := (sel.filter (fun i => outs.getD i false)).length
    (match t.op with
      | 0 => n == sel.length
      | 1 => n != 0
      | 2 => n % 2 == 1
      | _ => decide (t.b.toNat ≤ n), st)
  | _ =>
    (match t.op with
      | 0 => s.board.in0.edgeOld
      | 1 => s.board.in1.edgeOld
      | 2 => s.board.in0.atEdge
      | 3 => s.board.in1.atEdge
      | _ => s.board.tpOld.any (fun e => e.1 == t.a.toNat && (t.b == 0xFF || e.2 == t.b.toNat)), st)

/-- All terms in order: outputs, INVERT applied, and new states. -/
def ksTerms (s : State) (ts : List KsTerm) (sts : List KsTermSt) (outs : List Bool) : List Bool × List KsTermSt :=
  match ts with
  | [] => (outs, [])
  | t :: rest =>
    let (o, st) := ksTermEval s t (sts.headD ⟨false, none, 0, none⟩) outs
    let (os, l) := ksTerms s rest sts.tail (outs ++ [o != t.inv])
    (os, st :: l)

/-- Bits of a list of Booleans. -/
def bitsOf (l : List Bool) : Nat := leNatBits l
where
  leNatBits (l : List Bool) : Nat :=
    match l with
    | [] => 0
    | b :: t => b2n b + 2 * leNatBits t

/-- end_k of the present tick (R261). -/
def ksEnd (s : State) (k : Nat) : Nat :=
  s.tb.edgeNs + s.tb.keyOff + 100 + ((List.range (k + 1)).map (fun j =>
    match (s.ks j).prog with | some q => ksCost q | none => 0)).sum

/-- A trigger output rises 40 ns after end_k, or its pulse is extended (R263). -/
def trigOut (s : State) (n pulseUs endK : Nat) : State :=
  let stop := endK + 40 + pulseUs * 1000
  let o := if n = 0 then s.board.out0 else s.board.out1
  let s := s.modBoard (fun b => if n = 0 then { b with out0 := (true, stop) } else { b with out1 := (true, stop) })
  if o.1 then s else s.emit (.trigOut n true)

/-- Action `i` of keystone `k` (R263). -/
def ksAction (s : State) (k : Nat) (p : KsProg) (rose : Bool) (terms endK i : Nat) : State :=
  match i with
  | 0 => basinCommit s ⟨endK, 0x30, 0xFF, 0, 0,
      leBytes 1 k ++ leBytes 1 (if rose then 1 else 2) ++ leBytes 2 p.actions ++ leBytes 4 terms ++ leBytes 6 s.tick ++ zeros 2⟩
  | 1 => s.put Fld.KS_IRQ_IRQ (s.get Fld.KS_IRQ_IRQ ||| 2 ^ k)
  | 2 =>
    if h : p.routeChan < 56 then
      let c : Fin 56 := ⟨p.routeChan, h⟩
      match cmdPush s c (routeEntry s (.keystone k) c p.routeAddr.toNat p.limit) with
      | some s => s
      | none => ksRouteDropped s k c
    else s
  | 3 => s.modBoard (fun b => { b with retain := if b.retain.contains k then b.retain else b.retain ++ [k] })
  | 4 =>
    if tpAnyUp s then tpSendAll s tpKsEvent (ksEventWords k p.tpCode s.tick endK)
    else s.raise Fld.KS_EVT_TOWPATH_DROPPED
  | 5 => trigOut s 0 p.pulseUs endK
  | _ => trigOut s 1 p.pulseUs endK

/-- An action point (R262): suppressed by the hold-off, or every selected action in ascending order. -/
def ksAct (s : State) (k : Nat) (p : KsProg) (rose : Bool) (terms endK : Nat) : State :=
  let held := match (s.ks k).lastAct with
    | some t => decide ((s.tick + 2 ^ 48 - t) % 2 ^ 48 < p.holdoff)
    | none => false
  if p.actions = 0 then s
  else if held then (s.bumpSat (Fld.KSTATS_SUPPRESSED k) 1).raise Fld.KS_EVT_SUPPRESSED
  else
    let s := ((List.range 7).filter (fun i => bit p.actions i)).foldl (fun s i => ksAction s k p rose terms endK i) s
    let t := s.tick
    (s.bumpWrap (Fld.KSTATS_ACTIONS k) 1).modKs k (fun x => { x with lastAct := some t })

/-- Keystones evaluate in READY, RUN and BRACE, and in HALT until the edge at which routes stop (R264). -/
def ksRuns (s : State) : Bool := s.serving || (s.devState == devHalt && s.halting)

/-- The keystone is due: loaded, enabled, not evaluated in this tick, and every active one before it has been. -/
def ksDue (s : State) (k : Nat) : Bool :=
  let active (j : Nat) : Bool := (s.ks j).prog.isSome && s.isSet (Fld.KEY_CTRL_EN j)
  ksRuns s && active k && !(s.ks k).evald && s.tb.begun
    && (List.range k).all (fun j => !active j || (s.ks j).evald)

/-- KEYSTONE_EVALUATION (R261, R262), while the tick lasts. -/
def ksEvaluate (s : State) (k : Nat) : State :=
  match (s.ks k).prog with
  | none => s
  | some p =>
    if !ksDue s k || !s.canReach (ksEnd s k) then s
    else
      let endK := ksEnd s k
      let s := s.advanceTo endK
      let (outs, sts) := ksTerms s p.terms (s.ks k).states []
      let was := s.isSet (Fld.KEY_CTRL_OUT k)
      let now := outs.getLastD false
      let s := s.modKs k (fun x => { x with states := sts, evald := true })
      let s := ksOut s k now
      if now && !was && bit p.fire 0 then ksAct s k p true (bitsOf outs) endK
      else if was && !now && bit p.fire 1 then ksAct s k p false (bitsOf outs) endK
      else s

/-- TRIG_OUT_END (R263): the pulse ends; TIME_NS reaches its end. -/
def trigOutEnd (s : State) (n : Fin 2) : State :=
  let o := if n = 0 then s.board.out0 else s.board.out1
  if o.1 && s.canReach o.2 then
    let s := s.advanceTo o.2
    (s.modBoard (fun b => if n = 0 then { b with out0 := (false, 0) } else { b with out1 := (false, 0) })).emit (.trigOut n false)
  else s

/-- The trigger outputs go low and stay low in HALT (R264). -/
def trigLow (s : State) : State :=
  let low (s : State) (n : Nat) : State := s.emit (.trigOut n false)
  let s := if s.board.out0.1 then low s 0 else s
  let s := if s.board.out1.1 then low s 1 else s
  s.modBoard (fun b => { b with out0 := (false, 0), out1 := (false, 0) })

/-- A level change on TRIG_INn (R258): a rising edge is latched with its time. -/
def trigIn (s : State) (n : Fin 2) (level : Bool) : State :=
  let t := if n = 0 then s.board.in0 else s.board.in1
  let rise := level && !t.level
  let t := { t with level := level, edgeNow := t.edgeNow || rise }
  let s := s.modBoard (fun b => if n = 0 then { b with in0 := t } else { b with in1 := t })
  if rise then s.put (Fld.TRIG_IN_TIME_TIME_NS n) s.now else s

end Sys2Proof.Machine
end

