-- ==== Sys2Proof/Machine/Tile.lean ====
section
/-!
DEFINITION. A tile's memories as the keeper, the barge mover and the host see them (01, R25; 06; 08, R196): shared and
private SRAM, the chamber window, the code store, reservations (R139), poisoned words (R336), and the commits of keeper
code (10, R233–R236).
-/
namespace Sys2Proof.Machine

/-! ### Memories by own-tile offset (R196) -/

/-- A byte of a tile at an own-tile offset: shared SRAM, thread-private SRAM, chamber window. -/
def tileByte (s : State) (c : Fin 56) (off : Nat) : Byte :=
  if off < 0xA000 then SMap.get 0 (s.kp c).sram off
  else if off < 0xE000 then
    let t : Fin 8 := ⟨(off - 0xA000) / 0x800 % 8, Nat.mod_lt _ (by decide)⟩
    SMap.get 0 (s.th c t).priv ((off - 0xA000) % 0x800)
  else if 0x10000 ≤ off ∧ off < 0x14000 then SMap.get 0 (s.kp c).window (off - 0x10000)
  else 0

/-- Bytes of a tile. -/
def tileRead (s : State) (c : Fin 56) (off n : Nat) : List Byte := (List.range n).map (fun i => tileByte s c (off + i))

/-- Set a byte of a tile. -/
def tileSet (s : State) (c : Fin 56) (off : Nat) (b : Byte) : State :=
  if off < 0xA000 then s.modKp c (fun k => { k with sram := SMap.set 0 k.sram off b })
  else if off < 0xE000 then
    let t : Fin 8 := ⟨(off - 0xA000) / 0x800 % 8, Nat.mod_lt _ (by decide)⟩
    s.modTh c t (fun th => { th with priv := SMap.set 0 th.priv ((off - 0xA000) % 0x800) b })
  else if 0x10000 ≤ off ∧ off < 0x14000 then s.modKp c (fun k => { k with window := SMap.set 0 k.window (off - 0x10000) b })
  else s

/-- Set bytes of a tile. -/
def tileSets (s : State) (c : Fin 56) (off : Nat) (bs : List Byte) : State :=
  match bs with
  | [] => s
  | b :: t => tileSets (tileSet s c off b) c (off + 1) t

/-- Reservations on granules that a write to shared SRAM touches are lost (R139); those of the writing thread stand. -/
def tileUnreserve (s : State) (c : Fin 56) (off n : Nat) (by_ : Option (Fin 8)) : State :=
  if off < 0xA000 ∧ 0 < n then
    s.modCh c (fun x => { x with threads := Vector.ofFn (fun t =>
      let th := x.threads[t]
      match th.resv with
      | some g => if some t != by_ && decide (off / 8 ≤ g) && decide (g ≤ (off + n - 1) / 8) then { th with resv := none } else th
      | none => th) })
  else s

/-- Before the chamber window changes, a free number of further blocks of 64 B of each copy in progress has been read, in
ascending order (R235). -/
def copyReads (s : State) (c : Fin 56) : State :=
  let (n, s) := s.drawFree
  let read (x : Copy) : Copy :=
    let left := x.size - x.got.length
    let k := (Config.freeWord (n + x.thread)).toNat % (left / 64 + 1)
    { x with got := x.got ++ tileRead s c (0x10000 + x.off + x.got.length) (64 * k) }
  s.modCh c (fun y => { y with chamber := { y.chamber with copies := y.chamber.copies.map read } })

/-- Write bytes of a tile: by a thread, or by the mover or the host (`none`). -/
def tileWrite (s : State) (c : Fin 56) (off : Nat) (bs : List Byte) (by_ : Option (Fin 8)) : State :=
  let s := if 0x10000 ≤ off ∧ !(s.ch c).chamber.copies.isEmpty then copyReads s c else s
  let s := tileUnreserve (tileSets s c off bs) c off bs.length by_
  { s with poison := unpoison s.poison (tileGranule c) off bs.length }

/-- A range of a tile holds a poisoned word. -/
def tilePoisoned (s : State) (c : Fin 56) (off n : Nat) : Bool := s.poisoned (tileGranule c) off n

/-- Own-tile offset of a keeper address. -/
def tileOff (t : Fin 8) (a : Nat) : Nat :=
  if a < 0xA000 then a else if a < 0xB000 then 0xA000 + t * 0x800 + (a - 0xA000) else 0x10000 + (a - 0xC000)

/-- Enter a repair in the map (15); a full map records nothing and sets REPAIR_FULL. -/
def repairAdd (s : State) (kind unit sub index : Nat) : State :=
  if 4092 ≤ s.toll.repair.length then s.raise Fld.RAS_EVT_REPAIR_FULL
  else
    let s := s.modToll (fun t => { t with repair := t.repair ++ [⟨kind, unit, sub, index, t.boot⟩], repairBoot := t.boot })
    let s := s.put Fld.REPAIR_ENTRIES s.toll.repair.length
    let s := if kind = 1 then s.bumpSat Fld.REPAIR_TILES_RETIRED 1 else s
    thLog s 0xFE 0x0630 (leBytes 1 (2 ^ (kind - 1)) ++ leBytes 4 s.toll.repair.length)

/-- SRAM instance and row of a word of a tile: the spec gives no geometry, so they are free values of the place. -/
def sramRow (c : Fin 56) (off : Nat) : Nat × Nat :=
  let w := (Config.freeWord (2 ^ 80 + c * 2 ^ 17 + off / 8)).toNat
  (bf w 0 16, bf w 16 32)

/-- A row of a tile's SRAM is entered in the map once, to be repaired at the next self-test (15). -/
def rowRepair (s : State) (c : Fin 56) (off : Nat) : State :=
  let u := s.get (Fld.CHAN_STATE_TILE c)
  let (i, r) := sramRow c off
  if s.toll.repair.any (fun e => e.kind == 2 && e.unit == u && e.sub == i && e.index == r) then s else repairAdd s 2 u i r

/-- A word of a row is corrected: counted, and CE_RETIRE of them enter the row in the map. -/
def rowCorrected (s : State) (c : Fin 56) (off : Nat) : State :=
  let (i, r) := sramRow c off
  let k := (s.get (Fld.CHAN_STATE_TILE c) * 2 ^ 16 + i) * 2 ^ 32 + r
  let n := SMap.get 0 s.rowCorr k + 1
  let s := (s.bumpSat (Fld.KSTATUS_ECC_CORR c) 1)
  let s := { s with rowCorr := SMap.set 0 s.rowCorr k n }
  if s.get Fld.DRAM_RAS_CE_RETIRE ≤ n then rowRepair s c off else s

/-- An uncorrectable word of a tile is met (R157, R338): counted, its row entered in the map, and the channel's pin asserts;
0x80000 stands for the code store, which is MRAM. -/
def tileEcc (s : State) (c : Fin 56) (off : Nat) : State :=
  let s := (s.bumpSat (Fld.KSTATUS_ECC_UNCORR c) 1)
  let s := if off < 0x80000 then rowRepair s c off else s
  errorPin s c.val (if 0x10000 ≤ off ∧ off < 0x80000 then 0x03 else Pin.keeperSram)

/-- A DRAM page is retired onto a spare (R347); a page keeps its address and its poisoned words. A page whose spare fails takes
another; the map holds its address once. -/
def pageRetire (s : State) (page : Nat) : State :=
  if s.get Fld.DRAM_RAS_SPARES_FREE = 0 then errorPin (s.raise Fld.RAS_EVT_SPARES_EXHAUSTED) pinDram 0x02
  else
    let again := s.retired.contains page
    let s := { s with retired := if again then s.retired else s.retired ++ [page], pageCorr := SMap.erase s.pageCorr page }
    let s := (s.put Fld.DRAM_RAS_SPARES_FREE (s.get Fld.DRAM_RAS_SPARES_FREE - 1)).bumpSat Fld.DRAM_RAS_RETIRED 1
    let s := s.raise Fld.RAS_EVT_PAGE_RETIRED
    if again then s else repairAdd s 3 0 0 page

/-- An uncorrectable word of DRAM is counted and reported (R337, R338). -/
def dramReport (s : State) (addr : Nat) : State :=
  let s := ((s.bumpSat Fld.ECC_DRAM_UNCORR 1).put Fld.DRAM_LAST_ADDR (addr / 8 * 8)).raise Fld.RAS_EVT_DRAM_UNCORR
  errorPin s pinDram 0x01

/-- A poisoned word of DRAM is met: its page is retired, unless the word is what a page retired before could not copy (R347). -/
def dramEcc (s : State) (addr : Nat) : State :=
  let s := dramReport s addr
  if s.retired.contains (addr / 4096) then s else pageRetire s (addr / 4096)

/-- A read of device DRAM ends at the first bad word it meets. -/
def dramMeet (s : State) (a n : Nat) : State :=
  match s.dramBad a n with
  | x :: _ => dramEcc s x
  | [] => s

/-- A read of operand data that lies in device DRAM failed. -/
def operandEcc (s : State) (a n : Nat) : State := if 2 ^ 63 ≤ a then s else dramMeet s a n

/-- The code store as bytes (channel window +0x2_0000). -/
def codeByte (s : State) (c : Fin 56) (off : Nat) : Byte :=
  let h := (SMap.get 0 (s.kp c).code (off / 2)).toNat
  BitVec.ofNat 8 (if off % 2 = 0 then h else h / 256)

/-- Set bytes of the code store. -/
def codeSets (s : State) (c : Fin 56) (off : Nat) (bs : List Byte) : State :=
  match bs with
  | [] => s
  | b :: t =>
    let s := s.modKp c (fun k =>
      let h := (SMap.get 0 k.code (off / 2)).toNat
      let v := if off % 2 = 0 then h / 256 * 256 + b.toNat else h % 256 + b.toNat * 256
      { k with code := SMap.set 0 k.code (off / 2) (BitVec.ofNat 16 v) })
    codeSets s c (off + 1) t

/-- Write bytes of the code store; a word written whole is good again. -/
def codeWrite (s : State) (c : Fin 56) (off : Nat) (bs : List Byte) : State :=
  (codeSets s c off bs).modKp c (fun k => { k with codeBad := unpoison k.codeBad 0 off bs.length })

/-! ### Commits of keeper code (R233–R236) -/

/-- A type and a length a keeper of the channel may commit (R233). -/
def typeOk (c typ len flags sub : Nat) : Bool :=
  let field := decide (c < 48)
  match typ with
  | 0x01 => field && decide (8 ≤ len ∧ len ≤ 72)
  | 0x02 => field && decide (17 ≤ len ∧ len ≤ 2064)
  | 0x03 => field && decide (8 ≤ len ∧ len ≤ 16)
  | 0x04 => field && len == 16
  | 0x05 => field && len == 8
  | 0x06 => field && decide (9 ≤ len ∧ len ≤ 4104)
  | 0x07 => field && decide (8 ≤ len ∧ len ≤ 8144)
  | 0x08 => field && (len == 8 || len == 32)
  | 0x10 => !field && (decide (60 ≤ len ∧ len ≤ 8200) || (decide (1 ≤ len ∧ len ≤ 59) && bit flags 1))
  | 0x11 => !field && decide (1 ≤ len ∧ len ≤ 8200)
  | 0x20 => len == 8
  | 0x3E => len == 16
  | 0x40 => len == 16
  | 0x41 => decide (8 ≤ len ∧ len ≤ 8144) && decide (0x80 ≤ sub)
  | 0x7F => decide (len ≤ 8144)
  | _ => false

/-- Result byte of thread `t`. -/
def chResult (s : State) (c : Fin 56) (t : Fin 8) (r : Nat) : State :=
  s.modKp c (fun k => { k with result := k.result.set t r })

/-- Thread `t`'s previous commit is still COPYING. -/
def copying (s : State) (c : Fin 56) (t : Fin 8) : Bool :=
  (s.ch c).chamber.copies.any (fun x => x.thread == t.val)
    || (s.eth c).held.any (fun x => match x.by_ with | some b => b.1 == t.val | none => false)

/-- A refused commit. -/
def chBad (s : State) (c : Fin 56) (t : Fin 8) : State := (chResult s c t 3).raise (Fld.CH_EVT_BAD c)

/-- A commit of thread `t` has been stored, or waits, or was dropped; `off` and `size` are its window offset and size. -/
def chStored (x : Stored × State) (c : Fin 56) (t : Fin 8) (r : Rec) (off size : Nat) (stamp : Bool) : State :=
  match x with
  | (.stored half pos, s) =>
    let s := s.modCh c (fun x => { x with chamber := { x.chamber with
      copies := x.chamber.copies ++ [⟨t.val, half, pos, off, stamp, size, []⟩] } })
    chResult s c t 1
  | (.held, s) =>
    let s := s.modEth c (fun e => { e with held := e.held.dropLast ++ [⟨r, some (t.val, off, size, stamp)⟩] })
    chResult s c t 1
  | (_, s) => chResult s c t 2

/-- Commit a checked record; `win` is its window offset and its size, if it comes from the window. -/
def chPlace (s : State) (c : Fin 56) (t : Fin 8) (r : Rec) (win : Option (Nat × Nat)) : State :=
  let stamp := decide (r.ts = 0)
  let r := if stamp then { r with ts := s.now } else r
  chStored (chCommit s c r) c t r (win.getD (0, 0)).1 (win.getD (0, 0)).2 stamp

/-- The commits that waited for the end of a frame take effect, in their order (R223). -/
def heldFlushCommits (s : State) (c : Fin 56) : State :=
  let l := (s.eth c).held
  l.foldl (fun s h =>
    match h.by_ with
    | some (t, off, size, stamp) =>
      if ht : t < 8 then chStored (chCommitNow s c h.r) c ⟨t, ht⟩ h.r off size stamp else s
    | none => (chCommitNow s c h.r).2) (s.modEth c (fun e => { e with held := [] }))

/-- CH_COMMIT with SRC 0 (R235). A record with a bad word is none that may be committed (R336; DESIGN CHOICE, log entry 142). -/
def chCommitWindow (s : State) (c : Fin 56) (t : Fin 8) (w : Nat) : State :=
  let off := bf w 0 14
  if copying s c t then chResult s c t 4
  else
    let hdr := tileRead s c (0x10000 + off) 16
    let len := leAt hdr 8 2
    let size := 16 + roundUp 8 len
    let typ := leAt hdr 10 1
    let flags := leAt hdr 14 2
    let ts := leAt hdr 0 8
    if off % 8 ≠ 0 ∨ bf w 16 16 ≠ 0 ∨ 0x4000 < off + size ∨ s.now < ts then chBad s c t
    else
      let bs := tileRead s c (0x10000 + off) size
      if tilePoisoned s c (0x10000 + off) size then chBad (tileEcc s c (0x10000 + off)) c t
      else if typeOk c typ len flags (leAt bs 16 1) then
        chPlace s c t ⟨ts, typ, c, 0, flags, bsub bs 16 len⟩ (some (off, size))
      else chBad s c t

/-- CH_COMMIT with SRC 1 (R236): the RX FIFO's head item whole. -/
def chCommitRx (s : State) (c : Fin 56) (t : Fin 8) (w : Nat) : State :=
  if copying s c t then chResult s c t 4
  else if bf w 0 14 % 8 ≠ 0 ∨ bf w 16 16 ≠ 0 then chBad s c t
  else match (s.ch c).fifos.rx with
    | [] => (chResult s c t 5).raise (Fld.FIFO_EVT_RX_UNDERRUN c)
    | r :: _ =>
      let r := if isMarker r then gapRec r.ts c 0 (markerCount r) (leAt r.payload 4 1) 0 else r
      if s.now < r.ts ∨ !typeOk c r.typ r.payload.length r.flags (leAt r.payload 0 1) then chBad s c t
      else chPlace (rxDrop s c) c t r none

/-- A CH_COMMIT write. -/
def chCommitWrite (s : State) (c : Fin 56) (t : Fin 8) (w : Nat) : State :=
  match bf w 14 2 with
  | 0 => chCommitWindow s c t w
  | 1 => chCommitRx s c t w
  | _ => if copying s c t then chResult s c t 4 else chBad s c t

/-- COMMIT_COPY_DONE (R235): the copy of thread `t`'s commit completes: the blocks not read before are read now. -/
def copyDone (s : State) (c : Fin 56) (t : Fin 8) : State :=
  match (s.ch c).chamber.copies.find? (fun x => x.thread == t.val) with
  | none => s
  | some x =>
    let all := x.got ++ tileRead s c (0x10000 + x.off + x.got.length) (x.size - x.got.length)
    let fix (r : Rec) : Rec :=
      if x.size = 0 then r
      else { r with ts := if x.stamp then r.ts else leAt all 0 8, flags := leAt all 14 2
                    payload := bsub all 16 r.payload.length }
    let s := s.modCh c (fun y => { y with chamber :=
      { y.chamber.modHalf x.half (fun h => { h with recs := h.recs.modify x.pos fix }) with
        copies := y.chamber.copies.filter (fun z => z.thread != t.val) } })
    chResult s c t 0

/-- CH_ROOM: bytes a record may occupy in the filling half now. -/
def chRoom (s : State) (c : Fin 56) : Nat :=
  let ch := (s.ch c).chamber
  let h := ch.half ch.filling
  if ch.weir || h.gap.isSome then 0 else chUsable s c - h.used

end Sys2Proof.Machine
end

