-- ==== Sys2Proof/Machine/Barge.lean ====
section
/-!
DEFINITION. The barge mover (08, R196–R216): ranges, instructions, register sets, hand-over, stopping and errors.
-/
namespace Sys2Proof.Machine

/-! ### Ranges (R26, R196, R198, R201) -/

/-- Where a MOVE's address lies. -/
inductive Area where
  | host (a : Nat)
  | dram (a : Nat)
  | tile (off : Nat)
  | rxPort | txPort | txPush | mboPort
  | half (i off : Nat)
  | pound (off : Nat)
deriving DecidableEq, Repr

/-- A pound credit is held by the channel. -/
def holdsCredit (s : State) (c num : Nat) : Bool := s.credits.any (fun k => k.chan == c && k.num == num)

/-- A range of the own-tile window; `w` for a write. -/
def tileArea (c off len : Nat) (w : Bool) : Option Area :=
  let inRow (lo n : Nat) : Bool := decide (lo ≤ off) && decide (off + len ≤ lo + n)
  if inRow 0 0xA000 || inRow 0xA000 0x4000 || inRow 0x10000 0x4000 then some (.tile off)
  else if off = 0x20000 then (if w then none else some .rxPort)
  else if off = 0x20008 then (if w then some .txPort else none)
  else if off = 0x20010 then (if w then some .txPush else none)
  else if off = 0x20018 then (if w then some .mboPort else none)
  else if w then none
  else if inRow 0x40000 (halfSize c) then some (.half 0 (off - 0x40000))
  else if inRow 0x60000 (halfSize c) then some (.half 1 (off - 0x60000))
  else none

/-- The area of `len` bytes at a BARGE address; `none` is BARGE_RANGE. -/
def bargeArea (s : State) (c : Nat) (addr : Word) (len : Nat) (w : Bool) : Option Area :=
  let a := addr.toNat % 2 ^ 63
  if addr.getLsbD 63 then (if a + len ≤ 2 ^ 63 then some (.host a) else none)
  else if a < 0x800000000 then (if s.dramFree a len then some (.dram a) else none)
  else if 0x1000000000 ≤ a ∧ a < 0x1000060000 then
    let off := a - 0x1000000000
    let last := (off + len - 1) / 512
    if !w && decide (off + len ≤ 0x60000) && (List.range (last - off / 512 + 1)).all (fun i => holdsCredit s c (off / 512 + i))
    then some (.pound off) else none
  else if 0x2000000000 ≤ a ∧ a < 0x2000100000 then tileArea c (a - 0x2000000000) len w
  else none

/-! ### Instructions (R200–R207) -/

def bOp (w : Nat) : Nat := bf w 60 4

/-- The instruction obeys R207. -/
def bargeValid (w : Nat) : Bool :=
  match bOp w with
  | 1 => bf w 24 30 == 0 && bf w 0 24 != 0
  | 2 => bf w 16 43 == 0
  | 3 => decide (bf w 56 4 ≤ 3) && bf w 32 24 == 0
      && (if bf w 56 4 = 0 ∨ bf w 56 4 = 2 then bf w 0 32 != 0 else bf w 0 32 == 0)
  | 4 => bf w 58 2 != 3 && bf w 32 26 == 0 && bf w 3 13 == 0 && (bf w 58 2 != 1 || bf w 0 3 == 0)
  | 5 => bf w 58 2 != 3 && bf w 0 58 == 0
  | 6 =>
    let opc := bf w 52 4
    decide (opc ≤ 5) && bf w 49 3 == 0 && (opc == 3 || opc == 4 || bf w 56 2 == 0) && (opc == 0 || bf w 48 1 == 0)
      && (opc != 1 || bf w 15 33 == 0) && (decide (opc ≤ 2) || bf w 0 48 == 0)
  | 7 => bf w 0 60 == 0
  | 15 => bf w 0 60 == 0
  | _ => false

def barInvalid : Nat := 1
def barRange : Nat := 2
def barAlign : Nat := 3
def barHost : Nat := 4
def barEcc : Nat := 5

/-- States of BM_STATUS. -/
def bmIdle : Nat := 0
def bmRun : Nat := 1
def bmWaiting : Nat := 2
def bmFencing : Nat := 3
def bmError : Nat := 4

def bmState (s : State) (c : Nat) : Nat := s.get (Fld.BM_STATUS_STATE c)
def bmSet (s : State) (c st : Nat) : State := s.put (Fld.BM_STATUS_STATE c) st

/-- The address of instruction `i` and its word, or the error of its fetch (R200). -/
def bargeFetch (s : State) (c : Fin 56) (i : Nat) : Except Nat Word :=
  let a : Word := BitVec.ofNat 64 (s.get (Fld.ACT_PROG_PROG c) + 8 * i)
  match bargeArea s c a 8 false with
  | some (.dram a) => if s.poisoned 0 a 8 then .error barEcc else .ok (BitVec.ofNat 64 (leNat (s.dramRead a 8)))
  | some (.tile off) =>
    if 0xE000 ≤ off then .error barRange
    else if tilePoisoned s c off 8 then .error barEcc
    else .ok (BitVec.ofNat 64 (leNat (tileRead s c off 8)))
  | _ => .error barRange

/-- The fetched word, if the fetch succeeded. -/
def fetchWord (s : State) (c : Fin 56) (i : Nat) : Option Word :=
  match bargeFetch s c i with
  | .ok w => some w
  | .error _ => none

/-- A fetch that meets an uncorrectable word is reported by the block that holds it (R215, R338). -/
def fetchEcc (s : State) (c : Fin 56) (i : Nat) : State :=
  let a : Word := BitVec.ofNat 64 (s.get (Fld.ACT_PROG_PROG c) + 8 * i)
  match bargeFetch s c i, bargeArea s c a 8 false with
  | .error 5, some (.dram a) => dramEcc s a
  | .error 5, some (.tile off) => tileEcc s c off
  | _, _ => s

/-- The program ends in ERROR (R215) at index `pc`. Where no word was fetched, BM_ERRINS receives a free value. -/
def bmErr (s : State) (c : Fin 56) (code pc : Nat) (w : Option Word) (residual : Nat) : State :=
  let (n, s) := s.drawFree
  let s := ((s.put (Fld.BM_ERR_CODE c) code).put (Fld.BM_ERR_PC c) pc).put (Fld.BM_ERR_RESIDUAL c) residual
  let s := s.put (Fld.BM_ERRINS_WORD c) (w.getD (Config.freeWord n)).toNat
  let s := bmSet ((s.raise (Fld.BM_EVT_ERROR c)).put (Fld.BM_STATUS_PC c) pc) c bmError
  s.modBarge c (fun _ => Barge.reset)

/-- Instruction `i` is the next to be dispatched, fetched now or ahead; a failed fetch ends the program. -/
def bmNext (s : State) (c : Fin 56) (i : Nat) (w : Option Word) : State :=
  match w with
  | some w => s.modBarge c (fun b => { b with npc := i, cur := some w, ahead := none })
  | none =>
    match bargeFetch s c i with
    | .error e => bmErr s c e i none 0
    | .ok _ => bmErr s c barEcc i none 0

/-- Fall through to the instruction fetched ahead. -/
def bmFall (s : State) (c : Fin 56) : State :=
  let b := s.barge c
  bmNext s c (b.npc + 1) b.ahead

/-- The hand-over (R210). -/
def bmHandover (s : State) (c : Fin 56) : State :=
  let s := s.put (Fld.ACT_PROG_PROG c) (s.get (Fld.SH_PROG_PROG c))
  let s := (List.range 4).foldl (fun s i =>
    (s.put (Fld.BA_BA c i) (s.get (Fld.SH_BA_BA c i))).put (Fld.BA_INIT_BA c i) (s.get (Fld.SH_BA_BA c i))) s
  let c0 := s.get (Fld.SH_CNT_CNT0 c)
  let c1 := s.get (Fld.SH_CNT_CNT1 c)
  let s := (s.put (Fld.CNT_CNT0 c) c0).put (Fld.CNT_CNT1 c) c1
  let s := (s.put (Fld.CNT_INIT_CNT0 c) c0).put (Fld.CNT_INIT_CNT1 c) c1
  let s := ((s.put (Fld.BM_STATUS_PC c) 0).clear (Fld.BM_CTRL_ARM c)).raise (Fld.BM_EVT_HANDOVER c)
  let s := bmSet (s.bumpWrap (Fld.BM_COUNTS_HANDOVERS c) 1) c bmRun
  let s := s.modBarge c (fun _ => Barge.reset)
  bmNext (fetchEcc s c 0) c 0 (fetchWord s c 0)

/-- The program has ended: the mover becomes IDLE, or a hand-over is to come (R207, R211). -/
def bmEnd (s : State) (c : Fin 56) : State :=
  let s := s.modBarge c (fun _ => Barge.reset)
  if s.isSet (Fld.BM_CTRL_ARM c) then bmSet (s.modBarge c (fun b => { b with ended := true })) c bmRun
  else bmSet s c bmIdle

/-- HANDOVER (R210): due when the mover is idle or its program has ended and HANDOVER_TICK is 0. -/
def bmHandoverDue (s : State) (c : Fin 56) : State :=
  if s.isSet (Fld.BM_CTRL_ARM c) && !s.isSet (Fld.BM_CTRL_HANDOVER_TICK c) && (bmState s c == bmIdle || (s.barge c).ended)
  then bmHandover s c else s

/-- An instruction boundary that a MOVE or a SIGNAL in progress has not reached. -/
def bmBusy (b : Barge) : Bool := b.move.isSome || b.signal

/-- The mover at the chamber swap of a tick edge (R203, R210). -/
def bmTick (s : State) (c : Fin 56) : State :=
  let st := bmState s c
  if st = bmError then s
  else if s.isSet (Fld.BM_CTRL_ARM c) && s.isSet (Fld.BM_CTRL_HANDOVER_TICK c) then
    if bmBusy (s.barge c) then s.modBarge c (fun b => { b with tickHo := true }) else bmHandover s c
  else s.modBarge c (fun b =>
    match b.wait with
    | some (.tick n) => if n ≤ 1 then { b with met := true, wait := some (.tick 0) } else { b with wait := some (.tick (n - 1)) }
    | some .lock => { b with met := true }
    | _ => b)

/-- A sub-tick swap of the channel ends a WAIT LOCK (R203). -/
def bmSubSwap (s : State) (c : Fin 56) : State :=
  s.modBarge c (fun b => if b.wait = some .lock then { b with met := true } else b)

/-- The mover is IDLE and has no program. -/
def bmRest (s : State) (c : Fin 56) : State := bmSet (s.modBarge c (fun _ => Barge.reset)) c bmIdle

/-- After a MOVE or SIGNAL has ended: a tick hand-over, a channel stop or an ABORT that waited for it takes place. -/
def bmBoundary (s : State) (c : Fin 56) (next : State → State) : State :=
  if (s.barge c).tickHo && s.isSet (Fld.BM_CTRL_ARM c) then bmHandover s c
  else if (s.barge c).abort then (if (s.barge c).stop then bmRest s c else bmEnd s c)
  else next s

/-- A MOVE in progress ends in an error: ERROR, or IDLE where a channel stop waited for it (R212, R216). -/
def bmMoveErr (s : State) (c : Fin 56) (code : Nat) (w : Word) (residual : Nat) : State :=
  let b := s.barge c
  let s := bmErr s c code b.npc (some w) residual
  if b.abort && b.stop then bmRest s c else s

/-- Channel stop (R216). -/
def bmStop (s : State) (c : Fin 56) : State :=
  let s := (s.clear (Fld.BM_CTRL_ARM c)).clear (Fld.BM_STATUS_KICK c)
  let s := (List.range 4).foldl (fun s i => s.put (Fld.SH_BA_BA c i) 0) s
  let s := ((s.put (Fld.SH_PROG_PROG c) 0).put (Fld.SH_CNT_CNT0 c) 0).put (Fld.SH_CNT_CNT1 c) 0
  let s := s.clear (Fld.BM_CTRL_HANDOVER_TICK c)
  if bmBusy (s.barge c) then s.modBarge c (fun b => { b with abort := true, stop := true, tickHo := false })
  else bmRest s c

/-- A barge program is in flight (R115). -/
def bmInFlight (s : State) (c : Nat) : Bool := bmState s c != bmIdle && bmState s c != bmError

/-! ### Register writes (R209–R211) -/

/-- A shadow write finds ARM = 1. -/
def bmShadowRefused (s : State) (c : Nat) : State :=
  (s.raise (Fld.BM_EVT_SHADOW_BUSY c)).bumpSat (Fld.BM_COUNTS_SHADOW_REFUSED c) 1

/-- A write of SH_PROG, SH_BA0–3 or SH_CNT at its offset (R209). -/
def wrShadow (s : State) (c : Fin 56) (off v : Nat) : State :=
  if s.isSet (Fld.BM_CTRL_ARM c) then bmShadowRefused s c
  else if off = 0x100 then s.put (Fld.SH_PROG_PROG c) v
  else if off = 0x128 then (s.put (Fld.SH_CNT_CNT0 c) (bf v 0 32)).put (Fld.SH_CNT_CNT1 c) (bf v 32 32)
  else s.put (Fld.SH_BA_BA c ((off - 0x108) / 8)) v

/-- DISARM while ARM = 1. R209 calls it a shadow write that ARM = 1 refuses, and the register table says that it clears
ARM: which of the two happens is a free value, `true` here for the clearing. -/
def disarmWins (s : State) : Bool × State :=
  let (n, s) := s.drawFree
  ((Config.freeWord n).getLsbD 0, s)

/-- ARM is cleared: no hand-over is to come, and a mover whose program has ended becomes IDLE (R210, R212). -/
def bmDisarm (s : State) (c : Fin 56) : State :=
  let s := s.clear (Fld.BM_CTRL_ARM c)
  if (s.barge c).ended then bmRest s c else s.modBarge c (fun b => { b with tickHo := false })

/-- A BM_CTRL write (R209, R210). With ARM = 1, DISARM and a change of HANDOVER_TICK are shadow writes, refused and counted as
one. -/
def wrBmCtrl (s : State) (c : Fin 56) (v : Nat) : State :=
  let armed := s.isSet (Fld.BM_CTRL_ARM c)
  let changes := bit v 2 != s.isSet (Fld.BM_CTRL_HANDOVER_TICK c)
  let (wins, s) := if bit v 1 && armed then disarmWins s else (false, s)
  let s := if armed && (changes || (bit v 1 && !wins)) then bmShadowRefused s c else s
  let s := if wins then bmDisarm s c else s
  let s := if changes && !armed then s.putB (Fld.BM_CTRL_HANDOVER_TICK c) (bit v 2) else s
  if !bit v 0 then s
  else if !chAccepts s c then s.raise (Fld.BM_EVT_ARM_REFUSED c)
  else if armed then s
  else s.raise (Fld.BM_CTRL_ARM c)

/-- KICK (R203, R211). -/
def bmKick (s : State) (c : Nat) : State :=
  if s.isSet (Fld.BM_STATUS_KICK c) then s.bumpSat (Fld.BM_COUNTS_KICK_MERGED c) 1 else s.raise (Fld.BM_STATUS_KICK c)

/-- ABORT (R211). -/
def bmAbort (s : State) (c : Fin 56) : State :=
  if bmState s c = bmIdle ∨ bmState s c = bmError ∨ (s.barge c).ended then s
  else if bmBusy (s.barge c) then s.modBarge c (fun b => { b with abort := true })
  else bmEnd s c

/-- CLEAR (R212). -/
def bmClear (s : State) (c : Nat) : State := if bmState s c = bmError then bmSet s c bmIdle else s

/-- A BM_CMD write: KICK, ABORT, CLEAR. -/
def wrBmCmd (s : State) (c : Fin 56) (v : Nat) : State :=
  let s := if bit v 0 then bmKick s c else s
  let s := if bit v 1 then bmAbort s c else s
  if bit v 2 then bmClear s c else s

/-! ### Execution -/

/-- The mover may dispatch `w`, an instruction of operation `op`. -/
def bmReady (s : State) (c : Fin 56) : Option Nat :=
  let b := s.barge c
  if bmState s c = bmRun ∧ b.move = none ∧ b.wait = none ∧ !b.signal ∧ !b.fence ∧ !b.ended then b.cur.map (·.toNat) else none

/-- Dispatch the instruction at hand when it is valid and `sel` picks it: PC names it and the next one is fetched. -/
def bmDispatch (s : State) (c : Fin 56) (sel : Nat → Bool) (f : State → Nat → State) : State :=
  match bmReady s c with
  | none => s
  | some w =>
    if bargeValid w && sel w then
      let i := (s.barge c).npc
      let a := fetchWord s c (i + 1)
      f (((fetchEcc s c (i + 1)).put (Fld.BM_STATUS_PC c) i).modBarge c (fun b => { b with ahead := a })) w
    else s

/-- A BARGE_UNDEFINED instruction (R207). -/
def bmUndefined (s : State) (c : Fin 56) : State :=
  match bmReady s c with
  | none => s
  | some w => if bargeValid w then s else bmErr s c barInvalid (s.barge c).npc (some (BitVec.ofNat 64 w)) (if bOp w = 1 then bf w 0 24 else 0)

/-- Read requests of at most 512 B for `len` bytes of host space from `addr` on, at most `k` of them (R208). -/
def hostReads (k : Nat) (s : State) (addr len : Nat) : State :=
  match k with
  | 0 => s
  | k + 1 =>
    if len = 0 then s
    else
      let n := min len (min 512 (4096 - addr % 4096))
      hostReads k (s.emit (.hostRead addr n)) (addr + n) (len - n)

/-- Bytes the first `k` of these requests ask for. -/
def hostAsked (k addr len : Nat) : Nat :=
  match k with
  | 0 => 0
  | k + 1 =>
    if len = 0 then 0
    else
      let n := min len (min 512 (4096 - addr % 4096))
      n + hostAsked k (addr + n) (len - n)

/-- Read requests of a host source that the first `got` bytes returned have answered. -/
def hostAnswered (fuel addr len got : Nat) : Nat :=
  match fuel with
  | 0 => 0
  | k + 1 =>
    let n := min len (min 512 (4096 - addr % 4096))
    if n = 0 ∨ got < n then 0 else 1 + hostAnswered k (addr + n) (len - n) (got - n)

/-- The requests that a MOVE from host space has issued when `got` bytes have come: at most 8 more than have been answered (R208), and
none while the host cannot be reached. -/
def moveAsk (s : State) (m : BMove) (got : Nat) : State × BMove :=
  let h := m.src.toNat % 2 ^ 63
  let upTo := hostAsked (8 + hostAnswered (m.len / 8) h m.len got) h m.len
  if s.hostOk && decide (m.asked < upTo) then (hostReads (m.len / 8) s (h + m.asked) (upTo - m.asked), { m with asked := upTo }) else (s, m)

/-- BARGE_MOVE (R201): alignment (R199), then both ranges. At most 8 read requests are outstanding (R208). -/
def bmMove (s : State) (c : Fin 56) : State :=
  bmDispatch s c (fun w => bOp w == 1) (fun s w =>
    let src : Word := BitVec.ofNat 64 (s.get (Fld.BA_BA c (bf w 58 2)))
    let dst : Word := BitVec.ofNat 64 (s.get (Fld.BA_BA c (bf w 56 2)))
    let len := bf w 0 24
    let fail (code : Nat) : State := bmErr s c code (s.barge c).npc (some (BitVec.ofNat 64 w)) len
    if src.toNat % 8 ≠ 0 ∨ dst.toNat % 8 ≠ 0 ∨ len % 8 ≠ 0 then fail barAlign
    else match bargeArea s c src len false, bargeArea s c dst len true with
      | some a, some _ =>
        let m : BMove := { src := src, dst := dst, len := len, asked := 0 }
        let (s, m) := match a with | .host _ => moveAsk s m 0 | _ => (s, m)
        s.modBarge c (fun b => { b with move := some m })
      | _, _ => fail barRange)

/-- Bytes of a chamber half; beyond its records they are stale, a free value each. -/
def halfBytes (s : State) (c : Fin 56) (i off n : Nat) (free : Nat) : List Byte :=
  let h := (s.ch c).chamber.half i
  let bs := (h.recs.map recBytes).flatten
  (List.range n).map (fun k => bs.getD (off + k) (BitVec.ofNat 8 (Config.freeWord (2 ^ 64 + free * 2 ^ 20 + off + k)).toNat))

/-- Bytes of a pound credit; what its drain has not filled is a free value. -/
def poundBytes (s : State) (c off n : Nat) (free : Nat) : List Byte :=
  (List.range n).map (fun k =>
    let a := off + k
    let d := (s.credits.find? (fun k => k.chan == c && k.num == a / 512)).bind (fun k => k.data[a % 512]?)
    d.getD (BitVec.ofNat 8 (Config.freeWord (2 ^ 64 + free * 2 ^ 20 + a)).toNat))

/-- Read word `i` of a MOVE: its bytes, or `none` for an uncorrectable word. -/
def moveRead (s : State) (c : Fin 56) (a : Area) (data : List Byte) (i free : Nat) : Option (List Byte) × State :=
  match a with
  | .host _ => (some (bsub data (8 * i) 8), s)
  | .dram x => if s.poisoned 0 (x + 8 * i) 8 then (none, dramEcc s (x + 8 * i)) else (some (s.dramRead (x + 8 * i) 8), s)
  | .tile off =>
    if tilePoisoned s c (off + 8 * i) 8 then (none, tileEcc s c (off + 8 * i)) else (some (tileRead s c (off + 8 * i) 8), s)
  | .rxPort => let (w, s) := rxDataRead s c; (some (leBytes 8 w.toNat), s)
  | .half k off => (some (halfBytes s c k (off + 8 * i) 8 free), s)
  | .pound off => (some (poundBytes s c (off + 8 * i) 8 free), s)
  | _ => (some (zeros 8), s)

/-- Write word `i` of a MOVE; host data is gathered. -/
def moveWrite (s : State) (c : Fin 56) (a : Area) (i : Nat) (bs : List Byte) : State :=
  match a with
  | .dram x => s.dramWrite (x + 8 * i) bs
  | .tile off => tileWrite s c (off + 8 * i) bs none
  | .txPort => txDataWrite s c (BitVec.ofNat 64 (leNat bs))
  | .txPush => txPush s c
  | .mboPort => mboPush s c (BitVec.ofNat 64 (leNat bs))
  | _ => s

/-- Move `fuel` words from word `i` on (R201): the state, the words moved, the host data gathered, whether an uncorrectable
word was met. -/
def moveWords (fuel : Nat) (s : State) (c : Fin 56) (a b : Area) (data : List Byte) (i free : Nat) (out : List Byte) :
    State × Nat × List Byte × Bool :=
  match fuel with
  | 0 => (s, i, out, false)
  | k + 1 =>
    match moveRead s c a data i free with
    | (none, s) => (s, i, out, true)
    | (some bs, s) => moveWords k (moveWrite s c b i bs) c a b data (i + 1) free (out ++ bs)

/-- Address of the last payload of `n` bytes of host data (R214). -/
def lastPayload (fuel addr n : Nat) : Nat :=
  match fuel with
  | 0 => addr
  | k + 1 =>
    let m := min 512 (4096 - addr % 4096)
    if n ≤ m then addr else lastPayload k (addr + m) (n - m)

/-- Host data in payloads of at most 512 B that do not cross a 4 KiB boundary (R201). -/
def hostPayloads (fuel : Nat) (s : State) (addr : Nat) (bs : List Byte) : State :=
  match fuel with
  | 0 => s
  | k + 1 =>
    if bs.isEmpty then s
    else
      let n := min 512 (4096 - addr % 4096)
      hostPayloads k (s.hostWrite addr (bs.take n)) (addr + n) (bs.drop n)

/-- Area of a MOVE's source or destination, which was checked when the MOVE started. -/
def moveArea (s : State) (c : Fin 56) (addr : Word) (w : Bool) : Option Area :=
  let a := addr.toNat
  if 0x1000000000 ≤ a ∧ a < 0x1000060000 then some (.pound (a - 0x1000000000)) else bargeArea s c addr 8 w

/-- Carry out `n` words of the MOVE in progress. -/
def moveRun (s : State) (c : Fin 56) (m : BMove) (n : Nat) (data : List Byte) : State × Nat × Bool :=
  let (free, s) := s.drawFree
  match moveArea s c m.src false, moveArea s c m.dst true with
  | some a, some b =>
    let (s, k, out, bad) := moveWords n s c a b data 0 free []
    let s := match b with
      | .host x =>
        let s := hostPayloads (out.length / 8 + 1) s x out
        if out.isEmpty then s else s.modBarge c (fun g => { g with hostAt := some (lastPayload (out.length / 8 + 1) x out.length) })
      | _ => s
    (s.bumpWrap (Fld.BM_BYTES_BYTES c) (8 * k), k, bad)
  | _, _ => (s, 0, false)

/-- A MOVE reaches host space. -/
def moveHost (m : BMove) : Bool := m.src.getLsbD 63 || m.dst.getLsbD 63

/-- An address register moves on by a MOVE's increment (R201). -/
def baInc (v len : Nat) : Nat := v / 2 ^ 63 * 2 ^ 63 + (v + len) % 2 ^ 63

/-- A word of a source that no command marks bad is uncorrectable: a chamber half, the chamber window, the RX FIFO, the pound. The
block that holds it reports it (R215, R338); of other sources nothing is said here. -/
def sourceEcc (s : State) (c : Fin 56) (a : Option Area) (i : Nat) : Option State :=
  match a with
  | some (.half ..) => some (errorPin s c.val 0x03)
  | some (.tile off) => if 0x10000 ≤ off then some (tileEcc s c (off + 8 * i)) else none
  | some .rxPort => some (errorPin s c.val 0x04)
  | some (.pound _) => some (errorPin (s.bumpSat (Fld.ECC_OTHER_UNCORR 0) 1) pinPound 0x01)
  | _ => none

/-- BARGE_MOVE_DONE (R208, R215): the transfer ends; `data` is what the host returned and `ok` that it returned all; `ecc` names a word
of the source that is uncorrectable, where only the block itself can know (`sourceEcc`). -/
def bmMoveDone (s : State) (c : Fin 56) (data : List Byte) (ok : Bool) (ecc : Option Nat) : State :=
  let b := s.barge c
  match b.move, b.cur with
  | some m, some w =>
    let fromHost := m.src.getLsbD 63
    let n := m.len / 8
    let have_ := if fromHost then (if ok then n else min n (data.length / 8)) else n
    let badAt := ecc.bind (fun i => if i < n ∧ (sourceEcc s c (moveArea s c m.src false) i).isSome then some i else none)
    if moveHost m && !s.hostOk then s
    else if fromHost && (ok != (data.length == m.len)) then s
    else
      let s := if fromHost then (moveAsk s m data.length).1 else s
      let (s, k, bad) := moveRun s c m (badAt.getD have_) data
      if bad then bmMoveErr s c barEcc w (m.len - 8 * k)
      else if let some i := badAt then
        bmMoveErr ((sourceEcc s c (moveArea s c m.src false) i).getD s) c barEcc w (m.len - 8 * k)
      else if fromHost && !ok then bmMoveErr s c barHost w (m.len - 8 * k)
      else
        let w := w.toNat
        let si := bf w 58 2
        let di := bf w 56 2
        let s := if bit w 55 then s.put (Fld.BA_BA c si) (baInc (s.get (Fld.BA_BA c si)) m.len) else s
        let s := if bit w 54 then s.put (Fld.BA_BA c di) (baInc (s.get (Fld.BA_BA c di)) m.len) else s
        let s := s.modBarge c (fun b => { b with move := none })
        bmBoundary s c (fun s => bmFall s c)
  | _, _ => s

/-- BARGE_HOST_TIMEOUT (R215): a host request of a MOVE or FENCE could not be issued for 1 ms; `n` words of the MOVE had
been moved, `data` those the host returned. -/
def bmHostTimeout (s : State) (c : Fin 56) (data : List Byte) (n : Nat) : State :=
  let b := s.barge c
  if s.hostOk then s
  else match b.move, b.cur with
    | some m, some w =>
      if moveHost m && decide (8 * n < m.len) && (!m.src.getLsbD 63 || data.length == 8 * n) then
        let (s, k, bad) := moveRun s c m n data
        bmMoveErr s c (if bad then barEcc else barHost) w (m.len - 8 * k)
      else s
    | none, some w => if b.fence && b.hostAt.isSome && bf w.toNat 58 2 != 1 then bmErr s c barHost b.npc (some w) 0 else s
    | _, _ => s

/-- BARGE_LOOP (R202). -/
def bmLoop (s : State) (c : Fin 56) : State :=
  bmDispatch s c (fun w => bOp w == 2) (fun s w =>
    let f := if bit w 59 then Fld.CNT_CNT1 c else Fld.CNT_CNT0 c
    let init := if bit w 59 then s.get (Fld.CNT_INIT_CNT1 c) else s.get (Fld.CNT_INIT_CNT0 c)
    let v := s.get f
    if v = 0 then bmFall s c
    else if v = 1 then bmFall (s.put f init) c
    else
      let s := s.put f (v - 1)
      bmNext (fetchEcc s c (bf w 0 16)) c (bf w 0 16) (fetchWord s c (bf w 0 16)))

/-- TIME_NS at which a WAIT TIME of `v` ns ends: whole KCLK of 1.25 ns (R203). -/
def waitDue (now v : Nat) : Nat := now + ((4 * v + 4) / 5 * 5 + 3) / 4

/-- BARGE_WAIT (R203). -/
def bmWait (s : State) (c : Fin 56) : State :=
  bmDispatch s c (fun w => bOp w == 3) (fun s w =>
    let wait (k : BWait) : State := bmSet (s.modBarge c (fun b => { b with wait := some k, met := false })) c bmWaiting
    match bf w 56 4 with
    | 0 => wait (.tick (bf w 0 32))
    | 1 => wait .lock
    | 2 => wait (.time (waitDue s.now (bf w 0 32)))
    | _ => if s.isSet (Fld.BM_STATUS_KICK c) then bmFall (s.clear (Fld.BM_STATUS_KICK c)) c else wait .kick)

/-- BARGE_WAIT_END (R203): the condition is met; a WAIT TIME lets TIME_NS reach its end. -/
def bmWaitEnd (s : State) (c : Fin 56) : State :=
  let b := s.barge c
  let go (s : State) : State := bmFall (bmSet (s.modBarge c (fun b => { b with wait := none, met := false })) c bmRun) c
  match b.wait with
  | some (.time due) => if s.canReach due then go (s.advanceTo due) else s
  | some .kick => if s.isSet (Fld.BM_STATUS_KICK c) then go (s.clear (Fld.BM_STATUS_KICK c)) else s
  | some _ => if b.met then go s else s
  | none => s

/-- BARGE_SIGNAL (R204): it waits until earlier writes have left the mover. -/
def bmSignal (s : State) (c : Fin 56) : State :=
  bmDispatch s c (fun w => bOp w == 4) (fun s _ => s.modBarge c (fun b => { b with signal := true }))

/-- BARGE_SIGNAL_FIRE (R213). -/
def bmSignalFire (s : State) (c : Fin 56) : State :=
  let b := s.barge c
  match b.signal, b.cur with
  | true, some w =>
    let w := w.toNat
    let s := s.put (Fld.BM_STATUS_LASTSIG c) (bf w 16 16)
    let s := if bf w 58 2 ≠ 1 then s.setEvt c ⟨bf w 0 3, Nat.mod_lt _ (by decide)⟩ 4 else s
    let s := if bf w 58 2 ≠ 0 then s.raise (Fld.BM_EVT_SIGNAL c) else s
    let s := s.modBarge c (fun b => { b with signal := false })
    bmBoundary s c (fun s => bmFall s c)
  | _, _ => s

/-- BARGE_FENCE (R205): host writes in its scope are followed by a zero-length read (R214). -/
def bmFence (s : State) (c : Fin 56) : State :=
  bmDispatch s c (fun w => bOp w == 5) (fun s w =>
    let s := match (s.barge c).hostAt with
      | some a => if bf w 58 2 ≠ 1 then s.emit (.hostRead a 0) else s
      | none => s
    bmSet (s.modBarge c (fun b => { b with fence := true })) c bmFencing)

/-- BARGE_FENCE_DONE (R214): the acknowledgements have returned; `ok` is false when the host read of the FENCE failed. -/
def bmFenceDone (s : State) (c : Fin 56) (ok : Bool) : State :=
  let b := s.barge c
  match b.fence, b.cur with
  | true, some w =>
    let host := b.hostAt.isSome && bf w.toNat 58 2 != 1
    if host && !s.hostOk then s
    else if host && !ok then bmErr s c barHost b.npc (some w) 0
    else bmFall (bmSet (s.modBarge c (fun b => { b with fence := false })) c bmRun) c
  | _, _ => s

/-- Update of address registers by one ADDR instruction (R206). -/
def bmAddr (s : State) (c : Fin 56) (opc : Nat) (f : State → Nat → Nat → Nat → State) : State :=
  bmDispatch s c (fun w => bOp w == 6 && bf w 52 4 == opc) (fun s w => bmFall (f s (bf w 58 2) (bf w 56 2) w) c)

/-- SETL. -/
def bmSetl (s : State) (c : Fin 56) : State :=
  bmAddr s c 0 (fun s d _ w => s.put (Fld.BA_BA c d) (bf w 0 48 + bf w 48 1 * 2 ^ 63))

/-- SETH. -/
def bmSeth (s : State) (c : Fin 56) : State :=
  bmAddr s c 1 (fun s d _ w =>
    let v := s.get (Fld.BA_BA c d)
    s.put (Fld.BA_BA c d) (v % 2 ^ 48 + bf w 0 15 * 2 ^ 48 + v / 2 ^ 63 * 2 ^ 63))

/-- ADD: a signed 48-bit immediate. -/
def bmAdd (s : State) (c : Fin 56) : State :=
  bmAddr s c 2 (fun s d _ w =>
    let imm := bf w 0 48 + (if bit w 47 then 2 ^ 63 - 2 ^ 48 else 0)
    s.put (Fld.BA_BA c d) (baInc (s.get (Fld.BA_BA c d)) imm))

/-- MOV. -/
def bmMov (s : State) (c : Fin 56) : State :=
  bmAddr s c 3 (fun s d r _ => s.put (Fld.BA_BA c d) (s.get (Fld.BA_BA c r)))

/-- SWAP. -/
def bmSwap (s : State) (c : Fin 56) : State :=
  bmAddr s c 4 (fun s d r _ =>
    let x := s.get (Fld.BA_BA c d)
    let y := s.get (Fld.BA_BA c r)
    (s.put (Fld.BA_BA c d) y).put (Fld.BA_BA c r) x)

/-- RESTORE. -/
def bmRestore (s : State) (c : Fin 56) : State :=
  bmAddr s c 5 (fun s d _ _ => s.put (Fld.BA_BA c d) (s.get (Fld.BA_INIT_BA c d)))

/-- NOP. -/
def bmNop (s : State) (c : Fin 56) : State := bmDispatch s c (fun w => bOp w == 7) (fun s _ => bmFall s c)

/-- STOP (R207). -/
def bmStopIns (s : State) (c : Fin 56) : State := bmDispatch s c (fun w => bOp w == 15) (fun s _ => bmEnd s c)

end Sys2Proof.Machine
end

