-- ==== Sys2Proof/Machine/RegMap.lean ====
section
/-!
DEFINITION. The register tables of `spec/` as data, page type by page type (R403): for every register its offset,
count and stride, and for every field its bits, its access code (R6) and its reset value (R9). A read of a register is
assembled from these rows, and a write without a rule of its own acts on them (R398).
-/
namespace Sys2Proof.Machine

/-- One field of a register table: low bit, width, access code, reset value. -/
structure FldDef where
  lo  : Nat
  w   : Nat
  acc : Acc
  rst : Nat
deriving DecidableEq, Repr

/-- One register (or array of registers) of a page: `cls` 0 on every channel, 1 on field channels only, 2 on stream
channels only. -/
structure RegDef where
  off    : Nat
  count  : Nat
  stride : Nat
  cls    : Nat
  flds   : List FldDef
deriving DecidableEq, Repr

/-- Registers of the pages of type 0x0001. -/
def pageRows0001 : List RegDef :=
  [/- DEV_STATE -/ ⟨0x100, 1, 0x8, 0, [⟨0, 4, .ro, 1⟩, ⟨4, 4, .ro, 0⟩, ⟨8, 8, .ro, 0⟩, ⟨16, 8, .ro, 0⟩]⟩,
   /- DEV_STATE_TICK -/ ⟨0x108, 1, 0x8, 0, [⟨0, 48, .ro, 0⟩]⟩]

/-- Registers of the pages of type 0x0010. -/
def pageRows0010 : List RegDef :=
  [/- TIME_NS -/ ⟨0x100, 1, 0x8, 0, [⟨0, 64, .ro, 0⟩]⟩,
   /- TICKNO -/ ⟨0x108, 1, 0x8, 0, [⟨0, 48, .ro, 0⟩]⟩,
   /- TIME_SNAP -/ ⟨0x110, 1, 0x8, 0, [⟨0, 48, .ro, 0⟩]⟩,
   /- TICK_CFG -/ ⟨0x118, 1, 0x8, 0, [⟨0, 14, .rwnv, 100⟩, ⟨16, 24, .rwnv, 0⟩]⟩,
   /- KEY_CFG -/ ⟨0x120, 1, 0x8, 0, [⟨0, 24, .rwnv, 50000⟩, ⟨32, 24, .ro, 0⟩]⟩,
   /- TB_CTRL -/ ⟨0x128, 1, 0x8, 0, [⟨0, 3, .rwnv, 0⟩, ⟨3, 3, .rwnv, 0⟩, ⟨8, 1, .rwnv, 1⟩, ⟨9, 1, .rwnv, 1⟩, ⟨16, 16, .rwnv, 100⟩, ⟨32, 16, .rwnv, 3000⟩, ⟨48, 16, .rwnv, 1000⟩]⟩,
   /- TB_STATUS -/ ⟨0x130, 1, 0x8, 0, [⟨0, 3, .ro, 0⟩, ⟨4, 3, .ro, 0⟩, ⟨7, 1, .ro, 0⟩, ⟨32, 32, .ro, 0⟩]⟩,
   /- TB_TRIM -/ ⟨0x138, 1, 0x8, 0, [⟨0, 32, .ro, 0⟩]⟩,
   /- STEP_DELTA -/ ⟨0x148, 1, 0x8, 0, [⟨0, 64, .rw, 0⟩]⟩,
   /- STEP_CTRL -/ ⟨0x150, 1, 0x8, 0, [⟨0, 1, .wo, 0⟩, ⟨1, 1, .rw, 0⟩, ⟨2, 1, .rw, 0⟩]⟩,
   /- STEP_RESULT -/ ⟨0x158, 1, 0x8, 0, [⟨0, 64, .ro, 0⟩]⟩,
   /- TB_EVENTS -/ ⟨0x140, 1, 0x8, 0, [⟨0, 1, .w1c, 0⟩, ⟨1, 1, .w1c, 0⟩, ⟨2, 1, .w1c, 0⟩, ⟨3, 1, .w1c, 0⟩, ⟨4, 1, .w1c, 0⟩, ⟨5, 1, .w1c, 0⟩, ⟨6, 1, .w1c, 0⟩, ⟨7, 1, .w1c, 0⟩]⟩]

/-- Registers of the pages of type 0x0100. -/
def pageRows0100 : List RegDef :=
  [/- LOCK_CFG -/ ⟨0x100, 1, 0x8, 0, [⟨0, 3, .rwnv, 0⟩]⟩,
   /- CHAN_STATE -/ ⟨0x108, 1, 0x8, 0, [⟨0, 3, .ro, 0⟩, ⟨8, 8, .ro, 0⟩]⟩,
   /- POUND_QUOTA -/ ⟨0x110, 1, 0x8, 0, [⟨0, 10, .rwnv, 2⟩, ⟨16, 10, .rwnv, 128⟩]⟩,
   /- CHAMBER -/ ⟨0x118, 1, 0x8, 0, [⟨0, 18, .ro, 0⟩, ⟨18, 2, .ro, 0⟩, ⟨20, 2, .ro, 0⟩, ⟨22, 1, .ro, 0⟩, ⟨23, 1, .ro, 0⟩, ⟨32, 10, .ro, 0⟩]⟩,
   /- CH_STATS0 -/ ⟨0x120, 1, 0x8, 0, [⟨0, 32, .ro, 0⟩, ⟨32, 32, .ro, 0⟩]⟩,
   /- CH_STATS1 -/ ⟨0x128, 1, 0x8, 0, [⟨0, 32, .ro, 0⟩, ⟨32, 32, .ro, 0⟩]⟩,
   /- CH_EVT -/ ⟨0x130, 1, 0x8, 0, [⟨0, 1, .w1c, 0⟩, ⟨1, 1, .w1c, 0⟩, ⟨2, 1, .w1c, 0⟩, ⟨3, 1, .w1c, 0⟩, ⟨4, 1, .w1c, 0⟩]⟩,
   /- POUND_HOLD -/ ⟨0x138, 1, 0x8, 0, [⟨0, 10, .ro, 0⟩, ⟨16, 10, .ro, 0⟩]⟩]

/-- Registers of the pages of type 0x0012. -/
def pageRows0012 : List RegDef :=
  [/- LS_ENTRY -/ ⟨0x100, 448, 0x8, 0, [⟨0, 24, .rw, 0⟩, ⟨24, 8, .rw, 0⟩, ⟨32, 4, .rw, 0⟩]⟩]

/-- Registers of the pages of type 0x0011. -/
def pageRows0011 : List RegDef :=
  [/- LS_CTRL -/ ⟨0x100, 1, 0x8, 0, [⟨0, 1, .wo, 0⟩, ⟨16, 9, .rwnv, 0⟩, ⟨32, 1, .ro, 0⟩, ⟨36, 4, .ro, 0⟩]⟩]

/-- Registers of the pages of type 0x0101. -/
def pageRows0101 : List RegDef :=
  [/- SEQ_BUDGET -/ ⟨0x100, 1, 0x8, 0, [⟨0, 24, .rwnv, 72000⟩, ⟨32, 32, .ro, 0⟩]⟩,
   /- ROUTE_STATE -/ ⟨0x108, 1, 0x8, 0, [⟨0, 3, .ro, 0⟩, ⟨4, 1, .ro, 0⟩, ⟨8, 8, .ro, 0⟩, ⟨16, 10, .ro, 0⟩, ⟨32, 16, .ro, 0⟩]⟩,
   /- ROUTE_ADDR -/ ⟨0x110, 1, 0x8, 0, [⟨0, 64, .ro, 0⟩]⟩,
   /- ROUTE_INFO -/ ⟨0x118, 1, 0x8, 0, [⟨0, 11, .ro, 0⟩, ⟨16, 11, .ro, 0⟩, ⟨32, 32, .ro, 0⟩]⟩,
   /- ROUTE_EVT -/ ⟨0x120, 1, 0x8, 0, [⟨0, 1, .w1c, 0⟩, ⟨1, 1, .w1c, 0⟩, ⟨2, 1, .w1c, 0⟩, ⟨3, 1, .w1c, 0⟩, ⟨4, 1, .w1c, 0⟩, ⟨5, 1, .w1c, 0⟩, ⟨6, 1, .w1c, 0⟩]⟩,
   /- ADMIT_RESULT -/ ⟨0x128, 1, 0x8, 0, [⟨0, 4, .ro, 0⟩, ⟨4, 3, .ro, 0⟩, ⟨16, 10, .ro, 0⟩, ⟨32, 32, .ro, 0⟩]⟩,
   /- HOST_FETCH -/ ⟨0x130, 1, 0x8, 0, [⟨0, 16, .rwnv, 2400⟩]⟩,
   /- ROUTE_FLAGS -/ ⟨0x138, 1, 0x8, 0, [⟨0, 64, .rw, 0⟩]⟩,
   /- SEQ_STATS -/ ⟨0x140, 1, 0x8, 0, [⟨0, 32, .ro, 0⟩, ⟨32, 16, .ro, 0⟩, ⟨48, 16, .ro, 0⟩]⟩]

/-- Registers of the pages of type 0x0106. -/
def pageRows0106 : List RegDef :=
  [/- THREAD_BUDGET -/ ⟨0x100, 8, 0x8, 0, [⟨0, 24, .rwnv, 9000⟩, ⟨24, 1, .rwnv, 1⟩, ⟨25, 1, .w1c, 0⟩, ⟨32, 32, .ro, 0⟩]⟩,
   /- THREAD_STATE -/ ⟨0x140, 8, 0x8, 0, [⟨0, 3, .ro, 0⟩, ⟨3, 1, .ro, 0⟩, ⟨4, 4, .ro, 0⟩, ⟨8, 8, .ro, 0⟩, ⟨16, 16, .ro, 0⟩, ⟨32, 16, .ro, 0⟩, ⟨48, 16, .ro, 0⟩]⟩,
   /- KSTATUS -/ ⟨0x180, 1, 0x8, 0, [⟨0, 1, .ro, 0⟩, ⟨1, 1, .ro, 0⟩, ⟨4, 4, .ro, 0⟩, ⟨8, 8, .ro, 0⟩, ⟨16, 16, .ro, 0⟩, ⟨32, 16, .ro, 0⟩]⟩,
   /- KEVT -/ ⟨0x188, 1, 0x8, 0, [⟨0, 1, .w1c, 0⟩, ⟨1, 1, .w1c, 0⟩, ⟨2, 1, .w1c, 0⟩, ⟨3, 1, .w1c, 0⟩, ⟨4, 1, .w1c, 0⟩, ⟨5, 1, .w1c, 0⟩]⟩,
   /- IMAGE_INFO -/ ⟨0x190, 1, 0x8, 0, [⟨0, 32, .ro, 0⟩, ⟨32, 11, .ro, 0⟩]⟩,
   /- DF_INFO -/ ⟨0x198, 1, 0x8, 0, [⟨0, 3, .ro, 0⟩, ⟨4, 4, .ro, 0⟩, ⟨8, 16, .ro, 0⟩]⟩]

/-- Registers of the pages of type 0x0031. -/
def pageRows0031 : List RegDef :=
  [/- WQ_BASE -/ ⟨0x100, 32, 0x40, 0, [⟨6, 57, .rw, 0⟩]⟩,
   /- WQ_CFG -/ ⟨0x108, 32, 0x40, 0, [⟨0, 1, .rw, 0⟩, ⟨1, 1, .rw, 0⟩, ⟨4, 5, .rw, 4⟩, ⟨9, 1, .rw, 0⟩, ⟨16, 16, .rw, 100⟩, ⟨32, 5, .rw, 0⟩, ⟨40, 8, .rw, 255⟩]⟩,
   /- WQ_ARB -/ ⟨0x110, 32, 0x40, 0, [⟨0, 8, .rw, 1⟩, ⟨8, 7, .rw, 1⟩]⟩,
   /- WQ_CONS -/ ⟨0x118, 32, 0x40, 0, [⟨0, 32, .ro, 0⟩, ⟨32, 1, .ro, 1⟩, ⟨33, 1, .ro, 0⟩, ⟨34, 1, .ro, 0⟩]⟩,
   /- WQ_STAT -/ ⟨0x120, 32, 0x40, 0, [⟨0, 32, .ro, 0⟩, ⟨32, 32, .ro, 0⟩]⟩]

/-- Registers of the pages of type 0x0030. -/
def pageRows0030 : List RegDef :=
  [/- MALF_INFO -/ ⟨0x100, 1, 0x8, 0, [⟨0, 8, .ro, 0⟩, ⟨8, 4, .ro, 0⟩, ⟨16, 6, .ro, 0⟩, ⟨32, 32, .ro, 0⟩]⟩,
   /- MALF_TICK -/ ⟨0x108, 1, 0x8, 0, [⟨0, 48, .ro, 0⟩]⟩,
   /- MALF_ENTRY -/ ⟨0x110, 8, 0x8, 0, [⟨0, 64, .ro, 0⟩]⟩,
   /- WQ_EVT -/ ⟨0x150, 1, 0x8, 0, [⟨0, 1, .w1c, 0⟩]⟩]

/-- Registers of the pages of type 0x0032. -/
def pageRows0032 : List RegDef :=
  [/- CR_BASE -/ ⟨0x100, 16, 0x40, 0, [⟨6, 57, .rw, 0⟩]⟩,
   /- CR_CFG -/ ⟨0x108, 16, 0x40, 0, [⟨0, 1, .rw, 0⟩, ⟨4, 5, .rw, 4⟩, ⟨10, 2, .rw, 0⟩]⟩,
   /- CR_TAIL -/ ⟨0x110, 16, 0x40, 0, [⟨0, 32, .ro, 0⟩, ⟨32, 1, .ro, 0⟩]⟩,
   /- CR_HEAD -/ ⟨0x118, 16, 0x40, 0, [⟨0, 32, .rw, 0⟩]⟩,
   /- CR_OVF -/ ⟨0x120, 16, 0x40, 0, [⟨0, 32, .ro, 0⟩, ⟨32, 32, .ro, 0⟩]⟩,
   /- CR_EVT -/ ⟨0x128, 16, 0x40, 0, [⟨0, 1, .w1c, 0⟩, ⟨1, 1, .w1c, 0⟩, ⟨2, 1, .w1c, 0⟩]⟩]

/-- Registers of the pages of type 0x0102. -/
def pageRows0102 : List RegDef :=
  [/- BE_MODE -/ ⟨0x100, 1, 0x8, 0, [⟨0, 4, .rwnv, 0⟩, ⟨4, 1, .rwnv, 0⟩, ⟨5, 1, .rwnv, 0⟩, ⟨6, 1, .rwnv, 0⟩]⟩,
   /- CAN_CFG -/ ⟨0x108, 1, 0x8, 1, [⟨0, 1, .rwnv, 1⟩, ⟨1, 1, .rwnv, 0⟩, ⟨2, 1, .rwnv, 1⟩, ⟨3, 1, .rwnv, 0⟩, ⟨4, 2, .rwnv, 0⟩, ⟨6, 1, .rwnv, 0⟩, ⟨7, 1, .rwnv, 1⟩, ⟨16, 6, .rwnv, 2⟩, ⟨24, 6, .rwnv, 6⟩]⟩,
   /- CAN_BT -/ ⟨0x110, 3, 0x8, 1, [⟨0, 5, .rwnv, 0⟩, ⟨8, 8, .rwnv, 0⟩, ⟨16, 7, .rwnv, 0⟩, ⟨24, 7, .rwnv, 0⟩, ⟨31, 1, .rwnv, 0⟩, ⟨32, 8, .rwnv, 0⟩]⟩,
   /- LIN_CFG -/ ⟨0x128, 1, 0x8, 1, [⟨0, 2, .rwnv, 0⟩, ⟨2, 1, .rwnv, 1⟩, ⟨8, 15, .rwnv, 19200⟩, ⟨32, 5, .rwnv, 11⟩]⟩,
   /- SENT_CFG -/ ⟨0x130, 1, 0x8, 1, [⟨0, 17, .rwnv, 3000⟩, ⟨17, 3, .rwnv, 6⟩, ⟨20, 1, .rwnv, 0⟩, ⟨21, 1, .rwnv, 0⟩, ⟨22, 2, .rwnv, 0⟩]⟩,
   /- PSI5_CFG -/ ⟨0x138, 1, 0x8, 1, [⟨0, 1, .rwnv, 0⟩, ⟨1, 1, .rwnv, 0⟩, ⟨2, 5, .rwnv, 10⟩, ⟨7, 1, .rwnv, 0⟩, ⟨12, 12, .rwnv, 500⟩, ⟨32, 8, .rwnv, 0⟩, ⟨40, 8, .rwnv, 0⟩, ⟨48, 8, .rwnv, 0⟩, ⟨56, 8, .rwnv, 0⟩]⟩,
   /- UART_CFG -/ ⟨0x140, 1, 0x8, 1, [⟨0, 24, .rwnv, 115200⟩, ⟨24, 4, .rwnv, 8⟩, ⟨28, 2, .rwnv, 0⟩, ⟨30, 1, .rwnv, 0⟩, ⟨31, 1, .rwnv, 0⟩, ⟨32, 8, .rwnv, 10⟩, ⟨40, 12, .rwnv, 256⟩, ⟨52, 1, .rwnv, 0⟩, ⟨56, 8, .rwnv, 10⟩]⟩,
   /- SPI_CFG -/ ⟨0x148, 1, 0x8, 1, [⟨0, 8, .rwnv, 15⟩, ⟨8, 2, .rwnv, 0⟩, ⟨10, 1, .rwnv, 0⟩, ⟨12, 4, .rwnv, 1⟩, ⟨16, 4, .rwnv, 1⟩, ⟨20, 4, .rwnv, 2⟩]⟩,
   /- I2C_CFG -/ ⟨0x150, 1, 0x8, 1, [⟨0, 2, .rwnv, 1⟩, ⟨2, 1, .rwnv, 1⟩, ⟨8, 8, .rwnv, 100⟩]⟩,
   /- PIN_CFG -/ ⟨0x158, 4, 0x8, 1, [⟨0, 3, .rwnv, 0⟩, ⟨3, 1, .rwnv, 0⟩, ⟨4, 2, .rwnv, 2⟩, ⟨6, 1, .rwnv, 0⟩, ⟨8, 8, .rwnv, 0⟩, ⟨16, 24, .rwnv, 0⟩, ⟨40, 24, .rwnv, 0⟩]⟩,
   /- FILTER -/ ⟨0x200, 32, 0x8, 1, [⟨0, 29, .rwnv, 0⟩, ⟨29, 1, .rwnv, 0⟩, ⟨30, 1, .rwnv, 0⟩, ⟨32, 29, .rwnv, 0⟩, ⟨61, 1, .rwnv, 0⟩, ⟨62, 2, .rwnv, 0⟩]⟩,
   /- BE_STATUS -/ ⟨0x180, 1, 0x8, 1, [⟨0, 3, .ro, 0⟩, ⟨3, 2, .ro, 0⟩, ⟨8, 8, .ro, 0⟩, ⟨16, 8, .ro, 0⟩]⟩,
   /- BE_EVT -/ ⟨0x188, 1, 0x8, 1, [⟨0, 1, .w1c, 0⟩, ⟨1, 1, .w1c, 0⟩, ⟨2, 1, .w1c, 0⟩, ⟨3, 1, .w1c, 0⟩, ⟨4, 1, .w1c, 0⟩, ⟨5, 1, .w1c, 0⟩, ⟨6, 1, .w1c, 0⟩]⟩,
   /- ETH_CFG -/ ⟨0x108, 1, 0x8, 2, [⟨0, 2, .rwnv, 0⟩, ⟨2, 3, .rwnv, 0⟩, ⟨5, 1, .rwnv, 0⟩, ⟨6, 1, .rwnv, 0⟩, ⟨7, 1, .rwnv, 1⟩, ⟨8, 1, .rwnv, 1⟩, ⟨10, 6, .rwnv, 19⟩]⟩,
   /- ETH_LAT -/ ⟨0x110, 1, 0x8, 2, [⟨0, 16, .rwnv, 0⟩, ⟨16, 16, .rwnv, 0⟩]⟩,
   /- SNAP_CFG -/ ⟨0x118, 1, 0x8, 2, [⟨0, 15, .rwnv, 16384⟩, ⟨16, 15, .rwnv, 128⟩]⟩,
   /- MDIO_CMD -/ ⟨0x120, 1, 0x8, 2, [⟨0, 16, .rw, 0⟩, ⟨16, 5, .rw, 0⟩, ⟨21, 5, .rw, 0⟩, ⟨26, 16, .rw, 0⟩, ⟨42, 1, .rw, 0⟩, ⟨43, 1, .rw, 0⟩, ⟨44, 1, .w1s, 0⟩, ⟨45, 1, .ro, 0⟩]⟩,
   /- PTP_CFG -/ ⟨0x130, 1, 0x8, 2, [⟨0, 2, .rwnv, 0⟩, ⟨4, 4, .rwnv, 13⟩, ⟨8, 4, .rwnv, 0⟩, ⟨12, 8, .rwnv, 0⟩, ⟨32, 32, .rwnv, 800⟩]⟩,
   /- TEL_CFG -/ ⟨0x138, 1, 0x8, 2, [⟨0, 1, .rw, 0⟩, ⟨1, 1, .rwnv, 0⟩, ⟨2, 1, .rwnv, 1⟩, ⟨8, 14, .rwnv, 0⟩, ⟨32, 14, .rwnv, 1500⟩, ⟨48, 16, .rwnv, 0⟩]⟩,
   /- TEL_DST -/ ⟨0x148, 1, 0x8, 2, [⟨0, 48, .rwnv, 0⟩, ⟨48, 12, .rwnv, 0⟩, ⟨60, 3, .rwnv, 0⟩, ⟨63, 1, .rwnv, 0⟩]⟩,
   /- TEL_IP4 -/ ⟨0x150, 1, 0x8, 2, [⟨0, 32, .rwnv, 0⟩, ⟨32, 32, .rwnv, 0⟩]⟩,
   /- TEL_PORTS -/ ⟨0x158, 1, 0x8, 2, [⟨0, 16, .rwnv, 22112⟩, ⟨16, 16, .rwnv, 22112⟩, ⟨32, 6, .rwnv, 0⟩, ⟨40, 8, .rwnv, 64⟩]⟩,
   /- TEL_IP6_SRC -/ ⟨0x160, 2, 0x8, 2, [⟨0, 64, .rwnv, 0⟩]⟩,
   /- TEL_IP6_DST -/ ⟨0x170, 2, 0x8, 2, [⟨0, 64, .rwnv, 0⟩]⟩,
   /- STATION -/ ⟨0x140, 1, 0x8, 2, [⟨0, 48, .rwnv, 0⟩]⟩,
   /- ETH_STATUS -/ ⟨0x180, 1, 0x8, 2, [⟨0, 3, .ro, 0⟩, ⟨3, 1, .ro, 0⟩, ⟨4, 3, .ro, 0⟩, ⟨7, 2, .ro, 0⟩]⟩,
   /- ETH_EVT -/ ⟨0x188, 1, 0x8, 2, [⟨0, 1, .w1c, 0⟩, ⟨1, 1, .w1c, 0⟩, ⟨2, 1, .w1c, 0⟩, ⟨3, 1, .w1c, 0⟩, ⟨4, 1, .w1c, 0⟩, ⟨5, 1, .w1c, 0⟩]⟩,
   /- TEL_STATS -/ ⟨0x198, 1, 0x8, 2, [⟨0, 32, .ro, 0⟩, ⟨32, 32, .ro, 0⟩]⟩,
   /- FILT_CTRL -/ ⟨0x190, 1, 0x8, 0, [⟨0, 1, .rwnv, 0⟩]⟩,
   /- ETH_FILTER0 -/ ⟨0x200, 8, 0x18, 2, [⟨0, 48, .rwnv, 0⟩, ⟨48, 16, .rwnv, 0⟩]⟩,
   /- ETH_FILTER1 -/ ⟨0x208, 8, 0x18, 2, [⟨0, 48, .rwnv, 0⟩, ⟨48, 16, .rwnv, 0⟩]⟩,
   /- ETH_FILTER2 -/ ⟨0x210, 8, 0x18, 2, [⟨0, 12, .rwnv, 0⟩, ⟨12, 1, .rwnv, 0⟩, ⟨13, 1, .rwnv, 0⟩, ⟨14, 1, .rwnv, 0⟩, ⟨16, 3, .rwnv, 0⟩]⟩]

/-- Registers of the pages of type 0x0104. -/
def pageRows0104 : List RegDef :=
  [/- FIFO_CFG -/ ⟨0x100, 1, 0x8, 0, [⟨0, 6, .rwnv, 8⟩]⟩,
   /- FIFO_STATUS -/ ⟨0x108, 1, 0x8, 0, [⟨0, 7, .ro, 0⟩, ⟨7, 1, .ro, 0⟩, ⟨8, 7, .ro, 0⟩, ⟨15, 1, .ro, 0⟩, ⟨16, 5, .ro, 0⟩, ⟨21, 1, .ro, 0⟩, ⟨24, 5, .ro, 0⟩, ⟨29, 1, .ro, 0⟩, ⟨32, 16, .ro, 16384⟩, ⟨48, 16, .ro, 8192⟩]⟩,
   /- FIFO_EVT -/ ⟨0x110, 1, 0x8, 0, [⟨0, 1, .w1c, 0⟩, ⟨1, 1, .w1c, 0⟩, ⟨2, 1, .w1c, 0⟩, ⟨3, 1, .w1c, 0⟩, ⟨4, 1, .w1c, 0⟩, ⟨5, 1, .w1c, 0⟩, ⟨6, 1, .w1c, 0⟩, ⟨7, 1, .w1c, 0⟩]⟩,
   /- MBI_DATA -/ ⟨0x118, 1, 0x8, 0, [⟨0, 64, .wo, 0⟩]⟩,
   /- MBO_DATA -/ ⟨0x120, 1, 0x8, 0, [⟨0, 64, .rc, 0⟩]⟩,
   /- MBO_HEAD -/ ⟨0x128, 1, 0x8, 0, [⟨0, 2, .ro, 0⟩, ⟨32, 32, .ro, 0⟩]⟩]

/-- Registers of the pages of type 0x0105. -/
def pageRows0105 : List RegDef :=
  [/- PT_CFG -/ ⟨0x100, 1, 0x8, 0, [⟨0, 16, .rwnv, 10000⟩]⟩,
   /- PT_STATUS -/ ⟨0x108, 1, 0x8, 0, [⟨0, 7, .ro, 0⟩, ⟨16, 16, .ro, 0⟩]⟩,
   /- PT_EVT -/ ⟨0x110, 1, 0x8, 0, [⟨0, 1, .w1c, 0⟩, ⟨1, 1, .w1c, 0⟩, ⟨2, 1, .w1c, 0⟩]⟩,
   /- PT_ENTRY -/ ⟨0x200, 64, 0x10, 0, [⟨0, 2, .rw, 0⟩, ⟨8, 8, .rw, 0⟩, ⟨16, 32, .rw, 0⟩]⟩,
   /- PT_ENTRY1 -/ ⟨0x208, 64, 0x10, 0, [⟨0, 48, .ro, 0⟩, ⟨48, 16, .ro, 0⟩]⟩]

/-- Registers of the pages of type 0x0103. -/
def pageRows0103 : List RegDef :=
  [/- SH_PROG -/ ⟨0x100, 1, 0x8, 0, [⟨0, 64, .rw, 0⟩]⟩,
   /- SH_BA -/ ⟨0x108, 4, 0x8, 0, [⟨0, 64, .rw, 0⟩]⟩,
   /- SH_CNT -/ ⟨0x128, 1, 0x8, 0, [⟨0, 32, .rw, 0⟩, ⟨32, 32, .rw, 0⟩]⟩,
   /- BM_CTRL -/ ⟨0x130, 1, 0x8, 0, [⟨0, 1, .w1s, 0⟩, ⟨1, 1, .wo, 0⟩, ⟨2, 1, .rw, 0⟩]⟩,
   /- BM_CMD -/ ⟨0x138, 1, 0x8, 0, [⟨0, 1, .wo, 0⟩, ⟨1, 1, .wo, 0⟩, ⟨2, 1, .wo, 0⟩]⟩,
   /- ACT_PROG -/ ⟨0x160, 1, 0x8, 0, [⟨0, 64, .ro, 0⟩]⟩,
   /- BA -/ ⟨0x168, 4, 0x8, 0, [⟨0, 64, .ro, 0⟩]⟩,
   /- CNT -/ ⟨0x188, 1, 0x8, 0, [⟨0, 32, .ro, 0⟩, ⟨32, 32, .ro, 0⟩]⟩,
   /- BA_INIT -/ ⟨0x190, 4, 0x8, 0, [⟨0, 64, .ro, 0⟩]⟩,
   /- CNT_INIT -/ ⟨0x1b0, 1, 0x8, 0, [⟨0, 32, .ro, 0⟩, ⟨32, 32, .ro, 0⟩]⟩,
   /- BM_STATUS -/ ⟨0x140, 1, 0x8, 0, [⟨0, 3, .ro, 0⟩, ⟨8, 1, .ro, 0⟩, ⟨16, 16, .ro, 0⟩, ⟨48, 16, .ro, 0⟩]⟩,
   /- BM_EVT -/ ⟨0x148, 1, 0x8, 0, [⟨0, 1, .w1c, 0⟩, ⟨1, 1, .w1c, 0⟩, ⟨2, 1, .w1c, 0⟩, ⟨3, 1, .w1c, 0⟩, ⟨4, 1, .w1c, 0⟩]⟩,
   /- BM_ERR -/ ⟨0x150, 1, 0x8, 0, [⟨0, 4, .ro, 0⟩, ⟨16, 16, .ro, 0⟩, ⟨32, 32, .ro, 0⟩]⟩,
   /- BM_ERRINS -/ ⟨0x158, 1, 0x8, 0, [⟨0, 64, .ro, 0⟩]⟩,
   /- BM_BYTES -/ ⟨0x1b8, 1, 0x8, 0, [⟨0, 64, .ro, 0⟩]⟩,
   /- BM_COUNTS -/ ⟨0x1c0, 1, 0x8, 0, [⟨0, 32, .ro, 0⟩, ⟨32, 16, .ro, 0⟩, ⟨48, 16, .ro, 0⟩]⟩]

/-- Registers of the pages of type 0x0020. -/
def pageRows0020 : List RegDef :=
  [/- POUND_STATUS -/ ⟨0x100, 1, 0x8, 0, [⟨0, 10, .ro, 768⟩, ⟨16, 10, .ro, 144⟩, ⟨32, 10, .ro, 608⟩, ⟨48, 10, .rc, 768⟩]⟩,
   /- POUND_EVT -/ ⟨0x108, 1, 0x8, 0, [⟨0, 1, .w1c, 0⟩, ⟨1, 1, .w1c, 0⟩, ⟨2, 1, .w1c, 0⟩, ⟨3, 1, .w1c, 0⟩]⟩,
   /- POUND_CHAN -/ ⟨0x110, 1, 0x8, 0, [⟨0, 56, .ro, 0⟩]⟩,
   /- POUND_STATS -/ ⟨0x118, 1, 0x8, 0, [⟨0, 32, .ro, 0⟩, ⟨32, 32, .ro, 0⟩]⟩]

/-- Registers of the pages of type 0x0021. -/
def pageRows0021 : List RegDef :=
  [/- RING_BASE -/ ⟨0x100, 1, 0x8, 0, [⟨20, 16, .rwnv, 0⟩]⟩,
   /- RING_SIZE -/ ⟨0x108, 1, 0x8, 0, [⟨0, 16, .rwnv, 10922⟩]⟩,
   /- RING_HEAD -/ ⟨0x110, 1, 0x8, 0, [⟨0, 64, .ro, 0⟩]⟩,
   /- RING_TAIL -/ ⟨0x118, 1, 0x8, 0, [⟨0, 64, .ro, 0⟩]⟩,
   /- RING_LAST -/ ⟨0x120, 1, 0x8, 0, [⟨0, 48, .ro, 0⟩]⟩,
   /- RING_LAST_HDR -/ ⟨0x128, 1, 0x8, 0, [⟨0, 64, .ro, 0⟩]⟩,
   /- RING_OLDEST -/ ⟨0x130, 1, 0x8, 0, [⟨0, 48, .ro, 0⟩]⟩]

/-- Registers of the pages of type 0x0090. -/
def pageRows0090 : List RegDef :=
  [/- SIG_RANGE -/ ⟨0x100, 57, 0x8, 0, [⟨0, 12, .rwnv, 0⟩, ⟨12, 13, .rwnv, 0⟩, ⟨32, 16, .rwnv, 0⟩]⟩,
   /- SIG_HOST_PUB -/ ⟨0x300, 1, 0x8, 0, [⟨0, 32, .wo, 0⟩, ⟨32, 12, .wo, 0⟩, ⟨48, 8, .wo, 0⟩]⟩,
   /- SIG_EVT -/ ⟨0x308, 1, 0x8, 0, [⟨0, 1, .w1c, 0⟩]⟩]

/-- Registers of the pages of type 0x0091. -/
def pageRows0091 : List RegDef :=
  [/- KEY_CTRL -/ ⟨0x100, 64, 0x8, 0, [⟨0, 1, .rw, 0⟩, ⟨1, 1, .wo, 0⟩, ⟨2, 2, .ro, 0⟩, ⟨4, 1, .ro, 0⟩, ⟨8, 6, .ro, 0⟩, ⟨16, 16, .ro, 0⟩]⟩,
   /- KS_EVT -/ ⟨0x300, 1, 0x8, 0, [⟨0, 1, .w1c, 0⟩, ⟨1, 1, .w1c, 0⟩, ⟨2, 1, .w1c, 0⟩, ⟨3, 1, .w1c, 0⟩, ⟨4, 1, .w1c, 0⟩]⟩,
   /- KS_IRQ -/ ⟨0x308, 1, 0x8, 0, [⟨0, 64, .w1c, 0⟩]⟩,
   /- KS_LOAD_RESULT -/ ⟨0x310, 1, 0x8, 0, [⟨0, 6, .ro, 0⟩, ⟨8, 4, .ro, 0⟩, ⟨16, 5, .ro, 0⟩]⟩,
   /- KS_OUT -/ ⟨0x318, 1, 0x8, 0, [⟨0, 64, .ro, 0⟩]⟩,
   /- TRIG_IN_TIME -/ ⟨0x320, 2, 0x8, 0, [⟨0, 64, .ro, 0⟩]⟩]

/-- Registers of the pages of type 0x0092. -/
def pageRows0092 : List RegDef :=
  [/- KSTATS -/ ⟨0x100, 64, 0x8, 0, [⟨0, 32, .ro, 0⟩, ⟨32, 16, .ro, 0⟩, ⟨48, 8, .ro, 0⟩, ⟨56, 8, .ro, 0⟩]⟩]

/-- Registers of the pages of type 0x0040. -/
def pageRows0040 : List RegDef :=
  [/- PLACE_CFG -/ ⟨0x100, 1, 0x8, 0, [⟨0, 1, .rwnv, 0⟩, ⟨1, 1, .rwnv, 0⟩, ⟨8, 7, .rwnv, 75⟩, ⟨16, 7, .rwnv, 50⟩, ⟨24, 8, .rwnv, 8⟩, ⟨32, 16, .rwnv, 1000⟩, ⟨48, 16, .rwnv, 100⟩]⟩,
   /- STAGE_BASE -/ ⟨0x108, 1, 0x8, 0, [⟨20, 16, .rwnv, 10922⟩]⟩,
   /- STAGE_SIZE -/ ⟨0x110, 1, 0x8, 0, [⟨0, 16, .rwnv, 3072⟩]⟩,
   /- PLACE_STATUS -/ ⟨0x118, 1, 0x8, 0, [⟨0, 5, .ro, 0⟩, ⟨8, 7, .ro, 0⟩, ⟨15, 1, .ro, 0⟩, ⟨16, 9, .ro, 0⟩]⟩,
   /- PLACE_EVT -/ ⟨0x120, 1, 0x8, 0, [⟨0, 1, .w1c, 0⟩, ⟨1, 1, .w1c, 0⟩, ⟨2, 1, .w1c, 0⟩, ⟨3, 1, .w1c, 0⟩, ⟨4, 1, .w1c, 0⟩, ⟨5, 1, .w1c, 0⟩]⟩,
   /- DEF_RESULT -/ ⟨0x128, 1, 0x8, 0, [⟨0, 8, .ro, 0⟩, ⟨8, 4, .ro, 0⟩]⟩,
   /- QUAY_CFG -/ ⟨0x130, 1, 0x8, 0, [⟨0, 4, .rwnv, 0⟩]⟩]

/-- Registers of the pages of type 0x0042. -/
def pageRows0042 : List RegDef :=
  [/- STRM_STATE -/ ⟨0x100, 64, 0x20, 0, [⟨0, 2, .ro, 0⟩, ⟨2, 1, .ro, 0⟩, ⟨3, 1, .ro, 0⟩, ⟨4, 1, .ro, 0⟩, ⟨8, 8, .ro, 0⟩, ⟨16, 48, .ro, 0⟩]⟩,
   /- STRM_STATS0 -/ ⟨0x108, 64, 0x20, 0, [⟨0, 32, .ro, 0⟩, ⟨32, 32, .ro, 0⟩]⟩,
   /- STRM_STATS1 -/ ⟨0x110, 64, 0x20, 0, [⟨0, 32, .ro, 0⟩, ⟨32, 32, .ro, 0⟩]⟩,
   /- STRM_TEL -/ ⟨0x118, 64, 0x20, 0, [⟨0, 32, .ro, 0⟩]⟩]

/-- Registers of the pages of type 0x0041. -/
def pageRows0041 : List RegDef :=
  [/- DRIVE_STATE -/ ⟨0x100, 1, 0x8, 0, [⟨0, 4, .ro, 0⟩, ⟨4, 4, .ro, 0⟩, ⟨8, 8, .ro, 0⟩, ⟨32, 32, .ro, 0⟩]⟩,
   /- DRIVE_CAP -/ ⟨0x108, 1, 0x8, 0, [⟨0, 32, .ro, 0⟩]⟩,
   /- DRIVE_CTRL -/ ⟨0x110, 1, 0x8, 0, [⟨0, 1, .wo, 0⟩, ⟨1, 1, .rw, 0⟩, ⟨2, 1, .wo, 0⟩, ⟨3, 1, .rwnv, 1⟩]⟩,
   /- DRIVE_EVT -/ ⟨0x118, 1, 0x8, 0, [⟨0, 1, .w1c, 0⟩, ⟨1, 1, .w1c, 0⟩, ⟨2, 1, .w1c, 0⟩, ⟨3, 1, .w1c, 0⟩, ⟨4, 1, .w1c, 0⟩, ⟨5, 1, .w1c, 0⟩, ⟨6, 1, .w1c, 0⟩]⟩,
   /- DRIVE_IO -/ ⟨0x120, 1, 0x8, 0, [⟨0, 16, .ro, 0⟩, ⟨16, 16, .ro, 0⟩, ⟨32, 8, .ro, 0⟩]⟩]

/-- Registers of the pages of type 0x0081. -/
def pageRows0081 : List RegDef :=
  [/- SRC -/ ⟨0x100, 128, 0x8, 0, [⟨0, 4, .rwnv, 15⟩, ⟨4, 3, .rwnv, 0⟩, ⟨8, 10, .rwnv, 0⟩, ⟨24, 7, .rwnv, 0⟩, ⟨31, 1, .rwnv, 0⟩, ⟨32, 1, .ro, 0⟩, ⟨33, 1, .ro, 0⟩, ⟨34, 1, .ro, 0⟩, ⟨35, 1, .ro, 0⟩, ⟨36, 1, .ro, 0⟩, ⟨37, 1, .wo, 0⟩, ⟨38, 1, .wo, 0⟩]⟩]

/-- Registers of the pages of type 0x0082. -/
def pageRows0082 : List RegDef :=
  [/- GRP -/ ⟨0x100, 128, 0x8, 0, [⟨0, 16, .rwnv, 0⟩, ⟨16, 1, .rwnv, 0⟩, ⟨17, 1, .ro, 0⟩, ⟨32, 32, .ro, 0⟩]⟩]

/-- Registers of the pages of type 0x0083. -/
def pageRows0083 : List RegDef :=
  [/- HV_EOI -/ ⟨0x100, 64, 0x10, 0, [⟨0, 64, .wo, 0⟩]⟩,
   /- HV_STACK -/ ⟨0x108, 64, 0x10, 0, [⟨0, 4, .ro, 0⟩, ⟨4, 5, .ro, 16⟩, ⟨16, 32, .ro, 0⟩, ⟨48, 10, .ro, 1023⟩]⟩]

/-- Registers of the pages of type 0x0080. -/
def pageRows0080 : List RegDef :=
  [/- IC_EVT -/ ⟨0x100, 1, 0x8, 0, [⟨0, 1, .w1c, 0⟩, ⟨1, 1, .w1c, 0⟩]⟩,
   /- PEND -/ ⟨0x108, 10, 0x8, 0, [⟨0, 64, .ro, 0⟩]⟩,
   /- INS -/ ⟨0x158, 10, 0x8, 0, [⟨0, 64, .ro, 0⟩]⟩]

/-- Registers of the pages of type 0x0051. -/
def pageRows0051 : List RegDef :=
  [/- ECC_DRAM -/ ⟨0x100, 1, 0x8, 0, [⟨0, 32, .ro, 0⟩, ⟨32, 32, .ro, 0⟩]⟩,
   /- ECC_OTHER -/ ⟨0x108, 4, 0x8, 0, [⟨0, 32, .ro, 0⟩, ⟨32, 32, .ro, 0⟩]⟩,
   /- DRAM_RAS -/ ⟨0x128, 1, 0x8, 0, [⟨0, 6, .ro, 32⟩, ⟨8, 8, .rwnv, 4⟩, ⟨16, 16, .ro, 0⟩, ⟨32, 8, .rwnv, 12⟩, ⟨40, 1, .rwnv, 1⟩]⟩,
   /- DRAM_LAST -/ ⟨0x130, 1, 0x8, 0, [⟨0, 48, .ro, 0⟩]⟩,
   /- LINK_STATE -/ ⟨0x138, 1, 0x8, 0, [⟨0, 4, .ro, 0⟩, ⟨4, 8, .ro, 0⟩, ⟨16, 4, .ro, 0⟩, ⟨24, 4, .ro, 0⟩, ⟨32, 4, .ro, 0⟩, ⟨40, 4, .ro, 0⟩, ⟨20, 4, .ro, 0⟩, ⟨28, 4, .ro, 0⟩, ⟨36, 4, .ro, 0⟩, ⟨44, 4, .ro, 0⟩]⟩,
   /- REPAIR -/ ⟨0x140, 1, 0x8, 0, [⟨0, 12, .ro, 0⟩, ⟨12, 4, .ro, 4⟩, ⟨16, 1, .ro, 1⟩, ⟨32, 8, .ro, 0⟩]⟩,
   /- RAS_EVT -/ ⟨0x148, 1, 0x8, 0, [⟨0, 1, .w1c, 0⟩, ⟨1, 1, .w1c, 0⟩, ⟨2, 1, .w1c, 0⟩, ⟨3, 1, .w1c, 0⟩, ⟨4, 1, .w1c, 0⟩, ⟨5, 1, .w1c, 0⟩, ⟨6, 1, .w1c, 0⟩, ⟨7, 1, .w1c, 0⟩]⟩]

/-- Registers of the pages of type 0x0050. -/
def pageRows0050 : List RegDef :=
  [/- FAULT_STATUS -/ ⟨0x100, 1, 0x8, 0, [⟨0, 64, .w1c, 0⟩]⟩,
   /- FAULT_FIRST -/ ⟨0x108, 1, 0x8, 0, [⟨0, 6, .ro, 0⟩, ⟨6, 2, .ro, 0⟩, ⟨8, 8, .ro, 0⟩, ⟨16, 48, .ro, 0⟩]⟩,
   /- FAULT_TIMER -/ ⟨0x110, 1, 0x8, 0, [⟨0, 1, .ro, 0⟩, ⟨1, 1, .ro, 0⟩, ⟨16, 16, .ro, 0⟩]⟩,
   /- FAULT_ACK -/ ⟨0x118, 1, 0x8, 0, [⟨0, 16, .wo, 0⟩]⟩,
   /- FAULT_CLASS0 -/ ⟨0x120, 1, 0x8, 0, [⟨0, 64, .rwnv, 0⟩]⟩,
   /- FAULT_CLASS1 -/ ⟨0x128, 1, 0x8, 0, [⟨0, 64, .rwnv, 5190398570544496640⟩]⟩,
   /- FAULT_CTRL -/ ⟨0x130, 1, 0x8, 0, [⟨0, 16, .rwnv, 100⟩, ⟨16, 16, .rwnv, 10⟩, ⟨32, 1, .rwnv, 1⟩]⟩,
   /- FAULT_EVT -/ ⟨0x138, 1, 0x8, 0, [⟨0, 1, .w1c, 0⟩, ⟨1, 1, .w1c, 0⟩, ⟨2, 1, .w1c, 0⟩, ⟨3, 1, .w1c, 0⟩, ⟨4, 1, .w1c, 0⟩, ⟨5, 1, .w1c, 0⟩]⟩]

/-- Registers of the pages of type 0x0052. -/
def pageRows0052 : List RegDef :=
  [/- VSENSE_CFG -/ ⟨0x100, 1, 0x8, 0, [⟨0, 16, .rwnv, 5120⟩]⟩,
   /- SUPPLY_EVT -/ ⟨0x108, 1, 0x8, 0, [⟨0, 1, .w1c, 0⟩, ⟨1, 1, .w1c, 0⟩, ⟨2, 1, .w1c, 0⟩]⟩,
   /- MON0 -/ ⟨0x110, 10, 0x10, 0, [⟨0, 16, .rwnv, 0⟩, ⟨16, 16, .rwnv, 0⟩, ⟨32, 16, .rwnv, 20⟩, ⟨48, 8, .rwnv, 2⟩]⟩,
   /- MON1 -/ ⟨0x118, 10, 0x10, 0, [⟨0, 16, .ro, 0⟩, ⟨16, 16, .rc, 65535⟩, ⟨32, 1, .ro, 0⟩]⟩,
   /- LAST_RESET -/ ⟨0x1b0, 1, 0x8, 0, [⟨0, 4, .ro, 0⟩, ⟨4, 4, .ro, 0⟩, ⟨8, 16, .ro, 0⟩]⟩,
   /- THERM_CFG -/ ⟨0x1c0, 1, 0x8, 0, [⟨0, 8, .rwnv, 110⟩, ⟨8, 8, .rwnv, 118⟩, ⟨16, 8, .ro, 127⟩]⟩,
   /- THERM_STATUS -/ ⟨0x1c8, 1, 0x8, 0, [⟨0, 8, .ro, 0⟩, ⟨8, 4, .ro, 0⟩, ⟨12, 2, .ro, 0⟩]⟩,
   /- THERM_EVT -/ ⟨0x1d0, 1, 0x8, 0, [⟨0, 1, .w1c, 0⟩, ⟨1, 1, .w1c, 0⟩, ⟨2, 1, .w1c, 0⟩, ⟨3, 1, .w1c, 0⟩]⟩]

/-- Registers of the pages of type 0x0061. -/
def pageRows0061 : List RegDef :=
  [/- ST_SUMMARY -/ ⟨0x100, 1, 0x8, 0, [⟨0, 1, .ro, 0⟩, ⟨4, 4, .ro, 0⟩, ⟨8, 16, .ro, 0⟩, ⟨32, 16, .ro, 0⟩]⟩,
   /- CHMAP -/ ⟨0x108, 7, 0x8, 0, [⟨0, 64, .ro, 18446744073709551615⟩]⟩,
   /- TILE_FAIL -/ ⟨0x140, 1, 0x8, 0, [⟨0, 61, .ro, 0⟩]⟩,
   /- SRAM_RESULT -/ ⟨0x148, 1, 0x8, 0, [⟨0, 16, .ro, 0⟩, ⟨16, 16, .ro, 0⟩]⟩,
   /- DRAM_RESULT -/ ⟨0x150, 1, 0x8, 0, [⟨0, 4, .ro, 0⟩, ⟨4, 16, .ro, 0⟩, ⟨20, 16, .ro, 0⟩]⟩,
   /- BOOT_INFO -/ ⟨0x158, 1, 0x8, 0, [⟨0, 32, .ro, 0⟩, ⟨32, 1, .ro, 0⟩, ⟨33, 1, .ro, 0⟩, ⟨34, 2, .ro, 0⟩]⟩,
   /- FW_VERSION -/ ⟨0x160, 1, 0x8, 0, [⟨0, 32, .ro, 0⟩]⟩,
   /- CFG_STATUS -/ ⟨0x168, 1, 0x8, 0, [⟨0, 2, .ro, 0⟩, ⟨4, 4, .ro, 0⟩, ⟨8, 16, .ro, 0⟩, ⟨32, 32, .ro, 0⟩]⟩]

/-- Registers of the pages of type 0x0060. -/
def pageRows0060 : List RegDef :=
  [/- MB_CMD -/ ⟨0x100, 1, 0x8, 0, [⟨0, 16, .rw, 0⟩, ⟨16, 16, .rw, 0⟩, ⟨32, 1, .w1s, 0⟩]⟩,
   /- MB_STATUS -/ ⟨0x108, 1, 0x8, 0, [⟨0, 1, .ro, 0⟩, ⟨8, 8, .ro, 0⟩, ⟨16, 16, .ro, 0⟩, ⟨32, 8, .ro, 0⟩]⟩,
   /- MB_EVT -/ ⟨0x110, 1, 0x8, 0, [⟨0, 1, .w1c, 0⟩, ⟨1, 1, .w1c, 0⟩]⟩,
   /- MB_REQ -/ ⟨0x200, 32, 0x8, 0, [⟨0, 64, .rw, 0⟩]⟩,
   /- MB_RSP -/ ⟨0x300, 32, 0x8, 0, [⟨0, 64, .ro, 0⟩]⟩]

/-- Registers of the pages of type 0x0070. -/
def pageRows0070 : List RegDef :=
  [/- TP_CFG -/ ⟨0x100, 1, 0x8, 0, [⟨0, 8, .rwnv, 128⟩, ⟨8, 1, .rwnv, 0⟩]⟩,
   /- TP_STATUS -/ ⟨0x108, 1, 0x8, 0, [⟨0, 4, .ro, 15⟩, ⟨4, 4, .ro, 15⟩, ⟨8, 1, .ro, 0⟩, ⟨9, 1, .ro, 0⟩, ⟨10, 1, .ro, 0⟩, ⟨16, 4, .ro, 1⟩]⟩,
   /- TP_MASTER -/ ⟨0x110, 1, 0x8, 0, [⟨0, 64, .ro, 0⟩]⟩,
   /- TP_EVT -/ ⟨0x118, 1, 0x8, 0, [⟨0, 1, .w1c, 0⟩, ⟨1, 1, .w1c, 0⟩, ⟨2, 1, .w1c, 0⟩, ⟨3, 1, .w1c, 0⟩]⟩,
   /- TP_STATS -/ ⟨0x120, 1, 0x8, 0, [⟨0, 16, .ro, 0⟩, ⟨16, 16, .ro, 0⟩]⟩,
   /- TP_PORT_CFG -/ ⟨0x140, 2, 0x20, 0, [⟨0, 1, .rwnv, 1⟩, ⟨16, 16, .rwnv, 0⟩]⟩,
   /- TP_PORT_STATUS -/ ⟨0x148, 2, 0x20, 0, [⟨0, 3, .ro, 0⟩, ⟨3, 2, .ro, 0⟩, ⟨8, 8, .ro, 0⟩, ⟨16, 1, .ro, 0⟩, ⟨32, 16, .ro, 0⟩]⟩,
   /- TP_PORT_EVT -/ ⟨0x150, 2, 0x20, 0, [⟨0, 1, .w1c, 0⟩, ⟨1, 1, .w1c, 0⟩, ⟨2, 1, .w1c, 0⟩, ⟨3, 1, .w1c, 0⟩, ⟨4, 1, .w1c, 0⟩, ⟨5, 1, .w1c, 0⟩]⟩,
   /- TP_PORT_STATS -/ ⟨0x158, 2, 0x20, 0, [⟨0, 32, .ro, 0⟩, ⟨32, 16, .ro, 0⟩, ⟨48, 16, .ro, 0⟩]⟩,
   /- TP_EXPORT -/ ⟨0x200, 31, 0x8, 0, [⟨0, 12, .rwnv, 0⟩, ⟨16, 12, .rwnv, 0⟩, ⟨32, 8, .rwnv, 255⟩, ⟨40, 1, .rwnv, 0⟩]⟩]

/-- The common page header (18, R400). -/
def pageRows0000 : List RegDef :=
  [/- PAGE_ID -/ ⟨0x0, 1, 0x8, 0, [⟨0, 16, .ro, 0⟩, ⟨16, 16, .ro, 0⟩, ⟨32, 8, .ro, 0⟩, ⟨40, 8, .ro, 1⟩]⟩,
   /- PAGE_CTRL -/ ⟨0x8, 1, 0x8, 0, [⟨0, 1, .rw, 0⟩]⟩,
   /- PAGE_STATUS -/ ⟨0x10, 1, 0x8, 0, [⟨0, 1, .ro, 1⟩, ⟨1, 1, .ro, 0⟩, ⟨2, 1, .ro, 0⟩]⟩,
   /- ERR_STATUS -/ ⟨0x18, 1, 0x8, 0, [⟨0, 1, .w1c, 0⟩, ⟨1, 1, .w1c, 0⟩, ⟨2, 1, .w1c, 0⟩, ⟨3, 1, .w1c, 0⟩, ⟨4, 1, .w1c, 0⟩]⟩,
   /- ERR_FIRST -/ ⟨0x20, 1, 0x8, 0, [⟨0, 12, .ro, 0⟩, ⟨12, 4, .ro, 0⟩, ⟨16, 1, .ro, 0⟩, ⟨32, 32, .ro, 0⟩]⟩,
   /- ERR_MASK -/ ⟨0x28, 1, 0x8, 0, [⟨0, 5, .rw, 0⟩]⟩,
   /- EVT_RAW -/ ⟨0x30, 1, 0x8, 0, [⟨0, 1, .ro, 0⟩, ⟨1, 1, .ro, 0⟩]⟩,
   /- EVT_ENABLE -/ ⟨0x38, 1, 0x8, 0, [⟨0, 1, .rw, 0⟩]⟩,
   /- SHADOW_CTRL -/ ⟨0x40, 1, 0x8, 0, [⟨0, 1, .rw, 0⟩, ⟨1, 1, .wo, 0⟩, ⟨2, 1, .wo, 0⟩, ⟨3, 1, .ro, 0⟩, ⟨4, 6, .ro, 0⟩]⟩]

/-- Registers of the pages of type 0x0002. -/
def pageRows0002 : List RegDef :=
  [/- BAR2_BASE -/ ⟨0x100, 1, 0x8, 0, [⟨20, 16, .rw, 0⟩]⟩,
   /- BAR2_CTRL -/ ⟨0x108, 1, 0x8, 0, [⟨0, 1, .rwnv, 1⟩, ⟨1, 1, .rwnv, 1⟩]⟩,
   /- HP_EVT -/ ⟨0x110, 1, 0x8, 0, [⟨0, 1, .w1c, 0⟩, ⟨1, 1, .w1c, 0⟩, ⟨2, 1, .w1c, 0⟩]⟩,
   /- HP_STATS -/ ⟨0x118, 1, 0x8, 0, [⟨0, 32, .ro, 0⟩, ⟨32, 32, .ro, 0⟩]⟩]

/-- Registers of the pages of type 0x0013. -/
def pageRows0013 : List RegDef :=
  [/- LS_ACTIVE -/ ⟨0x100, 448, 0x8, 0, [⟨0, 24, .ro, 0⟩, ⟨24, 8, .ro, 0⟩, ⟨32, 4, .ro, 0⟩]⟩]

/-- Registers of the pages of type 0x0107. -/
def pageRows0107 : List RegDef :=
  [/- STATS_CNT -/ ⟨0x100, 8, 0x8, 0, [⟨0, 64, .ro, 0⟩]⟩]

/-- Registers of the pages of type 0x0084. -/
def pageRows0084 : List RegDef :=
  [/- TSTACK -/ ⟨0x100, 448, 0x8, 0, [⟨0, 4, .ro, 0⟩, ⟨4, 5, .ro, 16⟩, ⟨16, 32, .ro, 0⟩, ⟨48, 10, .ro, 1023⟩]⟩,
   /- TH_STACK -/ ⟨0xf00, 1, 0x8, 0, [⟨0, 4, .ro, 0⟩, ⟨4, 5, .ro, 16⟩, ⟨16, 32, .ro, 0⟩, ⟨48, 10, .ro, 1023⟩]⟩]

/-- The registers of a page of type `ty` beyond the header (18, R403). -/
def pageRows (ty : Nat) : List RegDef :=
  match ty with
  | 0x0001 => pageRows0001
  | 0x0010 => pageRows0010
  | 0x0100 => pageRows0100
  | 0x0012 => pageRows0012
  | 0x0011 => pageRows0011
  | 0x0101 => pageRows0101
  | 0x0106 => pageRows0106
  | 0x0031 => pageRows0031
  | 0x0030 => pageRows0030
  | 0x0032 => pageRows0032
  | 0x0102 => pageRows0102
  | 0x0104 => pageRows0104
  | 0x0105 => pageRows0105
  | 0x0103 => pageRows0103
  | 0x0020 => pageRows0020
  | 0x0021 => pageRows0021
  | 0x0090 => pageRows0090
  | 0x0091 => pageRows0091
  | 0x0092 => pageRows0092
  | 0x0040 => pageRows0040
  | 0x0042 => pageRows0042
  | 0x0041 => pageRows0041
  | 0x0081 => pageRows0081
  | 0x0082 => pageRows0082
  | 0x0083 => pageRows0083
  | 0x0080 => pageRows0080
  | 0x0051 => pageRows0051
  | 0x0050 => pageRows0050
  | 0x0052 => pageRows0052
  | 0x0061 => pageRows0061
  | 0x0060 => pageRows0060
  | 0x0070 => pageRows0070
  | 0x0002 => pageRows0002
  | 0x0013 => pageRows0013
  | 0x0107 => pageRows0107
  | 0x0084 => pageRows0084
  | _ => []

end Sys2Proof.Machine
end

