-- ==== Sys2Proof/Machine/StreamChannel.lean ====
section
/-!
DEFINITION. Stream channels (09, R217–R230): the checks of their registers, capture, transmission, MDIO, the link, gPTP
delays, and the telemetry datagrams of R229.
-/
namespace Sys2Proof.Machine

/-- A stream channel (S0–S7). -/
def isStream (c : Nat) : Bool := decide (48 ≤ c ∧ c < 56)

def modeEth : Nat := 9

/-- A signed 4-bit value lies in −8 to +3. -/
def logOk (v : Nat) : Bool := decide (v < 4 ∨ 8 ≤ v)

/-- Non-EN bits of TEL_CFG. -/
def telOther (v : Nat) : Nat := v / 2

/-- TEL_CFG as it reads. -/
def telCfgWord (s : State) (c : Nat) : Nat :=
  s.get (Fld.TEL_CFG_EN c) + s.get (Fld.TEL_CFG_IPV6 c) * 2 + s.get (Fld.TEL_CFG_CSUM4 c) * 4
    + s.get (Fld.TEL_CFG_RATE_MBPS c) * 2 ^ 8 + s.get (Fld.TEL_CFG_MTU c) * 2 ^ 32 + s.get (Fld.TEL_CFG_DEVICE_ID c) * 2 ^ 48

/-- A write of `v` to the BUSENG register at offset `off` of a stream channel is accepted (R219, R220, R222). -/
def ethCfgOk (s : State) (c off v : Nat) : Bool :=
  let off_ := engineOf s c == engOff
  let telOff := !s.isSet (Fld.TEL_CFG_EN c)
  if off = 0x108 then
    off_ && decide (bf v 0 2 ≤ 1) && decide (bf v 2 3 ≤ 5) && (bf v 0 2 == 0 || decide (bf v 2 3 ≤ 2)) && decide (3 ≤ bf v 10 6)
  else if off = 0x118 then
    off_ && decide (64 ≤ bf v 0 15 ∧ bf v 0 15 ≤ 16384) && decide (64 ≤ bf v 16 15 ∧ bf v 16 15 ≤ 16384)
  else if off = 0x120 then !s.isSet (Fld.MDIO_CMD_BUSY c)
  else if off = 0x130 then off_ && bf v 0 2 != 3 && logOk (bf v 4 4) && logOk (bf v 8 4)
  else if off = 0x138 then
    (telOff || telOther (v % 2 ^ 64) == telOther (telCfgWord s c))
      && decide (bf v 8 14 ≤ 10000) && decide (576 ≤ bf v 32 14 ∧ bf v 32 14 ≤ 9000)
      && (!bit v 0 || (s.isSet (Fld.ETH_CFG_TX_EN c) && s.get (Fld.TEL_DST_DMAC c) != 0))
  else if off = 0x148 ∨ (0x150 ≤ off ∧ off < 0x180) then telOff
  else if 0x200 ≤ off ∧ off < 0x2C0 then (off - 0x200) % 0x18 != 0x10 || decide (bf v 16 3 ≤ 4)
  else true

/-! ### Capture (R221–R224) -/

/-- A TPID of a VLAN tag. -/
def isTpid (v : Nat) : Bool := v == 0x8100 || v == 0x88A8

/-- Number of tags at the start of a frame, at most two. -/
def tagCount (h : List Byte) : Nat :=
  if isTpid (beNat (bsub h 12 2)) then (if isTpid (beNat (bsub h 16 2)) then 2 else 1) else 0

/-- EtherType after the tags. -/
def etherType (h : List Byte) : Nat := beNat (bsub h (12 + 4 * tagCount h) 2)

/-- A filter matches a frame's first bytes (R222). -/
def ethMatch (s : State) (c i : Nat) (h : List Byte) : Bool :=
  let da := beNat (bsub h 0 6)
  let m := s.get (Fld.ETH_FILTER1_DA_MASK c i)
  let em := s.get (Fld.ETH_FILTER1_ETYPE_MASK c i)
  s.get (Fld.ETH_FILTER2_ACTION c i) != 0
    && (da &&& m) == (s.get (Fld.ETH_FILTER0_DA c i) &&& m)
    && (etherType h &&& em) == (s.get (Fld.ETH_FILTER0_ETYPE c i) &&& em)
    && (!s.isSet (Fld.ETH_FILTER2_VID_EN c i)
        || (decide (0 < tagCount h) && beNat (bsub h 14 2) % 4096 == s.get (Fld.ETH_FILTER2_VID c i)))

/-- Offset of ETH_LAT, of FILT_CTRL or of a filter, which may be written while frames arrive (R219). -/
def isCapture (off : Nat) : Bool := off == 0x110 || off == 0x190 || decide (0x200 ≤ off ∧ off < 0x2C0)

/-- A register field of those of channel `c`. -/
def captureKey (c : Fin 56) (kv : Nat × Nat) : Bool :=
  let a := kv.1 / 64
  decide (chPage c 2 ≤ a) && isCapture (a - chPage c 2)

/-- They are about to be written: what they hold is remembered for a frame whose SFD has arrived. A frame is decided within a
millisecond of its SFD (DESIGN CHOICE, log entry 146). -/
def captureNote (s : State) (c : Fin 56) : State :=
  s.modEth c (fun e => { e with before := e.before.filter (fun x => decide (s.now < x.1 + 1000000)) ++ [(s.now, s.fld.filter (captureKey c))] })

/-- The state with these registers as they were when an SFD arrived: before the first write that came after it. -/
def captureAt (s : State) (c : Fin 56) (sfd : Nat) : State :=
  match (s.eth c).before.find? (fun x => decide (sfd < x.1)) with
  | some x => { s with fld := x.2.foldl (fun m kv => SMap.insert m kv.1 kv.2) (s.fld.filter (fun kv => !captureKey c kv)) }
  | none => s

/-- The timestamp of a frame whose SFD ended at `sfd` (R221), of its record and for gPTP. -/
def ethStamp (s : State) (c : Fin 56) (sfd : Nat) : Nat := min sfd s.now - (captureAt s c sfd).get (Fld.ETH_LAT_RX_LAT_NS c)

/-- ETH_FILTER_DECISION (R222): the first bytes of a frame (22, or all of a shorter one) and the time of its SFD. A frame that
arrives with the engine OFF is lost and counted; of one that the filters drop only the errors are looked at (R223). The filters act as
they stood when the SFD arrived (R219). -/
def ethDecide (s : State) (c : Fin 56) (sfd : Nat) (h : List Byte) : State :=
  if !isStream c || (s.eth c).rx.isSome || !s.isSet (Fld.ETH_STATUS_LINK c) || modeOf s c != modeEth then s
  else if engineOf s c = engOff then statAdd s c statDropped 1
  else
    let f := captureAt s c sfd
    let hit := (List.range 8).find? (fun i => ethMatch f c i h)
    let act := match hit with
      | some i => f.get (Fld.ETH_FILTER2_ACTION c i)
      | none => if f.get (Fld.FILT_CTRL_DEFAULT c) = 0 then 1 else 2
    let s := if act = 2 then statAdd s c statFiltered 1 else s
    let sel := match hit with | some i => f.isSet (Fld.ETH_FILTER2_SNAP_SEL c i) | none => false
    let track := match hit with | some i => f.isSet (Fld.ETH_FILTER2_TRACK c i) | none => false
    let snap := if sel then s.get (Fld.SNAP_CFG_SNAP1 c) else s.get (Fld.SNAP_CFG_SNAP0 c)
    s.modEth c (fun e => { e with rx := some ⟨ethStamp s c sfd, act, hit.getD 0, hit.isSome, track && act != 2, snap, [], 0,
      decide (0 < tagCount h), etherType h == 0x88F7, [], false⟩ })

/-- Flags of a piece (R223) but MORE, TRUNC and the errors. -/
def ethFlags (r : EthRx) : Nat := b2n r.vlan * 16 + b2n r.ptp * 32 + r.filter * 256 + b2n r.matched * 2048

/-- The frame becomes records. -/
def ethKeeps (s : State) (c : Nat) (r : EthRx) : Bool := s.isSet (Fld.ETH_CFG_CAP_EN c) && (r.action == 1 || r.action == 3)

/-- Commit a piece. -/
def ethPiece (s : State) (c : Fin 56) (r : EthRx) (flags : Nat) (payload : List Byte) : State :=
  (chCommitNow s c ⟨r.ts, if r.cut = 0 then 0x10 else 0x11, c, 0, flags, payload⟩).2

/-- FCS bytes that a captured frame omits. -/
def ethStrip (s : State) (c : Nat) : Nat := if s.isSet (Fld.ETH_CFG_STRIP_FCS c) then 4 else 0

/-- ETH_PIECE_COMMIT (R223): `data` has arrived, with a code error or without. When what has arrived shows that the captured bytes go on
after a full piece, the piece is committed, unless an error by now drops the frame. At most 16,384 B are captured, so one more piece
ends the frame. -/
def ethPieceCommit (s : State) (c : Fin 56) (data : List Byte) (codeErr : Bool) : State :=
  match (s.eth c).rx with
  | none => s
  | some r =>
    let all := r.rest ++ data
    let err := r.err || codeErr
    if r.action = 2 ∨ all.length ≤ 8192 + ethStrip s c ∨ r.snap ≤ r.cut + 8192 ∨ (err ∧ !s.isSet (Fld.ETH_CFG_ERR_KEEP c)) then
      s.modEth c (fun e => { e with rx := some { r with rest := all, err := err } })
    else
      let s := if ethKeeps s c r then ethPiece s c r (ethFlags r + 1 + b2n err * 8) (all.take 8192) else s
      let r' := { r with cut := r.cut + 8192, bytes := (r.bytes ++ all).take 2048, rest := all.drop 8192, err := err }
      s.modEth c (fun e => { e with rx := some r' })

/-- The trailer of a truncated frame: ORIG_LEN and RX_FCS. -/
def ethTrailer (wire : Nat) (fcs : List Byte) : List Byte := leBytes 4 wire ++ (fcs ++ zeros 4).take 4

/-- The FIFO item of a frame (R224). -/
def ethItem (s : State) (c : Fin 56) (r : EthRx) (flags cap wire : Nat) (all fcs : List Byte) : State :=
  let cutIt := decide (2048 < cap) || bit flags 1
  let flags := if cutIt && !bit flags 1 then flags + 2 else flags
  rxPlace s c ⟨r.ts, 0x10, c, 0, flags, (all.take (min cap 2048)) ++ if cutIt then ethTrailer wire fcs else []⟩

/-- The end of a frame (R223, R224): `data` holds its bytes after the pieces committed, FCS included. -/
def ethEnds (s : State) (c : Fin 56) (r : EthRx) (data : List Byte) (fcsErr codeErr : Bool) : State :=
  let s := s.modEth c (fun e => { e with rx := none })
  let wire := r.cut + data.length
  let body := wire - ethStrip s c
  let cap := min body (min r.snap 16384)
  let trunc := decide (cap < body)
  let runt := decide (wire < 64)
  let tooLong := decide (16384 < wire)
  let bad := codeErr || runt || tooLong
  let err := bad || fcsErr
  let s := if err then statAdd s c statProto 1 else s
  let s := if fcsErr then detailAdd s c 0 32 else s
  let s := if runt then detailAdd s c 32 16 else s
  let s := if tooLong then detailAdd s c 48 16 else s
  let fcs := data.drop (data.length - 4)
  let flags := ethFlags r + b2n trunc * 2 + b2n fcsErr * 4 + b2n bad * 8
  if r.action = 2 then s
  else if err && !s.isSet (Fld.ETH_CFG_ERR_KEEP c) then
    (if r.cut = 0 || !ethKeeps s c r then s else (chCommitNow s c (gapRec r.ts c 0 1 9 r.ts)).2)
  else
    let piece := data.take (cap - r.cut) ++ if trunc then ethTrailer wire fcs else []
    let s := if ethKeeps s c r then
        statAdd (if piece.isEmpty then s else ethPiece s c r flags piece) c statItemsOk 1
      else s
    let s := if r.action = 3 ∨ r.action = 4 then ethItem s c r flags cap wire ((r.bytes ++ data).take 2048) fcs else s
    if r.track && !err then partnerSeen s c 0x10 (beNat (bsub (r.bytes ++ data) 8 4)) r.ts else s

/-- ETH_FRAME_END: the frame's last bytes have arrived, and complete a piece or not; commits that waited for it follow (R223). -/
def ethFrameEnd (s : State) (c : Fin 56) (data : List Byte) (fcsErr codeErr : Bool) : State :=
  let s := ethPieceCommit s c data codeErr
  match (s.eth c).rx with
  | none => s
  | some r => heldFlushCommits (ethEnds s c r r.rest fcsErr r.err) c

/-- The stream engine turns OFF: a frame still arriving is lost. -/
def ethTurnOff (s : State) (c : Fin 56) : State :=
  let s := if (s.eth c).rx.isSome then statAdd s c statDropped 1 else s
  heldFlushCommits ((s.put (Fld.BE_STATUS_ENGINE c) engOff).modEth c (fun e => { e with rx := none })) c

/-! ### Link, PHY, MDIO (R219, R220, R230) -/

/-- LINK_UP: not with the channel's lane retired (R423). -/
def ethLinkUp (s : State) (c : Fin 56) (speed : Nat) : State :=
  if !isStream c || s.isSet (Fld.ETH_STATUS_LINK c) || SMap.get 0 s.portOut (c - 43) != 0 then s
  else
    let s := (s.raise (Fld.ETH_STATUS_LINK c)).put (Fld.ETH_STATUS_SPEED_ACT c) speed
    partnerSeen (busEvent (s.raise (Fld.ETH_EVT_LINK_UP c)) c) c 0x10 0xFFFFFFFF s.now

/-- LINK_DOWN: a frame still arriving ends with ERR, `data` its bytes. -/
def ethLinkDown (s : State) (c : Fin 56) (data : List Byte) : State :=
  if !isStream c || !s.isSet (Fld.ETH_STATUS_LINK c) then s
  else
    let s := ethFrameEnd s c data false true
    let s := (s.clear (Fld.ETH_STATUS_LINK c)).put (Fld.ETH_STATUS_SPEED_ACT c) 0
    let s := busEvent (s.raise (Fld.ETH_EVT_LINK_DOWN c)) c
    match (List.range 64).find? (fun i => linkEntry s c i && s.get (Fld.PT_ENTRY_STATE c i) == partnerPresent) with
    | some i => partnerLeave s c i s.now
    | none => s

/-- PHY_INT: a falling PHY_INTn_N. -/
def ethPhyInt (s : State) (c : Fin 56) : State :=
  if isStream c then busEvent (s.raise (Fld.ETH_EVT_PHY_INT c)) c else s

/-- An accepted MDIO_CMD write (R220): GO sends the command. -/
def wrMdio (s : State) (c : Fin 56) (v : Nat) : State :=
  let s := (s.put (Fld.MDIO_CMD_DATA c) (bf v 0 16)).put (Fld.MDIO_CMD_PHYAD c) (bf v 16 5)
  let s := (s.put (Fld.MDIO_CMD_DEVAD c) (bf v 21 5)).put (Fld.MDIO_CMD_REG c) (bf v 26 16)
  let s := (s.put (Fld.MDIO_CMD_READ c) (bf v 42 1)).put (Fld.MDIO_CMD_C45 c) (bf v 43 1)
  if bit v 44 then
    let w : Word := BitVec.ofNat 64 (v % 2 ^ 45)
    (((s.raise (Fld.MDIO_CMD_GO c)).raise (Fld.MDIO_CMD_BUSY c)).modEth c (fun e => { e with mdio := some w })).emit (.mdio c w)
  else s

/-- MDIO_DONE (R220): `data` is what a read returned. -/
def ethMdioDone (s : State) (c : Fin 56) (data : Nat) : State :=
  if s.isSet (Fld.MDIO_CMD_BUSY c) && isStream c then
    let s := if s.isSet (Fld.MDIO_CMD_READ c) then s.put (Fld.MDIO_CMD_DATA c) data else s
    let s := ((s.clear (Fld.MDIO_CMD_GO c)).clear (Fld.MDIO_CMD_BUSY c)).modEth c (fun e => { e with mdio := none })
    busEvent (s.raise (Fld.ETH_EVT_MDIO_DONE c)) c
  else s

/-! ### gPTP (R228) -/

/-- Kinds of message in the transmit queue: Sync, Pdelay_Req, Follow_Up, Pdelay_Resp, Pdelay_Resp_Follow_Up, Announce. -/
def ptpSync : Nat := 0
def ptpPdelay : Nat := 1
def ptpFollow : Nat := 2
def ptpResp : Nat := 3
def ptpRespFollow : Nat := 4
def ptpAnnounce : Nat := 5

/-- Messages of the firmware wait to be sent. -/
def ptpQueue (s : State) (c : Fin 56) (l : List (Nat × Nat)) : State :=
  if isStream c then s.modEth c (fun e => { e with ptpQ := e.ptpQ ++ l }) else s

/-- The servo is LOCKED to PPS_IN or the towpath: TIME_NS is then announced with clockClass 6. -/
def ptpPrimary (s : State) : Bool :=
  s.get Fld.TB_STATUS_SERVO == 2 && (s.get Fld.TB_STATUS_ACTIVE_SRC == 1 || s.get Fld.TB_STATUS_ACTIVE_SRC == 3)

/-- What a message says: an announcement its clockClass and timeSource, which is INTERNAL_OSCILLATOR (0xA0) with class 248 and a free
value with class 6, for which the spec names none. -/
def ptpOut (s : State) (c : Fin 56) (kind ts : Nat) : PtpOut × State :=
  let m : PtpOut := ⟨kind, s.get (Fld.PTP_CFG_DOMAIN c), s.get (Fld.STATION_MAC c), ts, 0, 0⟩
  if kind ≠ ptpAnnounce then (m, s)
  else if ptpPrimary s then
    let (n, s) := s.drawFree
    ({ m with clock := 6, source := (Config.freeWord n).toNat % 256 }, s)
  else ({ m with clock := 248, source := 0xA0 }, s)

/-- What follows a message whose SFD has left at `tx`, TX_LAT_NS included: two-step Syncs and responses have a Follow_Up with that time,
and a Pdelay_Req is remembered by it. -/
def ptpAfter (e : Eth) (kind tx : Nat) : Eth :=
  if kind = ptpSync then { e with ptpQ := (ptpFollow, tx) :: e.ptpQ }
  else if kind = ptpResp then { e with ptpQ := (ptpRespFollow, tx) :: e.ptpQ }
  else if kind = ptpPdelay then { e with ptpT1 := some tx }
  else e

/-- BE_STATUS.PTP follows ROLE and the last measurement, if there is one (R228). -/
def ptpStatus (s : State) (c : Fin 56) : State :=
  let e := s.eth c
  let cap := e.delay.any (fun d => decide (d ≤ s.get (Fld.PTP_CFG_PDELAY_MAX_NS c))) && decide (e.ratio.natAbs ≤ 200000)
  s.put (Fld.ETH_STATUS_PTP c) (if s.get (Fld.PTP_CFG_ROLE c) = 0 then 0 else if cap then 2 else 1)

/-- The link delay (IEEE 802.1AS): half of what the round trip from `t1` to `t4`, in the neighbour's rate, takes beyond its stay from
`t2` to `t3`. -/
def ptpLink (t1 t4 t2 t3 ratio : Int) : Nat :=
  let trip := t4 - t1
  ((trip + trip * ratio / 1000000000 - (t3 - t2)) / 2).toNat

/-- A Pdelay_Resp and its Follow_Up: a measurement of the link delay. -/
def ptpDelay (s : State) (c : Fin 56) (sfd t2 t3 : Nat) (ratio : Int) : State :=
  match isStream c && s.get (Fld.PTP_CFG_ROLE c) != 0, (s.eth c).ptpT1 with
  | true, some t1 =>
    let d := ptpLink t1 (ethStamp s c sfd) t2 t3 ratio
    ptpStatus (s.modEth c (fun e => { e with delay := some d, ratio := ratio, ptpT1 := none })) c
  | _, _ => s

/-- A Pdelay_Req is answered with the time of its receipt. -/
def ptpAnswer (s : State) (c : Fin 56) (sfd : Nat) : State :=
  if s.get (Fld.PTP_CFG_ROLE c) ≠ 0 then ptpQueue s c [(ptpResp, ethStamp s c sfd)] else s

/-- PTP_SYNC_SEND: a grandmaster's Sync, and its announcement (DESIGN CHOICE, log entry 117: one with every Sync). -/
def ptpSyncSend (s : State) (c : Fin 56) : State :=
  if s.get (Fld.PTP_CFG_ROLE c) = 2 then ptpQueue s c [(ptpSync, 0), (ptpAnnounce, 0)] else s

/-- PTP_PDELAY_SEND. -/
def ptpPdelaySend (s : State) (c : Fin 56) : State :=
  if s.get (Fld.PTP_CFG_ROLE c) ≠ 0 then ptpQueue s c [(ptpPdelay, 0)] else s

/-! ### Transmission (R225, R229) -/

/-- The MAC may transmit. -/
def ethTxOk (s : State) (c : Nat) : Bool :=
  isStream c && s.isSet (Fld.ETH_CFG_TX_EN c) && engineOf s c == engOn && s.isSet (Fld.ETH_STATUS_LINK c)

/-- ETH_FRAME_SENT (R225): the highest-priority frame but telemetry has left, the end of its SFD at `sfd`: a gPTP message, then a TX
item with the FCS the MAC appends. -/
def ethFrameSent (s : State) (c : Fin 56) (sfd : Nat) : State :=
  if !ethTxOk s c then s
  else match (s.eth c).ptpQ with
    | (k, ts) :: rest =>
      let (m, s) := ptpOut s c k ts
      let tx := min sfd s.now + s.get (Fld.ETH_LAT_TX_LAT_NS c)
      (s.modEth c (fun e => ptpAfter { e with ptpQ := rest } k tx)).emit (.ptpTx c m)
    | [] =>
      match txSent s c with
      | (some b, s) =>
        let f := bsub b 16 (txLen b)
        txFeed 31 (s.emit (.ethTx c (f ++ fcsBytes f))) c
      | (none, s) => s

/-- Ones' complement sum of 16-bit words. -/
def inetSum (bs : List Byte) (acc : Nat) : Nat :=
  match bs with
  | [] => acc
  | [a] => acc + a.toNat * 256
  | a :: b :: t => inetSum t (acc + a.toNat * 256 + b.toNat)

/-- The Internet checksum of a sum. -/
def inetFold (v : Nat) : Nat :=
  let v := v % 65536 + v / 65536
  let v := v % 65536 + v / 65536
  65535 - v % 65536

/-- Bytes of the IP packet of a datagram of `n` payload bytes. -/
def telIpLen (s : State) (c n : Nat) : Nat := (if s.isSet (Fld.TEL_CFG_IPV6 c) then 40 else 20) + 8 + n

/-- The UDP header and payload with its checksum. -/
def telUdp (s : State) (c : Nat) (pseudo body : List Byte) (csum : Bool) : List Byte :=
  let ports := s.get (Fld.TEL_PORTS_SPORT c) * 65536 + s.get (Fld.TEL_PORTS_DPORT c)
  let h (x : Nat) : List Byte := beBytes 4 ports ++ beBytes 2 (8 + body.length) ++ beBytes 2 x
  let x := inetFold (inetSum (pseudo ++ h 0 ++ body) 0)
  h (if csum then (if x = 0 then 0xFFFF else x) else 0) ++ body

/-- The frame of a datagram (R229). -/
def telFrame (s : State) (c : Nat) (ipId : Nat) (body : List Byte) : List Byte :=
  let dscp := s.get (Fld.TEL_PORTS_DSCP c)
  let ttl := s.get (Fld.TEL_PORTS_TTL c)
  let tag := if s.isSet (Fld.TEL_DST_TAG c) then
      beBytes 2 0x8100 ++ beBytes 2 (s.get (Fld.TEL_DST_PCP c) * 8192 + s.get (Fld.TEL_DST_VID c)) else []
  let mac := beBytes 6 (s.get (Fld.TEL_DST_DMAC c)) ++ beBytes 6 (s.get (Fld.STATION_MAC c)) ++ tag
  if s.isSet (Fld.TEL_CFG_IPV6 c) then
    let ips := beBytes 8 (s.get (Fld.TEL_IP6_SRC_ADDR c 0)) ++ beBytes 8 (s.get (Fld.TEL_IP6_SRC_ADDR c 1))
      ++ beBytes 8 (s.get (Fld.TEL_IP6_DST_ADDR c 0)) ++ beBytes 8 (s.get (Fld.TEL_IP6_DST_ADDR c 1))
    let udp := telUdp s c (ips ++ beBytes 4 (8 + body.length) ++ beBytes 4 17) body true
    mac ++ beBytes 2 0x86DD ++ beBytes 4 (6 * 2 ^ 28 + dscp * 2 ^ 22) ++ beBytes 2 udp.length ++ beBytes 1 17 ++ beBytes 1 ttl
      ++ ips ++ udp
  else
    let ips := beBytes 4 (s.get (Fld.TEL_IP4_SRC c)) ++ beBytes 4 (s.get (Fld.TEL_IP4_DST c))
    let udp := telUdp s c (ips ++ beBytes 2 17 ++ beBytes 2 (8 + body.length)) body (s.isSet (Fld.TEL_CFG_CSUM4 c))
    let h (x : Nat) : List Byte := beBytes 1 0x45 ++ beBytes 1 (dscp * 4) ++ beBytes 2 (20 + udp.length) ++ beBytes 2 ipId
      ++ beBytes 2 0x4000 ++ beBytes 1 ttl ++ beBytes 1 17 ++ beBytes 2 x ++ ips
    mac ++ beBytes 2 0x0800 ++ h (inetFold (inetSum (h 0) 0)) ++ udp

/-- Bytes the rate bucket holds now: it fills at RATE_MBPS up to 2 × MTU (R229). -/
def telBucket (s : State) (c : Fin 56) : Nat :=
  let e := s.eth c
  min (2 * s.get (Fld.TEL_CFG_MTU c)) (e.bucket + (s.now - e.bucketNs) * s.get (Fld.TEL_CFG_RATE_MBPS c) / 8000)

/-- TEL_DATAGRAM_SEND (R225, R229): the oldest queued datagram is sent when nothing of a higher priority waits and the bucket
holds its IP packet. -/
def telSend (s : State) (c : Fin 56) : State :=
  let e := s.eth c
  match e.telQ with
  | [] => s
  | d :: rest =>
    let n := telIpLen s c d.bytes.length
    let limited := s.get (Fld.TEL_CFG_RATE_MBPS c) != 0
    let bucket := telBucket s c
    if !ethTxOk s c || !s.isSet (Fld.TEL_CFG_EN c) || !e.ptpQ.isEmpty || txItems (s.ch c).fifos != 0
        || (limited && decide (bucket < n)) then s
    else
      let now := s.now
      let f := telFrame s c e.ipId d.bytes
      let s := (s.bumpWrap (Fld.TEL_STATS_DGRAMS c) 1).emit (.ethTx c (f ++ fcsBytes f))
      s.modEth c (fun e => { e with telQ := rest, ipId := (e.ipId + 1) % 65536, bucket := bucket - n, bucketNs := now })

/-- Bytes waiting in the telemetry queue. -/
def telQueued (s : State) (c : Fin 56) : Nat := ((s.eth c).telQ.map (fun d => d.bytes.length)).sum

/-- A datagram enters the queue of a channel unless the queue is full or the link is down. -/
def telPush (s : State) (c : Fin 56) (d : Datagram) : Option State :=
  if s.isSet (Fld.ETH_STATUS_LINK c) && decide (telQueued s c + d.bytes.length ≤ 262144) then
    some (s.modEth c (fun e => { e with telQ := e.telQ ++ [d] }))
  else none

end Sys2Proof.Machine
end

