-- ==== Sys2Proof/Machine/RegAccess.lean ====
section
/-!
DEFINITION. Reading and writing registers by address from the register tables (18, R398, R400, R403): the page at an address,
the registers of a page, the plain write of a register's fields, and access errors (R400, R401).
-/
namespace Sys2Proof.Machine

/-! ### Pages (R403) -/

/-- Channel of an address in the channel windows. -/
def winChan (a : Nat) : Nat := (a - 0x1000000) / 0x40000

/-- Type of the page that begins at `p`; 0 where the directory assigns none. -/
def pageType (p : Nat) : Nat :=
  if 0x1000000 ≤ p ∧ p < 0x1E00000 then
    (if p % 0x40000 < 0x8000 then 0x100 + p % 0x40000 / 0x1000 else 0)
  else if p = 0 then 0x0001
  else if p = 0x1000 then 0x0002
  else if 0x2000 ≤ p ∧ p ≤ 0x5000 then 0x0010 + (p - 0x2000) / 0x1000
  else if p = 0x6000 then 0x0020
  else if p = 0x7000 then 0x0021
  else if p = 0x10000 then 0x0030
  else if 0x11000 ≤ p ∧ p < 0x19000 then 0x0031
  else if 0x19000 ≤ p ∧ p < 0x1D000 then 0x0032
  else if p = 0x20000 then 0x0040
  else if 0x21000 ≤ p ∧ p < 0x25000 then 0x0041
  else if 0x28000 ≤ p ∧ p < 0x2C000 then 0x0042
  else if 0x30000 ≤ p ∧ p < 0x33000 then 0x0050 + (p - 0x30000) / 0x1000
  else if p = 0x40000 ∨ p = 0x41000 then 0x0060 + (p - 0x40000) / 0x1000
  else if p = 0x50000 then 0x0070
  else if p = 0x2000000 then 0x0080
  else if 0x2001000 ≤ p ∧ p < 0x2006000 then 0x0081
  else if 0x2006000 ≤ p ∧ p < 0x2009000 then 0x0082 + (p - 0x2006000) / 0x1000
  else if p = 0x2100000 then 0x0090
  else if p = 0x2140000 ∨ p = 0x2141000 then 0x0091 + (p - 0x2140000) / 0x1000
  else 0

/-- The page an address lies in. -/
def pageOf (a : Nat) : Nat := a / 0x1000 * 0x1000

/-- INSTANCE and PAGE_INDEX of a page (R400). -/
def pageInstance (p : Nat) : Nat :=
  if 0x1000000 ≤ p ∧ p < 0x1E00000 then winChan p
  else if 0x21000 ≤ p ∧ p < 0x25000 then (p - 0x21000) / 0x1000 else 0

def pageIndex (p : Nat) : Nat :=
  if 0x1000000 ≤ p ∧ p < 0x1E00000 then p % 0x40000 / 0x1000
  else if 0x11000 ≤ p ∧ p < 0x19000 then (p - 0x11000) / 0x1000
  else if 0x19000 ≤ p ∧ p < 0x1D000 then (p - 0x19000) / 0x1000
  else if 0x28000 ≤ p ∧ p < 0x2C000 then (p - 0x28000) / 0x1000
  else if 0x2001000 ≤ p ∧ p < 0x2006000 then (p - 0x2001000) / 0x1000
  else 0

/-! ### Registers of a page -/

/-- A register row holds the register at offset `off` of a page of class `cls` (1 field channel, 2 stream channel). -/
def RegDef.holds (r : RegDef) (cls off : Nat) : Bool :=
  (r.cls == 0 || r.cls == cls) && decide (r.off ≤ off) && (off - r.off) % r.stride == 0
    && decide ((off - r.off) / r.stride < r.count)

/-- Class of a page's registers. -/
def pageCls (p : Nat) : Nat := if 0x1000000 ≤ p ∧ p < 0x1E00000 then (if winChan p < 48 then 1 else 2) else 0

/-- The configuration register of a reserved interrupt source: a reserved location (R316). -/
def srcGap (a : Nat) : Bool := pageType (pageOf a) == 0x0081 && decide (0x100 ≤ a % 0x1000) && srcReserved (srcOfAddr a)

/-- The register at an address, 8 B aligned. -/
def regAt (a : Nat) : Option RegDef :=
  let p := pageOf a
  let rows := if a % 0x1000 < 0x100 then pageRows0000 else pageRows (pageType p)
  if pageType p = 0 || srcGap a then none else rows.find? (fun r => r.holds (pageCls p) (a % 0x1000))

/-- Reset values that depend on the channel, the source, the timing register or the monitor. -/
def rstOf (a lo d : Nat) : Nat :=
  let c := winChan a
  let o := a % 0x40000
  if 0x1000000 ≤ a ∧ a < 0x1E00000 then
    if o = 0x100 ∧ lo = 0 then (Fld.LOCK_CFG_RATE_LOG2 c).rst
    else if o = 0x110 ∧ lo = 0 then (Fld.POUND_QUOTA_QUOTA c).rst
    else if 0x2110 ≤ o ∧ o < 0x2128 ∧ c < 48 then
      let i := (o - 0x2110) / 8
      match lo with
      | 0 => (Fld.CAN_BT_BRP c i).rst
      | 8 => (Fld.CAN_BT_TSEG1 c i).rst
      | 16 => (Fld.CAN_BT_TSEG2 c i).rst
      | 24 => (Fld.CAN_BT_SJW c i).rst
      | 31 => (Fld.CAN_BT_TDC_EN c i).rst
      | 32 => (Fld.CAN_BT_TDCO c i).rst
      | _ => d
    else d
  else if 0x2001000 ≤ a ∧ a < 0x2006000 ∧ lo = 4 ∧ a % 0x1000 ≥ 0x100 then (Fld.SRC_SENSE (srcOfAddr a)).rst
  else if 0x32110 ≤ a ∧ a < 0x321B0 ∧ a % 0x10 = 0 then
    let i := (a - 0x32110) / 0x10
    match lo with
    | 0 => (Fld.MON0_WARN_MV i).rst
    | 16 => (Fld.MON0_RESET_MV i).rst
    | 32 => (Fld.MON0_HYST_MV i).rst
    | _ => d
  else d

/-- The field a table row gives at an address. -/
def fldAt (a : Nat) (d : FldDef) : Fld := ⟨a, d.lo, d.w, rstOf a d.lo d.rst⟩

/-- The 64-bit value of the register at an address, from its stored fields; write-only fields read zero. -/
def regVal (s : State) (a : Nat) : Nat :=
  match regAt a with
  | none => 0
  | some r => (r.flds.map (fun d => if d.acc = .wo then 0 else s.get (fldAt a d) * 2 ^ d.lo)).sum

/-- `v` holds a nonzero value in a reserved field of the register at an address (R398). -/
def rsvHit (a v : Nat) : Bool :=
  match regAt a with
  | none => v != 0
  | some r => v != (r.flds.map (fun d => bf v d.lo d.w * 2 ^ d.lo)).sum

/-- The defined fields of `v`. -/
def rsvStrip (a v : Nat) : Nat :=
  match regAt a with
  | none => 0
  | some r => (r.flds.map (fun d => bf v d.lo d.w * 2 ^ d.lo)).sum

/-- A write of `v` to one field by its access code (R6). -/
def fldWrite (s : State) (a v : Nat) (d : FldDef) : State :=
  let f := fldAt a d
  match d.acc with
  | .rw | .rwnv => s.put f (bf v d.lo d.w)
  | .w1c => s.put f (s.get f - (s.get f &&& bf v d.lo d.w))
  | .w1s => s.put f (s.get f ||| bf v d.lo d.w)
  | .ro | .wo | .rc => s

/-- A plain write of `v` to the register at an address: each field acts by its access code. -/
def regApply (s : State) (a v : Nat) : State :=
  match regAt a with
  | none => s
  | some r => r.flds.foldl (fun s d => fldWrite s a v d) s

/-- A register without an RW/W1C rule of its own keeps nothing of a write. -/
def regHas (a : Nat) : Bool := (regAt a).isSome

/-! ### Access errors (R400, R401) -/

/-- ERR_STATUS bits of a page. -/
def errBits (s : State) (p : Nat) : Nat :=
  s.get (Fld.ERR_STATUS_RSV_WRITE p) + 2 * s.get (Fld.ERR_STATUS_STATE_WRITE p) + 4 * s.get (Fld.ERR_STATUS_SIZE p)
    + 8 * s.get (Fld.ERR_STATUS_SPLIT_LOST p) + 16 * s.get (Fld.ERR_STATUS_SHADOW_FULL p)

/-- Set ERR_STATUS bit `b` of the page an address lies in; ERR_FIRST latches while VALID is 0. -/
def pageErr (s : State) (a b : Nat) : State :=
  let p := pageOf a
  let f : Fld := ⟨p + 0x18, b, 1, 0⟩
  let s := if s.isSet (Fld.ERR_FIRST_VALID p) then s
    else (((s.put (Fld.ERR_FIRST_OFFSET p) (a % 0x1000 / 8 * 8)).put (Fld.ERR_FIRST_BIT p) b).raise
      (Fld.ERR_FIRST_VALID p)).put (Fld.ERR_FIRST_TICK p) s.tick
  s.raise f

def errRsv : Nat := 0
def errState : Nat := 1
def errSize : Nat := 2
def errSplit : Nat := 3
def errShadow : Nat := 4

/-- What became of a register write: it acted; its block refused it and said so in an event of its own; or a state, range
or lock rule refused it, which sets STATE_WRITE. -/
inductive Wr where
  | ok (s : State)
  | own (s : State)
  | refused
deriving DecidableEq, Repr

end Sys2Proof.Machine
end

