-- ==== Sys2Proof/Machine/BusRegs.lean ====
section
/-!
DEFINITION. Writes of the bus engine registers, by the host (07, R172, R179, R184–R186, R426; 09, R218–R220) and by the keeper
(R171), and the barge registers a keeper reaches (08, R209).
-/
namespace Sys2Proof.Machine

/-- A configuration write is refused with an event (R179, R219, R426). -/
def cfgRefused (s : State) (c : Fin 56) : State := busEvent (s.raise (Fld.BE_EVT_CFG_REFUSED c)) c

/-- A LIN engine that is ON takes the ROLE its configuration now holds, unless it was turned ON to listen (R181, R190). -/
def linRole (s : State) (c : Fin 56) : State :=
  if modeOf s c == modeLin && engineUp s c then
    s.put (Fld.BE_STATUS_ENGINE c) (if (s.ch c).bus.listen || s.get (Fld.LIN_CFG_ROLE c) == 0 then engListen else engOn)
  else s

/-- A write of `v`, its reserved fields removed, to the BUSENG register at offset `off`. -/
def wrBus (s : State) (c : Fin 56) (off v : Nat) : Wr :=
  let a := chPage c 2 + off
  if c.val < 48 then
    if off = 0x100 then
      if chState s c = chDisabled ∧ modeOk (bf v 0 4) then .ok (drivePins (regApply s a v) c) else .refused
    else if off = 0x180 ∨ off = 0x188 then .ok (regApply s a v)
    else if !busCfgOk s c off v then .own (cfgRefused s c)
    else if (off = 0x148 ∨ off = 0x150) ∧ inTransfer s c then
      .ok (s.modBus c (fun b => { b with later := b.later ++ [(a, BitVec.ofNat 64 v)] }))
    else
      let s := regApply s a v
      .ok (if 0x158 ≤ off ∧ off < 0x178 then drivePin s c ((off - 0x158) / 8)
        else if off = 0x148 ∨ off = 0x140 then drivePins s c
        else if off = 0x128 then linRole s c else s)
  else
    if off = 0x100 then
      if chState s c = chDisabled ∧ (bf v 0 4 = modeNone ∨ bf v 0 4 = modeEth) ∧ !bit v 5 then .ok (regApply s a v) else .refused
    else if off = 0x180 ∨ off = 0x188 ∨ off = 0x198 then .ok (regApply s a v)
    else if !ethCfgOk s c off v then .own (cfgRefused s c)
    else if off = 0x120 then .ok (wrMdio s c v)
    else if off = 0x130 then .ok (ptpStatus (regApply s a v) c)
    else .ok (regApply (if isCapture off then captureNote s c else s) a v)

/-- Configuration writes that waited for the end of a transfer (R184), with the pins they move. -/
def busLater (s : State) (c : Fin 56) : State :=
  let l := (s.ch c).bus.later
  let s := l.foldl (fun s w => regApply s w.1 w.2.toNat) (s.modBus c (fun b => { b with later := [] }))
  if l.isEmpty then s else drivePins s c

/-- A keeper's write of a bus engine register, checked and applied as one 64-bit write under the rules of a host write
(R171); a refusal of BE_MODE sets STATE_WRITE. No byte with a reserved bit set has come this far (R165). -/
def keeperBusWrite (s : State) (c : Fin 56) (off v : Nat) : State :=
  match wrBus s c off v with
  | .ok s => s
  | .own s => s
  | .refused => pageErr s (chPage c 2 + off) errState

/-- A write of `v` to the barge register at offset `off` (R209–R211). -/
def wrBarge (s : State) (c : Fin 56) (off v : Nat) : State :=
  if off < 0x130 then wrShadow s c off v
  else if off = 0x130 then wrBmCtrl s c v
  else if off = 0x138 then wrBmCmd s c v
  else regApply s (chPage c 3 + off) v

end Sys2Proof.Machine
end

