-- ==== Sys2Proof/Machine/TileIo.lean ====
section
/-!
DEFINITION. Tile I/O space (06, R162, R165–R168; 05, R427; 07, R171, R188; 10, R235, R236) and the keeper's reads and writes of its
data space (05, R117, R118).
-/
namespace Sys2Proof.Machine

/-- The register of tile I/O that holds a byte: its first address and its size. -/
def ioReg (c : Nat) (a : Nat) : Option (Nat × Nat) :=
  let of (l : List (Nat × Nat)) : Option (Nat × Nat) := l.find? (fun r => decide (r.1 ≤ a) && decide (a < r.1 + r.2))
  if a < 0xB100 then
    of [(0xB000, 1), (0xB001, 1), (0xB002, 1), (0xB004, 2), (0xB006, 2), (0xB008, 2), (0xB00A, 2), (0xB00C, 4), (0xB010, 2),
      (0xB012, 2), (0xB014, 1), (0xB018, 4), (0xB01C, 4)]
  else if a < 0xB200 then
    of [(0xB100, 1), (0xB102, 2), (0xB104, 2), (0xB106, 2), (0xB108, 8), (0xB110, 8), (0xB118, 2), (0xB11A, 1)]
  else if a < 0xB400 then
    of [(0xB200, 4), (0xB204, 2), (0xB206, 1), (0xB207, 1), (0xB208, 8), (0xB300, 4), (0xB304, 4), (0xB308, 8)]
  else if a < 0xB500 then
    (if regHas (chPage c 3 + 0x100 + (a - 0xB400) / 8 * 8) then some (a / 8 * 8, 8) else none)
  else if a < 0xB800 then of [(0xB500, 2), (0xB502, 2), (0xB504, 1), (0xB600, 8), (0xB608, 8), (0xB700, 8)]
  else if a < 0xB900 then
    of [(0xB800, 2), (0xB802, 2), (0xB808, 8), (0xB810, 1), (0xB840, 8), (0xB848, 1), (0xB84A, 2), (0xB84C, 2), (0xB880, 8),
      (0xB888, 1), (0xB8C0, 8), (0xB8C8, 1)]
  else if 0xBA00 ≤ a ∧ a < 0xBC00 then
    (if regHas (chPage c 2 + 0x100 + (a - 0xBA00) / 8 * 8) then some (a / 8 * 8, 8) else none)
  else none

/-- The eight event bits of a thread (R162). -/
def eventBits (s : State) (c : Fin 56) (t : Fin 8) : Byte :=
  let th := s.th c t
  let f := (s.ch c).fifos
  let mail := match th.mail with | some m => m.full | none => false
  (th.evt &&& 0xF1) ||| BitVec.ofNat 8
    (2 * b2n mail + 4 * b2n (!f.rx.isEmpty) + 8 * b2n (decide (txItems f ≤ s.get (Fld.FIFO_CFG_TX_WM c))))

/-- XCS as it reads (06). -/
def xcsWord (th : Thread) : Nat :=
  th.xcause % 16 + 16 * b2n th.inh + 32 * b2n th.repact + 64 * b2n th.yld + 128 * b2n th.divab + 256 * b2n th.xov

/-- Free slots of the mailbox to the host. -/
def mboSlots (f : Fifos) : Nat := 15 - (f.mbo.filter (fun e => match e with | .data _ => true | _ => false)).length

/-- The value of the tile I/O register that begins at `r`, without the effects of reading it. Write-only registers read
zero. -/
def ioValue (s : State) (c : Fin 56) (t : Fin 8) (r : Nat) : Nat :=
  let th := s.th c t
  let k := s.kp c
  let f := (s.ch c).fifos
  let m (g : Mail → Nat) : Nat := match th.mail with | some m => g m | none => 0
  if 0xBA00 ≤ r then regVal s (chPage c 2 + 0x100 + (r - 0xBA00))
  else if 0xB400 ≤ r ∧ r < 0xB500 then regVal s (chPage c 3 + 0x100 + (r - 0xB400))
  else match r with
  | 0xB000 => t
  | 0xB001 => c
  | 0xB002 => (eventBits s c t).toNat
  | 0xB004 => th.xpc.toNat
  | 0xB006 => th.xrc.toNat
  | 0xB008 => xcsWord th
  | 0xB00A => th.xaddr.toNat
  | 0xB00C => th.xins.toNat
  | 0xB010 => th.vec.toNat
  | 0xB012 => th.intSrc.toNat
  | 0xB018 => th.used
  | 0xB01C => s.get (Fld.THREAD_BUDGET_BUDGET c t)
  | 0xB100 => m (fun m => b2n m.full)
  | 0xB102 => m Mail.order
  | 0xB104 => m Mail.entry
  | 0xB106 => m Mail.count
  | 0xB108 => m (fun m => m.addr.toNat)
  | 0xB110 => m (fun m => m.word2.toNat)
  | 0xB118 => th.mbRes.toNat
  | 0xB200 => k.pubVal.toNat
  | 0xB204 => k.pubSlot.toNat
  | 0xB206 => k.pubQual.toNat
  | 0xB208 => k.pubTime.toNat
  | 0xB304 => chRoom s c
  | 0xB308 => leNat (k.result.toList.map (BitVec.ofNat 8))
  | 0xB500 => k.csAddr.toNat
  | 0xB502 => (SMap.get 0 k.code k.csAddr.toNat).toNat
  | 0xB504 => k.csq
  | 0xB600 => k.latTime
  | 0xB608 => k.latTick
  | 0xB700 => s.get (Fld.ROUTE_FLAGS_FLAGS c)
  | 0xB800 => f.rx.length
  | 0xB802 => match f.rx with | [] => 0 | x :: _ => recSize x
  | 0xB808 => match f.rx with | [] => f.rxLast.toNat | x :: _ => leNat (((recBytes x).drop f.rxPos).take 8)
  | 0xB84A => txSlots f
  | 0xB84C => txFree f
  | 0xB880 => match f.mbi with | [] => f.mbiLast.toNat | e :: _ => (mbValue e).toNat
  | 0xB888 => mbKind f.mbi
  | 0xB8C8 => mboSlots f
  | _ => 0

/-- Read one byte of tile I/O, with the effects of R166. -/
def ioReadByte (s : State) (c : Fin 56) (t : Fin 8) (a : Nat) : Byte × State :=
  match ioReg c a with
  | none => (0, s)
  | some (r, _) =>
    let s := if a = 0xB600 then s.modKp c (fun k => { k with latTime := s.now, latTick := s.tick }) else s
    let v : Byte := BitVec.ofNat 8 (ioValue s c t r / 256 ^ (a - r))
    (v, if a = 0xB80F then (rxDataRead s c).2 else if a = 0xB887 then (mbiRead s c).2 else s)

/-- Read bytes of tile I/O in ascending order. -/
def ioRead (s : State) (c : Fin 56) (t : Fin 8) (a n : Nat) : List Byte × State :=
  match n with
  | 0 => ([], s)
  | k + 1 =>
    let (b, s) := ioReadByte s c t a
    let (bs, s) := ioRead s c t (a + 1) k
    (b :: bs, s)

/-! ### Effects of writes -/

/-- A reply status that CALL-KEEPER may carry (R101, R104). -/
def replyOk (v : Nat) : Bool :=
  v == St.ok || v == St.okResidual || v == St.busError || v == St.overrun || v == St.noPartner || v == St.timeout
    || decide (0x80 ≤ v)

/-- MB_REPLY (R104, R167). -/
def mbReply (s : State) (c : Fin 56) (t : Fin 8) (v : Nat) : State :=
  let th := s.th c t
  let stray (s : State) : State := (s.raise (Fld.ROUTE_EVT_STRAY_REPLY c)).bumpSat (Fld.SEQ_STATS_STRAY_REPLY c) 1
  let s := match th.mail with
    | some m =>
      if m.full && m.live then
        let s := if replyOk v then s else s.raise (Fld.ROUTE_EVT_BAD_REPLY c)
        s.orderResult c m.order (if replyOk v then v else St.busError) th.mbRes.toNat
      else stray s
    | none => stray s
  s.modTh c t (fun th => { th with mail := th.mail.map (fun m => { m with full := false, live := false }), mbRes := 0 })

/-- PUB_GO (R168). -/
def pubGo (s : State) (c : Fin 56) : State :=
  let k := s.kp c
  match sigPublish s c k.pubSlot.toNat k.pubVal k.pubQual.toNat k.pubTime.toNat with
  | some s => s
  | none => s.raise (Fld.KEVT_PUB_REFUSED c)

/-- A CS_DATA store (R427). -/
def csWrite (s : State) (c : Fin 56) (h : Half) : State :=
  let k := s.kp c
  if !s.isSet (Fld.KSTATUS_CS_WRITE c) then s.raise (Fld.KEVT_CS_REFUSED c)
  else if 8 ≤ k.csq then s.raise (Fld.KEVT_CS_LOST c)
  else s.modKp c (fun k => { k with code := SMap.set 0 k.code k.csAddr.toNat h, csq := k.csq + 1, csAddr := k.csAddr + 1 })

/-- CS_PROGRAM_DONE: one queued halfword is in MRAM (R427). -/
def csProgrammed (s : State) (c : Fin 56) : State := s.modKp c (fun k => { k with csq := k.csq - 1 })

/-- A value with the bytes from `pos` on replaced. -/
def mergeBytes (old pos : Nat) (bs : List Byte) : Nat :=
  old % 256 ^ pos + leNat bs * 256 ^ pos + old / 256 ^ (pos + bs.length) * 256 ^ (pos + bs.length)

/-- Reserved bits of a tile I/O register whose write leaves it unchanged (R165): bits [5:0] of VEC_BASE, which "are zero", count as
reserved (DESIGN CHOICE, log entry 139). -/
def ioReserved (c r v : Nat) : Bool :=
  if r = 0xB008 then bf v 9 7 != 0
  else if r = 0xB010 then bf v 0 6 != 0
  else if 0xB400 ≤ r ∧ r < 0xB500 then rsvHit (chPage c 3 + 0x100 + (r - 0xB400)) v
  else if 0xBA00 ≤ r then rsvHit (chPage c 2 + 0x100 + (r - 0xBA00)) v
  else false

/-- Keep the bytes written to a register that acts when its last byte is written. -/
def ioStage (s : State) (c : Fin 56) (a : Nat) (bs : List Byte) : State :=
  s.modKp c (fun k => { k with ioBuf := memWrite k.ioBuf a bs })

/-- The staged value of the `n` bytes of a register at `r`. -/
def ioStaged (s : State) (c : Fin 56) (r n : Nat) : Nat :=
  leNat ((List.range n).map (fun i => SMap.get 0 (s.kp c).ioBuf (r + i)))

/-- Keep a keeper's bytes of a bus engine register (R171). -/
def kStage (s : State) (c : Fin 56) (a : Nat) (bs : List Byte) : State :=
  s.modBus c (fun b => { b with kStage :=
    (List.range bs.length).foldl (fun m i => SMap.insert m (a + i) (bs.getD i 0)) b.kStage })

/-- The bytes kept for the register at `r`, bytes never written taken from its present value `old`; they are kept no
longer (R171). -/
def kUnstage (s : State) (c : Fin 56) (r old : Nat) : Nat × State :=
  let st := (s.ch c).bus.kStage
  let v := leNat ((List.range 8).map (fun i =>
    match SMap.find? st (r + i) with
    | some b => b
    | none => BitVec.ofNat 8 (old / 256 ^ i)))
  (v, s.modBus c (fun b => { b with kStage := b.kStage.filter (fun x => decide (x.1 < r ∨ r + 8 ≤ x.1)) }))

/-- Write bytes `bs` of the register at `r` of `n` bytes, from address `a` on. -/
def ioWriteReg (s : State) (c : Fin 56) (t : Fin 8) (r n a : Nat) (bs : List Byte) : State :=
  let pos := a - r
  let piece := leNat bs * 256 ^ pos
  let last := decide (a + bs.length = r + n)
  let v := mergeBytes (ioValue s c t r) pos bs
  let acts (f : State → Nat → State) : State :=
    let s := ioStage s c a bs
    if last then f s (ioStaged s c r n) else s
  if ioReserved c r piece then s.raise (Fld.KEVT_IO_UNMAPPED c)
  else if 0xBA00 ≤ r then
    let off := 0x100 + (r - 0xBA00)
    let s := kStage s c a bs
    if last then
      let (v, s) := kUnstage s c r (regVal s (chPage c 2 + off))
      keeperBusWrite s c off v
    else s
  else if r = 0xB438 then acts (fun s v => wrBarge s c 0x138 v)
  else if 0xB400 ≤ r ∧ r ≤ 0xB430 then
    let off := 0x100 + (r - 0xB400)
    let s := kStage s c a bs
    if last then
      let (v, s) := kUnstage s c r (regVal s (chPage c 3 + off))
      wrBarge s c off v
    else s
  else if r = 0xB448 then wrBarge s c 0x148 piece
  else if 0xB400 ≤ r ∧ r < 0xB500 then wrBarge s c (0x100 + (r - 0xB400)) v
  else match r with
  | 0xB002 => s.modTh c t (fun th => { th with evt := th.evt &&& ~~~(BitVec.ofNat 8 piece &&& 0xF1) })
  | 0xB004 => s.modTh c t (fun th => { th with xpc := BitVec.ofNat 16 v })
  | 0xB006 => s.modTh c t (fun th => { th with xrc := BitVec.ofNat 16 v })
  | 0xB008 => s.modTh c t (fun th => { th with xcause := bf v 0 4, repact := bit v 5, yld := bit v 6 })
  | 0xB010 => s.modTh c t (fun th => { th with vec := BitVec.ofNat 16 v })
  | 0xB014 => icEoi s (tgtThread c t)
  | 0xB118 => s.modTh c t (fun th => { th with mbRes := BitVec.ofNat 16 v })
  | 0xB11A => mbReply s c t piece
  | 0xB200 => s.modKp c (fun k => { k with pubVal := BitVec.ofNat 32 v })
  | 0xB204 => s.modKp c (fun k => { k with pubSlot := BitVec.ofNat 16 v })
  | 0xB206 => s.modKp c (fun k => { k with pubQual := BitVec.ofNat 8 v })
  | 0xB207 => pubGo s c
  | 0xB208 => s.modKp c (fun k => { k with pubTime := BitVec.ofNat 64 v })
  | 0xB300 => acts (fun s v => chCommitWrite s c t v)
  | 0xB500 => s.modKp c (fun k => { k with csAddr := BitVec.ofNat 16 v })
  | 0xB502 => acts (fun s v => csWrite s c (BitVec.ofNat 16 v))
  | 0xB700 => s.put (Fld.ROUTE_FLAGS_FLAGS c) v
  | 0xB810 => rxPop s c
  | 0xB840 => acts (fun s v => txDataWrite s c (BitVec.ofNat 64 v))
  | 0xB848 => txPush s c
  | 0xB8C0 => acts (fun s v => mboPush s c (BitVec.ofNat 64 v))
  | _ => s

/-- Write bytes of tile I/O, register by register in ascending order (R165, R166). -/
def ioWrite (fuel : Nat) (s : State) (c : Fin 56) (t : Fin 8) (a : Nat) (bs : List Byte) : State :=
  match fuel with
  | 0 => s
  | k + 1 =>
    if bs.isEmpty then s
    else match ioReg c a with
      | none => ioWrite k (s.raise (Fld.KEVT_IO_UNMAPPED c)) c t (a + 1) (bs.drop 1)
      | some (r, n) =>
        let m := min (r + n - a) bs.length
        ioWrite k (ioWriteReg s c t r n a (bs.take m)) c t (a + m) (bs.drop m)

/-! ### A thread's data space -/

/-- An address of tile I/O. -/
def isIo (a : Nat) : Bool := decide (0xB000 ≤ a ∧ a < 0xC000)

/-- A keeper read. -/
def dataRead (s : State) (c : Fin 56) (t : Fin 8) (a n : Nat) : List Byte × State :=
  if isIo a then ioRead s c t a n else (tileRead s c (tileOff t a) n, s)

/-- A keeper write. -/
def dataWrite (s : State) (c : Fin 56) (t : Fin 8) (a : Nat) (bs : List Byte) : State :=
  if isIo a then ioWrite 8 s c t a bs else tileWrite s c (tileOff t a) bs (some t)

/-- An access of a keeper meets a poisoned word (R336); a store reads the word it writes a part of. -/
def dataPoisoned (s : State) (c : Fin 56) (t : Fin 8) (a n : Nat) : Bool := !isIo a && tilePoisoned s c (tileOff t a) n

/-- A read of a keeper meets one; through CS_DATA it reads the code store. -/
def readPoisoned (s : State) (c : Fin 56) (t : Fin 8) (a n : Nat) : Bool :=
  dataPoisoned s c t a n || (decide (a < 0xB504 ∧ 0xB502 < a + n) && (s.kp c).codeBad.contains ((s.kp c).csAddr.toNat / 4))

/-- The ECC trap's marks (R157): KEVT.ECC_UNCORR, the count and the pin. -/
def dataEcc (s : State) (c : Fin 56) (t : Fin 8) (a : Nat) : State :=
  tileEcc (s.raise (Fld.KEVT_ECC_UNCORR c)) c (if isIo a then 0x80000 else tileOff t a)

end Sys2Proof.Machine
end

