-- ==== Sys2Proof/Machine/Keeper.lean ====
section
/-!
DEFINITION. How a keeper thread executes (06, R152–R164; 05, R117–R142): fetching from the lines it holds, the effect of
every instruction, traps and their return, REP, and the charge against the thread's budget.
-/
namespace Sys2Proof.Machine

/-! ### Lines and fetching (R152–R154) -/

/-- Read a line of the code store, every accepted write included (R154). -/
def readLine (k : Keeper) (num : Nat) : Line :=
  let n := num % 4096
  ⟨n, (List.range 16).map (fun i => SMap.get 0 k.code (n * 16 + i)),
    (List.range 4).filter (fun i => k.codeBad.contains (n * 4 + i))⟩

/-- The halfword a thread holds at a halfword address. -/
def heldHalf (th : Thread) (pc : Half) : Option Half :=
  let num := pc.toNat / 16
  let pick (l : Option Line) : Option Half :=
    match l with
    | some l => if l.num = num then l.words[pc.toNat % 16]? else none
    | none => none
  match pick th.cur with
  | some h => some h
  | none => pick th.nxt

/-- The halfword a thread holds at an address lies in an uncorrectable word (R157). -/
def heldBad (th : Thread) (pc : Half) : Bool :=
  let num := pc.toNat / 16
  let at_ (l : Line) : Bool := l.bad.contains (pc.toNat % 16 / 4)
  match th.cur, th.nxt with
  | some l, some m => if l.num = num then at_ l else m.num = num && at_ m
  | some l, none => l.num = num && at_ l
  | none, some m => m.num = num && at_ m
  | none, none => false

/-- Fill both line buffers from the code store at an address: a general branch, RETI, trap entry, IFLUSH (R152). -/
def loadLines (k : Keeper) (th : Thread) (pc : Half) : Thread :=
  { th with cur := some (readLine k (pc.toNat / 16)), nxt := some (readLine k (pc.toNat / 16 + 1)) }

/-- Move PC sequentially; past the end of the current line the next line becomes current (R152). -/
def advancePc (k : Keeper) (th : Thread) (pc : Half) : Thread :=
  let num := pc.toNat / 16
  let th := { th with pc := pc }
  if th.cur.map Line.num = some num then th
  else if th.nxt.map Line.num = some num then { th with cur := th.nxt, nxt := some (readLine k (num + 1)) }
  else loadLines k th pc

/-- Branch to a target whose line is read from the code store. -/
def jumpTo (k : Keeper) (th : Thread) (pc : Half) : Thread := loadLines k { th with pc := pc } pc

/-- Branch through a held line (R152). -/
def jumpHeld (k : Keeper) (th : Thread) (pc : Half) (l : Line) : Thread :=
  { th with pc := pc, cur := some l, nxt := some (readLine k (pc.toNat / 16 + 1)) }

/-! ### The budget (R43, R44) -/

/-- The thread's counter has reached its budget before YIELD, and no BUDGET trap has been taken for it (R44). -/
def budgetMet (s : State) (c : Fin 56) (t : Fin 8) : Bool :=
  let th := s.th c t
  s.isSet (Fld.THREAD_BUDGET_BOUND c t) && (th.owed || decide (s.get (Fld.THREAD_BUDGET_BUDGET c t) ≤ th.used))
    && !th.yielded && !th.trapped

/-- A BUDGET trap is due at the next instruction boundary (R44); a handler holds it, over a tick edge too (R155). -/
def budgetDue (s : State) (c : Fin 56) (t : Fin 8) : Bool := budgetMet s c t && !(s.th c t).inh

/-- Count thread cycles; an unbound thread that reaches its budget before YIELD sets OVER (R43, R44). DESIGN CHOICE (log entry 137):
OVER, cleared by software after that, is set again by whatever the thread is charged later in the tick. -/
def charge (s : State) (c : Fin 56) (t : Fin 8) (n : Nat) : State :=
  let s := s.modTh c t (fun th => { th with used := th.used + n })
  let th := s.th c t
  if !s.isSet (Fld.THREAD_BUDGET_BOUND c t) && decide (s.get (Fld.THREAD_BUDGET_BUDGET c t) ≤ th.used) && !th.yielded
  then s.raise (Fld.THREAD_BUDGET_OVER c t) else s

/-! ### Traps (R155–R159) -/

/-- Trap causes (R158). -/
def causeUndef : Nat := 0
def causeAlign : Nat := 1
def causeDiv : Nat := 2
def causeTbmiss : Nat := 3
def causeBudget : Nat := 4
def causeEcc : Nat := 5
def causeSys : Nat := 6
def causeInterrupt : Nat := 7
def causeBreak : Nat := 8

/-- A synchronous trap (R155). -/
def isSync (cause : Nat) : Bool := cause != causeBudget && cause != causeInterrupt

/-- XCS.YLD at a trap (R159): the thread was YIELDED, or is to be when the repetitions the trap falls in are done (DESIGN CHOICE, log
entry 111: the trap would else lose its YIELD). -/
def Thread.idles (th : Thread) : Bool := th.st == .yielded || th.woken == some .yielded || th.yldAfter

/-- Trap entry (R156, R158), `xpc` as R158 gives it. XADDR is stated for ALIGN only and XINS for synchronous traps only,
and XRC for a trap in a REP only: elsewhere each receives a free value. -/
def trapEntry (s : State) (c : Fin 56) (t : Fin 8) (cause : Nat) (xpc : Half) (ins : Option Long)
    (fail : Option Nat) (divab : Bool) : State :=
  let (w, s) := s.drawFree
  let k := s.kp c
  let s := s.modTh c t (fun th =>
    let th := th.commitAll
    let vecPc : Half := th.vec + BitVec.ofNat 16 (cause * 4)
    let th := { th with
      st := .run
      inh := true
      cause := cause
      xcause := cause
      xpc := xpc
      xrc := match th.rep with
        | some n => BitVec.ofNat 16 n
        | none => BitVec.ofNat 16 (Config.freeWord (w + 1)).toNat
      repact := th.rep.isSome
      rep := none
      yld := th.idles
      woken := none
      yldAfter := false
      divab := divab
      xov := match fail with
        | some a => decide (0xFFFF < a)
        | none => false
      xins := match ins with
        | some v => v
        | none => BitVec.ofNat 32 (Config.freeWord (w + 2)).toNat
      xaddr := match fail with
        | some a => BitVec.ofNat 16 a
        | none => BitVec.ofNat 16 (Config.freeWord (w + 3)).toNat
      resv := none
      pc := vecPc }
    loadLines k th vecPc)
  charge s c t 2

/-- What a thread's entry into STOPPED or HALTED takes with it (R148, R327): its CALL-KEEPER order completes with
REJECTED_STATE, its mailbox empties, its priority stack empties, a delivery not yet entered is withdrawn. -/
def threadLeaves (s : State) (c : Fin 56) (t : Fin 8) (st : ThState) : State :=
  let th := s.th c t
  let s := match th.mail with
    | some m => if m.full && m.live then s.orderResult c m.order St.rejectedState 0 else s
    | none => s
  let s := match th.deliver with
    | some src => icWithdraw s src
    | none => s
  let s := icEmptyStack s (tgtThread c t)
  s.modTh c t (fun th => { th with st := st, rep := none, mail := none, deliver := none, woken := none, owed := false, yldAfter := false })

/-- A double fault (R155): the thread halts and the first trap's registers stand. -/
def doubleFault (s : State) (c : Fin 56) (t : Fin 8) (cause : Nat) (pc : Half) : State :=
  let s := if s.isSet (Fld.KEVT_DOUBLE_FAULT c) then s
    else ((s.put (Fld.DF_INFO_THREAD c) t).put (Fld.DF_INFO_CAUSE2 c) cause).put (Fld.DF_INFO_PC2 c) pc.toNat
  let s := s.raise (Fld.KEVT_DOUBLE_FAULT c)
  let s := threadLeaves s c t .halted
  let s := s.put (Fld.KSTATUS_HALTED_MASK c) (s.get (Fld.KSTATUS_HALTED_MASK c) ||| 2 ^ t.val)
  errorPin s c.val Pin.doubleFault

/-- A synchronous trap of the instruction at PC, charged `n` cycles (R121, R155). -/
def syncTrap (s : State) (c : Fin 56) (t : Fin 8) (cause n : Nat) (xpc : Half) (ins : Long) (fail : Option Nat) : State :=
  let s := charge s c t n
  if (s.th c t).inh then doubleFault s c t cause (s.th c t).pc
  else trapEntry s c t cause xpc (some ins) fail false

/-! ### The effect of an instruction -/

/-- Outcome of an instruction's own effect: it falls through, it branches (through a held line or not), or it traps with
a cause, the address that failed for ALIGN. -/
inductive KRes where
  | next (s : State)
  | jump (s : State) (pc : Half)
  | held (s : State) (pc : Half) (l : Line)
  | trap (cause : Nat) (fail : Option Nat)
  | wait (s : State)

/-- Update the thread. -/
def kReg (s : State) (c : Fin 56) (t : Fin 8) (f : Thread → Thread) : KRes := .next (s.modTh c t f)

/-- A near load (R131). -/
def kLoad (s : State) (c : Fin 56) (t : Fin 8) (a n : Nat) (dst : LoadDst) : KRes :=
  match alignFail none a n with
  | some x => .trap causeAlign (some x)
  | none =>
    if readPoisoned s c t a n then .trap causeEcc (some a) else
    let (bs, s) := dataRead s c t a n
    kReg s c t (fun th => th.addLoad (loadDelay a) dst (BitVec.ofNat 32 (leNat bs)))

/-- A near store (R131). -/
def kStore (s : State) (c : Fin 56) (t : Fin 8) (a n v : Nat) : KRes :=
  match alignFail none a n with
  | some x => .trap causeAlign (some x)
  | none => if dataPoisoned s c t a n then .trap causeEcc (some a) else .next (dataWrite s c t a (leBytes n v))

/-- A memory-to-memory operand, read or not, meets a poisoned word: its address. -/
def placeEcc (s : State) (c : Fin 56) (t : Fin 8) (p : OpPlace) (reads : Bool) : Option Nat :=
  match p with
  | .reg _ => none
  | .mem a => if dataPoisoned s c t a 1 || (reads && readPoisoned s c t a 1) then some a else none

/-- Read a memory-to-memory operand. -/
def readPlace (s : State) (c : Fin 56) (t : Fin 8) (d : Vector Byte 8) (p : OpPlace) : Byte × State :=
  match p with
  | .reg i => (d[i.toNat], s)
  | .mem a => let (bs, s) := dataRead s c t a 1; (bs.headD 0, s)

/-- An operand changes its address register: pre-decrement or post-increment. -/
def MOpnd.steps (m : MOpnd) : Bool := m.mode == 1 || m.mode == 2

/-- Write the destination of a memory-to-memory form and commit the changed address registers (R134 phase 4): those of the
operands `ops` that pre-decrement or post-increment. -/
def writePlace (s : State) (c : Fin 56) (t : Fin 8) (p : OpPlace) (ops : List MOpnd) (a : Vector Half 8) (v : Byte) : State :=
  let s := s.modTh c t (fun th => ops.foldl (fun th m => if m.steps then th.setA m.reg a[m.reg.toNat] else th) th)
  match p with
  | .reg i => s.modTh c t (fun th => th.setD i v)
  | .mem x => dataWrite s c t x [v]

/-- Two-operand forms read the destination in ADD, SUB, AND, OR and XOR (R134 phase 3). -/
def m2ReadsDst (op : M2Op) : Bool :=
  match op with
  | .mov | .not | .neg => false
  | _ => true

/-- A two-operand memory-to-memory form (R134). -/
def kMm2 (s : State) (c : Fin 56) (t : Fin 8) (op : M2Op) (dst src : MOpnd) (x : Nat) : KRes :=
  let th := s.th c t
  let (ps, a1) := formOpnd th.a th.d src x
  let (pd, a2) := formOpnd a1 th.d dst x
  match (placeFail ps).or (placeFail pd) with
  | some f => .trap causeAlign (some f)
  | none =>
    match (placeEcc s c t ps true).or (placeEcc s c t pd (m2ReadsDst op)) with
    | some a => .trap causeEcc (some a)
    | none =>
      let (vs, s) := readPlace s c t th.d ps
      let (vd, s) := if m2ReadsDst op then readPlace s c t th.d pd else (0, s)
      .next (writePlace s c t pd [src, dst] a2 (m2Val op vd vs))

/-- A three-operand memory-to-memory form (R134). Two sources that are tile I/O ports acting on a read are read A before B: R134 orders
their addresses only (DESIGN CHOICE, log entry 139). -/
def kMm3 (s : State) (c : Fin 56) (t : Fin 8) (op : M3Op) (dst oa ob : MOpnd) (x : Nat) : KRes :=
  let th := s.th c t
  let (pa, a1) := formOpnd th.a th.d oa x
  let (pb, a2) := formOpnd a1 th.d ob x
  let (pd, a3) := formOpnd a2 th.d dst x
  match ((placeFail pa).or (placeFail pb)).or (placeFail pd) with
  | some f => .trap causeAlign (some f)
  | none =>
    match ((placeEcc s c t pa true).or (placeEcc s c t pb true)).or (placeEcc s c t pd false) with
    | some a => .trap causeEcc (some a)
    | none =>
      let (va, s) := readPlace s c t th.d pa
      let (vb, s) := readPlace s c t th.d pb
      .next (writePlace s c t pd [oa, ob, dst] a3 (m3Val op va vb))

/-- Registers r and s of a class compared under a condition (R135). -/
def condOn (th : Thread) (cl : Cls) (cd : Cond) (r s : BitVec 3) : Bool :=
  match cl with
  | .d => condHolds cd (th.getD r) (th.getD s)
  | .a => condHolds cd (th.getA r) (th.getA s)
  | .q => condHolds cd (th.getQ (BitVec.ofNat 2 r.toNat)) (th.getQ (BitVec.ofNat 2 s.toNat))

/-- Target buffer entry `k`. -/
def tbGet (th : Thread) (k : BitVec 4) : Option TbEntry := SMap.find? th.tb k.toNat

/-- Address register operations and transfers (R126). -/
def kAreg (th : Thread) (op : AOp) (x y : BitVec 3) : Thread :=
  let q : BitVec 2 := BitVec.ofNat 2 x.toNat
  let ax := th.getA x
  let ay := th.getA y
  let dy := th.getD y
  let qv := th.getQ q
  match op with
  | .movW => th.setA x ay
  | .addW => th.setA x (ax + ay)
  | .subW => th.setA x (ax - ay)
  | .addxW => th.setA x (ax + BitVec.ofNat 16 dy.toNat)
  | .movlB => th.setD x (BitVec.ofNat 8 ay.toNat)
  | .movhB => th.setD x (BitVec.ofNat 8 (ay.toNat / 256))
  | .movzW => th.setA x (BitVec.ofNat 16 dy.toNat)
  | .inshW => th.setA x (BitVec.ofNat 16 (dy.toNat * 256 + ax.toNat % 256))
  | .movzLD => th.setQ q (BitVec.ofNat 32 dy.toNat)
  | .movsLD => th.setQ q (BitVec.ofInt 32 dy.toInt)
  | .movzLA => th.setQ q (BitVec.ofNat 32 ay.toNat)
  | .movsLA => th.setQ q (BitVec.ofInt 32 ay.toInt)
  | .movBQ => th.setD y (BitVec.ofNat 8 qv.toNat)
  | .movWQ => th.setA y (BitVec.ofNat 16 qv.toNat)
  | .shinL => th.setQ q (BitVec.ofNat 32 (qv.toNat * 256 + dy.toNat))
  | .shoutL => (th.setD y (BitVec.ofNat 8 (qv.toNat / 2 ^ 24))).setQ q (BitVec.ofNat 32 (qv.toNat * 256))

/-- What an instruction does, its length in halfwords given; the charge and the move of PC are made by `kIssue`. -/
def kEffect (s : State) (c : Fin 56) (t : Fin 8) (len : Nat) (i : KInstr) : KRes :=
  let th := s.th c t
  let k := s.kp c
  let link : Half := th.pc + BitVec.ofNat 16 len
  match i with
  | .dreg op d r => kReg s c t (fun th => th.setD d (dOpVal op (th.getD d) (th.getD r)))
  | .dimm op d imm => kReg s c t (fun th => th.setD d (dImmVal op (th.getD d) imm))
  | .dsh op d u => kReg s c t (fun th => th.setD d (dShVal op (th.getD d) u.toNat))
  | .areg op x y => kReg s c t (fun th => kAreg th op x y)
  | .addqW x v => kReg s c t (fun th => th.setA x (th.getA x + BitVec.ofInt 16 v.toInt))
  | .qreg op d r => kReg s c t (fun th => th.setQ d (qOpVal op (th.getQ d) (th.getQ r)))
  | .qsh op q u => kReg s c t (fun th => th.setQ q (qShVal op (th.getQ q) u.toNat))
  | .addqL q v => kReg s c t (fun th => th.setQ q (th.getQ q + BitVec.ofInt 32 v.toInt))
  | .moviW n imm => kReg s c t (fun th => th.setA n imm)
  | .addiW n imm => kReg s c t (fun th => th.setA n (th.getA n + imm))
  | .moviL q imm => kReg s c t (fun th => th.setQ q (BitVec.ofInt 32 imm.toInt))
  | .movhiL q imm => kReg s c t (fun th => th.setQ q (BitVec.ofNat 32 (imm.toNat * 65536 + (th.getQ q).toNat % 65536)))
  | .addiL q imm => kReg s c t (fun th => th.setQ q (th.getQ q + BitVec.ofInt 32 imm.toInt))
  | .bfx d r pos wm1 => kReg s c t (fun th => th.setQ d (bfxVal (th.getQ r) pos.toNat (wm1.toNat + 1)))
  | .bfi d r pos wm1 => kReg s c t (fun th => th.setQ d (bfiVal (th.getQ d) (th.getQ r) pos.toNat (wm1.toNat + 1)))
  | .divq d x =>
    match divqVal (th.getQ d) (th.getA x) with
    | some v => kReg s c t (fun th => th.setQ d v)
    | none => .trap causeDiv none
  | .ldB d n u => kLoad s c t ((th.getA n).toNat + u.toNat) 1 (.d d)
  | .stB d n u => kStore s c t ((th.getA n).toNat + u.toNat) 1 (th.getD d).toNat
  | .ldW a n u => kLoad s c t ((th.getA n).toNat + 2 * u.toNat) 2 (.a a)
  | .stW a n u => kStore s c t ((th.getA n).toNat + 2 * u.toNat) 2 (th.getA a).toNat
  | .ldL q n u => kLoad s c t ((th.getA n).toNat + 4 * u.toNat) 4 (.q q)
  | .stL q n u => kStore s c t ((th.getA n).toNat + 4 * u.toNat) 4 (th.getQ q).toNat
  | .mm2 op dst src x => kMm2 s c t op dst src x.toNat
  | .mm3 op dst a b x => kMm3 s c t op dst a b x.toNat
  | .cbP cd cl r r2 kk =>
    match tbGet th kk with
    | none => .trap causeTbmiss none
    | some e => if condOn th cl cd r r2 then .held s e.target e.line else .next s
  | .cb cd cl r r2 tgt => if condOn th cl cd r r2 then .jump s tgt else .next s
  | .cbi cd r imm disp =>
    if condHolds cd (th.getD r) imm then .jump s (link + BitVec.ofInt 16 disp.toInt) else .next s
  | .jmpP kk =>
    match tbGet th kk with
    | none => .trap causeTbmiss none
    | some e => .held s e.target e.line
  | .callP kk =>
    match tbGet th kk with
    | none => .trap causeTbmiss none
    | some e => .held (s.modTh c t (fun th => th.setA 7 link)) e.target e.line
  | .retP =>
    -- Of several entries with the line of A7 the spec names none: the lowest-numbered (DESIGN CHOICE, log entry 113).
    match th.tb.find? (fun e => e.2.line.num = (th.getA 7).toNat / 16) with
    | none => .trap causeTbmiss none
    | some e => .held s (th.getA 7) e.2.line
  | .jmp tgt => .jump s tgt
  | .call tgt => .jump (s.modTh c t (fun th => th.setA 7 link)) tgt
  | .jmpI n => .jump s (th.getA n)
  | .callI n => .jump (s.modTh c t (fun th => th.setA 7 link)) (th.getA n)
  | .ret => .jump s (th.getA 7)
  | .tbl kk tgt => kReg s c t (fun th =>
      { th with tb := SMap.insert th.tb kk.toNat ⟨tgt, readLine k (tgt.toNat / 16)⟩ })
  | .tas d n =>
    let a := (th.getA n).toNat
    match alignFail (some .shared) a 1 with
    | some x => .trap causeAlign (some x)
    | none =>
      if dataPoisoned s c t a 1 then .trap causeEcc (some a) else
      let (bs, s) := dataRead s c t a 1
      let s := dataWrite s c t a [0xFF]
      kReg s c t (fun th => th.addLoad 1 (.d d) (BitVec.ofNat 32 (leNat bs)))
  | .lrB d n =>
    let a := (th.getA n).toNat
    match alignFail (some .shared) a 1 with
    | some x => .trap causeAlign (some x)
    | none =>
      if dataPoisoned s c t a 1 then .trap causeEcc (some a) else
      let (bs, s) := dataRead s c t a 1
      kReg s c t (fun th => { th.addLoad 1 (.d d) (BitVec.ofNat 32 (leNat bs)) with resv := some (a / 8) })
  | .scB d n =>
    -- The access reads its word with or without a reservation, so a poisoned one takes the ECC trap (DEDUCED, log entry 112).
    let a := (th.getA n).toNat
    match alignFail (some .shared) a 1 with
    | some x => .trap causeAlign (some x)
    | none =>
      if dataPoisoned s c t a 1 then .trap causeEcc (some a) else
      let ok := th.resv == some (a / 8)
      let s := if ok then dataWrite s c t a [th.getD d] else s
      kReg s c t (fun th => { th.setD d (if ok then 0 else 1) with resv := none })
  | .repImm u => kReg s c t (fun th => { th with rep := some u.toNat })
  | .repReg n => kReg s c t (fun th => { th with rep := some (th.getA n).toNat })
  | .nop => .next s
  | .yield => kReg s c t (fun th => { th with st := .yielded, yielded := true })
  | .reti => .jump (s.modTh c t (fun th =>
      { th with inh := false, rep := if th.repact then some th.xrc.toNat else none })) th.xpc
  | .iflush => kReg s c t (fun th =>
      { th with tb := th.tb.map (fun e => (e.1, { e.2 with line := readLine k e.2.line.num })) })
  | .sys _ => .trap causeSys none
  | .brk _ => .trap causeBreak none
  | .waitev mask =>
    if (eventBits s c t &&& mask) != 0 then .next s
    else .wait (s.modTh c t (fun th => { th with st := .waitev, waitMask := mask }))
  | .signal u => .next (s.modTh c ⟨u.toNat, u.isLt⟩ (fun th => { th with evt := th.evt ||| 1 }))

/-- The first and the second halfword a thread holds at PC. -/
def atPc (th : Thread) : Option (Half × Half) :=
  match heldHalf th th.pc with
  | none => none
  | some h0 => some (h0, if isLong h0 then (heldHalf th (th.pc + 1)).getD 0 else 0)

/-- XINS of an instruction (R158): H1 reads zero for a short form. -/
def xinsOf (h0 h1 : Half) : Long := BitVec.ofNat 32 (h0.toNat * 65536 + if isLong h0 then h1.toNat else 0)

/-- After a REP prefix or a RETI that resumes one: a count of 0 moves PC past the instruction (R140, R159). -/
def settleRep (k : Keeper) (th : Thread) : Thread :=
  match th.rep, heldHalf th th.pc with
  | some 0, some h0 => advancePc k { th with rep := none } (th.pc + BitVec.ofNat 16 (kLen h0))
  | _, _ => th

/-- The pair a REP at `pc` begins is undefined (R141). -/
def repPairBad (th : Thread) (pc : Half) : Bool :=
  match heldHalf th pc with
  | none => true
  | some h0 =>
    match kDecode h0 (if isLong h0 then (heldHalf th (pc + 1)).getD 0 else 0) with
    | none => true
    | some j => repForbidden j

/-- The entry of a delivered interrupt comes before the thread's next instruction (R155, R161). -/
def mustEnter (th : Thread) : Bool := th.deliver.isSome && !th.inh && th.slack != some th.used

/-- RETI has resumed a repetition of an instruction that R141 forbids under REP: its UNDEF trap is due at PC (R159). -/
def repForbids (th : Thread) : Bool :=
  th.rep.isSome && match atPc th with
    | some (h0, h1) => (match kDecode h0 h1 with | some j => repForbidden j | none => true)
    | none => false

/-- The thread comes to its next instruction: it is in RUN, no BUDGET trap (R44) and no trap entry of an interrupt is due, and no
reseat holds it (R345). -/
def mayCome (s : State) (c : Fin 56) (t : Fin 8) : Bool :=
  (s.th c t).st == .run && !budgetDue s c t && !mustEnter (s.th c t) && !s.frozen c

/-- It may issue it. -/
def mayIssue (s : State) (c : Fin 56) (t : Fin 8) : Bool := mayCome s c t && !repForbids (s.th c t)

/-- Move past the instruction at PC, or count one repetition of it (R140); after the last, a thread that RETI is to leave YIELDED is
YIELDED (R159). -/
def fallThrough (k : Keeper) (th : Thread) (len : Nat) : Thread :=
  let next : Half := th.pc + BitVec.ofNat 16 len
  match th.rep with
  | some n =>
    if n ≤ 1 then
      let th := advancePc k { th with rep := none } next
      if th.yldAfter then { th with st := .yielded, yldAfter := false } else th
    else { th with rep := some (n - 1) }
  | none => advancePc k th next

/-- Issue the instruction `i` that stands at PC with halfwords `h0` and `h1`. -/
def kIssue (s : State) (c : Fin 56) (t : Fin 8) (i : KInstr) (h0 h1 : Half) : State :=
  let len := kLen h0
  let pc := (s.th c t).pc
  let ins := xinsOf h0 h1
  let isRep := match i with | .repImm _ | .repReg _ => true | _ => false
  let age (s : State) : State := s.modTh c t Thread.ageLoads
  if isRep && repPairBad (s.th c t) (pc + 1) then syncTrap s c t causeUndef 1 pc ins none
  else match kEffect s c t len i with
  | .trap cause fail =>
    let after : Half := pc + BitVec.ofNat 16 len
    if cause = causeSys ∨ cause = causeBreak then syncTrap s c t cause 2 after ins none
    else if cause = causeDiv then syncTrap s c t cause 17 pc ins none
    else if cause = causeEcc then
      syncTrap (match fail with | some a => dataEcc s c t a | none => s) c t cause 1 pc ins none
    else syncTrap s c t cause 1 pc ins fail
  | .next s =>
    let s := age (charge s c t (kCycles i))
    let k := s.kp c
    if isRep then s.modTh c t (fun th => settleRep k (advancePc k th (pc + BitVec.ofNat 16 len)))
    else match i with
      | .iflush => s.modTh c t (fun th => jumpTo k th (pc + BitVec.ofNat 16 len))
      | _ => s.modTh c t (fun th => fallThrough k th len)
  | .wait s =>
    let s := age (charge s c t (kCycles i))
    let k := s.kp c
    s.modTh c t (fun th => advancePc k th (pc + BitVec.ofNat 16 len))
  | .held s tgt l =>
    let s := age (charge s c t (kCycles i))
    let k := s.kp c
    s.modTh c t (fun th => jumpHeld k th tgt l)
  | .jump s tgt =>
    let s := age (charge s c t (kCycles i))
    let k := s.kp c
    let s := s.modTh c t (fun th => jumpTo k th tgt)
    match i with
    | .reti =>
      let th := s.th c t
      if th.repact && repPairBad th tgt then
        let rest := th.xrc
        let s := s.modTh c t (fun th => { th with rep := some rest.toNat })
        if th.yld then s.modTh c t (fun th => { th with st := .yielded })
        else syncTrap s c t causeUndef 1 tgt (match atPc th with | some (a, b) => xinsOf a b | none => 0) none
      else
        let s := s.modTh c t (settleRep k)
        if !th.yld then s
        else s.modTh c t (fun th => if th.rep.isNone then { th with st := .yielded } else { th with yldAfter := true })
    | _ => s

/-- The instruction at PC has an uncorrectable halfword. -/
def fetchBad (th : Thread) : Bool :=
  heldBad th th.pc || match heldHalf th th.pc with
    | some h0 => isLong h0 && heldBad th (th.pc + 1)
    | none => false

/-- The ECC trap of an instruction whose halfwords are uncorrectable (R157): XINS and XADDR are not stated. -/
def fetchTrap (s : State) (c : Fin 56) (t : Fin 8) : State :=
  let s := tileEcc (s.raise (Fld.KEVT_ECC_UNCORR c)) c 0x80000
  let s := charge s c t 1
  if (s.th c t).inh then doubleFault s c t causeEcc (s.th c t).pc
  else trapEntry s c t causeEcc (s.th c t).pc none none false

/-- A keeper command: thread `t` of channel `c` issues `i` in its next issue slot. It has its effect when the thread may
issue and the halfwords the thread holds at PC spell `i`; otherwise the thread has nothing of the kind to issue and
nothing changes. -/
def kStep (s : State) (c : Fin 56) (t : Fin 8) (i : KInstr) : State :=
  if mayIssue s c t then
    if fetchBad (s.th c t) then fetchTrap s c t else
    match atPc (s.th c t) with
    | none => s
    | some (h0, h1) => if kDecode h0 h1 = some i then kIssue s c t i h0 h1 else s
  else s

/-- UNDEFINED_INSTRUCTION (R121, R144, R159): the halfwords at PC are an undefined encoding, or RETI has resumed a repetition that is. -/
def kUndefined (s : State) (c : Fin 56) (t : Fin 8) : State :=
  if mayCome s c t then
    if fetchBad (s.th c t) then fetchTrap s c t else
    match atPc (s.th c t) with
    | none => s
    | some (h0, h1) =>
      if kDecode h0 h1 = none ∨ repForbids (s.th c t) then syncTrap s c t causeUndef 1 (s.th c t).pc (xinsOf h0 h1) none else s
  else s

/-- BUDGET_TRAP (R44): a bound thread traps at its next instruction boundary, an unbound one sets OVER. A thread that waits takes
the trap when it runs again (R147); XPC names its next instruction (R158). -/
def kBudgetTrap (s : State) (c : Fin 56) (t : Fin 8) : State :=
  let th := s.th c t
  if budgetDue s c t && th.st == .run && !s.frozen c then
    let s := s.modTh c t (fun th => { th with trapped := true, owed := false })
    trapEntry s c t causeBudget th.pc none none false
  else charge s c t 0

/-- THREAD_INTERRUPT_TRAP (R161): trap entry for a delivered interrupt. `spent` cycles of a DIVQ at PC have passed when
it arrives, 0 when none is in progress (R160). A WAITEV the thread waits in is named by XPC (R158). -/
def kInterruptTrap (s : State) (c : Fin 56) (t : Fin 8) (spent : Nat) : State :=
  let th := s.th c t
  let inDiv := match atPc th with
    | some (h0, h1) => (match kDecode h0 h1 with | some (.divq ..) => true | _ => false)
    | none => false
  let waited := th.st == .waitev || th.woken == some .waitev
  if th.deliver.isSome && !th.inh && (th.st == .run || th.st == .waitev || th.st == .yielded) && !budgetDue s c t
      && !s.frozen c then
    let abandon := inDiv && 0 < spent && th.st == .run && !waited
    let s := if abandon then charge s c t (min spent 16) else s
    let s := s.modTh c t (fun th => { th with deliver := none })
    trapEntry s c t causeInterrupt (if waited then th.pc - 1 else th.pc) none none abandon
  else s

/-- WAITEV_WAKE (R163): a selected event bit is set. -/
def kWake (s : State) (c : Fin 56) (t : Fin 8) : State :=
  let th := s.th c t
  if th.st == .waitev && (eventBits s c t &&& th.waitMask) != 0 then
    s.modTh c t (fun th => { th with st := .run })
  else s

/-- Set up a thread at a START entry (R150): its line buffers are empty until it issues. An interrupt held for the stopped thread is
delivered, and its trap entry comes before the entry's first instruction (R161). -/
def startThread (s : State) (c : Fin 56) (t : Fin 8) (addr : Half) : State :=
  let k := s.kp c
  let vec := match k.image with
    | some im => (im.threads.getD t.val ⟨0, 0, 0, false⟩).vec
    | none => 0
  let pins : List (Nat × Nat × Half) := match k.image with
    | some im => im.pins.filter (fun p => p.1 = t.val)
    | none => []
  let s := s.put (Fld.KSTATUS_HALTED_MASK c)
    (s.get (Fld.KSTATUS_HALTED_MASK c) - (s.get (Fld.KSTATUS_HALTED_MASK c) &&& 2 ^ t.val))
  let s := s.modTh c t (fun th =>
    { th with
      st := .run
      d := Vector.replicate 8 0
      a := (Vector.replicate 8 0).set 6 0xA800
      q := Vector.replicate 4 0
      pc := addr
      inh := false
      xpc := 0
      xrc := 0
      xcause := 0
      repact := false
      yld := false
      divab := false
      xov := false
      xins := 0
      xaddr := 0
      intSrc := 0xFFFF
      vec := vec
      evt := th.evt &&& 0x0E
      resv := none
      loads := []
      rep := none
      cur := none
      nxt := none
      tb := pins.foldl (fun m p => SMap.insert m p.2.1 ⟨p.2.2, readLine k (p.2.2.toNat / 16)⟩) []
      deliver := none
      woken := none
      yldAfter := false })
  (icDeliver s (tgtThread c t)).modTh c t (fun th => { th with slack := none })

end Sys2Proof.Machine
end

