-- ==== Sys2Proof/Machine/Timebase.lean ====
section
/-!
DEFINITION. The timebase, the tick grid, the lock schedule table, the servo and time steps (02, R30–R52).
-/
namespace Sys2Proof.Machine

/-! ### Routes in progress -/

/-- A route on channel `c` is running, waiting or suspended; ADMIT and STOPPING count as running (R107). -/
def routeBusy (s : State) (c : Nat) : Bool := s.get (Fld.ROUTE_STATE_STATE c) != 0

/-- Some channel has a route (R33, R49). -/
def routesBusy (s : State) : Bool := (List.range 56).any (routeBusy s)

/-! ### TBCLK (R30) -/

/-- One TBCLK cycle (R30): TIME_NS advances by 1 ns; the servo's accumulator adds or withholds one. TIME_NS stands still
while a tick edge is due. -/
def tbclk (s : State) : State :=
  if nextGrid s ≤ s.now then s
  else
    let acc := s.tb.acc + (BitVec.ofNat 32 (s.get Fld.TB_TRIM_TRIM)).toInt
    let (n, acc) : Nat × Int := if (2 : Int) ^ 40 ≤ acc then (2, acc - 2 ^ 40) else if acc ≤ -(2 : Int) ^ 40 then (0, acc + 2 ^ 40) else (1, acc)
    (s.pass n).modTb (fun t => { t with acc := acc })

/-! ### The lock schedule (R38, R39) -/

/-- Fields of a lock schedule entry. -/
def lsOff (w : Word) : Nat := bf w.toNat 0 24
def lsChan (w : Word) : Nat := bf w.toNat 24 8
def lsSub (w : Word) : Nat := bf w.toNat 32 4

/-- LOCK_RATE of a channel (R37). -/
def lockRate (s : State) (c : Nat) : Nat := 2 ^ s.get (Fld.LOCK_CFG_RATE_LOG2 c)

/-- Every entry lies in its window of a tick of `p` ns. -/
def lsFits (s : State) (l : List Word) (p : Nat) : Bool :=
  l.all (fun w =>
    let r := lockRate s (lsChan w)
    decide (lsSub w < r ∧ lsSub w * p / r ≤ lsOff w ∧ lsOff w < (lsSub w + 1) * p / r))

/-- A channel with entries has exactly one for each SUB. -/
def lsSubsOk (s : State) (l : List Word) (c : Nat) : Bool :=
  let subs := (l.filter (fun w => lsChan w == c)).map lsSub
  subs.isEmpty || (subs.length == lockRate s c && (List.range (lockRate s c)).all (subs.contains ·))

/-- The shadow table's first `n` entries. -/
def lsShadow (s : State) (n : Nat) : List Word :=
  (List.range n).map (fun i => BitVec.ofNat 64 (s.get (Fld.LS_ENTRY_OFFSET_NS i) + s.get (Fld.LS_ENTRY_CHANNEL i) * 2 ^ 24
    + s.get (Fld.LS_ENTRY_SUB i) * 2 ^ 32))

/-- REJECT of a COMMIT; 0 when the table is valid (R39). -/
def lsReject (s : State) : Nat :=
  let n := s.get Fld.LS_CTRL_COUNT
  let l := lsShadow s (min n 448)
  let p := match s.tb.cfg with | some (us, _) => us * 1000 | none => s.tb.period
  if 448 < n then 1
  else if l.any (fun w => decide (55 < lsChan w)) then 2
  else if (List.range 56).any (fun c => !lsSubsOk s l c) then 3
  else if !lsFits s l p then 4
  else if (List.range 56).any (fun c => chLocks s c && !l.any (fun w => lsChan w == c)) then 5
  else 0

/-- LS_COMMIT (R39). -/
def lsCommit (s : State) : State :=
  let r := lsReject s
  let s := s.put Fld.LS_CTRL_REJECT r
  if r = 0 then
    let l := lsShadow s (s.get Fld.LS_CTRL_COUNT)
    (s.modTb (fun t => { t with sched := some l })).raise Fld.LS_CTRL_PENDING
  else s

/-- A write of LS_CTRL. -/
def wrLsCtrl (s : State) (v : Nat) : State :=
  let s := s.put Fld.LS_CTRL_COUNT (bf v 16 9)
  if bit v 0 then lsCommit s else s

/-- The active schedule holds exactly LOCK_RATE entries for a channel (R38). -/
def lsHolds (s : State) (c : Nat) : Bool := (s.tb.active.filter (fun w => lsChan w == c)).length == lockRate s c

/-! ### TICK_CFG and KEY_CFG (R33, R41) -/

/-- A write of TICK_CFG. -/
def wrTickCfg (s : State) (v : Nat) : Wr :=
  let us := bf v 0 14
  let ph := bf v 16 24
  if !routesBusy s && decide (10 ≤ us ∧ us ≤ 10000 ∧ ph < us * 1000)
      && decide (s.get Fld.KEY_CFG_OFFSET_NS + s.get Fld.KEY_CFG_EVAL_NS ≤ us * 1000) then
    let s := (s.put Fld.TICK_CFG_PERIOD_US us).put Fld.TICK_CFG_PHASE_NS ph
    .ok ((s.modTb (fun t => { t with cfg := some (us, ph) })).raise Fld.TB_STATUS_CFG_PENDING)
  else .own (s.raise Fld.TB_EVENTS_CFG_REFUSED)

/-- A write of KEY_CFG. -/
def wrKeyCfg (s : State) (v : Nat) : Wr :=
  let off := bf v 0 24
  if off + s.get Fld.KEY_CFG_EVAL_NS ≤ keyPeriod s then .ok (s.put Fld.KEY_CFG_OFFSET_NS off)
  else .own (s.raise Fld.TB_EVENTS_CFG_REFUSED)

/-- TIME_NS_READ (R31): the time; TIME_SNAP latches TICKNO. -/
def timeRead (s : State) : Nat × State := (s.now, s.put Fld.TIME_SNAP_TICKNO s.tick)

/-! ### Time steps (R49–R52) -/

/-- A 64-bit signed value. -/
def sgn64 (v : Nat) : Int := (BitVec.ofNat 64 v).toInt

/-- The time-step record (R52). -/
def stepRec (old new tick cause source : Nat) (req : Int) : Rec :=
  ⟨new, 0x38, 0xFF, 0, 0, leBytes 8 old ++ leBytes 8 new ++ leBytes 6 tick ++ leBytes 1 cause ++ leBytes 1 source
    ++ leInt 8 req⟩

/-- What a channel times by TIME_NS moves with a step: the end of a barge WAIT TIME (R203), the PSI5 syncs (R183), the filling of
the rate bucket (R229). -/
def Chan.stepped (x : Chan) (d : Int) : Chan :=
  let wait := match x.barge.wait with
    | some (.time due) => some (.time (shift due d))
    | w => w
  { x with barge := { x.barge with wait := wait }
           bus := { x.bus with psiNs := shift x.bus.psiNs d, psiPrev := x.bus.psiPrev.map (shift · d) }
           eth := { x.eth with bucketNs := shift x.eth.bucketNs d } }

/-- A step of `d` ns is applied, whatever the amount: TIME_NS is a 64-bit count. Its record is committed by the Basin (R233),
and goes into the course of the present tick, which at an edge (`edge`) begins at the stepped time. -/
def applyStep (s : State) (d req : Int) (cause : Nat) (edge : Bool) : State :=
  let old := s.now
  let s := s.put Fld.TIME_NS_TIME_NS (shift old d)
  let s := (s.put Fld.STEP_RESULT_APPLIED (BitVec.ofInt 64 d).toNat).raise Fld.TB_EVENTS_STEP_DONE
  let r := stepRec old s.now s.tick cause (s.get Fld.TB_STATUS_ACTIVE_SRC) req
  let add (c : Course) : Course := { c with step := c.step ++ [r], edgeNs := if edge then s.now else c.edgeNs }
  let n := s.courses.length - 1
  let s := { basinCommit s r with courses := s.courses.take n ++ (s.courses.drop n).map add }
  let s := { s with chans := s.chans.map (Chan.stepped · d) }
  let s := s.modTb (fun t => { t with edgeNs := shift t.edgeNs d, pps := t.pps.map (shift · d) })
  s.modBoard (fun b => { b with out0 := (b.out0.1, shift b.out0.2 d), out1 := (b.out1.1, shift b.out1.2 d) })

/-- A step while no route runs: the tick in progress ends at the first grid point at least 10 µs after it (R49). -/
def stepNow (s : State) (d : Int) (cause : Nat) : State :=
  let s := applyStep s d d cause false
  s.modTb (fun t => { t with used := some s.now, notBefore := s.now + 10000 })

/-- A requested amount rounded to the nearest multiple of the period, ties away from zero (R51). -/
def roundPeriod (d : Int) (p : Nat) : Int :=
  let n := (2 * d.natAbs + p) / (2 * p) * p
  if d < 0 then -(n : Int) else n

/-- TRIM as the law leaves it, within ±200 ppm (R48). -/
def trimClamp (v : Int) : Int := max (-219902325) (min 219902325 v)

/-- TRIM after an offset; the law's gains are open. -/
def servoTrim (s : State) (off : Int) : State :=
  let (n, s) := s.drawFree
  let last := (BitVec.ofNat 32 (s.get Fld.TB_TRIM_TRIM)).toInt
  let t := trimClamp (Config.servoTrim off last n)
  (s.put Fld.TB_TRIM_TRIM (BitVec.ofInt 32 t).toNat).modTb (fun x => { x with trims := (t :: x.trims).take 16 })

/-- A forced step at an edge (R51); the remainder is slewed: one new TRIM is drawn, in whatever state the servo is (DESIGN
CHOICE, log entry 99). With A = 0 nothing was applied, and STEP_RESULT says so (log entry 99). -/
def stepAtEdge (s : State) : State :=
  match s.tb.step with
  | none => s
  | some r =>
    let s := s.modTb (fun t => { t with step := none })
    let d := if r.abs then r.req - s.now else r.req
    let a := roundPeriod d s.tb.period
    let s := if a = 0 then s.put Fld.STEP_RESULT_APPLIED 0
      else
        let left := s.tb.notBefore - s.now
        let s := applyStep s a d 3 true
        s.modTb (fun t => { t with used := t.used.map (shift · a), notBefore := if left = 0 then 0 else s.now + left })
    if d = a then s else servoTrim s (a - d)

/-- STEP_GO (R49–R51): GO written with FORCE and ABS. A forced GO replaces one that still waits for the edge (DESIGN CHOICE,
log entry 99). -/
def stepGo (s : State) : State :=
  let v := s.get Fld.STEP_DELTA_VALUE
  let ab := s.isSet Fld.STEP_CTRL_ABS
  let req : Int := if ab then v else sgn64 v
  if !routesBusy s then stepNow s (if ab then req - s.now else req) 1
  else if !s.isSet Fld.STEP_CTRL_FORCE then s.raise Fld.TB_EVENTS_STEP_REFUSED
  else s.modTb (fun t => { t with step := some ⟨ab, req⟩ })

/-- A write of STEP_CTRL. -/
def wrStepCtrl (s : State) (v : Nat) : State :=
  let s := (s.putB Fld.STEP_CTRL_FORCE (bit v 1)).putB Fld.STEP_CTRL_ABS (bit v 2)
  if bit v 0 then stepGo s else s

/-! ### The servo (R46–R48) -/

def servoFree : Nat := 0
def servoAcquire : Nat := 1
def servoLocked : Nat := 2
def servoHoldover : Nat := 3

def servoState (s : State) : Nat := s.get Fld.TB_STATUS_SERVO

/-- A write of TB_CTRL (R47): SRC 5–7 is refused. -/
def wrTbCtrl (s : State) (v : Nat) : Wr :=
  let src := bf v 0 3
  if 5 ≤ src then .refused
  else
    let s := regApply s Reg.TB_CTRL v
    let s := s.put Fld.TB_STATUS_SERVO (if src = 0 then servoFree else servoAcquire)
    let s := s.put Fld.TB_STATUS_ACTIVE_SRC (if src = 4 ∨ (src = 3 ∧ s.isSet Fld.TP_STATUS_IS_MASTER) then 0 else src)
    .ok (s.modTb (fun t => { t with good := 0, bad := 0 }))

/-- A source is the one the servo uses; under SRC 4 a better source replaces the active one. -/
def servoTakes (s : State) (src : Nat) : Bool :=
  let want := s.get Fld.TB_CTRL_SRC
  want == src || (want == 4 && decide (s.get Fld.TB_STATUS_ACTIVE_SRC ≤ src))

/-- The servo enters LOCKED or goes on counting. The measurement that ends HOLDOVER counts as the first of the eight (DESIGN
CHOICE, log entry 100). -/
def servoMove (s : State) (off : Int) : State :=
  let thr := s.get Fld.TB_CTRL_LOCK_THRESH_NS
  let a := off.natAbs
  let st := servoState s
  if st = servoHoldover then
    (s.put Fld.TB_STATUS_SERVO servoAcquire).modTb (fun t => { t with good := b2n (decide (a < thr)), bad := 0 })
  else if st = servoAcquire then
    let g := if a < thr then s.tb.good + 1 else 0
    if 8 ≤ g then ((s.put Fld.TB_STATUS_SERVO servoLocked).raise Fld.TB_EVENTS_LOCKED).modTb (fun t => { t with good := 0, bad := 0 })
    else s.modTb (fun t => { t with good := g })
  else if st = servoLocked then
    let b := if 4 * thr ≤ a then s.tb.bad + 1 else 0
    if 4 ≤ b then (s.put Fld.TB_STATUS_SERVO servoAcquire).modTb (fun t => { t with good := 0, bad := 0 })
    else s.modTb (fun t => { t with bad := b })
  else s

/-- A valid measurement of source `src`: TIME_NS is `off` ns ahead of the reference, or behind it when the source is the towpath, whose
offset is what the neighbour is ahead (R389). -/
def servoMeasure (s : State) (src : Nat) (off : Int) : State :=
  if servoTakes s src then
    let s := s.put Fld.TB_STATUS_ACTIVE_SRC src
    let sat : Int := max (-2147483647) (min 2147483647 off)
    let s := s.put Fld.TB_STATUS_OFFSET_NS (BitVec.ofInt 32 sat).toNat
    let s := servoMove s off
    let ahead := if src = 3 then -off else off
    let large := decide (s.get Fld.TB_CTRL_STEP_THRESH_US * 1000 < off.natAbs)
    if large && !routesBusy s && s.isSet Fld.TB_CTRL_AUTO_STEP then stepNow s (-ahead) 2
    else
      let s := if large && routesBusy s then s.raise Fld.TB_EVENTS_LARGE_OFFSET else s
      servoTrim s ahead
  else s

/-- HOLDOVER_TIMEOUT (R47): TRIM is frozen at the mean of the last 16 trims. -/
def holdoverTimeout (s : State) : State :=
  if servoState s = servoAcquire ∨ servoState s = servoLocked then
    let l := s.tb.trims
    let s := if l.isEmpty then s
      else s.put Fld.TB_TRIM_TRIM (BitVec.ofInt 32 (l.sum / l.length)).toNat
    let s := if s.get Fld.TB_CTRL_SRC = 4 then s.put Fld.TB_STATUS_ACTIVE_SRC 0 else s
    (s.put Fld.TB_STATUS_SERVO servoHoldover).raise Fld.TB_EVENTS_HOLDOVER
  else s

/-- PPS_IN_EDGE at the present time (R46). Both distances, of 1 s and of more than 2 s, are from the last accepted edge (DESIGN
CHOICE, log entry 101). -/
def ppsIn (s : State) : State :=
  let now := s.now
  let ok := match s.tb.pps with
    | none => true
    | some p =>
      let d := (BitVec.ofNat 64 now - BitVec.ofNat 64 p).toInt.natAbs
      decide (2000000000 < d) || decide (((d : Int) - 1000000000).natAbs ≤ 1000000)
  if ok then
    let s := s.modTb (fun t => { t with pps := some now })
    let m := now % 1000000000
    servoMeasure s 1 (if m < 500000000 then m else (m : Int) - 1000000000)
  else s.raise Fld.TB_EVENTS_PPS_REJECT

/-! ### PPS_OUT (R422) -/

/-- PPS_OUT_RISE: TIME_NS has just reached a whole second. -/
def ppsRise (s : State) : State :=
  if s.isSet Fld.TB_CTRL_PPS_OUT_EN && !s.tb.ppsOut && decide (s.now % 1000000000 ≤ 1) && decide (devReady ≤ s.devState) then
    (s.modTb (fun t => { t with ppsOut := true })).emit (.ppsOut true)
  else s

/-- PPS_OUT_FALL. -/
def ppsFall (s : State) : State :=
  if s.tb.ppsOut then (s.modTb (fun t => { t with ppsOut := false })).emit (.ppsOut false) else s

/-! ### The timebase's part of a tick edge (R32, R34, R35 step 1, R39) -/

/-- The edge: TIME_NS reaches its grid point, TICKNO advances, a captured schedule becomes active, a pending TICK_CFG takes
effect if the active schedule fits it, and KEY_CFG.OFFSET_NS takes effect. -/
def tbEdge (s : State) : State :=
  let g := nextGrid s
  let s := s.pass (g - s.now)
  let s := s.modTb (fun t => { t with used := some (g % 2 ^ 64), edgeNs := s.now, begun := true, served := [] })
  let s := s.put Fld.TICKNO_TICKNO (s.tick + 1)
  let s := match s.tb.sched with
    | some l => (s.modTb (fun t => { t with sched := none, active := l })).clear Fld.LS_CTRL_PENDING
    | none => s
  let s := match s.tb.cfg with
    | some (us, ph) =>
      if lsFits s s.tb.active (us * 1000) then
        (s.modTb (fun t => { t with cfg := none, period := us * 1000, phase := ph, notBefore := s.now + 10000 })).clear
          Fld.TB_STATUS_CFG_PENDING
      else s
    | none => s
  s.modTb (fun t => { t with keyOff := s.get Fld.KEY_CFG_OFFSET_NS })

end Sys2Proof.Machine
end

