-- ==== Sys2Proof/Machine/WorkQueues.lean ====
section
/-!
DEFINITION. Work queues, the arbiter, completions, completion rings and the state of the host function (03, R54–R88; 14, R326).
-/
namespace Sys2Proof.Machine

/-! ### The entry (R58, R62) -/

/-- Fields of a work entry. -/
def WorkEntry.opcode (e : WorkEntry) : Nat := leAt e.bytes 1 1
def WorkEntry.chan (e : WorkEntry) : Nat := leAt e.bytes 2 1
def WorkEntry.flags (e : WorkEntry) : Nat := leAt e.bytes 3 1
/-- An operand of `n` bytes at an offset. -/
def WorkEntry.arg (e : WorkEntry) (off n : Nat) : Nat := leAt e.bytes off n

def opRouteStart : Nat := 0x01
def opRouteResume : Nat := 0x02
def opRouteSuspend : Nat := 0x03
def opRouteHalt : Nat := 0x04
def opChanEnable : Nat := 0x05
def opChanDisable : Nat := 0x06
def opChanReseat : Nat := 0x07
def opKeeperLoad : Nat := 0x08
def opKeeperThread : Nat := 0x09
def opStreamDefine : Nat := 0x0C
def opStreamClose : Nat := 0x0D
def opKeystoneLoad : Nat := 0x10
def opReadback : Nat := 0x14
def opRegBatch : Nat := 0x18
def opConfigWrite : Nat := 0x1C
def opFirmwareStage : Nat := 0x20
def opSnapshot : Nat := 0x24
def opFence : Nat := 0x30

/-- Operand bytes an opcode defines: offset and size; `none` for an undefined opcode. -/
def opOperands (o : Nat) : Option (List (Nat × Nat)) :=
  match o with
  | 0x01 => some [(24, 8), (32, 2)]
  | 0x02 | 0x03 | 0x04 | 0x05 | 0x06 => some []
  | 0x07 => some [(24, 1)]
  | 0x08 => some [(24, 8), (32, 4)]
  | 0x09 => some [(24, 1), (25, 1), (26, 2)]
  | 0x0C => some [(24, 1), (32, 8), (40, 2)]
  | 0x0D => some [(24, 1)]
  | 0x10 => some [(24, 1), (32, 8), (40, 2)]
  | 0x14 => some [(24, 1), (32, 8), (40, 8), (48, 4)]
  | 0x18 => some [(24, 2), (32, 8)]
  | 0x1C => some [(24, 8), (32, 4)]
  | 0x20 => some [(24, 8), (32, 4)]
  | 0x24 => some [(24, 6), (32, 4), (40, 8), (48, 4)]
  | 0x30 => some [(24, 1)]
  | _ => none

/-- An opcode that names a channel. -/
def opNamesChan (o : Nat) : Bool := decide (o ≤ 0x09)

/-- A long operation (R81). -/
def opLong (o : Nat) : Bool :=
  o == opKeeperLoad || o == opConfigWrite || o == opFirmwareStage || o == opSnapshot || o == opReadback

/-! ### Malformed entries (R73, R74) -/

/-- Byte `i` of an entry must be zero, in the bits given, under CHK = `chk`. -/
def reservedMask (ops : List (Nat × Nat)) (chk : Bool) (i : Nat) : Nat :=
  if i = 0 then 0x3F
  else if i = 3 then 0xFC
  else if 8 ≤ i ∧ i ≤ 23 then 0xFF
  else if 24 ≤ i ∧ i ≤ 62 then (if ops.any (fun o => decide (o.1 ≤ i ∧ i < o.1 + o.2)) then 0 else 0xFF)
  else if i = 63 then (if chk then 0 else 0xFF)
  else 0

/-- REASON and BYTE of a malformed entry; REASON 0 when it is well-formed. -/
def malformed (b : List Byte) (chk : Bool) : Nat × Nat :=
  match opOperands (leAt b 1 1) with
  | none => (1, 1)
  | some ops =>
    match (List.range 64).find? (fun i => (leAt b i 1) &&& reservedMask ops chk i != 0) with
    | some i => (2, i)
    | none =>
      let c := leAt b 2 1
      if opNamesChan (leAt b 1 1) then
        (if 56 ≤ c then (3, 2) else if chk && (crc8 (bsub b 1 62)).toNat != leAt b 63 1 then (4, 63) else (0, 0))
      else
        (if c ≠ 0xFF then (3, 2) else if chk && (crc8 (bsub b 1 62)).toNat != leAt b 63 1 then (4, 63) else (0, 0))

/-- A malformed entry halts the device (R74). -/
def malfHalt (s : State) (n idx : Nat) (b : List Byte) (reason byte : Nat) : State :=
  let s := (s.put Fld.MALF_INFO_WQ n).put Fld.MALF_INFO_REASON reason
  let s := ((s.put Fld.MALF_INFO_BYTE byte).put Fld.MALF_INFO_INDEX idx).put Fld.MALF_TICK_TICK s.tick
  let s := (List.range 8).foldl (fun s k => s.put (Fld.MALF_ENTRY_BYTES k) (leAt b (8 * k) 8)) s
  let info := n + reason * 2 ^ 8 + byte * 2 ^ 16 + idx * 2 ^ 32
  let s := devHaltNow s 1
  let s := thLog s 0xFF 0x0101 (leBytes 8 info ++ leBytes 8 s.tick)
  let s := thLog s 0xFF 0x0102 (bsub b 0 32)
  let s := thLog s 0xFF 0x0103 (bsub b 32 32)
  { s with accepted := [], polls := [] }

/-! ### Polling (R66, R67, R70) -/

/-- Entries of the ring. -/
def wqSize (s : State) (n : Nat) : Nat := 2 ^ s.get (Fld.WQ_CFG_SIZE_LOG2 n)

/-- Expected phase of an index (R55). -/
def phaseOf (size i : Nat) : Nat := 1 - i / size % 2

/-- All dispatched entries that have not completed. -/
def dispatched (s : State) : List WorkEntry := (s.chans.toList.map Chan.cmdq).flatten ++ s.basinq

/-- An entry of queue `n` with index `i` has been accepted and has not completed. -/
def wqOpen (s : State) (n i : Nat) : Bool :=
  (s.accepted ++ dispatched s).any (fun e => e.src = .queue && e.wq == n && e.idx == i)

/-- Length of the window of a poll (R66). An index N or more above CONS has a predecessor that has not even been accepted. -/
def wqWindow (s : State) (n : Nat) : Nat :=
  let cons := s.get (Fld.WQ_CONS_CONS n)
  let d := s.get (Fld.WQ_CFG_PREFETCH_DEPTH n)
  let size := wqSize s n
  let held := (s.accepted.filter (fun e => e.wq == n)).length
  let most := 1 + d - held
  let free (k : Nat) : Bool := decide (k < size) && !wqOpen s n ((cons + k + 2 ^ 32 - size) % 2 ^ 32)
  ((List.range most).takeWhile free).length

/-- Polling goes on (R70, R74, R86). -/
def wqPolls (s : State) (n : Nat) : Bool :=
  s.isSet (Fld.WQ_CFG_EN n) && !s.isSet (Fld.WQ_CONS_FAILED n) && s.hostOk && s.serving
    && !s.polls.any (fun p => p.wq == n)

/-- A poll of queue `n` starts: reads of the window are issued, if it is not empty. -/
def wqIssue (s : State) (n : Nat) : State :=
  let k := wqWindow s n
  let s := { s with wqPolled := SMap.insert s.wqPolled n s.now, wqAgain := s.wqAgain.filter (· != n) }
  if 0 < k then
    let size := wqSize s n
    let base := s.get (Fld.WQ_BASE_ADDR n) * 64
    let cons := s.get (Fld.WQ_CONS_CONS n)
    let a := cons % size
    let k1 := min k (size - a)
    let s := s.emit (.hostRead (base + a * 64) (k1 * 64))
    let s := if k1 < k then s.emit (.hostRead base ((k - k1) * 64)) else s
    { s with polls := s.polls ++ [⟨n, cons, k⟩] }
  else s

/-- TIME_NS at which the next poll of queue `n` falls by POLL_INTERVAL (R67); the first after the enable falls at once. -/
def wqPollTime (s : State) (n : Nat) : Nat :=
  match s.wqPolled.find? (fun p => p.1 == n) with
  | some (_, t) => t + s.get (Fld.WQ_CFG_POLL_INTERVAL n) * 1000
  | none => s.now

/-- WQ_POLL (R67): a poll that starts at once after a whole window, or that POLL_INTERVAL makes due. With POLL_TICK the polls
fall at the tick edges. -/
def wqPoll (s : State) (n : Nat) : State :=
  if !wqPolls s n then s
  else if s.wqAgain.contains n then wqIssue s n
  else if !s.isSet (Fld.WQ_CFG_POLL_TICK n) && s.canReach (wqPollTime s n) then wqIssue (s.advanceTo (wqPollTime s n)) n
  else s

/-- The polls of a tick edge, after step 5 of R35 (R67). -/
def wqTickPolls (s : State) : State :=
  (List.range 256).foldl (fun s n => if s.isSet (Fld.WQ_CFG_POLL_TICK n) && wqPolls s n then wqIssue s n else s) s

/-- The entries a poll has read are examined in index order (R66, R73). -/
def wqAccept (s : State) (n : Nat) (size : Nat) (es : List (Nat × List Byte)) : State :=
  match es with
  | [] => s
  | (i, b) :: rest =>
    if leAt b 0 1 / 128 ≠ phaseOf size i then
      s.put (Fld.WQ_STAT_DISCARDS n) (s.get (Fld.WQ_STAT_DISCARDS n) + 1 + rest.length)
    else
      let next := (i + 1) % 2 ^ 32
      let s := (s.put (Fld.WQ_CONS_CONS n) next).put (Fld.WQ_CONS_PHASE n) (phaseOf size next)
      let s := s.bumpWrap (Fld.WQ_STAT_ACCEPTED n) 1
      let (reason, byte) := malformed b (s.isSet (Fld.WQ_CFG_CHK n))
      if reason ≠ 0 then malfHalt s n i b reason byte
      else
        let slot := s.get (Fld.WQ_BASE_ADDR n) * 64 + i % size * 64
        let e : WorkEntry := ⟨b, .queue, n, i, slot, 0xFF, 0, .queued, [], 0, 0, 0, false, [], false, false⟩
        wqAccept { s with accepted := s.accepted ++ [e] } n size rest

/-- A failed read is reported through AER (R70, R406): an error message, and a bit of the Uncorrectable Error Status. Which of
Poisoned TLP (12), Completion Timeout (14), Completer Abort (15) and Unsupported Request (20) it is, is free (log entry 103). -/
def aerReport (s : State) : State :=
  let (n, s) := s.drawFree
  let b := [12, 14, 15, 20].getD ((Config.freeWord n).toNat % 4) 12
  (s.modHost (fun h => { h with aer := h.aer ||| 2 ^ b })).emit .aer

/-- A whole window was accepted that only PREFETCH_DEPTH bounded: the next poll starts at once (R67). -/
def wqWhole (s : State) (n : Nat) (p : Poll) : State :=
  if p.count = 1 + s.get (Fld.WQ_CFG_PREFETCH_DEPTH n) ∧ s.get (Fld.WQ_CONS_CONS n) = (p.first + p.count) % 2 ^ 32 then
    { s with wqAgain := s.wqAgain.filter (· != n) ++ [n] }
  else s

/-- WQ_POLL_RETURN: the poll of queue `n` returns. -/
def wqReturn (s : State) (n : Nat) (data : HostRd) : State :=
  match s.polls.find? (fun p => p.wq == n) with
  | none => s
  | some p =>
    let s := { s with polls := s.polls.filter (fun p => p.wq != n) }
    match data with
    | .fail => aerReport ((s.raise (Fld.WQ_CONS_FAILED n)).raise Fld.WQ_EVT_POLL_FAIL)
    | .ok bs =>
      wqWhole (wqAccept s n (wqSize s n) ((List.range p.count).map (fun k =>
        ((p.first + k) % 2 ^ 32, bsub (bs ++ zeros (64 * p.count)) (64 * k) 64)))) n p

/-! ### Arbitration and dispatch (R71, R72, R82) -/

/-- Entries of a queue that are dispatched and have not completed. -/
def ownEntries (s : State) (n : Nat) : List WorkEntry := (dispatched s).filter (fun e => e.src = .queue && e.wq == n)

/-- Long operations that run. -/
def longRunning (s : State) : Nat := ((dispatched s).filter (fun e => opLong e.opcode && e.stage = .running)).length

/-- A dispatched long operation waits only for its turn under R82. -/
def longWaits (s : State) (x : WorkEntry) : Bool :=
  opLong x.opcode && x.stage = .queued &&
    (if h : x.chan < 56 then ((s.ch ⟨x.chan, h⟩).cmdq.headD x).serial == x.serial
     else !s.basinq.any (fun y => y.opcode == x.opcode && decide (y.serial < x.serial)
       && (y.stage = .queued || (x.opcode == opReadback && y.arg 24 1 == x.arg 24 1))))

/-- A long operation waits under R82: those that run and those dispatched before it that wait are 8. -/
def longHeld (s : State) (x : WorkEntry) : Bool :=
  opLong x.opcode && x.stage = .queued
    && decide (8 ≤ longRunning s + ((dispatched s).filter (fun y => decide (y.serial < x.serial) && longWaits s y)).length)

/-- The queue's next entry cannot be dispatched. -/
def wqBlocked (s : State) (n : Nat) (e : WorkEntry) : Bool :=
  let own := ownEntries s n
  let full := if h : e.chan < 56 then decide (8 ≤ (s.ch ⟨e.chan, h⟩).cmdq.length) else decide (64 ≤ s.basinq.length)
  full || own.any (fun x => x.opcode == opFence)
    || (opLong e.opcode && own.any (fun x => opLong x.opcode))
    || own.any (fun x => longHeld s x)

/-- The next entry of a queue. -/
def wqHead (s : State) (n : Nat) : Option WorkEntry := s.accepted.find? (fun e => e.wq == n)

/-- A queue may dispatch now: it holds an accepted entry that is not blocked, and a credit. -/
def wqReady (s : State) (credits : List Nat) (n : Nat) : Bool :=
  match wqHead s n with
  | some e => decide (0 < credits.getD n 0) && !wqBlocked s n e
  | none => false

/-- A queue that holds accepted entries has credits left: the round goes on (R71 step 3). -/
def roundOpen (s : State) : Bool :=
  s.accepted.any (fun e => decide (0 < s.arb.credits.getD e.wq 0))

/-- A round that has ended leaves no credits behind, and a visit ends at once when the queue's next entry cannot be dispatched or there
is none (R71). -/
def arbSettle (s : State) : State :=
  let a := s.arb
  let a := if 0 < a.left ∧ !wqReady s a.credits a.pos then { a with pos := (a.pos + 1) % 256, left := 0 } else a
  { s with arb := if roundOpen s then a else { a with credits := [] } }

/-- A new round (R71 step 1). A visit that the last round cut short has ended. -/
def newRound (s : State) : Arbiter :=
  { s.arb with pos := if 0 < s.arb.left then (s.arb.pos + 1) % 256 else s.arb.pos
               credits := (List.range 256).map (fun n => s.get (Fld.WQ_ARB_WEIGHT n))
               bursts := (List.range 256).map (fun n => s.get (Fld.WQ_ARB_BURST n)), left := 0 }

/-- The queue the arbiter takes: the one being visited while its burst lasts, else the next in cyclic order. -/
def arbPick (s : State) (a : Arbiter) : Option (Nat × Nat) :=
  if 0 < a.left ∧ wqReady s a.credits a.pos then some (a.pos, a.left)
  else
    let from_ := if 0 < a.left then a.pos + 1 else a.pos
    ((List.range 256).map (fun k => (from_ + k) % 256)).find? (wqReady s a.credits) |>.map (fun n => (n, a.bursts.getD n 1))

/-- An entry goes into its command queue. -/
def enqueue (s : State) (e : WorkEntry) : State :=
  if h : e.chan < 56 then s.modCh ⟨e.chan, h⟩ (fun x => { x with cmdq := x.cmdq ++ [e] })
  else { s with basinq := s.basinq ++ [e] }

/-- Remove the first element that satisfies a test. -/
def eraseFirst {α : Type} (p : α → Bool) (l : List α) : List α :=
  match l with
  | [] => []
  | a :: t => if p a then t else a :: eraseFirst p t

/-- Dispatch the next entry of queue `n`, whose visit has `left` entries to go. -/
def wqDispatch (s : State) (a : Arbiter) (n left : Nat) : State :=
  match wqHead s n with
  | none => s
  | some e =>
    let waits := if e.opcode = opFence then
        ((dispatched s).filter (fun x => x.src = .queue && (leAt e.bytes 24 1 == 1 || x.wq == n))).map WorkEntry.serial
      else []
    let e := { e with ring := s.get (Fld.WQ_CFG_CR n), serial := s.serial, waits := waits, waited := waits.length }
    let left := left - 1
    let a := { a with credits := a.credits.set n (a.credits.getD n 0 - 1), pos := if left = 0 then (n + 1) % 256 else n
                      left := left }
    let s := { s with accepted := eraseFirst (fun x => x.wq == n) s.accepted, serial := s.serial + 1, arb := a }
    let s := if opLong e.opcode then s.raise (Fld.WQ_CONS_LONG_ACTIVE n) else s
    arbSettle (enqueue s e)

/-- ENTRY_DISPATCH: the arbiter dispatches one entry. A round ends when no queue that holds accepted entries has credits left, a
queue whose next entry cannot be dispatched included (R71). -/
def entryDispatch (s : State) : State :=
  if s.serving && s.hostOk then
    let s := arbSettle s
    match arbPick s s.arb with
    | some (n, left) => wqDispatch s s.arb n left
    | none =>
      let a := newRound s
      if roundOpen s then s
      else match arbPick s a with
      | some (n, left) => wqDispatch s a n left
      | none => s
  else s

/-! ### Queue configuration (R56, R57, R87) -/

/-- Ranges of a WQ_CFG write. -/
def wqCfgRange (v : Nat) : Bool :=
  decide (4 ≤ bf v 4 5 ∧ bf v 4 5 ≤ 16) && bf v 16 16 != 0 && decide (bf v 32 5 ≤ 16)
    && (decide (bf v 40 8 < 64) || bf v 40 8 == 255)

/-- A queue's poll times begin anew. -/
def wqForget (s : State) (n : Nat) : State :=
  { s with wqPolled := SMap.erase s.wqPolled n, wqAgain := s.wqAgain.filter (· != n) }

/-- WQ_DISABLE (R87): undispatched entries are dropped. -/
def wqDrop (s : State) (n : Nat) : State :=
  arbSettle { wqForget s n with accepted := s.accepted.filter (fun e => e.wq != n), polls := s.polls.filter (fun p => p.wq != n) }

/-- WQ_ENABLE (R57). -/
def wqStart (s : State) (n : Nat) : State :=
  let s := wqForget s n
  let s := ((s.put (Fld.WQ_CONS_CONS n) 0).put (Fld.WQ_CONS_PHASE n) 1).clear (Fld.WQ_CONS_FAILED n)
  (s.put (Fld.WQ_STAT_ACCEPTED n) 0).put (Fld.WQ_STAT_DISCARDS n) 0

/-- A write of WQ_CFG. -/
def wrWqCfg (s : State) (n v : Nat) : Wr :=
  let en := bit v 0
  let was := s.isSet (Fld.WQ_CFG_EN n)
  if (was && en) || !wqCfgRange v then .refused
  else if en && bf v 40 8 != 255 && !s.isSet (Fld.CR_CFG_EN (bf v 40 8)) then .refused
  else
    let s := regApply s (Reg.WQ_CFG n) v
    .ok (if en then wqStart s n else if was then wqDrop s n else s)

/-- A write of WQ_BASE. -/
def wrWqBase (s : State) (n v : Nat) : Wr :=
  if s.isSet (Fld.WQ_CFG_EN n) then .refused else .ok (regApply s (Reg.WQ_BASE n) v)

/-- A write of WQ_ARB. -/
def wrWqArb (s : State) (n v : Nat) : Wr :=
  if bf v 0 8 = 0 ∨ bf v 8 7 = 0 ∨ 64 < bf v 8 7 then .refused else .ok (regApply s (Reg.WQ_ARB n) v)

/-! ### Completion rings (R77–R80) -/

def crSize (s : State) (r : Nat) : Nat := 2 ^ s.get (Fld.CR_CFG_SIZE_LOG2 r)

/-- A completion write is issued, or held while the host may not be written (R86). -/
def compWrite (s : State) (addr : Nat) (data : List Byte) : State :=
  if s.hostOk && s.host.held.isEmpty then s.hostWrite addr data
  else s.modHost (fun h => { h with held := h.held ++ [⟨addr, data⟩] })

/-- Records a ring holds. -/
def crHeld (s : State) (r : Nat) : Nat := (s.get (Fld.CR_TAIL_TAIL r) + 2 ^ 32 - s.get (Fld.CR_HEAD_HEAD r)) % 2 ^ 32

/-- Write a record at TAIL: its bytes 0–6, flags without PHASE, and bytes 8–15. -/
def crPut (s : State) (r : Nat) (lo : List Byte) (flags : Nat) (hi : List Byte) : State :=
  let t := s.get (Fld.CR_TAIL_TAIL r)
  let size := crSize s r
  let ph := phaseOf size t
  let s := compWrite s (s.get (Fld.CR_BASE_ADDR r) * 64 + t % size * 16) (lo ++ leBytes 1 (flags + 128 * ph) ++ hi)
  s.put (Fld.CR_TAIL_TAIL r) (t + 1)

/-- The GAP record, when completions have been suppressed and there is room (R79). -/
def crGapPut (s : State) (r : Nat) : State :=
  if s.isSet (Fld.CR_TAIL_GAP_PENDING r) && decide (crHeld s r < crSize s r) then
    let n := s.get (Fld.CR_OVF_PENDING r)
    let s := crPut s r (leBytes 4 n ++ leBytes 2 0xFFFF ++ leBytes 1 0x3F) 0
      (leBytes 6 (SMap.get 0 s.crGap r) ++ leBytes 1 0xFF ++ zeros 1)
    let s := (s.put (Fld.CR_OVF_PENDING r) 0).clear (Fld.CR_TAIL_GAP_PENDING r)
    let s := { s with crGap := SMap.erase s.crGap r }
    if s.get (Fld.CR_CFG_IRQ_MODE r) = 0 then s else s.raise (Fld.CR_EVT_GAP r)
  else s

/-- The record of a completion (R77, R79). -/
def crRecord (s : State) (e : WorkEntry) (status : Nat) : State :=
  let r := e.ring
  if 64 ≤ r ∨ bit e.flags 0 ∨ !s.isSet (Fld.CR_CFG_EN r) then s
  else
    let s := crGapPut s r
    if crSize s r ≤ crHeld s r ∨ s.isSet (Fld.CR_TAIL_GAP_PENDING r) then
      let s := if s.isSet (Fld.CR_TAIL_GAP_PENDING r) then s else { s with crGap := SMap.insert s.crGap r s.tick }
      ((s.bumpSat (Fld.CR_OVF_TOTAL r) 1).bumpSat (Fld.CR_OVF_PENDING r) 1).raise (Fld.CR_TAIL_GAP_PENDING r)
    else
      let notify := bit e.flags 1
      let s := crPut s r (bsub e.bytes 4 4 ++ leBytes 2 e.wq ++ leBytes 1 status) (b2n notify + 2 * b2n (opLong e.opcode))
        (leBytes 6 s.tick ++ bsub e.bytes 2 1 ++ zeros 1)
      let m := s.get (Fld.CR_CFG_IRQ_MODE r)
      if m = 1 ∨ (m = 2 ∧ notify) then s.raise (Fld.CR_EVT_RECORD r) else s

/-- Ranges of a CR_CFG write. -/
def crCfgRange (v : Nat) : Bool := decide (4 ≤ bf v 4 5 ∧ bf v 4 5 ≤ 16) && bf v 10 2 != 3

/-- An enabled queue names the ring. -/
def crNamed (s : State) (r : Nat) : Bool :=
  (List.range 256).any (fun n => s.isSet (Fld.WQ_CFG_EN n) && s.get (Fld.WQ_CFG_CR n) == r)

/-- CR_ENABLE (R78). -/
def crStart (s : State) (r : Nat) : State :=
  let s := ((s.put (Fld.CR_TAIL_TAIL r) 0).clear (Fld.CR_TAIL_GAP_PENDING r)).put (Fld.CR_HEAD_HEAD r) 0
  let s := (s.put (Fld.CR_OVF_TOTAL r) 0).put (Fld.CR_OVF_PENDING r) 0
  { s with crGap := SMap.erase s.crGap r }

/-- A write of CR_CFG. -/
def wrCrCfg (s : State) (r v : Nat) : Wr :=
  let en := bit v 0
  let was := s.isSet (Fld.CR_CFG_EN r)
  if (was && en) || !crCfgRange v || (was && crNamed s r) then .refused
  else
    let s := regApply s (Reg.CR_CFG r) v
    .ok (if en then crStart s r else s)

/-- A write of CR_BASE. -/
def wrCrBase (s : State) (r v : Nat) : Wr :=
  if s.isSet (Fld.CR_CFG_EN r) then .refused else .ok (regApply s (Reg.CR_BASE r) v)

/-- A write of CR_HEAD (R78). A pending GAP record is written into a ring whose CR_CFG.EN is 0 as well (DESIGN CHOICE, log entry
104). A refused write sets HEAD_BAD and, as every refused write of R78, STATE_WRITE. -/
def wrCrHead (s : State) (r v : Nat) : Wr :=
  let t := s.get (Fld.CR_TAIL_TAIL r)
  let h := s.get (Fld.CR_HEAD_HEAD r)
  let new := bf v 0 32
  if (t + 2 ^ 32 - new) % 2 ^ 32 ≤ (t + 2 ^ 32 - h) % 2 ^ 32 then .ok (crGapPut (s.put (Fld.CR_HEAD_HEAD r) new) r)
  else .own (pageErr (s.raise (Fld.CR_EVT_HEAD_BAD r)) (Reg.CR_HEAD r) errState)

/-! ### Completing entries (R59, R76, R81) -/

/-- Remove an entry from the command queue that holds it. -/
def dequeue (s : State) (e : WorkEntry) : State :=
  if h : e.chan < 56 then s.modCh ⟨e.chan, h⟩ (fun x => { x with cmdq := x.cmdq.filter (fun y => y.serial != e.serial) })
  else { s with basinq := s.basinq.filter (fun y => y.serial != e.serial) }

/-- An entry completes with a status and the 8 bytes of its result: in place, then in its ring. Entries that no queue gave
have nowhere to be written (R114). -/
def complete (s : State) (e : WorkEntry) (status : Nat) (result : List Byte) : State :=
  let s := dequeue s e
  if e.src ≠ .queue then s
  else
    let own := leAt e.bytes 0 1 / 128
    let s := compWrite s (e.slot + 1) (leBytes 1 status ++ bsub e.bytes 2 6 ++ (result ++ zeros 8).take 8 ++ leBytes 8 s.now)
    let s := compWrite s e.slot (leBytes 1 (own * 192 + leAt e.bytes 0 1 % 64))
    let s := crRecord s e status
    if opLong e.opcode then s.clear (Fld.WQ_CONS_LONG_ACTIVE e.wq) else s

/-- A long operation completes with its step counts (R81). -/
def completeLong (s : State) (e : WorkEntry) (status : Nat) : State :=
  complete s e status (leBytes 4 e.done ++ leBytes 4 e.total)

/-- Replace an entry in its command queue. -/
def updEntry (s : State) (e : WorkEntry) : State :=
  if h : e.chan < 56 then
    s.modCh ⟨e.chan, h⟩ (fun x => { x with cmdq := x.cmdq.map (fun y => if y.serial = e.serial then e else y) })
  else { s with basinq := s.basinq.map (fun y => if y.serial = e.serial then e else y) }

/-- IN_PROGRESS is written after a tick in which steps finished (R81). -/
def longProgress (s : State) (e : WorkEntry) : State :=
  if e.stepped then
    let s := updEntry s { e with stepped := false }
    if e.src = .queue && s.hostOk then
      s.hostWrite (e.slot + 1) (leBytes 1 St.inProgress ++ bsub e.bytes 2 6 ++ leBytes 4 e.done ++ leBytes 4 e.total)
    else s
  else s

/-- IN_PROGRESS of every long operation, at a tick edge. -/
def longAtEdge (s : State) : State :=
  ((dispatched s).filter (fun e => opLong e.opcode)).foldl longProgress s

/-- A Basin entry by its dispatch number and opcode. -/
def basinEntry (s : State) (serial opc : Nat) : Option WorkEntry :=
  s.basinq.find? (fun e => e.serial == serial && e.opcode == opc)

/-- The entry at the head of a channel's command queue, if it has an opcode. -/
def chanHead (s : State) (c : Fin 56) (opc : Nat) : Option WorkEntry :=
  match (s.ch c).cmdq with
  | e :: _ => if e.opcode = opc then some e else none
  | [] => none

/-- The head of a channel's queue that has not started. -/
def chanStart (s : State) (c : Fin 56) (opc : Nat) (f : WorkEntry → State) : State :=
  match chanHead s c opc with
  | some e => if e.stage = .queued then f e else s
  | none => s

/-- A Basin entry that has not started and may start (R72): every earlier entry of its opcode has started, and none that
names the same object is still there. `key` is the object an entry names. -/
def basinStart (s : State) (serial opc : Nat) (key : WorkEntry → Option Nat) (f : WorkEntry → State) : State :=
  match basinEntry s serial opc with
  | some e =>
    let before := s.basinq.filter (fun x => x.opcode == opc && decide (x.serial < serial))
    if e.stage = .queued && before.all (fun x => x.stage ≠ .queued)
        && !before.any (fun x => key x != none && key x == key e) then f e else s
  | none => s

/-! ### Long operations (R81, R82, R86) -/

/-- Steps of an operation of `len` bytes. -/
def stepsOf (len : Nat) : Nat := (len + 4095) / 4096

/-- A long operation of `len` bytes completes without having started. -/
def longRefuse (s : State) (e : WorkEntry) (status len : Nat) : State :=
  complete s e status (leBytes 4 0 ++ leBytes 4 (stepsOf len))

/-- A long operation of `len` bytes starts. While the host port issues no requests it stands at a step boundary. -/
def longStart (s : State) (e : WorkEntry) (len : Nat) : State :=
  updEntry s { e with stage := .running, total := stepsOf len, idle := !s.hostOk }

/-- The turn of a long operation: fewer than 8 run, and none dispatched before it waits. -/
def longTurn (s : State) (e : WorkEntry) : Bool :=
  decide (longRunning s < 8) && !(dispatched s).any (fun x => decide (x.serial < e.serial) && longWaits s x)

/-- A step of a long operation with operand address `a` can be carried out: without the host's leave to issue requests, only a
step already in progress, and only on device memory (R86). -/
def longMay (s : State) (e : WorkEntry) (a : Nat) : Bool := s.hostOk || (!e.idle && decide (a < 2 ^ 63))

/-- A step has been done. -/
def longStepped (s : State) (e : WorkEntry) : WorkEntry := { e with done := e.done + 1, stepped := true, idle := !s.hostOk }

/-- Host operand data cannot be read now: the entry waits (R86). -/
def operandWaits (s : State) (a : Nat) : Bool := decide (2 ^ 63 ≤ a) && !s.hostOk

/-- Long operations go on when the host port may issue requests again. -/
def longsResume (s : State) : State :=
  ((dispatched s).filter (fun e => e.idle)).foldl (fun s e => updEntry s { e with idle := false }) s

/-- FENCE (R83): its wait began at dispatch; SCOPE is checked. -/
def fenceStart (s : State) (serial : Nat) : State :=
  match basinEntry s serial opFence with
  | some e =>
    if e.stage = .queued then
      (if 1 < e.arg 24 1 then complete s e St.badOperand [] else updEntry s { e with stage := .running })
    else s
  | none => s

/-- FENCE_COMPLETE (R83). -/
def fenceComplete (s : State) (serial : Nat) : State :=
  match basinEntry s serial opFence with
  | some e =>
    if e.stage = .running && e.waits.all (fun w => !(dispatched s).any (fun x => x.serial == w)) then
      complete s e St.ok (leBytes 4 e.waited)
    else s
  | none => s

/-! ### The host function (R86, R326, R356) -/

/-- Held completions are written in their original order; long operations go on. -/
def heldFlush (s : State) : State :=
  if s.hostOk then
    longsResume (s.host.held.foldl (fun s w => s.hostWrite w.addr w.data) (s.modHost (fun h => { h with held := [] })))
  else s

/-- Reads in flight are lost when the host can no longer be reached. -/
def pollsLost (s : State) : State := if s.hostOk then s else { s with polls := [] }

/-- The write to configuration space that a row stands for: before READY it is to be retried (R358, R407). -/
def inConfig (s : State) (f : State → State) : State := if s.devState = devSelftest then s.emit .configRetry else f s

/-- HOST_D3HOT_ENTRY. -/
def hostD3 (s : State) : State := pollsLost (s.modHost (fun h => { h with d3hot := true }))

/-- HOST_D0_RETURN. -/
def hostD0 (s : State) : State := heldFlush (s.modHost (fun h => { h with d3hot := false }))

/-- HOST_BME_CLEAR. -/
def hostBmeClear (s : State) : State := pollsLost (s.modHost (fun h => { h with bme := false }))

/-- BUS_MASTER_ENABLE_SET. -/
def hostBmeSet (s : State) : State := heldFlush (s.modHost (fun h => { h with bme := true }))

/-- HOST_LINK_UP: the link comes up; configuration requests are answered. -/
def hostLinkUp (s : State) : State := heldFlush (s.modHost (fun h => { h with link := true }))

/-- Hot reset or link down (R326): the MSI-X table and capability return to their reset values and the host vector stacks
are emptied. -/
def hostHotReset (s : State) : State :=
  let s := s.modHost (fun h => { h with msix := [], msixEn := false, fnMask := false })
  s.modIc (fun ic => { ic with stackTab := ic.stackTab.filter (fun p => decide (0x40 ≤ p.1)) })

/-- HOST_LINK_DOWN and HOST_PERST. -/
def hostLinkDown (s : State) : State := pollsLost (hostHotReset (s.modHost (fun h => { h with link := false })))

/-- PME_REPEAT (R326). -/
def pmeRepeat (s : State) : State :=
  if s.host.pmeStatus && s.host.pmeEn && hostHeld s then s.emit .pmPme else s

end Sys2Proof.Machine
end

