-- ==== Sys2Proof/Machine/Admission.lean ====
section
/-!
DEFINITION. Orders and the route checker (04, R88–R99, R108, R109).
-/
namespace Sys2Proof.Machine

/-! ### The order (R90) -/

/-- An order from its 32 bytes. -/
def orderOf (b : List Byte) : Order :=
  ⟨BitVec.ofNat 64 (leAt b 0 8), BitVec.ofNat 64 (leAt b 8 8), BitVec.ofNat 64 (leAt b 16 8), BitVec.ofNat 64 (leAt b 24 8)⟩

def Order.op (o : Order) : Nat := bf o.w0.toNat 0 8
def Order.flags (o : Order) : Nat := bf o.w0.toNat 8 8
def Order.cn (o : Order) : Bool := bit o.flags 0
def Order.cd (o : Order) : Bool := bit o.flags 1
def Order.sk (o : Order) : Bool := bit o.flags 2
def Order.su (o : Order) : Bool := bit o.flags 3
def Order.ps (o : Order) : Bool := bit o.flags 4
def Order.nt (o : Order) : Bool := bit o.flags 5
def Order.tk (o : Order) : Bool := bit o.flags 6
def Order.count (o : Order) : Nat := bf o.w0.toNat 16 16
def Order.param (o : Order) : Nat := bf o.w0.toNat 32 32
def Order.addr (o : Order) : Nat := o.w1.toNat
def Order.word2 (o : Order) : Nat := o.w2.toNat
/-- Target of a JUMP or LOOP. -/
def Order.target (o : Order) : Nat := bf o.param 0 10

/-- The hash of words 0 to 2 (R108). -/
def Order.hash (o : Order) : Half := crc16 (leBytes 8 o.w0.toNat ++ leBytes 8 o.w1.toNat ++ leBytes 8 o.w2.toNat)

def oContinue : Nat := 0x00
def oReceive : Nat := 0x01
def oTransmit : Nat := 0x02
def oExchange : Nat := 0x03
def oControl : Nat := 0x04
def oSense : Nat := 0x05
def oWait : Nat := 0x06
def oJump : Nat := 0x07
def oCall : Nat := 0x08
def oPublish : Nat := 0x09
def oSkipif : Nat := 0x0A
def oMark : Nat := 0x0B
def oLoop : Nat := 0x0C
def oStop : Nat := 0x0F

/-- A defined opcode (R91). -/
def opDefined (op : Nat) : Bool := decide (op ≤ 0x0C) || op == 0x0F

/-- The head of a data chain can be RECEIVE or TRANSMIT only, and CONTINUE carries it on (R92). -/
def Order.chains (o : Order) : Bool := o.cd && decide (o.op ≤ 2)

/-! ### Checks of one order (R91, R92, R97, R99) -/

/-- The flags an opcode allows, and those it requires. -/
def flagMask (op : Nat) : Nat :=
  match op with
  | 0x00 => 0x06
  | 0x01 => 0x7F
  | 0x02 => 0x7B
  | 0x03 => 0x7D
  | 0x07 => 0x78
  | 0x0F => 0x30
  | _ => 0x79
def flagNeed (op : Nat) : Nat := if op = oSkipif ∨ op = oLoop then 1 else 0

/-- PARAM bits an opcode uses. -/
def paramMask (op : Nat) : Nat :=
  match op with
  | 0x01 => 0x1FF
  | 0x02 => 0xFF
  | 0x03 => 0xFFFF
  | 0x04 => 0xFFFF
  | 0x05 => 0xFFFF
  | 0x07 => 0x3FF
  | 0x08 => 0xFFFFFF07
  | 0x09 => 0x1FF
  | 0x0A => 0xFF0F
  | 0x0B => 0xFFFFFFFF
  | 0x0C => 0x3FF
  | _ => 0

/-- Range of COUNT; (0, 0) where it must be zero. -/
def countRange (op : Nat) : Nat × Nat :=
  match op with
  | 0x00 | 0x01 | 0x02 | 0x06 | 0x0C => (1, 65535)
  | 0x03 => (1, 4096)
  | 0x05 => (8, 4096)
  | 0x08 => (0, 4096)
  | 0x0A => (1, 1023)
  | _ => (0, 0)

/-- Bits of a SKIPIF's WORD2 that must be zero (R99). -/
def condZero (cond w : Nat) : Bool :=
  match cond with
  | 0 | 1 | 2 => w == 0
  | 3 | 4 => bf w 12 20 == 0
  | 5 => bf w 8 56 == 0
  | 6 | 7 => bf w 6 58 == 0
  | _ => true

/-- Fields that must be zero are (REASON 2). -/
def fieldsZero (o : Order) : Bool :=
  let op := o.op
  let addrUsed := (op == oContinue || op == oReceive) && !o.sk || op == oTransmit || op == oExchange || op == oSense
    || (op == oCall && o.count != 0)
  let w2Used := (op == oExchange && !o.sk) || op == oControl || op == oCall || op == oSkipif || op == oMark
  o.flags &&& flagMask op == o.flags && o.flags &&& flagNeed op == flagNeed op
    && o.param &&& paramMask op == o.param
    && ((countRange op).2 != 0 || o.count == 0)
    && (addrUsed || o.addr == 0) && (w2Used || o.word2 == 0)
    && (op != oSkipif || condZero (bf o.param 0 4) o.word2)

/-- A buffer lies in usable DRAM below the device region, or in host space below 2^63 (R91, R285). -/
def bufOk (s : State) (a n : Nat) : Bool :=
  if 2 ^ 63 ≤ a then decide (a % 2 ^ 63 + n ≤ 2 ^ 63) else s.dramFree a n

/-- Operands lie in their ranges (REASON 3). -/
def rangesOk (s : State) (o : Order) : Bool :=
  let op := o.op
  let (lo, hi) := countRange op
  let cond := bf o.param 0 4
  (hi == 0 || (decide (lo ≤ o.count) && decide (o.count ≤ hi)))
    && (op != oSense || o.count % 8 == 0)
    && (op != oSkipif || (decide (cond < 8) && (cond != 5 || decide (bf o.word2 0 8 < 64))))
    && (!((op == oContinue || op == oReceive) && !o.sk || op == oTransmit || op == oExchange || op == oSense
          || (op == oCall && o.count != 0)) || bufOk s o.addr o.count)
    && (!(op == oExchange && !o.sk) || bufOk s o.word2 o.count)

/-! ### The walk (R93, R96, R108 step 1) -/

/-- The order fetched for an index. -/
def nodeAt (ns : List (Nat × Order)) (i : Nat) : Option Order := (ns.find? (fun p => p.1 == i)).map (·.2)

/-- The head of the data chain that order `i` belongs to. -/
def chainHead (ns : List (Nat × Order)) (fuel i : Nat) : Option (Nat × Order) :=
  match fuel, i with
  | 0, _ => none
  | _, 0 => none
  | k + 1, j + 1 =>
    match nodeAt ns j with
    | some o => if !o.chains then none else if o.op = oContinue then chainHead ns k j else some (j, o)
    | none => none

/-- Last index of the data chain that starts at `i`. -/
def chainEnd (ns : List (Nat × Order)) (fuel i : Nat) : Nat :=
  match fuel with
  | 0 => i
  | k + 1 =>
    match nodeAt ns i, nodeAt ns (i + 1) with
    | some o, some n => if o.chains && n.op == oContinue then chainEnd ns k (i + 1) else i
    | _, _ => i

/-- The index a CD order continues into. -/
def chainSucc (i : Nat) (o : Order) : List Nat := if o.chains then [i + 1] else []

/-- The next orders that R93 gives, in both outcomes of SKIPIF and LOOP; after a data chain they follow its last
CONTINUE. -/
def plainSucc (ns : List (Nat × Order)) (i : Nat) (o : Order) : List Nat :=
  let op := o.op
  if !opDefined op || op == oStop then []
  else if op = oContinue then
    (if o.cd then [] else match chainHead ns 1024 i with | some (_, h) => if h.cn then [i + 1] else [] | none => [])
  else if op = oJump then [o.target]
  else if op = oLoop then [o.target, i + 1]
  else if op = oSkipif then (if o.cn then [i + 1] else []) ++ [i + 1 + o.count]
  else if o.chains then [] else if o.cn then [i + 1] else []

/-- Every index reached from order `i`, below ORDER_LIMIT. -/
def succs (ns : List (Nat × Order)) (limit i : Nat) (o : Order) : List Nat :=
  (chainSucc i o ++ plainSucc ns i o).filter (fun j => decide (j < limit))

/-- The lowest of a list. -/
def least (l : List Nat) : Option Nat :=
  l.foldl (fun o i => match o with | none => some i | some m => some (min m i)) none

/-- The walk: always the lowest index reached and not yet fetched; the order after a data chain is reached once both its head and its
last CONTINUE are known. The index whose fetch failed, if one did, and the orders
fetched. -/
def walk (fuel : Nat) (get : Nat → Option Order) (limit : Nat) (todo : List Nat) (ns : List (Nat × Order)) :
    Option Nat × List (Nat × Order) :=
  match fuel with
  | 0 => (none, ns)
  | k + 1 =>
    match least todo with
    | none => (none, ns)
    | some i =>
      match get i with
      | none => (some i, ns)
      | some o =>
        let ns := ns ++ [(i, o)]
        let ends := ns.filter (fun p => p.2.op == oContinue)
        let new := (succs ns limit i o ++ ends.flatMap (fun p => succs ns limit p.1 p.2)).filter (fun j =>
          !ns.any (fun p => p.1 == j) && !todo.contains j)
        walk k get limit (todo.filter (· != i) ++ new) ns

/-! ### Checks of the reachable orders (R108 steps 2 to 4) -/

/-- The next index or target of order `i` leaves the route, or a LOOP's target lies above it (REASON 4). -/
def overLimit (ns : List (Nat × Order)) (limit i : Nat) (o : Order) : Bool :=
  let last := if o.chains && o.op != oContinue then
      (let e := chainEnd ns 1024 i
       if o.cn && !((nodeAt ns e).map Order.chains).getD true then [e + 1] else [])
    else []
  let plain := if o.op = oContinue then [] else plainSucc ns i o
  (chainSucc i o ++ plain ++ last).any (fun j => decide (limit ≤ j)) || (o.op == oLoop && decide (i < o.target))

/-- The data chain at order `i` is malformed (REASON 5): a CD order not followed by CONTINUE; a CONTINUE reached otherwise
than through the CD of the order before it; a chain that mixes SK. -/
def chainBad (ns : List (Nat × Order)) (start i : Nat) (o : Order) : Bool :=
  (o.chains && !((nodeAt ns (i + 1)).any (fun n => n.op == oContinue)))
    || (o.op == oContinue
        && (i == start || ns.any (fun p => (plainSucc ns p.1 p.2).contains i)
            || (match chainHead ns 1024 i with | some (_, h) => h.sk != o.sk | none => true)))

/-- REASON of one order under R108 step 2; `loops` LOOP orders lie below it. -/
def orderReason (s : State) (ns : List (Nat × Order)) (limit start loops i : Nat) (o : Order) : Nat :=
  if !opDefined o.op then 1
  else if !fieldsZero o then 2
  else if !rangesOk s o then 3
  else if overLimit ns limit i o then 4
  else if chainBad ns start i o then 5
  else if o.op == oLoop && decide (8 ≤ loops) then 10
  else 0

/-- The orders in ascending index. -/
def ascending (ns : List (Nat × Order)) : List (Nat × Order) := ns.foldl (fun m p => SMap.insert m p.1 p.2) []

/-- The first failure of step 2: REASON and index. -/
def checkOrders (s : State) (ns : List (Nat × Order)) (limit start loops : Nat) (l : List (Nat × Order)) :
    Option (Nat × Nat) :=
  match l with
  | [] => none
  | (i, o) :: t =>
    let r := orderReason s ns limit start loops i o
    if r ≠ 0 then some (r, i) else checkOrders s ns limit start (loops + b2n (o.op == oLoop)) t

/-- Thread and declared cost of a CALL-KEEPER's entry; `none` when the image has no such CALL entry (R169). -/
def callEntry (s : State) (c : Fin 56) (o : Order) : Option (Nat × Nat) :=
  if !s.isSet (Fld.KSTATUS_IMAGE_VALID c) then none
  else match (s.kp c).image with
    | none => none
    | some im =>
      match im.entries[bf o.param 8 16]? with
      | some e => if e.kind = 2 ∧ e.thread = bf o.param 0 3 then some (e.thread, e.cost) else none
      | none => none

/-- Indices reachable from `todo` along `out`. -/
def closure (fuel : Nat) (out : Nat → List Nat) (todo seen : List Nat) : List Nat :=
  match fuel, todo with
  | 0, _ => seen
  | _, [] => seen
  | k + 1, v :: t => if seen.contains v then closure k out t seen else closure k out (out v ++ t) (v :: seen)

/-- Orders after `i`, none after a WAIT. -/
def cutWait (ns : List (Nat × Order)) (limit i : Nat) : List Nat :=
  match nodeAt ns i with
  | some o => if o.op = oWait then [] else succs ns limit i o
  | none => []

/-- The lowest index on a cycle without a WAIT. -/
def cycleAt (ns : List (Nat × Order)) (limit : Nat) : Option Nat :=
  ((ascending ns).map (·.1)).find? (fun i => (closure 8192 (cutWait ns limit) (cutWait ns limit i) []).contains i)

/-! ### Costs (R109) -/

/-- Sequencer cycles of a fetch. -/
def fetchCost (s : State) (c : Nat) (host : Bool) : Nat := if host then s.get (Fld.HOST_FETCH_CYCLES c) else 64

/-- Cycles of an opcode. -/
def opCost (op : Nat) : Nat :=
  match op with
  | 0x00 | 0x06 | 0x07 | 0x0C | 0x0F => 8
  | 0x01 | 0x02 | 0x05 => 24
  | 0x03 | 0x0B => 32
  | 0x04 => 40
  | 0x09 | 0x0A => 16
  | 0x08 => 48
  | _ => 0

/-- PS and NT. -/
def flagCost (o : Order) : Nat := b2n o.ps * 16 + b2n o.nt * 4

def units (n k : Nat) : Nat := (n + k - 1) / k

/-- Data written to, or read from, an address. -/
def writeCost (a n : Nat) : Nat := units n 64 * if 2 ^ 63 ≤ a then 24 else 16
def readCost (s : State) (c a n : Nat) : Nat :=
  if 2 ^ 63 ≤ a then units n 512 * s.get (Fld.HOST_FETCH_CYCLES c) else units n 64 * 24

/-- Data of an order whose chain's head has opcode `head`. -/
def dataCost (s : State) (c head : Nat) (o : Order) : Nat :=
  let rx (a : Nat) : Nat := if o.sk then units o.count 64 * 4 else writeCost a o.count
  if head = oReceive then rx o.addr
  else if head = oTransmit then readCost s c o.addr o.count
  else if head = oExchange then readCost s c o.addr o.count + rx o.word2
  else if head = oSense then writeCost o.addr o.count
  else 0

/-- The charge of order `i`. -/
def orderCost (s : State) (c : Nat) (host : Bool) (ns : List (Nat × Order)) (i : Nat) (o : Order) : Nat :=
  let head := if o.op = oContinue then ((chainHead ns 1024 i).map (fun p => p.2.op)).getD oReceive else o.op
  fetchCost s c host + opCost o.op + flagCost o + dataCost s c head o

/-- Orders after `i` in its segment: none after a WAIT, none that carries TK. -/
def cutSegment (ns : List (Nat × Order)) (limit i : Nat) : List Nat :=
  (cutWait ns limit i).filter (fun j => !((nodeAt ns j).map Order.tk).getD false)

/-- One round of the longest-path computation. -/
def relax (ns : List (Nat × Order)) (limit : Nat) (cost : Nat → Order → Nat) (best : List (Nat × Nat)) : List (Nat × Nat) :=
  ns.map (fun p => (p.1, cost p.1 p.2 + ((cutSegment ns limit p.1).map (fun j => SMap.get 0 best j)).foldl max 0))

/-- The dearest path from every order to the end of its segment. -/
def longest (ns : List (Nat × Order)) (limit : Nat) (cost : Nat → Order → Nat) : List (Nat × Nat) :=
  (List.range ns.length).foldl (fun b _ => relax ns limit cost b) []

/-- Where segments start: the start order, the order after each WAIT, each order with TK. -/
def segStarts (ns : List (Nat × Order)) (limit start : Nat) : List Nat :=
  ((ascending ns).map (·.1)).filter (fun i => i == start || ((nodeAt ns i).map Order.tk).getD false
    || ns.any (fun p => p.2.op == oWait && (succs ns limit p.1 p.2).contains i))

/-- The dearest segment: its cost and its start, the lowest of several. -/
def worstSeg (ns : List (Nat × Order)) (limit start : Nat) (cost : Nat → Order → Nat) : Nat × Nat :=
  let best := longest ns limit cost
  let l := (segStarts ns limit start).map (fun i => (((best.find? (fun p => p.1 == i)).map (·.2)).getD 0, i))
  l.foldl (fun m p => if m.1 < p.1 then p else m) (l.headD (0, start))

/-! ### Admission (R108) -/

/-- What the route checker finds: REASON, index (0xFFFF none), thread, the worst case of the failing quantity, the worst
sequencer cycles, the hashes. -/
structure Verdict where
  reason : Nat
  index  : Nat
  thread : Nat
  cycles : Nat
  worst  : Nat
  hashes : List (Nat × Half)
deriving DecidableEq, Repr

def Verdict.fail (reason index : Nat) : Verdict := ⟨reason, index, 0, 0, 0, []⟩

/-- Status of a REASON. -/
def reasonStatus (r : Nat) : Nat :=
  if r = 0 then St.ok else if r = 6 ∨ r = 7 ∨ r = 8 then St.rejectedBudget else if r = 11 then St.busError
  else if r = 12 then St.rejectedState else St.orderInvalid

/-- RESIDENT of a thread in the image. -/
def residentOf (s : State) (c : Fin 56) (t : Nat) : Nat :=
  match (s.kp c).image with
  | some im => ((im.threads[t]?).map KThreadRec.resident).getD 0
  | none => 0

/-- The thread check of step 5: the lowest thread whose worst case passes its budget, with that case and its segment. -/
def threadOver (s : State) (c : Fin 56) (ns : List (Nat × Order)) (limit start : Nat) : Option (Nat × Nat × Nat) :=
  let cost (t : Nat) (o : Order) : Nat :=
    if o.op = oCall then (match callEntry s c o with | some (u, k) => if u = t then k else 0 | none => 0) else 0
  ((List.range 8).map (fun t =>
    let (w, i) := worstSeg ns limit start (fun _ o => cost t o)
    (t, residentOf s c t + w, i))).find? (fun x =>
      decide (min (s.get (Fld.THREAD_BUDGET_BUDGET c x.1)) (s.tb.period / 1000 * 100) < x.2.1))

/-- Steps 3 to 6, over orders that pass step 2. -/
def admitCosts (s : State) (c : Fin 56) (host : Bool) (ns : List (Nat × Order)) (limit start : Nat) : Verdict :=
  match (ascending ns).find? (fun p => p.2.op == oCall && (callEntry s c p.2).isNone) with
  | some (i, _) => .fail 9 i
  | none =>
    match cycleAt ns limit with
    | some i => .fail 6 i
    | none =>
      let (w, i) := worstSeg ns limit start (orderCost s c host ns)
      if min (s.get (Fld.SEQ_BUDGET_BUDGET c)) (s.tb.period / 1000 * 800) < w then ⟨7, i, 0, w, w, []⟩
      else match threadOver s c ns limit start with
        | some (t, v, i) => ⟨8, i, t, v, w, []⟩
        | none => ⟨0, 0xFFFF, 0, 0, w, (ascending ns).map (fun p => (p.1, p.2.hash))⟩

/-- The route checker on the orders `get` fetches. -/
def checkRoute (s : State) (c : Fin 56) (host : Bool) (get : Nat → Option Order) (limit start : Nat) : Verdict :=
  match walk 1024 get limit [start] [] with
  | (some i, _) => .fail 11 i
  | (none, ns) =>
    match checkOrders s ns limit start 0 (ascending ns) with
    | some (r, i) => .fail r i
    | none => admitCosts s c host ns limit start

/-- Where order `i` of the current route lies. -/
def orderAt (s : State) (c i : Nat) : Nat := s.get (Fld.ROUTE_ADDR_ADDR c) + i * 32

/-- The current route lies in host space. -/
def routeHost (s : State) (c : Nat) : Bool := decide (2 ^ 63 ≤ s.get (Fld.ROUTE_ADDR_ADDR c))

/-- The order a fetch brings: from device DRAM as it stands, or what the host returned. A failed or poisoned read brings
none. -/
def fetchOrder (s : State) (c i : Nat) (data : HostRd) : Option Order :=
  if routeHost s c then
    (match data with
     | .ok b => if s.hostOk then some (orderOf b) else none
     | .fail => none)
  else if s.poisoned 0 (orderAt s c i) 32 then none
  else some (orderOf (s.dramRead (orderAt s c i) 32))

/-- A fetch of order `i` from device DRAM failed: its bad word is met. -/
def fetchMeets (s : State) (c i : Nat) : State := if routeHost s c then s else dramMeet s (orderAt s c i) 32

end Sys2Proof.Machine
end

