-- ==== Sys2Proof/Machine/Orders.lean ====
section
/-!
DEFINITION. The order sequencer (04, R89–R115): starting, suspending, resuming and ending routes, fetching orders, and what
every order does.
-/
namespace Sys2Proof.Machine

/-! ### Route states (R107) -/

/-- A route has begun: one in ADMIT, or admitted and not yet at its edge, has not entered the running state (R18, R95). -/
def routeBegun (s : State) (c : Fin 56) : Bool :=
  rtState s c != rtIdle && rtState s c != rtAdmit && !((s.sq c).first && !(s.sq c).due)
def routesBegun (s : State) : Bool := (List.finRange 56).any (routeBegun s)

/-- Sequencer cycles are charged to the present tick (R109). -/
def seqCharge (s : State) (c : Fin 56) (n : Nat) : State := s.modSq c (fun q => { q with used := q.used + n })

/-! ### Entries that wait for the route (R111, R113) -/

/-- Entries that a route's end, suspension or admission completes. -/
def routeWaiters (s : State) (c : Fin 56) : State :=
  let st := rtState s c
  let idx := s.get (Fld.ROUTE_STATE_ORDER c)
  match (s.ch c).cmdq with
  | e :: _ =>
    if e.stage ≠ .running then s
    else if e.opcode = opRouteHalt ∧ st = rtIdle then
      complete s e St.ok (leBytes 2 idx ++ leBytes 2 (s.get (Fld.ROUTE_STATE_RESIDUAL c)))
    else if e.opcode = opRouteSuspend ∧ st = rtSuspended then complete s e St.ok (leBytes 2 idx)
    else if e.opcode = opRouteSuspend ∧ st = rtIdle then complete s e St.rejectedState (leBytes 2 idx)
    else s
  | [] => s

/-! ### The end and the suspension of a route (R101, R107, R111) -/

/-- A CALL-KEEPER message no longer waits for its reply. -/
def mailDead (s : State) (c : Fin 56) : State :=
  s.eachTh c (fun s c t => s.modTh c t (fun th => { th with mail := th.mail.map (fun m => { m with live := false }) }))

/-- What an order in execution leaves in the engine when it stops short: waiting TX items are dropped, those in the TX FIFO
stay; a transfer ends, its chip select is released, and configuration writes that waited for it apply. -/
def engineRelease (s : State) (c : Fin 56) : State :=
  let s := s.modBus c (fun b => { b with txWait := [], exRx := [] })
  let s := s.modFifos c (fun f => { f with tx := f.tx.map (fun e => match e with | .item b _ => .item b false | e => e) })
  let s := s.modSq c (fun q => { q with exec := q.exec.map (fun e => { e with loaded := false }) })
  driveSelects (busLater (mailDead s c) c) c

/-- The route ends with a status, its last order and that order's residual. -/
def routeEnd (s : State) (c : Fin 56) (status idx residual : Nat) : State :=
  routeWaiters (routeEnds s c status idx residual) c

/-- The route suspends at order `idx`. -/
def routeSuspended (s : State) (c : Fin 56) (idx residual : Nat) : State :=
  let s := (rtSet s c rtSuspended).put (Fld.ROUTE_STATE_ORDER c) idx
  let s := (s.put (Fld.ROUTE_STATE_RESIDUAL c) residual).raise (Fld.ROUTE_EVT_SUSPEND c)
  routeWaiters (s.modSq c (fun q => { seqIdle q with pc := idx })) c

/-! ### Fetching (R89, R109) -/

/-- A fetch of order `i` begins. -/
def fetchStart (s : State) (c : Fin 56) (i : Nat) : State :=
  s.modSq c (fun q => { q with fetch := .wait i, chainHead := none, chainBuf := [] })

/-- The order that is due has been fetched: with TK it waits for an edge (R94), but not as the first of its route (R95). -/
def dueReady (s : State) (c : Fin 56) (o : Order) : State :=
  if o.tk && !(s.sq c).atEdge then rtSet (s.modSq c (fun q => { q with atEdge := true })) c rtWait else s

/-- Order `i` becomes due (R94). -/
def becomeDue (s : State) (c : Fin 56) (i : Nat) : State :=
  let s := (s.put (Fld.ROUTE_STATE_ORDER c) i).modSq c (fun q => { q with pc := i, due := true, atEdge := false, exec := none })
  match (s.sq c).fetch with
  | .ready j o => if j = i then dueReady s c o else fetchStart s c i
  | .bad j st => routeEnd s c st j 0
  | .wait _ => s
  | .none => fetchStart s c i

/-- A fetch has ended with an order, or with the status it ends the route with. A data chain is fetched before its head
starts (R96). -/
def fetched (s : State) (c : Fin 56) (j : Nat) (o : Order) : State :=
  let q := s.sq c
  if SMap.get 0 (q.hashes.map (fun p => (p.1, p.2.toNat))) j ≠ o.hash.toNat then
    s.modSq c (fun q => { q with fetch := .bad j St.orderChanged })
  else match q.chainHead with
    | some (h, ho) =>
      s.modSq c (fun q => { q with chainBuf := q.chainBuf ++ [o], fetch := if o.cd then .wait (j + 1) else .ready h ho
                                   chainHead := if o.cd then q.chainHead else none })
    | none =>
      s.modSq c (fun q => if o.chains then { q with chainHead := some (j, o), chainBuf := [], fetch := .wait (j + 1) }
        else { q with fetch := .ready j o })

/-- The order that is due learns of its fetch. -/
def fetchSettled (s : State) (c : Fin 56) : State :=
  let q := s.sq c
  if !q.due then s
  else match q.fetch with
    | .ready _ o => if q.first then s.modSq c (fun q => { q with first := false }) else dueReady s c o
    | .bad j st => routeEnd s c st j 0
    | _ => s

/-- ORDER_FETCH_RETURN: the fetch returns; `late` when it took longer than its charge. -/
def fetchReturn (s : State) (c : Fin 56) (data : HostRd) (late : Bool) : State :=
  match (s.sq c).fetch with
  | .wait j =>
    if routeHost s c && !s.hostOk then s
    else
      let s := seqCharge s c (fetchCost s c (routeHost s c))
      let s := if late && routeHost s c then
          (s.raise (Fld.ROUTE_EVT_FETCH_LATE c)).bumpSat (Fld.SEQ_STATS_FETCH_LATE c) 1 else s
      fetchSettled (match fetchOrder s c j data with
        | some o => fetched s c j o
        | none => (fetchMeets s c j).modSq c (fun q => { q with fetch := .bad j St.busError })) c
  | _ => s

/-- FETCH_TIMEOUT (R89). -/
def fetchTimeout (s : State) (c : Fin 56) : State :=
  match (s.sq c).fetch with
  | .wait j => fetchSettled (s.modSq c (fun q => { q with fetch := .bad j St.busError })) c
  | _ => s

/-! ### Starting an order -/

/-- The order after `i` under R93 where the order's own execution does not decide it; its data chain has `n` CONTINUEs. -/
def nextStatic (i n : Nat) (o : Order) : Option Nat :=
  if o.op = oJump then some o.target
  else if o.op = oStop ∨ o.op = oSkipif ∨ o.op = oLoop then none
  else if o.cn then some (i + 1 + n) else none

/-- The order starts (R89, R94): the next one is fetched, unless SU suspends the route before it. -/
def startOrder (s : State) (c : Fin 56) (i : Nat) (o : Order) : State :=
  let chain := (s.sq c).chainBuf
  let wait := decide (o.op = oWait)
  let next := nextStatic i chain.length o
  let s := s.modSq c (fun q =>
    { q with runs := SMap.insert q.runs i (SMap.get 0 q.runs i + 1), due := false, atEdge := false, first := false, pc := i
             exec := some ⟨i, o, chain, if wait then o.count else 0, 0, wait, next, none⟩
             fetch := match next with | some n => if o.su then .none else .wait n | none => .none
             chainBuf := [], chainHead := none })
  let s := rtSet (s.put (Fld.ROUTE_STATE_ORDER c) i) c (if wait then rtWait else rtRun)
  seqCharge s c (opCost o.op + 8 * chain.length)

/-- The executing order has run its body. -/
def execLoaded (s : State) (c : Fin 56) : State :=
  s.modSq c (fun q => { q with exec := q.exec.map (fun e => { e with loaded := true }) })

/-- Run the body of an order that `sel` selects: one that is due and fetched and waits for no edge, or one that an edge has
started. -/
def orderRun (s : State) (c : Fin 56) (sel : Order → Bool) (f : State → ExecOrder → State) : State :=
  let q := s.sq c
  if s.frozen c then s
  else match q.exec with
  | some e => if sel e.order && !e.loaded && e.result.isNone then f s e else s
  | none =>
    match q.fetch with
    | .ready i o =>
      if q.due && !q.atEdge && !q.first && sel o then
        let s := startOrder s c i o
        match (s.sq c).exec with
        | some e => f s e
        | none => s
      else s
    | _ => s

/-! ### Completing an order (R101–R103) -/

def stContinues (st : Nat) : Bool := decide (st ≤ 1)
def stChecked (st : Nat) : Bool :=
  st == St.busError || st == St.overrun || st == St.noPartner || st == St.timeout || decide (0x80 ≤ st)

/-- What follows an order: the next fetch must show whether it is a SKIPIF, the route ends, or it goes on. -/
inductive After where
  | unknown
  | ends
  | goes (n : Nat)
deriving DecidableEq, Repr

/-- R93 and R101. DEDUCED (log entry 109): a STOPPING route whose order completes on its own ends there, with that order's status. -/
def afterOrder (q : Seq) (e : ExecOrder) (st : Nat) : After :=
  if q.stop.isSome then .ends
  else match e.next with
    | none => .ends
    | some n =>
      if stContinues st then .goes n
      else if stChecked st then
        (match q.fetch with
         | .ready _ o => if o.op = oSkipif then .goes n else .ends
         | .bad _ _ => .ends
         | _ => .unknown)
      else .ends

/-- The post of an order in its word 3 (R102): POST_STATE, status, residual, tick. -/
def postOrder (s : State) (c : Fin 56) (idx state status residual : Nat) : State :=
  let runs := SMap.get 0 (s.sq c).runs idx % 16
  let b := leBytes 1 (state + 16 * runs) ++ leBytes 1 status ++ leBytes 2 residual ++ leBytes 4 s.tick
  let a := orderAt s c idx + 24
  if routeHost s c then s.hostWrite (a % 2 ^ 63) b else s.dramWrite a b

/-- The post of an order can be issued. -/
def postOk (s : State) (c : Fin 56) : Bool := !routeHost s c || s.hostOk

/-- The route goes on, ends or suspends after an order that has completed. -/
def orderAfter (s : State) (c : Fin 56) (idx st res : Nat) (a : After) (susp : Bool) : State :=
  match a with
  | .goes n => if susp then routeSuspended s c n res else becomeDue s c n
  | _ => routeEnd s c st idx res

/-- An order whose result is known completes, once it is known what follows it and its post is issued; `drop` gives the post
up (R89). DESIGN CHOICE (log entry 138): with a checked status the next order is fetched to see whether it is a SKIPIF, under SU too. -/
def orderFinish (s : State) (c : Fin 56) (drop : Bool) : State :=
  match (s.sq c).exec with
  | none => s
  | some e =>
    match e.result with
    | none => s
    | some (st0, res) =>
      let lost := drop && e.order.ps
      let st := if lost then St.busError else st0
      match afterOrder (s.sq c) e st with
      | .unknown => if (s.sq c).fetch = .none then fetchStart s c (e.next.getD 0) else s
      | a =>
        if e.order.ps && !lost && !postOk s c then s
        else
          let susp := e.order.su || (s.sq c).suspend
          let state := 1 + (match a with | .goes _ => if susp then 4 else 0 | _ => 2)
          let s := if e.order.ps && !lost then postOrder s c e.idx state st res else s
          let s := if e.order.nt then s.raise (Fld.ROUTE_EVT_NOTIFY c) else s
          let s := seqCharge (s.bumpWrap (Fld.SEQ_STATS_ORDERS_DONE c) 1) c (flagCost e.order)
          let s := s.modSq c (fun q => { q with prev := (st, res), exec := none })
          orderAfter s c e.idx st res a susp

/-- The executing order has a status and a residual, saturating at 0xFFFF. -/
def orderGives (s : State) (c : Fin 56) (st res : Nat) : State :=
  match (s.sq c).exec with
  | some e => s.orderResult c e.idx st (min 0xFFFF res)
  | none => s

/-- An order that completes in the step that runs it. -/
def orderNow (s : State) (c : Fin 56) (st res : Nat) : State := orderFinish (orderGives (execLoaded s c) c st res) c false

/-- ORDER_DONE: an order that took time completes. -/
def orderDone (s : State) (c : Fin 56) : State := if s.frozen c then s else orderFinish s c false

/-! ### Data areas (R96) -/

/-- The orders of an executing order's data chain, its own first. -/
def areas (e : ExecOrder) : List Order := e.order :: e.chain

/-- Bytes of the whole chain. -/
def areaTotal (e : ExecOrder) : Nat := ((areas e).map Order.count).sum

/-- Bytes to a buffer. -/
def bufWrite (s : State) (a : Nat) (bs : List Byte) : State :=
  if bs.isEmpty then s else if 2 ^ 63 ≤ a then s.hostWrite (a % 2 ^ 63) bs else s.dramWrite a bs

/-- Store received bytes at position `pos` of the data areas, or count them under SK; 64 B units are charged as they are
begun (R109). -/
def areaStore (s : State) (c : Fin 56) (as : List Order) (pos : Nat) (bs : List Byte) : State :=
  match as with
  | [] => s
  | o :: rest =>
    if o.count ≤ pos then areaStore s c rest (pos - o.count) bs
    else
      let here := bs.take (o.count - pos)
      let n := units (pos + here.length) 64 - units pos 64
      let s := seqCharge s c (n * if o.sk then 4 else if 2 ^ 63 ≤ o.addr then 24 else 16)
      let s := if o.sk then s else bufWrite s (o.addr + pos) here
      areaStore s c rest 0 (bs.drop (o.count - pos))

/-- Some area is written in host space. -/
def areasHost (as : List Order) : Bool := as.any (fun o => !o.sk && decide (2 ^ 63 ≤ o.addr))

/-- Read the data areas: from device DRAM as it stands, host space from what the host returned. -/
def areaRead (s : State) (as : List Order) (data : HostRd) : Option (List Byte) :=
  match as with
  | [] => some []
  | o :: rest =>
    if 2 ^ 63 ≤ o.addr then
      (match data with
       | .ok b => if b.length < o.count then none else (areaRead s rest (.ok (b.drop o.count))).map (b.take o.count ++ ·)
       | .fail => none)
    else if s.poisoned 0 o.addr o.count then none
    else (areaRead s rest data).map (s.dramRead o.addr o.count ++ ·)

/-- The bad word that a read of the data areas from device DRAM meets first is met. -/
def areaMeets (s : State) (as : List Order) : State :=
  match as.find? (fun o => decide (o.addr < 2 ^ 63) && s.poisoned 0 o.addr o.count) with
  | some o => dramMeet s o.addr o.count
  | none => s

/-- The charge of reading the data areas. -/
def areaReadCost (s : State) (c : Nat) (as : List Order) : Nat := (as.map (fun o => readCost s c o.addr o.count)).sum

/-- What an order in execution has not transferred: of a SENSE that waits for the host, all of it. How far an SPI or I2C transfer
has come when it is stopped, and the residual of a call that got no reply, are free values. -/
def residualOf (s : State) (c : Fin 56) (e : ExecOrder) : Nat × State :=
  let op := e.order.op
  let total := areaTotal e
  if op = oWait then (e.count, s)
  else if op = oSense then (e.order.count, s)
  else if op = oReceive then (total - e.count, s)
  else if op = oTransmit ∧ modeOf s c ≠ modeI2c then
    let q := ((s.ch c).bus.txWait.map List.length).sum
    let f := ((s.ch c).fifos.tx.map (fun x => match x with | .item b true => b.length | _ => 0)).sum
    (if e.loaded then q + f else total, s)
  else if op = oExchange ∧ modeOf s c = modeUart then (total - (s.ch c).bus.exRx.length, s)
  else if op = oTransmit ∨ op = oExchange ∨ op = oCall then
    (if !e.loaded then (total, s)
     else
       let (n, s) := s.drawFree
       let v := (Config.freeWord n).toNat
       (if op = oCall then v % 65536 else v % (total + 1), s))
  else (0, s)

/-- An order in execution stops short with a status and posts it, if its post can be issued. -/
def interruptOrder (s : State) (c : Fin 56) (e : ExecOrder) (state status : Nat) : Nat × State :=
  let (r, s) := residualOf s c e
  let r := min 0xFFFF r
  let s := if e.order.ps && postOk s c then seqCharge (postOrder s c e.idx state status r) c 16 else s
  (r, engineRelease s c)

/-! ### ROUTE_START, ROUTE_RESUME (R88, R107, R108, R114) -/

/-- Result of ROUTE_START and ROUTE_RESUME (R62). -/
def startResult (worst idx : Nat) : List Byte := leBytes 4 worst ++ leBytes 2 idx

/-- A start from a keystone or an autostart record is turned away: counted, or logged with ADMIT_RESULT (R114, R263). -/
def startRejected (s : State) (c : Fin 56) (e : WorkEntry) : State :=
  match e.src with
  | .keystone k => (s.bumpSat (Fld.KSTATS_ROUTE_REJECTED k) 1).raise Fld.KS_EVT_ROUTE_REJECTED
  | .autostart => thLog s 0xFF 0x0012 (leBytes 1 c ++ leBytes 8 (regVal s (Reg.ADMIT_RESULT c)))
  | _ => s

/-- ADMIT_RESULT. -/
def admitResult (s : State) (c : Nat) (v : Verdict) : State :=
  let s := (s.put (Fld.ADMIT_RESULT_REASON c) v.reason).put (Fld.ADMIT_RESULT_THREAD c) v.thread
  (s.put (Fld.ADMIT_RESULT_INDEX c) (if v.index = 0xFFFF then 0 else v.index)).put (Fld.ADMIT_RESULT_CYCLES c) v.cycles

/-- The conditions of REASON 12. -/
def mayAdmit (s : State) (c : Nat) : Bool := chAccepts s c && s.tb.cfg.isNone

/-- The start or resume is rejected with REASON 12. -/
def admitRefused (s : State) (c : Fin 56) (e : WorkEntry) : State :=
  let s := admitResult s c (.fail 12 0xFFFF)
  complete (startRejected s c e) e St.rejectedState (startResult 0 0xFFFF)

/-- Admission begins. -/
def admitBegin (s : State) (c : Fin 56) (e : WorkEntry) (resume : Bool) (start : Nat) : State :=
  let s := updEntry (rtSet s c rtAdmit) { e with stage := .running }
  s.modSq c (fun q => { q with admission := some ⟨resume, start⟩ })

/-- ROUTE_START. -/
def routeStart (s : State) (c : Fin 56) : State :=
  chanStart s c opRouteStart (fun e =>
    let addr := e.arg 24 8
    let limit := e.arg 32 2
    if limit = 0 ∨ 1024 < limit ∨ !routeAddrOk s addr limit then complete s e St.badOperand (startResult 0 0xFFFF)
    else if chState s c = chAbsent then admitRefused s c e
    else if rtState s c ≠ rtIdle then
      (match e.src with
       | .keystone k => complete (ksRouteDropped s k c) e St.rejectedState []
       | .autostart => complete (s.raise (Fld.ROUTE_EVT_KS_REFUSED c)) e St.rejectedState []
       | _ => complete s e St.rejectedState (startResult 0 0xFFFF))
    else if !mayAdmit s c then admitRefused s c e
    else
      let s := (s.put (Fld.ROUTE_ADDR_ADDR c) addr).put (Fld.ROUTE_INFO_ORDER_LIMIT c) limit
      admitBegin s c e false 0)

/-- ROUTE_RESUME. -/
def routeResume (s : State) (c : Fin 56) : State :=
  chanStart s c opRouteResume (fun e =>
    if chState s c = chAbsent ∨ rtState s c ≠ rtSuspended then complete s e St.rejectedState (startResult 0 0xFFFF)
    else if !mayAdmit s c then admitRefused s c e
    else admitBegin s c e true (s.get (Fld.ROUTE_STATE_ORDER c)))

/-- The route is admitted (R95, R107, R112): it starts at the next edge. DESIGN CHOICE (log entry 108): the counter of a LOOP that
the new admission does not reach, and that has no new hash, returns to idle. -/
def admitted (s : State) (c : Fin 56) (a : Admission) (v : Verdict) : State :=
  let s := (s.put (Fld.ROUTE_INFO_ADMITTED c) v.hashes.length).put (Fld.ROUTE_INFO_WORST_CYCLES c) v.worst
  let s := (rtSet s c rtWait).put (Fld.ROUTE_STATE_ORDER c) a.start
  let s := s.modSq c (fun q =>
    let same (i : Nat) : Bool := (q.hashes.find? (fun p => p.1 == i)).map (·.2) == (v.hashes.find? (fun p => p.1 == i)).map (·.2)
    { seqIdle q with hashes := v.hashes, loops := if a.resume then q.loops.filter (fun p => same p.1) else []
                     runs := if a.resume then q.runs else [], pc := a.start, prev := (0, 0), first := true })
  fetchStart s c a.start

/-- ADMISSION_END: the route checker finishes; `orders` are the orders the host returned, by index. -/
def admissionEnd (s : State) (c : Fin 56) (orders : List (Nat × HostRd)) : State :=
  match (s.sq c).admission with
  | none => s
  | some a =>
    let rd (i : Nat) : HostRd := ((orders.find? (fun p => p.1 == i)).map (·.2)).getD .fail
    let v := checkRoute s c (routeHost s c) (fun i => fetchOrder s c i (rd i)) (s.get (Fld.ROUTE_INFO_ORDER_LIMIT c)) a.start
    let s := if v.reason = 11 then fetchMeets s c v.index else s
    let s := admitResult s c v
    let s := if v.reason = 7 ∨ v.reason = 8 then s.put (Fld.ROUTE_INFO_WORST_CYCLES c) v.worst else s
    let e := (s.ch c).cmdq.headD ⟨[], .autostart, 0, 0, 0, 0xFF, 0, .queued, [], 0, 0, 0, false, [], false, false⟩
    if v.reason = 0 then
      updEntry (admitted s c a v) { e with stage := .edge, data := startResult v.worst 0xFFFF }
    else
      let s := if a.resume then (rtSet s c rtSuspended).raise (Fld.ROUTE_EVT_SUSPEND c) else rtSet s c rtIdle
      let s := s.modSq c (fun q => { q with admission := none })
      complete (startRejected s c e) e (reasonStatus v.reason) (startResult v.worst v.index)

/-! ### ROUTE_SUSPEND, ROUTE_HALT and the other causes (R111, R113) -/

/-- ROUTE_SUSPEND takes effect at once where it can, else it waits for the order in execution. -/
def suspendNow (s : State) (c : Fin 56) : State :=
  match (s.sq c).exec with
  | none => routeSuspended s c (s.sq c).pc 0
  | some e =>
    if e.order.op = oWait ∧ e.result.isNone then
      let (r, s) := interruptOrder s c e 4 St.suspended
      routeSuspended s c e.idx r
    else s.modSq c (fun q => { q with suspend := true })

/-- ROUTE_SUSPEND. -/
def routeSuspend (s : State) (c : Fin 56) : State :=
  chanStart s c opRouteSuspend (fun e =>
    let st := rtState s c
    if chState s c = chAbsent ∨ st = rtIdle then complete s e St.rejectedState []
    else if st = rtSuspended then complete s e St.ok (leBytes 2 (s.get (Fld.ROUTE_STATE_ORDER c)))
    else
      let s := updEntry s { e with stage := .running }
      if st = rtStopping then s
      else if st = rtAdmit then s.modSq c (fun q => { q with suspend := true })
      else suspendNow s c)

/-- Status of orders and routes a cause stops. -/
def stopStatus (k : StopKind) : Nat := match k with | .fence => St.fenced | _ => St.abandoned

/-- The entry whose admission a cause cancels completes. -/
def admitCancelled (s : State) (c : Fin 56) (k : StopKind) : State :=
  let resume := match (s.sq c).admission with | some a => a.resume | none => false
  let s := s.modSq c seqIdle
  let s := if resume then routeEnd s c St.abandoned (s.get (Fld.ROUTE_STATE_ORDER c)) (s.get (Fld.ROUTE_STATE_RESIDUAL c))
    else rtSet s c rtIdle
  match (s.ch c).cmdq with
  | e :: _ =>
    if (e.opcode = opRouteStart ∨ e.opcode = opRouteResume) ∧ e.stage = .running then
      complete s e (stopStatus k) (startResult 0 0xFFFF)
    else s
  | [] => s

/-- A cause that ends the route is accepted. -/
def routeStop (s : State) (c : Fin 56) (k : StopKind) : State :=
  let st := rtState s c
  if st = rtAdmit then admitCancelled s c k
  else if st = rtSuspended then
    routeEnd s c St.abandoned (s.get (Fld.ROUTE_STATE_ORDER c)) (s.get (Fld.ROUTE_STATE_RESIDUAL c))
  else if st = rtRun ∨ st = rtWait then
    orderFinish (routeStopping s c k) c false
  else s

/-- ROUTE_HALT. -/
def routeHalt (s : State) (c : Fin 56) : State :=
  chanStart s c opRouteHalt (fun e =>
    if chState s c = chAbsent ∨ rtState s c = rtIdle then complete s e St.rejectedState []
    else routeStop (updEntry s { e with stage := .running }) c .halt)

/-- The start or resume that was admitted completes at the edge at which the route starts (R95). -/
def startCompletes (s : State) (c : Fin 56) (status : Nat) : State :=
  match (s.ch c).cmdq with
  | e :: _ =>
    if (e.opcode = opRouteStart ∨ e.opcode = opRouteResume) ∧ e.stage = .edge then complete s e status e.data else s
  | [] => s

/-- A stopping route ends at the edge (R113). An order whose result is known has completed on its own and keeps its status and post,
unless its post cannot be issued: then it has not completed (R102) and stops like any other. -/
def seqEdgeStop (s : State) (c : Fin 56) (k : StopKind) : State :=
  match (s.sq c).exec with
  | none => startCompletes (routeEnd s c (stopStatus k) (s.sq c).pc 0) c (stopStatus k)
  | some e =>
    match e.result with
    | some (_, res) => if e.order.ps && !postOk s c then routeEnd s c (stopStatus k) e.idx res else orderFinish s c false
    | none =>
      let (r, s) := interruptOrder s c e 3 (stopStatus k)
      routeEnd s c (stopStatus k) e.idx r

/-- Orders that an edge starts (R94, R95). -/
def seqEdgeStart (s : State) (c : Fin 56) : State :=
  let q := s.sq c
  let init := q.first && !q.due
  let s := if init then startCompletes (s.modSq c (fun q => { q with due := true })) c St.ok else s
  match (s.sq c).fetch with
  | .ready i o => if init || (q.due && q.atEdge) then startOrder s c i o else s
  | .bad j st => if init then routeEnd s c st j 0 else s
  | _ => s

/-- Step 4 of a tick edge on one channel (R35). A suspension stops an order that has not completed, one whose post waits included
(R102, R111). -/
def seqEdge (s : State) (c : Fin 56) : State :=
  let s := s.modSq c (fun q => { q with exec := q.exec.map (fun e => if e.result.isNone then { e with edges := e.edges + 1 } else e) })
  let q := s.sq c
  match q.stop with
  | some k => if rtState s c = rtStopping then seqEdgeStop s c k else s
  | none =>
    match q.exec with
    | some e =>
      if q.suspend ∧ e.order.op ≠ oCall then
        (match e.result with
         | none =>
           let (r, s) := interruptOrder s c e 4 St.suspended
           routeSuspended s c e.idx r
         | some (_, r) => if e.order.ps && !postOk s c then routeSuspended (engineRelease s c) c e.idx r else orderFinish s c false)
      else s
    | none => seqEdgeStart s c

/-- Step 5: a WAIT in progress counts the edge (R94). DESIGN CHOICE (log entry 138): so does a WAIT without TK that step 4 of this edge
started as the first order of its route. -/
def seqEdgeWait (s : State) (c : Fin 56) : State :=
  s.modSq c (fun q => { q with exec := q.exec.map (fun e => if e.order.op = oWait ∧ e.result.isNone then { e with count := e.count - 1 } else e) })

/-- USED_LAST holds the cycles charged in the tick that ends (R42). -/
def seqEdgeUsed (s : State) (c : Fin 56) : State :=
  (s.put (Fld.SEQ_BUDGET_USED_LAST c) (s.sq c).used).modSq c (fun q => { q with used := 0 })

/-! ### Orders that pass at once -/

/-- JUMP (R93). -/
def ordJump (s : State) (c : Fin 56) : State := orderRun s c (fun o => o.op == oJump) (fun s _ => orderNow s c St.ok 0)

/-- STOP (R93). -/
def ordStop (s : State) (c : Fin 56) : State := orderRun s c (fun o => o.op == oStop) (fun s _ => orderNow s c St.ok 0)

/-- The execution of SKIPIF or LOOP decides the order after it, which is then fetched. -/
def setNext (s : State) (c : Fin 56) (n : Nat) : State :=
  s.modSq c (fun q => { q with exec := q.exec.map (fun e => { e with next := some n })
                               fetch := match q.exec with | some e => if e.order.su then .none else .wait n | none => .none })

/-- LOOP (R98). -/
def ordLoop (s : State) (c : Fin 56) : State :=
  orderRun s c (fun o => o.op == oLoop) (fun s e =>
    let k := SMap.get 0 (s.sq c).loops e.idx
    let k := (if k = 0 then e.order.count else k) - 1
    let s := s.modSq c (fun q => { q with loops := SMap.set 0 q.loops e.idx k })
    orderNow (setNext s c (if k = 0 then e.idx + 1 else e.order.target)) c St.ok 0)

/-- The condition of a SKIPIF (R99). -/
def skipCond (s : State) (c : Fin 56) (o : Order) : Bool :=
  let w := o.word2
  let st := bf o.param 8 8
  let (pst, pres) := (s.sq c).prev
  let g := viewSlot s (bf w 0 12)
  let thr := (BitVec.ofNat 32 (bf w 32 32)).toInt
  match bf o.param 0 4 with
  | 0 => pst == st
  | 1 => pst != st
  | 2 => pres != 0
  | 3 => g.qual == 1 && decide (thr ≤ g.value.toInt)
  | 4 => g.qual == 1 && decide (g.value.toInt < thr)
  | 5 => s.get (Fld.PT_ENTRY_STATE c (bf w 0 8)) == partnerAbsent
  | 6 => bit (s.get (Fld.ROUTE_FLAGS_FLAGS c)) (bf w 0 6)
  | 7 => !bit (s.get (Fld.ROUTE_FLAGS_FLAGS c)) (bf w 0 6)
  | _ => false

/-- SKIPIF (R99). -/
def ordSkipif (s : State) (c : Fin 56) : State :=
  orderRun s c (fun o => o.op == oSkipif) (fun s e =>
    let n := if skipCond s c e.order then e.idx + 1 + e.order.count else e.idx + 1
    orderNow (setNext s c n) c St.ok 0)

/-- A stream's state, and OPEN (R268). -/
def strmOpen : Nat := 1
def strmState (s : State) (i : Nat) : Nat := s.get (Fld.STRM_STATE_STATE i)

/-- PUBLISH (R105). DESIGN CHOICE (log entry 105): with UNBIND the STREAM field names nothing that is checked. -/
def ordPublish (s : State) (c : Fin 56) : State :=
  orderRun s c (fun o => o.op == oPublish) (fun s e =>
    let set (b : Option Nat) (s : State) : State := s.modCh c (fun x => { x with chamber := { x.chamber with bind := b } })
    let i := bf e.order.param 0 8
    if bit e.order.param 8 then orderNow (set none s) c St.ok 0
    else if strmState s i = strmOpen then orderNow (set (some i) s) c St.ok 0
    else orderNow s c St.rejectedState 0)

/-- MARK (R106). -/
def ordMark (s : State) (c : Fin 56) : State :=
  orderRun s c (fun o => o.op == oMark) (fun s e =>
    let p := leBytes 1 1 ++ leBytes 1 0 ++ leBytes 2 e.idx ++ leBytes 4 e.order.param ++ leBytes 8 e.order.word2
      ++ leBytes 6 s.tick ++ leBytes 2 0
    orderNow (chCommit s c ⟨s.now, 0x41, c, 0, 0, p⟩).2 c St.ok 0)

/-- WAIT (R94). -/
def ordWait (s : State) (c : Fin 56) : State := orderRun s c (fun o => o.op == oWait) (fun s _ => s)

/-- WAIT_EXPIRE (R36). -/
def waitExpire (s : State) (c : Fin 56) : State :=
  match (s.sq c).exec with
  | some e =>
    if e.order.op = oWait ∧ e.count = 0 ∧ e.result.isNone ∧ !s.frozen c then orderFinish (orderGives (rtSet s c rtRun) c St.ok 0) c false else s
  | none => s

/-- CALL-KEEPER (R104, R167). DEDUCED (log entry 107): a HALTED thread, which runs nothing until it is started again, counts as
stopped. DESIGN CHOICE (log entry 138): the message replaces one that still stands in the mailbox after its order timed out, and a reply
then completes the new order. -/
def ordCall (s : State) (c : Fin 56) : State :=
  orderRun s c (fun o => o.op == oCall) (fun s e =>
    let o := e.order
    let t : Fin 8 := ⟨o.param % 8, Nat.mod_lt _ (by decide)⟩
    let st := (s.th c t).st
    if st = .stopped ∨ st = .halted then orderNow s c St.rejectedState 0
    else
      (execLoaded s c).modTh c t (fun th => { th with mail := some ⟨true, e.idx, bf o.param 8 16, o.count, o.w1, o.w2, true⟩ }))

/-! ### Data orders (R100, R189) -/

/-- TIMEOUT of an order; 0 none. -/
def orderTimeout (o : Order) : Nat :=
  if o.op = oReceive ∨ o.op = oTransmit ∨ o.op = oExchange then bf o.param 0 8 else if o.op = oCall then bf o.param 24 8 else 0

/-- The residual of an order that times out: of an SPI or I2C transfer under way the `left` bytes the engine had not transferred
when the TIMEOUT-th edge passed (R100). -/
def timeoutResidual (s : State) (c : Fin 56) (e : ExecOrder) (left : Nat) : Nat × State :=
  if e.loaded ∧ inTransfer s c ∧ (e.order.op = oExchange ∨ e.order.op = oTransmit) then (min left (areaTotal e), s)
  else residualOf s c e

/-- ORDER_TIMEOUT. -/
def orderTimesOut (s : State) (c : Fin 56) (left : Nat) : State :=
  match (s.sq c).exec with
  | some e =>
    let t := orderTimeout e.order
    if e.result.isNone ∧ t ≠ 0 ∧ t ≤ e.edges then
      let (r, s) := timeoutResidual s c e left
      orderFinish (orderGives (engineRelease s c) c St.timeout r) c false
    else s
  | none => s

/-- HOST_TRANSFER_TIMEOUT (R89): a data transfer or a post that host space has not taken for 1 ms. -/
def hostTransferTimeout (s : State) (c : Fin 56) : State :=
  match (s.sq c).exec with
  | some e =>
    if e.result.isSome then orderFinish s c true
    else if areasHost (areas e) ∨ 2 ^ 63 ≤ e.order.word2 ∨ 2 ^ 63 ≤ e.order.addr then
      let (r, s) := residualOf s c e
      orderFinish (orderGives (engineRelease s c) c St.busError r) c false
    else s
  | none => s

/-- The sequencer owns the receive path (R171). -/
def seqPath (s : State) (c : Nat) : Bool := s.isSet (Fld.BE_MODE_RXPATH c)

/-- RECEIVE takes items from the RX FIFO while it can (R100). DEDUCED (log entry 106): the item that brings the last byte and is
longer than the space left gives OVERRUN with residual 0, not OK. -/
def recvPump (fuel : Nat) (s : State) (c : Fin 56) : State :=
  match fuel with
  | 0 => s
  | k + 1 =>
    match (s.sq c).exec, (s.ch c).fifos.rx with
    | some e, r :: _ =>
      let left := areaTotal e - e.count
      if e.order.op ≠ oReceive ∨ !e.loaded ∨ e.result.isSome ∨ (areasHost (areas e) ∧ !s.hostOk) then s
      else if isMarker r then orderGives (rxDrop s c) c St.overrun left
      else
        let bs := (recBytes r).drop (s.ch c).fifos.rxPos
        let s := areaStore (rxDrop s c) c (areas e) e.count (bs.take left)
        if left < bs.length then orderGives s c St.overrun 0
        else if bs.length = left then orderGives s c St.ok 0
        else if bit e.order.param 8 then orderGives s c St.okResidual (left - bs.length)
        else recvPump k (s.modSq c (fun q => { q with exec := q.exec.map (fun e => { e with count := e.count + bs.length }) })) c
    | _, _ => s

/-- RECEIVE (R100). -/
def ordReceive (s : State) (c : Fin 56) : State :=
  orderRun s c (fun o => o.op == oReceive) (fun s e =>
    if !seqPath s c then orderNow s c St.rejectedState (areaTotal e)
    else orderFinish (recvPump 64 (execLoaded s c) c) c false)

/-- Data an order sends has been read, or its read has failed, or it waits for the host. -/
def withData (s : State) (c : Fin 56) (e : ExecOrder) (as : List Order) (data : HostRd) (f : State → List Byte → State) : State :=
  if as.any (fun o => decide (2 ^ 63 ≤ o.addr)) && !s.hostOk then s
  else match areaRead s as data with
    | none => orderNow (areaMeets s as) c St.busError (areaTotal e)
    | some bs => f (seqCharge s c (areaReadCost s c as)) bs

/-- A TRANSMIT cannot be sent on the channel as it stands (R100, R225). -/
def txRestricted (s : State) (c : Nat) : Bool :=
  engineOf s c == engListen
    || (if c < 48 then modeOf s c == modeCan && s.isSet (Fld.CAN_CFG_RESTRICTED c) else !s.isSet (Fld.ETH_CFG_TX_EN c))

/-- TRANSMIT (R100, R189). -/
def ordTransmit (s : State) (c : Fin 56) (data : HostRd) : State :=
  orderRun s c (fun o => o.op == oTransmit) (fun s e =>
    if txRestricted s c then orderNow s c St.rejectedState (areaTotal e)
    else withData s c e (areas e) data (fun s bs =>
      if c.val < 48 ∧ modeOf s c = modeI2c then (execLoaded s c).emit (.busTx c bs)
      else match txSplit 4096 bs with
        | some items =>
          if items.all (txItemOk s c) then
            txFeed 31 ((execLoaded s c).modBus c (fun b => { b with txWait := items })) c
          else orderNow s c 0x83 (areaTotal e)
        | none => orderNow s c 0x83 (areaTotal e)))

/-- SELECT of an EXCHANGE is one the mode defines (R189). -/
def selectOk (s : State) (c sel : Nat) : Bool :=
  let m := modeOf s c
  if m = modeSpi then decide (sel ≤ if s.isSet (Fld.BE_MODE_SPI_CS c) then 4 else 0)
  else if m = modeI2c then decide (sel < 128)
  else m == modeUart && sel == 0

/-- EXCHANGE (R189). What leaves carries SELECT before the data. -/
def ordExchange (s : State) (c : Fin 56) (data : HostRd) : State :=
  orderRun s c (fun o => o.op == oExchange) (fun s e =>
    let sel := bf e.order.param 8 8
    if 48 ≤ c.val ∨ !seqPath s c ∨ !selectOk s c sel ∨ txRestricted s c then orderNow s c St.rejectedState (areaTotal e)
    else withData s c e [e.order] data (fun s bs =>
      driveSelects ((execLoaded s c).emit (.busTx c (leBytes 1 sel ++ bs))) c))

/-- The receive buffer of an EXCHANGE as a data area. -/
def exArea (o : Order) : List Order := [{ o with w1 := o.w2 }]

/-- A transfer ends: the chip select is released, one sent is counted (R192), and configuration writes that waited for it apply. -/
def transferEnds (s : State) (c : Fin 56) (st res : Nat) : State :=
  busLater (driveSelects (orderGives (if st = St.ok then statAdd s c statTxOk 1 else s) c st res) c) c

/-- The order in execution is an SPI or I2C transfer in mode `m` under way. -/
def inTransferOf (s : State) (c : Fin 56) (m : Nat) : Option ExecOrder :=
  match (s.sq c).exec with
  | some e => if inTransfer s c ∧ modeOf s c = m then some e else none
  | none => none

/-- The received data of an EXCHANGE is accepted. -/
def exStore (s : State) (c : Fin 56) (e : ExecOrder) (bs : List Byte) : State :=
  areaStore s c (exArea e.order) 0 ((bs ++ zeros e.order.count).take e.order.count)

/-- The receive buffer of an EXCHANGE can be written. -/
def exOk (s : State) (e : ExecOrder) : Bool := !(e.order.op == oExchange && areasHost (exArea e.order)) || s.hostOk

/-- SPI_TRANSFER_DONE (R189). -/
def spiDone (s : State) (c : Fin 56) (bs : List Byte) : State :=
  match inTransferOf s c modeSpi with
  | some e => if exOk s e then transferEnds (exStore s c e bs) c St.ok 0 else s
  | none => s

/-- I2C_TRANSFER_DONE (R184, R195): `addr` is the address acknowledged. -/
def i2cDone (s : State) (c : Fin 56) (addr : Nat) (bs : List Byte) : State :=
  match inTransferOf s c modeI2c with
  | some e =>
    if exOk s e then
      let s := partnerSeen s c 0x07 (if e.order.op = oExchange then bf e.order.param 8 7 else addr) s.now
      transferEnds (if e.order.op = oExchange then exStore s c e bs else s) c St.ok 0
    else s
  | none => s

/-- An I2C transfer ends with an error, `left` bytes not transferred (R184). -/
def i2cFails (s : State) (c : Fin 56) (left st : Nat) (f : State → State) : State :=
  match inTransferOf s c modeI2c with
  | some _ => transferEnds (busEvent (f s) c) c st left
  | none => s

/-- I2C_STRETCH_TIMEOUT, I2C_ARB_LOST. DESIGN CHOICE (log entry 140): neither counts in PROTO_ERRORS. -/
def i2cStretch (s : State) (c : Fin 56) (left : Nat) : State :=
  i2cFails s c left St.busError (fun s => s.raise (Fld.BE_EVT_PROTO_ERR c))
def i2cArb (s : State) (c : Fin 56) (left : Nat) : State :=
  i2cFails s c left St.busError (fun s => s.raise (Fld.BE_EVT_ARB_LOST c))

/-- I2C_NACK: of the address byte (`addr` the address), or of a byte written after it, whose address was acknowledged (R195). -/
def i2cNack (s : State) (c : Fin 56) (ofAddr : Bool) (addr left : Nat) : State :=
  i2cFails s c left (if ofAddr then St.noPartner else St.busError) (fun s =>
    let s := s.raise (Fld.BE_EVT_NO_RESPONSE c)
    if ofAddr then partnerNack s c addr else partnerSeen s c 0x07 addr s.now)

/-- The order in execution ends with BUS_ERROR for an error of the bus engine (R100). -/
def orderBusError (s : State) (c : Fin 56) (e : ExecOrder) : State :=
  let (r, s) := residualOf s c e
  orderGives (engineRelease s c) c St.busError r

/-- A UART character goes to an EXCHANGE in execution: the character's low 8 bits (R189), or with a framing or parity error its end
(R100). `none` when no EXCHANGE takes it. -/
def uartExchange (s : State) (c : Fin 56) (ch : Nat) (err : Bool) : Option State :=
  match (s.sq c).exec with
  | some e =>
    if modeOf s c = modeUart ∧ e.order.op = oExchange ∧ e.loaded ∧ e.result.isNone then
      if err then some (orderBusError (protoError s c) c e) else
      let s := s.modBus c (fun b => { b with exRx := b.exRx ++ [BitVec.ofNat 8 ch] })
      let got := (s.ch c).bus.exRx
      some (if e.order.count ≤ got.length ∧ exOk s e then
          transferEnds ((exStore s c e got).modBus c (fun b => { b with exRx := [] })) c St.ok 0
        else s)
    else none
  | none => none

/-- The TRANSMIT whose items the engine sends. -/
def transmitting (s : State) (c : Fin 56) : Option ExecOrder :=
  match (s.sq c).exec with
  | some e => if e.order.op = oTransmit ∧ e.loaded ∧ e.result.isNone then some e else none
  | none => none

/-- The engine gives up the item at the head of the TX FIFO after an error: it is not sent again, and an order whose item it was
completes with BUS_ERROR (R100). -/
def txGiveUp (s : State) (c : Fin 56) : State :=
  let s := txReach s c
  match (s.ch c).fifos.tx with
  | .item _ own :: _ =>
    let drop (s : State) : State := s.modFifos c (fun f => { f with tx := f.tx.tail })
    (match own, transmitting s c with
     | true, some e => let (r, s) := residualOf s c e; orderGives (engineRelease (drop s) c) c St.busError r
     | _, _ => txFeed 31 (drop s) c)
  | _ => s

/-- A transmit error of the CAN engine: with NO_RETX the frame is not sent again (R178), and a TRANSMIT ends when the engine has gone
BUS_OFF (R100). -/
def txError (s : State) (c : Fin 56) (tx : Bool) : State :=
  if modeOf s c = modeCan then
    let s := if tx && s.isSet (Fld.CAN_CFG_NO_RETX c) then txGiveUp s c else s
    match decide (engineOf s c = engBusOff), transmitting s c with
    | true, some e => orderBusError s c e
    | _, _ => s
  else s

/-- A LIN frame that the channel sent has ended with an error (R100): its item is not sent again. The item may have been counted as
sent before. -/
def linTxError (s : State) (c : Fin 56) (f : LinFrame) : State :=
  if modeOf s c = modeLin ∧ engineUp s c ∧ f.tx ∧ (linSumBad f ∨ linParBad f.pid.toNat) then
    if s.get (Fld.LIN_CFG_ROLE c) = 1 ∧ !(s.ch c).bus.linSend then
      (match transmitting s c with | some e => orderBusError s c e | none => s)
    else (txGiveUp s c).modBus c (fun b => { b with linSend := false })
  else s

/-! ### CONTROL (R190, R226) -/

/-- A CONTROL order with one of the codes `sel` takes completes with what `f` gives. -/
def ordControl (s : State) (c : Fin 56) (sel : Nat → Bool) (f : State → Nat → Nat × State) : State :=
  orderRun s c (fun o => o.op == oControl && sel (bf o.param 0 16)) (fun s e =>
    let (st, s) := f s e.order.word2
    orderNow s c st 0)

/-- An engine code on a stream channel: MODE NONE has no engine, as on a field channel (R190). -/
def streamEngine (s : State) (c : Fin 56) (f : State → State) : Nat × State :=
  if modeOf s c = modeNone then (St.rejectedState, s) else (St.ok, f s)

/-- BUS_ON_LISTEN, BUS_ON, BUS_OFF. -/
def ctlOnListen (s : State) (c : Fin 56) : State :=
  ordControl s c (· == 1) (fun s _ =>
    if c.val < 48 then fieldOnListen s c else streamEngine s c (fun s => s.put (Fld.BE_STATUS_ENGINE c) engListen))
def ctlOn (s : State) (c : Fin 56) : State :=
  ordControl s c (· == 2) (fun s _ =>
    if c.val < 48 then fieldOn s c else streamEngine s c (fun s => s.put (Fld.BE_STATUS_ENGINE c) engOn))
def ctlOff (s : State) (c : Fin 56) : State :=
  ordControl s c (· == 3) (fun s _ => if c.val < 48 then fieldOff s c else streamEngine s c (fun s => ethTurnOff s c))

/-- SET_MODE, on field channels. -/
def ctlSetMode (s : State) (c : Fin 56) : State :=
  ordControl s c (fun k => k == 4 && decide (c.val < 48)) (fun s w => fieldSetMode s c w)

/-- CLEAR_PARTNERS. -/
def ctlClearPartners (s : State) (c : Fin 56) : State := ordControl s c (· == 6) (fun s _ => (St.ok, partnersClear s c))

/-- PARTNER_SCAN: `acks` has the bit of every address that acknowledges (R190, R195). -/
def ctlScan (s : State) (c : Fin 56) (acks : Nat) : State :=
  ordControl s c (fun k => k == 7 && decide (c.val < 48)) (fun s _ =>
    if modeOf s c = modeI2c then
      (St.ok, (List.range 112).foldl (fun s i =>
        if bit acks (i + 8) then partnerSeen s c 0x07 (i + 8) s.now else partnerNack s c (i + 8)) s)
    else (St.rejectedState, s))

/-- CLEAR_COUNTERS. -/
def ctlClearCounters (s : State) (c : Fin 56) : State := ordControl s c (· == 8) (fun s _ => (St.ok, statClear s c))

/-- A SET_CFG code of the channel. -/
def setCfgCode (c code : Nat) : Bool := decide (0x100 ≤ code ∧ code ≤ if c < 48 then 0x10D else 0x10F)

/-- SET_CFG: a value that would be taken with the engine OFF is refused for the engine's state, any other for itself. A refused one
sets BE_EVT.CFG_REFUSED, as every refused write of the register (R219, R426). -/
def ctlSetCfg (s : State) (c : Fin 56) : State :=
  orderRun s c (fun o => o.op == oControl && setCfgCode c (bf o.param 0 16)) (fun s e =>
    let off := 0x108 + (bf e.order.param 0 16 - 0x100) * 8
    let a := chPage c 2 + off
    let w := e.order.word2
    if rsvHit a w then orderNow s c 0x82 0
    else match wrBus s c off w with
      | .ok s => orderNow s c St.ok 0
      | r =>
        let off' := s.put (Fld.BE_STATUS_ENGINE c) engOff
        let ok := if c.val < 48 then busCfgOk off' c off w else ethCfgOk off' c off w
        orderNow (match r with | .own t => t | _ => s) c (if ok then St.rejectedState else 0x82) 0)

/-- The codes a channel of the kind of `c` defines. -/
def controlDefined (c code : Nat) : Bool :=
  code == 1 || code == 2 || code == 3 || code == 6 || code == 8 || setCfgCode c code
    || (decide (c < 48) && (code == 4 || code == 7))

/-- CONTROL_CODE_UNDEFINED. -/
def ctlUndefined (s : State) (c : Fin 56) : State :=
  ordControl s c (fun k => !controlDefined c k) (fun s _ => (St.rejectedState, s))

/-! ### SENSE (R191, R226) -/

/-- A SENSE order with code `code` writes its block. -/
def ordSense (s : State) (c : Fin 56) (code : Nat) (block : State → List Byte) : State :=
  orderRun s c (fun o => o.op == oSense && bf o.param 0 16 == code) (fun s e =>
    let o := e.order
    if 2 ^ 63 ≤ o.addr ∧ !s.hostOk then s
    else
      let b := (block s).take o.count
      let s := bufWrite (seqCharge s c (writeCost o.addr b.length)) o.addr b
      if b.length < o.count then orderNow s c St.okResidual (o.count - b.length) else orderNow s c St.ok 0)

/-- SENSE_COUNTERS, SENSE_BE_STATUS, SENSE_PARTNER_TABLE, SENSE_BUSENG_CONFIG. -/
def senseCounters (s : State) (c : Fin 56) : State := ordSense s c 1 (fun s => countersBlock s c)
def senseStatus (s : State) (c : Fin 56) : State := ordSense s c 2 (fun s => leBytes 8 (regVal s (Reg.BE_STATUS c)))
def sensePartners (s : State) (c : Fin 56) : State := ordSense s c 3 (fun s => partnersBlock s c)
def senseConfig (s : State) (c : Fin 56) : State :=
  ordSense s c 4 (fun s => ((List.range (if c.val < 48 then 14 else 15)).map (fun i =>
    leBytes 8 (regVal s (chPage c 2 + 0x108 + 8 * i)))).flatten)

/-- SENSE_CODE_UNDEFINED. -/
def senseUndefined (s : State) (c : Fin 56) : State :=
  orderRun s c (fun o => o.op == oSense && !(decide (1 ≤ bf o.param 0 16 ∧ bf o.param 0 16 ≤ 4))) (fun s e =>
    orderNow s c St.rejectedState e.order.count)

end Sys2Proof.Machine
end

