-- ==== Sys2Proof/Machine/Sequences.lean ====
section
/-!
DEFINITION. The sequences of a channel: enabling and disabling it (07, R173; 04, R115), fencing it (15, R343), moving it to a
spare tile (15, R344–R346), loading its keeper and starting and stopping its threads (06, R147–R151, R169, R170).
-/
namespace Sys2Proof.Machine

/-! ### Repair map and tiles (R12, R13, R346) -/

/-- A tile of the kind of channel `c`. -/
def tileKind (c t : Nat) : Bool := if c < 48 then decide (t < 52) else decide (52 ≤ t ∧ t < 61)

/-- A tile is in use by a channel, or is the target of a reseat. -/
def tileUsed (s : State) (t : Nat) : Bool :=
  (List.finRange 56).any (fun c => (chState s c != chAbsent && s.get (Fld.CHAN_STATE_TILE c) == t)
    || (match (s.ch c).reseat with | some r => r.target == t || r.old == t | none => false))

/-- A good idle tile of the kind of channel `c`. -/
def tileSpare (s : State) (c t : Nat) : Bool := tileKind c t && !tileUsed s t && !s.tilesOut.contains t

/-- REPAIR's counts of good idle tiles. -/
def spareRegs (s : State) : State :=
  let s := s.put Fld.REPAIR_FIELD_SPARES ((List.range 52).filter (tileSpare s 0)).length
  s.put Fld.REPAIR_STREAM_SPARE (b2n ((List.range 61).any (tileSpare s 48)))

/-- Retire a tile. -/
def retireTile (s : State) (t : Nat) : State :=
  spareRegs (repairAdd { s with tilesOut := t :: s.tilesOut } 1 t 0 0)

/-! ### CHANNEL_ENABLE (R173) -/

/-- CHANNEL_ENABLE starts: it waits for the next edge. -/
def chanEnable (s : State) (c : Fin 56) : State :=
  chanStart s c opChanEnable (fun e => updEntry s { e with stage := .edge })

/-- The checks at the edge at which the enable would take effect. -/
def enableOk (s : State) (c : Fin 56) : Bool :=
  chState s c == chDisabled && modeChecks s c (modeOf s c) && lsHolds s c

/-- The channel that lends its pins to `c`. -/
def lender (c : Nat) : Nat := c + 1

/-- A lender becomes LENT or is given back (R173, R174). -/
def lend (s : State) (c : Fin 56) (on : Bool) : State :=
  if c.val < 47 then
    if on then (if s.isSet (Fld.BE_MODE_SPI_CS c) then s.put (Fld.CHAN_STATE_STATE (lender c)) chLent else s)
    else if chState s (lender c) = chLent then driveLender (s.put (Fld.CHAN_STATE_STATE (lender c)) chDisabled) c else s
  else s

/-- The engine of a channel that becomes enabled (R180, R184, R190). -/
def engineEnable (s : State) (c : Fin 56) (auto : Bool) : State :=
  let m := modeOf s c
  if c.val < 48 ∧ ctrlMode m then busTurnOn s c false
  else if auto ∧ m ≠ modeNone then
    (if c.val < 48 then busTurnOn s c true else s.put (Fld.BE_STATUS_ENGINE c) engListen)
  else (s.put (Fld.BE_STATUS_ENGINE c) engOff).modBus c (fun b => { b with offNs := none })

/-- Start the threads whose image record has AUTOSTART (R151). -/
def autostartThreads (s : State) (c : Fin 56) : State :=
  match s.isSet (Fld.KSTATUS_IMAGE_VALID c), (s.kp c).image with
  | true, some im => s.eachTh c (fun s c t =>
      match im.threads[t.val]? with
      | some r =>
        if r.autostart then
          (match im.entries[r.start]? with | some e => startThread s c t e.addr | none => s)
        else s
      | none => s)
  | _, _ => s

/-- CHANNEL_ENABLE takes effect (R151, R173, R192, R195, R232, R241, R255). -/
def chanEnabled (s : State) (c : Fin 56) : State :=
  let s := lend (s.put (Fld.CHAN_STATE_STATE c) chEnabled) c true
  let s := statClear (fifosClear s c) c
  let s := (List.range 64).foldl (fun s i =>
    if s.get (Fld.PT_ENTRY_STATE c i) ≠ partnerFree then s.put (Fld.PT_ENTRY_STATE c i) partnerAbsent else s) s
  let s := (s.put (Fld.CH_STATS1_DROPPED c) 0).put (Fld.CH_STATS1_GAPS c) 0
  let s := (s.put (Fld.CH_STATS0_DRAINS c) 0).put (Fld.CH_STATS0_REFUSED c) 0
  let s := regApply s (Reg.CH_EVT c) (2 ^ 64 - 1)
  let s := s.modCh c (fun x => { x with chamber := Chamber.reset })
  let s := sigClearChan s c
  let s := (s.clear (Fld.ROUTE_STATE_END_VALID c)).put (Fld.SEQ_STATS_ORDERS_DONE c) 0
  let s := engineEnable s c (s.isSet (Fld.BE_MODE_AUTO_ON c))
  let s := if 48 ≤ c.val then s.emit (.phyRst c false) else s
  autostartThreads s c

/-- The head CHANNEL_ENABLE of a channel at a tick edge. -/
def enableEdge (s : State) (c : Fin 56) : State :=
  match chanHead s c opChanEnable with
  | some e =>
    if e.stage = .edge then
      (if enableOk s c then complete (chanEnabled s c) e St.ok [] else complete s e St.rejectedState [])
    else s
  | none => s

/-! ### CHANNEL_DISABLE and fences (R115, R216, R343) -/

/-- A route, barge program or keeper work is in flight. -/
def workInFlight (s : State) (c : Fin 56) : Bool :=
  routeBusy s c || bmInFlight s c
    || (List.finRange 8).any (fun t => [ThState.run, .waitev, .yielded].contains (s.th c t).st)

/-- Lost items, the later ones `h` after those of `g`. -/
def GapCount.join (g h : GapCount) : GapCount :=
  if g.count = 0 then h else if h.count = 0 then g else ⟨g.count + h.count, min g.first h.first, h.last⟩

/-- Lost items with known timestamps, the first first. -/
def lostAt (ts : List Nat) : GapCount := ⟨ts.length, ts.foldl min (ts.headD 0), ts.getLastD 0⟩

/-- The bus engine stops accepting traffic. -/
def engineStop (s : State) (c : Fin 56) : State := if c.val < 48 then busTurnOff s c else ethTurnOff s c

/-- A CAN, SENT or PSI5 frame may be arriving that no command has shown: whether one is, and its timestamp, are free (log entry
141). -/
def unseenLost (s : State) (c : Fin 56) : GapCount × State :=
  let (n, s) := s.drawFree
  let s := s.modBus c (fun b => { b with offNs := none })
  if (Config.freeWord n).getLsbD 0 then
    (lostAt [(Config.freeWord (n + 1)).toNat % (s.now + 1)], statAdd s c statDropped 1)
  else (⟨0, 0, 0⟩, s)

/-- The engine stops, and an item that still arrives is lost, counted once (R115, R343). -/
def engineLoses (s : State) (c : Fin 56) : GapCount × State :=
  let b := (s.ch c).bus
  let m := modeOf s c
  let seen := (b.uart.map UartItem.ts).toList ++ (b.linHdr.map (·.2)).toList ++ ((s.eth c).rx.map EthRx.ts).toList
  let t := engineStop s c
  if engineUp s c then
    if c.val < 48 ∧ (m = modeCan ∨ m = modeSent ∨ m = modePsi5) then unseenLost t c else (lostAt seen, t)
  else (⟨0, 0, 0⟩, t)

/-- CHANNEL_DISABLE is accepted, or rejected. -/
def chanDisable (s : State) (c : Fin 56) : State :=
  chanStart s c opChanDisable (fun e =>
    let st := chState s c
    if st ≠ chEnabled ∧ st ≠ chFenced then complete s e St.rejectedState []
    else
      let busy := workInFlight s c
      let s := updEntry s { e with stage := .running }
      let s := lend (s.put (Fld.CHAN_STATE_STATE c) chDisabling) c false
      let s := s.modCh c (fun x => { x with stopping := some ⟨some e.serial, false, s.tick, 0, busy, ⟨0, 0, 0⟩⟩ })
      routeStop s c .disable)

/-- A fence of a channel (R343). -/
def chanFence (s : State) (c : Fin 56) : State :=
  if chState s c = chEnabled then
    let (g, s) := engineLoses (s.put (Fld.CHAN_STATE_STATE c) chFenced) c
    let s := if 48 ≤ c.val then s.emit (.phyRst c true) else s
    let s := s.modCh c (fun x => { x with stopping := some ⟨none, true, s.tick, 0, false, g⟩ })
    (routeStop s c .fence).raise Fld.FAULT_EVT_FENCED
  else s

/-- An item that comes while the engine is OFF in a fence, which a reseat may follow, is counted (R346), with its timestamp if that
is known. -/
def fencedItem (s : State) (c : Fin 56) (ts : Option Nat) : State :=
  let g : GapCount := ⟨1, ((ts.map (min s.now)).getD s.now), (ts.map (min s.now)).getD 0⟩
  s.modCh c (fun x => { x with stopping := x.stopping.map (fun p => if p.fenced then { p with lost := p.lost.join g } else p) })

/-- At the edge at which the channel's route stops, keeper threads stop and are left stopped. A call that waits for one of them is
the route's current order and posts ABANDONED (R115), not REJECTED_STATE. -/
def threadsStop (s : State) (c : Fin 56) : State :=
  (mailDead s c).eachTh c (fun s c t =>
    if [ThState.run, .waitev, .yielded].contains (s.th c t).st then threadLeaves s c t .stopped else s)

/-- A KEEPER_THREAD whose thread a fence stops before its first issue ends with the fence's status (DEDUCED, log entry 110). -/
def startFenced (s : State) (c : Fin 56) : State :=
  match chanHead s c opKeeperThread with
  | some e => if e.stage = .running then complete s e St.fenced [] else s
  | none => s

/-- What the RX FIFO of a channel holds and a stop loses: its items, on a stream channel frames only (R224), and what its marker
stands for, whose last timestamp is not known. -/
def rxLost (c : Nat) (rx : List Rec) : GapCount :=
  (lostAt ((rx.filter (fun r => !isMarker r && (decide (c < 48) || r.typ == 0x10))).map Rec.ts)).join
    ((rx.filter isMarker).foldl (fun g m => g.join ⟨markerCount m, m.ts, 0⟩) ⟨0, 0, 0⟩)

/-- The gap record of what a stop or fence has lost (R115, R233, R346). -/
def lossCommit (s : State) (c : Fin 56) (g : GapCount) : State :=
  if g.count = 0 then s else (chCommit s c (gapRec g.first c 0 g.count 5 g.last)).2

/-- E1 (R115): the engine, the mover and the threads stop; what arrived and what the RX FIFO holds is counted, and a gap
record carries the count. -/
def stopEdge1 (s : State) (c : Fin 56) (p : Stopping) : State :=
  let rx := (s.ch c).fifos.rx
  let left := (rx.filter (fun r => !isMarker r && (c.val < 48 || r.typ == 0x10))).length
  let (arr, s) := engineLoses s c
  let s := (statAdd s c statDropped left).modFifos c (fun f => { f with rx := [], rxPos := 0 })
  let s := threadsStop (bmStop s c) c
  let s := if p.fenced then startFenced s c else s
  let s := lossCommit s c (((rxLost c rx).join p.lost).join arr)
  s.modCh c (fun x => { x with stopping := some { p with edges := 1, lost := ⟨0, 0, 0⟩ } })

/-- Every half that holds records of the sequence has drained. -/
def chDrained (s : State) (c : Fin 56) : Bool :=
  (s.ch c).chamber.owing.isEmpty

/-- An entry of a channel by its dispatch number. -/
def entryOf (s : State) (c : Fin 56) (serial : Option Nat) : Option WorkEntry :=
  match serial with
  | some n => (s.ch c).cmdq.find? (fun e => e.serial == n)
  | none => none

/-- The disable sequence completes (R105, R115, R255). -/
def stopCheck (s : State) (c : Fin 56) : State :=
  match (s.ch c).stopping with
  | some p =>
    if p.fenced || decide (p.edges < 2) || !chDrained s c then s
    else
      let s := s.modCh c (fun x => { x with stopping := none, chamber := { x.chamber with bind := none } })
      let s := sigStale (s.put (Fld.ROUTE_FLAGS_FLAGS c) 0) c
      let s := s.put (Fld.CHAN_STATE_STATE c) chDisabled
      let s := if 48 ≤ c.val then s.emit (.phyRst c true) else s
      match entryOf s c p.serial with
      | some e => complete s e St.ok (leBytes 1 (b2n p.busy))
      | none => s
  | none => s

/-- A tick edge in a disable or fence sequence, after the swap. -/
def stopEdge (s : State) (c : Fin 56) : State :=
  match (s.ch c).stopping with
  | some p =>
    if p.edges = 0 then stopEdge1 s c p
    else stopCheck (s.modCh c (fun x => { x with stopping := some { p with edges := p.edges + 1 } })) c
  | none => s

/-- LOST_DRAIN (R243): a half still FULL when the bound has passed is discarded, and a gap extent takes its place. -/
def lostDrain (s : State) (c : Fin 56) : State :=
  match (s.ch c).stopping, (s.ch c).chamber.oldestFull with
  | some p, some i =>
    if p.edges < 3 then s
    else
      let h := (s.ch c).chamber.half i
      let first := match h.recs with | r :: _ => r.ts | [] => s.now
      let last := match h.recs.getLast? with | some r => r.ts | none => s.now
      let r := gapRec first c h.firstSeq h.nSeq 5 last
      let ch := (s.ch c).chamber
      let s := if ch.weir && ch.weirGap.isSome then s.bumpWrap (Fld.CH_STATS1_GAPS c) 1 else s
      let s := s.modCh c (fun x => { x with chamber := drainEnd x.chamber i c })
      let s := (s.raise (Fld.CH_EVT_LOST c)).raise Fld.POUND_EVT_LOST_DRAIN
      let s := if h.nSeq = 0 then s
        else addExt s ⟨s.nextExt, c, h.tick, h.sub, 32, [r], [(s.ch c).chamber.bind], true, h.refused, none⟩
      stopCheck s c
  | _, _ => s

/-! ### Reseat (R344–R346) -/

/-- The tile a reseat takes: the named one, or the lowest spare. -/
def reseatTarget (s : State) (c named : Nat) : Option Nat :=
  if named = 0xFF then (List.range 61).find? (tileSpare s c) else if tileSpare s c named then some named else none

/-- A reseat begins: the target has been tested, with result `ok`. -/
def reseatBegin (s : State) (c : Fin 56) (serial : Option Nat) (t : Nat) : State :=
  let fenced := decide (chState s c = chFenced)
  let s := s.modCh c (fun x => { x with reseat := some ⟨serial, s.get (Fld.CHAN_STATE_TILE c), t, fenced, .copying, 0, 0⟩ })
  spareRegs (s.put (Fld.CHAN_STATE_STATE c) chReseating)

/-- CHANNEL_RESEAT: `ok` is the March test of the target. -/
def chanReseat (s : State) (c : Fin 56) (ok : Bool) : State :=
  chanStart s c opChanReseat (fun e =>
    let t := e.arg 24 1
    let st := chState s c
    if !(decide (48 ≤ t ∧ t ≤ 51) || t == 60 || t == 0xFF) then complete s e St.badOperand []
    else if (st ≠ chEnabled ∧ st ≠ chFenced) ∨ (t ≠ 0xFF ∧ !tileKind c t) then complete s e St.rejectedState []
    else match reseatTarget s c t with
      | none => complete s e 0x81 []
      | some u =>
        if ok then reseatBegin (updEntry s { e with stage := .running }) c (some e.serial) u
        else complete (retireTile s u) e 0x82 [])

/-- The automatic reseat that follows a fence (R343, R346): of the spare tiles it takes in turn, `bad` fail the March test and are
retired. -/
def autoReseat (bad : Nat) (s : State) (c : Fin 56) : State :=
  if chState s c = chFenced ∧ s.isSet Fld.FAULT_CTRL_AUTO_RESEAT then
    match reseatTarget s c 0xFF, bad with
    | none, _ => s.raise Fld.FAULT_EVT_RESEAT_FAIL
    | some u, 0 => reseatBegin s c none u
    | some u, k + 1 => autoReseat k (retireTile s u) c
  else s

/-- RESEAT_COPY_DONE: the code-store copy has finished. -/
def reseatCopied (s : State) (c : Fin 56) : State :=
  s.modCh c (fun x => { x with reseat := x.reseat.map (fun r =>
    if r.phase = .copying then { r with phase := if r.fenced then .waitEnable else .waitEdge } else r) })

/-- The new tile's chamber (R345): its half 0 fills, in WEIR beginning with the record that counts what was dropped, and its half 1 is
EMPTY; the halves that have not drained stay on the old tile. -/
def newTile (ch : Chamber) (chan : Nat) : Chamber :=
  let l := ch.owing
  let left (k : Nat) : ChHalf := match l[k]? with | some i => ch.half i | none => ChHalf.reset
  let place (i : Nat) : Nat := match l.findIdx? (· == i) with | some k => 2 + k | none => 0
  let n : Chamber := { ch with h0 := ch.half ch.filling, h1 := ChHalf.reset, old0 := left 0, old1 := left 1, filling := 0
                               copies := ch.copies.map (fun k => { k with half := place k.half }) }
  if ch.weir then n.fill 0 chan else n

/-- Words known to be bad that a copy carries over. -/
def tileBad (s : State) (c : Fin 56) : Nat :=
  (s.poison.filter (fun g => decide (tileGranule c ≤ g) && decide (g < tileGranule (c + 1)))).length
    + (s.kp c).codeBad.length

/-- The reseat completes (R341, R345, R346, R353). -/
def reseatDone (s : State) (c : Fin 56) (r : Reseat) : State :=
  let s := s.modCh c (fun x => { x with reseat := none })
  let s := (s.put (Fld.CHAN_STATE_STATE c) chEnabled).put (Fld.CHAN_STATE_TILE c) r.target
  let s := if r.fenced ∨ bit s.pinsSeen c then retireTile s r.old else spareRegs s
  let s := { s with pinsSeen := s.pinsSeen - (s.pinsSeen &&& 2 ^ c.val) }
  let s := diagRec (s.raise Fld.FAULT_EVT_RESEAT_DONE) 4 c (r.old + r.target * 256) (b2n r.fenced) r.cutTick 0
  let s := thLog s c 0x0202 (leBytes 1 c ++ leBytes 1 r.old ++ leBytes 1 r.target ++ leBytes 4 (if r.fenced then tileBad s c else 0))
  let s := if s.isSet Fld.FAULT_TIMER_VALID ∧ s.get Fld.FAULT_FIRST_BIT = c then faultValid s false else s
  match entryOf s c r.serial with
  | some e => complete s e St.ok (leBytes 1 r.target)
  | none => s

/-- The old tile's records of the ticks before the cutover have drained. -/
def reseatCheck (s : State) (c : Fin 56) : State :=
  match (s.ch c).reseat with
  | some r =>
    let ch := (s.ch c).chamber
    if r.phase = .draining ∧ !ch.owing.any (fun i => decide (2 ≤ i)) then reseatDone s c r else s
  | none => s

/-- The channel may cut over at this edge: no transfer on its bus, the mover not inside a MOVE. What waits in the TX FIFO may be on
the bus or not. -/
def cutOk (s : State) (c : Fin 56) : Bool × State :=
  let idle := !inTransfer s c && (s.barge c).move.isNone
  if idle ∧ txItems (s.ch c).fifos ≠ 0 ∧ engineOf s c = engOn then
    let (n, s) := s.drawFree
    ((Config.freeWord n).getLsbD 0, s)
  else (idle, s)

/-- A fenced channel becomes ENABLED on its new tile (R346). -/
def reseatFenced (s : State) (c : Fin 56) (r : Reseat) : State :=
  let g := match (s.ch c).stopping with | some p => p.lost | none => ⟨0, 0, 0⟩
  let s := lossCommit (s.modCh c (fun x => { x with stopping := none, chamber := newTile x.chamber c })) c g
  let s := reseatDone s c { r with cutTick := s.tick }
  let s := engineEnable s c false
  let s := if 48 ≤ c.val then s.emit (.phyRst c false) else s
  let s := autostartThreads s c
  match s.toll.auto.find? (fun a => a.chan == c.val && a.route) with
  | some a => (cmdPush s c (routeEntry s .autostart c a.addr.toNat a.limit)).getD (s.raise (Fld.ROUTE_EVT_KS_REFUSED c))
  | none => s

/-- A tick edge of a reseat, after the swap. -/
def reseatEdge (s : State) (c : Fin 56) : State :=
  match (s.ch c).reseat with
  | none => s
  | some r =>
    match r.phase with
    | .waitEdge =>
      if 16 ≤ r.edges then s else
      let (ok, s) := cutOk s c
      let r := if ok then { r with phase := .frozen, cutTick := s.tick } else { r with edges := r.edges + 1 }
      s.modCh c (fun x => { x with reseat := some r, chamber := if ok then newTile x.chamber c else x.chamber })
    | .waitEnable =>
      let ready := match (s.ch c).stopping with | some p => decide (2 ≤ p.edges) && chDrained s c | none => true
      if ready then reseatFenced s c r else s
    | _ => s

/-- RESEAT_RESUME: threads and sequencer resume on the target; orders due at the cutover start now. -/
def reseatResume (s : State) (c : Fin 56) : State :=
  match (s.ch c).reseat with
  | some r =>
    if r.phase = .frozen then
      let s := s.modCh c (fun x => { x with reseat := some { r with phase := .draining } })
      let s := s.put (Fld.CHAN_STATE_TILE c) r.target
      let s := s.eachTh c (fun s c t => s.modTh c t (fun th => { th with cur := none, nxt := none }))
      reseatCheck (seqEdge s c) c
    else s
  | none => s

/-- RESEAT_TIMEOUT: no edge has qualified within 16 ticks. -/
def reseatTimeout (s : State) (c : Fin 56) : State :=
  match (s.ch c).reseat with
  | some r =>
    if r.phase = .waitEdge ∧ 16 ≤ r.edges then
      let s := (s.modCh c (fun x => { x with reseat := none })).put (Fld.CHAN_STATE_STATE c) chEnabled
      let s := spareRegs s
      match entryOf s c r.serial with
      | some e => complete s e St.timeout []
      | none => s
    else s
  | none => s

/-! ### KEEPER_THREAD (R147–R150) -/

/-- The KEEPER_THREAD that started a thread completes in the slot of the thread's first issue (R150). -/
def startIssued (s : State) (c : Fin 56) (t : Fin 8) : State :=
  match chanHead s c opKeeperThread with
  | some e => if e.stage = .running ∧ e.arg 25 1 = 1 ∧ e.arg 24 1 = t.val then complete s e St.ok [] else s
  | none => s

/-- What a thread does in an issue slot is `f`. One that holds no line, after a start or a reseat, reads its lines at PC first (R150,
R345); it issues when cycles are counted. -/
def inSlot (s : State) (c : Fin 56) (t : Fin 8) (f : State → State) : State :=
  let th := s.th c t
  if th.cur.isSome || th.nxt.isSome then f s
  else
    let u := f (s.modTh c t (fun th => loadLines (s.kp c) th th.pc))
    if (u.th c t).used = th.used then s else startIssued u c t

/-- A thread issues instruction `i`, if that is what it has to issue. -/
def kIssues (s : State) (c : Fin 56) (t : Fin 8) (i : KInstr) : State := inSlot s c t (fun s => kStep s c t i)

/-- KEEPER_THREAD with ACTION 1, or with an ACTION that is neither. -/
def keeperStart (s : State) (c : Fin 56) : State :=
  chanStart s c opKeeperThread (fun e =>
    let t : Fin 8 := ⟨e.arg 24 1 % 8, Nat.mod_lt _ (by decide)⟩
    if e.arg 25 1 = 0 then s
    else if 8 ≤ e.arg 24 1 ∨ 2 ≤ e.arg 25 1 then complete s e St.badOperand []
    else
      let en := match (s.kp c).image with
        | some im => im.entries[e.arg 26 2]?
        | none => none
      match en with
      | some k =>
        if chAccepts s c && s.isSet (Fld.KSTATUS_IMAGE_VALID c) && k.kind == 1 && k.thread == t.val
            && ((s.th c t).st == .stopped || (s.th c t).st == .halted) then
          startThread (updEntry s { e with stage := .running }) c t k.addr
        else complete s e St.rejectedState []
      | none => complete s e St.rejectedState [])

/-- KEEPER_THREAD with ACTION 0. -/
def keeperStop (s : State) (c : Fin 56) : State :=
  chanStart s c opKeeperThread (fun e =>
    let t : Fin 8 := ⟨e.arg 24 1 % 8, Nat.mod_lt _ (by decide)⟩
    if e.arg 25 1 ≠ 0 then s
    else if 8 ≤ e.arg 24 1 ∨ e.arg 26 2 ≠ 0 then complete s e St.badOperand []
    else if chState s c = chAbsent then complete s e St.rejectedState []
    else if (s.th c t).st = .stopped then complete s e St.ok []
    else
      let s := threadLeaves s c t .stopped
      let m := s.get (Fld.KSTATUS_HALTED_MASK c)
      complete (s.put (Fld.KSTATUS_HALTED_MASK c) (m - (m &&& 2 ^ t.val))) e St.ok [])

/-! ### KEEPER_LOAD (R169, R170) -/

/-- Thread record `t` of an image. -/
def imgThread (b : List Byte) (t : Nat) : KThreadRec :=
  let r := bsub b (64 + 16 * t) 16
  ⟨leAt r 0 4, BitVec.ofNat 16 (leAt r 4 2), leAt r 6 2, bit (leAt r 8 1) 0⟩

/-- Entry record `i`. -/
def imgEntry (b : List Byte) (i : Nat) : KEntry :=
  let r := bsub b (192 + 16 * i) 16
  ⟨leAt r 0 1, leAt r 1 1, BitVec.ofNat 16 (leAt r 2 2), leAt r 4 4⟩

/-- Pin record `i` of an image of `n` entries. -/
def imgPin (b : List Byte) (n i : Nat) : Nat × Nat × Half :=
  let r := bsub b (192 + 16 * n + 8 * i) 8
  (leAt r 0 1, leAt r 1 1, BitVec.ofNat 16 (leAt r 2 2))

/-- The header's check in the first step: LOAD_REASON, 0 when it passes. -/
def imgHeader (b : List Byte) (len : Nat) : Nat :=
  let code := leAt b 20 4
  let base := leAt b 24 2
  let data := leAt b 28 4
  if bsub b 0 4 ≠ [0x4B, 0x50, 0x49, 0x4D] ∨ leAt b 4 1 ≠ 1 ∨ 2 ≤ leAt b 6 1 ∨ leAt b 7 1 ≠ 0 ∨ leAt b 26 2 ≠ 0 ∨ !allZero b 32 32
  then 1
  else if leAt b 5 1 ≠ 1 then 2
  else if leAt b 8 4 ≠ len ∨ 192 + 16 * leAt b 16 2 + 8 * leAt b 18 2 + code + data ≠ len then 3
  else if code % 8 ≠ 0 ∨ 131072 < code ∨ base % 8 ≠ 0 ∨ data % 8 ≠ 0 ∨ 0xA000 < base + data then 5
  else 0

/-- The entry table obeys R169. -/
def imgEntriesOk (b : List Byte) : Bool :=
  let n := leAt b 16 2
  let code := leAt b 20 4
  decide (1 ≤ n ∧ n ≤ 1024) && (List.range n).all (fun i =>
    let e := imgEntry b i
    let o := 192 + 16 * i
    decide (e.thread < 8) && allZero b (o + 8) 8
      && (if e.kind = 1 then decide (e.addr.toNat < code / 2) && e.cost == 0 else e.kind == 2 && e.addr == 0))

/-- The pin table obeys R169. -/
def imgPinsOk (b : List Byte) : Bool :=
  let n := leAt b 16 2
  let k := leAt b 18 2
  let code := leAt b 20 4
  let pins := (List.range k).map (imgPin b n)
  decide (k ≤ 128) && pins.all (fun p => decide (p.1 < 8) && decide (p.2.1 < 16) && decide (p.2.2.toNat < code / 2))
    && (List.range k).all (fun i => allZero b (192 + 16 * n + 8 * i + 4) 4)
    && decide ((pins.map (fun p => p.1 * 16 + p.2.1)).Nodup)

/-- The thread table obeys R169. -/
def imgThreadsOk (b : List Byte) : Bool :=
  let n := leAt b 16 2
  (List.range 8).all (fun t =>
    let r := imgThread b t
    let o := 64 + 16 * t
    decide (leAt b (o + 8) 1 < 2) && allZero b (o + 9) 7 && r.vec.toNat % 64 == 0 && decide (r.vec.toNat ≤ 0xFFC0)
      && (if r.start = 0xFFFF then !r.autostart
          else decide (r.start < n) && (imgEntry b r.start).kind == 1 && (imgEntry b r.start).thread == t))

/-- The checks after the last step: LOAD_REASON. -/
def imgTables (b : List Byte) : Nat :=
  if !crcOk b 12 then 4 else if !imgEntriesOk b then 6 else if !imgPinsOk b then 7 else if !imgThreadsOk b then 8 else 0

/-- The tables of an image. -/
def imgParse (b : List Byte) : KImage :=
  let n := leAt b 16 2
  ⟨(List.range 8).map (imgThread b), (List.range n).map (imgEntry b), (List.range (leAt b 18 2)).map (imgPin b n)⟩

/-- The bytes of a section that lie in the piece `[p, p + k)` of the image: where they go in the section, and the bytes. -/
def sectionPiece (b : List Byte) (start len p k : Nat) : Nat × List Byte :=
  let lo := max start p
  let hi := min (start + len) (p + k)
  (lo - start, bsub b lo (hi - lo))

/-- Code and data of one step go to the tile. -/
def imgStore (s : State) (c : Fin 56) (b : List Byte) (p k : Nat) : State :=
  let code := leAt b 20 4
  let start := 192 + 16 * leAt b 16 2 + 8 * leAt b 18 2
  let (o, bs) := sectionPiece b start code p k
  let s := codeWrite s c o bs
  let (o, bs) := sectionPiece b (start + code) (leAt b 28 4) p k
  tileWrite s c (leAt b 24 2 + o) bs none

/-- Zero through the rest of the code store, the rest of shared SRAM and all thread-private SRAM. -/
def imgZero (s : State) (c : Fin 56) (b : List Byte) : State :=
  let code := leAt b 20 4
  let base := leAt b 24 2
  let stop := base + leAt b 28 4
  let s := s.modKp c (fun k =>
    { k with code := k.code.filter (fun e => decide (e.1 < code / 2)), codeBad := k.codeBad.filter (fun g => decide (g < code / 8))
             sram := k.sram.filter (fun e => decide (base ≤ e.1) && decide (e.1 < stop)) })
  let s := s.eachTh c (fun s c t => s.modTh c t (fun th => { th with priv := [], resv := none }))
  { s with poison := s.poison.filter (fun g =>
      let o := (g - tileGranule c) * 8
      !(decide (tileGranule c ≤ g) && decide (o < 0xE000) && !(decide (base ≤ o) && decide (o < stop)))) }

/-- An image that has passed every check is the channel's (R170). -/
def imgAccept (s : State) (c : Fin 56) (b : List Byte) : State :=
  let s := (s.raise (Fld.KSTATUS_IMAGE_VALID c)).put (Fld.KSTATUS_CS_WRITE c) (leAt b 6 1 % 2)
  let s := (s.put (Fld.IMAGE_INFO_CRC c) (leAt b 12 4)).put (Fld.IMAGE_INFO_ENTRIES c) (leAt b 16 2)
  s.modKp c (fun x => { x with image := some (imgParse b) })

/-- KEEPER_LOAD starts. -/
def keeperLoad (s : State) (c : Fin 56) : State :=
  chanStart s c opKeeperLoad (fun e =>
    let len := e.arg 32 4
    if !longTurn s e then s
    else if len < 64 ∨ 262144 < len ∨ len % 8 ≠ 0 ∨ !bufOk s (e.arg 24 8) len then longRefuse s e St.badOperand len
    else if chState s c = chAbsent ∨ rtState s c ≠ rtIdle
        ∨ (List.finRange 8).any (fun t => [ThState.run, .waitev, .yielded].contains (s.th c t).st) then
      longRefuse s e St.rejectedState len
    else longStart (s.clear (Fld.KSTATUS_IMAGE_VALID c)) e len)

/-- Operand data of a work entry: from device DRAM as it stands, or what the host returned; `none` when the read fails. -/
def operandRead (s : State) (a n : Nat) (data : HostRd) : Option (List Byte) :=
  if 2 ^ 63 ≤ a then
    (match data with
     | .ok b => if b.length < n then none else some (b.take n)
     | .fail => none)
  else if s.poisoned 0 a n then none else some (s.dramRead a n)

/-- A KEEPER_LOAD fails with IMAGE_INVALID. -/
def loadFails (s : State) (c : Fin 56) (e : WorkEntry) (reason : Nat) : State :=
  completeLong (s.put (Fld.KSTATUS_LOAD_REASON c) reason) e 0x81

/-- One step of a KEEPER_LOAD. -/
def keeperLoadStep (s : State) (c : Fin 56) (data : HostRd) : State :=
  match chanHead s c opKeeperLoad with
  | none => s
  | some e =>
    let a := e.arg 24 8
    let len := e.arg 32 4
    let p := e.done * 4096
    let k := min 4096 (len - p)
    if e.stage ≠ .running ∨ !longMay s e a then s
    else match operandRead s (a + p) k data with
      | none => completeLong (operandEcc s (a + p) k) e St.busError
      | some bs =>
        let b := e.data ++ bs
        let bad := if e.done = 0 then imgHeader b len else 0
        if bad ≠ 0 then loadFails s c e bad
        else
          let e := { longStepped s e with data := b }
          let s := imgStore (updEntry s e) c b p k
          if e.done < e.total then s
          else
            let s := imgZero s c b
            let r := imgTables b
            if r ≠ 0 then loadFails s c e r
            else
              completeLong (imgAccept s c b) e St.ok

end Sys2Proof.Machine
end

