-- ==== Sys2Proof/Machine/Streams.lean ====
section
/-!
DEFINITION. Streams: descriptors, retention, spans, telemetry and compression (12, R266–R278; 09, R229).
-/
namespace Sys2Proof.Machine

/-! ### Streams -/

def strmUndefined : Nat := 0
def strmClosing : Nat := 2

/-- OPEN or CLOSING. -/
def strmLive (s : State) (i : Nat) : Bool := strmState s i == strmOpen || strmState s i == strmClosing

/-- The OPEN and CLOSING streams. -/
def strmsLive (s : State) : List Nat := (s.streams.map (·.1)).filter (strmLive s)

/-- Apply an operation to every OPEN and CLOSING stream. -/
def eachStrm (s : State) (f : State → Nat → State) : State := (strmsLive s).foldl f s

/-- The policy in force in a tick, and the newest one. -/
def policyAt (x : Stream) (t : Nat) : Option Policy := ((x.policies.filter (fun p => !tickAfter t p.1)).getLast?).map (·.2)
def policyNow (x : Stream) : Option Policy := x.policies.getLast?.map (·.2)

/-- The oldest tick whose course, or whose share of the stream, is still to be decided. -/
def oldestTick (s : State) (x : Stream) : Nat := earliestTick s.tick (s.courses.map Course.tick ++ x.shares.map (·.1))

/-- The policies that a tick from `o` on may follow, the first of them in force from `o` at the earliest. -/
def polsFrom (o : Nat) (l : List (Nat × Policy)) : List (Nat × Policy) :=
  match l with
  | [] => []
  | p :: rest =>
    match rest with
    | q :: _ => if tickAfter o q.1 then (laterTick o p.1, p.2) :: rest else polsFrom o rest
    | [] => [(laterTick o p.1, p.2)]

/-- A superseded policy that no undecided tick follows is given up. -/
def polPrune (s : State) (i : Nat) : State := s.modStrm i (fun x => { x with policies := polsFrom (oldestTick s x) x.policies })

/-- PLACE_STATUS.LEVEL. -/
def level (s : State) : Nat := s.get Fld.PLACE_STATUS_LEVEL

/-- A stream of this policy is dropped, or has one copy (R288). -/
def polDropped (s : State) (p : Policy) : Bool := decide (2 * p.prio + 2 ≤ level s)
def polCopies (s : State) (p : Policy) : Nat := if polDropped s p then 0 else if 2 * p.prio + 1 ≤ level s then 1 else p.mirrors

/-- DROPPING, MIRRORS_NOW and the count of open streams follow. -/
def strmRegs (s : State) : State :=
  let s := eachStrm s (fun s i =>
    match policyNow (s.strm i) with
    | some p => (s.putB (Fld.STRM_STATE_DROPPING i) (polDropped s p)).put (Fld.STRM_STATE_MIRRORS_NOW i) (polCopies s p)
    | none => s)
  s.put Fld.PLACE_STATUS_OPEN (strmsLive s).length

/-! ### Dropped records (R289) -/

/-- More dropped records of a stream: their policy, and the identity below which the stream's spans lie before them. -/
def dropAdd (o : Option DropCount) (p : Policy) (before : Nat) (rs : List ShareRec) : Option DropCount :=
  match rs, rs.getLast? with
  | a :: _, some z =>
    match o with
    | some d => some { d with count := d.count + rs.length, lastNs := z.r.ts, lastTick := laterTick d.lastTick z.tick }
    | none => some ⟨rs.length, a.r.ts, z.r.ts, a.tick, z.tick, before, p⟩
  | _, _ => o

/-- Records that the policy keeps and placement gives up are counted. -/
def dropRecs (s : State) (i : Nat) (p : Policy) (before : Nat) (rs : List ShareRec) : State :=
  if rs.isEmpty then s
  else (s.modStrm i (fun x => { x with drops := dropAdd x.drops p before rs, lost := true })).bumpSat (Fld.STRM_STATS0_DROPPED i) rs.length

/-! ### Telemetry (R229, R277, R278) -/

/-- Telemetry is encrypted. -/
def telEnc (p : Policy) : Bool := bit p.flags 2

/-- A key slot. -/
def keySlot (s : State) (k : Nat) : KeySlot := s.toll.keys.getD k ⟨0, [], 0⟩

/-- EPOCH of a policy's slot rises (R277), for every stream that uses the slot. -/
def epochUp (s : State) (p : Policy) : State :=
  if telEnc p then
    let e := ((keySlot s p.gcmSlot).epoch + 1) % 2 ^ 32
    let s := s.modToll (fun t => { t with keys := t.keys.setIfInBounds p.gcmSlot { t.keys.getD p.gcmSlot ⟨0, [], 0⟩ with epoch := e } })
    eachStrm s (fun s j => match policyNow (s.strm j) with
      | some q => if telEnc q && q.gcmSlot == p.gcmSlot then s.put (Fld.STRM_TEL_EPOCH j) e else s
      | none => s)
  else s

/-- STRM_TEL.EPOCH shows the EPOCH of the slot that the policy coming into force names under GCM. -/
def epochShow (s : State) (i : Nat) (p : Policy) : State :=
  if telEnc p then s.put (Fld.STRM_TEL_EPOCH i) (keySlot s p.gcmSlot).epoch else s

/-- Bytes of a datagram's IP payload for `n` data bytes. -/
def telBody (p : Policy) (n : Nat) : Nat := 32 + n + (if telEnc p then 16 else 0)

/-- `n` data bytes fit in one datagram. -/
def telFits (s : State) (p : Policy) (n : Nat) : Bool :=
  decide (telIpLen s p.telChan (telBody p n) ≤ s.get (Fld.TEL_CFG_MTU p.telChan))

/-- Data of the datagram being built: the gap record that begins it, then its records. -/
def telData (b : TelBuild) : List Byte :=
  (match b.gap with | some g => recBytes (gapRec g.first 0xFF 0 g.count 0x06 g.last) | none => [])
    ++ (b.recs.map (fun x => recBytes x.2)).flatten

/-- The datagram's header and data, encrypted under GCM (R229, R277). -/
def telBytes (s : State) (i : Nat) (p : Policy) (b : TelBuild) : List Byte :=
  let data := telData b
  let dev := s.get (Fld.TEL_CFG_DEVICE_ID p.telChan)
  let head := ([0x56, 0x54, 0x4C, 0x4D] : List Byte) ++ leBytes 1 1 ++ leBytes 1 (b2n (telEnc p) + 2 * b2n b.gap.isSome) ++ leBytes 1 i
    ++ leBytes 1 (if telEnc p then p.gcmSlot else 0) ++ leBytes 2 dev ++ leBytes 2 (b.recs.length + b2n b.gap.isSome)
    ++ leBytes 4 b.seq ++ leBytes 6 (match b.recs with | x :: _ => x.1 | [] => 0) ++ zeros 2 ++ leBytes 4 data.length ++ zeros 4
  if telEnc p then
    let k := keySlot s p.gcmSlot
    let iv := leBytes 4 k.epoch ++ leBytes 2 dev ++ leBytes 1 i ++ zeros 1 ++ leBytes 4 b.seq
    head ++ aesGcm k.key iv head data
  else head ++ data

/-- Records that were not sent, for the next datagram's gap record. -/
def telLost (g : Option GapCount) (rs : List Rec) : Option GapCount := rs.foldl (fun g r => some (GapCount.add g r.ts)) g

/-- The datagram being built is closed and queued under a policy; a full queue or a link that is down loses its records. -/
def telCloseAs (s : State) (i : Nat) (p : Policy) : State :=
  let b := (s.strm i).tel
  if h : p.telChan < 56 then
    if b.recs.isEmpty then s
    else match telPush s ⟨p.telChan, h⟩ ⟨i, telBytes s i p b⟩ with
      | some s =>
        let seq := (b.seq + 1) % 2 ^ 32
        let s := s.modStrm i (fun x => { x with tel := ⟨[], none, seq, none⟩ })
        if seq = 0 then epochUp s p else s
      | none =>
        let s := (s.bumpSat (Fld.TEL_STATS_DROPPED p.telChan) b.recs.length).raise (Fld.ETH_EVT_TEL_DROP p.telChan)
        busEvent (s.modStrm i (fun x => { x with tel := { b with recs := [], gap := telLost b.gap (b.recs.map (·.2)), pol := none } })) ⟨p.telChan, h⟩
  else s

/-- The datagram being built is closed under the policy of its records. -/
def telClose (s : State) (i : Nat) : State :=
  match (s.strm i).tel.pol with
  | some p => telCloseAs s i p
  | none => s

/-- One record is offered to the telemetry channel; a datagram that another policy began closes first. -/
def telRecord (s : State) (i : Nat) (p : Policy) (t : Nat) (r : Rec) : State :=
  if h : p.telChan < 56 then
    if !s.isSet (Fld.TEL_CFG_EN p.telChan) || decide (2 ≤ s.get Fld.THERM_STATUS_LEVEL) then
      (s.modStrm i (fun x => { x with tel := { x.tel with gap := telLost x.tel.gap [r] } })).bumpSat (Fld.STRM_STATS1_TEL_SKIPPED i) 1
    else
      let s := if (s.strm i).tel.pol == some p then s else telClose s i
      let n := (telData (s.strm i).tel).length + recSize r
      let s := if telFits s p n then s else telClose s i
      let n := (telData (s.strm i).tel).length + recSize r
      if telFits s p n then s.modStrm i (fun x => { x with tel := { x.tel with recs := x.tel.recs ++ [(t, r)], pol := some p } })
      else
        let s := (s.bumpSat (Fld.TEL_STATS_DROPPED p.telChan) 1).raise (Fld.ETH_EVT_TEL_DROP p.telChan)
        busEvent (s.modStrm i (fun x => { x with tel := { x.tel with gap := telLost x.tel.gap [r] } })) ⟨p.telChan, h⟩
  else s

/-- TEL_RECORD_OFFER (R278): the kept records of a share. -/
def telOffer (s : State) (i : Nat) (p : Policy) (t : Nat) (rs : List ShareRec) : State :=
  if bit p.flags 0 then
    rs.foldl (fun s x =>
      if t % p.telDecimate = 0 ∨ [0x3E, 0x38, 0x3F, 0x30].contains x.r.typ then telRecord s i p t x.r else s) s
  else s

/-- TEL_DATAGRAM_CLOSE: every datagram that holds a record closes at the tick edge. -/
def telEdge (s : State) : State := eachStrm s telClose

/-! ### Shares and spans (R269–R272) -/

/-- Address of a record that does not lie in the ring. -/
def noAddr : Nat := 2 ^ 48

/-- Records of an extent with their addresses and bindings. -/
def extRecs (base : Nat) (rs : List Rec) (tags : List (Option Nat)) (off : Nat) : List (Nat × Rec × Option Nat) :=
  match rs with
  | [] => []
  | r :: t => (base + off, r, tags.headD none) :: extRecs base t (tags.drop 1) (off + recSize r)

/-- Every record of a complete course in course order (R247); its time-step records are among the Basin's. -/
def courseRecs (s : State) (d : DoneCourse) : List (Nat × Rec × Option Nat) :=
  let exts := courseOrder ⟨d.tick, d.edgeNs, false, d.step, d.exts⟩
  (exts.map (fun e => extRecs (ringBase s + e.off.getD 0 + 16) e.recs e.tags 0)).flatten

/-- A complete course's shares join their streams (R269). -/
def shareCourse (s : State) (d : DoneCourse) : State :=
  let all := courseRecs s d
  eachStrm s (fun s i =>
    let x := s.strm i
    if (policyAt x d.tick).isNone || (match x.upto with | some u => !tickAfter d.tick u | none => false) then s
    else
      let rs := (all.filter (fun a => a.2.1.chan == 0xFF || a.2.2 == some i)).map (fun a => (⟨d.tick, a.1, a.2.1⟩ : ShareRec))
      s.modStrm i (fun x => { x with shares := x.shares ++ [(d.tick, rs)] }))

/-- A span closes: it waits for compression. -/
def spanClose (s : State) (i : Nat) (cut : Bool) : State :=
  let x := s.strm i
  match x.build with
  | none => s
  | some b =>
    let s := s.modStrm i (fun x => { x with build := none, nextSpan := (x.nextSpan + 1) % 2 ^ 32 })
    s.modPlace (fun p => { p with nextId := p.nextId + 1, spans := p.spans ++
      [⟨p.nextId, i, x.nextSpan, false, b.split, cut, firstOf (b.recs.map ShareRec.tick), lastOf (b.recs.map ShareRec.tick),
        b.recs, b.pol, none, none, false, 0, [], [], false⟩] })

/-- Raw length of the span in progress. -/
def buildLen (b : SpanBuild) : Nat := (b.recs.map (fun x => recSize x.r)).sum

/-- One record enters the span in progress; a record that would take it above SPAN_RAW closes it first. -/
def spanAdd (s : State) (i : Nat) (p : Policy) (r : ShareRec) : State :=
  match (s.strm i).build with
  | none => s.modStrm i (fun x => { x with build := some ⟨p, [r], false⟩ })
  | some b =>
    if p.spanRaw < buildLen b + recSize r.r then
      let cut := (b.recs.getLast?.map ShareRec.tick) == some r.tick
      (spanClose s i cut).modStrm i (fun x => { x with build := some ⟨p, [r], cut⟩ })
    else s.modStrm i (fun x => { x with build := some { b with recs := b.recs ++ [r] } })

/-- The retention decision for a tick is final (R270). -/
def shareFinal (s : State) (p : Policy) (t : Nat) : Bool := p.retain != 1 || tickAfter ((t + p.pre) % 2 ^ 48) s.tick

/-- Tick `t` is kept (R270). -/
def shareKept (x : Stream) (p : Policy) (t : Nat) : Bool :=
  match p.retain with
  | 0 => true
  | 1 => x.trigs.any (fun u => !tickAfter ((t + p.pre) % 2 ^ 48) u && !tickAfter ((u + p.post) % 2 ^ 48) t)
  | _ => t % p.decimate == 0

/-- A share is decided: its kept records go to telemetry and into the span in progress, or are dropped under R288. -/
def shareTake (s : State) (i : Nat) (p : Policy) (t : Nat) (rs : List ShareRec) : State :=
  let x := s.strm i
  let kept := shareKept x p t
  let rs := if kept then rs else rs.filter (fun x => x.r.typ == 0x38 || x.r.typ == 0x3F)
  let s := telOffer s i p t rs
  let s := if (kept && !x.lastKept) || (match x.build with | some b => decide (b.pol ≠ p) | none => false) then spanClose s i false else s
  let s := s.modStrm i (fun x => { x with lastKept := kept })
  if polDropped s p then dropRecs s i p s.place.nextId rs else rs.foldl (fun s r => spanAdd s i p r) s

/-- The shares of a stream that can be decided are, oldest first. -/
def sharesDecide (fuel : Nat) (s : State) (i : Nat) : State :=
  match fuel with
  | 0 => s
  | k + 1 =>
    let x := s.strm i
    match x.shares with
    | [] => s
    | (t, rs) :: rest =>
      match policyAt x t with
      | none => sharesDecide k (s.modStrm i (fun x => { x with shares := rest })) i
      | some p =>
        if shareFinal s p t then sharesDecide k (shareTake (s.modStrm i (fun x => { x with shares := rest })) i p t rs) i else s

/-- A closing stream has been given its last share. -/
def sharesEnd (s : State) (i : Nat) : Bool :=
  match (s.strm i).upto with
  | some u => (s.strm i).shares.isEmpty && !s.courses.any (fun c => tickAfter c.tick u)
  | none => false

/-- Decide what can be decided of every stream; the last span of a closing stream closes. -/
def strmsDecide (s : State) : State :=
  eachStrm s (fun s i =>
    let s := polPrune (sharesDecide ((s.strm i).shares.length + 1) s i) i
    if sharesEnd s i then spanClose s i false else s)

/-- A course is no longer needed (R271). -/
def ringFree (s : State) (t : Nat) : Bool :=
  !(strmsLive s).any (fun i =>
      let x := s.strm i
      x.shares.any (fun h => h.1 == t)
        || (match x.build with | some b => b.recs.any (fun r => r.tick == t) | none => false))
    && !s.place.spans.any (fun sp => sp.stored.isNone && sp.recs.any (fun r => r.tick == t))
    && !s.place.snaps.any (fun n => decide (ticksFrom n.2.1 t ≤ ticksFrom n.2.1 n.2.2))

/-- RING_TAIL_ADVANCE (R271). -/
def ringAdvance (s : State) : State := releaseCourses s (ringFree s)

/-! ### Compression (R273, R336) -/

/-- Bytes in span staging: compressed spans that are not committed on every drive chosen for them (R280). -/
def staged (s : State) : Nat := (s.place.spans.map (fun sp => if sp.gap || sp.stored.isNone then 0 else spanLen sp)).sum

/-- Size of span staging in bytes, and its occupancy in percent. -/
def stageSize (s : State) : Nat := s.get Fld.STAGE_SIZE_MIB * 2 ^ 20
def stagePct (s : State) : Nat := if stageSize s = 0 then 100 else min 100 (staged s * 100 / stageSize s)

/-- An engine of a mode takes spans: 0–7 LZ4, 8–11 SIGDELTA; half of each rests at thermal level THROTTLE (R352). -/
def engineFree (s : State) (mode : Nat) : Bool :=
  let hot := decide (2 ≤ s.get Fld.THERM_STATUS_LEVEL)
  let es := if mode = 1 then List.range (if hot then 4 else 8) else (List.range (if hot then 2 else 4)).map (· + 8)
  mode == 0 || es.any (fun e => !s.place.engines.contains e)

/-- A record overlaps a word that is bad. -/
def recBad (s : State) (x : ShareRec) : Bool := x.addr != noAddr && s.poisoned 0 x.addr (recSize x.r)

/-- MEM_LOSS records of the records lost, one for each channel and tick (R353). -/
def memLoss (fuel : Nat) (s : State) (bad : List ShareRec) : State :=
  match fuel with
  | 0 => s
  | k + 1 =>
    match bad with
    | [] => s
    | b :: _ =>
      let same := bad.filter (fun x => x.tick == b.tick && x.r.chan == b.r.chan)
      let s := diagRec s 0x03 b.r.chan b.r.seq same.length ((s.dramBad b.addr (recSize b.r)).headD b.addr) b.tick
      memLoss k s (bad.filter (fun x => !(x.tick == b.tick && x.r.chan == b.r.chan)))

/-- A span by its identity, an update of it, its removal. -/
def spanOf (s : State) (id : Nat) : Option Span := s.place.spans.find? (fun sp => sp.id == id)
def modSpan (s : State) (id : Nat) (f : Span → Span) : State :=
  s.modPlace (fun p => { p with spans := p.spans.map (fun sp => if sp.id = id then f sp else sp) })
def dropSpan (s : State) (id : Nat) : State := s.modPlace (fun p => { p with spans := p.spans.filter (fun sp => sp.id != id) })

/-- The stored bytes an engine makes of raw bytes: mode 0 when they are not smaller. -/
def compressed (mode : Nat) (rs : List Rec) : Nat × List Byte :=
  let raw := (rs.map recBytes).flatten
  let c := if mode = 1 then lz4Block raw else if mode = 2 then sigdelta rs [] else raw
  if c.length < raw.length then (mode, c) else (0, raw)

/-- Every bad word that the records overlap is met once. -/
def recsEcc (s : State) (bad : List ShareRec) : State :=
  ((bad.map (fun x => s.dramBad x.addr (recSize x.r))).flatten.eraseDups).foldl dramEcc s

/-- An engine finishes span `id`: `none` when it cannot be compressed now. A course whose records all go is no split one any more. -/
def spanCompress (s : State) (id : Nat) : Option State :=
  match spanOf s id with
  | none => none
  | some sp =>
    if sp.stored.isSome || !engineFree s sp.pol.compress then none
    else
      let bad := sp.recs.filter (recBad s)
      let good := sp.recs.filter (fun x => !recBad s x)
      let st := compressed sp.pol.compress (good.map ShareRec.r)
      let ticks := good.map ShareRec.tick
      let new := { sp with recs := good, first := firstOf ticks, last := lastOf ticks, stored := some st
                           splitS := sp.splitS && firstOf ticks == sp.first, splitE := sp.splitE && lastOf ticks == sp.last }
      if stageSize s < staged s + spanLen new then none
      else
        let s := recsEcc s bad
        let s := memLoss (bad.length + 1) s bad
        some (if good.isEmpty then dropSpan s id else modSpan s id (fun _ => new))

/-! ### Definitions (R266–R268) -/

/-- A descriptor's policy. -/
def polParse (b : List Byte) : Policy :=
  ⟨leAt b 5 1, leAt b 6 1, leAt b 7 1, leAt b 8 1, leAt b 9 1, leAt b 10 1, leAt b 11 1, leAt b 12 2, leAt b 14 2, leAt b 16 8,
    leAt b 24 2, leAt b 26 2, leAt b 28 1, leAt b 29 1, leAt b 32 4, leAt b 36 2⟩

/-- Bits set among the low `n`. -/
def weight (n v : Nat) : Nat := ((List.range n).filter (fun i => bit v i)).length

/-- The first failing check of a descriptor (R267), 0 for none. -/
def polReason (b : List Byte) : Nat :=
  let p := polParse b
  let tel := bit p.flags 0
  let xts := bit p.flags 1
  let gcm := bit p.flags 2
  if b.take 4 ≠ [0x56, 0x53, 0x54, 0x52] ∨ leAt b 4 1 ≠ 1 then 1
  else if !allZero b 30 2 || !allZero b 38 26 || 8 ≤ p.flags || 16 ≤ p.drives then 2
  else if 3 ≤ p.retain ∨ 3 ≤ p.compress ∨ p.mirrors = 0 ∨ 4 ≤ p.mirrors ∨ weight 4 p.drives < p.mirrors ∨ 8 ≤ p.prio then 3
  else if (if p.retain = 1 then p.keystones = 0 else p.pre ≠ 0 ∨ p.post ≠ 0 ∨ p.keystones ≠ 0)
      ∨ (if p.retain = 2 then p.decimate < 2 else p.decimate ≠ 0) then 4
  else if (if tel then !isStream p.telChan || p.telDecimate == 0 else p.telChan != 0 || p.telDecimate != 0)
      || (gcm && !tel) || (!xts && p.xtsSlot != 0) || (!gcm && p.gcmSlot != 0) then 5
  else if p.spanRaw < 65536 ∨ 4194304 < p.spanRaw ∨ p.spanRaw % 4096 ≠ 0 ∨ p.closeTicks = 0 then 6
  else 0

/-- The key slots a policy names hold keys of the kinds it needs. -/
def polKeys (s : State) (p : Policy) : Bool :=
  (!bit p.flags 1 || (decide (p.xtsSlot < 16) && (keySlot s p.xtsSlot).kind == 1))
    && (!bit p.flags 2 || (decide (p.gcmSlot < 16) && (keySlot s p.gcmSlot).kind == 2))

/-- DEF_RESULT. -/
def defResult (s : State) (i reason : Nat) : State := (s.put Fld.DEF_RESULT_STREAM i).put Fld.DEF_RESULT_REASON reason

/-- The policy of a checked descriptor waits for the next edge: the status of the check, and the state. -/
def strmDefine (s : State) (i : Nat) (b : List Byte) (serial : Option Nat) : Nat × State :=
  let r := polReason b
  if r ≠ 0 then (0x81, (defResult s i r).raise Fld.PLACE_EVT_DEF_REJECTED)
  else
    let p := polParse b
    let s := defResult s i 0
    if !polKeys s p then (St.authFail, s)
    else (St.ok, epochUp (s.modStrm i (fun x => { x with pend := some (p, serial) })) p)

/-- The Basin entry with a dispatch number. -/
def serialOf (s : State) (serial : Option Nat) : Option WorkEntry :=
  match serial with
  | some n => s.basinq.find? (fun e => e.serial == n)
  | none => none

/-- STREAM_DEFINE. -/
def streamDefine (s : State) (serial : Nat) (data : HostRd) : State :=
  basinStart s serial opStreamDefine (fun e => some (e.arg 24 1)) (fun e =>
    let i := e.arg 24 1
    if e.arg 40 2 ≠ 64 ∨ !bufOk s (e.arg 32 8) 64 then complete s e St.badOperand []
    else if strmState s i = strmClosing ∨ (s.strm i).pend.isSome then complete s e St.rejectedState []
    else if operandWaits s (e.arg 32 8) then s
    else match operandRead s (e.arg 32 8) 64 data with
      | none => complete (operandEcc s (e.arg 32 8) 64) e St.busError []
      | some b =>
        let (st, s) := strmDefine s i b (some serial)
        if st = St.ok then updEntry s { e with stage := .edge } else complete s e st [])

/-- Counters and state of a stream that becomes OPEN from UNDEFINED (R268). -/
def strmOpenNew (s : State) (i : Nat) (p : Policy) : State :=
  let s := ((s.put (Fld.STRM_STATS0_SPANS i) 0).put (Fld.STRM_STATS0_DROPPED i) 0).put (Fld.STRM_STATS1_GAP_SPANS i) 0
  let s := (s.put (Fld.STRM_STATS1_TEL_SKIPPED i) 0).put (Fld.STRM_STATE_STATE i) strmOpen
  let d := (s.strm i).drops
  s.modStrm i (fun _ => { Stream.reset with policies := [(s.tick, p)], drops := d })

/-- STREAM_OPEN (R268): a pending definition takes effect at the edge. -/
def strmOpenEdge (s : State) (i : Nat) : State :=
  match (s.strm i).pend with
  | none => s
  | some (p, serial) =>
    let s := s.modStrm i (fun x => { x with pend := none })
    if strmState s i = strmClosing then
      (match serialOf s serial with | some e => complete s e St.rejectedState [] | none => s)
    else
      let s := s.clear (Fld.STRM_STATE_MIRROR_SHORT i)
      let s := if strmState s i = strmUndefined then strmOpenNew s i p
        else
          (spanClose (telClose s i) i false).modStrm i (fun x =>
            { x with policies := x.policies ++ [(s.tick, p)], tel := { x.tel with seq := 0 } })
      let s := strmRegs (epochShow s i p)
      match serialOf s serial with
      | some e => complete s e St.ok []
      | none => s

/-- STREAM_CLOSE (R268). -/
def streamClose (s : State) (serial : Nat) : State :=
  basinStart s serial opStreamClose (fun e => some (e.arg 24 1)) (fun e =>
    let i := e.arg 24 1
    if strmState s i ≠ strmOpen then complete s e St.rejectedState []
    else
      let s := updEntry s { e with stage := .running }
      let s := s.put (Fld.STRM_STATE_STATE i) strmClosing
      spanClose (s.modStrm i (fun x => { x with close := some serial, unbind := true })) i false)

/-- The bindings to a closing stream are removed at the edge. -/
def strmUnbind (s : State) (i : Nat) : State :=
  if (s.strm i).unbind then
    let s := s.eachCh (fun s c =>
      if (s.ch c).chamber.bind = some i then s.modCh c (fun x => { x with chamber := { x.chamber with bind := none } }) else s)
    s.modStrm i (fun x => { x with unbind := false, upto := some s.tick })
  else s

/-- Retention triggers of the tick that ended (R263, R270). -/
def strmTrigs (s : State) (ended : Nat) : State :=
  eachStrm s (fun s i =>
    let o := oldestTick s (s.strm i)
    let fires := match policyAt (s.strm i) ended with
      | some p => p.retain == 1 && s.board.retain.any (fun k => bit p.keystones k)
      | none => false
    s.modStrm i (fun x => { x with trigs := x.trigs.filter (fun u => !tickAfter ((u + 65535) % 2 ^ 48) o) ++ (if fires then [ended] else []) }))

/-- A span closes by age at a tick edge (R272). -/
def spanAge (s : State) (i : Nat) : State :=
  match (s.strm i).build with
  | some b => if b.pol.closeTicks ≤ ticksFrom (firstOf (b.recs.map ShareRec.tick)) s.tick then spanClose s i false else s
  | none => s

/-- The streams at a tick edge, the tick having advanced: bindings go, definitions take effect, spans close by age,
decisions that became final are made, datagrams close. -/
def strmsEdge (s : State) : State :=
  let s := (s.streams.map (·.1)).foldl (fun s i => strmOpenEdge (strmUnbind s i) i) s
  let s := eachStrm s spanAge
  telEdge (ringAdvance (strmsDecide s))

end Sys2Proof.Machine
end

