-- ==== Sys2Proof/Machine/Placement.lean ====
section
/-!
DEFINITION. Placement, segments and their commits, drives, degradation, BRACE and HALT, READBACK and SNAPSHOT
(12, R279–R294; 13, R296–R313).
-/
namespace Sys2Proof.Machine

/-! ### Drives -/

def drvAbsent : Nat := 0
def drvLinking : Nat := 1
def drvIdentify : Nat := 2
def drvBlank : Nat := 3
def drvReadOnly : Nat := 4
def drvOnline : Nat := 5
def drvFailed : Nat := 6
def drvEjected : Nat := 7

/-- DRIVE_STATE.STATE. -/
def drvState (s : State) (n : Nat) : Nat := s.get (Fld.DRIVE_STATE_STATE n)

/-- The drives have nothing left to do in HALT: they stay idle until reset (R292). -/
def drivesIdle (s : State) : Bool := s.place.haltDone && (List.finRange 4).all (fun n => (s.drive n).segs.isEmpty)

/-- A command is posted to a drive that is in use. -/
def nvmePost (s : State) (n : Fin 4) (c : NvmeCmd) : State :=
  if (s.drive n).perst || drivesIdle s then s
  else (s.modDrive n (fun d => { d with cmds := d.cmds ++ [(c, false)] })).emit (.nvme n c)

/-- Pieces of at most `m` bytes of `n`: their offsets and lengths. -/
def pieces (m n : Nat) : List (Nat × Nat) := (List.range ((n + m - 1) / m)).map (fun i => (i * m, min m (n - i * m)))

/-- A command goes to a drive's queue (R284), a long Write or Read in pieces of at most min(MDTS, 1 MiB). -/
def nvme (s : State) (n : Fin 4) (c : NvmeCmd) : State :=
  let m := (s.drive n).mdts
  match c with
  | .write off data fua => (pieces m data.length).foldl (fun s p => nvmePost s n (.write (off + p.1) (bsub data p.1 p.2) fua)) s
  | .read off len => (pieces m len).foldl (fun s p => nvmePost s n (.read (off + p.1) p.2)) s
  | _ => nvmePost s n c

/-- The commands that match have completed. -/
def nvmeDone (s : State) (n : Fin 4) (p : NvmeCmd → Bool) : State :=
  s.modDrive n (fun d => { d with cmds := d.cmds.filter (fun c => !p c.1) })

/-- A Write within `len` bytes from `off` on. -/
def writeIn (off len : Nat) (c : NvmeCmd) : Bool :=
  match c with
  | .write o .. => decide (off ≤ o ∧ o < off + len)
  | _ => false

/-- Version of the running Toll House firmware. -/
def fwVersion (s : State) : Nat := if s.toll.active = 0 then s.toll.slotA.version else s.toll.slotB.version

/-- PLACE_CFG.RECYCLE. -/
def recycle (s : State) : Bool := s.isSet Fld.PLACE_CFG_RECYCLE

/-- The open segment. -/
def segOpen (d : Drive) : Option Segment :=
  match d.segs.getLast? with
  | some g => if g.stage = .opened then some g else none
  | none => none

/-- Sequence number of the segment that opens next. -/
def segNext (d : Drive) (sb : Super) : Nat :=
  match d.segs.getLast? with
  | some g => (g.seq + 1) % 2 ^ 64
  | none => sb.next

/-- FREE_SEGMENTS (R297): the reserve, and a segment that is open or not yet committed, are not free. -/
def driveRegs (s : State) (n : Fin 4) : State :=
  let d := s.drive n
  s.put (Fld.DRIVE_STATE_FREE_SEGMENTS n) (match d.sb with
    | some b => b.count - seqPast b.next b.tail - (if d.segs.isEmpty then 1 else 2)
    | none => 0)

/-- A segment has room for a span of `len` bytes after `k` gap spans, which take 4096 bytes each. -/
def segRoom (g : Segment) (len k : Nat) : Bool := decide (g.used + 4096 * k + len ≤ footerOff) && decide (g.spans.length + k < 16127)

/-- A segment has room for `len` bytes more. -/
def segFits (g : Segment) (len : Nat) : Bool := segRoom g len 0

/-- A segment is the reserve (R289, R297). -/
def isReserve (b : Super) (seq : Nat) : Bool := decide (b.count ≤ seqPast seq b.tail + 1)

/-- A further segment may be opened, for gap spans or for ordinary ones (R289, R297, R310). -/
def mayOpen (d : Drive) (b : Super) (gap : Bool) : Bool :=
  decide (seqPast (segNext d b) b.tail + 1 ≤ b.count) && (gap || !isReserve b (segNext d b))

/-- A drive has space for an ordinary span of `len` bytes after `k` gap spans. -/
def hasSpace (s : State) (n : Fin 4) (len k : Nat) : Bool :=
  let d := s.drive n
  drvState s n == drvOnline &&
  match d.sb with
  | none => false
  | some b =>
    (match segOpen d with
     | some g => segRoom g len k && !isReserve b g.seq
     | none => false) || mayOpen d b false

/-- A drive takes an ordinary span of `len` bytes after `k` gap spans: one in EJECT takes none. -/
def canTake (s : State) (n : Fin 4) (len k : Nat) : Bool := !(s.drive n).eject && hasSpace s n len k

/-- Drives a policy allows. -/
def drvAllowed (p : Policy) : List (Fin 4) := (List.finRange 4).filter (fun n => bit p.drives n)

/-- A drive holds a later span of the stream (R279). -/
def holdsLater (s : State) (n : Fin 4) (sp : Span) : Bool := decide (sp.id < SMap.get 0 (s.drive n).newest sp.stream)

/-! ### Segments (R303–R305, R310) -/

/-- A segment opens: its header goes to the drive first (R304, R313). -/
def segStart (s : State) (n : Fin 4) : State :=
  let d := s.drive n
  match d.sb with
  | none => s
  | some b =>
    let seq := segNext d b
    let g : Segment := ⟨seq, max b.version (s.get Fld.QUAY_CFG_FORMAT_TARGET), s.now, s.tick, .opened, 0, 0, none, 4096, []⟩
    let s := nvme s n (.write (segBase b.count seq) (segHeader g b.volume s.toll.serial (fwVersion s) s.toll.boot) false)
    driveRegs (s.modDrive n (fun d => { d with segs := d.segs ++ [g] })) n

/-- Update the newest segment of a drive. -/
def modLastSeg (s : State) (n : Fin 4) (f : Segment → Segment) : State :=
  s.modDrive n (fun d => { d with segs := (d.segs.take (d.segs.length - 1)) ++ (d.segs.drop (d.segs.length - 1)).map f })

/-- Newest spans by stream, with further spans (stream, identity). -/
def newestOf (m : List (Nat × Nat)) (l : List (Nat × Nat)) : List (Nat × Nat) :=
  l.foldl (fun m x => SMap.insert m x.1 (max x.2 (SMap.get 0 m x.1))) m

/-- A span is written into the open segment (R303, R306). -/
def segWrite (s : State) (n : Fin 4) (sp : Span) : State :=
  let d := s.drive n
  match d.sb, segOpen d with
  | some b, some g =>
    let at_ := segBase b.count g.seq + g.used
    let len := spanLen sp
    let s := nvme s n (.write at_ (spanBytes sp (keySlot s sp.pol.xtsSlot).key at_ g.seq) false)
    let x : SegSpan := ⟨sp.id, g.used, len, sp.stream, (sp.stored.map (·.1)).getD 0, spanFlags sp, sp.no, sp.first, sp.last, false⟩
    let first := match g.firstNs with | some t => t | none => s.now
    let s := modLastSeg s n (fun g => { g with used := roundUp 4096 (g.used + len), spans := g.spans ++ [x], firstNs := some first })
    let s := if sp.gap then s
      else s.modDrive n (fun d => { d with newest := newestOf d.newest [(sp.stream, sp.id)] })
    modSpan s sp.id (fun y => { y with drives := y.drives ++ [n.val] })
  | _, _ => s

/-! ### Gap spans (R289) -/

/-- Bytes of a gap span. -/
def gapLen : Nat := 160

/-- The policy that a stream's gap span follows: its newest one, or after its close the one its records were dropped under. -/
def gapPol (s : State) (i : Nat) (d : DropCount) : Policy := (policyNow (s.strm i)).getD d.pol

/-- An ordinary span that is not on every drive it is to be on yet. -/
def Span.open_ (sp : Span) : Bool := !sp.gap && (!sp.placed || decide (0 < sp.again))

/-- SPAN_NO of a gap span: the number of the stream's next ordinary span (R306). -/
def gapNo (s : State) (i : Nat) (d : DropCount) : Nat :=
  match s.place.spans.find? (fun sp => sp.stream == i && sp.open_ && decide (d.before ≤ sp.id)) with
  | some sp => sp.no
  | none => (s.strm i).nextSpan

/-- The stream's pending count becomes a gap span. -/
def gapMake (s : State) (i : Nat) : State :=
  match (s.strm i).drops with
  | some d =>
    let r := gapRec d.firstNs 0xFF 0 d.count 0x07 d.lastNs
    let no := gapNo s i d
    let p := gapPol s i d
    let s := s.modStrm i (fun x => { x with drops := none })
    s.modPlace (fun q => { q with nextId := q.nextId + 1, spans := q.spans ++
      [⟨q.nextId, i, no, true, false, false, d.firstTick, d.lastTick, [⟨d.firstTick, noAddr, r⟩], p, some d,
        some (0, recBytes r), true, 0, [], [], false⟩] })
  | none => s

/-- Dropped records are counted on drive `n` before the span with identity `lim`: the policy allows the drive, and the drive holds
no later span (R279). -/
def gapHere (s : State) (n : Fin 4) (i lim : Nat) (d : DropCount) : Bool :=
  let m := SMap.get 0 (s.drive n).newest i
  bit (gapPol s i d).drives n && decide (d.before ≤ lim) && (m == 0 || decide (m < d.before))

/-- Earlier spans of the stream are to be written first (R279). -/
def gapWaits (s : State) (i : Nat) (d : DropCount) : Bool :=
  s.place.spans.any (fun sp => sp.stream == i && sp.open_ && decide (sp.id < d.before))

/-- A pending count is to become a gap span of drive `n`. -/
def gapPending (s : State) (n : Fin 4) (i lim : Nat) : Bool :=
  match (s.strm i).drops with
  | some d => gapHere s n i lim d && !gapWaits s i d
  | none => false

/-- The gap spans of stream `i` that drive `n` does not have yet. -/
def gapSpans (s : State) (n : Fin 4) (i lim : Nat) : List Span :=
  s.place.spans.filter (fun sp => sp.gap && sp.stream == i && !sp.drives.contains n.val
    && (match sp.drop with | some d => gapHere s n i lim d | none => false))

/-- A gap span of stream `i` is to be written to drive `n`. -/
def gapDue (s : State) (n : Fin 4) (i lim : Nat) : Bool := gapPending s n i lim || !(gapSpans s n i lim).isEmpty

/-- The gap spans of stream `i` go into the open segment of drive `n`, as far as it has room. -/
def gapWrite (s : State) (n : Fin 4) (i lim : Nat) : State :=
  let room := match segOpen (s.drive n) with | some g => segFits g gapLen | none => false
  let s := if room && gapPending s n i lim then gapMake s i else s
  (gapSpans s n i lim).foldl (fun s sp =>
    match segOpen (s.drive n) with
    | some g => if segFits g gapLen then segWrite s n sp else s
    | none => s) s

/-- Spans that are to be written may be: not in BRACE, and not once HALT's commit has begun (R291, R292). -/
def placeRuns (s : State) : Bool :=
  (s.devState == devReady || s.devState == devRun || s.devState == devHalt) && !s.place.haltDone

/-- Every gap span due on a drive is written; with `open_`, a segment is opened for them, the reserve included. -/
def gapsWrite (s : State) (n : Fin 4) (open_ : Bool) : State :=
  let due := (s.streams.map (·.1)).filter (fun i => gapDue s n i s.place.nextId)
  if due.isEmpty || drvState s n != drvOnline then s
  else
    let d := s.drive n
    let s := match segOpen d, d.sb with
      | none, some b => if open_ && placeRuns s && mayOpen d b true then segStart s n else s
      | _, _ => s
    due.foldl (fun s i => gapWrite s n i s.place.nextId) s

/-- The open segment of a drive is to be committed, with the footer's CAUSE (R310). -/
def segClose (s : State) (n : Fin 4) (cause : Nat) : State :=
  let s := gapsWrite s n (cause == 3 || cause == 4 || cause == 6)
  match segOpen (s.drive n) with
  | some _ => modLastSeg s n (fun g => { g with stage := .closing, cause := cause })
  | none => s

/-! ### Placing spans (R279–R282, R290) -/

/-- The gap spans that go before a span on a drive. -/
def placeGaps (s : State) (n : Fin 4) (sp : Span) : Nat :=
  (if gapPending s n sp.stream sp.id then 1 else 0) + (gapSpans s n sp.stream sp.id).length

/-- Write a span to a drive that can take it. -/
def spanOn (s : State) (n : Fin 4) (sp : Span) : State :=
  let d := s.drive n
  let fits := match segOpen d, d.sb with
    | some g, some b => segRoom g (spanLen sp) (placeGaps s n sp) && !isReserve b g.seq
    | _, _ => false
  let s := if fits then s else segStart (segClose s n 1) n
  segWrite (gapWrite s n sp.stream sp.id) n sp

/-- Bytes queued on a drive. -/
def drvQueued (s : State) (n : Fin 4) : Nat :=
  (((s.drive n).segs.map (fun g => ((g.spans.filter (fun x => !x.written)).map SegSpan.len).sum))).sum

/-- The present algorithm's order: fewest bytes queued, then most free segments. -/
def drvBetter (s : State) (a b : Fin 4) : Bool :=
  decide (drvQueued s a < drvQueued s b) ||
    (drvQueued s a == drvQueued s b && decide (s.get (Fld.DRIVE_STATE_FREE_SEGMENTS b) < s.get (Fld.DRIVE_STATE_FREE_SEGMENTS a)))

/-- The best `k` drives of a list. -/
def drvPick (s : State) (k : Nat) (l : List (Fin 4)) : List (Fin 4) :=
  match k with
  | 0 => []
  | k + 1 =>
    match l with
    | [] => []
    | a :: t =>
      let m := t.foldl (fun m n => if drvBetter s n m then n else m) a
      m :: drvPick s k ((a :: t).filter (fun n => n != m))

/-- A span has fewer copies than intended. -/
def mirrorShort (s : State) (i : Nat) : State :=
  ((s.modStrm i (fun x => { x with short := true })).raise (Fld.STRM_STATE_MIRROR_SHORT i)).raise Fld.PLACE_EVT_MIRROR_SHORT

/-- A stream enters or leaves FULL (R290). -/
def strmFull (s : State) (i : Nat) (full : Bool) : State :=
  if s.isSet (Fld.STRM_STATE_FULL i) = full then s
  else
    let s := s.putB (Fld.STRM_STATE_FULL i) full
    let s := if full then s.raise Fld.PLACE_EVT_STORAGE_FULL else s
    thLog s 0xFE 0x0401 (leBytes 1 i ++ leBytes 1 (b2n full))

/-- A span with a bad word in staging is not written (R336): it is dropped and counted, or keeps the copies it has. -/
def spanBad (s : State) (sp : Span) : State :=
  if sp.drives.isEmpty then dropSpan (dropRecs s sp.stream sp.pol sp.id sp.recs) sp.id
  else mirrorShort (modSpan s sp.id (fun y => { y with again := 0, placed := true })) sp.stream

/-- Placement takes a compressed span (R282): `none` when it waits and later spans of its stream wait behind it. A drive with space
that is in EJECT makes no stream full (R290). -/
def placeSpan (s : State) (sp : Span) : Option State :=
  let allowed := drvAllowed sp.pol
  let online := allowed.filter (fun (n : Fin 4) => drvState s n == drvOnline)
  let want := max 1 (polCopies s sp.pol)
  let takes := online.filter (fun n => hasSpace s n (spanLen sp) (placeGaps s n sp))
  let able := takes.filter (fun n => !(s.drive n).eject && !holdsLater s n sp && !sp.drives.contains n.val)
  let coming := allowed.any (fun n => drvState s n == drvLinking || drvState s n == drvIdentify)
  if decide (online.length < want) && coming && decide (stagePct s < s.get Fld.PLACE_CFG_STAGE_HIGH) then none
  else if online.isEmpty then none
  else if takes.isEmpty then
    if recycle s then none else some (strmFull (dropSpan (dropRecs s sp.stream sp.pol sp.id sp.recs) sp.id) sp.stream true)
  else if able.isEmpty then (if takes.any (fun (n : Fin 4) => (s.drive n).eject) then none else some s)
  else
    let chosen := if online.length < want then able else drvPick s want able
    let s := strmFull s sp.stream false
    let s := chosen.foldl (fun s n => spanOn s n sp) s
    let s := modSpan s sp.id (fun y => { y with placed := true })
    some (if chosen.length < want then mirrorShort s sp.stream else s)

/-- Every span that may be placed is, in the order of the streams (R279). -/
def placeList (s : State) (ids blocked : List Nat) : State :=
  match ids with
  | [] => s
  | id :: t =>
    match spanOf s id with
    | none => placeList s t blocked
    | some sp =>
      if sp.placed then placeList s t blocked
      else if sp.stored.isNone || blocked.contains sp.stream then placeList s t (sp.stream :: blocked)
      else if sp.bad then placeList (spanBad s sp) t blocked
      else match placeSpan s sp with
        | some s => placeList s t blocked
        | none => placeList s t (sp.stream :: blocked)

/-- A span committed on every drive that holds it leaves staging (R268, R280). -/
def spanFinish (s : State) (id : Nat) : State :=
  match spanOf s id with
  | none => s
  | some sp =>
    if sp.gap then
      (if sp.done.isEmpty then s else (dropSpan s id).bumpWrap (Fld.STRM_STATS1_GAP_SPANS sp.stream) 1)
    else if !sp.open_ && !sp.drives.isEmpty && sp.drives.all (fun n => sp.done.contains n) then
      let s := (dropSpan s id).bumpWrap (Fld.STRM_STATS0_SPANS sp.stream) 1
      if sp.id < (s.strm sp.stream).newest then s
      else (s.put (Fld.STRM_STATE_LAST_TICK sp.stream) sp.last).modStrm sp.stream (fun x => { x with newest := sp.id })
    else s

/-! ### A drive leaves ONLINE (R281) -/

/-- A copy that the drive held and had not committed is to be placed again; a gap span without a copy is a pending count again. -/
def spanLost (s : State) (n : Fin 4) (id : Nat) : State :=
  match spanOf s id with
  | none => s
  | some sp =>
    if !sp.drives.contains n.val || sp.done.contains n.val then s
    else
      let sp := { sp with drives := sp.drives.filter (fun m => m != n.val), again := if sp.gap then 0 else sp.again + 1 }
      let s := modSpan s id (fun _ => sp)
      match sp.gap, sp.drives, sp.drop with
      | true, [], some d =>
        let s := dropSpan s id
        s.modStrm sp.stream (fun x => { x with drops := match x.drops with
          | some e => some { d with count := d.count + e.count, lastNs := e.lastNs, lastTick := laterTick d.lastTick e.lastTick }
          | none => some d })
      | _, _, _ => s

/-- A copy is placed again once placement runs; with no drive for it, the span keeps the copies it has, or waits as one that was
never placed (R281). -/
def spanAgain (s : State) (id : Nat) : State :=
  match spanOf s id with
  | none => s
  | some sp =>
    if sp.again = 0 then s
    else if sp.bad then spanFinish (spanBad s sp) id
    else
      let able := (drvAllowed sp.pol).filter (fun m => canTake s m (spanLen sp) (placeGaps s m sp) && !holdsLater s m sp
        && !sp.drives.contains m.val)
      match drvPick s 1 able with
      | m :: _ => if placeRuns s then modSpan (spanOn s m sp) id (fun y => { y with again := y.again - 1 }) else s
      | [] =>
        let s := modSpan s id (fun y => { y with again := 0, placed := !y.drives.isEmpty })
        if sp.drives.isEmpty then s else spanFinish (mirrorShort s sp.stream) id

/-- Every copy that departed drives held, span by span. -/
def spansAgain (s : State) : State := ((s.place.spans.map (fun sp => List.replicate sp.again sp.id)).flatten).foldl spanAgain s

/-- SPAN_PLACE: everything that may be placed is. -/
def placeAll (s : State) : State :=
  let s := spansAgain s
  if placeRuns s then placeList s (s.place.spans.map Span.id) [] else s

/-- What a drive held and had not committed when it left ONLINE. -/
def driveLost (s : State) (n : Fin 4) : State :=
  let s := s.modDrive n (fun d => { d with segs := [], sbNew := none, sb := none, eject := false, cmds := [], wait := none, newest := d.kept
                                           was := (d.segs.map (fun g => g.spans.map (fun x => (g.seq, x.stream, x.no, x.id)))).flatten })
  driveRegs (spansAgain ((s.place.spans.map Span.id).foldl (fun s id => spanLost s n id) s)) n

/-! ### What follows every step of placement -/

/-- The superblock that commits a segment; `none` while R297 allows none. With RECYCLE the tail moves so that the reserve stays. -/
def superNext (s : State) (b : Super) (g : Segment) : Option Super :=
  let next := (g.seq + 1) % 2 ^ 64
  let tail := if recycle s then (b.tail + (seqPast next b.tail + 2 - b.count)) % 2 ^ 64 else b.tail
  if seqPast next tail + 1 ≤ b.count then
    some { b with gen := b.gen + 1, version := max b.version g.version, next := next, tail := tail } else none

/-- The last segment of a drive is the reserve, and no superblock can take it (R297). -/
def segStuck (s : State) (n : Fin 4) : Bool :=
  match (s.drive n).segs, (s.drive n).sb with
  | [g], some b => g.stage == .ready && (s.drive n).sbNew.isNone && (superNext s b g).isNone
  | _, _ => false

/-- Every drive has committed its segments. -/
def segsDone (s : State) : Bool := (List.finRange 4).all (fun n => (s.drive n).segs.isEmpty || segStuck s n)

def braceCheck (s : State) : State :=
  if s.isSet Fld.PLACE_STATUS_BRACE_COMMIT && segsDone s then
    (s.clear Fld.PLACE_STATUS_BRACE_COMMIT).raise Fld.PLACE_EVT_BRACE_DONE
  else s

/-- A superblock is written to the copy of its generation (R300). -/
def superWrite (s : State) (n : Fin 4) (b : Super) : State :=
  nvme s n (.write (superOff b.gen) (superBytes b s.toll.serial (fwVersion s) s.toll.boot s.now) true)

/-- The oldest segment of a drive, if it stands at a stage of its commit. -/
def segAt (s : State) (n : Fin 4) (st : SegStage) : Option Segment :=
  match (s.drive n).segs with
  | g :: _ => if g.stage = st then some g else none
  | [] => none

/-- The oldest segment of a drive moves to a stage. -/
def segMove (s : State) (n : Fin 4) (st : SegStage) : State :=
  s.modDrive n (fun d => { d with segs := match d.segs with
    | g :: t => { g with stage := st } :: t
    | [] => [] })

/-- Superblock `b` of drive `n` is being written. -/
def superStart (s : State) (n : Fin 4) (b : Super) : State :=
  (superWrite s n b).modDrive n (fun d => { d with sbNew := some b })

/-- A drive writes the superblock that waited: one for the oldest segment, or, with RECYCLE and only the reserve left, one that
gives up the oldest committed segment (R290, R300). -/
def superPump (s : State) (n : Fin 4) : State :=
  let d := s.drive n
  match d.sb with
  | some b =>
    if d.sbNew.isSome || drvState s n != drvOnline then s
    else match d.segs with
      | g :: _ =>
        (match g.stage, superNext s b g with
        | .ready, some b' => segMove (superStart s n b') n .super
        | _, _ => s)
      | [] =>
        if recycle s && placeRuns s && isReserve b b.next && b.next != b.tail then
          superStart s n { b with gen := b.gen + 1, tail := (b.tail + 1) % 2 ^ 64 } else s
  | none => s

/-- BRACE_PLACEMENT_COMMIT (R291). -/
def braceEnter (s : State) : State :=
  let s := eachStrm s (fun s i => spanClose s i false)
  let s := (List.finRange 4).foldl (fun s n => segClose s n 5) s
  braceCheck (s.raise Fld.PLACE_STATUS_BRACE_COMMIT)

/-- A drive in EJECT whose segments are committed becomes EJECTED (R286). -/
def ejectCheck (s : State) (n : Fin 4) : State :=
  let d := s.drive n
  if d.eject && (d.segs.isEmpty || segStuck s n) then
    let s := nvme (nvme s n .deleteSq) n .deleteCq
    driveLost ((s.put (Fld.DRIVE_STATE_STATE n) drvEjected).raise (Fld.DRIVE_EVT_EJECT_DONE n)) n
  else s

/-- Segments that hold the last spans of a closing stream commit (R268). -/
def closeCommit (s : State) : State :=
  eachStrm s (fun s i =>
    let x := s.strm i
    if sharesEnd s i && x.build.isNone && !s.place.spans.any (fun sp => sp.stream == i && sp.open_) then
      (List.finRange 4).foldl (fun s n =>
        let holds := match segOpen (s.drive n) with | some g => g.spans.any (fun y => y.stream == i) | none => gapDue s n i s.place.nextId
        if holds && placeRuns s then segClose s n 3 else s) s
    else s)

/-- In HALT, once every course laid in the ring has been compressed and its spans written, each open segment is committed and
the drives stay idle (R292). -/
def haltCommit (s : State) : State :=
  if s.devState = devHalt ∧ !s.place.haltDone ∧ (strmsLive s).all (fun i => (s.strm i).shares.isEmpty) then
    let s := eachStrm s (fun s i => spanClose s i false)
    if s.place.spans.all (fun sp => !sp.open_) then
      ((List.finRange 4).foldl (fun s n => segClose s n 6) s).modPlace (fun p => { p with haltDone := true })
    else s
  else s

/-- Spans are placed and everything that waited for a step of placement goes on. -/
def placeSettle (s : State) : State :=
  let s := haltCommit (closeCommit (placeAll ((List.finRange 4).foldl superPump s)))
  ringAdvance (braceCheck ((List.finRange 4).foldl ejectCheck s))

/-- COURSE_COMPLETE (R246, R269). -/
def courseComplete (s : State) : State :=
  match courseWrite s with
  | (s, some d) => placeSettle (strmsDecide (shareCourse s d))
  | (s, none) => s

/-- COMPRESSION_DONE (R273). -/
def compressionDone (s : State) (id : Nat) : State :=
  match spanCompress s id with
  | some s => placeSettle s
  | none => s

/-! ### Commits (R310) -/

/-- The Writes of span `id` in the segments of a drive. -/
def spanWrites (d : Drive) (id : Nat) (c : NvmeCmd) : Bool :=
  match d.sb with
  | some b => d.segs.any (fun g => g.spans.any (fun x => x.id == id && writeIn (segBase b.count g.seq + x.off) x.len c))
  | none => false

/-- SPAN_WRITE_DONE. -/
def spanWritten (s : State) (n : Fin 4) (id : Nat) : State :=
  placeSettle ((nvmeDone s n (spanWrites (s.drive n) id)).modDrive n (fun d => { d with segs := d.segs.map (fun g =>
    { g with spans := g.spans.map (fun x => if x.id = id then { x with written := true } else x) }) }))

/-- SEGMENT_COMMIT: every span of the segment is written; its footer goes out. -/
def segCommit (s : State) (n : Fin 4) : State :=
  match segAt s n .closing, (s.drive n).sb with
  | some g, some b =>
    if g.spans.all (fun x => x.written) then
      segMove (nvme s n (.write (segBase b.count g.seq + footerOff) (footerBytes g b.lba s.now) false)) n .footer
    else s
  | _, _ => s

/-- COMMIT_MS_EXPIRE. -/
def commitExpire (s : State) (n : Fin 4) : State :=
  match segOpen (s.drive n) with
  | some g => if g.firstNs.isSome then segClose s n 2 else s
  | none => s

/-- FOOTER_WRITE_DONE: Flush. -/
def footerWritten (s : State) (n : Fin 4) : State :=
  match segAt s n .footer, (s.drive n).sb with
  | some g, some b =>
    let s := nvmeDone s n (writeIn (segBase b.count g.seq + footerOff) (2 ^ 20))
    segMove (nvme s n .flush) n .flush
  | _, _ => s

/-- FLUSH_DONE: the superblock, once R297 allows one and no other is being written. -/
def flushDone (s : State) (n : Fin 4) : State :=
  match segAt s n .flush with
  | some _ => placeSettle (segMove (nvmeDone s n (· == .flush)) n .ready)
  | none => s

/-- SUPERBLOCK_WRITE_DONE: the segment counts as committed, and the segments before a new TAIL_SEQ are given up. -/
def superWritten (s : State) (n : Fin 4) : State :=
  match (s.drive n).sb, (s.drive n).sbNew with
  | some old, some b =>
    let g := segAt s n .super
    let s := nvmeDone s n (writeIn (superOff b.gen) 4096)
    let s := s.modDrive n (fun d => { d with segs := if g.isSome then d.segs.drop 1 else d.segs, sb := some b, sbNew := none
                                             kept := newestOf d.kept ((g.map (fun g => g.spans.map (fun x => (x.stream, x.id)))).getD []) })
    let s := ((match g with | some g => g.spans.map SegSpan.id | none => [])).foldl (fun s id =>
      spanFinish (modSpan s id (fun y => { y with done := y.done ++ [n.val] })) id) s
    let s := (List.range (seqPast b.tail old.tail)).foldl (fun s k =>
      if (s.drive n).dealloc then nvme s n (.dealloc (segBase b.count ((old.tail + k) % 2 ^ 64)) quayU) else s) s
    let s := driveRegs s n
    let s := if !recycle s && (segOpen (s.drive n)).isNone && !mayOpen (s.drive n) b false then s.raise (Fld.DRIVE_EVT_FULL n) else s
    placeSettle s
  | _, _ => s

/-! ### Stream close (R268) -/

/-- STREAM_CLOSE_DONE: the last span has been committed or, with `abandon`, is given up while no drive holds it; what is given up
stays counted for a gap span (R289). -/
def streamCloseDone (s : State) (i : Nat) (abandon : Bool) : State :=
  if strmState s i ≠ strmClosing || !sharesEnd s i then s
  else
    let s := if abandon then
        (s.place.spans.filter (fun sp => sp.stream == i && sp.drives.isEmpty && !sp.gap)).foldl (fun s sp =>
          dropSpan (dropRecs s i sp.pol sp.id sp.recs) sp.id) s
      else s
    let x := s.strm i
    let reach := match policyNow x with | some p => (drvAllowed p).any (fun n => drvState s n == drvOnline) | none => false
    if x.build.isSome || s.place.spans.any (fun sp => sp.stream == i && !(abandon && sp.gap)) || (x.drops.isSome && reach && !abandon) then ringAdvance s
    else
      let st := if x.lost then St.storageFull else if x.short then 0x82 else St.ok
      let s := match serialOf s x.close with | some e => complete s e st [] | none => s
      let s := s.modStrm i (fun x => { x with policies := [], close := none, upto := none })
      let s := ((s.put (Fld.STRM_STATE_STATE i) strmUndefined).clear (Fld.STRM_STATE_DROPPING i)).put (Fld.STRM_STATE_MIRRORS_NOW i) 0
      ringAdvance (strmRegs s)

/-! ### Degradation (R288) -/

/-- Free segments of all ONLINE drives. -/
def freeSegs (s : State) : Nat :=
  (((List.finRange 4).filter (fun (n : Fin 4) => drvState s n == drvOnline)).map (fun (n : Fin 4) => s.get (Fld.DRIVE_STATE_FREE_SEGMENTS n))).sum

/-- Dropped streams lose their span in progress and the spans that no drive holds. -/
def degradeDrop (s : State) : State :=
  let s := (s.place.spans.filter (fun sp => !sp.gap && sp.drives.isEmpty && polDropped s sp.pol)).foldl (fun s sp =>
    dropSpan (dropRecs s sp.stream sp.pol sp.id sp.recs) sp.id) s
  eachStrm s (fun s i =>
    match (s.strm i).build with
    | some b => if polDropped s b.pol then dropRecs (s.modStrm i (fun x => { x with build := none })) i b.pol s.place.nextId b.recs else s
    | none => s)

/-- DEGRADATION_STEP. -/
def degradeStep (s : State) : State :=
  if ticksFrom s.place.levelTick s.tick < s.get Fld.PLACE_CFG_STEP_TICKS then s
  else
    let l := level s
    let up := decide (s.get Fld.PLACE_CFG_STAGE_HIGH ≤ stagePct s) || decide (freeSegs s < s.get Fld.PLACE_CFG_SPACE_LOW)
    let down := decide (stagePct s ≤ s.get Fld.PLACE_CFG_STAGE_LOW) && decide (s.get Fld.PLACE_CFG_SPACE_LOW ≤ freeSegs s)
    if up ∧ l < 16 then
      let s := (s.put Fld.PLACE_STATUS_LEVEL (l + 1)).raise Fld.PLACE_EVT_DEGRADE
      let s := s.modPlace (fun p => { p with levelTick := s.tick })
      ringAdvance (degradeDrop (strmRegs s))
    else if !up ∧ down ∧ 0 < l then
      let s := (s.put Fld.PLACE_STATUS_LEVEL (l - 1)).raise Fld.PLACE_EVT_RESTORE
      strmRegs (s.modPlace (fun p => { p with levelTick := s.tick }))
    else s

/-! ### Drive states (R283, R286, R287, R301, R302, R311) -/

/-- PERST# of a drive. -/
def drvPerst (s : State) (n : Fin 4) (a : Bool) : State :=
  if (s.drive n).perst = a then s else (s.modDrive n (fun d => { d with perst := a })).emit (.perst n a)

/-- Width of a storage port's link. -/
def drvWidth (s : State) (n : Fin 4) (w : Nat) : State :=
  match n with
  | 0 => s.put Fld.LINK_STATE_SP_WIDTH0 w
  | 1 => s.put Fld.LINK_STATE_SP_WIDTH1 w
  | 2 => s.put Fld.LINK_STATE_SP_WIDTH2 w
  | 3 => s.put Fld.LINK_STATE_SP_WIDTH3 w

/-- Lanes of the host port (0) and of a storage port (1–4). -/
def fullWidth (p : Nat) : Nat := if p = 0 then 8 else 4

/-- The widest that port `p` trains: its retired lanes have brought it down, and it never goes up again while the device runs
(R348). -/
def portCap (s : State) (p : Nat) : Nat := fullWidth p - SMap.get 0 s.portOut p

/-- Port `p` is held at `w` lanes or fewer. -/
def capPort (s : State) (p w : Nat) : State := { s with portOut := SMap.set 0 s.portOut p (fullWidth p - min w (portCap s p)) }

/-- The most lanes, a power of two, of so many. -/
def widthOf (n : Nat) : Nat := ([8, 4, 2, 1].find? (fun w => decide (w ≤ n))).getD 0

/-- The width to which port `p` trains with a partner that offers `offer` lanes. -/
def trainWidth (s : State) (p offer : Nat) : Nat := widthOf (min offer (portCap s p))

/-- A drive starts over in LINKING. -/
def drvLink (s : State) (n : Fin 4) : State :=
  let s := (s.put (Fld.DRIVE_STATE_STATE n) drvLinking).put (Fld.DRIVE_STATE_FAIL_REASON n) 0
  drvPerst (s.put (Fld.DRIVE_CAP_SEGMENTS n) 0) n true

/-- A drive fails (R283): FAILED, PERST# asserted, logged, and the placement pin asserts. -/
def driveFail (s : State) (n : Fin 4) (reason : Nat) : State :=
  let s := (s.put (Fld.DRIVE_STATE_STATE n) drvFailed).put (Fld.DRIVE_STATE_FAIL_REASON n) reason
  let s := drvWidth (drvPerst (s.raise (Fld.DRIVE_EVT_FAILED n)) n true) n 0
  let s := thLog s 0xFE 0x0402 (leBytes 1 n ++ leBytes 1 reason)
  placeSettle (driveLost (errorPin s pinPlace (0x10 + n)) n)

/-- The drive is in a state in which its link is in use, and PERST# does not hold it (R286). -/
def drvUsed (s : State) (n : Fin 4) : Bool :=
  [drvIdentify, drvBlank, drvReadOnly, drvOnline, drvEjected].contains (drvState s n) && !(s.drive n).perst

/-- Command `c` failed (R284): retried once; when it fails again, the drive fails, unless it is in a state that R286 lets no failure
end. -/
def cmdFailed (s : State) (n : Fin 4) (c : NvmeCmd) : State :=
  let s := s.bumpSat (Fld.DRIVE_IO_CMD_ERRORS n) 1
  if (s.drive n).cmds.contains (c, true) then
    (if [drvIdentify, drvOnline].contains (drvState s n) then driveFail s n 6 else nvmeDone s n (· == c))
  else (s.modDrive n (fun d => { d with cmds := d.cmds.map (fun x => if x.1 = c then (c, true) else x) })).emit (.nvme n c)

/-- DRIVE_PRESENT. -/
def drivePresent (s : State) (n : Fin 4) : State :=
  if (s.drive n).present then s
  else
    let s := s.modDrive n (fun d => { d with present := true })
    if s.devState != devDrydock && s.isSet (Fld.DRIVE_CTRL_ENABLE n) && drvState s n == drvAbsent then drvLink (s.raise (Fld.DRIVE_EVT_ARRIVED n)) n else s

/-- DRIVE_PERST_RELEASE: in SELFTEST too, where step 7 trains the links (R359; DESIGN CHOICE, log entry 144). -/
def drivePerst (s : State) (n : Fin 4) : State := if drvState s n = drvLinking then drvPerst s n false else s

/-- DRIVE_LINK_UP: the drive is identified; a link that ENABLE had held in reset only shows its width. -/
def driveLinkUp (s : State) (n : Fin 4) (offer : Nat) : State :=
  let width := trainWidth s (n + 1) offer
  if width = 0 then s
  else if drvState s n = drvLinking ∧ !(s.drive n).perst ∧ pllOk s 3 then
    let s := (drvWidth s n width).put (Fld.DRIVE_STATE_STATE n) drvIdentify
    nvme (nvme (nvme s n (.identify 1)) n (.identify 2)) n (.identify 0)
  else if [drvBlank, drvReadOnly].contains (drvState s n) && !(s.drive n).perst then drvWidth s n width
  else s

/-- DRIVE_LINK_TIMEOUT. -/
def driveLinkTimeout (s : State) (n : Fin 4) : State :=
  if drvState s n = drvLinking ∧ !(s.drive n).perst then driveFail s n 1 else s

/-- DRIVE_LINK_LOST. -/
def driveLinkLost (s : State) (n : Fin 4) : State :=
  if [drvLinking, drvIdentify, drvOnline].contains (drvState s n) && (s.drive n).present then driveFail s n 7 else s

/-- DRIVE_COMMAND_TIMEOUT. -/
def driveTimeout (s : State) (n : Fin 4) : State :=
  if drvState s n = drvIdentify ∨ drvState s n = drvOnline then driveFail (s.bumpSat (Fld.DRIVE_IO_TIMEOUTS n) 1) n 6 else s

/-- DRIVE_REMOVED. -/
def driveRemoved (s : State) (n : Fin 4) : State :=
  let was := drvState s n
  let s := s.modDrive n (fun d => { d with present := false })
  if was = drvAbsent then s
  else
    let s := (s.put (Fld.DRIVE_STATE_STATE n) drvAbsent).put (Fld.DRIVE_STATE_FAIL_REASON n) 0
    let s := drvWidth (drvPerst ((s.put (Fld.DRIVE_CAP_SEGMENTS n) 0).raise (Fld.DRIVE_EVT_REMOVED n)) n true) n 0
    placeSettle (driveLost s n)

/-- A fresh Quay layout is written (R302): the new superblock; VOLUME_ID is random. -/
def driveFormat (s : State) (n : Fin 4) : Super × State :=
  let d := s.drive n
  let (k, s) := s.drawFree
  let vol := leBytes 8 (Config.freeWord k).toNat ++ leBytes 8 (Config.freeWord (k + 1)).toNat
  let v := s.get Fld.QUAY_CFG_FORMAT_TARGET
  let lba := 2 ^ s.get (Fld.DRIVE_STATE_LBA_SHIFT n)
  let b : Super := ⟨if v = 0 then 1 else v, 0, vol, d.nsBytes, lba, segmentCount d.nsBytes, 0, 0⟩
  let s := if d.dealloc then nvme s n (.dealloc 0 d.nsBytes) else s
  (b, nvme (superWrite s n b) n (.write (2 ^ 20) (zeros 4096) false))

/-- A drive becomes ONLINE with a superblock, and with what sealing left. -/
def driveOnline (s : State) (n : Fin 4) (b : Super) (segs : List Segment) : State :=
  let s := s.modDrive n (fun d => { d with sb := some b, segs := segs, volume := b.volume, was := [] })
  let s := (s.put (Fld.DRIVE_STATE_STATE n) drvOnline).raise (Fld.DRIVE_EVT_MOUNTED n)
  placeSettle (driveRegs (s.put (Fld.DRIVE_CAP_SEGMENTS n) b.count) n)

/-- The spans of the drive's last time ONLINE that a mount finds: those of segments before NEXT_SEQ, all of a segment that is accepted,
those with the SPAN_NOs that a seal lists; another volume holds none. -/
def driveKnows (s : State) (n : Fin 4) (d : DriveId) (b : Super) : State :=
  let found := (s.drive n).was.filter (fun w => decide (seqPast b.next w.1 ≠ 0 ∧ seqPast b.next w.1 < 2 ^ 63) || w.1 == b.next && (match segFound d b.volume b.next with
    | none => false
    | some none => true
    | some (some xs) => xs.any (fun x => x.stream == w.2.1 && x.no == w.2.2.1)))
  s.modDrive n (fun x =>
    if x.volume = b.volume then { x with kept := newestOf x.kept (found.map (fun w => (w.2.1, w.2.2.2)))
                                         newest := newestOf x.kept (found.map (fun w => (w.2.1, w.2.2.2))) }
    else { x with kept := [], newest := [] })

/-- The segment that was open is sealed or accepted (R311): the superblock, the segment it leaves when R297 allows no superblock past
it (no boot writes to it again, R305), and the state. -/
def driveSeal (s : State) (n : Fin 4) (d : DriveId) (b : Super) : Super × List Segment × State :=
  match segFound d b.volume b.next with
  | none => (b, [], s)
  | some f =>
    let xs := f.getD []
    let used := roundUp 4096 ((xs.map (fun x => x.off + x.len)).foldl max 4096)
    let g : Segment := ⟨b.next, leAt d.header 4 2, 0, 0, .ready, 7, s.now, none, used, xs⟩
    let s := if f.isSome then
        let s := nvme s n (.write (segBase b.count b.next + footerOff) (footerBytes g b.lba s.now) false)
        thLog (nvme s n .flush) 0xFE 0x0400 (leBytes 1 n ++ leBytes 8 b.next ++ leBytes 4 xs.length)
      else s
    match superNext s b g with
    | some b' => (b', [], superWrite s n b')
    | none => (b, [{ g with spans := [] }], s)

/-- The first requirement of R283 that an identified drive fails, 0 for none. -/
def driveReason (d : DriveId) : Nat :=
  if d.version.toNat < 0x10400 ∨ !d.nvmSet ∨ !d.ready then 2
  else if d.mpsmin ≠ 0 ∨ d.mqes.toNat < 63 ∨ (d.mdts ≠ 0 ∧ d.mdts.toNat < 4) then 3
  else if !d.active ∨ !(d.lbads == 9 || d.lbads == 12) ∨ d.meta_ ≠ 0 then 4
  else if d.lbas.toNat * 2 ^ d.lbads.toNat < 2 ^ 32 then 5
  else 0

/-- Namespace bytes of an identified drive. -/
def driveBytes (d : DriveId) : Nat := d.lbas.toNat * 2 ^ d.lbads.toNat

/-- SMART of a drive has been read: the Critical Warning byte. -/
def driveWarn (s : State) (n : Fin 4) (warn : Nat) : State :=
  let s := s.put (Fld.DRIVE_IO_CRIT_WARN n) warn
  if warn % 256 = 0 then s else s.raise (Fld.DRIVE_EVT_SMART_WARN n)

/-- Commands of a mount after Identify (R284): features, I/O queues, SMART, both superblocks. The event brings what the Identify
commands and the Reads returned; the others are in flight until a poll sees them complete or fail. -/
def driveSetup (s : State) (n : Fin 4) (d : DriveId) : State :=
  let q := min 256 (d.mqes.toNat + 1)
  let s := s.modDrive n (fun x => { x with nsBytes := driveBytes d, dealloc := d.trim, cmds := [],
                                           mdts := if d.mdts = 0 then 2 ^ 20 else min (2 ^ 20) (4096 * 2 ^ d.mdts.toNat) })
  let s := s.put (Fld.DRIVE_STATE_LBA_SHIFT n) d.lbads.toNat
  let s := nvme (nvme s n (.setFeature 0x02 0)) n (.getFeature 0x02)
  let s := if d.vwc then nvme (nvme s n (.setFeature 0x06 1)) n (.getFeature 0x06) else s
  let s := nvme (nvme (nvme s n (.createCq q)) n (.createSq q)) n .smart
  let s := nvme (nvme s n (.read 0 4096)) n (.read (2 ^ 20) 4096)
  driveWarn (nvmeDone s n (fun c => c == .read 0 4096 || c == .read (2 ^ 20) 4096)) n d.warn.toNat

/-- The superblock decides what an identified drive becomes (R301). -/
def driveMount (s : State) (n : Fin 4) (d : DriveId) : State :=
  let s := driveSetup s n d
  match superCurrent d.copyA d.copyB with
  | none =>
    if s.isSet Fld.PLACE_CFG_AUTO_FORMAT then
      let (b, s) := driveFormat s n
      driveOnline (s.modDrive n (fun x => { x with kept := [], newest := [] })) n b []
    else placeSettle (s.put (Fld.DRIVE_STATE_STATE n) drvBlank)
  | some (b, minR) =>
    if 2 < minR ∨ 2 < b.version ∨ b.nsBytes ≠ driveBytes d ∨ b.lba ≠ 2 ^ d.lbads.toNat then
      placeSettle ((s.put (Fld.DRIVE_CAP_SEGMENTS n) b.count).put (Fld.DRIVE_STATE_STATE n) drvReadOnly)
    else
      let (b, segs, s) := driveSeal (driveKnows s n d b) n d b
      driveOnline s n b segs

/-- The drives are written to: not in BRACE beyond the commits, and not once HALT's commit has begun (R291, R292). -/
def drivesWrite (s : State) : Bool := s.devState != devBrace && !s.place.haltDone

/-- DRIVE_IDENTIFY_DONE. -/
def driveIdentified (s : State) (n : Fin 4) (d : DriveId) : State :=
  if drvState s n ≠ drvIdentify then s
  else if driveReason d ≠ 0 then driveFail s n (driveReason d)
  else if drivesWrite s then driveMount s n d
  else s.modDrive n (fun x => { x with wait := some (.mount d) })

/-- A FORMAT begins: the fresh layout is written, and the drive is identified again (R286, R287). -/
def formatStart (s : State) (n : Fin 4) : State :=
  let s := (driveFormat s n).2.put (Fld.DRIVE_STATE_STATE n) drvIdentify
  nvme (nvme (nvme s n (.identify 1)) n (.identify 2)) n (.identify 0)

/-- What waited on a drive goes on once it may be written to. -/
def driveResume (s : State) (n : Fin 4) : State :=
  if drivesWrite s then
    match (s.drive n).wait with
    | some .format => formatStart (s.modDrive n (fun x => { x with wait := none })) n
    | some (.mount d) =>
      let s := s.modDrive n (fun x => { x with wait := none })
      if drvState s n = drvIdentify then driveMount s n d else s
    | none => s
  else s

/-- The ticks since the last change of LEVEL are held at 65535, the longest STEP_TICKS, so that TICKNO's wrap does not restart them. -/
def levelAge (s : State) : State :=
  if ticksFrom s.place.levelTick s.tick ≤ 65535 then s
  else s.modPlace (fun p => { p with levelTick := (s.tick + 2 ^ 48 - 65535) % 2 ^ 48 })

/-- Placement at a tick edge: it resumes after BRACE, and what the edge decided is settled. -/
def placeEdge (s : State) : State := placeSettle ((List.finRange 4).foldl driveResume (levelAge s))

/-- NVME_COMPLETION_POLL: the completed commands, by their place among those posted, and whether each failed. -/
def nvmePoll (s : State) (n : Fin 4) (comps : List (Nat × Bool)) : State :=
  let cmds := (s.drive n).cmds
  comps.foldl (fun s p =>
    match cmds[p.1]? with
    | none => s
    | some c =>
      if !drvUsed s n then s
      else if p.2 then cmdFailed s n c.1 else nvmeDone s n (· == c.1)) s

/-- SMART_POLL. -/
def smartPoll (s : State) (n : Fin 4) (warn : Nat) : State :=
  if drvUsed s n ∧ drvState s n ≠ drvIdentify ∧ !drivesIdle s then driveWarn (nvme s n .smart) n warn else s

/-- ENABLE changes (R286): 0 holds PERST# asserted and takes the drive out of use at once. -/
def driveEnable (s : State) (n : Fin 4) (en : Bool) : State :=
  if s.isSet (Fld.DRIVE_CTRL_ENABLE n) = en then s
  else
    let s := s.putB (Fld.DRIVE_CTRL_ENABLE n) en
    let st := drvState s n
    if en then
      (if !(s.drive n).present then s
       else if st = drvAbsent then drvLink (s.raise (Fld.DRIVE_EVT_ARRIVED n)) n
       else if st = drvFailed ∨ st = drvEjected then drvLink s n
       else if st = drvBlank ∨ st = drvReadOnly then drvPerst s n false
       else s)
    else if [drvLinking, drvIdentify, drvOnline].contains st then driveFail s n 7
    else drvWidth (drvPerst s n true) n 0

/-- A write of DRIVE_CTRL (R286, R287): FORMAT finds no drive that ENABLE has taken out of use; in BRACE it waits. -/
def wrDriveCtrl (s : State) (n : Fin 4) (v : Nat) : Wr :=
  let st := drvState s n
  let fmt := bit v 0
  let erase := s.isSet (Fld.DRIVE_CTRL_ERASE_OK n)
  if (fmt && (!(st == drvBlank || (st == drvReadOnly && erase)) || (s.drive n).perst)) || (bit v 2 && st != drvOnline) then .refused
  else
    let s := s.putB (Fld.DRIVE_CTRL_ERASE_OK n) (bit v 1 && !fmt)
    let s := if !fmt then s else if drivesWrite s then formatStart s n else s.modDrive n (fun d => { d with wait := some .format })
    let s := if bit v 2 then ejectCheck (segClose (s.modDrive n (fun d => { d with eject := true })) n 4) n else s
    .ok (driveEnable s n (bit v 3))

/-! ### Registers -/

/-- Every channel is DISABLED and no stream is OPEN or CLOSING. -/
def stageFree (s : State) : Bool :=
  (List.finRange 56).all (fun c => [chDisabled, chLent, chAbsent].contains (chState s c)) && (strmsLive s).isEmpty

/-- Two ranges of MiB do not meet. -/
def apart (a n b m : Nat) : Bool := decide (a + n ≤ b) || decide (b + m ≤ a)

/-- A write of STAGE_BASE or STAGE_SIZE, as the pair it would leave. -/
def wrStage (s : State) (reg v base size : Nat) : Wr :=
  if stageFree s && decide (64 ≤ size) && decide ((base + size) * 2 ^ 20 ≤ s.devRegion)
      && apart base size (s.get Fld.RING_BASE_ADDR) (s.get Fld.RING_SIZE_MIB) then .ok (regApply s reg v)
  else .refused
def wrStageBase (s : State) (v : Nat) : Wr := wrStage s Reg.STAGE_BASE v (bf v 20 16) (s.get Fld.STAGE_SIZE_MIB)
def wrStageSize (s : State) (v : Nat) : Wr := wrStage s Reg.STAGE_SIZE v (s.get Fld.STAGE_BASE_ADDR) (bf v 0 16)

/-- A write of PLACE_CFG. -/
def wrPlaceCfg (s : State) (v : Nat) : Wr :=
  let hi := bf v 8 7
  let lo := bf v 16 7
  if 50 ≤ hi ∧ hi ≤ 95 ∧ 10 ≤ lo ∧ lo + 10 ≤ hi ∧ 1 ≤ bf v 24 8 ∧ 10 ≤ bf v 32 16 ∧ bf v 32 16 ≤ 60000 ∧ 1 ≤ bf v 48 16 then
    .ok (placeSettle (regApply s Reg.PLACE_CFG v))
  else .refused

/-- A write of QUAY_CFG (R313). -/
def wrQuayCfg (s : State) (v : Nat) : Wr := if bf v 0 4 ≤ 2 then .ok (regApply s Reg.QUAY_CFG v) else .refused

/-- A write of RING_BASE or RING_SIZE (R248): an accepted one empties the ring. -/
def wrRing (s : State) (reg v base size : Nat) : Wr :=
  if (List.finRange 56).all (fun c => [chDisabled, chLent, chAbsent].contains (chState s c)) && decide (64 ≤ size)
      && decide ((base + size) * 2 ^ 20 ≤ s.devRegion) then
    let s := regApply s reg v
    let s := (s.put Fld.RING_HEAD_OFFSET 0).put Fld.RING_TAIL_OFFSET 0
    let s := ((s.put Fld.RING_OLDEST_TICK 0).put Fld.RING_LAST_TICK 0).put Fld.RING_LAST_HDR_OFFSET 0
    .ok { s with dones := [], ringFirst := true, courses := s.courses.map (fun c => { c with exts := c.exts.map (fun e => { e with off := none }) }) }
  else .refused
def wrRingBase (s : State) (v : Nat) : Wr := wrRing s Reg.RING_BASE v (bf v 20 16) (s.get Fld.RING_SIZE_MIB)
def wrRingSize (s : State) (v : Nat) : Wr := wrRing s Reg.RING_SIZE v (s.get Fld.RING_BASE_ADDR) (bf v 0 16)

/-! ### READBACK and SNAPSHOT (R293, R294) -/

/-- READBACK starts. -/
def readbackStart (s : State) (serial : Nat) : State :=
  basinStart s serial opReadback (fun e => some (e.arg 24 1)) (fun e =>
    let len := e.arg 48 4
    let off := e.arg 32 8
    if !longTurn s e then s
    else if h : e.arg 24 1 < 4 then
      let n : Fin 4 := ⟨e.arg 24 1, h⟩
      if off % 4096 ≠ 0 ∨ len < 4096 ∨ 2 ^ 31 < len ∨ len % 4096 ≠ 0 ∨ !bufOk s (e.arg 40 8) len then longRefuse s e St.badOperand len
      else if [drvAbsent, drvLinking, drvIdentify, drvFailed].contains (drvState s n) then longRefuse s e St.rejectedState len
      else if (s.drive n).nsBytes < off + len then longRefuse s e St.badOperand len
      else longStart (nvme s n (.read off 4096)) e len
    else longRefuse s e St.badOperand len)

/-- Bytes written to an operand address of a work entry. -/
def operandWrite (s : State) (a : Nat) (bs : List Byte) : State :=
  if 2 ^ 63 ≤ a then s.hostWrite (a - 2 ^ 63) bs else s.dramWrite a bs

/-- One step of a READBACK: the drive's data. -/
def readbackStep (s : State) (e : WorkEntry) (data : HostRd) : State :=
  let a := e.arg 40 8
  if h : e.arg 24 1 < 4 then
    let n : Fin 4 := ⟨e.arg 24 1, h⟩
    if s.devState = devBrace ∨ !longMay s e a then s
    else if !drvUsed s n || drvState s n == drvIdentify then completeLong s e St.busError
    else match data with
      | .fail => completeLong (cmdFailed s n (.read (e.arg 32 8 + e.done * 4096) 4096)) e St.busError
      | .ok bs =>
        let s := nvmeDone s n (· == .read (e.arg 32 8 + e.done * 4096) 4096)
        let e' := longStepped s e
        let s := updEntry (operandWrite s (a + e.done * 4096) ((bs ++ zeros 4096).take 4096)) e'
        if e'.done < e'.total then nvme s n (.read (e.arg 32 8 + e'.done * 4096) 4096) else completeLong s e' St.ok
  else s

/-- A course's block of a snapshot: from the ring as it stands. -/
def snapBlock (s : State) (d : DoneCourse) : List Byte :=
  let exts := courseOrder ⟨d.tick, d.edgeNs, false, d.step, d.exts⟩
  let recs := (exts.map (fun e => s.dramRead (ringBase s + e.off.getD 0 + 16) e.len)).flatten
  leBytes 6 d.tick ++ leBytes 1 (s.dramByte (ringBase s + d.hdr + 5)).toNat ++ zeros 1 ++ leBytes 8 d.edgeNs
    ++ leBytes 4 ((exts.map (fun e => e.recs.length)).sum) ++ leBytes 4 recs.length ++ zeros 8 ++ recs

/-- The image of a snapshot. -/
def snapImage (s : State) (first count : Nat) : List Byte :=
  let body := ((s.dones.filter (fun d => decide (ticksFrom first d.tick < count))).map (snapBlock s)).flatten
  withCrc ([0x56, 0x53, 0x4E, 0x50] ++ leBytes 1 1 ++ zeros 3 ++ leBytes 6 first ++ zeros 2 ++ leBytes 4 count ++ zeros 4
    ++ leBytes 8 (64 + body.length) ++ zeros 4 ++ zeros 28 ++ body) 32

/-- The first bad word in the records of the courses of a snapshot: it is not taken as data (R336; DESIGN CHOICE, log entry 142). -/
def snapBad (s : State) (first count : Nat) : Option Nat :=
  (((s.dones.filter (fun d => decide (ticksFrom first d.tick < count))).map (fun d =>
    (d.exts.map (fun e => s.dramBad (ringBase s + e.off.getD 0 + 16) e.len)).flatten)).flatten).head?

/-- SNAPSHOT starts. -/
def snapshotStart (s : State) (serial : Nat) : State :=
  basinStart s serial opSnapshot (fun _ => none) (fun e =>
    let first := e.arg 24 6
    let n := e.arg 32 4
    let len := e.arg 48 4
    let img := snapImage s first n
    let last := (first + n + (2 ^ 48 - 1)) % 2 ^ 48
    if !longTurn s e then s
    else if n = 0 ∨ len % 4096 ≠ 0 ∨ !bufOk s (e.arg 40 8) len then longRefuse s e St.badOperand img.length
    else if s.dones.isEmpty ∨ tickAfter first (s.get Fld.RING_OLDEST_TICK) ∨ tickAfter (s.get Fld.RING_LAST_TICK) last then
      longRefuse s e 0x84 img.length
    else if len < img.length then longRefuse s e St.badOperand img.length
    else if (snapBad s first n).isSome then longRefuse (dramEcc s ((snapBad s first n).getD 0)) e St.busError img.length
    else
      let s := s.modPlace (fun p => { p with snaps := p.snaps ++ [(e.serial, first, last)] })
      longStart s { e with data := img } img.length)

/-- One step of a SNAPSHOT. -/
def snapshotStep (s : State) (e : WorkEntry) : State :=
  let a := e.arg 40 8
  if !longMay s e a then s
  else
    let e' := longStepped s e
    let s := updEntry (operandWrite s (a + e.done * 4096) (bsub e.data (e.done * 4096) 4096)) e'
    if e'.done < e'.total then s
    else ringAdvance (completeLong (s.modPlace (fun p => { p with snaps := p.snaps.filter (fun x => x.1 != e.serial) })) e' St.ok)

end Sys2Proof.Machine
end

