-- ==== Sys2Proof/Machine/Resets.lean ====
section
/-!
DEFINITION. Reset, the choice of the firmware slot, and firmware trials (16, R354–R357, R378).
-/
namespace Sys2Proof.Machine

/-! ### Firmware slots (R377, R378) -/

def slotEmpty : Nat := 0
def slotValid : Nat := 1
def slotPending : Nat := 2
def slotActive : Nat := 3
def slotFailed : Nat := 4
def slotInvalid : Nat := 5

/-- A firmware slot: 0 is A, 1 is B. -/
def fwSlot (t : TollHouse) (k : Nat) : FwSlot := if k = 0 then t.slotA else t.slotB
def modSlot (t : TollHouse) (k : Nat) (f : FwSlot → FwSlot) : TollHouse :=
  if k = 0 then { t with slotA := f t.slotA } else { t with slotB := f t.slotB }
def slotTo (t : TollHouse) (k st : Nat) : TollHouse := modSlot t k (fun x => { x with state := st })

/-- Slots in the order in which the ROM tries them, and whether the boot is a trial (R355, R378). -/
def bootOrder (t : TollHouse) (mode : Nat) : List (Nat × Bool) :=
  let of_ (st : Nat) : List Nat := [0, 1].filter (fun k => (fwSlot t k).state == st)
  let valid := (of_ slotValid).filter (fun k => decide (t.rollback ≤ (fwSlot t k).svn))
  let rest := if mode = 3 then valid ++ of_ slotActive else of_ slotActive ++ valid
  (of_ slotPending).map (fun k => (k, true)) ++ rest.map (fun k => (k, false))

/-- Check of a firmware image of `len` bytes (R377): the status. The customer's key is known by its digest (R379). -/
def fwCheck (t : TollHouse) (b : List Byte) (len : Nat) : Nat :=
  let body := leAt b 16 4
  let bad := len < 512 || bsub b 0 4 != [0x56, 0x46, 0x57, 0x49] || leAt b 4 1 != 1 || decide (1 < leAt b 5 1) || leAt b 6 2 != 0
    || !allZero b 21 11 || !allZero b 80 176 || !allZero b 448 64 || decide (body = 0 ∨ 3145216 < body) || len != 512 + body
    || leAt b 20 1 != 0xA2 || sha384 (bsub b 512 body) != bsub b 32 48
  let digest := sha384 (b.take 256)
  let customer := match t.cosign with
    | some key => bit (leAt b 5 1) 0 && Config.sigOk key digest (bsub b 352 96)
    | none => true
  if bad then 0x81
  else if !Config.sigOk Config.grenathKey digest (bsub b 256 96) || !customer then St.authFail
  else if leAt b 12 4 < t.rollback then 0x82
  else St.ok

/-- The ROM's checks of a slot pass (R378): an image that was staged is checked as at its staging, under the co-signing key in
force now (R379); what the device was shipped with is the reset's to say. -/
def romOk (t : TollHouse) (b : Boot) (k : Nat) : Bool :=
  let x := fwSlot t k
  (if k = 0 then b.okA else b.okB) && decide (t.rollback ≤ x.svn)
    && (x.image.isEmpty || fwCheck t x.image x.image.length == St.ok)

/-- The first slot of a list that passes the ROM's checks; those before it become FAILED. -/
def romPick (t : TollHouse) (b : Boot) (l : List (Nat × Bool)) : TollHouse × Option (Nat × Bool) :=
  match l with
  | [] => (t, none)
  | (k, trial) :: rest =>
    if romOk t b k then (t, some (k, trial))
    else romPick (slotTo t k slotFailed) b rest

/-- Data of firmware events: slot, VERSION, SVN (R374). -/
def fwData (t : TollHouse) (k : Nat) : List Byte := leBytes 1 k ++ leBytes 4 (fwSlot t k).version ++ leBytes 4 (fwSlot t k).svn

/-- A trial has succeeded: the firmware has reached READY or DRYDOCK (R378). -/
def trialDone (s : State) : State :=
  match s.toll.trial with
  | none => s
  | some (k, prev) =>
    let svn := (fwSlot s.toll k).svn
    let rose := decide (s.toll.rollback < svn)
    let s := s.modToll (fun t =>
      let t := if (fwSlot t prev).state = slotActive ∧ prev ≠ k then slotTo t prev slotValid else t
      { slotTo t k slotActive with trial := none, rollback := max t.rollback svn })
    let s := thLog s 0xFE 0x0601 (fwData s.toll k)
    if rose then thLog s 0xFE 0x0603 (fwData s.toll k) else s

/-- A trial has not succeeded: its slot becomes FAILED (R378). -/
def trialFails (s : State) : State :=
  match s.toll.trial with
  | some (k, _) => (thLog s 0xFE 0x0602 (fwData s.toll k)).modToll (fun t => { slotTo t k slotFailed with trial := none })
  | none => s

/-! ### Reset (R354, R357) -/

def rstPower : Nat := 0
def rstPor : Nat := 1
def rstWarm : Nat := 2
def rstSupply : Nat := 3
def rstCritical : Nat := 4

/-- What the Toll House keeps and the ROM sets at a reset release. -/
def tollReset (t : TollHouse) (b : Boot) : TollHouse × Option (Nat × Bool) :=
  let (t, pick) := romPick t b (bootOrder t b.mode.toNat)
  let prev := if t.slotA.state = slotActive then 0 else if t.slotB.state = slotActive then 1 else t.active
  ({ TollHouse.reset with
      boot := (t.boot + 1) % 2 ^ 32, rollback := t.rollback, slotA := t.slotA, slotB := t.slotB, cosign := t.cosign,
      factory := t.factory, config := t.config, staging := t.staging, serial := t.serial, macs := t.macs, log := t.log,
      logSeq := t.logSeq, repair := t.repair, repairBoot := t.repairBoot, keys := t.keys, bootmode := b.mode.toNat, testMode := b.test != 0,
      rom := pick.isNone, fullTest := t.fullTest,
      trial := (match pick with | some (k, true) => some (k, prev) | _ => none),
      active := (match pick with | some (k, _) => k | none => t.active) }, pick)

/-- Contents of LAST_RESET. -/
def lastReset (s : State) : List Byte :=
  leBytes 8 (s.get Fld.LAST_RESET_CAUSE + s.get Fld.LAST_RESET_MONITOR * 2 ^ 4 + s.get Fld.LAST_RESET_MIN_MV * 2 ^ 8)

/-- The dip record's payload (R350). -/
def dipBytes (d : Dip) (tick : Nat) : List Byte :=
  leBytes 6 d.tick ++ zeros 2 ++ leBytes 6 tick ++ leBytes 1 d.mon ++ zeros 1 ++ leBytes 4 d.low ++ zeros 4

/-- Reset release: every register and queue at its reset value, the Toll House's MRAM kept, a slot chosen, the drives' PERST#
and the PHYs' resets asserted, the field pins inputs, the trigger and PPS outputs low (R2, R411); the firmware that runs logs the boot. A trial in progress has failed. -/
def deviceReset (s : State) (cause mon low : Nat) (b : Boot) : State :=
  let s := trialFails s
  let (toll, pick) := tollReset s.toll b
  let seen := (cause == rstSupply) || (cause != rstPower && s.isSet Fld.SUPPLY_EVT_RESET_SEEN)
  let n : State := { State.reset with pending := s.pending, dramGiB := s.dramGiB, toll := toll, free := s.free, out := s.out }
  let n := n.dramSizes
  let n := ((n.put Fld.LAST_RESET_CAUSE cause).put Fld.LAST_RESET_MONITOR mon).put Fld.LAST_RESET_MIN_MV low
  let n := n.putB Fld.SUPPLY_EVT_RESET_SEEN seen
  let n := ((n.put Fld.BOOT_INFO_BOOT toll.boot).put Fld.BOOT_INFO_SLOT toll.active).putB Fld.BOOT_INFO_TRIAL toll.trial.isSome
  let n := (n.put Fld.BOOT_INFO_BOOTMODE toll.bootmode).put Fld.FW_VERSION_VERSION (fwVersion n)
  let n := (List.range 8).foldl (fun n k => n.put (Fld.STATION_MAC (48 + k)) (toll.macs.getD k 0)) n
  let n := (List.finRange 4).foldl (fun n d => if (s.drive d).perst then n else n.emit (.perst d true)) n
  let n := (List.range 8).foldl (fun n k => n.emit (.phyRst (48 + k) true)) n
  let n := (((n.emit .fieldOff).emit (.trigOut 0 false)).emit (.trigOut 1 false)).emit (.ppsOut false)
  let n := (((n.emit (.spRef false)).emit (.lanes false false)).emit (.stationPins false)).emit .tdoOff
  let n := n.emit (.stat (statBits n))
  match pick with
  | none => n
  | some (k, _) =>
    let n := thLog n 0xFE 0x0001 (lastReset n ++ leBytes 1 k ++ leBytes 4 (fwVersion n) ++ leBytes 1 toll.bootmode)
    if cause = rstSupply then
      let n := match s.dip with | some d => thLog n 0xFE 0x0301 (dipBytes d s.tick) | none => n
      thLog n 0xFE 0x0302 (lastReset n)
    else n

/-- The item of MRAM whose write VDD_AON's fall has torn is invalid (R413): the log entry is as not written, the key slot empty with
its EPOCH kept, the firmware slot INVALID. -/
def tornItem (t : TollHouse) (x : Torn) : TollHouse :=
  match x with
  | .log => if t.log.isEmpty then t else { t with log := t.log.tail, logSeq := t.logSeq - 1 }
  | .staging => { t with staging := [] }
  | .key k => { t with keys := t.keys.set k { t.keys[k] with kind := 0, key := [] } }
  | .fw k => slotTo t k slotInvalid

/-- PORESET: a power-on when the always-on domain has come up with it; its fall may have torn a write (R413). -/
def poreset (s : State) (b : Boot) (p : PowerUp) : State :=
  if p.fresh then
    let s := trialFails s
    deviceReset (match p.torn with | some x => s.modToll (fun t => tornItem t x) | none => s) rstPower 0 0 b
  else deviceReset s rstPor 0 0 b

/-- An internal warm reset. -/
def warmReset (s : State) (b : Boot) : State := deviceReset s rstWarm 0 0 b

/-- FW_TRIAL_TIMEOUT: the trial did not reach READY or DRYDOCK within 2 s. -/
def trialTimeout (s : State) (b : Boot) : State :=
  if s.toll.trial.isSome then warmReset s b else s

end Sys2Proof.Machine
end

