-- ==== Sys2Proof/Machine/Towpath.lean ====
section
/-!
DEFINITION. The towpath: links, HELLO, election, time transfer, keystone events, signals and beacons (17, R381–R393).
-/
namespace Sys2Proof.Machine

/-- The other port. -/
def otherPort (p : Fin 2) : Fin 2 := if p = 0 then 1 else 0

/-- A port exchanges HELLO frames. -/
def tpTalks (s : State) (p : Fin 2) : Bool := tpState s p == tpNegotiate || tpState s p == tpUp || tpState s p == tpBlocked

/-- A port's neighbour takes part in election. -/
def tpJoined (s : State) (p : Fin 2) : Bool := tpState s p == tpUp || tpState s p == tpBlocked

/-! ### HELLO (R385) -/

/-- QUALITY of this device's time: LOCKED to no source of the table is LOCKED to the towpath before the device became master. -/
def tpQuality (s : State) : Nat :=
  let src := s.get Fld.TB_STATUS_ACTIVE_SRC
  if servoState s = servoLocked then (if src = 1 ∨ src = 2 then 2 else 1)
  else if servoState s = servoHoldover then 1 else 0

/-- The best known candidate as HELLO carries it: serial, PRIO, QUALITY and hops. -/
def tpBest (s : State) : Nat × Nat × Nat × Nat :=
  match s.tp.master, s.tp.via with
  | some (ser, pr, q), some p => (ser, pr, q, match (s.tpPort (if p = 0 then 0 else 1)).hello with | some h => h.bHops + 1 | none => 1)
  | some (ser, pr, q), none => (ser, pr, q, 0)
  | none, _ => (0, 0, 0, 0)

/-- HELLO payload words for a port. -/
def helloWords (s : State) (p : Fin 2) : List Nat :=
  let (bs, bp, bq, bh) := tpBest s
  let fw := if s.toll.active = 0 then s.toll.slotA.version else s.toll.slotB.version
  let bytes := leBytes 8 s.toll.serial ++ leBytes 4 fw ++ leBytes 1 (tpRevMax s) ++ leBytes 1 p ++ leBytes 1 (s.get Fld.TP_CFG_MASTER_PRIO)
    ++ leBytes 1 (tpQuality s) ++ leBytes 1 (s.get Fld.TP_STATUS_POSITION) ++ leBytes 1 s.devState ++ leBytes 2 (s.tb.period / 1000)
    ++ leBytes 4 s.tb.phase ++ leBytes 8 bs ++ leBytes 1 bp ++ leBytes 1 bq ++ leBytes 1 bh ++ zeros 5
  (List.range 5).map (fun i => leAt bytes (8 * i) 8)

/-- A received HELLO's contents. -/
def helloParse (ws : List Word) : Hello :=
  let b := (ws.map (fun w => leBytes 8 w.toNat)).flatten
  ⟨leAt b 0 8, leAt b 8 4, leAt b 12 1, leAt b 13 1, leAt b 14 1, leAt b 15 1, leAt b 16 1, leAt b 17 1, leAt b 18 2, leAt b 20 4,
    leAt b 24 8, leAt b 32 1, leAt b 33 1, leAt b 34 1⟩

/-! ### Position and election (R382, R388, R390) -/

/-- The device's position follows its port-0 neighbour's. -/
def tpPosition (s : State) : Nat :=
  if tpState s 0 ≠ tpUp then 0
  else match s.tp.p0.hello with
    | some h => if h.pos < 7 then h.pos + 1 else 0xF
    | none => 0xF

/-- Master candidates (serial, PRIO, QUALITY, hops, port): the device's own, and each neighbour's best. -/
def tpCandidates (s : State) : List (Nat × Nat × Nat × Nat × Option Nat) :=
  let own : List (Nat × Nat × Nat × Nat × Option Nat) :=
    if s.get Fld.TP_CFG_MASTER_PRIO = 0 then []
    else [(s.toll.serial, s.get Fld.TP_CFG_MASTER_PRIO, tpQuality s, 0, none)]
  let from_ (p : Fin 2) : List (Nat × Nat × Nat × Nat × Option Nat) :=
    match (s.tpPort p).hello with
    | some h =>
      if tpJoined s p && decide (h.bHops < 7) && h.bPrio != 0 && h.bSerial != s.toll.serial then
        [(h.bSerial, h.bPrio, h.bQual, h.bHops + 1, some p.val)] else []
    | none => []
  own ++ from_ 0 ++ from_ 1

/-- `a` ranks above `b`: PRIO, QUALITY, lowest serial, and the shorter way of the same candidate. -/
def tpBetter (a b : Nat × Nat × Nat × Nat × Option Nat) : Bool :=
  let (sa, pa, qa, ha, _) := a
  let (sb, pb, qb, hb, _) := b
  decide (pb < pa) || (pa == pb && (decide (qb < qa) || (qa == qb && (decide (sa < sb) || (sa == sb && decide (ha < hb))))))

/-- The highest of a list of candidates. -/
def tpHighest (l : List (Nat × Nat × Nat × Nat × Option Nat)) : Option (Nat × Nat × Nat × Nat × Option Nat) :=
  match l with
  | [] => none
  | a :: t => some (t.foldl (fun m x => if tpBetter x m then x else m) a)

/-- The candidate that is master: the highest of those that the neighbours know as best, a candidate that carried the master before
keeping the port it came through (so a ring stays seen), and of the device's own. The master of the chain that a device has joined is
its incumbent, which the device's own candidacy replaces only with a strictly higher (PRIO, QUALITY); between the masters of two parts
of a chain that meet, the whole key decides. DEDUCED (log entry 93). In DRYDOCK a device takes no part (R393). -/
def tpElect (s : State) : Option (Nat × Nat × Nat × Nat × Option Nat) :=
  let l := if s.devState = devDrydock then [] else tpCandidates s
  let own := l.find? (fun (x : Nat × Nat × Nat × Nat × Option Nat) => x.2.2.2.2.isNone)
  let far := l.filter (fun (x : Nat × Nat × Nat × Nat × Option Nat) => x.2.2.2.2.isSome)
  let best := match tpHighest far with
    | some b => some ((far.find? (fun (x : Nat × Nat × Nat × Nat × Option Nat) => x.1 == b.1 && x.2.2.2.2 == s.tp.via)).getD b)
    | none => none
  match own, best with
  | some o, some b =>
    let joined := s.tp.via.isSome && far.any (fun (x : Nat × Nat × Nat × Nat × Option Nat) =>
      s.tp.master.any (fun m => m.1 == x.1))
    let strict := decide (b.2.1 < o.2.1 ∨ (b.2.1 = o.2.1 ∧ b.2.2.1 < o.2.2.1))
    some (if strict || (!joined && tpBetter o b) then o else b)
  | o, none => o
  | none, b => b

/-- Devices seen, this one included: those up to its own position, and on port 1 its neighbour or all up to the master. -/
def tpSeen (s : State) (pos : Nat) (m : Option (Nat × Nat × Nat × Nat × Option Nat)) : Nat :=
  let beyond := match m with
    | some (_, _, _, h, some 1) => h
    | _ => 0
  (if pos = 0xF then 1 + b2n (tpState s 0 == tpUp) else pos + 1) + max beyond (b2n (tpState s 1 == tpUp))

/-- MASTER_ELECTION, the position and what the TOWPATH page shows of them. -/
def tpUpdate (s : State) : State :=
  let pos := tpPosition s
  let s := if s.get Fld.TP_STATUS_POSITION = pos then s else (s.put Fld.TP_STATUS_POSITION pos).raise Fld.TP_EVT_TOPOLOGY
  let m := tpElect s
  let s := s.put Fld.TP_STATUS_CHAIN_LEN (tpSeen s pos m)
  let old := s.get Fld.TP_MASTER_SERIAL
  let (ser, mpos, own) := match m with
    | some (ser, _, _, _, none) => (ser, pos, true)
    | some (ser, _, _, h, some 0) => (ser, if pos = 0xF ∨ pos < h then 0xF else pos - h, false)
    | some (ser, _, _, h, some _) => (ser, if pos + h < 8 then pos + h else 0xF, false)
    | none => (0, 0xF, false)
  let mk (x : Nat × Nat × Nat × Nat × Option Nat) : Nat × Nat × Nat := (x.1, x.2.1, x.2.2.1)
  let port (x : Nat × Nat × Nat × Nat × Option Nat) : Option Nat := x.2.2.2.2
  let s := { s with tp := { s.tp with master := m.map mk, via := m.bind port } }
  let s := ((s.put Fld.TP_MASTER_SERIAL ser).put Fld.TP_STATUS_MASTER_POS mpos).putB Fld.TP_STATUS_IS_MASTER own
  let s := if ser = old then s else s.raise Fld.TP_EVT_MASTER_CHANGE
  let s := if own && s.get Fld.TB_STATUS_ACTIVE_SRC == 3 then s.put Fld.TB_STATUS_ACTIVE_SRC 0 else s
  let near := match s.tp.via with
    | some p => (s.tpPort (if p = 0 then 0 else 1)).hello
    | none => none
  let eq := own || (match near with
    | some h => h.period * 1000 == s.tb.period && h.phase == s.tb.phase
    | none => false)
  let s := if s.isSet Fld.TP_STATUS_TICK_MATCH && !eq then s.raise Fld.TP_EVT_TICK_MISMATCH else s
  s.putB Fld.TP_STATUS_TICK_MATCH eq

/-! ### Link states (R386, R387) -/

/-- A port changes state: its event bit is set. -/
def tpMove (s : State) (p : Fin 2) (st : Nat) : State :=
  let s := s.put (Fld.TP_PORT_STATUS_STATE p) st
  let s := if st = tpUp then s.raise (Fld.TP_PORT_EVT_UP p) else if st = tpDown then s.raise (Fld.TP_PORT_EVT_DOWN p)
    else if st = tpBlocked then s.raise (Fld.TP_PORT_EVT_BLOCKED p) else s
  if st = tpUp ∨ st = tpDown ∨ st = tpBlocked then s.raise Fld.TP_EVT_TOPOLOGY else s

/-- The ring has opened: the link that it held BLOCKED is UP (R383, R386). -/
def ringOpen (s : State) : State :=
  if tpState s 0 = tpBlocked ∧ s.isSet Fld.TP_STATUS_RING then tpMove (s.clear Fld.TP_STATUS_RING) 0 tpUp else s

/-- A link goes DOWN; `fault` asserts the towpath pin when it was UP. Another link's fall opens a ring. -/
def tpDrop (s : State) (p : Fin 2) (fault : Bool) : State :=
  let was := tpState s p
  if was = tpDown then s
  else
    let s := tpMove s p tpDown
    let s := ((s.put (Fld.TP_PORT_STATUS_WIDTH p) 0).put (Fld.TP_PORT_STATUS_REV p) 0).clear (Fld.TP_PORT_STATUS_REDUCED p)
    let s := s.modTpPort p (fun q => { q with hello := none, sent := false, rx := none, t1 := none })
    let s := if p = 0 then s.clear Fld.TP_STATUS_RING else ringOpen s
    let s := if fault ∧ was = tpUp then errorPin s pinTowpath (0x10 + p) else s
    tpUpdate s

/-- A port may train: it is enabled, its PLL locks and a lane pair is left (R359, R386, R423). -/
def tpMayTrain (s : State) (p : Fin 2) : Bool :=
  tpState s p == tpDown && s.isSet (Fld.TP_PORT_CFG_EN p) && pllOk s (6 + p) && SMap.get 0 s.portOut (13 + p) != 3

/-- TP_SIGNAL_DETECT. -/
def tpSignal (s : State) (p : Fin 2) : State :=
  if tpMayTrain s p && !(s.tpPort p).retry then tpMove s p tpTraining else s

/-- The device's own serial number has come back (R383): from a device that did not learn it directly, from one that is at the other
port too, or from one whose position has gone round. -/
def helloReturns (s : State) (p : Fin 2) (h : Hello) : Bool :=
  let twice := match (s.tpPort (otherPort p)).hello with
    | some g => g.serial == h.serial
    | none => false
  h.serial == s.toll.serial
    || (h.bSerial == s.toll.serial && (twice || h.pos == 0xF || (tpState s p == tpNegotiate && decide (2 ≤ h.bHops))))

/-- The state a HELLO leaves a port in (R382, R383, R386), `old` being the one before it. Under the ring rule the tick master's port 0
goes to BLOCKED, and to UP when the position at its far end falls, the ring having opened elsewhere. -/
def tpAfterHello (s : State) (p : Fin 2) (h : Hello) (old : Option Hello) : State :=
  let st := tpState s p
  let ring := p = 0 ∧ helloReturns s p h ∧ s.isSet Fld.TP_STATUS_IS_MASTER
  if st = tpNegotiate then
    let s := s.put (Fld.TP_PORT_STATUS_REV p) (min h.revMax (tpRevMax s))
    if !(s.tpPort p).sent then s
    else if h.port = p then tpMove (s.raise (Fld.TP_PORT_EVT_MISWIRED p)) p tpBlocked
    else if ring then tpMove (s.raise Fld.TP_STATUS_RING) p tpBlocked
    else tpMove s p tpUp
  else if st = tpUp ∧ ring then tpMove (s.raise Fld.TP_STATUS_RING) p tpBlocked
  else if st = tpBlocked ∧ p = 0 then
    match old with
    | some o => if o.pos ≠ 0xF ∧ h.pos < o.pos then ringOpen s else s
    | none => s
  else s

/-- TP_BLOCK_LOCK on one lane pair or on both. -/
def tpLock (s : State) (p : Fin 2) (two : Bool) : State :=
  if tpState s p = tpTraining then
    let w := if two && SMap.get 0 s.portOut (13 + p) == 0 then 2 else 1
    let s := (tpMove s p tpNegotiate).put (Fld.TP_PORT_STATUS_WIDTH p) w
    { s with tp := { s.tp with told := helloWords s 0 } }
  else s

/-- TP_TRAINING_TIMEOUT. -/
def tpTrainTimeout (s : State) (p : Fin 2) : State :=
  if tpState s p = tpTraining then (tpMove s p tpDown).modTpPort p (fun q => { q with retry := true }) else s

/-- TP_RETRY. -/
def tpRetry (s : State) (p : Fin 2) : State :=
  if (s.tpPort p).retry then
    let s := s.modTpPort p (fun q => { q with retry := false })
    if tpMayTrain s p then tpMove s p tpTraining else s
  else s

/-- TP_LINK_LOSS (R386). -/
def tpLoss (s : State) (p : Fin 2) : State := if tpJoined s p then tpDrop s p true else s

/-! ### Sending HELLO (R385) -/

/-- A HELLO goes out on a port; with one received, the port leaves NEGOTIATE. -/
def helloOut (s : State) (p : Fin 2) : State :=
  if tpTalks s p then
    let s := (tpSendRaw s p tpHello (s.get Fld.TP_STATUS_POSITION) 0xFF 0 (helloWords s p)).modTpPort p (fun q => { q with sent := true })
    match tpState s p == tpNegotiate, (s.tpPort p).hello with
    | true, some h => tpAfterHello s p h none
    | _, _ => s
  else s

/-- TP_HELLO_SEND. -/
def tpHelloSend (s : State) (p : Fin 2) : State := tpUpdate (helloOut (tpUpdate s) p)

/-- A HELLO goes out on every port that exchanges them when its contents have changed (R385), whatever changed them; what it changes in
turn goes out after it. -/
def tpTell (fuel : Nat) (s : State) : State :=
  match fuel with
  | 0 => s
  | k + 1 =>
    if tpTalks s 0 || tpTalks s 1 then
      let s := tpUpdate s
      let w := helloWords s 0
      if s.tp.told = w then s
      else tpTell k (helloOut (helloOut { s with tp := { s.tp with told := w } } 0) 1)
    else s

/-! ### Receiving (R384, R385) -/

/-- A frame is discarded and counted. -/
def tpBad (s : State) (p : Fin 2) : State := (s.bumpSat (Fld.TP_PORT_STATS_RX_BAD p) 1).raise (Fld.TP_PORT_EVT_RX_BAD p)

/-- The syndromes of a frame's words under the SEQ that the port awaits (R384): a frame out of its turn fails them. -/
def tpSyndromes (s : State) (p : Fin 2) (f : TpFrame) : List Nat :=
  let want := (s.tpPort p).rx.getD f.seq.toNat
  f.syn.zipIdx.map (fun x => x.1.toNat ^^^ guardFold (f.seq.toNat * 64 + x.2) ^^^ guardFold (want * 64 + x.2))

/-- A frame is accepted on a port that talks, and on one that is UP if `up` says so: the payload with its corrected bits, counted; none
when the frame is discarded. -/
def tpTake (s : State) (p : Fin 2) (f : TpFrame) (up : Bool) (layout : List Word → Bool) : State × Option (List Word) :=
  if !tpTalks s p then (s, none)
  else
    let es := (tpSyndromes s p f).map eccOf
    let s := s.modTpPort p (fun q => { q with rx := some ((f.seq.toNat + 1) % 65536) })
    if es.any (· == .bad) then (tpBad s p, none)
    else
      let n := (es.filter (· != .clean)).length
      let s := s.bumpSat (Fld.TP_PORT_STATS_ECC_CORR p) n
      let ws := f.words.zipIdx.map (fun x => match es.getD (x.2 + 1) .clean with
        | .corrected (some b) => x.1 ^^^ BitVec.ofNat 64 (2 ^ b)
        | _ => x.1)
      if f.alien.isSome || !layout ws then (tpBad s p, none)
      else if up && tpState s p != tpUp then (s, none)
      else (s, some ws)

/-- FRAME_FORWARD (R385, R387): out of the other port, unless it is for this device alone or has made 7 hops. -/
def tpForward (s : State) (p : Fin 2) (typ : Nat) (f : TpFrame) (ws : List Word) : State :=
  let o := otherPort p
  let pay := ws.map BitVec.toNat
  if f.dst.toNat = s.get Fld.TP_STATUS_POSITION ∨ 7 ≤ f.hops.toNat ∨ tpState s o ≠ tpUp then s
  else if tpNeeds2 typ pay && decide (s.get (Fld.TP_PORT_STATUS_REV o) < 2) then tpWithhold s o
  else tpSendRaw s o typ f.src.toNat f.dst.toNat (f.hops.toNat + 1) pay

/-- The frame is for this device. -/
def tpForUs (s : State) (f : TpFrame) : Bool := f.dst == 0xFF || f.dst.toNat == s.get Fld.TP_STATUS_POSITION

/-- Bytes of payload words. -/
def wordBytes (ws : List Word) : List Byte := (ws.map (fun w => leBytes 8 w.toNat)).flatten

/-- HELLO. -/
def tpHelloIn (s : State) (p : Fin 2) (f : TpFrame) : State :=
  match tpTake s p f false (fun ws => ws.length == 5 && allZero (wordBytes ws) 35 5) with
  | (s, some ws) =>
    let h := helloParse ws
    let old := (s.tpPort p).hello
    tpUpdate (tpAfterHello (s.modTpPort p (fun q => { q with hello := some h })) p h old)
  | (s, none) => s

/-! ### Time transfer (R389) -/

/-- SYNC_REQ_SEND. -/
def syncReqSend (s : State) : State :=
  match s.tp.via with
  | some q =>
    let p : Fin 2 := if q = 0 then 0 else 1
    if tpState s p = tpUp ∧ s.devState ≠ devDrydock then
      (tpSend s p tpSyncReq 0xFF [s.now]).modTpPort p (fun x => { x with t1 := some s.now })
    else s
  | none => s

/-- SYNC_REQ: answered. -/
def syncReq (s : State) (p : Fin 2) (f : TpFrame) : State :=
  match tpTake s p f true (fun ws => ws.length == 1) with
  | (s, some _) => if s.devState = devDrydock then s else tpSend s p tpSyncRsp 0xFF [s.now, s.now]
  | (s, none) => s

/-- The delay and the offset of an exchange (R389). -/
def syncDelay (t1 t2 t3 t4 : Int) : Int := ((t2 - t1) + (t4 - t3)) / 2
def syncOffset (t1 t2 t3 t4 asym : Int) : Int := ((t2 - t1) - (t4 - t3)) / 2 - asym

/-- SYNC_RSP: a delay, and an offset for the servo. -/
def syncRsp (s : State) (p : Fin 2) (f : TpFrame) : State :=
  match tpTake s p f true (fun ws => ws.length == 2) with
  | (s, some ws) =>
    (match (s.tpPort p).t1 with
     | some t1 =>
       let t2 : Int := (ws.getD 0 0).toNat
       let t3 : Int := (ws.getD 1 0).toNat
       let asym := (BitVec.ofNat 16 (s.get (Fld.TP_PORT_CFG_ASYM_NS p))).toInt
       let s := s.modTpPort p (fun q => { q with t1 := none })
       let s := s.put (Fld.TP_PORT_STATUS_DELAY_NS p) (min 65535 (syncDelay t1 t2 t3 s.now).toNat)
       if s.isSet Fld.TP_STATUS_IS_MASTER ∨ s.tp.via ≠ some p.val ∨ s.devState = devDrydock then s
       else servoMeasure s 3 (syncOffset t1 t2 t3 s.now asym)
     | none => s)
  | (s, none) => s

/-! ### Keystone events, signals, beacons (R391–R393) -/

/-- KS_EVENT. -/
def tpKsIn (s : State) (p : Fin 2) (f : TpFrame) : State :=
  match tpTake s p f true (fun ws => let b := wordBytes ws; ws.length == 3 && allZero b 1 1 && allZero b 10 6) with
  | (s, some ws) =>
    let s := tpForward s p tpKsEvent f ws
    if tpForUs s f then
      let e := (leAt (wordBytes ws) 2 2, f.src.toNat)
      let s := if s.board.tpNow.contains e then s
        else if 64 ≤ s.board.tpNow.length then s.bumpSat Fld.TP_STATS_KS_DROP 1
        else s.modBoard (fun b => { b with tpNow := b.tpNow ++ [e] })
      icPulse s 524
    else s
  | (s, none) => s

/-- One imported entry: 16 bytes. -/
def tpImport (s : State) (b : List Byte) : State :=
  let dest := leAt b 3 1
  if dest = 0xFF ∨ dest = s.get Fld.TP_STATUS_POSITION then
    match sigPublish s 56 (leAt b 0 2) (BitVec.ofNat 32 (leAt b 4 4)) (leAt b 2 1) (leAt b 8 8) with
    | some s => s
    | none => s.bumpSat Fld.TP_STATS_IMPORT_REFUSED 1
  else s

/-- SIGNALS. -/
def tpSignalsIn (s : State) (p : Fin 2) (f : TpFrame) : State :=
  match tpTake s p f true (fun ws => let b := wordBytes ws
      decide (2 ≤ s.get (Fld.TP_PORT_STATUS_REV p)) && ws.length == 1 + 2 * leAt b 0 1 && allZero b 1 7) with
  | (s, some ws) =>
    let s := tpForward s p tpSignals f ws
    if tpForUs s f then
      let b := wordBytes ws
      (List.range (leAt b 0 1)).foldl (fun s i => tpImport s (bsub b (8 + 16 * i) 16)) s
    else s
  | (s, none) => s

/-- An enabled export as an entry. -/
def tpExport (s : State) (i : Nat) : List Byte :=
  let g := viewSlot s (s.get (Fld.TP_EXPORT_SRC_SLOT i))
  leBytes 2 (s.get (Fld.TP_EXPORT_DST_SLOT i)) ++ leBytes 1 g.qual ++ leBytes 1 (s.get (Fld.TP_EXPORT_DEST i))
    ++ leBytes 4 g.value.toNat ++ leBytes 8 g.ts

/-- SIGNALS_SEND, at a tick edge after the view copy (R392). -/
def tpSignalsSend (s : State) : State :=
  if s.isSet Fld.TP_CFG_EXPORT_EN then
    let l := (List.range 31).filter (fun i => s.isSet (Fld.TP_EXPORT_EN i))
    let b := leBytes 1 l.length ++ zeros 7 ++ (l.map (tpExport s)).flatten
    tpSendAll s tpSignals ((List.range (b.length / 8)).map (fun i => leAt b (8 * i) 8))
  else s

/-- BEACON_SEND (R393). -/
def beaconSend (s : State) (p : Fin 2) : State :=
  if s.devState = devDrydock then
    tpSend s p tpBeacon 0xFF [s.toll.serial, s.get Fld.ST_SUMMARY_FAIL_STEP + s.get Fld.ST_SUMMARY_FAIL_CODE * 2 ^ 16]
  else s

/-- A beacon of the same sender, of the same contents and within three of its periods of the last one, is of the same boot (DESIGN
CHOICE, log entry 94). -/
def sameBoot (s : State) (ser : Nat) (ws : List Nat) : Bool :=
  s.tp.beacons.any (fun b => b.serial == ser && b.words == ws && decide (s.now ≤ b.at_ + 300000000))

/-- BEACON: forwarded; seen, and logged once per boot of its sender. The spec gives its log entry no CODE. -/
def tpBeaconIn (s : State) (p : Fin 2) (f : TpFrame) : State :=
  match tpTake s p f true (fun ws => let b := wordBytes ws; ws.length == 2 && allZero b 9 1 && allZero b 12 4) with
  | (s, some ws) =>
    let s := tpForward s p tpBeacon f ws
    if tpForUs s f then
      let l := ws.map BitVec.toNat
      let ser := l.headD 0
      let seen := sameBoot s ser l
      let s := s.raise Fld.TP_EVT_BEACON_SEEN
      let s := { s with tp := { s.tp with beacons := s.tp.beacons.filter (fun b => b.serial != ser) ++ [⟨ser, l, s.now⟩] } }
      if seen then s
      else
        let (n, s) := s.drawFree
        thLog s 62 ((Config.freeWord n).toNat % 65536) (wordBytes ws)
    else s
  | (s, none) => s

/-! ### Register writes -/

/-- A write of TP_PORTp_CFG. -/
def wrTpPort (s : State) (p : Fin 2) (v : Nat) : State :=
  let s := regApply s (Reg.TP_PORT_CFG p) v
  if bit v 0 then s else (tpDrop s p false).modTpPort p (fun q => { q with retry := false })

/-- A write of TP_CFG. -/
def wrTpCfg (s : State) (v : Nat) : State := tpUpdate (regApply s Reg.TP_CFG v)

/-! ### After every command -/

/-- What follows every command in the next BCLK: a changed HELLO goes out, the sources are sampled, waits and PME noted. -/
def settle (s : State) : State := icPme (icFullWait (icSample (icDry (tpTell 4 s))))

/-- The outcome of a command: its effect, and what follows it. -/
def done (s : State) : Host.Outcome State Fault Refusal := .next (settle s)

end Sys2Proof.Machine
end

