-- ==== Sys2Proof/Machine/Faults.lean ====
section
/-!
DEFINITION. Escalation and fences, acknowledgement, the supply and thermal monitors, scrubbing and lanes (15, R333–R353), and
what leaving BRACE does (01, R18).
-/
namespace Sys2Proof.Machine

/-! ### Acknowledgement and the grace timer (R340, R341) -/

/-- FAULT_ACK (R341). -/
def faultAck (s : State) (v : Nat) : Wr :=
  if !s.isSet Fld.FAULT_TIMER_VALID then .own (s.raise Fld.FAULT_EVT_ACK_LATE)
  else if bf v 0 16 = s.get Fld.FAULT_FIRST_TICK % 2 ^ 16 then .ok (faultValid s false)
  else .own (s.raise Fld.FAULT_EVT_ACK_REFUSED)

/-- Step 1 of a tick edge (R341): REMAINING falls by one; at zero the first fault escalates. -/
def faultTick (s : State) : State :=
  if s.isSet Fld.FAULT_TIMER_VALID then
    let r := s.get Fld.FAULT_TIMER_REMAINING - 1
    let s := s.put Fld.FAULT_TIMER_REMAINING r
    if r = 0 then
      let e : Escal := ⟨s.get Fld.FAULT_FIRST_BIT, s.get Fld.FAULT_FIRST_CLASS, s.get Fld.FAULT_FIRST_CODE, s.get Fld.FAULT_FIRST_TICK⟩
      { (faultValid s false).raise Fld.FAULT_EVT_ESCALATED with escal := s.escal ++ [e] }
    else s
  else s

/-! ### Escalation and fences (R342, R343) -/

/-- A drive is held in FAILED with PERST# asserted (R343); one that has left FAILED since goes back to it. -/
def fenceDrive (s : State) (n : Fin 4) : State :=
  if drvState s n = drvFailed then drvPerst s n true
  else placeSettle (driveLost (drvWidth (drvPerst (s.put (Fld.DRIVE_STATE_STATE n) drvFailed) n true) n 0) n)

/-- BLOCK_FENCE (R343). -/
def blockFence (s : State) (pin code bad : Nat) : State :=
  let fenced (s : State) := s.raise Fld.FAULT_EVT_FENCED
  if h : pin < 56 then
    let c : Fin 56 := ⟨pin, h⟩
    if chState s c = chEnabled then autoReseat bad (chanFence s c) c else s
  else if pin = pinHost then fenced (s.raise Fld.RAS_EVT_HOST_RETRAIN)
  else if pin = pinComp then
    if 0x10 ≤ code ∧ code < 0x1C then
      fenced ((s.modPlace (fun p => { p with engines := if p.engines.contains (code - 0x10) then p.engines
                                              else p.engines ++ [code - 0x10] })).raise Fld.RAS_EVT_ENGINE_RETIRED)
    else s
  else if pin = pinPlace then
    if h : 0x10 ≤ code ∧ code < 0x14 then
      let n : Fin 4 := ⟨code - 0x10, by omega⟩
      if drvState s n = drvAbsent then s else fenced (fenceDrive s n)
    else s
  else if pin = pinDram then
    let page := s.get Fld.DRAM_LAST_ADDR / 4096
    if s.get Fld.DRAM_RAS_SPARES_FREE = 0 then s else fenced (if s.retired.contains page then s else pageRetire s page)
  else if pin = pinTowpath then
    if code = 0x10 then fenced (tpDrop s 0 false) else if code = 0x11 then fenced (tpDrop s 1 false) else s
  else s

/-- FAULT_ESCALATION (R342): the action of the latched class. `bad` spare tiles fail the March test of a reseat. In BRACE a
critical reset waits for BRACE_COMMIT. -/
def faultEscalate (s : State) (bad : Nat) (b : Boot) : State :=
  match s.escal with
  | [] => if s.critWait && !s.isSet Fld.PLACE_STATUS_BRACE_COMMIT then deviceReset s rstCritical 0 0 b else s
  | e :: rest =>
    let first := e.pin + e.cls * 2 ^ 6 + e.code * 2 ^ 8 + e.tick * 2 ^ 16
    let s := thLog { s with escal := rest } e.pin 0x0201 (leBytes 8 first ++ leBytes 1 e.cls)
    let s := faultRec s e.pin e.code e.cls e.tick true
    if e.cls = 2 then
      if s.devState = devBrace ∧ s.isSet Fld.PLACE_STATUS_BRACE_COMMIT then { s with critWait := true }
      else deviceReset s rstCritical 0 0 b
    else if !s.serving then s
    else if e.cls = 1 then devHaltNow s 2
    else blockFence s e.pin e.code bad

/-- BRACE_COMMIT_TIMEOUT: 10 ms after a critical escalation in BRACE. -/
def braceTimeout (s : State) (b : Boot) : State :=
  if s.critWait then deviceReset s rstCritical 0 0 b else s

/-! ### Registers of the FAULT, RAS and SUPPLY pages -/

/-- FAULT_CLASS: a class of 3 is refused. -/
def wrFaultClass (s : State) (a v : Nat) : Wr :=
  if (List.range 32).any (fun n => bf v (2 * n) 2 == 3) then .refused else .ok (regApply s a v)

/-- FAULT_CTRL: a grace is 1 to 65535 ticks. -/
def wrFaultCtrl (s : State) (v : Nat) : Wr :=
  if bf v 0 16 = 0 ∨ bf v 16 16 = 0 then .refused else .ok (regApply s Reg.FAULT_CTRL v)

/-- DRAM_RAS. -/
def wrDramRas (s : State) (v : Nat) : Wr :=
  if 1 ≤ bf v 8 8 ∧ 1 ≤ bf v 32 8 ∧ bf v 32 8 ≤ 168 then .ok (regApply s Reg.DRAM_RAS v) else .refused

/-- MONn word 0 (R349); VSENSE has no limits of its own, and on it alone RESET_MV 0 is given. -/
def wrMon (s : State) (n v : Nat) : Wr :=
  let warn := bf v 0 16
  let rst := bf v 16 16
  let ok := n == 9 || (decide (monResetReset n ≤ rst) && decide (rst + 10 ≤ warn) && decide (warn ≤ monNominal n))
  if ok && decide (1 ≤ bf v 48 8) then .ok (regApply s (Reg.MON0 n) v) else .refused

/-- THERM_CFG. -/
def wrThermCfg (s : State) (v : Nat) : Wr :=
  let w := (BitVec.ofNat 8 (bf v 0 8)).toInt
  let t := (BitVec.ofNat 8 (bf v 8 8)).toInt
  if w < t ∧ t ≤ 125 then .ok (regApply s Reg.THERM_CFG v) else .refused

/-- MON_MIN_READ (R8): word 1 of a monitor; MIN_MV restarts at NOW_MV. -/
def monRead (s : State) (n : Nat) : Nat × State :=
  (s.get (Fld.MON1_NOW_MV n) + s.get (Fld.MON1_MIN_MV n) * 2 ^ 16 + s.get (Fld.MON1_BELOW n) * 2 ^ 32,
   s.put (Fld.MON1_MIN_MV n) (s.get (Fld.MON1_NOW_MV n)))

/-! ### The supply (R349–R351) -/

/-- Level of a monitor from what it measures: on VSENSE ball mV times SCALE, in 1/256 steps. -/
def monLevel (s : State) (n mv : Nat) : Nat := if n = 9 then min 65535 (mv * s.get Fld.VSENSE_CFG_SCALE / 256) else mv

/-- A monitor's level is taken: NOW_MV, MIN_MV, and the level of a dip that it began. -/
def monTake (s : State) (n lvl : Nat) : State :=
  let s := (s.put (Fld.MON1_NOW_MV n) lvl).put (Fld.MON1_MIN_MV n) (min lvl (s.get (Fld.MON1_MIN_MV n)))
  { s with dip := s.dip.map (fun d => if d.mon = n then { d with low := min d.low lvl } else d) }

/-- Some monitor is below WARN. -/
def anyBelow (s : State) : Bool := (List.range 10).any (fun n => s.isSet (Fld.MON1_BELOW n))

/-- An escalation to HALT or reset was decided at step 1 of an edge: it comes before every other change of the device state
(R19, R341). -/
def haltDue (s : State) : Bool := s.serving && s.escal.any (fun e => decide (1 ≤ e.cls))

/-- One monitor's crossing (R18, R19, R350): monitor `n`, at `mv`, has been below WARN_MV for FILT_US since TIME_NS `ts`. -/
def monWarn (s : State) (n : Fin 10) (mv ts : Nat) : State :=
  let lvl := monLevel s n mv
  if s.get (Fld.MON0_WARN_MV n) ≤ lvl then s
  else
    let s := (monTake s n lvl).raise (Fld.MON1_BELOW n)
    let s := { s.raise Fld.SUPPLY_EVT_WARN with recovered := false }
    let s := thLog s 0xFE 0x0300 (leBytes 1 n ++ leBytes 2 lvl)
    let s := if s.dip.isNone then { s with dip := some ⟨s.tick, n, lvl, min ts s.now⟩ } else s
    if (s.devState = devReady ∨ s.devState = devRun) ∧ !haltDue s then
      braceEnter (setDev (s.bumpSat Fld.DEV_STATE_BRACE_COUNT 1) devBrace)
    else s

/-- SUPPLY_WARN (R350): the monitors that cross in one AONCLK, the lowest first. -/
def supplyWarn (s : State) (l : List MonDip) : State :=
  (sorted (fun d : MonDip => d.mon.val) l).foldl (fun s d => monWarn s d.mon d.mv.toNat d.ts.toNat) s

/-- The dip is over: logged, and RECOVER set. -/
def dipEnd (s : State) : State :=
  match s.dip with
  | none => s
  | some d => { thLog (s.raise Fld.SUPPLY_EVT_RECOVER) 0xFE 0x0301 (dipBytes d s.tick) with dip := none }

/-- SUPPLY_RECOVER (R350): the monitors measure `mvs`, the dip's monitor having been as low as `low`; those above WARN_MV + HYST_MV
have stayed there for their FILT_US and are no longer BELOW. With all ten above, the next tick edge ends the dip in BRACE. -/
def supplyRecover (s : State) (mvs : List Nat) (low : Nat) : State :=
  if anyBelow s then
    let up (n : Nat) : Bool := decide (s.get (Fld.MON0_WARN_MV n) + s.get (Fld.MON0_HYST_MV n) < monLevel s n (mvs.getD n 0))
    let s := match s.dip with | some d => monTake s d.mon (monLevel s d.mon low) | none => s
    let s := (List.range 10).foldl (fun s n =>
      let s := monTake s n (monLevel s n (mvs.getD n 0))
      if up n then s.clear (Fld.MON1_BELOW n) else s) s
    if !(List.range 10).all up then s
    else if s.devState = devBrace then { s with recovered := true }
    else dipEnd s
  else s

/-- BRACE_EXIT and DIP_RECORD, at a tick edge (R18, R350). -/
def braceExit (s : State) : State :=
  if s.devState = devBrace ∧ s.recovered then
    let s := match s.dip with
      | some d => basinCommit s ⟨d.ts, 0x3F, 0xFF, 0, 0, dipBytes d s.tick⟩
      | none => s
    let s := { dipEnd s with recovered := false }
    placeSettle (setDev s (if routesBusy s then devRun else devReady))
  else s

/-- SUPPLY_RESET (R351): monitor `n`, at `mv`, has been at or below RESET_MV for FILT_US. -/
def supplyReset (s : State) (n : Fin 10) (mv : Nat) (b : Boot) : State :=
  let lvl := monLevel s n mv
  let r := s.get (Fld.MON0_RESET_MV n)
  if r ≠ 0 ∧ lvl ≤ r then
    let s := monTake s n lvl
    let low := match s.dip with | some d => if d.mon = n then d.low else lvl | none => lvl
    deviceReset s rstSupply n low b
  else s

/-! ### Temperature (R352) -/

/-- Threshold of a thermal level. -/
def thermAt (s : State) (l : Nat) : Int :=
  let f := if l = 1 then s.get Fld.THERM_CFG_WARN_C else if l = 2 then s.get Fld.THERM_CFG_THROTTLE_C else s.get Fld.THERM_CFG_CRIT_C
  (BitVec.ofNat 8 f).toInt

/-- The level at a temperature: a level is entered when it is reached and left 5 °C below it. -/
def thermLevel (s : State) (t : Int) : Nat :=
  let old := s.get Fld.THERM_STATUS_LEVEL
  let inLevel (l : Nat) : Bool := decide (thermAt s l ≤ t) || (decide (l ≤ old) && decide (thermAt s l - 5 < t))
  if inLevel 3 then 3 else if inLevel 2 then 2 else if inLevel 1 then 1 else 0

/-- THERMAL_SAMPLE (R352): the 16 sensors, in °C. Of sensors equally hot, the spec does not say which SENSOR names: a free one
of them. -/
def thermalSample (s : State) (temps : List Int) : State :=
  let ts := (List.range 16).map (fun i => temps.getD i 0)
  let m := ts.foldl max (ts.getD 0 0)
  let hot := (List.range 16).filter (fun i => ts.getD i 0 == m)
  let (n, s) := s.drawFree
  let sensor := hot.getD ((Config.freeWord n).toNat % hot.length) 0
  let s := s.modToll (fun t => { t with temps := ts })
  let old := s.get Fld.THERM_STATUS_LEVEL
  let l := thermLevel s m
  let s := ((s.put Fld.THERM_STATUS_TMAX_C (BitVec.ofInt 8 m).toNat).put Fld.THERM_STATUS_SENSOR sensor).put Fld.THERM_STATUS_LEVEL l
  if l = old then s
  else
    let s := s.raise (if l = 1 then Fld.THERM_EVT_WARN else if l = 2 then Fld.THERM_EVT_THROTTLE
      else if l = 3 then Fld.THERM_EVT_CRIT else Fld.THERM_EVT_NORMAL)
    let s := diagRec s 5 l sensor (BitVec.ofInt 32 m).toNat 0 0
    let s := thLog s 0xFE 0x0310 (leBytes 1 l ++ leBytes 1 sensor ++ leInt 1 m)
    placeSettle (if l = 3 then errorPin s pinToll 0x10 else s)

/-! ### Scrubbing (R335–R337, R347) -/

/-- What a read with syndrome `syn` finds; a poisoned word reads as uncorrectable. -/
def scrubSees (poison : Bool) (syn : Nat) : Ecc := if poison then .bad else eccOf syn

/-- A poisoned word of device DRAM or a tile. -/
def poisonAt (s : State) (g : Nat) : State := if s.poison.contains g then s else { s with poison := g :: s.poison }

/-- ECC_OTHER, in the order pound, fabric, MRAM, Basin SRAMs. -/
def eccOther (s : State) (i : Nat) (e : Ecc) : State :=
  match e with
  | .clean => s
  | .corrected _ => s.bumpSat (Fld.ECC_OTHER_CORR i) 1
  | .bad => s.bumpSat (Fld.ECC_OTHER_UNCORR i) 1

/-- A bad word in span staging lies in one of the staged spans, or in none: where a span lies there the spec does not say, so it is a
free choice (DESIGN CHOICE, log entry 142). -/
def stageHit (s : State) (a : Nat) : State :=
  let base := s.get Fld.STAGE_BASE_ADDR * 2 ^ 20
  if base ≤ a ∧ a < base + stageSize s then
    let (k, s) := s.drawFree
    let ids := (s.place.spans.filter (fun sp => !sp.gap && sp.stored.isSome)).map Span.id
    match ids[(Config.freeWord k).toNat % (ids.length + 1)]? with
    | some id => modSpan s id (fun sp => { sp with bad := true })
    | none => s
  else s

/-- A scrub of a word of device DRAM: CE_RETIRE corrected words retire the page. -/
def scrubDram (s : State) (a syn : Nat) : State :=
  let g := a / 8
  match scrubSees (s.poison.contains g) syn with
  | .clean => s
  | .corrected _ =>
    let page := a / 4096
    let n := SMap.get 0 s.pageCorr page + 1
    let s := s.bumpSat Fld.ECC_DRAM_CORR 1
    let s := { s with pageCorr := SMap.set 0 s.pageCorr page n }
    if s.get Fld.DRAM_RAS_CE_RETIRE ≤ n then pageRetire s page else s
  | .bad =>
    if s.poison.contains g then dramEcc s a
    else pageRetire (dramReport (stageHit (poisonAt s g) a) a) (a / 4096)

/-- A scrub of a word of keeper SRAM. -/
def scrubSram (s : State) (c : Fin 56) (off syn : Nat) : State :=
  let g := tileGranule c + off / 8
  match scrubSees (s.poison.contains g) syn with
  | .clean => s
  | .corrected _ => rowCorrected s c off
  | .bad => tileEcc (poisonAt s g) c off

/-- A scrub of a word of a code store. -/
def scrubCode (s : State) (c : Fin 56) (off syn : Nat) : State :=
  let g := off / 8
  match scrubSees ((s.kp c).codeBad.contains g) syn with
  | .clean => s
  | .corrected _ => s.bumpSat (Fld.KSTATUS_ECC_CORR c) 1
  | .bad =>
    let s := s.modKp c (fun k => { k with codeBad := if k.codeBad.contains g then k.codeBad else g :: k.codeBad })
    tileEcc s c 0x80000

/-- A scrub of a word of the MRAM (2) or of the Basin SRAMs (3); an uncorrectable word is rewritten poisoned. -/
def scrubOther (s : State) (i g syn : Nat) : State :=
  let e := scrubSees (s.poison.contains g) syn
  let s := eccOther s i e
  if e = .bad then (if i = 2 then errorPin (poisonAt s g) pinToll 0x02 else poisonAt s g) else s

/-- SCRUB_READ (R337) of a word whose syndrome is `syn`. -/
def scrubRead (s : State) (p : ScrubAt) (syn : Nat) : State :=
  if s.isSet Fld.DRAM_RAS_SCRUB_EN then
    match p with
    | .dram a => if a.toNat < s.dramTop then scrubDram s a.toNat syn else s
    | .sram c off => if off.toNat < 0xE000 then scrubSram s c off.toNat syn else s
    | .code c off => scrubCode s c off.toNat syn
    | .mram w => scrubOther s 2 (2 ^ 41 + w.toNat) syn
    | .basin w => scrubOther s 3 (2 ^ 42 + w.toNat) syn
  else s

/-- The uncorrectable word that a pin's code names is counted (R337): of the pound, the fabric or the MRAM, which no other command
reads. -/
def pinCounted (s : State) (pin code : Nat) : State :=
  if pin = pinPound ∧ code = 1 then eccOther s 0 .bad
  else if pin = pinHost ∧ code = 1 then eccOther s 1 .bad
  else if pin = pinToll ∧ code = 2 then eccOther s 2 .bad
  else s

/-- One pin asserts, and stays asserted or not (R338, R339); `hold` false of a pin that has stayed asserted is its end. -/
def pinLevel (s : State) (pin code : Nat) (hold : Bool) : State :=
  let held := bit s.pinsHeld pin
  let s := errorPin (if held then s else pinCounted s pin code) pin code
  if s.devState = devSelftest ∨ s.devState = devDrydock ∨ hold = held then s
  else { s with pinsHeld := s.pinsHeld ^^^ 2 ^ pin }

/-- ERROR_PIN_ASSERT (R340): the pins that assert in one BCLK, the lowest first. -/
def pinAssert (s : State) (l : List PinLevel) : State :=
  (sorted (fun p : PinLevel => p.pin.val) l).foldl (fun s p => pinLevel s p.pin p.code.toNat p.hold) s

/-- FAULT_STATUS written (R339): a pin that is still asserted keeps its bit. -/
def wrFaultStatus (s : State) (v : Nat) : Wr :=
  .ok (s.put Fld.FAULT_STATUS_STATUS (s.get Fld.FAULT_STATUS_STATUS &&& ((2 ^ 64 - 1 - v % 2 ^ 64) ||| s.pinsHeld)))

/-! ### Lanes (R348) -/

/-- Items that came are taken by a RECEIVE in execution. -/
def received (s : State) (c : Fin 56) : State := recvPump 64 s c

/-- Width and retired lanes of a port: 0 the host, 1–4 storage ports. -/
def portWidth (s : State) (p : Fin 5) : Nat :=
  match p with
  | 0 => s.get Fld.LINK_STATE_HOST_WIDTH
  | 1 => s.get Fld.LINK_STATE_SP_WIDTH0
  | 2 => s.get Fld.LINK_STATE_SP_WIDTH1
  | 3 => s.get Fld.LINK_STATE_SP_WIDTH2
  | 4 => s.get Fld.LINK_STATE_SP_WIDTH3
def retiredFld (p : Fin 5) : Fld :=
  match p with
  | 0 => Fld.LINK_STATE_HOST_RETIRED
  | 1 => Fld.LINK_STATE_SP_RETIRED0
  | 2 => Fld.LINK_STATE_SP_RETIRED1
  | 3 => Fld.LINK_STATE_SP_RETIRED2
  | 4 => Fld.LINK_STATE_SP_RETIRED3
def setPortWidth (s : State) (p : Fin 5) (w : Nat) : State :=
  match p with
  | 0 => s.put Fld.LINK_STATE_HOST_WIDTH w
  | 1 => drvWidth s 0 w
  | 2 => drvWidth s 1 w
  | 3 => drvWidth s 2 w
  | 4 => drvWidth s 3 w

/-- A failed lane is entered in the map with its count of consecutive boots. -/
def laneRepair (s : State) (p lane : Nat) : State :=
  let mine (e : RepEnt) : Bool := e.kind == 4 && e.unit == p && e.sub == lane
  match s.toll.repair.find? mine with
  | some e =>
    if e.boot = s.toll.boot then s
    else
      let n := if e.boot + 1 = s.toll.boot then e.index + 1 else 1
      repairAdd (s.modToll (fun t => { t with repair := t.repair.filter (fun e => !mine e) })) 4 p lane n
  | none => repairAdd s 4 p lane 1

/-- A lane of the host port or of a storage port is retired: the port, trained or in training, goes on at the next lower width; a
link of one lane has none, and keeps its width while a lane is left. -/
def pcieRetire (s : State) (p : Fin 5) (lane : Nat) : State :=
  let w := portWidth s p
  if fullWidth p ≤ lane ∨ bit (s.get (retiredFld p)) lane then s
  else
    let mask := s.get (retiredFld p) ||| 2 ^ lane
    let s := capPort (s.put (retiredFld p) mask) p
      (min (max 1 ((if w = 0 then portCap s p else w) / 2)) (widthOf (fullWidth p - weight8 mask)))
    let s := laneRepair (setPortWidth s p (min w (portCap s p))) p lane
    let s := diagRec s 6 p (w + portWidth s p * 256) mask 0 0
    if p = 0 then
      let s := if w = 0 then s else s.emit (.linkBandwidth (portWidth s p))
      errorPin ((s.raise Fld.RAS_EVT_HOST_LANE).raise Fld.RAS_EVT_HOST_RETRAIN) pinHost 0x03
    else s.raise Fld.RAS_EVT_STOR_LANE

/-- LANE_RETIRE (R348): port 0 is the host's, 1–4 the storage ports; a stream channel's one lane (5–12) leaves it without a link, and
of the two lane pairs of a towpath port (13, 14) one may be out (R381, R423). -/
def laneRetire (s : State) (p : Fin 15) (lane : Nat) : State :=
  if h : p.val < 5 then pcieRetire s ⟨p, h⟩ lane
  else if p.val < 13 then
    if lane = 0 then
      let c : Fin 56 := Fin.ofNat 56 (43 + p)
      received (ethLinkDown { s with portOut := SMap.set 0 s.portOut p 1 } c []) c
    else s
  else if lane < 2 then
    let out := SMap.get 0 s.portOut p ||| 2 ^ lane
    let q : Fin 2 := if p.val = 13 then 0 else 1
    let s := { s with portOut := SMap.set 0 s.portOut p out }
    if out = 3 then tpDrop s q true
    else if tpTalks s q then s.put (Fld.TP_PORT_STATUS_WIDTH q) 1 else s
  else s

end Sys2Proof.Machine
end

