-- ==== Sys2Proof/Machine/TollHouse.lean ====
section
/-!
DEFINITION. The Toll House while the device runs: mailbox, event log, keys, firmware, configuration images, debug unlock, JTAG,
console and STAT (16, R361–R380).
-/
namespace Sys2Proof.Machine

/-! ### The mailbox (R370, R371) -/

def mbGetInfo : Nat := 0x01
def mbSensors : Nat := 0x02
def mbLogRead : Nat := 0x03
def mbRepairRead : Nat := 0x04
def mbRepairClear : Nat := 0x05
def mbHaltOp : Nat := 0x06
def mbResetOp : Nat := 0x07
def mbKeyWrite : Nat := 0x08
def mbKeyClear : Nat := 0x09
def mbKeyInfo : Nat := 0x0A
def mbFwRecover : Nat := 0x0B
def mbFwSelect : Nat := 0x0C
def mbChallenge : Nat := 0x0D
def mbUnlock : Nat := 0x0E
def mbCosign : Nat := 0x0F
def mbConfigRead : Nat := 0x10

/-- The command in progress completes: response words, STATUS and RSP_WORDS, BUSY, DONE. -/
def mbDone (s : State) (status : Nat) (rsp : List Nat) : State :=
  let s := (rsp.zipIdx).foldl (fun s p => s.put (Fld.MB_RSP_WORD p.2) p.1) s
  let s := (s.put Fld.MB_STATUS_STATUS status).put Fld.MB_STATUS_RSP_WORDS rsp.length
  let s := s.modToll (fun t => { t with long := none })
  (s.clear Fld.MB_STATUS_BUSY).raise Fld.MB_EVT_DONE

/-- A write of MB_CMD. The request is read in the BCLK in which GO is accepted; an opcode that R371 does not list completes at
once. -/
def wrMbCmd (s : State) (v : Nat) : Wr :=
  if s.isSet Fld.MB_STATUS_BUSY then .own (s.raise Fld.MB_EVT_REFUSED)
  else
    let op := bf v 0 16
    let s := (s.put Fld.MB_CMD_OPCODE op).put Fld.MB_CMD_TAG (bf v 16 16)
    if bit v 32 then
      let req := (List.range 32).map (fun k => BitVec.ofNat 64 (s.get (Fld.MB_REQ_WORD k)))
      let s := (s.raise Fld.MB_STATUS_BUSY).put Fld.MB_STATUS_STATUS St.inProgress
      let s := (s.put Fld.MB_STATUS_TAG (bf v 16 16)).put Fld.MB_STATUS_RSP_WORDS 0
      let s := s.modToll (fun t => { t with long := some ⟨op, req, false⟩ })
      .ok (if 1 ≤ op ∧ op ≤ 0x10 then s else mbDone s 0x85 [])
    else .ok s

/-- A write of a request word. -/
def wrMbReq (s : State) (k v : Nat) : Wr :=
  if s.isSet Fld.MB_STATUS_BUSY then .own (s.raise Fld.MB_EVT_REFUSED) else .ok (s.put (Fld.MB_REQ_WORD k) v)

/-- Device states in which a command may run (R362, R371). -/
def mbStateOk (s : State) (op : Nat) : Bool :=
  let st := s.devState
  if s.toll.rom then [mbGetInfo, mbFwRecover, mbResetOp].contains op
  else if op = mbRepairClear then
    st == devDrydock || (st == devReady && (List.finRange 56).all (fun c => chState s c == chDisabled || chState s c == chAbsent))
  else if op = mbHaltOp then s.serving || st == devHalt
  else if op = mbKeyWrite then s.serving
  else if op = mbFwSelect then s.serving || st == devDrydock
  else if op = mbCosign then st == devReady
  else true

/-- The Toll House takes up the command in progress, if it has the opcode `op`. -/
def mbRun (s : State) (op : Nat) (f : (Nat → Nat) → State) : State :=
  match s.toll.long with
  | some l =>
    if l.opcode = op ∧ !l.run then
      if mbStateOk s op then f (fun k => (l.req.getD k 0).toNat) else mbDone s St.rejectedState []
    else s
  | none => s

/-- A long command has been checked and goes on until MAILBOX_LONG_DONE. -/
def mbLong (s : State) : State := s.modToll (fun t => { t with long := t.long.map (fun l => { l with run := true }) })

/-- Request words `k` to `k + n − 1` as bytes. -/
def reqBytes (q : Nat → Nat) (k n : Nat) : List Byte := ((List.range n).map (fun i => leBytes 8 (q (k + i)))).flatten

/-- A host address has bit 63 set (R27). -/
def mbAddrOk (a : Nat) : Bool := decide (2 ^ 63 ≤ a)

/-! ### Information -/

/-- The slot in a state; 0xFF when none is. -/
def slotIn (t : TollHouse) (st : Nat) : Nat := if t.slotA.state = st then 0 else if t.slotB.state = st then 1 else 0xFF

/-- GET_INFO. -/
def mbInfo (s : State) : State :=
  mbRun s mbGetInfo (fun _ =>
    let t := s.toll
    let slots := slotIn t slotActive + slotIn t slotPending * 2 ^ 8 + t.slotA.state * 2 ^ 16 + t.slotB.state * 2 ^ 24
      + t.rollback % 2 ^ 32 * 2 ^ 32
    let id := t.bootmode + 0xA2 * 2 ^ 8 + b2n t.cosign.isSome * 2 ^ 16
    mbDone s St.ok [s.get Fld.FW_VERSION_VERSION, slots, t.boot, t.serial, id,
      t.slotA.version + t.slotA.svn % 2 ^ 32 * 2 ^ 32, t.slotB.version + t.slotB.svn % 2 ^ 32 * 2 ^ 32])

/-- Words of a list of bytes. -/
def byteWords (n : Nat) (bs : List Byte) : List Nat := (List.range n).map (fun k => leAt bs (8 * k) 8)

/-- SENSORS. -/
def mbSense (s : State) : State :=
  mbRun s mbSensors (fun _ =>
    let temps := ((List.range 16).map (fun i => leInt 1 (s.toll.temps.getD i 0))).flatten
    let mons := ((List.range 10).map (fun n => leBytes 2 (s.get (Fld.MON1_NOW_MV n)))).flatten ++ zeros 4
    let rings := ((List.range 8).map (fun i => leBytes 4 (s.toll.rings.getD i 0))).flatten
    mbDone s St.ok (byteWords 2 temps ++ byteWords 3 mons ++ [s.toll.plls] ++ byteWords 4 rings))

/-- Bytes of an event-log entry (R373). -/
def logBytes (e : LogEnt) : List Byte :=
  let b := leBytes 4 e.seq ++ leBytes 4 e.boot ++ leBytes 8 e.time ++ leBytes 6 e.tick ++ leBytes 1 e.sev ++ leBytes 1 e.src
    ++ leBytes 2 e.code ++ zeros 2 ++ (e.data ++ zeros 32).take 32
  b ++ leBytes 4 (crc32c b)

/-- Bytes of the repair map (15). -/
def repairMap (t : TollHouse) : List Byte :=
  let ents := (t.repair.map (fun e => leBytes 1 e.kind ++ leBytes 1 e.unit ++ leBytes 2 e.sub ++ leBytes 4 e.index
    ++ leBytes 4 e.boot ++ zeros 4)).flatten
  let m := [0x56, 0x52, 0x50, 0x4D] ++ leBytes 4 t.repair.length ++ leBytes 4 t.repairBoot ++ zeros 52 ++ ents
  withCrc (m ++ zeros (65536 - m.length)) 12

/-- LOG_READ is checked. -/
def mbLogStart (s : State) : State :=
  mbRun s mbLogRead (fun q => if 1 ≤ q 1 ∧ q 1 ≤ 16384 ∧ mbAddrOk (q 2) then mbLong s else mbDone s St.badOperand [])

/-- LOG_READ ends: the entries held of the range, in SEQ order. With an empty log the newest and oldest SEQ are free. -/
def mbLogEnd (s : State) (q : Nat → Nat) : State :=
  let hits := (s.toll.log.filter (fun e => decide ((e.seq + 2 ^ 32 - q 0 % 2 ^ 32) % 2 ^ 32 < q 1))).reverse
  let s := s.hostWrite (q 2 - 2 ^ 63) (hits.map logBytes).flatten
  match s.toll.log, s.toll.log.getLast? with
  | e :: _, some o => mbDone s St.ok [hits.length, e.seq % 2 ^ 32, o.seq % 2 ^ 32]
  | _, _ =>
    let (n, s) := s.drawFree
    mbDone s St.ok [0, (Config.freeWord n).toNat, (Config.freeWord (n + 1)).toNat]

/-- REPAIR_READ and CONFIG_READ are checked. -/
def mbReadStart (s : State) (op : Nat) : State := mbRun s op (fun q => if mbAddrOk (q 0) then mbLong s else mbDone s St.badOperand [])

/-- REPAIR_CLEAR. -/
def mbRepClear (s : State) : State :=
  mbRun s mbRepairClear (fun q =>
    let gone (e : RepEnt) : Bool := decide (1 ≤ e.kind ∧ e.kind ≤ 4) && bit (q 0) (e.kind - 1)
    let s := s.modToll (fun t => { t with repair := t.repair.filter (fun e => !gone e), repairBoot := t.boot })
    let s := s.put Fld.REPAIR_ENTRIES s.toll.repair.length
    let s := s.put Fld.REPAIR_TILES_RETIRED (s.toll.repair.filter (fun e => e.kind == 1)).length
    mbDone (thLog s 0xFE 0x0630 (leBytes 1 (bf (q 0) 0 4) ++ leBytes 4 s.toll.repair.length)) St.ok [])

/-! ### HALT and RESET (R371, R372) -/

/-- Mailbox HALT. -/
def mbHalt (s : State) : State := mbRun s mbHaltOp (fun _ => mbDone (devHaltNow s 3) St.ok [])

/-- The commits of R292 have finished, or the state has none to make. -/
def commitsDone (s : State) : Bool := s.devState != devHalt || (s.place.haltDone && segsDone s)

/-- RESET responds; the warm reset follows 10 ms later. -/
def resetRespond (s : State) (full : Bool) : State := mbDone (s.modToll (fun t => { t with orderly := false, resetIn := some full })) St.ok []

/-- FULL_TEST of the RESET in progress. -/
def resetFull (s : State) : Bool := match s.toll.long with | some l => bit (l.req.getD 0 0).toNat 0 | none => false

/-- An orderly RESET whose commits have finished responds. -/
def orderlyCheck (s : State) : State := if s.toll.orderly && commitsDone s && !s.halting then resetRespond s (resetFull s) else s

/-- Mailbox RESET. -/
def mbReset (s : State) : State :=
  mbRun s mbResetOp (fun q =>
    if bit (q 0) 1 then orderlyCheck (devHaltNow (mbLong (s.modToll (fun t => { t with orderly := true }))) 3)
    else resetRespond s (bit (q 0) 0))

/-- ORDERLY_RESET_TIMEOUT. -/
def orderlyTimeout (s : State) : State := if s.toll.orderly then resetRespond s (resetFull s) else s

/-- MB_RESET_FIRE. -/
def resetFire (s : State) (b : Boot) : State :=
  match s.toll.resetIn with
  | some full => warmReset (s.modToll (fun t => { t with fullTest := full })) b
  | none => s

/-! ### Keys (R375) -/

/-- Key check value: 3 bytes. -/
def keyKcv (k : KeySlot) : List Byte := (aes (k.key.take 32) (zeros 16)).take 3

/-- An OPEN or CLOSING stream names a slot (R267). -/
def slotNamed (s : State) (k : Nat) : Bool :=
  (strmsLive s).any (fun i =>
    let x := s.strm i
    let names (p : Policy) : Bool := (bit p.flags 1 && p.xtsSlot == k) || (bit p.flags 2 && p.gcmSlot == k)
    x.policies.any (fun p => names p.2) || (match x.pend with | some (p, _) => names p | none => false))

/-- Event 0x0610 or 0x0611. -/
def keyLog (s : State) (code slot : Nat) (k : KeySlot) : State := thLog s 0xFE code (leBytes 1 slot ++ leBytes 1 k.kind ++ keyKcv k)

/-- A slot is emptied; its EPOCH stays. -/
def keyErase (s : State) (slot : Nat) : State :=
  let k := keySlot s slot
  keyLog (s.modToll (fun t => { t with keys := t.keys.setIfInBounds slot { k with kind := 0, key := [] } })) 0x0611 slot k

/-- KEY_WRITE. -/
def mbKeyPut (s : State) : State :=
  mbRun s mbKeyWrite (fun q =>
    let slot := bf (q 0) 0 8
    let kind := bf (q 0) 8 8
    if 15 < slot ∨ kind = 0 ∨ 2 < kind then mbDone s St.badOperand []
    else if (keySlot s slot).kind ≠ 0 then mbDone s St.rejectedState []
    else
      let k := { keySlot s slot with kind := kind, key := reqBytes q 1 (if kind = 1 then 8 else 4) }
      let s := keyLog (s.modToll (fun t => { t with keys := t.keys.setIfInBounds slot k })) 0x0610 slot k
      mbDone s St.ok [leNat (keyKcv k)])

/-- KEY_CLEAR. -/
def mbKeyErase (s : State) : State :=
  mbRun s mbKeyClear (fun q =>
    if 15 < q 0 then mbDone s St.badOperand []
    else if slotNamed s (q 0) then mbDone s St.rejectedState []
    else mbDone (keyErase s (q 0)) St.ok [])

/-- KEY_INFO; the KCV of an empty slot is left open: a free value. -/
def mbKeys (s : State) : State :=
  mbRun s mbKeyInfo (fun _ =>
    let (n, s) := s.drawFree
    mbDone s St.ok ((List.range 16).map (fun i =>
      let k := keySlot s i
      let kcv := if k.kind = 0 then bf (Config.freeWord n).toNat 0 24 else leNat (keyKcv k)
      k.kind + kcv * 2 ^ 8 + k.epoch % 2 ^ 32 * 2 ^ 32)))

/-! ### Firmware (R376–R379) -/

/-- Staging takes the slot that is not ACTIVE, which becomes INVALID; when neither is ACTIVE, the spec does not say which. -/
def fwBegin (s : State) : State :=
  let (n, s) := s.drawFree
  let t := s.toll
  let k := if t.slotA.state = slotActive then 1 else if t.slotB.state = slotActive then 0
    else b2n ((Config.freeWord n).getLsbD 0)
  s.modToll (fun t => { modSlot t k (fun x => { x with state := slotInvalid, image := [] }) with fwBusy := some k })

/-- Bytes of the image reach the slot. -/
def fwStore (s : State) (bs : List Byte) : State :=
  match s.toll.fwBusy with
  | some k => s.modToll (fun t => modSlot t k (fun x =>
      let img := x.image ++ bs
      { x with image := img, version := leAt img 8 4, svn := leAt img 12 4 }))
  | none => s

/-- The last step of a staging: the check, and on success the slot is PENDING. -/
def fwFinish (s : State) (len : Nat) : Nat × State :=
  match s.toll.fwBusy with
  | some k =>
    let st := fwCheck s.toll (fwSlot s.toll k).image len
    let s := s.modToll (fun t => { t with fwBusy := none })
    if st = St.ok then
      let s := s.modToll (fun t => slotTo t k slotPending)
      (st, thLog s 0xFE 0x0600 (fwData s.toll k))
    else (st, s)
  | none => (St.rejectedState, s)

/-- FIRMWARE_STAGE starts. -/
def fwStageStart (s : State) (serial : Nat) : State :=
  basinStart s serial opFirmwareStage (fun _ => none) (fun e =>
    let len := e.arg 32 4
    if !longTurn s e then s
    else if len = 0 ∨ 3145728 < len ∨ !bufOk s (e.arg 24 8) len then longRefuse s e St.badOperand len
    else if s.toll.fwBusy.isSome then longRefuse s e St.rejectedState len
    else longStart (fwBegin s) e len)

/-- One step of a FIRMWARE_STAGE. -/
def fwStageStep (s : State) (e : WorkEntry) (data : HostRd) : State :=
  let a := e.arg 24 8
  let len := e.arg 32 4
  let p := e.done * 4096
  if !longMay s e a then s
  else match operandRead s (a + p) (min 4096 (len - p)) data with
    | none => completeLong ((operandEcc s (a + p) (min 4096 (len - p))).modToll (fun t => { t with fwBusy := none })) e St.busError
    | some bs =>
      let e := longStepped s e
      let s := updEntry (fwStore s bs) e
      if e.done < e.total then s
      else
        let (st, s) := fwFinish s len
        completeLong s e st

/-- FW_RECOVER is checked. -/
def mbRecoverStart (s : State) : State :=
  mbRun s mbFwRecover (fun q =>
    if q 1 = 0 ∨ 3145728 < q 1 ∨ !mbAddrOk (q 0) then mbDone s St.badOperand []
    else if s.toll.fwBusy.isSome then mbDone s St.rejectedState []
    else mbLong (fwBegin s))

/-- FW_SELECT. -/
def mbSelect (s : State) : State :=
  mbRun s mbFwSelect (fun q =>
    if 1 < q 0 then mbDone s St.badOperand []
    else if (fwSlot s.toll (q 0)).state = slotValid ∧ s.toll.rollback ≤ (fwSlot s.toll (q 0)).svn then
      mbDone (s.modToll (fun t => slotTo t (q 0) slotPending)) St.ok []
    else mbDone s St.rejectedState [])

/-- COSIGN_SET (R379). -/
def mbCosignSet (s : State) : State :=
  mbRun s mbCosign (fun q =>
    if s.toll.cosign.isSome then mbDone s St.rejectedState []
    else mbDone (s.modToll (fun t => { t with cosign := some (sha384 (reqBytes q 0 12)) })) St.ok [])

/-! ### Configuration images (R364, R368, R369) -/

/-- Records of an image: offset, TYPE and BODY_LEN; `none` when one crosses LENGTH. -/
def cfgRecords (b : List Byte) (len off n : Nat) : Option (List (Nat × Nat × Nat) × Nat) :=
  match n with
  | 0 => some ([], off)
  | k + 1 =>
    let body := leAt b (off + 4) 4
    let next := off + 8 + roundUp 8 body
    if len < next then none
    else match cfgRecords b len next k with
      | some (l, stop) => some ((off, leAt b off 2, body) :: l, stop)
      | none => none

/-- Check of a user layer's header and framing (R368): CFG_STATUS.REASON, 0 when it passes. `major` is the running firmware's
major version. -/
def cfgReason (b : List Byte) (major : Nat) : Nat :=
  let len := leAt b 8 4
  let n := leAt b 12 4
  if bsub b 0 4 ≠ [0x56, 0x43, 0x46, 0x47] ∨ leAt b 4 1 ≠ 1 then 1
  else if len < 64 ∨ 262144 < len then 3
  else if !crcOk (bsub (b ++ zeros (len - b.length)) 0 len) 20 then 2
  else
    let recs := if 32768 < n then none else cfgRecords b len 64 n
    match recs with
    | none => 6
    | some (_, stop) =>
      if stop ≠ len then 3
      else if leAt b 24 1 ≠ 0xA2 then 4
      else if major < leAt b 25 1 then 5
      else 0

/-- Major version of the running firmware. -/
def fwMajor (s : State) : Nat := bf (s.get Fld.FW_VERSION_VERSION) 24 8

/-- CONFIG_IMAGE_WRITE starts. -/
def cfgWriteStart (s : State) (serial : Nat) : State :=
  basinStart s serial opConfigWrite (fun _ => none) (fun e =>
    let len := e.arg 32 4
    if !longTurn s e then s
    else if len = 0 ∨ 262144 < len ∨ !bufOk s (e.arg 24 8) len then longRefuse s e St.badOperand len
    else if s.toll.cfgBusy then longRefuse s e St.rejectedState len
    else longStart (s.modToll (fun t => { t with cfgBusy := true })) e len)

/-- One step of a CONFIG_IMAGE_WRITE; the last checks the staged image and switches the pointer. -/
def cfgWriteStep (s : State) (e : WorkEntry) (data : HostRd) : State :=
  let a := e.arg 24 8
  let len := e.arg 32 4
  let p := e.done * 4096
  if !longMay s e a then s
  else match operandRead s (a + p) (min 4096 (len - p)) data with
    | none => completeLong ((operandEcc s (a + p) (min 4096 (len - p))).modToll (fun t => { t with cfgBusy := false })) e St.busError
    | some bs =>
      let e := longStepped s e
      let s := s.modToll (fun t => { t with staging := (t.staging ++ zeros (p - t.staging.length)).take p ++ bs ++ t.staging.drop (p + bs.length) })
      let s := updEntry s e
      if e.done < e.total then s
      else
        let b := bsub s.toll.staging 0 len
        let s := s.modToll (fun t => { t with cfgBusy := false })
        if cfgReason b (fwMajor s) = 0 ∧ len = leAt b 8 4 ∧ leAt b 5 1 = 2 then
          completeLong (s.modToll (fun t => { t with config := b, staging := t.config })) e St.ok
        else completeLong s e 0x81

/-! ### MAILBOX_LONG_DONE -/

/-- Event bytes reach the host, or the transfer fails. -/
def mbCopy (s : State) (a : Nat) (bs : List Byte) (rsp : List Nat) : State := mbDone (s.hostWrite (a - 2 ^ 63) bs) St.ok rsp

/-- A long command ends: `data` is what the host returned for FW_RECOVER, and `fail` for any of them a transfer that failed. A
host that cannot be reached ends it with BUS_ERROR. -/
def mbLongDone (s : State) (data : HostRd) : State :=
  match s.toll.long with
  | some l =>
    let q (k : Nat) : Nat := (l.req.getD k 0).toNat
    if !l.run ∨ l.opcode = mbResetOp then s
    else
      let free (s : State) : State := if l.opcode = mbFwRecover then s.modToll (fun t => { t with fwBusy := none }) else s
      match (if s.hostOk then data else HostRd.fail) with
      | .fail => mbDone (free s) St.busError []
      | .ok bs =>
        if l.opcode = mbLogRead then mbLogEnd s q
        else if l.opcode = mbRepairRead then mbCopy s (q 0) (repairMap s.toll) []
        else if l.opcode = mbConfigRead then
          mbCopy s (q 0) s.toll.config [if s.toll.config.isEmpty then 0 else leAt s.toll.config 8 4]
        else if bs.length < q 1 then mbDone (free s) St.busError []
        else
          let (st, s) := fwFinish (fwStore s (bs.take (q 1))) (q 1)
          mbDone s st []
  | none => s

/-! ### Debug unlock and JTAG (R380) -/

/-- The 32 B nonce of a challenge. -/
def nonceBytes (n : Nat) : List Byte := ((List.range 4).map (fun i => leBytes 8 (Config.freeWord (n + i)).toNat)).flatten

/-- A challenge for a level. -/
def challenge (s : State) (level : Nat) : Nat × State :=
  let (n, s) := s.drawFree
  (n, s.modToll (fun t => { t with nonce := some (level, n) }))

/-- DEBUG_CHALLENGE. -/
def mbDebugChallenge (s : State) : State :=
  mbRun s mbChallenge (fun q =>
    if q 0 = 1 ∨ q 0 = 2 then
      let (n, s) := challenge s (q 0)
      mbDone s St.ok (byteWords 4 (nonceBytes n) ++ [s.toll.serial])
    else mbDone s St.badOperand [])

/-- Event 0x0620. -/
def unlockLog (s : State) (level st : Nat) : State := thLog s 0xFE 0x0620 (leBytes 1 level ++ leBytes 1 st)

/-- An unlock with two signatures: the status. Without a valid nonce it fails. -/
def unlock (s : State) (sig cust : List Byte) : Nat × State :=
  if 3 ≤ s.toll.unlockFails then (St.rejectedState, unlockLog s ((s.toll.nonce.map (·.1)).getD 0) St.rejectedState)
  else
    let failed (s : State) (level : Nat) : Nat × State :=
      (St.authFail, unlockLog (s.modToll (fun t => { t with unlockFails := t.unlockFails + 1, nonce := none })) level St.authFail)
    match s.toll.nonce with
    | none => failed s 0
    | some (level, n) =>
      let digest := sha384 (nonceBytes n ++ leBytes 8 s.toll.serial ++ leBytes 1 level ++ zeros 7)
      let customer := match s.toll.cosign with | some key => Config.sigOk key digest cust | none => true
      if Config.sigOk Config.grenathKey digest sig && customer then
        let s := if level = 2 then
            (List.range 16).foldl (fun s i => if (keySlot s i).kind = 0 then s else keyErase s i) s else s
        let s := s.modToll (fun t => { t with nonce := none, unlocked := max t.unlocked level })
        (St.ok, unlockLog s level St.ok)
      else failed s level

/-- DEBUG_UNLOCK. -/
def mbDebugUnlock (s : State) : State :=
  mbRun s mbUnlock (fun q =>
    let (st, s) := unlock s (reqBytes q 0 12) (reqBytes q 12 12)
    mbDone s st [])

/-- DEBUG_NONCE_EXPIRE. -/
def nonceExpire (s : State) : State := s.modToll (fun t => { t with nonce := none })

/-- JTAG_INSTRUCTION: TDO is High-Z when nothing is shifted (R411). The spec gives neither the IDCODE nor the boundary chain: what is shifted out is free. -/
def jtagOp (s : State) (o : JtagOp) : State :=
  let open_ := decide (1 ≤ s.toll.unlocked) || s.devState == devDrydock
  let sel (n : Nat) : State := s.modToll (fun t => { t with jtag := n })
  let out (s : State) : State := let (n, s) := s.drawFree; (s.emit (.jtag (Config.freeWord n))).emit .tdoOff
  match o with
  | .bypass => sel 0
  | .idcode => ((sel 1).emit (.jtag (Config.freeWord (2 ^ 96)))).emit .tdoOff
  | .sample => out (sel 2)
  | .extest => if open_ then out (sel 3) else s
  | .clamp => if open_ then sel 4 else s
  | .vendor => if open_ then out (sel 5) else s
  | .challenge level =>
    if level = 1 ∨ level = 2 then
      let (n, s) := challenge s level.toNat
      (((List.range 4).foldl (fun s i => s.emit (.jtag (Config.freeWord (n + i)))) s).emit (.jtag (BitVec.ofNat 64 s.toll.serial))).emit .tdoOff
    else s
  | .unlock sig cust => (unlock s sig cust).2

/-! ### Event log, console and STAT (R361, R363, R374) -/

/-- LOG_RATE_SECOND: the second ends; suppressed events are written as LOG_SUPPRESSED entries. -/
def logSecond (s : State) : State :=
  let l := s.toll.logRate
  l.foldl (fun s e => if e.2.2 = 0 then s else logWrite s 0xFE 0x0700 (leBytes 2 e.1 ++ leBytes 4 e.2.2))
    (s.modToll (fun t => { t with logRate := [] }))

/-- DRYDOCK_CONSOLE_REPEAT. -/
def drydockConsole (s : State) : State :=
  if s.devState = devDrydock ∧ s.get Fld.ST_SUMMARY_FAIL_STEP ≠ 0 then consoleLine s 0x0002 else s

/-- STAT_BLINK. -/
def statBlink (s : State) : State :=
  let k := s.get Fld.ST_SUMMARY_FAIL_STEP
  let phases := if s.devState = devDrydock then 2 * k + 1 else 2
  if s.devState = devSelftest ∨ s.devState = devBrace ∨ s.devState = devDrydock then
    let s := s.modToll (fun t => { t with blink := (t.blink + 1) % phases })
    s.emit (.stat (statBits s))
  else s

end Sys2Proof.Machine
end

