-- ==== Sys2Proof/Machine/Registers.lean ====
section
/-!
DEFINITION. Accesses of the host (18): reads and writes of BAR0 in every size, with the split buffers, snapshots, write locks and
shadow stores of its pages; the register rules gathered from the chapters; REG_BATCH; BAR2, the MSI-X table and the writes of
configuration space that no other row makes.
-/
namespace Sys2Proof.Machine

/-! ### Register values -/

/-- Event registers of a page's block, by offset (R400, EVT_RAW.BLOCK). -/
def evtOffs (ty : Nat) : List Nat :=
  match ty with
  | 0x0002 => [0x110]
  | 0x0010 => [0x140]
  | 0x0020 => [0x108]
  | 0x0030 => [0x150]
  | 0x0032 => (List.range 16).map (fun k => 0x128 + k * 0x40)
  | 0x0040 => [0x120]
  | 0x0041 => [0x118]
  | 0x0050 => [0x138]
  | 0x0051 => [0x148]
  | 0x0052 => [0x108, 0x1D0]
  | 0x0060 => [0x110]
  | 0x0070 => [0x118, 0x150, 0x170]
  | 0x0080 => [0x100]
  | 0x0090 => [0x308]
  | 0x0091 => [0x300]
  | 0x0100 => [0x130]
  | 0x0101 => [0x120]
  | 0x0102 => [0x188]
  | 0x0103 => [0x148]
  | 0x0104 => [0x110]
  | 0x0105 => [0x110]
  | 0x0106 => [0x188]
  | _ => []

/-- The page's split buffer, snapshot and shadow store. -/
def pageBuf (s : State) (p : Nat) : PageBuf := SMap.get ⟨none, none, []⟩ s.pages p
def modPage (s : State) (p : Nat) (f : PageBuf → PageBuf) : State :=
  { s with pages := SMap.set ⟨none, none, []⟩ s.pages p (f (pageBuf s p)) }

/-- Registers of the header that the device computes. -/
def headerVal (s : State) (p o : Nat) : Nat :=
  let b := pageBuf s p
  match o with
  | 0x00 => pageType p + pageInstance p * 2 ^ 16 + pageIndex p * 2 ^ 32 + 2 ^ 40
  | 0x10 =>
    let absent := 0x1000000 ≤ p ∧ p < 0x1E00000 ∧ chState s (winChan p) = chAbsent
    b2n (!decide absent) + 2 * b2n b.split.isSome + 4 * b2n b.snap.isSome
  | 0x30 => b2n (errRaw s p) + 2 * b2n ((evtOffs (pageType p)).any (fun e => regVal s (p + e) != 0))
  | 0x40 => s.get (Fld.SHADOW_CTRL_HOLD p) + 8 * s.get (Fld.SHADOW_CTRL_PENDING p) + 16 * b.shadow.length
  | _ => regVal s (p + o)

/-- State of a half as CHAMBER shows it. -/
def HalfState.code : HalfState → Nat
  | .empty => 0
  | .filling => 1
  | .full => 2
  | .draining => 3

/-- CHAMBER of a channel. -/
def chamberVal (s : State) (c : Fin 56) : Nat :=
  let ch := (s.ch c).chamber
  (ch.half ch.filling).used + ch.h0.st.code * 2 ^ 18 + ch.h1.st.code * 2 ^ 20 + ch.filling * 2 ^ 22 + b2n ch.weir * 2 ^ 23
    + (quotaHeld s c + poolHeld s c) * 2 ^ 32

/-- THREAD_STATE of a thread (R147). -/
def ThState.code : ThState → Nat
  | .stopped => 0
  | .run => 1
  | .waitev => 2
  | .yielded => 3
  | .halted => 4
def threadVal (s : State) (c : Fin 56) (t : Fin 8) : Nat :=
  let th := s.th c t
  th.st.code + b2n th.inh * 2 ^ 3 + th.cause * 2 ^ 4 + (eventBits s c t).toNat * 2 ^ 8 + th.pc.toNat * 2 ^ 16
    + th.xpc.toNat * 2 ^ 32 + th.xrc.toNat * 2 ^ 48

/-- FIFO_STATUS of a channel. -/
def fifoVal (s : State) (c : Fin 56) : Nat :=
  let f := (s.ch c).fifos
  let mk (l : List MbEnt) : Bool := l.any (fun e => match e with | .marker _ => true | _ => false)
  f.rx.length + b2n (f.rx.any isMarker) * 2 ^ 7 + f.tx.length * 2 ^ 8 + b2n (txHasMarker f) * 2 ^ 15 + f.mbi.length * 2 ^ 16
    + b2n (mk f.mbi) * 2 ^ 21 + f.mbo.length * 2 ^ 24 + b2n (mk f.mbo) * 2 ^ 29 + rxFree f * 2 ^ 32 + txFree f * 2 ^ 48

/-- MBO_HEAD of a channel. -/
def mboHeadVal (s : State) (c : Fin 56) : Nat :=
  match (s.ch c).fifos.mbo with
  | [] => 0
  | .data _ :: _ => 1
  | .marker n :: _ => 2 + n * 2 ^ 32

/-- The data MBO_DATA would return. -/
def mboVal (s : State) (c : Fin 56) : Nat :=
  match (s.ch c).fifos.mbo with
  | [] => (s.ch c).fifos.mboLast.toNat
  | .data w :: _ => w.toNat
  | .marker _ :: _ => 0

/-- A register of the layout of HV_STACKv (R325). -/
def stackVal (s : State) (t : Nat) : Nat :=
  let l := stackOf s t
  let n := l.length
  l.length + runningPrio s t * 2 ^ 4 + ((l.reverse.zipIdx).map (fun e => e.1.1 * 2 ^ (16 + 4 * e.2))).sum
    + (if n = 0 then 0x3FF else (l.getD 0 (0, 0)).2) * 2 ^ 48

/-- A source register (R318). -/
def srcVal (s : State) (a : Nat) : Nat :=
  let i := srcOfAddr a
  regVal s a % 2 ^ 32 + b2n (rawOf s i) * 2 ^ 32 + b2n (srcPending s i) * 2 ^ 33 + b2n (inService s i) * 2 ^ 34
    + b2n (targetStopped s i) * 2 ^ 35 + b2n (srcHeld s i) * 2 ^ 36

/-- 64 bits of sources that satisfy a test. -/
def srcBits (k : Nat) (f : Nat → Bool) : Nat := ((List.range 64).map (fun i => b2n (f (64 * k + i)) * 2 ^ i)).sum

/-- The value of the register at `a`, 8 B aligned, without the effects of reading it. -/
def regView (s : State) (a : Nat) : Nat :=
  let p := pageOf a
  let o := a % 0x1000
  if o < 0x100 then headerVal s p o
  else
    let ch (f : Fin 56 → Nat) : Nat := if h : winChan p < 56 then f ⟨winChan p, h⟩ else 0
    match pageType p with
    | 0x0013 => if o < 0xF00 then (s.tb.active.getD ((o - 0x100) / 8) 0).toNat % 2 ^ 36 else 0
    | 0x0020 =>
      if o = 0x110 then ((List.range 56).map (fun c => b2n (regVal s (chPage c 0 + 0x130) != 0) * 2 ^ c)).sum else regVal s a
    | 0x0040 => if o = 0x118 then regVal s a + stagePct s * 2 ^ 8 else regVal s a
    | 0x0080 =>
      if 0x108 ≤ o ∧ o < 0x158 then srcBits ((o - 0x108) / 8) (srcPending s)
      else if 0x158 ≤ o ∧ o < 0x1A8 then srcBits ((o - 0x158) / 8) (inService s)
      else regVal s a
    | 0x0081 => if o < 0x500 && !srcGap a then srcVal s a else 0
    | 0x0083 => if o < 0x500 ∧ o % 16 = 8 then stackVal s ((o - 0x100) / 16) else 0
    | 0x0084 => if o < 0xF00 then stackVal s (0x100 + (o - 0x100) / 8) else if o = 0xF00 then stackVal s tgtToll else 0
    | 0x0091 =>
      if o = 0x318 then ((List.range 64).map (fun k => s.get (Fld.KEY_CTRL_OUT k) * 2 ^ k)).sum else regVal s a
    | 0x0100 => if o = 0x118 then ch (chamberVal s) else regVal s a
    | 0x0104 =>
      if o = 0x108 then ch (fifoVal s) else if o = 0x120 then ch (mboVal s) else if o = 0x128 then ch (mboHeadVal s) else regVal s a
    | 0x0105 =>
      if o = 0x108 then regVal s a + ((List.range 64).filter (fun i => s.get (Fld.PT_ENTRY_STATE (winChan p) i) != partnerFree)).length
      else regVal s a
    | 0x0106 => if 0x140 ≤ o ∧ o < 0x180 then ch (fun c => threadVal s c (Fin.ofNat 8 ((o - 0x140) / 8))) else regVal s a
    | 0x0107 => if o = 0x138 then s.tick else regVal s a
    | _ => regVal s a

/-- A read of the register at `a` with its read action (R8, R31, R188). -/
def regRead (s : State) (a : Nat) : Nat × State :=
  if a = Reg.TIME_NS then timeRead s
  else if a = Reg.POUND_STATUS then (regVal s a, s.put Fld.POUND_STATUS_MIN_FREE (s.get Fld.POUND_STATUS_FREE))
  else if 0x32110 ≤ a ∧ a < 0x321B0 ∧ a % 16 = 8 then monRead s ((a - 0x32118) / 16)
  else if h : pageType (pageOf a) = 0x0104 ∧ a % 0x1000 = 0x120 ∧ winChan a < 56 then
    let (w, s) := mboRead s ⟨winChan a, h.2.2⟩
    (w.toNat, s)
  else (regView s a, s)

/-! ### Register rules of the chapters -/

/-- A source register (R318, R319). A write that changes SENSE clears the latch, and the new mode sees only changes that come
after it. With SET and a clear in one write, which of them stands is free. -/
def wrSrc (s : State) (a v : Nat) : Wr :=
  let i := srcOfAddr a
  if 5 ≤ bf v 4 3 ∨ !targetOk (bf v 8 10) then .refused
  else
    let changed := bf v 4 3 != senseOf s i
    let s := regApply s a v
    let set := bit v 37 && edgeSensed s i
    let clr := bit v 38 || changed
    let (n, s) := if set && clr then s.drawFree else (0, s)
    let stays := if clr then set && (Config.freeWord n).getLsbD 0 else set || s.ic.latch.contains i
    let l := s.ic.latch.filter (· != i)
    let s := s.modIc (fun ic => { ic with latch := if stays then l ++ [i] else l })
    .ok (if changed then icSeen s i else s)

/-- CHAN_COMMON: LOCK_CFG (R38) and POUND_QUOTA (R241). -/
def wrChan (s : State) (a v : Nat) : Wr :=
  let c := winChan a
  let o := a % 0x1000
  if o = 0x100 then (if chConfigurable s c ∧ bf v 0 3 ≤ 4 then .ok (regApply s a v) else .refused)
  else if o = 0x110 then
    let q := bf v 0 10
    if chConfigurable s c ∧ q ≤ 752 ∧ bf v 16 10 ≤ 752 ∧ quotaSum s - s.get (Fld.POUND_QUOTA_QUOTA c) + q ≤ 752 then
      .ok (poundStatus (regApply s a v))
    else .refused
  else .ok (regApply s a v)

/-- ORDSEQ: SEQ_BUDGET (R42) and HOST_FETCH. -/
def wrSeq (s : State) (a v : Nat) : Wr :=
  let c := winChan a
  let o := a % 0x1000
  if (o = 0x100 ∧ routeBusy s c) ∨ (o = 0x130 ∧ (routeBusy s c ∨ bf v 0 16 < 64)) then .refused else .ok (regApply s a v)

/-- PARTNERS (R193). -/
def wrPartner (s : State) (a v : Nat) : Wr :=
  let o := a % 0x1000
  if o = 0x100 then (if bf v 0 16 = 0 then .refused else .ok (regApply s a v))
  else if 0x200 ≤ o ∧ o < 0x600 then (if chConfigurable s (winChan a) ∧ (o % 16 ≠ 0 ∨ bf v 0 2 ≠ 3) then .ok (regApply s a v) else .refused)
  else .ok (regApply s a v)

/-- KEEPER_CTRL: THREAD_BUDGET (R42). -/
def wrKeeper (s : State) (a v : Nat) : Wr :=
  let c := winChan a
  let o := a % 0x1000
  if 0x100 ≤ o ∧ o < 0x140 then
    let t := (o - 0x100) / 8
    if routeBusy s c ∧ (bf v 0 24 ≠ s.get (Fld.THREAD_BUDGET_BUDGET c t) ∨ bf v 24 1 ≠ s.get (Fld.THREAD_BUDGET_BOUND c t)) then .refused
    else .ok (regApply s a v)
  else .ok (regApply s a v)

/-- A write of the barge page that ARM or the channel's state refuses (R209, R210). -/
def bargeRefuses (s : State) (c : Fin 56) (o v : Nat) : Bool :=
  let armed := s.isSet (Fld.BM_CTRL_ARM c)
  (decide (o < 0x130) && armed)
    || (o == 0x130 && ((armed && bit v 2 != s.isSet (Fld.BM_CTRL_HANDOVER_TICK c)) || (bit v 0 && !chAccepts s c)))

/-- Work queue `n`, completion ring `r`: a write at an offset of its block. -/
def wrQueue (s : State) (n o a v : Nat) : Wr :=
  match o with
  | 0x00 => wrWqBase s n v
  | 0x08 => wrWqCfg s n v
  | 0x10 => wrWqArb s n v
  | _ => .ok (regApply s a v)
def wrCring (s : State) (r o a v : Nat) : Wr :=
  match o with
  | 0x00 => wrCrBase s r v
  | 0x08 => wrCrCfg s r v
  | 0x18 => wrCrHead s r v
  | _ => .ok (regApply s a v)

/-- A write of `v`, its reserved fields removed, to the register at `a` beyond the header. -/
def regWrite (s : State) (a v : Nat) : Wr :=
  let p := pageOf a
  let o := a % 0x1000
  let opt (x : Option State) : Wr := match x with | some s => .ok s | none => .refused
  let ch (f : Fin 56 → Wr) : Wr := if h : winChan a < 56 then f ⟨winChan a, h⟩ else .ok s
  let plain : Wr := .ok (regApply s a v)
  if (regAt a).isNone then .ok s
  else match pageType p with
    | 0x0010 =>
      if o = 0x118 then wrTickCfg s v else if o = 0x120 then wrKeyCfg s v else if o = 0x128 then wrTbCtrl s v
      else if o = 0x150 then .ok (wrStepCtrl s v) else plain
    | 0x0011 => .ok (wrLsCtrl s v)
    | 0x0021 => if o = 0x100 then wrRingBase s v else if o = 0x108 then wrRingSize s v else plain
    | 0x0031 => wrQueue s (pageIndex p * 32 + (o - 0x100) / 0x40) (o % 0x40) a v
    | 0x0032 => wrCring s (pageIndex p * 16 + (o - 0x100) / 0x40) (o % 0x40) a v
    | 0x0040 =>
      if o = 0x100 then wrPlaceCfg s v else if o = 0x108 then wrStageBase s v else if o = 0x110 then wrStageSize s v
      else if o = 0x130 then wrQuayCfg s v else plain
    | 0x0041 => if o = 0x110 then wrDriveCtrl s (Fin.ofNat 4 (pageInstance p)) v else plain
    | 0x0050 =>
      if o = 0x100 then wrFaultStatus s v else if o = 0x118 then faultAck s v else if o = 0x120 ∨ o = 0x128 then wrFaultClass s a v
      else if o = 0x130 then wrFaultCtrl s v else plain
    | 0x0051 => if o = 0x128 then wrDramRas s v else plain
    | 0x0052 =>
      if 0x110 ≤ o ∧ o < 0x1B0 ∧ o % 16 = 0 then wrMon s ((o - 0x110) / 16) v else if o = 0x1C0 then wrThermCfg s v else plain
    | 0x0060 => if o = 0x100 then wrMbCmd s v else if 0x200 ≤ o ∧ o < 0x300 then wrMbReq s ((o - 0x200) / 8) v else plain
    | 0x0070 =>
      if o = 0x100 then .ok (wrTpCfg s v) else if o = 0x140 then .ok (wrTpPort s 0 v) else if o = 0x160 then .ok (wrTpPort s 1 v)
      else plain
    | 0x0081 => wrSrc s a v
    | 0x0083 => if o % 16 = 0 then .ok (icEoi s ((o - 0x100) / 16)) else plain
    | 0x0090 =>
      if o < 0x2C8 then opt (wrSigRange s ((o - 0x100) / 8) v)
      else if o = 0x300 then
        (match sigPublish s 56 (bf v 32 12) (BitVec.ofNat 32 v) (bf v 48 8) 0 with
         | some s => .ok s
         | none => .own (wrSigHostPub s v))
      else plain
    | 0x0091 => if o < 0x300 then opt (wrKeyCtrl s ((o - 0x100) / 8) v) else plain
    | 0x0100 => wrChan s a v
    | 0x0101 => wrSeq s a v
    | 0x0102 => ch (fun c => wrBus s c o v)
    | 0x0103 => ch (fun c => if bargeRefuses s c o v then .own (wrBarge s c o v) else .ok (wrBarge s c o v))
    | 0x0104 => if o = 0x118 then ch (fun c => .ok (mbiPush s c (BitVec.ofNat 64 v))) else plain
    | 0x0105 => wrPartner s a v
    | 0x0106 => wrKeeper s a v
    | _ => plain

/-- A write of `v` with its errors (R398, R401); `true` when it was refused. -/
def applyWrite (s : State) (a v : Nat) : Bool × State :=
  let s := if rsvHit a v then pageErr s a errRsv else s
  match regWrite s a (rsvStrip a v) with
  | .ok s => (false, s)
  | .own s => (true, s)
  | .refused => (true, pageErr s a errState)

/-! ### The header (R400–R402) -/

/-- SHADOW_CTRL (R402): HOLD takes the value written; staged writes are dropped unless a commit is scheduled; COMMIT schedules
one. DESIGN CHOICE (log entry 136): a write that drops and commits drops first. -/
def wrShadowCtrl (s : State) (p v : Nat) : State :=
  let drops := !s.isSet (Fld.SHADOW_CTRL_PENDING p) && (!bit v 0 || bit v 2)
  let s := s.putB (Fld.SHADOW_CTRL_HOLD p) (bit v 0)
  let s := if drops then modPage s p (fun b => { b with shadow := [] }) else s
  if bit v 1 then s.raise (Fld.SHADOW_CTRL_PENDING p) else s

/-- A write to the header. An error that the write itself makes stays set whatever it clears (R7). -/
def headerWrite (s : State) (p o v : Nat) : State :=
  let a := p + o
  let rsv (s : State) : State := if rsvHit a v then pageErr s a errRsv else s
  let v := rsvStrip a v
  if o = 0x40 then wrShadowCtrl (rsv s) p v
  else
    let s := rsv (regApply s a v)
    if o = 0x18 ∧ errBits s p = 0 then s.clear (Fld.ERR_FIRST_VALID p) else s

/-! ### Windows and pages (R394, R395, R399) -/

/-- What an address of BAR0 belongs to. -/
inductive BarRegion where
  | page (p : Nat)
  | signals
  | data (c : Fin 56) (off : Nat)
  | code (c : Fin 56) (off : Nat)
  | unmapped
deriving DecidableEq, Repr

/-- The region of an address. -/
def barRegion (a : Nat) : BarRegion :=
  if 0x2110000 ≤ a ∧ a < 0x2130000 then .signals
  else if h : 0x1000000 ≤ a ∧ winChan a < 56 then
    let o := a % 0x40000
    let c : Fin 56 := ⟨winChan a, h.2⟩
    if o < 0x8000 then .page (pageOf a)
    else if o < 0x10000 then .unmapped
    else if o < 0x20000 then .data c (o - 0x10000)
    else .code c (o - 0x20000)
  else if pageType (pageOf a) = 0 then .unmapped else .page (pageOf a)

/-- The page on which a size error of a region is noted (R396). -/
def BarRegion.owner (r : BarRegion) : Nat :=
  match r with
  | .page p => p
  | .signals => 0x2100000
  | .data c _ | .code c _ => chPage c 6
  | .unmapped => 0

/-- The region answers in the present state (R360, R362, R399). The DEVICE page answers in every state (R17), in ROM DRYDOCK too,
where R362 names two other pages alone (DEDUCED, log entry 102). -/
def regionAnswers (s : State) (r : BarRegion) : Bool :=
  if s.devState = devDrydock then
    (match r with
     | .page p => p == 0 || p == 0x40000 || p == 0x41000 || (!s.toll.rom && p == 0x32000)
     | _ => false)
  else match r with
    | .page p => !decide (0x1000000 ≤ p ∧ p < 0x1E00000 ∧ p % 0x40000 ≠ 0 ∧ chState s (winChan p) = chAbsent)
    | .data c _ | .code c _ => chState s c != chAbsent
    | _ => true

/-- The channel of a region is frozen for the cutover of a reseat: an access waits for the resume (R399). -/
def hostWaits (s : State) (r : BarRegion) : Bool :=
  match r with
  | .page p => if h : 0x1000000 ≤ p ∧ winChan p < 56 then s.frozen ⟨winChan p, h.2⟩ else false
  | .data c _ | .code c _ => s.frozen c
  | _ => false

/-- An access waits. -/
def State.hold (s : State) (x : HostAcc) : State := { s with waiting := s.waiting ++ [x] }

/-- An access to no page or window (R395); in DRYDOCK it is no error (R360). -/
def unmappedHit (s : State) : State :=
  if s.devState = devDrydock then s else (s.raise Fld.HP_EVT_UNMAPPED).bumpSat Fld.HP_STATS_UNMAPPED 1

/-- Any access to a page drops its snapshot (R397). -/
def snapDrop (s : State) (p : Nat) : State := modPage s p (fun b => { b with snap := none })

/-- A size error (R396): discarded, or read as zero. -/
def sizeError (s : State) (a : Nat) : State :=
  let r := barRegion a
  match r with
  | .unmapped => unmappedHit s
  | _ =>
    if !regionAnswers s r then s
    else
      let p := r.owner
      let s := match r with | .page p => snapDrop s p | _ => s
      pageErr s (p + a % 0x1000) errSize

/-! ### Writes -/

/-- A write of a whole register of a page, by the host. -/
def pageWrite (s : State) (a v : Nat) : State :=
  let p := pageOf a
  let o := a % 0x1000
  if o < 0x100 then headerWrite s p o v
  else if s.isSet (Fld.PAGE_CTRL_WR_LOCK p) || s.isSet (Fld.SHADOW_CTRL_PENDING p) then pageErr s a errState
  else if s.isSet (Fld.SHADOW_CTRL_HOLD p) then
    if 32 ≤ (pageBuf s p).shadow.length then pageErr s a errShadow
    else modPage s p (fun b => { b with shadow := b.shadow ++ [(a, BitVec.ofNat 64 v)] })
  else (applyWrite s a v).2

/-- `n` bytes of `v` written to a window: the signal windows are read-only. -/
def windowWrite (s : State) (r : BarRegion) (v n : Nat) : State :=
  match r with
  | .data c off => if off + n ≤ 0xE000 then tileWrite s c off (leBytes n v) none else s
  | .code c off => codeWrite s c off (leBytes n v)
  | _ => s

/-- A 64-bit write of the host. -/
def hostWrite64 (s : State) (a v : Nat) : State :=
  if hostWaits s (barRegion a) then s.hold ⟨.word, a, some v⟩
  else if a % 8 ≠ 0 then sizeError s a
  else
    let r := barRegion a
    match r with
    | .unmapped => unmappedHit s
    | .page p => if regionAnswers s r then pageWrite (snapDrop s p) a v else s
    | _ => if regionAnswers s r then windowWrite s r v 8 else s

/-- A 32-bit write of a low half: staged (R397). -/
def hostWriteLow (s : State) (a v : Nat) : State :=
  if hostWaits s (barRegion a) then s.hold ⟨.low, a, some v⟩
  else if a % 8 ≠ 0 then sizeError s a
  else
    let r := barRegion a
    match r with
    | .unmapped => unmappedHit s
    | .page p =>
      if regionAnswers s r then
        let s := snapDrop s p
        let lost := match (pageBuf s p).split with | some (b, _) => b != a | none => false
        let s := if lost then pageErr s a errSplit else s
        modPage s p (fun b => { b with split := some (a, v % 2 ^ 32) })
      else s
    | _ => if regionAnswers s r then windowWrite s r v 4 else s

/-- A 32-bit write of a high half, `a` its register's address. -/
def hostWriteHigh (s : State) (a v : Nat) : State :=
  if hostWaits s (barRegion a) then s.hold ⟨.high, a, some v⟩
  else if a % 8 ≠ 0 then sizeError s a
  else
    let r := barRegion a
    match r with
    | .unmapped => unmappedHit s
    | .page p =>
      if regionAnswers s r then
        let s := snapDrop s p
        match (pageBuf s p).split with
        | some (b, lo) =>
          if b = a then pageWrite (modPage s p (fun b => { b with split := none })) a (lo + v % 2 ^ 32 * 2 ^ 32)
          else pageWrite s a (regView s a % 2 ^ 32 + v % 2 ^ 32 * 2 ^ 32)
        | none => pageWrite s a (regView s a % 2 ^ 32 + v % 2 ^ 32 * 2 ^ 32)
      else s
    | _ => if regionAnswers s r then windowWrite s (barRegion (a + 4)) v 4 else s

/-! ### Reads -/

/-- A read of `n` bytes of a keeper's view; a poisoned word completes with poisoned data (R336), whose value is free. -/
def viewRead (s : State) (r : BarRegion) (n : Nat) : State :=
  let bad (s : State) : State := let (k, s) := s.drawFree; s.emit (.readData (Config.freeWord k) true)
  match r with
  | .data c off =>
    if 0xE000 ≤ off then s.answer 0
    else if tilePoisoned s c off n then bad (tileEcc s c off)
    else s.answer (leNat (tileRead s c off n))
  | .code c off =>
    if (s.kp c).codeBad.contains (off / 8) then bad (tileEcc s c 0x80000)
    else s.answer (leNat ((List.range n).map (fun i => codeByte s c (off + i))))
  | _ => s.answer 0

/-- A 64-bit read of the host. -/
def hostRead64 (s : State) (a : Nat) : State :=
  if hostWaits s (barRegion a) then s.hold ⟨.word, a, none⟩
  else if a % 8 ≠ 0 then (sizeError s a).answer 0
  else
    let r := barRegion a
    if r = .unmapped then (unmappedHit s).answer 0
    else if !regionAnswers s r then s.answer 0
    else match r with
      | .page p =>
        let (v, s) := regRead s a
        (snapDrop s p).answer v
      | .signals =>
        let (v, s) := sigRead s a
        s.answer v
      | _ => viewRead s r 8

/-- A 32-bit read of a low half (R397). -/
def hostReadLow (s : State) (a : Nat) : State :=
  if hostWaits s (barRegion a) then s.hold ⟨.low, a, none⟩
  else if a % 8 ≠ 0 then (sizeError s a).answer 0
  else
    let r := barRegion a
    if r = .unmapped then (unmappedHit s).answer 0
    else if !regionAnswers s r then s.answer 0
    else match r with
      | .page p =>
        let (v, s) := regRead s a
        (modPage s p (fun b => { b with snap := some (a, v / 2 ^ 32) })).answer (v % 2 ^ 32)
      | .signals =>
        let (v, s) := sigRead s a
        s.answer (v % 2 ^ 32)
      | _ => viewRead s r 4

/-- A 32-bit read of a high half, `a` its register's address (R397). -/
def hostReadHigh (s : State) (a : Nat) : State :=
  if hostWaits s (barRegion a) then s.hold ⟨.high, a, none⟩
  else if a % 8 ≠ 0 then (sizeError s a).answer 0
  else
    let r := barRegion a
    if r = .unmapped then (unmappedHit s).answer 0
    else if !regionAnswers s r then s.answer 0
    else match r with
      | .page p =>
        let fresh : State :=
          let (v, s) := regRead s a
          (snapDrop s p).answer (v / 2 ^ 32)
        match (pageBuf s p).snap with
        | some (b, hi) => if b = a then (snapDrop s p).answer hi else fresh
        | none => fresh
      | .signals =>
        let (v, s) := sigRead s a
        s.answer (v / 2 ^ 32)
      | _ => viewRead s (barRegion (a + 4)) 4

/-! ### REG_BATCH and shadow commits (R62, R399, R402) -/

/-- One masked write of a list: offset, value, mask. -/
def batchItem (b : List Byte) (i : Nat) : Nat × Nat × Nat := (leAt b (24 * i) 8, leAt b (24 * i + 8) 8, leAt b (24 * i + 16) 8)

/-- A masked write, as a list entry of REG_BATCH (`lock`: WR_LOCK governs it) or a configuration record makes it (R428); `true`
when it is refused. -/
def batchWrite (s : State) (lock : Bool) (x : Nat × Nat × Nat) : Bool × State :=
  let (a, v, m) := x
  if a % 8 ≠ 0 then (true, sizeError s a)
  else
    let r := barRegion a
    let mix (old : Nat) : Nat := (old - (old &&& m)) ||| (v &&& m)
    match r with
    | .unmapped => (false, unmappedHit s)
    | .page p =>
      if !regionAnswers s r then (false, s)
      else if a % 0x1000 < 0x100 then (false, headerWrite s p (a % 0x1000) (mix (regView s a)))
      else if lock && s.isSet (Fld.PAGE_CTRL_WR_LOCK p) then (true, pageErr s a errState)
      else applyWrite s a (mix (regView s a))
    | .data c off => (false, if regionAnswers s r then windowWrite s r (mix (leNat (tileRead s c off 8))) 8 else s)
    | .code c off =>
      (false, if regionAnswers s r then windowWrite s r (mix (leNat ((List.range 8).map (fun i => codeByte s c (off + i))))) 8 else s)
    | .signals => (false, s)

/-- A step `f` of what happens in one BCLK, in which writes may clear the W1C bits `l`: with the bits that it sets itself, found with
them clear, added to those set before (R7). -/
def keepSet (l : List Fld) (f : State → State) (x : State × List Fld) : State × List Fld :=
  (f x.1, if l.isEmpty then x.2 else x.2 ++ l.filter (f (l.foldl State.clear x.1)).isSet)

/-- The list applied from entry `i` on, with the bits of `l` it sets: the state, or the index of the first entry that is
refused. -/
def batchRun (l : List Fld) (x : State × List Fld) (b : List Byte) (n i : Nat) : (State × List Fld) × Option Nat :=
  match n with
  | 0 => (x, none)
  | k + 1 =>
    if (batchWrite x.1 true (batchItem b i)).1 then (x, some i)
    else batchRun l (keepSet l (fun s => (batchWrite s true (batchItem b i)).2) x) b k (i + 1)

/-- The errors that a refused entry sets, when nothing of the list is written. -/
def batchError (s : State) (x : Nat × Nat × Nat) : State :=
  match batchWrite s true x with
  | (true, t) => t
  | (false, _) => pageErr s x.1 errState

/-- REG_BATCH: the list is read; its writes wait for the next edge. -/
def regBatch (s : State) (serial : Nat) (data : HostRd) : State :=
  basinStart s serial opRegBatch (fun _ => none) (fun e =>
    let n := e.arg 24 2
    if n = 0 ∨ 256 < n ∨ !bufOk s (e.arg 32 8) (24 * n) then complete s e St.badOperand (leBytes 2 0 ++ leBytes 2 0xFFFF)
    else if operandWaits s (e.arg 32 8) then s
    else match operandRead s (e.arg 32 8) (24 * n) data with
      | none => complete (operandEcc s (e.arg 32 8) (24 * n)) e St.busError (leBytes 2 0 ++ leBytes 2 0xFFFF)
      | some b => updEntry s { e with stage := .edge, data := b })

/-- REG_BATCH_APPLY at a tick edge. -/
def batchApply (l : List Fld) (x : State × List Fld) (e : WorkEntry) : State × List Fld :=
  let n := e.arg 24 2
  match batchRun l x e.data n 0 with
  | (y, none) => (complete y.1 e St.ok (leBytes 2 n ++ leBytes 2 0xFFFF), y.2)
  | (_, some i) =>
    keepSet l (fun s => complete (batchError s (batchItem e.data i)) e St.badOperand (leBytes 2 0 ++ leBytes 2 i)) x

/-- Every REG_BATCH that waits for the edge, in dispatch order. -/
def batchesApply (l : List Fld) (x : State × List Fld) : State × List Fld :=
  (x.1.basinq.filter (fun e => e.opcode == opRegBatch && e.stage == .edge)).foldl (batchApply l) x

/-- A staged write of page `p` applied, with the error of the lowest bit so far that the commit has set: its bit and offset. -/
def stagedWrite (p : Nat) (x : State × Option (Nat × Nat)) (w : Nat × Word) : State × Option (Nat × Nat) :=
  let s := (applyWrite (x.1.clear (Fld.ERR_FIRST_VALID p)) w.1 w.2.toNat).2
  if s.isSet (Fld.ERR_FIRST_VALID p) then
    let e := (s.get (Fld.ERR_FIRST_BIT p), s.get (Fld.ERR_FIRST_OFFSET p))
    (s, some (match x.2 with | some b => if e.1 < b.1 then e else b | none => e))
  else (s, x.2)

/-- ERR_FIRST of page `p` after staged writes that took effect in one BCLK: as it was if it was valid, else the lowest bit they
set (R401). -/
def stagedFirst (old : State) (p : Nat) (x : State × Option (Nat × Nat)) : State :=
  let put (s : State) (off b t : Nat) : State :=
    (((s.put (Fld.ERR_FIRST_OFFSET p) off).put (Fld.ERR_FIRST_BIT p) b).raise (Fld.ERR_FIRST_VALID p)).put (Fld.ERR_FIRST_TICK p) t
  if old.isSet (Fld.ERR_FIRST_VALID p) then
    put x.1 (old.get (Fld.ERR_FIRST_OFFSET p)) (old.get (Fld.ERR_FIRST_BIT p)) (old.get (Fld.ERR_FIRST_TICK p))
  else match x.2 with
    | some b => put x.1 b.2 b.1 x.1.tick
    | none => x.1

/-- The staged writes of page `p`, whose commit is scheduled, take effect. -/
def shadowApply (s : State) (p : Nat) : State :=
  let l := (pageBuf s p).shadow
  let s := ((modPage s p (fun b => { b with shadow := [] })).clear (Fld.SHADOW_CTRL_PENDING p)).clear (Fld.SHADOW_CTRL_HOLD p)
  stagedFirst s p (l.foldl (stagedWrite p) (s, none))

/-- The staged writes of the pages with a commit scheduled, in ascending page address. -/
def shadowsApply (l : List Fld) (x : State × List Fld) : State × List Fld :=
  x.1.pages.foldl (fun x e => if x.1.isSet (Fld.SHADOW_CTRL_PENDING e.1) then keepSet l (shadowApply · e.1) x else x) x

/-- A page with a commit scheduled and nothing staged has HOLD and PENDING cleared all the same. -/
def shadowsEmpty (s : State) : State :=
  (s.fld.filter (fun kv => kv.1 % (0x1000 * 64) == 0x40 * 64 + 3 && kv.2 == 1)).foldl (fun s kv =>
    let p := kv.1 / 64 - 0x40
    (s.clear (Fld.SHADOW_CTRL_HOLD p)).clear (Fld.SHADOW_CTRL_PENDING p)) s

/-- The W1C fields of the register at `a` in which a word has a 1. -/
def w1cOnes (a v : Nat) : List Fld :=
  match regAt a with
  | some r => (r.flds.filter (fun d => d.acc == .w1c && bf v d.lo d.w != 0)).map (fldAt a)
  | none => []

/-- The W1C fields that the writes waiting for the next edge may clear: a masked write writes back what it does not cover. -/
def edgeClears (s : State) : List Fld :=
  let batches := (s.basinq.filter (fun e => e.opcode == opRegBatch && e.stage == .edge)).flatMap (fun e =>
    (List.range (e.arg 24 2)).flatMap (fun i =>
      let (a, v, m) := batchItem e.data i
      w1cOnes a ((v &&& m) ||| (m ^^^ (2 ^ 64 - 1)))))
  let staged := (s.pages.filter (fun e => s.isSet (Fld.SHADOW_CTRL_PENDING e.1))).flatMap (fun e =>
    (pageBuf s e.1).shadow.flatMap (fun w => w1cOnes w.1 w.2.toNat))
  batches ++ staged

/-- The shadow commits at a tick edge. A W1C bit of `l` that is set in the same BCLK, by what came before (`x.2`) or by one of these
writes, stays set whatever they clear (R7). -/
def shadowsEdge (l : List Fld) (x : State × List Fld) : State :=
  let x := shadowsApply l x
  shadowsEmpty (x.2.foldl State.raise x.1)

/-- The writes that wait for a tick edge take effect (R399): REG_BATCH, then shadow commits. -/
def edgeWrites (l : List Fld) (x : State × List Fld) : State := shadowsEdge l (batchesApply l x)

/-! ### BAR2 (R404) -/

/-- Parts of an access: addresses of aligned 8 B words that `n` bytes at `a` touch. -/
def bar2Parts (a n : Nat) : List Nat := if n = 0 then [] else (List.range ((a % 8 + n + 7) / 8)).map (fun i => a / 8 * 8 + 8 * i)

/-- Bytes of an access at offset `x` that lie in BAR2's 256 MiB (R394): the function claims no others. -/
def bar2Within (x n : Nat) : Nat := min n (2 ^ 28 - x)

/-- Device DRAM address of a BAR2 offset. -/
def bar2Addr (s : State) (x : Nat) : Nat := s.get Fld.BAR2_BASE_ADDR * 2 ^ 20 + x

/-- BAR2_READ of `n` bytes at offset `x`: one completion for each part. What the device keeps in its region, and where, the spec does
not say: the contents are free values (R285; log entry 142). -/
def bar2Read (s : State) (x n : Nat) : State :=
  let a := bar2Addr s x
  let n := bar2Within x n
  (bar2Parts a n).foldl (fun s g =>
    let lo := max a g
    let k := min (a + n) (g + 8) - lo
    if s.devState = devDrydock ∨ !s.isSet Fld.BAR2_CTRL_EN then s.answer 0
    else if s.dramTop ≤ g then (s.raise Fld.HP_EVT_BAR2_RANGE).answer 0
    else if s.poisoned 0 g 8 then
      let (f, s) := (dramEcc s g).drawFree
      s.emit (.readData (Config.freeWord f) true)
    else if s.devRegion ≤ g then
      let (f, s) := s.drawFree
      s.answer ((Config.freeWord f).toNat / 2 ^ (8 * (lo - g)) % 2 ^ (8 * k))
    else s.answer (leNat (s.dramRead lo k))) s

/-- A write into the ring, span staging or the device region. -/
def bar2Refuses (s : State) (g : Nat) : Bool :=
  let inside (base size : Nat) : Bool := decide (base * 2 ^ 20 ≤ g ∧ g < (base + size) * 2 ^ 20)
  (s.isSet Fld.BAR2_CTRL_WP && (inside (s.get Fld.RING_BASE_ADDR) (s.get Fld.RING_SIZE_MIB)
    || inside (s.get Fld.STAGE_BASE_ADDR) (s.get Fld.STAGE_SIZE_MIB))) || decide (s.devRegion ≤ g)

/-- BAR2_WRITE of bytes at offset `x`. -/
def bar2Write (s : State) (x : Nat) (bs : List Byte) : State :=
  let a := bar2Addr s x
  let bs := bs.take (bar2Within x bs.length)
  if s.devState = devDrydock ∨ !s.isSet Fld.BAR2_CTRL_EN then s
  else (bar2Parts a bs.length).foldl (fun s g =>
    let lo := max a g
    let k := min (a + bs.length) (g + 8) - lo
    if s.dramTop ≤ g then s.raise Fld.HP_EVT_BAR2_RANGE
    else if bar2Refuses s g then (s.raise Fld.HP_EVT_BAR2_WP).bumpSat Fld.HP_STATS_BAR2_DISCARDS 1
    else
      let s := if k < 8 && s.poisoned 0 g 8 then dramEcc s g else s
      s.dramWrite lo (bsub bs (lo - a) k)) s

/-! ### The MSI-X table and configuration space (R325, R326) -/

/-- A 32-bit write to the MSI-X table. -/
def msixWrite (s : State) (off v : Nat) : State :=
  let n := off / 16
  let e := msixOf s n
  let v := v % 2 ^ 32
  let e := match off % 16 / 4 with
    | 0 => { e with addr := e.addr / 2 ^ 32 * 2 ^ 32 + v / 4 * 4 }
    | 1 => { e with addr := e.addr % 2 ^ 32 + v * 2 ^ 32 }
    | 2 => { e with data := v }
    | _ => { e with mask := bit v 0 }
  if off < 0x400 then s.modHost (fun h => { h with msix := SMap.insert h.msix n e }) else s

/-- Read-write fields of configuration space that R406 leaves to PCI Express Base: offset of a double word, their bits, their reset
value (PRESUMED, log entry 123): Command, Cache Line Size, the BARs' address bits (their sizes are R394's), Interrupt Line, Device
Control, Link Control, Device Control 2, Link Control 2, AER's masks and severities, L1 PM Substates Control. -/
def configRw : List (Nat × Nat × Nat) :=
  [(0x04, 0x142, 0), (0x0C, 0xFF, 0), (0x10, 0xFC000000, 0), (0x14, 0xFFFFFFFF, 0), (0x18, 0xF0000000, 0), (0x1C, 0xFFFFFFFF, 0),
   (0x20, 0xFFFFE000, 0), (0x24, 0xFFFFFFFF, 0), (0x3C, 0xFF, 0), (0x78, 0x7FFF, 0x2810), (0x80, 0xECB, 0), (0x98, 0x131F, 0),
   (0xA0, 0xFFBF, 5), (0x108, 0x7FF030, 0x400000), (0x10C, 0x7FF030, 0x462030), (0x114, 0xF1C1, 0xE000),
   (0x228, 0xE3FFFF0F, 0), (0x22C, 0xFB, 0)]

/-- Mask and value of the read-write fields of a double word. -/
def configRwAt (s : State) (off : Nat) : Nat × Nat :=
  match configRw.find? (fun r => r.1 == off) with
  | some (_, m, r) => (m, SMap.get r s.host.cfg off)
  | none => (0, 0)

/-- PMCSR's power state and Command's Bus Master Enable are written: they act as the rows of their own do. -/
def powerWrite (s : State) (v : Nat) : State :=
  if v % 4 = 3 ∧ !s.host.d3hot then hostD3 s else if v % 4 = 0 ∧ s.host.d3hot then hostD0 s else s
def bmeWrite (s : State) (on : Bool) : State := if on = s.host.bme then s else if on then hostBmeSet s else hostBmeClear s

/-- A 32-bit write to configuration space (R406). Before READY it is to be retried (R358, R407). -/
def configWrite (s : State) (off v : Nat) : State :=
  if s.devState = devSelftest then s.emit .configRetry
  else
    let (m, _) := configRwAt s off
    let s := if m = 0 then s else s.modHost (fun h => { h with cfg := SMap.insert h.cfg off (v % 2 ^ 32 &&& m) })
    match off with
    | 0x04 => bmeWrite s (bit v 2)
    | 0x44 => powerWrite (s.modHost (fun h => { h with pmeEn := bit v 8, pmeStatus := h.pmeStatus && !bit v 15 })) v
    | 0x50 => s.modHost (fun h => { h with msixEn := bit v 31, fnMask := bit v 30 })
    | 0x104 => s.modHost (fun h => { h with aer := h.aer - (h.aer &&& v) })
    | _ => s

/-- The Pending Bit Array (R325): bit v while a source routed to vector v is HELD. -/
def pbaBits (s : State) : Nat :=
  let held := (unmasked s).filter (srcHeld s)
  ((List.range 64).map (fun v => b2n (held.any (fun i => targetOf s i == v)) * 2 ^ v)).sum

/-- The 64-bit word of BAR4 at an aligned offset: MSI-X table, PBA. -/
def bar4Word (s : State) (off : Nat) : Nat :=
  if off < 0x400 then
    let e := msixOf s (off / 16)
    if off % 16 = 0 then e.addr else e.data + b2n e.mask * 2 ^ 32
  else if off = 0x1000 then pbaBits s
  else 0

/-- Configuration space (R394, R406): offset of a double word, the bits the spec gives, their value. The places of the fields in
their structures are those of PCI Express Base (PRESUMED, log entry 123). -/
def configRows (s : State) : List (Nat × Nat × Nat) :=
  let cap (id next : Nat) : Nat := id + next * 2 ^ 8
  let ext (off id next : Nat) : Nat × Nat × Nat := (off, 0xFFF0FFFF, id + next * 2 ^ 20)
  let all := 0xFFFFFFFF
  let h := s.host
  let pmcsr := (if h.d3hot then 3 else 0) + 2 ^ 3 + b2n h.pmeEn * 2 ^ 8 + b2n h.pmeStatus * 2 ^ 15
  [(0x00, all, 0x56601F3A), (0x04, 0x00100004, b2n h.bme * 4 + 2 ^ 20), (0x08, all, 0x118000A2), (0x0C, 0x00FF0000, 0),
   (0x10, 0x03FFFFFF, 0x4), (0x18, 0x0FFFFFFF, 0xC), (0x20, 0x00001FFF, 0x4), (0x2C, all, 0x56601F3A), (0x30, all, 0),
   (0x34, all, 0x40), (0x3C, 0x0000FF00, 0),
   (0x40, 0xFE00FFFF, cap 0x01 0x50 + 9 * 2 ^ 27), (0x44, 0x0000810B, pmcsr),
   (0x50, all, cap 0x11 0x70 + 63 * 2 ^ 16 + b2n h.fnMask * 2 ^ 30 + b2n h.msixEn * 2 ^ 31), (0x54, all, 4), (0x58, all, 0x1004),
   (0x70, 0x00F0FFFF, cap 0x10 0), (0x74, 0x10000027, 2 + 2 ^ 5),
   (0x7C, 0x00238FFF, 5 + 8 * 2 ^ 4 + 2 * 2 ^ 10 + 2 * 2 ^ 15 + 2 ^ 21), (0x80, 0x03F00000, s.get Fld.LINK_STATE_HOST_WIDTH * 2 ^ 20),
   (0x94, 0x00030000, 3 * 2 ^ 16),
   ext 0x100 0x01 0x148, (0x104, all, h.aer), ext 0x148 0x03 0x158, (0x14C, all, s.toll.serial % 2 ^ 32), (0x150, all, s.toll.serial / 2 ^ 32 % 2 ^ 32),
   ext 0x158 0x19 0x178, ext 0x178 0x25 0x188, (0x17C, 1, 1), ext 0x188 0x26 0x1B0, ext 0x1B0 0x27 0x1E0, ext 0x1E0 0x2A 0x220,
   ext 0x220 0x1E 0, (0x224, 0x1F, 0x1F)]

/-- A read of configuration space: what the spec gives of the double word, the rest of it free. -/
def configRead (s : State) (off : Nat) : State :=
  if s.devState = devSelftest then s.emit .configRetry
  else
    let (n, s) := s.drawFree
    let f := (Config.freeWord n).toNat % 2 ^ 32
    let (_, m, v) := ((configRows s).find? (fun r => r.1 == off)).getD (off, 0, 0)
    let (k, w) := configRwAt s off
    s.answer (v + w + (f - (f &&& (m ||| k))))

/-- The accesses that a request of `w` double words at `a` is carried out as (R396): a 4 B access where it starts at an odd double word,
8 B accesses, a 4 B access where it ends at one. -/
def longParts (fuel a w : Nat) : List (AccSize × Nat) :=
  match fuel with
  | 0 => []
  | k + 1 =>
    if w = 0 then []
    else if a % 8 = 4 then (.high, a - 4) :: longParts k (a + 4) (w - 1)
    else if w = 1 then [(.low, a)]
    else (.word, a) :: longParts k (a + 8) (w - 2)

/-- A request of `w` double words is a size error: none of them is enabled, it does not start at a double word, or it is an 8 B access
that is not aligned. -/
def longBad (a w : Nat) : Bool := w == 0 || a % 4 != 0 || (w == 2 && a % 8 == 4)

/-- Data of a part of a request: `off` is the part's place in it. -/
def partData (size : AccSize) (data : List Byte) (off : Nat) : Nat :=
  match size with
  | .word => leNat (bsub data off 8)
  | .high => leNat (bsub data (off + 4) 4)
  | _ => leNat (bsub data off 4)

/-- A read of BAR0 in a size: a long request is answered part by part. -/
def barRead (s : State) (size : AccSize) (a : Nat) : State :=
  let one (s : State) (size : AccSize) (a : Nat) : State :=
    match size with
    | .word => hostRead64 s a
    | .low => hostReadLow s a
    | .high => hostReadHigh s a
    | _ => if hostWaits s (barRegion a) then s.hold ⟨.bad, a, none⟩ else (sizeError s a).answer 0
  match size with
  | .long w _ => if longBad a w.toNat then one s .bad a else (longParts 1024 a w.toNat).foldl (fun s p => one s p.1 p.2) s
  | _ => one s size a

/-- A write of BAR0 in a size. -/
def barWrite (s : State) (size : AccSize) (a v : Nat) : State :=
  let one (s : State) (size : AccSize) (a v : Nat) : State :=
    match size with
    | .word => hostWrite64 s a v
    | .low => hostWriteLow s a v
    | .high => hostWriteHigh s a v
    | _ => if hostWaits s (barRegion a) then s.hold ⟨.bad, a, some v⟩ else sizeError s a
  match size with
  | .long w data =>
    if longBad a w.toNat then one s .bad a v
    else (longParts 1024 a w.toNat).foldl (fun s p => one s p.1 p.2 (partData p.1 data (p.2 - a))) s
  | _ => one s size a v

/-- The accesses that waited for the cutover of channel `c` act on the new tile, in order (R399). -/
def hostResume (s : State) (c : Fin 56) : State :=
  let mine (x : HostAcc) : Bool := match barRegion x.a with
    | .page p => winChan p == c.val && decide (0x1000000 ≤ p)
    | .data d _ | .code d _ => d == c
    | _ => false
  let go := s.waiting.filter mine
  if s.frozen c then s
  else go.foldl (fun s x => match x.v with
    | some v => barWrite s x.size x.a v
    | none => barRead s x.size x.a) { s with waiting := s.waiting.filter (fun x => !mine x) }

/-- A read of a register of BAR0 in a given size, of BAR4, or of configuration space. -/
def spaceRead (s : State) (sp : RegSpace) (a : Nat) : State :=
  match sp with
  | .bar0 size => barRead s size a
  | .bar4 wide =>
    let w := bar4Word s (a / 8 * 8)
    s.answer (if wide then w else if bit a 2 then w / 2 ^ 32 else w % 2 ^ 32)
  | .config => configRead s (a / 4 * 4)

/-- REGISTER_WRITE: of a register of BAR0 in a given size, of the MSI-X table, or of configuration space. -/
def spaceWrite (s : State) (sp : RegSpace) (a v : Nat) : State :=
  match sp with
  | .bar0 size => barWrite s size a v
  | .bar4 wide =>
    if wide then msixWrite (msixWrite s (a / 8 * 8) v) (a / 8 * 8 + 4) (v / 2 ^ 32) else msixWrite s (a / 4 * 4) v
  | .config => configWrite s a v

end Sys2Proof.Machine
end

