-- ==== Sys2Proof/Machine/Startup.lean ====
section
/-!
DEFINITION. Start-up: the end of self-test, the mapping of channels to tiles, applying the configuration, READY and the
autostart records (01, R12; 16, R358–R360, R364–R368).
-/
namespace Sys2Proof.Machine

/-! ### KEYSTONE_LOAD (R260) -/

/-- Check of a keystone program and, when it passes, its scheduling for the next edge: status. -/
def ksLoad (s : State) (k len : Nat) (b : List Byte) (serial : Nat) : Nat × State :=
  let result (s : State) (reason term : Nat) : State :=
    ((s.put Fld.KS_LOAD_RESULT_KEYSTONE k).put Fld.KS_LOAD_RESULT_REASON reason).put Fld.KS_LOAD_RESULT_TERM term
  match ksCheck s k len b with
  | some (reason, term) =>
    (if reason = 8 then St.rejectedBudget else 0x81, (result s reason term).raise Fld.KS_EVT_LOAD_REJECTED)
  | none => (St.ok, ksPend (result s 0 0) k (.load (ksProg b) serial))

/-- KEYSTONE_LOAD: it waits while its keystone is PENDING (R265). -/
def keystoneLoad (s : State) (serial : Nat) (data : HostRd) : State :=
  basinStart s serial opKeystoneLoad (fun e => some (e.arg 24 1)) (fun e =>
    let k := e.arg 24 1
    let len := e.arg 40 2
    if k < 64 ∧ (s.ks k).pend ≠ .none then s
    else if 64 ≤ k ∨ !bufOk s (e.arg 32 8) len then complete s e St.badOperand []
    else if operandWaits s (e.arg 32 8) then s
    else match operandRead s (e.arg 32 8) len data with
      | none =>
        let s := operandEcc s (e.arg 32 8) len
        let s := (s.put Fld.KS_LOAD_RESULT_KEYSTONE k).put Fld.KS_LOAD_RESULT_REASON 9
        complete ((s.put Fld.KS_LOAD_RESULT_TERM 0).raise Fld.KS_EVT_LOAD_REJECTED) e St.busError []
      | some b =>
        let (st, s) := ksLoad s k len b serial
        if st = St.ok then updEntry s { e with stage := .edge } else complete s e st [])

/-- The loads that a tick edge installs complete at it. -/
def keystonesInstalled (s : State) : State :=
  (s.basinq.filter (fun e => e.opcode == opKeystoneLoad && e.stage == .edge)).foldl (fun s e => complete s e St.ok []) s

/-! ### The records of a configuration image (R365, R366, R368) -/

/-- Bits of RW/NV fields of the register at an address. -/
def nvMask (a : Nat) : Nat :=
  match regAt a with
  | some r => (r.flds.map (fun d => if d.acc = .rwnv then (2 ^ d.w - 1) * 2 ^ d.lo else 0)).sum
  | none => 0

/-- A record is rejected: event 0x0011 with its index, TYPE and a reason. -/
def recReject (s : State) (i typ reason : Nat) : State :=
  (thLog s 0xFE 0x0011 (leBytes 4 i ++ leBytes 2 typ ++ leBytes 1 reason)).bumpSat Fld.CFG_STATUS_REJECTED 1

/-- A rejection whose reason code the spec does not state. -/
def recRejectFree (s : State) (i typ : Nat) : State :=
  let (n, s) := s.drawFree
  recReject s i typ (bf (Config.freeWord n).toNat 0 8)

/-- A record of an image: its index, TYPE, header bytes and body (padded). -/
structure CfgRec where
  idx  : Nat
  typ  : Nat
  zero : Bool
  len  : Nat
  body : List Byte
deriving DecidableEq, Repr

/-- The records of an image that has passed `cfgReason`. A record whose header's zero bytes or padding are not zero breaks the
rules of every type. -/
def cfgRecs (b : List Byte) : List CfgRec :=
  match cfgRecords b (leAt b 8 4) 64 (leAt b 12 4) with
  | some (l, _) => l.zipIdx.map (fun e =>
      let (off, typ, len) := e.1
      ⟨e.2, typ, allZero b (off + 2) 2 && allZero b (off + 8 + len) (roundUp 8 len - len), len, bsub b (off + 8) len⟩)
  | none => []

/-- A REG record. -/
def recReg (s : State) (r : CfgRec) : State :=
  let a := leAt r.body 0 8
  let v := leAt r.body 8 8
  let m := leAt r.body 16 8
  if !r.zero ∨ r.len ≠ 24 ∨ a % 8 ≠ 0 ∨ m &&& nvMask a ≠ m then recRejectFree s r.idx r.typ
  else match batchWrite s false (a, v, m) with
    | (false, s) => s
    | (true, s) => recRejectFree s r.idx r.typ

/-- The LOCK_SCHEDULE record: written to the shadow table and committed; one at most. -/
def recLock (s : State) (r : CfgRec) (first : Bool) : State :=
  let n := leAt r.body 0 2
  if !r.zero ∨ !first ∨ n = 0 ∨ 448 < n ∨ r.len ≠ 8 + 8 * n ∨ !allZero r.body 2 6
      ∨ (List.range n).any (fun i => leAt r.body (8 + 8 * i) 8 / 2 ^ 36 != 0) then recRejectFree s r.idx r.typ
  else
    let s := (List.range n).foldl (fun s i =>
      let w := leAt r.body (8 + 8 * i) 8
      ((s.put (Fld.LS_ENTRY_OFFSET_NS i) (bf w 0 24)).put (Fld.LS_ENTRY_CHANNEL i) (bf w 24 8)).put (Fld.LS_ENTRY_SUB i) (bf w 32 4)) s
    let s := lsCommit (s.put Fld.LS_CTRL_COUNT n)
    if s.get Fld.LS_CTRL_REJECT = 0 then s else recReject s r.idx r.typ (s.get Fld.LS_CTRL_REJECT)

/-- A DRAM_DATA record. -/
def recDram (s : State) (r : CfgRec) : State :=
  let a := leAt r.body 0 8
  let n := r.len - 8
  if !r.zero ∨ r.len < 8 ∨ a % 8 ≠ 0 ∨ !s.dramFree a n ∨ !apart a n (ringBase s) (ringSize s)
      ∨ !apart a n (s.get Fld.STAGE_BASE_ADDR * 2 ^ 20) (stageSize s) then recRejectFree s r.idx r.typ
  else s.dramWrite a (r.body.drop 8)

/-- A KEEPER record: all steps of a KEEPER_LOAD at once (R170). -/
def recKeeper (s : State) (r : CfgRec) : State :=
  let b := r.body.drop 8
  let len := r.len - 8
  if h : leAt r.body 0 1 < 56 then
    let c : Fin 56 := ⟨leAt r.body 0 1, h⟩
    if !r.zero ∨ !allZero r.body 1 7 ∨ len < 64 ∨ 262144 < len ∨ len % 8 ≠ 0 ∨ chState s c = chAbsent then
      recRejectFree s r.idx r.typ
    else
      let s := s.clear (Fld.KSTATUS_IMAGE_VALID c)
      let bad := imgHeader b len
      if bad ≠ 0 then recReject (s.put (Fld.KSTATUS_LOAD_REASON c) bad) r.idx r.typ bad
      else
        let s := imgZero (imgStore s c b 0 len) c b
        let bad := imgTables b
        if bad ≠ 0 then recReject (s.put (Fld.KSTATUS_LOAD_REASON c) bad) r.idx r.typ bad
        else imgAccept s c b
  else recRejectFree s r.idx r.typ

/-- A STREAM record; its rejection is event 0x0014 with DEF_RESULT as it then stands. -/
def recStream (s : State) (r : CfgRec) : State :=
  let i := leAt r.body 0 1
  let reject (s : State) (data : List Byte) : State := (thLog s 0xFE 0x0014 data).bumpSat Fld.CFG_STATUS_REJECTED 1
  if !r.zero ∨ r.len ≠ 72 ∨ !allZero r.body 1 7 ∨ (s.strm i).pend.isSome then reject s (leBytes 8 (regView s Reg.DEF_RESULT))
  else
    let (st, s) := strmDefine s i (r.body.drop 8) none
    if st = St.ok then s else reject s (if st = St.authFail then leBytes 1 st else leBytes 8 (regView s Reg.DEF_RESULT))

/-- A KEYSTONE record; its rejection is event 0x0013 with KS_LOAD_RESULT as it then stands. -/
def recKeystone (s : State) (r : CfgRec) : State :=
  let k := leAt r.body 0 1
  let reject (s : State) : State :=
    (thLog s 0xFE 0x0013 (leBytes 8 (regView s Reg.KS_LOAD_RESULT))).bumpSat Fld.CFG_STATUS_REJECTED 1
  if !r.zero ∨ r.len < 8 ∨ 64 ≤ k ∨ !allZero r.body 1 7 ∨ (s.ks k).pend ≠ .none then reject s
  else
    let (st, s) := ksLoad s k (r.len - 8) (r.body.drop 8) s.serial
    if st = St.ok then s else reject s

/-- An AUTOSTART record, kept for the first edge after READY. -/
def recAuto (s : State) (r : CfgRec) : State :=
  let b := r.body
  let fl := leAt b 1 1
  let limit := leAt b 4 2
  let a := leAt b 8 8
  if !r.zero ∨ r.len ≠ 16 ∨ 56 ≤ leAt b 0 1 ∨ 8 ≤ fl ∨ leAt b 3 1 ≠ 0 ∨ leAt b 6 2 ≠ 0
      ∨ (bit fl 1 ∧ !(decide (1 ≤ limit ∧ limit ≤ 1024) && decide (a < 2 ^ 63) && routeAddrOk s a limit)) then
    recRejectFree s r.idx r.typ
  else s.modToll (fun t => { t with auto := t.auto ++
    [⟨r.idx, leAt b 0 1, bit fl 0, bit fl 1, bit fl 2, leAt b 2 1, limit, BitVec.ofNat 64 a⟩] })

/-- The records of one TYPE, in image order. -/
def recsOf (l : List CfgRec) (t : Nat) : List CfgRec := l.filter (fun r => r.typ == t)

/-- One record by its TYPE; `first` of the LOCK_SCHEDULE records of its image. A type that is not defined is rejected. -/
def recTake (s : State) (r : CfgRec) (first : Bool) : State :=
  match r.typ with
  | 1 => recReg s r
  | 2 => recLock s r first
  | 3 => recDram s r
  | 4 => recKeeper s r
  | 5 => recStream s r
  | 6 => recKeystone s r
  | 7 => recAuto s r
  | _ => recRejectFree s r.idx r.typ

/-- A record to apply: of the factory layer or of the user layer, and whether it is the first of its TYPE there. -/
structure CfgItem where
  factory : Bool
  first   : Bool
  rec_    : CfgRec
deriving DecidableEq, Repr

/-- The records of a layer in one step, in image order. -/
def stepItems (factory : Bool) (l : List CfgRec) : List CfgItem := l.zipIdx.map (fun e => ⟨factory, e.2 == 0, e.1⟩)

/-- The records of both layers in the order of R366: by TYPE, the factory layer's before the user layer's; types that are not defined
come last. -/
def cfgItems (fac usr : List CfgRec) : List CfgItem :=
  let other (l : List CfgRec) : List CfgRec := l.filter (fun r => decide (r.typ = 0 ∨ 8 ≤ r.typ))
  ([1, 2, 3, 4, 5, 6, 7].map (fun t => stepItems true (recsOf fac t) ++ stepItems false (recsOf usr t))).flatten
    ++ stepItems true (other fac) ++ stepItems false (other usr)

/-- Apply a record; true once one of the factory layer has been rejected, after which none is applied (R359, R368). -/
def cfgTake (x : State × Bool) (i : CfgItem) : State × Bool :=
  let (s, dead) := x
  if dead then x
  else if i.factory then
    let t := recTake (s.put Fld.CFG_STATUS_REJECTED 0) i.rec_ i.first
    let bad := t.get Fld.CFG_STATUS_REJECTED != 0
    let t := t.put Fld.CFG_STATUS_REJECTED (s.get Fld.CFG_STATUS_REJECTED)
    (if bad then t.bumpSat Fld.CFG_STATUS_REJECTED 1 else t, bad)
  else (recTake s i.rec_ i.first, false)

/-- The user layer's records, unless it is absent, skipped or ignored (R366, R368), and CFG_STATUS for it. -/
def userLayer (s : State) : List CfgRec × State :=
  let b := s.toll.config
  if b = [] then ([], s.put Fld.CFG_STATUS_USER 0)
  else if s.toll.bootmode = 1 then ([], s.put Fld.CFG_STATUS_USER 3)
  else
    let r := cfgReason b (fwMajor s)
    if r ≠ 0 then
      let s := (s.put Fld.CFG_STATUS_USER 2).put Fld.CFG_STATUS_REASON r
      ([], thLog s 0xFE 0x0010 (leBytes 8 (regView s Reg.CFG_STATUS)))
    else (cfgRecs b, (s.put Fld.CFG_STATUS_USER 1).put Fld.CFG_STATUS_GENERATION (leAt b 16 4))

/-- Step 7 (R359, R366): both layers; true when a factory record was rejected. -/
def configApply (s : State) : State × Bool :=
  let (usr, s) := userLayer s
  (cfgItems (cfgRecs s.toll.factory) usr).foldl cfgTake (s, false)

/-! ### Mapping (R12) -/

/-- Tiles of the field channels, by channel, given the spares that are good; 0xFF none. -/
def mapField (bad : Nat → Bool) (cs spares : List Nat) : List Nat :=
  match cs with
  | [] => []
  | c :: t =>
    if !bad c then c :: mapField bad t spares
    else match spares with
      | p :: ps => p :: mapField bad t ps
      | [] => 0xFF :: mapField bad t []

/-- Tiles of the stream channels. -/
def mapStream (bad : Nat → Bool) (ns : List Nat) (spare : Bool) : List Nat :=
  match ns with
  | [] => []
  | n :: t =>
    if !bad (52 + n) then (52 + n) :: mapStream bad t spare
    else if spare then 60 :: mapStream bad t false
    else 0xFF :: mapStream bad t false

/-- Place the channels on tiles. Without the Ethernet PLL the stream channels are ABSENT (R359). -/
def mapTiles (s : State) (bad : Nat → Bool) (epll : Bool) : State :=
  let field := mapField bad (List.range 48) ([48, 49, 50, 51].filter (fun t => !bad t))
  let strm := if epll then mapStream bad (List.range 8) (!bad 60) else List.replicate 8 0xFF
  let m := field ++ strm
  let s := (List.range 56).foldl (fun s c =>
    let t := m.getD c 0xFF
    (s.put (Fld.CHAN_STATE_TILE c) t).put (Fld.CHAN_STATE_STATE c) (if t = 0xFF then chAbsent else chDisabled)) s
  (List.range 7).foldl (fun s k =>
    s.put (Fld.CHMAP_TILES k) (((List.range 8).map (fun i => m.getD (8 * k + i) 0xFF * 2 ^ (8 * i))).sum)) s

/-! ### SELFTEST_COMPLETE (R359) -/

/-- The failure that sends the device to DRYDOCK: step and detail. -/
def testFails (s : State) (t : SelfTest) : Option (Nat × Nat) :=
  let pll := [0, 1, 2, 5].find? (fun i => !t.plls.getLsbD i)
  let pages := (s.toll.repair.filter (fun e => e.kind == 3)).length
  if s.toll.rom then some (1, 0)
  else if t.step = 2 then some (2, t.detail.toNat)
  else match pll with
    | some i => some (3, i)
    | none =>
      if t.step = 4 then some (4, t.detail.toNat)
      else if t.step = 6 ∨ ! [8, 16, 32].contains t.dram.toNat then some (6, 1)
      else if 32 < (if t.mapBad then 0 else pages) + t.pages.length then some (6, 2)
      else if t.step = 7 ∨ (s.toll.factory ≠ [] ∧ cfgReason s.toll.factory (fwMajor s) ≠ 0) then some (7, t.detail.toNat)
      else none

/-- The storage ports' PLL does not lock: the port stays down (R359). -/
def spllLost (s : State) (n : Fin 4) : State :=
  if [drvIdentify, drvOnline].contains (drvState s n) then driveLinkLost s n else drvWidth s n 0

/-- The repair map applied: retired tiles, pages and lanes, rows; then what this test found. -/
def testRepairs (s : State) (t : SelfTest) : State :=
  let s := if t.mapBad then s.modToll (fun x => { x with repair := [], repairBoot := x.boot }) else s
  let map := s.toll.repair
  let mapped := map.filter (fun e => e.kind == 3)
  let out := (List.range 61).filter (fun i => t.tiles.getLsbD i || map.any (fun e => e.kind == 1 && e.unit == i))
  let s := { s with tilesOut := out, retired := mapped.map RepEnt.index, pinsSeen := 0 }
  let s := (s.put Fld.REPAIR_ENTRIES map.length).put Fld.REPAIR_TILES_RETIRED (map.filter (fun e => e.kind == 1)).length
  let s := (s.put Fld.DRAM_RAS_SPARES_FREE (32 - mapped.length)).put Fld.DRAM_RAS_RETIRED mapped.length
  let s := (map.filter (fun e => e.kind == 4 && decide (3 ≤ e.index))).foldl (fun s e =>
    let p : Fin 5 := Fin.ofNat 5 e.unit
    let mask := s.get (retiredFld p) ||| 2 ^ e.sub
    capPort (s.put (retiredFld p) mask) p (widthOf (fullWidth p - weight8 mask))) s
  let s := s.put Fld.TILE_FAIL_FAIL ((out.map (fun i => 2 ^ i)).sum)
  let s := (s.put Fld.SRAM_RESULT_REPAIRED t.rows.length).put Fld.SRAM_RESULT_FROM_MAP (map.filter (fun e => e.kind == 2)).length
  let s := t.rows.foldl (fun s r => repairAdd s 2 r.1.toNat r.2.1.toNat r.2.2.toNat) s
  let s := if t.mapBad then ((List.range 61).filter t.tiles.getLsbD).foldl (fun s i => repairAdd s 1 i 0 0) s else s
  let s := t.pages.foldl (fun s p => pageRetire s p.toNat) s
  let size := if t.dram = 8 then 1 else if t.dram = 16 then 2 else if t.dram = 32 then 3 else 0
  let s := (s.put Fld.DRAM_RESULT_SIZE size).put Fld.DRAM_RESULT_RATE t.rate.toNat
  let s := s.put Fld.DRAM_RESULT_RETIRED t.pages.length
  let s := if size = 0 then s else ({ s with dramGiB := t.dram.toNat } : State).dramSizes
  let s := s.modToll (fun x => { x with plls := t.plls.toNat, rings := t.rings.map (·.toNat), fullTest := false })
  let bad (i : Nat) : Bool := out.contains i
  let s := spareRegs (mapTiles s bad (t.plls.getLsbD 4))
  let s := (List.finRange 2).foldl (fun s (p : Fin 2) => if t.plls.getLsbD (6 + p) then s else tpDrop s p false) s
  if t.plls.getLsbD 3 then s else (List.finRange 4).foldl spllLost s

/-- Events 0x0002 and 0x0003. -/
def testLog (s : State) : State :=
  let s := thLog s 0xFE 0x0002 (leBytes 8 (regView s Reg.ST_SUMMARY) ++ leBytes 8 (regView s Reg.SRAM_RESULT)
    ++ leBytes 8 (regView s Reg.DRAM_RESULT) ++ leBytes 8 (regView s Reg.TILE_FAIL))
  thLog s 0xFE 0x0003 ((List.range 8).map (fun i => leBytes 4 (s.toll.rings.getD i 0))).flatten

/-- DRYDOCK is entered (R359, R360): drives are not started, and a trial that reaches DRYDOCK has succeeded (R378). -/
def drydockEnter (s : State) (step detail : Nat) : State :=
  let s := (s.put Fld.ST_SUMMARY_FAIL_STEP step).put Fld.ST_SUMMARY_FAIL_CODE (step * 2 ^ 12 + detail)
  let s := s.modToll (fun t => { t with blink := 0, rom := t.rom && step == 1 })
  let s := (List.finRange 4).foldl (fun s (n : Fin 4) =>
    if drvState s n = drvAbsent then s
    else ((drvWidth (drvPerst (driveLost s n) n true) n 0).put (Fld.DRIVE_STATE_STATE n) drvAbsent).put (Fld.DRIVE_CAP_SEGMENTS n) 0) s
  let s := (((setDev (if s.toll.rom then s else testLog s) devDrydock).emit .fieldOff).emit (.spRef false)).emit (.lanes true false)
  if s.toll.rom then s else trialDone s

/-- SELFTEST_COMPLETE: not while a monitor is below WARN_MV (R350), and never in the factory test mode, which does not reach READY
(R410). A record of the factory layer that is refused sends the device to DRYDOCK (R359, R368). The towpath's election follows, in which
a device in DRYDOCK takes no part (R393). -/
def selftestComplete (s : State) (t : SelfTest) : State :=
  if s.devState ≠ devSelftest ∨ s.toll.start ≠ .none ∨ s.toll.testMode ∨ anyBelow s then s
  else tpUpdate (match testFails s t with
    | some (1, d) => drydockEnter s 1 d
    | some (k, d) => drydockEnter ((testRepairs s t).put Fld.ST_SUMMARY_DURATION_MS t.ms.toNat) k d
    | none =>
      let (s, dead) := configApply ((testRepairs s t).put Fld.ST_SUMMARY_DURATION_MS t.ms.toNat)
      if dead then drydockEnter s 7 t.detail.toNat
      else
        let s := icResense s
        let pass := t.plls == 0xFF && t.tiles == 0 && !t.mapBad && s.get Fld.CFG_STATUS_USER != 2
        let s := s.putB Fld.ST_SUMMARY_PASS pass
        if s.toll.bootmode = 2 then drydockEnter s 0 0
        else ((testLog s).emit (.spRef true)).modToll (fun x => { x with start := .waitReady }))

/-! ### READY and autostart (R366) -/

/-- One AUTOSTART record. -/
def autoTake (s : State) (a : AutoRec) : State :=
  if h : a.chan < 56 then
    let c : Fin 56 := ⟨a.chan, h⟩
    let s := if a.enable && enableOk s c then chanEnabled s c else s
    let s := if a.bind && chState s c == chEnabled && strmState s a.stream == strmOpen then
        s.modCh c (fun x => { x with chamber := { x.chamber with bind := some a.stream } }) else s
    if a.route then
      (cmdPush s c (routeEntry s .autostart c a.addr.toNat a.limit)).getD (s.raise (Fld.ROUTE_EVT_KS_REFUSED c))
    else s
  else s

/-- The AUTOSTART records at the first edge after READY, in ascending channel order. -/
def autostart (s : State) : State :=
  let s := s.modToll (fun t => { t with start := .none })
  (List.range 56).foldl (fun s c => (s.toll.auto.filter (fun a => a.chan == c)).foldl autoTake s) s

/-- READY is entered: lanes and stream pins are active, and the field pins, inputs until now, take the levels of their modes (R411). -/
def readyEnter (s : State) : State :=
  let s := (setDev (s.modToll (fun t => { t with start := .waitAuto })) devReady).emit (.lanes true true)
  (s.emit (.stationPins true)).eachCh (fun s c =>
    if modeOf s c = modeNone then s else drivePins s c)

/-- A tick edge in start-up: READY, which a supply below WARN delays (R18), or the edge after it. -/
def startEdge (s : State) : State :=
  match s.toll.start with
  | .none => s
  | .waitReady => if anyBelow s then s else trialDone (readyEnter s)
  | .waitAuto => if s.serving then autostart s else s.modToll (fun t => { t with start := .none })

end Sys2Proof.Machine
end

