-- ==== Sys2Proof/Machine/TickEdge.lean ====
section
/-!
DEFINITION. The tick edge (02, R35): everything that happens at it, in order. Sub-tick swaps (R37).
-/
namespace Sys2Proof.Machine

/-- Every lock chamber swaps at the edge that ends tick `ended`. -/
def swapsAtEdge (s : State) (ended : Nat) : State :=
  let (w, b) := s.basin.swap 0xFF ended 0
  let was := s.basin.weir
  let s := { s with basin := b }
  let s := if w && !was then s.raise Fld.POUND_EVT_WEIR else s
  s.eachCh (fun s c =>
    if chLocks s c then (chSwap s c ended 0).modCh c (fun x => { x with chamber := { x.chamber with swaps := 1 } }) else s)

/-- The course of the tick that begins opens. Of the courses before it, those of the tick that ended and of older ones, each
but the newest is late if its chambers have not drained (R246). -/
def courseOpen (s : State) : State :=
  let old := s.courses.take (s.courses.length - 1)
  let new := s.courses.drop (s.courses.length - 1)
  let late (c : Course) : Course := { c with late := c.late || courseOwed s c.tick || !basinDrained s c.tick }
  { s with courses := old.map late ++ new ++ [⟨s.tick, s.tb.edgeNs, false, [], []⟩] }

/-- What the edge does beside the swap in the same KCLK: events, the partner tables, summary items. -/
def channelsAtEdge (s : State) : State :=
  s.eachCh (fun s c =>
    let s := swapEvents s c 5
    let s := if chState s c = chAbsent then s else partnersAtEdge s c
    bmTick (timerAtEdge s c) c)

/-- The threads' counters restart and YIELDED threads run (R43, R45); a BUDGET trap not yet taken stays owed (R155), but not by a
thread that does not run. -/
def threadsAtEdge (s : State) : State :=
  s.eachCh (fun s c => s.eachTh c (fun s c t =>
    let owed := budgetMet s c t && !((s.th c t).st == .stopped || (s.th c t).st == .halted)
    let s := s.put (Fld.THREAD_BUDGET_USED_LAST c t) (s.th c t).used
    s.modTh c t (fun th =>
      { th with used := 0, yielded := false, trapped := false, owed := owed, slack := if th.slack = some th.used then some 0 else none
                st := if th.st = .yielded then .run else th.st
                woken := if th.woken = some .yielded then none else th.woken })))

/-! ### HALT (R75) -/

/-- Bytes a long operation is to move (R81). -/
def longBytes (s : State) (e : WorkEntry) : Nat :=
  if e.opcode = opReadback then e.arg 48 4
  else if e.opcode = opSnapshot then (snapImage s (e.arg 24 6) (e.arg 32 4)).length
  else e.arg 32 4

/-- What a long operation or snapshot holds is given up with its entry; one that has not started carries 0 and its step count (R81). -/
def longAbandon (s : State) (e : WorkEntry) : State :=
  let s := if e.opcode = opFirmwareStage then s.modToll (fun t => { t with fwBusy := none })
    else if e.opcode = opConfigWrite then s.modToll (fun t => { t with cfgBusy := false })
    else if e.opcode = opSnapshot then s.modPlace (fun p => { p with snaps := p.snaps.filter (fun x => x.1 != e.serial) })
    else s
  if e.stage = .queued then longRefuse s e St.abandoned (longBytes s e) else completeLong s e St.abandoned

/-- At the edge after HALT: routes, engines, movers and threads stop, the trigger outputs are low. -/
def haltStops (s : State) : State :=
  if s.halting then
    let s := s.eachCh (fun s c =>
      let s := routeStop s c .deviceHalt
      if chLocks s c then threadsStop (bmStop (engineStop s c) c) c else s)
    trigLow s
  else s

/-- Entries still running complete with ABANDONED, a long operation at the end of its step in progress (R75); a FENCE waits for
those in its scope (R83). -/
def haltAbandons (s : State) : State :=
  if s.halting then
    let s := (dispatched s).foldl (fun s e =>
      if e.opcode = opFence then s
      else if opLong e.opcode then
        (if e.stage = .running && !e.idle then updEntry s { e with last := true } else longAbandon s e)
      else complete s e St.abandoned []) s
    placeSettle { s with halting := false }
  else s

/-! ### The edge -/

/-- READY and RUN: a route enters the running state at the edge at which it starts, and one in ADMIT counts as running (R18, R107). -/
def runReady (s : State) : State :=
  if s.devState = devReady ∧ routesBegun s then setDev s devRun
  else if s.devState = devRun ∧ !routesBusy s then setDev s devReady
  else s

/-- The device state at an edge: RUN and READY, and the end of BRACE (R18). -/
def stateAtEdge (s : State) : State := if haltDue s then s else braceExit (runReady s)

/-- Hold-off intervals counted in ticks (R324). -/
def holdTicks (s : State) : State :=
  s.modIc (fun ic => { ic with ticks := ic.ticks.filterMap (fun g => if g.2 ≤ 1 then none else some (g.1, g.2 - 1)) })

/-- Steps 1 to 3 of R35, and what the other chapters lay in the KCLK of the swap. -/
def edgeSwap (s : State) : State :=
  let ended := s.tick
  let s := courseOpen (strmTrigs (faultTick (tbEdge s)) ended)
  let s := channelsAtEdge (stepAtEdge (swapsAtEdge s ended))
  tpSignalsSend (keystonesInstalled (ksEdge (sigEdge s)))

/-- Channel sequences. -/
def edgeChans (s : State) : State :=
  let s := s.eachCh stopEdge
  let s := s.eachCh reseatEdge
  startEdge (s.eachCh enableEdge)

/-- What the device does at an edge before the writes that wait for it, with those of the W1C bits they may clear that it
sets (R7). -/
def edgeDevice (s : State) : State × List Fld :=
  keepSet (edgeClears s) (fun s => edgeChans (edgeSwap s)) (s, [])

/-- The writes that wait for the edge, and the streams. -/
def edgeApply (l : List Fld) (x : State × List Fld) : State := placeEdge (strmsEdge (edgeWrites l x))

/-- The accounting of the tick that ended, then steps 4 and 5 of R35: what these charge belongs to the tick that begins (R109). -/
def edgeRoutes (s : State) : State :=
  let s := (haltStops (s.eachCh seqEdgeUsed)).eachCh (fun s c => if s.frozen c then s else seqEdge s c)
  let s := (haltAbandons s).eachCh seqEdgeWait
  wqTickPolls (longAtEdge (threadsAtEdge (s.eachCh (fun s c => recvPump 64 s c))))

/-- TICK_EDGE (R35). In DRYDOCK the tick is counted, and committed writes to the pages that answer are applied. -/
def tickEdge (s : State) : State :=
  let s := holdTicks s
  if s.devState = devDrydock then shadowsEdge (edgeClears s) (tbEdge s, [])
  else orderlyCheck (stateAtEdge (edgeRoutes (edgeApply (edgeClears s) (edgeDevice s))))

/-- SUB_TICK_SWAP (R37): swap point `j`, the next one of the channel in this tick. -/
def subTickSwap (s : State) (c : Fin 56) (j : Nat) : State :=
  let rate := lockRate s c
  let at_ := s.tb.edgeNs + j * s.tb.period / rate
  if chLocks s c ∧ j = (s.ch c).chamber.swaps ∧ j < rate ∧ s.canReach at_ then
    let s := s.advanceTo at_
    let s := (chSwap s c s.tick j).modCh c (fun x => { x with chamber := { x.chamber with swaps := j + 1 } })
    bmSubSwap (swapEvents s c 6) c
  else s

end Sys2Proof.Machine
end

