-- ==== Sys2Proof/Machine/Drains.lean ====
section
/-!
DEFINITION. Drain slots, the ends of drains, the Basin chamber's drain (02, R40; 10, R237–R243); what leaves a transmit FIFO
(07, R188, R189, R181); hold-off intervals that end (14, R324).
-/
namespace Sys2Proof.Machine

/-- Credits a half needs (R242). -/
def creditsFor (h : ChHalf) : Nat := (h.used + 511) / 512

/-- A drain asks for credits and is refused. -/
def drainRefused (s : State) (c i : Nat) (ch : Chamber) : State × Chamber :=
  let s := (s.raise Fld.POUND_EVT_REFUSED).bumpWrap Fld.POUND_STATS_REFUSALS 1
  let s := if c < 56 then (s.raise (Fld.CH_EVT_REFUSED c)).bumpWrap (Fld.CH_STATS0_REFUSED c) 1 else s
  (s, ch.modHalf i (fun h => { h with refused := true }))

/-- Half `i` of a chamber asks for its credits, and drains when it gets them; an empty half needs none. -/
def drainAsk (s : State) (c i : Nat) (ch : Chamber) : State × Chamber :=
  let h := ch.half i
  if h.recs.isEmpty then drainStart s c i ch 0
  else match poundGrant s c (creditsFor h) with
    | some p => drainStart s c i ch p
    | none => drainRefused s c i ch

/-- The oldest FULL half of a channel asks for its credits, or waits for the copies it still lacks (R238). -/
def drainTry (s : State) (c : Fin 56) : State :=
  let ch := (s.ch c).chamber
  match ch.oldestFull with
  | none => s
  | some k =>
    if ch.draining.isSome then s
    else if ch.copies.any (fun x => x.half == k) then s.modCh c (fun x => { x with chamber := { x.chamber with due := true } })
    else
      let (s, ch) := drainAsk s c k { ch with due := false }
      s.modCh c (fun x => { x with chamber := ch })

/-- Entry `i` of the active schedule has not been served in this tick, and the swap it drains has come (R40). -/
def slotDue (s : State) (i : Nat) : Bool :=
  match s.tb.active[i]? with
  | some w =>
    if h : lsChan w < 56 then
      let c : Fin 56 := ⟨lsChan w, h⟩
      !s.tb.served.contains i && chLocks s c && decide (lsSub w < (s.ch c).chamber.swaps)
    else false
  | none => false

/-- The KCLK after the edge in which an entry of the active schedule asks the pound: at its OFFSET_NS, and not before 12 ns after
the swap it drains (R40). KCLK is taken to rise at the edge. DESIGN CHOICE (log 143). -/
def slotKclk (s : State) (w : Word) : Nat :=
  let swap := lsSub w * s.tb.period / lockRate s (lsChan w) + 12
  (max (lsOff w) swap * 4 + 4) / 5

/-- An earlier entry that asks in the same KCLK is due: it is served first (R40, R242). -/
def slotBefore (s : State) (i : Nat) (w : Word) : Bool :=
  (List.range i).any (fun j => slotDue s j && slotKclk s (s.tb.active.getD j 0) == slotKclk s w)

/-- DRAIN_SLOT: entry `i` of the active schedule, due once in a tick, after its swap, at its OFFSET_NS and after the entries
before it that ask in the same KCLK (R40, R242). -/
def drainSlot (s : State) (i : Nat) : State :=
  match s.tb.active[i]? with
  | none => s
  | some w =>
    if h : lsChan w < 56 then
      let at_ := s.tb.edgeNs + lsOff w
      if slotDue s i ∧ !slotBefore s i w ∧ s.canReach at_ then
        drainTry ((s.advanceTo at_).modTb (fun t => { t with served := i :: t.served })) ⟨lsChan w, h⟩
      else s
    else s

/-- COMMIT_COPY_DONE (R235, R238): a half whose slot has passed drains once its last copy is complete. -/
def copyEnd (s : State) (c : Fin 56) (t : Fin 8) : State :=
  let s := copyDone s c t
  if (s.ch c).chamber.due then drainTry s c else s

/-- DRAIN_END (R237, R240): the half's last byte is in the pound. -/
def drainDone (s : State) (c : Fin 56) : State :=
  let ch := (s.ch c).chamber
  match ch.draining with
  | none => s
  | some i =>
    let s := (fillCredits s c (ch.half i)).bumpWrap (Fld.CH_STATS0_DRAINS c) 1
    let s := if ch.weir && ch.weirGap.isSome then s.bumpWrap (Fld.CH_STATS1_GAPS c) 1 else s
    reseatCheck (stopCheck (s.modCh c (fun x => { x with chamber := drainEnd x.chamber i c })) c) c

/-- BASIN_CHAMBER_DRAIN (R242): the whole drain of the Basin chamber's FULL half. -/
def basinDrain (s : State) : State :=
  match s.basin.oldestFull with
  | none => s
  | some i =>
    let (s, b) := drainAsk s 0xFF i s.basin
    if (b.half i).st = .draining then
      let s := fillCredits s 0xFF (b.half i)
      { s with basin := drainEnd b i 0xFF }
    else { s with basin := b }

/-- TX_ITEM_SENT on a field channel (R100, R188): not in restricted operation, which sends ACK bits only (R178). What a LIN commander
sends is its header with the item's response; a UART or CAN item goes out with its bytes. A LIN responder sends only the item that
answers a header. -/
def txItemSent (s : State) (c : Fin 56) : State :=
  let m := modeOf s c
  if c.val < 48 ∧ engineOf s c = engOn ∧ (m = modeCan ∨ m = modeLin ∨ m = modeUart) ∧ !s.frozen c
      ∧ !(m == modeCan && s.isSet (Fld.CAN_CFG_RESTRICTED c)) then
    let answer := decide (m = modeLin) && decide (s.get (Fld.LIN_CFG_ROLE c) = 1)
    if answer && !(s.ch c).bus.linSend then s else
    let s := s.modBus c (fun b => { b with linSend := false })
    match txSent s c with
    | (some b, s) => txFeed 31 (if answer then s else if m = modeLin then linCommand s c b
        else s.emit (.busTx c (if m = modeUart then (b.drop 16).take (txLen b) else b))) c
    | (none, s) => s
  else s

/-- HOLDOFF_EXPIRE (R324): a group's interval ends; one counted in ticks ends when its ticks have passed. -/
def holdoffExpire (s : State) (g : Nat) : State :=
  if SMap.get 0 s.ic.ticks g = 0 then s.clear (Fld.GRP_HOLDING g) else s

/-- The step of a running long operation. -/
def longStepOf (s : State) (e : WorkEntry) (data : HostRd) : State :=
  if e.opcode = opKeeperLoad then
    if h : e.chan < 56 then keeperLoadStep s ⟨e.chan, h⟩ data else s
  else if e.opcode = opReadback then readbackStep s e data
  else if e.opcode = opSnapshot then snapshotStep s e
  else if e.opcode = opConfigWrite then cfgWriteStep s e data
  else fwStageStep s e data

/-- One step of a long operation (R81): the running entry with a dispatch number. One that HALT found in its step is abandoned
when the step has been done and more remain (R75). -/
def longStep (s : State) (serial : Nat) (data : HostRd) : State :=
  match (dispatched s).find? (fun e => e.serial == serial && e.stage = .running && opLong e.opcode) with
  | none => s
  | some e =>
    let s := longStepOf s e data
    match (dispatched s).find? (fun x => x.serial == serial) with
    | some x => if x.last && decide (e.done < x.done) then longAbandon s x else s
    | none => s

/-- A gPTP message (R228): a pair gives the servo a measurement on the channel that TB_CTRL names while asCapable: what the receive
timestamp (R221) is ahead of the master's time and the link delay. -/
def ptpMessage (s : State) (c : Fin 56) (m : PtpMsg) : State :=
  match m with
  | .syncPair sfd origin corr =>
    if 48 ≤ c.val ∧ s.get (Fld.PTP_CFG_ROLE c) = 1 ∧ s.get (Fld.ETH_STATUS_PTP c) = 2 ∧ s.get Fld.TB_CTRL_SRC_CHAN = c - 48 then
      servoMeasure s 2 ((ethStamp s c sfd.toNat : Int) - origin.toNat - corr.toInt - (s.eth c).delay.getD 0) else s
  | .pdelayReq sfd => ptpAnswer s c sfd.toNat
  | .pdelay sfd t2 t3 r => ptpDelay s c sfd.toNat t2.toNat t3.toNat r.toInt
  | .other => s

/-- A value with a field of it replaced. -/
def withField (v : Nat) (f : Fld) (x : Nat) : Nat := v - bf v f.lo f.w * 2 ^ f.lo + x * 2 ^ f.lo

/-- HOST_LINK_DOWN (R326, R338): link down in D0 asserts the host port's pin. -/
def hostDown (s : State) : State :=
  let s := if s.host.link && !s.host.d3hot then errorPin s pinHost 0x02 else s
  (hostLinkDown s).put Fld.LINK_STATE_HOST_WIDTH 0

/-- HOST_LINK_UP (R358, R348): the host port has trained with a root port that offers `offer` lanes. -/
def hostTrained (s : State) (offer : Nat) : State :=
  if trainWidth s 0 offer = 0 then s else (hostLinkUp s).put Fld.LINK_STATE_HOST_WIDTH (trainWidth s 0 offer)

/-- A CH_COMMIT word with its SRC field given. -/
def withSrc (w src : Nat) : Nat := w - bf w 14 2 * 2 ^ 14 + src * 2 ^ 14

/-- UNKNOWN_CMD (R370): a write of MB_CMD with GO and an opcode that R371 does not list. -/
def unknownCmd (s : State) (v : Word) : State :=
  let op := bf v.toNat 0 16
  if 1 ≤ op ∧ op ≤ 0x10 then s else hostWrite64 s Reg.MB_CMD (withField v.toNat Fld.MB_CMD_GO 1)

/-- TP_HELLO_TIMEOUT (R386): three HELLO periods without a HELLO. -/
def tpHelloLost (s : State) (p : Fin 2) : State := if tpJoined s p then tpDrop s p true else s

/-- UNMAPPED_ACCESS (R395): to an address that nothing owns. -/
def unmappedAccess (s : State) (a : Nat) (write : Bool) : State :=
  if barRegion a = .unmapped then
    let s := unmappedHit s
    if write then s else s.answer 0
  else s

end Sys2Proof.Machine
end

