-- ==== Sys2Proof/Machine/CmdBarge.lean ====
section
/-!
DEFINITION. Commands: the barge mover (08).
-/
namespace Sys2Proof.Machine

/-- BM_ARM (R210). -/
def execBmArm (c : Fin 56) (v : Word) (s : State) : Host.Outcome State Fault Refusal :=
  done (hostWrite64 s (Reg.BM_CTRL c) (withField v.toNat (Fld.BM_CTRL_ARM c) 1))

/-- BM_DISARM (R209). -/
def execBmDisarm (c : Fin 56) (v : Word) (s : State) : Host.Outcome State Fault Refusal :=
  done (hostWrite64 s (Reg.BM_CTRL c) (withField v.toNat (Fld.BM_CTRL_DISARM c) 1))

/-- BM_SHADOW_WRITE (R209): SH_PROG, SH_BA0 to SH_BA3 or SH_CNT. -/
def execBmShadowWrite (c : Fin 56) (r : Fin 6) (v : Word) (s : State) : Host.Outcome State Fault Refusal :=
  done (hostWrite64 s (Reg.SH_PROG c + 8 * r) v.toNat)

/-- BM_KICK (R203). -/
def execBmKick (c : Fin 56) (s : State) : Host.Outcome State Fault Refusal :=
  done (hostWrite64 s (Reg.BM_CMD c) 1)

/-- BM_ABORT (R211). -/
def execBmAbort (c : Fin 56) (s : State) : Host.Outcome State Fault Refusal :=
  done (hostWrite64 s (Reg.BM_CMD c) 2)

/-- BM_CLEAR (R212). -/
def execBmClear (c : Fin 56) (s : State) : Host.Outcome State Fault Refusal :=
  done (hostWrite64 s (Reg.BM_CMD c) 4)

/-- HANDOVER (R210). -/
def execHandover (c : Fin 56) (s : State) : Host.Outcome State Fault Refusal :=
  done (bmHandoverDue s c)

/-- BARGE_MOVE (R201). -/
def execBargeMove (c : Fin 56) (s : State) : Host.Outcome State Fault Refusal :=
  done (bmMove s c)

/-- BARGE_MOVE_DONE (R208): what the host returned, and how the transfer ended. -/
def execBargeMoveDone (c : Fin 56) (data : List Byte) (e : MoveEnd) (s : State) : Host.Outcome State Fault Refusal :=
  done (bmMoveDone s c data e.ok (e.ecc.map BitVec.toNat))

/-- BARGE_HOST_TIMEOUT (R215): `n` bytes had been moved. -/
def execBargeHostTimeout (c : Fin 56) (data : List Byte) (n : Nat) (s : State) : Host.Outcome State Fault Refusal :=
  done (bmHostTimeout s c data n)

/-- BARGE_LOOP (R202). -/
def execBargeLoop (c : Fin 56) (s : State) : Host.Outcome State Fault Refusal :=
  done (bmLoop s c)

/-- BARGE_WAIT (R203). -/
def execBargeWait (c : Fin 56) (s : State) : Host.Outcome State Fault Refusal :=
  done (bmWait s c)

/-- BARGE_WAIT_END (R203). -/
def execBargeWaitEnd (c : Fin 56) (s : State) : Host.Outcome State Fault Refusal :=
  done (bmWaitEnd s c)

/-- BARGE_SIGNAL (R204). -/
def execBargeSignal (c : Fin 56) (s : State) : Host.Outcome State Fault Refusal :=
  done (bmSignal s c)

/-- BARGE_SIGNAL_FIRE (R213). -/
def execBargeSignalFire (c : Fin 56) (s : State) : Host.Outcome State Fault Refusal :=
  done (bmSignalFire s c)

/-- BARGE_FENCE (R205). -/
def execBargeFence (c : Fin 56) (s : State) : Host.Outcome State Fault Refusal :=
  done (bmFence s c)

/-- BARGE_FENCE_DONE (R214). -/
def execBargeFenceDone (c : Fin 56) (ok : Bool) (s : State) : Host.Outcome State Fault Refusal :=
  done (bmFenceDone s c ok)

/-- BARGE_SETL (R206). -/
def execBargeSetl (c : Fin 56) (s : State) : Host.Outcome State Fault Refusal :=
  done (bmSetl s c)

/-- BARGE_SETH (R206). -/
def execBargeSeth (c : Fin 56) (s : State) : Host.Outcome State Fault Refusal :=
  done (bmSeth s c)

/-- BARGE_ADD (R206). -/
def execBargeAdd (c : Fin 56) (s : State) : Host.Outcome State Fault Refusal :=
  done (bmAdd s c)

/-- BARGE_MOV (R206). -/
def execBargeMov (c : Fin 56) (s : State) : Host.Outcome State Fault Refusal :=
  done (bmMov s c)

/-- BARGE_SWAP (R206). -/
def execBargeSwap (c : Fin 56) (s : State) : Host.Outcome State Fault Refusal :=
  done (bmSwap s c)

/-- BARGE_RESTORE (R206). -/
def execBargeRestore (c : Fin 56) (s : State) : Host.Outcome State Fault Refusal :=
  done (bmRestore s c)

/-- BARGE_NOP (R207). -/
def execBargeNop (c : Fin 56) (s : State) : Host.Outcome State Fault Refusal :=
  done (bmNop s c)

/-- BARGE_STOP (R207). -/
def execBargeStop (c : Fin 56) (s : State) : Host.Outcome State Fault Refusal :=
  done (bmStopIns s c)

/-- BARGE_UNDEFINED (R207). -/
def execBargeUndefined (c : Fin 56) (s : State) : Host.Outcome State Fault Refusal :=
  done (bmUndefined s c)

end Sys2Proof.Machine
end

