-- ==== Sys2Proof/Machine/CmdBus.lean ====
section
/-!
DEFINITION. Commands: the bus engines of the field channels (07) and the stream channels (09), control and sense codes (04, 07).
-/
namespace Sys2Proof.Machine

/-- BE_MODE_WRITE (R172). -/
def execBeModeWrite (c : Fin 56) (v : Word) (s : State) : Host.Outcome State Fault Refusal :=
  done (hostWrite64 s (Reg.BE_MODE c) v.toNat)

/-- CAN_FRAME (R178). -/
def execCanFrame (c : Fin 56) (f : CanFrame) (ts : Word) (s : State) : Host.Outcome State Fault Refusal :=
  done (received (canFrame (fencedItem s c (some ts.toNat)) c f ts.toNat) c)

/-- CAN_PROTOCOL_ERROR (R178). -/
def execCanProtocolError (c : Fin 56) (kind : Fin 5) (tx primary : Bool) (s : State) : Host.Outcome State Fault Refusal :=
  done (txError (canError s c kind tx primary) c tx)

/-- CAN_RECOVERY_DONE (R180). -/
def execCanRecoveryDone (c : Fin 56) (s : State) : Host.Outcome State Fault Refusal :=
  done (canRecovered s c)

/-- LIN_HEADER (R181). -/
def execLinHeader (c : Fin 56) (h : LinHead) (ts : Word) (s : State) : Host.Outcome State Fault Refusal :=
  done (linHeader s c h.pid.toNat h.brk.toNat ts.toNat)

/-- LIN_FRAME (R181). -/
def execLinFrame (c : Fin 56) (f : LinFrame) (ts : Word) (s : State) : Host.Outcome State Fault Refusal :=
  done (received (linFrame (linTxError (fencedItem s c (some ts.toNat)) c f) c f ts.toNat) c)

/-- LIN_RESPONSE_TIMEOUT (R177). -/
def execLinResponseTimeout (c : Fin 56) (pid : Byte) (rate : Half) (s : State) : Host.Outcome State Fault Refusal :=
  done (received (linTimeout s c pid.toNat rate.toNat) c)

/-- SENT_MESSAGE (R182). -/
def execSentMessage (c : Fin 56) (m : SentMsg) (ts : Word) (s : State) : Host.Outcome State Fault Refusal :=
  done (received (sentMessage (fencedItem s c (some ts.toNat)) c m ts.toNat) c)

/-- PSI5_FRAME (R183). -/
def execPsi5Frame (c : Fin 56) (data : Long) (ts : Word) (check : BitVec 3) (manchErr : Bool) (s : State) : Host.Outcome State Fault Refusal :=
  done (received (psi5Frame (fencedItem s c (some ts.toNat)) c data.toNat ts.toNat check.toNat manchErr) c)

/-- PSI5_SYNC (R183). -/
def execPsi5Sync (c : Fin 56) (s : State) : Host.Outcome State Fault Refusal :=
  done (psi5Sync s c)

/-- PSI5_SYNC_FALL (R183). -/
def execPsi5SyncFall (c : Fin 56) (s : State) : Host.Outcome State Fault Refusal :=
  done (psi5SyncFall s c)

/-- UART_CHARACTER (R177). -/
def execUartCharacter (c : Fin 56) (ch : BitVec 9) (ts : Word) (frErr paErr : Bool) (s : State) : Host.Outcome State Fault Refusal :=
  done (match uartExchange s c ch.toNat (frErr || paErr) with
    | some s => s
    | none => received (uartChar s c ch.toNat ts.toNat frErr paErr) c)

/-- UART_ITEM_END (R177). -/
def execUartItemEnd (c : Fin 56) (s : State) : Host.Outcome State Fault Refusal :=
  done (received (uartEnd (fencedItem s c none) c 16) c)

/-- DIGITAL_EDGE (R186). -/
def execDigitalEdge (c : Fin 56) (n : Fin 4) (level : Bool) (ts : Word) (s : State) : Host.Outcome State Fault Refusal :=
  done (received (digitalEdge (fencedItem s c (some ts.toNat)) c n level ts.toNat) c)

/-- CAPTURE_EDGE (R186). -/
def execCaptureEdge (c : Fin 56) (n : Fin 4) (level : Bool) (ts : Word) (s : State) : Host.Outcome State Fault Refusal :=
  done (captureEdge s c n level ts.toNat)

/-- PWM_PERIOD (R186). -/
def execPwmPeriod (c : Fin 56) (n : Fin 4) (s : State) : Host.Outcome State Fault Refusal :=
  done (pwmPeriod s c n)

/-- TX_ITEM_SENT (R100). -/
def execTxItemSent (c : Fin 56) (s : State) : Host.Outcome State Fault Refusal :=
  done (txItemSent s c)

/-- SPI_TRANSFER_DONE (R189). -/
def execSpiTransferDone (c : Fin 56) (bs : List Byte) (s : State) : Host.Outcome State Fault Refusal :=
  done (spiDone s c bs)

/-- I2C_TRANSFER_DONE (R184). -/
def execI2cTransferDone (c : Fin 56) (addr : BitVec 7) (bs : List Byte) (s : State) : Host.Outcome State Fault Refusal :=
  done (received (i2cDone s c addr.toNat bs) c)

/-- I2C_STRETCH_TIMEOUT (R184). -/
def execI2cStretchTimeout (c : Fin 56) (left : Half) (s : State) : Host.Outcome State Fault Refusal :=
  done (i2cStretch s c left.toNat)

/-- I2C_ARB_LOST (R184). -/
def execI2cArbLost (c : Fin 56) (left : Half) (s : State) : Host.Outcome State Fault Refusal :=
  done (i2cArb s c left.toNat)

/-- I2C_NACK (R184). -/
def execI2cNack (c : Fin 56) (ofAddr : Bool) (addr : BitVec 7) (left : Half) (s : State) : Host.Outcome State Fault Refusal :=
  done (received (i2cNack s c ofAddr addr.toNat left.toNat) c)

/-- PIN_STUCK (R338). -/
def execPinStuck (c : Fin 56) (s : State) : Host.Outcome State Fault Refusal :=
  done (errorPin s c.val Pin.pinStuck)

/-- BUS_ON_LISTEN (R190). -/
def execBusOnListen (c : Fin 56) (s : State) : Host.Outcome State Fault Refusal :=
  done (ctlOnListen s c)

/-- BUS_ON (R190). -/
def execBusOn (c : Fin 56) (s : State) : Host.Outcome State Fault Refusal :=
  done (ctlOn s c)

/-- BUS_OFF (R190). -/
def execBusOff (c : Fin 56) (s : State) : Host.Outcome State Fault Refusal :=
  done (ctlOff s c)

/-- SET_MODE (R190). -/
def execSetMode (c : Fin 56) (s : State) : Host.Outcome State Fault Refusal :=
  done (ctlSetMode s c)

/-- CLEAR_PARTNERS (R190). -/
def execClearPartners (c : Fin 56) (s : State) : Host.Outcome State Fault Refusal :=
  done (ctlClearPartners s c)

/-- PARTNER_SCAN (R190). -/
def execPartnerScan (c : Fin 56) (acks : BitVec 128) (s : State) : Host.Outcome State Fault Refusal :=
  done (ctlScan s c acks.toNat)

/-- CLEAR_COUNTERS (R190). -/
def execClearCounters (c : Fin 56) (s : State) : Host.Outcome State Fault Refusal :=
  done (ctlClearCounters s c)

/-- SET_CFG (R190). -/
def execSetCfg (c : Fin 56) (s : State) : Host.Outcome State Fault Refusal :=
  done (ctlSetCfg s c)

/-- CONTROL_CODE_UNDEFINED (R91). -/
def execControlCodeUndefined (c : Fin 56) (s : State) : Host.Outcome State Fault Refusal :=
  done (ctlUndefined s c)

/-- SENSE_COUNTERS (R191). -/
def execSenseCounters (c : Fin 56) (s : State) : Host.Outcome State Fault Refusal :=
  done (senseCounters s c)

/-- SENSE_BE_STATUS (R191). -/
def execSenseBeStatus (c : Fin 56) (s : State) : Host.Outcome State Fault Refusal :=
  done (senseStatus s c)

/-- SENSE_PARTNER_TABLE (R191). -/
def execSensePartnerTable (c : Fin 56) (s : State) : Host.Outcome State Fault Refusal :=
  done (sensePartners s c)

/-- SENSE_BUSENG_CONFIG (R191). -/
def execSenseBusengConfig (c : Fin 56) (s : State) : Host.Outcome State Fault Refusal :=
  done (senseConfig s c)

/-- SENSE_CODE_UNDEFINED (R91). -/
def execSenseCodeUndefined (c : Fin 56) (s : State) : Host.Outcome State Fault Refusal :=
  done (senseUndefined s c)

/-- ETH_FILTER_DECISION (R222). -/
def execEthFilterDecision (c : Fin 56) (sfd : Word) (h : List Byte) (s : State) : Host.Outcome State Fault Refusal :=
  done (ethDecide (fencedItem s c (some sfd.toNat)) c sfd.toNat h)

/-- ETH_PIECE_COMMIT (R223): bytes that have arrived since the last part. -/
def execEthPieceCommit (c : Fin 56) (p : EthPart) (s : State) : Host.Outcome State Fault Refusal :=
  done (ethPieceCommit s c p.data p.codeErr)

/-- ETH_FRAME_END (R223). -/
def execEthFrameEnd (c : Fin 56) (data : List Byte) (fcsErr codeErr : Bool) (s : State) : Host.Outcome State Fault Refusal :=
  done (received (ethFrameEnd s c data fcsErr codeErr) c)

/-- ETH_FRAME_SENT (R225). -/
def execEthFrameSent (x : SentFrame) (s : State) : Host.Outcome State Fault Refusal :=
  done (ethFrameSent s x.chan x.sfd.toNat)

/-- LINK_UP (R230). -/
def execLinkUp (c : Fin 56) (speed : Fin 6) (s : State) : Host.Outcome State Fault Refusal :=
  done (received (ethLinkUp s c speed) c)

/-- LINK_DOWN (R230). -/
def execLinkDown (c : Fin 56) (data : List Byte) (s : State) : Host.Outcome State Fault Refusal :=
  done (received (ethLinkDown s c data) c)

/-- PHY_INT (R219). -/
def execPhyInt (c : Fin 56) (s : State) : Host.Outcome State Fault Refusal :=
  done (ethPhyInt s c)

/-- MDIO_GO (R220). -/
def execMdioGo (c : Fin 56) (v : Word) (s : State) : Host.Outcome State Fault Refusal :=
  done (hostWrite64 s (Reg.MDIO_CMD c) (withField v.toNat (Fld.MDIO_CMD_GO c) 1))

/-- MDIO_DONE (R220). -/
def execMdioDone (c : Fin 56) (data : Half) (s : State) : Host.Outcome State Fault Refusal :=
  done (ethMdioDone s c data.toNat)

/-- PTP_SYNC_SEND (R228). -/
def execPtpSyncSend (c : Fin 56) (s : State) : Host.Outcome State Fault Refusal :=
  done (ptpSyncSend s c)

/-- PTP_PDELAY_SEND (R228). -/
def execPtpPdelaySend (c : Fin 56) (s : State) : Host.Outcome State Fault Refusal :=
  done (ptpPdelaySend s c)

/-- PTP_MESSAGE (R228). -/
def execPtpMessage (c : Fin 56) (m : PtpMsg) (s : State) : Host.Outcome State Fault Refusal :=
  done (ptpMessage s c m)

/-- TEL_DATAGRAM_SEND (R229). -/
def execTelDatagramSend (c : Fin 56) (s : State) : Host.Outcome State Fault Refusal :=
  done (telSend s c)

end Sys2Proof.Machine
end

