-- ==== Sys2Proof/Machine/CmdFaults.lean ====
section
/-!
DEFINITION. Commands: the interrupt controller (14), the fault collector, fences, reseats and repair (15).
-/
namespace Sys2Proof.Machine

/-- IC_DELIVERY (R321). -/
def execIcDelivery (t : BitVec 10) (s : State) : Host.Outcome State Fault Refusal :=
  done (icDeliver s t.toNat)

/-- HOLDOFF_EXPIRE (R324). -/
def execHoldoffExpire (g : BitVec 7) (s : State) : Host.Outcome State Fault Refusal :=
  done (holdoffExpire s g.toNat)

/-- HV_EOI_WRITE (R323). -/
def execHvEoiWrite (v : Fin 64) (x : Word) (s : State) : Host.Outcome State Fault Refusal :=
  done (hostWrite64 s (Reg.HV_EOI v) x.toNat)

/-- IC_SRC_SET (R318). -/
def execIcSrcSet (n : Fin 640) (s : State) : Host.Outcome State Fault Refusal :=
  done (hostWrite64 s (Reg.SRC n) (regView s (Reg.SRC n) % 2 ^ 32 + 2 ^ 37))

/-- IC_SRC_CLR (R318). -/
def execIcSrcClr (n : Fin 640) (s : State) : Host.Outcome State Fault Refusal :=
  done (hostWrite64 s (Reg.SRC n) (regView s (Reg.SRC n) % 2 ^ 32 + 2 ^ 38))

/-- ERROR_PIN_ASSERT (R340): with its code, whether it stays asserted, and the pins that assert with it. -/
def execErrorPinAssert (pin : Fin 64) (e : PinEvent) (s : State) : Host.Outcome State Fault Refusal :=
  done (pinAssert s (⟨pin, e.code, e.hold⟩ :: e.also))

/-- FAULT_ACK (R341). -/
def execFaultAck (v : Word) (s : State) : Host.Outcome State Fault Refusal :=
  done (hostWrite64 s Reg.FAULT_ACK v.toNat)

/-- FAULT_ESCALATION (R342): `bad` spare tiles fail the test of a reseat that follows. -/
def execFaultEscalation (bad : BitVec 3) (b : Boot) (s : State) : Host.Outcome State Fault Refusal :=
  done (orderlyCheck (faultEscalate s bad.toNat b))

/-- BRACE_COMMIT_TIMEOUT (R342). -/
def execBraceCommitTimeout (b : Boot) (s : State) : Host.Outcome State Fault Refusal :=
  done (braceTimeout s b)

/-- RESEAT_COPY_DONE (R345). -/
def execReseatCopyDone (c : Fin 56) (s : State) : Host.Outcome State Fault Refusal :=
  done (reseatCopied s c)

/-- RESEAT_RESUME (R345). -/
def execReseatResume (c : Fin 56) (s : State) : Host.Outcome State Fault Refusal :=
  done (hostResume (reseatResume s c) c)

/-- RESEAT_TIMEOUT (R345). -/
def execReseatTimeout (c : Fin 56) (s : State) : Host.Outcome State Fault Refusal :=
  done (reseatTimeout s c)

/-- SCRUB_READ (R337): the place and the syndrome of its word. -/
def execScrubRead (p : ScrubAt) (syn : Byte) (s : State) : Host.Outcome State Fault Refusal :=
  done (scrubRead s p syn.toNat)

/-- LANE_RETIRE (R348). -/
def execLaneRetire (p : Fin 15) (lane : Fin 8) (s : State) : Host.Outcome State Fault Refusal :=
  done (laneRetire s p lane)

end Sys2Proof.Machine
end

