-- ==== Sys2Proof/Machine/KeeperCode.lean ====
section
/-!
DEFINITION. The keeper's encodings the other way (05, R120–R142): which instructions have one, and the halfwords they are written
as, from the same tables of the spec as the decoder. The halfwords beside a thread's PC are what an instruction
command of the table finds in the code store.
-/
namespace Sys2Proof.Machine

/-- OP of a data register operation (R124). -/
def DOp.code (o : DOp) : Nat :=
  match o with
  | .mov => 0 | .add => 1 | .sub => 2 | .and => 3 | .or => 4 | .xor => 5 | .not => 6 | .neg => 7 | .shl => 8 | .shr => 9
  | .sar => 10 | .rol => 11 | .minu => 12 | .maxu => 13 | .swn => 14

/-- op of an accumulator register operation (R127). -/
def QOp.code (o : QOp) : Nat :=
  match o with
  | .mov => 0 | .add => 1 | .sub => 2 | .and => 3 | .or => 4 | .xor => 5 | .neg => 6 | .not => 7 | .mul => 8 | .mulu => 9
  | .mac => 10 | .macu => 11 | .shl => 12 | .shr => 13 | .sar => 14

/-- cond of a compare-and-branch (R135). -/
def Cond.code (c : Cond) : Nat :=
  match c with
  | .eq => 0 | .ne => 1 | .lt => 2 | .ge => 3 | .ltu => 4 | .geu => 5 | .any => 6 | .none => 7

/-- op of a two-operand memory form (R133). -/
def M2Op.code (o : M2Op) : Nat :=
  match o with
  | .mov => 0 | .add => 1 | .sub => 2 | .and => 3 | .or => 4 | .xor => 5 | .not => 6 | .neg => 7

/-- op of a three-operand memory form (R133). -/
def M3Op.code (o : M3Op) : Nat :=
  match o with
  | .add => 0 | .sub => 1 | .and => 2 | .or => 3 | .xor => 4 | .minu => 5 | .maxu => 6

/-- Bits 7–0 and the sub-group of an address register operation in group 0x7 (R126). -/
def AOp.code (o : AOp) (x y : Nat) : Nat :=
  match o with
  | .movW => x * 8 + y
  | .addW => 0x100 + x * 8 + y
  | .subW => 0x200 + x * 8 + y
  | .addxW => 0x400 + x * 8 + y
  | .movlB => 0x500 + x * 8 + y
  | .movhB => 0x540 + x * 8 + y
  | .movzW => 0x580 + x * 8 + y
  | .inshW => 0x5C0 + x * 8 + y
  | .movzLD => 0x600 + x * 8 + y
  | .movsLD => 0x620 + x * 8 + y
  | .movzLA => 0x640 + x * 8 + y
  | .movsLA => 0x660 + x * 8 + y
  | .movBQ => 0x680 + x * 8 + y
  | .movWQ => 0x6A0 + x * 8 + y
  | .shinL => 0x6C0 + x * 8 + y
  | .shoutL => 0x6E0 + x * 8 + y

/-- A form whose first register is an accumulator. -/
def AOp.onQ (o : AOp) : Bool :=
  match o with
  | .movzLD | .movsLD | .movzLA | .movsLA | .movBQ | .movWQ | .shinL | .shoutL => true
  | .movW | .addW | .subW | .addxW | .movlB | .movhB | .movzW | .inshW => false

/-- At most one of the operands uses X, X is zero where none does, and fits the field of a mode-4 operand (R132). -/
def mmOk (modes : List (BitVec 3)) (x lowOfFour : Nat) (three : Bool) : Bool :=
  let uses := modes.filter usesX
  decide (uses.length ≤ 1) && (decide (uses.length = 1) || x == 0) && (!uses.contains 4 || decide (x < lowOfFour))
    && !(three && (uses.contains 5 || uses.contains 6))

/-- The instruction has an encoding. -/
def KInstr.wf (i : KInstr) : Bool :=
  match i with
  | .areg op x _ => !op.onQ || decide (x.toNat < 4)
  | .bfx _ _ pos wm1 => decide (pos.toNat + wm1.toNat + 1 ≤ 32)
  | .bfi _ _ pos wm1 => decide (pos.toNat + wm1.toNat + 1 ≤ 32)
  | .mm2 _ dst src x => mmOk [dst.mode, src.mode] x.toNat 8 false
  | .mm3 _ dst a b x => mmOk [dst.mode, a.mode, b.mode] x.toNat 8 true
  | .cbP c cl _ _ _ => cl != .q && condOk c cl
  | .cb c cl r s _ => condOk c cl && (cl != .q || (decide (r.toNat < 4) && decide (s.toNat < 4)))
  | .waitev mask => mask != 0
  | _ => true

/-- The short form of an instruction. -/
def short (n : Nat) : Half × Half := (BitVec.ofNat 16 n, 0)

/-- The long form of an instruction. -/
def long (n : Nat) (h1 : Nat) : Half × Half := (BitVec.ofNat 16 n, BitVec.ofNat 16 h1)

/-- The halfwords an instruction is written as; the second is 0 for a short form. -/
def kEncode (i : KInstr) : Half × Half :=
  match i with
  | .dreg op d s => short (0x1000 + op.code * 0x100 + d.toNat * 32 + s.toNat * 4)
  | .dimm .movi d imm => short (0x2000 + d.toNat * 0x100 + imm.toNat)
  | .dimm .addi d imm => short (0x2800 + d.toNat * 0x100 + imm.toNat)
  | .dimm .andi d imm => short (0x3000 + d.toNat * 0x100 + imm.toNat)
  | .dimm .ori d imm => short (0x3800 + d.toNat * 0x100 + imm.toNat)
  | .dsh .shl d u => short (0x7B00 + d.toNat * 8 + u.toNat)
  | .dsh .shr d u => short (0x7B40 + d.toNat * 8 + u.toNat)
  | .dsh .sar d u => short (0x7B80 + d.toNat * 8 + u.toNat)
  | .dsh .rol d u => short (0x7BC0 + d.toNat * 8 + u.toNat)
  | .areg op x y => short (0x7000 + op.code x.toNat y.toNat)
  | .addqW x simm => short (0x7300 + x.toNat * 32 + simm.toNat)
  | .qreg op d s => short (0x7700 + op.code * 16 + d.toNat * 4 + s.toNat)
  | .qsh .shl q u => short (0x7900 + q.toNat * 32 + u.toNat)
  | .qsh .shr q u => short (0x7980 + q.toNat * 32 + u.toNat)
  | .qsh .sar q u => short (0x7A00 + q.toNat * 32 + u.toNat)
  | .qsh .ror q u => short (0x7A80 + q.toNat * 32 + u.toNat)
  | .addqL q simm => short (0x7C00 + simm.toNat * 4 + q.toNat)
  | .moviW n imm => long (0xD000 + n.toNat) imm.toNat
  | .addiW n imm => long (0xD200 + n.toNat) imm.toNat
  | .moviL q imm => long (0xD400 + q.toNat) imm.toNat
  | .movhiL q imm => long (0xD600 + q.toNat) imm.toNat
  | .addiL q imm => long (0xD800 + q.toNat) imm.toNat
  | .bfx d s pos wm1 => long (0xDA00 + d.toNat * 0x80 + s.toNat * 32 + pos.toNat) (wm1.toNat * 0x800)
  | .bfi d s pos wm1 => long (0xDA00 + d.toNat * 0x80 + s.toNat * 32 + pos.toNat) (wm1.toNat * 0x800 + 0x400)
  | .divq d x => short (0x7800 + d.toNat * 8 + x.toNat)
  | .ldB d n u => short (0x4000 + d.toNat * 0x100 + n.toNat * 32 + u.toNat)
  | .stB d n u => short (0x4800 + d.toNat * 0x100 + n.toNat * 32 + u.toNat)
  | .ldW a n u => short (0x5000 + a.toNat * 0x100 + n.toNat * 32 + u.toNat)
  | .stW a n u => short (0x5800 + a.toNat * 0x100 + n.toNat * 32 + u.toNat)
  | .ldL q n u => short (0x6000 + q.toNat * 0x200 + n.toNat * 64 + u.toNat)
  | .stL q n u => short (0x6800 + q.toNat * 0x200 + n.toNat * 64 + u.toNat)
  | .mm2 op dst src x =>
    long (0xF000 + op.code * 0x100 + dst.mode.toNat * 32 + dst.reg.toNat * 4 + src.mode.toNat / 2)
      (src.mode.toNat % 2 * 0x8000 + src.reg.toNat * 0x1000 + x.toNat)
  | .mm3 op dst a b x =>
    long (0xF800 + op.code * 0x100 + dst.mode.toNat * 32 + dst.reg.toNat * 4 + a.mode.toNat / 2)
      (a.mode.toNat % 2 * 0x8000 + a.reg.toNat * 0x1000 + b.mode.toNat * 0x200 + b.reg.toNat * 64 + x.toNat)
  | .cbP c cl r s k =>
    short (0x8000 + c.code * 0x800 + (if cl = .a then 0x400 else 0) + r.toNat * 0x80 + s.toNat * 16 + k.toNat)
  | .cb c cl r s target =>
    long (0xC000 + c.code * 0x100 + (match cl with | .d => 0 | .a => 0x40 | .q => 0x80) + r.toNat * 8 + s.toNat) target.toNat
  | .cbi c r imm disp =>
    long (0xC800 + c.code * 0x40 + r.toNat * 8 + imm.toNat / 32) (imm.toNat % 32 * 0x800 + disp.toNat)
  | .jmpP k => short (0x0700 + k.toNat)
  | .callP k => short (0x0800 + k.toNat)
  | .retP => short 0x0004
  | .jmp target => long 0xCA00 target.toNat
  | .call target => long 0xCB00 target.toNat
  | .jmpI n => long (0xCA80 + n.toNat) 0
  | .callI n => long (0xCB80 + n.toNat) 0
  | .ret => short 0x0003
  | .tbl k target => long (0xCC00 + k.toNat) target.toNat
  | .tas d n => short (0x0900 + d.toNat * 8 + n.toNat)
  | .lrB d n => short (0x0A00 + d.toNat * 8 + n.toNat)
  | .scB d n => short (0x0B00 + d.toNat * 8 + n.toNat)
  | .repImm u => short (0x0500 + u.toNat)
  | .repReg n => short (0x0600 + n.toNat)
  | .nop => short 0x0001
  | .yield => short 0x0002
  | .reti => short 0x0005
  | .iflush => short 0x0006
  | .sys imm => short (0x0100 + imm.toNat)
  | .brk imm => short (0x0200 + imm.toNat)
  | .waitev mask => short (0x0300 + mask.toNat)
  | .signal t => short (0x0400 + t.toNat)

end Sys2Proof.Machine
end

