-- ==== Sys2Proof/Machine/KeeperRows.lean ====
section
/-!
DEFINITION. The rows by which a keeper thread issues an instruction (05): the channel, the thread and the instruction each
stands for, as the encodings of R120–R142 spell it. Used to say which operands of such a row have an encoding.
-/
namespace Sys2Proof.Machine

/-- Register class of a compare-and-branch by its number; 3 is undefined (R136). -/
def clsOf (n : Nat) : Option Cls :=
  match n with
  | 0 => some .d | 1 => some .a | 2 => some .q | _ => none

/-- The instruction a row stands for, with the channel and the thread; `none` for the other rows, and for a
compare-and-branch of the undefined class. -/
def keeperRow (i : Instr) : Option (Fin 56 × Fin 8 × KInstr) :=
  match i with
  | .movB c t d r => some (c, t, (.dreg .mov d r))
  | .addB c t d r => some (c, t, (.dreg .add d r))
  | .subB c t d r => some (c, t, (.dreg .sub d r))
  | .andB c t d r => some (c, t, (.dreg .and d r))
  | .orB c t d r => some (c, t, (.dreg .or d r))
  | .xorB c t d r => some (c, t, (.dreg .xor d r))
  | .notB c t d r => some (c, t, (.dreg .not d r))
  | .negB c t d r => some (c, t, (.dreg .neg d r))
  | .shlB c t d r => some (c, t, (.dreg .shl d r))
  | .shrB c t d r => some (c, t, (.dreg .shr d r))
  | .sarB c t d r => some (c, t, (.dreg .sar d r))
  | .rolB c t d r => some (c, t, (.dreg .rol d r))
  | .minuB c t d r => some (c, t, (.dreg .minu d r))
  | .maxuB c t d r => some (c, t, (.dreg .maxu d r))
  | .swnB c t d r => some (c, t, (.dreg .swn d r))
  | .moviB c t d imm => some (c, t, (.dimm .movi d imm))
  | .addiB c t d imm => some (c, t, (.dimm .addi d imm))
  | .andiB c t d imm => some (c, t, (.dimm .andi d imm))
  | .oriB c t d imm => some (c, t, (.dimm .ori d imm))
  | .shlBImm c t d u => some (c, t, (.dsh .shl d u))
  | .shrBImm c t d u => some (c, t, (.dsh .shr d u))
  | .sarBImm c t d u => some (c, t, (.dsh .sar d u))
  | .rolBImm c t d u => some (c, t, (.dsh .rol d u))
  | .movW c t x y => some (c, t, (.areg .movW x y))
  | .addW c t x y => some (c, t, (.areg .addW x y))
  | .subW c t x y => some (c, t, (.areg .subW x y))
  | .addqW c t x imm => some (c, t, (.addqW x imm))
  | .addxW c t x y => some (c, t, (.areg .addxW x y))
  | .movlB c t x y => some (c, t, (.areg .movlB x y))
  | .movhB c t x y => some (c, t, (.areg .movhB x y))
  | .movzW c t x y => some (c, t, (.areg .movzW x y))
  | .inshW c t x y => some (c, t, (.areg .inshW x y))
  | .movzLD c t x y => some (c, t, (.areg .movzLD x y))
  | .movsLD c t x y => some (c, t, (.areg .movsLD x y))
  | .movzLA c t x y => some (c, t, (.areg .movzLA x y))
  | .movsLA c t x y => some (c, t, (.areg .movsLA x y))
  | .movBQ c t x y => some (c, t, (.areg .movBQ x y))
  | .movWQ c t x y => some (c, t, (.areg .movWQ x y))
  | .shinL c t x y => some (c, t, (.areg .shinL x y))
  | .shoutL c t x y => some (c, t, (.areg .shoutL x y))
  | .movL c t d r => some (c, t, (.qreg .mov d r))
  | .addL c t d r => some (c, t, (.qreg .add d r))
  | .subL c t d r => some (c, t, (.qreg .sub d r))
  | .andL c t d r => some (c, t, (.qreg .and d r))
  | .orL c t d r => some (c, t, (.qreg .or d r))
  | .xorL c t d r => some (c, t, (.qreg .xor d r))
  | .negL c t d r => some (c, t, (.qreg .neg d r))
  | .notL c t d r => some (c, t, (.qreg .not d r))
  | .mul c t d r => some (c, t, (.qreg .mul d r))
  | .mulu c t d r => some (c, t, (.qreg .mulu d r))
  | .mac c t d r => some (c, t, (.qreg .mac d r))
  | .macu c t d r => some (c, t, (.qreg .macu d r))
  | .shlL c t d r => some (c, t, (.qreg .shl d r))
  | .shrL c t d r => some (c, t, (.qreg .shr d r))
  | .sarL c t d r => some (c, t, (.qreg .sar d r))
  | .shlLImm c t q u => some (c, t, (.qsh .shl q u))
  | .shrLImm c t q u => some (c, t, (.qsh .shr q u))
  | .sarLImm c t q u => some (c, t, (.qsh .sar q u))
  | .rorL c t q u => some (c, t, (.qsh .ror q u))
  | .addqL c t q imm => some (c, t, (.addqL q imm))
  | .moviW c t n imm => some (c, t, (.moviW n imm))
  | .addiW c t n imm => some (c, t, (.addiW n imm))
  | .moviL c t q imm => some (c, t, (.moviL q imm))
  | .movhiL c t q imm => some (c, t, (.movhiL q imm))
  | .addiL c t q imm => some (c, t, (.addiL q imm))
  | .bfx c t d r pos wm1 => some (c, t, (.bfx d r pos wm1))
  | .bfi c t d r pos wm1 => some (c, t, (.bfi d r pos wm1))
  | .divq c t d x => some (c, t, (.divq d x))
  | .ldB c t d n u => some (c, t, (.ldB d n u))
  | .stB c t d n u => some (c, t, (.stB d n u))
  | .ldW c t d n u => some (c, t, (.ldW d n u))
  | .stW c t d n u => some (c, t, (.stW d n u))
  | .ldL c t q n u => some (c, t, (.ldL q n u))
  | .stL c t q n u => some (c, t, (.stL q n u))
  | .mm2Mov c t dm dr sm sr x => some (c, t, (.mm2 .mov ⟨dm, dr⟩ ⟨sm, sr⟩ x))
  | .mm2Add c t dm dr sm sr x => some (c, t, (.mm2 .add ⟨dm, dr⟩ ⟨sm, sr⟩ x))
  | .mm2Sub c t dm dr sm sr x => some (c, t, (.mm2 .sub ⟨dm, dr⟩ ⟨sm, sr⟩ x))
  | .mm2And c t dm dr sm sr x => some (c, t, (.mm2 .and ⟨dm, dr⟩ ⟨sm, sr⟩ x))
  | .mm2Or c t dm dr sm sr x => some (c, t, (.mm2 .or ⟨dm, dr⟩ ⟨sm, sr⟩ x))
  | .mm2Xor c t dm dr sm sr x => some (c, t, (.mm2 .xor ⟨dm, dr⟩ ⟨sm, sr⟩ x))
  | .mm2Not c t dm dr sm sr x => some (c, t, (.mm2 .not ⟨dm, dr⟩ ⟨sm, sr⟩ x))
  | .mm2Neg c t dm dr sm sr x => some (c, t, (.mm2 .neg ⟨dm, dr⟩ ⟨sm, sr⟩ x))
  | .mm3Add c t dm dr am ar bm br x => some (c, t, (.mm3 .add ⟨dm, dr⟩ ⟨am, ar⟩ ⟨bm, br⟩ x))
  | .mm3Sub c t dm dr am ar bm br x => some (c, t, (.mm3 .sub ⟨dm, dr⟩ ⟨am, ar⟩ ⟨bm, br⟩ x))
  | .mm3And c t dm dr am ar bm br x => some (c, t, (.mm3 .and ⟨dm, dr⟩ ⟨am, ar⟩ ⟨bm, br⟩ x))
  | .mm3Or c t dm dr am ar bm br x => some (c, t, (.mm3 .or ⟨dm, dr⟩ ⟨am, ar⟩ ⟨bm, br⟩ x))
  | .mm3Xor c t dm dr am ar bm br x => some (c, t, (.mm3 .xor ⟨dm, dr⟩ ⟨am, ar⟩ ⟨bm, br⟩ x))
  | .mm3Minu c t dm dr am ar bm br x => some (c, t, (.mm3 .minu ⟨dm, dr⟩ ⟨am, ar⟩ ⟨bm, br⟩ x))
  | .mm3Maxu c t dm dr am ar bm br x => some (c, t, (.mm3 .maxu ⟨dm, dr⟩ ⟨am, ar⟩ ⟨bm, br⟩ x))
  | .cbP c t cond cls r q k =>
    (clsOf cls.toNat).map (fun x => (c, t, (fun cl => .cbP (condOf cond.toNat) cl r q k) x))
  | .cb c t cond cls r q target =>
    (clsOf cls.toNat).map (fun x => (c, t, (fun cl => .cb (condOf cond.toNat) cl r q target) x))
  | .cbi c t cond r imm disp => some (c, t, (.cbi (condOf cond.toNat) r imm disp))
  | .jmpP c t k => some (c, t, (.jmpP k))
  | .callP c t k => some (c, t, (.callP k))
  | .retP c t => some (c, t, .retP)
  | .jmp c t target => some (c, t, (.jmp target))
  | .call c t target => some (c, t, (.call target))
  | .jmpIndirect c t n => some (c, t, (.jmpI n))
  | .callIndirect c t n => some (c, t, (.callI n))
  | .ret c t => some (c, t, .ret)
  | .tbl c t k target => some (c, t, (.tbl k target))
  | .tas c t d n => some (c, t, (.tas d n))
  | .lrB c t d n => some (c, t, (.lrB d n))
  | .scB c t d n => some (c, t, (.scB d n))
  | .repImm c t u => some (c, t, (.repImm u))
  | .repReg c t n => some (c, t, (.repReg n))
  | .nop c t => some (c, t, .nop)
  | .yield c t => some (c, t, .yield)
  | .reti c t => some (c, t, .reti)
  | .iflush c t => some (c, t, .iflush)
  | .sys c t imm => some (c, t, (.sys imm))
  | .brk c t imm => some (c, t, (.brk imm))
  | .waitev c t mask => some (c, t, (.waitev mask))
  | .signal c t u => some (c, t, (.signal u))
  | _ => none

end Sys2Proof.Machine
end

