-- ==== Sys2Proof/Machine/CmdKeeper.lean ====
section
/-!
DEFINITION. The commands by which a keeper thread issues an instruction (05): one per row. Thread `t` of channel `c` issues the
instruction with the given operands; R124–R142 give what each does, in Machine/Keeper.lean.
-/
namespace Sys2Proof.Machine

/-- A compare-and-branch whose class is defined. -/
def kCompare (s : State) (c : Fin 56) (t : Fin 8) (cls : Nat) (f : Cls → KInstr) : State :=
  match clsOf cls with
  | some k => kIssues s c t (f k)
  | none => s

/-- MOV_B (R124). -/
def execMovB (c : Fin 56) (t : Fin 8) (d r : BitVec 3) (s : State) : Host.Outcome State Fault Refusal :=
  done (kIssues s c t (.dreg .mov d r))

/-- ADD_B (R124). -/
def execAddB (c : Fin 56) (t : Fin 8) (d r : BitVec 3) (s : State) : Host.Outcome State Fault Refusal :=
  done (kIssues s c t (.dreg .add d r))

/-- SUB_B (R124). -/
def execSubB (c : Fin 56) (t : Fin 8) (d r : BitVec 3) (s : State) : Host.Outcome State Fault Refusal :=
  done (kIssues s c t (.dreg .sub d r))

/-- AND_B (R124). -/
def execAndB (c : Fin 56) (t : Fin 8) (d r : BitVec 3) (s : State) : Host.Outcome State Fault Refusal :=
  done (kIssues s c t (.dreg .and d r))

/-- OR_B (R124). -/
def execOrB (c : Fin 56) (t : Fin 8) (d r : BitVec 3) (s : State) : Host.Outcome State Fault Refusal :=
  done (kIssues s c t (.dreg .or d r))

/-- XOR_B (R124). -/
def execXorB (c : Fin 56) (t : Fin 8) (d r : BitVec 3) (s : State) : Host.Outcome State Fault Refusal :=
  done (kIssues s c t (.dreg .xor d r))

/-- NOT_B (R124). -/
def execNotB (c : Fin 56) (t : Fin 8) (d r : BitVec 3) (s : State) : Host.Outcome State Fault Refusal :=
  done (kIssues s c t (.dreg .not d r))

/-- NEG_B (R124). -/
def execNegB (c : Fin 56) (t : Fin 8) (d r : BitVec 3) (s : State) : Host.Outcome State Fault Refusal :=
  done (kIssues s c t (.dreg .neg d r))

/-- SHL_B (R124). -/
def execShlB (c : Fin 56) (t : Fin 8) (d r : BitVec 3) (s : State) : Host.Outcome State Fault Refusal :=
  done (kIssues s c t (.dreg .shl d r))

/-- SHR_B (R124). -/
def execShrB (c : Fin 56) (t : Fin 8) (d r : BitVec 3) (s : State) : Host.Outcome State Fault Refusal :=
  done (kIssues s c t (.dreg .shr d r))

/-- SAR_B (R124). -/
def execSarB (c : Fin 56) (t : Fin 8) (d r : BitVec 3) (s : State) : Host.Outcome State Fault Refusal :=
  done (kIssues s c t (.dreg .sar d r))

/-- ROL_B (R124). -/
def execRolB (c : Fin 56) (t : Fin 8) (d r : BitVec 3) (s : State) : Host.Outcome State Fault Refusal :=
  done (kIssues s c t (.dreg .rol d r))

/-- MINU_B (R124). -/
def execMinuB (c : Fin 56) (t : Fin 8) (d r : BitVec 3) (s : State) : Host.Outcome State Fault Refusal :=
  done (kIssues s c t (.dreg .minu d r))

/-- MAXU_B (R124). -/
def execMaxuB (c : Fin 56) (t : Fin 8) (d r : BitVec 3) (s : State) : Host.Outcome State Fault Refusal :=
  done (kIssues s c t (.dreg .maxu d r))

/-- SWN_B (R124). -/
def execSwnB (c : Fin 56) (t : Fin 8) (d r : BitVec 3) (s : State) : Host.Outcome State Fault Refusal :=
  done (kIssues s c t (.dreg .swn d r))

/-- MOVI_B (R125). -/
def execMoviB (c : Fin 56) (t : Fin 8) (d : BitVec 3) (imm : Byte) (s : State) : Host.Outcome State Fault Refusal :=
  done (kIssues s c t (.dimm .movi d imm))

/-- ADDI_B (R125). -/
def execAddiB (c : Fin 56) (t : Fin 8) (d : BitVec 3) (imm : Byte) (s : State) : Host.Outcome State Fault Refusal :=
  done (kIssues s c t (.dimm .addi d imm))

/-- ANDI_B (R125). -/
def execAndiB (c : Fin 56) (t : Fin 8) (d : BitVec 3) (imm : Byte) (s : State) : Host.Outcome State Fault Refusal :=
  done (kIssues s c t (.dimm .andi d imm))

/-- ORI_B (R125). -/
def execOriB (c : Fin 56) (t : Fin 8) (d : BitVec 3) (imm : Byte) (s : State) : Host.Outcome State Fault Refusal :=
  done (kIssues s c t (.dimm .ori d imm))

/-- SHL_B_IMM (R125). -/
def execShlBImm (c : Fin 56) (t : Fin 8) (d u : BitVec 3) (s : State) : Host.Outcome State Fault Refusal :=
  done (kIssues s c t (.dsh .shl d u))

/-- SHR_B_IMM (R125). -/
def execShrBImm (c : Fin 56) (t : Fin 8) (d u : BitVec 3) (s : State) : Host.Outcome State Fault Refusal :=
  done (kIssues s c t (.dsh .shr d u))

/-- SAR_B_IMM (R125). -/
def execSarBImm (c : Fin 56) (t : Fin 8) (d u : BitVec 3) (s : State) : Host.Outcome State Fault Refusal :=
  done (kIssues s c t (.dsh .sar d u))

/-- ROL_B_IMM (R125). -/
def execRolBImm (c : Fin 56) (t : Fin 8) (d u : BitVec 3) (s : State) : Host.Outcome State Fault Refusal :=
  done (kIssues s c t (.dsh .rol d u))

/-- MOV_W (R126). -/
def execMovW (c : Fin 56) (t : Fin 8) (x y : BitVec 3) (s : State) : Host.Outcome State Fault Refusal :=
  done (kIssues s c t (.areg .movW x y))

/-- ADD_W (R126). -/
def execAddW (c : Fin 56) (t : Fin 8) (x y : BitVec 3) (s : State) : Host.Outcome State Fault Refusal :=
  done (kIssues s c t (.areg .addW x y))

/-- SUB_W (R126). -/
def execSubW (c : Fin 56) (t : Fin 8) (x y : BitVec 3) (s : State) : Host.Outcome State Fault Refusal :=
  done (kIssues s c t (.areg .subW x y))

/-- ADDQ_W (R126). -/
def execAddqW (c : Fin 56) (t : Fin 8) (x : BitVec 3) (imm : BitVec 5) (s : State) : Host.Outcome State Fault Refusal :=
  done (kIssues s c t (.addqW x imm))

/-- ADDX_W (R126). -/
def execAddxW (c : Fin 56) (t : Fin 8) (x y : BitVec 3) (s : State) : Host.Outcome State Fault Refusal :=
  done (kIssues s c t (.areg .addxW x y))

/-- MOVL_B (R126). -/
def execMovlB (c : Fin 56) (t : Fin 8) (x y : BitVec 3) (s : State) : Host.Outcome State Fault Refusal :=
  done (kIssues s c t (.areg .movlB x y))

/-- MOVH_B (R126). -/
def execMovhB (c : Fin 56) (t : Fin 8) (x y : BitVec 3) (s : State) : Host.Outcome State Fault Refusal :=
  done (kIssues s c t (.areg .movhB x y))

/-- MOVZ_W (R126). -/
def execMovzW (c : Fin 56) (t : Fin 8) (x y : BitVec 3) (s : State) : Host.Outcome State Fault Refusal :=
  done (kIssues s c t (.areg .movzW x y))

/-- INSH_W (R126). -/
def execInshW (c : Fin 56) (t : Fin 8) (x y : BitVec 3) (s : State) : Host.Outcome State Fault Refusal :=
  done (kIssues s c t (.areg .inshW x y))

/-- MOVZ_L_D (R126). -/
def execMovzLD (c : Fin 56) (t : Fin 8) (x y : BitVec 3) (s : State) : Host.Outcome State Fault Refusal :=
  done (kIssues s c t (.areg .movzLD x y))

/-- MOVS_L_D (R126). -/
def execMovsLD (c : Fin 56) (t : Fin 8) (x y : BitVec 3) (s : State) : Host.Outcome State Fault Refusal :=
  done (kIssues s c t (.areg .movsLD x y))

/-- MOVZ_L_A (R126). -/
def execMovzLA (c : Fin 56) (t : Fin 8) (x y : BitVec 3) (s : State) : Host.Outcome State Fault Refusal :=
  done (kIssues s c t (.areg .movzLA x y))

/-- MOVS_L_A (R126). -/
def execMovsLA (c : Fin 56) (t : Fin 8) (x y : BitVec 3) (s : State) : Host.Outcome State Fault Refusal :=
  done (kIssues s c t (.areg .movsLA x y))

/-- MOV_B_Q (R126). -/
def execMovBQ (c : Fin 56) (t : Fin 8) (x y : BitVec 3) (s : State) : Host.Outcome State Fault Refusal :=
  done (kIssues s c t (.areg .movBQ x y))

/-- MOV_W_Q (R126). -/
def execMovWQ (c : Fin 56) (t : Fin 8) (x y : BitVec 3) (s : State) : Host.Outcome State Fault Refusal :=
  done (kIssues s c t (.areg .movWQ x y))

/-- SHIN_L (R126). -/
def execShinL (c : Fin 56) (t : Fin 8) (x y : BitVec 3) (s : State) : Host.Outcome State Fault Refusal :=
  done (kIssues s c t (.areg .shinL x y))

/-- SHOUT_L (R126). -/
def execShoutL (c : Fin 56) (t : Fin 8) (x y : BitVec 3) (s : State) : Host.Outcome State Fault Refusal :=
  done (kIssues s c t (.areg .shoutL x y))

/-- MOV_L (R127). -/
def execMovL (c : Fin 56) (t : Fin 8) (d r : BitVec 2) (s : State) : Host.Outcome State Fault Refusal :=
  done (kIssues s c t (.qreg .mov d r))

/-- ADD_L (R127). -/
def execAddL (c : Fin 56) (t : Fin 8) (d r : BitVec 2) (s : State) : Host.Outcome State Fault Refusal :=
  done (kIssues s c t (.qreg .add d r))

/-- SUB_L (R127). -/
def execSubL (c : Fin 56) (t : Fin 8) (d r : BitVec 2) (s : State) : Host.Outcome State Fault Refusal :=
  done (kIssues s c t (.qreg .sub d r))

/-- AND_L (R127). -/
def execAndL (c : Fin 56) (t : Fin 8) (d r : BitVec 2) (s : State) : Host.Outcome State Fault Refusal :=
  done (kIssues s c t (.qreg .and d r))

/-- OR_L (R127). -/
def execOrL (c : Fin 56) (t : Fin 8) (d r : BitVec 2) (s : State) : Host.Outcome State Fault Refusal :=
  done (kIssues s c t (.qreg .or d r))

/-- XOR_L (R127). -/
def execXorL (c : Fin 56) (t : Fin 8) (d r : BitVec 2) (s : State) : Host.Outcome State Fault Refusal :=
  done (kIssues s c t (.qreg .xor d r))

/-- NEG_L (R127). -/
def execNegL (c : Fin 56) (t : Fin 8) (d r : BitVec 2) (s : State) : Host.Outcome State Fault Refusal :=
  done (kIssues s c t (.qreg .neg d r))

/-- NOT_L (R127). -/
def execNotL (c : Fin 56) (t : Fin 8) (d r : BitVec 2) (s : State) : Host.Outcome State Fault Refusal :=
  done (kIssues s c t (.qreg .not d r))

/-- MUL (R127). -/
def execMul (c : Fin 56) (t : Fin 8) (d r : BitVec 2) (s : State) : Host.Outcome State Fault Refusal :=
  done (kIssues s c t (.qreg .mul d r))

/-- MULU (R127). -/
def execMulu (c : Fin 56) (t : Fin 8) (d r : BitVec 2) (s : State) : Host.Outcome State Fault Refusal :=
  done (kIssues s c t (.qreg .mulu d r))

/-- MAC (R127). -/
def execMac (c : Fin 56) (t : Fin 8) (d r : BitVec 2) (s : State) : Host.Outcome State Fault Refusal :=
  done (kIssues s c t (.qreg .mac d r))

/-- MACU (R127). -/
def execMacu (c : Fin 56) (t : Fin 8) (d r : BitVec 2) (s : State) : Host.Outcome State Fault Refusal :=
  done (kIssues s c t (.qreg .macu d r))

/-- SHL_L (R127). -/
def execShlL (c : Fin 56) (t : Fin 8) (d r : BitVec 2) (s : State) : Host.Outcome State Fault Refusal :=
  done (kIssues s c t (.qreg .shl d r))

/-- SHR_L (R127). -/
def execShrL (c : Fin 56) (t : Fin 8) (d r : BitVec 2) (s : State) : Host.Outcome State Fault Refusal :=
  done (kIssues s c t (.qreg .shr d r))

/-- SAR_L (R127). -/
def execSarL (c : Fin 56) (t : Fin 8) (d r : BitVec 2) (s : State) : Host.Outcome State Fault Refusal :=
  done (kIssues s c t (.qreg .sar d r))

/-- SHL_L_IMM (R128). -/
def execShlLImm (c : Fin 56) (t : Fin 8) (q : BitVec 2) (u : BitVec 5) (s : State) : Host.Outcome State Fault Refusal :=
  done (kIssues s c t (.qsh .shl q u))

/-- SHR_L_IMM (R128). -/
def execShrLImm (c : Fin 56) (t : Fin 8) (q : BitVec 2) (u : BitVec 5) (s : State) : Host.Outcome State Fault Refusal :=
  done (kIssues s c t (.qsh .shr q u))

/-- SAR_L_IMM (R128). -/
def execSarLImm (c : Fin 56) (t : Fin 8) (q : BitVec 2) (u : BitVec 5) (s : State) : Host.Outcome State Fault Refusal :=
  done (kIssues s c t (.qsh .sar q u))

/-- ROR_L (R128). -/
def execRorL (c : Fin 56) (t : Fin 8) (q : BitVec 2) (u : BitVec 5) (s : State) : Host.Outcome State Fault Refusal :=
  done (kIssues s c t (.qsh .ror q u))

/-- ADDQ_L (R128). -/
def execAddqL (c : Fin 56) (t : Fin 8) (q : BitVec 2) (imm : BitVec 6) (s : State) : Host.Outcome State Fault Refusal :=
  done (kIssues s c t (.addqL q imm))

/-- MOVI_W (R129). -/
def execMoviW (c : Fin 56) (t : Fin 8) (n : BitVec 3) (imm : Half) (s : State) : Host.Outcome State Fault Refusal :=
  done (kIssues s c t (.moviW n imm))

/-- ADDI_W (R129). -/
def execAddiW (c : Fin 56) (t : Fin 8) (n : BitVec 3) (imm : Half) (s : State) : Host.Outcome State Fault Refusal :=
  done (kIssues s c t (.addiW n imm))

/-- MOVI_L (R129). -/
def execMoviL (c : Fin 56) (t : Fin 8) (q : BitVec 2) (imm : Half) (s : State) : Host.Outcome State Fault Refusal :=
  done (kIssues s c t (.moviL q imm))

/-- MOVHI_L (R129). -/
def execMovhiL (c : Fin 56) (t : Fin 8) (q : BitVec 2) (imm : Half) (s : State) : Host.Outcome State Fault Refusal :=
  done (kIssues s c t (.movhiL q imm))

/-- ADDI_L (R129). -/
def execAddiL (c : Fin 56) (t : Fin 8) (q : BitVec 2) (imm : Half) (s : State) : Host.Outcome State Fault Refusal :=
  done (kIssues s c t (.addiL q imm))

/-- BFX (R129). -/
def execBfx (c : Fin 56) (t : Fin 8) (d r : BitVec 2) (pos wm1 : BitVec 5) (s : State) : Host.Outcome State Fault Refusal :=
  done (kIssues s c t (.bfx d r pos wm1))

/-- BFI (R129). -/
def execBfi (c : Fin 56) (t : Fin 8) (d r : BitVec 2) (pos wm1 : BitVec 5) (s : State) : Host.Outcome State Fault Refusal :=
  done (kIssues s c t (.bfi d r pos wm1))

/-- DIVQ (R130). -/
def execDivq (c : Fin 56) (t : Fin 8) (d : BitVec 2) (x : BitVec 3) (s : State) : Host.Outcome State Fault Refusal :=
  done (kIssues s c t (.divq d x))

/-- LD_B (R131). -/
def execLdB (c : Fin 56) (t : Fin 8) (d n : BitVec 3) (u : BitVec 5) (s : State) : Host.Outcome State Fault Refusal :=
  done (kIssues s c t (.ldB d n u))

/-- ST_B (R131). -/
def execStB (c : Fin 56) (t : Fin 8) (d n : BitVec 3) (u : BitVec 5) (s : State) : Host.Outcome State Fault Refusal :=
  done (kIssues s c t (.stB d n u))

/-- LD_W (R131). -/
def execLdW (c : Fin 56) (t : Fin 8) (d n : BitVec 3) (u : BitVec 5) (s : State) : Host.Outcome State Fault Refusal :=
  done (kIssues s c t (.ldW d n u))

/-- ST_W (R131). -/
def execStW (c : Fin 56) (t : Fin 8) (d n : BitVec 3) (u : BitVec 5) (s : State) : Host.Outcome State Fault Refusal :=
  done (kIssues s c t (.stW d n u))

/-- LD_L (R131). -/
def execLdL (c : Fin 56) (t : Fin 8) (q : BitVec 2) (n : BitVec 3) (u : BitVec 6) (s : State) : Host.Outcome State Fault Refusal :=
  done (kIssues s c t (.ldL q n u))

/-- ST_L (R131). -/
def execStL (c : Fin 56) (t : Fin 8) (q : BitVec 2) (n : BitVec 3) (u : BitVec 6) (s : State) : Host.Outcome State Fault Refusal :=
  done (kIssues s c t (.stL q n u))

/-- MM2_MOV (R133). -/
def execMm2Mov (c : Fin 56) (t : Fin 8) (dm dr sm sr : BitVec 3) (x : BitVec 12) (s : State) : Host.Outcome State Fault Refusal :=
  done (kIssues s c t (.mm2 .mov ⟨dm, dr⟩ ⟨sm, sr⟩ x))

/-- MM2_ADD (R133). -/
def execMm2Add (c : Fin 56) (t : Fin 8) (dm dr sm sr : BitVec 3) (x : BitVec 12) (s : State) : Host.Outcome State Fault Refusal :=
  done (kIssues s c t (.mm2 .add ⟨dm, dr⟩ ⟨sm, sr⟩ x))

/-- MM2_SUB (R133). -/
def execMm2Sub (c : Fin 56) (t : Fin 8) (dm dr sm sr : BitVec 3) (x : BitVec 12) (s : State) : Host.Outcome State Fault Refusal :=
  done (kIssues s c t (.mm2 .sub ⟨dm, dr⟩ ⟨sm, sr⟩ x))

/-- MM2_AND (R133). -/
def execMm2And (c : Fin 56) (t : Fin 8) (dm dr sm sr : BitVec 3) (x : BitVec 12) (s : State) : Host.Outcome State Fault Refusal :=
  done (kIssues s c t (.mm2 .and ⟨dm, dr⟩ ⟨sm, sr⟩ x))

/-- MM2_OR (R133). -/
def execMm2Or (c : Fin 56) (t : Fin 8) (dm dr sm sr : BitVec 3) (x : BitVec 12) (s : State) : Host.Outcome State Fault Refusal :=
  done (kIssues s c t (.mm2 .or ⟨dm, dr⟩ ⟨sm, sr⟩ x))

/-- MM2_XOR (R133). -/
def execMm2Xor (c : Fin 56) (t : Fin 8) (dm dr sm sr : BitVec 3) (x : BitVec 12) (s : State) : Host.Outcome State Fault Refusal :=
  done (kIssues s c t (.mm2 .xor ⟨dm, dr⟩ ⟨sm, sr⟩ x))

/-- MM2_NOT (R133). -/
def execMm2Not (c : Fin 56) (t : Fin 8) (dm dr sm sr : BitVec 3) (x : BitVec 12) (s : State) : Host.Outcome State Fault Refusal :=
  done (kIssues s c t (.mm2 .not ⟨dm, dr⟩ ⟨sm, sr⟩ x))

/-- MM2_NEG (R133). -/
def execMm2Neg (c : Fin 56) (t : Fin 8) (dm dr sm sr : BitVec 3) (x : BitVec 12) (s : State) : Host.Outcome State Fault Refusal :=
  done (kIssues s c t (.mm2 .neg ⟨dm, dr⟩ ⟨sm, sr⟩ x))

/-- MM3_ADD (R133). -/
def execMm3Add (c : Fin 56) (t : Fin 8) (dm dr am ar bm br : BitVec 3) (x : BitVec 6) (s : State) : Host.Outcome State Fault Refusal :=
  done (kIssues s c t (.mm3 .add ⟨dm, dr⟩ ⟨am, ar⟩ ⟨bm, br⟩ x))

/-- MM3_SUB (R133). -/
def execMm3Sub (c : Fin 56) (t : Fin 8) (dm dr am ar bm br : BitVec 3) (x : BitVec 6) (s : State) : Host.Outcome State Fault Refusal :=
  done (kIssues s c t (.mm3 .sub ⟨dm, dr⟩ ⟨am, ar⟩ ⟨bm, br⟩ x))

/-- MM3_AND (R133). -/
def execMm3And (c : Fin 56) (t : Fin 8) (dm dr am ar bm br : BitVec 3) (x : BitVec 6) (s : State) : Host.Outcome State Fault Refusal :=
  done (kIssues s c t (.mm3 .and ⟨dm, dr⟩ ⟨am, ar⟩ ⟨bm, br⟩ x))

/-- MM3_OR (R133). -/
def execMm3Or (c : Fin 56) (t : Fin 8) (dm dr am ar bm br : BitVec 3) (x : BitVec 6) (s : State) : Host.Outcome State Fault Refusal :=
  done (kIssues s c t (.mm3 .or ⟨dm, dr⟩ ⟨am, ar⟩ ⟨bm, br⟩ x))

/-- MM3_XOR (R133). -/
def execMm3Xor (c : Fin 56) (t : Fin 8) (dm dr am ar bm br : BitVec 3) (x : BitVec 6) (s : State) : Host.Outcome State Fault Refusal :=
  done (kIssues s c t (.mm3 .xor ⟨dm, dr⟩ ⟨am, ar⟩ ⟨bm, br⟩ x))

/-- MM3_MINU (R133). -/
def execMm3Minu (c : Fin 56) (t : Fin 8) (dm dr am ar bm br : BitVec 3) (x : BitVec 6) (s : State) : Host.Outcome State Fault Refusal :=
  done (kIssues s c t (.mm3 .minu ⟨dm, dr⟩ ⟨am, ar⟩ ⟨bm, br⟩ x))

/-- MM3_MAXU (R133). -/
def execMm3Maxu (c : Fin 56) (t : Fin 8) (dm dr am ar bm br : BitVec 3) (x : BitVec 6) (s : State) : Host.Outcome State Fault Refusal :=
  done (kIssues s c t (.mm3 .maxu ⟨dm, dr⟩ ⟨am, ar⟩ ⟨bm, br⟩ x))

/-- CB_P (R136). -/
def execCbP (c : Fin 56) (t : Fin 8) (cond : BitVec 3) (cls : BitVec 2) (r q : BitVec 3) (k : BitVec 4) (s : State) : Host.Outcome State Fault Refusal :=
  done (kCompare s c t cls.toNat (fun cl => .cbP (condOf cond.toNat) cl r q k))

/-- CB (R136). -/
def execCb (c : Fin 56) (t : Fin 8) (cond : BitVec 3) (cls : BitVec 2) (r q : BitVec 3) (target : Half) (s : State) : Host.Outcome State Fault Refusal :=
  done (kCompare s c t cls.toNat (fun cl => .cb (condOf cond.toNat) cl r q target))

/-- CBI (R136). -/
def execCbi (c : Fin 56) (t : Fin 8) (cond : BitVec 3) (r : BitVec 3) (imm : Byte) (disp : BitVec 11) (s : State) : Host.Outcome State Fault Refusal :=
  done (kIssues s c t (.cbi (condOf cond.toNat) r imm disp))

/-- JMP_P (R136). -/
def execJmpP (c : Fin 56) (t : Fin 8) (k : BitVec 4) (s : State) : Host.Outcome State Fault Refusal :=
  done (kIssues s c t (.jmpP k))

/-- CALL_P (R136). -/
def execCallP (c : Fin 56) (t : Fin 8) (k : BitVec 4) (s : State) : Host.Outcome State Fault Refusal :=
  done (kIssues s c t (.callP k))

/-- RET_P (R136). -/
def execRetP (c : Fin 56) (t : Fin 8) (s : State) : Host.Outcome State Fault Refusal :=
  done (kIssues s c t .retP)

/-- JMP (R136). -/
def execJmp (c : Fin 56) (t : Fin 8) (target : Half) (s : State) : Host.Outcome State Fault Refusal :=
  done (kIssues s c t (.jmp target))

/-- CALL (R136). -/
def execCall (c : Fin 56) (t : Fin 8) (target : Half) (s : State) : Host.Outcome State Fault Refusal :=
  done (kIssues s c t (.call target))

/-- JMP_INDIRECT (R136). -/
def execJmpIndirect (c : Fin 56) (t : Fin 8) (n : BitVec 3) (s : State) : Host.Outcome State Fault Refusal :=
  done (kIssues s c t (.jmpI n))

/-- CALL_INDIRECT (R136). -/
def execCallIndirect (c : Fin 56) (t : Fin 8) (n : BitVec 3) (s : State) : Host.Outcome State Fault Refusal :=
  done (kIssues s c t (.callI n))

/-- RET (R136). -/
def execRet (c : Fin 56) (t : Fin 8) (s : State) : Host.Outcome State Fault Refusal :=
  done (kIssues s c t .ret)

/-- TBL (R137). -/
def execTbl (c : Fin 56) (t : Fin 8) (k : BitVec 4) (target : Half) (s : State) : Host.Outcome State Fault Refusal :=
  done (kIssues s c t (.tbl k target))

/-- TAS (R138). -/
def execTas (c : Fin 56) (t : Fin 8) (d n : BitVec 3) (s : State) : Host.Outcome State Fault Refusal :=
  done (kIssues s c t (.tas d n))

/-- LR_B (R138). -/
def execLrB (c : Fin 56) (t : Fin 8) (d n : BitVec 3) (s : State) : Host.Outcome State Fault Refusal :=
  done (kIssues s c t (.lrB d n))

/-- SC_B (R138). -/
def execScB (c : Fin 56) (t : Fin 8) (d n : BitVec 3) (s : State) : Host.Outcome State Fault Refusal :=
  done (kIssues s c t (.scB d n))

/-- REP_IMM (R140). -/
def execRepImm (c : Fin 56) (t : Fin 8) (u : Byte) (s : State) : Host.Outcome State Fault Refusal :=
  done (kIssues s c t (.repImm u))

/-- REP_REG (R140). -/
def execRepReg (c : Fin 56) (t : Fin 8) (n : BitVec 3) (s : State) : Host.Outcome State Fault Refusal :=
  done (kIssues s c t (.repReg n))

/-- NOP (R142). -/
def execNop (c : Fin 56) (t : Fin 8) (s : State) : Host.Outcome State Fault Refusal :=
  done (kIssues s c t .nop)

/-- YIELD (R45). -/
def execYield (c : Fin 56) (t : Fin 8) (s : State) : Host.Outcome State Fault Refusal :=
  done (kIssues s c t .yield)

/-- RETI (R159). -/
def execReti (c : Fin 56) (t : Fin 8) (s : State) : Host.Outcome State Fault Refusal :=
  done (kIssues s c t .reti)

/-- IFLUSH (R142). -/
def execIflush (c : Fin 56) (t : Fin 8) (s : State) : Host.Outcome State Fault Refusal :=
  done (kIssues s c t .iflush)

/-- SYS (R142). -/
def execSys (c : Fin 56) (t : Fin 8) (imm : Byte) (s : State) : Host.Outcome State Fault Refusal :=
  done (kIssues s c t (.sys imm))

/-- BRK (R142). -/
def execBrk (c : Fin 56) (t : Fin 8) (imm : Byte) (s : State) : Host.Outcome State Fault Refusal :=
  done (kIssues s c t (.brk imm))

/-- WAITEV (R163). -/
def execWaitev (c : Fin 56) (t : Fin 8) (mask : Byte) (s : State) : Host.Outcome State Fault Refusal :=
  done (kIssues s c t (.waitev mask))

/-- SIGNAL (R142). -/
def execSignal (c : Fin 56) (t : Fin 8) (u : BitVec 3) (s : State) : Host.Outcome State Fault Refusal :=
  done (kIssues s c t (.signal u))

end Sys2Proof.Machine
end

