-- ==== Sys2Proof/Machine/CmdPound.lean ====
section
/-!
DEFINITION. Commands: drains, the pound, courses and the ring (10), the signal board and the keystones (11).
-/
namespace Sys2Proof.Machine

/-- DRAIN_SLOT (R40). -/
def execDrainSlot (n : Fin 448) (s : State) : Host.Outcome State Fault Refusal :=
  done (drainSlot s n)

/-- DRAIN_END (R237). -/
def execDrainEnd (c : Fin 56) (s : State) : Host.Outcome State Fault Refusal :=
  done (drainDone s c)

/-- CREDIT_RELEASE (R244). -/
def execCreditRelease (s : State) : Host.Outcome State Fault Refusal :=
  done (creditRelease s)

/-- BASIN_CHAMBER_DRAIN (R242). -/
def execBasinChamberDrain (s : State) : Host.Outcome State Fault Refusal :=
  done (basinDrain s)

/-- COURSE_COMPLETE (R246). -/
def execCourseComplete (s : State) : Host.Outcome State Fault Refusal :=
  done (orderlyCheck (courseComplete s))

/-- LOST_DRAIN (R243). -/
def execLostDrain (c : Fin 56) (s : State) : Host.Outcome State Fault Refusal :=
  done (lostDrain s c)

/-- RING_CONFIG_WRITE (R248). -/
def execRingConfigWrite (size : Bool) (v : Word) (s : State) : Host.Outcome State Fault Refusal :=
  done (orderlyCheck (hostWrite64 s (if size then Reg.RING_SIZE else Reg.RING_BASE) v.toNat))

/-- POUND_STATUS_READ (R8). -/
def execPoundStatusRead (s : State) : Host.Outcome State Fault Refusal :=
  done (hostRead64 s Reg.POUND_STATUS)

/-- MON_MIN_READ (R8). -/
def execMonMinRead (n : Fin 10) (s : State) : Host.Outcome State Fault Refusal :=
  done (hostRead64 s (Reg.MON1 n))

/-- SIG_RANGE_WRITE (R251). -/
def execSigRangeWrite (n : Fin 57) (v : Word) (s : State) : Host.Outcome State Fault Refusal :=
  done (hostWrite64 s (Reg.SIG_RANGE n) v.toNat)

/-- SIG_HOST_PUB (R256). -/
def execSigHostPub (v : Word) (s : State) : Host.Outcome State Fault Refusal :=
  done (hostWrite64 s Reg.SIG_HOST_PUB v.toNat)

/-- SIGNAL_SLOT_READ (R256). -/
def execSignalSlotRead (live : Bool) (n : BitVec 12) (s : State) : Host.Outcome State Fault Refusal :=
  done (hostRead64 s ((if live then 0x2120000 else 0x2110000) + 16 * n.toNat))

/-- KEYSTONE_EVALUATION (R261). -/
def execKeystoneEvaluation (k : Fin 64) (s : State) : Host.Outcome State Fault Refusal :=
  done (ksEvaluate s k)

/-- TRIG_OUT_END (R263). -/
def execTrigOutEnd (n : Fin 2) (s : State) : Host.Outcome State Fault Refusal :=
  done (trigOutEnd s n)

/-- TRIG_IN_EDGE (R258): the pin's level; a rise is the edge that is latched. -/
def execTrigInEdge (n : Fin 2) (level : Bool) (s : State) : Host.Outcome State Fault Refusal :=
  done (trigIn s n level)

/-- KEYSTONE_ENABLE (R265). -/
def execKeystoneEnable (k : Fin 64) (s : State) : Host.Outcome State Fault Refusal :=
  done (hostWrite64 s (Reg.KEY_CTRL k) 1)

/-- KEYSTONE_DISABLE (R265). -/
def execKeystoneDisable (k : Fin 64) (s : State) : Host.Outcome State Fault Refusal :=
  done (hostWrite64 s (Reg.KEY_CTRL k) 0)

/-- KEYSTONE_UNLOAD (R265). -/
def execKeystoneUnload (k : Fin 64) (s : State) : Host.Outcome State Fault Refusal :=
  done (hostWrite64 s (Reg.KEY_CTRL k) (2 + s.get (Fld.KEY_CTRL_EN k)))

end Sys2Proof.Machine
end

