-- ==== Sys2Proof/Machine/CmdQueues.lean ====
section
/-!
DEFINITION. Commands: work queues, completion rings, long operations, the host function (03, 14).
-/
namespace Sys2Proof.Machine

/-- WQ_ENABLE (R57). -/
def execWqEnable (n : Fin 256) (v : Word) (s : State) : Host.Outcome State Fault Refusal :=
  done (hostWrite64 s (Reg.WQ_CFG n) (withField v.toNat (Fld.WQ_CFG_EN n) 1))

/-- WQ_DISABLE (R87). -/
def execWqDisable (n : Fin 256) (v : Word) (s : State) : Host.Outcome State Fault Refusal :=
  done (hostWrite64 s (Reg.WQ_CFG n) (withField v.toNat (Fld.WQ_CFG_EN n) 0))

/-- WQ_POLL (R67). -/
def execWqPoll (n : Fin 256) (s : State) : Host.Outcome State Fault Refusal :=
  done (wqPoll s n)

/-- WQ_POLL_RETURN (R66). -/
def execWqPollReturn (n : Fin 256) (data : HostRd) (s : State) : Host.Outcome State Fault Refusal :=
  done (orderlyCheck (wqReturn s n data))

/-- ENTRY_DISPATCH (R71). -/
def execEntryDispatch (s : State) : Host.Outcome State Fault Refusal :=
  done (entryDispatch s)

/-- CR_ENABLE (R78). -/
def execCrEnable (r : Fin 64) (v : Word) (s : State) : Host.Outcome State Fault Refusal :=
  done (hostWrite64 s (Reg.CR_CFG r) (withField v.toNat (Fld.CR_CFG_EN r) 1))

/-- CR_DISABLE (R78). -/
def execCrDisable (r : Fin 64) (v : Word) (s : State) : Host.Outcome State Fault Refusal :=
  done (hostWrite64 s (Reg.CR_CFG r) (withField v.toNat (Fld.CR_CFG_EN r) 0))

/-- CR_HEAD_WRITE (R78). -/
def execCrHeadWrite (r : Fin 64) (v : Word) (s : State) : Host.Outcome State Fault Refusal :=
  done (hostWrite64 s (Reg.CR_HEAD r) v.toNat)

/-- LONG_OP_STEP_DONE (R81). -/
def execLongOpStepDone (serial : Nat) (data : HostRd) (s : State) : Host.Outcome State Fault Refusal :=
  done (orderlyCheck (longStep s serial data))

/-- FENCE_COMPLETE (R83). -/
def execFenceComplete (serial : Nat) (s : State) : Host.Outcome State Fault Refusal :=
  done (fenceComplete s serial)

/-- HOST_D3HOT_ENTRY (R86). -/
def execHostD3hotEntry (s : State) : Host.Outcome State Fault Refusal :=
  done (inConfig s hostD3)

/-- HOST_D0_RETURN (R86). -/
def execHostD0Return (s : State) : Host.Outcome State Fault Refusal :=
  done (inConfig s hostD0)

/-- HOST_BME_CLEAR (R86). -/
def execHostBmeClear (s : State) : Host.Outcome State Fault Refusal :=
  done (inConfig s hostBmeClear)

/-- PME_REPEAT (R326). -/
def execPmeRepeat (s : State) : Host.Outcome State Fault Refusal :=
  done (pmeRepeat s)

/-- HOST_LINK_DOWN (R326). -/
def execHostLinkDown (s : State) : Host.Outcome State Fault Refusal :=
  done (hostDown s)

/-- HOST_LINK_UP (R358). -/
def execHostLinkUp (width : BitVec 4) (s : State) : Host.Outcome State Fault Refusal :=
  done (hostTrained s width.toNat)

/-- BUS_MASTER_ENABLE_SET (R86). -/
def execBusMasterEnableSet (s : State) : Host.Outcome State Fault Refusal :=
  done (inConfig s hostBmeSet)

end Sys2Proof.Machine
end

