-- ==== Sys2Proof/Machine/CmdRegisters.lean ====
section
/-!
DEFINITION. Commands: accesses of the host (18).
-/
namespace Sys2Proof.Machine

/-- SPLIT_LOW_WRITE (R397). -/
def execSplitLowWrite (a : BitVec 26) (v : Long) (s : State) : Host.Outcome State Fault Refusal :=
  done (orderlyCheck (hostWriteLow s a.toNat v.toNat))

/-- SPLIT_HIGH_WRITE (R397): `a` is the address of the 64-bit register. -/
def execSplitHighWrite (a : BitVec 26) (v : Long) (s : State) : Host.Outcome State Fault Refusal :=
  done (orderlyCheck (hostWriteHigh s a.toNat v.toNat))

/-- LOW_HALF_READ (R397): `r` is what is read: a low half of BAR0; the table has no row for the host's other reads, of other sizes
(R396), of BAR4 (R325) or of configuration space (R406), which come with it. -/
def execLowHalfRead (r : HostRead) (s : State) : Host.Outcome State Fault Refusal :=
  done (spaceRead s r.sp r.a.toNat)

/-- HIGH_HALF_READ (R397): `a` is the address of the 64-bit register. -/
def execHighHalfRead (a : BitVec 26) (s : State) : Host.Outcome State Fault Refusal :=
  done (hostReadHigh s a.toNat)

/-- UNMAPPED_ACCESS (R395). -/
def execUnmappedAccess (a : BitVec 26) (write : Bool) (s : State) : Host.Outcome State Fault Refusal :=
  done (unmappedAccess s a.toNat write)

/-- REGISTER_WRITE (R398). -/
def execRegisterWrite (sp : RegSpace) (a : BitVec 26) (v : Word) (s : State) : Host.Outcome State Fault Refusal :=
  done (orderlyCheck (spaceWrite s sp a.toNat v.toNat))

/-- SHADOW_HOLD (R402): of the page that holds `a`. -/
def execShadowHold (a : BitVec 26) (s : State) : Host.Outcome State Fault Refusal :=
  done (hostWrite64 s (Reg.SHADOW_CTRL (pageOf a.toNat)) 1)

/-- SHADOW_RELEASE (R402). -/
def execShadowRelease (a : BitVec 26) (s : State) : Host.Outcome State Fault Refusal :=
  done (hostWrite64 s (Reg.SHADOW_CTRL (pageOf a.toNat)) 0)

/-- SHADOW_COMMIT (R402). -/
def execShadowCommit (a : BitVec 26) (s : State) : Host.Outcome State Fault Refusal :=
  done (hostWrite64 s (Reg.SHADOW_CTRL (pageOf a.toNat)) 3)

/-- SHADOW_DISCARD (R402). -/
def execShadowDiscard (a : BitVec 26) (s : State) : Host.Outcome State Fault Refusal :=
  done (hostWrite64 s (Reg.SHADOW_CTRL (pageOf a.toNat)) 5)

/-- BAR2_READ (R404). -/
def execBar2Read (x : BitVec 36) (n : Half) (s : State) : Host.Outcome State Fault Refusal :=
  done (bar2Read s x.toNat n.toNat)

/-- BAR2_WRITE (R404). -/
def execBar2Write (x : BitVec 36) (bs : List Byte) (s : State) : Host.Outcome State Fault Refusal :=
  done (bar2Write s x.toNat bs)

end Sys2Proof.Machine
end

