-- ==== Sys2Proof/Machine/CmdRoutes.lean ====
section
/-!
DEFINITION. Commands: the starts of work entries (03, R62; 04; 06; 07; 12; 15; 16) and the orders of a route (04).
-/
namespace Sys2Proof.Machine

/-- ROUTE_START (R107). -/
def execRouteStart (c : Fin 56) (s : State) : Host.Outcome State Fault Refusal :=
  done (routeStart s c)

/-- ROUTE_RESUME (R112). -/
def execRouteResume (c : Fin 56) (s : State) : Host.Outcome State Fault Refusal :=
  done (routeResume s c)

/-- ROUTE_SUSPEND (R111). -/
def execRouteSuspend (c : Fin 56) (s : State) : Host.Outcome State Fault Refusal :=
  done (routeSuspend s c)

/-- ROUTE_HALT (R113). -/
def execRouteHalt (c : Fin 56) (s : State) : Host.Outcome State Fault Refusal :=
  done (routeHalt s c)

/-- CHANNEL_ENABLE (R173). -/
def execChannelEnable (c : Fin 56) (s : State) : Host.Outcome State Fault Refusal :=
  done (chanEnable s c)

/-- CHANNEL_DISABLE (R115). -/
def execChannelDisable (c : Fin 56) (s : State) : Host.Outcome State Fault Refusal :=
  done (chanDisable s c)

/-- CHANNEL_RESEAT (R345): `ok` is the test of the target tile (R344). -/
def execChannelReseat (c : Fin 56) (ok : Bool) (s : State) : Host.Outcome State Fault Refusal :=
  done (chanReseat s c ok)

/-- KEEPER_LOAD (R170). -/
def execKeeperLoad (c : Fin 56) (s : State) : Host.Outcome State Fault Refusal :=
  done (keeperLoad s c)

/-- KEEPER_THREAD_START (R150). -/
def execKeeperThreadStart (c : Fin 56) (s : State) : Host.Outcome State Fault Refusal :=
  done (keeperStart s c)

/-- KEEPER_THREAD_STOP (R147). -/
def execKeeperThreadStop (c : Fin 56) (s : State) : Host.Outcome State Fault Refusal :=
  done (keeperStop s c)

/-- STREAM_DEFINE (R268). -/
def execStreamDefine (serial : Nat) (data : HostRd) (s : State) : Host.Outcome State Fault Refusal :=
  done (orderlyCheck (streamDefine s serial data))

/-- STREAM_CLOSE (R268). -/
def execStreamClose (serial : Nat) (s : State) : Host.Outcome State Fault Refusal :=
  done (orderlyCheck (streamClose s serial))

/-- STREAM_CLOSE_DONE (R268): `abandon`: what has not been placed is given up. -/
def execStreamCloseDone (n : Fin 256) (abandon : Bool) (s : State) : Host.Outcome State Fault Refusal :=
  done (orderlyCheck (streamCloseDone s n abandon))

/-- KEYSTONE_LOAD (R260). -/
def execKeystoneLoad (serial : Nat) (data : HostRd) (s : State) : Host.Outcome State Fault Refusal :=
  done (keystoneLoad s serial data)

/-- READBACK (R293). -/
def execReadback (serial : Nat) (s : State) : Host.Outcome State Fault Refusal :=
  done (readbackStart s serial)

/-- REG_BATCH (R62). -/
def execRegBatch (serial : Nat) (data : HostRd) (s : State) : Host.Outcome State Fault Refusal :=
  done (regBatch s serial data)

/-- CONFIG_IMAGE_WRITE (R369). -/
def execConfigImageWrite (serial : Nat) (s : State) : Host.Outcome State Fault Refusal :=
  done (cfgWriteStart s serial)

/-- FIRMWARE_STAGE (R377). -/
def execFirmwareStage (serial : Nat) (s : State) : Host.Outcome State Fault Refusal :=
  done (fwStageStart s serial)

/-- SNAPSHOT (R294). -/
def execSnapshot (serial : Nat) (s : State) : Host.Outcome State Fault Refusal :=
  done (snapshotStart s serial)

/-- FENCE (R83). -/
def execFence (serial : Nat) (s : State) : Host.Outcome State Fault Refusal :=
  done (fenceStart s serial)

/-- ADMISSION_END (R108): the orders that lie in host memory, as its reads return them. -/
def execAdmissionEnd (c : Fin 56) (orders : List (Nat × HostRd)) (s : State) : Host.Outcome State Fault Refusal :=
  done (admissionEnd s c orders)

/-- ORDER_FETCH_RETURN (R109). -/
def execOrderFetchReturn (c : Fin 56) (data : HostRd) (late : Bool) (s : State) : Host.Outcome State Fault Refusal :=
  done (fetchReturn s c data late)

/-- FETCH_TIMEOUT (R89). -/
def execFetchTimeout (c : Fin 56) (s : State) : Host.Outcome State Fault Refusal :=
  done (fetchTimeout s c)

/-- HOST_TRANSFER_TIMEOUT (R89). -/
def execHostTransferTimeout (c : Fin 56) (s : State) : Host.Outcome State Fault Refusal :=
  done (hostTransferTimeout s c)

/-- RECEIVE (R100). -/
def execReceive (c : Fin 56) (s : State) : Host.Outcome State Fault Refusal :=
  done (ordReceive s c)

/-- TRANSMIT (R100). -/
def execTransmit (c : Fin 56) (data : HostRd) (s : State) : Host.Outcome State Fault Refusal :=
  done (ordTransmit s c data)

/-- EXCHANGE (R189). -/
def execExchange (c : Fin 56) (data : HostRd) (s : State) : Host.Outcome State Fault Refusal :=
  done (ordExchange s c data)

/-- WAIT (R94). -/
def execWait (c : Fin 56) (s : State) : Host.Outcome State Fault Refusal :=
  done (ordWait s c)

/-- JUMP (R93). -/
def execJump (c : Fin 56) (s : State) : Host.Outcome State Fault Refusal :=
  done (ordJump s c)

/-- CALL_KEEPER (R104). -/
def execCallKeeper (c : Fin 56) (s : State) : Host.Outcome State Fault Refusal :=
  done (ordCall s c)

/-- PUBLISH (R105). -/
def execPublish (c : Fin 56) (s : State) : Host.Outcome State Fault Refusal :=
  done (ordPublish s c)

/-- SKIPIF (R99). -/
def execSkipif (c : Fin 56) (s : State) : Host.Outcome State Fault Refusal :=
  done (ordSkipif s c)

/-- MARK (R106). -/
def execMark (c : Fin 56) (s : State) : Host.Outcome State Fault Refusal :=
  done (ordMark s c)

/-- LOOP (R98). -/
def execLoop (c : Fin 56) (s : State) : Host.Outcome State Fault Refusal :=
  done (ordLoop s c)

/-- STOP (R93). -/
def execStop (c : Fin 56) (s : State) : Host.Outcome State Fault Refusal :=
  done (ordStop s c)

/-- ORDER_DONE (R93). -/
def execOrderDone (c : Fin 56) (s : State) : Host.Outcome State Fault Refusal :=
  done (orderDone s c)

/-- ORDER_TIMEOUT (R100). -/
def execOrderTimeout (x : TimedOut) (s : State) : Host.Outcome State Fault Refusal :=
  done (orderTimesOut s x.chan x.left.toNat)

end Sys2Proof.Machine
end

