-- ==== Sys2Proof/Machine/CmdStorage.lean ====
section
/-!
DEFINITION. Commands: compression, placement, segments and drives (12, 13).
-/
namespace Sys2Proof.Machine

/-- COMPRESSION_DONE (R273). -/
def execCompressionDone (id : Nat) (s : State) : Host.Outcome State Fault Refusal :=
  done (orderlyCheck (compressionDone s id))

/-- DEGRADATION_STEP (R288). -/
def execDegradationStep (s : State) : Host.Outcome State Fault Refusal :=
  done (orderlyCheck (degradeStep s))

/-- SEGMENT_COMMIT (R310). -/
def execSegmentCommit (n : Fin 4) (s : State) : Host.Outcome State Fault Refusal :=
  done (orderlyCheck (segCommit s n))

/-- COMMIT_MS_EXPIRE (R310). -/
def execCommitMsExpire (n : Fin 4) (s : State) : Host.Outcome State Fault Refusal :=
  done (orderlyCheck (commitExpire s n))

/-- SPAN_WRITE_DONE (R310). -/
def execSpanWriteDone (n : Fin 4) (id : Nat) (s : State) : Host.Outcome State Fault Refusal :=
  done (orderlyCheck (spanWritten s n id))

/-- FOOTER_WRITE_DONE (R310). -/
def execFooterWriteDone (n : Fin 4) (s : State) : Host.Outcome State Fault Refusal :=
  done (orderlyCheck (footerWritten s n))

/-- FLUSH_DONE (R310). -/
def execFlushDone (n : Fin 4) (s : State) : Host.Outcome State Fault Refusal :=
  done (orderlyCheck (flushDone s n))

/-- SUPERBLOCK_WRITE_DONE (R300). -/
def execSuperblockWriteDone (n : Fin 4) (s : State) : Host.Outcome State Fault Refusal :=
  done (orderlyCheck (superWritten s n))

/-- DRIVE_PRESENT (R286). -/
def execDrivePresent (n : Fin 4) (s : State) : Host.Outcome State Fault Refusal :=
  done (orderlyCheck (drivePresent s n))

/-- DRIVE_PERST_RELEASE (R286). -/
def execDrivePerstRelease (n : Fin 4) (s : State) : Host.Outcome State Fault Refusal :=
  done (orderlyCheck (drivePerst s n))

/-- DRIVE_LINK_UP (R286). -/
def execDriveLinkUp (n : Fin 4) (width : BitVec 3) (s : State) : Host.Outcome State Fault Refusal :=
  done (orderlyCheck (driveLinkUp s n width.toNat))

/-- DRIVE_LINK_TIMEOUT (R283). -/
def execDriveLinkTimeout (n : Fin 4) (s : State) : Host.Outcome State Fault Refusal :=
  done (orderlyCheck (driveLinkTimeout s n))

/-- DRIVE_IDENTIFY_DONE (R301). -/
def execDriveIdentifyDone (n : Fin 4) (d : DriveId) (s : State) : Host.Outcome State Fault Refusal :=
  done (orderlyCheck (driveIdentified s n d))

/-- NVME_COMPLETION_POLL (R284): `comps`: the completions found, each the place of its command among those posted and not yet
completed, and whether it reports an error. -/
def execNvmeCompletionPoll (n : Fin 4) (comps : List (Nat × Bool)) (s : State) : Host.Outcome State Fault Refusal :=
  done (orderlyCheck (nvmePoll s n comps))

/-- DRIVE_COMMAND_TIMEOUT (R283). -/
def execDriveCommandTimeout (n : Fin 4) (s : State) : Host.Outcome State Fault Refusal :=
  done (orderlyCheck (driveTimeout s n))

/-- SMART_POLL (R284). -/
def execSmartPoll (n : Fin 4) (warn : Byte) (s : State) : Host.Outcome State Fault Refusal :=
  done (orderlyCheck (smartPoll s n warn.toNat))

/-- DRIVE_LINK_LOST (R283). -/
def execDriveLinkLost (n : Fin 4) (s : State) : Host.Outcome State Fault Refusal :=
  done (orderlyCheck (driveLinkLost s n))

/-- DRIVE_REMOVED (R286). -/
def execDriveRemoved (n : Fin 4) (s : State) : Host.Outcome State Fault Refusal :=
  done (orderlyCheck (driveRemoved s n))

/-- DRIVE_FORMAT (R287). -/
def execDriveFormat (n : Fin 4) (v : Word) (s : State) : Host.Outcome State Fault Refusal :=
  done (orderlyCheck (hostWrite64 s (Reg.DRIVE_CTRL n) (withField v.toNat (Fld.DRIVE_CTRL_FORMAT n) 1)))

/-- DRIVE_EJECT (R286). -/
def execDriveEject (n : Fin 4) (v : Word) (s : State) : Host.Outcome State Fault Refusal :=
  done (orderlyCheck (hostWrite64 s (Reg.DRIVE_CTRL n) (withField v.toNat (Fld.DRIVE_CTRL_EJECT n) 1)))

/-- DRIVE_ENABLE (R286). -/
def execDriveEnable (n : Fin 4) (v : Word) (s : State) : Host.Outcome State Fault Refusal :=
  done (orderlyCheck (hostWrite64 s (Reg.DRIVE_CTRL n) v.toNat))

end Sys2Proof.Machine
end

