-- ==== Sys2Proof/Machine/CmdSystem.lean ====
section
/-!
DEFINITION. Commands: reset inputs, self-test, supply and temperature (15, 16), the tick and the timebase (02).
-/
namespace Sys2Proof.Machine

/-- PORESET (R354, R413): whether VDD_AON has come up with it, and what its fall tore. -/
def execPoreset (b : Boot) (p : PowerUp) (s : State) : Host.Outcome State Fault Refusal :=
  done (poreset s b p)

/-- WARMRESET (R354). -/
def execWarmreset (b : Boot) (s : State) : Host.Outcome State Fault Refusal :=
  done (warmReset s b)

/-- HOST_PERST (R356). -/
def execHostPerst (s : State) : Host.Outcome State Fault Refusal :=
  done ((hostLinkDown s).put Fld.LINK_STATE_HOST_WIDTH 0)

/-- SELFTEST_COMPLETE (R359). -/
def execSelftestComplete (t : SelfTest) (s : State) : Host.Outcome State Fault Refusal :=
  done (selftestComplete s t)

/-- FW_TRIAL_TIMEOUT (R378). -/
def execFwTrialTimeout (b : Boot) (s : State) : Host.Outcome State Fault Refusal :=
  done (trialTimeout s b)

/-- SUPPLY_WARN (R350): monitor `n`, at the level of `d`, is below its own since `ts`; others may cross with it. -/
def execSupplyWarn (n : Fin 10) (d : DipStart) (ts : Word) (s : State) : Host.Outcome State Fault Refusal :=
  done (orderlyCheck (supplyWarn s (⟨n, d.mv, ts⟩ :: d.also)))

/-- SUPPLY_RECOVER (R350): the ten levels, and the lowest in the dip. -/
def execSupplyRecover (levels : List Half) (low : Half) (s : State) : Host.Outcome State Fault Refusal :=
  done (orderlyCheck (supplyRecover s (levels.map (·.toNat)) low.toNat))

/-- SUPPLY_RESET (R351). -/
def execSupplyReset (n : Fin 10) (mv : Half) (b : Boot) (s : State) : Host.Outcome State Fault Refusal :=
  done (supplyReset s n mv.toNat b)

/-- THERMAL_SAMPLE (R352): sixteen signed temperatures. -/
def execThermalSample (temps : List Byte) (s : State) : Host.Outcome State Fault Refusal :=
  done (orderlyCheck (thermalSample s (temps.map (·.toInt))))

/-- TICK_EDGE (R35). -/
def execTickEdge (s : State) : Host.Outcome State Fault Refusal :=
  done (tickEdge s)

/-- SUB_TICK_SWAP (R37). -/
def execSubTickSwap (c : Fin 56) (j : Fin 16) (s : State) : Host.Outcome State Fault Refusal :=
  done (subTickSwap s c j)

/-- WAIT_EXPIRE (R36). -/
def execWaitExpire (c : Fin 56) (s : State) : Host.Outcome State Fault Refusal :=
  done (waitExpire s c)

/-- TICK_CFG_WRITE (R33). -/
def execTickCfgWrite (v : Word) (s : State) : Host.Outcome State Fault Refusal :=
  done (hostWrite64 s Reg.TICK_CFG v.toNat)

/-- LS_COMMIT (R39). -/
def execLsCommit (v : Word) (s : State) : Host.Outcome State Fault Refusal :=
  done (hostWrite64 s Reg.LS_CTRL (withField v.toNat Fld.LS_CTRL_COMMIT 1))

/-- KEY_CFG_WRITE (R41). -/
def execKeyCfgWrite (v : Word) (s : State) : Host.Outcome State Fault Refusal :=
  done (hostWrite64 s Reg.KEY_CFG v.toNat)

/-- TIME_NS_READ (R31). -/
def execTimeNsRead (s : State) : Host.Outcome State Fault Refusal :=
  done (hostRead64 s Reg.TIME_NS)

/-- TB_CTRL_WRITE (R47). -/
def execTbCtrlWrite (v : Word) (s : State) : Host.Outcome State Fault Refusal :=
  done (hostWrite64 s Reg.TB_CTRL v.toNat)

/-- PPS_IN_EDGE (R46). -/
def execPpsInEdge (s : State) : Host.Outcome State Fault Refusal :=
  done (ppsIn s)

/-- HOLDOVER_TIMEOUT (R47). -/
def execHoldoverTimeout (s : State) : Host.Outcome State Fault Refusal :=
  done (holdoverTimeout s)

/-- STEP_GO (R49). -/
def execStepGo (v : Word) (s : State) : Host.Outcome State Fault Refusal :=
  done (hostWrite64 s Reg.STEP_CTRL (withField v.toNat Fld.STEP_CTRL_GO 1))

/-- PPS_OUT_RISE (R422). -/
def execPpsOutRise (s : State) : Host.Outcome State Fault Refusal :=
  done (ppsRise s)

/-- PPS_OUT_FALL (R422). -/
def execPpsOutFall (s : State) : Host.Outcome State Fault Refusal :=
  done (ppsFall s)

end Sys2Proof.Machine
end

