-- ==== Sys2Proof/Machine/CmdTile.lean ====
section
/-!
DEFINITION. Commands: traps, events and tile services of the keeper (05, 06, 10, 11), the FIFOs (07).
-/
namespace Sys2Proof.Machine

/-- UNDEFINED_INSTRUCTION (R144). -/
def execUndefinedInstruction (c : Fin 56) (t : Fin 8) (s : State) : Host.Outcome State Fault Refusal :=
  done (inSlot s c t (fun s => kUndefined s c t))

/-- BUDGET_TRAP (R44). -/
def execBudgetTrap (c : Fin 56) (t : Fin 8) (s : State) : Host.Outcome State Fault Refusal :=
  done (inSlot s c t (fun s => kBudgetTrap s c t))

/-- THREAD_INTERRUPT_TRAP (R161): `spent` cycles of a DIVQ have passed. -/
def execThreadInterruptTrap (c : Fin 56) (t : Fin 8) (spent : Fin 17) (s : State) : Host.Outcome State Fault Refusal :=
  done (inSlot s c t (fun s => kInterruptTrap s c t spent))

/-- WAITEV_WAKE (R163). -/
def execWaitevWake (c : Fin 56) (t : Fin 8) (s : State) : Host.Outcome State Fault Refusal :=
  done (kWake s c t)

/-- KEEPER_EOI (R161). -/
def execKeeperEoi (c : Fin 56) (t : Fin 8) (s : State) : Host.Outcome State Fault Refusal :=
  done (icEoi s (tgtThread c t))

/-- MB_REPLY (R167). -/
def execMbReply (c : Fin 56) (t : Fin 8) (v : Byte) (s : State) : Host.Outcome State Fault Refusal :=
  done (mbReply s c t v.toNat)

/-- PUB_GO (R253). -/
def execPubGo (c : Fin 56) (s : State) : Host.Outcome State Fault Refusal :=
  done (pubGo s c)

/-- CH_COMMIT_WINDOW (R235). -/
def execChCommitWindow (c : Fin 56) (t : Fin 8) (w : Long) (s : State) : Host.Outcome State Fault Refusal :=
  done (chCommitWrite s c t (withSrc w.toNat 0))

/-- CH_COMMIT_RX (R236). -/
def execChCommitRx (c : Fin 56) (t : Fin 8) (w : Long) (s : State) : Host.Outcome State Fault Refusal :=
  done (chCommitWrite s c t (withSrc w.toNat 1))

/-- COMMIT_COPY_DONE (R235). -/
def execCommitCopyDone (c : Fin 56) (t : Fin 8) (s : State) : Host.Outcome State Fault Refusal :=
  done (copyEnd s c t)

/-- CS_DATA_WRITE (R427). -/
def execCsDataWrite (c : Fin 56) (h : Half) (s : State) : Host.Outcome State Fault Refusal :=
  done (csWrite s c h)

/-- CS_PROGRAM_DONE (R427). -/
def execCsProgramDone (c : Fin 56) (s : State) : Host.Outcome State Fault Refusal :=
  done (csProgrammed s c)

/-- KEEPER_TIME_READ (R31). -/
def execKeeperTimeRead (c : Fin 56) (t : Fin 8) (s : State) : Host.Outcome State Fault Refusal :=
  done ((ioRead s c t 0xB600 8).2)

/-- RX_DATA_READ (R188). -/
def execRxDataRead (c : Fin 56) (s : State) : Host.Outcome State Fault Refusal :=
  done ((rxDataRead s c).2)

/-- RX_POP (R188). -/
def execRxPop (c : Fin 56) (s : State) : Host.Outcome State Fault Refusal :=
  done (rxPop s c)

/-- TX_DATA_WRITE (R188). -/
def execTxDataWrite (c : Fin 56) (v : Word) (s : State) : Host.Outcome State Fault Refusal :=
  done (txDataWrite s c v)

/-- TX_PUSH (R189). -/
def execTxPush (c : Fin 56) (s : State) : Host.Outcome State Fault Refusal :=
  done (txPush s c)

/-- MBI_DATA_READ (R188). -/
def execMbiDataRead (c : Fin 56) (s : State) : Host.Outcome State Fault Refusal :=
  done ((mbiRead s c).2)

/-- KEEPER_MBO_PUSH (R188). -/
def execKeeperMboPush (c : Fin 56) (v : Word) (s : State) : Host.Outcome State Fault Refusal :=
  done (mboPush s c v)

/-- HOST_MBI_PUSH (R188). -/
def execHostMbiPush (c : Fin 56) (v : Word) (s : State) : Host.Outcome State Fault Refusal :=
  done (hostWrite64 s (Reg.MBI_DATA c) v.toNat)

/-- HOST_MBO_READ (R188). -/
def execHostMboRead (c : Fin 56) (s : State) : Host.Outcome State Fault Refusal :=
  done (hostRead64 s (Reg.MBO_DATA c))

end Sys2Proof.Machine
end

