-- ==== Sys2Proof/Machine/CmdToll.lean ====
section
/-!
DEFINITION. Commands: the mailbox and the Toll House (16).
-/
namespace Sys2Proof.Machine

/-- GET_INFO (R371). -/
def execGetInfo (s : State) : Host.Outcome State Fault Refusal :=
  done (mbInfo s)

/-- SENSORS (R371). -/
def execSensors (s : State) : Host.Outcome State Fault Refusal :=
  done (mbSense s)

/-- LOG_READ (R371). -/
def execLogRead (s : State) : Host.Outcome State Fault Refusal :=
  done (mbLogStart s)

/-- REPAIR_READ (R371). -/
def execRepairRead (s : State) : Host.Outcome State Fault Refusal :=
  done (mbReadStart s mbRepairRead)

/-- REPAIR_CLEAR (R371). -/
def execRepairClear (s : State) : Host.Outcome State Fault Refusal :=
  done (mbRepClear s)

/-- MB_HALT (R371). -/
def execMbHalt (s : State) : Host.Outcome State Fault Refusal :=
  done (mbHalt s)

/-- MB_RESET (R372). -/
def execMbReset (s : State) : Host.Outcome State Fault Refusal :=
  done (orderlyCheck (mbReset s))

/-- MB_RESET_FIRE (R371). -/
def execMbResetFire (b : Boot) (s : State) : Host.Outcome State Fault Refusal :=
  done (resetFire s b)

/-- ORDERLY_RESET_TIMEOUT (R372). -/
def execOrderlyResetTimeout (s : State) : Host.Outcome State Fault Refusal :=
  done (orderlyTimeout s)

/-- KEY_WRITE (R375). -/
def execKeyWrite (s : State) : Host.Outcome State Fault Refusal :=
  done (mbKeyPut s)

/-- KEY_CLEAR (R375). -/
def execKeyClear (s : State) : Host.Outcome State Fault Refusal :=
  done (mbKeyErase s)

/-- KEY_INFO (R371). -/
def execKeyInfo (s : State) : Host.Outcome State Fault Refusal :=
  done (mbKeys s)

/-- FW_RECOVER (R377). -/
def execFwRecover (s : State) : Host.Outcome State Fault Refusal :=
  done (mbRecoverStart s)

/-- FW_SELECT (R378). -/
def execFwSelect (s : State) : Host.Outcome State Fault Refusal :=
  done (mbSelect s)

/-- DEBUG_CHALLENGE (R380). -/
def execDebugChallenge (s : State) : Host.Outcome State Fault Refusal :=
  done (mbDebugChallenge s)

/-- DEBUG_UNLOCK (R380). -/
def execDebugUnlock (s : State) : Host.Outcome State Fault Refusal :=
  done (mbDebugUnlock s)

/-- DEBUG_NONCE_EXPIRE (R380). -/
def execDebugNonceExpire (s : State) : Host.Outcome State Fault Refusal :=
  done (nonceExpire s)

/-- COSIGN_SET (R379). -/
def execCosignSet (s : State) : Host.Outcome State Fault Refusal :=
  done (mbCosignSet s)

/-- CONFIG_READ (R371). -/
def execConfigRead (s : State) : Host.Outcome State Fault Refusal :=
  done (mbReadStart s mbConfigRead)

/-- MAILBOX_LONG_DONE (R370). -/
def execMailboxLongDone (data : HostRd) (s : State) : Host.Outcome State Fault Refusal :=
  done (mbLongDone s data)

/-- LOG_RATE_SECOND (R374). -/
def execLogRateSecond (s : State) : Host.Outcome State Fault Refusal :=
  done (logSecond s)

/-- DRYDOCK_CONSOLE_REPEAT (R363). -/
def execDrydockConsoleRepeat (s : State) : Host.Outcome State Fault Refusal :=
  done (drydockConsole s)

/-- STAT_BLINK (R361). -/
def execStatBlink (s : State) : Host.Outcome State Fault Refusal :=
  done (statBlink s)

/-- UNKNOWN_CMD (R370). -/
def execUnknownCmd (v : Word) (s : State) : Host.Outcome State Fault Refusal :=
  done (unknownCmd s v)

/-- JTAG_INSTRUCTION (R380). -/
def execJtagInstruction (o : JtagOp) (s : State) : Host.Outcome State Fault Refusal :=
  done (jtagOp s o)

end Sys2Proof.Machine
end

