-- ==== Sys2Proof/Machine/CmdTowpath.lean ====
section
/-!
DEFINITION. Commands: the towpath (17).
-/
namespace Sys2Proof.Machine

/-- TP_SIGNAL_DETECT (R386). -/
def execTpSignalDetect (p : Fin 2) (s : State) : Host.Outcome State Fault Refusal :=
  done (tpSignal s p)

/-- TP_BLOCK_LOCK (R386): on both lane pairs or on one. -/
def execTpBlockLock (p : Fin 2) (two : Bool) (s : State) : Host.Outcome State Fault Refusal :=
  done (tpLock s p two)

/-- TP_TRAINING_TIMEOUT (R386). -/
def execTpTrainingTimeout (p : Fin 2) (s : State) : Host.Outcome State Fault Refusal :=
  done (tpTrainTimeout s p)

/-- TP_RETRY (R386). -/
def execTpRetry (p : Fin 2) (s : State) : Host.Outcome State Fault Refusal :=
  done (tpRetry s p)

/-- TP_HELLO_SEND (R385). -/
def execTpHelloSend (p : Fin 2) (s : State) : Host.Outcome State Fault Refusal :=
  done (tpHelloSend s p)

/-- HELLO (R386). -/
def execHello (p : Fin 2) (f : TpFrame) (s : State) : Host.Outcome State Fault Refusal :=
  done (tpHelloIn s p f)

/-- TP_HELLO_TIMEOUT (R386). -/
def execTpHelloTimeout (p : Fin 2) (s : State) : Host.Outcome State Fault Refusal :=
  done (tpHelloLost s p)

/-- TP_LINK_LOSS (R386). -/
def execTpLinkLoss (p : Fin 2) (s : State) : Host.Outcome State Fault Refusal :=
  done (tpLoss s p)

/-- SYNC_REQ_SEND (R389). -/
def execSyncReqSend (s : State) : Host.Outcome State Fault Refusal :=
  done (syncReqSend s)

/-- SYNC_REQ (R389). -/
def execSyncReq (p : Fin 2) (f : TpFrame) (s : State) : Host.Outcome State Fault Refusal :=
  done (syncReq s p f)

/-- SYNC_RSP (R389). -/
def execSyncRsp (p : Fin 2) (f : TpFrame) (s : State) : Host.Outcome State Fault Refusal :=
  done (syncRsp s p f)

/-- KS_EVENT (R391). -/
def execKsEvent (p : Fin 2) (f : TpFrame) (s : State) : Host.Outcome State Fault Refusal :=
  done (tpKsIn s p f)

/-- SIGNALS (R392). -/
def execSignals (p : Fin 2) (f : TpFrame) (s : State) : Host.Outcome State Fault Refusal :=
  done (tpSignalsIn s p f)

/-- BEACON_SEND (R393). -/
def execBeaconSend (p : Fin 2) (s : State) : Host.Outcome State Fault Refusal :=
  done (beaconSend s p)

/-- BEACON (R393). -/
def execBeacon (p : Fin 2) (f : TpFrame) (s : State) : Host.Outcome State Fault Refusal :=
  done (tpBeaconIn s p f)

end Sys2Proof.Machine
end

