-- ==== Sys2Proof/Machine/Dispatch.lean ====
section
/-!
DEFINITION. One arm per command: each calls the meaning of its row.
-/
namespace Sys2Proof.Machine

/-- The effect of a command (everything but the queue). -/
def exec (i : Instr) (s : State) : Host.Outcome State Fault Refusal :=
  match i with
  | .poreset b p => Sys2Proof.Machine.execPoreset b p s
  | .warmreset b => Sys2Proof.Machine.execWarmreset b s
  | .hostPerst => Sys2Proof.Machine.execHostPerst s
  | .selftestComplete t => Sys2Proof.Machine.execSelftestComplete t s
  | .fwTrialTimeout b => Sys2Proof.Machine.execFwTrialTimeout b s
  | .supplyWarn n d ts => Sys2Proof.Machine.execSupplyWarn n d ts s
  | .supplyRecover levels low => Sys2Proof.Machine.execSupplyRecover levels low s
  | .supplyReset n mv b => Sys2Proof.Machine.execSupplyReset n mv b s
  | .thermalSample temps => Sys2Proof.Machine.execThermalSample temps s
  | .tickEdge => Sys2Proof.Machine.execTickEdge s
  | .subTickSwap c j => Sys2Proof.Machine.execSubTickSwap c j s
  | .waitExpire c => Sys2Proof.Machine.execWaitExpire c s
  | .tickCfgWrite v => Sys2Proof.Machine.execTickCfgWrite v s
  | .lsCommit v => Sys2Proof.Machine.execLsCommit v s
  | .keyCfgWrite v => Sys2Proof.Machine.execKeyCfgWrite v s
  | .timeNsRead => Sys2Proof.Machine.execTimeNsRead s
  | .tbCtrlWrite v => Sys2Proof.Machine.execTbCtrlWrite v s
  | .ppsInEdge => Sys2Proof.Machine.execPpsInEdge s
  | .holdoverTimeout => Sys2Proof.Machine.execHoldoverTimeout s
  | .stepGo v => Sys2Proof.Machine.execStepGo v s
  | .ppsOutRise => Sys2Proof.Machine.execPpsOutRise s
  | .ppsOutFall => Sys2Proof.Machine.execPpsOutFall s
  | .wqEnable n v => Sys2Proof.Machine.execWqEnable n v s
  | .wqDisable n v => Sys2Proof.Machine.execWqDisable n v s
  | .wqPoll n => Sys2Proof.Machine.execWqPoll n s
  | .wqPollReturn n data => Sys2Proof.Machine.execWqPollReturn n data s
  | .entryDispatch => Sys2Proof.Machine.execEntryDispatch s
  | .crEnable r v => Sys2Proof.Machine.execCrEnable r v s
  | .crDisable r v => Sys2Proof.Machine.execCrDisable r v s
  | .crHeadWrite r v => Sys2Proof.Machine.execCrHeadWrite r v s
  | .longOpStepDone serial data => Sys2Proof.Machine.execLongOpStepDone serial data s
  | .fenceComplete serial => Sys2Proof.Machine.execFenceComplete serial s
  | .hostD3hotEntry => Sys2Proof.Machine.execHostD3hotEntry s
  | .hostD0Return => Sys2Proof.Machine.execHostD0Return s
  | .hostBmeClear => Sys2Proof.Machine.execHostBmeClear s
  | .pmeRepeat => Sys2Proof.Machine.execPmeRepeat s
  | .hostLinkDown => Sys2Proof.Machine.execHostLinkDown s
  | .routeStart c => Sys2Proof.Machine.execRouteStart c s
  | .routeResume c => Sys2Proof.Machine.execRouteResume c s
  | .routeSuspend c => Sys2Proof.Machine.execRouteSuspend c s
  | .routeHalt c => Sys2Proof.Machine.execRouteHalt c s
  | .channelEnable c => Sys2Proof.Machine.execChannelEnable c s
  | .channelDisable c => Sys2Proof.Machine.execChannelDisable c s
  | .channelReseat c ok => Sys2Proof.Machine.execChannelReseat c ok s
  | .keeperLoad c => Sys2Proof.Machine.execKeeperLoad c s
  | .keeperThreadStart c => Sys2Proof.Machine.execKeeperThreadStart c s
  | .keeperThreadStop c => Sys2Proof.Machine.execKeeperThreadStop c s
  | .streamDefine serial data => Sys2Proof.Machine.execStreamDefine serial data s
  | .streamClose serial => Sys2Proof.Machine.execStreamClose serial s
  | .streamCloseDone n abandon => Sys2Proof.Machine.execStreamCloseDone n abandon s
  | .keystoneLoad serial data => Sys2Proof.Machine.execKeystoneLoad serial data s
  | .readback serial => Sys2Proof.Machine.execReadback serial s
  | .regBatch serial data => Sys2Proof.Machine.execRegBatch serial data s
  | .configImageWrite serial => Sys2Proof.Machine.execConfigImageWrite serial s
  | .firmwareStage serial => Sys2Proof.Machine.execFirmwareStage serial s
  | .snapshot serial => Sys2Proof.Machine.execSnapshot serial s
  | .fence serial => Sys2Proof.Machine.execFence serial s
  | .admissionEnd c orders => Sys2Proof.Machine.execAdmissionEnd c orders s
  | .orderFetchReturn c data late => Sys2Proof.Machine.execOrderFetchReturn c data late s
  | .fetchTimeout c => Sys2Proof.Machine.execFetchTimeout c s
  | .hostTransferTimeout c => Sys2Proof.Machine.execHostTransferTimeout c s
  | .receive c => Sys2Proof.Machine.execReceive c s
  | .transmit c data => Sys2Proof.Machine.execTransmit c data s
  | .exchange c data => Sys2Proof.Machine.execExchange c data s
  | .wait c => Sys2Proof.Machine.execWait c s
  | .jump c => Sys2Proof.Machine.execJump c s
  | .callKeeper c => Sys2Proof.Machine.execCallKeeper c s
  | .publish c => Sys2Proof.Machine.execPublish c s
  | .skipif c => Sys2Proof.Machine.execSkipif c s
  | .mark c => Sys2Proof.Machine.execMark c s
  | .loop c => Sys2Proof.Machine.execLoop c s
  | .stop c => Sys2Proof.Machine.execStop c s
  | .orderDone c => Sys2Proof.Machine.execOrderDone c s
  | .orderTimeout x => Sys2Proof.Machine.execOrderTimeout x s
  | .movB c t d r => Sys2Proof.Machine.execMovB c t d r s
  | .addB c t d r => Sys2Proof.Machine.execAddB c t d r s
  | .subB c t d r => Sys2Proof.Machine.execSubB c t d r s
  | .andB c t d r => Sys2Proof.Machine.execAndB c t d r s
  | .orB c t d r => Sys2Proof.Machine.execOrB c t d r s
  | .xorB c t d r => Sys2Proof.Machine.execXorB c t d r s
  | .notB c t d r => Sys2Proof.Machine.execNotB c t d r s
  | .negB c t d r => Sys2Proof.Machine.execNegB c t d r s
  | .shlB c t d r => Sys2Proof.Machine.execShlB c t d r s
  | .shrB c t d r => Sys2Proof.Machine.execShrB c t d r s
  | .sarB c t d r => Sys2Proof.Machine.execSarB c t d r s
  | .rolB c t d r => Sys2Proof.Machine.execRolB c t d r s
  | .minuB c t d r => Sys2Proof.Machine.execMinuB c t d r s
  | .maxuB c t d r => Sys2Proof.Machine.execMaxuB c t d r s
  | .swnB c t d r => Sys2Proof.Machine.execSwnB c t d r s
  | .moviB c t d imm => Sys2Proof.Machine.execMoviB c t d imm s
  | .addiB c t d imm => Sys2Proof.Machine.execAddiB c t d imm s
  | .andiB c t d imm => Sys2Proof.Machine.execAndiB c t d imm s
  | .oriB c t d imm => Sys2Proof.Machine.execOriB c t d imm s
  | .shlBImm c t d u => Sys2Proof.Machine.execShlBImm c t d u s
  | .shrBImm c t d u => Sys2Proof.Machine.execShrBImm c t d u s
  | .sarBImm c t d u => Sys2Proof.Machine.execSarBImm c t d u s
  | .rolBImm c t d u => Sys2Proof.Machine.execRolBImm c t d u s
  | .movW c t x y => Sys2Proof.Machine.execMovW c t x y s
  | .addW c t x y => Sys2Proof.Machine.execAddW c t x y s
  | .subW c t x y => Sys2Proof.Machine.execSubW c t x y s
  | .addqW c t x imm => Sys2Proof.Machine.execAddqW c t x imm s
  | .addxW c t x y => Sys2Proof.Machine.execAddxW c t x y s
  | .movlB c t x y => Sys2Proof.Machine.execMovlB c t x y s
  | .movhB c t x y => Sys2Proof.Machine.execMovhB c t x y s
  | .movzW c t x y => Sys2Proof.Machine.execMovzW c t x y s
  | .inshW c t x y => Sys2Proof.Machine.execInshW c t x y s
  | .movzLD c t x y => Sys2Proof.Machine.execMovzLD c t x y s
  | .movsLD c t x y => Sys2Proof.Machine.execMovsLD c t x y s
  | .movzLA c t x y => Sys2Proof.Machine.execMovzLA c t x y s
  | .movsLA c t x y => Sys2Proof.Machine.execMovsLA c t x y s
  | .movBQ c t x y => Sys2Proof.Machine.execMovBQ c t x y s
  | .movWQ c t x y => Sys2Proof.Machine.execMovWQ c t x y s
  | .shinL c t x y => Sys2Proof.Machine.execShinL c t x y s
  | .shoutL c t x y => Sys2Proof.Machine.execShoutL c t x y s
  | .movL c t d r => Sys2Proof.Machine.execMovL c t d r s
  | .addL c t d r => Sys2Proof.Machine.execAddL c t d r s
  | .subL c t d r => Sys2Proof.Machine.execSubL c t d r s
  | .andL c t d r => Sys2Proof.Machine.execAndL c t d r s
  | .orL c t d r => Sys2Proof.Machine.execOrL c t d r s
  | .xorL c t d r => Sys2Proof.Machine.execXorL c t d r s
  | .negL c t d r => Sys2Proof.Machine.execNegL c t d r s
  | .notL c t d r => Sys2Proof.Machine.execNotL c t d r s
  | .mul c t d r => Sys2Proof.Machine.execMul c t d r s
  | .mulu c t d r => Sys2Proof.Machine.execMulu c t d r s
  | .mac c t d r => Sys2Proof.Machine.execMac c t d r s
  | .macu c t d r => Sys2Proof.Machine.execMacu c t d r s
  | .shlL c t d r => Sys2Proof.Machine.execShlL c t d r s
  | .shrL c t d r => Sys2Proof.Machine.execShrL c t d r s
  | .sarL c t d r => Sys2Proof.Machine.execSarL c t d r s
  | .shlLImm c t q u => Sys2Proof.Machine.execShlLImm c t q u s
  | .shrLImm c t q u => Sys2Proof.Machine.execShrLImm c t q u s
  | .sarLImm c t q u => Sys2Proof.Machine.execSarLImm c t q u s
  | .rorL c t q u => Sys2Proof.Machine.execRorL c t q u s
  | .addqL c t q imm => Sys2Proof.Machine.execAddqL c t q imm s
  | .moviW c t n imm => Sys2Proof.Machine.execMoviW c t n imm s
  | .addiW c t n imm => Sys2Proof.Machine.execAddiW c t n imm s
  | .moviL c t q imm => Sys2Proof.Machine.execMoviL c t q imm s
  | .movhiL c t q imm => Sys2Proof.Machine.execMovhiL c t q imm s
  | .addiL c t q imm => Sys2Proof.Machine.execAddiL c t q imm s
  | .bfx c t d r pos wm1 => Sys2Proof.Machine.execBfx c t d r pos wm1 s
  | .bfi c t d r pos wm1 => Sys2Proof.Machine.execBfi c t d r pos wm1 s
  | .divq c t d x => Sys2Proof.Machine.execDivq c t d x s
  | .ldB c t d n u => Sys2Proof.Machine.execLdB c t d n u s
  | .stB c t d n u => Sys2Proof.Machine.execStB c t d n u s
  | .ldW c t d n u => Sys2Proof.Machine.execLdW c t d n u s
  | .stW c t d n u => Sys2Proof.Machine.execStW c t d n u s
  | .ldL c t q n u => Sys2Proof.Machine.execLdL c t q n u s
  | .stL c t q n u => Sys2Proof.Machine.execStL c t q n u s
  | .mm2Mov c t dm dr sm sr x => Sys2Proof.Machine.execMm2Mov c t dm dr sm sr x s
  | .mm2Add c t dm dr sm sr x => Sys2Proof.Machine.execMm2Add c t dm dr sm sr x s
  | .mm2Sub c t dm dr sm sr x => Sys2Proof.Machine.execMm2Sub c t dm dr sm sr x s
  | .mm2And c t dm dr sm sr x => Sys2Proof.Machine.execMm2And c t dm dr sm sr x s
  | .mm2Or c t dm dr sm sr x => Sys2Proof.Machine.execMm2Or c t dm dr sm sr x s
  | .mm2Xor c t dm dr sm sr x => Sys2Proof.Machine.execMm2Xor c t dm dr sm sr x s
  | .mm2Not c t dm dr sm sr x => Sys2Proof.Machine.execMm2Not c t dm dr sm sr x s
  | .mm2Neg c t dm dr sm sr x => Sys2Proof.Machine.execMm2Neg c t dm dr sm sr x s
  | .mm3Add c t dm dr am ar bm br x => Sys2Proof.Machine.execMm3Add c t dm dr am ar bm br x s
  | .mm3Sub c t dm dr am ar bm br x => Sys2Proof.Machine.execMm3Sub c t dm dr am ar bm br x s
  | .mm3And c t dm dr am ar bm br x => Sys2Proof.Machine.execMm3And c t dm dr am ar bm br x s
  | .mm3Or c t dm dr am ar bm br x => Sys2Proof.Machine.execMm3Or c t dm dr am ar bm br x s
  | .mm3Xor c t dm dr am ar bm br x => Sys2Proof.Machine.execMm3Xor c t dm dr am ar bm br x s
  | .mm3Minu c t dm dr am ar bm br x => Sys2Proof.Machine.execMm3Minu c t dm dr am ar bm br x s
  | .mm3Maxu c t dm dr am ar bm br x => Sys2Proof.Machine.execMm3Maxu c t dm dr am ar bm br x s
  | .cbP c t cond cls r q k => Sys2Proof.Machine.execCbP c t cond cls r q k s
  | .cb c t cond cls r q target => Sys2Proof.Machine.execCb c t cond cls r q target s
  | .cbi c t cond r imm disp => Sys2Proof.Machine.execCbi c t cond r imm disp s
  | .jmpP c t k => Sys2Proof.Machine.execJmpP c t k s
  | .callP c t k => Sys2Proof.Machine.execCallP c t k s
  | .retP c t => Sys2Proof.Machine.execRetP c t s
  | .jmp c t target => Sys2Proof.Machine.execJmp c t target s
  | .call c t target => Sys2Proof.Machine.execCall c t target s
  | .jmpIndirect c t n => Sys2Proof.Machine.execJmpIndirect c t n s
  | .callIndirect c t n => Sys2Proof.Machine.execCallIndirect c t n s
  | .ret c t => Sys2Proof.Machine.execRet c t s
  | .tbl c t k target => Sys2Proof.Machine.execTbl c t k target s
  | .tas c t d n => Sys2Proof.Machine.execTas c t d n s
  | .lrB c t d n => Sys2Proof.Machine.execLrB c t d n s
  | .scB c t d n => Sys2Proof.Machine.execScB c t d n s
  | .repImm c t u => Sys2Proof.Machine.execRepImm c t u s
  | .repReg c t n => Sys2Proof.Machine.execRepReg c t n s
  | .nop c t => Sys2Proof.Machine.execNop c t s
  | .yield c t => Sys2Proof.Machine.execYield c t s
  | .reti c t => Sys2Proof.Machine.execReti c t s
  | .iflush c t => Sys2Proof.Machine.execIflush c t s
  | .sys c t imm => Sys2Proof.Machine.execSys c t imm s
  | .brk c t imm => Sys2Proof.Machine.execBrk c t imm s
  | .waitev c t mask => Sys2Proof.Machine.execWaitev c t mask s
  | .signal c t u => Sys2Proof.Machine.execSignal c t u s
  | .undefinedInstruction c t => Sys2Proof.Machine.execUndefinedInstruction c t s
  | .budgetTrap c t => Sys2Proof.Machine.execBudgetTrap c t s
  | .threadInterruptTrap c t spent => Sys2Proof.Machine.execThreadInterruptTrap c t spent s
  | .waitevWake c t => Sys2Proof.Machine.execWaitevWake c t s
  | .keeperEoi c t => Sys2Proof.Machine.execKeeperEoi c t s
  | .mbReply c t v => Sys2Proof.Machine.execMbReply c t v s
  | .pubGo c => Sys2Proof.Machine.execPubGo c s
  | .chCommitWindow c t w => Sys2Proof.Machine.execChCommitWindow c t w s
  | .chCommitRx c t w => Sys2Proof.Machine.execChCommitRx c t w s
  | .commitCopyDone c t => Sys2Proof.Machine.execCommitCopyDone c t s
  | .csDataWrite c h => Sys2Proof.Machine.execCsDataWrite c h s
  | .csProgramDone c => Sys2Proof.Machine.execCsProgramDone c s
  | .keeperTimeRead c t => Sys2Proof.Machine.execKeeperTimeRead c t s
  | .rxDataRead c => Sys2Proof.Machine.execRxDataRead c s
  | .rxPop c => Sys2Proof.Machine.execRxPop c s
  | .txDataWrite c v => Sys2Proof.Machine.execTxDataWrite c v s
  | .txPush c => Sys2Proof.Machine.execTxPush c s
  | .mbiDataRead c => Sys2Proof.Machine.execMbiDataRead c s
  | .keeperMboPush c v => Sys2Proof.Machine.execKeeperMboPush c v s
  | .hostMbiPush c v => Sys2Proof.Machine.execHostMbiPush c v s
  | .hostMboRead c => Sys2Proof.Machine.execHostMboRead c s
  | .beModeWrite c v => Sys2Proof.Machine.execBeModeWrite c v s
  | .canFrame c f ts => Sys2Proof.Machine.execCanFrame c f ts s
  | .canProtocolError c kind tx primary => Sys2Proof.Machine.execCanProtocolError c kind tx primary s
  | .canRecoveryDone c => Sys2Proof.Machine.execCanRecoveryDone c s
  | .linHeader c h ts => Sys2Proof.Machine.execLinHeader c h ts s
  | .linFrame c f ts => Sys2Proof.Machine.execLinFrame c f ts s
  | .linResponseTimeout c pid rate => Sys2Proof.Machine.execLinResponseTimeout c pid rate s
  | .sentMessage c m ts => Sys2Proof.Machine.execSentMessage c m ts s
  | .psi5Frame c data ts check manchErr => Sys2Proof.Machine.execPsi5Frame c data ts check manchErr s
  | .psi5Sync c => Sys2Proof.Machine.execPsi5Sync c s
  | .uartCharacter c ch ts frErr paErr => Sys2Proof.Machine.execUartCharacter c ch ts frErr paErr s
  | .uartItemEnd c => Sys2Proof.Machine.execUartItemEnd c s
  | .digitalEdge c n level ts => Sys2Proof.Machine.execDigitalEdge c n level ts s
  | .captureEdge c n level ts => Sys2Proof.Machine.execCaptureEdge c n level ts s
  | .txItemSent c => Sys2Proof.Machine.execTxItemSent c s
  | .spiTransferDone c bs => Sys2Proof.Machine.execSpiTransferDone c bs s
  | .i2cTransferDone c addr bs => Sys2Proof.Machine.execI2cTransferDone c addr bs s
  | .i2cStretchTimeout c left => Sys2Proof.Machine.execI2cStretchTimeout c left s
  | .i2cArbLost c left => Sys2Proof.Machine.execI2cArbLost c left s
  | .i2cNack c ofAddr addr left => Sys2Proof.Machine.execI2cNack c ofAddr addr left s
  | .pinStuck c => Sys2Proof.Machine.execPinStuck c s
  | .busOnListen c => Sys2Proof.Machine.execBusOnListen c s
  | .busOn c => Sys2Proof.Machine.execBusOn c s
  | .busOff c => Sys2Proof.Machine.execBusOff c s
  | .setMode c => Sys2Proof.Machine.execSetMode c s
  | .clearPartners c => Sys2Proof.Machine.execClearPartners c s
  | .partnerScan c acks => Sys2Proof.Machine.execPartnerScan c acks s
  | .clearCounters c => Sys2Proof.Machine.execClearCounters c s
  | .setCfg c => Sys2Proof.Machine.execSetCfg c s
  | .senseCounters c => Sys2Proof.Machine.execSenseCounters c s
  | .senseBeStatus c => Sys2Proof.Machine.execSenseBeStatus c s
  | .sensePartnerTable c => Sys2Proof.Machine.execSensePartnerTable c s
  | .senseBusengConfig c => Sys2Proof.Machine.execSenseBusengConfig c s
  | .ethFilterDecision c sfd h => Sys2Proof.Machine.execEthFilterDecision c sfd h s
  | .ethPieceCommit c p => Sys2Proof.Machine.execEthPieceCommit c p s
  | .ethFrameEnd c data fcsErr codeErr => Sys2Proof.Machine.execEthFrameEnd c data fcsErr codeErr s
  | .ethFrameSent x => Sys2Proof.Machine.execEthFrameSent x s
  | .linkUp c speed => Sys2Proof.Machine.execLinkUp c speed s
  | .linkDown c data => Sys2Proof.Machine.execLinkDown c data s
  | .phyInt c => Sys2Proof.Machine.execPhyInt c s
  | .mdioGo c v => Sys2Proof.Machine.execMdioGo c v s
  | .mdioDone c data => Sys2Proof.Machine.execMdioDone c data s
  | .ptpSyncSend c => Sys2Proof.Machine.execPtpSyncSend c s
  | .ptpPdelaySend c => Sys2Proof.Machine.execPtpPdelaySend c s
  | .ptpMessage c m => Sys2Proof.Machine.execPtpMessage c m s
  | .telDatagramSend c => Sys2Proof.Machine.execTelDatagramSend c s
  | .bmArm c v => Sys2Proof.Machine.execBmArm c v s
  | .bmDisarm c v => Sys2Proof.Machine.execBmDisarm c v s
  | .bmShadowWrite c r v => Sys2Proof.Machine.execBmShadowWrite c r v s
  | .bmKick c => Sys2Proof.Machine.execBmKick c s
  | .bmAbort c => Sys2Proof.Machine.execBmAbort c s
  | .bmClear c => Sys2Proof.Machine.execBmClear c s
  | .handover c => Sys2Proof.Machine.execHandover c s
  | .bargeMove c => Sys2Proof.Machine.execBargeMove c s
  | .bargeMoveDone c data e => Sys2Proof.Machine.execBargeMoveDone c data e s
  | .bargeHostTimeout c data n => Sys2Proof.Machine.execBargeHostTimeout c data n s
  | .bargeLoop c => Sys2Proof.Machine.execBargeLoop c s
  | .bargeWait c => Sys2Proof.Machine.execBargeWait c s
  | .bargeWaitEnd c => Sys2Proof.Machine.execBargeWaitEnd c s
  | .bargeSignal c => Sys2Proof.Machine.execBargeSignal c s
  | .bargeSignalFire c => Sys2Proof.Machine.execBargeSignalFire c s
  | .bargeFence c => Sys2Proof.Machine.execBargeFence c s
  | .bargeFenceDone c ok => Sys2Proof.Machine.execBargeFenceDone c ok s
  | .bargeSetl c => Sys2Proof.Machine.execBargeSetl c s
  | .bargeSeth c => Sys2Proof.Machine.execBargeSeth c s
  | .bargeAdd c => Sys2Proof.Machine.execBargeAdd c s
  | .bargeMov c => Sys2Proof.Machine.execBargeMov c s
  | .bargeSwap c => Sys2Proof.Machine.execBargeSwap c s
  | .bargeRestore c => Sys2Proof.Machine.execBargeRestore c s
  | .bargeNop c => Sys2Proof.Machine.execBargeNop c s
  | .bargeStop c => Sys2Proof.Machine.execBargeStop c s
  | .bargeUndefined c => Sys2Proof.Machine.execBargeUndefined c s
  | .drainSlot n => Sys2Proof.Machine.execDrainSlot n s
  | .drainEnd c => Sys2Proof.Machine.execDrainEnd c s
  | .creditRelease => Sys2Proof.Machine.execCreditRelease s
  | .basinChamberDrain => Sys2Proof.Machine.execBasinChamberDrain s
  | .courseComplete => Sys2Proof.Machine.execCourseComplete s
  | .lostDrain c => Sys2Proof.Machine.execLostDrain c s
  | .ringConfigWrite size v => Sys2Proof.Machine.execRingConfigWrite size v s
  | .poundStatusRead => Sys2Proof.Machine.execPoundStatusRead s
  | .monMinRead n => Sys2Proof.Machine.execMonMinRead n s
  | .sigRangeWrite n v => Sys2Proof.Machine.execSigRangeWrite n v s
  | .sigHostPub v => Sys2Proof.Machine.execSigHostPub v s
  | .signalSlotRead live n => Sys2Proof.Machine.execSignalSlotRead live n s
  | .keystoneEvaluation k => Sys2Proof.Machine.execKeystoneEvaluation k s
  | .trigOutEnd n => Sys2Proof.Machine.execTrigOutEnd n s
  | .trigInEdge n level => Sys2Proof.Machine.execTrigInEdge n level s
  | .keystoneEnable k => Sys2Proof.Machine.execKeystoneEnable k s
  | .keystoneDisable k => Sys2Proof.Machine.execKeystoneDisable k s
  | .keystoneUnload k => Sys2Proof.Machine.execKeystoneUnload k s
  | .compressionDone id => Sys2Proof.Machine.execCompressionDone id s
  | .degradationStep => Sys2Proof.Machine.execDegradationStep s
  | .segmentCommit n => Sys2Proof.Machine.execSegmentCommit n s
  | .commitMsExpire n => Sys2Proof.Machine.execCommitMsExpire n s
  | .spanWriteDone n id => Sys2Proof.Machine.execSpanWriteDone n id s
  | .footerWriteDone n => Sys2Proof.Machine.execFooterWriteDone n s
  | .flushDone n => Sys2Proof.Machine.execFlushDone n s
  | .superblockWriteDone n => Sys2Proof.Machine.execSuperblockWriteDone n s
  | .drivePresent n => Sys2Proof.Machine.execDrivePresent n s
  | .drivePerstRelease n => Sys2Proof.Machine.execDrivePerstRelease n s
  | .driveLinkUp n width => Sys2Proof.Machine.execDriveLinkUp n width s
  | .driveLinkTimeout n => Sys2Proof.Machine.execDriveLinkTimeout n s
  | .driveIdentifyDone n d => Sys2Proof.Machine.execDriveIdentifyDone n d s
  | .nvmeCompletionPoll n comps => Sys2Proof.Machine.execNvmeCompletionPoll n comps s
  | .driveCommandTimeout n => Sys2Proof.Machine.execDriveCommandTimeout n s
  | .smartPoll n warn => Sys2Proof.Machine.execSmartPoll n warn s
  | .driveLinkLost n => Sys2Proof.Machine.execDriveLinkLost n s
  | .driveRemoved n => Sys2Proof.Machine.execDriveRemoved n s
  | .driveFormat n v => Sys2Proof.Machine.execDriveFormat n v s
  | .driveEject n v => Sys2Proof.Machine.execDriveEject n v s
  | .driveEnable n v => Sys2Proof.Machine.execDriveEnable n v s
  | .icDelivery t => Sys2Proof.Machine.execIcDelivery t s
  | .holdoffExpire g => Sys2Proof.Machine.execHoldoffExpire g s
  | .hvEoiWrite v x => Sys2Proof.Machine.execHvEoiWrite v x s
  | .icSrcSet n => Sys2Proof.Machine.execIcSrcSet n s
  | .icSrcClr n => Sys2Proof.Machine.execIcSrcClr n s
  | .errorPinAssert pin e => Sys2Proof.Machine.execErrorPinAssert pin e s
  | .faultAck v => Sys2Proof.Machine.execFaultAck v s
  | .faultEscalation bad b => Sys2Proof.Machine.execFaultEscalation bad b s
  | .reseatCopyDone c => Sys2Proof.Machine.execReseatCopyDone c s
  | .reseatResume c => Sys2Proof.Machine.execReseatResume c s
  | .reseatTimeout c => Sys2Proof.Machine.execReseatTimeout c s
  | .scrubRead p syn => Sys2Proof.Machine.execScrubRead p syn s
  | .laneRetire p lane => Sys2Proof.Machine.execLaneRetire p lane s
  | .getInfo => Sys2Proof.Machine.execGetInfo s
  | .sensors => Sys2Proof.Machine.execSensors s
  | .logRead => Sys2Proof.Machine.execLogRead s
  | .repairRead => Sys2Proof.Machine.execRepairRead s
  | .repairClear => Sys2Proof.Machine.execRepairClear s
  | .mbHalt => Sys2Proof.Machine.execMbHalt s
  | .mbReset => Sys2Proof.Machine.execMbReset s
  | .mbResetFire b => Sys2Proof.Machine.execMbResetFire b s
  | .keyWrite => Sys2Proof.Machine.execKeyWrite s
  | .keyClear => Sys2Proof.Machine.execKeyClear s
  | .keyInfo => Sys2Proof.Machine.execKeyInfo s
  | .fwRecover => Sys2Proof.Machine.execFwRecover s
  | .fwSelect => Sys2Proof.Machine.execFwSelect s
  | .debugChallenge => Sys2Proof.Machine.execDebugChallenge s
  | .debugUnlock => Sys2Proof.Machine.execDebugUnlock s
  | .debugNonceExpire => Sys2Proof.Machine.execDebugNonceExpire s
  | .cosignSet => Sys2Proof.Machine.execCosignSet s
  | .configRead => Sys2Proof.Machine.execConfigRead s
  | .mailboxLongDone data => Sys2Proof.Machine.execMailboxLongDone data s
  | .logRateSecond => Sys2Proof.Machine.execLogRateSecond s
  | .drydockConsoleRepeat => Sys2Proof.Machine.execDrydockConsoleRepeat s
  | .tpSignalDetect p => Sys2Proof.Machine.execTpSignalDetect p s
  | .tpBlockLock p two => Sys2Proof.Machine.execTpBlockLock p two s
  | .tpTrainingTimeout p => Sys2Proof.Machine.execTpTrainingTimeout p s
  | .tpRetry p => Sys2Proof.Machine.execTpRetry p s
  | .tpHelloSend p => Sys2Proof.Machine.execTpHelloSend p s
  | .hello p f => Sys2Proof.Machine.execHello p f s
  | .tpHelloTimeout p => Sys2Proof.Machine.execTpHelloTimeout p s
  | .tpLinkLoss p => Sys2Proof.Machine.execTpLinkLoss p s
  | .syncReqSend => Sys2Proof.Machine.execSyncReqSend s
  | .syncReq p f => Sys2Proof.Machine.execSyncReq p f s
  | .syncRsp p f => Sys2Proof.Machine.execSyncRsp p f s
  | .ksEvent p f => Sys2Proof.Machine.execKsEvent p f s
  | .signals p f => Sys2Proof.Machine.execSignals p f s
  | .beaconSend p => Sys2Proof.Machine.execBeaconSend p s
  | .beacon p f => Sys2Proof.Machine.execBeacon p f s
  | .splitLowWrite a v => Sys2Proof.Machine.execSplitLowWrite a v s
  | .splitHighWrite a v => Sys2Proof.Machine.execSplitHighWrite a v s
  | .lowHalfRead r => Sys2Proof.Machine.execLowHalfRead r s
  | .highHalfRead a => Sys2Proof.Machine.execHighHalfRead a s
  | .unmappedAccess a write => Sys2Proof.Machine.execUnmappedAccess a write s
  | .registerWrite sp a v => Sys2Proof.Machine.execRegisterWrite sp a v s
  | .shadowHold a => Sys2Proof.Machine.execShadowHold a s
  | .shadowRelease a => Sys2Proof.Machine.execShadowRelease a s
  | .shadowCommit a => Sys2Proof.Machine.execShadowCommit a s
  | .shadowDiscard a => Sys2Proof.Machine.execShadowDiscard a s
  | .bar2Read x n => Sys2Proof.Machine.execBar2Read x n s
  | .bar2Write x bs => Sys2Proof.Machine.execBar2Write x bs s
  | .hostLinkUp width => Sys2Proof.Machine.execHostLinkUp width s
  | .busMasterEnableSet => Sys2Proof.Machine.execBusMasterEnableSet s
  | .pwmPeriod c n => Sys2Proof.Machine.execPwmPeriod c n s
  | .psi5SyncFall c => Sys2Proof.Machine.execPsi5SyncFall c s
  | .statBlink => Sys2Proof.Machine.execStatBlink s
  | .orderlyResetTimeout => Sys2Proof.Machine.execOrderlyResetTimeout s
  | .braceCommitTimeout b => Sys2Proof.Machine.execBraceCommitTimeout b s
  | .unknownCmd v => Sys2Proof.Machine.execUnknownCmd v s
  | .controlCodeUndefined c => Sys2Proof.Machine.execControlCodeUndefined c s
  | .senseCodeUndefined c => Sys2Proof.Machine.execSenseCodeUndefined c s
  | .jtagInstruction o => Sys2Proof.Machine.execJtagInstruction o s

end Sys2Proof.Machine
end

