-- ==== Sys2Proof/WellFormed.lean ====
section
/-!
DEFINITION. Which operands of a command the world outside can bring: the sizes the spec fixes, and for the rows of the keeper
an instruction that has an encoding. No meaning depends on these checks; statements use them as premises.
-/
namespace Sys2Proof

/-- Bytes a host read returned, when it returned any, are `n`. -/
def HostRd.long (d : HostRd) (n : Nat) : Bool :=
  match d with
  | .ok bs => bs.length == n
  | .fail => true

/-- A CAN frame's data length fits its kind (R178). -/
def CanFrame.wf (f : CanFrame) : Bool :=
  decide (f.data.length ≤ (if f.xl then 2048 else if f.fdf then 64 else 8)) && (f.xl || f.ide || decide (f.id.toNat < 2048))

/-- A towpath frame has at most 63 payload words and a syndrome for each word and the header; an undefined TYPE is none of the six
(R384). -/
def TpFrame.wf (f : TpFrame) : Bool :=
  decide (f.words.length ≤ 63) && f.syn.length == f.words.length + 1 && f.alien.all (fun t => t == 0 || decide (7 ≤ t.toNat))

/-- The results of a self-test name tiles and memories that exist (R359, R10). -/
def SelfTest.wf (t : SelfTest) : Bool :=
  t.rings.length == 8 && t.rows.all (fun r => decide (r.1.toNat < 61))

/-- What an identification finds is of the sizes of R283 and R299. -/
def DriveId.wf (d : DriveId) : Bool := d.copyA.length == 4096 && d.copyB.length == 4096 && d.header.length == 4096

/-- An unlock brings signatures of 96 bytes (R380). -/
def JtagOp.wf (o : JtagOp) : Bool :=
  match o with
  | .unlock sig cust => sig.length == 96 && (cust.isEmpty || cust.length == 96)
  | _ => true

/-- Machine-side check of a keeper row's class. -/
def classOk (n : Nat) : Bool := (Machine.clsOf n).isSome

/-- The command's operands are such as the world outside can bring. -/
def Instr.wf (i : Instr) : Bool :=
  match i with
  | .supplyRecover levels _ => levels.length == 10
  | .thermalSample temps => temps.length == 16
  | .selftestComplete t => t.wf
  | .admissionEnd _ orders => orders.all (fun p => p.2.long 32)
  | .orderFetchReturn _ data _ => data.long 32
  | .canFrame _ f _ => f.wf
  | .linFrame _ f _ => decide (f.data.length ≤ 8)
  | .ethPieceCommit _ p => decide (1 ≤ p.data.length)
  | .ethFilterDecision _ _ h => decide (h.length ≤ 22)
  | .driveIdentifyDone _ d => d.wf
  | .hello _ f => f.wf
  | .syncReq _ f => f.wf
  | .syncRsp _ f => f.wf
  | .ksEvent _ f => f.wf
  | .signals _ f => f.wf
  | .beacon _ f => f.wf
  | .hostLinkUp w => [1, 2, 4, 8].contains w.toNat
  | .splitLowWrite a _ => a.toNat % 8 == 0
  | .splitHighWrite a _ => a.toNat % 8 == 0
  | .lowHalfRead ⟨.bar0 .low, a⟩ => a.toNat % 8 == 0
  | .highHalfRead a => a.toNat % 8 == 0
  | .unknownCmd v => !(decide (1 ≤ v.toNat % 65536) && decide (v.toNat % 65536 ≤ 16))
  | .jtagInstruction o => o.wf
  | .cbP _ _ _ cls .. => classOk cls.toNat && (match Machine.keeperRow i with | some (_, _, k) => k.wf | none => false)
  | .cb _ _ _ cls .. => classOk cls.toNat && (match Machine.keeperRow i with | some (_, _, k) => k.wf | none => false)
  | _ => match Machine.keeperRow i with
    | some (_, _, k) => k.wf
    | none => true

end Sys2Proof
end

