-- ==== Sys2Proof/Safety.lean ====
section
/-!
DEFINITION. What counts as a safe run, in the terms the statements use: a command that completes, and what holds of the machine
after every step.
-/
namespace Sys2Proof

/-- A command completes in a state, with the next state `t`. -/
def Completes (i : Instr) (s t : Machine.State) : Prop := Machine.exec i s = .next t

/-- The block has noted whether a source routed to a host vector is HELD in D3hot with PME_En (R326). -/
def PmeNoted (s : Machine.State) : Bool := s.host.pmeOn == Machine.pmeDue s

/-- The device's DRAM is in canonical form: addresses strictly rising, no entry that reads as an unlisted byte. -/
def DramWf (s : Machine.State) : Bool := Machine.SMap.wf (fun _ => (0 : Byte)) s.dram

/-! ### A keeper thread's step -/

/-- Thread `t` of channel `c` may issue, the halfwords it holds at PC are readable, and they spell `i`. -/
def Issues (s : Machine.State) (c : Fin 56) (t : Fin 8) (i : Machine.KInstr) (h0 h1 : Half) : Prop :=
  Machine.mayIssue s c t = true ∧ Machine.fetchBad (s.th c t) = false ∧ Machine.atPc (s.th c t) = some (h0, h1)
    ∧ Machine.kDecode h0 h1 = some i

/-- The command is the issue of an instruction by thread `t` of channel `c`. -/
def IssuedBy (i : Instr) (c : Fin 56) (t : Fin 8) : Prop :=
  match i with
  | .retP x y | .ret x y | .nop x y | .yield x y | .reti x y | .iflush x y | .undefinedInstruction x y | .budgetTrap x y => x = c ∧ y = t
  | .jmpP x y _ | .callP x y _ | .jmp x y _ | .call x y _ | .jmpIndirect x y _ | .callIndirect x y _ | .repImm x y _ | .repReg x y _
  | .sys x y _ | .brk x y _ | .waitev x y _ | .signal x y _ | .threadInterruptTrap x y _ => x = c ∧ y = t
  | .movB x y _ _ | .addB x y _ _ | .subB x y _ _ | .andB x y _ _ | .orB x y _ _ | .xorB x y _ _ | .notB x y _ _ | .negB x y _ _
  | .shlB x y _ _ | .shrB x y _ _ | .sarB x y _ _ | .rolB x y _ _ | .minuB x y _ _ | .maxuB x y _ _ | .swnB x y _ _ | .moviB x y _ _
  | .addiB x y _ _ | .andiB x y _ _ | .oriB x y _ _ | .shlBImm x y _ _ | .shrBImm x y _ _ | .sarBImm x y _ _ | .rolBImm x y _ _
  | .movW x y _ _ | .addW x y _ _ | .subW x y _ _ | .addqW x y _ _ | .addxW x y _ _ | .movlB x y _ _ | .movhB x y _ _ | .movzW x y _ _
  | .inshW x y _ _ | .movzLD x y _ _ | .movsLD x y _ _ | .movzLA x y _ _ | .movsLA x y _ _ | .movBQ x y _ _ | .movWQ x y _ _
  | .shinL x y _ _ | .shoutL x y _ _ | .movL x y _ _ | .addL x y _ _ | .subL x y _ _ | .andL x y _ _ | .orL x y _ _ | .xorL x y _ _
  | .negL x y _ _ | .notL x y _ _ | .mul x y _ _ | .mulu x y _ _ | .mac x y _ _ | .macu x y _ _ | .shlL x y _ _ | .shrL x y _ _
  | .sarL x y _ _ | .shlLImm x y _ _ | .shrLImm x y _ _ | .sarLImm x y _ _ | .rorL x y _ _ | .addqL x y _ _ | .moviW x y _ _
  | .addiW x y _ _ | .moviL x y _ _ | .movhiL x y _ _ | .addiL x y _ _ | .divq x y _ _ | .tbl x y _ _ | .tas x y _ _ | .lrB x y _ _
  | .scB x y _ _ => x = c ∧ y = t
  | .ldB x y _ _ _ | .stB x y _ _ _ | .ldW x y _ _ _ | .stW x y _ _ _ | .ldL x y _ _ _ | .stL x y _ _ _ => x = c ∧ y = t
  | .bfx x y _ _ _ _ | .bfi x y _ _ _ _ | .cbi x y _ _ _ _ => x = c ∧ y = t
  | .mm2Mov x y _ _ _ _ _ | .mm2Add x y _ _ _ _ _ | .mm2Sub x y _ _ _ _ _ | .mm2And x y _ _ _ _ _ | .mm2Or x y _ _ _ _ _
  | .mm2Xor x y _ _ _ _ _ | .mm2Not x y _ _ _ _ _ | .mm2Neg x y _ _ _ _ _ | .cbP x y _ _ _ _ _ | .cb x y _ _ _ _ _ => x = c ∧ y = t
  | .mm3Add x y _ _ _ _ _ _ _ | .mm3Sub x y _ _ _ _ _ _ _ | .mm3And x y _ _ _ _ _ _ _ | .mm3Or x y _ _ _ _ _ _ _
  | .mm3Xor x y _ _ _ _ _ _ _ | .mm3Minu x y _ _ _ _ _ _ _ | .mm3Maxu x y _ _ _ _ _ _ _ => x = c ∧ y = t
  | _ => False

/-- The outcome is a next state that differs from `s` in thread `t` of channel `c` alone, for which `P` holds, and in that
thread's OVER flag at most (R44); the interrupt controller has then sampled it. -/
def OnlyThread (s : Machine.State) (c : Fin 56) (t : Fin 8)
    (out : Host.Outcome Machine.State Machine.Fault Machine.Refusal) (P : Machine.Thread → Prop) : Prop :=
  ∃ u th', out = .next (Machine.settle u) ∧ P th' ∧
    (u = s.modTh c t (fun _ => th') ∨ u = (s.modTh c t (fun _ => th')).raise (Machine.Fld.THREAD_BUDGET_OVER c t))

/-- No load is on its way to a register (R119). -/
def Arrived (th : Machine.Thread) (x : Machine.LoadDst) : Prop := ∀ l ∈ th.loads, l.dst ≠ x

/-- Every register but those in `ws`, and but those a load is on its way to, holds what it held. -/
def RegsKept (th th' : Machine.Thread) (ws : List Machine.LoadDst) : Prop :=
  (∀ i, Machine.LoadDst.d i ∉ ws → Arrived th (.d i) → th'.getD i = th.getD i) ∧
  (∀ i, Machine.LoadDst.a i ∉ ws → Arrived th (.a i) → th'.getA i = th.getA i) ∧
  (∀ i, Machine.LoadDst.q i ∉ ws → Arrived th (.q i) → th'.getQ i = th.getQ i)

/-- Beyond the registers, PC, the loads on their way, the repetitions left, the lines held and the cycles counted, the thread
is as it was: trap registers, events, reservation, target buffer, mailbox, private SRAM. -/
def SystemKept (th th' : Machine.Thread) : Prop :=
  th' = { th with d := th'.d, a := th'.a, q := th'.q, pc := th'.pc, loads := th'.loads, rep := th'.rep, cur := th'.cur,
                  nxt := th'.nxt, used := th'.used }

/-- PC moves past an instruction of `len` halfwords, or, under a REP, one repetition is counted (R120, R140). -/
def Falls (th th' : Machine.Thread) (len : Nat) : Prop :=
  (th.rep = none → th'.pc = th.pc + BitVec.ofNat 16 len ∧ th'.rep = none) ∧
  (∀ n, th.rep = some n → n ≤ 1 → th'.pc = th.pc + BitVec.ofNat 16 len ∧ th'.rep = none) ∧
  (∀ n, th.rep = some n → 1 < n → th'.pc = th.pc ∧ th'.rep = some (n - 1))

/-- The last of the repetitions that a RETI has put the thread's YIELDED off for leaves it YIELDED (R159); otherwise it stays as it
was. -/
def Rests (th th' : Machine.Thread) : Prop :=
  ((∃ n, th.rep = some n ∧ n ≤ 1) → th.yldAfter = true → th'.st = .yielded ∧ th'.yldAfter = false) ∧
  ((∀ n, th.rep = some n → 1 < n) ∨ th.yldAfter = false → th'.st = th.st ∧ th'.yldAfter = th.yldAfter)

/-- The thread falls through after `cyc` thread cycles with nothing but the registers `ws` written. -/
def FallsKeeping (th th' : Machine.Thread) (len cyc : Nat) (ws : List Machine.LoadDst) : Prop :=
  th'.used = th.used + cyc ∧ Falls th th' len ∧ RegsKept th th' ws ∧
    SystemKept th { th' with st := th.st, yldAfter := th.yldAfter } ∧ Rests th th'

/-- The instruction gives a data register, an address register or an accumulator a value in `cyc` thread cycles and falls
through, and touches nothing else. -/
def GivesD (s : Machine.State) (c : Fin 56) (t : Fin 8) (h0 : Half) (cyc : Nat) (d : BitVec 3) (v : Byte)
    (out : Host.Outcome Machine.State Machine.Fault Machine.Refusal) : Prop :=
  OnlyThread s c t out (fun th' => th'.getD d = v ∧ FallsKeeping (s.th c t) th' (Machine.kLen h0) cyc [.d d])
def GivesA (s : Machine.State) (c : Fin 56) (t : Fin 8) (h0 : Half) (cyc : Nat) (a : BitVec 3) (v : Half)
    (out : Host.Outcome Machine.State Machine.Fault Machine.Refusal) : Prop :=
  OnlyThread s c t out (fun th' => th'.getA a = v ∧ FallsKeeping (s.th c t) th' (Machine.kLen h0) cyc [.a a])
def GivesQ (s : Machine.State) (c : Fin 56) (t : Fin 8) (h0 : Half) (cyc : Nat) (q : BitVec 2) (v : Long)
    (out : Host.Outcome Machine.State Machine.Fault Machine.Refusal) : Prop :=
  OnlyThread s c t out (fun th' => th'.getQ q = v ∧ FallsKeeping (s.th c t) th' (Machine.kLen h0) cyc [.q q])

/-- The thread branches to `pc` in `cyc` thread cycles with nothing but the registers `ws` written. -/
def Branches (s : Machine.State) (c : Fin 56) (t : Fin 8) (cyc : Nat) (pc : Half) (ws : List Machine.LoadDst)
    (out : Host.Outcome Machine.State Machine.Fault Machine.Refusal) : Prop :=
  OnlyThread s c t out (fun th' => th'.pc = pc ∧ th'.rep = (s.th c t).rep ∧ th'.used = (s.th c t).used + cyc ∧
    RegsKept (s.th c t) th' ws ∧ SystemKept (s.th c t) th')

/-- As `Branches`, and LK holds `link` (R117). -/
def Calls (s : Machine.State) (c : Fin 56) (t : Fin 8) (cyc : Nat) (pc link : Half)
    (out : Host.Outcome Machine.State Machine.Fault Machine.Refusal) : Prop :=
  OnlyThread s c t out (fun th' => th'.pc = pc ∧ th'.getA 7 = link ∧ th'.rep = (s.th c t).rep ∧
    th'.used = (s.th c t).used + cyc ∧ RegsKept (s.th c t) th' [.a 7] ∧ SystemKept (s.th c t) th')

/-- Trap entry (R156, R158): thread `t` of channel `c` enters its handler for `cause`, charged `cyc` cycles and the two of the entry,
with XPC `xpc`; XRC counts the repetitions left. Nothing but that thread, its OVER flag and the count of free values drawn
changes. -/
def TakesTrap (s : Machine.State) (c : Fin 56) (t : Fin 8)
    (out : Host.Outcome Machine.State Machine.Fault Machine.Refusal) (cause cyc : Nat) (xpc : Half)
    (P : Machine.Thread → Prop) : Prop :=
  ∃ u th', out = .next (Machine.settle u) ∧
    u = { s with chans := (s.modTh c t (fun _ => th')).chans, fld := u.fld, free := s.free + 8 } ∧
    (∀ g, Machine.fldKey g ≠ Machine.fldKey (Machine.Fld.THREAD_BUDGET_OVER c t) → u.get g = s.get g) ∧
    th'.st = .run ∧ th'.inh = true ∧ th'.cause = cause ∧ th'.xcause = cause ∧ th'.xpc = xpc ∧
    th'.pc = (s.th c t).vec + BitVec.ofNat 16 (cause * 4) ∧ th'.resv = none ∧ th'.loads = [] ∧ th'.rep = none ∧
    th'.repact = (s.th c t).rep.isSome ∧ (∀ n, (s.th c t).rep = some n → th'.xrc = BitVec.ofNat 16 n) ∧
    th'.used = (s.th c t).used + cyc + 2 ∧ RegsKept (s.th c t) th' [] ∧ th'.evt = (s.th c t).evt ∧ th'.tb = (s.th c t).tb ∧
    th'.priv = (s.th c t).priv ∧ th'.vec = (s.th c t).vec ∧ th'.mail = (s.th c t).mail ∧ P th'

/-- An instruction that writes beyond its thread has done so (which made the state `s'`): the thread then falls through with
nothing else changed. -/
def AfterWrite (s' : Machine.State) (c : Fin 56) (t : Fin 8) (len cyc : Nat)
    (out : Host.Outcome Machine.State Machine.Fault Machine.Refusal) : Prop :=
  OnlyThread s' c t out (fun th' => FallsKeeping (s'.th c t) th' len cyc [])

/-- A memory-to-memory form has stored its result. -/
def MemForm (s' : Machine.State) (c : Fin 56) (t : Fin 8) (cyc : Nat)
    (out : Host.Outcome Machine.State Machine.Fault Machine.Refusal) : Prop := AfterWrite s' c t 2 cyc out

/-! ### What a command does to the block -/

/-- The command's whole effect: the next state is `u`, which the interrupt controller has then sampled (R321). -/
def Does (i : Instr) (s u : Machine.State) : Prop := Completes i s (Machine.settle u)

/-- The command's effect is some state for which `P` holds. -/
def DoesSome (i : Instr) (s : Machine.State) (P : Machine.State → Prop) : Prop := ∃ u, Does i s u ∧ P u

/-- The address lies in a page of BAR0 that answers in the present state, of no channel in cutover (R395, R399). -/
def PageAt (s : Machine.State) (a : Nat) : Prop :=
  a % 8 = 0 ∧ Machine.barRegion a = .page (Machine.pageOf a) ∧ Machine.regionAnswers s (.page (Machine.pageOf a)) = true ∧
  Machine.hostWaits s (.page (Machine.pageOf a)) = false

/-- A 64-bit write of `v` by the host to the address reaches the rule of the register there: it lies beyond the header of a page
that answers, neither a write lock nor staging nor a scheduled commit holds the page, and no reserved bit is set (R398,
R399, R402). -/
def Reaches (s : Machine.State) (a v : Nat) : Prop :=
  PageAt s a ∧ 0x100 ≤ a % 0x1000 ∧ s.get (Machine.Fld.PAGE_CTRL_WR_LOCK (Machine.pageOf a)) = 0 ∧
  s.get (Machine.Fld.SHADOW_CTRL_PENDING (Machine.pageOf a)) = 0 ∧ s.get (Machine.Fld.SHADOW_CTRL_HOLD (Machine.pageOf a)) = 0 ∧
  (Machine.regAt a).isSome = true ∧ Machine.rsvHit a v = false

/-- The state after an access to the page of an address: its snapshot is dropped (R397). -/
def Touched (s : Machine.State) (a : Nat) : Machine.State := Machine.snapDrop s (Machine.pageOf a)

/-- The device has been reset with a cause (R17, R354, R357): SELFTEST, every channel, queue, stream, drive and the DRAM at their reset
contents, TICKNO and TIME_NS 0, LAST_RESET as given, the boot counted, and the Toll House's keys and rollback kept. The waiting
commands still wait. -/
def AfterReset (s u : Machine.State) (cause mon low : Nat) : Prop :=
  u.devState = Machine.devSelftest ∧ u.get Machine.Fld.LAST_RESET_CAUSE = cause ∧ u.get Machine.Fld.LAST_RESET_MONITOR = mon ∧
  u.get Machine.Fld.LAST_RESET_MIN_MV = low ∧ u.tick = 0 ∧ u.now = 0 ∧ u.pending = s.pending ∧ u.dram = [] ∧
  u.chans = Machine.State.reset.chans ∧ u.streams = Machine.State.reset.streams ∧ u.drives = Machine.State.reset.drives ∧
  u.accepted = [] ∧ u.basinq = [] ∧ u.courses = Machine.State.reset.courses ∧ u.credits = [] ∧ u.toll.boot = (s.toll.boot + 1) % 2 ^ 32 ∧
  u.toll.rollback = s.toll.rollback ∧ u.toll.keys = s.toll.keys

/-- Entry `e` heads the command queue of channel `c`, has opcode `op` and has not started. -/
def Heads (s : Machine.State) (c : Fin 56) (op : Nat) (e : Machine.WorkEntry) : Prop :=
  Machine.chanHead s c op = some e ∧ e.stage = .queued

/-- Basin entry `e` has opcode `op`, has not started and may start (R72): no other entry of its opcode is there. -/
def InBasin (s : Machine.State) (serial op : Nat) (e : Machine.WorkEntry) : Prop :=
  Machine.basinEntry s serial op = some e ∧ e.stage = .queued ∧
  ∀ x ∈ s.basinq, x.opcode = op → ¬ x.serial < serial

/-- The route of a channel has ended (R101, R107) with a status, its last order and that order's residual. -/
def Ended (u : Machine.State) (c : Fin 56) (st idx res : Nat) : Prop :=
  Machine.rtState u c = Machine.rtIdle ∧ u.isSet (Machine.Fld.ROUTE_STATE_END_VALID c) = true ∧
  u.get (Machine.Fld.ROUTE_STATE_END_STATUS c) = st ∧ u.get (Machine.Fld.ROUTE_STATE_ORDER c) = idx ∧
  u.get (Machine.Fld.ROUTE_STATE_RESIDUAL c) = res ∧ u.isSet (Machine.Fld.ROUTE_EVT_END c) = true ∧ (u.sq c).exec = none

/-- The route goes on (R93, R94): order `n` is due and being fetched; the last order left a status and a residual. -/
def GoesOn (u : Machine.State) (c : Fin 56) (n st res : Nat) : Prop :=
  (u.sq c).exec = none ∧ (u.sq c).pc = n ∧ (u.sq c).due = true ∧ (u.sq c).fetch = .wait n ∧ (u.sq c).prev = (st, res) ∧
  u.get (Machine.Fld.ROUTE_STATE_ORDER c) = n % 1024 ∧ Machine.rtState u c = Machine.rtRun

/-- The order at index `i` has completed, and the route goes on with the order after it or ends. -/
def Passes (u : Machine.State) (c : Fin 56) (i : Nat) (next : Option Nat) (st res : Nat) : Prop :=
  match next with
  | some n => GoesOn u c n st res
  | none => Ended u c st i res

/-- Order `o` at index `i` of a channel's route is due and fetched, and waits for no edge; nothing suspends or stops the route.
-/
def DueAt (s : Machine.State) (c : Fin 56) (i : Nat) (o : Machine.Order) : Prop :=
  s.frozen c = false ∧ (s.sq c).exec = none ∧ (s.sq c).fetch = .ready i o ∧ (s.sq c).due = true ∧ (s.sq c).atEdge = false ∧
  (s.sq c).first = false ∧ (s.sq c).stop = none ∧ (s.sq c).suspend = false ∧ i < 1024

/-- The order neither posts nor suspends the route (its PS and SU flags are clear). -/
def Plain (o : Machine.Order) : Prop := o.su = false ∧ o.ps = false

/-- What the sequencer executes when order `o` at index `i` starts. -/
def Started (s : Machine.State) (c : Fin 56) (i : Nat) (o : Machine.Order) : Machine.ExecOrder :=
  ⟨i, o, (s.sq c).chainBuf, 0, 0, false, Machine.nextStatic i (s.sq c).chainBuf.length o, none⟩

/-- Nothing executes on the channel's sequencer, the channel is not fenced, no fence of it waits for its reseat to end, and its RX
FIFO is empty. -/
def Quiet (s : Machine.State) (c : Fin 56) : Prop :=
  (s.sq c).exec = none ∧ Machine.chState s c ≠ Machine.chFenced ∧ (∀ p, (s.ch c).stopping = some p → p.fenced = false) ∧
  (s.ch c).fifos.rx = []

/-- A field channel receives: it is quiet, in mode `m`, and its engine is ON. -/
def Receives (s : Machine.State) (c : Fin 56) (m : Nat) : Prop :=
  Quiet s c ∧ c.val < 48 ∧ Machine.modeOf s c = m ∧ Machine.engineOf s c = Machine.engOn

/-- The item has been placed alone in the RX FIFO and counted (R177, R188, R192). -/
def Placed (s u : Machine.State) (c : Fin 56) (r : Machine.Rec) : Prop :=
  (u.ch c).fifos.rx = [r] ∧
  u.get (Machine.Fld.STATS_CNT_COUNT c Machine.statItemsOk) = (s.get (Machine.Fld.STATS_CNT_COUNT c Machine.statItemsOk) + 1) % 2 ^ 64

/-- The order in execution on the channel, with its result now known. -/
def Resolved (u : Machine.State) (c : Fin 56) (e : Machine.ExecOrder) (st res : Nat) : Prop :=
  (u.sq c).exec = some { e with result := some (st, res) }

/-- The item has been placed at the head of the RX FIFO, where a discovery item may follow it (R194, R195). -/
def PlacedFirst (u : Machine.State) (c : Fin 56) (r : Machine.Rec) : Prop := (u.ch c).fifos.rx.head? = some r

/-- The mover of channel `c` may dispatch the valid instruction `w`, and the instruction after it reads as `nx`. -/
def BargeAt (s : Machine.State) (c : Fin 56) (w : Nat) (nx : Word) : Prop :=
  Machine.bmReady s c = some w ∧ Machine.bargeValid w = true ∧ Machine.fetchWord s c ((s.barge c).npc + 1) = some nx

/-- The mover has passed one instruction (R200): the next one is at hand, PC names the one passed, the mover runs. -/
def BargeFell (s u : Machine.State) (c : Fin 56) (nx : Word) : Prop :=
  (u.barge c).npc = (s.barge c).npc + 1 ∧ (u.barge c).cur = some nx ∧
  u.get (Machine.Fld.BM_STATUS_PC c) = (s.barge c).npc % 2 ^ 16 ∧ Machine.bmState u c = Machine.bmRun ∧ u.dram = s.dram

/-- The address registers but `d` hold what they held. -/
def BaKept (s u : Machine.State) (c : Fin 56) (d : Nat) : Prop :=
  ∀ i, i < 4 → i ≠ d → u.get (Machine.Fld.BA_BA c i) = s.get (Machine.Fld.BA_BA c i)

/-- The command's effect is `u`, after which an orderly mailbox RESET whose commits have finished responds (R372). -/
def DoesThen (i : Instr) (s u : Machine.State) : Prop := Completes i s (Machine.settle (Machine.orderlyCheck u))

/-- The command fails a drive for a reason (R283): FAILED, PERST# asserted, its link without width, its event set; the placement pin
asserts, what the drive had not committed is lost to it, and placement goes on. -/
def DriveFails (i : Instr) (s : Machine.State) (n : Fin 4) (reason : Nat) : Prop :=
  ∃ t, DoesThen i s (Machine.placeSettle (Machine.driveLost (Machine.errorPin t Machine.pinPlace (0x10 + n)) n)) ∧
    Machine.drvState t n = Machine.drvFailed ∧ t.get (Machine.Fld.DRIVE_STATE_FAIL_REASON n) = reason ∧ (t.drive n).perst = true ∧
    t.isSet (Machine.Fld.DRIVE_EVT_FAILED n) = true ∧ Machine.portWidth t n.succ = 0 ∧ t.place = s.place

/-- What goes out for a Write of `data` at `off` on a drive that takes pieces of at most `m` bytes (R284). -/
def WritesOut (n : Fin 4) (m off : Nat) (data : List Byte) (fua : Bool) : List Machine.OutEvent :=
  (Machine.pieces m data.length).map (fun p => .nvme n (.write (off + p.1) (Machine.bsub data p.1 p.2) fua))

/-- The mailbox command in progress has an opcode and request words, may run in the present state and has not been taken up (R370,
R371). -/
def Asked (s : Machine.State) (op : Nat) (req : List Word) : Prop :=
  s.toll.long = some ⟨op, req, false⟩ ∧ Machine.mbStateOk s op = true

/-- The command completes the mailbox command in progress with a status and response words, in a state for which `P` holds. -/
def Answers (i : Instr) (s : Machine.State) (st : Nat) (rsp : List Nat) (P : Machine.State → Prop) : Prop :=
  ∃ t, Does i s (Machine.mbDone t st rsp) ∧ P t

/-- A frame's words are clean (R384). -/
def CleanFrame (s : Machine.State) (p : Fin 2) (f : TpFrame) : Prop :=
  (∀ x ∈ Machine.tpSyndromes s p f, x = 0) ∧ f.alien = none

/-- What has been sent since `s` is one towpath frame on a port (R384). -/
def SendsFrame (s u : Machine.State) (p : Fin 2) (typ src dst : Nat) (payload : List Nat) : Prop :=
  u.out = s.out ++ [.towpath p (Machine.frameBytes typ src dst (s.tpPort p).seq (s.get (Machine.Fld.TP_PORT_STATUS_REV p)) 0 payload)] ∧
  (u.tpPort p).seq = ((s.tpPort p).seq + 1) % 65536

end Sys2Proof
end

