-- ==== Sys2Proof/Certificates/Slice0/Obligations.lean ====
section
/-!
DEFINITION. The statements.
-/
open Sys2Proof Sys2Proof.Machine

/-- R124: the encodings of the data register operations, and for each the value its destination takes, its one thread cycle and
that nothing else changes. OP 0xF is undefined. MOV_B, ADD_B, SUB_B, AND_B, OR_B, XOR_B, NOT_B, NEG_B, SHL_B, SHR_B, SAR_B,
ROL_B, MINU_B, MAXU_B, SWN_B. -/
def Obligations.DataRegisterOperations : Prop :=
  (∀ p ∈ [(0x0, DOp.mov), (0x1, .add), (0x2, .sub), (0x3, .and), (0x4, .or), (0x5, .xor), (0x6, .not), (0x7, .neg), (0x8, .shl),
      (0x9, .shr), (0xA, .sar), (0xB, .rol), (0xC, .minu), (0xD, .maxu), (0xE, .swn)], ∀ (d r : BitVec 3) (h1 : Half),
    kDecode (BitVec.ofNat 16 (0x1000 + p.1 * 0x100 + d.toNat * 0x20 + r.toNat * 4)) h1 = some (.dreg p.2 d r)) ∧
  (∀ (d r : BitVec 3) (h1 : Half), kDecode (BitVec.ofNat 16 (0x1F00 + d.toNat * 0x20 + r.toNat * 4)) h1 = none) ∧
  ∀ (s : State) (c : Fin 56) (t : Fin 8) (d r : BitVec 3) (h0 h1 : Half) (x y : Byte),
    x = (s.th c t).getD d → y = (s.th c t).getD r →
    (Issues s c t (.dreg .mov d r) h0 h1 → GivesD s c t h0 1 d y (exec (.movB c t d r) s)) ∧
    (Issues s c t (.dreg .add d r) h0 h1 → GivesD s c t h0 1 d (x + y) (exec (.addB c t d r) s)) ∧
    (Issues s c t (.dreg .sub d r) h0 h1 → GivesD s c t h0 1 d (x - y) (exec (.subB c t d r) s)) ∧
    (Issues s c t (.dreg .and d r) h0 h1 → GivesD s c t h0 1 d (x &&& y) (exec (.andB c t d r) s)) ∧
    (Issues s c t (.dreg .or d r) h0 h1 → GivesD s c t h0 1 d (x ||| y) (exec (.orB c t d r) s)) ∧
    (Issues s c t (.dreg .xor d r) h0 h1 → GivesD s c t h0 1 d (x ^^^ y) (exec (.xorB c t d r) s)) ∧
    (Issues s c t (.dreg .not d r) h0 h1 → GivesD s c t h0 1 d (~~~ y) (exec (.notB c t d r) s)) ∧
    (Issues s c t (.dreg .neg d r) h0 h1 → GivesD s c t h0 1 d (0 - y) (exec (.negB c t d r) s)) ∧
    (Issues s c t (.dreg .shl d r) h0 h1 → GivesD s c t h0 1 d (x <<< (y.toNat % 8)) (exec (.shlB c t d r) s)) ∧
    (Issues s c t (.dreg .shr d r) h0 h1 → GivesD s c t h0 1 d (x >>> (y.toNat % 8)) (exec (.shrB c t d r) s)) ∧
    (Issues s c t (.dreg .sar d r) h0 h1 → GivesD s c t h0 1 d (x.sshiftRight (y.toNat % 8)) (exec (.sarB c t d r) s)) ∧
    (Issues s c t (.dreg .rol d r) h0 h1 → GivesD s c t h0 1 d (x.rotateLeft (y.toNat % 8)) (exec (.rolB c t d r) s)) ∧
    (Issues s c t (.dreg .minu d r) h0 h1 →
      GivesD s c t h0 1 d (BitVec.ofNat 8 (min x.toNat y.toNat)) (exec (.minuB c t d r) s)) ∧
    (Issues s c t (.dreg .maxu d r) h0 h1 →
      GivesD s c t h0 1 d (BitVec.ofNat 8 (max x.toNat y.toNat)) (exec (.maxuB c t d r) s)) ∧
    (Issues s c t (.dreg .swn d r) h0 h1 →
      GivesD s c t h0 1 d (BitVec.ofNat 8 (y.toNat % 16 * 16 + y.toNat / 16)) (exec (.swnB c t d r) s))

/-- R125: MOVI_B, ADDI_B, ANDI_B, ORI_B and the shifts of a data register by an immediate, SHL_B_IMM, SHR_B_IMM, SAR_B_IMM,
ROL_B_IMM: their encodings, values, one thread cycle and nothing else. A count of 0 leaves the register as it was. -/
def Obligations.DataImmediates : Prop :=
  (∀ p ∈ [(0x2000, DImm.movi), (0x2800, .addi), (0x3000, .andi), (0x3800, .ori)], ∀ (d : BitVec 3) (imm : Byte) (h1 : Half),
    kDecode (BitVec.ofNat 16 (p.1 + d.toNat * 0x100 + imm.toNat)) h1 = some (.dimm p.2 d imm)) ∧
  (∀ p ∈ [(0x7B00, DSh.shl), (0x7B40, .shr), (0x7B80, .sar), (0x7BC0, .rol)], ∀ (d u : BitVec 3) (h1 : Half),
    kDecode (BitVec.ofNat 16 (p.1 + d.toNat * 8 + u.toNat)) h1 = some (.dsh p.2 d u)) ∧
  ∀ (s : State) (c : Fin 56) (t : Fin 8) (d u : BitVec 3) (imm : Byte) (h0 h1 : Half) (x : Byte), x = (s.th c t).getD d →
    (Issues s c t (.dimm .movi d imm) h0 h1 → GivesD s c t h0 1 d imm (exec (.moviB c t d imm) s)) ∧
    (Issues s c t (.dimm .addi d imm) h0 h1 → GivesD s c t h0 1 d (x + imm) (exec (.addiB c t d imm) s)) ∧
    (Issues s c t (.dimm .andi d imm) h0 h1 → GivesD s c t h0 1 d (x &&& imm) (exec (.andiB c t d imm) s)) ∧
    (Issues s c t (.dimm .ori d imm) h0 h1 → GivesD s c t h0 1 d (x ||| imm) (exec (.oriB c t d imm) s)) ∧
    (Issues s c t (.dsh .shl d u) h0 h1 → GivesD s c t h0 1 d (x <<< u.toNat) (exec (.shlBImm c t d u) s)) ∧
    (Issues s c t (.dsh .shr d u) h0 h1 → GivesD s c t h0 1 d (x >>> u.toNat) (exec (.shrBImm c t d u) s)) ∧
    (Issues s c t (.dsh .sar d u) h0 h1 → GivesD s c t h0 1 d (x.sshiftRight u.toNat) (exec (.sarBImm c t d u) s)) ∧
    (Issues s c t (.dsh .rol d u) h0 h1 → GivesD s c t h0 1 d (x.rotateLeft u.toNat) (exec (.rolBImm c t d u) s)) ∧
    (x <<< 0 = x ∧ x >>> 0 = x ∧ x.sshiftRight 0 = x ∧ x.rotateLeft 0 = x)

/-- R126: the address register operations and the transfers between classes: their encodings, what each destination takes, in one
thread cycle, and that nothing else changes; SHOUT_L writes two registers. MOV_W, ADD_W, SUB_W, ADDQ_W, ADDX_W, MOVL_B, MOVH_B, MOVZ_W,
INSH_W, MOVZ_L_D, MOVS_L_D, MOVZ_L_A, MOVS_L_A, MOV_B_Q, MOV_W_Q, SHIN_L, SHOUT_L. R128, R129: the encodings, values, one thread cycle and frame of the accumulator shifts by an immediate, the small add, the long
immediates and the bit fields: SHL_L_IMM, SHR_L_IMM,
SAR_L_IMM, ROR_L, ADDQ_L, MOVI_W, ADDI_W, MOVI_L, MOVHI_L, ADDI_L, BFX, BFI. A bit field is stated bit by bit, for every
position and width that has an encoding. -/
def Obligations.AddressAndLongForms : Prop :=
  ((∀ p ∈ [(0x7000, AOp.movW), (0x7100, .addW), (0x7200, .subW), (0x7400, .addxW), (0x7500, .movlB), (0x7540, .movhB), (0x7580, .movzW),
        (0x75C0, .inshW)], ∀ (x y : BitVec 3) (h1 : Half),
      kDecode (BitVec.ofNat 16 (p.1 + x.toNat * 8 + y.toNat)) h1 = some (.areg p.2 x y)) ∧
    (∀ (x : BitVec 3) (m : BitVec 5) (h1 : Half), kDecode (BitVec.ofNat 16 (0x7300 + x.toNat * 0x20 + m.toNat)) h1 = some (.addqW x m)) ∧
    (∀ p ∈ [(0x7600, AOp.movzLD), (0x7620, .movsLD), (0x7640, .movzLA), (0x7660, .movsLA), (0x7680, .movBQ), (0x76A0, .movWQ),
        (0x76C0, .shinL), (0x76E0, .shoutL)], ∀ (q : BitVec 2) (y : BitVec 3) (h1 : Half),
      kDecode (BitVec.ofNat 16 (p.1 + q.toNat * 8 + y.toNat)) h1 = some (.areg p.2 (q.setWidth 3) y)) ∧
    (∀ p ∈ [0x7000, 0x7100, 0x7200, 0x7400], ∀ (z : BitVec 2) (x y : BitVec 3) (h1 : Half), z ≠ 0 →
      kDecode (BitVec.ofNat 16 (p + z.toNat * 0x40 + x.toNat * 8 + y.toNat)) h1 = none) ∧
    ∀ (s : State) (c : Fin 56) (t : Fin 8) (x y : BitVec 3) (q : BitVec 2) (m : BitVec 5) (h0 h1 : Half) (ax ay : Half) (dy : Byte)
      (qv : Long), ax = (s.th c t).getA x → ay = (s.th c t).getA y → dy = (s.th c t).getD y → qv = (s.th c t).getQ q →
      (Issues s c t (.areg .movW x y) h0 h1 → GivesA s c t h0 1 x ay (exec (.movW c t x y) s)) ∧
      (Issues s c t (.areg .addW x y) h0 h1 → GivesA s c t h0 1 x (ax + ay) (exec (.addW c t x y) s)) ∧
      (Issues s c t (.areg .subW x y) h0 h1 → GivesA s c t h0 1 x (ax - ay) (exec (.subW c t x y) s)) ∧
      (Issues s c t (.addqW x m) h0 h1 → GivesA s c t h0 1 x (ax + m.signExtend 16) (exec (.addqW c t x m) s)) ∧
      (Issues s c t (.areg .addxW x y) h0 h1 → GivesA s c t h0 1 x (ax + dy.setWidth 16) (exec (.addxW c t x y) s)) ∧
      (Issues s c t (.areg .movlB x y) h0 h1 → GivesD s c t h0 1 x (ay.setWidth 8) (exec (.movlB c t x y) s)) ∧
      (Issues s c t (.areg .movhB x y) h0 h1 → GivesD s c t h0 1 x ((ay >>> 8).setWidth 8) (exec (.movhB c t x y) s)) ∧
      (Issues s c t (.areg .movzW x y) h0 h1 → GivesA s c t h0 1 x (dy.setWidth 16) (exec (.movzW c t x y) s)) ∧
      (Issues s c t (.areg .inshW x y) h0 h1 → GivesA s c t h0 1 x (dy ++ ax.setWidth 8) (exec (.inshW c t x y) s)) ∧
      (Issues s c t (.areg .movzLD (q.setWidth 3) y) h0 h1 → GivesQ s c t h0 1 q (dy.setWidth 32) (exec (.movzLD c t (q.setWidth 3) y) s)) ∧
      (Issues s c t (.areg .movsLD (q.setWidth 3) y) h0 h1 → GivesQ s c t h0 1 q (dy.signExtend 32) (exec (.movsLD c t (q.setWidth 3) y) s)) ∧
      (Issues s c t (.areg .movzLA (q.setWidth 3) y) h0 h1 → GivesQ s c t h0 1 q (ay.setWidth 32) (exec (.movzLA c t (q.setWidth 3) y) s)) ∧
      (Issues s c t (.areg .movsLA (q.setWidth 3) y) h0 h1 → GivesQ s c t h0 1 q (ay.signExtend 32) (exec (.movsLA c t (q.setWidth 3) y) s)) ∧
      (Issues s c t (.areg .movBQ (q.setWidth 3) y) h0 h1 → GivesD s c t h0 1 y (qv.setWidth 8) (exec (.movBQ c t (q.setWidth 3) y) s)) ∧
      (Issues s c t (.areg .movWQ (q.setWidth 3) y) h0 h1 → GivesA s c t h0 1 y (qv.setWidth 16) (exec (.movWQ c t (q.setWidth 3) y) s)) ∧
      (Issues s c t (.areg .shinL (q.setWidth 3) y) h0 h1 →
        GivesQ s c t h0 1 q (qv <<< 8 ||| dy.setWidth 32) (exec (.shinL c t (q.setWidth 3) y) s)) ∧
      (Issues s c t (.areg .shoutL (q.setWidth 3) y) h0 h1 →
        OnlyThread s c t (exec (.shoutL c t (q.setWidth 3) y) s) (fun th' => th'.getD y = (qv >>> 24).setWidth 8 ∧ th'.getQ q = qv <<< 8 ∧
          FallsKeeping (s.th c t) th' (kLen h0) 1 [.d y, .q q]))) ∧
  ((∀ p ∈ [(0x7900, QSh.shl), (0x7980, .shr), (0x7A00, .sar), (0x7A80, .ror)], ∀ (q : BitVec 2) (u : BitVec 5) (h1 : Half),
      kDecode (BitVec.ofNat 16 (p.1 + q.toNat * 0x20 + u.toNat)) h1 = some (.qsh p.2 q u)) ∧
    (∀ (q : BitVec 2) (m : BitVec 6) (h1 : Half), kDecode (BitVec.ofNat 16 (0x7C00 + m.toNat * 4 + q.toNat)) h1 = some (.addqL q m)) ∧
    (∀ (n : BitVec 3) (imm : Half), kDecode (BitVec.ofNat 16 (0xD000 + n.toNat)) imm = some (.moviW n imm) ∧
      kDecode (BitVec.ofNat 16 (0xD200 + n.toNat)) imm = some (.addiW n imm)) ∧
    (∀ (q : BitVec 2) (imm : Half), kDecode (BitVec.ofNat 16 (0xD400 + q.toNat)) imm = some (.moviL q imm) ∧
      kDecode (BitVec.ofNat 16 (0xD600 + q.toNat)) imm = some (.movhiL q imm) ∧
      kDecode (BitVec.ofNat 16 (0xD800 + q.toNat)) imm = some (.addiL q imm)) ∧
    (∀ p ∈ [0xD000, 0xD200], ∀ (z : BitVec 6) (n : BitVec 3) (imm : Half), z ≠ 0 →
      kDecode (BitVec.ofNat 16 (p + z.toNat * 8 + n.toNat)) imm = none) ∧
    (∀ p ∈ [0xD400, 0xD600, 0xD800], ∀ (z : BitVec 7) (q : BitVec 2) (imm : Half), z ≠ 0 →
      kDecode (BitVec.ofNat 16 (p + z.toNat * 4 + q.toNat)) imm = none) ∧
    (∀ (d r : BitVec 2) (pos wm1 : BitVec 5),
      (pos.toNat + wm1.toNat + 1 ≤ 32 →
        kDecode (BitVec.ofNat 16 (0xDA00 + d.toNat * 0x80 + r.toNat * 0x20 + pos.toNat)) (BitVec.ofNat 16 (wm1.toNat * 0x800)) =
          some (.bfx d r pos wm1) ∧
        kDecode (BitVec.ofNat 16 (0xDA00 + d.toNat * 0x80 + r.toNat * 0x20 + pos.toNat)) (BitVec.ofNat 16 (wm1.toNat * 0x800 + 0x400)) =
          some (.bfi d r pos wm1)) ∧
      (∀ z : BitVec 11, 32 < pos.toNat + wm1.toNat + 1 ∨ z.setWidth 10 ≠ (0 : BitVec 10) →
        kDecode (BitVec.ofNat 16 (0xDA00 + d.toNat * 0x80 + r.toNat * 0x20 + pos.toNat)) (BitVec.ofNat 16 (wm1.toNat * 0x800 + z.toNat)) =
          none)) ∧
    (∀ (z : BitVec 10) (h1 : Half), kDecode (BitVec.ofNat 16 (0xDC00 + z.toNat)) h1 = none) ∧
    ∀ (s : State) (c : Fin 56) (t : Fin 8) (n : BitVec 3) (q r : BitVec 2) (u pos wm1 : BitVec 5) (m : BitVec 6) (imm : Half)
      (h0 h1 : Half) (an : Half) (x y : Long),
      an = (s.th c t).getA n → x = (s.th c t).getQ q → y = (s.th c t).getQ r →
      (Issues s c t (.qsh .shl q u) h0 h1 → GivesQ s c t h0 1 q (x <<< u.toNat) (exec (.shlLImm c t q u) s)) ∧
      (Issues s c t (.qsh .shr q u) h0 h1 → GivesQ s c t h0 1 q (x >>> u.toNat) (exec (.shrLImm c t q u) s)) ∧
      (Issues s c t (.qsh .sar q u) h0 h1 → GivesQ s c t h0 1 q (x.sshiftRight u.toNat) (exec (.sarLImm c t q u) s)) ∧
      (Issues s c t (.qsh .ror q u) h0 h1 → GivesQ s c t h0 1 q (x.rotateRight u.toNat) (exec (.rorL c t q u) s)) ∧
      (Issues s c t (.addqL q m) h0 h1 → GivesQ s c t h0 1 q (x + m.signExtend 32) (exec (.addqL c t q m) s)) ∧
      (Issues s c t (.moviW n imm) h0 h1 → GivesA s c t h0 1 n imm (exec (.moviW c t n imm) s)) ∧
      (Issues s c t (.addiW n imm) h0 h1 → GivesA s c t h0 1 n (an + imm) (exec (.addiW c t n imm) s)) ∧
      (Issues s c t (.moviL q imm) h0 h1 → GivesQ s c t h0 1 q (imm.signExtend 32) (exec (.moviL c t q imm) s)) ∧
      (Issues s c t (.movhiL q imm) h0 h1 → GivesQ s c t h0 1 q (imm ++ x.setWidth 16) (exec (.movhiL c t q imm) s)) ∧
      (Issues s c t (.addiL q imm) h0 h1 → GivesQ s c t h0 1 q (x + imm.signExtend 32) (exec (.addiL c t q imm) s)) ∧
      (Issues s c t (.bfx q r pos wm1) h0 h1 → ∃ v, GivesQ s c t h0 1 q v (exec (.bfx c t q r pos wm1) s) ∧
        ∀ i, v.getLsbD i = (decide (i ≤ wm1.toNat) && y.getLsbD (pos.toNat + i))) ∧
      (Issues s c t (.bfi q r pos wm1) h0 h1 → ∃ v, GivesQ s c t h0 1 q v (exec (.bfi c t q r pos wm1) s) ∧
        ∀ i, i < 32 → v.getLsbD i = (if pos.toNat ≤ i ∧ i ≤ pos.toNat + wm1.toNat then y.getLsbD (i - pos.toNat) else x.getLsbD i)))

/-- R127: the encodings of the accumulator register operations, the value each gives its destination, its one thread cycle, MUL and
MAC included, and that nothing else changes. op 0xF is undefined. MOV_L, ADD_L, SUB_L, AND_L, OR_L, XOR_L, NEG_L, NOT_L, MUL,
MULU, MAC, MACU, SHL_L, SHR_L, SAR_L. -/
def Obligations.AccumulatorOperations : Prop :=
  (∀ p ∈ [(0x0, QOp.mov), (0x1, .add), (0x2, .sub), (0x3, .and), (0x4, .or), (0x5, .xor), (0x6, .neg), (0x7, .not), (0x8, .mul),
      (0x9, .mulu), (0xA, .mac), (0xB, .macu), (0xC, .shl), (0xD, .shr), (0xE, .sar)], ∀ (d r : BitVec 2) (h1 : Half),
    kDecode (BitVec.ofNat 16 (0x7700 + p.1 * 0x10 + d.toNat * 4 + r.toNat)) h1 = some (.qreg p.2 d r)) ∧
  (∀ (d r : BitVec 2) (h1 : Half), kDecode (BitVec.ofNat 16 (0x77F0 + d.toNat * 4 + r.toNat)) h1 = none) ∧
  ∀ (s : State) (c : Fin 56) (t : Fin 8) (d r : BitVec 2) (h0 h1 : Half) (x y sp up : Long),
    x = (s.th c t).getQ d → y = (s.th c t).getQ r →
    sp = BitVec.ofInt 32 ((y.setWidth 16).toInt * ((y >>> 16).setWidth 16).toInt) →
    up = BitVec.ofNat 32 ((y.setWidth 16).toNat * ((y >>> 16).setWidth 16).toNat) →
    (Issues s c t (.qreg .mov d r) h0 h1 → GivesQ s c t h0 1 d y (exec (.movL c t d r) s)) ∧
    (Issues s c t (.qreg .add d r) h0 h1 → GivesQ s c t h0 1 d (x + y) (exec (.addL c t d r) s)) ∧
    (Issues s c t (.qreg .sub d r) h0 h1 → GivesQ s c t h0 1 d (x - y) (exec (.subL c t d r) s)) ∧
    (Issues s c t (.qreg .and d r) h0 h1 → GivesQ s c t h0 1 d (x &&& y) (exec (.andL c t d r) s)) ∧
    (Issues s c t (.qreg .or d r) h0 h1 → GivesQ s c t h0 1 d (x ||| y) (exec (.orL c t d r) s)) ∧
    (Issues s c t (.qreg .xor d r) h0 h1 → GivesQ s c t h0 1 d (x ^^^ y) (exec (.xorL c t d r) s)) ∧
    (Issues s c t (.qreg .neg d r) h0 h1 → GivesQ s c t h0 1 d (0 - y) (exec (.negL c t d r) s)) ∧
    (Issues s c t (.qreg .not d r) h0 h1 → GivesQ s c t h0 1 d (~~~ y) (exec (.notL c t d r) s)) ∧
    (Issues s c t (.qreg .mul d r) h0 h1 → GivesQ s c t h0 1 d sp (exec (.mul c t d r) s)) ∧
    (Issues s c t (.qreg .mulu d r) h0 h1 → GivesQ s c t h0 1 d up (exec (.mulu c t d r) s)) ∧
    (Issues s c t (.qreg .mac d r) h0 h1 → GivesQ s c t h0 1 d (x + sp) (exec (.mac c t d r) s)) ∧
    (Issues s c t (.qreg .macu d r) h0 h1 → GivesQ s c t h0 1 d (x + up) (exec (.macu c t d r) s)) ∧
    (Issues s c t (.qreg .shl d r) h0 h1 → GivesQ s c t h0 1 d (x <<< (y.toNat % 32)) (exec (.shlL c t d r) s)) ∧
    (Issues s c t (.qreg .shr d r) h0 h1 → GivesQ s c t h0 1 d (x >>> (y.toNat % 32)) (exec (.shrL c t d r) s)) ∧
    (Issues s c t (.qreg .sar d r) h0 h1 → GivesQ s c t h0 1 d (x.sshiftRight (y.toNat % 32)) (exec (.sarL c t d r) s))

/-- R130: DIVQ writes quotient and remainder after 17 thread cycles, and takes the DIV trap, charged 17 cycles and with Qd
unchanged, when Ax is 0 or the quotient would not fit in 16 bits.
The model's choices it rests on: log entry 40. -/
def Obligations.DivqDividesOrTraps : Prop :=
  ∀ (s : State) (c : Fin 56) (t : Fin 8) (d : BitVec 2) (x : BitVec 3) (h0 h1 : Half) (q : Long) (a : Half),
    q = (s.th c t).getQ d → a = (s.th c t).getA x → Issues s c t (.divq d x) h0 h1 →
    (a.toNat ≠ 0 → q.toNat / 65536 < a.toNat →
      GivesQ s c t h0 17 d (BitVec.ofNat 16 (q.toNat % a.toNat) ++ BitVec.ofNat 16 (q.toNat / a.toNat)) (exec (.divq c t d x) s)) ∧
    (a.toNat = 0 ∨ a.toNat ≤ q.toNat / 65536 → (s.th c t).inh = false →
      TakesTrap s c t (exec (.divq c t d x) s) 2 17 (s.th c t).pc (fun th' => th'.xins = xinsOf h0 h1))

/-- R131, R118, R119: the near loads LD_B, LD_W, LD_L. The address is the base before the load plus the scaled displacement. An access
that stays in its region and meets no poisoned word reads its bytes, little-endian; the value is on its way to the
register, which still holds the old value after the load; it arrives after one more instruction, two from tile I/O. An
access that leaves its region takes the ALIGN trap and reads nothing. R131, R118: the near stores ST_B, ST_W, ST_L. An access that stays in its region and meets no poisoned word writes the register's
bytes, little-endian, at the base plus the scaled displacement, and nothing else but PC and the cycle count changes; an
access that leaves its region takes the ALIGN trap and writes nothing.
The model's choices it rests on: log entry 40. -/
def Obligations.NearMemory : Prop :=
  (∀ (s : State) (c : Fin 56) (t : Fin 8) (d n : BitVec 3) (q : BitVec 2) (u : BitVec 5) (w : BitVec 6) (h0 h1 : Half) (a : Nat),
      (∀ i k, i = KInstr.ldB d n u → k = Instr.ldB c t d n u → Issues s c t i h0 h1 → a = ((s.th c t).getA n).toNat + u.toNat →
        (alignFail none a 1 = none → readPoisoned s c t a 1 = false →
          OnlyThread (dataRead s c t a 1).2 c t (exec k s) (fun th' =>
            ⟨loadDelay a, .d d, BitVec.ofNat 32 (leNat (dataRead s c t a 1).1)⟩ ∈ th'.loads ∧
            FallsKeeping ((dataRead s c t a 1).2.th c t) th' 1 1 [])) ∧
        (∀ x, alignFail none a 1 = some x → (s.th c t).inh = false →
          TakesTrap s c t (exec k s) 1 1 (s.th c t).pc (fun th' => th'.xaddr = BitVec.ofNat 16 x ∧ th'.xov = decide (0xFFFF < x)))) ∧
      (∀ i k, i = KInstr.ldW d n u → k = Instr.ldW c t d n u → Issues s c t i h0 h1 → a = ((s.th c t).getA n).toNat + 2 * u.toNat →
        (alignFail none a 2 = none → readPoisoned s c t a 2 = false →
          OnlyThread (dataRead s c t a 2).2 c t (exec k s) (fun th' =>
            ⟨loadDelay a, .a d, BitVec.ofNat 32 (leNat (dataRead s c t a 2).1)⟩ ∈ th'.loads ∧
            FallsKeeping ((dataRead s c t a 2).2.th c t) th' 1 1 [])) ∧
        (∀ x, alignFail none a 2 = some x → (s.th c t).inh = false →
          TakesTrap s c t (exec k s) 1 1 (s.th c t).pc (fun th' => th'.xaddr = BitVec.ofNat 16 x ∧ th'.xov = decide (0xFFFF < x)))) ∧
      (∀ i k, i = KInstr.ldL q n w → k = Instr.ldL c t q n w → Issues s c t i h0 h1 → a = ((s.th c t).getA n).toNat + 4 * w.toNat →
        (alignFail none a 4 = none → readPoisoned s c t a 4 = false →
          OnlyThread (dataRead s c t a 4).2 c t (exec k s) (fun th' =>
            ⟨loadDelay a, .q q, BitVec.ofNat 32 (leNat (dataRead s c t a 4).1)⟩ ∈ th'.loads ∧
            FallsKeeping ((dataRead s c t a 4).2.th c t) th' 1 1 [])) ∧
        (∀ x, alignFail none a 4 = some x → (s.th c t).inh = false →
          TakesTrap s c t (exec k s) 1 1 (s.th c t).pc (fun th' => th'.xaddr = BitVec.ofNat 16 x ∧ th'.xov = decide (0xFFFF < x)))) ∧
      (regionOf a ≠ some .io → a < 65536 → (dataRead s c t a 4).2 = s ∧ loadDelay a = 1) ∧ (regionOf a = some .io → loadDelay a = 2)) ∧
  (∀ (s : State) (c : Fin 56) (t : Fin 8) (d n : BitVec 3) (q : BitVec 2) (u : BitVec 5) (w : BitVec 6) (h0 h1 : Half) (a : Nat),
      (∀ i k, i = KInstr.stB d n u → k = Instr.stB c t d n u → Issues s c t i h0 h1 → a = ((s.th c t).getA n).toNat + u.toNat →
        ∀ bs, bs = leBytes 1 ((s.th c t).getD d).toNat →
        (alignFail none a 1 = none → dataPoisoned s c t a 1 = false →
          OnlyThread (dataWrite s c t a bs) c t (exec k s) (fun th' => FallsKeeping ((dataWrite s c t a bs).th c t) th' 1 1 [])) ∧
        (∀ x, alignFail none a 1 = some x → (s.th c t).inh = false →
          TakesTrap s c t (exec k s) 1 1 (s.th c t).pc (fun th' => th'.xaddr = BitVec.ofNat 16 x ∧ th'.xov = decide (0xFFFF < x)))) ∧
      (∀ i k, i = KInstr.stW d n u → k = Instr.stW c t d n u → Issues s c t i h0 h1 → a = ((s.th c t).getA n).toNat + 2 * u.toNat →
        ∀ bs, bs = leBytes 2 ((s.th c t).getA d).toNat →
        (alignFail none a 2 = none → dataPoisoned s c t a 2 = false →
          OnlyThread (dataWrite s c t a bs) c t (exec k s) (fun th' => FallsKeeping ((dataWrite s c t a bs).th c t) th' 1 1 [])) ∧
        (∀ x, alignFail none a 2 = some x → (s.th c t).inh = false →
          TakesTrap s c t (exec k s) 1 1 (s.th c t).pc (fun th' => th'.xaddr = BitVec.ofNat 16 x ∧ th'.xov = decide (0xFFFF < x)))) ∧
      (∀ i k, i = KInstr.stL q n w → k = Instr.stL c t q n w → Issues s c t i h0 h1 → a = ((s.th c t).getA n).toNat + 4 * w.toNat →
        ∀ bs, bs = leBytes 4 ((s.th c t).getQ q).toNat →
        (alignFail none a 4 = none → dataPoisoned s c t a 4 = false →
          OnlyThread (dataWrite s c t a bs) c t (exec k s) (fun th' => FallsKeeping ((dataWrite s c t a bs).th c t) th' 1 1 [])) ∧
        (∀ x, alignFail none a 4 = some x → (s.th c t).inh = false →
          TakesTrap s c t (exec k s) 1 1 (s.th c t).pc (fun th' => th'.xaddr = BitVec.ofNat 16 x ∧ th'.xov = decide (0xFFFF < x)))))

/-- R25, R118: a keeper's write outside tile I/O stores its bytes at its own addresses and nowhere else: each stored byte reads back,
every other byte of the tile and every byte of every other tile reads as before, and no register field changes. -/
def Obligations.KeeperWritesItsBytesOnly : Prop :=
  ∀ (s : State) (c : Fin 56) (t : Fin 8) (a : Nat) (bs : List Byte), alignFail none a bs.length = none → isIo a = false → bs ≠ [] →
    (∀ i (h : i < bs.length), tileByte (dataWrite s c t a bs) c (tileOff t a + i) = bs[i]) ∧
    (∀ off, (off < tileOff t a ∨ tileOff t a + bs.length ≤ off) → tileByte (dataWrite s c t a bs) c off = tileByte s c off) ∧
    (∀ c' off, c' ≠ c → tileByte (dataWrite s c t a bs) c' off = tileByte s c' off) ∧
    (∀ g, (dataWrite s c t a bs).get g = s.get g)

/-- R132, R134: the operand addresses of a memory-to-memory form, mode by mode, with the change of the address register that is
applied as the operand is formed. -/
def Obligations.OperandModes : Prop :=
  ∀ (a : Vector Half 8) (d : Vector Byte 8) (r : BitVec 3) (x : Nat),
    formOpnd a d ⟨0, r⟩ x = (.mem a[r.toNat].toNat, a) ∧
    formOpnd a d ⟨1, r⟩ x = (.mem a[r.toNat].toNat, a.set r.toNat (a[r.toNat] + 1)) ∧
    formOpnd a d ⟨2, r⟩ x = (.mem (a[r.toNat] - 1).toNat, a.set r.toNat (a[r.toNat] - 1)) ∧
    formOpnd a d ⟨3, r⟩ x = (.mem (a[r.toNat].toNat + x), a) ∧
    (∀ m : BitVec 3, formOpnd a d ⟨4, r⟩ m.toNat = (.mem (a[r.toNat].toNat + d[m.toNat].toNat), a)) ∧
    formOpnd a d ⟨5, r⟩ x = (.mem (r.toNat * 0x1000 + x), a) ∧
    formOpnd a d ⟨6, r⟩ x = (.mem (0x8000 + r.toNat * 0x1000 + x), a) ∧
    formOpnd a d ⟨7, r⟩ x = (.reg r, a)

/-- R133, R134: the two-operand memory-to-memory forms MM2_MOV, MM2_ADD, MM2_SUB, MM2_AND, MM2_OR, MM2_XOR, MM2_NOT, MM2_NEG: operands are
formed src then dst, checked, read (the destination by the five that compute with it), and the destination takes the operation's value,
in three thread cycles. R133, R134: the three-operand memory-to-memory forms MM3_ADD, MM3_SUB, MM3_AND, MM3_OR, MM3_XOR, MM3_MINU, MM3_MAXU: operands are
formed srcA, srcB, dst, all are checked, the sources are read (A before B, the model's choice of log entry 139), and the destination takes
the operation's value, in four thread cycles.
The model's choices it rests on: log entries 40, 139. -/
def Obligations.MemoryForms : Prop :=
  (∀ (s : State) (c : Fin 56) (t : Fin 8) (dst src : MOpnd) (x : BitVec 12) (h0 h1 : Half) (ps pd : OpPlace) (a1 a2 : Vector Half 8)
      (rs rd : Byte × State),
      formOpnd (s.th c t).a (s.th c t).d src x.toNat = (ps, a1) → formOpnd a1 (s.th c t).d dst x.toNat = (pd, a2) →
      placeFail ps = none → placeFail pd = none → placeEcc s c t ps true = none → placeEcc s c t pd false = none →
      rs = readPlace s c t (s.th c t).d ps → rd = readPlace rs.2 c t (s.th c t).d pd →
      (Issues s c t (.mm2 .mov dst src x) h0 h1 → MemForm (writePlace rs.2 c t pd [src, dst] a2 rs.1) c t 3 (exec (.mm2Mov c t dst.mode dst.reg src.mode src.reg x) s)) ∧
      (Issues s c t (.mm2 .add dst src x) h0 h1 → placeEcc s c t pd true = none → MemForm (writePlace rd.2 c t pd [src, dst] a2 (rd.1 + rs.1)) c t 3 (exec (.mm2Add c t dst.mode dst.reg src.mode src.reg x) s)) ∧
      (Issues s c t (.mm2 .sub dst src x) h0 h1 → placeEcc s c t pd true = none → MemForm (writePlace rd.2 c t pd [src, dst] a2 (rd.1 - rs.1)) c t 3 (exec (.mm2Sub c t dst.mode dst.reg src.mode src.reg x) s)) ∧
      (Issues s c t (.mm2 .and dst src x) h0 h1 → placeEcc s c t pd true = none → MemForm (writePlace rd.2 c t pd [src, dst] a2 (rd.1 &&& rs.1)) c t 3 (exec (.mm2And c t dst.mode dst.reg src.mode src.reg x) s)) ∧
      (Issues s c t (.mm2 .or dst src x) h0 h1 → placeEcc s c t pd true = none → MemForm (writePlace rd.2 c t pd [src, dst] a2 (rd.1 ||| rs.1)) c t 3 (exec (.mm2Or c t dst.mode dst.reg src.mode src.reg x) s)) ∧
      (Issues s c t (.mm2 .xor dst src x) h0 h1 → placeEcc s c t pd true = none → MemForm (writePlace rd.2 c t pd [src, dst] a2 (rd.1 ^^^ rs.1)) c t 3 (exec (.mm2Xor c t dst.mode dst.reg src.mode src.reg x) s)) ∧
      (Issues s c t (.mm2 .not dst src x) h0 h1 → MemForm (writePlace rs.2 c t pd [src, dst] a2 (~~~ rs.1)) c t 3 (exec (.mm2Not c t dst.mode dst.reg src.mode src.reg x) s)) ∧
      (Issues s c t (.mm2 .neg dst src x) h0 h1 → MemForm (writePlace rs.2 c t pd [src, dst] a2 (0 - rs.1)) c t 3 (exec (.mm2Neg c t dst.mode dst.reg src.mode src.reg x) s))) ∧
  (∀ (s : State) (c : Fin 56) (t : Fin 8) (dst oa ob : MOpnd) (x : BitVec 6) (h0 h1 : Half) (pa pb pd : OpPlace)
      (a1 a2 a3 : Vector Half 8) (ra rb : Byte × State),
      formOpnd (s.th c t).a (s.th c t).d oa x.toNat = (pa, a1) → formOpnd a1 (s.th c t).d ob x.toNat = (pb, a2) →
      formOpnd a2 (s.th c t).d dst x.toNat = (pd, a3) →
      placeFail pa = none → placeFail pb = none → placeFail pd = none →
      placeEcc s c t pa true = none → placeEcc s c t pb true = none → placeEcc s c t pd false = none →
      ra = readPlace s c t (s.th c t).d pa → rb = readPlace ra.2 c t (s.th c t).d pb →
      (Issues s c t (.mm3 .add dst oa ob x) h0 h1 →
        MemForm (writePlace rb.2 c t pd [oa, ob, dst] a3 (ra.1 + rb.1)) c t 4 (exec (.mm3Add c t dst.mode dst.reg oa.mode oa.reg ob.mode ob.reg x) s)) ∧
      (Issues s c t (.mm3 .sub dst oa ob x) h0 h1 →
        MemForm (writePlace rb.2 c t pd [oa, ob, dst] a3 (ra.1 - rb.1)) c t 4 (exec (.mm3Sub c t dst.mode dst.reg oa.mode oa.reg ob.mode ob.reg x) s)) ∧
      (Issues s c t (.mm3 .and dst oa ob x) h0 h1 →
        MemForm (writePlace rb.2 c t pd [oa, ob, dst] a3 (ra.1 &&& rb.1)) c t 4 (exec (.mm3And c t dst.mode dst.reg oa.mode oa.reg ob.mode ob.reg x) s)) ∧
      (Issues s c t (.mm3 .or dst oa ob x) h0 h1 →
        MemForm (writePlace rb.2 c t pd [oa, ob, dst] a3 (ra.1 ||| rb.1)) c t 4 (exec (.mm3Or c t dst.mode dst.reg oa.mode oa.reg ob.mode ob.reg x) s)) ∧
      (Issues s c t (.mm3 .xor dst oa ob x) h0 h1 →
        MemForm (writePlace rb.2 c t pd [oa, ob, dst] a3 (ra.1 ^^^ rb.1)) c t 4 (exec (.mm3Xor c t dst.mode dst.reg oa.mode oa.reg ob.mode ob.reg x) s)) ∧
      (Issues s c t (.mm3 .minu dst oa ob x) h0 h1 →
        MemForm (writePlace rb.2 c t pd [oa, ob, dst] a3 (BitVec.ofNat 8 (min ra.1.toNat rb.1.toNat))) c t 4 (exec (.mm3Minu c t dst.mode dst.reg oa.mode oa.reg ob.mode ob.reg x) s)) ∧
      (Issues s c t (.mm3 .maxu dst oa ob x) h0 h1 →
        MemForm (writePlace rb.2 c t pd [oa, ob, dst] a3 (BitVec.ofNat 8 (max ra.1.toNat rb.1.toNat))) c t 4 (exec (.mm3Maxu c t dst.mode dst.reg oa.mode oa.reg ob.mode ob.reg x) s)))

/-- R135: the condition CB and CB_P compare under, by its number: EQ, NE, LT, GE, LTU, GEU, ANY, NONE on two values of one width. R136, R143: the conditional branches CB_P, CB, CBI: taken, PC goes to the target (one cycle for CB_P, three for CB and CBI); not
taken, PC falls through. CB_P of an empty target buffer entry takes the TBMISS trap. Nothing else changes.
The model's choices it rests on: log entry 40. -/
def Obligations.ConditionsAndBranches : Prop :=
  (∀ (w : Nat) (r s : BitVec w),
      (condHolds (condOf 0) r s = true ↔ r = s) ∧ (condHolds (condOf 1) r s = true ↔ r ≠ s) ∧
      (condHolds (condOf 2) r s = true ↔ r.toInt < s.toInt) ∧ (condHolds (condOf 3) r s = true ↔ s.toInt ≤ r.toInt) ∧
      (condHolds (condOf 4) r s = true ↔ r.toNat < s.toNat) ∧ (condHolds (condOf 5) r s = true ↔ s.toNat ≤ r.toNat) ∧
      (condHolds (condOf 6) r s = true ↔ r &&& s ≠ 0) ∧ (condHolds (condOf 7) r s = true ↔ r &&& s = 0)) ∧
  (∀ (s : State) (c : Fin 56) (t : Fin 8) (cond : BitVec 3) (cls : BitVec 2) (cl : Cls) (r q : BitVec 3) (k : BitVec 4) (target h0 h1 : Half)
      (imm : Byte) (disp : BitVec 11), clsOf cls.toNat = some cl →
      (Issues s c t (.cb (condOf cond.toNat) cl r q target) h0 h1 →
        (condOn (s.th c t) cl (condOf cond.toNat) r q = true → Branches s c t 3 target [] (exec (.cb c t cond cls r q target) s)) ∧
        (condOn (s.th c t) cl (condOf cond.toNat) r q = false →
          OnlyThread s c t (exec (.cb c t cond cls r q target) s) (fun th' => FallsKeeping (s.th c t) th' 2 3 []))) ∧
      (Issues s c t (.cbi (condOf cond.toNat) r imm disp) h0 h1 →
        (condHolds (condOf cond.toNat) ((s.th c t).getD r) imm = true →
          Branches s c t 3 ((s.th c t).pc + 2 + disp.signExtend 16) [] (exec (.cbi c t cond r imm disp) s)) ∧
        (condHolds (condOf cond.toNat) ((s.th c t).getD r) imm = false →
          OnlyThread s c t (exec (.cbi c t cond r imm disp) s) (fun th' => FallsKeeping (s.th c t) th' 2 3 []))) ∧
      (Issues s c t (.cbP (condOf cond.toNat) cl r q k) h0 h1 →
        (∀ e, tbGet (s.th c t) k = some e →
          (condOn (s.th c t) cl (condOf cond.toNat) r q = true → Branches s c t 1 e.target [] (exec (.cbP c t cond cls r q k) s)) ∧
          (condOn (s.th c t) cl (condOf cond.toNat) r q = false →
            OnlyThread s c t (exec (.cbP c t cond cls r q k) s) (fun th' => FallsKeeping (s.th c t) th' 1 1 []))) ∧
        (tbGet (s.th c t) k = none → (s.th c t).inh = false →
          TakesTrap s c t (exec (.cbP c t cond cls r q k) s) 3 1 (s.th c t).pc (fun th' => th'.xins = xinsOf h0 h1))))

/-- R136, R137, R143: JMP, JMP_INDIRECT, RET, CALL, CALL_INDIRECT (three cycles), JMP_P, CALL_P, RET_P (one cycle, the TBMISS trap where
the target buffer holds no such entry or line) and TBL (four cycles, entry k takes the target and its line). A call leaves
the address after itself in A7. Nothing else changes.
The model's choices it rests on: log entries 40, 113. -/
def Obligations.JumpsCallsAndReturns : Prop :=
  ∀ (s : State) (c : Fin 56) (t : Fin 8) (n : BitVec 3) (k : BitVec 4) (target h0 h1 : Half),
    (Issues s c t (.jmp target) h0 h1 → Branches s c t 3 target [] (exec (.jmp c t target) s)) ∧
    (Issues s c t (.jmpI n) h0 h1 → Branches s c t 3 ((s.th c t).getA n) [] (exec (.jmpIndirect c t n) s)) ∧
    (Issues s c t .ret h0 h1 → Branches s c t 3 ((s.th c t).getA 7) [] (exec (.ret c t) s)) ∧
    (Issues s c t (.call target) h0 h1 → Calls s c t 3 target ((s.th c t).pc + 2) (exec (.call c t target) s)) ∧
    (Issues s c t (.callI n) h0 h1 → Calls s c t 3 ((s.th c t).getA n) ((s.th c t).pc + 2) (exec (.callIndirect c t n) s)) ∧
    (Issues s c t (.jmpP k) h0 h1 →
      (∀ e, tbGet (s.th c t) k = some e → Branches s c t 1 e.target [] (exec (.jmpP c t k) s)) ∧
      (tbGet (s.th c t) k = none → (s.th c t).inh = false → TakesTrap s c t (exec (.jmpP c t k) s) 3 1 (s.th c t).pc (fun _ => True))) ∧
    (Issues s c t (.callP k) h0 h1 →
      (∀ e, tbGet (s.th c t) k = some e → Calls s c t 1 e.target ((s.th c t).pc + 1) (exec (.callP c t k) s)) ∧
      (tbGet (s.th c t) k = none → (s.th c t).inh = false → TakesTrap s c t (exec (.callP c t k) s) 3 1 (s.th c t).pc (fun _ => True))) ∧
    (Issues s c t .retP h0 h1 →
      ((∃ e ∈ (s.th c t).tb, e.2.line.num = ((s.th c t).getA 7).toNat / 16) →
        Branches s c t 1 ((s.th c t).getA 7) [] (exec (.retP c t) s)) ∧
      ((∀ e ∈ (s.th c t).tb, e.2.line.num ≠ ((s.th c t).getA 7).toNat / 16) → (s.th c t).inh = false →
        TakesTrap s c t (exec (.retP c t) s) 3 1 (s.th c t).pc (fun _ => True))) ∧
    (Issues s c t (.tbl k target) h0 h1 → OnlyThread s c t (exec (.tbl c t k target) s) (fun th' =>
      tbGet th' k = some ⟨target, readLine (s.kp c) (target.toNat / 16)⟩ ∧ (∀ j, j ≠ k → tbGet th' j = tbGet (s.th c t) j) ∧
      FallsKeeping (s.th c t) { th' with tb := (s.th c t).tb } 2 4 []))

/-- R138, R139: TAS, LR_B and SC_B on a byte of the shared tile SRAM. TAS reads the byte and leaves 0xFF; LR_B reads it and reserves its
8-byte granule; SC_B writes Dd to it only while the thread holds that reservation, answers 0 or 1 in Dd, and the
reservation is gone either way. Outside the shared region they take the ALIGN trap. R140, R141: REP_IMM and REP_REG. With a count above 0 the instruction that follows runs that often, so the REP leaves PC at it
with the count; with count 0 it is skipped. A REP before an instruction that may not stand under it is undefined.
The model's choices it rests on: log entries 40, 112. -/
def Obligations.AtomicsAndRepeat : Prop :=
  (∀ (s : State) (c : Fin 56) (t : Fin 8) (d n : BitVec 3) (h0 h1 : Half) (a : Nat) (v : Byte), a = ((s.th c t).getA n).toNat →
      v = tileByte s c a →
      (a < 0xA000 → dataPoisoned s c t a 1 = false →
        (Issues s c t (.tas d n) h0 h1 → OnlyThread (dataWrite s c t a [0xFF]) c t (exec (.tas c t d n) s) (fun th' =>
          ⟨1, .d d, v.setWidth 32⟩ ∈ th'.loads ∧ FallsKeeping ((dataWrite s c t a [0xFF]).th c t) th' 1 2 [])) ∧
        (Issues s c t (.lrB d n) h0 h1 → OnlyThread s c t (exec (.lrB c t d n) s) (fun th' =>
          ⟨1, .d d, v.setWidth 32⟩ ∈ th'.loads ∧ th'.resv = some (a / 8) ∧
          FallsKeeping (s.th c t) { th' with resv := (s.th c t).resv } 1 1 [])) ∧
        (Issues s c t (.scB d n) h0 h1 → (s.th c t).resv = some (a / 8) →
          OnlyThread (dataWrite s c t a [(s.th c t).getD d]) c t (exec (.scB c t d n) s) (fun th' =>
            th'.getD d = 0 ∧ th'.resv = none ∧
            FallsKeeping ((dataWrite s c t a [(s.th c t).getD d]).th c t)
              { th' with resv := ((dataWrite s c t a [(s.th c t).getD d]).th c t).resv } 1 2 [.d d])) ∧
        (Issues s c t (.scB d n) h0 h1 → (s.th c t).resv ≠ some (a / 8) →
          OnlyThread s c t (exec (.scB c t d n) s) (fun th' => th'.getD d = 1 ∧ th'.resv = none ∧
            FallsKeeping (s.th c t) { th' with resv := (s.th c t).resv } 1 2 [.d d]))) ∧
      (0xA000 ≤ a → (s.th c t).inh = false →
        (Issues s c t (.tas d n) h0 h1 → TakesTrap s c t (exec (.tas c t d n) s) 1 1 (s.th c t).pc (fun th' => th'.xaddr = BitVec.ofNat 16 a)) ∧
        (Issues s c t (.lrB d n) h0 h1 → TakesTrap s c t (exec (.lrB c t d n) s) 1 1 (s.th c t).pc (fun th' => th'.xaddr = BitVec.ofNat 16 a)) ∧
        (Issues s c t (.scB d n) h0 h1 → TakesTrap s c t (exec (.scB c t d n) s) 1 1 (s.th c t).pc (fun th' => th'.xaddr = BitVec.ofNat 16 a)))) ∧
  (∀ (s : State) (c : Fin 56) (t : Fin 8) (u : Byte) (n : BitVec 3) (h0 h1 hn : Half) (count : Nat) (i : KInstr) (k : Instr),
      (i = KInstr.repImm u ∧ k = .repImm c t u ∧ count = u.toNat) ∨
        (i = KInstr.repReg n ∧ k = .repReg c t n ∧ count = ((s.th c t).getA n).toNat) →
      Issues s c t i h0 h1 →
      (repPairBad (s.th c t) ((s.th c t).pc + 1) = false → heldHalf (s.th c t) ((s.th c t).pc + 1) = some hn →
        OnlyThread s c t (exec k s) (fun th' => th'.used = (s.th c t).used + 1 ∧ RegsKept (s.th c t) th' [] ∧ SystemKept (s.th c t) th' ∧
          (0 < count → th'.pc = (s.th c t).pc + 1 ∧ th'.rep = some count) ∧
          (count = 0 → th'.pc = (s.th c t).pc + 1 + BitVec.ofNat 16 (kLen hn) ∧ th'.rep = none))) ∧
      (repPairBad (s.th c t) ((s.th c t).pc + 1) = true → (s.th c t).inh = false →
        TakesTrap s c t (exec k s) 0 1 (s.th c t).pc (fun th' => th'.xins = xinsOf h0 h1)))

/-- R45, R142, R143, R158, R163: NOP, YIELD, IFLUSH, SYS, BRK, WAITEV and SIGNAL.
The model's choices it rests on: log entry 40. -/
def Obligations.SystemInstructions : Prop :=
  ∀ (s : State) (c : Fin 56) (t u : Fin 8) (imm mask : Byte) (h0 h1 : Half),
    (Issues s c t .nop h0 h1 → OnlyThread s c t (exec (.nop c t) s) (fun th' => FallsKeeping (s.th c t) th' 1 1 [])) ∧
    (Issues s c t .yield h0 h1 → OnlyThread s c t (exec (.yield c t) s) (fun th' => th'.st = .yielded ∧ th'.yielded = true ∧
      FallsKeeping (s.th c t) { th' with st := (s.th c t).st, yielded := (s.th c t).yielded } 1 1 [])) ∧
    (Issues s c t .iflush h0 h1 → OnlyThread s c t (exec (.iflush c t) s) (fun th' => th'.pc = (s.th c t).pc + 1 ∧
      th'.cur = some (readLine (s.kp c) (th'.pc.toNat / 16)) ∧
      th'.tb = (s.th c t).tb.map (fun e => (e.1, { e.2 with line := readLine (s.kp c) e.2.line.num })) ∧
      th'.used = (s.th c t).used + 4 ∧ RegsKept (s.th c t) th' [] ∧ SystemKept (s.th c t) { th' with tb := (s.th c t).tb })) ∧
    (Issues s c t (.sys imm) h0 h1 → (s.th c t).inh = false →
      TakesTrap s c t (exec (.sys c t imm) s) 6 2 ((s.th c t).pc + 1) (fun th' => th'.xins = xinsOf h0 h1)) ∧
    (Issues s c t (.brk imm) h0 h1 → (s.th c t).inh = false →
      TakesTrap s c t (exec (.brk c t imm) s) 8 2 ((s.th c t).pc + 1) (fun th' => th'.xins = xinsOf h0 h1)) ∧
    (Issues s c t (.waitev mask) h0 h1 → eventBits s c t &&& mask ≠ 0 →
      OnlyThread s c t (exec (.waitev c t mask) s) (fun th' => FallsKeeping (s.th c t) th' 1 1 [])) ∧
    (Issues s c t (.waitev mask) h0 h1 → eventBits s c t &&& mask = 0 →
      OnlyThread s c t (exec (.waitev c t mask) s) (fun th' => th'.st = .waitev ∧ th'.waitMask = mask ∧ th'.pc = (s.th c t).pc + 1 ∧
        th'.used = (s.th c t).used + 1 ∧ RegsKept (s.th c t) th' [] ∧
        SystemKept (s.th c t) { th' with st := (s.th c t).st, waitMask := (s.th c t).waitMask })) ∧
    (Issues s c t (.signal (BitVec.ofFin u)) h0 h1 →
      AfterWrite (s.modTh c u (fun th => { th with evt := th.evt ||| 1 })) c t 1 1 (exec (.signal c t (BitVec.ofFin u)) s))

/-- R121, R44, R156, R158, R159, R161, R163: UNDEFINED_INSTRUCTION, BUDGET_TRAP, THREAD_INTERRUPT_TRAP and WAITEV_WAKE, and RETI,
which goes back to XPC with synchronous traps no longer inhibited and, with YLD set, to YIELDED. A second synchronous trap
in a handler halts the thread.
The model's choices it rests on: log entries 42, 44, 111. -/
def Obligations.TrapsAndReturns : Prop :=
  ∀ (s : State) (c : Fin 56) (t : Fin 8) (h0 h1 : Half) (src : Nat) (qd : BitVec 2) (dm : BitVec 3) (spent : Fin 17),
    (mayIssue s c t = true → fetchBad (s.th c t) = false → atPc (s.th c t) = some (h0, h1) → kDecode h0 h1 = none →
      ((s.th c t).inh = false →
        TakesTrap s c t (exec (.undefinedInstruction c t) s) 0 1 (s.th c t).pc (fun th' => th'.xins = xinsOf h0 h1)) ∧
      ((s.th c t).inh = true → ∃ s', exec (.undefinedInstruction c t) s = .next s' ∧ (s'.th c t).st = .halted ∧
        s'.isSet (Fld.KEVT_DOUBLE_FAULT c) = true ∧ (s'.th c t).xpc = (s.th c t).xpc ∧ (s'.th c t).xcause = (s.th c t).xcause)) ∧
    (budgetDue s c t = true → (s.th c t).st = .run → s.frozen c = false →
      TakesTrap s c t (exec (.budgetTrap c t) s) 4 0 (s.th c t).pc (fun th' => th'.trapped = true ∧ th'.yld = (s.th c t).idles)) ∧
    (budgetDue s c t = true → (s.th c t).st ≠ .run ∨ s.frozen c = true →
      DoesSome (.budgetTrap c t) s (fun u => u.th c t = s.th c t ∧ u.fld = s.fld)) ∧
    (s.isSet (Fld.THREAD_BUDGET_BOUND c t) = false → s.get (Fld.THREAD_BUDGET_BUDGET c t) ≤ (s.th c t).used → (s.th c t).yielded = false →
      DoesSome (.budgetTrap c t) s (fun u => u.th c t = s.th c t ∧ u.isSet (Fld.THREAD_BUDGET_OVER c t) = true)) ∧
    ((s.th c t).deliver = some src → (s.th c t).inh = false → budgetDue s c t = false → s.frozen c = false →
      ((s.th c t).st = .run ∨ (s.th c t).st = .yielded → (s.th c t).woken ≠ some .waitev →
        TakesTrap s c t (exec (.threadInterruptTrap c t 0) s) 7 0 (s.th c t).pc (fun th' =>
          th'.deliver = none ∧ th'.yld = (s.th c t).idles)) ∧
      ((s.th c t).st = .waitev ∨ (s.th c t).st = .run ∧ (s.th c t).woken = some .waitev →
        TakesTrap s c t (exec (.threadInterruptTrap c t 0) s) 7 0 ((s.th c t).pc - 1) (fun th' => th'.deliver = none)) ∧
      ((s.th c t).st = .run → (s.th c t).woken = none → atPc (s.th c t) = some (h0, h1) → kDecode h0 h1 = some (.divq qd dm) →
        0 < spent.val → spent.val ≤ 16 →
        TakesTrap s c t (exec (.threadInterruptTrap c t spent) s) 7 spent (s.th c t).pc (fun th' => th'.deliver = none ∧ th'.divab = true))) ∧
    ((s.th c t).st = .waitev → eventBits s c t &&& (s.th c t).waitMask ≠ 0 →
      Completes (.waitevWake c t) s (settle (s.modTh c t (fun th => { th with st := .run })))) ∧
    (Issues s c t .reti h0 h1 → (s.th c t).repact = false →
      OnlyThread s c t (exec (.reti c t) s) (fun th' => th'.pc = (s.th c t).xpc ∧ th'.inh = false ∧ th'.rep = none ∧
        th'.st = (if (s.th c t).yld then .yielded else .run) ∧ th'.used = (s.th c t).used + 3 ∧ RegsKept (s.th c t) th' [] ∧
        SystemKept (s.th c t) { th' with inh := (s.th c t).inh, st := (s.th c t).st })) ∧
    (Issues s c t .reti h0 h1 → (s.th c t).repact = true → 0 < (s.th c t).xrc.toNat →
      repPairBad (loadLines (s.kp c) (s.th c t) (s.th c t).xpc) (s.th c t).xpc = false →
      OnlyThread s c t (exec (.reti c t) s) (fun th' => th'.pc = (s.th c t).xpc ∧ th'.inh = false ∧
        th'.rep = some (s.th c t).xrc.toNat ∧ th'.st = .run ∧ th'.yldAfter = ((s.th c t).yldAfter || (s.th c t).yld)))

/-- R397: SPLIT_LOW_WRITE, SPLIT_HIGH_WRITE, LOW_HALF_READ and HIGH_HALF_READ. A low half is kept, with nothing else changed; the high
half of the same register writes both halves at once. A low read keeps the high half for the high read that follows. R396, R325,
R3, R358: a read with a size error answers zero and sets SIZE; one of the MSI-X table in BAR4 answers an entry's address or its
data and mask; one of configuration space is to be retried before READY, and then gives Vendor ID 0x1F3A and Device ID 0x5660
(its place is log entry 123). R394, R404: BAR2_READ and BAR2_WRITE of one aligned word at an offset inside BAR2's 256 MiB. With the aperture enabled the word read is
answered, the bytes written replace the word, and nothing else changes; a poisoned word is answered as poisoned; the device region is read
as free values. A write to the ring or span staging under WP, or to the device region, is discarded and noted; an access beyond the DRAM is
noted, and a read of it answers zero. With the aperture disabled, and in DRYDOCK, a read answers zero and a write is discarded. An offset
beyond BAR2 is not the function's.
The model's choices it rests on: log entries 84, 85, 122, 123. -/
def Obligations.HalfAndBar2Accesses : Prop :=
  ((∀ (s : State) (a : BitVec 26), (PageAt s a.toNat →
        Does (.lowHalfRead ⟨.bar0 .bad, a⟩) s ((pageErr (Touched s a.toNat) a.toNat 2).answer 0)) ∧
      (a.toNat < 0x400 →
        (a.toNat % 16 = 0 → Does (.lowHalfRead ⟨.bar4 true, a⟩) s (s.answer (msixOf s (a.toNat / 16)).addr)) ∧
        (a.toNat % 16 = 8 → Does (.lowHalfRead ⟨.bar4 true, a⟩) s
          (s.answer ((msixOf s (a.toNat / 16)).data + b2n (msixOf s (a.toNat / 16)).mask * 2 ^ 32)))) ∧
      (s.devState = devSelftest → Does (.lowHalfRead ⟨.config, a⟩) s (s.emit .configRetry)) ∧
      (s.devState ≠ devSelftest → DoesSome (.lowHalfRead ⟨.config, 0⟩) s (fun u =>
        u.out = s.out ++ [.readData 0x56601F3A false] ∧ u.fld = s.fld ∧ u.host = s.host))) ∧
    ∀ (s : State) (a : BitVec 26) (v lo : Long) (hi p : Nat), p = pageOf a.toNat → s.toll.orderly = false → PageAt s a.toNat →
      ((pageBuf s p).split = none →
        Does (.splitLowWrite a v) s (modPage (Touched s a.toNat) p (fun b => { b with split := some (a.toNat, v.toNat) }))) ∧
      ((pageBuf s p).split = some (a.toNat, lo.toNat) → Reaches s a.toNat (lo.toNat + v.toNat * 2 ^ 32) →
        ∃ u, exec (.splitHighWrite a v) s = .next (settle (orderlyCheck u)) ∧
          u = (applyWrite (modPage (Touched s a.toNat) p (fun b => { b with split := none })) a.toNat (lo.toNat + v.toNat * 2 ^ 32)).2) ∧
      (regRead s a.toNat = (hi, s) →
        Does (.lowHalfRead ⟨.bar0 .low, a⟩) s ((modPage s p (fun b => { b with snap := some (a.toNat, hi / 2 ^ 32) })).answer (hi % 2 ^ 32))) ∧
      ((pageBuf s p).snap = some (a.toNat, hi) → Does (.highHalfRead a) s ((Touched s a.toNat).answer hi)) ∧
      ((pageBuf s p).snap = none → regRead s a.toNat = (hi, s) → Does (.highHalfRead a) s ((Touched s a.toNat).answer (hi / 2 ^ 32)))) ∧
  (∀ (s : State) (x : BitVec 36) (bs : List Byte) (g : Nat), g = bar2Addr s x.toNat → g % 8 = 0 → bs.length = 8 →
      (2 ^ 28 ≤ x.toNat → Does (.bar2Read x 8) s s ∧ Does (.bar2Write x bs) s s) ∧
      (x.toNat < 2 ^ 28 → s.devState = devDrydock ∨ s.get Fld.BAR2_CTRL_EN = 0 →
        Does (.bar2Read x 8) s (s.answer 0) ∧ Does (.bar2Write x bs) s s) ∧
      (x.toNat < 2 ^ 28 → s.devState ≠ devDrydock → s.get Fld.BAR2_CTRL_EN = 1 → g < s.dramTop →
        (s.poisoned 0 g 8 = false → g < s.devRegion → Does (.bar2Read x 8) s (s.answer (leNat (s.dramRead g 8)))) ∧
        (s.poisoned 0 g 8 = false → s.devRegion ≤ g → ∃ v, Does (.bar2Read x 8) s (s.drawFree.2.answer v)) ∧
        (s.poisoned 0 g 8 = true → Does (.bar2Read x 8) s ((dramEcc s g).drawFree.2.emit (.readData (Config.freeWord (dramEcc s g).free) true))) ∧
        (bar2Refuses s g = false → Does (.bar2Write x bs) s (s.dramWrite g bs)) ∧
        (bar2Refuses s g = true →
          Does (.bar2Write x bs) s ((s.raise Fld.HP_EVT_BAR2_WP).bumpSat Fld.HP_STATS_BAR2_DISCARDS 1))) ∧
      (x.toNat < 2 ^ 28 → s.devState ≠ devDrydock → s.get Fld.BAR2_CTRL_EN = 1 → s.dramTop ≤ g →
        Does (.bar2Read x 8) s ((s.raise Fld.HP_EVT_BAR2_RANGE).answer 0) ∧
        Does (.bar2Write x bs) s (s.raise Fld.HP_EVT_BAR2_RANGE)))

/-- R6, R398: what a write of `v` leaves in a field by its access code: RW takes the bits written, W1C loses the bits written as 1,
W1S gains them, RO and WO keep what they held. No field but the written one changes. R395, R397, R398, R401: UNMAPPED_ACCESS and REGISTER_WRITE. A read of no page answers zero and a write is discarded, both noted. A
register write acts by its register's rule; one that its rule refuses leaves the register as it was and sets STATE_WRITE. R396, R325,
R326, R358: a write with a size error is discarded and sets SIZE; one of an MSI-X entry's address or of its data and mask
changes that entry alone; one of PMCSR (whose place is log entry 123) sets PME_En, clears PME_Status where it holds 1 and takes the function to D3hot or back to D0;
configuration space is to be retried before READY.
The model's choices it rests on: log entries 77, 84, 122, 123. -/
def Obligations.RegisterWrites : Prop :=
  (∀ (s : State) (a v : Nat) (d : FldDef), s.get (fldAt a d) < 2 ^ d.w →
      (d.acc = .rw ∨ d.acc = .rwnv → (fldWrite s a v d).get (fldAt a d) = bf v d.lo d.w) ∧
      (d.acc = .w1c → ∀ i, ((fldWrite s a v d).get (fldAt a d)).testBit i = ((s.get (fldAt a d)).testBit i && !(bf v d.lo d.w).testBit i)) ∧
      (d.acc = .w1s → ∀ i, ((fldWrite s a v d).get (fldAt a d)).testBit i = ((s.get (fldAt a d)).testBit i || (bf v d.lo d.w).testBit i)) ∧
      (d.acc = .ro ∨ d.acc = .wo ∨ d.acc = .rc → fldWrite s a v d = s) ∧
      (∀ g, fldKey g ≠ fldKey (fldAt a d) → (fldWrite s a v d).get g = s.get g)) ∧
  (∀ (s p : State) (a : BitVec 26) (v : Word), s.toll.orderly = false →
      (barRegion a.toNat = .unmapped → s.devState ≠ devDrydock →
        Does (.unmappedAccess a true) s ((s.raise Fld.HP_EVT_UNMAPPED).bumpSat Fld.HP_STATS_UNMAPPED 1) ∧
        Does (.unmappedAccess a false) s (((s.raise Fld.HP_EVT_UNMAPPED).bumpSat Fld.HP_STATS_UNMAPPED 1).answer 0)) ∧
      (Reaches s a.toNat v.toNat →
        (∀ u, regWrite (Touched s a.toNat) a.toNat v.toNat = .ok u → u.toll.orderly = false → Does (.registerWrite (.bar0 .word) a v) s u) ∧
        (regWrite (Touched s a.toNat) a.toNat v.toNat = .refused →
          Does (.registerWrite (.bar0 .word) a v) s (pageErr (Touched s a.toNat) a.toNat 1))) ∧
      (PageAt s a.toNat → 0x100 ≤ a.toNat % 0x1000 → s.get (Fld.PAGE_CTRL_WR_LOCK (pageOf a.toNat)) = 1 →
        Does (.registerWrite (.bar0 .word) a v) s (pageErr (Touched s a.toNat) a.toNat 1)) ∧
      (PageAt s a.toNat → Does (.registerWrite (.bar0 .bad) a v) s (pageErr (Touched s a.toNat) a.toNat 2)) ∧
      (a.toNat < 0x400 → ∀ e : MsixEntry, e = msixOf s (a.toNat / 16) →
        (a.toNat % 16 = 0 → DoesSome (.registerWrite (.bar4 true) a v) s (fun u =>
          msixOf u (a.toNat / 16) = { e with addr := v.toNat / 4 * 4 } ∧ (∀ n, n ≠ a.toNat / 16 → msixOf u n = msixOf s n) ∧ u.out = s.out ∧ u.fld = s.fld)) ∧
        (a.toNat % 16 = 8 → DoesSome (.registerWrite (.bar4 true) a v) s (fun u =>
          msixOf u (a.toNat / 16) = ⟨e.addr, v.toNat % 2 ^ 32, bit v.toNat 32⟩ ∧ (∀ n, n ≠ a.toNat / 16 → msixOf u n = msixOf s n) ∧ u.out = s.out ∧
          u.fld = s.fld))) ∧
      (s.devState = devSelftest → Does (.registerWrite .config a v) s (s.emit .configRetry)) ∧
      (s.devState ≠ devSelftest → p = s.modHost (fun h => { h with pmeEn := bit v.toNat 8, pmeStatus := h.pmeStatus && !bit v.toNat 15 }) →
        (bf v.toNat 0 2 = 3 → s.host.d3hot = false → Does (.registerWrite .config 0x44 v) s { p.modHost (fun h => { h with d3hot := true }) with polls := [] }) ∧
        (bf v.toNat 0 2 = 0 → s.host.d3hot = true → DoesSome (.registerWrite .config 0x44 v) s (fun u => u.host.d3hot = false ∧
          u.host.pmeEn = p.host.pmeEn ∧ u.host.pmeStatus = p.host.pmeStatus ∧ u.fld = s.fld)) ∧
        (bf v.toNat 0 2 ≠ (if s.host.d3hot then 0 else 3) → Does (.registerWrite .config 0x44 v) s p)))

/-- R402: SHADOW_HOLD, SHADOW_RELEASE, SHADOW_COMMIT, SHADOW_DISCARD of the page of an address. HOLD stages writes, releasing or
discarding drops what is staged, a commit is scheduled for the next edge. While one is scheduled HOLD still takes the value written, and
nothing staged is dropped. -/
def Obligations.ShadowCommands : Prop :=
  ∀ (s t : State) (a : BitVec 26) (p : Nat), p = pageOf a.toNat → PageAt s (Reg.SHADOW_CTRL p) →
    t = Touched s (Reg.SHADOW_CTRL p) →
    (s.get (Fld.SHADOW_CTRL_PENDING p) = 1 →
      Does (.shadowHold a) s (t.raise (Fld.SHADOW_CTRL_HOLD p)) ∧ Does (.shadowRelease a) s (t.clear (Fld.SHADOW_CTRL_HOLD p)) ∧
      Does (.shadowCommit a) s ((t.raise (Fld.SHADOW_CTRL_HOLD p)).raise (Fld.SHADOW_CTRL_PENDING p)) ∧
      Does (.shadowDiscard a) s (t.raise (Fld.SHADOW_CTRL_HOLD p))) ∧
    (s.get (Fld.SHADOW_CTRL_PENDING p) = 0 →
    Does (.shadowHold a) s (t.raise (Fld.SHADOW_CTRL_HOLD p)) ∧
    Does (.shadowRelease a) s (modPage (t.clear (Fld.SHADOW_CTRL_HOLD p)) p (fun b => { b with shadow := [] })) ∧
    Does (.shadowCommit a) s ((t.raise (Fld.SHADOW_CTRL_HOLD p)).raise (Fld.SHADOW_CTRL_PENDING p)) ∧
    Does (.shadowDiscard a) s (modPage (t.raise (Fld.SHADOW_CTRL_HOLD p)) p (fun b => { b with shadow := [] })))

/-- R33, R41: TICK_CFG_WRITE and KEY_CFG_WRITE. With no route and values in range, the new period and phase read back and wait for the
edge, and KEY_CFG.OFFSET_NS takes the value; otherwise nothing is written and CFG_REFUSED is set. R31, R39, R46, R47, R49: TIME_NS_READ, LS_COMMIT, TB_CTRL_WRITE and STEP_GO. A read of TIME_NS latches TICKNO. A commit of a valid
schedule is captured and pending; one that is not sets REJECT and leaves the schedule. Selecting a source puts the servo into
ACQUIRE, SRC 0 into FREE. A step while no route runs is applied at once, and one without FORCE while a route runs is
refused.
The model's choices it rests on: log entries 11, 99. -/
def Obligations.TimebaseRegisters : Prop :=
  (∀ (s t : State) (v : Word) (us ph : Nat), us = bf v.toNat 0 14 → ph = bf v.toNat 16 24 →
      (Reaches s Reg.TICK_CFG v.toNat → t = Touched s Reg.TICK_CFG →
        ((10 ≤ us ∧ us ≤ 10000 ∧ ph < us * 1000) → s.get Fld.KEY_CFG_OFFSET_NS + s.get Fld.KEY_CFG_EVAL_NS ≤ us * 1000 →
          routesBusy s = false →
          Does (.tickCfgWrite v) s ((((t.put Fld.TICK_CFG_PERIOD_US us).put Fld.TICK_CFG_PHASE_NS ph).modTb
            (fun x => { x with cfg := some (us, ph) })).raise Fld.TB_STATUS_CFG_PENDING)) ∧
        ((¬ (10 ≤ us ∧ us ≤ 10000 ∧ ph < us * 1000) ∨ us * 1000 < s.get Fld.KEY_CFG_OFFSET_NS + s.get Fld.KEY_CFG_EVAL_NS ∨ routesBusy s = true) →
          Does (.tickCfgWrite v) s (t.raise Fld.TB_EVENTS_CFG_REFUSED))) ∧
      (Reaches s Reg.KEY_CFG v.toNat → t = Touched s Reg.KEY_CFG →
        (bf v.toNat 0 24 + s.get Fld.KEY_CFG_EVAL_NS ≤ keyPeriod s →
          Does (.keyCfgWrite v) s (t.put Fld.KEY_CFG_OFFSET_NS (bf v.toNat 0 24))) ∧
        (keyPeriod s < bf v.toNat 0 24 + s.get Fld.KEY_CFG_EVAL_NS → Does (.keyCfgWrite v) s (t.raise Fld.TB_EVENTS_CFG_REFUSED)))) ∧
  (∀ (s t : State) (v : Word),
      (PageAt s Reg.TIME_NS → Does .timeNsRead s ((snapDrop (s.put Fld.TIME_SNAP_TICKNO s.tick) 0x2000).answer s.now)) ∧
      (Reaches s Reg.LS_CTRL (withField v.toNat Fld.LS_CTRL_COMMIT 1) → bit (withField v.toNat Fld.LS_CTRL_COMMIT 1) 0 = true →
        t = (Touched s Reg.LS_CTRL).put Fld.LS_CTRL_COUNT (bf (withField v.toNat Fld.LS_CTRL_COMMIT 1) 16 9) →
        (lsReject t = 0 → Does (.lsCommit v) s (((t.put Fld.LS_CTRL_REJECT 0).modTb
          (fun x => { x with sched := some (lsShadow t (t.get Fld.LS_CTRL_COUNT)) })).raise Fld.LS_CTRL_PENDING)) ∧
        (lsReject t ≠ 0 → Does (.lsCommit v) s (t.put Fld.LS_CTRL_REJECT (lsReject t)))) ∧
      (Reaches s Reg.TB_CTRL v.toNat →
        (bf v.toNat 0 3 < 5 → DoesSome (.tbCtrlWrite v) s (fun u => servoState u = (if bf v.toNat 0 3 = 0 then servoFree else servoAcquire) ∧
          u.get Fld.TB_STATUS_ACTIVE_SRC =
            (if bf v.toNat 0 3 = 4 ∨ (bf v.toNat 0 3 = 3 ∧ s.get Fld.TP_STATUS_IS_MASTER = 1) then 0 else bf v.toNat 0 3) ∧
          u.get Fld.TB_CTRL_SRC = bf v.toNat 0 3 ∧ u.now = s.now ∧ u.tick = s.tick)) ∧
        (5 ≤ bf v.toNat 0 3 → Does (.tbCtrlWrite v) s (pageErr (Touched s Reg.TB_CTRL) Reg.TB_CTRL 1))) ∧
      (Reaches s Reg.STEP_CTRL (withField v.toNat Fld.STEP_CTRL_GO 1) → bit (withField v.toNat Fld.STEP_CTRL_GO 1) 0 = true →
        t = ((Touched s Reg.STEP_CTRL).putB Fld.STEP_CTRL_FORCE (bit (withField v.toNat Fld.STEP_CTRL_GO 1) 1)).putB Fld.STEP_CTRL_ABS
          (bit (withField v.toNat Fld.STEP_CTRL_GO 1) 2) →
        (routesBusy s = false →
          DoesSome (.stepGo v) s (fun u => (t.get Fld.STEP_CTRL_ABS = 1 → u.now = s.get Fld.STEP_DELTA_VALUE) ∧
            (t.get Fld.STEP_CTRL_ABS = 0 → u.now = (s.now + s.get Fld.STEP_DELTA_VALUE) % 2 ^ 64) ∧
            u.get Fld.STEP_RESULT_APPLIED = (u.now + 2 ^ 64 - s.now) % 2 ^ 64 ∧ u.tb.used = some u.now ∧ u.tb.notBefore = u.now + 10000 ∧
            u.isSet Fld.TB_EVENTS_STEP_DONE = true ∧ u.tick = s.tick)) ∧
        (routesBusy s = true → t.get Fld.STEP_CTRL_FORCE = 0 → Does (.stepGo v) s (t.raise Fld.TB_EVENTS_STEP_REFUSED)) ∧
        (routesBusy s = true → t.get Fld.STEP_CTRL_FORCE = 1 → Does (.stepGo v) s (t.modTb (fun x => { x with step := some ⟨t.isSet Fld.STEP_CTRL_ABS,
          if t.isSet Fld.STEP_CTRL_ABS then (t.get Fld.STEP_DELTA_VALUE : Int) else sgn64 (t.get Fld.STEP_DELTA_VALUE)⟩ })))))

/-- R46, R47, R422: PPS_IN_EDGE, HOLDOVER_TIMEOUT, PPS_OUT_RISE and PPS_OUT_FALL. The first edge, one within 1 ms of a second after the
last accepted one and one after a gap of more than 2 s are accepted: remembered, and a measurement of the servo that follows
PPS_IN; another is rejected. That the gap counts from the last accepted edge is the model's choice (log entry 101). Without a
sample the servo goes to HOLDOVER with TRIM at the mean of the last trims. PPS_OUT rises at whole seconds from READY on.
The model's choices it rests on: log entries 15, 16, 17, 100, 101. -/
def Obligations.PulsePerSecond : Prop :=
  ∀ (s : State) (p gap : Nat),
    (gap = (BitVec.ofNat 64 s.now - BitVec.ofNat 64 p).toInt.natAbs →
      (s.tb.pps = none ∨ (s.tb.pps = some p ∧ (2000000000 < gap ∨ (999000000 ≤ gap ∧ gap ≤ 1001000000))) → Does .ppsInEdge s (servoMeasure (s.modTb (fun t => { t with pps := some s.now })) 1
        (if s.now % 1000000000 < 500000000 then ((s.now % 1000000000 : Nat) : Int) else ((s.now % 1000000000 : Nat) : Int) - 1000000000)) ∧
        (servoTakes s 1 = false → Does .ppsInEdge s (s.modTb (fun t => { t with pps := some s.now })))) ∧
      (s.tb.pps = some p → gap < 999000000 ∨ 1001000000 < gap → gap ≤ 2000000000 → Does .ppsInEdge s (s.raise Fld.TB_EVENTS_PPS_REJECT))) ∧
    (servoState s = servoAcquire ∨ servoState s = servoLocked → DoesSome .holdoverTimeout s (fun u => servoState u = servoHoldover ∧
      u.isSet Fld.TB_EVENTS_HOLDOVER = true ∧ u.tb = s.tb ∧ u.now = s.now ∧
      u.get Fld.TB_STATUS_ACTIVE_SRC = (if s.get Fld.TB_CTRL_SRC = 4 then 0 else s.get Fld.TB_STATUS_ACTIVE_SRC) ∧
      (s.tb.trims = [] → u.get Fld.TB_TRIM_TRIM = s.get Fld.TB_TRIM_TRIM) ∧
      (s.tb.trims ≠ [] → u.get Fld.TB_TRIM_TRIM = (BitVec.ofInt 32 (s.tb.trims.sum / s.tb.trims.length)).toNat))) ∧
    (servoState s = servoFree ∨ servoState s = servoHoldover → Does .holdoverTimeout s s) ∧
    (s.get Fld.TB_CTRL_PPS_OUT_EN = 1 → s.tb.ppsOut = false → s.now % 1000000000 ≤ 1 → devReady ≤ s.devState →
      Does .ppsOutRise s ((s.modTb (fun t => { t with ppsOut := true })).emit (.ppsOut true))) ∧
    (s.get Fld.TB_CTRL_PPS_OUT_EN = 0 ∨ s.devState < devReady → Does .ppsOutRise s s) ∧
    (s.tb.ppsOut = true → Does .ppsOutFall s ((s.modTb (fun t => { t with ppsOut := false })).emit (.ppsOut false)))

/-- R32, R35, R36, R37, R42, R43, R45, R254, R18: TICK_EDGE, SUB_TICK_SWAP and WAIT_EXPIRE. At an edge TICKNO advances by one and TIME_NS stands
at the grid point, which the next edge may not use again (stated for a device in DRYDOCK with nothing staged, where the edge does nothing
else). Elsewhere the edge is its steps in order, and of each step its effect: the chamber of a channel in the lock schedule swaps, the
half that filled becomes FULL with the tick that ended and the empty one fills, or the chamber enters WEIR; the signal view is the live copy;
an order that is due at the edge, or the first of a route, starts; a WAIT counts down; the threads' counters restart and YIELDED threads
run; READY with a route begun becomes RUN, and RUN with none READY. The next swap point of a lock chamber advances the time to it; one that
is not due changes nothing. A WAIT whose ticks are spent completes its order.
The model's choices it rests on: log entries 5, 14, 18, 23. -/
def Obligations.TickEdges : Prop :=
  ∀ (s h : State) (c : Fin 56) (t : Fin 8) (j : Fin 16) (e : ExecOrder) (i : Nat) (o : Order) (ended : Nat) (ch : Chamber),
    h = holdTicks s →
    (s.devState = devDrydock → s.pages = [] → s.tb.sched = none → s.tb.cfg = none → s.tick + 1 < 2 ^ 48 → s.now ≤ nextGrid s →
      nextGrid s < 2 ^ 64 → s.fld.filter (fun kv => kv.1 % (0x1000 * 64) == 0x40 * 64 + 3 && kv.2 == 1) = [] →
      DoesSome .tickEdge s (fun u => u.tick = s.tick + 1 ∧ u.now = nextGrid s ∧ u.tb.used = some (nextGrid s) ∧ u.tb.edgeNs = nextGrid s ∧
        u.chans = s.chans ∧ u.dram = s.dram)) ∧
    (s.devState ≠ devDrydock →
      Does .tickEdge s (orderlyCheck (stateAtEdge (edgeRoutes (edgeApply (edgeClears h) (edgeDevice h)))))) ∧
    (s.devState = devDrydock → Does .tickEdge s (shadowsEdge (edgeClears h) (tbEdge h, []))) ∧
    (edgeDevice h).1 = edgeChans (edgeSwap h) ∧
    (tbEdge s).tick = (s.tick + 1) % 2 ^ 48 ∧
    (s.now ≤ nextGrid s → nextGrid s < 2 ^ 64 → (tbEdge s).now = nextGrid s ∧ (tbEdge s).tb.used = some (nextGrid s) ∧
      (tbEdge s).tb.edgeNs = nextGrid s ∧ (tbEdge s).tb.served = []) ∧
    (chLocks s c = true → ((swapsAtEdge s ended).ch c).chamber = { ((s.ch c).chamber.swap c ended 0).2 with swaps := 1 }) ∧
    (chLocks s c = false → ((swapsAtEdge s ended).ch c).chamber = (s.ch c).chamber) ∧
    (ch.weir = true → ch.swap c ended 0 = (false, ch)) ∧
    (ch.weir = false → ch.filling < 2 →
      ((ch.swap c ended 0).2.half ch.filling).st = .full ∧ ((ch.swap c ended 0).2.half ch.filling).tick = ended ∧
      ((ch.half (1 - ch.filling)).st = .empty → (ch.swap c ended 0).1 = false ∧ (ch.swap c ended 0).2.filling = 1 - ch.filling ∧
        ((ch.swap c ended 0).2.half (1 - ch.filling)).st = .filling ∧ (ch.swap c ended 0).2.weir = false) ∧
      ((ch.half (1 - ch.filling)).st ≠ .empty → (ch.swap c ended 0).1 = true ∧ (ch.swap c ended 0).2.weir = true ∧
        (ch.swap c ended 0).2.filling = ch.filling)) ∧
    (sigEdge s).board.view = (sigEdge s).board.live ∧
    ((s.sq c).stop = none → (s.sq c).exec = none → (s.sq c).fetch = .ready i o → s.frozen c = false →
      ((s.sq c).due = true ∧ (s.sq c).atEdge = true ∨ (s.sq c).due = false ∧ (s.sq c).first = true →
        (((seqEdge s c).sq c).exec.map (fun x => (x.idx, x.order))) = some (i, o)) ∧
      ((s.sq c).due = true → (s.sq c).atEdge = false → ((seqEdge s c).sq c).exec = none)) ∧
    ((s.sq c).exec = some e → e.order.op = oWait → e.result = none → ((seqEdgeWait s c).sq c).exec = some { e with count := e.count - 1 }) ∧
    ((s.sq c).exec = some e → e.order.op ≠ oWait ∨ e.result.isSome = true → ((seqEdgeWait s c).sq c).exec = some e) ∧
    (((threadsAtEdge s).th c t).used = 0 ∧ ((threadsAtEdge s).th c t).yielded = false ∧
      ((threadsAtEdge s).th c t).st = (if (s.th c t).st = .yielded then .run else (s.th c t).st) ∧
      (threadsAtEdge s).get (Fld.THREAD_BUDGET_USED_LAST c t) = (s.th c t).used % 2 ^ 32) ∧
    (s.devState = devReady → routesBegun s = true → (runReady s).devState = devRun) ∧
    (s.devState = devRun → routesBusy s = false → (runReady s).devState = devReady) ∧
    (s.devState = devReady ∧ routesBegun s = false ∨ s.devState = devRun ∧ routesBusy s = true → runReady s = s) ∧
    (chLocks s c = true → j.val = (s.ch c).chamber.swaps → j.val < lockRate s c →
      s.canReach (s.tb.edgeNs + j.val * s.tb.period / lockRate s c) = true →
      DoesSome (.subTickSwap c j) s (fun u => (u.ch c).chamber.swaps = j.val + 1 ∧ u.tick = s.tick ∧
        u.now = (s.advanceTo (s.tb.edgeNs + j.val * s.tb.period / lockRate s c)).now)) ∧
    (chLocks s c = false ∨ j.val ≠ (s.ch c).chamber.swaps ∨ lockRate s c ≤ j.val ∨
      s.canReach (s.tb.edgeNs + j.val * s.tb.period / lockRate s c) = false → Does (.subTickSwap c j) s s) ∧
    ((s.sq c).exec = some e → e.order.op = oWait → e.count = 0 → e.result = none → s.frozen c = false →
      Does (.waitExpire c) s (orderFinish (orderGives (rtSet s c rtRun) c 0 0) c false)) ∧
    ((s.sq c).exec = some e → e.order.op ≠ oWait ∨ e.count ≠ 0 ∨ e.result.isSome = true ∨ s.frozen c = true → Does (.waitExpire c) s s)

/-- R17, R351, R354, R357, R372, R378, R413: the commands that reset the device: PORESET, WARMRESET, SUPPLY_RESET, FW_TRIAL_TIMEOUT,
MB_RESET_FIRE and BRACE_COMMIT_TIMEOUT, each with its cause; where the last four have no cause they leave the state as it is. A power-on whose
power-down tore a write of the MRAM finds that item invalid. A trial that a reset ends leaves its slot FAILED. That the DRAM reads empty
after a reset is the model's choice (log entry 7). R359, R360, R350, R410: SELFTEST_COMPLETE. A test that the ROM or a step fails leads to DRYDOCK with the step and its detail noted;
one that passes, with no configuration image, waits in SELFTEST for the edge that makes the device READY, PASS set when nothing
failed, or under BOOTMODE 2 goes to DRYDOCK with no step. In the factory test mode, out of SELFTEST, while a monitor is below its
warning level, or once the test has ended, it leaves the state as it is. That PASS stays 0 beside a failed tile is the model's choice
(log entry 20).
The model's choices it rests on: log entries 7, 8, 19, 20, 21, 26, 127, 144. -/
def Obligations.ResetsAndSelfTest : Prop :=
  (∀ (s : State) (b : Boot) (n : Fin 10) (mv : Half) (k prev : Nat) (full : Bool) (x : Torn) (y : Option Torn),
      DoesSome (.poreset b ⟨true, none⟩) s (fun u => AfterReset s u 0 0 0) ∧
      DoesSome (.poreset b ⟨true, some x⟩) s (fun u => AfterReset ((trialFails s).modToll (fun t => tornItem t x)) u 0 0 0) ∧
      (∀ (t : TollHouse) (k : Fin 16), (tornItem t (.key k)).keys[k].kind = 0 ∧ (tornItem t (.key k)).keys[k].epoch = t.keys[k].epoch ∧
        ∀ j : Fin 16, j ≠ k → (tornItem t (.key k)).keys[j] = t.keys[j]) ∧
      (∀ t : TollHouse, (tornItem t .log).log = t.log.tail) ∧
      (∀ (t : TollHouse) (k : Fin 2), (fwSlot (tornItem t (.fw k)) k).state = slotInvalid) ∧
      DoesSome (.poreset b ⟨false, y⟩) s (fun u => AfterReset s u 1 0 0) ∧
      DoesSome (.warmreset b) s (fun u => AfterReset s u 2 0 0) ∧
      (s.toll.trial = some (k, prev) → DoesSome (.warmreset b) s (fun u => (fwSlot u.toll k).state = slotFailed)) ∧
      (s.dip = none → s.get (Fld.MON0_RESET_MV n) ≠ 0 → monLevel s n mv.toNat ≤ s.get (Fld.MON0_RESET_MV n) →
        DoesSome (.supplyReset n mv b) s (fun u => AfterReset s u 3 n (monLevel s n mv.toNat))) ∧
      (s.get (Fld.MON0_RESET_MV n) = 0 ∨ s.get (Fld.MON0_RESET_MV n) < monLevel s n mv.toNat → Does (.supplyReset n mv b) s s) ∧
      (s.toll.trial = some (k, prev) →
        DoesSome (.fwTrialTimeout b) s (fun u => AfterReset s u 2 0 0 ∧ (fwSlot u.toll k).state = slotFailed)) ∧
      (s.toll.trial = none → Does (.fwTrialTimeout b) s s) ∧
      (s.toll.resetIn = some full → DoesSome (.mbResetFire b) s (fun u => AfterReset s u 2 0 0 ∧ u.toll.fullTest = full)) ∧
      (s.toll.resetIn = none → Does (.mbResetFire b) s s) ∧
      (s.critWait = true → DoesSome (.braceCommitTimeout b) s (fun u => AfterReset s u 4 0 0)) ∧
      (s.critWait = false → Does (.braceCommitTimeout b) s s)) ∧
  (∀ (s : State) (t : SelfTest),
      (s.devState ≠ devSelftest ∨ s.toll.start ≠ .none ∨ s.toll.testMode = true ∨ anyBelow s = true → Does (.selftestComplete t) s s) ∧
      (s.devState = devSelftest → s.toll.start = .none → s.toll.testMode = false → anyBelow s = false →
        (s.toll.rom = false → t.step = 2 →
          DoesSome (.selftestComplete t) s (fun u => u.devState = devDrydock ∧ u.get Fld.ST_SUMMARY_FAIL_STEP = 2 ∧
            u.get Fld.ST_SUMMARY_FAIL_CODE = 2 * 4096 + t.detail.toNat)) ∧
        (s.toll.rom = true → DoesSome (.selftestComplete t) s (fun u => u.devState = devDrydock ∧ u.get Fld.ST_SUMMARY_FAIL_STEP = 1)) ∧
        (∀ k d, testFails s t = some (k, d) → DoesSome (.selftestComplete t) s (fun u => u.devState = devDrydock ∧
          u.get Fld.ST_SUMMARY_FAIL_STEP = k ∧ u.get Fld.ST_SUMMARY_FAIL_CODE = k * 4096 + d ∧ u.isSet Fld.TP_STATUS_IS_MASTER = false)) ∧
        (testFails s t = none → s.toll.factory = [] → s.toll.config = [] → s.toll.repair = [] → t.rows = [] →
          t.pages = [] → t.mapBad = false → t.plls = 0xFF →
          (s.toll.bootmode ≠ 2 → DoesSome (.selftestComplete t) s (fun u => u.devState = devSelftest ∧ u.toll.start = .waitReady ∧
            u.get Fld.ST_SUMMARY_PASS = (if t.tiles = 0 then 1 else 0) ∧ u.get Fld.CFG_STATUS_USER = 0)) ∧
          (s.toll.bootmode = 2 → DoesSome (.selftestComplete t) s (fun u => u.devState = devDrydock ∧ u.get Fld.ST_SUMMARY_FAIL_STEP = 0 ∧
            u.get Fld.ST_SUMMARY_PASS = (if t.tiles = 0 then 1 else 0))))))

/-- R86, R326, R338, R356, R358: HOST_PERST, HOST_LINK_DOWN, HOST_LINK_UP, HOST_D3HOT_ENTRY, HOST_D0_RETURN, HOST_BME_CLEAR,
BUS_MASTER_ENABLE_SET and PME_REPEAT. A link that goes down resets the MSI-X table and empties the host vectors' stacks. Once the host
cannot be reached the reads under way are lost; when it can be again, the completions held for it are written in their order. A link comes
up at the width it trains to, or not at all. The configuration writes are to be retried before READY (the width of a link
with retired lanes is log entry 126).
The model's choices it rests on: log entries 30, 78, 122, 126, 144. -/
def Obligations.HostFunction : Prop :=
  ∀ (s : State) (width : BitVec 4),
    DoesSome .hostPerst s (fun u => u.host.link = false ∧ u.host.msix = [] ∧ u.host.msixEn = false ∧ u.get Fld.LINK_STATE_HOST_WIDTH = 0 ∧
      u.polls = [] ∧ u.host.held = s.host.held ∧
      (∀ v, v < 0x40 → stackOf u v = []) ∧ (∀ v, 0x40 ≤ v → stackOf u v = stackOf s v) ∧ u.devState = s.devState ∧ u.chans = s.chans) ∧
    (s.host.link = false ∨ s.host.d3hot = true →
      DoesSome .hostLinkDown s (fun u => u.host.link = false ∧ u.host.msix = [] ∧ u.get Fld.LINK_STATE_HOST_WIDTH = 0 ∧ u.polls = [] ∧
        u.host.held = s.host.held ∧ (∀ v, v < 0x40 → stackOf u v = []) ∧ u.chans = s.chans)) ∧
    (s.host.link = true → s.host.d3hot = false → s.serving = true → s.pinsHeld.testBit 56 = false →
      DoesSome .hostLinkDown s (fun u => u.host.link = false ∧ (u.get Fld.FAULT_STATUS_STATUS).testBit 56 = true ∧
        u.get Fld.LINK_STATE_HOST_WIDTH = 0 ∧ u.polls = [])) ∧
    (trainWidth s 0 width.toNat = 0 → Does (.hostLinkUp width) s s) ∧
    (trainWidth s 0 width.toNat ≠ 0 → DoesSome (.hostLinkUp width) s (fun u =>
      u.get Fld.LINK_STATE_HOST_WIDTH = trainWidth s 0 width.toNat ∧ u.devState = s.devState ∧ u.polls = s.polls ∧
      u.host = { s.host with link := true, held := if s.host.d3hot || !s.host.bme then s.host.held else [] } ∧
      u.out = s.out ++ (if s.host.d3hot || !s.host.bme then [] else s.host.held.map OutEvent.hostWrite))) ∧
    (∀ i ∈ [Instr.hostD3hotEntry, .hostD0Return, .hostBmeClear, .busMasterEnableSet], s.devState = devSelftest → Does i s (s.emit .configRetry)) ∧
    (s.devState ≠ devSelftest →
      Does .hostD3hotEntry s { s.modHost (fun h => { h with d3hot := true }) with polls := [] } ∧
      Does .hostBmeClear s { s.modHost (fun h => { h with bme := false }) with polls := [] } ∧
      ∀ x ∈ [(Instr.hostD0Return, { s.host with d3hot := false }), (Instr.busMasterEnableSet, { s.host with bme := true })],
        ((x.2.link && !x.2.d3hot && x.2.bme) = true → DoesSome x.1 s (fun u => u.host = { x.2 with held := [] } ∧
          u.out = s.out ++ s.host.held.map OutEvent.hostWrite ∧ u.polls = s.polls ∧ u.fld = s.fld)) ∧
        ((x.2.link && !x.2.d3hot && x.2.bme) = false → Does x.1 s { s with host := x.2 })) ∧
    (s.host.pmeStatus = true → s.host.pmeEn = true → hostHeld s = true → Does .pmeRepeat s (s.emit .pmPme)) ∧
    (s.host.pmeStatus = false ∨ s.host.pmeEn = false ∨ hostHeld s = false → Does .pmeRepeat s s)

/-- R17, R361: a change of the device's state: STATE and PREV_STATE, the tick of entry, STAT driven, and no channel, queue, stream or
memory touched. R18, R350, R352: SUPPLY_WARN, SUPPLY_RECOVER and THERMAL_SAMPLE. A monitor below WARN_MV is marked and logged, and a dip begins unless
one is under way; from READY or RUN the device goes to BRACE, unless HALT is due. A monitor above its hysteresis is no longer
marked; once all are, a dip ends, in BRACE at the next edge. The hottest sensors give TMAX_C, one of them SENSOR, and a change
of the level sets its event.
The model's choices it rests on: log entries 80, 81. -/
def Obligations.SupplyTemperatureState : Prop :=
  (∀ (s : State) (st : Nat), st < 8 → st ≠ s.devState → s.devState < 8 →
      (setDev s st).devState = st ∧ (setDev s st).get Fld.DEV_STATE_PREV_STATE = s.devState ∧
      (setDev s st).get Fld.DEV_STATE_TICK_ENTRY_TICK = s.tick % 2 ^ 48 ∧ (setDev s st).dram = s.dram ∧
      (setDev s st).accepted = s.accepted ∧ (setDev s st).basinq = s.basinq ∧ (setDev s st).streams = s.streams ∧
      (setDev s st).out.getLast? = some (.stat (statBits (setDev s st)))) ∧
  (∀ (s t w : State) (n : Fin 10) (mv : Half) (ts : Word) (levels : List Half) (low : Half) (temps : List Byte) (lvl l : Nat) (m : Int)
      (deg : List Int) (up : Nat → Bool),
      (lvl = monLevel s n mv.toNat →
        (s.get (Fld.MON0_WARN_MV n) ≤ lvl → DoesThen (.supplyWarn n ⟨mv, []⟩ ts) s s) ∧
        (lvl < s.get (Fld.MON0_WARN_MV n) →
          t = thLog { ((monTake s n lvl).raise (Fld.MON1_BELOW n)).raise Fld.SUPPLY_EVT_WARN with recovered := false }
            0xFE 0x0300 (leBytes 1 n ++ leBytes 2 lvl) →
          w = (if s.dip.isNone then { t with dip := some ⟨s.tick, n, lvl, min ts.toNat s.now⟩ } else t) →
          w.get (Fld.MON1_BELOW n) = 1 ∧ w.isSet Fld.SUPPLY_EVT_WARN = true ∧ w.get (Fld.MON1_NOW_MV n) = lvl % 2 ^ 16 ∧
          w.recovered = false ∧ w.dip.isSome = true ∧ w.devState = s.devState ∧
          ((s.devState = devReady ∨ s.devState = devRun) → haltDue s = false → DoesThen (.supplyWarn n ⟨mv, []⟩ ts) s
            (braceEnter (setDev (w.bumpSat Fld.DEV_STATE_BRACE_COUNT 1) devBrace))) ∧
          (s.devState ≠ devReady → s.devState ≠ devRun → DoesThen (.supplyWarn n ⟨mv, []⟩ ts) s w) ∧
          (haltDue s = true → DoesThen (.supplyWarn n ⟨mv, []⟩ ts) s w))) ∧
      (up = (fun k => decide (s.get (Fld.MON0_WARN_MV k) + s.get (Fld.MON0_HYST_MV k) < monLevel s k ((levels.map (·.toNat)).getD k 0))) →
        (anyBelow s = false → DoesThen (.supplyRecover levels low) s s) ∧
        (anyBelow s = true → ∃ u, DoesThen (.supplyRecover levels low) s u ∧ u.devState = s.devState ∧
          (∀ k < 10, u.get (Fld.MON1_NOW_MV k) = monLevel s k ((levels.map (·.toNat)).getD k 0) % 2 ^ 16 ∧
            (up k = true → u.isSet (Fld.MON1_BELOW k) = false) ∧ (up k = false → u.isSet (Fld.MON1_BELOW k) = s.isSet (Fld.MON1_BELOW k))) ∧
          ((∀ k < 10, up k = true) → s.devState = devBrace → u.recovered = true ∧ u.dip.isSome = s.dip.isSome) ∧
          ((∀ k < 10, up k = true) → s.devState ≠ devBrace → u.dip = none ∧ (s.dip.isSome = true → u.isSet Fld.SUPPLY_EVT_RECOVER = true)) ∧
          ((∃ k < 10, up k = false) → u.recovered = s.recovered ∧ u.dip.isSome = s.dip.isSome))) ∧
      (deg = (List.range 16).map (fun i => (temps.map (·.toInt)).getD i 0) → m = deg.foldl max (deg.getD 0 0) → l = thermLevel s m →
        ∃ u, u.get Fld.THERM_STATUS_SENSOR < 16 ∧ deg.getD (u.get Fld.THERM_STATUS_SENSOR) 0 = m ∧
          u.get Fld.THERM_STATUS_TMAX_C = (BitVec.ofInt 8 m).toNat ∧ u.get Fld.THERM_STATUS_LEVEL = l ∧ u.devState = s.devState ∧
          (l = s.get Fld.THERM_STATUS_LEVEL → DoesThen (.thermalSample temps) s u ∧ u.get Fld.THERM_EVT_WARN = s.get Fld.THERM_EVT_WARN ∧
            u.get Fld.THERM_EVT_CRIT = s.get Fld.THERM_EVT_CRIT) ∧
          (l ≠ s.get Fld.THERM_STATUS_LEVEL →
            u.isSet (if l = 1 then Fld.THERM_EVT_WARN else if l = 2 then Fld.THERM_EVT_THROTTLE else if l = 3 then Fld.THERM_EVT_CRIT
              else Fld.THERM_EVT_NORMAL) = true ∧
            DoesThen (.thermalSample temps) s (placeSettle (if l = 3 then errorPin u pinToll 0x10 else u)))))

/-- R338, R339, R340, R341, R342, R343: ERROR_PIN_ASSERT, PIN_STUCK, FAULT_ACK and FAULT_ESCALATION. An assertion is latched and the
first one's bit, class and code are kept with its grace, the lowest pin's of those that assert together; a later one sets FAULT_OVF alone. A
pin that stays asserted makes no new fault, and its bit withstands a clear. An acknowledgement with the first fault's tick stops the timer,
another is refused, a late one noted. An escalated fault resets the device, or puts it into HALT from any state that serves, or fences the
block it names: a channel's engine stops and the channel is FENCED, a drive goes to FAILED with PERST# asserted.
The model's choices it rests on: log entries 7, 53, 79, 124. -/
def Obligations.FaultCollector : Prop :=
  ∀ (s : State) (pin q : Fin 64) (code cq : Byte) (hold : Bool) (c : Fin 56) (n : Fin 4) (v : Word) (a : BitVec 26) (bad : BitVec 3) (b : Boot),
    (s.devState ≠ devSelftest → s.devState ≠ devDrydock → s.get Fld.FAULT_STATUS_STATUS < 2 ^ 64 → s.isSet Fld.FAULT_TIMER_VALID = true →
      (s.pinsHeld.testBit pin = false → ∀ w, w = (({ pinCounted s pin code.toNat with pinsSeen := s.pinsSeen ||| 2 ^ pin.val }.put
          Fld.FAULT_STATUS_STATUS (s.get Fld.FAULT_STATUS_STATUS ||| 2 ^ pin.val)).raise Fld.FAULT_TIMER_FAULT_OVF) →
        Does (.errorPinAssert pin ⟨code, hold, []⟩) s (if hold then { w with pinsHeld := s.pinsHeld ^^^ 2 ^ pin.val } else w)) ∧
      (s.pinsHeld.testBit c = false → Does (.pinStuck c) s (({ s with pinsSeen := s.pinsSeen ||| 2 ^ c.val }.put Fld.FAULT_STATUS_STATUS
        (s.get Fld.FAULT_STATUS_STATUS ||| 2 ^ c.val)).raise Fld.FAULT_TIMER_FAULT_OVF))) ∧
    (s.devState ≠ devSelftest → s.devState ≠ devDrydock → s.isSet Fld.FAULT_TIMER_VALID = false → s.pinsHeld.testBit pin = false →
      DoesSome (.errorPinAssert pin ⟨code, hold, []⟩) s (fun u => u.get Fld.FAULT_FIRST_BIT = pin ∧ u.get Fld.FAULT_FIRST_CLASS = faultClass s pin ∧
        u.get Fld.FAULT_FIRST_CODE = code.toNat ∧ u.isSet Fld.FAULT_TIMER_VALID = true ∧
        (u.get Fld.FAULT_STATUS_STATUS).testBit pin = true ∧ u.pinsHeld.testBit pin = hold ∧ u.devState = s.devState) ∧
      (s.pinsHeld.testBit q = false → q < pin → DoesSome (.errorPinAssert pin ⟨code, false, [⟨q, cq, false⟩]⟩) s (fun u =>
        u.get Fld.FAULT_FIRST_BIT = q ∧ u.get Fld.FAULT_FIRST_CODE = cq.toNat ∧ (u.get Fld.FAULT_STATUS_STATUS).testBit pin = true ∧
        u.isSet Fld.FAULT_TIMER_FAULT_OVF = true))) ∧
    (s.devState ≠ devSelftest → s.devState ≠ devDrydock → s.pinsHeld.testBit pin = true →
      Does (.errorPinAssert pin ⟨code, true, []⟩) s s ∧
      Does (.errorPinAssert pin ⟨code, false, []⟩) s { s with pinsHeld := s.pinsHeld ^^^ 2 ^ pin.val }) ∧
    (a.toNat = Reg.FAULT_STATUS → Reaches s a.toNat v.toNat → s.toll.orderly = false →
      DoesSome (.registerWrite (.bar0 .word) a v) s (fun u => ∀ i < 64, (u.get Fld.FAULT_STATUS_STATUS).testBit i =
        ((s.get Fld.FAULT_STATUS_STATUS).testBit i && (!v.toNat.testBit i || s.pinsHeld.testBit i)))) ∧
    (Reaches s Reg.FAULT_ACK v.toNat →
      (s.isSet Fld.FAULT_TIMER_VALID = true → bf v.toNat 0 16 = s.get Fld.FAULT_FIRST_TICK % 2 ^ 16 →
        Does (.faultAck v) s (faultValid (Touched s Reg.FAULT_ACK) false) ∧
          (faultValid (Touched s Reg.FAULT_ACK) false).isSet Fld.FAULT_TIMER_VALID = false) ∧
      (s.isSet Fld.FAULT_TIMER_VALID = true → bf v.toNat 0 16 ≠ s.get Fld.FAULT_FIRST_TICK % 2 ^ 16 →
        Does (.faultAck v) s ((Touched s Reg.FAULT_ACK).raise Fld.FAULT_EVT_ACK_REFUSED)) ∧
      (s.isSet Fld.FAULT_TIMER_VALID = false → Does (.faultAck v) s ((Touched s Reg.FAULT_ACK).raise Fld.FAULT_EVT_ACK_LATE))) ∧
    (s.escal = [] → s.critWait = true → s.isSet Fld.PLACE_STATUS_BRACE_COMMIT = false → s.toll.orderly = false →
      DoesSome (.faultEscalation bad b) s (fun u => AfterReset s u 4 0 0)) ∧
    (∀ e rest, s.escal = e :: rest → s.toll.orderly = false →
      (e.cls = 2 → s.devState ≠ devBrace → DoesSome (.faultEscalation bad b) s (fun u => AfterReset s u 4 0 0)) ∧
      (e.cls = 2 → s.devState = devBrace → s.isSet Fld.PLACE_STATUS_BRACE_COMMIT = true →
        DoesSome (.faultEscalation bad b) s (fun u => u.critWait = true ∧ u.escal = rest ∧ u.devState = devBrace)) ∧
      (e.cls = 1 → s.serving = true →
        DoesSome (.faultEscalation bad b) s (fun u => u.devState = devHalt ∧ u.get Fld.DEV_STATE_HALT_CAUSE = 2 ∧ u.halting = true ∧
          u.escal = rest)) ∧
      (e.cls = 0 → s.serving = true → e.pin = c.val → chState s c = chEnabled → s.isSet Fld.FAULT_CTRL_AUTO_RESEAT = false →
        DoesSome (.faultEscalation bad b) s (fun u => chState u c = chFenced ∧ engineUp u c = false ∧ u.isSet Fld.FAULT_EVT_FENCED = true ∧
          (∃ p, (u.ch c).stopping = some p ∧ p.fenced = true) ∧ u.devState = s.devState ∧ u.escal = rest)) ∧
      (e.cls = 0 → s.serving = true → e.pin = 59 → e.code = 0x10 + n.val →
        (drvState s n = drvFailed → DoesSome (.faultEscalation bad b) s (fun u => drvState u n = drvFailed ∧ (u.drive n).perst = true ∧
          u.isSet Fld.FAULT_EVT_FENCED = true ∧ u.devState = s.devState ∧ u.escal = rest)) ∧
        (drvState s n ≠ drvFailed → drvState s n ≠ drvAbsent → ∃ w, drvState w n = drvFailed ∧ (w.drive n).perst = true ∧
          portWidth w n.succ = 0 ∧ w.escal = rest ∧
          DoesThen (.faultEscalation bad b) s ((placeSettle (driveLost w n)).raise Fld.FAULT_EVT_FENCED))))

/-- R55, R57, R78, R87: WQ_ENABLE, WQ_DISABLE, CR_ENABLE, CR_DISABLE and CR_HEAD_WRITE. A disabled queue enabled with values in range and an
enabled ring starts at CONS 0, phase 1; one disabled drops its accepted entries and polls. A ring enabled starts at TAIL 0 and
HEAD 0. A new head writes the pending GAP record when it makes room; one beyond the tail is refused.
The model's choices it rests on: log entry 104. -/
def Obligations.QueuesAndRings : Prop :=
  ∀ (s : State) (n : Fin 256) (r : Fin 64) (v : Word) (w : Nat),
    (w = withField v.toNat (Fld.WQ_CFG_EN n) 1 → bit w 0 = true → Reaches s (Reg.WQ_CFG n) w → s.isSet (Fld.WQ_CFG_EN n) = false →
      wqCfgRange w = true → (bf w 40 8 = 255 ∨ s.isSet (Fld.CR_CFG_EN (bf w 40 8)) = true) →
      DoesSome (.wqEnable n v) s (fun u => u.isSet (Fld.WQ_CFG_EN n) = true ∧ u.get (Fld.WQ_CFG_SIZE_LOG2 n) = bf w 4 5 ∧
        u.get (Fld.WQ_CONS_CONS n) = 0 ∧ u.get (Fld.WQ_CONS_PHASE n) = 1 ∧ u.get (Fld.WQ_STAT_ACCEPTED n) = 0 ∧
        u.accepted = s.accepted ∧ u.polls = s.polls)) ∧
    (w = withField v.toNat (Fld.WQ_CFG_EN n) 0 → bit w 0 = false → Reaches s (Reg.WQ_CFG n) w → s.isSet (Fld.WQ_CFG_EN n) = true →
      wqCfgRange w = true →
      DoesSome (.wqDisable n v) s (fun u => u.isSet (Fld.WQ_CFG_EN n) = false ∧ u.accepted = s.accepted.filter (fun e => e.wq != n.val) ∧
        u.polls = s.polls.filter (fun p => p.wq != n.val) ∧ dispatched u = dispatched s)) ∧
    (w = withField v.toNat (Fld.CR_CFG_EN r) 1 → bit w 0 = true → Reaches s (Reg.CR_CFG r) w → s.isSet (Fld.CR_CFG_EN r) = false →
      crCfgRange w = true →
      DoesSome (.crEnable r v) s (fun u => u.isSet (Fld.CR_CFG_EN r) = true ∧ u.get (Fld.CR_TAIL_TAIL r) = 0 ∧ u.get (Fld.CR_HEAD_HEAD r) = 0 ∧
        u.get (Fld.CR_OVF_TOTAL r) = 0 ∧ u.get (Fld.CR_OVF_PENDING r) = 0)) ∧
    (w = withField v.toNat (Fld.CR_CFG_EN r) 0 → bit w 0 = false → Reaches s (Reg.CR_CFG r) w → s.isSet (Fld.CR_CFG_EN r) = true →
      crCfgRange w = true → crNamed s r = false →
      DoesSome (.crDisable r v) s (fun u => u.isSet (Fld.CR_CFG_EN r) = false)) ∧
    (Reaches s (Reg.CR_HEAD r) v.toNat →
      ((s.get (Fld.CR_TAIL_TAIL r) + 2 ^ 32 - bf v.toNat 0 32) % 2 ^ 32 ≤ (s.get (Fld.CR_TAIL_TAIL r) + 2 ^ 32 - s.get (Fld.CR_HEAD_HEAD r)) % 2 ^ 32 →
        s.get (Fld.CR_TAIL_GAP_PENDING r) = 0 →
        Does (.crHeadWrite r v) s ((Touched s (Reg.CR_HEAD r)).put (Fld.CR_HEAD_HEAD r) (bf v.toNat 0 32))) ∧
      ((s.get (Fld.CR_TAIL_TAIL r) + 2 ^ 32 - bf v.toNat 0 32) % 2 ^ 32 ≤ (s.get (Fld.CR_TAIL_TAIL r) + 2 ^ 32 - s.get (Fld.CR_HEAD_HEAD r)) % 2 ^ 32 →
        (s.get (Fld.CR_TAIL_TAIL r) + 2 ^ 32 - bf v.toNat 0 32) % 2 ^ 32 < crSize s r → s.isSet (Fld.CR_TAIL_GAP_PENDING r) = true →
        DoesSome (.crHeadWrite r v) s (fun u => u.get (Fld.CR_HEAD_HEAD r) = bf v.toNat 0 32 ∧ u.isSet (Fld.CR_TAIL_GAP_PENDING r) = false ∧
          u.get (Fld.CR_OVF_PENDING r) = 0 ∧ u.get (Fld.CR_TAIL_TAIL r) = (s.get (Fld.CR_TAIL_TAIL r) + 1) % 2 ^ 32)) ∧
      ((s.get (Fld.CR_TAIL_TAIL r) + 2 ^ 32 - s.get (Fld.CR_HEAD_HEAD r)) % 2 ^ 32 < (s.get (Fld.CR_TAIL_TAIL r) + 2 ^ 32 - bf v.toNat 0 32) % 2 ^ 32 →
        Does (.crHeadWrite r v) s (pageErr ((Touched s (Reg.CR_HEAD r)).raise (Fld.CR_EVT_HEAD_BAD r)) (Reg.CR_HEAD r) errState)))

/-- R66, R67, R70, R71, R73, R74, R76, R81, R83, R369: WQ_POLL, WQ_POLL_RETURN, ENTRY_DISPATCH, FENCE_COMPLETE and LONG_OP_STEP_DONE. A poll
that is due, at once or by POLL_INTERVAL (the command then moves TIME_NS to it, log entry 4), reads the window from CONS on, in two reads
where it wraps the ring; a failed one sets FAILED and POLL_FAIL and is reported through AER. Of the entries read, one with the old phase
ends the window and is discarded with those after it, a well-formed one is accepted, and a malformed one is kept in MALF_INFO and halts the
device with what was accepted and not dispatched dropped. The arbiter moves one accepted entry to its command queue; a new round starts
when none is open. A fence whose entries are gone completes with their number; a completion is written to its slot, status and result
first, then in its ring. A step of a long operation moves its bytes and counts; the last one ends it.
The model's choices it rests on: log entries 4, 27, 28, 103. -/
def Obligations.PollingAndDispatch : Prop :=
  ∀ (s : State) (n : Fin 256) (data : HostRd) (serial : Nat),
    (∀ (t : State) (a k : Nat), wqPolls s n = true → (n.val ∈ s.wqAgain ∧ t = s ∨ n.val ∉ s.wqAgain ∧ s.isSet (Fld.WQ_CFG_POLL_TICK n) = false ∧
        s.canReach (wqPollTime s n) = true ∧ t = s.advanceTo (wqPollTime s n)) →
      a = s.get (Fld.WQ_CONS_CONS n) % wqSize s n → k = wqWindow s n →
      (0 < k → Does (.wqPoll n) s { t with
        out := s.out ++ OutEvent.hostRead (s.get (Fld.WQ_BASE_ADDR n) * 64 + a * 64) (min k (wqSize s n - a) * 64) ::
          (if wqSize s n < a + k then [OutEvent.hostRead (s.get (Fld.WQ_BASE_ADDR n) * 64) ((a + k - wqSize s n) * 64)] else [])
        polls := s.polls ++ [⟨n, s.get (Fld.WQ_CONS_CONS n), k⟩], wqPolled := SMap.insert s.wqPolled n t.now,
        wqAgain := s.wqAgain.filter (· != n.val) }) ∧
      (k = 0 → Does (.wqPoll n) s { t with wqPolled := SMap.insert s.wqPolled n t.now, wqAgain := s.wqAgain.filter (· != n.val) })) ∧
    (wqPolls s n = false ∨ n.val ∉ s.wqAgain ∧ (s.isSet (Fld.WQ_CFG_POLL_TICK n) = true ∨ s.canReach (wqPollTime s n) = false) →
      Does (.wqPoll n) s s) ∧
    (∀ p, s.polls.find? (fun p => p.wq == n.val) = some p → ∀ w, w = { s with polls := s.polls.filter (fun p => p.wq != n.val) } →
      (s.toll.orderly = false → Does (.wqPollReturn n .fail) s (aerReport ((w.raise (Fld.WQ_CONS_FAILED n)).raise Fld.WQ_EVT_POLL_FAIL))) ∧
      (∀ b, b.length = 64 * p.count →
        DoesThen (.wqPollReturn n (.ok b)) s (wqWhole (wqAccept w n (wqSize s n)
          ((List.range p.count).map (fun k => ((p.first + k) % 2 ^ 32, bsub b (64 * k) 64)))) n p) ∧
        (s.toll.orderly = false → 0 < p.count → p.count < 2 ^ 32 → p.first < 2 ^ 32 → s.get (Fld.WQ_CONS_CONS n) = p.first →
          leAt b 0 1 / 128 ≠ phaseOf (wqSize s n) p.first →
          Does (.wqPollReturn n (.ok b)) s (w.put (Fld.WQ_STAT_DISCARDS n) (s.get (Fld.WQ_STAT_DISCARDS n) + p.count))) ∧
        (s.toll.orderly = false → p.count = 1 → p.first < 2 ^ 32 → leAt b 0 1 / 128 = phaseOf (wqSize s n) p.first →
          malformed b (s.isSet (Fld.WQ_CFG_CHK n)) = (0, 0) →
          DoesSome (.wqPollReturn n (.ok b)) s (fun u => (∃ e, u.accepted = s.accepted ++ [e] ∧ e.bytes = b ∧ e.wq = n.val ∧ e.idx = p.first ∧
              e.src = .queue ∧ e.stage = .queued ∧ e.slot = s.get (Fld.WQ_BASE_ADDR n) * 64 + p.first % wqSize s n * 64) ∧
            u.get (Fld.WQ_CONS_CONS n) = (p.first + 1) % 2 ^ 32 ∧
            u.get (Fld.WQ_CONS_PHASE n) = phaseOf (wqSize s n) ((p.first + 1) % 2 ^ 32) ∧ u.polls = w.polls ∧ u.devState = s.devState ∧
            u.get (Fld.WQ_STAT_ACCEPTED n) = (s.get (Fld.WQ_STAT_ACCEPTED n) + 1) % 2 ^ 32)))) ∧
    (∀ (size i : Nat) (b : List Byte) (rest : List (Nat × List Byte)) (r : Nat) (y : Nat),
      leAt b 0 1 / 128 = phaseOf size i → malformed b (s.isSet (Fld.WQ_CFG_CHK n)) = (r, y) → r ≠ 0 → r < 16 → y < 64 → s.serving = true →
      (wqAccept s n size ((i, b) :: rest)).devState = devHalt ∧ (wqAccept s n size ((i, b) :: rest)).get Fld.DEV_STATE_HALT_CAUSE = 1 ∧
      (wqAccept s n size ((i, b) :: rest)).get Fld.MALF_INFO_WQ = n ∧ (wqAccept s n size ((i, b) :: rest)).get Fld.MALF_INFO_REASON = r ∧
      (wqAccept s n size ((i, b) :: rest)).get Fld.MALF_INFO_BYTE = y ∧
      (wqAccept s n size ((i, b) :: rest)).get Fld.MALF_INFO_INDEX = i % 2 ^ 32 ∧
      (wqAccept s n size ((i, b) :: rest)).accepted = [] ∧ (wqAccept s n size ((i, b) :: rest)).polls = [] ∧
      dispatched (wqAccept s n size ((i, b) :: rest)) = dispatched s) ∧
    (∀ b : List Byte, opOperands (leAt b 1 1) = none → malformed b true = (1, 1) ∧ malformed b false = (1, 1)) ∧
    (∀ (w : State) (a : Arbiter) (k left : Nat) (e : WorkEntry), s.serving = true → s.hostOk = true → w = arbSettle s →
      (arbPick w w.arb = some (k, left) ∧ a = w.arb ∨
        arbPick w w.arb = none ∧ roundOpen w = false ∧ a = newRound w ∧ arbPick w a = some (k, left)) → wqHead w k = some e →
      ∀ (ws : List Nat) (x : WorkEntry),
        ws = (if e.opcode = opFence then
          ((dispatched s).filter (fun x => x.src = .queue && (e.arg 24 1 == 1 || x.wq == k))).map WorkEntry.serial else []) →
        x = { e with ring := s.get (Fld.WQ_CFG_CR k), serial := s.serial, waits := ws, waited := ws.length } →
        DoesSome .entryDispatch s (fun u => u.accepted = eraseFirst (fun x => x.wq == k) s.accepted ∧ u.serial = s.serial + 1 ∧
          (∀ h : e.chan < 56, (u.ch ⟨e.chan, h⟩).cmdq = (s.ch ⟨e.chan, h⟩).cmdq ++ [x] ∧ u.basinq = s.basinq) ∧
          (56 ≤ e.chan → u.basinq = s.basinq ++ [x] ∧ u.chans = s.chans) ∧
          (opLong e.opcode = true → u.isSet (Fld.WQ_CONS_LONG_ACTIVE k) = true) ∧
          (wqReady u u.arb.credits k = true → 1 < left → u.arb.left = left - 1 ∧ u.arb.pos = k))) ∧
    (s.serving = false ∨ s.hostOk = false → Does .entryDispatch s s) ∧
    (∀ e, basinEntry s serial opFence = some e → e.stage = .running →
      ((∀ w ∈ e.waits, ∀ x ∈ dispatched s, x.serial ≠ w) →
        Does (.fenceComplete serial) s (complete s e St.ok (leBytes 4 e.waited)) ∧
        (e.src = .queue → e.chan = 0xFF → e.ring = 0xFF → s.hostOk = true → s.host.held = [] →
          (complete s e St.ok (leBytes 4 e.waited)).basinq = s.basinq.filter (fun y => y.serial != e.serial) ∧
          (complete s e St.ok (leBytes 4 e.waited)).out = s.out ++
            [OutEvent.hostWrite ⟨e.slot + 1, leBytes 1 St.ok ++ bsub e.bytes 2 6 ++ leBytes 4 e.waited ++ zeros 4 ++ leBytes 8 s.now⟩,
             OutEvent.hostWrite ⟨e.slot, leBytes 1 (leAt e.bytes 0 1 / 128 * 192 + leAt e.bytes 0 1 % 64)⟩])) ∧
      ((∃ w ∈ e.waits, ∃ x ∈ dispatched s, x.serial = w) → Does (.fenceComplete serial) s s)) ∧
    ((dispatched s).find? (fun e => e.serial == serial && e.stage = .running && opLong e.opcode) = none → s.toll.orderly = false →
      Does (.longOpStepDone serial data) s s) ∧
    (∀ e, (dispatched s).find? (fun e => e.serial == serial && e.stage = .running && opLong e.opcode) = some e →
      s.toll.orderly = false → (∀ x ∈ dispatched s, x.serial = serial → x.last = false) →
      (e.opcode = opFirmwareStage → longMay s e (e.arg 24 8) = true →
        (operandRead s (e.arg 24 8 + e.done * 4096) (min 4096 (e.arg 32 4 - e.done * 4096)) data = none →
          Does (.longOpStepDone serial data) s (completeLong ((operandEcc s (e.arg 24 8 + e.done * 4096)
            (min 4096 (e.arg 32 4 - e.done * 4096))).modToll (fun t => { t with fwBusy := none })) e St.busError)) ∧
        (∀ bs, operandRead s (e.arg 24 8 + e.done * 4096) (min 4096 (e.arg 32 4 - e.done * 4096)) data = some bs → e.done + 1 < e.total →
          Does (.longOpStepDone serial data) s (updEntry (fwStore s bs) { e with done := e.done + 1, stepped := true, idle := !s.hostOk }))) ∧
      (e.opcode = opSnapshot → longMay s e (e.arg 40 8) = true → e.done + 1 < e.total →
        Does (.longOpStepDone serial data) s (updEntry (operandWrite s (e.arg 40 8 + e.done * 4096) (bsub e.data (e.done * 4096) 4096))
          { e with done := e.done + 1, stepped := true, idle := !s.hostOk })) ∧
      (∀ bs b, e.opcode = opConfigWrite → e.chan = 0xFF → longMay s e (e.arg 24 8) = true → e.done = 0 → e.total = 1 → e.arg 32 4 ≤ 4096 →
        operandRead s (e.arg 24 8) (e.arg 32 4) data = some bs → b = bsub (bs ++ s.toll.staging.drop bs.length) 0 (e.arg 32 4) →
        DoesSome (.longOpStepDone serial data) s (fun u => u.toll.cfgBusy = false ∧ (∀ x ∈ u.basinq, x.serial ≠ serial) ∧
          u.toll.config = (if cfgReason b (fwMajor s) = 0 ∧ e.arg 32 4 = leAt b 8 4 ∧ leAt b 5 1 = 2 then b else s.toll.config))))

/-- R88, R107, R108, R111, R112, R113: ROUTE_START, ROUTE_RESUME, ROUTE_SUSPEND and ROUTE_HALT at the head of a channel's queue. A start that
may be admitted begins admission of the named orders, one with a bad limit is answered with BAD_OPERAND; a resume begins at
the suspended order; a suspension between two orders takes effect at once; a halt stops the route, and ends one that is
suspended.
The model's choices it rests on: log entry 37. -/
def Obligations.RouteEntries : Prop :=
  ∀ (s : State) (c : Fin 56) (e : WorkEntry),
    (Heads s c opRouteStart e →
      (e.arg 32 2 = 0 ∨ 1024 < e.arg 32 2 → Does (.routeStart c) s (complete s e St.badOperand (leBytes 4 0 ++ leBytes 2 0xFFFF))) ∧
      (1 ≤ e.arg 32 2 → e.arg 32 2 ≤ 1024 → routeAddrOk s (e.arg 24 8) (e.arg 32 2) = true → chState s c ≠ chAbsent → rtState s c = rtIdle →
        mayAdmit s c = true →
        DoesSome (.routeStart c) s (fun u => rtState u c = rtAdmit ∧ u.get (Fld.ROUTE_ADDR_ADDR c) = e.arg 24 8 ∧
          u.get (Fld.ROUTE_INFO_ORDER_LIMIT c) = e.arg 32 2 ∧ (u.sq c).admission = some ⟨false, 0⟩ ∧
          chanHead u c opRouteStart = some { e with stage := .running }))) ∧
    (Heads s c opRouteResume e → rtState s c = rtSuspended → chState s c ≠ chAbsent → mayAdmit s c = true →
      DoesSome (.routeResume c) s (fun u => rtState u c = rtAdmit ∧ (u.sq c).admission = some ⟨true, s.get (Fld.ROUTE_STATE_ORDER c)⟩)) ∧
    (Heads s c opRouteSuspend e → chState s c ≠ chAbsent →
      (rtState s c = rtSuspended → Does (.routeSuspend c) s (complete s e St.ok (leBytes 2 (s.get (Fld.ROUTE_STATE_ORDER c))))) ∧
      (rtState s c = rtRun ∨ rtState s c = rtWait → (s.sq c).exec = none →
        DoesSome (.routeSuspend c) s (fun u => rtState u c = rtSuspended ∧ u.get (Fld.ROUTE_STATE_ORDER c) = (s.sq c).pc % 1024 ∧
          u.isSet (Fld.ROUTE_EVT_SUSPEND c) = true ∧ chanHead u c opRouteSuspend ≠ some e))) ∧
    (Heads s c opRouteHalt e → chState s c ≠ chAbsent →
      (rtState s c = rtRun ∨ rtState s c = rtWait → (s.sq c).exec = none →
        DoesSome (.routeHalt c) s (fun u => rtState u c = rtStopping ∧ (u.sq c).stop = some .halt)) ∧
      (rtState s c = rtSuspended →
        DoesSome (.routeHalt c) s (fun u => Ended u c St.abandoned (s.get (Fld.ROUTE_STATE_ORDER c) % 1024) (s.get (Fld.ROUTE_STATE_RESIDUAL c) % 65536))))

/-- R89, R95, R107, R108, R109: ADMISSION_END, ORDER_FETCH_RETURN, FETCH_TIMEOUT and HOST_TRANSFER_TIMEOUT. A route that the checker accepts waits for the
edge at which it starts; one it refuses has ADMIT_RESULT and does not run. A fetched order whose words differ from the
admitted ones becomes ORDER_CHANGED, a poisoned or late one BUS_ERROR. A post that host space does not take ends the route.
The model's choices it rests on: log entries 31, 32, 98. -/
def Obligations.AdmissionAndFetch : Prop :=
  ∀ (s : State) (c : Fin 56) (orders : List (Nat × HostRd)) (a : Admission) (v : Verdict) (j : Nat) (o : Order) (late : Bool),
    ((s.sq c).admission = some a →
      v = checkRoute s c (routeHost s c) (fun i => fetchOrder s c i (((orders.find? (fun p => p.1 == i)).map (·.2)).getD .fail))
        (s.get (Fld.ROUTE_INFO_ORDER_LIMIT c)) a.start →
      (v.reason = 0 → DoesSome (.admissionEnd c orders) s (fun u => rtState u c = rtWait ∧ (u.sq c).first = true ∧ (u.sq c).hashes = v.hashes ∧
        (u.sq c).fetch = .wait a.start ∧ u.get (Fld.ADMIT_RESULT_REASON c) = 0 ∧ u.get (Fld.ROUTE_INFO_WORST_CYCLES c) = v.worst % 2 ^ 32)) ∧
      (v.reason ≠ 0 → DoesSome (.admissionEnd c orders) s (fun u => rtState u c = (if a.resume then rtSuspended else rtIdle) ∧
        (u.sq c).admission = none ∧ u.get (Fld.ADMIT_RESULT_REASON c) = v.reason % 16))) ∧
    ((s.sq c).fetch = .wait j → (s.sq c).due = false → (s.sq c).chainHead = none → routeHost s c = false →
      (s.poisoned 0 (orderAt s c j) 32 = false → o = orderOf (s.dramRead (orderAt s c j) 32) →
        (SMap.get 0 ((s.sq c).hashes.map (fun p => (p.1, p.2.toNat))) j = o.hash.toNat → o.chains = false →
          DoesSome (.orderFetchReturn c .fail late) s (fun u => (u.sq c).fetch = .ready j o ∧ (u.sq c).used = (s.sq c).used + 64)) ∧
        (SMap.get 0 ((s.sq c).hashes.map (fun p => (p.1, p.2.toNat))) j ≠ o.hash.toNat →
          DoesSome (.orderFetchReturn c .fail late) s (fun u => (u.sq c).fetch = .bad j St.orderChanged))) ∧
      (s.poisoned 0 (orderAt s c j) 32 = true →
        DoesSome (.orderFetchReturn c .fail late) s (fun u => (u.sq c).fetch = .bad j St.busError)) ∧
      DoesSome (.fetchTimeout c) s (fun u => (u.sq c).fetch = .bad j St.busError)) ∧
    ((s.sq c).fetch = .wait j → (s.sq c).due = true → j < 1024 → DoesSome (.fetchTimeout c) s (fun u => Ended u c St.busError j 0)) ∧
    (∀ e st res, (s.sq c).exec = some e → e.result = some (st, res) → e.order.ps = true → e.next = none → e.idx < 1024 → res < 65536 →
      DoesSome (.hostTransferTimeout c) s (fun u => Ended u c St.busError e.idx res))

/-- R93, R94, R98, R99, R104, R105, R106: JUMP, STOP, SKIPIF, LOOP, WAIT, CALL_KEEPER, PUBLISH and MARK, due and fetched, with neither PS nor SU. A JUMP goes to
its target, a STOP ends the route, a SKIPIF skips when its condition holds, a LOOP counts down, a WAIT waits for its
edges, a CALL-KEEPER fills the mailbox of a thread that runs, a PUBLISH binds or unbinds a stream, a MARK commits its record.
The model's choices it rests on: log entries 4, 105, 107, 138. -/
def Obligations.ControlOrders : Prop :=
  ∀ (s : State) (c : Fin 56) (i : Nat) (o : Order) (t : Fin 8), DueAt s c i o → Plain o → (s.sq c).chainBuf = [] →
    (o.op = oJump → DoesSome (.jump c) s (fun u => GoesOn u c o.target St.ok 0)) ∧
    (o.op = oStop → DoesSome (.stop c) s (fun u => Ended u c St.ok i 0)) ∧
    (o.op = oSkipif → DoesSome (.skipif c) s (fun u =>
      GoesOn u c (if skipCond s c o then i + 1 + o.count else i + 1) St.ok 0)) ∧
    (o.op = oLoop → 1 < o.count → SMap.get 0 (s.sq c).loops i = 0 → DoesSome (.loop c) s (fun u =>
      GoesOn u c o.target St.ok 0 ∧ SMap.get 0 (u.sq c).loops i = o.count - 1)) ∧
    (o.op = oLoop → SMap.get 0 (s.sq c).loops i = 1 → DoesSome (.loop c) s (fun u =>
      GoesOn u c (i + 1) St.ok 0 ∧ SMap.get 0 (u.sq c).loops i = 0)) ∧
    (o.op = oWait → DoesSome (.wait c) s (fun u =>
      rtState u c = rtWait ∧ (u.sq c).exec = some { Started s c i o with count := o.count, loaded := true })) ∧
    (o.op = oCall → t.val = o.param % 8 → (s.th c t).st ≠ .stopped → (s.th c t).st ≠ .halted → DoesSome (.callKeeper c) s (fun u =>
      (u.th c t).mail = some ⟨true, i, bf o.param 8 16, o.count, o.w1, o.w2, true⟩ ∧ (u.sq c).exec = some { Started s c i o with loaded := true })) ∧
    (o.op = oCall → t.val = o.param % 8 → (s.th c t).st = .stopped ∨ (s.th c t).st = .halted →
      DoesSome (.callKeeper c) s (fun u => Ended u c St.rejectedState i 0)) ∧
    (o.op = oPublish → bit o.param 8 = true → DoesSome (.publish c) s (fun u => Passes u c i (nextStatic i 0 o) St.ok 0 ∧
      (u.ch c).chamber.bind = none)) ∧
    (o.op = oPublish → bit o.param 8 = false → strmState s (bf o.param 0 8) = strmOpen → DoesSome (.publish c) s (fun u =>
      Passes u c i (nextStatic i 0 o) St.ok 0 ∧ (u.ch c).chamber.bind = some (bf o.param 0 8))) ∧
    (o.op = oPublish → bit o.param 8 = false → strmState s (bf o.param 0 8) ≠ strmOpen →
      DoesSome (.publish c) s (fun u => Ended u c St.rejectedState i 0)) ∧
    (o.op = oMark → DoesSome (.mark c) s (fun u => Passes u c i (nextStatic i 0 o) St.ok 0 ∧
      (u.ch c).chamber = ((s.ch c).chamber.commit (chUsable s c) ⟨s.now, 0x41, c.val, 0, 0, leBytes 1 1 ++ leBytes 1 0 ++ leBytes 2 i ++
        leBytes 4 o.param ++ leBytes 8 o.word2 ++ leBytes 6 s.tick ++ leBytes 2 0⟩).2))

/-- R96, R100, R189: RECEIVE, TRANSMIT and EXCHANGE of one area in device DRAM, due and fetched, with neither PS nor SU. A RECEIVE
waits for an item, takes a whole item of its length into its area, and ends OVERRUN with a longer one. A TRANSMIT
places its item in the TX FIFO. An EXCHANGE sends SELECT and its bytes. Where the channel cannot, the route ends REJECTED_STATE.
The model's choices it rests on: log entries 36, 106. -/
def Obligations.DataOrders : Prop :=
  ∀ (s : State) (c : Fin 56) (i : Nat) (o : Order) (data : HostRd) (r : Rec) (b : List Byte),
    DueAt s c i o → Plain o → (s.sq c).chainBuf = [] → o.addr < 2 ^ 63 →
    (o.op = oReceive →
      (seqPath s c = false → DoesSome (.receive c) s (fun u => Ended u c St.rejectedState i o.count)) ∧
      (seqPath s c = true → (s.ch c).fifos.rx = [] → DoesSome (.receive c) s (fun u =>
        rtState u c = rtRun ∧ (u.sq c).exec = some { Started s c i o with loaded := true } ∧ u.dram = s.dram)) ∧
      (seqPath s c = true → (s.ch c).fifos.rx = [r] → (s.ch c).fifos.rxPos = 0 → isMarker r = false → o.sk = false →
        ((recBytes r).length = o.count → DoesSome (.receive c) s (fun u => Passes u c i (nextStatic i 0 o) St.ok 0 ∧
          u.dramRead o.addr o.count = recBytes r ∧ (u.ch c).fifos.rx = [])) ∧
        (o.count < (recBytes r).length → o.cn = false → DoesSome (.receive c) s (fun u => Ended u c St.overrun i 0 ∧
          u.dramRead o.addr o.count = (recBytes r).take o.count)))) ∧
    (o.op = oTransmit →
      (txRestricted s c = true → DoesSome (.transmit c data) s (fun u => Ended u c St.rejectedState i o.count)) ∧
      (txRestricted s c = false → ¬ (c.val < 48 ∧ modeOf s c = modeI2c) → s.poisoned 0 o.addr o.count = false →
        (txSplit 4096 (s.dramRead o.addr o.count) = some [b] → txItemOk s c b = true → b.length ≤ 8192 → (s.ch c).fifos.tx = [] →
          DoesSome (.transmit c data) s (fun u => (u.ch c).fifos.tx = [.item b true] ∧ (u.sq c).exec = some { Started s c i o with loaded := true })) ∧
        (txSplit 4096 (s.dramRead o.addr o.count) = none → o.cn = false →
          DoesSome (.transmit c data) s (fun u => Ended u c 0x83 i o.count))) ∧
      (txRestricted s c = false → c.val < 48 → modeOf s c = modeI2c → s.poisoned 0 o.addr o.count = false →
        DoesSome (.transmit c data) s (fun u => u.out = s.out ++ [.busTx c (s.dramRead o.addr o.count)] ∧
          (u.sq c).exec = some { Started s c i o with loaded := true }))) ∧
    (o.op = oExchange →
      (48 ≤ c.val → DoesSome (.exchange c data) s (fun u => Ended u c St.rejectedState i o.count)) ∧
      (c.val < 48 → seqPath s c = true → selectOk s c (bf o.param 8 8) = true → txRestricted s c = false → s.poisoned 0 o.addr o.count = false →
        DoesSome (.exchange c data) s (fun u => (∃ pins, u.out =
            s.out ++ .busTx c (leBytes 1 (bf o.param 8 8) ++ s.dramRead o.addr o.count) :: pins ∧ (modeOf s c ≠ modeSpi → pins = [])) ∧
          (u.sq c).exec = some { Started s c i o with loaded := true })))

/-- R93, R97, R101, R102, R111: ORDER_DONE and ORDER_TIMEOUT, and what PS and SU do. An order whose result is known posts it in its word 3 with
the tick and its run count, and the route goes on or ends; a TIMEOUT gives the status TIMEOUT; a SU order suspends the
route before the next one.
The model's choices it rests on: log entries 33, 138. -/
def Obligations.OrderEnds : Prop :=
  ∀ (s : State) (c : Fin 56) (e : ExecOrder) (st res : Nat) (i : Nat) (o : Order) (left : Half),
    (s.frozen c = false → (s.sq c).exec = some e → e.result = some (st, res) → (s.sq c).stop = none → (s.sq c).suspend = false →
      e.order.su = false → e.order.ps = true → routeHost s c = false → e.idx < 1024 → st < 256 → res < 65536 →
      (∀ n, e.next = some n → st ≤ 1 → (s.sq c).fetch = .wait n → rtState s c = rtRun → DoesSome (.orderDone c) s (fun u =>
        GoesOn u c n st res ∧ u.dramRead (orderAt s c e.idx + 24) 8 =
          leBytes 1 (1 + 16 * (SMap.get 0 (s.sq c).runs e.idx % 16)) ++ leBytes 1 st ++ leBytes 2 res ++ leBytes 4 s.tick ∧
        u.get (Fld.SEQ_STATS_ORDERS_DONE c) = (s.get (Fld.SEQ_STATS_ORDERS_DONE c) + 1) % 2 ^ 32 ∧
        (e.order.nt = true → u.isSet (Fld.ROUTE_EVT_NOTIFY c) = true))) ∧
      (e.next = none → DoesSome (.orderDone c) s (fun u => Ended u c st e.idx res ∧ u.dramRead (orderAt s c e.idx + 24) 8 =
        leBytes 1 (3 + 16 * (SMap.get 0 (s.sq c).runs e.idx % 16)) ++ leBytes 1 st ++ leBytes 2 res ++ leBytes 4 s.tick))) ∧
    ((s.sq c).exec = some e → e.result = none → e.order.op = oReceive → 0 < orderTimeout e.order → orderTimeout e.order ≤ e.edges →
      e.order.ps = false → e.next = none → e.idx < 1024 → (s.ch c).bus.later = [] →
      DoesSome (.orderTimeout ⟨c, left⟩) s (fun u => Ended u c St.timeout e.idx (min 0xFFFF (areaTotal e - e.count)))) ∧
    (DueAt s c i o → o.op = oJump → o.su = true → o.ps = false → (s.sq c).chainBuf = [] → DoesSome (.jump c) s (fun u =>
      rtState u c = rtSuspended ∧ u.get (Fld.ROUTE_STATE_ORDER c) = o.target ∧ u.isSet (Fld.ROUTE_EVT_SUSPEND c) = true ∧ (u.sq c).exec = none))

/-- R115, R173, R344, R345: CHANNEL_ENABLE, CHANNEL_DISABLE and CHANNEL_RESEAT at the head of the channel's queue. An enable waits for the next
edge, where it takes effect when the channel is DISABLED and its checks pass. A disable makes an enabled channel
DISABLING. A reseat to a good idle tile makes it RESEATING; a target whose test fails is retired. R82, R147, R148, R150, R169, R170: KEEPER_LOAD, KEEPER_THREAD_START and KEEPER_THREAD_STOP. A load waits for its turn; an accepted one clears
IMAGE_VALID and runs in steps of 4096 B; a length that is no image's is answered with BAD_OPERAND. A start puts the thread at its entry with its
registers cleared and SP 0xA800, and completes when the thread issues its first instruction; a stop leaves it stopped. A thread that holds no
line, after a start or a reseat, first reads its lines at PC: what it then issues, any instruction, is what it issues with those lines held.
The model's choices it rests on: log entries 38, 43, 45, 52, 110, 138, 141. -/
def Obligations.ChannelQueueEntries : Prop :=
  (∀ (s : State) (c : Fin 56) (e : WorkEntry) (ok : Bool),
      (Heads s c opChanEnable e → Does (.channelEnable c) s (updEntry s { e with stage := .edge })) ∧
      (chanHead s c opChanEnable = some e → e.stage = .edge →
        (enableOk s c = true → enableEdge s c = complete (chanEnabled s c) e St.ok []) ∧
        (enableOk s c = false → enableEdge s c = complete s e St.rejectedState [])) ∧
      (Heads s c opChanDisable e →
        (chState s c = chEnabled → rtState s c = rtIdle → DoesSome (.channelDisable c) s (fun u => chState u c = chDisabling ∧
          (u.ch c).stopping = some ⟨some e.serial, false, s.tick, 0, workInFlight s c, ⟨0, 0, 0⟩⟩ ∧ chanHead u c opChanDisable = some { e with stage := .running } ∧
          engineOf u c = engineOf s c)) ∧
        (chState s c ≠ chEnabled → chState s c ≠ chFenced → Does (.channelDisable c) s (complete s e St.rejectedState []))) ∧
      (Heads s c opChanReseat e →
        (¬ (48 ≤ e.arg 24 1 ∧ e.arg 24 1 ≤ 51) → e.arg 24 1 ≠ 60 → e.arg 24 1 ≠ 0xFF →
          Does (.channelReseat c ok) s (complete s e St.badOperand [])) ∧
        (48 ≤ e.arg 24 1 → e.arg 24 1 ≤ 51 → c.val < 48 → chState s c = chEnabled →
          (tileSpare s c (e.arg 24 1) = true →
            DoesSome (.channelReseat c true) s (fun u => chState u c = chReseating ∧
              (u.ch c).reseat = some ⟨some e.serial, s.get (Fld.CHAN_STATE_TILE c), e.arg 24 1, false, .copying, 0, 0⟩) ∧
            DoesSome (.channelReseat c false) s (fun u => (e.arg 24 1) ∈ u.tilesOut ∧ chState u c = chEnabled)) ∧
          (tileSpare s c (e.arg 24 1) = false → Does (.channelReseat c ok) s (complete s e 0x81 []))))) ∧
  (∀ (s : State) (c : Fin 56) (t : Fin 8) (e : WorkEntry) (k : KEntry) (im : KImage),
      (Heads s c opKeeperLoad e →
        (longTurn s e = false → Does (.keeperLoad c) s s) ∧
        (longTurn s e = true → e.arg 32 4 < 64 →
          Does (.keeperLoad c) s (complete s e St.badOperand (leBytes 4 0 ++ leBytes 4 ((e.arg 32 4 + 4095) / 4096)))) ∧
        (longTurn s e = true → 64 ≤ e.arg 32 4 → e.arg 32 4 ≤ 262144 → e.arg 32 4 % 8 = 0 → bufOk s (e.arg 24 8) (e.arg 32 4) = true → chState s c ≠ chAbsent →
          rtState s c = rtIdle → (∀ x : Fin 8, (s.th c x).st ≠ .run ∧ (s.th c x).st ≠ .waitev ∧ (s.th c x).st ≠ .yielded) →
          Does (.keeperLoad c) s (updEntry (s.clear (Fld.KSTATUS_IMAGE_VALID c)) { e with
            stage := .running, total := (e.arg 32 4 + 4095) / 4096, idle := !s.hostOk }))) ∧
      (Heads s c opKeeperThread e → e.arg 24 1 = t.val →
        (e.arg 25 1 = 1 → (s.kp c).image = some im → im.entries[e.arg 26 2]? = some k → k.kind = 1 → k.thread = t.val →
          chState s c = chEnabled → s.isSet (Fld.KSTATUS_IMAGE_VALID c) = true → (s.th c t).st = .stopped ∨ (s.th c t).st = .halted →
          DoesSome (.keeperThreadStart c) s (fun u => chanHead u c opKeeperThread = some { e with stage := .running } ∧ (u.th c t).st = .run ∧ (u.th c t).pc = k.addr ∧ (u.th c t).getA 6 = 0xA800 ∧
            (∀ i, (u.th c t).getD i = 0) ∧ (∀ i, i ≠ 6 → (u.th c t).getA i = 0) ∧ (∀ i, (u.th c t).getQ i = 0) ∧ (u.th c t).inh = false)) ∧
        (e.arg 25 1 = 0 → e.arg 26 2 = 0 → chState s c ≠ chAbsent →
          DoesSome (.keeperThreadStop c) s (fun u => (u.th c t).st = .stopped ∧ ∀ x : Fin 8, x ≠ t → (u.th c x).st = (s.th c x).st))) ∧
        (∀ (h0 h1 : Half) (s1 : State), chanHead s c opKeeperThread = some e → e.stage = .running → e.arg 25 1 = 1 → e.arg 24 1 = t.val →
          (s.th c t).cur = none → (s.th c t).nxt = none → s1 = s.modTh c t (fun th => loadLines (s.kp c) th th.pc) → Issues s1 c t .nop h0 h1 →
          ∃ u, Completes (.nop c t) s1 (settle u) ∧ Does (.nop c t) s (complete u e St.ok [])) ∧
        (∀ (i : Instr) (s1 : State), IssuedBy i c t → (s.th c t).cur = none → (s.th c t).nxt = none →
          s1 = s.modTh c t (fun th => loadLines (s.kp c) th th.pc) →
          ∃ u, Completes i s1 (settle u) ∧ ((u.th c t).used ≠ (s.th c t).used → Does i s (startIssued u c t)) ∧
            ((u.th c t).used = (s.th c t).used → Does i s s)) ∧
        (chanHead s c opKeeperThread = some e → e.stage = .running → e.arg 25 1 = 1 → e.arg 24 1 = t.val →
          startIssued s c t = complete s e St.ok []) ∧
        (chanHead s c opKeeperThread = none → startIssued s c t = s))

/-- R62, R72, R260, R266, R267, R268: STREAM_DEFINE, STREAM_CLOSE, STREAM_CLOSE_DONE and KEYSTONE_LOAD. A descriptor that passes its checks waits for the
next edge, one that fails leaves DEF_RESULT; a close makes the stream CLOSING, and the end of a closing makes it
UNDEFINED; a program that fails its check is refused, and one for a keystone that is PENDING waits. R62, R81, R82, R83, R293, R294, R369, R377: READBACK, REG_BATCH, CONFIG_IMAGE_WRITE, FIRMWARE_STAGE, SNAPSHOT and FENCE. Each checks its operands and then runs,
waits for the edge, or is answered: a READBACK reads its first 4096 B, a second image write is refused while one runs, a
snapshot outside the ring ends 0x84.
The model's choices it rests on: log entries 25, 28, 72, 83. -/
def Obligations.BasinQueueEntries : Prop :=
  (∀ (s : State) (serial : Nat) (e : WorkEntry) (data : HostRd) (b : List Byte) (n : Fin 256), s.toll.orderly = false →
      (InBasin s serial opStreamDefine e → e.arg 40 2 = 64 → bufOk s (e.arg 32 8) 64 = true → operandWaits s (e.arg 32 8) = false → operandRead s (e.arg 32 8) 64 data = some b →
        strmState s (e.arg 24 1) ≠ strmClosing → (s.strm (e.arg 24 1)).pend = none →
        (polReason b ≠ 0 → Does (.streamDefine serial data) s
          (complete ((defResult s (e.arg 24 1) (polReason b)).raise Fld.PLACE_EVT_DEF_REJECTED) e 0x81 [])) ∧
        (polReason b = 0 → polKeys s (polParse b) = true → telEnc (polParse b) = false → DoesSome (.streamDefine serial data) s (fun u =>
          (u.strm (e.arg 24 1)).pend = some (polParse b, some serial) ∧ u.get Fld.DEF_RESULT_REASON = 0 ∧
          basinEntry u serial opStreamDefine = some { e with stage := .edge }))) ∧
      (InBasin s serial opStreamClose e →
        (strmState s (e.arg 24 1) ≠ strmOpen → Does (.streamClose serial) s (complete s e St.rejectedState [])) ∧
        (strmState s (e.arg 24 1) = strmOpen → DoesSome (.streamClose serial) s (fun u => strmState u (e.arg 24 1) = strmClosing ∧
          (u.strm (e.arg 24 1)).build = none ∧ (u.strm (e.arg 24 1)).close = some serial ∧ (u.strm (e.arg 24 1)).unbind = true))) ∧
      (strmState s n = strmClosing → sharesEnd s n = true → (s.strm n).build = none → (∀ sp ∈ s.place.spans, sp.stream ≠ n.val) →
        (s.strm n).drops = none → DoesSome (.streamCloseDone n false) s (fun u => strmState u n = strmUndefined ∧ (u.strm n).policies = [])) ∧
      (InBasin s serial opKeystoneLoad e →
        (64 ≤ e.arg 24 1 → Does (.keystoneLoad serial data) s (complete s e St.badOperand [])) ∧
        (e.arg 24 1 < 64 → (s.ks (e.arg 24 1)).pend ≠ .none → Does (.keystoneLoad serial data) s s) ∧
        (e.arg 24 1 < 64 → (s.ks (e.arg 24 1)).pend = .none → bufOk s (e.arg 32 8) (e.arg 40 2) = true →
          operandWaits s (e.arg 32 8) = false → operandRead s (e.arg 32 8) (e.arg 40 2) data = some b →
          (ksLoad s (e.arg 24 1) (e.arg 40 2) b serial).1 ≠ St.ok → Does (.keystoneLoad serial data) s
            (complete (ksLoad s (e.arg 24 1) (e.arg 40 2) b serial).2 e (ksLoad s (e.arg 24 1) (e.arg 40 2) b serial).1 [])) ∧
        (e.arg 24 1 < 64 → (s.ks (e.arg 24 1)).pend = .none → bufOk s (e.arg 32 8) (e.arg 40 2) = true →
          operandWaits s (e.arg 32 8) = false → operandRead s (e.arg 32 8) (e.arg 40 2) data = some b →
          (ksLoad s (e.arg 24 1) (e.arg 40 2) b serial).1 = St.ok → Does (.keystoneLoad serial data) s
            (updEntry (ksLoad s (e.arg 24 1) (e.arg 40 2) b serial).2 { e with stage := .edge })))) ∧
  (∀ (s : State) (serial : Nat) (e : WorkEntry) (data : HostRd) (b : List Byte) (n : Fin 4),
      (InBasin s serial opReadback e → e.arg 24 1 = n.val → e.arg 32 8 % 4096 = 0 → 4096 ≤ e.arg 48 4 → e.arg 48 4 ≤ 2 ^ 31 → e.arg 48 4 % 4096 = 0 →
        bufOk s (e.arg 40 8) (e.arg 48 4) = true → drvState s n = drvOnline ∨ drvState s n = drvReadOnly ∨ drvState s n = drvBlank ∨ drvState s n = drvEjected →
        e.arg 32 8 + e.arg 48 4 ≤ (s.drive n).nsBytes → longTurn s e = true →
        Does (.readback serial) s (updEntry (nvme s n (.read (e.arg 32 8) 4096)) { e with
          stage := .running, total := (e.arg 48 4 + 4095) / 4096, idle := !s.hostOk })) ∧
      (InBasin s serial opRegBatch e →
        (1 ≤ e.arg 24 2 → e.arg 24 2 ≤ 256 → operandWaits s (e.arg 32 8) = false → bufOk s (e.arg 32 8) (24 * e.arg 24 2) = true → operandRead s (e.arg 32 8) (24 * e.arg 24 2) data = some b →
          Does (.regBatch serial data) s (updEntry s { e with stage := .edge, data := b })) ∧
        (e.arg 24 2 = 0 ∨ 256 < e.arg 24 2 → Does (.regBatch serial data) s (complete s e St.badOperand (leBytes 2 0 ++ leBytes 2 0xFFFF)))) ∧
      (InBasin s serial opConfigWrite e → longTurn s e = true → 1 ≤ e.arg 32 4 → e.arg 32 4 ≤ 262144 → bufOk s (e.arg 24 8) (e.arg 32 4) = true →
        (s.toll.cfgBusy = false → Does (.configImageWrite serial) s
          (updEntry (s.modToll (fun t => { t with cfgBusy := true })) { e with stage := .running, total := (e.arg 32 4 + 4095) / 4096, idle := !s.hostOk })) ∧
        (s.toll.cfgBusy = true → Does (.configImageWrite serial) s
          (complete s e St.rejectedState (leBytes 4 0 ++ leBytes 4 ((e.arg 32 4 + 4095) / 4096))))) ∧
      (InBasin s serial opFirmwareStage e → longTurn s e = true → 1 ≤ e.arg 32 4 → e.arg 32 4 ≤ 3145728 → bufOk s (e.arg 24 8) (e.arg 32 4) = true →
        (s.toll.fwBusy = none → Does (.firmwareStage serial) s
          (updEntry (fwBegin s) { e with stage := .running, total := (e.arg 32 4 + 4095) / 4096, idle := !s.hostOk })) ∧
        (s.toll.fwBusy ≠ none → Does (.firmwareStage serial) s
          (complete s e St.rejectedState (leBytes 4 0 ++ leBytes 4 ((e.arg 32 4 + 4095) / 4096))))) ∧
      (InBasin s serial opSnapshot e → longTurn s e = true → 1 ≤ e.arg 32 4 → e.arg 48 4 % 4096 = 0 → bufOk s (e.arg 40 8) (e.arg 48 4) = true →
        (s.dones = [] → Does (.snapshot serial) s (complete s e 0x84 (leBytes 4 0 ++
          leBytes 4 (((snapImage s (e.arg 24 6) (e.arg 32 4)).length + 4095) / 4096)))) ∧
        (s.dones ≠ [] → s.get Fld.RING_OLDEST_TICK ≤ e.arg 24 6 → e.arg 24 6 + e.arg 32 4 - 1 ≤ s.get Fld.RING_LAST_TICK →
          (snapImage s (e.arg 24 6) (e.arg 32 4)).length ≤ e.arg 48 4 →
          DoesSome (.snapshot serial) s (fun u => (e.serial, e.arg 24 6, e.arg 24 6 + e.arg 32 4 - 1) ∈ u.place.snaps ∧
            ∃ x, basinEntry u serial opSnapshot = some x ∧ x.stage = .running ∧ x.data = snapImage s (e.arg 24 6) (e.arg 32 4) ∧
              x.total = ((snapImage s (e.arg 24 6) (e.arg 32 4)).length + 4095) / 4096))) ∧
      (InBasin s serial opFence e →
        (e.arg 24 1 ≤ 1 → Does (.fence serial) s (updEntry s { e with stage := .running })) ∧
        (1 < e.arg 24 1 → Does (.fence serial) s (complete s e St.badOperand []))))

/-- R31, R104, R161, R167, R253, R427: KEEPER_EOI, MB_REPLY, PUB_GO, CS_DATA_WRITE, CS_PROGRAM_DONE and KEEPER_TIME_READ. An EOI pops the thread's stack; a reply
gives the CALL-KEEPER in execution its status and residual, one without a call is a stray; a publish enters the live copy
when the slot is the channel's; a code halfword is queued while the queue has room; a read of TIME_NS latches TICKNO with it.
The model's choices it rests on: log entry 41. -/
def Obligations.KeeperServices : Prop :=
  ∀ (s : State) (c : Fin 56) (t : Fin 8) (v : Byte) (h : Half) (m : Mail) (e : ExecOrder) (x : Nat × Nat) (rest : List (Nat × Nat)),
    (stackOf s (tgtThread c t) = x :: rest → DoesSome (.keeperEoi c t) s (fun u => stackOf u (tgtThread c t) = rest ∧ u.fld = s.fld)) ∧
    (stackOf s (tgtThread c t) = [] → Does (.keeperEoi c t) s (s.raise Fld.IC_EVT_EOI_EMPTY)) ∧
    ((s.th c t).mail = some m → m.full = true → m.live = true → (s.sq c).exec = some e → e.idx = m.order → e.result = none →
      DoesSome (.mbReply c t v) s (fun u => Resolved u c e (if replyOk v.toNat then v.toNat else St.busError) (s.th c t).mbRes.toNat ∧
        (u.th c t).mail = some { m with full := false, live := false } ∧ (u.th c t).mbRes = 0 ∧
        (replyOk v.toNat = false → u.isSet (Fld.ROUTE_EVT_BAD_REPLY c) = true))) ∧
    ((s.th c t).mail = none → DoesSome (.mbReply c t v) s (fun u => u.isSet (Fld.ROUTE_EVT_STRAY_REPLY c) = true ∧ (u.sq c) = (s.sq c))) ∧
    (slotOwner s (s.kp c).pubSlot.toNat = some c.val → 1 ≤ (s.kp c).pubQual.toNat → (s.kp c).pubQual.toNat ≤ 3 → (s.kp c).pubTime.toNat ≤ s.now →
      DoesSome (.pubGo c) s (fun u => liveSlot u (s.kp c).pubSlot.toNat = ⟨(s.kp c).pubVal, (s.kp c).pubQual.toNat,
        if (s.kp c).pubTime.toNat = 0 then s.now else (s.kp c).pubTime.toNat, s.tick⟩ ∧ u.board.view = s.board.view)) ∧
    (slotOwner s (s.kp c).pubSlot.toNat ≠ some c.val → Does (.pubGo c) s (s.raise (Fld.KEVT_PUB_REFUSED c))) ∧
    (s.isSet (Fld.KSTATUS_CS_WRITE c) = false → Does (.csDataWrite c h) s (s.raise (Fld.KEVT_CS_REFUSED c))) ∧
    (s.isSet (Fld.KSTATUS_CS_WRITE c) = true → 8 ≤ (s.kp c).csq → Does (.csDataWrite c h) s (s.raise (Fld.KEVT_CS_LOST c))) ∧
    (s.isSet (Fld.KSTATUS_CS_WRITE c) = true → (s.kp c).csq < 8 → DoesSome (.csDataWrite c h) s (fun u =>
      SMap.get 0 (u.kp c).code (s.kp c).csAddr.toNat = h ∧ (u.kp c).csq = (s.kp c).csq + 1 ∧ (u.kp c).csAddr = (s.kp c).csAddr + 1)) ∧
    Does (.csProgramDone c) s (s.modKp c (fun k => { k with csq := k.csq - 1 })) ∧
    DoesSome (.keeperTimeRead c t) s (fun u => (u.kp c).latTime = s.now ∧ (u.kp c).latTick = s.tick ∧ u.fld = s.fld)

/-- R223, R233–R236: CH_COMMIT_WINDOW, CH_COMMIT_RX and COMMIT_COPY_DONE. A checked record enters the filling half, with the time of the commit
where its TIMESTAMP is 0, or waits while a frame's pieces are being committed; the thread's result is COPYING until its copy is done. A commit while an earlier copy runs is BUSY; one whose
TIMESTAMP is later than TIME_NS, that breaks R233, or whose record holds an uncorrectable word (R336), is BAD and sets CH_EVT.BAD.
The model's choices it rests on: log entries 41, 55, 118, 142. -/
def Obligations.KeeperCommits : Prop :=
  ∀ (s : State) (c : Fin 56) (t : Fin 8) (w : Long) (off len half pos : Nat) (hdr : List Byte) (r : Rec) (rest : List Rec) (x : Copy),
    off = w.toNat → off < 0x4000 → off % 8 = 0 → hdr = tileRead s c (0x10000 + off) 16 → len = leAt hdr 8 2 →
    (copying s c t = true → Does (.chCommitWindow c t w) s (chResult s c t 4) ∧ Does (.chCommitRx c t w) s (chResult s c t 4)) ∧
    (copying s c t = false → s.now < leAt hdr 0 8 → Does (.chCommitWindow c t w) s (chBad s c t)) ∧
    (copying s c t = false → off + 16 + roundUp 8 len ≤ 0x4000 → leAt hdr 0 8 ≤ s.now → tilePoisoned s c (0x10000 + off) (16 + roundUp 8 len) = true →
      Does (.chCommitWindow c t w) s (chBad (tileEcc s c (0x10000 + off)) c t)) ∧
    (copying s c t = false → off + 16 + roundUp 8 len ≤ 0x4000 → leAt hdr 0 8 ≤ s.now → tilePoisoned s c (0x10000 + off) (16 + roundUp 8 len) = false →
      r = ⟨if leAt hdr 0 8 = 0 then s.now else leAt hdr 0 8, leAt hdr 10 1, c.val, 0, leAt hdr 14 2, bsub (tileRead s c (0x10000 + off) (16 + roundUp 8 len)) 16 len⟩ →
      (typeOk c r.typ len r.flags (leAt (tileRead s c (0x10000 + off) (16 + roundUp 8 len)) 16 1) = true →
        midFrame s c = false → ((s.ch c).chamber.commit (chUsable s c) r).1 = .stored half pos → DoesSome (.chCommitWindow c t w) s (fun u =>
          (u.kp c).result[t] = 1 ∧ (u.ch c).chamber = { ((s.ch c).chamber.commit (chUsable s c) r).2 with
            copies := ((s.ch c).chamber.commit (chUsable s c) r).2.copies ++ [⟨t.val, half, pos, off, decide (leAt hdr 0 8 = 0), 16 + roundUp 8 len, []⟩] })) ∧
      (typeOk c r.typ len r.flags (leAt (tileRead s c (0x10000 + off) (16 + roundUp 8 len)) 16 1) = true → midFrame s c = true →
        DoesSome (.chCommitWindow c t w) s (fun u => (u.kp c).result[t] = 1 ∧ (u.ch c).chamber = (s.ch c).chamber ∧
          (u.eth c).held = (s.eth c).held ++ [⟨r, some (t.val, off, 16 + roundUp 8 len, decide (leAt hdr 0 8 = 0))⟩])) ∧
      (typeOk c r.typ len r.flags (leAt (tileRead s c (0x10000 + off) (16 + roundUp 8 len)) 16 1) = false →
        Does (.chCommitWindow c t w) s (chBad s c t))) ∧
    (copying s c t = false → (s.ch c).fifos.rx = [] → Does (.chCommitRx c t w) s ((chResult s c t 5).raise (Fld.FIFO_EVT_RX_UNDERRUN c))) ∧
    (copying s c t = false → (s.ch c).fifos.rx = r :: rest → isMarker r = false → s.now < r.ts → Does (.chCommitRx c t w) s (chBad s c t)) ∧
    (copying s c t = false → (s.ch c).fifos.rx = r :: rest → isMarker r = false → r.ts ≤ s.now →
      typeOk c r.typ r.payload.length r.flags (leAt r.payload 0 1) = true → midFrame s c = false →
      ((s.ch c).chamber.commit (chUsable s c) { r with chan := c.val, ts := if r.ts = 0 then s.now else r.ts }).1 = .stored half pos →
      DoesSome (.chCommitRx c t w) s (fun u => (u.ch c).fifos.rx = rest ∧ (u.kp c).result[t] = 1 ∧
        (u.ch c).chamber = { ((s.ch c).chamber.commit (chUsable s c) { r with chan := c.val, ts := if r.ts = 0 then s.now else r.ts }).2 with
          copies := ((s.ch c).chamber.commit (chUsable s c) { r with chan := c.val, ts := if r.ts = 0 then s.now else r.ts }).2.copies ++
            [⟨t.val, half, pos, 0, decide (r.ts = 0), 0, []⟩] })) ∧
    ((s.ch c).chamber.copies.find? (fun x => x.thread == t.val) = some x → (∀ y ∈ (s.eth c).held, ∀ z, y.by_ = some z → z.1 ≠ t.val) → DoesSome (.commitCopyDone c t) s (fun u =>
      (u.kp c).result[t] = 0 ∧ copying u c t = false))

/-- R188, R189: RX_DATA_READ, RX_POP, TX_DATA_WRITE, TX_PUSH, MBI_DATA_READ, KEEPER_MBO_PUSH, HOST_MBI_PUSH and HOST_MBO_READ. Every FIFO gives its oldest entry
first and takes a new one last; what finds no room becomes a marker that counts it; a read of an empty FIFO sets its
UNDERRUN and changes nothing else, as does RX_POP on an empty RX FIFO. In UART mode RTS_N moves with the room an RX_POP makes (R175).
The model's choices it rests on: log entry 140. -/
def Obligations.Fifos : Prop :=
  ∀ (s p : State) (c : Fin 56) (v : Word) (r : Rec) (rest : List Rec) (b : List Byte) (w : Word) (l : List MbEnt),
    ((s.ch c).fifos.rx = [] → Does (.rxDataRead c) s (s.raise (Fld.FIFO_EVT_RX_UNDERRUN c)) ∧ Does (.rxPop c) s (s.raise (Fld.FIFO_EVT_RX_UNDERRUN c))) ∧
    ((s.ch c).fifos.rx = r :: rest →
      DoesSome (.rxDataRead c) s (fun u => (u.ch c).fifos.rxLast = BitVec.ofNat 64 (leNat (((recBytes r).drop (s.ch c).fifos.rxPos).take 8)) ∧
        (if recSize r ≤ (s.ch c).fifos.rxPos + 8 then (u.ch c).fifos.rx = rest ∧ (u.ch c).fifos.rxPos = 0
          else (u.ch c).fifos.rx = r :: rest ∧ (u.ch c).fifos.rxPos = (s.ch c).fifos.rxPos + 8)) ∧
      (p = s.modFifos c (fun f => { f with rx := rest, rxPos := 0 }) →
        (modeOf s c = modeUart ∧ c.val < 48 ∧ fioPin p c 2 ≠ fioPin s c 2 → Does (.rxPop c) s (drivePin p c 2)) ∧
        (¬(modeOf s c = modeUart ∧ c.val < 48 ∧ fioPin p c 2 ≠ fioPin s c 2) → Does (.rxPop c) s p))) ∧
    Does (.txDataWrite c v) s (s.modFifos c (fun f => { f with build := f.build ++ leBytes 8 v.toNat })) ∧
    ((s.ch c).fifos.build = b →
      (txItemOk s c b = false → DoesSome (.txPush c) s (fun u => u.isSet (Fld.FIFO_EVT_TX_BAD c) = true ∧ (u.ch c).fifos.tx = (s.ch c).fifos.tx ∧
        (u.ch c).fifos.build = [])) ∧
      (txItemOk s c b = true → txHasMarker (s.ch c).fifos = false → txItems (s.ch c).fifos < 31 → b.length ≤ txFree (s.ch c).fifos →
        Does (.txPush c) s (s.modFifos c (fun f => { f with build := [], tx := f.tx ++ [.item b false] }))) ∧
      (txItemOk s c b = true → txHasMarker (s.ch c).fifos = false → 31 ≤ txItems (s.ch c).fifos →
        Does (.txPush c) s (s.modFifos c (fun f => { f with build := [], tx := f.tx ++ [.marker 1] })))) ∧
    ((s.ch c).fifos.mbi = [] → Does (.mbiDataRead c) s (s.raise (Fld.FIFO_EVT_MBI_UNDERRUN c))) ∧
    ((s.ch c).fifos.mbi = .data w :: l → Does (.mbiDataRead c) s (s.modFifos c (fun f => { f with mbi := l, mbiLast := w }))) ∧
    ((∀ x ∈ (s.ch c).fifos.mbo, ∀ n, x ≠ .marker n) →
      ((s.ch c).fifos.mbo.length < 15 → Does (.keeperMboPush c v) s (s.modFifos c (fun f => { f with mbo := f.mbo ++ [.data v] }))) ∧
      ((s.ch c).fifos.mbo.length = 15 → Does (.keeperMboPush c v) s
        ((s.modFifos c (fun f => { f with mbo := f.mbo ++ [.marker 1] })).raise (Fld.FIFO_EVT_MBO_GAP c)))) ∧
    (Reaches s (Reg.MBI_DATA c) v.toNat → (∀ x ∈ (s.ch c).fifos.mbi, ∀ n, x ≠ .marker n) → (s.ch c).fifos.mbi.length < 15 →
      Does (.hostMbiPush c v) s ((Touched s (Reg.MBI_DATA c)).modFifos c (fun f => { f with mbi := f.mbi ++ [.data v] }))) ∧
    (PageAt s (Reg.MBO_DATA c) → (s.ch c).fifos.mbo = .data w :: l → DoesSome (.hostMboRead c) s (fun u =>
      u.out = s.out ++ [.readData w false] ∧ (u.ch c).fifos.mbo = l ∧ (u.ch c).fifos.mboLast = w))

/-- R172, R178, R180, R181, R187, R192, R218: BE_MODE_WRITE, CAN_FRAME, CAN_PROTOCOL_ERROR, CAN_RECOVERY_DONE, LIN_HEADER, LIN_FRAME and
LIN_RESPONSE_TIMEOUT. MODE changes on a DISABLED channel only, to a mode of its kind. A frame that the filters accept becomes an item, another
is counted FILTERED, one of a format that is not enabled is waited out or a protocol error. Errors raise the error counters by 1 or 8, and
BUS_OFF follows 255; with NO_RETX the frame whose transmission failed is not sent again. A LIN header is answered from a matching TX item, the next to
leave; a LIN item carries the bit rate measured with AUTOBAUD and BAUD without it; a LIN frame or a header without a response becomes an item.
The model's choices it rests on: log entries 34, 45, 47, 49, 141. -/
def Obligations.CanAndLin : Prop :=
  ∀ (s : State) (c : Fin 56) (v ts : Word) (f : CanFrame) (g : LinFrame) (k : Fin 5) (p : Bool) (id : BitVec 6) (pid brk : Byte) (rate : Half)
    (t : Nat) (b : List Byte) (own : Bool) (rest : List TxEnt),
    (Reaches s (Reg.BE_MODE c) v.toNat → c.val < 48 →
      (chState s c = chDisabled → modeOk (bf v.toNat 0 4) = true → DoesSome (.beModeWrite c v) s (fun u => modeOf u c = bf v.toNat 0 4)) ∧
      (chState s c ≠ chDisabled → Does (.beModeWrite c v) s (pageErr (Touched s (Reg.BE_MODE c)) (Reg.BE_MODE c) 1))) ∧
    (Reaches s (Reg.BE_MODE c) v.toNat → 48 ≤ c.val →
      (chState s c = chDisabled → bf v.toNat 0 4 = modeNone ∨ bf v.toNat 0 4 = modeEth → bit v.toNat 5 = false →
        DoesSome (.beModeWrite c v) s (fun u => modeOf u c = bf v.toNat 0 4)) ∧
      (chState s c ≠ chDisabled ∨ bf v.toNat 0 4 ≠ modeNone ∧ bf v.toNat 0 4 ≠ modeEth →
        Does (.beModeWrite c v) s (pageErr (Touched s (Reg.BE_MODE c)) (Reg.BE_MODE c) 1))) ∧
    (Receives s c modeCan → canEnabled s c f = false →
      (s.isSet (Fld.CAN_CFG_PROTO_EXC c) = true → Does (.canFrame c f ts) s s) ∧
      (s.isSet (Fld.CAN_CFG_PROTO_EXC c) = false →
        DoesSome (.canFrame c f ts) s (fun u => u.isSet (Fld.BE_EVT_PROTO_ERR c) = true ∧ (u.ch c).fifos.rx = []))) ∧
    (Receives s c modeCan → canEnabled s c f = true → f.data.length ≤ 2048 →
      (filterDecide s c f.id.toNat f.ide f.xl = (true, false) →
        DoesSome (.canFrame c f ts) s (fun u =>
          Placed s u c ⟨min ts.toNat s.now, if f.xl then 0x02 else 0x01, c.val, 0, if f.tx then 1 else 0, canPayload f⟩)) ∧
      ((filterDecide s c f.id.toNat f.ide f.xl).1 = false → DoesSome (.canFrame c f ts) s (fun u => (u.ch c).fifos.rx = [] ∧
        u.get (Fld.STATS_CNT_COUNT c statFiltered) = (s.get (Fld.STATS_CNT_COUNT c statFiltered) + 1) % 2 ^ 64))) ∧
    (Receives s c modeCan → s.get (Fld.BE_STATUS_TEC c) ≤ 255 → s.get (Fld.BE_STATUS_REC c) ≤ 255 →
      (¬ (k = 4 ∧ s.get (Fld.BE_STATUS_FCS c) = 1 ∧ p = false) →
        DoesSome (.canProtocolError c k true p) s (fun u => u.get (Fld.BE_STATUS_TEC c) = min 255 (s.get (Fld.BE_STATUS_TEC c) + 8) ∧
          u.get (Fld.BE_STATUS_REC c) = s.get (Fld.BE_STATUS_REC c) ∧ u.isSet (Fld.BE_EVT_PROTO_ERR c) = true ∧
          (247 < s.get (Fld.BE_STATUS_TEC c) → engineOf u c = engBusOff ∧ u.isSet (Fld.BE_EVT_BUS_OFF c) = true))) ∧
      (k = 4 → s.get (Fld.BE_STATUS_FCS c) = 1 → p = false →
        DoesSome (.canProtocolError c k true p) s (fun u => u.get (Fld.BE_STATUS_TEC c) = s.get (Fld.BE_STATUS_TEC c) ∧
          u.isSet (Fld.BE_EVT_PROTO_ERR c) = true)) ∧
      (s.isSet (Fld.CAN_CFG_NO_RETX c) = true → (s.ch c).bus.txWait = [] → (s.ch c).fifos.tx = .item b own :: rest →
        DoesSome (.canProtocolError c k true p) s (fun u => (u.ch c).fifos.tx = rest)) ∧
      (s.isSet (Fld.CAN_CFG_NO_RETX c) = false → DoesSome (.canProtocolError c k true p) s (fun u => (u.ch c).fifos.tx = (s.ch c).fifos.tx)) ∧
      (k = 4 → Does (.canProtocolError c k false p) s s) ∧
      (k ≠ 4 → DoesSome (.canProtocolError c k false p) s (fun u =>
        u.get (Fld.BE_STATUS_REC c) = min 255 (s.get (Fld.BE_STATUS_REC c) + (if p then 8 else 1)) ∧
        u.get (Fld.BE_STATUS_TEC c) = s.get (Fld.BE_STATUS_TEC c) ∧ engineOf u c = engOn))) ∧
    (engineOf s c = engRecovering → Does (.canRecoveryDone c) s ((((s.put (Fld.BE_STATUS_ENGINE c) engOn).put (Fld.BE_STATUS_TEC c) 0).put
      (Fld.BE_STATUS_REC c) 0).put (Fld.BE_STATUS_FCS c) 0)) ∧
    (modeOf s c = modeLin → engineOf s c = engListen → s.get (Fld.LIN_CFG_BREAK_DETECT c) ≤ brk.toNat →
      Does (.linHeader c ⟨pid, brk⟩ ts) s (s.modBus c (fun b => { b with linHdr := some (pid.toNat % 64, min ts.toNat s.now), linSend := false }))) ∧
    (brk.toNat < s.get (Fld.LIN_CFG_BREAK_DETECT c) → Does (.linHeader c ⟨pid, brk⟩ ts) s s) ∧
    (modeOf s c = modeLin → engineOf s c = engOn → s.get (Fld.LIN_CFG_ROLE c) = 1 → s.get (Fld.LIN_CFG_BREAK_DETECT c) ≤ brk.toNat →
      linParBad pid.toNat = false →
      (linMatch (s.ch c).fifos pid.toNat = none →
        DoesSome (.linHeader c ⟨pid, brk⟩ ts) s (fun u => u.isSet (Fld.BE_EVT_NO_RESPONSE c) = true ∧ u.out = s.out)) ∧
      (linMatch (s.ch c).fifos pid.toNat = some b →
        DoesSome (.linHeader c ⟨pid, brk⟩ ts) s (fun u => u.out = s.out ++ [.busTx c (linResponse b)] ∧ (u.ch c).bus.linSend = true ∧
          ∃ own, (u.ch c).fifos.tx.head? = some (.item b own)))) ∧
    (Receives s c modeLin → (filterDecide s c (g.pid.toNat % 64) false false).1 = true → linParBad g.pid.toNat = false → g.data.length ≤ 8 →
      (linSumBad g = false →
        DoesSome (.linFrame c g ts) s (fun u => PlacedFirst u c ⟨min ts.toNat s.now, 0x03, c.val, 0, if g.tx then 1 else 0,
          linPayload g.pid.toNat g.data g.sum.toNat (if 0x3C ≤ g.pid.toNat % 64 then 8 else 0) (linRate s c g.rate.toNat)⟩)) ∧
      (linSumBad g = true →
        DoesSome (.linFrame c g ts) s (fun u => PlacedFirst u c ⟨min ts.toNat s.now, 0x03, c.val, 0, (if g.tx then 1 else 0) + 2,
          linPayload g.pid.toNat g.data g.sum.toNat (2 + (if 0x3C ≤ g.pid.toNat % 64 then 8 else 0)) (linRate s c g.rate.toNat)⟩ ∧
          u.isSet (Fld.BE_EVT_PROTO_ERR c) = true))) ∧
    (Quiet s c → c.val < 48 → (s.ch c).bus.linHdr = some (id.toNat, t) → (filterDecide s c id.toNat false false).1 = true →
      DoesSome (.linResponseTimeout c pid rate) s (fun u => (u.ch c).bus.linHdr = none ∧
        Placed s u c ⟨t, 0x03, c.val, 0, 0, linPayload pid.toNat [] 0 (1 + (if 0x3C ≤ id.toNat then 8 else 0)) (linRate s c rate.toNat)⟩))

/-- R177, R182, R183, R186: SENT_MESSAGE, PSI5_FRAME, PSI5_SYNC, PSI5_SYNC_FALL, UART_CHARACTER, UART_ITEM_END, DIGITAL_EDGE, CAPTURE_EDGE and PWM_PERIOD.
Messages, frames and filtered edges become items with their times, a PSI5 frame with the errors of its check bits and its coding; a UART item grows by a character until its delimiter;
a capture pin counts rising edges and the time between them; a PWM output falls at HIGH and rises at PERIOD. R100, R181, R184, R188, R189, R192: TX_ITEM_SENT, SPI_TRANSFER_DONE, I2C_TRANSFER_DONE, I2C_STRETCH_TIMEOUT, I2C_ARB_LOST and I2C_NACK. The head item leaves
and is counted, and the last of a TRANSMIT's items completes it. A transfer that is done stores what an EXCHANGE received;
one that fails gives the order BUS_ERROR, or NO_PARTNER when no device acknowledges its address; a UART EXCHANGE that meets a framing or
parity error gives BUS_ERROR.
The model's choices it rests on: log entries 34, 36, 48, 115, 116, 140, 145. -/
def Obligations.TransfersAndItems : Prop :=
  (∀ (s : State) (c : Fin 56) (ts : Word) (m : SentMsg) (data : Long) (ch : BitVec 9) (n : Fin 4) (lvl : Bool) (u0 : UartItem) (p : TimerPin)
      (check : BitVec 3) (k : Nat) (ce me : Bool),
      (Receives s c modeSent → sentCalOk s c m.cal.toNat = true → sentCrcBad s c m = false → m.kind = 1 →
        DoesSome (.sentMessage c m ts) s (fun u => (u.ch c).bus.sentCal = some m.cal.toNat ∧ PlacedFirst u c ⟨min ts.toNat s.now, 0x04, c.val, 0, 0,
          leBytes 1 1 ++ leBytes 1 (s.get (Fld.SENT_CFG_NIBBLES c)) ++ leBytes 1 (m.status.toNat % 16) ++ leBytes 1 0 ++ leBytes 4 m.cal.toNat ++
            leBytes 4 m.data.toNat ++ leBytes 1 m.serialId.toNat ++ leBytes 3 0⟩)) ∧
      (Receives s c modeSent → sentTakes s c m.kind.toNat = true → sentCalOk s c m.cal.toNat = false →
        DoesSome (.sentMessage c m ts) s (fun u => (u.ch c).fifos.rx = [] ∧ u.isSet (Fld.BE_EVT_SYNC_LOST c) = true)) ∧
      (Receives s c modePsi5 → s.isSet (Fld.PSI5_CFG_SYNC c) = false → k = s.get (Fld.PSI5_CFG_DATA_BITS c) →
        ce = (check.toNat % (if s.isSet (Fld.PSI5_CFG_CHECK c) then 8 else 2) != psi5Check (s.isSet (Fld.PSI5_CFG_CHECK c)) k (data.toNat % 2 ^ k)) →
        DoesSome (.psi5Frame c data ts check me) s (fun u => PlacedFirst u c ⟨min ts.toNat s.now, 0x05, c.val, 0, if ce || me then 2 else 0,
          leBytes 4 (data.toNat % 2 ^ k) ++ leBytes 1 0 ++ leBytes 1 ((if ce then 1 else 0) + (if me then 2 else 0)) ++ leBytes 2 0⟩ ∧
          ((ce || me) = true → u.isSet (Fld.BE_EVT_PROTO_ERR c) = true))) ∧
      (modeOf s c = modePsi5 → engineOf s c = engOn → s.isSet (Fld.PSI5_CFG_SYNC c) = true → (s.ch c).bus.psiSeen = false →
        DoesSome (.psi5Sync c) s (fun u => u.out = s.out ++ [.pin c 1 true] ∧ (u.ch c).bus.psiSync = true ∧ (u.ch c).bus.psiSeen = true ∧
        (u.ch c).bus.psiNs = s.now / (s.get (Fld.PSI5_CFG_SYNC_PERIOD_US c) * 1000) * (s.get (Fld.PSI5_CFG_SYNC_PERIOD_US c) * 1000))) ∧
      ((s.ch c).bus.psiSync = true → Does (.psi5SyncFall c) s ((s.modBus c (fun b => { b with psiSync := false })).emit (.pin c 1 false))) ∧
      (Receives s c modeUart → (s.ch c).bus.uart = none → s.get (Fld.UART_CFG_DATA_BITS c) ≠ 9 → 1 < s.get (Fld.UART_CFG_MAX_LEN c) →
        (s.isSet (Fld.UART_CFG_DELIM_EN c) = false → Does (.uartCharacter c ch ts false false) s
          (s.modBus c (fun b => { b with uart := some ⟨min ts.toNat s.now, [ch.toNat], false, false, 0⟩ }))) ∧
        (s.isSet (Fld.UART_CFG_DELIM_EN c) = true → ch.toNat = s.get (Fld.UART_CFG_DELIM c) → DoesSome (.uartCharacter c ch ts false false) s (fun u =>
          Placed s u c ⟨min ts.toNat s.now, 0x06, c.val, 0, 0, leBytes 2 1 ++ leBytes 1 4 ++ leBytes 1 0 ++ leBytes 2 0xFFFF ++ leBytes 2 0 ++
            leBytes 1 ch.toNat⟩ ∧ (u.ch c).bus.uart = none))) ∧
      (Quiet s c → c.val < 48 → (s.ch c).bus.uart = some u0 → u0.chars.length ≤ 2048 → u0.frErr = false → u0.paErr = false →
        s.get (Fld.UART_CFG_DATA_BITS c) ≠ 9 → DoesSome (.uartItemEnd c) s (fun u => (u.ch c).bus.uart = none ∧
          Placed s u c ⟨u0.ts, 0x06, c.val, 0, 0, leBytes 2 u0.chars.length ++ leBytes 1 16 ++ leBytes 1 0 ++ leBytes 2 0xFFFF ++ leBytes 2 0 ++
            (u0.chars.map (leBytes 1)).flatten⟩)) ∧
      (Receives s c modeTimer → s.get (Fld.PIN_CFG_FUNC c n) = 1 → s.isSet (Fld.PIN_CFG_INVERT c n) = false →
        DoesSome (.digitalEdge c n lvl ts) s (fun u => Placed s u c ⟨min ts.toNat s.now, 0x08, c.val, 0, 0,
          leBytes 1 n ++ leBytes 1 3 ++ leBytes 1 (if lvl then 1 else 0) ++ leBytes 1 0 ++ leBytes 4 0⟩)) ∧
      (Receives s c modeTimer → s.get (Fld.PIN_CFG_FUNC c n) = 2 → s.get (Fld.PIN_CFG_FUNC c 0) ≠ 3 → s.isSet (Fld.PIN_CFG_INVERT c n) = false →
        p = (s.ch c).bus.pins[n] → DoesSome (.captureEdge c n true ts) s (fun u => (u.ch c).bus.pins[n].rises = p.rises + 1 ∧
          (u.ch c).bus.pins[n].lastNs = min ts.toNat s.now ∧ (u.ch c).bus.pins[n].lastQ = some (qclk (min ts.toNat s.now)) ∧
          (u.ch c).bus.pins[n].level = true ∧ ∀ k : Fin 4, k ≠ n → (u.ch c).bus.pins[k] = (s.ch c).bus.pins[k])) ∧
      (Receives s c modeTimer → s.get (Fld.PIN_CFG_FUNC c n) = 4 → p = (s.ch c).bus.pins[n] →
        (p.pwm = true → p.high < p.period → DoesSome (.pwmPeriod c n) s (fun u => (u.ch c).bus.pins[n].pwm = false ∧
          u.out = s.out ++ [.pin c n (s.isSet (Fld.PIN_CFG_INVERT c n))])) ∧
        (p.pwm = false → DoesSome (.pwmPeriod c n) s (fun u => (u.ch c).bus.pins[n].period = s.get (Fld.PIN_CFG_PERIOD c n) ∧
          (u.ch c).bus.pins[n].high = s.get (Fld.PIN_CFG_HIGH c n))))) ∧
  (∀ (s : State) (c : Fin 56) (e : ExecOrder) (bs b : List Byte) (rest : List TxEnt) (addr : BitVec 7) (left : Half) (x : Nat)
      (ch : BitVec 9) (ts : Word) (fr pa : Bool),
      (c.val < 48 → engineOf s c = engOn → (modeOf s c = modeCan ∧ s.isSet (Fld.CAN_CFG_RESTRICTED c) = false) ∨ modeOf s c = modeUart ∨
          (modeOf s c = modeLin ∧ s.get (Fld.LIN_CFG_ROLE c) ≠ 1) → s.frozen c = false → (s.ch c).bus.txWait = [] →
        (s.ch c).fifos.tx = .item b true :: rest → (∀ y ∈ rest, ∀ z, y ≠ .item z true ∧ ∀ k, y ≠ .marker k) →
        (s.sq c).exec = some e → e.result = none →
        DoesSome (.txItemSent c) s (fun u => (u.ch c).fifos.tx = rest ∧ Resolved u c e St.ok 0 ∧
          u.out = s.out ++ (if modeOf s c = modeLin then
              [.linBreak c 13, .busTx c ([0x55] ++ leBytes 1 (linPid (leNat ((b.drop 4).take 4))) ++ linResponse b)]
            else if modeOf s c = modeUart then [.busTx c ((b.drop 16).take (txLen b))] else [.busTx c b]) ∧
          u.get (Fld.STATS_CNT_COUNT c statTxOk) = (s.get (Fld.STATS_CNT_COUNT c statTxOk) + 1) % 2 ^ 64)) ∧
      (c.val < 48 → modeOf s c = modeUart → (s.sq c).exec = some e → e.order.op = oExchange → e.loaded = true → e.result = none → fr || pa →
        DoesSome (.uartCharacter c ch ts fr pa) s (fun u =>
          (u.sq c).exec = some { e with loaded := false, result := some (St.busError, min 0xFFFF (areaTotal e - (s.ch c).bus.exRx.length)) })) ∧
      (e.result = none → e.order.sk = false → e.order.op = oExchange → e.order.word2 < 2 ^ 63 → bs.length = e.order.count → (s.ch c).bus.later = [] →
        (inTransferOf s c modeSpi = some e → DoesSome (.spiTransferDone c bs) s (fun u => Resolved u c e St.ok 0 ∧
          u.dramRead e.order.word2 e.order.count = bs)) ∧
        (inTransferOf s c modeI2c = some e → (s.ch c).fifos.rx = [] → DoesSome (.i2cTransferDone c addr bs) s (fun u => Resolved u c e St.ok 0 ∧
          u.dramRead e.order.word2 e.order.count = bs))) ∧
      (inTransferOf s c modeI2c = some e → e.result = none → e.order.op ≠ oReceive → left.toNat < 0xFFFF → (s.ch c).bus.later = [] →
        DoesSome (.i2cStretchTimeout c left) s (fun u => Resolved u c e St.busError left.toNat ∧ u.isSet (Fld.BE_EVT_PROTO_ERR c) = true) ∧
        DoesSome (.i2cArbLost c left) s (fun u => Resolved u c e St.busError left.toNat ∧ u.isSet (Fld.BE_EVT_ARB_LOST c) = true) ∧
        DoesSome (.i2cNack c true addr left) s (fun u => Resolved u c e St.noPartner left.toNat ∧ u.isSet (Fld.BE_EVT_NO_RESPONSE c) = true) ∧
        DoesSome (.i2cNack c false addr left) s (fun u => Resolved u c e St.busError left.toNat)) ∧
      (inTransferOf s c modeI2c = some e → e.order.op = oTransmit → e.result = none → (s.ch c).bus.later = [] → x < 64 →
        s.get (Fld.PT_ENTRY_STATE c x) = partnerPresent → s.get (Fld.PT_ENTRY_KIND c x) = 0x07 → s.get (Fld.PT_ENTRY_KEY c x) = addr.toNat →
        (∀ y, y < x → s.get (Fld.PT_ENTRY_STATE c y) = partnerFree) → DoesSome (.i2cTransferDone c addr bs) s (fun u =>
          Resolved u c e St.ok 0 ∧ u.get (Fld.PT_ENTRY1_LAST_TICK c x) = s.tick % 2 ^ 48)))

/-- R172, R176, R178, R190, R226, R425: the CONTROL orders BUS_ON_LISTEN, BUS_ON, BUS_OFF, SET_MODE, CLEAR_PARTNERS, PARTNER_SCAN, CLEAR_COUNTERS and SET_CFG, and
an undefined code, due and fetched, with neither PS nor SU. The engine turns on and off, MODE changes with the engine OFF,
the partner table and the counters are cleared, a configuration register takes a value that its checks accept; the order
then passes. An undefined code ends the route with REJECTED_STATE, and so does a scan in any mode but I2C. R191, R226: the SENSE orders for counters, engine status, partner table and engine configuration, and an undefined code, due and
fetched, with neither PS nor SU and a buffer in device DRAM. The block is written from its first byte; a buffer longer than the
block leaves the rest and gives the residual; an undefined code ends the route with REJECTED_STATE.
The model's choices it rests on: log entries 35, 38, 114, 140. -/
def Obligations.ControlAndSense : Prop :=
  (∀ (s : State) (c : Fin 56) (i code : Nat) (o : Order) (acks : BitVec 128) (v : Nat), DueAt s c i o → Plain o → (s.sq c).chainBuf = [] →
      o.op = oControl → code = bf o.param 0 16 →
      (code = 1 → c.val < 48 → modeOf s c = modeCan → engineOf s c = engOff → DoesSome (.busOnListen c) s (fun u =>
        Passes u c i (nextStatic i 0 o) St.ok 0 ∧ engineOf u c = engListen)) ∧
      (code = 2 → c.val < 48 → modeOf s c = modeUart → engineOf s c = engOff → DoesSome (.busOn c) s (fun u => Passes u c i (nextStatic i 0 o) St.ok 0 ∧ engineOf u c = engOn)) ∧
      (code = 2 → c.val < 48 → modeOf s c = modeCan → engineOf s c = engBusOff →
        DoesSome (.busOn c) s (fun u => Passes u c i (nextStatic i 0 o) St.ok 0 ∧ engineOf u c = engRecovering)) ∧
      (code = 2 → c.val < 48 → modeOf s c = modeNone → DoesSome (.busOn c) s (fun u => Ended u c St.rejectedState i 0)) ∧
      (48 ≤ c.val → modeOf s c ≠ modeNone →
        (code = 1 → DoesSome (.busOnListen c) s (fun u => Passes u c i (nextStatic i 0 o) St.ok 0 ∧ engineOf u c = engListen)) ∧
        (code = 2 → DoesSome (.busOn c) s (fun u => Passes u c i (nextStatic i 0 o) St.ok 0 ∧ engineOf u c = engOn)) ∧
        (code = 3 → DoesSome (.busOff c) s (fun u => Passes u c i (nextStatic i 0 o) St.ok 0 ∧ engineOf u c = engOff))) ∧
      (code = 3 → c.val < 48 → modeOf s c = modeCan ∨ modeOf s c = modeLin ∨ modeOf s c = modeUart → DoesSome (.busOff c) s (fun u =>
        Passes u c i (nextStatic i 0 o) St.ok 0 ∧ engineOf u c = engOff)) ∧
      (code = 4 → c.val < 48 → modeOf s c = modeCan → engineOf s c = engOff → s.isSet (Fld.BE_MODE_SPI_CS c) = false → o.word2 = modeLin →
        DoesSome (.setMode c) s (fun u => Passes u c i (nextStatic i 0 o) St.ok 0 ∧ modeOf u c = modeLin ∧ seqPath u c = false)) ∧
      (code = 4 → c.val < 48 → modeOf s c = modeCan → engineOf s c = engOn → o.word2 = modeLin →
        DoesSome (.setMode c) s (fun u => Ended u c St.rejectedState i 0 ∧ modeOf u c = modeCan)) ∧
      (code = 6 → DoesSome (.clearPartners c) s (fun u => Passes u c i (nextStatic i 0 o) St.ok 0 ∧
        ∀ k, k < 64 → u.get (Fld.PT_ENTRY_STATE c k) = partnerFree)) ∧
      (code = 7 → c.val < 48 → modeOf s c = modeI2c → acks = 0 → (∀ k, k < 64 → s.get (Fld.PT_ENTRY_STATE c k) ≠ partnerPresent) →
        DoesSome (.partnerScan c acks) s (fun u => Passes u c i (nextStatic i 0 o) St.ok 0 ∧
          ∀ k, k < 64 → u.get (Fld.PT_ENTRY_STATE c k) = s.get (Fld.PT_ENTRY_STATE c k))) ∧
      (code = 7 → c.val < 48 → modeOf s c ≠ modeI2c → DoesSome (.partnerScan c acks) s (fun u => Ended u c St.rejectedState i 0)) ∧
      (code = 8 → DoesSome (.clearCounters c) s (fun u => Passes u c i (nextStatic i 0 o) St.ok 0 ∧
        ∀ k, k < 8 → u.get (Fld.STATS_CNT_COUNT c k) = 0)) ∧
      (code = 0x10D → c.val < 48 → v = o.word2 → rsvHit (chPage c 2 + 0x170) v = false → busCfgOk s c 0x170 v = true → modeOf s c ≠ modeTimer →
        DoesSome (.setCfg c) s (fun u => Passes u c i (nextStatic i 0 o) St.ok 0 ∧ u.get (Fld.PIN_CFG_FUNC c 3) = bf v 0 3)) ∧
      (code = 0x100 → c.val < 48 → rsvHit (chPage c 2 + 0x108) o.word2 = true → o.cn = false →
        DoesSome (.setCfg c) s (fun u => Ended u c 0x82 i 0)) ∧
      (controlDefined c code = false → DoesSome (.controlCodeUndefined c) s (fun u => Ended u c St.rejectedState i 0))) ∧
  (∀ (s : State) (c : Fin 56) (i code : Nat) (o : Order), DueAt s c i o → Plain o → (s.sq c).chainBuf = [] → o.op = oSense →
      code = bf o.param 0 16 → o.addr < 2 ^ 63 → 8 ≤ o.count → o.count % 8 = 0 →
      (code = 1 → o.count ≤ 64 → DoesSome (.senseCounters c) s (fun u => Passes u c i (nextStatic i 0 o) St.ok 0 ∧
        u.dramRead o.addr o.count = (countersBlock s c).take o.count)) ∧
      (code = 2 → o.count = 8 → DoesSome (.senseBeStatus c) s (fun u => Passes u c i (nextStatic i 0 o) St.ok 0 ∧
        u.dramRead o.addr 8 = leBytes 8 (regVal s (Reg.BE_STATUS c)))) ∧
      (code = 2 → 8 < o.count → DoesSome (.senseBeStatus c) s (fun u => Passes u c i (nextStatic i 0 o) St.okResidual (o.count - 8) ∧
        u.dramRead o.addr 8 = leBytes 8 (regVal s (Reg.BE_STATUS c)))) ∧
      (code = 3 → o.count ≤ 1024 → DoesSome (.sensePartnerTable c) s (fun u => Passes u c i (nextStatic i 0 o) St.ok 0 ∧
        u.dramRead o.addr o.count = (partnersBlock s c).take o.count)) ∧
      (code = 4 → c.val < 48 → o.count = 8 → DoesSome (.senseBusengConfig c) s (fun u => Passes u c i (nextStatic i 0 o) St.ok 0 ∧
        u.dramRead o.addr 8 = leBytes 8 (regVal s (chPage c 2 + 0x108)))) ∧
      (¬ (1 ≤ code ∧ code ≤ 4) → DoesSome (.senseCodeUndefined c) s (fun u => Ended u c St.rejectedState i o.count)))

/-- R206, R207: BARGE_SETL, BARGE_SETH, BARGE_ADD, BARGE_MOV, BARGE_SWAP, BARGE_RESTORE, BARGE_NOP, BARGE_STOP and BARGE_UNDEFINED. Each gives its address
register the value of its rule, leaves the others and device memory as they were and falls through; a STOP without a hand-over
waiting makes the mover IDLE; a word that is no instruction ends the program in ERROR with INVALID. R202, R203, R204, R205, R213, R214: BARGE_LOOP, BARGE_WAIT, BARGE_WAIT_END, BARGE_SIGNAL, BARGE_SIGNAL_FIRE, BARGE_FENCE and BARGE_FENCE_DONE. A LOOP counts
down and branches, falls through at 1 with its counter restored, and at 0; a WAIT holds the mover until its condition is
met; a SIGNAL sets the thread's event, the host's event, or both, with its tag; a FENCE holds the mover until it is acknowledged.
The model's choices it rests on: log entries 4, 54. -/
def Obligations.BargeProgram : Prop :=
  (∀ (s : State) (c : Fin 56) (w d r : Nat) (nx : Word), d = bf w 58 2 → r = bf w 56 2 →
      (BargeAt s c w nx →
        (bOp w = 6 → bf w 52 4 = 0 → DoesSome (.bargeSetl c) s (fun u => BargeFell s u c nx ∧ BaKept s u c d ∧
          u.get (Fld.BA_BA c d) = bf w 0 48 + bf w 48 1 * 2 ^ 63)) ∧
        (bOp w = 6 → bf w 52 4 = 1 → s.get (Fld.BA_BA c d) < 2 ^ 64 → DoesSome (.bargeSeth c) s (fun u => BargeFell s u c nx ∧ BaKept s u c d ∧
          u.get (Fld.BA_BA c d) = s.get (Fld.BA_BA c d) % 2 ^ 48 + bf w 0 15 * 2 ^ 48 + bf (s.get (Fld.BA_BA c d)) 63 1 * 2 ^ 63)) ∧
        (bOp w = 6 → bf w 52 4 = 2 → s.get (Fld.BA_BA c d) < 2 ^ 64 → DoesSome (.bargeAdd c) s (fun u => BargeFell s u c nx ∧ BaKept s u c d ∧
          bf (u.get (Fld.BA_BA c d)) 63 1 = bf (s.get (Fld.BA_BA c d)) 63 1 ∧ (u.get (Fld.BA_BA c d) : Int) % 2 ^ 63 =
            ((s.get (Fld.BA_BA c d) : Int) + (BitVec.ofNat 48 (bf w 0 48)).toInt) % 2 ^ 63)) ∧
        (bOp w = 6 → bf w 52 4 = 3 → DoesSome (.bargeMov c) s (fun u => BargeFell s u c nx ∧ BaKept s u c d ∧
          u.get (Fld.BA_BA c d) = s.get (Fld.BA_BA c r) % 2 ^ 64)) ∧
        (bOp w = 6 → bf w 52 4 = 4 → DoesSome (.bargeSwap c) s (fun u => BargeFell s u c nx ∧
          (∀ i, i < 4 → i ≠ d → i ≠ r → u.get (Fld.BA_BA c i) = s.get (Fld.BA_BA c i)) ∧
          u.get (Fld.BA_BA c d) = s.get (Fld.BA_BA c r) % 2 ^ 64 ∧ u.get (Fld.BA_BA c r) = s.get (Fld.BA_BA c d) % 2 ^ 64)) ∧
        (bOp w = 6 → bf w 52 4 = 5 → DoesSome (.bargeRestore c) s (fun u => BargeFell s u c nx ∧ BaKept s u c d ∧
          u.get (Fld.BA_BA c d) = s.get (Fld.BA_INIT_BA c d) % 2 ^ 64)) ∧
        (bOp w = 7 → DoesSome (.bargeNop c) s (fun u => BargeFell s u c nx ∧ ∀ i, i < 4 → u.get (Fld.BA_BA c i) = s.get (Fld.BA_BA c i))) ∧
        (bOp w = 15 → s.isSet (Fld.BM_CTRL_ARM c) = false → DoesSome (.bargeStop c) s (fun u => bmState u c = bmIdle ∧ u.dram = s.dram ∧
          (u.barge c).cur = none ∧ u.get (Fld.BM_STATUS_PC c) = (s.barge c).npc % 2 ^ 16))) ∧
      (bmReady s c = some w → bargeValid w = false → DoesSome (.bargeUndefined c) s (fun u => bmState u c = bmError ∧
        u.get (Fld.BM_ERR_CODE c) = barInvalid ∧ u.get (Fld.BM_ERR_PC c) = (s.barge c).npc % 2 ^ 16 ∧ u.get (Fld.BM_ERRINS_WORD c) = w % 2 ^ 64 ∧
        u.isSet (Fld.BM_EVT_ERROR c) = true ∧ u.dram = s.dram))) ∧
  (∀ (s : State) (c : Fin 56) (w : Nat) (nx x : Word) (f i : Fld),
      (BargeAt s c w nx → bOp w = 2 → f = (if bit w 59 then Fld.CNT_CNT1 c else Fld.CNT_CNT0 c) →
        i = (if bit w 59 then Fld.CNT_INIT_CNT1 c else Fld.CNT_INIT_CNT0 c) →
        (s.get f = 0 → DoesSome (.bargeLoop c) s (fun u => BargeFell s u c nx ∧ u.get f = 0)) ∧
        (s.get f = 1 → DoesSome (.bargeLoop c) s (fun u => BargeFell s u c nx ∧ u.get f = s.get i % 2 ^ 32)) ∧
        (1 < s.get f → s.get f < 2 ^ 32 → fetchWord s c (bf w 0 16) = some x → DoesSome (.bargeLoop c) s (fun u => u.get f = s.get f - 1 ∧
          (u.barge c).npc = bf w 0 16 ∧ (u.barge c).cur = some x))) ∧
      (BargeAt s c w nx → bOp w = 3 →
        (bf w 56 4 = 0 → DoesSome (.bargeWait c) s (fun u => bmState u c = bmWaiting ∧ (u.barge c).wait = some (.tick (bf w 0 32)))) ∧
        (bf w 56 4 = 1 → DoesSome (.bargeWait c) s (fun u => bmState u c = bmWaiting ∧ (u.barge c).wait = some .lock)) ∧
        (bf w 56 4 = 2 → DoesSome (.bargeWait c) s (fun u => bmState u c = bmWaiting ∧ (u.barge c).wait = some (.time (waitDue s.now (bf w 0 32))))) ∧
        (bf w 56 4 = 3 → s.isSet (Fld.BM_STATUS_KICK c) = false → DoesSome (.bargeWait c) s (fun u => bmState u c = bmWaiting ∧ (u.barge c).wait = some .kick)) ∧
        (bf w 56 4 = 3 → s.isSet (Fld.BM_STATUS_KICK c) = true → DoesSome (.bargeWait c) s (fun u => BargeFell s u c nx ∧
          u.isSet (Fld.BM_STATUS_KICK c) = false))) ∧
      (∀ k, (s.barge c).wait = some k → (s.barge c).ahead = some nx →
        ((s.barge c).met = true → (∀ t, k ≠ .time t) → k ≠ .kick → DoesSome (.bargeWaitEnd c) s (fun u => bmState u c = bmRun ∧ (u.barge c).wait = none ∧
          (u.barge c).cur = some nx ∧ u.now = s.now)) ∧
        (∀ t, k = .time t → t < 2 ^ 64 → s.now < 2 ^ 64 → ((t : Int) - s.now).natAbs < 2 ^ 63 → s.canReach t = true → DoesSome (.bargeWaitEnd c) s (fun u => bmState u c = bmRun ∧ (u.barge c).wait = none ∧ u.now = max s.now t))) ∧
      (BargeAt s c w nx → bOp w = 4 → DoesSome (.bargeSignal c) s (fun u => (u.barge c).signal = true ∧ u.dram = s.dram ∧
        u.get (Fld.BM_STATUS_PC c) = (s.barge c).npc % 2 ^ 16)) ∧
      ((s.barge c).signal = true → (s.barge c).cur = some x → (s.barge c).ahead = some nx → (s.barge c).tickHo = false → (s.barge c).abort = false →
        DoesSome (.bargeSignalFire c) s (fun u => (u.barge c).signal = false ∧ (u.barge c).cur = some nx ∧
          u.get (Fld.BM_STATUS_LASTSIG c) = bf x.toNat 16 16 ∧
          (bf x.toNat 58 2 ≠ 0 → u.isSet (Fld.BM_EVT_SIGNAL c) = true) ∧
          (bf x.toNat 58 2 ≠ 1 → (u.th c ⟨bf x.toNat 0 3, Nat.mod_lt _ (by decide)⟩).evt.getLsbD 4 = true))) ∧
      (BargeAt s c w nx → bOp w = 5 → (s.barge c).hostAt = none → DoesSome (.bargeFence c) s (fun u => bmState u c = bmFencing ∧
        (u.barge c).fence = true ∧ u.out = s.out)) ∧
      ((s.barge c).fence = true → (s.barge c).cur = some x → (s.barge c).ahead = some nx →
        ((s.barge c).hostAt = none → DoesSome (.bargeFenceDone c true) s (fun u => bmState u c = bmRun ∧ (u.barge c).fence = false ∧ (u.barge c).cur = some nx)) ∧
        ((s.barge c).hostAt.isSome = true → bf x.toNat 58 2 ≠ 1 → s.hostOk = true → DoesSome (.bargeFenceDone c false) s (fun u => bmState u c = bmError ∧
          u.get (Fld.BM_ERR_CODE c) = barHost))))

/-- R199, R201, R208, R209, R210, R211, R212, R215: BARGE_MOVE, BARGE_MOVE_DONE, BARGE_HOST_TIMEOUT and the register commands BM_ARM, BM_DISARM,
BM_SHADOW_WRITE, BM_KICK, BM_ABORT, BM_CLEAR and HANDOVER. A MOVE of device DRAM copies its bytes and advances the registers
it names; one from host space asks for its bytes, while the host can be reached; one that is misaligned or out of range ends in ERROR. A hand-over copies the shadow set and starts the program.
The model's choices it rests on: log entry 54. -/
def Obligations.BargeMovesAndControl : Prop :=
  ∀ (s : State) (c : Fin 56) (w si di : Nat) (nx x v : Word) (src dst : Word) (len n ask : Nat),
    (BargeAt s c w nx → bOp w = 1 → src = BitVec.ofNat 64 (s.get (Fld.BA_BA c (bf w 58 2))) → dst = BitVec.ofNat 64 (s.get (Fld.BA_BA c (bf w 56 2))) →
      (src.toNat % 8 ≠ 0 ∨ dst.toNat % 8 ≠ 0 ∨ bf w 0 24 % 8 ≠ 0 → DoesSome (.bargeMove c) s (fun u => bmState u c = bmError ∧
        u.get (Fld.BM_ERR_CODE c) = barAlign ∧ u.get (Fld.BM_ERR_RESIDUAL c) = bf w 0 24)) ∧
      (src.toNat % 8 = 0 → dst.toNat % 8 = 0 → bf w 0 24 % 8 = 0 → bargeArea s c src (bf w 0 24) false = none → DoesSome (.bargeMove c) s (fun u =>
        bmState u c = bmError ∧ u.get (Fld.BM_ERR_CODE c) = barRange)) ∧
      (src.toNat % 8 = 0 → dst.toNat % 8 = 0 → bf w 0 24 % 8 = 0 → src.toNat + bf w 0 24 ≤ s.devRegion → dst.toNat + bf w 0 24 ≤ s.devRegion →
        DoesSome (.bargeMove c) s (fun u => (u.barge c).move = some { src := src, dst := dst, len := bf w 0 24, asked := 0 } ∧ u.dram = s.dram)) ∧
      (src.toNat % 8 = 0 → dst.toNat % 8 = 0 → bf w 0 24 % 8 = 0 → src.getLsbD 63 = true → (bargeArea s c src (bf w 0 24) false).isSome = true →
        (bargeArea s c dst (bf w 0 24) true).isSome = true → 0 < bf w 0 24 → bf w 0 24 ≤ 512 → src.toNat % 4096 + bf w 0 24 ≤ 4096 →
        DoesSome (.bargeMove c) s (fun u => (u.barge c).move = some { src := src, dst := dst, len := bf w 0 24, asked := (if s.hostOk then bf w 0 24 else 0) } ∧
          u.out = s.out ++ if s.hostOk then [.hostRead (src.toNat % 2 ^ 63) (bf w 0 24)] else []))) ∧
    ((s.barge c).move = some { src := src, dst := dst, len := len, asked := ask } → (s.barge c).cur = some x → (s.barge c).ahead = some nx → (s.barge c).tickHo = false →
      (s.barge c).abort = false → 0 < len → len % 8 = 0 → src.toNat + len ≤ s.devRegion → dst.toNat + len ≤ s.devRegion → s.poison = [] →
      src.toNat + len ≤ dst.toNat ∨ dst.toNat + len ≤ src.toNat → si = bf x.toNat 58 2 → di = bf x.toNat 56 2 →
      DoesSome (.bargeMoveDone c [] ⟨true, none⟩) s (fun u => u.dramRead dst.toNat len = s.dramRead src.toNat len ∧ (u.barge c).move = none ∧
        (∀ a, a < dst.toNat ∨ dst.toNat + len ≤ a → u.dramByte a = s.dramByte a) ∧ (u.barge c).cur = some nx ∧
        u.get (Fld.BM_BYTES_BYTES c) = (s.get (Fld.BM_BYTES_BYTES c) + len) % 2 ^ 64 ∧
        (si ≠ di → u.get (Fld.BA_BA c si) = (if bit x.toNat 55 then baInc (s.get (Fld.BA_BA c si)) len % 2 ^ 64 else s.get (Fld.BA_BA c si)) ∧
          u.get (Fld.BA_BA c di) = (if bit x.toNat 54 then baInc (s.get (Fld.BA_BA c di)) len % 2 ^ 64 else s.get (Fld.BA_BA c di))))) ∧
    (s.hostOk = false → (s.barge c).move = none → (s.barge c).cur = some x → (s.barge c).fence = true → (s.barge c).hostAt.isSome = true →
      bf x.toNat 58 2 ≠ 1 → DoesSome (.bargeHostTimeout c [] n) s (fun u => bmState u c = bmError ∧ u.get (Fld.BM_ERR_CODE c) = barHost)) ∧
    (Reaches s (Reg.BM_CTRL c) (withField v.toNat (Fld.BM_CTRL_ARM c) 1) → bit (withField v.toNat (Fld.BM_CTRL_ARM c) 1) 0 = true →
      s.isSet (Fld.BM_CTRL_ARM c) = false →
      (chAccepts s c = true → DoesSome (.bmArm c v) s (fun u => u.isSet (Fld.BM_CTRL_ARM c) = true)) ∧
      (chAccepts s c = false → DoesSome (.bmArm c v) s (fun u => u.isSet (Fld.BM_CTRL_ARM c) = false ∧ u.isSet (Fld.BM_EVT_ARM_REFUSED c) = true))) ∧
    (Reaches s (Reg.BM_CTRL c) (withField v.toNat (Fld.BM_CTRL_DISARM c) 1) → bit (withField v.toNat (Fld.BM_CTRL_DISARM c) 1) 1 = true →
      s.isSet (Fld.BM_CTRL_ARM c) = true → DoesSome (.bmDisarm c v) s (fun u => u.isSet (Fld.BM_CTRL_ARM c) = false ∨
        u.isSet (Fld.BM_EVT_SHADOW_BUSY c) = true)) ∧
    (Reaches s (Reg.SH_PROG c) v.toNat →
      (s.isSet (Fld.BM_CTRL_ARM c) = false → Does (.bmShadowWrite c 0 v) s ((Touched s (Reg.SH_PROG c)).put (Fld.SH_PROG_PROG c) v.toNat)) ∧
      (s.isSet (Fld.BM_CTRL_ARM c) = true → Does (.bmShadowWrite c 0 v) s (((Touched s (Reg.SH_PROG c)).raise (Fld.BM_EVT_SHADOW_BUSY c)).bumpSat
        (Fld.BM_COUNTS_SHADOW_REFUSED c) 1))) ∧
    (Reaches s (Reg.BM_CMD c) 1 → s.isSet (Fld.BM_STATUS_KICK c) = false →
      Does (.bmKick c) s ((Touched s (Reg.BM_CMD c)).raise (Fld.BM_STATUS_KICK c))) ∧
    (Reaches s (Reg.BM_CMD c) 2 → bmState s c = bmRun → (s.barge c).ended = false → (s.barge c).move = none → (s.barge c).signal = false →
      s.isSet (Fld.BM_CTRL_ARM c) = false → DoesSome (.bmAbort c) s (fun u => bmState u c = bmIdle ∧ (u.barge c).cur = none)) ∧
    (Reaches s (Reg.BM_CMD c) 4 → bmState s c = bmError → Does (.bmClear c) s (bmSet (Touched s (Reg.BM_CMD c)) c bmIdle)) ∧
    (s.isSet (Fld.BM_CTRL_ARM c) = true → s.isSet (Fld.BM_CTRL_HANDOVER_TICK c) = false → bmState s c = bmIdle →
      fetchWord (s.put (Fld.ACT_PROG_PROG c) (s.get (Fld.SH_PROG_PROG c))) c 0 = some x → DoesSome (.handover c) s (fun u =>
        bmState u c = bmRun ∧ u.isSet (Fld.BM_CTRL_ARM c) = false ∧ (u.barge c).npc = 0 ∧ (u.barge c).cur = some x ∧
        u.isSet (Fld.BM_EVT_HANDOVER c) = true ∧ ∀ i, i < 4 → u.get (Fld.BA_BA c i) = s.get (Fld.SH_BA_BA c i) % 2 ^ 64))

/-- R222, R223, R224: ETH_FILTER_DECISION, ETH_PIECE_COMMIT and ETH_FRAME_END. The filters, as they stood when a frame's SFD arrived (R219), decide on its first bytes; a frame that is to be
kept begins with its timestamp, one that is dropped is counted FILTERED and only its errors are looked at. A full piece of a longer frame is committed with MORE, and with ERR after a
code error where ERR_KEEP keeps it; bytes that show no longer frame are held;
the end of a good frame commits its last piece and counts it; a bad one that ERR_KEEP does not keep is counted only. R219, R220, R225, R228, R229, R230: ETH_FRAME_SENT, LINK_UP, LINK_DOWN, PHY_INT, MDIO_GO, MDIO_DONE, PTP_SYNC_SEND, PTP_PDELAY_SEND, PTP_MESSAGE and
TEL_DATAGRAM_SEND of a stream channel. gPTP messages leave before the TX FIFO's items and these before telemetry, each frame with its FCS; a
Sync is followed by its Follow_Up with its departure, and goes with an announcement of the clock class. A channel whose lane is retired gets no link (R348, R423). The link's state, an MDIO command and its end, and a measured delay are registered with their events.
The model's choices it rests on: log entries 56, 57, 82, 117, 118, 141, 146. -/
def Obligations.StreamPorts : Prop :=
  (∀ (s : State) (c : Fin 56) (sfd : Word) (h data all : List Byte) (r : EthRx) (f : State) (ce err : Bool), 48 ≤ c.val →
      chState s c ≠ chFenced → (∀ p, (s.ch c).stopping = some p → p.fenced = false) → (s.sq c).exec = none →
      ((s.eth c).rx = none → s.isSet (Fld.ETH_STATUS_LINK c) = true → modeOf s c = modeEth → engineOf s c = engOn → f = captureAt s c sfd.toNat →
        (∀ i, i < 8 → f.get (Fld.ETH_FILTER2_ACTION c i) = 0) →
        (f.get (Fld.FILT_CTRL_DEFAULT c) = 0 → Does (.ethFilterDecision c sfd h) s (s.modEth c (fun e => { e with
          rx := some ⟨min sfd.toNat s.now - f.get (Fld.ETH_LAT_RX_LAT_NS c), 1, 0, false, false, s.get (Fld.SNAP_CFG_SNAP0 c), [], 0,
            decide (0 < tagCount h), etherType h == 0x88F7, [], false⟩ }))) ∧
        (f.get (Fld.FILT_CTRL_DEFAULT c) ≠ 0 → DoesSome (.ethFilterDecision c sfd h) s (fun u =>
          u.get (Fld.STATS_CNT_COUNT c statFiltered) = (s.get (Fld.STATS_CNT_COUNT c statFiltered) + 1) % 2 ^ 64 ∧
          (u.eth c).rx.map EthRx.action = some 2 ∧ (u.ch c).chamber = (s.ch c).chamber ∧ (u.ch c).fifos = (s.ch c).fifos))) ∧
      ((s.eth c).rx = some r → all = r.rest ++ data → err = (r.err || ce) →
        (8192 + ethStrip s c < all.length → r.cut + 8192 < r.snap → ethKeeps s c r = true → err = false ∨ s.isSet (Fld.ETH_CFG_ERR_KEEP c) = true →
          DoesSome (.ethPieceCommit c ⟨data, ce⟩) s (fun u =>
            (u.ch c).chamber = ((s.ch c).chamber.commit (chUsable s c)
              ⟨r.ts, if r.cut = 0 then 0x10 else 0x11, c.val, 0, ethFlags r + 1 + (if err then 8 else 0), all.take 8192⟩).2 ∧
            (u.eth c).rx.map EthRx.cut = some (r.cut + 8192) ∧ (u.eth c).rx.map EthRx.rest = some (all.drop 8192))) ∧
        (r.action = 2 ∨ all.length ≤ 8192 + ethStrip s c ∨ r.snap ≤ r.cut + 8192 ∨ err = true ∧ s.isSet (Fld.ETH_CFG_ERR_KEEP c) = false →
          Does (.ethPieceCommit c ⟨data, ce⟩) s (s.modEth c (fun e => { e with rx := some { r with rest := all, err := err } })))) ∧
      (all = r.rest ++ data → (s.eth c).rx = some r → (s.eth c).held = [] → r.cut = 0 → r.action = 1 → r.track = false → r.err = false → 64 ≤ all.length →
        all.length ≤ r.snap → all.length ≤ 8192 → s.isSet (Fld.ETH_CFG_CAP_EN c) = true → s.isSet (Fld.ETH_CFG_STRIP_FCS c) = false →
        DoesSome (.ethFrameEnd c data false false) s (fun u =>
          (u.eth c).rx = none ∧ (u.ch c).chamber = ((s.ch c).chamber.commit (chUsable s c) ⟨r.ts, 0x10, c.val, 0, ethFlags r, all⟩).2 ∧
          u.get (Fld.STATS_CNT_COUNT c statItemsOk) = (s.get (Fld.STATS_CNT_COUNT c statItemsOk) + 1) % 2 ^ 64)) ∧
      (all = r.rest ++ data → (s.eth c).rx = some r → (s.eth c).held = [] → r.cut = 0 → 64 ≤ all.length → all.length ≤ 8192 + ethStrip s c →
        s.isSet (Fld.ETH_CFG_ERR_KEEP c) = false →
        DoesSome (.ethFrameEnd c data true false) s (fun u => (u.eth c).rx = none ∧ (u.ch c).chamber = (s.ch c).chamber ∧
          (u.ch c).fifos = (s.ch c).fifos ∧
          u.get (Fld.STATS_CNT_COUNT c statProto) = (s.get (Fld.STATS_CNT_COUNT c statProto) + 1) % 2 ^ 64))) ∧
  (∀ (s : State) (c : Fin 56) (speed : Fin 6) (v sfd : Word) (data : Half) (k ts : Nat) (rest : List (Nat × Nat))
      (b : List Byte) (d : Datagram) (q : List Datagram) (t2 t3 origin corr : Word) (t1 delay lat : Nat) (ratio : BitVec 32), 48 ≤ c.val →
      lat = (captureAt s c sfd.toNat).get (Fld.ETH_LAT_RX_LAT_NS c) →
      (ethTxOk s c = true →
        ((s.eth c).ptpQ = (k, ts) :: rest → k ≠ ptpAnnounce → DoesSome (.ethFrameSent ⟨c, sfd⟩) s (fun u =>
          u.out = s.out ++ [.ptpTx c ⟨k, s.get (Fld.PTP_CFG_DOMAIN c), s.get (Fld.STATION_MAC c), ts, 0, 0⟩] ∧
          (u.eth c).ptpQ = (if k = ptpSync then [(ptpFollow, min sfd.toNat s.now + s.get (Fld.ETH_LAT_TX_LAT_NS c))]
            else if k = ptpResp then [(ptpRespFollow, min sfd.toNat s.now + s.get (Fld.ETH_LAT_TX_LAT_NS c))] else []) ++ rest ∧
          (k = ptpPdelay → (u.eth c).ptpT1 = some (min sfd.toNat s.now + s.get (Fld.ETH_LAT_TX_LAT_NS c))))) ∧
        ((s.eth c).ptpQ = (ptpAnnounce, ts) :: rest → DoesSome (.ethFrameSent ⟨c, sfd⟩) s (fun u => (u.eth c).ptpQ = rest ∧ ∃ m : PtpOut,
          u.out = s.out ++ [.ptpTx c m] ∧ m.kind = ptpAnnounce ∧ m.clock = (if ptpPrimary s then 6 else 248) ∧
          (ptpPrimary s = false → m.source = 0xA0))) ∧
        ((s.eth c).ptpQ = [] → (s.ch c).fifos.tx = [.item b false] → (s.ch c).bus.txWait = [] → DoesSome (.ethFrameSent ⟨c, sfd⟩) s (fun u =>
          (u.ch c).fifos.tx = [] ∧ u.out = s.out ++ [.ethTx c (bsub b 16 (txLen b) ++ fcsBytes (bsub b 16 (txLen b)))] ∧
          u.get (Fld.STATS_CNT_COUNT c statTxOk) = (s.get (Fld.STATS_CNT_COUNT c statTxOk) + 1) % 2 ^ 64)) ∧
        ((s.eth c).ptpQ = [] → (s.ch c).fifos.tx = [] → (s.eth c).telQ = d :: q → s.isSet (Fld.TEL_CFG_EN c) = true → s.get (Fld.TEL_CFG_RATE_MBPS c) = 0 →
          DoesSome (.telDatagramSend c) s (fun u => (u.eth c).telQ = q ∧
            u.out = s.out ++ [.ethTx c (telFrame s c (s.eth c).ipId d.bytes ++ fcsBytes (telFrame s c (s.eth c).ipId d.bytes))] ∧
            (u.eth c).ipId = ((s.eth c).ipId + 1) % 65536))) ∧
      ((s.sq c).exec = none →
        (s.isSet (Fld.ETH_STATUS_LINK c) = false → SMap.get 0 s.portOut (c.val - 43) = 0 → DoesSome (.linkUp c speed) s (fun u => u.isSet (Fld.ETH_STATUS_LINK c) = true ∧
          u.get (Fld.ETH_STATUS_SPEED_ACT c) = speed ∧ u.isSet (Fld.ETH_EVT_LINK_UP c) = true)) ∧
        (SMap.get 0 s.portOut (c.val - 43) ≠ 0 → Does (.linkUp c speed) s s) ∧
        (s.isSet (Fld.ETH_STATUS_LINK c) = true → (s.eth c).rx = none → DoesSome (.linkDown c []) s (fun u => u.isSet (Fld.ETH_STATUS_LINK c) = false ∧
          u.get (Fld.ETH_STATUS_SPEED_ACT c) = 0 ∧ u.isSet (Fld.ETH_EVT_LINK_DOWN c) = true))) ∧
      Does (.phyInt c) s (busEvent (s.raise (Fld.ETH_EVT_PHY_INT c)) c) ∧
      (Reaches s (Reg.MDIO_CMD c) (withField v.toNat (Fld.MDIO_CMD_GO c) 1) → bit (withField v.toNat (Fld.MDIO_CMD_GO c) 1) 44 = true →
        s.isSet (Fld.MDIO_CMD_BUSY c) = false → DoesSome (.mdioGo c v) s (fun u => u.isSet (Fld.MDIO_CMD_BUSY c) = true ∧
          u.get (Fld.MDIO_CMD_DATA c) = bf (withField v.toNat (Fld.MDIO_CMD_GO c) 1) 0 16 ∧
          u.out = s.out ++ [.mdio c (BitVec.ofNat 64 (withField v.toNat (Fld.MDIO_CMD_GO c) 1 % 2 ^ 45))])) ∧
      (s.isSet (Fld.MDIO_CMD_BUSY c) = true → DoesSome (.mdioDone c data) s (fun u => u.isSet (Fld.MDIO_CMD_BUSY c) = false ∧
        u.isSet (Fld.MDIO_CMD_GO c) = false ∧ u.isSet (Fld.ETH_EVT_MDIO_DONE c) = true ∧
        (s.isSet (Fld.MDIO_CMD_READ c) = true → u.get (Fld.MDIO_CMD_DATA c) = data.toNat))) ∧
      (s.get (Fld.PTP_CFG_ROLE c) = 2 → Does (.ptpSyncSend c) s (s.modEth c (fun e => { e with ptpQ := e.ptpQ ++ [(ptpSync, 0), (ptpAnnounce, 0)] }))) ∧
      (s.get (Fld.PTP_CFG_ROLE c) ≠ 0 → Does (.ptpPdelaySend c) s (s.modEth c (fun e => { e with ptpQ := e.ptpQ ++ [(ptpPdelay, 0)] }))) ∧
      (s.get (Fld.PTP_CFG_ROLE c) ≠ 0 → Does (.ptpMessage c (.pdelayReq sfd)) s (s.modEth c (fun e => { e with
        ptpQ := e.ptpQ ++ [(ptpResp, min sfd.toNat s.now - lat)] }))) ∧
      (s.get (Fld.PTP_CFG_ROLE c) ≠ 0 → (s.eth c).ptpT1 = some t1 →
        delay = ptpLink t1 (min sfd.toNat s.now - lat : Nat) t2.toNat t3.toNat ratio.toInt →
        DoesSome (.ptpMessage c (.pdelay sfd t2 t3 ratio)) s (fun u => (u.eth c).delay = some delay ∧ (u.eth c).ratio = ratio.toInt ∧
          (u.eth c).ptpT1 = none ∧ u.get (Fld.ETH_STATUS_PTP c) =
            (if delay ≤ s.get (Fld.PTP_CFG_PDELAY_MAX_NS c) ∧ ratio.toInt.natAbs ≤ 200000 then 2 else 1))) ∧
      (s.get (Fld.PTP_CFG_ROLE c) = 1 → s.get (Fld.ETH_STATUS_PTP c) = 2 → s.get Fld.TB_CTRL_SRC_CHAN = c.val - 48 →
        Does (.ptpMessage c (.syncPair sfd origin corr)) s (servoMeasure s 2
          (((min sfd.toNat s.now - lat : Nat) : Int) - origin.toNat - corr.toInt - (s.eth c).delay.getD 0))))

/-- R40, R237, R239, R240, R242, R244: DRAIN_SLOT, DRAIN_END, BASIN_CHAMBER_DRAIN and CREDIT_RELEASE. At its slot a channel's oldest FULL half
begins to drain with the contiguous credits it needs, all or none: a refusal is counted and leaves the half FULL, an empty half
needs none; while a record of the half is still being copied the drain waits for it. At the drain's end the half is EMPTY, or fills when the chamber was in WEIR, and its credits hold its bytes. The
credit at the head of the pound's ring is freed once its bytes are in DRAM, which may be before its drain ends. R8, R243, R246, R247, R248: COURSE_COMPLETE, LOST_DRAIN, RING_CONFIG_WRITE, POUND_STATUS_READ and MON_MIN_READ. A complete course's header goes into
the ring with the header before it named, and its records go to the streams. A drain lost in a disable or a fence empties the
half without a credit. A ring that is placed anew is empty. A read of POUND_STATUS or of a monitor restarts its minimum.
The model's choices it rests on: log entries 4, 7, 13, 60, 61, 63, 143. -/
def Obligations.PoundAndRing : Prop :=
  (∀ (s : State) (n : Fin 448) (w : Word) (c : Fin 56) (k p off : Nat) (h : ChHalf) (x : Credit) (rest : List Credit) (e : Extent),
      (s.tb.active[n.val]? = some w → lsChan w = c.val → n.val ∉ s.tb.served → chLocks s c = true → lsSub w < (s.ch c).chamber.swaps →
        slotBefore s n w = false → s.canReach (s.tb.edgeNs + lsOff w) = true → (s.ch c).chamber.oldestFull = some k → (s.ch c).chamber.draining = none →
        h = (s.ch c).chamber.half k →
        ((s.ch c).chamber.copies.any (fun x => x.half == k) = true → DoesSome (.drainSlot n) s (fun u =>
          u.credits = s.credits ∧ (u.ch c).chamber = { (s.ch c).chamber with due := true } ∧ u.tb.served = n.val :: s.tb.served)) ∧
        ((s.ch c).chamber.copies.any (fun x => x.half == k) = false → h.recs = [] → DoesSome (.drainSlot n) s (fun u => u.credits = s.credits ∧ u.courses = s.courses ∧
          (u.ch c).chamber = { (s.ch c).chamber with due := false }.modHalf k (fun h => { h with st := .draining }))) ∧
        ((s.ch c).chamber.copies.any (fun x => x.half == k) = false → h.recs ≠ [] → poundGrant s c (creditsFor h) = some p → DoesSome (.drainSlot n) s (fun u =>
          u.credits = s.credits ++ (List.range (creditsFor h)).map (fun i =>
            (⟨(s.nextCredit + i) % 768, c, decide (creditsFor h - p ≤ i), [], false, s.nextExt, i⟩ : Credit)) ∧
          u.nextCredit = (s.nextCredit + creditsFor h) % 768 ∧ u.tb.served = n.val :: s.tb.served ∧
          (u.ch c).chamber = { (s.ch c).chamber with due := false }.modHalf k (fun h => { h with st := .draining }))) ∧
        ((s.ch c).chamber.copies.any (fun x => x.half == k) = false → h.recs ≠ [] → poundGrant s c (creditsFor h) = none → DoesSome (.drainSlot n) s (fun u => u.credits = s.credits ∧
          u.isSet Fld.POUND_EVT_REFUSED = true ∧ u.isSet (Fld.CH_EVT_REFUSED c) = true ∧ u.tb.served = n.val :: s.tb.served ∧
          (u.ch c).chamber = { (s.ch c).chamber with due := false }.modHalf k (fun h => { h with refused := true })))) ∧
      ((s.ch c).chamber.draining = some k → ∃ t, Does (.drainEnd c) s (reseatCheck (stopCheck t c) c) ∧
        (t.ch c).chamber = drainEnd (s.ch c).chamber k c ∧ t.dram = s.dram ∧ t.courses = s.courses ∧
        t.get (Fld.CH_STATS0_DRAINS c) = (s.get (Fld.CH_STATS0_DRAINS c) + 1) % 2 ^ 32 ∧
        t.credits = s.credits.map (fun x => if x.chan = c.val ∧ !x.filled then
          { x with filled := true, data := bsub ((((s.ch c).chamber.half k).recs.map recBytes).flatten) (x.pos * 512) 512 } else x)) ∧
      (s.basin.oldestFull = some k → (s.basin.half k).recs ≠ [] →
        (quotaHeld s 0xFF + creditsFor (s.basin.half k) ≤ 16 → DoesSome .basinChamberDrain s (fun u =>
          u.basin = drainEnd s.basin k 0xFF ∧ u.credits.length = s.credits.length + creditsFor (s.basin.half k) ∧ u.chans = s.chans)) ∧
        (16 < quotaHeld s 0xFF + creditsFor (s.basin.half k) → DoesSome .basinChamberDrain s (fun u =>
          u.basin = s.basin.modHalf k (fun h => { h with refused := true }) ∧ u.credits = s.credits ∧ u.isSet Fld.POUND_EVT_REFUSED = true))) ∧
      (s.credits = x :: rest → unplaced s = none →
        ((s.courses.map (fun c => c.exts)).flatten).find? (fun e => e.num = x.ext) = some e → e.off = some off →
        Does .creditRelease s (poundStatus { s.dramWrite (ringBase s + off + 16 + x.pos * 512) (creditData s x) with credits := rest }))) ∧
  (∀ (s : State) (c : Course) (next : Course) (later : List Course) (prev off k : Nat) (hdr : List Byte) (n : Fin 56)
      (m : Fin 10) (p : Stopping) (v : Word),
      (s.courses = c :: next :: later → unplaced s = none → courseOwed s c.tick = false → basinDrained s c.tick = true →
        c.exts.any (fun e => e.off.isNone) = false → s.credits.any (fun k => c.exts.any (fun e => e.num = k.ext)) = false →
        prev = (if s.ringFirst then 2 ^ 64 - 1 else s.get Fld.RING_LAST_HDR_OFFSET) → hdr = courseHeader c c.late prev → ringPlace s hdr.length = some off → ∃ t d,
          exec .courseComplete s = .next (settle (orderlyCheck (placeSettle (strmsDecide (shareCourse t d))))) ∧
          t.courses = next :: later ∧ t.dones = s.dones ++ [d] ∧ d.tick = c.tick ∧ d.hdr = off ∧ d.exts = c.exts ∧
          t.dram = (s.dramWrite (ringBase s + off) hdr).dram ∧ t.get Fld.RING_LAST_TICK = c.tick % 2 ^ 48 ∧
          (c.late = true → t.isSet Fld.TB_EVENTS_COURSE_LATE = true)) ∧
      ((s.ch n).stopping = some p → 3 ≤ p.edges → (s.ch n).chamber.oldestFull = some k → ∃ t, Does (.lostDrain n) s (stopCheck t n) ∧
        (t.ch n).chamber = drainEnd (s.ch n).chamber k n ∧ t.credits = s.credits ∧ t.isSet (Fld.CH_EVT_LOST n) = true ∧
        t.isSet Fld.POUND_EVT_LOST_DRAIN = true) ∧
      (Reaches s Reg.RING_SIZE v.toNat → s.toll.orderly = false →
        ((∀ i : Fin 56, chConfigurable s i = true) → 64 ≤ bf v.toNat 0 16 →
          (s.get Fld.RING_BASE_ADDR + bf v.toNat 0 16) * 2 ^ 20 ≤ s.devRegion → DoesSome (.ringConfigWrite true v) s (fun u =>
            u.dones = [] ∧ u.get Fld.RING_HEAD_OFFSET = 0 ∧ u.get Fld.RING_TAIL_OFFSET = 0 ∧ u.get Fld.RING_OLDEST_TICK = 0 ∧
            u.get Fld.RING_LAST_TICK = 0 ∧ u.get Fld.RING_LAST_HDR_OFFSET = 0 ∧ u.get Fld.RING_SIZE_MIB = bf v.toNat 0 16 ∧
            u.get Fld.RING_BASE_ADDR = s.get Fld.RING_BASE_ADDR ∧ u.dram = s.dram)) ∧
        (chConfigurable s n = false ∨ bf v.toNat 0 16 < 64 ∨ s.devRegion < (s.get Fld.RING_BASE_ADDR + bf v.toNat 0 16) * 2 ^ 20 →
          Does (.ringConfigWrite true v) s (pageErr (Touched s Reg.RING_SIZE) Reg.RING_SIZE 1))) ∧
      (PageAt s Reg.POUND_STATUS → DoesSome .poundStatusRead s (fun u => u.out = s.out ++ [.readData (BitVec.ofNat 64 (regVal s Reg.POUND_STATUS)) false] ∧
        u.get Fld.POUND_STATUS_MIN_FREE = s.get Fld.POUND_STATUS_FREE % 2 ^ 10 ∧ u.credits = s.credits)) ∧
      (PageAt s (Reg.MON1 m) → DoesSome (.monMinRead m) s (fun u => u.get (Fld.MON1_MIN_MV m) = s.get (Fld.MON1_NOW_MV m) % 2 ^ 16 ∧
        u.get (Fld.MON1_NOW_MV m) = s.get (Fld.MON1_NOW_MV m) ∧ u.get (Fld.MON1_BELOW m) = s.get (Fld.MON1_BELOW m) ∧ u.devState = s.devState)))

/-- R251, R253, R256: SIG_RANGE_WRITE, SIG_HOST_PUB and SIGNAL_SLOT_READ. A range that fits the board, meets no other range and is not that of
an enabled channel is taken: the slots that leave it or join it are EMPTY in both copies, every other slot as it was. A host
publish into a slot of the host's enters the live copy alone with the present time and tick. A read of a slot's word 0 latches
its timestamp for word 1. -/
def Obligations.SignalBoard : Prop :=
  ∀ (s : State) (n : Fin 57) (v : Word) (b m ob om slot : Nat) (live : Bool) (i : BitVec 12) (g : Sig),
    (Reaches s (Reg.SIG_RANGE n) v.toNat → b = bf v.toNat 0 12 → m = bf v.toNat 12 13 → ob = s.get (Fld.SIG_RANGE_BASE n) →
      om = s.get (Fld.SIG_RANGE_COUNT n) →
      (b + m ≤ 4096 → (n.val < 56 → chConfigurable s n = true) → (∀ j, j < 57 → j ≠ n.val → m = 0 ∨ s.get (Fld.SIG_RANGE_COUNT j) = 0 ∨
          s.get (Fld.SIG_RANGE_BASE j) + s.get (Fld.SIG_RANGE_COUNT j) ≤ b ∨ b + m ≤ s.get (Fld.SIG_RANGE_BASE j)) →
        DoesSome (.sigRangeWrite n v) s (fun u => u.get (Fld.SIG_RANGE_BASE n) = b ∧ u.get (Fld.SIG_RANGE_COUNT n) = m ∧
          u.get (Fld.SIG_RANGE_STALE_TICKS n) = bf v.toNat 32 16 ∧
          (∀ k, ((ob ≤ k ∧ k < ob + om) ↔ (b ≤ k ∧ k < b + m)) → liveSlot u k = liveSlot s k ∧ viewSlot u k = viewSlot s k) ∧
          (∀ k, ¬ ((ob ≤ k ∧ k < ob + om) ↔ (b ≤ k ∧ k < b + m)) → liveSlot u k = Sig.empty ∧ viewSlot u k = Sig.empty))) ∧
      (4096 < b + m → Does (.sigRangeWrite n v) s (pageErr (Touched s (Reg.SIG_RANGE n)) (Reg.SIG_RANGE n) 1)) ∧
      (n.val < 56 → chConfigurable s n = false → Does (.sigRangeWrite n v) s (pageErr (Touched s (Reg.SIG_RANGE n)) (Reg.SIG_RANGE n) 1))) ∧
    (Reaches s Reg.SIG_HOST_PUB v.toNat → slot = bf v.toNat 32 12 →
      (slotOwner s slot = some 56 → 1 ≤ bf v.toNat 48 8 → bf v.toNat 48 8 ≤ 3 → DoesSome (.sigHostPub v) s (fun u =>
        liveSlot u slot = ⟨BitVec.ofNat 32 v.toNat, bf v.toNat 48 8, s.now, s.tick⟩ ∧ u.board.view = s.board.view ∧
        (∀ k, k ≠ slot → liveSlot u k = liveSlot s k))) ∧
      (slotOwner s slot ≠ some 56 ∨ bf v.toNat 48 8 = 0 ∨ 3 < bf v.toNat 48 8 →
        Does (.sigHostPub v) s ((Touched s Reg.SIG_HOST_PUB).raise Fld.SIG_EVT_HOST_REFUSED))) ∧
    (s.devState ≠ devDrydock → g = (if live then liveSlot s i.toNat else viewSlot s i.toNat) → DoesSome (.signalSlotRead live i) s (fun u =>
      u.out = s.out ++ [.readData (BitVec.ofNat 64 (g.value.toNat + g.qual * 2 ^ 32 + (slotOwner s i.toNat).getD 0xFF * 2 ^ 40)) false] ∧
      SMap.find? u.board.latched ((if live then 0x2120000 else 0x2110000) + 16 * i.toNat + 8) = some g.ts))

/-- R258, R261, R262, R263, R265: KEYSTONE_EVALUATION, TRIG_OUT_END, TRIG_IN_EDGE, KEYSTONE_ENABLE, KEYSTONE_DISABLE and KEYSTONE_UNLOAD. An evaluation
ends at end_k: its last term is OUT, and it acts only at an edge of OUT that FIRE selects, unless the hold-off suppresses it.
An output pulse ends at its time; a rising trigger input is latched with its time. A change of a loaded keystone waits for the
next edge; one of an empty keystone or of one that waits already is refused.
The model's choices it rests on: log entries 4, 64. -/
def Obligations.Keystones : Prop :=
  ∀ (s t : State) (k : Fin 64) (n : Fin 2) (p : KsProg) (outs : List Bool) (sts : List KsTermSt) (stop last : Nat),
    ((s.ks k).prog = some p → ksDue s k = true → s.canReach (ksEnd s k) = true → ksTerms s p.terms (s.ks k).states [] = (outs, sts) →
      t = ksOut ((s.advanceTo (ksEnd s k)).modKs k (fun x => { x with states := sts, evald := true })) k (outs.getLastD false) →
      (outs.getLastD false = s.isSet (Fld.KEY_CTRL_OUT k) → Does (.keystoneEvaluation k) s t) ∧
      (outs.getLastD false = true → s.isSet (Fld.KEY_CTRL_OUT k) = false →
        (bit p.fire 0 = false ∨ p.actions = 0 → Does (.keystoneEvaluation k) s t) ∧
        (bit p.fire 0 = true → p.actions = 2 → (s.ks k).lastAct = none → DoesSome (.keystoneEvaluation k) s (fun u =>
          u.get Fld.KS_IRQ_IRQ = (s.get Fld.KS_IRQ_IRQ ||| 2 ^ k.val) % 2 ^ 64 ∧ (u.ks k).lastAct = some s.tick ∧
          u.get (Fld.KSTATS_ACTIONS k) = (s.get (Fld.KSTATS_ACTIONS k) + 1) % 2 ^ 32)) ∧
        (bit p.fire 0 = true → p.actions ≠ 0 → (s.ks k).lastAct = some last → (s.tick + 2 ^ 48 - last) % 2 ^ 48 < p.holdoff →
          Does (.keystoneEvaluation k) s ((t.bumpSat (Fld.KSTATS_SUPPRESSED k) 1).raise Fld.KS_EVT_SUPPRESSED))) ∧
      (outs.getLastD false = false → s.isSet (Fld.KEY_CTRL_OUT k) = true →
        (bit p.fire 1 = false ∨ p.actions = 0 → Does (.keystoneEvaluation k) s t) ∧
        (bit p.fire 1 = true → p.actions = 2 → (s.ks k).lastAct = none → DoesSome (.keystoneEvaluation k) s (fun u =>
          u.get Fld.KS_IRQ_IRQ = (s.get Fld.KS_IRQ_IRQ ||| 2 ^ k.val) % 2 ^ 64 ∧ (u.ks k).lastAct = some s.tick ∧
          u.get (Fld.KSTATS_ACTIONS k) = (s.get (Fld.KSTATS_ACTIONS k) + 1) % 2 ^ 32)) ∧
        (bit p.fire 1 = true → p.actions ≠ 0 → (s.ks k).lastAct = some last → (s.tick + 2 ^ 48 - last) % 2 ^ 48 < p.holdoff →
          Does (.keystoneEvaluation k) s ((t.bumpSat (Fld.KSTATS_SUPPRESSED k) 1).raise Fld.KS_EVT_SUPPRESSED)))) ∧
    ((if n = 0 then s.board.out0 else s.board.out1) = (true, stop) → s.canReach stop = true → DoesSome (.trigOutEnd n) s (fun u =>
      (if n = 0 then u.board.out0 else u.board.out1) = (false, 0) ∧ u.out = s.out ++ [.trigOut n false] ∧ u.now = (s.advanceTo stop).now)) ∧
    ((if n = 0 then s.board.in0 else s.board.in1).level = false → DoesSome (.trigInEdge n true) s (fun u =>
      (if n = 0 then u.board.in0 else u.board.in1).level = true ∧ (if n = 0 then u.board.in0 else u.board.in1).edgeNow = true ∧
      u.get (Fld.TRIG_IN_TIME_TIME_NS n) = s.now % 2 ^ 64)) ∧
    DoesSome (.trigInEdge n false) s (fun u => (if n = 0 then u.board.in0 else u.board.in1) =
      { (if n = 0 then s.board.in0 else s.board.in1) with level := false } ∧ u.fld = s.fld) ∧
    ((s.ks k).pend = .none → (s.ks k).prog.isSome = true → Reaches s (Reg.KEY_CTRL k) 1 → s.get (Fld.KEY_CTRL_EN k) = 0 →
      Does (.keystoneEnable k) s (ksPend (Touched s (Reg.KEY_CTRL k)) k (.enable true))) ∧
    ((s.ks k).pend = .none → (s.ks k).prog.isSome = true → Reaches s (Reg.KEY_CTRL k) 0 → s.get (Fld.KEY_CTRL_EN k) = 1 →
      Does (.keystoneDisable k) s (ksPend (Touched s (Reg.KEY_CTRL k)) k (.enable false))) ∧
    ((s.ks k).pend = .none → (s.ks k).prog.isSome = true → Reaches s (Reg.KEY_CTRL k) (2 + s.get (Fld.KEY_CTRL_EN k)) →
      s.get (Fld.KEY_CTRL_EN k) < 2 → Does (.keystoneUnload k) s (ksPend (Touched s (Reg.KEY_CTRL k)) k .unload)) ∧
    ((s.ks k).prog = none ∨ (s.ks k).pend ≠ .none →
      (Reaches s (Reg.KEY_CTRL k) 1 → s.get (Fld.KEY_CTRL_EN k) = 0 →
        Does (.keystoneEnable k) s (pageErr (Touched s (Reg.KEY_CTRL k)) (Reg.KEY_CTRL k) 1)) ∧
      (Reaches s (Reg.KEY_CTRL k) 0 → s.get (Fld.KEY_CTRL_EN k) = 1 →
        Does (.keystoneDisable k) s (pageErr (Touched s (Reg.KEY_CTRL k)) (Reg.KEY_CTRL k) 1)) ∧
      (Reaches s (Reg.KEY_CTRL k) (2 + s.get (Fld.KEY_CTRL_EN k)) → s.get (Fld.KEY_CTRL_EN k) < 2 →
        Does (.keystoneUnload k) s (pageErr (Touched s (Reg.KEY_CTRL k)) (Reg.KEY_CTRL k) 1)))

/-- R273, R288, R300, R310: COMPRESSION_DONE, DEGRADATION_STEP, SEGMENT_COMMIT, COMMIT_MS_EXPIRE, SPAN_WRITE_DONE, FOOTER_WRITE_DONE, FLUSH_DONE and
SUPERBLOCK_WRITE_DONE. A span is stored as its engine left it, when staging has room for it. A segment commits in the order spans,
footer, Flush, superblock, each only when the one before it is done, the superblock while it leaves the drive its reserve; with
the superblock it counts as committed. LEVEL moves by one step at a time.
The model's choices it rests on: log entries 4, 66, 68, 69, 129, 131, 132. -/
def Obligations.SegmentCommits : Prop :=
  ∀ (s : State) (n : Fin 4) (id : Nat) (sp x : Span) (ticks : List Nat) (data : Nat × List Byte) (g : Segment) (rest : List Segment) (b b' : Super),
    (spanOf s id = some sp → sp.stored = none → engineFree s sp.pol.compress = true → (∀ r ∈ sp.recs, recBad s r = false) → sp.recs ≠ [] →
      ticks = sp.recs.map ShareRec.tick → data = compressed sp.pol.compress (sp.recs.map ShareRec.r) →
      x = { sp with first := firstOf ticks, last := lastOf ticks, stored := some data, splitS := sp.splitS && firstOf ticks == sp.first,
                    splitE := sp.splitE && lastOf ticks == sp.last } →
      (staged s + spanLen x ≤ stageSize s → DoesThen (.compressionDone id) s (placeSettle (modSpan s id (fun _ => x)))) ∧
      (stageSize s < staged s + spanLen x → DoesThen (.compressionDone id) s s)) ∧
    (s.get Fld.PLACE_CFG_STEP_TICKS ≤ ticksFrom s.place.levelTick s.tick →
      (s.get Fld.PLACE_CFG_STAGE_HIGH ≤ stagePct s ∨ freeSegs s < s.get Fld.PLACE_CFG_SPACE_LOW → level s < 16 → ∃ t,
        DoesThen .degradationStep s (ringAdvance (degradeDrop (strmRegs t))) ∧ level t = level s + 1 ∧
        t.isSet Fld.PLACE_EVT_DEGRADE = true ∧ t.place.levelTick = s.tick ∧ t.place.spans = s.place.spans) ∧
      (stagePct s < s.get Fld.PLACE_CFG_STAGE_HIGH → stagePct s ≤ s.get Fld.PLACE_CFG_STAGE_LOW →
        s.get Fld.PLACE_CFG_SPACE_LOW ≤ freeSegs s → 0 < level s → level s ≤ 16 → ∃ t, DoesThen .degradationStep s (strmRegs t) ∧ level t = level s - 1 ∧
          t.isSet Fld.PLACE_EVT_RESTORE = true ∧ t.place.levelTick = s.tick)) ∧
    (segOpen (s.drive n) = some g → g.firstNs.isSome = true → DoesThen (.commitMsExpire n) s (segClose s n 2)) ∧
    (segOpen (s.drive n) = some g → g.firstNs.isSome = true → (∀ i ∈ s.streams.map (·.1), gapDue s n i s.place.nextId = false) →
      s.toll.orderly = false → DoesSome (.commitMsExpire n) s (fun u => (u.drive n).segs = (s.drive n).segs.take ((s.drive n).segs.length - 1) ++
        [{ g with stage := .closing, cause := 2 }] ∧ u.out = s.out ∧ u.fld = s.fld)) ∧
    (∃ t, DoesThen (.spanWriteDone n id) s (placeSettle t) ∧ (∀ g ∈ (t.drive n).segs, ∀ x ∈ g.spans, x.id = id → x.written = true) ∧
      (t.drive n).segs.length = (s.drive n).segs.length ∧ (∀ m, m ≠ n → t.drive m = s.drive m) ∧ t.out = s.out ∧ t.fld = s.fld) ∧
    ((s.drive n).segs = g :: rest → (s.drive n).sb = some b → (s.drive n).perst = false → s.toll.orderly = false →
      (g.stage = .closing → (∀ x ∈ g.spans, x.written = true) → DoesSome (.segmentCommit n) s (fun u =>
        u.out = s.out ++ WritesOut n (s.drive n).mdts (segBase b.count g.seq + footerOff) (footerBytes g b.lba s.now) false ∧
        (u.drive n).segs = { g with stage := .footer } :: rest ∧ (u.drive n).sb = some b)) ∧
      (g.stage = .footer → DoesSome (.footerWriteDone n) s (fun u => u.out = s.out ++ [.nvme n .flush] ∧
        (u.drive n).segs = { g with stage := .flush } :: rest ∧ (u.drive n).sb = some b)) ∧
      (g.stage = .flush → ∃ t, Does (.flushDone n) s (orderlyCheck (placeSettle t)) ∧ t.out = s.out ∧
        (t.drive n).segs = { g with stage := .ready } :: rest ∧ (t.drive n).sb = some b ∧ (t.drive n).sbNew = (s.drive n).sbNew ∧
        (drvState s n = drvOnline → (s.drive n).sbNew = none → superNext s b g = some b' →
          (superPump t n).out = s.out ++ WritesOut n (s.drive n).mdts (superOff b'.gen)
            (superBytes b' s.toll.serial (fwVersion s) s.toll.boot s.now) true ∧
          ((superPump t n).drive n).segs = { g with stage := .super } :: rest ∧ ((superPump t n).drive n).sbNew = some b' ∧
          ((superPump t n).drive n).sb = some b) ∧
        (drvState s n = drvOnline → superNext s b g = none → superPump t n = t)) ∧
      (g.stage ≠ .closing ∨ (∃ x ∈ g.spans, x.written = false) → DoesThen (.segmentCommit n) s s) ∧
      (g.stage ≠ .footer → DoesThen (.footerWriteDone n) s s) ∧ (g.stage ≠ .flush → DoesThen (.flushDone n) s s) ∧
      ((s.drive n).sbNew = none → DoesThen (.superblockWriteDone n) s s)) ∧
    (recycle s = false → g.seq + 1 < 2 ^ 64 → b.tail ≤ g.seq →
      (g.seq + 2 ≤ b.tail + b.count →
        superNext s b g = some { b with gen := b.gen + 1, version := max b.version g.version, next := g.seq + 1 }) ∧
      (b.tail + b.count < g.seq + 2 → superNext s b g = none)) ∧
    ((s.drive n).segs = g :: rest → (s.drive n).sb = some b → g.stage = .super → (s.drive n).sbNew = some b' → ∃ t,
      DoesThen (.superblockWriteDone n) s (placeSettle t) ∧ (t.drive n).segs = rest ∧ (t.drive n).sb = some b' ∧ (t.drive n).sbNew = none ∧
      (∀ m, m ≠ n → t.drive m = s.drive m))

/-- R283, R284, R286, R301: DRIVE_PRESENT, DRIVE_PERST_RELEASE, DRIVE_LINK_UP, DRIVE_LINK_TIMEOUT, DRIVE_IDENTIFY_DONE, NVME_COMPLETION_POLL,
DRIVE_COMMAND_TIMEOUT, SMART_POLL, DRIVE_LINK_LOST and DRIVE_REMOVED: a drive goes from ABSENT over LINKING and IDENTIFY to BLANK, READ_ONLY
or ONLINE by what its superblocks say, a segment left open sealed, with the width that its lanes still allow (R348), and what waited for
the drive is placed at once; while nothing may be written to the drives it waits. Link training that fails, a command that times out or fails again when it is retried and a
lost link fail it. R286, R287: DRIVE_FORMAT, DRIVE_EJECT and DRIVE_ENABLE, of a write that changes nothing else. A format of a BLANK drive, or
of a READ_ONLY one with ERASE_OK, writes its first superblock and identifies it anew, or waits while nothing may be written to the
drives; of any other drive, or of one that ENABLE holds in reset, it is refused. An eject commits the
open segment and is done when nothing is left to commit; of a drive that is not ONLINE it is refused. ENABLE 0 holds PERST#
asserted.
The model's choices it rests on: log entries 71, 126, 130, 131, 133, 134, 144. -/
def Obligations.Drives : Prop :=
  (∀ (s : State) (n : Fin 4) (width : BitVec 3) (d : DriveId) (b : Super) (minR i : Nat) (warn : Byte)
      (found : Option (List SegSpan)) (cmd : NvmeCmd) (again : Bool) (w : Nat),
      s.toll.orderly = false →
      ((s.drive n).present = false → s.devState ≠ devDrydock → s.get (Fld.DRIVE_CTRL_ENABLE n) = 1 → drvState s n = drvAbsent →
        DoesSome (.drivePresent n) s (fun u => drvState u n = drvLinking ∧ (u.drive n).present = true ∧ (u.drive n).perst = true ∧
          u.isSet (Fld.DRIVE_EVT_ARRIVED n) = true)) ∧
      (drvState s n = drvLinking → (s.drive n).perst = true → DoesSome (.drivePerstRelease n) s (fun u => (u.drive n).perst = false ∧
        u.out = s.out ++ [.perst n false] ∧ u.fld = s.fld)) ∧
      (drvState s n = drvLinking → (s.drive n).perst = false → pllOk s 3 = true → w = trainWidth s (n.val + 1) width.toNat → w ≠ 0 →
        DoesSome (.driveLinkUp n width) s (fun u => drvState u n = drvIdentify ∧ portWidth u n.succ = w ∧
        (drivesIdle s = false → u.out = s.out ++ [.nvme n (.identify 1), .nvme n (.identify 2), .nvme n (.identify 0)]))) ∧
      (drvState s n = drvBlank ∨ drvState s n = drvReadOnly → (s.drive n).perst = false → w = trainWidth s (n.val + 1) width.toNat → w ≠ 0 →
        Does (.driveLinkUp n width) s (drvWidth s n w)) ∧
      (trainWidth s (n.val + 1) width.toNat = 0 → Does (.driveLinkUp n width) s s) ∧
      (drvState s n = drvLinking → (s.drive n).perst = false → DriveFails (.driveLinkTimeout n) s n 1) ∧
      (drvState s n = drvIdentify ∨ drvState s n = drvOnline → DriveFails (.driveCommandTimeout n) s n 6) ∧
      ((s.drive n).present = true → drvState s n = drvLinking ∨ drvState s n = drvIdentify ∨ drvState s n = drvOnline →
        DriveFails (.driveLinkLost n) s n 7) ∧
      (drvState s n = drvIdentify → driveReason d ≠ 0 → DriveFails (.driveIdentifyDone n d) s n (driveReason d)) ∧
      (drvState s n = drvIdentify → driveReason d = 0 → drivesWrite s = false →
        Does (.driveIdentifyDone n d) s (s.modDrive n (fun x => { x with wait := some (.mount d) }))) ∧
      (drvState s n = drvIdentify → driveReason d = 0 → drivesWrite s = true → superCurrent d.copyA d.copyB = none →
        s.isSet Fld.PLACE_CFG_AUTO_FORMAT = false →
        ∃ t, DoesThen (.driveIdentifyDone n d) s (placeSettle t) ∧ drvState t n = drvBlank ∧ (t.drive n).nsBytes = driveBytes d ∧
          t.get (Fld.DRIVE_IO_CRIT_WARN n) = d.warn.toNat ∧ t.get (Fld.DRIVE_STATE_LBA_SHIFT n) = d.lbads.toNat) ∧
      (drvState s n = drvIdentify → driveReason d = 0 → drivesWrite s = true → superCurrent d.copyA d.copyB = some (b, minR) →
        (2 < minR ∨ 2 < b.version ∨ b.nsBytes ≠ driveBytes d ∨ b.lba ≠ 2 ^ d.lbads.toNat → ∃ t, DoesThen (.driveIdentifyDone n d) s (placeSettle t) ∧
          drvState t n = drvReadOnly ∧ (t.drive n).segs = (s.drive n).segs ∧ t.get (Fld.DRIVE_CAP_SEGMENTS n) = b.count % 2 ^ 32) ∧
        (minR ≤ 2 → b.version ≤ 2 → b.nsBytes = driveBytes d → b.lba = 2 ^ d.lbads.toNat → segFound d b.volume b.next = none → ∃ t,
          DoesThen (.driveIdentifyDone n d) s (placeSettle (driveRegs t n)) ∧ drvState t n = drvOnline ∧ (t.drive n).sb = some b ∧
          (t.drive n).segs = [] ∧ t.isSet (Fld.DRIVE_EVT_MOUNTED n) = true ∧ t.get (Fld.DRIVE_CAP_SEGMENTS n) = b.count % 2 ^ 32 ∧
          ((s.drive n).was = [] → (t.drive n).newest = if (s.drive n).volume = b.volume then (s.drive n).kept else [])) ∧
        (minR ≤ 2 → b.version ≤ 2 → b.nsBytes = driveBytes d → b.lba = 2 ^ d.lbads.toNat → segFound d b.volume b.next = some found →
          recycle s = false → seqPast ((b.next + 1) % 2 ^ 64) b.tail + 1 ≤ b.count → ∃ t,
          DoesThen (.driveIdentifyDone n d) s (placeSettle (driveRegs t n)) ∧ drvState t n = drvOnline ∧ (t.drive n).segs = [] ∧
          (t.drive n).sb = some { b with gen := b.gen + 1, version := max b.version (leAt d.header 4 2), next := (b.next + 1) % 2 ^ 64 })) ∧
      Does (.nvmeCompletionPoll n []) s s ∧
      (drvUsed s n = true → (s.drive n).cmds[i]? = some (cmd, again) → Does (.nvmeCompletionPoll n [(i, false)]) s (nvmeDone s n (· == cmd))) ∧
      (drvUsed s n = true → (s.drive n).cmds[i]? = some (cmd, again) → (s.drive n).cmds.contains (cmd, true) = false →
        Does (.nvmeCompletionPoll n [(i, true)]) s (((s.bumpSat (Fld.DRIVE_IO_CMD_ERRORS n) 1).modDrive n
          (fun d => { d with cmds := d.cmds.map (fun x => if x.1 = cmd then (cmd, true) else x) })).emit (.nvme n cmd))) ∧
      (drvUsed s n = true → drvState s n = drvIdentify ∨ drvState s n = drvOnline → (s.drive n).cmds[i]? = some (cmd, true) →
        DriveFails (.nvmeCompletionPoll n [(i, true)]) s n 6) ∧
      (drvUsed s n = true → drvState s n ≠ drvIdentify → drivesIdle s = false → DoesSome (.smartPoll n warn) s (fun u =>
        u.out = s.out ++ [.nvme n .smart] ∧
        u.get (Fld.DRIVE_IO_CRIT_WARN n) = warn.toNat ∧ (warn ≠ 0 → u.isSet (Fld.DRIVE_EVT_SMART_WARN n) = true) ∧ drvState u n = drvState s n)) ∧
      (drvState s n ≠ drvAbsent → ∃ t, DoesThen (.driveRemoved n) s (placeSettle (driveLost t n)) ∧ drvState t n = drvAbsent ∧
        (t.drive n).present = false ∧ (t.drive n).perst = true ∧ t.isSet (Fld.DRIVE_EVT_REMOVED n) = true ∧ portWidth t n.succ = 0)) ∧
  (∀ (s t : State) (n : Fin 4) (v : Word) (w : Nat) (g : Segment), s.toll.orderly = false → t = Touched s (Reg.DRIVE_CTRL n) →
      (w = withField v.toNat (Fld.DRIVE_CTRL_FORMAT n) 1 → Reaches s (Reg.DRIVE_CTRL n) w → bit w 0 = true → bit w 2 = false →
        (drvState s n = drvBlank ∨ drvState s n = drvReadOnly ∧ s.get (Fld.DRIVE_CTRL_ERASE_OK n) = 1 → (s.drive n).perst = false →
          s.get (Fld.DRIVE_CTRL_ENABLE n) = bf w 3 1 →
          (drivesWrite s = true → DoesSome (.driveFormat n v) s (fun u =>
            drvState u n = drvIdentify ∧ u.out.getLast? = some (.nvme n (.identify 0)) ∧ u.get (Fld.DRIVE_CTRL_ERASE_OK n) = 0 ∧
            (u.drive n).segs = (s.drive n).segs ∧ (u.drive n).sb = (s.drive n).sb)) ∧
          (drivesWrite s = false → DoesSome (.driveFormat n v) s (fun u => drvState u n = drvState s n ∧ u.out = s.out ∧
            (u.drive n).wait = some .format ∧ u.get (Fld.DRIVE_CTRL_ERASE_OK n) = 0))) ∧
        ((drvState s n ≠ drvBlank ∧ (drvState s n ≠ drvReadOnly ∨ s.get (Fld.DRIVE_CTRL_ERASE_OK n) = 0)) ∨ (s.drive n).perst = true →
          Does (.driveFormat n v) s (pageErr t (Reg.DRIVE_CTRL n) 1))) ∧
      (w = withField v.toNat (Fld.DRIVE_CTRL_EJECT n) 1 → Reaches s (Reg.DRIVE_CTRL n) w → bit w 0 = false → bit w 2 = true →
        (drvState s n = drvOnline → s.get (Fld.DRIVE_CTRL_ENABLE n) = bf w 3 1 → (∀ i ∈ s.streams.map (·.1), gapDue s n i s.place.nextId = false) →
          (segOpen (s.drive n) = some g → DoesSome (.driveEject n v) s (fun u => (u.drive n).eject = true ∧ drvState u n = drvOnline ∧
            (u.drive n).segs = (s.drive n).segs.take ((s.drive n).segs.length - 1) ++ [{ g with stage := .closing, cause := 4 }])) ∧
          ((s.drive n).segs = [] → s.place.spans = [] → DoesSome (.driveEject n v) s (fun u => drvState u n = drvEjected ∧
            u.isSet (Fld.DRIVE_EVT_EJECT_DONE n) = true ∧ (u.drive n).sb = none))) ∧
        (drvState s n ≠ drvOnline → Does (.driveEject n v) s (pageErr t (Reg.DRIVE_CTRL n) 1))) ∧
      (Reaches s (Reg.DRIVE_CTRL n) v.toNat → bit v.toNat 0 = false → bit v.toNat 2 = false →
        (bit v.toNat 3 = true → s.get (Fld.DRIVE_CTRL_ENABLE n) = 0 → (s.drive n).present = true → drvState s n = drvAbsent →
          DoesSome (.driveEnable n v) s (fun u => u.get (Fld.DRIVE_CTRL_ENABLE n) = 1 ∧ drvState u n = drvLinking ∧ (u.drive n).perst = true)) ∧
        (bit v.toNat 3 = false → s.get (Fld.DRIVE_CTRL_ENABLE n) = 1 → drvState s n = drvBlank → DoesSome (.driveEnable n v) s (fun u =>
          u.get (Fld.DRIVE_CTRL_ENABLE n) = 0 ∧ drvState u n = drvBlank ∧ (u.drive n).perst = true))))

/-- R316, R318, R320, R321, R323, R324, R325: IC_DELIVERY, HOLDOFF_EXPIRE, HV_EOI_WRITE, IC_SRC_SET and IC_SRC_CLR. An accepting target with room on its stack
takes the eligible source of lowest PRIO, and of those the lowest number: it is pushed, its latch is cleared, its hold-off
group holds, and a host vector's MSI-X message is sent. An EOI pops the stack, on an empty one it sets EOI_EMPTY. SET latches
an edge-sensed source, CLR clears the latch; the register of a reserved source is a reserved location (R398).
The model's choices it rests on: log entries 74, 121. -/
def Obligations.InterruptDelivery : Prop :=
  ∀ (s : State) (t : BitVec 10) (src : Nat) (g : BitVec 7) (v : Fin 64) (x : Word) (n : Fin 640) (w : Nat) (top : Nat × Nat)
    (rest : List (Nat × Nat)),
    (bestSource s t.toNat = some src → src ∈ eligibleFor s t.toNat ∧
      ∀ i ∈ eligibleFor s t.toNat, prioOf s src * 1024 + src ≤ prioOf s i * 1024 + i) ∧
    (icDelivers s = true → accepting s t.toNat = true → (stackOf s t.toNat).length < 8 → bestSource s t.toNat = some src →
      (t.toNat ≠ tgtToll → DoesSome (.icDelivery t) s (fun u => stackOf u t.toNat = (prioOf s src, src) :: stackOf s t.toNat ∧ src ∉ u.ic.latch ∧
        (∀ k, k ≠ t.toNat → stackOf u k = stackOf s k) ∧
        (s.devState ≠ devDrydock → s.isSet (Fld.SRC_GROUP_EN src) = true → s.get (Fld.GRP_INTERVAL (s.get (Fld.SRC_GROUP src))) ≠ 0 →
          u.isSet (Fld.GRP_HOLDING (s.get (Fld.SRC_GROUP src))) = true) ∧
        (s.devState = devDrydock → ∀ k, u.isSet (Fld.GRP_HOLDING k) = s.isSet (Fld.GRP_HOLDING k)) ∧
        (t.toNat < 0x40 → u.out = s.out ++ [.msix t.toNat (msixOf s t.toNat).addr (msixOf s t.toNat).data]))) ∧
      (t.toNat = tgtToll → DoesSome (.icDelivery t) s (fun u => stackOf u tgtToll = stackOf s tgtToll ∧ src ∉ u.ic.latch))) ∧
    (SMap.get 0 s.ic.ticks g.toNat = 0 → Does (.holdoffExpire g) s (s.clear (Fld.GRP_HOLDING g.toNat))) ∧
    (Reaches s (Reg.HV_EOI v) x.toNat →
      (stackOf s v = top :: rest → DoesSome (.hvEoiWrite v x) s (fun u => stackOf u v = rest ∧ u.fld = s.fld ∧
        ∀ k, k ≠ v.val → stackOf u k = stackOf s k)) ∧
      (stackOf s v = [] → Does (.hvEoiWrite v x) s ((Touched s (Reg.HV_EOI v)).raise Fld.IC_EVT_EOI_EMPTY))) ∧
    (srcReserved n.val = true → PageAt s (Reg.SRC n) → s.get (Fld.PAGE_CTRL_WR_LOCK (pageOf (Reg.SRC n))) = 0 →
      s.get (Fld.SHADOW_CTRL_PENDING (pageOf (Reg.SRC n))) = 0 → s.get (Fld.SHADOW_CTRL_HOLD (pageOf (Reg.SRC n))) = 0 →
      Does (.icSrcSet n) s (pageErr (Touched s (Reg.SRC n)) (Reg.SRC n) errRsv) ∧
      Does (.icSrcClr n) s (pageErr (Touched s (Reg.SRC n)) (Reg.SRC n) errRsv)) ∧
    (w = regView s (Reg.SRC n) % 2 ^ 32 + 2 ^ 37 → Reaches s (Reg.SRC n) w → 1 ≤ bf w 4 3 → bf w 4 3 ≤ 3 → targetOk (bf w 8 10) = true →
      DoesSome (.icSrcSet n) s (fun u => n.val ∈ u.ic.latch ∧ u.ic.stackTab = s.ic.stackTab ∧
        ∀ i, i ≠ n.val → (i ∈ u.ic.latch ↔ i ∈ s.ic.latch))) ∧
    (w = regView s (Reg.SRC n) % 2 ^ 32 + 2 ^ 38 → Reaches s (Reg.SRC n) w → bf w 4 3 < 5 → targetOk (bf w 8 10) = true →
      DoesSome (.icSrcClr n) s (fun u => n.val ∉ u.ic.latch ∧ u.ic.stackTab = s.ic.stackTab ∧
        ∀ i, i ≠ n.val → (i ∈ u.ic.latch ↔ i ∈ s.ic.latch)))

/-- R335, R337, R345, R346, R348: RESEAT_COPY_DONE, RESEAT_RESUME, RESEAT_TIMEOUT, SCRUB_READ and LANE_RETIRE. After its copy a reseat waits for an edge that
qualifies, a fenced channel's for its enable; at resume the channel stands on the target tile, its threads' line buffers empty; sixteen edges without one end it
with TIMEOUT and the channel ENABLED. A scrub counts what its syndrome says, and a word that is uncorrectable reads so from then on. A host or storage port whose lane fails,
in use or in training, goes on at half its lanes or fewer, and never up again; a stream channel's lane leaves it no link, a towpath
port's first its other lane pair, and its second none (R423). The accesses that a cutover has held follow it (R399).
The model's choices it rests on: log entries 52, 82, 125, 126, 142. -/
def Obligations.ReseatScrubLanes : Prop :=
  ∀ (s : State) (c : Fin 56) (r : Reseat) (e : WorkEntry) (a : Word) (o : BitVec 17) (syn : Byte) (b : Option Nat) (p : Fin 15) (lane : Fin 8)
    (q : Fin 5) (m k : Nat) (x : Fin 2) (wd : BitVec 32),
    ((s.ch c).reseat = some r →
      (r.phase = .copying → Does (.reseatCopyDone c) s (s.modCh c (fun x => { x with reseat := some { r with
        phase := if r.fenced then .waitEnable else .waitEdge } }))) ∧
      (r.phase = .frozen → ∃ t, Does (.reseatResume c) s (hostResume (reseatCheck (seqEdge t c) c) c) ∧
        (t.ch c).reseat = some { r with phase := .draining } ∧ t.get (Fld.CHAN_STATE_TILE c) = r.target % 2 ^ 8 ∧ t.frozen c = false ∧
        (t.ch c).chamber = (s.ch c).chamber ∧ t.waiting = s.waiting ∧ (t.ch c).fifos = (s.ch c).fifos ∧ t.sq c = s.sq c ∧
        ∀ k, (t.th c k).cur = none ∧ (t.th c k).nxt = none ∧ (t.th c k).pc = (s.th c k).pc) ∧
      (r.phase = .waitEdge → 16 ≤ r.edges →
        (entryOf s c r.serial = none → DoesSome (.reseatTimeout c) s (fun u => (u.ch c).reseat = none ∧ chState u c = chEnabled)) ∧
        (entryOf s c r.serial = some e → ∃ t, Does (.reseatTimeout c) s (complete t e St.timeout []) ∧ (t.ch c).reseat = none ∧
          chState t c = chEnabled ∧ t.get (Fld.CHAN_STATE_TILE c) = s.get (Fld.CHAN_STATE_TILE c)))) ∧
    (s.isSet Fld.DRAM_RAS_SCRUB_EN = true →
      (a.toNat < s.dramTop → s.poison.contains (a.toNat / 8) = false →
        Does (.scrubRead (.dram a) 0) s s ∧
        (eccOf syn.toNat = .corrected b → SMap.get 0 s.pageCorr (a.toNat / 4096) + 1 < s.get Fld.DRAM_RAS_CE_RETIRE →
          DoesSome (.scrubRead (.dram a) syn) s (fun u => u.get Fld.ECC_DRAM_CORR = (s.bumpSat Fld.ECC_DRAM_CORR 1).get Fld.ECC_DRAM_CORR ∧
            SMap.get 0 u.pageCorr (a.toNat / 4096) = SMap.get 0 s.pageCorr (a.toNat / 4096) + 1 ∧ u.dram = s.dram ∧ u.poison = s.poison)) ∧
        (eccOf syn.toNat = .bad → DoesSome (.scrubRead (.dram a) syn) s (fun u => u.poison.contains (a.toNat / 8) = true ∧
          u.isSet Fld.RAS_EVT_DRAM_UNCORR = true ∧ u.dram = s.dram))) ∧
      ((s.kp c).codeBad.contains (o.toNat / 8) = false → eccOf syn.toNat = .corrected b →
        Does (.scrubRead (.code c o) syn) s (s.bumpSat (Fld.KSTATUS_ECC_CORR c) 1)) ∧
      (s.poison.contains (2 ^ 42 + wd.toNat) = false →
        (eccOf syn.toNat = .corrected b → Does (.scrubRead (.basin wd) syn) s (s.bumpSat (Fld.ECC_OTHER_CORR 3) 1)) ∧
        (eccOf syn.toNat = .bad → Does (.scrubRead (.basin wd) syn) s
          { s.bumpSat (Fld.ECC_OTHER_UNCORR 3) 1 with poison := (2 ^ 42 + wd.toNat) :: s.poison })) ∧
      (s.poison.contains (2 ^ 41 + wd.toNat) = false →
        (eccOf syn.toNat = .corrected b → Does (.scrubRead (.mram wd) syn) s (s.bumpSat (Fld.ECC_OTHER_CORR 2) 1)) ∧
        (eccOf syn.toNat = .bad → DoesSome (.scrubRead (.mram wd) syn) s (fun u => u.poison = (2 ^ 41 + wd.toNat) :: s.poison ∧
          u.get (Fld.ECC_OTHER_UNCORR 2) = (s.bumpSat (Fld.ECC_OTHER_UNCORR 2) 1).get (Fld.ECC_OTHER_UNCORR 2))))) ∧
    (m = s.get (retiredFld q) ||| 2 ^ lane.val → k = min (max 1 ((if portWidth s q = 0 then portCap s q else portWidth s q) / 2))
        (widthOf (fullWidth q - weight8 m)) → p = ⟨q.val, by omega⟩ →
      (lane.val < fullWidth q → bit (s.get (retiredFld q)) lane = false → DoesSome (.laneRetire p lane) s (fun u =>
        portCap u q = min k (portCap s q) ∧ portWidth u q = min (portWidth s q) (min k (portCap s q)) ∧
        u.get (retiredFld q) = m % 2 ^ (retiredFld q).w ∧
        (if q = 0 then u.isSet Fld.RAS_EVT_HOST_LANE = true ∧ u.isSet Fld.RAS_EVT_HOST_RETRAIN = true ∧
            (portWidth s q ≠ 0 → OutEvent.linkBandwidth (portWidth u q) ∈ u.out)
          else u.isSet Fld.RAS_EVT_STOR_LANE = true))) ∧
      (fullWidth q ≤ lane.val ∨ bit (s.get (retiredFld q)) lane = true → Does (.laneRetire p lane) s s)) ∧
    (48 ≤ c.val → p.val = c.val - 43 →
      (lane = 0 → (s.sq c).exec = none → (s.eth c).rx = none → DoesSome (.laneRetire p lane) s (fun u => SMap.get 0 u.portOut p = 1 ∧
        u.isSet (Fld.ETH_STATUS_LINK c) = false)) ∧
      (lane ≠ 0 → Does (.laneRetire p lane) s s)) ∧
    (13 ≤ p.val → x = (if p.val = 13 then 0 else 1) → lane.val < 2 → m = SMap.get 0 s.portOut p ||| 2 ^ lane.val →
      (m = 3 → Does (.laneRetire p lane) s (tpDrop { s with portOut := SMap.set 0 s.portOut p m } x true)) ∧
      (m ≠ 3 → tpTalks s x = true → Does (.laneRetire p lane) s ({ s with portOut := SMap.set 0 s.portOut p m }.put (Fld.TP_PORT_STATUS_WIDTH x) 1)) ∧
      (m ≠ 3 → tpTalks s x = false → Does (.laneRetire p lane) s { s with portOut := SMap.set 0 s.portOut p m })) ∧
    (13 ≤ p.val → 2 ≤ lane.val → Does (.laneRetire p lane) s s)

/-- R370, R371, R372: GET_INFO, SENSORS, LOG_READ, REPAIR_READ, REPAIR_CLEAR, CONFIG_READ, MAILBOX_LONG_DONE, MB_HALT, MB_RESET,
ORDERLY_RESET_TIMEOUT and UNKNOWN_CMD. A command completes with its status and response words, BUSY clear and DONE set; one that
may not run in the present state is REJECTED_STATE; a transfer that fails is BUS_ERROR. HALT takes the device to HALT with
cause 3; RESET responds at once, an orderly one when the commits are done or its time is over.
The model's choices it rests on: log entries 4, 24, 86, 87, 88, 92, 102. -/
def Obligations.MailboxCommands : Prop :=
  ∀ (s : State) (req : List Word) (q : Nat → Nat) (v : Word) (w st : Nat) (rsp : List Nat) (bs : List Byte), q = (fun k => (req.getD k 0).toNat) →
    (rsp.length ≤ 32 → st < 256 → (mbDone s st rsp).get Fld.MB_STATUS_STATUS = st ∧ (mbDone s st rsp).get Fld.MB_STATUS_RSP_WORDS = rsp.length ∧
      (mbDone s st rsp).get Fld.MB_STATUS_BUSY = 0 ∧ (mbDone s st rsp).get Fld.MB_EVT_DONE = 1 ∧ (mbDone s st rsp).toll.long = none ∧
      ∀ k, k < rsp.length → (mbDone s st rsp).get (Fld.MB_RSP_WORD k) = rsp.getD k 0 % 2 ^ 64) ∧
    (Asked s mbGetInfo req → s.toll.bootmode < 4 → ∃ rsp, Answers .getInfo s St.ok rsp (fun t => t = s) ∧ rsp.length = 7 ∧ rsp.getD 2 0 = s.toll.boot ∧ rsp.getD 3 0 = s.toll.serial ∧
      bf (rsp.getD 4 0) 8 8 = 0xA2) ∧
    (Asked s mbSensors req → ∃ rsp, Answers .sensors s St.ok rsp (fun t => t = s) ∧ rsp.length = 10 ∧ rsp.getD 5 0 = s.toll.plls) ∧
    (Asked s mbLogRead req → (1 ≤ q 1 → q 1 ≤ 16384 → 2 ^ 63 ≤ q 2 → Does .logRead s (mbLong s)) ∧
      (q 1 = 0 ∨ 16384 < q 1 ∨ q 2 < 2 ^ 63 → Answers .logRead s St.badOperand [] (fun t => t = s))) ∧
    (Asked s mbRepairRead req → (2 ^ 63 ≤ q 0 → Does .repairRead s (mbLong s)) ∧ (q 0 < 2 ^ 63 → Answers .repairRead s St.badOperand [] (fun t => t = s))) ∧
    (Asked s mbConfigRead req → (2 ^ 63 ≤ q 0 → Does .configRead s (mbLong s)) ∧ (q 0 < 2 ^ 63 → Answers .configRead s St.badOperand [] (fun t => t = s))) ∧
    (Asked s mbRepairClear req → Answers .repairClear s St.ok [] (fun t => t.toll.repair = s.toll.repair.filter
        (fun e => !(decide (1 ≤ e.kind ∧ e.kind ≤ 4) && bit (q 0) (e.kind - 1))) ∧ t.get Fld.REPAIR_ENTRIES = t.toll.repair.length % 2 ^ 12)) ∧
    (∀ op, s.toll.long = some ⟨op, req, true⟩ → op ≠ mbResetOp →
      (op ≠ mbFwRecover → Answers (.mailboxLongDone .fail) s St.busError [] (fun t => t = s)) ∧
      (op ≠ mbFwRecover → s.hostOk = false → Answers (.mailboxLongDone (.ok bs)) s St.busError [] (fun t => t = s)) ∧
      (op = mbRepairRead → s.hostOk = true → Answers (.mailboxLongDone (.ok bs)) s St.ok [] (fun t => t = s.hostWrite (q 0 - 2 ^ 63) (repairMap s.toll))) ∧
      (op = mbConfigRead → s.hostOk = true → s.toll.config = [] →
        Answers (.mailboxLongDone (.ok bs)) s St.ok [0] (fun t => t = s.hostWrite (q 0 - 2 ^ 63) []))) ∧
    (Asked s mbHaltOp req → s.serving = true → Answers .mbHalt s St.ok [] (fun t => t.devState = devHalt ∧ t.get Fld.DEV_STATE_HALT_CAUSE = 3 ∧
      t.halting = true)) ∧
    (Asked s mbResetOp req → (bit (q 0) 1 = false → Answers .mbReset s St.ok [] (fun t => t.toll.resetIn = some (bit (q 0) 0) ∧ t.toll.orderly = false)) ∧
      (bit (q 0) 1 = true → s.serving = true → DoesSome .mbReset s (fun u => u.devState = devHalt ∧ u.toll.orderly = true ∧
        u.toll.long = some ⟨mbResetOp, req, true⟩))) ∧
    (s.toll.orderly = true → Answers .orderlyResetTimeout s St.ok [] (fun t => t.toll.resetIn = some (resetFull s) ∧ t.toll.orderly = false)) ∧
    (w = withField v.toNat Fld.MB_CMD_GO 1 → Reaches s Reg.MB_CMD w → bit w 32 = true → bf w 0 16 = bf v.toNat 0 16 →
      bf v.toNat 0 16 = 0 ∨ 0x10 < bf v.toNat 0 16 →
      (s.get Fld.MB_STATUS_BUSY = 0 → Answers (.unknownCmd v) s 0x85 [] (fun t => t.get Fld.MB_STATUS_TAG = bf w 16 16 ∧ t.toll.keys = s.toll.keys)) ∧
      (s.get Fld.MB_STATUS_BUSY = 1 → Does (.unknownCmd v) s ((Touched s Reg.MB_CMD).raise Fld.MB_EVT_REFUSED))) ∧
    (s.toll.orderly = true → s.halting = false →
      (commitsDone s = true → ∃ t, orderlyCheck s = mbDone t St.ok [] ∧ t.toll.resetIn = some (resetFull s) ∧ t.toll.orderly = false ∧ t.out = s.out) ∧
      (commitsDone s = false → orderlyCheck s = s)) ∧
    (∀ x ∈ [(Instr.mbHalt, mbHaltOp), (Instr.repairClear, mbRepairClear), (Instr.keyWrite, mbKeyWrite), (Instr.fwSelect, mbFwSelect),
        (Instr.cosignSet, mbCosign), (Instr.sensors, mbSensors), (Instr.logRead, mbLogRead), (Instr.repairRead, mbRepairRead),
        (Instr.configRead, mbConfigRead), (Instr.keyClear, mbKeyClear), (Instr.keyInfo, mbKeyInfo), (Instr.debugChallenge, mbChallenge),
        (Instr.debugUnlock, mbUnlock)], s.toll.long = some ⟨x.2, req, false⟩ → mbStateOk s x.2 = false → Answers x.1 s St.rejectedState [] (fun t => t = s))

/-- R375, R377, R378, R379, R380: KEY_WRITE, KEY_CLEAR, KEY_INFO, FW_RECOVER, FW_SELECT, COSIGN_SET, DEBUG_CHALLENGE, DEBUG_UNLOCK and
DEBUG_NONCE_EXPIRE. A key goes into an empty slot, keeps the slot's EPOCH and is cleared only while no stream names it; the slot that
is not ACTIVE takes a firmware image; a VALID slot of enough SVN becomes PENDING; the co-signing key is set once; an unlock
whose signatures are right reaches the level of its challenge, at level 2 with every key slot cleared but for its EPOCH; one with a wrong
signature or without a valid nonce fails and is counted, and after three failures none is accepted; an attempt is logged. R361, R363, R374, R380: LOG_RATE_SECOND, DRYDOCK_CONSOLE_REPEAT, STAT_BLINK and JTAG_INSTRUCTION. When the second ends, each code that was
suppressed gets one entry of the log; the console repeats in DRYDOCK; STAT changes its phase while it blinks; EXTEST, CLAMP and
the vendor instruction need an unlock or DRYDOCK.
The model's choices it rests on: log entries 73, 88, 90, 91, 127. -/
def Obligations.TollHouseStores : Prop :=
  (∀ (s : State) (req : List Word) (q : Nat → Nat) (slot kind level n : Nat) (digest : List Byte) (good : Bool), q = (fun k => (req.getD k 0).toNat) →
      (Asked s mbKeyWrite req → slot = bf (q 0) 0 8 → kind = bf (q 0) 8 8 → (slot ≤ 15 → kind = 1 ∨ kind = 2 →
          ((keySlot s slot).kind = 0 → Answers .keyWrite s St.ok [leNat (keyKcv { keySlot s slot with kind := kind, key := reqBytes q 1 (if kind = 1 then 8 else 4) })]
            (fun t => keySlot t slot = { keySlot s slot with kind := kind, key := reqBytes q 1 (if kind = 1 then 8 else 4) } ∧
              ∀ k, k ≠ slot → keySlot t k = keySlot s k)) ∧
          ((keySlot s slot).kind ≠ 0 → Answers .keyWrite s St.rejectedState [] (fun t => t = s))) ∧
        (15 < slot ∨ kind = 0 ∨ 2 < kind → Answers .keyWrite s St.badOperand [] (fun t => t = s))) ∧
      (Asked s mbKeyClear req → (q 0 ≤ 15 → slotNamed s (q 0) = false → Answers .keyClear s St.ok [] (fun t =>
          keySlot t (q 0) = { keySlot s (q 0) with kind := 0, key := [] } ∧ ∀ k, k ≠ q 0 → keySlot t k = keySlot s k)) ∧
        (q 0 ≤ 15 → slotNamed s (q 0) = true → Answers .keyClear s St.rejectedState [] (fun t => t = s))) ∧
      (Asked s mbKeyInfo req → ∃ rsp, Answers .keyInfo s St.ok rsp (fun t => t = s.drawFree.2) ∧ rsp.length = 16 ∧
        ∀ i < 16, (keySlot s i).kind ≤ 2 → bf (rsp.getD i 0) 0 8 = (keySlot s i).kind ∧ bf (rsp.getD i 0) 32 32 = (keySlot s i).epoch % 2 ^ 32 ∧
          ((keySlot s i).kind ≠ 0 → bf (rsp.getD i 0) 8 24 = leNat (keyKcv (keySlot s i)))) ∧
      (Asked s mbFwRecover req → 1 ≤ q 1 → q 1 ≤ 3145728 → 2 ^ 63 ≤ q 0 →
        (s.toll.fwBusy = none → s.toll.slotA.state = slotActive → DoesSome .fwRecover s (fun u => u.toll.fwBusy = some 1 ∧
          u.toll.slotB.state = slotInvalid ∧ u.toll.slotB.image = [] ∧ u.toll.slotA = s.toll.slotA ∧ u.toll.long = some ⟨mbFwRecover, req, true⟩)) ∧
        (s.toll.fwBusy.isSome = true → Answers .fwRecover s St.rejectedState [] (fun t => t = s))) ∧
      (Asked s mbFwSelect req → q 0 ≤ 1 → ((fwSlot s.toll (q 0)).state = slotValid → s.toll.rollback ≤ (fwSlot s.toll (q 0)).svn →
          Answers .fwSelect s St.ok [] (fun t => fwSlot t.toll (q 0) = { fwSlot s.toll (q 0) with state := slotPending })) ∧
        ((fwSlot s.toll (q 0)).state ≠ slotValid ∨ (fwSlot s.toll (q 0)).svn < s.toll.rollback →
          Answers .fwSelect s St.rejectedState [] (fun t => t = s))) ∧
      (Asked s mbCosign req → (s.toll.cosign = none → Answers .cosignSet s St.ok [] (fun t => t.toll.cosign = some (sha384 (reqBytes q 0 12)))) ∧
        (s.toll.cosign.isSome = true → Answers .cosignSet s St.rejectedState [] (fun t => t = s))) ∧
      (Asked s mbChallenge req → (q 0 = 1 ∨ q 0 = 2 → ∃ n, Answers .debugChallenge s St.ok (byteWords 4 (nonceBytes n) ++ [s.toll.serial])
          (fun t => t.toll.nonce = some (q 0, n) ∧ s.free ≤ n)) ∧
        (q 0 = 0 ∨ 2 < q 0 → Answers .debugChallenge s St.badOperand [] (fun t => t = s))) ∧
      (Asked s mbUnlock req → (3 ≤ s.toll.unlockFails → Answers .debugUnlock s St.rejectedState [] (fun t => t.toll.unlocked = s.toll.unlocked ∧
          t.toll.unlockFails = s.toll.unlockFails)) ∧
        (s.toll.unlockFails < 3 → s.toll.nonce = none → Answers .debugUnlock s St.authFail [] (fun t => t.toll.unlocked = s.toll.unlocked ∧
          t.toll.unlockFails = s.toll.unlockFails + 1)) ∧
        (s.toll.unlockFails < 3 → s.toll.nonce = some (level, n) → digest = sha384 (nonceBytes n ++ leBytes 8 s.toll.serial ++ leBytes 1 level ++ zeros 7) →
          good = (Config.sigOk Config.grenathKey digest (reqBytes q 0 12) &&
            match s.toll.cosign with | some key => Config.sigOk key digest (reqBytes q 12 12) | none => true) →
          (SMap.get (0, 0) s.toll.logRate 0x0620).1 < 64 →
          Answers .debugUnlock s (if good then St.ok else St.authFail) [] (fun t => t.toll.nonce = none ∧
            t.toll.unlocked = (if good then max s.toll.unlocked level else s.toll.unlocked) ∧
            t.toll.unlockFails = (if good then s.toll.unlockFails else s.toll.unlockFails + 1) ∧
            (∀ k, k < 16 → keySlot t k = if good ∧ level = 2 ∧ (keySlot s k).kind ≠ 0 then { keySlot s k with kind := 0, key := [] } else keySlot s k) ∧
            ∃ e, t.toll.log.head? = some e ∧ e.code = 0x0620 ∧
              e.data = (leBytes 1 level ++ leBytes 1 (if good then St.ok else St.authFail) ++ zeros 32).take 32))) ∧
      DoesSome .debugNonceExpire s (fun u => u.toll.nonce = none ∧ u.toll.keys = s.toll.keys ∧ u.fld = s.fld)) ∧
  (∀ (s : State) (level : Byte),
      DoesSome .logRateSecond s (fun u => u.toll.logRate = [] ∧
        u.toll.logSeq = s.toll.logSeq + (s.toll.logRate.filter (fun e => e.2.2 != 0)).length ∧ u.fld = s.fld) ∧
      (s.devState = devDrydock → s.get Fld.ST_SUMMARY_FAIL_STEP ≠ 0 → Does .drydockConsoleRepeat s (consoleLine s 0x0002)) ∧
      (s.devState = devSelftest ∨ s.devState = devBrace → DoesSome .statBlink s (fun u => u.toll.blink = (s.toll.blink + 1) % 2 ∧
        u.out = s.out ++ [.stat (statBits u)])) ∧
      DoesSome (.jtagInstruction .bypass) s (fun u => u.toll.jtag = 0 ∧ u.out = s.out ∧ u.fld = s.fld) ∧
      DoesSome (.jtagInstruction .idcode) s (fun u => u.toll.jtag = 1 ∧ u.out.length = s.out.length + 2 ∧ u.out.getLast? = some .tdoOff ∧ u.fld = s.fld) ∧
      DoesSome (.jtagInstruction .sample) s (fun u => u.toll.jtag = 2 ∧ u.out.length = s.out.length + 2 ∧ u.out.getLast? = some .tdoOff ∧ u.fld = s.fld) ∧
      (s.toll.unlocked = 0 → s.devState ≠ devDrydock → Does (.jtagInstruction .extest) s s ∧ Does (.jtagInstruction .clamp) s s ∧
        Does (.jtagInstruction .vendor) s s) ∧
      (1 ≤ s.toll.unlocked ∨ s.devState = devDrydock → DoesSome (.jtagInstruction .extest) s (fun u => u.toll.jtag = 3) ∧
        DoesSome (.jtagInstruction .clamp) s (fun u => u.toll.jtag = 4) ∧ DoesSome (.jtagInstruction .vendor) s (fun u => u.toll.jtag = 5)) ∧
      (level = 1 ∨ level = 2 → DoesSome (.jtagInstruction (.challenge level)) s (fun u => u.toll.nonce = some (level.toNat, s.free) ∧
        u.out.length = s.out.length + 6 ∧ u.out.getLast? = some .tdoOff)))

/-- R382, R383, R385, R386, R387: TP_SIGNAL_DETECT, TP_BLOCK_LOCK, TP_TRAINING_TIMEOUT, TP_RETRY, TP_HELLO_SEND, HELLO, TP_HELLO_TIMEOUT and TP_LINK_LOSS. A
port goes DOWN, TRAINING, NEGOTIATE and, once HELLO frames have gone both ways, UP with the lower of the two revisions; a neighbour's
port of the same number leaves it BLOCKED and marked MISWIRED. When the tick master's own serial comes back on port 0, in NEGOTIATE or UP, that
port goes to BLOCKED with RING set, and UP again when the position at its far end falls. A lost link is DOWN, without width or neighbour; one that was UP
asserts the towpath pin. R384, R389, R391, R392, R393: SYNC_REQ_SEND, SYNC_REQ, SYNC_RSP, KS_EVENT, SIGNALS, BEACON_SEND and BEACON. A frame with an uncorrectable word is
discarded and counted, and so is one of a TYPE that the spec does not define. A time request carries TIME_NS and is answered with it; the
response gives the link's delay, and on a device that follows the towpath through that port the offset that its servo takes. A keystone
event, a signal and a beacon for this device are noted, a beacon of a boot seen before without a log entry; DRYDOCK sends beacons.
The model's choices it rests on: log entries 93, 94, 95, 128. -/
def Obligations.Towpath : Prop :=
  (∀ (s t : State) (p : Fin 2) (two : Bool) (f : TpFrame) (ws : List Word) (h o : Hello) (old : Option Hello),
      (tpState s p = tpDown → s.isSet (Fld.TP_PORT_CFG_EN p) = true → pllOk s (6 + p) = true → SMap.get 0 s.portOut (13 + p) ≠ 3 →
        ((s.tpPort p).retry = false → DoesSome (.tpSignalDetect p) s (fun u => tpState u p = tpTraining ∧ u.out = s.out)) ∧
        ((s.tpPort p).retry = true → DoesSome (.tpRetry p) s (fun u => tpState u p = tpTraining ∧ (u.tpPort p).retry = false))) ∧
      (pllOk s (6 + p) = false ∨ SMap.get 0 s.portOut (13 + p) = 3 → Does (.tpSignalDetect p) s s) ∧
      (tpState s p = tpTraining → DoesSome (.tpBlockLock p two) s (fun u => tpState u p = tpNegotiate ∧
        u.get (Fld.TP_PORT_STATUS_WIDTH p) = (if two && SMap.get 0 s.portOut (13 + p) == 0 then 2 else 1))) ∧
      (tpState s p = tpTraining → DoesSome (.tpTrainingTimeout p) s (fun u => tpState u p = tpDown ∧ (u.tpPort p).retry = true ∧
        u.isSet (Fld.TP_PORT_EVT_DOWN p) = true)) ∧
      (t = tpUpdate s →
        (tpTalks s p = false → Does (.tpHelloSend p) s (tpUpdate t)) ∧
        (tpTalks s p = true → ∃ u, (u.tpPort p).sent = true ∧ u.fld = t.fld ∧
          SendsFrame t u p tpHello (t.get Fld.TP_STATUS_POSITION) 0xFF (helloWords t p) ∧
          (tpState s p ≠ tpNegotiate ∨ (s.tpPort p).hello = none → Does (.tpHelloSend p) s (tpUpdate u)) ∧
          (tpState s p = tpNegotiate → (s.tpPort p).hello = some h → Does (.tpHelloSend p) s (tpUpdate (tpAfterHello u p h none))))) ∧
      (tpTake s p f false (fun ws => ws.length == 5 && allZero (wordBytes ws) 35 5) = (t, some ws) → h = helloParse ws →
        Does (.hello p f) s (tpUpdate (tpAfterHello (t.modTpPort p (fun q => { q with hello := some h })) p h (t.tpPort p).hello))) ∧
      (tpState s p = tpNegotiate → (s.tpPort p).sent = true →
        (helloReturns s p h = false → h.revMax < 256 → h.port ≠ p.val → tpState (tpAfterHello s p h old) p = tpUp ∧
          (tpAfterHello s p h old).get (Fld.TP_PORT_STATUS_REV p) = min h.revMax (tpRevMax s)) ∧
        (h.port = p.val → tpState (tpAfterHello s p h old) p = tpBlocked ∧ (tpAfterHello s p h old).isSet (Fld.TP_PORT_EVT_MISWIRED p) = true)) ∧
      (tpState s 0 = tpNegotiate ∧ (s.tpPort 0).sent = true ∧ h.port ≠ 0 ∨ tpState s 0 = tpUp → helloReturns s 0 h = true →
        s.isSet Fld.TP_STATUS_IS_MASTER = true →
        tpState (tpAfterHello s 0 h old) 0 = tpBlocked ∧ (tpAfterHello s 0 h old).isSet Fld.TP_STATUS_RING = true) ∧
      (tpState s 0 = tpBlocked → s.isSet Fld.TP_STATUS_RING = true →
        (o.pos ≠ 0xF → h.pos < o.pos → tpState (tpAfterHello s 0 h (some o)) 0 = tpUp ∧ (tpAfterHello s 0 h (some o)).isSet Fld.TP_STATUS_RING = false) ∧
        (o.pos ≤ h.pos → tpAfterHello s 0 h (some o) = s)) ∧
      (tpState s p = tpUp → ∃ t, Does (.tpHelloTimeout p) s (tpUpdate (errorPin t pinTowpath (0x10 + p))) ∧
        Does (.tpLinkLoss p) s (tpUpdate (errorPin t pinTowpath (0x10 + p))) ∧ tpState t p = tpDown ∧
        t.get (Fld.TP_PORT_STATUS_WIDTH p) = 0 ∧ (t.tpPort p).hello = none ∧ t.isSet (Fld.TP_PORT_EVT_DOWN p) = true ∧
        t.isSet Fld.TP_EVT_TOPOLOGY = true) ∧
      (tpState s p = tpBlocked → ∃ t, Does (.tpHelloTimeout p) s (tpUpdate t) ∧ Does (.tpLinkLoss p) s (tpUpdate t) ∧ tpState t p = tpDown ∧
        (t.tpPort p).hello = none)) ∧
  (∀ (s : State) (p : Fin 2) (f : TpFrame) (w0 w1 w2 : Word) (t1 : Nat) (delay off : Int),
      (tpTalks s p = true → ∀ i ∈ [Instr.hello p f, .syncReq p f, .syncRsp p f, .ksEvent p f, .signals p f, .beacon p f],
        ((∃ x ∈ tpSyndromes s p f, eccOf x = .bad) →
          Does i s (tpBad (s.modTpPort p (fun q => { q with rx := some ((f.seq.toNat + 1) % 65536) })) p)) ∧
        ((∀ x ∈ tpSyndromes s p f, x = 0) → f.alien.isSome = true → DoesSome i s (fun u => u.isSet (Fld.TP_PORT_EVT_RX_BAD p) = true ∧
          u.get (Fld.TP_PORT_STATS_RX_BAD p) = (s.bumpSat (Fld.TP_PORT_STATS_RX_BAD p) 1).get (Fld.TP_PORT_STATS_RX_BAD p) ∧
          u.out = s.out ∧ u.tb = s.tb ∧ u.board = s.board ∧ tpState u p = tpState s p))) ∧
      (s.tp.via = some p.val → tpState s p = tpUp → s.devState ≠ devDrydock → DoesSome .syncReqSend s (fun u => (u.tpPort p).t1 = some s.now ∧
        SendsFrame s u p tpSyncReq (s.get Fld.TP_STATUS_POSITION) 0xFF [s.now])) ∧
      (tpState s p = tpUp → CleanFrame s p f →
        (f.words = [w0] → s.devState ≠ devDrydock → DoesSome (.syncReq p f) s (fun u =>
          SendsFrame s u p tpSyncRsp (s.get Fld.TP_STATUS_POSITION) 0xFF [s.now, s.now])) ∧
        (f.words = [w0, w1] → (s.tpPort p).t1 = some t1 → s.isSet Fld.TP_STATUS_IS_MASTER = true →
          delay = ((w0.toNat - t1) + (s.now - w1.toNat)) / 2 → DoesSome (.syncRsp p f) s (fun u =>
            u.get (Fld.TP_PORT_STATUS_DELAY_NS p) = min 65535 delay.toNat ∧ (u.tpPort p).t1 = none ∧ u.now = s.now)) ∧
        (f.words = [w0, w1] → (s.tpPort p).t1 = some t1 → s.isSet Fld.TP_STATUS_IS_MASTER = false → s.tp.via = some p.val → s.devState ≠ devDrydock →
          servoTakes s 3 = true → delay = ((w0.toNat - t1) + (s.now - w1.toNat)) / 2 →
          off = ((w0.toNat - t1) - (s.now - w1.toNat)) / 2 - (BitVec.ofNat 16 (s.get (Fld.TP_PORT_CFG_ASYM_NS p))).toInt →
          off.natAbs ≤ s.get Fld.TB_CTRL_STEP_THRESH_US * 1000 → off.natAbs < 2 ^ 31 → DoesSome (.syncRsp p f) s (fun u =>
            u.get (Fld.TP_PORT_STATUS_DELAY_NS p) = min 65535 delay.toNat ∧ (u.tpPort p).t1 = none ∧ u.now = s.now ∧
            u.get Fld.TB_STATUS_ACTIVE_SRC = 3 ∧ u.get Fld.TB_STATUS_OFFSET_NS = (BitVec.ofInt 32 off).toNat)) ∧
        (f.words = [w0, w1, w2] → bf w0.toNat 8 8 = 0 → bf w1.toNat 16 48 = 0 → f.dst.toNat = s.get Fld.TP_STATUS_POSITION →
          (bf w0.toNat 16 16, f.src.toNat) ∉ s.board.tpNow → s.board.tpNow.length < 64 → senseOf s 524 = 1 → s.devState ≠ devDrydock →
          DoesSome (.ksEvent p f) s (fun u => u.board.tpNow = s.board.tpNow ++ [(bf w0.toNat 16 16, f.src.toNat)] ∧ 524 ∈ u.ic.latch ∧ u.out = s.out)) ∧
        (f.words = [w0, w1, w2] → w0.toNat = 1 → 2 ≤ s.get (Fld.TP_PORT_STATUS_REV p) → f.dst.toNat = s.get Fld.TP_STATUS_POSITION →
          bf w1.toNat 24 8 = 0xFF → slotOwner s (bf w1.toNat 0 16) = some 56 → 1 ≤ bf w1.toNat 16 8 → bf w1.toNat 16 8 ≤ 3 → w2.toNat ≤ s.now →
          0 < w2.toNat → DoesSome (.signals p f) s (fun u => liveSlot u (bf w1.toNat 0 16) =
            ⟨BitVec.ofNat 32 (bf w1.toNat 32 32), bf w1.toNat 16 8, w2.toNat, s.tick⟩ ∧ u.board.view = s.board.view)) ∧
        (f.words = [w0, w1] → bf w1.toNat 8 8 = 0 → bf w1.toNat 32 32 = 0 → f.dst.toNat = s.get Fld.TP_STATUS_POSITION →
          DoesSome (.beacon p f) s (fun u => u.tp.beacons = s.tp.beacons.filter (fun b => b.serial != w0.toNat) ++ [⟨w0.toNat, [w0.toNat, w1.toNat], s.now⟩] ∧
            u.isSet Fld.TP_EVT_BEACON_SEEN = true ∧ (sameBoot s w0.toNat [w0.toNat, w1.toNat] = true → u.toll = s.toll) ∧
            (sameBoot s w0.toNat [w0.toNat, w1.toNat] = false → s.toll.logRate = [] → u.toll.logSeq = s.toll.logSeq + 1)))) ∧
      (s.devState = devDrydock → tpState s p = tpUp → DoesSome (.beaconSend p) s (fun u => SendsFrame s u p tpBeacon (s.get Fld.TP_STATUS_POSITION) 0xFF
        [s.toll.serial, s.get Fld.ST_SUMMARY_FAIL_STEP + s.get Fld.ST_SUMMARY_FAIL_CODE * 2 ^ 16])))

/-- One step takes the command at the front of the queue and runs it on the state with the rest of the queue. With none waiting, a cycle
of TBCLK passes (R30): that is the model's choice, log entry 2. -/
def Obligations.StepRunsFront : Prop :=
  (∀ (s : State) (c : Instr) (rest : List Instr), s.pending = c :: rest → step s = exec c { s with pending := rest }) ∧
  (∀ s : State, s.pending = [] → step s = .next (tbclk s)) ∧
  (∀ s : State, s.pending = [] → s.get Fld.TB_TRIM_TRIM = 0 → s.tb.acc = 0 → s.now < nextGrid s → s.now + 1 < 2 ^ 64 →
    ∃ t, step s = .next t ∧ t.now = s.now + 1 ∧ t.tick = s.tick ∧ t.chans = s.chans ∧ t.dram = s.dram)

/-- Every command completes in every state with a next state, which the interrupt controller has sampled (R321): none ends in a fault
or a refusal.
The model's choices it rests on: log entry 3. -/
def Obligations.EveryCommandCompletes : Prop :=
  ∀ (c : Instr) (s : State), ∃ u, exec c s = .next (settle u)

/-- R326: every step from a state in which it holds leaves the block having noted whether a source routed to a host vector is HELD in
D3hot with PME_En. What is noted for the first time sets PME_Status and sends PM_PME; while it stays noted PME_Status is left alone, so
that a write by software that clears PME_Status clears it for good. -/
def Obligations.HeldSourceIsNotified : Prop :=
  (∀ s t : State, PmeNoted s = true → step s = .next t → PmeNoted t = true) ∧
  (∀ u : State, pmeDue (settle u) = true →
    (u.host.pmeOn = false → (settle u).host.pmeStatus = true ∧ (settle u).out.getLast? = some .pmPme) ∧
    (u.host.pmeOn = true → (settle u).host.pmeStatus = u.host.pmeStatus)) ∧
  (∀ u : State, pmeDue (settle u) = false → (settle u).host.pmeStatus = u.host.pmeStatus) ∧
  (∀ (s : State) (v : Word), PmeNoted s = true → pmeDue s = true → s.devState ≠ devSelftest → bf v.toNat 0 2 = 3 → bit v.toNat 15 = true →
    ∃ t, exec (.registerWrite .config 0x44 v) s = .next t ∧ t.host.pmeStatus = false)

/-- The device's DRAM keeps its canonical form in every step, whatever command it takes. -/
def Obligations.EveryStepKeepsDramWf : Prop :=
  ∀ s t : State, DramWf s = true → step s = .next t → DramWf t = true

/-- The state after reset (R17, R31, R32, R147, R173, R241, R248, R268, R286, R315): SELFTEST, TICKNO and TIME_NS 0, every channel's threads stopped and
route IDLE, the pound free, streams UNDEFINED, drives ABSENT, every interrupt source without a delivery; the invariants hold.
The model's choices it rests on: log entries 7, 8, 9, 12. -/
def Obligations.ResetState : Prop :=
  State.reset.devState = devSelftest ∧ State.reset.tick = 0 ∧ State.reset.now = 0 ∧ State.reset.pending = [] ∧
  (∀ (c : Fin 56) (t : Fin 8), (State.reset.th c t).st = .stopped ∧ rtState State.reset c = rtIdle) ∧
  State.reset.credits = [] ∧ State.reset.get Fld.POUND_STATUS_FREE = 768 ∧ State.reset.get Fld.RING_SIZE_MIB = 10922 ∧
  (∀ i, strmState State.reset i = strmUndefined) ∧ (∀ n : Fin 4, drvState State.reset n = drvAbsent) ∧
  (∀ src, srcPending State.reset src = false ∧ inService State.reset src = false) ∧
  PmeNoted State.reset = true ∧ DramWf State.reset = true

/-- R120–R142: a keeper instruction that has an encoding is read back from the halfwords it is written as, with every operand at
every value; a short form whatever halfword follows it. -/
def Obligations.KeeperEncodingRoundTrip : Prop :=
  ∀ i : KInstr, i.wf = true → kDecode (kEncode i).1 (kEncode i).2 = some i ∧
    (kLen (kEncode i).1 = 1 → ∀ h1, kDecode (kEncode i).1 h1 = some i)

/-- Halfwords written out from the tables of R124 to R142 are read as the instructions they stand for; 0x0000 is undefined. -/
def Obligations.KeeperWords : Prop :=
  kDecode 0x1144 0 = some (.dreg .add 2 1) ∧ kDecode 0x2A7F 0 = some (.dimm .addi 2 0x7F) ∧ kDecode 0x7B0A 0 = some (.dsh .shl 1 2) ∧
  kDecode 0x7779 0 = some (.qreg .not 2 1) ∧ kDecode 0xD003 0x1234 = some (.moviW 3 0x1234) ∧ kDecode 0x4245 0 = some (.ldB 2 2 5) ∧
  kDecode 0x780A 0 = some (.divq 1 2) ∧ kDecode 0xCA00 0x0100 = some (.jmp 0x0100) ∧ kDecode 0x0915 0 = some (.tas 2 5) ∧
  kDecode 0x0503 0 = some (.repImm 3) ∧ kDecode 0x0005 0 = some .reti ∧ kDecode 0x0000 0 = none ∧ kDecode 0x0C00 0 = none

/-- A write of device DRAM is read back byte for byte, every other byte reads as before, the memory keeps its canonical form, and nothing but the
memory and its poison marks changes.
The model's choices it rests on: log entry 7. -/
def Obligations.DramReadsBack : Prop :=
  ∀ (s : State) (a : Nat) (bs : List Byte) (b : Nat),
    (s.dramWrite a bs).dramByte b = (if a ≤ b ∧ b < a + bs.length then bs.getD (b - a) 0 else s.dramByte b) ∧
    (DramWf s = true → DramWf (s.dramWrite a bs) = true) ∧
    { s.dramWrite a bs with dram := s.dram, poison := s.poison } = s
end

