-- ==== Sys2Proof/Laws/Bytes.lean ====
section
/-!
SUPPORT. Lengths and values of little-endian bytes, and a structure's CRC-32C read back.
-/
namespace Sys2Proof.Machine

@[simp] theorem leBytes_length (n v : Nat) : (leBytes n v).length = n := by
  induction n generalizing v with
  | zero => rfl
  | succ k ih => simp [leBytes, ih]

@[simp] theorem zeros_length (n : Nat) : (zeros n).length = n := List.length_replicate

/-- Bytes written little-endian read back as the number they hold. -/
theorem leNat_leBytes (n v : Nat) : leNat (leBytes n v) = v % 256 ^ n := by
  induction n generalizing v with
  | zero => simp [leBytes, leNat, Nat.mod_one]
  | succ k ih =>
    rw [leBytes, leNat, ih, pow_succ', BitVec.toNat_ofNat, Nat.mod_mul]

theorem crc32c_lt (bs : List Byte) : crc32c bs < 256 ^ 4 := by
  have h := ((bs.foldl crcByte 0xFFFFFFFF) ^^^ 0xFFFFFFFF).isLt
  exact Nat.lt_of_lt_of_le h (by norm_num)

/-- A structure whose CRC has been written reads as right. -/
theorem crcOk_withCrc (bs : List Byte) (off : Nat) (hl : off + 4 ≤ bs.length) (hz : bsub bs off 4 = zeros 4) :
    crcOk (withCrc bs off) off = true := by
  have hoff : (bs.take off).length = off := by simp; omega
  have h4 : bsub (withCrc bs off) off 4 = leBytes 4 (crc32c bs) := by
    unfold bsub withCrc
    rw [List.append_assoc, List.drop_append_of_le_length (by omega), List.drop_of_length_le (by omega), List.nil_append,
      List.take_append_of_le_length (by simp), List.take_of_length_le (by simp)]
  have ht : (withCrc bs off).take off = bs.take off := by
    unfold withCrc
    rw [List.append_assoc, List.take_append_of_le_length (by omega), List.take_of_length_le (by omega)]
  have hd : (withCrc bs off).drop (off + 4) = bs.drop (off + 4) := by
    unfold withCrc
    rw [List.drop_append_of_le_length (by simp; omega), List.drop_of_length_le (by simp), List.nil_append]
  have hb : bs.take off ++ zeros 4 ++ bs.drop (off + 4) = bs := by
    rw [← hz, List.append_assoc]
    unfold bsub
    rw [← List.drop_drop, List.take_append_drop, List.take_append_drop]
  unfold crcOk leAt
  rw [h4, ht, hd, hb, leNat_leBytes, Nat.mod_eq_of_lt (crc32c_lt bs), beq_self_eq_true]

/-- Writing the CRC keeps the length. -/
theorem withCrc_length (bs : List Byte) (off : Nat) (hl : off + 4 ≤ bs.length) : (withCrc bs off).length = bs.length := by
  simp [withCrc]
  omega

/-- Writing the CRC keeps what stands before it. -/
theorem bsub_withCrc (bs : List Byte) (off o n : Nat) (hl : off ≤ bs.length) (h : o + n ≤ off) : bsub (withCrc bs off) o n = bsub bs o n := by
  have ht : (bs.take off).length = off := by simp; omega
  unfold bsub withCrc
  rw [List.append_assoc, List.drop_append_of_le_length (by omega), List.take_append_of_le_length (by simp; omega), ← List.take_append_drop off bs,
    List.take_append_drop, List.drop_take, List.take_take, Nat.min_eq_left (by omega)]

end Sys2Proof.Machine
end

