-- ==== Sys2Proof/Laws/SMap.lean ====
section
/-!
SUPPORT. Laws of the sparse maps: a read after a write, what a write leaves alone, and that every operation keeps the canonical
form.
-/
namespace Sys2Proof.Machine

theorem SMap.find?_insert_same {α : Type} (m : List (Nat × α)) (k : Nat) (v : α) :
    SMap.find? (SMap.insert m k v) k = some v := by
  induction m with
  | nil => simp [SMap.insert, SMap.find?]
  | cons p t ih =>
    obtain ⟨j, w⟩ := p
    unfold SMap.insert
    split
    · simp [SMap.find?]
    · split
      · simp [SMap.find?]
      · rename_i h
        simp [SMap.find?, Ne.symm h, ih]

theorem SMap.find?_insert_ne {α : Type} (m : List (Nat × α)) {k j : Nat} (v : α) (h : j ≠ k) :
    SMap.find? (SMap.insert m k v) j = SMap.find? m j := by
  induction m with
  | nil => simp [SMap.insert, SMap.find?, Ne.symm h]
  | cons p t ih =>
    obtain ⟨i, w⟩ := p
    unfold SMap.insert
    split
    · simp [SMap.find?, Ne.symm h]
    · split
      · rename_i e
        subst e
        simp [SMap.find?, Ne.symm h]
      · simp [SMap.find?, ih]

theorem SMap.find?_erase_same {α : Type} (m : List (Nat × α)) (k : Nat) : SMap.find? (SMap.erase m k) k = none := by
  induction m with
  | nil => rfl
  | cons p t ih =>
    obtain ⟨j, w⟩ := p
    unfold SMap.erase
    split
    · exact ih
    · rename_i h
      simp [SMap.find?, h, ih]

theorem SMap.find?_erase_ne {α : Type} (m : List (Nat × α)) {k j : Nat} (h : j ≠ k) :
    SMap.find? (SMap.erase m k) j = SMap.find? m j := by
  induction m with
  | nil => rfl
  | cons p t ih =>
    obtain ⟨i, w⟩ := p
    unfold SMap.erase
    split
    · rename_i e
      subst e
      simp [SMap.find?, ih, Ne.symm h]
    · simp [SMap.find?, ih]

/-- A read after a write to the same key. -/
@[simp] theorem SMap.get_set_same {α : Type} [DecidableEq α] (d : α) (m : List (Nat × α)) (k : Nat) (v : α) :
    SMap.get d (SMap.set d m k v) k = v := by
  by_cases h : v = d
  · simp [SMap.get, SMap.set, h, SMap.find?_erase_same]
  · simp [SMap.get, SMap.set, h, SMap.find?_insert_same]

/-- A write leaves every other key alone. -/
theorem SMap.get_set_ne {α : Type} [DecidableEq α] (d b : α) (m : List (Nat × α)) {k j : Nat} (v : α) (h : j ≠ k) :
    SMap.get d (SMap.set b m k v) j = SMap.get d m j := by
  by_cases e : v = b
  · simp [SMap.get, SMap.set, e, SMap.find?_erase_ne m h]
  · simp [SMap.get, SMap.set, e, SMap.find?_insert_ne m v h]

@[simp] theorem SMap.get_insert_same {α : Type} (d : α) (m : List (Nat × α)) (k : Nat) (v : α) :
    SMap.get d (SMap.insert m k v) k = v := by
  unfold SMap.get
  rw [SMap.find?_insert_same]

theorem SMap.get_insert_ne {α : Type} (d : α) (m : List (Nat × α)) {k j : Nat} (v : α) (h : j ≠ k) :
    SMap.get d (SMap.insert m k v) j = SMap.get d m j := by
  unfold SMap.get
  rw [SMap.find?_insert_ne m v h]

/-! ### The canonical form -/

theorem SMap.wfFrom_weaken {α : Type} [DecidableEq α] {d : Nat → α} {lo hi : Nat} {m : List (Nat × α)} (h : lo ≤ hi)
    (w : SMap.wfFrom d hi m = true) : SMap.wfFrom d lo m = true := by
  cases m with
  | nil => rfl
  | cons p t =>
    obtain ⟨k, v⟩ := p
    simp only [SMap.wfFrom, Bool.and_eq_true, decide_eq_true_eq] at w ⊢
    exact ⟨⟨by omega, w.1.2⟩, w.2⟩

theorem SMap.wfFrom_insert {α : Type} [DecidableEq α] {d : Nat → α} {lo : Nat} {m : List (Nat × α)} {k : Nat} {v : α}
    (hk : lo ≤ k) (hv : v ≠ d k) (w : SMap.wfFrom d lo m = true) : SMap.wfFrom d lo (SMap.insert m k v) = true := by
  induction m generalizing lo with
  | nil => simp [SMap.insert, SMap.wfFrom, hk, hv]
  | cons p t ih =>
    obtain ⟨j, u⟩ := p
    simp only [SMap.wfFrom, Bool.and_eq_true, decide_eq_true_eq] at w
    unfold SMap.insert
    split
    · rename_i h
      simp only [SMap.wfFrom, Bool.and_eq_true, decide_eq_true_eq]
      exact ⟨⟨hk, hv⟩, ⟨by omega, w.1.2⟩, w.2⟩
    · split
      · rename_i e
        subst e
        simp only [SMap.wfFrom, Bool.and_eq_true, decide_eq_true_eq]
        exact ⟨⟨hk, hv⟩, w.2⟩
      · simp only [SMap.wfFrom, Bool.and_eq_true, decide_eq_true_eq]
        exact ⟨w.1, ih (by omega) w.2⟩

theorem SMap.wfFrom_erase {α : Type} [DecidableEq α] {d : Nat → α} {lo k : Nat} {m : List (Nat × α)}
    (w : SMap.wfFrom d lo m = true) : SMap.wfFrom d lo (SMap.erase m k) = true := by
  induction m generalizing lo with
  | nil => rfl
  | cons p t ih =>
    obtain ⟨j, u⟩ := p
    simp only [SMap.wfFrom, Bool.and_eq_true, decide_eq_true_eq] at w
    unfold SMap.erase
    split
    · exact SMap.wfFrom_weaken (by omega) (ih w.2)
    · simp only [SMap.wfFrom, Bool.and_eq_true, decide_eq_true_eq]
      exact ⟨w.1, ih w.2⟩

/-- A write keeps the canonical form. -/
theorem SMap.wf_set {α : Type} [DecidableEq α] {d : Nat → α} {m : List (Nat × α)} (k : Nat) (v : α)
    (w : SMap.wf d m = true) : SMap.wf d (SMap.set (d k) m k v) = true := by
  unfold SMap.wf SMap.set at *
  split
  · exact SMap.wfFrom_erase w
  · rename_i h
    exact SMap.wfFrom_insert (Nat.zero_le k) h w

end Sys2Proof.Machine
end

