-- ==== Sys2Proof/Laws/State.lean ====
section
/-!
SUPPORT. What each update of the state leaves as it was, field by field and true by `rfl`, and reads after the updates, so that
no later proof unfolds a record update. Flags are stated through `get` and `put`, threads and the like through `modCh`.
-/
namespace Sys2Proof.Machine

/-! ### Fields that an update does not touch -/

@[simp] theorem State.put_pending (s : State) (f : Fld) (v : Nat) : (s.put f v).pending = s.pending := rfl
@[simp] theorem State.put_chans (s : State) (f : Fld) (v : Nat) : (s.put f v).chans = s.chans := rfl
@[simp] theorem State.put_tb (s : State) (f : Fld) (v : Nat) : (s.put f v).tb = s.tb := rfl
@[simp] theorem State.put_board (s : State) (f : Fld) (v : Nat) : (s.put f v).board = s.board := rfl
@[simp] theorem State.put_accepted (s : State) (f : Fld) (v : Nat) : (s.put f v).accepted = s.accepted := rfl
@[simp] theorem State.put_polls (s : State) (f : Fld) (v : Nat) : (s.put f v).polls = s.polls := rfl
@[simp] theorem State.put_wqPolled (s : State) (f : Fld) (v : Nat) : (s.put f v).wqPolled = s.wqPolled := rfl
@[simp] theorem State.put_wqAgain (s : State) (f : Fld) (v : Nat) : (s.put f v).wqAgain = s.wqAgain := rfl
@[simp] theorem State.put_arb (s : State) (f : Fld) (v : Nat) : (s.put f v).arb = s.arb := rfl
@[simp] theorem State.put_crGap (s : State) (f : Fld) (v : Nat) : (s.put f v).crGap = s.crGap := rfl
@[simp] theorem State.put_basinq (s : State) (f : Fld) (v : Nat) : (s.put f v).basinq = s.basinq := rfl
@[simp] theorem State.put_serial (s : State) (f : Fld) (v : Nat) : (s.put f v).serial = s.serial := rfl
@[simp] theorem State.put_basin (s : State) (f : Fld) (v : Nat) : (s.put f v).basin = s.basin := rfl
@[simp] theorem State.put_credits (s : State) (f : Fld) (v : Nat) : (s.put f v).credits = s.credits := rfl
@[simp] theorem State.put_nextCredit (s : State) (f : Fld) (v : Nat) : (s.put f v).nextCredit = s.nextCredit := rfl
@[simp] theorem State.put_nextExt (s : State) (f : Fld) (v : Nat) : (s.put f v).nextExt = s.nextExt := rfl
@[simp] theorem State.put_courses (s : State) (f : Fld) (v : Nat) : (s.put f v).courses = s.courses := rfl
@[simp] theorem State.put_dones (s : State) (f : Fld) (v : Nat) : (s.put f v).dones = s.dones := rfl
@[simp] theorem State.put_ringFirst (s : State) (f : Fld) (v : Nat) : (s.put f v).ringFirst = s.ringFirst := rfl
@[simp] theorem State.put_dram (s : State) (f : Fld) (v : Nat) : (s.put f v).dram = s.dram := rfl
@[simp] theorem State.put_dramGiB (s : State) (f : Fld) (v : Nat) : (s.put f v).dramGiB = s.dramGiB := rfl
@[simp] theorem State.put_poison (s : State) (f : Fld) (v : Nat) : (s.put f v).poison = s.poison := rfl
@[simp] theorem State.put_pageCorr (s : State) (f : Fld) (v : Nat) : (s.put f v).pageCorr = s.pageCorr := rfl
@[simp] theorem State.put_rowCorr (s : State) (f : Fld) (v : Nat) : (s.put f v).rowCorr = s.rowCorr := rfl
@[simp] theorem State.put_retired (s : State) (f : Fld) (v : Nat) : (s.put f v).retired = s.retired := rfl
@[simp] theorem State.put_ic (s : State) (f : Fld) (v : Nat) : (s.put f v).ic = s.ic := rfl
@[simp] theorem State.put_host (s : State) (f : Fld) (v : Nat) : (s.put f v).host = s.host := rfl
@[simp] theorem State.put_waiting (s : State) (f : Fld) (v : Nat) : (s.put f v).waiting = s.waiting := rfl
@[simp] theorem State.put_pages (s : State) (f : Fld) (v : Nat) : (s.put f v).pages = s.pages := rfl
@[simp] theorem State.put_streams (s : State) (f : Fld) (v : Nat) : (s.put f v).streams = s.streams := rfl
@[simp] theorem State.put_drives (s : State) (f : Fld) (v : Nat) : (s.put f v).drives = s.drives := rfl
@[simp] theorem State.put_place (s : State) (f : Fld) (v : Nat) : (s.put f v).place = s.place := rfl
@[simp] theorem State.put_dip (s : State) (f : Fld) (v : Nat) : (s.put f v).dip = s.dip := rfl
@[simp] theorem State.put_recovered (s : State) (f : Fld) (v : Nat) : (s.put f v).recovered = s.recovered := rfl
@[simp] theorem State.put_escal (s : State) (f : Fld) (v : Nat) : (s.put f v).escal = s.escal := rfl
@[simp] theorem State.put_critWait (s : State) (f : Fld) (v : Nat) : (s.put f v).critWait = s.critWait := rfl
@[simp] theorem State.put_pinsSeen (s : State) (f : Fld) (v : Nat) : (s.put f v).pinsSeen = s.pinsSeen := rfl
@[simp] theorem State.put_pinsHeld (s : State) (f : Fld) (v : Nat) : (s.put f v).pinsHeld = s.pinsHeld := rfl
@[simp] theorem State.put_tilesOut (s : State) (f : Fld) (v : Nat) : (s.put f v).tilesOut = s.tilesOut := rfl
@[simp] theorem State.put_portOut (s : State) (f : Fld) (v : Nat) : (s.put f v).portOut = s.portOut := rfl
@[simp] theorem State.put_toll (s : State) (f : Fld) (v : Nat) : (s.put f v).toll = s.toll := rfl
@[simp] theorem State.put_tp (s : State) (f : Fld) (v : Nat) : (s.put f v).tp = s.tp := rfl
@[simp] theorem State.put_halting (s : State) (f : Fld) (v : Nat) : (s.put f v).halting = s.halting := rfl
@[simp] theorem State.put_free (s : State) (f : Fld) (v : Nat) : (s.put f v).free = s.free := rfl
@[simp] theorem State.put_out (s : State) (f : Fld) (v : Nat) : (s.put f v).out = s.out := rfl
@[simp] theorem State.put_ch (s : State) (f : Fld) (v : Nat) (c : Fin 56) : (s.put f v).ch c = s.ch c := rfl
@[simp] theorem State.put_drive (s : State) (f : Fld) (v : Nat) (n : Fin 4) : (s.put f v).drive n = s.drive n := rfl
@[simp] theorem State.put_strm (s : State) (f : Fld) (v : Nat) (j : Nat) : (s.put f v).strm j = s.strm j := rfl
@[simp] theorem State.put_ks (s : State) (f : Fld) (v : Nat) (k : Nat) : (s.put f v).ks k = s.ks k := rfl
@[simp] theorem State.put_tpPort (s : State) (f : Fld) (v : Nat) (p : Fin 2) : (s.put f v).tpPort p = s.tpPort p := rfl

@[simp] theorem State.modCh_pending (s : State) (c : Fin 56) (f : Chan → Chan) : (s.modCh c f).pending = s.pending := rfl
@[simp] theorem State.modCh_fld (s : State) (c : Fin 56) (f : Chan → Chan) : (s.modCh c f).fld = s.fld := rfl
@[simp] theorem State.modCh_tb (s : State) (c : Fin 56) (f : Chan → Chan) : (s.modCh c f).tb = s.tb := rfl
@[simp] theorem State.modCh_board (s : State) (c : Fin 56) (f : Chan → Chan) : (s.modCh c f).board = s.board := rfl
@[simp] theorem State.modCh_accepted (s : State) (c : Fin 56) (f : Chan → Chan) : (s.modCh c f).accepted = s.accepted := rfl
@[simp] theorem State.modCh_polls (s : State) (c : Fin 56) (f : Chan → Chan) : (s.modCh c f).polls = s.polls := rfl
@[simp] theorem State.modCh_wqPolled (s : State) (c : Fin 56) (f : Chan → Chan) : (s.modCh c f).wqPolled = s.wqPolled := rfl
@[simp] theorem State.modCh_wqAgain (s : State) (c : Fin 56) (f : Chan → Chan) : (s.modCh c f).wqAgain = s.wqAgain := rfl
@[simp] theorem State.modCh_arb (s : State) (c : Fin 56) (f : Chan → Chan) : (s.modCh c f).arb = s.arb := rfl
@[simp] theorem State.modCh_crGap (s : State) (c : Fin 56) (f : Chan → Chan) : (s.modCh c f).crGap = s.crGap := rfl
@[simp] theorem State.modCh_basinq (s : State) (c : Fin 56) (f : Chan → Chan) : (s.modCh c f).basinq = s.basinq := rfl
@[simp] theorem State.modCh_serial (s : State) (c : Fin 56) (f : Chan → Chan) : (s.modCh c f).serial = s.serial := rfl
@[simp] theorem State.modCh_basin (s : State) (c : Fin 56) (f : Chan → Chan) : (s.modCh c f).basin = s.basin := rfl
@[simp] theorem State.modCh_credits (s : State) (c : Fin 56) (f : Chan → Chan) : (s.modCh c f).credits = s.credits := rfl
@[simp] theorem State.modCh_nextCredit (s : State) (c : Fin 56) (f : Chan → Chan) : (s.modCh c f).nextCredit = s.nextCredit := rfl
@[simp] theorem State.modCh_nextExt (s : State) (c : Fin 56) (f : Chan → Chan) : (s.modCh c f).nextExt = s.nextExt := rfl
@[simp] theorem State.modCh_courses (s : State) (c : Fin 56) (f : Chan → Chan) : (s.modCh c f).courses = s.courses := rfl
@[simp] theorem State.modCh_dones (s : State) (c : Fin 56) (f : Chan → Chan) : (s.modCh c f).dones = s.dones := rfl
@[simp] theorem State.modCh_ringFirst (s : State) (c : Fin 56) (f : Chan → Chan) : (s.modCh c f).ringFirst = s.ringFirst := rfl
@[simp] theorem State.modCh_dram (s : State) (c : Fin 56) (f : Chan → Chan) : (s.modCh c f).dram = s.dram := rfl
@[simp] theorem State.modCh_dramGiB (s : State) (c : Fin 56) (f : Chan → Chan) : (s.modCh c f).dramGiB = s.dramGiB := rfl
@[simp] theorem State.modCh_poison (s : State) (c : Fin 56) (f : Chan → Chan) : (s.modCh c f).poison = s.poison := rfl
@[simp] theorem State.modCh_pageCorr (s : State) (c : Fin 56) (f : Chan → Chan) : (s.modCh c f).pageCorr = s.pageCorr := rfl
@[simp] theorem State.modCh_rowCorr (s : State) (c : Fin 56) (f : Chan → Chan) : (s.modCh c f).rowCorr = s.rowCorr := rfl
@[simp] theorem State.modCh_retired (s : State) (c : Fin 56) (f : Chan → Chan) : (s.modCh c f).retired = s.retired := rfl
@[simp] theorem State.modCh_ic (s : State) (c : Fin 56) (f : Chan → Chan) : (s.modCh c f).ic = s.ic := rfl
@[simp] theorem State.modCh_host (s : State) (c : Fin 56) (f : Chan → Chan) : (s.modCh c f).host = s.host := rfl
@[simp] theorem State.modCh_waiting (s : State) (c : Fin 56) (f : Chan → Chan) : (s.modCh c f).waiting = s.waiting := rfl
@[simp] theorem State.modCh_pages (s : State) (c : Fin 56) (f : Chan → Chan) : (s.modCh c f).pages = s.pages := rfl
@[simp] theorem State.modCh_streams (s : State) (c : Fin 56) (f : Chan → Chan) : (s.modCh c f).streams = s.streams := rfl
@[simp] theorem State.modCh_drives (s : State) (c : Fin 56) (f : Chan → Chan) : (s.modCh c f).drives = s.drives := rfl
@[simp] theorem State.modCh_place (s : State) (c : Fin 56) (f : Chan → Chan) : (s.modCh c f).place = s.place := rfl
@[simp] theorem State.modCh_dip (s : State) (c : Fin 56) (f : Chan → Chan) : (s.modCh c f).dip = s.dip := rfl
@[simp] theorem State.modCh_recovered (s : State) (c : Fin 56) (f : Chan → Chan) : (s.modCh c f).recovered = s.recovered := rfl
@[simp] theorem State.modCh_escal (s : State) (c : Fin 56) (f : Chan → Chan) : (s.modCh c f).escal = s.escal := rfl
@[simp] theorem State.modCh_critWait (s : State) (c : Fin 56) (f : Chan → Chan) : (s.modCh c f).critWait = s.critWait := rfl
@[simp] theorem State.modCh_pinsSeen (s : State) (c : Fin 56) (f : Chan → Chan) : (s.modCh c f).pinsSeen = s.pinsSeen := rfl
@[simp] theorem State.modCh_pinsHeld (s : State) (c : Fin 56) (f : Chan → Chan) : (s.modCh c f).pinsHeld = s.pinsHeld := rfl
@[simp] theorem State.modCh_tilesOut (s : State) (c : Fin 56) (f : Chan → Chan) : (s.modCh c f).tilesOut = s.tilesOut := rfl
@[simp] theorem State.modCh_portOut (s : State) (c : Fin 56) (f : Chan → Chan) : (s.modCh c f).portOut = s.portOut := rfl
@[simp] theorem State.modCh_toll (s : State) (c : Fin 56) (f : Chan → Chan) : (s.modCh c f).toll = s.toll := rfl
@[simp] theorem State.modCh_tp (s : State) (c : Fin 56) (f : Chan → Chan) : (s.modCh c f).tp = s.tp := rfl
@[simp] theorem State.modCh_halting (s : State) (c : Fin 56) (f : Chan → Chan) : (s.modCh c f).halting = s.halting := rfl
@[simp] theorem State.modCh_free (s : State) (c : Fin 56) (f : Chan → Chan) : (s.modCh c f).free = s.free := rfl
@[simp] theorem State.modCh_out (s : State) (c : Fin 56) (f : Chan → Chan) : (s.modCh c f).out = s.out := rfl
@[simp] theorem State.modCh_get (s : State) (c : Fin 56) (f : Chan → Chan) (g : Fld) : (s.modCh c f).get g = s.get g := rfl
@[simp] theorem State.modCh_drive (s : State) (c : Fin 56) (f : Chan → Chan) (n : Fin 4) : (s.modCh c f).drive n = s.drive n := rfl
@[simp] theorem State.modCh_strm (s : State) (c : Fin 56) (f : Chan → Chan) (j : Nat) : (s.modCh c f).strm j = s.strm j := rfl
@[simp] theorem State.modCh_ks (s : State) (c : Fin 56) (f : Chan → Chan) (k : Nat) : (s.modCh c f).ks k = s.ks k := rfl
@[simp] theorem State.modCh_tpPort (s : State) (c : Fin 56) (f : Chan → Chan) (p : Fin 2) : (s.modCh c f).tpPort p = s.tpPort p := rfl

@[simp] theorem State.modDrive_pending (s : State) (n : Fin 4) (f : Drive → Drive) : (s.modDrive n f).pending = s.pending := rfl
@[simp] theorem State.modDrive_fld (s : State) (n : Fin 4) (f : Drive → Drive) : (s.modDrive n f).fld = s.fld := rfl
@[simp] theorem State.modDrive_chans (s : State) (n : Fin 4) (f : Drive → Drive) : (s.modDrive n f).chans = s.chans := rfl
@[simp] theorem State.modDrive_tb (s : State) (n : Fin 4) (f : Drive → Drive) : (s.modDrive n f).tb = s.tb := rfl
@[simp] theorem State.modDrive_board (s : State) (n : Fin 4) (f : Drive → Drive) : (s.modDrive n f).board = s.board := rfl
@[simp] theorem State.modDrive_accepted (s : State) (n : Fin 4) (f : Drive → Drive) : (s.modDrive n f).accepted = s.accepted := rfl
@[simp] theorem State.modDrive_polls (s : State) (n : Fin 4) (f : Drive → Drive) : (s.modDrive n f).polls = s.polls := rfl
@[simp] theorem State.modDrive_wqPolled (s : State) (n : Fin 4) (f : Drive → Drive) : (s.modDrive n f).wqPolled = s.wqPolled := rfl
@[simp] theorem State.modDrive_wqAgain (s : State) (n : Fin 4) (f : Drive → Drive) : (s.modDrive n f).wqAgain = s.wqAgain := rfl
@[simp] theorem State.modDrive_arb (s : State) (n : Fin 4) (f : Drive → Drive) : (s.modDrive n f).arb = s.arb := rfl
@[simp] theorem State.modDrive_crGap (s : State) (n : Fin 4) (f : Drive → Drive) : (s.modDrive n f).crGap = s.crGap := rfl
@[simp] theorem State.modDrive_basinq (s : State) (n : Fin 4) (f : Drive → Drive) : (s.modDrive n f).basinq = s.basinq := rfl
@[simp] theorem State.modDrive_serial (s : State) (n : Fin 4) (f : Drive → Drive) : (s.modDrive n f).serial = s.serial := rfl
@[simp] theorem State.modDrive_basin (s : State) (n : Fin 4) (f : Drive → Drive) : (s.modDrive n f).basin = s.basin := rfl
@[simp] theorem State.modDrive_credits (s : State) (n : Fin 4) (f : Drive → Drive) : (s.modDrive n f).credits = s.credits := rfl
@[simp] theorem State.modDrive_nextCredit (s : State) (n : Fin 4) (f : Drive → Drive) : (s.modDrive n f).nextCredit = s.nextCredit := rfl
@[simp] theorem State.modDrive_nextExt (s : State) (n : Fin 4) (f : Drive → Drive) : (s.modDrive n f).nextExt = s.nextExt := rfl
@[simp] theorem State.modDrive_courses (s : State) (n : Fin 4) (f : Drive → Drive) : (s.modDrive n f).courses = s.courses := rfl
@[simp] theorem State.modDrive_dones (s : State) (n : Fin 4) (f : Drive → Drive) : (s.modDrive n f).dones = s.dones := rfl
@[simp] theorem State.modDrive_ringFirst (s : State) (n : Fin 4) (f : Drive → Drive) : (s.modDrive n f).ringFirst = s.ringFirst := rfl
@[simp] theorem State.modDrive_dram (s : State) (n : Fin 4) (f : Drive → Drive) : (s.modDrive n f).dram = s.dram := rfl
@[simp] theorem State.modDrive_dramGiB (s : State) (n : Fin 4) (f : Drive → Drive) : (s.modDrive n f).dramGiB = s.dramGiB := rfl
@[simp] theorem State.modDrive_poison (s : State) (n : Fin 4) (f : Drive → Drive) : (s.modDrive n f).poison = s.poison := rfl
@[simp] theorem State.modDrive_pageCorr (s : State) (n : Fin 4) (f : Drive → Drive) : (s.modDrive n f).pageCorr = s.pageCorr := rfl
@[simp] theorem State.modDrive_rowCorr (s : State) (n : Fin 4) (f : Drive → Drive) : (s.modDrive n f).rowCorr = s.rowCorr := rfl
@[simp] theorem State.modDrive_retired (s : State) (n : Fin 4) (f : Drive → Drive) : (s.modDrive n f).retired = s.retired := rfl
@[simp] theorem State.modDrive_ic (s : State) (n : Fin 4) (f : Drive → Drive) : (s.modDrive n f).ic = s.ic := rfl
@[simp] theorem State.modDrive_host (s : State) (n : Fin 4) (f : Drive → Drive) : (s.modDrive n f).host = s.host := rfl
@[simp] theorem State.modDrive_waiting (s : State) (n : Fin 4) (f : Drive → Drive) : (s.modDrive n f).waiting = s.waiting := rfl
@[simp] theorem State.modDrive_pages (s : State) (n : Fin 4) (f : Drive → Drive) : (s.modDrive n f).pages = s.pages := rfl
@[simp] theorem State.modDrive_streams (s : State) (n : Fin 4) (f : Drive → Drive) : (s.modDrive n f).streams = s.streams := rfl
@[simp] theorem State.modDrive_place (s : State) (n : Fin 4) (f : Drive → Drive) : (s.modDrive n f).place = s.place := rfl
@[simp] theorem State.modDrive_dip (s : State) (n : Fin 4) (f : Drive → Drive) : (s.modDrive n f).dip = s.dip := rfl
@[simp] theorem State.modDrive_recovered (s : State) (n : Fin 4) (f : Drive → Drive) : (s.modDrive n f).recovered = s.recovered := rfl
@[simp] theorem State.modDrive_escal (s : State) (n : Fin 4) (f : Drive → Drive) : (s.modDrive n f).escal = s.escal := rfl
@[simp] theorem State.modDrive_critWait (s : State) (n : Fin 4) (f : Drive → Drive) : (s.modDrive n f).critWait = s.critWait := rfl
@[simp] theorem State.modDrive_pinsSeen (s : State) (n : Fin 4) (f : Drive → Drive) : (s.modDrive n f).pinsSeen = s.pinsSeen := rfl
@[simp] theorem State.modDrive_pinsHeld (s : State) (n : Fin 4) (f : Drive → Drive) : (s.modDrive n f).pinsHeld = s.pinsHeld := rfl
@[simp] theorem State.modDrive_tilesOut (s : State) (n : Fin 4) (f : Drive → Drive) : (s.modDrive n f).tilesOut = s.tilesOut := rfl
@[simp] theorem State.modDrive_portOut (s : State) (n : Fin 4) (f : Drive → Drive) : (s.modDrive n f).portOut = s.portOut := rfl
@[simp] theorem State.modDrive_toll (s : State) (n : Fin 4) (f : Drive → Drive) : (s.modDrive n f).toll = s.toll := rfl
@[simp] theorem State.modDrive_tp (s : State) (n : Fin 4) (f : Drive → Drive) : (s.modDrive n f).tp = s.tp := rfl
@[simp] theorem State.modDrive_halting (s : State) (n : Fin 4) (f : Drive → Drive) : (s.modDrive n f).halting = s.halting := rfl
@[simp] theorem State.modDrive_free (s : State) (n : Fin 4) (f : Drive → Drive) : (s.modDrive n f).free = s.free := rfl
@[simp] theorem State.modDrive_out (s : State) (n : Fin 4) (f : Drive → Drive) : (s.modDrive n f).out = s.out := rfl
@[simp] theorem State.modDrive_get (s : State) (n : Fin 4) (f : Drive → Drive) (g : Fld) : (s.modDrive n f).get g = s.get g := rfl
@[simp] theorem State.modDrive_ch (s : State) (n : Fin 4) (f : Drive → Drive) (c : Fin 56) : (s.modDrive n f).ch c = s.ch c := rfl
@[simp] theorem State.modDrive_strm (s : State) (n : Fin 4) (f : Drive → Drive) (j : Nat) : (s.modDrive n f).strm j = s.strm j := rfl
@[simp] theorem State.modDrive_ks (s : State) (n : Fin 4) (f : Drive → Drive) (k : Nat) : (s.modDrive n f).ks k = s.ks k := rfl
@[simp] theorem State.modDrive_tpPort (s : State) (n : Fin 4) (f : Drive → Drive) (p : Fin 2) : (s.modDrive n f).tpPort p = s.tpPort p := rfl

@[simp] theorem State.modStrm_pending (s : State) (i : Nat) (f : Stream → Stream) : (s.modStrm i f).pending = s.pending := rfl
@[simp] theorem State.modStrm_fld (s : State) (i : Nat) (f : Stream → Stream) : (s.modStrm i f).fld = s.fld := rfl
@[simp] theorem State.modStrm_chans (s : State) (i : Nat) (f : Stream → Stream) : (s.modStrm i f).chans = s.chans := rfl
@[simp] theorem State.modStrm_tb (s : State) (i : Nat) (f : Stream → Stream) : (s.modStrm i f).tb = s.tb := rfl
@[simp] theorem State.modStrm_board (s : State) (i : Nat) (f : Stream → Stream) : (s.modStrm i f).board = s.board := rfl
@[simp] theorem State.modStrm_accepted (s : State) (i : Nat) (f : Stream → Stream) : (s.modStrm i f).accepted = s.accepted := rfl
@[simp] theorem State.modStrm_polls (s : State) (i : Nat) (f : Stream → Stream) : (s.modStrm i f).polls = s.polls := rfl
@[simp] theorem State.modStrm_wqPolled (s : State) (i : Nat) (f : Stream → Stream) : (s.modStrm i f).wqPolled = s.wqPolled := rfl
@[simp] theorem State.modStrm_wqAgain (s : State) (i : Nat) (f : Stream → Stream) : (s.modStrm i f).wqAgain = s.wqAgain := rfl
@[simp] theorem State.modStrm_arb (s : State) (i : Nat) (f : Stream → Stream) : (s.modStrm i f).arb = s.arb := rfl
@[simp] theorem State.modStrm_crGap (s : State) (i : Nat) (f : Stream → Stream) : (s.modStrm i f).crGap = s.crGap := rfl
@[simp] theorem State.modStrm_basinq (s : State) (i : Nat) (f : Stream → Stream) : (s.modStrm i f).basinq = s.basinq := rfl
@[simp] theorem State.modStrm_serial (s : State) (i : Nat) (f : Stream → Stream) : (s.modStrm i f).serial = s.serial := rfl
@[simp] theorem State.modStrm_basin (s : State) (i : Nat) (f : Stream → Stream) : (s.modStrm i f).basin = s.basin := rfl
@[simp] theorem State.modStrm_credits (s : State) (i : Nat) (f : Stream → Stream) : (s.modStrm i f).credits = s.credits := rfl
@[simp] theorem State.modStrm_nextCredit (s : State) (i : Nat) (f : Stream → Stream) : (s.modStrm i f).nextCredit = s.nextCredit := rfl
@[simp] theorem State.modStrm_nextExt (s : State) (i : Nat) (f : Stream → Stream) : (s.modStrm i f).nextExt = s.nextExt := rfl
@[simp] theorem State.modStrm_courses (s : State) (i : Nat) (f : Stream → Stream) : (s.modStrm i f).courses = s.courses := rfl
@[simp] theorem State.modStrm_dones (s : State) (i : Nat) (f : Stream → Stream) : (s.modStrm i f).dones = s.dones := rfl
@[simp] theorem State.modStrm_ringFirst (s : State) (i : Nat) (f : Stream → Stream) : (s.modStrm i f).ringFirst = s.ringFirst := rfl
@[simp] theorem State.modStrm_dram (s : State) (i : Nat) (f : Stream → Stream) : (s.modStrm i f).dram = s.dram := rfl
@[simp] theorem State.modStrm_dramGiB (s : State) (i : Nat) (f : Stream → Stream) : (s.modStrm i f).dramGiB = s.dramGiB := rfl
@[simp] theorem State.modStrm_poison (s : State) (i : Nat) (f : Stream → Stream) : (s.modStrm i f).poison = s.poison := rfl
@[simp] theorem State.modStrm_pageCorr (s : State) (i : Nat) (f : Stream → Stream) : (s.modStrm i f).pageCorr = s.pageCorr := rfl
@[simp] theorem State.modStrm_rowCorr (s : State) (i : Nat) (f : Stream → Stream) : (s.modStrm i f).rowCorr = s.rowCorr := rfl
@[simp] theorem State.modStrm_retired (s : State) (i : Nat) (f : Stream → Stream) : (s.modStrm i f).retired = s.retired := rfl
@[simp] theorem State.modStrm_ic (s : State) (i : Nat) (f : Stream → Stream) : (s.modStrm i f).ic = s.ic := rfl
@[simp] theorem State.modStrm_host (s : State) (i : Nat) (f : Stream → Stream) : (s.modStrm i f).host = s.host := rfl
@[simp] theorem State.modStrm_waiting (s : State) (i : Nat) (f : Stream → Stream) : (s.modStrm i f).waiting = s.waiting := rfl
@[simp] theorem State.modStrm_pages (s : State) (i : Nat) (f : Stream → Stream) : (s.modStrm i f).pages = s.pages := rfl
@[simp] theorem State.modStrm_drives (s : State) (i : Nat) (f : Stream → Stream) : (s.modStrm i f).drives = s.drives := rfl
@[simp] theorem State.modStrm_place (s : State) (i : Nat) (f : Stream → Stream) : (s.modStrm i f).place = s.place := rfl
@[simp] theorem State.modStrm_dip (s : State) (i : Nat) (f : Stream → Stream) : (s.modStrm i f).dip = s.dip := rfl
@[simp] theorem State.modStrm_recovered (s : State) (i : Nat) (f : Stream → Stream) : (s.modStrm i f).recovered = s.recovered := rfl
@[simp] theorem State.modStrm_escal (s : State) (i : Nat) (f : Stream → Stream) : (s.modStrm i f).escal = s.escal := rfl
@[simp] theorem State.modStrm_critWait (s : State) (i : Nat) (f : Stream → Stream) : (s.modStrm i f).critWait = s.critWait := rfl
@[simp] theorem State.modStrm_pinsSeen (s : State) (i : Nat) (f : Stream → Stream) : (s.modStrm i f).pinsSeen = s.pinsSeen := rfl
@[simp] theorem State.modStrm_pinsHeld (s : State) (i : Nat) (f : Stream → Stream) : (s.modStrm i f).pinsHeld = s.pinsHeld := rfl
@[simp] theorem State.modStrm_tilesOut (s : State) (i : Nat) (f : Stream → Stream) : (s.modStrm i f).tilesOut = s.tilesOut := rfl
@[simp] theorem State.modStrm_portOut (s : State) (i : Nat) (f : Stream → Stream) : (s.modStrm i f).portOut = s.portOut := rfl
@[simp] theorem State.modStrm_toll (s : State) (i : Nat) (f : Stream → Stream) : (s.modStrm i f).toll = s.toll := rfl
@[simp] theorem State.modStrm_tp (s : State) (i : Nat) (f : Stream → Stream) : (s.modStrm i f).tp = s.tp := rfl
@[simp] theorem State.modStrm_halting (s : State) (i : Nat) (f : Stream → Stream) : (s.modStrm i f).halting = s.halting := rfl
@[simp] theorem State.modStrm_free (s : State) (i : Nat) (f : Stream → Stream) : (s.modStrm i f).free = s.free := rfl
@[simp] theorem State.modStrm_out (s : State) (i : Nat) (f : Stream → Stream) : (s.modStrm i f).out = s.out := rfl
@[simp] theorem State.modStrm_get (s : State) (i : Nat) (f : Stream → Stream) (g : Fld) : (s.modStrm i f).get g = s.get g := rfl
@[simp] theorem State.modStrm_ch (s : State) (i : Nat) (f : Stream → Stream) (c : Fin 56) : (s.modStrm i f).ch c = s.ch c := rfl
@[simp] theorem State.modStrm_drive (s : State) (i : Nat) (f : Stream → Stream) (n : Fin 4) : (s.modStrm i f).drive n = s.drive n := rfl
@[simp] theorem State.modStrm_ks (s : State) (i : Nat) (f : Stream → Stream) (k : Nat) : (s.modStrm i f).ks k = s.ks k := rfl
@[simp] theorem State.modStrm_tpPort (s : State) (i : Nat) (f : Stream → Stream) (p : Fin 2) : (s.modStrm i f).tpPort p = s.tpPort p := rfl

@[simp] theorem State.modToll_pending (s : State) (f : TollHouse → TollHouse) : (s.modToll f).pending = s.pending := rfl
@[simp] theorem State.modToll_fld (s : State) (f : TollHouse → TollHouse) : (s.modToll f).fld = s.fld := rfl
@[simp] theorem State.modToll_chans (s : State) (f : TollHouse → TollHouse) : (s.modToll f).chans = s.chans := rfl
@[simp] theorem State.modToll_tb (s : State) (f : TollHouse → TollHouse) : (s.modToll f).tb = s.tb := rfl
@[simp] theorem State.modToll_board (s : State) (f : TollHouse → TollHouse) : (s.modToll f).board = s.board := rfl
@[simp] theorem State.modToll_accepted (s : State) (f : TollHouse → TollHouse) : (s.modToll f).accepted = s.accepted := rfl
@[simp] theorem State.modToll_polls (s : State) (f : TollHouse → TollHouse) : (s.modToll f).polls = s.polls := rfl
@[simp] theorem State.modToll_wqPolled (s : State) (f : TollHouse → TollHouse) : (s.modToll f).wqPolled = s.wqPolled := rfl
@[simp] theorem State.modToll_wqAgain (s : State) (f : TollHouse → TollHouse) : (s.modToll f).wqAgain = s.wqAgain := rfl
@[simp] theorem State.modToll_arb (s : State) (f : TollHouse → TollHouse) : (s.modToll f).arb = s.arb := rfl
@[simp] theorem State.modToll_crGap (s : State) (f : TollHouse → TollHouse) : (s.modToll f).crGap = s.crGap := rfl
@[simp] theorem State.modToll_basinq (s : State) (f : TollHouse → TollHouse) : (s.modToll f).basinq = s.basinq := rfl
@[simp] theorem State.modToll_serial (s : State) (f : TollHouse → TollHouse) : (s.modToll f).serial = s.serial := rfl
@[simp] theorem State.modToll_basin (s : State) (f : TollHouse → TollHouse) : (s.modToll f).basin = s.basin := rfl
@[simp] theorem State.modToll_credits (s : State) (f : TollHouse → TollHouse) : (s.modToll f).credits = s.credits := rfl
@[simp] theorem State.modToll_nextCredit (s : State) (f : TollHouse → TollHouse) : (s.modToll f).nextCredit = s.nextCredit := rfl
@[simp] theorem State.modToll_nextExt (s : State) (f : TollHouse → TollHouse) : (s.modToll f).nextExt = s.nextExt := rfl
@[simp] theorem State.modToll_courses (s : State) (f : TollHouse → TollHouse) : (s.modToll f).courses = s.courses := rfl
@[simp] theorem State.modToll_dones (s : State) (f : TollHouse → TollHouse) : (s.modToll f).dones = s.dones := rfl
@[simp] theorem State.modToll_ringFirst (s : State) (f : TollHouse → TollHouse) : (s.modToll f).ringFirst = s.ringFirst := rfl
@[simp] theorem State.modToll_dram (s : State) (f : TollHouse → TollHouse) : (s.modToll f).dram = s.dram := rfl
@[simp] theorem State.modToll_dramGiB (s : State) (f : TollHouse → TollHouse) : (s.modToll f).dramGiB = s.dramGiB := rfl
@[simp] theorem State.modToll_poison (s : State) (f : TollHouse → TollHouse) : (s.modToll f).poison = s.poison := rfl
@[simp] theorem State.modToll_pageCorr (s : State) (f : TollHouse → TollHouse) : (s.modToll f).pageCorr = s.pageCorr := rfl
@[simp] theorem State.modToll_rowCorr (s : State) (f : TollHouse → TollHouse) : (s.modToll f).rowCorr = s.rowCorr := rfl
@[simp] theorem State.modToll_retired (s : State) (f : TollHouse → TollHouse) : (s.modToll f).retired = s.retired := rfl
@[simp] theorem State.modToll_ic (s : State) (f : TollHouse → TollHouse) : (s.modToll f).ic = s.ic := rfl
@[simp] theorem State.modToll_host (s : State) (f : TollHouse → TollHouse) : (s.modToll f).host = s.host := rfl
@[simp] theorem State.modToll_waiting (s : State) (f : TollHouse → TollHouse) : (s.modToll f).waiting = s.waiting := rfl
@[simp] theorem State.modToll_pages (s : State) (f : TollHouse → TollHouse) : (s.modToll f).pages = s.pages := rfl
@[simp] theorem State.modToll_streams (s : State) (f : TollHouse → TollHouse) : (s.modToll f).streams = s.streams := rfl
@[simp] theorem State.modToll_drives (s : State) (f : TollHouse → TollHouse) : (s.modToll f).drives = s.drives := rfl
@[simp] theorem State.modToll_place (s : State) (f : TollHouse → TollHouse) : (s.modToll f).place = s.place := rfl
@[simp] theorem State.modToll_dip (s : State) (f : TollHouse → TollHouse) : (s.modToll f).dip = s.dip := rfl
@[simp] theorem State.modToll_recovered (s : State) (f : TollHouse → TollHouse) : (s.modToll f).recovered = s.recovered := rfl
@[simp] theorem State.modToll_escal (s : State) (f : TollHouse → TollHouse) : (s.modToll f).escal = s.escal := rfl
@[simp] theorem State.modToll_critWait (s : State) (f : TollHouse → TollHouse) : (s.modToll f).critWait = s.critWait := rfl
@[simp] theorem State.modToll_pinsSeen (s : State) (f : TollHouse → TollHouse) : (s.modToll f).pinsSeen = s.pinsSeen := rfl
@[simp] theorem State.modToll_pinsHeld (s : State) (f : TollHouse → TollHouse) : (s.modToll f).pinsHeld = s.pinsHeld := rfl
@[simp] theorem State.modToll_tilesOut (s : State) (f : TollHouse → TollHouse) : (s.modToll f).tilesOut = s.tilesOut := rfl
@[simp] theorem State.modToll_portOut (s : State) (f : TollHouse → TollHouse) : (s.modToll f).portOut = s.portOut := rfl
@[simp] theorem State.modToll_tp (s : State) (f : TollHouse → TollHouse) : (s.modToll f).tp = s.tp := rfl
@[simp] theorem State.modToll_halting (s : State) (f : TollHouse → TollHouse) : (s.modToll f).halting = s.halting := rfl
@[simp] theorem State.modToll_free (s : State) (f : TollHouse → TollHouse) : (s.modToll f).free = s.free := rfl
@[simp] theorem State.modToll_out (s : State) (f : TollHouse → TollHouse) : (s.modToll f).out = s.out := rfl
@[simp] theorem State.modToll_get (s : State) (f : TollHouse → TollHouse) (g : Fld) : (s.modToll f).get g = s.get g := rfl
@[simp] theorem State.modToll_ch (s : State) (f : TollHouse → TollHouse) (c : Fin 56) : (s.modToll f).ch c = s.ch c := rfl
@[simp] theorem State.modToll_drive (s : State) (f : TollHouse → TollHouse) (n : Fin 4) : (s.modToll f).drive n = s.drive n := rfl
@[simp] theorem State.modToll_strm (s : State) (f : TollHouse → TollHouse) (j : Nat) : (s.modToll f).strm j = s.strm j := rfl
@[simp] theorem State.modToll_ks (s : State) (f : TollHouse → TollHouse) (k : Nat) : (s.modToll f).ks k = s.ks k := rfl
@[simp] theorem State.modToll_tpPort (s : State) (f : TollHouse → TollHouse) (p : Fin 2) : (s.modToll f).tpPort p = s.tpPort p := rfl

@[simp] theorem State.modTb_pending (s : State) (f : Timebase → Timebase) : (s.modTb f).pending = s.pending := rfl
@[simp] theorem State.modTb_fld (s : State) (f : Timebase → Timebase) : (s.modTb f).fld = s.fld := rfl
@[simp] theorem State.modTb_chans (s : State) (f : Timebase → Timebase) : (s.modTb f).chans = s.chans := rfl
@[simp] theorem State.modTb_board (s : State) (f : Timebase → Timebase) : (s.modTb f).board = s.board := rfl
@[simp] theorem State.modTb_accepted (s : State) (f : Timebase → Timebase) : (s.modTb f).accepted = s.accepted := rfl
@[simp] theorem State.modTb_polls (s : State) (f : Timebase → Timebase) : (s.modTb f).polls = s.polls := rfl
@[simp] theorem State.modTb_wqPolled (s : State) (f : Timebase → Timebase) : (s.modTb f).wqPolled = s.wqPolled := rfl
@[simp] theorem State.modTb_wqAgain (s : State) (f : Timebase → Timebase) : (s.modTb f).wqAgain = s.wqAgain := rfl
@[simp] theorem State.modTb_arb (s : State) (f : Timebase → Timebase) : (s.modTb f).arb = s.arb := rfl
@[simp] theorem State.modTb_crGap (s : State) (f : Timebase → Timebase) : (s.modTb f).crGap = s.crGap := rfl
@[simp] theorem State.modTb_basinq (s : State) (f : Timebase → Timebase) : (s.modTb f).basinq = s.basinq := rfl
@[simp] theorem State.modTb_serial (s : State) (f : Timebase → Timebase) : (s.modTb f).serial = s.serial := rfl
@[simp] theorem State.modTb_basin (s : State) (f : Timebase → Timebase) : (s.modTb f).basin = s.basin := rfl
@[simp] theorem State.modTb_credits (s : State) (f : Timebase → Timebase) : (s.modTb f).credits = s.credits := rfl
@[simp] theorem State.modTb_nextCredit (s : State) (f : Timebase → Timebase) : (s.modTb f).nextCredit = s.nextCredit := rfl
@[simp] theorem State.modTb_nextExt (s : State) (f : Timebase → Timebase) : (s.modTb f).nextExt = s.nextExt := rfl
@[simp] theorem State.modTb_courses (s : State) (f : Timebase → Timebase) : (s.modTb f).courses = s.courses := rfl
@[simp] theorem State.modTb_dones (s : State) (f : Timebase → Timebase) : (s.modTb f).dones = s.dones := rfl
@[simp] theorem State.modTb_ringFirst (s : State) (f : Timebase → Timebase) : (s.modTb f).ringFirst = s.ringFirst := rfl
@[simp] theorem State.modTb_dram (s : State) (f : Timebase → Timebase) : (s.modTb f).dram = s.dram := rfl
@[simp] theorem State.modTb_dramGiB (s : State) (f : Timebase → Timebase) : (s.modTb f).dramGiB = s.dramGiB := rfl
@[simp] theorem State.modTb_poison (s : State) (f : Timebase → Timebase) : (s.modTb f).poison = s.poison := rfl
@[simp] theorem State.modTb_pageCorr (s : State) (f : Timebase → Timebase) : (s.modTb f).pageCorr = s.pageCorr := rfl
@[simp] theorem State.modTb_rowCorr (s : State) (f : Timebase → Timebase) : (s.modTb f).rowCorr = s.rowCorr := rfl
@[simp] theorem State.modTb_retired (s : State) (f : Timebase → Timebase) : (s.modTb f).retired = s.retired := rfl
@[simp] theorem State.modTb_ic (s : State) (f : Timebase → Timebase) : (s.modTb f).ic = s.ic := rfl
@[simp] theorem State.modTb_host (s : State) (f : Timebase → Timebase) : (s.modTb f).host = s.host := rfl
@[simp] theorem State.modTb_waiting (s : State) (f : Timebase → Timebase) : (s.modTb f).waiting = s.waiting := rfl
@[simp] theorem State.modTb_pages (s : State) (f : Timebase → Timebase) : (s.modTb f).pages = s.pages := rfl
@[simp] theorem State.modTb_streams (s : State) (f : Timebase → Timebase) : (s.modTb f).streams = s.streams := rfl
@[simp] theorem State.modTb_drives (s : State) (f : Timebase → Timebase) : (s.modTb f).drives = s.drives := rfl
@[simp] theorem State.modTb_place (s : State) (f : Timebase → Timebase) : (s.modTb f).place = s.place := rfl
@[simp] theorem State.modTb_dip (s : State) (f : Timebase → Timebase) : (s.modTb f).dip = s.dip := rfl
@[simp] theorem State.modTb_recovered (s : State) (f : Timebase → Timebase) : (s.modTb f).recovered = s.recovered := rfl
@[simp] theorem State.modTb_escal (s : State) (f : Timebase → Timebase) : (s.modTb f).escal = s.escal := rfl
@[simp] theorem State.modTb_critWait (s : State) (f : Timebase → Timebase) : (s.modTb f).critWait = s.critWait := rfl
@[simp] theorem State.modTb_pinsSeen (s : State) (f : Timebase → Timebase) : (s.modTb f).pinsSeen = s.pinsSeen := rfl
@[simp] theorem State.modTb_pinsHeld (s : State) (f : Timebase → Timebase) : (s.modTb f).pinsHeld = s.pinsHeld := rfl
@[simp] theorem State.modTb_tilesOut (s : State) (f : Timebase → Timebase) : (s.modTb f).tilesOut = s.tilesOut := rfl
@[simp] theorem State.modTb_portOut (s : State) (f : Timebase → Timebase) : (s.modTb f).portOut = s.portOut := rfl
@[simp] theorem State.modTb_toll (s : State) (f : Timebase → Timebase) : (s.modTb f).toll = s.toll := rfl
@[simp] theorem State.modTb_tp (s : State) (f : Timebase → Timebase) : (s.modTb f).tp = s.tp := rfl
@[simp] theorem State.modTb_halting (s : State) (f : Timebase → Timebase) : (s.modTb f).halting = s.halting := rfl
@[simp] theorem State.modTb_free (s : State) (f : Timebase → Timebase) : (s.modTb f).free = s.free := rfl
@[simp] theorem State.modTb_out (s : State) (f : Timebase → Timebase) : (s.modTb f).out = s.out := rfl
@[simp] theorem State.modTb_get (s : State) (f : Timebase → Timebase) (g : Fld) : (s.modTb f).get g = s.get g := rfl
@[simp] theorem State.modTb_ch (s : State) (f : Timebase → Timebase) (c : Fin 56) : (s.modTb f).ch c = s.ch c := rfl
@[simp] theorem State.modTb_drive (s : State) (f : Timebase → Timebase) (n : Fin 4) : (s.modTb f).drive n = s.drive n := rfl
@[simp] theorem State.modTb_strm (s : State) (f : Timebase → Timebase) (j : Nat) : (s.modTb f).strm j = s.strm j := rfl
@[simp] theorem State.modTb_ks (s : State) (f : Timebase → Timebase) (k : Nat) : (s.modTb f).ks k = s.ks k := rfl
@[simp] theorem State.modTb_tpPort (s : State) (f : Timebase → Timebase) (p : Fin 2) : (s.modTb f).tpPort p = s.tpPort p := rfl

@[simp] theorem State.modBoard_pending (s : State) (f : Board → Board) : (s.modBoard f).pending = s.pending := rfl
@[simp] theorem State.modBoard_fld (s : State) (f : Board → Board) : (s.modBoard f).fld = s.fld := rfl
@[simp] theorem State.modBoard_chans (s : State) (f : Board → Board) : (s.modBoard f).chans = s.chans := rfl
@[simp] theorem State.modBoard_tb (s : State) (f : Board → Board) : (s.modBoard f).tb = s.tb := rfl
@[simp] theorem State.modBoard_accepted (s : State) (f : Board → Board) : (s.modBoard f).accepted = s.accepted := rfl
@[simp] theorem State.modBoard_polls (s : State) (f : Board → Board) : (s.modBoard f).polls = s.polls := rfl
@[simp] theorem State.modBoard_wqPolled (s : State) (f : Board → Board) : (s.modBoard f).wqPolled = s.wqPolled := rfl
@[simp] theorem State.modBoard_wqAgain (s : State) (f : Board → Board) : (s.modBoard f).wqAgain = s.wqAgain := rfl
@[simp] theorem State.modBoard_arb (s : State) (f : Board → Board) : (s.modBoard f).arb = s.arb := rfl
@[simp] theorem State.modBoard_crGap (s : State) (f : Board → Board) : (s.modBoard f).crGap = s.crGap := rfl
@[simp] theorem State.modBoard_basinq (s : State) (f : Board → Board) : (s.modBoard f).basinq = s.basinq := rfl
@[simp] theorem State.modBoard_serial (s : State) (f : Board → Board) : (s.modBoard f).serial = s.serial := rfl
@[simp] theorem State.modBoard_basin (s : State) (f : Board → Board) : (s.modBoard f).basin = s.basin := rfl
@[simp] theorem State.modBoard_credits (s : State) (f : Board → Board) : (s.modBoard f).credits = s.credits := rfl
@[simp] theorem State.modBoard_nextCredit (s : State) (f : Board → Board) : (s.modBoard f).nextCredit = s.nextCredit := rfl
@[simp] theorem State.modBoard_nextExt (s : State) (f : Board → Board) : (s.modBoard f).nextExt = s.nextExt := rfl
@[simp] theorem State.modBoard_courses (s : State) (f : Board → Board) : (s.modBoard f).courses = s.courses := rfl
@[simp] theorem State.modBoard_dones (s : State) (f : Board → Board) : (s.modBoard f).dones = s.dones := rfl
@[simp] theorem State.modBoard_ringFirst (s : State) (f : Board → Board) : (s.modBoard f).ringFirst = s.ringFirst := rfl
@[simp] theorem State.modBoard_dram (s : State) (f : Board → Board) : (s.modBoard f).dram = s.dram := rfl
@[simp] theorem State.modBoard_dramGiB (s : State) (f : Board → Board) : (s.modBoard f).dramGiB = s.dramGiB := rfl
@[simp] theorem State.modBoard_poison (s : State) (f : Board → Board) : (s.modBoard f).poison = s.poison := rfl
@[simp] theorem State.modBoard_pageCorr (s : State) (f : Board → Board) : (s.modBoard f).pageCorr = s.pageCorr := rfl
@[simp] theorem State.modBoard_rowCorr (s : State) (f : Board → Board) : (s.modBoard f).rowCorr = s.rowCorr := rfl
@[simp] theorem State.modBoard_retired (s : State) (f : Board → Board) : (s.modBoard f).retired = s.retired := rfl
@[simp] theorem State.modBoard_ic (s : State) (f : Board → Board) : (s.modBoard f).ic = s.ic := rfl
@[simp] theorem State.modBoard_host (s : State) (f : Board → Board) : (s.modBoard f).host = s.host := rfl
@[simp] theorem State.modBoard_waiting (s : State) (f : Board → Board) : (s.modBoard f).waiting = s.waiting := rfl
@[simp] theorem State.modBoard_pages (s : State) (f : Board → Board) : (s.modBoard f).pages = s.pages := rfl
@[simp] theorem State.modBoard_streams (s : State) (f : Board → Board) : (s.modBoard f).streams = s.streams := rfl
@[simp] theorem State.modBoard_drives (s : State) (f : Board → Board) : (s.modBoard f).drives = s.drives := rfl
@[simp] theorem State.modBoard_place (s : State) (f : Board → Board) : (s.modBoard f).place = s.place := rfl
@[simp] theorem State.modBoard_dip (s : State) (f : Board → Board) : (s.modBoard f).dip = s.dip := rfl
@[simp] theorem State.modBoard_recovered (s : State) (f : Board → Board) : (s.modBoard f).recovered = s.recovered := rfl
@[simp] theorem State.modBoard_escal (s : State) (f : Board → Board) : (s.modBoard f).escal = s.escal := rfl
@[simp] theorem State.modBoard_critWait (s : State) (f : Board → Board) : (s.modBoard f).critWait = s.critWait := rfl
@[simp] theorem State.modBoard_pinsSeen (s : State) (f : Board → Board) : (s.modBoard f).pinsSeen = s.pinsSeen := rfl
@[simp] theorem State.modBoard_pinsHeld (s : State) (f : Board → Board) : (s.modBoard f).pinsHeld = s.pinsHeld := rfl
@[simp] theorem State.modBoard_tilesOut (s : State) (f : Board → Board) : (s.modBoard f).tilesOut = s.tilesOut := rfl
@[simp] theorem State.modBoard_portOut (s : State) (f : Board → Board) : (s.modBoard f).portOut = s.portOut := rfl
@[simp] theorem State.modBoard_toll (s : State) (f : Board → Board) : (s.modBoard f).toll = s.toll := rfl
@[simp] theorem State.modBoard_tp (s : State) (f : Board → Board) : (s.modBoard f).tp = s.tp := rfl
@[simp] theorem State.modBoard_halting (s : State) (f : Board → Board) : (s.modBoard f).halting = s.halting := rfl
@[simp] theorem State.modBoard_free (s : State) (f : Board → Board) : (s.modBoard f).free = s.free := rfl
@[simp] theorem State.modBoard_out (s : State) (f : Board → Board) : (s.modBoard f).out = s.out := rfl
@[simp] theorem State.modBoard_get (s : State) (f : Board → Board) (g : Fld) : (s.modBoard f).get g = s.get g := rfl
@[simp] theorem State.modBoard_ch (s : State) (f : Board → Board) (c : Fin 56) : (s.modBoard f).ch c = s.ch c := rfl
@[simp] theorem State.modBoard_drive (s : State) (f : Board → Board) (n : Fin 4) : (s.modBoard f).drive n = s.drive n := rfl
@[simp] theorem State.modBoard_strm (s : State) (f : Board → Board) (j : Nat) : (s.modBoard f).strm j = s.strm j := rfl
@[simp] theorem State.modBoard_tpPort (s : State) (f : Board → Board) (p : Fin 2) : (s.modBoard f).tpPort p = s.tpPort p := rfl

@[simp] theorem State.modPlace_pending (s : State) (f : Place → Place) : (s.modPlace f).pending = s.pending := rfl
@[simp] theorem State.modPlace_fld (s : State) (f : Place → Place) : (s.modPlace f).fld = s.fld := rfl
@[simp] theorem State.modPlace_chans (s : State) (f : Place → Place) : (s.modPlace f).chans = s.chans := rfl
@[simp] theorem State.modPlace_tb (s : State) (f : Place → Place) : (s.modPlace f).tb = s.tb := rfl
@[simp] theorem State.modPlace_board (s : State) (f : Place → Place) : (s.modPlace f).board = s.board := rfl
@[simp] theorem State.modPlace_accepted (s : State) (f : Place → Place) : (s.modPlace f).accepted = s.accepted := rfl
@[simp] theorem State.modPlace_polls (s : State) (f : Place → Place) : (s.modPlace f).polls = s.polls := rfl
@[simp] theorem State.modPlace_wqPolled (s : State) (f : Place → Place) : (s.modPlace f).wqPolled = s.wqPolled := rfl
@[simp] theorem State.modPlace_wqAgain (s : State) (f : Place → Place) : (s.modPlace f).wqAgain = s.wqAgain := rfl
@[simp] theorem State.modPlace_arb (s : State) (f : Place → Place) : (s.modPlace f).arb = s.arb := rfl
@[simp] theorem State.modPlace_crGap (s : State) (f : Place → Place) : (s.modPlace f).crGap = s.crGap := rfl
@[simp] theorem State.modPlace_basinq (s : State) (f : Place → Place) : (s.modPlace f).basinq = s.basinq := rfl
@[simp] theorem State.modPlace_serial (s : State) (f : Place → Place) : (s.modPlace f).serial = s.serial := rfl
@[simp] theorem State.modPlace_basin (s : State) (f : Place → Place) : (s.modPlace f).basin = s.basin := rfl
@[simp] theorem State.modPlace_credits (s : State) (f : Place → Place) : (s.modPlace f).credits = s.credits := rfl
@[simp] theorem State.modPlace_nextCredit (s : State) (f : Place → Place) : (s.modPlace f).nextCredit = s.nextCredit := rfl
@[simp] theorem State.modPlace_nextExt (s : State) (f : Place → Place) : (s.modPlace f).nextExt = s.nextExt := rfl
@[simp] theorem State.modPlace_courses (s : State) (f : Place → Place) : (s.modPlace f).courses = s.courses := rfl
@[simp] theorem State.modPlace_dones (s : State) (f : Place → Place) : (s.modPlace f).dones = s.dones := rfl
@[simp] theorem State.modPlace_ringFirst (s : State) (f : Place → Place) : (s.modPlace f).ringFirst = s.ringFirst := rfl
@[simp] theorem State.modPlace_dram (s : State) (f : Place → Place) : (s.modPlace f).dram = s.dram := rfl
@[simp] theorem State.modPlace_dramGiB (s : State) (f : Place → Place) : (s.modPlace f).dramGiB = s.dramGiB := rfl
@[simp] theorem State.modPlace_poison (s : State) (f : Place → Place) : (s.modPlace f).poison = s.poison := rfl
@[simp] theorem State.modPlace_pageCorr (s : State) (f : Place → Place) : (s.modPlace f).pageCorr = s.pageCorr := rfl
@[simp] theorem State.modPlace_rowCorr (s : State) (f : Place → Place) : (s.modPlace f).rowCorr = s.rowCorr := rfl
@[simp] theorem State.modPlace_retired (s : State) (f : Place → Place) : (s.modPlace f).retired = s.retired := rfl
@[simp] theorem State.modPlace_ic (s : State) (f : Place → Place) : (s.modPlace f).ic = s.ic := rfl
@[simp] theorem State.modPlace_host (s : State) (f : Place → Place) : (s.modPlace f).host = s.host := rfl
@[simp] theorem State.modPlace_waiting (s : State) (f : Place → Place) : (s.modPlace f).waiting = s.waiting := rfl
@[simp] theorem State.modPlace_pages (s : State) (f : Place → Place) : (s.modPlace f).pages = s.pages := rfl
@[simp] theorem State.modPlace_streams (s : State) (f : Place → Place) : (s.modPlace f).streams = s.streams := rfl
@[simp] theorem State.modPlace_drives (s : State) (f : Place → Place) : (s.modPlace f).drives = s.drives := rfl
@[simp] theorem State.modPlace_dip (s : State) (f : Place → Place) : (s.modPlace f).dip = s.dip := rfl
@[simp] theorem State.modPlace_recovered (s : State) (f : Place → Place) : (s.modPlace f).recovered = s.recovered := rfl
@[simp] theorem State.modPlace_escal (s : State) (f : Place → Place) : (s.modPlace f).escal = s.escal := rfl
@[simp] theorem State.modPlace_critWait (s : State) (f : Place → Place) : (s.modPlace f).critWait = s.critWait := rfl
@[simp] theorem State.modPlace_pinsSeen (s : State) (f : Place → Place) : (s.modPlace f).pinsSeen = s.pinsSeen := rfl
@[simp] theorem State.modPlace_pinsHeld (s : State) (f : Place → Place) : (s.modPlace f).pinsHeld = s.pinsHeld := rfl
@[simp] theorem State.modPlace_tilesOut (s : State) (f : Place → Place) : (s.modPlace f).tilesOut = s.tilesOut := rfl
@[simp] theorem State.modPlace_portOut (s : State) (f : Place → Place) : (s.modPlace f).portOut = s.portOut := rfl
@[simp] theorem State.modPlace_toll (s : State) (f : Place → Place) : (s.modPlace f).toll = s.toll := rfl
@[simp] theorem State.modPlace_tp (s : State) (f : Place → Place) : (s.modPlace f).tp = s.tp := rfl
@[simp] theorem State.modPlace_halting (s : State) (f : Place → Place) : (s.modPlace f).halting = s.halting := rfl
@[simp] theorem State.modPlace_free (s : State) (f : Place → Place) : (s.modPlace f).free = s.free := rfl
@[simp] theorem State.modPlace_out (s : State) (f : Place → Place) : (s.modPlace f).out = s.out := rfl
@[simp] theorem State.modPlace_get (s : State) (f : Place → Place) (g : Fld) : (s.modPlace f).get g = s.get g := rfl
@[simp] theorem State.modPlace_ch (s : State) (f : Place → Place) (c : Fin 56) : (s.modPlace f).ch c = s.ch c := rfl
@[simp] theorem State.modPlace_drive (s : State) (f : Place → Place) (n : Fin 4) : (s.modPlace f).drive n = s.drive n := rfl
@[simp] theorem State.modPlace_strm (s : State) (f : Place → Place) (j : Nat) : (s.modPlace f).strm j = s.strm j := rfl
@[simp] theorem State.modPlace_ks (s : State) (f : Place → Place) (k : Nat) : (s.modPlace f).ks k = s.ks k := rfl
@[simp] theorem State.modPlace_tpPort (s : State) (f : Place → Place) (p : Fin 2) : (s.modPlace f).tpPort p = s.tpPort p := rfl

@[simp] theorem State.modIc_pending (s : State) (f : Ic → Ic) : (s.modIc f).pending = s.pending := rfl
@[simp] theorem State.modIc_fld (s : State) (f : Ic → Ic) : (s.modIc f).fld = s.fld := rfl
@[simp] theorem State.modIc_chans (s : State) (f : Ic → Ic) : (s.modIc f).chans = s.chans := rfl
@[simp] theorem State.modIc_tb (s : State) (f : Ic → Ic) : (s.modIc f).tb = s.tb := rfl
@[simp] theorem State.modIc_board (s : State) (f : Ic → Ic) : (s.modIc f).board = s.board := rfl
@[simp] theorem State.modIc_accepted (s : State) (f : Ic → Ic) : (s.modIc f).accepted = s.accepted := rfl
@[simp] theorem State.modIc_polls (s : State) (f : Ic → Ic) : (s.modIc f).polls = s.polls := rfl
@[simp] theorem State.modIc_wqPolled (s : State) (f : Ic → Ic) : (s.modIc f).wqPolled = s.wqPolled := rfl
@[simp] theorem State.modIc_wqAgain (s : State) (f : Ic → Ic) : (s.modIc f).wqAgain = s.wqAgain := rfl
@[simp] theorem State.modIc_arb (s : State) (f : Ic → Ic) : (s.modIc f).arb = s.arb := rfl
@[simp] theorem State.modIc_crGap (s : State) (f : Ic → Ic) : (s.modIc f).crGap = s.crGap := rfl
@[simp] theorem State.modIc_basinq (s : State) (f : Ic → Ic) : (s.modIc f).basinq = s.basinq := rfl
@[simp] theorem State.modIc_serial (s : State) (f : Ic → Ic) : (s.modIc f).serial = s.serial := rfl
@[simp] theorem State.modIc_basin (s : State) (f : Ic → Ic) : (s.modIc f).basin = s.basin := rfl
@[simp] theorem State.modIc_credits (s : State) (f : Ic → Ic) : (s.modIc f).credits = s.credits := rfl
@[simp] theorem State.modIc_nextCredit (s : State) (f : Ic → Ic) : (s.modIc f).nextCredit = s.nextCredit := rfl
@[simp] theorem State.modIc_nextExt (s : State) (f : Ic → Ic) : (s.modIc f).nextExt = s.nextExt := rfl
@[simp] theorem State.modIc_courses (s : State) (f : Ic → Ic) : (s.modIc f).courses = s.courses := rfl
@[simp] theorem State.modIc_dones (s : State) (f : Ic → Ic) : (s.modIc f).dones = s.dones := rfl
@[simp] theorem State.modIc_ringFirst (s : State) (f : Ic → Ic) : (s.modIc f).ringFirst = s.ringFirst := rfl
@[simp] theorem State.modIc_dram (s : State) (f : Ic → Ic) : (s.modIc f).dram = s.dram := rfl
@[simp] theorem State.modIc_dramGiB (s : State) (f : Ic → Ic) : (s.modIc f).dramGiB = s.dramGiB := rfl
@[simp] theorem State.modIc_poison (s : State) (f : Ic → Ic) : (s.modIc f).poison = s.poison := rfl
@[simp] theorem State.modIc_pageCorr (s : State) (f : Ic → Ic) : (s.modIc f).pageCorr = s.pageCorr := rfl
@[simp] theorem State.modIc_rowCorr (s : State) (f : Ic → Ic) : (s.modIc f).rowCorr = s.rowCorr := rfl
@[simp] theorem State.modIc_retired (s : State) (f : Ic → Ic) : (s.modIc f).retired = s.retired := rfl
@[simp] theorem State.modIc_host (s : State) (f : Ic → Ic) : (s.modIc f).host = s.host := rfl
@[simp] theorem State.modIc_waiting (s : State) (f : Ic → Ic) : (s.modIc f).waiting = s.waiting := rfl
@[simp] theorem State.modIc_pages (s : State) (f : Ic → Ic) : (s.modIc f).pages = s.pages := rfl
@[simp] theorem State.modIc_streams (s : State) (f : Ic → Ic) : (s.modIc f).streams = s.streams := rfl
@[simp] theorem State.modIc_drives (s : State) (f : Ic → Ic) : (s.modIc f).drives = s.drives := rfl
@[simp] theorem State.modIc_place (s : State) (f : Ic → Ic) : (s.modIc f).place = s.place := rfl
@[simp] theorem State.modIc_dip (s : State) (f : Ic → Ic) : (s.modIc f).dip = s.dip := rfl
@[simp] theorem State.modIc_recovered (s : State) (f : Ic → Ic) : (s.modIc f).recovered = s.recovered := rfl
@[simp] theorem State.modIc_escal (s : State) (f : Ic → Ic) : (s.modIc f).escal = s.escal := rfl
@[simp] theorem State.modIc_critWait (s : State) (f : Ic → Ic) : (s.modIc f).critWait = s.critWait := rfl
@[simp] theorem State.modIc_pinsSeen (s : State) (f : Ic → Ic) : (s.modIc f).pinsSeen = s.pinsSeen := rfl
@[simp] theorem State.modIc_pinsHeld (s : State) (f : Ic → Ic) : (s.modIc f).pinsHeld = s.pinsHeld := rfl
@[simp] theorem State.modIc_tilesOut (s : State) (f : Ic → Ic) : (s.modIc f).tilesOut = s.tilesOut := rfl
@[simp] theorem State.modIc_portOut (s : State) (f : Ic → Ic) : (s.modIc f).portOut = s.portOut := rfl
@[simp] theorem State.modIc_toll (s : State) (f : Ic → Ic) : (s.modIc f).toll = s.toll := rfl
@[simp] theorem State.modIc_tp (s : State) (f : Ic → Ic) : (s.modIc f).tp = s.tp := rfl
@[simp] theorem State.modIc_halting (s : State) (f : Ic → Ic) : (s.modIc f).halting = s.halting := rfl
@[simp] theorem State.modIc_free (s : State) (f : Ic → Ic) : (s.modIc f).free = s.free := rfl
@[simp] theorem State.modIc_out (s : State) (f : Ic → Ic) : (s.modIc f).out = s.out := rfl
@[simp] theorem State.modIc_get (s : State) (f : Ic → Ic) (g : Fld) : (s.modIc f).get g = s.get g := rfl
@[simp] theorem State.modIc_ch (s : State) (f : Ic → Ic) (c : Fin 56) : (s.modIc f).ch c = s.ch c := rfl
@[simp] theorem State.modIc_drive (s : State) (f : Ic → Ic) (n : Fin 4) : (s.modIc f).drive n = s.drive n := rfl
@[simp] theorem State.modIc_strm (s : State) (f : Ic → Ic) (j : Nat) : (s.modIc f).strm j = s.strm j := rfl
@[simp] theorem State.modIc_ks (s : State) (f : Ic → Ic) (k : Nat) : (s.modIc f).ks k = s.ks k := rfl
@[simp] theorem State.modIc_tpPort (s : State) (f : Ic → Ic) (p : Fin 2) : (s.modIc f).tpPort p = s.tpPort p := rfl

@[simp] theorem State.modHost_pending (s : State) (f : HostFn → HostFn) : (s.modHost f).pending = s.pending := rfl
@[simp] theorem State.modHost_fld (s : State) (f : HostFn → HostFn) : (s.modHost f).fld = s.fld := rfl
@[simp] theorem State.modHost_chans (s : State) (f : HostFn → HostFn) : (s.modHost f).chans = s.chans := rfl
@[simp] theorem State.modHost_tb (s : State) (f : HostFn → HostFn) : (s.modHost f).tb = s.tb := rfl
@[simp] theorem State.modHost_board (s : State) (f : HostFn → HostFn) : (s.modHost f).board = s.board := rfl
@[simp] theorem State.modHost_accepted (s : State) (f : HostFn → HostFn) : (s.modHost f).accepted = s.accepted := rfl
@[simp] theorem State.modHost_polls (s : State) (f : HostFn → HostFn) : (s.modHost f).polls = s.polls := rfl
@[simp] theorem State.modHost_wqPolled (s : State) (f : HostFn → HostFn) : (s.modHost f).wqPolled = s.wqPolled := rfl
@[simp] theorem State.modHost_wqAgain (s : State) (f : HostFn → HostFn) : (s.modHost f).wqAgain = s.wqAgain := rfl
@[simp] theorem State.modHost_arb (s : State) (f : HostFn → HostFn) : (s.modHost f).arb = s.arb := rfl
@[simp] theorem State.modHost_crGap (s : State) (f : HostFn → HostFn) : (s.modHost f).crGap = s.crGap := rfl
@[simp] theorem State.modHost_basinq (s : State) (f : HostFn → HostFn) : (s.modHost f).basinq = s.basinq := rfl
@[simp] theorem State.modHost_serial (s : State) (f : HostFn → HostFn) : (s.modHost f).serial = s.serial := rfl
@[simp] theorem State.modHost_basin (s : State) (f : HostFn → HostFn) : (s.modHost f).basin = s.basin := rfl
@[simp] theorem State.modHost_credits (s : State) (f : HostFn → HostFn) : (s.modHost f).credits = s.credits := rfl
@[simp] theorem State.modHost_nextCredit (s : State) (f : HostFn → HostFn) : (s.modHost f).nextCredit = s.nextCredit := rfl
@[simp] theorem State.modHost_nextExt (s : State) (f : HostFn → HostFn) : (s.modHost f).nextExt = s.nextExt := rfl
@[simp] theorem State.modHost_courses (s : State) (f : HostFn → HostFn) : (s.modHost f).courses = s.courses := rfl
@[simp] theorem State.modHost_dones (s : State) (f : HostFn → HostFn) : (s.modHost f).dones = s.dones := rfl
@[simp] theorem State.modHost_ringFirst (s : State) (f : HostFn → HostFn) : (s.modHost f).ringFirst = s.ringFirst := rfl
@[simp] theorem State.modHost_dram (s : State) (f : HostFn → HostFn) : (s.modHost f).dram = s.dram := rfl
@[simp] theorem State.modHost_dramGiB (s : State) (f : HostFn → HostFn) : (s.modHost f).dramGiB = s.dramGiB := rfl
@[simp] theorem State.modHost_poison (s : State) (f : HostFn → HostFn) : (s.modHost f).poison = s.poison := rfl
@[simp] theorem State.modHost_pageCorr (s : State) (f : HostFn → HostFn) : (s.modHost f).pageCorr = s.pageCorr := rfl
@[simp] theorem State.modHost_rowCorr (s : State) (f : HostFn → HostFn) : (s.modHost f).rowCorr = s.rowCorr := rfl
@[simp] theorem State.modHost_retired (s : State) (f : HostFn → HostFn) : (s.modHost f).retired = s.retired := rfl
@[simp] theorem State.modHost_ic (s : State) (f : HostFn → HostFn) : (s.modHost f).ic = s.ic := rfl
@[simp] theorem State.modHost_waiting (s : State) (f : HostFn → HostFn) : (s.modHost f).waiting = s.waiting := rfl
@[simp] theorem State.modHost_pages (s : State) (f : HostFn → HostFn) : (s.modHost f).pages = s.pages := rfl
@[simp] theorem State.modHost_streams (s : State) (f : HostFn → HostFn) : (s.modHost f).streams = s.streams := rfl
@[simp] theorem State.modHost_drives (s : State) (f : HostFn → HostFn) : (s.modHost f).drives = s.drives := rfl
@[simp] theorem State.modHost_place (s : State) (f : HostFn → HostFn) : (s.modHost f).place = s.place := rfl
@[simp] theorem State.modHost_dip (s : State) (f : HostFn → HostFn) : (s.modHost f).dip = s.dip := rfl
@[simp] theorem State.modHost_recovered (s : State) (f : HostFn → HostFn) : (s.modHost f).recovered = s.recovered := rfl
@[simp] theorem State.modHost_escal (s : State) (f : HostFn → HostFn) : (s.modHost f).escal = s.escal := rfl
@[simp] theorem State.modHost_critWait (s : State) (f : HostFn → HostFn) : (s.modHost f).critWait = s.critWait := rfl
@[simp] theorem State.modHost_pinsSeen (s : State) (f : HostFn → HostFn) : (s.modHost f).pinsSeen = s.pinsSeen := rfl
@[simp] theorem State.modHost_pinsHeld (s : State) (f : HostFn → HostFn) : (s.modHost f).pinsHeld = s.pinsHeld := rfl
@[simp] theorem State.modHost_tilesOut (s : State) (f : HostFn → HostFn) : (s.modHost f).tilesOut = s.tilesOut := rfl
@[simp] theorem State.modHost_portOut (s : State) (f : HostFn → HostFn) : (s.modHost f).portOut = s.portOut := rfl
@[simp] theorem State.modHost_toll (s : State) (f : HostFn → HostFn) : (s.modHost f).toll = s.toll := rfl
@[simp] theorem State.modHost_tp (s : State) (f : HostFn → HostFn) : (s.modHost f).tp = s.tp := rfl
@[simp] theorem State.modHost_halting (s : State) (f : HostFn → HostFn) : (s.modHost f).halting = s.halting := rfl
@[simp] theorem State.modHost_free (s : State) (f : HostFn → HostFn) : (s.modHost f).free = s.free := rfl
@[simp] theorem State.modHost_out (s : State) (f : HostFn → HostFn) : (s.modHost f).out = s.out := rfl
@[simp] theorem State.modHost_get (s : State) (f : HostFn → HostFn) (g : Fld) : (s.modHost f).get g = s.get g := rfl
@[simp] theorem State.modHost_ch (s : State) (f : HostFn → HostFn) (c : Fin 56) : (s.modHost f).ch c = s.ch c := rfl
@[simp] theorem State.modHost_drive (s : State) (f : HostFn → HostFn) (n : Fin 4) : (s.modHost f).drive n = s.drive n := rfl
@[simp] theorem State.modHost_strm (s : State) (f : HostFn → HostFn) (j : Nat) : (s.modHost f).strm j = s.strm j := rfl
@[simp] theorem State.modHost_ks (s : State) (f : HostFn → HostFn) (k : Nat) : (s.modHost f).ks k = s.ks k := rfl
@[simp] theorem State.modHost_tpPort (s : State) (f : HostFn → HostFn) (p : Fin 2) : (s.modHost f).tpPort p = s.tpPort p := rfl

@[simp] theorem State.emit_pending (s : State) (e : OutEvent) : (s.emit e).pending = s.pending := rfl
@[simp] theorem State.emit_fld (s : State) (e : OutEvent) : (s.emit e).fld = s.fld := rfl
@[simp] theorem State.emit_chans (s : State) (e : OutEvent) : (s.emit e).chans = s.chans := rfl
@[simp] theorem State.emit_tb (s : State) (e : OutEvent) : (s.emit e).tb = s.tb := rfl
@[simp] theorem State.emit_board (s : State) (e : OutEvent) : (s.emit e).board = s.board := rfl
@[simp] theorem State.emit_accepted (s : State) (e : OutEvent) : (s.emit e).accepted = s.accepted := rfl
@[simp] theorem State.emit_polls (s : State) (e : OutEvent) : (s.emit e).polls = s.polls := rfl
@[simp] theorem State.emit_wqPolled (s : State) (e : OutEvent) : (s.emit e).wqPolled = s.wqPolled := rfl
@[simp] theorem State.emit_wqAgain (s : State) (e : OutEvent) : (s.emit e).wqAgain = s.wqAgain := rfl
@[simp] theorem State.emit_arb (s : State) (e : OutEvent) : (s.emit e).arb = s.arb := rfl
@[simp] theorem State.emit_crGap (s : State) (e : OutEvent) : (s.emit e).crGap = s.crGap := rfl
@[simp] theorem State.emit_basinq (s : State) (e : OutEvent) : (s.emit e).basinq = s.basinq := rfl
@[simp] theorem State.emit_serial (s : State) (e : OutEvent) : (s.emit e).serial = s.serial := rfl
@[simp] theorem State.emit_basin (s : State) (e : OutEvent) : (s.emit e).basin = s.basin := rfl
@[simp] theorem State.emit_credits (s : State) (e : OutEvent) : (s.emit e).credits = s.credits := rfl
@[simp] theorem State.emit_nextCredit (s : State) (e : OutEvent) : (s.emit e).nextCredit = s.nextCredit := rfl
@[simp] theorem State.emit_nextExt (s : State) (e : OutEvent) : (s.emit e).nextExt = s.nextExt := rfl
@[simp] theorem State.emit_courses (s : State) (e : OutEvent) : (s.emit e).courses = s.courses := rfl
@[simp] theorem State.emit_dones (s : State) (e : OutEvent) : (s.emit e).dones = s.dones := rfl
@[simp] theorem State.emit_ringFirst (s : State) (e : OutEvent) : (s.emit e).ringFirst = s.ringFirst := rfl
@[simp] theorem State.emit_dram (s : State) (e : OutEvent) : (s.emit e).dram = s.dram := rfl
@[simp] theorem State.emit_dramGiB (s : State) (e : OutEvent) : (s.emit e).dramGiB = s.dramGiB := rfl
@[simp] theorem State.emit_poison (s : State) (e : OutEvent) : (s.emit e).poison = s.poison := rfl
@[simp] theorem State.emit_pageCorr (s : State) (e : OutEvent) : (s.emit e).pageCorr = s.pageCorr := rfl
@[simp] theorem State.emit_rowCorr (s : State) (e : OutEvent) : (s.emit e).rowCorr = s.rowCorr := rfl
@[simp] theorem State.emit_retired (s : State) (e : OutEvent) : (s.emit e).retired = s.retired := rfl
@[simp] theorem State.emit_ic (s : State) (e : OutEvent) : (s.emit e).ic = s.ic := rfl
@[simp] theorem State.emit_host (s : State) (e : OutEvent) : (s.emit e).host = s.host := rfl
@[simp] theorem State.emit_waiting (s : State) (e : OutEvent) : (s.emit e).waiting = s.waiting := rfl
@[simp] theorem State.emit_pages (s : State) (e : OutEvent) : (s.emit e).pages = s.pages := rfl
@[simp] theorem State.emit_streams (s : State) (e : OutEvent) : (s.emit e).streams = s.streams := rfl
@[simp] theorem State.emit_drives (s : State) (e : OutEvent) : (s.emit e).drives = s.drives := rfl
@[simp] theorem State.emit_place (s : State) (e : OutEvent) : (s.emit e).place = s.place := rfl
@[simp] theorem State.emit_dip (s : State) (e : OutEvent) : (s.emit e).dip = s.dip := rfl
@[simp] theorem State.emit_recovered (s : State) (e : OutEvent) : (s.emit e).recovered = s.recovered := rfl
@[simp] theorem State.emit_escal (s : State) (e : OutEvent) : (s.emit e).escal = s.escal := rfl
@[simp] theorem State.emit_critWait (s : State) (e : OutEvent) : (s.emit e).critWait = s.critWait := rfl
@[simp] theorem State.emit_pinsSeen (s : State) (e : OutEvent) : (s.emit e).pinsSeen = s.pinsSeen := rfl
@[simp] theorem State.emit_pinsHeld (s : State) (e : OutEvent) : (s.emit e).pinsHeld = s.pinsHeld := rfl
@[simp] theorem State.emit_tilesOut (s : State) (e : OutEvent) : (s.emit e).tilesOut = s.tilesOut := rfl
@[simp] theorem State.emit_portOut (s : State) (e : OutEvent) : (s.emit e).portOut = s.portOut := rfl
@[simp] theorem State.emit_toll (s : State) (e : OutEvent) : (s.emit e).toll = s.toll := rfl
@[simp] theorem State.emit_tp (s : State) (e : OutEvent) : (s.emit e).tp = s.tp := rfl
@[simp] theorem State.emit_halting (s : State) (e : OutEvent) : (s.emit e).halting = s.halting := rfl
@[simp] theorem State.emit_free (s : State) (e : OutEvent) : (s.emit e).free = s.free := rfl
@[simp] theorem State.emit_get (s : State) (e : OutEvent) (g : Fld) : (s.emit e).get g = s.get g := rfl
@[simp] theorem State.emit_ch (s : State) (e : OutEvent) (c : Fin 56) : (s.emit e).ch c = s.ch c := rfl
@[simp] theorem State.emit_drive (s : State) (e : OutEvent) (n : Fin 4) : (s.emit e).drive n = s.drive n := rfl
@[simp] theorem State.emit_strm (s : State) (e : OutEvent) (j : Nat) : (s.emit e).strm j = s.strm j := rfl
@[simp] theorem State.emit_ks (s : State) (e : OutEvent) (k : Nat) : (s.emit e).ks k = s.ks k := rfl
@[simp] theorem State.emit_tpPort (s : State) (e : OutEvent) (p : Fin 2) : (s.emit e).tpPort p = s.tpPort p := rfl

@[simp] theorem State.dramWrite_pending (s : State) (a : Nat) (bs : List Byte) : (s.dramWrite a bs).pending = s.pending := rfl
@[simp] theorem State.dramWrite_fld (s : State) (a : Nat) (bs : List Byte) : (s.dramWrite a bs).fld = s.fld := rfl
@[simp] theorem State.dramWrite_chans (s : State) (a : Nat) (bs : List Byte) : (s.dramWrite a bs).chans = s.chans := rfl
@[simp] theorem State.dramWrite_tb (s : State) (a : Nat) (bs : List Byte) : (s.dramWrite a bs).tb = s.tb := rfl
@[simp] theorem State.dramWrite_board (s : State) (a : Nat) (bs : List Byte) : (s.dramWrite a bs).board = s.board := rfl
@[simp] theorem State.dramWrite_accepted (s : State) (a : Nat) (bs : List Byte) : (s.dramWrite a bs).accepted = s.accepted := rfl
@[simp] theorem State.dramWrite_polls (s : State) (a : Nat) (bs : List Byte) : (s.dramWrite a bs).polls = s.polls := rfl
@[simp] theorem State.dramWrite_wqPolled (s : State) (a : Nat) (bs : List Byte) : (s.dramWrite a bs).wqPolled = s.wqPolled := rfl
@[simp] theorem State.dramWrite_wqAgain (s : State) (a : Nat) (bs : List Byte) : (s.dramWrite a bs).wqAgain = s.wqAgain := rfl
@[simp] theorem State.dramWrite_arb (s : State) (a : Nat) (bs : List Byte) : (s.dramWrite a bs).arb = s.arb := rfl
@[simp] theorem State.dramWrite_crGap (s : State) (a : Nat) (bs : List Byte) : (s.dramWrite a bs).crGap = s.crGap := rfl
@[simp] theorem State.dramWrite_basinq (s : State) (a : Nat) (bs : List Byte) : (s.dramWrite a bs).basinq = s.basinq := rfl
@[simp] theorem State.dramWrite_serial (s : State) (a : Nat) (bs : List Byte) : (s.dramWrite a bs).serial = s.serial := rfl
@[simp] theorem State.dramWrite_basin (s : State) (a : Nat) (bs : List Byte) : (s.dramWrite a bs).basin = s.basin := rfl
@[simp] theorem State.dramWrite_credits (s : State) (a : Nat) (bs : List Byte) : (s.dramWrite a bs).credits = s.credits := rfl
@[simp] theorem State.dramWrite_nextCredit (s : State) (a : Nat) (bs : List Byte) : (s.dramWrite a bs).nextCredit = s.nextCredit := rfl
@[simp] theorem State.dramWrite_nextExt (s : State) (a : Nat) (bs : List Byte) : (s.dramWrite a bs).nextExt = s.nextExt := rfl
@[simp] theorem State.dramWrite_courses (s : State) (a : Nat) (bs : List Byte) : (s.dramWrite a bs).courses = s.courses := rfl
@[simp] theorem State.dramWrite_dones (s : State) (a : Nat) (bs : List Byte) : (s.dramWrite a bs).dones = s.dones := rfl
@[simp] theorem State.dramWrite_ringFirst (s : State) (a : Nat) (bs : List Byte) : (s.dramWrite a bs).ringFirst = s.ringFirst := rfl
@[simp] theorem State.dramWrite_dramGiB (s : State) (a : Nat) (bs : List Byte) : (s.dramWrite a bs).dramGiB = s.dramGiB := rfl
@[simp] theorem State.dramWrite_pageCorr (s : State) (a : Nat) (bs : List Byte) : (s.dramWrite a bs).pageCorr = s.pageCorr := rfl
@[simp] theorem State.dramWrite_rowCorr (s : State) (a : Nat) (bs : List Byte) : (s.dramWrite a bs).rowCorr = s.rowCorr := rfl
@[simp] theorem State.dramWrite_retired (s : State) (a : Nat) (bs : List Byte) : (s.dramWrite a bs).retired = s.retired := rfl
@[simp] theorem State.dramWrite_ic (s : State) (a : Nat) (bs : List Byte) : (s.dramWrite a bs).ic = s.ic := rfl
@[simp] theorem State.dramWrite_host (s : State) (a : Nat) (bs : List Byte) : (s.dramWrite a bs).host = s.host := rfl
@[simp] theorem State.dramWrite_waiting (s : State) (a : Nat) (bs : List Byte) : (s.dramWrite a bs).waiting = s.waiting := rfl
@[simp] theorem State.dramWrite_pages (s : State) (a : Nat) (bs : List Byte) : (s.dramWrite a bs).pages = s.pages := rfl
@[simp] theorem State.dramWrite_streams (s : State) (a : Nat) (bs : List Byte) : (s.dramWrite a bs).streams = s.streams := rfl
@[simp] theorem State.dramWrite_drives (s : State) (a : Nat) (bs : List Byte) : (s.dramWrite a bs).drives = s.drives := rfl
@[simp] theorem State.dramWrite_place (s : State) (a : Nat) (bs : List Byte) : (s.dramWrite a bs).place = s.place := rfl
@[simp] theorem State.dramWrite_dip (s : State) (a : Nat) (bs : List Byte) : (s.dramWrite a bs).dip = s.dip := rfl
@[simp] theorem State.dramWrite_recovered (s : State) (a : Nat) (bs : List Byte) : (s.dramWrite a bs).recovered = s.recovered := rfl
@[simp] theorem State.dramWrite_escal (s : State) (a : Nat) (bs : List Byte) : (s.dramWrite a bs).escal = s.escal := rfl
@[simp] theorem State.dramWrite_critWait (s : State) (a : Nat) (bs : List Byte) : (s.dramWrite a bs).critWait = s.critWait := rfl
@[simp] theorem State.dramWrite_pinsSeen (s : State) (a : Nat) (bs : List Byte) : (s.dramWrite a bs).pinsSeen = s.pinsSeen := rfl
@[simp] theorem State.dramWrite_pinsHeld (s : State) (a : Nat) (bs : List Byte) : (s.dramWrite a bs).pinsHeld = s.pinsHeld := rfl
@[simp] theorem State.dramWrite_tilesOut (s : State) (a : Nat) (bs : List Byte) : (s.dramWrite a bs).tilesOut = s.tilesOut := rfl
@[simp] theorem State.dramWrite_portOut (s : State) (a : Nat) (bs : List Byte) : (s.dramWrite a bs).portOut = s.portOut := rfl
@[simp] theorem State.dramWrite_toll (s : State) (a : Nat) (bs : List Byte) : (s.dramWrite a bs).toll = s.toll := rfl
@[simp] theorem State.dramWrite_tp (s : State) (a : Nat) (bs : List Byte) : (s.dramWrite a bs).tp = s.tp := rfl
@[simp] theorem State.dramWrite_halting (s : State) (a : Nat) (bs : List Byte) : (s.dramWrite a bs).halting = s.halting := rfl
@[simp] theorem State.dramWrite_free (s : State) (a : Nat) (bs : List Byte) : (s.dramWrite a bs).free = s.free := rfl
@[simp] theorem State.dramWrite_out (s : State) (a : Nat) (bs : List Byte) : (s.dramWrite a bs).out = s.out := rfl
@[simp] theorem State.dramWrite_get (s : State) (a : Nat) (bs : List Byte) (g : Fld) : (s.dramWrite a bs).get g = s.get g := rfl
@[simp] theorem State.dramWrite_ch (s : State) (a : Nat) (bs : List Byte) (c : Fin 56) : (s.dramWrite a bs).ch c = s.ch c := rfl
@[simp] theorem State.dramWrite_drive (s : State) (a : Nat) (bs : List Byte) (n : Fin 4) : (s.dramWrite a bs).drive n = s.drive n := rfl
@[simp] theorem State.dramWrite_strm (s : State) (a : Nat) (bs : List Byte) (j : Nat) : (s.dramWrite a bs).strm j = s.strm j := rfl
@[simp] theorem State.dramWrite_ks (s : State) (a : Nat) (bs : List Byte) (k : Nat) : (s.dramWrite a bs).ks k = s.ks k := rfl
@[simp] theorem State.dramWrite_tpPort (s : State) (a : Nat) (bs : List Byte) (p : Fin 2) : (s.dramWrite a bs).tpPort p = s.tpPort p := rfl

/-! ### What an update writes -/

@[simp] theorem State.modToll_toll (s : State) (f : TollHouse → TollHouse) : (s.modToll f).toll = f s.toll := rfl
@[simp] theorem State.modTb_tb (s : State) (f : Timebase → Timebase) : (s.modTb f).tb = f s.tb := rfl
@[simp] theorem State.modBoard_board (s : State) (f : Board → Board) : (s.modBoard f).board = f s.board := rfl
@[simp] theorem State.modPlace_place (s : State) (f : Place → Place) : (s.modPlace f).place = f s.place := rfl
@[simp] theorem State.modIc_ic (s : State) (f : Ic → Ic) : (s.modIc f).ic = f s.ic := rfl
@[simp] theorem State.modHost_host (s : State) (f : HostFn → HostFn) : (s.modHost f).host = f s.host := rfl
@[simp] theorem State.emit_out (s : State) (e : OutEvent) : (s.emit e).out = s.out ++ [e] := rfl
@[simp] theorem State.drawFree_fst (s : State) : s.drawFree.1 = s.free := rfl
@[simp] theorem State.drawFree_snd (s : State) : s.drawFree.2 = { s with free := s.free + 8 } := rfl

/-- A field read after it is written. -/
@[simp] theorem State.get_put_same (s : State) (f : Fld) (v : Nat) : (s.put f v).get f = v % 2 ^ f.w := by
  simp [State.get, State.put]

/-- A write of a field leaves the fields at other places alone. -/
theorem State.get_put_ne (s : State) {f g : Fld} (v : Nat) (h : fldKey g ≠ fldKey f) : (s.put f v).get g = s.get g := by
  simp only [State.get, State.put]
  exact SMap.get_set_ne _ _ _ _ h

@[simp] theorem State.modCh_ch_same (s : State) (c : Fin 56) (f : Chan → Chan) : (s.modCh c f).ch c = f (s.ch c) := by
  simp [State.ch, State.modCh]

theorem State.modCh_ch_ne (s : State) {c d : Fin 56} (f : Chan → Chan) (h : c ≠ d) : (s.modCh c f).ch d = s.ch d := by
  have h' : c.val ≠ d.val := fun e => h (Fin.ext e)
  simp [State.ch, State.modCh, h']

@[simp] theorem State.modDrive_drive_same (s : State) (n : Fin 4) (f : Drive → Drive) :
    (s.modDrive n f).drive n = f (s.drive n) := by
  simp [State.drive, State.modDrive]

theorem State.modDrive_drive_ne (s : State) {n k : Fin 4} (f : Drive → Drive) (h : n ≠ k) :
    (s.modDrive n f).drive k = s.drive k := by
  have h' : n.val ≠ k.val := fun e => h (Fin.ext e)
  simp [State.drive, State.modDrive, h']

@[simp] theorem State.modStrm_strm_same (s : State) (i : Nat) (f : Stream → Stream) :
    (s.modStrm i f).strm i = f (s.strm i) := by
  simp [State.strm, State.modStrm]

@[simp] theorem State.modKs_ks_same (s : State) (k : Nat) (f : Keystone → Keystone) : (s.modKs k f).ks k = f (s.ks k) := by
  simp [State.ks, State.modKs]

@[simp] theorem State.modTpPort_same (s : State) (p : Fin 2) (f : TpPort → TpPort) :
    (s.modTpPort p f).tpPort p = f (s.tpPort p) := by
  by_cases h : p = 0 <;> simp [State.tpPort, State.modTpPort, h]

/-- An update of a towpath port touches the towpath alone. -/
theorem State.modTpPort_eq (s : State) (p : Fin 2) (f : TpPort → TpPort) : s.modTpPort p f = { s with tp := (s.modTpPort p f).tp } := by
  unfold State.modTpPort
  split <;> rfl

/-! ### One spelling for flags and for the parts of a channel -/

theorem State.raise_eq (s : State) (f : Fld) : s.raise f = s.put f 1 := rfl
theorem State.clear_eq (s : State) (f : Fld) : s.clear f = s.put f 0 := rfl
theorem State.putB_eq (s : State) (f : Fld) (b : Bool) : s.putB f b = s.put f (b2n b) := rfl
theorem State.isSet_eq (s : State) (f : Fld) : s.isSet f = (s.get f != 0) := rfl
theorem State.modTh_eq (s : State) (c : Fin 56) (t : Fin 8) (f : Thread → Thread) :
    s.modTh c t f = s.modCh c (fun x => { x with threads := x.threads.set t (f x.threads[t]) }) := rfl
theorem State.modKp_eq (s : State) (c : Fin 56) (f : Keeper → Keeper) : s.modKp c f = s.modCh c (fun x => { x with kp := f x.kp }) := rfl
theorem State.modSq_eq (s : State) (c : Fin 56) (f : Seq → Seq) : s.modSq c f = s.modCh c (fun x => { x with sq := f x.sq }) := rfl

@[simp] theorem State.modTh_th_same (s : State) (c : Fin 56) (t : Fin 8) (f : Thread → Thread) :
    (s.modTh c t f).th c t = f (s.th c t) := by
  simp [State.th, State.modTh]

/-- An update of one thread leaves the others of its channel alone. -/
theorem State.modTh_th_ne (s : State) (c : Fin 56) {t u : Fin 8} (f : Thread → Thread) (h : t ≠ u) :
    (s.modTh c t f).th c u = s.th c u := by
  have h' : t.val ≠ u.val := fun e => h (Fin.ext e)
  simp [State.th, State.modTh, h']

/-! ### Memories keep their canonical form -/

theorem memWrite_wf (m : List Host.Cell) (a : Nat) (bs : List Byte) (h : SMap.wf (fun _ => (0 : Byte)) m = true) :
    SMap.wf (fun _ => (0 : Byte)) (memWrite m a bs) = true := by
  induction bs generalizing m a with
  | nil => exact h
  | cons b t ih => exact ih _ _ (SMap.wf_set (d := fun _ => (0 : Byte)) a b h)

/-- A write of device DRAM keeps its canonical form. -/
theorem State.dramWrite_wf (s : State) (a : Nat) (bs : List Byte) (h : SMap.wf (fun _ => (0 : Byte)) s.dram = true) :
    SMap.wf (fun _ => (0 : Byte)) (s.dramWrite a bs).dram = true := memWrite_wf _ _ _ h

theorem memWrite_get_out (m : List Host.Cell) (a : Nat) (bs : List Byte) (x : Nat) (h : x < a ∨ a + bs.length ≤ x) :
    SMap.get (0 : Byte) (memWrite m a bs) x = SMap.get 0 m x := by
  induction bs generalizing m a with
  | nil => rfl
  | cons b t ih =>
    simp only [List.length_cons] at h
    simp only [memWrite]
    rw [ih _ _ (by omega), SMap.get_set_ne _ _ _ _ (by omega)]

/-- A write of device DRAM leaves every byte outside it alone. -/
theorem State.dramByte_write_out (s : State) (a : Nat) (bs : List Byte) (x : Nat) (h : x < a ∨ a + bs.length ≤ x) :
    (s.dramWrite a bs).dramByte x = s.dramByte x := memWrite_get_out _ _ _ _ h

theorem memWrite_get_in (m : List Host.Cell) (a : Nat) (bs : List Byte) (i : Nat) (h : i < bs.length) :
    SMap.get (0 : Byte) (memWrite m a bs) (a + i) = bs[i] := by
  induction bs generalizing m a i with
  | nil => simp at h
  | cons b t ih =>
    simp only [memWrite]
    cases i with
    | zero =>
      rw [memWrite_get_out _ _ _ _ (by omega)]
      simp
    | succ j =>
      have e : a + (j + 1) = a + 1 + j := by omega
      rw [e, ih _ _ _ (by simpa using h)]
      simp

/-- A byte of device DRAM read after it is written. -/
theorem State.dramByte_write_in (s : State) (a : Nat) (bs : List Byte) (i : Nat) (h : i < bs.length) :
    (s.dramWrite a bs).dramByte (a + i) = bs[i] := memWrite_get_in _ _ _ _ h

end Sys2Proof.Machine
end

