-- ==== Sys2Proof/Laws/Settle.lean ====
section
/-!
SUPPORT. What follows every command (`settle`): HELLO frames go out when their contents have changed, the interrupt controller samples
its sources, notes waits for full stacks and sends PM_PME. It touches nothing but the towpath's registers and ports, the controller's
latches and notes, IC_EVT.STACK_FULL, PME_Status and what is sent; with no towpath port that talks, not the towpath either.
-/
namespace Sys2Proof.Machine

/-! ### The towpath's part -/

/-- A register field that sending a HELLO may change: those of the TOWPATH page, and TB_STATUS.ACTIVE_SRC of a new master. -/
def towField (g : Fld) : Bool :=
  (decide (Reg.TP_STATUS * 64 ≤ fldKey g) && decide (fldKey g < Reg.TP_EXPORT 0 * 64)) || fldKey g == fldKey Fld.TB_STATUS_ACTIVE_SRC

/-- `t` differs from `s` in the towpath, its registers and what is sent alone. -/
def TowOnly (s t : State) : Prop :=
  t = { s with fld := t.fld, tp := t.tp, out := t.out } ∧ ∀ g : Fld, towField g = false → t.get g = s.get g

theorem TowOnly.rfl' (s : State) : TowOnly s s := ⟨rfl, fun _ _ => rfl⟩

theorem TowOnly.trans {s t u : State} (h : TowOnly s t) (k : TowOnly t u) : TowOnly s u := by
  refine ⟨?_, fun g hg => (k.2 g hg).trans (h.2 g hg)⟩
  rw [k.1, h.1]

theorem TowOnly.put (s : State) (f : Fld) (v : Nat) (hf : towField f = true) : TowOnly s (s.put f v) := by
  refine ⟨rfl, fun g hg => State.get_put_ne s v ?_⟩
  intro e
  simp only [towField, e] at hg
  simp only [towField] at hf
  rw [hf] at hg
  cases hg

theorem TowOnly.modTpPort (s : State) (p : Fin 2) (f : TpPort → TpPort) : TowOnly s (s.modTpPort p f) := by
  unfold State.modTpPort
  split <;> exact ⟨rfl, fun _ _ => rfl⟩

theorem TowOnly.tp (s : State) (x : Towpath) : TowOnly s { s with tp := x } := ⟨rfl, fun _ _ => rfl⟩

theorem TowOnly.emit (s : State) (e : OutEvent) : TowOnly s (s.emit e) := ⟨rfl, fun _ _ => rfl⟩

theorem towField_state (p : Fin 2) : towField (Fld.TP_PORT_STATUS_STATE p) = true := by revert p; decide
theorem towField_rev (p : Fin 2) : towField (Fld.TP_PORT_STATUS_REV p) = true := by revert p; decide
theorem towField_up (p : Fin 2) : towField (Fld.TP_PORT_EVT_UP p) = true := by revert p; decide
theorem towField_down (p : Fin 2) : towField (Fld.TP_PORT_EVT_DOWN p) = true := by revert p; decide
theorem towField_blocked (p : Fin 2) : towField (Fld.TP_PORT_EVT_BLOCKED p) = true := by revert p; decide
theorem towField_miswired (p : Fin 2) : towField (Fld.TP_PORT_EVT_MISWIRED p) = true := by revert p; decide

theorem tpMove_tow (s : State) (p : Fin 2) (st : Nat) : TowOnly s (tpMove s p st) := by
  unfold tpMove
  refine (TowOnly.put s _ st (towField_state p)).trans ?_
  generalize s.put (Fld.TP_PORT_STATUS_STATE p) st = t
  simp only
  have topo : ∀ u : State, TowOnly t u →
      TowOnly t (if st = tpUp ∨ st = tpDown ∨ st = tpBlocked then u.raise Fld.TP_EVT_TOPOLOGY else u) := by
    intro u hu
    split
    · exact hu.trans (TowOnly.put _ _ _ (by decide))
    · exact hu
  apply topo
  split
  · exact TowOnly.put _ _ _ (towField_up p)
  · split
    · exact TowOnly.put _ _ _ (towField_down p)
    · split
      · exact TowOnly.put _ _ _ (towField_blocked p)
      · exact TowOnly.rfl' _

theorem ringOpen_tow (s : State) : TowOnly s (ringOpen s) := by
  unfold ringOpen
  split
  · exact (TowOnly.put s _ 0 (by decide)).trans (tpMove_tow _ _ _)
  · exact TowOnly.rfl' _

theorem tpAfterHello_tow (s : State) (p : Fin 2) (h : Hello) (old : Option Hello) : TowOnly s (tpAfterHello s p h old) := by
  unfold tpAfterHello
  simp only
  have rv := TowOnly.put s (Fld.TP_PORT_STATUS_REV p) (min h.revMax (tpRevMax s)) (towField_rev p)
  split
  · split
    · exact rv
    · split
      · exact rv.trans ((TowOnly.put _ _ _ (towField_miswired p)).trans (tpMove_tow _ _ _))
      · split
        · exact rv.trans ((TowOnly.put _ _ _ (by decide)).trans (tpMove_tow _ _ _))
        · exact rv.trans (tpMove_tow _ _ _)
  · split
    · exact (TowOnly.put _ _ _ (by decide)).trans (tpMove_tow _ _ _)
    · split
      · split
        · split
          · exact ringOpen_tow _
          · exact TowOnly.rfl' _
        · exact TowOnly.rfl' _
      · exact TowOnly.rfl' _

theorem tpSendRaw_tow (s : State) (p : Fin 2) (typ src dst hops : Nat) (payload : List Nat) :
    TowOnly s (tpSendRaw s p typ src dst hops payload) := by
  unfold tpSendRaw
  exact (TowOnly.emit s _).trans (TowOnly.modTpPort _ _ _)

theorem helloOut_tow (s : State) (p : Fin 2) : TowOnly s (helloOut s p) := by
  unfold helloOut
  split
  · have h := (tpSendRaw_tow s p tpHello (s.get Fld.TP_STATUS_POSITION) 0xFF 0 (helloWords s p)).trans
      (TowOnly.modTpPort _ p (fun q => { q with sent := true }))
    simp only
    split
    · exact h.trans (tpAfterHello_tow _ _ _ _)
    · exact h
  · exact TowOnly.rfl' _

theorem tpUpdate_tow (s : State) : TowOnly s (tpUpdate s) := by
  have pick : ∀ (u : State) (c : Prop) [Decidable c] (f : Fld) (v : Nat), towField f = true → TowOnly u (if c then u.put f v else u) := by
    intro u c _ f v hf
    split
    · exact TowOnly.put _ _ _ hf
    · exact TowOnly.rfl' _
  have pick' : ∀ (u : State) (c : Prop) [Decidable c] (f : Fld) (v : Nat), towField f = true → TowOnly u (if c then u else u.put f v) := by
    intro u c _ f v hf
    split
    · exact TowOnly.rfl' _
    · exact TowOnly.put _ _ _ hf
  have h0 : TowOnly s (if s.get Fld.TP_STATUS_POSITION = tpPosition s then s
      else (s.put Fld.TP_STATUS_POSITION (tpPosition s)).raise Fld.TP_EVT_TOPOLOGY) := by
    split
    · exact TowOnly.rfl' _
    · exact (TowOnly.put _ _ _ (by decide)).trans (TowOnly.put _ _ _ (by decide))
  unfold tpUpdate
  simp only
  generalize (if s.get Fld.TP_STATUS_POSITION = tpPosition s then s
      else (s.put Fld.TP_STATUS_POSITION (tpPosition s)).raise Fld.TP_EVT_TOPOLOGY) = a at h0 ⊢
  generalize tpElect a = m
  have h1 := h0.trans (TowOnly.put a Fld.TP_STATUS_CHAIN_LEN (tpSeen a (tpPosition s) m) (by decide))
  generalize a.put Fld.TP_STATUS_CHAIN_LEN (tpSeen a (tpPosition s) m) = b at h1 ⊢
  refine TowOnly.trans ?_ (TowOnly.put _ _ _ (by decide))
  refine TowOnly.trans ?_ (pick _ _ _ _ (by decide))
  refine TowOnly.trans ?_ (pick _ _ _ _ (by decide))
  refine TowOnly.trans ?_ (pick' _ _ _ _ (by decide))
  refine TowOnly.trans ?_ (TowOnly.put _ _ _ (by decide))
  refine TowOnly.trans ?_ (TowOnly.put _ _ _ (by decide))
  refine TowOnly.trans ?_ (TowOnly.put _ _ _ (by decide))
  exact h1.trans (TowOnly.tp _ _)

/-- Sending the HELLO frames touches the towpath alone. -/
theorem tpTell_tow (n : Nat) (s : State) : TowOnly s (tpTell n s) := by
  induction n generalizing s with
  | zero => exact TowOnly.rfl' _
  | succ n ih =>
    unfold tpTell
    split
    · have h := tpUpdate_tow s
      simp only
      split
      · exact h
      · refine h.trans (TowOnly.trans ?_ (ih _))
        refine TowOnly.trans ?_ (helloOut_tow _ _)
        exact (TowOnly.tp _ _).trans (helloOut_tow _ _)
    · exact TowOnly.rfl' _

/-- With no port that talks, nothing is sent. -/
theorem tpTell_quiet (n : Nat) (s : State) (h : (tpTalks s 0 || tpTalks s 1) = false) : tpTell n s = s := by
  cases n <;> simp [tpTell, h]

/-! ### The controller's part -/

theorem icSample_eq (s : State) : icSample s = { s with ic := (icSample s).ic } := by
  unfold icSample
  simp only
  split <;> rfl

/-- What DRYDOCK does to 518's service touches the controller alone. -/
theorem icDry_eq (s : State) : icDry s = { s with ic := (icDry s).ic } := by
  unfold icDry icEmptyStack
  split <;> rfl

theorem icFullWait_eq (s : State) :
    icFullWait s = { s with ic := (icFullWait s).ic } ∨
      icFullWait s = { s with fld := (s.raise Fld.IC_EVT_STACK_FULL).fld, ic := (icFullWait s).ic } := by
  unfold icFullWait
  simp only
  split
  · exact .inl rfl
  · split
    · exact .inl rfl
    · exact .inr rfl

/-- PM_PME goes out, or the note that it has is kept or dropped. -/
theorem icPme_eq (s : State) :
    icPme s = { s with host := { s.host with pmeOn := pmeDue s } } ∨
      icPme s = { s with host := { s.host with pmeOn := pmeDue s, pmeStatus := true }, out := s.out ++ [.pmPme] } := by
  unfold icPme
  simp only
  split
  · rename_i h
    left
    rw [h]
  · split
    · rename_i h
      right
      rw [h]
      rfl
    · rename_i h
      left
      have h' : pmeDue s = false := by simpa using h
      rw [h']
      rfl

theorem icDry_out (s : State) : (icDry s).out = s.out := by rw [icDry_eq]
theorem icDry_host (s : State) : (icDry s).host = s.host := by rw [icDry_eq]
theorem icSample_fld (s : State) : (icSample s).fld = s.fld := by rw [icSample_eq]

/-- Outside DRYDOCK it does nothing. -/
theorem icDry_id (s : State) (h : s.devState ≠ devDrydock) : icDry s = s := by
  unfold icDry
  simp [h]

/-- The parts of the state that `settle` can change. -/
theorem settle_eq (s : State) :
    settle s = { s with fld := (settle s).fld, tp := (settle s).tp, ic := (settle s).ic, host := (settle s).host, out := (settle s).out } := by
  have ht := (tpTell_tow 4 s).1
  unfold settle
  generalize tpTell 4 s = t at ht ⊢
  have h0 := icDry_eq t
  have h1 := icSample_eq (icDry t)
  rcases icFullWait_eq (icSample (icDry t)) with h2 | h2 <;> rcases icPme_eq (icFullWait (icSample (icDry t))) with h3 | h3 <;>
    (rw [h3, h2, h1, h0, ht])

/-! ### Field by field -/

@[simp] theorem settle_pending (s : State) : (settle s).pending = s.pending := by rw [settle_eq]
@[simp] theorem settle_chans (s : State) : (settle s).chans = s.chans := by rw [settle_eq]
@[simp] theorem settle_tb (s : State) : (settle s).tb = s.tb := by rw [settle_eq]
@[simp] theorem settle_board (s : State) : (settle s).board = s.board := by rw [settle_eq]
@[simp] theorem settle_accepted (s : State) : (settle s).accepted = s.accepted := by rw [settle_eq]
@[simp] theorem settle_polls (s : State) : (settle s).polls = s.polls := by rw [settle_eq]
@[simp] theorem settle_wqPolled (s : State) : (settle s).wqPolled = s.wqPolled := by rw [settle_eq]
@[simp] theorem settle_wqAgain (s : State) : (settle s).wqAgain = s.wqAgain := by rw [settle_eq]
@[simp] theorem settle_arb (s : State) : (settle s).arb = s.arb := by rw [settle_eq]
@[simp] theorem settle_crGap (s : State) : (settle s).crGap = s.crGap := by rw [settle_eq]
@[simp] theorem settle_basinq (s : State) : (settle s).basinq = s.basinq := by rw [settle_eq]
@[simp] theorem settle_serial (s : State) : (settle s).serial = s.serial := by rw [settle_eq]
@[simp] theorem settle_basin (s : State) : (settle s).basin = s.basin := by rw [settle_eq]
@[simp] theorem settle_credits (s : State) : (settle s).credits = s.credits := by rw [settle_eq]
@[simp] theorem settle_nextCredit (s : State) : (settle s).nextCredit = s.nextCredit := by rw [settle_eq]
@[simp] theorem settle_nextExt (s : State) : (settle s).nextExt = s.nextExt := by rw [settle_eq]
@[simp] theorem settle_courses (s : State) : (settle s).courses = s.courses := by rw [settle_eq]
@[simp] theorem settle_dones (s : State) : (settle s).dones = s.dones := by rw [settle_eq]
@[simp] theorem settle_ringFirst (s : State) : (settle s).ringFirst = s.ringFirst := by rw [settle_eq]
@[simp] theorem settle_dram (s : State) : (settle s).dram = s.dram := by rw [settle_eq]
@[simp] theorem settle_dramGiB (s : State) : (settle s).dramGiB = s.dramGiB := by rw [settle_eq]
@[simp] theorem settle_poison (s : State) : (settle s).poison = s.poison := by rw [settle_eq]
@[simp] theorem settle_pageCorr (s : State) : (settle s).pageCorr = s.pageCorr := by rw [settle_eq]
@[simp] theorem settle_rowCorr (s : State) : (settle s).rowCorr = s.rowCorr := by rw [settle_eq]
@[simp] theorem settle_retired (s : State) : (settle s).retired = s.retired := by rw [settle_eq]
@[simp] theorem settle_waiting (s : State) : (settle s).waiting = s.waiting := by rw [settle_eq]
@[simp] theorem settle_pages (s : State) : (settle s).pages = s.pages := by rw [settle_eq]
@[simp] theorem settle_streams (s : State) : (settle s).streams = s.streams := by rw [settle_eq]
@[simp] theorem settle_drives (s : State) : (settle s).drives = s.drives := by rw [settle_eq]
@[simp] theorem settle_place (s : State) : (settle s).place = s.place := by rw [settle_eq]
@[simp] theorem settle_dip (s : State) : (settle s).dip = s.dip := by rw [settle_eq]
@[simp] theorem settle_recovered (s : State) : (settle s).recovered = s.recovered := by rw [settle_eq]
@[simp] theorem settle_escal (s : State) : (settle s).escal = s.escal := by rw [settle_eq]
@[simp] theorem settle_critWait (s : State) : (settle s).critWait = s.critWait := by rw [settle_eq]
@[simp] theorem settle_pinsSeen (s : State) : (settle s).pinsSeen = s.pinsSeen := by rw [settle_eq]
@[simp] theorem settle_pinsHeld (s : State) : (settle s).pinsHeld = s.pinsHeld := by rw [settle_eq]
@[simp] theorem settle_tilesOut (s : State) : (settle s).tilesOut = s.tilesOut := by rw [settle_eq]
@[simp] theorem settle_portOut (s : State) : (settle s).portOut = s.portOut := by rw [settle_eq]
@[simp] theorem settle_toll (s : State) : (settle s).toll = s.toll := by rw [settle_eq]
@[simp] theorem settle_halting (s : State) : (settle s).halting = s.halting := by rw [settle_eq]
@[simp] theorem settle_free (s : State) : (settle s).free = s.free := by rw [settle_eq]
@[simp] theorem settle_ch (s : State) (c : Fin 56) : (settle s).ch c = s.ch c := by rw [settle_eq]; rfl
@[simp] theorem settle_drive (s : State) (n : Fin 4) : (settle s).drive n = s.drive n := by rw [settle_eq]; rfl
@[simp] theorem settle_strm (s : State) (i : Nat) : (settle s).strm i = s.strm i := by rw [settle_eq]; rfl
@[simp] theorem settle_ks (s : State) (k : Nat) : (settle s).ks k = s.ks k := by rw [settle_eq]; rfl
@[simp] theorem settle_dramByte (s : State) (a : Nat) : (settle s).dramByte a = s.dramByte a := by rw [settle_eq]; rfl

/-- Every register field but IC_EVT.STACK_FULL and the towpath's is as the command left it. -/
theorem settle_get (s : State) (g : Fld) (h : fldKey g ≠ fldKey Fld.IC_EVT_STACK_FULL) (ht : towField g = false) :
    (settle s).get g = s.get g := by
  have t0 : (tpTell 4 s).get g = s.get g := (tpTell_tow 4 s).2 g ht
  unfold settle
  generalize tpTell 4 s = t at t0 ⊢
  rw [← t0]
  have e0 : (icDry t).fld = t.fld := by rw [icDry_eq]
  have e : (icSample (icDry t)).get g = t.get g := by simp [State.get, icSample_fld, e0]
  have e2 : (icFullWait (icSample (icDry t))).get g = t.get g := by
    rcases icFullWait_eq (icSample (icDry t)) with h2 | h2
    · rw [h2, ← e]
      rfl
    · rw [h2, ← e]
      exact State.get_put_ne (icSample (icDry t)) 1 h
  rcases icPme_eq (icFullWait (icSample (icDry t))) with h3 | h3
  · rw [h3, ← e2]
    rfl
  · rw [h3, ← e2]
    rfl

/-- The towpath is as the command and the HELLO frames after it left it. -/
theorem settle_tp (s : State) : (settle s).tp = (tpTell 4 s).tp := by
  unfold settle
  generalize tpTell 4 s = t
  have h0 := icDry_eq t
  have h1 := icSample_eq (icDry t)
  rcases icFullWait_eq (icSample (icDry t)) with h2 | h2 <;> rcases icPme_eq (icFullWait (icSample (icDry t))) with h3 | h3 <;>
    (rw [h3, h2, h1, h0])

/-- The stacks of the targets are as the command left them, but that DRYDOCK lets 518 go. -/
theorem settle_stackTab (s : State) : (settle s).ic.stackTab = (icDry (tpTell 4 s)).ic.stackTab := by
  have h1 : ∀ u : State, (icSample u).ic.stackTab = u.ic.stackTab := by
    intro u
    unfold icSample
    simp only
    split <;> rfl
  have h2 : ∀ u : State, (icFullWait u).ic.stackTab = u.ic.stackTab := by
    intro u
    unfold icFullWait
    simp only
    repeat (split <;> try rfl)
  have h3 : ∀ u : State, (icPme u).ic = u.ic := by
    intro u
    rcases icPme_eq u with h | h <;> rw [h]
  unfold settle
  rw [h3, h2, h1]

/-- What has been sent stays, with PM_PME after it at most. -/
theorem settle_out (s : State) : (settle s).out = (tpTell 4 s).out ∨ (settle s).out = (tpTell 4 s).out ++ [.pmPme] := by
  unfold settle
  generalize tpTell 4 s = t
  have h1 : (icSample (icDry t)).out = t.out := by rw [icSample_eq, icDry_out]
  have h2 : ∀ u : State, (icFullWait u).out = u.out := by
    intro u
    rcases icFullWait_eq u with h | h <;> rw [h]
  rcases icPme_eq (icFullWait (icSample (icDry t))) with h | h
  · left
    rw [h]
    simp [h2, h1]
  · right
    rw [h]
    simp [h2, h1]

/-- The host function is as the command left it, but for PME_Status and the note that PM_PME is out. -/
theorem settle_host (s : State) :
    (∃ on, (settle s).host = { s.host with pmeOn := on }) ∨ ∃ on, (settle s).host = { s.host with pmeOn := on, pmeStatus := true } := by
  have ht : (tpTell 4 s).host = s.host := by rw [(tpTell_tow 4 s).1]
  unfold settle
  generalize tpTell 4 s = t at ht ⊢
  have h1 : (icSample (icDry t)).host = t.host := by rw [icSample_eq, icDry_host]
  have h2 : ∀ u : State, (icFullWait u).host = u.host := by
    intro u
    rcases icFullWait_eq u with h | h <;> rw [h]
  rcases icPme_eq (icFullWait (icSample (icDry t))) with h | h
  · left
    rw [h]
    refine ⟨pmeDue (icFullWait (icSample (icDry t))), ?_⟩
    simp [h2, h1, ht]
  · right
    rw [h]
    refine ⟨pmeDue (icFullWait (icSample (icDry t))), ?_⟩
    simp [h2, h1, ht]

end Sys2Proof.Machine
end

