-- ==== Sys2Proof/Laws/Keeper.lean ====
section
/-!
SUPPORT. What a keeper thread's step does beyond the instruction's own effect: the charge, the ageing of loads on their way, and the
move of PC. Each lemma says once what a shared operation leaves as it was.
-/
namespace Sys2Proof.Machine

/-! ### Threads -/

@[simp] theorem Thread.setD_getD_same (th : Thread) (i : BitVec 3) (v : Byte) : (th.setD i v).getD i = v := by
  simp [Thread.setD, Thread.getD, Thread.dropLoad]
@[simp] theorem Thread.setA_getA_same (th : Thread) (i : BitVec 3) (v : Half) : (th.setA i v).getA i = v := by
  simp [Thread.setA, Thread.getA, Thread.dropLoad]
@[simp] theorem Thread.setQ_getQ_same (th : Thread) (i : BitVec 2) (v : Long) : (th.setQ i v).getQ i = v := by
  simp [Thread.setQ, Thread.getQ, Thread.dropLoad]

theorem Thread.setD_getD_ne (th : Thread) {i j : BitVec 3} (v : Byte) (h : i ≠ j) : (th.setD i v).getD j = th.getD j := by
  have h' : i.toNat ≠ j.toNat := fun e => h (BitVec.eq_of_toNat_eq e)
  simp [Thread.setD, Thread.getD, Thread.dropLoad, h']
theorem Thread.setA_getA_ne (th : Thread) {i j : BitVec 3} (v : Half) (h : i ≠ j) : (th.setA i v).getA j = th.getA j := by
  have h' : i.toNat ≠ j.toNat := fun e => h (BitVec.eq_of_toNat_eq e)
  simp [Thread.setA, Thread.getA, Thread.dropLoad, h']
theorem Thread.setQ_getQ_ne (th : Thread) {i j : BitVec 2} (v : Long) (h : i ≠ j) : (th.setQ i v).getQ j = th.getQ j := by
  have h' : i.toNat ≠ j.toNat := fun e => h (BitVec.eq_of_toNat_eq e)
  simp [Thread.setQ, Thread.getQ, Thread.dropLoad, h']

@[simp] theorem Thread.setD_getA (th : Thread) (i : BitVec 3) (v : Byte) (j : BitVec 3) : (th.setD i v).getA j = th.getA j := rfl
@[simp] theorem Thread.setD_getQ (th : Thread) (i : BitVec 3) (v : Byte) (j : BitVec 2) : (th.setD i v).getQ j = th.getQ j := rfl
@[simp] theorem Thread.setA_getD (th : Thread) (i : BitVec 3) (v : Half) (j : BitVec 3) : (th.setA i v).getD j = th.getD j := rfl
@[simp] theorem Thread.setA_getQ (th : Thread) (i : BitVec 3) (v : Half) (j : BitVec 2) : (th.setA i v).getQ j = th.getQ j := rfl
@[simp] theorem Thread.setQ_getD (th : Thread) (i : BitVec 2) (v : Long) (j : BitVec 3) : (th.setQ i v).getD j = th.getD j := rfl
@[simp] theorem Thread.setQ_getA (th : Thread) (i : BitVec 2) (v : Long) (j : BitVec 3) : (th.setQ i v).getA j = th.getA j := rfl

/-- A loaded value changes its own register alone. -/
theorem Thread.commitLoad_getD (th : Thread) (l : PendLoad) (i : BitVec 3) (h : l.dst ≠ .d i) :
    (th.commitLoad l).getD i = th.getD i := by
  unfold Thread.commitLoad
  split
  · rename_i j e
    have h' : j.toNat ≠ i.toNat := fun x => h (by rw [e, BitVec.eq_of_toNat_eq x])
    simp [Thread.getD, h']
  · rfl
  · rfl

theorem Thread.commitLoad_getA (th : Thread) (l : PendLoad) (i : BitVec 3) (h : l.dst ≠ .a i) :
    (th.commitLoad l).getA i = th.getA i := by
  unfold Thread.commitLoad
  split
  · rfl
  · rename_i j e
    have h' : j.toNat ≠ i.toNat := fun x => h (by rw [e, BitVec.eq_of_toNat_eq x])
    simp [Thread.getA, h']
  · rfl

theorem Thread.commitLoad_getQ (th : Thread) (l : PendLoad) (i : BitVec 2) (h : l.dst ≠ .q i) :
    (th.commitLoad l).getQ i = th.getQ i := by
  unfold Thread.commitLoad
  split
  · rfl
  · rfl
  · rename_i j e
    have h' : j.toNat ≠ i.toNat := fun x => h (by rw [e, BitVec.eq_of_toNat_eq x])
    simp [Thread.getQ, h']

/-- Loaded values change nothing of a thread but its registers. -/
theorem Thread.commitLoad_eq (th : Thread) (l : PendLoad) :
    th.commitLoad l = { th with d := (th.commitLoad l).d, a := (th.commitLoad l).a, q := (th.commitLoad l).q } := by
  unfold Thread.commitLoad
  split <;> rfl

theorem Thread.commits_eq (ls : List PendLoad) (th : Thread) :
    ls.foldl Thread.commitLoad th = { th with d := (ls.foldl Thread.commitLoad th).d, a := (ls.foldl Thread.commitLoad th).a,
                                              q := (ls.foldl Thread.commitLoad th).q } := by
  induction ls generalizing th with
  | nil => rfl
  | cons l t ih =>
    simp only [List.foldl_cons]
    have e := ih (th.commitLoad l)
    rw [Thread.commitLoad_eq th l] at e
    rw [Thread.commitLoad_eq th l]
    exact e

theorem Thread.commits_getD (ls : List PendLoad) (th : Thread) (i : BitVec 3) (h : ∀ l ∈ ls, l.dst ≠ .d i) :
    (ls.foldl Thread.commitLoad th).getD i = th.getD i := by
  induction ls generalizing th with
  | nil => rfl
  | cons l t ih =>
    simp only [List.foldl_cons]
    rw [ih _ (fun x hx => h x (List.mem_cons_of_mem _ hx)), Thread.commitLoad_getD _ _ _ (h l List.mem_cons_self)]

theorem Thread.commits_getA (ls : List PendLoad) (th : Thread) (i : BitVec 3) (h : ∀ l ∈ ls, l.dst ≠ .a i) :
    (ls.foldl Thread.commitLoad th).getA i = th.getA i := by
  induction ls generalizing th with
  | nil => rfl
  | cons l t ih =>
    simp only [List.foldl_cons]
    rw [ih _ (fun x hx => h x (List.mem_cons_of_mem _ hx)), Thread.commitLoad_getA _ _ _ (h l List.mem_cons_self)]

theorem Thread.commits_getQ (ls : List PendLoad) (th : Thread) (i : BitVec 2) (h : ∀ l ∈ ls, l.dst ≠ .q i) :
    (ls.foldl Thread.commitLoad th).getQ i = th.getQ i := by
  induction ls generalizing th with
  | nil => rfl
  | cons l t ih =>
    simp only [List.foldl_cons]
    rw [ih _ (fun x hx => h x (List.mem_cons_of_mem _ hx)), Thread.commitLoad_getQ _ _ _ (h l List.mem_cons_self)]

/-- Ageing changes a thread's registers and its loads on their way alone (R119). -/
theorem Thread.ageLoads_eq (th : Thread) :
    th.ageLoads = { th with d := (th.ageLoads).d, a := (th.ageLoads).a, q := (th.ageLoads).q,
                              loads := (th.ageLoads).loads } := by
  unfold Thread.ageLoads
  simp only
  generalize th.loads.filter _ = ls
  rw [Thread.commits_eq ls th]

theorem Thread.ageLoads_getD (th : Thread) (i : BitVec 3) (h : ∀ l ∈ th.loads, l.dst ≠ .d i) :
    (th.ageLoads).getD i = th.getD i := by
  unfold Thread.ageLoads
  exact Thread.commits_getD _ th i (fun l hl => h l (List.mem_of_mem_filter hl))

theorem Thread.ageLoads_getA (th : Thread) (i : BitVec 3) (h : ∀ l ∈ th.loads, l.dst ≠ .a i) :
    (th.ageLoads).getA i = th.getA i := by
  unfold Thread.ageLoads
  exact Thread.commits_getA _ th i (fun l hl => h l (List.mem_of_mem_filter hl))

theorem Thread.ageLoads_getQ (th : Thread) (i : BitVec 2) (h : ∀ l ∈ th.loads, l.dst ≠ .q i) :
    (th.ageLoads).getQ i = th.getQ i := by
  unfold Thread.ageLoads
  exact Thread.commits_getQ _ th i (fun l hl => h l (List.mem_of_mem_filter hl))

/-- A sequential move of PC changes PC and the lines held alone (R152). -/
theorem advancePc_eq (k : Keeper) (th : Thread) (pc : Half) :
    advancePc k th pc = { th with pc := pc, cur := (advancePc k th pc).cur, nxt := (advancePc k th pc).nxt } := by
  unfold advancePc
  simp only
  split
  · rfl
  · split
    · rfl
    · rfl

theorem fallThrough_eq (k : Keeper) (th : Thread) (len : Nat) :
    fallThrough k th len = { th with pc := (fallThrough k th len).pc, rep := (fallThrough k th len).rep,
                                     cur := (fallThrough k th len).cur, nxt := (fallThrough k th len).nxt,
                                     st := (fallThrough k th len).st, yldAfter := (fallThrough k th len).yldAfter } := by
  unfold fallThrough
  simp only
  split
  · split
    · rw [advancePc_eq]
      split <;> rfl
    · rfl
  · rw [advancePc_eq]

/-- What falling through does to the thread's state. -/
theorem fallThrough_rests (k : Keeper) (th : Thread) (len : Nat) : Sys2Proof.Rests th (fallThrough k th len) := by
  refine ⟨fun ⟨n, h, hn⟩ hy => ?_, fun h => ?_⟩
  · simp only [fallThrough, h, hn, if_pos]
    rw [advancePc_eq]
    simp [hy]
  · unfold fallThrough
    simp only
    split
    · rename_i n hn
      split
      · rename_i h1
        rw [advancePc_eq]
        rcases h with h | h
        · exact absurd (h n hn) (by omega)
        · simp [h]
      · exact ⟨rfl, rfl⟩
    · rw [advancePc_eq]
      exact ⟨rfl, rfl⟩

/-- Where falling through leaves PC and REP. -/
theorem fallThrough_falls (k : Keeper) (th : Thread) (len : Nat) : Sys2Proof.Falls th (fallThrough k th len) len := by
  refine ⟨fun h => ?_, fun n h hn => ?_, fun n h hn => ?_⟩
  · simp only [fallThrough, h]
    rw [advancePc_eq]
    exact ⟨rfl, h⟩
  · simp only [fallThrough, h, hn, if_pos]
    rw [advancePc_eq]
    split <;> simp
  · have h' : ¬ n ≤ 1 := by omega
    simp [fallThrough, h, h']

/-! ### The step -/

/-- A charge counts cycles of the thread and may set its OVER flag, and touches nothing else (R43, R44). -/
theorem charge_eq (s : State) (c : Fin 56) (t : Fin 8) (n : Nat) :
    charge s c t n = s.modTh c t (fun th => { th with used := th.used + n }) ∨
    charge s c t n = (s.modTh c t (fun th => { th with used := th.used + n })).raise (Fld.THREAD_BUDGET_OVER c t) := by
  unfold charge
  simp only
  split
  · exact .inr rfl
  · exact .inl rfl

theorem State.modTh_modTh (s : State) (c : Fin 56) (t : Fin 8) (f g : Thread → Thread) :
    (s.modTh c t f).modTh c t g = s.modTh c t (fun th => g (f th)) := by
  simp [State.modTh, State.modCh, State.ch]

theorem State.modTh_const (s : State) (c : Fin 56) (t : Fin 8) (f : Thread → Thread) :
    s.modTh c t f = s.modTh c t (fun _ => f (s.th c t)) := rfl

theorem State.put_modTh (s : State) (f : Fld) (v : Nat) (c : Fin 56) (t : Fin 8) (g : Thread → Thread) :
    (s.put f v).modTh c t g = (s.modTh c t g).put f v := rfl

@[simp] theorem State.modTh_kp (s : State) (c : Fin 56) (t : Fin 8) (f : Thread → Thread) : (s.modTh c t f).kp c = s.kp c := by
  simp [State.kp, State.modTh]

/-- A thread that has halfwords at PC holds a line. -/
theorem inSlot_holds {s : State} {c : Fin 56} {t : Fin 8} {x : Half × Half} (f : State → State) (h : atPc (s.th c t) = some x) :
    inSlot s c t f = f s := by
  have hl : (s.th c t).cur.isSome || (s.th c t).nxt.isSome := by
    by_contra hn
    simp only [Bool.or_eq_true, not_or, Bool.not_eq_true, Option.isSome_eq_false_iff, Option.isNone_iff_eq_none] at hn
    simp [atPc, heldHalf, hn.1, hn.2] at h
  unfold inSlot
  simp [hl]

/-- A keeper command at an issue slot is the instruction's issue. -/
theorem kStep_issue {s : State} {c : Fin 56} {t : Fin 8} {i : KInstr} {h0 h1 : Half} (h : Sys2Proof.Issues s c t i h0 h1) :
    kIssues s c t i = kIssue s c t i h0 h1 := by
  obtain ⟨hm, hb, ha, hd⟩ := h
  unfold kIssues
  rw [inSlot_holds _ ha]
  simp [kStep, hm, hb, ha, hd]

/-- An instruction whose effect is on its own thread, and which falls through. -/
theorem kStep_reg {s : State} {c : Fin 56} {t : Fin 8} {i : KInstr} {h0 h1 : Half} {f : Thread → Thread}
    (h : Sys2Proof.Issues s c t i h0 h1) (hr : ∀ u, i ≠ .repImm u) (hr' : ∀ n, i ≠ .repReg n) (hf : i ≠ .iflush)
    (he : kEffect s c t (kLen h0) i = kReg s c t f) :
    Sys2Proof.OnlyThread s c t (done (kIssues s c t i)) (fun th' =>
      th' = fallThrough (s.kp c) (({ f (s.th c t) with used := (f (s.th c t)).used + kCycles i } : Thread).ageLoads) (kLen h0)) := by
  have e1 := kStep_issue h
  have e2 : kIssue s c t i h0 h1 =
      (let u := (charge (s.modTh c t f) c t (kCycles i)).modTh c t Thread.ageLoads
       u.modTh c t (fun th => fallThrough (u.kp c) th (kLen h0))) := by
    unfold kIssue
    cases i <;> first | (exfalso; exact hr _ rfl) | (exfalso; exact hr' _ rfl) | (exfalso; exact hf rfl) |
      simp only [he, kReg, Bool.false_and, Bool.false_eq_true, if_false]
  refine ⟨_, _, by rw [e1]; rfl, rfl, ?_⟩
  rw [e2]
  rcases charge_eq (s.modTh c t f) c t (kCycles i) with hc | hc
  · left
    simp only [hc, State.modTh_modTh, State.modTh_kp]
    rw [State.modTh_const]
  · right
    simp only [hc, State.raise_eq, State.put_modTh, State.modTh_modTh]
    have hk : ∀ (x : State) (F : Fld) (v : Nat), (x.put F v).kp c = x.kp c := fun _ _ _ => rfl
    simp only [hk, State.modTh_kp]
    rw [State.modTh_const]

/-- What such a step leaves of the thread, from what the instruction itself does to it. -/
theorem fallsKeeping {th g : Thread} {k : Keeper} {len cyc : Nat} {ws : List LoadDst} (hu : g.used = th.used)
    (hp : g.pc = th.pc) (hr : g.rep = th.rep) (hl : ∀ l ∈ g.loads, l ∈ th.loads) (hw : Sys2Proof.RegsKept th g ws)
    (hs : Sys2Proof.SystemKept th g) :
    Sys2Proof.FallsKeeping th
      (fallThrough k (({ g with used := g.used + cyc } : Thread).ageLoads) len) len cyc ws := by
  have ef := fallThrough_eq k (({ g with used := g.used + cyc } : Thread).ageLoads) len
  have ea := Thread.ageLoads_eq ({ g with used := g.used + cyc } : Thread)
  have eff := fallThrough_falls k (({ g with used := g.used + cyc } : Thread).ageLoads) len
  have efr := fallThrough_rests k (({ g with used := g.used + cyc } : Thread).ageLoads) len
  have hst : (({ g with used := g.used + cyc } : Thread).ageLoads).st = th.st := by rw [ea, hs]
  have hya : (({ g with used := g.used + cyc } : Thread).ageLoads).yldAfter = th.yldAfter := by rw [ea, hs]
  have hpc : (({ g with used := g.used + cyc } : Thread).ageLoads).pc = th.pc := by rw [ea]; exact hp
  have hrep : (({ g with used := g.used + cyc } : Thread).ageLoads).rep = th.rep := by rw [ea]; exact hr
  refine ⟨?_, ?_, ⟨fun i hi ha => ?_, fun i hi ha => ?_, fun i hi ha => ?_⟩, ?_, ?_⟩
  · rw [ef, ea]; simp [hu]
  · unfold Sys2Proof.Falls at eff ⊢
    rw [hpc, hrep] at eff
    exact eff
  · rw [ef]
    show (({ g with used := g.used + cyc } : Thread).ageLoads).getD i = _
    refine (Thread.ageLoads_getD ({ g with used := g.used + cyc } : Thread) _ (fun l hl' => ha l (hl l hl'))).trans ?_
    exact hw.1 i hi ha
  · rw [ef]
    show (({ g with used := g.used + cyc } : Thread).ageLoads).getA i = _
    refine (Thread.ageLoads_getA ({ g with used := g.used + cyc } : Thread) _ (fun l hl' => ha l (hl l hl'))).trans ?_
    exact hw.2.1 i hi ha
  · rw [ef]
    show (({ g with used := g.used + cyc } : Thread).ageLoads).getQ i = _
    refine (Thread.ageLoads_getQ ({ g with used := g.used + cyc } : Thread) _ (fun l hl' => ha l (hl l hl'))).trans ?_
    exact hw.2.2 i hi ha
  · unfold Sys2Proof.SystemKept at hs ⊢
    clear eff efr hpc hrep hst hya
    generalize Thread.ageLoads _ = y at ea ef ⊢
    generalize fallThrough k y len = x at ef ⊢
    clear hw hl hu hp hr
    cases th
    cases g
    cases x
    cases y
    simp only [Thread.mk.injEq] at hs ef ea ⊢
    simp [ef, ea, hs]
  · unfold Sys2Proof.Rests at efr ⊢
    rw [hrep, hst, hya] at efr
    exact efr

/-- After the charge and the ageing of loads, a change of the thread alone. -/
theorem charged_only (s1 : State) (c : Fin 56) (t : Fin 8) (n : Nat) (f g : Thread → Thread) :
    let u := (((charge s1 c t n).modTh c t f).modTh c t g)
    u = s1.modTh c t (fun _ => g (f { s1.th c t with used := (s1.th c t).used + n })) ∨
    u = (s1.modTh c t (fun _ => g (f { s1.th c t with used := (s1.th c t).used + n }))).raise (Fld.THREAD_BUDGET_OVER c t) := by
  intro u
  rcases charge_eq s1 c t n with hc | hc
  · left
    simp only [u, hc, State.modTh_modTh]
    rw [State.modTh_const]
  · right
    simp only [u, hc, State.raise_eq, State.put_modTh, State.modTh_modTh]
    rw [State.modTh_const]

@[simp] theorem charge_kp (s : State) (c : Fin 56) (t : Fin 8) (n : Nat) : (charge s c t n).kp c = s.kp c := by
  rcases charge_eq s c t n with h | h <;> rw [h]
  · simp
  · rw [State.raise_eq]
    have hk : ∀ (x : State) (F : Fld) (v : Nat), (x.put F v).kp c = x.kp c := fun _ _ _ => rfl
    rw [hk]
    simp

/-- An instruction that falls through after an effect of any kind. -/
theorem kStep_next {s s1 : State} {c : Fin 56} {t : Fin 8} {i : KInstr} {h0 h1 : Half}
    (h : Sys2Proof.Issues s c t i h0 h1) (hr : ∀ u, i ≠ .repImm u) (hr' : ∀ n, i ≠ .repReg n) (hf : i ≠ .iflush)
    (he : kEffect s c t (kLen h0) i = .next s1) :
    Sys2Proof.OnlyThread s1 c t (done (kIssues s c t i)) (fun th' =>
      th' = fallThrough (s1.kp c) (({ s1.th c t with used := (s1.th c t).used + kCycles i } : Thread).ageLoads) (kLen h0)) := by
  have e2 : kIssue s c t i h0 h1 =
      ((charge s1 c t (kCycles i)).modTh c t Thread.ageLoads).modTh c t (fun th => fallThrough (s1.kp c) th (kLen h0)) := by
    unfold kIssue
    cases i <;> first | (exfalso; exact hr _ rfl) | (exfalso; exact hr' _ rfl) | (exfalso; exact hf rfl) |
      simp only [he, Bool.false_and, Bool.false_eq_true, if_false, State.modTh_kp, charge_kp]
  refine ⟨_, _, by rw [kStep_issue h]; rfl, rfl, ?_⟩
  rw [e2]
  exact charged_only s1 c t (kCycles i) _ _

/-- An instruction that branches. -/
theorem kStep_jump {s s1 : State} {c : Fin 56} {t : Fin 8} {i : KInstr} {h0 h1 : Half} {pc : Half}
    (h : Sys2Proof.Issues s c t i h0 h1) (hr : ∀ u, i ≠ .repImm u) (hr' : ∀ n, i ≠ .repReg n) (hi : i ≠ .reti)
    (he : kEffect s c t (kLen h0) i = .jump s1 pc) :
    Sys2Proof.OnlyThread s1 c t (done (kIssues s c t i)) (fun th' =>
      th' = jumpTo (s1.kp c) (({ s1.th c t with used := (s1.th c t).used + kCycles i } : Thread).ageLoads) pc) := by
  have e2 : kIssue s c t i h0 h1 =
      ((charge s1 c t (kCycles i)).modTh c t Thread.ageLoads).modTh c t (fun th => jumpTo (s1.kp c) th pc) := by
    unfold kIssue
    cases i <;> first | (exfalso; exact hr _ rfl) | (exfalso; exact hr' _ rfl) | (exfalso; exact hi rfl) |
      simp only [he, Bool.false_and, Bool.false_eq_true, if_false, State.modTh_kp, charge_kp]
  refine ⟨_, _, by rw [kStep_issue h]; rfl, rfl, ?_⟩
  rw [e2]
  exact charged_only s1 c t (kCycles i) _ _

/-- An instruction that branches through a held line. -/
theorem kStep_held {s s1 : State} {c : Fin 56} {t : Fin 8} {i : KInstr} {h0 h1 : Half} {pc : Half} {l : Line}
    (h : Sys2Proof.Issues s c t i h0 h1) (hr : ∀ u, i ≠ .repImm u) (hr' : ∀ n, i ≠ .repReg n)
    (he : kEffect s c t (kLen h0) i = .held s1 pc l) :
    Sys2Proof.OnlyThread s1 c t (done (kIssues s c t i)) (fun th' =>
      th' = jumpHeld (s1.kp c) (({ s1.th c t with used := (s1.th c t).used + kCycles i } : Thread).ageLoads) pc l) := by
  have e2 : kIssue s c t i h0 h1 =
      ((charge s1 c t (kCycles i)).modTh c t Thread.ageLoads).modTh c t (fun th => jumpHeld (s1.kp c) th pc l) := by
    unfold kIssue
    cases i <;> first | (exfalso; exact hr _ rfl) | (exfalso; exact hr' _ rfl) |
      simp only [he, Bool.false_and, Bool.false_eq_true, if_false, State.modTh_kp, charge_kp]
  refine ⟨_, _, by rw [kStep_issue h]; rfl, rfl, ?_⟩
  rw [e2]
  exact charged_only s1 c t (kCycles i) _ _

/-- A wait for an event. -/
theorem kStep_wait {s s1 : State} {c : Fin 56} {t : Fin 8} {i : KInstr} {h0 h1 : Half}
    (h : Sys2Proof.Issues s c t i h0 h1) (hr : ∀ u, i ≠ .repImm u) (hr' : ∀ n, i ≠ .repReg n)
    (he : kEffect s c t (kLen h0) i = .wait s1) :
    Sys2Proof.OnlyThread s1 c t (done (kIssues s c t i)) (fun th' =>
      th' = advancePc (s1.kp c) (({ s1.th c t with used := (s1.th c t).used + kCycles i } : Thread).ageLoads)
        ((s.th c t).pc + BitVec.ofNat 16 (kLen h0))) := by
  have e2 : kIssue s c t i h0 h1 =
      ((charge s1 c t (kCycles i)).modTh c t Thread.ageLoads).modTh c t
        (fun th => advancePc (s1.kp c) th ((s.th c t).pc + BitVec.ofNat 16 (kLen h0))) := by
    unfold kIssue
    cases i <;> first | (exfalso; exact hr _ rfl) | (exfalso; exact hr' _ rfl) |
      simp only [he, Bool.false_and, Bool.false_eq_true, if_false, State.modTh_kp, charge_kp]
  refine ⟨_, _, by rw [kStep_issue h]; rfl, rfl, ?_⟩
  rw [e2]
  exact charged_only s1 c t (kCycles i) _ _

/-- An instruction that writes beyond its thread and falls through. -/
theorem kStep_after {s s1 : State} {c : Fin 56} {t : Fin 8} {i : KInstr} {h0 h1 : Half}
    (h : Sys2Proof.Issues s c t i h0 h1) (hr : ∀ u, i ≠ .repImm u) (hr' : ∀ n, i ≠ .repReg n) (hf : i ≠ .iflush)
    (he : kEffect s c t (kLen h0) i = .next s1) : Sys2Proof.AfterWrite s1 c t (kLen h0) (kCycles i) (done (kIssues s c t i)) := by
  obtain ⟨u, th', e1, e2, e3⟩ := kStep_next h hr hr' hf he
  refine ⟨u, th', e1, ?_, e3⟩
  subst e2
  exact fallsKeeping (g := s1.th c t) rfl rfl rfl (fun _ h => h)
    ⟨fun _ _ _ => rfl, fun _ _ _ => rfl, fun _ _ _ => rfl⟩ rfl

/-- The result register reads what the instruction gave it. -/
theorem fallThrough_aged_getD {g : Thread} {k : Keeper} {len cyc : Nat} {i : BitVec 3}
    (h : ∀ l ∈ g.loads, l.dst ≠ .d i) :
    (fallThrough k (({ g with used := g.used + cyc } : Thread).ageLoads) len).getD i = g.getD i := by
  rw [fallThrough_eq]
  exact Thread.ageLoads_getD ({ g with used := g.used + cyc } : Thread) i h

theorem fallThrough_aged_getA {g : Thread} {k : Keeper} {len cyc : Nat} {i : BitVec 3}
    (h : ∀ l ∈ g.loads, l.dst ≠ .a i) :
    (fallThrough k (({ g with used := g.used + cyc } : Thread).ageLoads) len).getA i = g.getA i := by
  rw [fallThrough_eq]
  exact Thread.ageLoads_getA ({ g with used := g.used + cyc } : Thread) i h

theorem fallThrough_aged_getQ {g : Thread} {k : Keeper} {len cyc : Nat} {i : BitVec 2}
    (h : ∀ l ∈ g.loads, l.dst ≠ .q i) :
    (fallThrough k (({ g with used := g.used + cyc } : Thread).ageLoads) len).getQ i = g.getQ i := by
  rw [fallThrough_eq]
  exact Thread.ageLoads_getQ ({ g with used := g.used + cyc } : Thread) i h

/-- An instruction's write discards a load on its way to the register (R119). -/
theorem setD_noLoad (th : Thread) (i : BitVec 3) (v : Byte) : ∀ l ∈ (th.setD i v).loads, l.dst ≠ .d i := by
  intro l hl
  simp [Thread.setD, Thread.dropLoad] at hl
  exact hl.2
theorem setA_noLoad (th : Thread) (i : BitVec 3) (v : Half) : ∀ l ∈ (th.setA i v).loads, l.dst ≠ .a i := by
  intro l hl
  simp [Thread.setA, Thread.dropLoad] at hl
  exact hl.2
theorem setQ_noLoad (th : Thread) (i : BitVec 2) (v : Long) : ∀ l ∈ (th.setQ i v).loads, l.dst ≠ .q i := by
  intro l hl
  simp [Thread.setQ, Thread.dropLoad] at hl
  exact hl.2
theorem setD_loads (th : Thread) (i : BitVec 3) (v : Byte) : ∀ l ∈ (th.setD i v).loads, l ∈ th.loads := by
  intro l hl
  simp [Thread.setD, Thread.dropLoad] at hl
  exact hl.1
theorem setA_loads (th : Thread) (i : BitVec 3) (v : Half) : ∀ l ∈ (th.setA i v).loads, l ∈ th.loads := by
  intro l hl
  simp [Thread.setA, Thread.dropLoad] at hl
  exact hl.1
theorem setQ_loads (th : Thread) (i : BitVec 2) (v : Long) : ∀ l ∈ (th.setQ i v).loads, l ∈ th.loads := by
  intro l hl
  simp [Thread.setQ, Thread.dropLoad] at hl
  exact hl.1

theorem setD_regsKept (th : Thread) (i : BitVec 3) (v : Byte) : Sys2Proof.RegsKept th (th.setD i v) [.d i] :=
  ⟨fun j hj _ => Thread.setD_getD_ne th v (fun e => hj (by simp [e])), fun _ _ _ => rfl, fun _ _ _ => rfl⟩
theorem setA_regsKept (th : Thread) (i : BitVec 3) (v : Half) : Sys2Proof.RegsKept th (th.setA i v) [.a i] :=
  ⟨fun _ _ _ => rfl, fun j hj _ => Thread.setA_getA_ne th v (fun e => hj (by simp [e])), fun _ _ _ => rfl⟩
theorem setQ_regsKept (th : Thread) (i : BitVec 2) (v : Long) : Sys2Proof.RegsKept th (th.setQ i v) [.q i] :=
  ⟨fun _ _ _ => rfl, fun _ _ _ => rfl, fun j hj _ => Thread.setQ_getQ_ne th v (fun e => hj (by simp [e]))⟩

/-- An instruction that writes one data register. -/
theorem kStep_setD {s : State} {c : Fin 56} {t : Fin 8} {i : KInstr} {h0 h1 : Half} {d : BitVec 3} {v : Thread → Byte}
    (h : Sys2Proof.Issues s c t i h0 h1) (hr : ∀ u, i ≠ .repImm u) (hr' : ∀ n, i ≠ .repReg n) (hf : i ≠ .iflush)
    (he : kEffect s c t (kLen h0) i = kReg s c t (fun th => th.setD d (v th))) :
    Sys2Proof.OnlyThread s c t (done (kIssues s c t i)) (fun th' =>
      th'.getD d = v (s.th c t) ∧ Sys2Proof.FallsKeeping (s.th c t) th' (kLen h0) (kCycles i) [.d d]) := by
  obtain ⟨u, th', e1, e2, e3⟩ := kStep_reg h hr hr' hf he
  refine ⟨u, th', e1, ?_, e3⟩
  subst e2
  refine ⟨?_, fallsKeeping rfl rfl rfl (setD_loads _ _ _) (setD_regsKept _ _ _) rfl⟩
  rw [fallThrough_aged_getD (setD_noLoad _ _ _)]
  simp

/-- An instruction that writes one address register. -/
theorem kStep_setA {s : State} {c : Fin 56} {t : Fin 8} {i : KInstr} {h0 h1 : Half} {d : BitVec 3} {v : Thread → Half}
    (h : Sys2Proof.Issues s c t i h0 h1) (hr : ∀ u, i ≠ .repImm u) (hr' : ∀ n, i ≠ .repReg n) (hf : i ≠ .iflush)
    (he : kEffect s c t (kLen h0) i = kReg s c t (fun th => th.setA d (v th))) :
    Sys2Proof.OnlyThread s c t (done (kIssues s c t i)) (fun th' =>
      th'.getA d = v (s.th c t) ∧ Sys2Proof.FallsKeeping (s.th c t) th' (kLen h0) (kCycles i) [.a d]) := by
  obtain ⟨u, th', e1, e2, e3⟩ := kStep_reg h hr hr' hf he
  refine ⟨u, th', e1, ?_, e3⟩
  subst e2
  refine ⟨?_, fallsKeeping rfl rfl rfl (setA_loads _ _ _) (setA_regsKept _ _ _) rfl⟩
  rw [fallThrough_aged_getA (setA_noLoad _ _ _)]
  simp

/-- An instruction that writes one accumulator. -/
theorem kStep_setQ {s : State} {c : Fin 56} {t : Fin 8} {i : KInstr} {h0 h1 : Half} {d : BitVec 2} {v : Thread → Long}
    (h : Sys2Proof.Issues s c t i h0 h1) (hr : ∀ u, i ≠ .repImm u) (hr' : ∀ n, i ≠ .repReg n) (hf : i ≠ .iflush)
    (he : kEffect s c t (kLen h0) i = kReg s c t (fun th => th.setQ d (v th))) :
    Sys2Proof.OnlyThread s c t (done (kIssues s c t i)) (fun th' =>
      th'.getQ d = v (s.th c t) ∧ Sys2Proof.FallsKeeping (s.th c t) th' (kLen h0) (kCycles i) [.q d]) := by
  obtain ⟨u, th', e1, e2, e3⟩ := kStep_reg h hr hr' hf he
  refine ⟨u, th', e1, ?_, e3⟩
  subst e2
  refine ⟨?_, fallsKeeping rfl rfl rfl (setQ_loads _ _ _) (setQ_regsKept _ _ _) rfl⟩
  rw [fallThrough_aged_getQ (setQ_noLoad _ _ _)]
  simp

/-- Completing the loads on their way changes registers alone (R156 step 1). -/
theorem Thread.commitAll_eq (th : Thread) :
    th.commitAll = { th with d := th.commitAll.d, a := th.commitAll.a, q := th.commitAll.q, loads := [] } := by
  unfold Thread.commitAll
  rw [Thread.commits_eq th.loads th]

theorem Thread.commitAll_regsKept (th : Thread) : Sys2Proof.RegsKept th th.commitAll [] :=
  ⟨fun i _ ha => Thread.commits_getD th.loads th i ha, fun i _ ha => Thread.commits_getA th.loads th i ha,
    fun i _ ha => Thread.commits_getQ th.loads th i ha⟩

/-- Raising a flag leaves every field but the flag's own. -/
theorem State.get_raise_ne (s : State) (f g : Fld) (h : fldKey g ≠ fldKey f) : (s.raise f).get g = s.get g := by
  rw [State.raise_eq, get_put_ne _ _ h]

/-- What trap entry leaves in the thread (R156, R158). -/
theorem trapEntry_takes (s : State) (c : Fin 56) (t : Fin 8) (cause : Nat) (xpc : Half) (ins : Option Long) (fail : Option Nat)
    (divab : Bool) :
    Sys2Proof.TakesTrap s c t (done (trapEntry s c t cause xpc ins fail divab)) cause 0 xpc (fun th' =>
      (∀ v, ins = some v → th'.xins = v) ∧
      (∀ a, fail = some a → th'.xaddr = BitVec.ofNat 16 a ∧ th'.xov = decide (0xFFFF < a)) ∧
      th'.yld = (s.th c t).idles ∧ th'.divab = divab ∧ th'.deliver = (s.th c t).deliver ∧
      th'.trapped = (s.th c t).trapped) := by
  unfold trapEntry
  simp only [State.drawFree]
  generalize hg : (fun th : Thread => loadLines _ _ _) = g
  have spec : (g (s.th c t)).st = .run ∧ (g (s.th c t)).inh = true ∧ (g (s.th c t)).cause = cause ∧ (g (s.th c t)).xcause = cause ∧
      (g (s.th c t)).xpc = xpc ∧ (g (s.th c t)).pc = (s.th c t).vec + BitVec.ofNat 16 (cause * 4) ∧ (g (s.th c t)).resv = none ∧
      (g (s.th c t)).loads = [] ∧ (g (s.th c t)).rep = none ∧ (g (s.th c t)).repact = (s.th c t).rep.isSome ∧
      (∀ n, (s.th c t).rep = some n → (g (s.th c t)).xrc = BitVec.ofNat 16 n) ∧
      (g (s.th c t)).used = (s.th c t).used ∧ Sys2Proof.RegsKept (s.th c t) (g (s.th c t)) [] ∧
      (g (s.th c t)).evt = (s.th c t).evt ∧ (g (s.th c t)).tb = (s.th c t).tb ∧ (g (s.th c t)).priv = (s.th c t).priv ∧
      (g (s.th c t)).vec = (s.th c t).vec ∧ (g (s.th c t)).mail = (s.th c t).mail ∧
      (∀ v, ins = some v → (g (s.th c t)).xins = v) ∧
      (∀ a, fail = some a → (g (s.th c t)).xaddr = BitVec.ofNat 16 a ∧ (g (s.th c t)).xov = decide (0xFFFF < a)) ∧
      (g (s.th c t)).yld = (s.th c t).idles ∧ (g (s.th c t)).divab = divab ∧
      (g (s.th c t)).deliver = (s.th c t).deliver ∧ (g (s.th c t)).trapped = (s.th c t).trapped := by
    subst hg
    generalize s.th c t = th
    have hr := Thread.commitAll_regsKept th
    have hst : th.commitAll.st = th.st := by rw [Thread.commitAll_eq]
    have hrep : th.commitAll.rep = th.rep := by rw [Thread.commitAll_eq]
    have hvec : th.commitAll.vec = th.vec := by rw [Thread.commitAll_eq]
    have hused : th.commitAll.used = th.used := by rw [Thread.commitAll_eq]
    have hevt : th.commitAll.evt = th.evt := by rw [Thread.commitAll_eq]
    have htb : th.commitAll.tb = th.tb := by rw [Thread.commitAll_eq]
    have hpriv : th.commitAll.priv = th.priv := by rw [Thread.commitAll_eq]
    have hmail : th.commitAll.mail = th.mail := by rw [Thread.commitAll_eq]
    have hdel : th.commitAll.deliver = th.deliver := by rw [Thread.commitAll_eq]
    have htr : th.commitAll.trapped = th.trapped := by rw [Thread.commitAll_eq]
    have hl : th.commitAll.loads = [] := rfl
    have hi : th.commitAll.idles = th.idles := by rw [Thread.commitAll_eq]; rfl
    simp only [loadLines, hi, hrep, hvec, hused, hevt, htb, hpriv, hmail, hdel, htr, hl, true_and, and_true]
    refine ⟨fun n hn => by rw [hn], hr, fun v hv => by rw [hv], fun a ha => by rw [ha]; exact ⟨rfl, rfl⟩⟩
  rcases charge_eq ({ s with free := s.free + 8 }.modTh c t g) c t 2 with h | h
  all_goals
    rw [h]
    rw [State.modTh_modTh]
    refine ⟨_, { g (s.th c t) with used := (g (s.th c t)).used + 2 }, rfl, ?_, ?_, ?_⟩
  · rfl
  · intro f _; rfl
  · obtain ⟨h1, h2, h3, h4, h5, h6, h7, h8, h9, h10, h11, h12, h13, h14, h15, h16, h17, h18, h19⟩ := spec
    exact ⟨h1, h2, h3, h4, h5, h6, h7, h8, h9, h10, h11, by simp [h12], h13, h14, h15, h16, h17, h18, h19⟩
  · rfl
  · intro f hf
    exact State.get_raise_ne _ _ _ hf
  · obtain ⟨h1, h2, h3, h4, h5, h6, h7, h8, h9, h10, h11, h12, h13, h14, h15, h16, h17, h18, h19⟩ := spec
    exact ⟨h1, h2, h3, h4, h5, h6, h7, h8, h9, h10, h11, by simp [h12], h13, h14, h15, h16, h17, h18, h19⟩

theorem State.th_modTh (s : State) (c : Fin 56) (t : Fin 8) (f : Thread → Thread) : (s.modTh c t f).th c t = f (s.th c t) := by
  simp [State.th, State.modTh]

theorem State.th_put (s : State) (g : Fld) (v : Nat) (c : Fin 56) (t : Fin 8) : (s.put g v).th c t = s.th c t := rfl

/-- A trap taken after a charge of `n` cycles. -/
theorem takes_charged {s : State} {c : Fin 56} {t : Fin 8} {n cause : Nat} {xpc : Half}
    {out : Host.Outcome State Fault Refusal} {P : Thread → Prop}
    (h : Sys2Proof.TakesTrap (charge s c t n) c t out cause 0 xpc P) : Sys2Proof.TakesTrap s c t out cause n xpc P := by
  obtain ⟨u, th', h1, h2, h3, h4⟩ := h
  have e : (charge s c t n).th c t = { s.th c t with used := (s.th c t).used + n } := by
    rcases charge_eq s c t n with hc | hc <;> rw [hc]
    · exact State.th_modTh _ _ _ _
    · rw [State.raise_eq, State.th_put]; exact State.th_modTh _ _ _ _
  refine ⟨u, th', h1, ?_, ?_, ?_⟩
  · rcases charge_eq s c t n with hc | hc <;> rw [hc] at h2
    · rw [State.modTh_modTh] at h2
      exact h2
    · rw [State.raise_eq, State.put_modTh, State.modTh_modTh] at h2
      exact h2
  · intro g hg
    rw [h3 g hg]
    rcases charge_eq s c t n with hc | hc <;> rw [hc]
    · rfl
    · rw [State.get_raise_ne _ _ _ hg]; rfl
  · rw [e] at h4
    exact h4

theorem takes_mono {s : State} {c : Fin 56} {t : Fin 8} {n cause : Nat} {xpc : Half}
    {out : Host.Outcome State Fault Refusal} {P Q : Thread → Prop} (hpq : ∀ th, P th → Q th)
    (h : Sys2Proof.TakesTrap s c t out cause n xpc P) : Sys2Proof.TakesTrap s c t out cause n xpc Q := by
  obtain ⟨u, th', h1, h2, h3, h4, h5, h6, h7, h8, h9, h10, h11, h12, h13, h14, h15, h16, h17, h18, h19, h20, h20a, h21⟩ := h
  exact ⟨u, th', h1, h2, h3, h4, h5, h6, h7, h8, h9, h10, h11, h12, h13, h14, h15, h16, h17, h18, h19, h20, h20a, hpq _ h21⟩

@[simp] theorem charge_inh (s : State) (c : Fin 56) (t : Fin 8) (n : Nat) : ((charge s c t n).th c t).inh = (s.th c t).inh := by
  rcases charge_eq s c t n with hc | hc <;> rw [hc]
  · rw [State.th_modTh]
  · rw [State.raise_eq, State.th_put, State.th_modTh]

/-- A synchronous trap with traps not inhibited (R155, R156). -/
theorem syncTrap_takes {s : State} {c : Fin 56} {t : Fin 8} (cause n : Nat) (xpc : Half) (ins : Long) (fail : Option Nat)
    (hi : (s.th c t).inh = false) :
    Sys2Proof.TakesTrap s c t (done (syncTrap s c t cause n xpc ins fail)) cause n xpc (fun th' =>
      th'.xins = ins ∧ (∀ a, fail = some a → th'.xaddr = BitVec.ofNat 16 a ∧ th'.xov = decide (0xFFFF < a))) := by
  have e : syncTrap s c t cause n xpc ins fail = trapEntry (charge s c t n) c t cause xpc (some ins) fail false := by
    simp [syncTrap, hi]
  rw [e]
  exact takes_charged (takes_mono (fun th h => ⟨h.1 _ rfl, h.2.1⟩) (trapEntry_takes _ c t cause xpc (some ins) fail false))

/-- An instruction that traps for ALIGN or TBMISS. -/
theorem kStep_trap {s : State} {c : Fin 56} {t : Fin 8} {i : KInstr} {h0 h1 : Half} {cause : Nat} {fail : Option Nat}
    (h : Sys2Proof.Issues s c t i h0 h1) (hi : (s.th c t).inh = false) (hr : ∀ u, i ≠ .repImm u) (hr' : ∀ n, i ≠ .repReg n)
    (hc : cause = causeAlign ∨ cause = causeTbmiss) (he : kEffect s c t (kLen h0) i = .trap cause fail) :
    Sys2Proof.TakesTrap s c t (done (kIssues s c t i)) cause 1 (s.th c t).pc (fun th' =>
      th'.xins = xinsOf h0 h1 ∧ (∀ a, fail = some a → th'.xaddr = BitVec.ofNat 16 a ∧ th'.xov = decide (0xFFFF < a))) := by
  have e2 : kIssue s c t i h0 h1 = syncTrap s c t cause 1 (s.th c t).pc (xinsOf h0 h1) fail := by
    unfold kIssue
    rcases hc with rfl | rfl <;>
    cases i <;> first | (exfalso; exact hr _ rfl) | (exfalso; exact hr' _ rfl) |
      simp [he, causeAlign, causeTbmiss, causeSys, causeBreak, causeDiv, causeEcc]
  rw [kStep_issue h, e2]
  exact syncTrap_takes _ _ _ _ _ hi

/-! ### Branches -/

/-- What a move of PC by a branch leaves of the thread. -/
theorem branchKeeping {th g x : Thread} {cyc : Nat} {ws : List LoadDst} {pc : Half} (hu : g.used = th.used)
    (hr : g.rep = th.rep) (hl : ∀ l ∈ g.loads, l ∈ th.loads) (hw : Sys2Proof.RegsKept th g ws) (hs : Sys2Proof.SystemKept th g)
    (hx : x = { ({ g with used := g.used + cyc } : Thread).ageLoads with pc := pc, cur := x.cur, nxt := x.nxt }) :
    x.pc = pc ∧ x.rep = th.rep ∧ x.used = th.used + cyc ∧ Sys2Proof.RegsKept th x ws ∧ Sys2Proof.SystemKept th x := by
  have ea := Thread.ageLoads_eq ({ g with used := g.used + cyc } : Thread)
  refine ⟨by rw [hx], by rw [hx, ea]; exact hr, by rw [hx, ea]; simp [hu], ⟨fun i hi ha => ?_, fun i hi ha => ?_, fun i hi ha => ?_⟩, ?_⟩
  · rw [hx]
    exact (Thread.ageLoads_getD ({ g with used := g.used + cyc } : Thread) _ (fun l hl' => ha l (hl l hl'))).trans (hw.1 i hi ha)
  · rw [hx]
    exact (Thread.ageLoads_getA ({ g with used := g.used + cyc } : Thread) _ (fun l hl' => ha l (hl l hl'))).trans (hw.2.1 i hi ha)
  · rw [hx]
    exact (Thread.ageLoads_getQ ({ g with used := g.used + cyc } : Thread) _ (fun l hl' => ha l (hl l hl'))).trans (hw.2.2 i hi ha)
  · unfold Sys2Proof.SystemKept at hs ⊢
    generalize Thread.ageLoads _ = y at ea hx ⊢
    clear hw hl hu hr
    cases th
    cases g
    cases x
    cases y
    simp only [Thread.mk.injEq] at hs hx ea ⊢
    simp [hx, ea, hs]

theorem jumpTo_eq (k : Keeper) (th : Thread) (pc : Half) :
    jumpTo k th pc = { th with pc := pc, cur := (jumpTo k th pc).cur, nxt := (jumpTo k th pc).nxt } := rfl

theorem jumpHeld_eq (k : Keeper) (th : Thread) (pc : Half) (l : Line) :
    jumpHeld k th pc l = { th with pc := pc, cur := (jumpHeld k th pc l).cur, nxt := (jumpHeld k th pc l).nxt } := rfl

/-- An instruction that only branches. -/
theorem kStep_branches {s : State} {c : Fin 56} {t : Fin 8} {i : KInstr} {h0 h1 : Half} {pc : Half}
    (h : Sys2Proof.Issues s c t i h0 h1) (hr : ∀ u, i ≠ .repImm u) (hr' : ∀ n, i ≠ .repReg n) (hi : i ≠ .reti)
    (he : kEffect s c t (kLen h0) i = .jump s pc ∨ ∃ l, kEffect s c t (kLen h0) i = .held s pc l) :
    Sys2Proof.Branches s c t (kCycles i) pc [] (done (kIssues s c t i)) := by
  rcases he with he | ⟨l, he⟩
  · obtain ⟨u, th', a1, a2, a3⟩ := kStep_jump h hr hr' hi he
    exact ⟨u, th', a1, branchKeeping (g := s.th c t) rfl rfl (fun _ h => h)
      ⟨fun _ _ _ => rfl, fun _ _ _ => rfl, fun _ _ _ => rfl⟩ rfl (by rw [a2]; rfl), a3⟩
  · obtain ⟨u, th', a1, a2, a3⟩ := kStep_held h hr hr' he
    exact ⟨u, th', a1, branchKeeping (g := s.th c t) rfl rfl (fun _ h => h)
      ⟨fun _ _ _ => rfl, fun _ _ _ => rfl, fun _ _ _ => rfl⟩ rfl (by rw [a2]; rfl), a3⟩

/-- An instruction that writes the link register and branches. -/
theorem kStep_calls {s : State} {c : Fin 56} {t : Fin 8} {i : KInstr} {h0 h1 : Half} {pc link : Half}
    (h : Sys2Proof.Issues s c t i h0 h1) (hr : ∀ u, i ≠ .repImm u) (hr' : ∀ n, i ≠ .repReg n) (hi : i ≠ .reti)
    (he : kEffect s c t (kLen h0) i = .jump (s.modTh c t (fun th => th.setA 7 link)) pc ∨
      ∃ l, kEffect s c t (kLen h0) i = .held (s.modTh c t (fun th => th.setA 7 link)) pc l) :
    Sys2Proof.Calls s c t (kCycles i) pc link (done (kIssues s c t i)) := by
  have fin : ∀ x : Thread, x = { ({ (s.th c t).setA 7 link with used := ((s.th c t).setA 7 link).used + kCycles i } : Thread).ageLoads
      with pc := pc, cur := x.cur, nxt := x.nxt } → x.pc = pc ∧ x.getA 7 = link ∧ x.rep = (s.th c t).rep ∧
        x.used = (s.th c t).used + kCycles i ∧ Sys2Proof.RegsKept (s.th c t) x [.a 7] ∧ Sys2Proof.SystemKept (s.th c t) x := by
    intro x hx
    obtain ⟨b1, b2, b3, b4, b5⟩ := branchKeeping (th := s.th c t) (g := (s.th c t).setA 7 link) (ws := [.a 7]) rfl rfl
      (setA_loads _ _ _) (setA_regsKept _ _ _) rfl hx
    refine ⟨b1, ?_, b2, b3, b4, b5⟩
    rw [hx]
    refine (Thread.ageLoads_getA ({ (s.th c t).setA 7 link with used := ((s.th c t).setA 7 link).used + kCycles i } : Thread) 7
      (setA_noLoad (s.th c t) 7 link)).trans ?_
    exact Thread.setA_getA_same _ _ _
  have tail : ∀ (u : State) (th' : Thread),
      (u = (s.modTh c t (fun th => th.setA 7 link)).modTh c t (fun _ => th') ∨
        u = ((s.modTh c t (fun th => th.setA 7 link)).modTh c t (fun _ => th')).raise (Fld.THREAD_BUDGET_OVER c t)) →
      (u = s.modTh c t (fun _ => th') ∨ u = (s.modTh c t (fun _ => th')).raise (Fld.THREAD_BUDGET_OVER c t)) := by
    intro u th' h
    rw [State.modTh_modTh] at h
    exact h
  rcases he with he | ⟨l, he⟩
  · obtain ⟨u, th', a1, a2, a3⟩ := kStep_jump h hr hr' hi he
    rw [State.th_modTh] at a2
    exact ⟨u, th', a1, fin th' (by rw [a2]; rfl), tail u th' a3⟩
  · obtain ⟨u, th', a1, a2, a3⟩ := kStep_held h hr hr' he
    rw [State.th_modTh] at a2
    exact ⟨u, th', a1, fin th' (by rw [a2]; rfl), tail u th' a3⟩

/-! ### Lengths -/

/-- Length in halfwords of each instruction (R120). -/
def KInstr.len (i : KInstr) : Nat :=
  match i with
  | .mm2 .. | .mm3 .. | .cb .. | .cbi .. | .jmp .. | .call .. | .jmpI .. | .callI .. | .tbl .. | .moviW .. | .addiW .. | .moviL ..
  | .movhiL .. | .addiL .. | .bfx .. | .bfi .. => 2
  | _ => 1

theorem decodeShort_len {h : Half} {i : KInstr} (e : decodeShort h = some i) : i.len = 1 := by
  unfold decodeShort decodeSys decodeAcc at e
  simp only at e
  repeat' split at e
  all_goals first
    | (injection e with e; subst e; rfl)
    | cases e
    | (simp only [Option.map_eq_some_iff] at e; obtain ⟨_, _, rfl⟩ := e; rfl)

theorem decodeLong_len {h0 h1 : Half} {i : KInstr} (hl : isLong h0 = true) (e : kDecode h0 h1 = some i) : i.len = 2 := by
  unfold kDecode at e
  rw [if_pos hl] at e
  unfold decodeBranch decodeImm decodeMm at e
  simp only at e
  repeat' split at e
  all_goals first
    | (injection e with e; subst e; rfl)
    | cases e
    | (simp only [Option.map_eq_some_iff] at e; obtain ⟨_, _, rfl⟩ := e; rfl)

theorem kLen_of {h0 h1 : Half} {i : KInstr} (e : kDecode h0 h1 = some i) : kLen h0 = i.len := by
  unfold kLen
  split
  · rename_i h; exact (decodeLong_len h e).symm
  · rename_i h
    simp only [kDecode, h, Bool.false_eq_true, if_false] at e
    exact (decodeShort_len e).symm

end Sys2Proof.Machine
end

