-- ==== Sys2Proof/Laws/Registers.lean ====
section
/-!
SUPPORT. Accesses of the host to a register: what a write that reaches its register's rule does, what an access leaves as it was.
-/
namespace Sys2Proof.Machine

@[simp] theorem snapDrop_get (s : State) (p : Nat) (f : Fld) : (snapDrop s p).get f = s.get f := rfl
@[simp] theorem modPage_get (s : State) (p : Nat) (g : PageBuf → PageBuf) (f : Fld) : (modPage s p g).get f = s.get f := rfl
@[simp] theorem touched_get (s : State) (a : Nat) (f : Fld) : (Sys2Proof.Touched s a).get f = s.get f := rfl
@[simp] theorem touched_toll (s : State) (a : Nat) : (Sys2Proof.Touched s a).toll = s.toll := rfl

/-- A page's buffers after an update of them. -/
@[simp] theorem pageBuf_modPage (s : State) (p : Nat) (f : PageBuf → PageBuf) : pageBuf (modPage s p f) p = f (pageBuf s p) :=
  SMap.get_set_same _ _ _ _

/-- Without reserved bits a value's defined fields are the value. -/
theorem rsvStrip_of {a v : Nat} (h : (regAt a).isSome = true) (hv : rsvHit a v = false) : rsvStrip a v = v := by
  unfold rsvHit at hv
  unfold rsvStrip
  cases hr : regAt a with
  | none => rw [hr] at h; cases h
  | some r =>
    rw [hr] at hv
    simp only [bne_eq_false_iff_eq] at hv
    exact hv.symm

/-- A write that reaches its register's rule is what the rule makes of it. -/
theorem hostWrite64_reaches {s : State} {a v : Nat} (h : Sys2Proof.Reaches s a v) :
    hostWrite64 s a v = (match regWrite (Sys2Proof.Touched s a) a v with
      | .ok u => u | .own u => u | .refused => pageErr (Sys2Proof.Touched s a) a 1) := by
  obtain ⟨⟨h1, h2, h3⟩, r2, r3, r4, r5, r6, r7⟩ := h
  have h0 : ¬ a % 0x1000 < 0x100 := by omega
  have st := rsvStrip_of r6 r7
  simp only [hostWrite64, h1, h2, h3, if_true, ne_eq, not_true_eq_false, if_false]
  simp only [pageWrite, h0, if_false, State.isSet, snapDrop_get, r3, r4, r5, bne_self_eq_false, Bool.or_self,
    Bool.false_eq_true, applyWrite, r7, st]
  show (match regWrite (Sys2Proof.Touched s a) a v with
      | .ok s => (false, s) | .own s => (true, s) | .refused => (true, pageErr (Sys2Proof.Touched s a) a errState)).2 = _
  cases regWrite (Sys2Proof.Touched s a) a v <;> rfl

/-- An orderly RESET that does not wait responds to nothing. -/
theorem orderlyCheck_id {s : State} (h : s.toll.orderly = false) : orderlyCheck s = s := by
  simp [orderlyCheck, h]

end Sys2Proof.Machine
end

