-- ==== Sys2Proof/Tests/Slice0.lean ====
section
/-!
SUPPORT. The model's own tests: words of the keeper's encoding written out from the spec, the check of well-formedness refusing an
ill-formed term for each of its conditions, single steps on small states, and for each statement states and operands that meet the
hypotheses of its clauses together.
-/
namespace Sys2Proof.Tests
open Sys2Proof.Machine

set_option Elab.async false

/-! ### Small states -/

abbrev C : Fin 56 := 5
abbrev T : Fin 8 := 2
/-- A thread ready to issue `i` at 0x10. -/
def thr (i : KInstr) : Thread := { Thread.reset with
  st := .run, pc := 0x10, d := #v[0x13, 0x85, 0x7E, 0xF0, 3, 9, 0xFF, 1], a := #v[0x1234, 0x8001, 0xA010, 0x0040, 0xFFFF, 0x0007, 0xA800, 0x0014],
  q := #v[0x12345678, 0x80000001, 0xFFFE0003, 0x0005FFFD], vec := 0x200,
  cur := some ⟨1, [(kEncode i).1, (kEncode i).2, 0x0001, 0x0001] ++ List.replicate 12 (0x1144 : Half), []⟩ }
def put (s : State) (f : Thread → Thread) : State := (s.modTh C T f)
def setF (s : State) (l : List (Fld × Nat)) : State := l.foldl (fun s p => s.put p.1 p.2) s
def ready : State := State.reset.put Fld.DEV_STATE_STATE 3
def rd (l : List (Fld × Nat)) : State := setF ready l
def base : State := ready
def kw (i : KInstr) : State := put base (fun _ => thr i)
def kwm (i : KInstr) (f : Thread → Thread) : State := put base (fun _ => f (thr i))
abbrev NOW := Fld.TIME_NS_TIME_NS
abbrev TICK := Fld.TICKNO_TICKNO
/-- An order: opcode, flags, other bits of word 0, words 1 and 2. -/
def mkO (op flags w0 w1 w2 : Nat) : Order := ⟨BitVec.ofNat 64 (op + flags * 256 + w0 * 2 ^ 16), BitVec.ofNat 64 w1, BitVec.ofNat 64 w2, 0⟩
def ex (i : Nat) (o : Order) (nx : Option Nat) (r : Option (Nat × Nat)) : ExecOrder := ⟨i, o, [], 0, 0, true, nx, r⟩
def modSeq (s : State) (c : Fin 56) (f : Seq → Seq) : State := s.modCh c (fun x => {x with sq := f x.sq})
def setB (b : List Byte) (off n v : Nat) : List Byte := b.take off ++ leBytes n v ++ b.drop (off + n)
def mkE (op chan : Nat) (args : List (Nat × Nat × Nat)) : WorkEntry :=
  ⟨args.foldl (fun b a => setB b a.1 a.2.1 a.2.2) (setB (setB (zeros 64) 1 1 op) 2 1 chan), .keystone 3, 0xFF, 0, 0, 0xFF, 11, .queued, [], 0, 0, 0, false, [], false, false⟩
def cq (s : State) (e : WorkEntry) : State := s.modCh C (fun x => {x with cmdq := x.cmdq ++ [e]})
def bq (s : State) (e : WorkEntry) : State := {s with basinq := s.basinq ++ [e]}


/-- A FIFO without gap markers. -/
theorem noMarker (l : List MbEnt) (h : l.all (fun x => match x with | .marker _ => false | .data _ => true) = true) :
    ∀ x ∈ l, ∀ n : Nat, x ≠ MbEnt.marker n := by
  intro x hx n e
  subst e
  have := List.all_eq_true.mp h _ hx
  simp at this

theorem someGetD {α : Type} {o : Option α} {d : α} (h : o.isSome = true) : o = some (o.getD d) := by
  cases o
  · cases h
  · rfl

/-! ### The keeper's rows -/

/-- A state in which thread 2 of channel 5 issues `i`, as a check that can be evaluated. -/
def issues (s : State) (i : KInstr) : Bool :=
  mayIssue s C T && !fetchBad (s.th C T) && decide (atPc (s.th C T) = some (kEncode i))
    && decide (kDecode (kEncode i).1 (kEncode i).2 = some i)

theorem issues_met (s : State) (i : KInstr) (h : issues s i = true) : Issues s C T i (kEncode i).1 (kEncode i).2 := by
  simp only [issues, Bool.and_eq_true, Bool.not_eq_true', decide_eq_true_eq] at h
  exact ⟨h.1.1.1, h.1.1.2, h.1.2, h.2⟩

theorem all_met (l : List KInstr) (h : l.all (fun i => issues (kw i) i) = true) : ∀ i ∈ l, Issues (kw i) C T i (kEncode i).1 (kEncode i).2 :=
  fun i hi => issues_met (kw i) i (List.all_eq_true.mp h i hi)

theorem test_meets_DataRegisterOperations :
    ∀ i ∈ [DOp.mov, .add, .sub, .and, .or, .xor, .not, .neg, .shl, .shr, .sar, .rol, .minu, .maxu, .swn].map (fun op => KInstr.dreg op 2 1),
      Issues (kw i) C T i (kEncode i).1 (kEncode i).2 :=
  all_met _ (by decide +kernel)

theorem test_meets_DataImmediates :
    ∀ i ∈ [KInstr.dimm .movi 3 0x95, .dimm .addi 3 0x95, .dimm .andi 3 0x95, .dimm .ori 3 0x95, .dsh .shl 1 5, .dsh .shr 1 0, .dsh .sar 1 7,
      .dsh .rol 1 5], Issues (kw i) C T i (kEncode i).1 (kEncode i).2 :=
  all_met _ (by decide +kernel)

theorem test_meets_AddressAndLongForms :
    ∀ i ∈ [KInstr.areg .movW 2 5, .areg .addW 2 5, .areg .subW 2 5, .addqW 3 0x1B, .areg .addxW 2 5, .areg .movlB 2 5, .areg .movhB 2 5,
      .areg .movzW 2 5, .areg .inshW 2 5, .areg .movzLD 2 5, .areg .movsLD 2 5, .areg .movzLA 2 5, .areg .movsLA 2 5, .areg .movBQ 2 5,
      .areg .movWQ 2 5, .areg .shinL 2 5, .areg .shoutL 2 5, .qsh .shl 1 13, .qsh .shr 1 31, .qsh .sar 1 0, .qsh .ror 1 13, .addqL 3 0x2B,
      .moviW 3 0x9ABC, .addiW 3 0x9ABC, .moviL 3 0x9ABC, .movhiL 3 0x9ABC, .addiL 3 0x9ABC, .bfx 3 1 7 11, .bfi 3 1 0 31],
      Issues (kw i) C T i (kEncode i).1 (kEncode i).2 :=
  all_met _ (by decide +kernel)

theorem test_meets_AccumulatorOperations :
    ∀ i ∈ [QOp.mov, .add, .sub, .and, .or, .xor, .not, .neg, .mul, .mulu, .mac, .macu, .shl, .shr, .sar].map (fun op => KInstr.qreg op 2 3),
      Issues (kw i) C T i (kEncode i).1 (kEncode i).2 :=
  all_met _ (by decide +kernel)

theorem test_meets_KeeperWritesItsBytesOnly :
    ∃ (a : Nat) (bs : List Byte), alignFail none a bs.length = none ∧ isIo a = false ∧ bs ≠ [] := ⟨0x7FFC, [1, 2, 3, 4], by decide⟩

/-- The operands of the two-operand forms below: postincrement to direct. -/
def src2 : MOpnd := ⟨1, 3⟩
def dst2 : MOpnd := ⟨0, 3⟩

theorem test_meets_MemoryForms_two : ∀ i ∈ [M2Op.mov, .add, .sub, .and, .or, .xor, .not, .neg].map (fun op => KInstr.mm2 op dst2 src2 0),
    Issues (kw i) C T i (kEncode i).1 (kEncode i).2 ∧ ∃ ps pd a1 a2, formOpnd ((kw i).th C T).a ((kw i).th C T).d src2 0 = (ps, a1) ∧
      formOpnd a1 ((kw i).th C T).d dst2 0 = (pd, a2) ∧ placeFail ps = none ∧ placeFail pd = none ∧ placeEcc (kw i) C T ps true = none ∧
      placeEcc (kw i) C T pd false = none ∧ placeEcc (kw i) C T pd true = none := by
  intro i h
  refine ⟨all_met _ (by decide +kernel) i h, _, _, _, _, rfl, rfl, ?_⟩
  revert i
  decide +kernel

theorem test_meets_MemoryForms_three :
    ∀ i ∈ [M3Op.add, .sub, .and, .or, .xor, .minu, .maxu].map (fun op => KInstr.mm3 op dst2 src2 ⟨2, 5⟩ 0),
    Issues (kw i) C T i (kEncode i).1 (kEncode i).2 ∧ ∃ pa pb pd a1 a2 a3, formOpnd ((kw i).th C T).a ((kw i).th C T).d src2 0 = (pa, a1) ∧
      formOpnd a1 ((kw i).th C T).d ⟨2, 5⟩ 0 = (pb, a2) ∧ formOpnd a2 ((kw i).th C T).d dst2 0 = (pd, a3) ∧ placeFail pa = none ∧
      placeFail pb = none ∧ placeFail pd = none ∧ placeEcc (kw i) C T pa true = none ∧ placeEcc (kw i) C T pb true = none ∧
      placeEcc (kw i) C T pd false = none := by
  intro i h
  refine ⟨all_met _ (by decide +kernel) i h, _, _, _, _, _, _, rfl, rfl, rfl, ?_⟩
  revert i
  decide +kernel

theorem test_meets_KeeperEncodingRoundTrip :
    KInstr.wf (.mm2 .xor ⟨3, 4⟩ ⟨7, 5⟩ 12) = true ∧ KInstr.wf .nop = true ∧ kLen (kEncode .nop).1 = 1 := by decide

/-- Five nanoseconds after an edge. -/
def ticking : State := (rd [(NOW, 5)]).modTb (fun t => { t with used := some 0 })

theorem test_meets_StepRunsFront : ({ ready with pending := [.hostD3hotEntry] : State }).pending = [Instr.hostD3hotEntry] ∧ ticking.pending = [] ∧
    ticking.get Fld.TB_TRIM_TRIM = 0 ∧ ticking.tb.acc = 0 ∧ ticking.now < nextGrid ticking ∧
    ticking.now + 1 < 2 ^ 64 := by decide +kernel

theorem test_meets_HeldSourceIsNotified : PmeNoted ready = true ∧ ∃ t, step ready = .next t := ⟨by decide +kernel, _, rfl⟩

theorem test_meets_DramReadsBack : DramWf (ready.dramWrite 0x1000 [1, 0, 2]) = true := by decide +kernel

/-! ### Words, check codes and layouts the spec writes out -/

/-- The example under R134: XOR (A4+12),D5 is 0xF573, 0xD00C. -/
theorem test_xor_word : kDecode 0xF573 0xD00C = some (.mm2 .xor ⟨3, 4⟩ ⟨7, 5⟩ 12) ∧ kEncode (.mm2 .xor ⟨3, 4⟩ ⟨7, 5⟩ 12) = (0xF573, 0xD00C) := by decide

def digits : List Byte := [0x31, 0x32, 0x33, 0x34, 0x35, 0x36, 0x37, 0x38, 0x39]

/-- R60, R108 and 13 give the checks of the digits "123456789". -/
theorem test_crc8 : crc8 digits = 0xDF := by decide +kernel
theorem test_crc16 : crc16 digits = 0x29B1 := by decide +kernel
theorem test_crc32c : crc32c digits = 0xE3069283 := by decide +kernel

/-- The example under R275: two records of F11 in 28 bytes. -/
theorem test_sigdelta :
    sigdelta [⟨5200000200, 0x20, 11, 0x0102, 0, leBytes 4 0x10028 ++ leBytes 4 25210⟩,
      ⟨5200100200, 0x20, 11, 0x0103, 0, leBytes 4 0x10028 ++ leBytes 4 25230⟩] [] =
    [0x0B, 0x20, 0x04, 0x02, 0x01, 0x08, 0x00] ++ uv 10 10400000400 ++ [0x28, 0x00, 0x01, 0x00] ++ leBytes 4 25210
      ++ [0x0B, 0x20, 0x07, 0xC0, 0x9A, 0x0C, 0x00, 0x28] := by decide +kernel

/-- The example under R258: a term's bytes. -/
theorem test_keystone_term : ksTerm ([0x01, 0x02, 0x28, 0x00, 0xA8, 0x61, 0x00, 0x00] ++ zeros 8) = ⟨1, 2, 40, 25000, 0, false⟩ := by decide

/-- The example under R336: a syndrome of weight 2 is uncorrectable. -/
theorem test_syndrome : eccOf 0x81 = .bad ∧ eccOf 0x80 = .corrected none ∧ eccOf 0 = .clean := by decide

/-! ### Single steps -/

/-- The thread after a step of the command. -/
def after (i : Instr) (s : State) (f : Thread → Bool) : Bool := match exec i s with | .next u => f (u.th C T) | _ => false

/-- R124: ADD.B wraps; R127: MAC is signed. -/
theorem test_add_wraps : after (.addB C T 2 1) (kw (.dreg .add 2 1)) (fun t => t.getD 2 == 0x03) = true := by decide +kernel
theorem test_mac_signed : after (.mac C T 2 3) (kw (.qreg .mac 2 3)) (fun t => t.getQ 2 == 0xFFFDFFF4) = true := by decide +kernel
theorem test_reset_link : (match exec .hostBmeClear ready with | .next u => u.host.bme | _ => true) = false := by decide +kernel
theorem test_queue : (match step { ready with pending := [.hostD3hotEntry, .hostBmeClear] } with | .next u => u.pending.length | _ => 9) = 1 := by
  decide +kernel

/-! ### Ill-formed operands are refused -/

def badSelf : SelfTest := ⟨0, 0, 0, [], false, 16, 100, [], 7, 0xFF, []⟩
def canOf (xl fdf ide : Bool) (id : BitVec 29) (n : Nat) : CanFrame :=
  { xl, id, ide, fdf, brs := false, rtr := false, esi := false, dlc := 8, data := zeros n, sdt := 0, vcid := 0, af := 0, sec := false,
    rrs := false, fcrc := 0, tx := false }

theorem test_wf_lists : Instr.wf (.supplyRecover [] 0) = false ∧ Instr.wf (.thermalSample []) = false ∧
    Instr.wf (.selftestComplete badSelf) = false ∧
    Instr.wf (.selftestComplete { badSelf with rings := List.replicate 8 0, rows := [(61, 0, 0)] }) = false ∧
    Instr.wf (.admissionEnd C [(0, .ok [])]) = false ∧ Instr.wf (.orderFetchReturn C (.ok [1]) false) = false ∧
    Instr.wf (.ethPieceCommit 50 ⟨[], false⟩) = false ∧ Instr.wf (.ethFilterDecision 50 0 (zeros 23)) = false := by decide +kernel

theorem test_wf_frames : Instr.wf (.canFrame C (canOf false false false 5 9) 0) = false ∧ Instr.wf (.canFrame C (canOf false true false 5 65) 0) = false ∧
    Instr.wf (.canFrame C (canOf false false false 2048 8) 0) = false ∧ Instr.wf (.canFrame C (canOf false false false 2047 8) 0) = true ∧
    Instr.wf (.linFrame C ⟨0, zeros 9, 0, 0, false⟩ 0) = false ∧ Instr.wf (.hello 0 ⟨0, 0, 0, 0, [], [], none⟩) = false ∧
    Instr.wf (.hello 0 ⟨0, 0, 0, 0, List.replicate 64 0, List.replicate 65 0, none⟩) = false ∧
    Instr.wf (.hello 0 ⟨0, 0, 0, 0, [0], [0, 0], some 3⟩) = false := by decide +kernel

theorem test_wf_canXl : Instr.wf (.canFrame C (canOf true false false 5 2049) 0) = false := by decide +kernel

theorem test_wf_host : Instr.wf (.hostLinkUp 3) = false ∧ Instr.wf (.splitLowWrite 4 0) = false ∧ Instr.wf (.splitHighWrite 4 0) = false ∧
    Instr.wf (.lowHalfRead ⟨.bar0 .low, 4⟩) = false ∧ Instr.wf (.highHalfRead 4) = false ∧ Instr.wf (.unknownCmd 0x10) = false ∧
    Instr.wf (.unknownCmd 0x11) = true ∧ Instr.wf (.jtagInstruction (.unlock [] [])) = false ∧
    Instr.wf (.driveIdentifyDone 0 ⟨0, true, true, 0, 0, 0, true, 9, 0, 8, false, true, 0, [], [], [], [], []⟩) = false := by decide +kernel

theorem test_wf_keeper : Instr.wf (.movzLD C T 4 0) = false ∧ Instr.wf (.bfx C T 0 0 1 31) = false ∧ Instr.wf (.bfi C T 0 0 1 31) = false ∧
    Instr.wf (.mm2Mov C T 0 0 0 0 1) = false ∧ Instr.wf (.mm3Add C T 0 0 0 0 0 0 1) = false ∧ Instr.wf (.cbP C T 0 3 0 0 0) = false ∧
    Instr.wf (.cb C T 0 2 4 0 0) = false ∧ Instr.wf (.waitev C T 0) = false ∧ Instr.wf (.waitev C T 1) = true := by decide +kernel

/-- R120 to R142: words no instruction has. -/
theorem test_undefined_words : [(0x0000, 0), (0x0C00, 0), (0x1F00, 0)].all (fun w => (kDecode w.1 w.2).isNone) = true := by decide

/-! ### Hypotheses of the other statements met -/

namespace Keeper

def un : State := put base (fun _ => { thr .nop with cur := some ⟨1, List.replicate 16 (0 : Half), []⟩ })
def bu (st : ThState) : State := (put base (fun _ => {thr .nop with st := st, used := 1000})).raise (Fld.THREAD_BUDGET_BOUND C T) |>.put (Fld.THREAD_BUDGET_BUDGET C T) 500
def de (st : ThState) : State := (put base (fun _ => {thr .nop with st := st, deliver := some 77}))

theorem test_meets_DivqDividesOrTraps :
    (∃ (s : State) (c : Fin 56) (t : Fin 8) (d : BitVec 2) (x : BitVec 3) (h0 : Half) (h1 : Half) (q : Long) (a : Half), q = (s.th c t).getQ d ∧ a =
      (s.th c t).getA x ∧ Issues s c t (KInstr.divq d x) h0 h1 ∧ BitVec.toNat a ≠ 0 ∧ BitVec.toNat q / 65536 < BitVec.toNat a)
    ∧ (∃ (s : State) (c : Fin 56) (t : Fin 8) (d : BitVec 2) (x : BitVec 3) (h0 : Half) (h1 : Half) (q : Long) (a : Half), q = (s.th c t).getQ d ∧ a =
      (s.th c t).getA x ∧ Issues s c t (KInstr.divq d x) h0 h1 ∧ (BitVec.toNat a = 0 ∨ BitVec.toNat a ≤ BitVec.toNat q / 65536) ∧ (s.th c t).inh =
      false) :=
  ⟨⟨kw (.divq 3 2), C, T, 3, 2, (kEncode (.divq 3 2)).1, (kEncode (.divq 3 2)).2, _, _, rfl, rfl, by unfold Issues; decide +kernel⟩,
   ⟨kw (.divq 0 5), C, T, 0, 5, (kEncode (.divq 0 5)).1, (kEncode (.divq 0 5)).2, _, _, rfl, rfl, by unfold Issues; decide +kernel⟩⟩

theorem test_meets_NearMemory :
    (∃ (s : State) (c : Fin 56) (t : Fin 8) (d : BitVec 3) (n : BitVec 3) (u : BitVec 5) (h0 : Half) (h1 : Half) (a : ℕ) (i : KInstr) (k : Instr), i =
      KInstr.ldB d n u ∧ k = Instr.ldB c t d n u ∧ Issues s c t i h0 h1 ∧ a = BitVec.toNat ((s.th c t).getA n) + u.toNat ∧ alignFail none a 1 =
      none ∧ readPoisoned s c t a 1 = false)
    ∧ (∃ (s : State) (c : Fin 56) (t : Fin 8) (d : BitVec 3) (n : BitVec 3) (u : BitVec 5) (h0 : Half) (h1 : Half) (a : ℕ) (i : KInstr) (k : Instr) (x :
      ℕ), i = KInstr.ldB d n u ∧ k = Instr.ldB c t d n u ∧ Issues s c t i h0 h1 ∧ a = BitVec.toNat ((s.th c t).getA n) + u.toNat ∧ alignFail none
      a 1 = some x ∧ (s.th c t).inh = false)
    ∧ (∃ (s : State) (c : Fin 56) (t : Fin 8) (d : BitVec 3) (n : BitVec 3) (u : BitVec 5) (h0 : Half) (h1 : Half) (a : ℕ) (i : KInstr) (k : Instr), i =
      KInstr.ldW d n u ∧ k = Instr.ldW c t d n u ∧ Issues s c t i h0 h1 ∧ a = BitVec.toNat ((s.th c t).getA n) + 2 * u.toNat ∧ alignFail none a 2
      = none ∧ readPoisoned s c t a 2 = false)
    ∧ (∃ (s : State) (c : Fin 56) (t : Fin 8) (d : BitVec 3) (n : BitVec 3) (u : BitVec 5) (h0 : Half) (h1 : Half) (a : ℕ) (i : KInstr) (k : Instr) (x :
      ℕ), i = KInstr.ldW d n u ∧ k = Instr.ldW c t d n u ∧ Issues s c t i h0 h1 ∧ a = BitVec.toNat ((s.th c t).getA n) + 2 * u.toNat ∧ alignFail
      none a 2 = some x ∧ (s.th c t).inh = false)
    ∧ (∃ (s : State) (c : Fin 56) (t : Fin 8) (n : BitVec 3) (q : BitVec 2) (w : BitVec 6) (h0 : Half) (h1 : Half) (a : ℕ) (i : KInstr) (k : Instr), i =
      KInstr.ldL q n w ∧ k = Instr.ldL c t q n w ∧ Issues s c t i h0 h1 ∧ a = BitVec.toNat ((s.th c t).getA n) + 4 * w.toNat ∧ alignFail none a 4
      = none ∧ readPoisoned s c t a 4 = false)
    ∧ (∃ (s : State) (c : Fin 56) (t : Fin 8) (n : BitVec 3) (q : BitVec 2) (w : BitVec 6) (h0 : Half) (h1 : Half) (a : ℕ) (i : KInstr) (k : Instr) (x :
      ℕ), i = KInstr.ldL q n w ∧ k = Instr.ldL c t q n w ∧ Issues s c t i h0 h1 ∧ a = BitVec.toNat ((s.th c t).getA n) + 4 * w.toNat ∧ alignFail
      none a 4 = some x ∧ (s.th c t).inh = false)
    ∧ (∃ (s : State) (c : Fin 56) (t : Fin 8) (d : BitVec 3) (n : BitVec 3) (u : BitVec 5) (h0 : Half) (h1 : Half) (a : ℕ) (i : KInstr) (k : Instr), i =
      KInstr.stB d n u ∧ k = Instr.stB c t d n u ∧ Issues s c t i h0 h1 ∧ a = BitVec.toNat ((s.th c t).getA n) + u.toNat ∧ alignFail none a 1 =
      none ∧ dataPoisoned s c t a 1 = false)
    ∧ (∃ (s : State) (c : Fin 56) (t : Fin 8) (d : BitVec 3) (n : BitVec 3) (u : BitVec 5) (h0 : Half) (h1 : Half) (a : ℕ) (i : KInstr) (k : Instr) (x :
      ℕ), i = KInstr.stB d n u ∧ k = Instr.stB c t d n u ∧ Issues s c t i h0 h1 ∧ a = BitVec.toNat ((s.th c t).getA n) + u.toNat ∧ alignFail none
      a 1 = some x ∧ (s.th c t).inh = false)
    ∧ (∃ (s : State) (c : Fin 56) (t : Fin 8) (d : BitVec 3) (n : BitVec 3) (u : BitVec 5) (h0 : Half) (h1 : Half) (a : ℕ) (i : KInstr) (k : Instr), i =
      KInstr.stW d n u ∧ k = Instr.stW c t d n u ∧ Issues s c t i h0 h1 ∧ a = BitVec.toNat ((s.th c t).getA n) + 2 * u.toNat ∧ alignFail none a 2
      = none ∧ dataPoisoned s c t a 2 = false)
    ∧ (∃ (s : State) (c : Fin 56) (t : Fin 8) (d : BitVec 3) (n : BitVec 3) (u : BitVec 5) (h0 : Half) (h1 : Half) (a : ℕ) (i : KInstr) (k : Instr) (x :
      ℕ), i = KInstr.stW d n u ∧ k = Instr.stW c t d n u ∧ Issues s c t i h0 h1 ∧ a = BitVec.toNat ((s.th c t).getA n) + 2 * u.toNat ∧ alignFail
      none a 2 = some x ∧ (s.th c t).inh = false)
    ∧ (∃ (s : State) (c : Fin 56) (t : Fin 8) (n : BitVec 3) (q : BitVec 2) (w : BitVec 6) (h0 : Half) (h1 : Half) (a : ℕ) (i : KInstr) (k : Instr), i =
      KInstr.stL q n w ∧ k = Instr.stL c t q n w ∧ Issues s c t i h0 h1 ∧ a = BitVec.toNat ((s.th c t).getA n) + 4 * w.toNat ∧ alignFail none a 4
      = none ∧ dataPoisoned s c t a 4 = false)
    ∧ (∃ (s : State) (c : Fin 56) (t : Fin 8) (n : BitVec 3) (q : BitVec 2) (w : BitVec 6) (h0 : Half) (h1 : Half) (a : ℕ) (i : KInstr) (k : Instr) (x :
      ℕ), i = KInstr.stL q n w ∧ k = Instr.stL c t q n w ∧ Issues s c t i h0 h1 ∧ a = BitVec.toNat ((s.th c t).getA n) + 4 * w.toNat ∧ alignFail
      none a 4 = some x ∧ (s.th c t).inh = false) :=
  ⟨⟨kw (.ldB 1 3 7), C, T, 1, 3, 7, (kEncode (.ldB 1 3 7)).1, (kEncode (.ldB 1 3 7)).2, ((thr .nop).getA 3).toNat + 1*7, (KInstr.ldB 1 3 7),
     (Instr.ldB C T 1 3 7), by unfold Issues; decide +kernel⟩,
   ⟨kw (.ldB 1 4 7), C, T, 1, 4, 7, (kEncode (.ldB 1 4 7)).1, (kEncode (.ldB 1 4 7)).2, ((thr .nop).getA 4).toNat + 1*7, (KInstr.ldB 1 4 7),
     (Instr.ldB C T 1 4 7), BitVec.toNat ((thr KInstr.nop).getA 4) + 1 * 7, by unfold Issues; decide +kernel⟩,
   ⟨kw (.ldW 1 3 7), C, T, 1, 3, 7, (kEncode (.ldW 1 3 7)).1, (kEncode (.ldW 1 3 7)).2, ((thr .nop).getA 3).toNat + 2*7, (KInstr.ldW 1 3 7),
     (Instr.ldW C T 1 3 7), by unfold Issues; decide +kernel⟩,
   ⟨kw (.ldW 1 4 7), C, T, 1, 4, 7, (kEncode (.ldW 1 4 7)).1, (kEncode (.ldW 1 4 7)).2, ((thr .nop).getA 4).toNat + 2*7, (KInstr.ldW 1 4 7),
     (Instr.ldW C T 1 4 7), BitVec.toNat ((thr KInstr.nop).getA 4) + 2 * 7, by unfold Issues; decide +kernel⟩,
   ⟨kw (.ldL 1 3 6), C, T, 3, 1, 6, (kEncode (.ldL 1 3 6)).1, (kEncode (.ldL 1 3 6)).2, ((thr .nop).getA 3).toNat + 24, (KInstr.ldL 1 3 6),
     (Instr.ldL C T 1 3 6), by unfold Issues; decide +kernel⟩,
   ⟨kw (.ldL 1 4 6), C, T, 4, 1, 6, (kEncode (.ldL 1 4 6)).1, (kEncode (.ldL 1 4 6)).2, ((thr .nop).getA 4).toNat + 24, (KInstr.ldL 1 4 6),
     (Instr.ldL C T 1 4 6), BitVec.toNat ((thr KInstr.nop).getA 4) + 24, by unfold Issues; decide +kernel⟩,
   ⟨kw (.stB 1 3 7), C, T, 1, 3, 7, (kEncode (.stB 1 3 7)).1, (kEncode (.stB 1 3 7)).2, ((thr .nop).getA 3).toNat + 1*7, (KInstr.stB 1 3 7),
     (Instr.stB C T 1 3 7), by unfold Issues; decide +kernel⟩,
   ⟨kw (.stB 1 4 7), C, T, 1, 4, 7, (kEncode (.stB 1 4 7)).1, (kEncode (.stB 1 4 7)).2, ((thr .nop).getA 4).toNat + 1*7, (KInstr.stB 1 4 7),
     (Instr.stB C T 1 4 7), BitVec.toNat ((thr KInstr.nop).getA 4) + 1 * 7, by unfold Issues; decide +kernel⟩,
   ⟨kw (.stW 1 3 7), C, T, 1, 3, 7, (kEncode (.stW 1 3 7)).1, (kEncode (.stW 1 3 7)).2, ((thr .nop).getA 3).toNat + 2*7, (KInstr.stW 1 3 7),
     (Instr.stW C T 1 3 7), by unfold Issues; decide +kernel⟩,
   ⟨kw (.stW 1 4 7), C, T, 1, 4, 7, (kEncode (.stW 1 4 7)).1, (kEncode (.stW 1 4 7)).2, ((thr .nop).getA 4).toNat + 2*7, (KInstr.stW 1 4 7),
     (Instr.stW C T 1 4 7), BitVec.toNat ((thr KInstr.nop).getA 4) + 2 * 7, by unfold Issues; decide +kernel⟩,
   ⟨kw (.stL 1 3 6), C, T, 3, 1, 6, (kEncode (.stL 1 3 6)).1, (kEncode (.stL 1 3 6)).2, ((thr .nop).getA 3).toNat + 24, (KInstr.stL 1 3 6),
     (Instr.stL C T 1 3 6), by unfold Issues; decide +kernel⟩,
   ⟨kw (.stL 1 4 6), C, T, 4, 1, 6, (kEncode (.stL 1 4 6)).1, (kEncode (.stL 1 4 6)).2, ((thr .nop).getA 4).toNat + 24, (KInstr.stL 1 4 6),
     (Instr.stL C T 1 4 6), BitVec.toNat ((thr KInstr.nop).getA 4) + 24, by unfold Issues; decide +kernel⟩⟩

theorem test_meets_ConditionsAndBranches :
    (∃ (s : State) (c : Fin 56) (t : Fin 8) (cond : BitVec 3) (cls : BitVec 2) (cl : Cls) (r : BitVec 3) (q : BitVec 3) (target : Half) (h0 : Half)
      (h1 : Half), clsOf cls.toNat = some cl ∧ Issues s c t (KInstr.cb (condOf cond.toNat) cl r q target) h0 h1 ∧ condOn (s.th c t) cl (condOf
      cond.toNat) r q = true)
    ∧ (∃ (s : State) (c : Fin 56) (t : Fin 8) (cond : BitVec 3) (cls : BitVec 2) (cl : Cls) (r : BitVec 3) (q : BitVec 3) (target : Half) (h0 : Half)
      (h1 : Half), clsOf cls.toNat = some cl ∧ Issues s c t (KInstr.cb (condOf cond.toNat) cl r q target) h0 h1 ∧ condOn (s.th c t) cl (condOf
      cond.toNat) r q = false)
    ∧ (∃ (s : State) (c : Fin 56) (t : Fin 8) (cond : BitVec 3) (cls : BitVec 2) (cl : Cls) (r : BitVec 3) (h0 : Half) (h1 : Half) (imm : Byte) (disp :
      BitVec 11), clsOf cls.toNat = some cl ∧ Issues s c t (KInstr.cbi (condOf cond.toNat) r imm disp) h0 h1 ∧ condHolds (condOf cond.toNat)
      ((s.th c t).getD r) imm = true)
    ∧ (∃ (s : State) (c : Fin 56) (t : Fin 8) (cond : BitVec 3) (cls : BitVec 2) (cl : Cls) (r : BitVec 3) (h0 : Half) (h1 : Half) (imm : Byte) (disp :
      BitVec 11), clsOf cls.toNat = some cl ∧ Issues s c t (KInstr.cbi (condOf cond.toNat) r imm disp) h0 h1 ∧ condHolds (condOf cond.toNat)
      ((s.th c t).getD r) imm = false)
    ∧ (∃ (s : State) (c : Fin 56) (t : Fin 8) (cond : BitVec 3) (cls : BitVec 2) (cl : Cls) (r : BitVec 3) (q : BitVec 3) (k : BitVec 4) (h0 : Half) (h1
      : Half) (e : TbEntry), clsOf cls.toNat = some cl ∧ Issues s c t (KInstr.cbP (condOf cond.toNat) cl r q k) h0 h1 ∧ tbGet (s.th c t) k = some
      e ∧ condOn (s.th c t) cl (condOf cond.toNat) r q = true)
    ∧ (∃ (s : State) (c : Fin 56) (t : Fin 8) (cond : BitVec 3) (cls : BitVec 2) (cl : Cls) (r : BitVec 3) (q : BitVec 3) (k : BitVec 4) (h0 : Half) (h1
      : Half) (e : TbEntry), clsOf cls.toNat = some cl ∧ Issues s c t (KInstr.cbP (condOf cond.toNat) cl r q k) h0 h1 ∧ tbGet (s.th c t) k = some
      e ∧ condOn (s.th c t) cl (condOf cond.toNat) r q = false)
    ∧ (∃ (s : State) (c : Fin 56) (t : Fin 8) (cond : BitVec 3) (cls : BitVec 2) (cl : Cls) (r : BitVec 3) (q : BitVec 3) (k : BitVec 4) (h0 : Half) (h1
      : Half), clsOf cls.toNat = some cl ∧ Issues s c t (KInstr.cbP (condOf cond.toNat) cl r q k) h0 h1 ∧ tbGet (s.th c t) k = none ∧ (s.th c
      t).inh = false) :=
  ⟨⟨kw (.cb .ne .d 5 3 0x123), C, T, 1, 0, .d, 5, 3, 0x123, (kEncode (.cb .ne .d 5 3 0x123)).1, (kEncode (.cb .ne .d 5 3 0x123)).2,
     by unfold Issues; decide +kernel⟩,
   ⟨kw (.cb .eq .d 5 3 0x123), C, T, 0, 0, .d, 5, 3, 0x123, (kEncode (.cb .eq .d 5 3 0x123)).1, (kEncode (.cb .eq .d 5 3 0x123)).2,
     by unfold Issues; decide +kernel⟩,
   ⟨kw (.cbi .eq 2 0x7E 0x7F0), C, T, 0, 0, .d, 2, (kEncode (.cbi .eq 2 0x7E 0x7F0)).1, (kEncode (.cbi .eq 2 0x7E 0x7F0)).2, 0x7E, 0x7F0,
     by unfold Issues; decide +kernel⟩,
   ⟨kw (.cbi .eq 1 0x7E 0x00F), C, T, 0, 0, .d, 1, (kEncode (.cbi .eq 1 0x7E 0x00F)).1, (kEncode (.cbi .eq 1 0x7E 0x00F)).2, 0x7E, 0x00F,
     by unfold Issues; decide +kernel⟩,
   ⟨kwm (.cbP .ne .d 5 3 3) (fun th => {th with tb := [(3, ⟨0x40, ⟨4, [], []⟩⟩)]}), C, T, 1, 0, .d, 5, 3, 3, (kEncode (.cbP .ne .d 5 3 3)).1,
     (kEncode (.cbP .ne .d 5 3 3)).2, ⟨0x40, ⟨4, [], []⟩⟩, by unfold Issues; decide +kernel⟩,
   ⟨kwm (.cbP .eq .d 5 3 3) (fun th => {th with tb := [(3, ⟨0x40, ⟨4, [], []⟩⟩)]}), C, T, 0, 0, .d, 5, 3, 3, (kEncode (.cbP .eq .d 5 3 3)).1,
     (kEncode (.cbP .eq .d 5 3 3)).2, ⟨0x40, ⟨4, [], []⟩⟩, by unfold Issues; decide +kernel⟩,
   ⟨kw (.cbP .eq .d 5 3 3), C, T, 0, 0, .d, 5, 3, 3, (kEncode (.cbP .eq .d 5 3 3)).1, (kEncode (.cbP .eq .d 5 3 3)).2,
     by unfold Issues; decide +kernel⟩⟩

theorem test_meets_JumpsCallsAndReturns :
    (∃ (s : State) (c : Fin 56) (t : Fin 8) (target : Half) (h0 : Half) (h1 : Half), Issues s c t (KInstr.jmp target) h0 h1)
    ∧ (∃ (s : State) (c : Fin 56) (t : Fin 8) (n : BitVec 3) (h0 : Half) (h1 : Half), Issues s c t (KInstr.jmpI n) h0 h1)
    ∧ (∃ (s : State) (c : Fin 56) (t : Fin 8) (h0 : Half) (h1 : Half), Issues s c t KInstr.ret h0 h1)
    ∧ (∃ (s : State) (c : Fin 56) (t : Fin 8) (target : Half) (h0 : Half) (h1 : Half), Issues s c t (KInstr.call target) h0 h1)
    ∧ (∃ (s : State) (c : Fin 56) (t : Fin 8) (n : BitVec 3) (h0 : Half) (h1 : Half), Issues s c t (KInstr.callI n) h0 h1)
    ∧ (∃ (s : State) (c : Fin 56) (t : Fin 8) (k : BitVec 4) (h0 : Half) (h1 : Half) (e : TbEntry), Issues s c t (KInstr.jmpP k) h0 h1 ∧ tbGet (s.th c
      t) k = some e)
    ∧ (∃ (s : State) (c : Fin 56) (t : Fin 8) (k : BitVec 4) (h0 : Half) (h1 : Half), Issues s c t (KInstr.jmpP k) h0 h1 ∧ tbGet (s.th c t) k = none ∧
      (s.th c t).inh = false)
    ∧ (∃ (s : State) (c : Fin 56) (t : Fin 8) (k : BitVec 4) (h0 : Half) (h1 : Half) (e : TbEntry), Issues s c t (KInstr.callP k) h0 h1 ∧ tbGet (s.th c
      t) k = some e)
    ∧ (∃ (s : State) (c : Fin 56) (t : Fin 8) (k : BitVec 4) (h0 : Half) (h1 : Half), Issues s c t (KInstr.callP k) h0 h1 ∧ tbGet (s.th c t) k = none ∧
      (s.th c t).inh = false)
    ∧ (∃ (s : State) (c : Fin 56) (t : Fin 8) (h0 : Half) (h1 : Half), Issues s c t KInstr.retP h0 h1 ∧ (∃ e ∈ (s.th c t).tb, e.2.line.num =
      BitVec.toNat ((s.th c t).getA 7) / 16))
    ∧ (∃ (s : State) (c : Fin 56) (t : Fin 8) (h0 : Half) (h1 : Half), Issues s c t KInstr.retP h0 h1 ∧ (∀ e ∈ (s.th c t).tb, e.2.line.num ≠
      BitVec.toNat ((s.th c t).getA 7) / 16) ∧ (s.th c t).inh = false)
    ∧ (∃ (s : State) (c : Fin 56) (t : Fin 8) (k : BitVec 4) (target : Half) (h0 : Half) (h1 : Half), Issues s c t (KInstr.tbl k target) h0 h1) :=
  ⟨⟨kw (.jmp 0x99), C, T, 0x99, (kEncode (.jmp 0x99)).1, (kEncode (.jmp 0x99)).2, by unfold Issues; decide +kernel⟩,
   ⟨kw (.jmpI 3), C, T, 3, (kEncode (.jmpI 3)).1, (kEncode (.jmpI 3)).2, by unfold Issues; decide +kernel⟩,
   ⟨kw (.ret), C, T, (kEncode (.ret)).1, (kEncode (.ret)).2, by unfold Issues; decide +kernel⟩,
   ⟨kw (.call 0x99), C, T, 0x99, (kEncode (.call 0x99)).1, (kEncode (.call 0x99)).2, by unfold Issues; decide +kernel⟩,
   ⟨kw (.callI 3), C, T, 3, (kEncode (.callI 3)).1, (kEncode (.callI 3)).2, by unfold Issues; decide +kernel⟩,
   ⟨kwm (.jmpP 3) (fun th => {th with tb := [(3, ⟨0x40, ⟨4, [], []⟩⟩)]}), C, T, 3, (kEncode (.jmpP 3)).1, (kEncode (.jmpP 3)).2, ⟨0x40, ⟨4, [], []⟩⟩,
     by unfold Issues; decide +kernel⟩,
   ⟨kw (.jmpP 3), C, T, 3, (kEncode (.jmpP 3)).1, (kEncode (.jmpP 3)).2, by unfold Issues; decide +kernel⟩,
   ⟨kwm (.callP 3) (fun th => {th with tb := [(3, ⟨0x40, ⟨4, [], []⟩⟩)]}), C, T, 3, (kEncode (.callP 3)).1, (kEncode (.callP 3)).2,
     ⟨0x40, ⟨4, [], []⟩⟩, by unfold Issues; decide +kernel⟩,
   ⟨kw (.callP 3), C, T, 3, (kEncode (.callP 3)).1, (kEncode (.callP 3)).2, by unfold Issues; decide +kernel⟩,
   ⟨kwm (.retP) (fun th => {th with tb := [(3, ⟨0x14, ⟨1, [], []⟩⟩)]}), C, T, (kEncode (.retP)).1, (kEncode (.retP)).2,
     by unfold Issues; decide +kernel⟩,
   ⟨kwm (.retP) (fun th => {th with tb := [(3, ⟨0x40, ⟨4, [], []⟩⟩)]}), C, T, (kEncode (.retP)).1, (kEncode (.retP)).2,
     by unfold Issues; decide +kernel⟩,
   ⟨kw (.tbl 3 0x88), C, T, 3, 0x88, (kEncode (.tbl 3 0x88)).1, (kEncode (.tbl 3 0x88)).2, by unfold Issues; decide +kernel⟩⟩

theorem test_meets_AtomicsAndRepeat :
    (∃ (s : State) (c : Fin 56) (t : Fin 8) (d : BitVec 3) (n : BitVec 3) (h0 : Half) (h1 : Half) (a : ℕ), a = BitVec.toNat ((s.th c t).getA n) ∧ a <
      40960 ∧ dataPoisoned s c t a 1 = false ∧ Issues s c t (KInstr.tas d n) h0 h1)
    ∧ (∃ (s : State) (c : Fin 56) (t : Fin 8) (d : BitVec 3) (n : BitVec 3) (h0 : Half) (h1 : Half) (a : ℕ), a = BitVec.toNat ((s.th c t).getA n) ∧ a <
      40960 ∧ dataPoisoned s c t a 1 = false ∧ Issues s c t (KInstr.lrB d n) h0 h1)
    ∧ (∃ (s : State) (c : Fin 56) (t : Fin 8) (d : BitVec 3) (n : BitVec 3) (h0 : Half) (h1 : Half) (a : ℕ), a = BitVec.toNat ((s.th c t).getA n) ∧ a <
      40960 ∧ dataPoisoned s c t a 1 = false ∧ Issues s c t (KInstr.scB d n) h0 h1 ∧ (s.th c t).resv = some (a / 8))
    ∧ (∃ (s : State) (c : Fin 56) (t : Fin 8) (d : BitVec 3) (n : BitVec 3) (h0 : Half) (h1 : Half) (a : ℕ), a = BitVec.toNat ((s.th c t).getA n) ∧ a <
      40960 ∧ dataPoisoned s c t a 1 = false ∧ Issues s c t (KInstr.scB d n) h0 h1 ∧ (s.th c t).resv ≠ some (a / 8))
    ∧ (∃ (s : State) (c : Fin 56) (t : Fin 8) (d : BitVec 3) (n : BitVec 3) (h0 : Half) (h1 : Half) (a : ℕ), a = BitVec.toNat ((s.th c t).getA n) ∧
      40960 ≤ a ∧ (s.th c t).inh = false ∧ Issues s c t (KInstr.tas d n) h0 h1)
    ∧ (∃ (s : State) (c : Fin 56) (t : Fin 8) (d : BitVec 3) (n : BitVec 3) (h0 : Half) (h1 : Half) (a : ℕ), a = BitVec.toNat ((s.th c t).getA n) ∧
      40960 ≤ a ∧ (s.th c t).inh = false ∧ Issues s c t (KInstr.lrB d n) h0 h1)
    ∧ (∃ (s : State) (c : Fin 56) (t : Fin 8) (d : BitVec 3) (n : BitVec 3) (h0 : Half) (h1 : Half) (a : ℕ), a = BitVec.toNat ((s.th c t).getA n) ∧
      40960 ≤ a ∧ (s.th c t).inh = false ∧ Issues s c t (KInstr.scB d n) h0 h1)
    ∧ (∃ (s : State) (c : Fin 56) (t : Fin 8) (u : Byte) (n : BitVec 3) (h0 : Half) (h1 : Half) (hn : Half) (count : ℕ) (i : KInstr) (k : Instr), (i =
      KInstr.repImm u ∧ k = Instr.repImm c t u ∧ count = BitVec.toNat u ∨ i = KInstr.repReg n ∧ k = Instr.repReg c t n ∧ count = BitVec.toNat
      ((s.th c t).getA n)) ∧ Issues s c t i h0 h1 ∧ repPairBad (s.th c t) ((s.th c t).pc + 1) = false ∧ heldHalf (s.th c t) ((s.th c t).pc + 1) =
      some hn)
    ∧ (∃ (s : State) (c : Fin 56) (t : Fin 8) (u : Byte) (n : BitVec 3) (h0 : Half) (h1 : Half) (count : ℕ) (i : KInstr) (k : Instr), (i = KInstr.repImm
      u ∧ k = Instr.repImm c t u ∧ count = BitVec.toNat u ∨ i = KInstr.repReg n ∧ k = Instr.repReg c t n ∧ count = BitVec.toNat ((s.th c t).getA
      n)) ∧ Issues s c t i h0 h1 ∧ repPairBad (s.th c t) ((s.th c t).pc + 1) = true ∧ (s.th c t).inh = false) :=
  ⟨⟨kw (.tas 1 3), C, T, 1, 3, (kEncode (.tas 1 3)).1, (kEncode (.tas 1 3)).2, _, rfl, by unfold Issues; decide +kernel⟩,
   ⟨kw (.lrB 1 3), C, T, 1, 3, (kEncode (.lrB 1 3)).1, (kEncode (.lrB 1 3)).2, _, rfl, by unfold Issues; decide +kernel⟩,
   ⟨kwm (.scB 1 3) (fun th => {th with resv := some 8}), C, T, 1, 3, (kEncode (.scB 1 3)).1, (kEncode (.scB 1 3)).2, _, rfl,
     by unfold Issues; decide +kernel⟩,
   ⟨kw (.scB 1 3), C, T, 1, 3, (kEncode (.scB 1 3)).1, (kEncode (.scB 1 3)).2, _, rfl, by unfold Issues; decide +kernel⟩,
   ⟨kw (.tas 1 2), C, T, 1, 2, (kEncode (.tas 1 2)).1, (kEncode (.tas 1 2)).2, _, rfl, by unfold Issues; decide +kernel⟩,
   ⟨kw (.lrB 1 2), C, T, 1, 2, (kEncode (.lrB 1 2)).1, (kEncode (.lrB 1 2)).2, _, rfl, by unfold Issues; decide +kernel⟩,
   ⟨kw (.scB 1 2), C, T, 1, 2, (kEncode (.scB 1 2)).1, (kEncode (.scB 1 2)).2, _, rfl, by unfold Issues; decide +kernel⟩,
   ⟨kwm (.repImm 0) (fun th => {th with cur := some ⟨1, [(kEncode (.repImm 0)).1, 0x1144] ++ List.replicate 14 (0x1144 : Half), []⟩}), C, T, 0,
     default, (kEncode (.repImm 0)).1, (kEncode (.repImm 0)).2, 0x1144, 0, (KInstr.repImm 0), (.repImm C T 0), by unfold Issues; decide +kernel⟩,
   ⟨kw (.repImm 0), C, T, 0, default, (kEncode (.repImm 0)).1, (kEncode (.repImm 0)).2, 0, (KInstr.repImm 0), (.repImm C T 0),
     by unfold Issues; decide +kernel⟩⟩

theorem test_meets_SystemInstructions :
    (∃ (s : State) (c : Fin 56) (t : Fin 8) (h0 : Half) (h1 : Half), Issues s c t KInstr.nop h0 h1)
    ∧ (∃ (s : State) (c : Fin 56) (t : Fin 8) (h0 : Half) (h1 : Half), Issues s c t KInstr.yield h0 h1)
    ∧ (∃ (s : State) (c : Fin 56) (t : Fin 8) (h0 : Half) (h1 : Half), Issues s c t KInstr.iflush h0 h1)
    ∧ (∃ (s : State) (c : Fin 56) (t : Fin 8) (imm : Byte) (h0 : Half) (h1 : Half), Issues s c t (KInstr.sys imm) h0 h1 ∧ (s.th c t).inh = false)
    ∧ (∃ (s : State) (c : Fin 56) (t : Fin 8) (imm : Byte) (h0 : Half) (h1 : Half), Issues s c t (KInstr.brk imm) h0 h1 ∧ (s.th c t).inh = false)
    ∧ (∃ (s : State) (c : Fin 56) (t : Fin 8) (mask : Byte) (h0 : Half) (h1 : Half), Issues s c t (KInstr.waitev mask) h0 h1 ∧ eventBits s c t &&& mask
      = 0)
    ∧ (∃ (s : State) (c : Fin 56) (t : Fin 8) (u : Fin 8) (h0 : Half) (h1 : Half), Issues s c t (KInstr.signal { toFin := u }) h0 h1) :=
  ⟨⟨kw (.nop), C, T, (kEncode (.nop)).1, (kEncode (.nop)).2, by unfold Issues; decide +kernel⟩,
   ⟨kw (.yield), C, T, (kEncode (.yield)).1, (kEncode (.yield)).2, by unfold Issues; decide +kernel⟩,
   ⟨kw (.iflush), C, T, (kEncode (.iflush)).1, (kEncode (.iflush)).2, by unfold Issues; decide +kernel⟩,
   ⟨kw (.sys 0x44), C, T, 0x44, (kEncode (.sys 0x44)).1, (kEncode (.sys 0x44)).2, by unfold Issues; decide +kernel⟩,
   ⟨kw (.brk 0x44), C, T, 0x44, (kEncode (.brk 0x44)).1, (kEncode (.brk 0x44)).2, by unfold Issues; decide +kernel⟩,
   ⟨kw (.waitev 0x02), C, T, 0x02, (kEncode (.waitev 0x02)).1, (kEncode (.waitev 0x02)).2, by unfold Issues; decide +kernel⟩,
   ⟨kw (.signal 6), C, T, 6, (kEncode (.signal 6)).1, (kEncode (.signal 6)).2, by unfold Issues; decide +kernel⟩⟩

theorem test_meets_TrapsAndReturns :
    (∃ (s : State) (c : Fin 56) (t : Fin 8) (h0 : Half) (h1 : Half), mayIssue s c t = true ∧ fetchBad (s.th c t) = false ∧ atPc (s.th c t) = some (h0,
      h1) ∧ kDecode h0 h1 = none ∧ (s.th c t).inh = false)
    ∧ (∃ (s : State) (c : Fin 56) (t : Fin 8) (h0 : Half) (h1 : Half), mayIssue s c t = true ∧ fetchBad (s.th c t) = false ∧ atPc (s.th c t) = some (h0,
      h1) ∧ kDecode h0 h1 = none ∧ (s.th c t).inh = true)
    ∧ (∃ (s : State) (c : Fin 56) (t : Fin 8), budgetDue s c t = true ∧ (s.th c t).st = ThState.run ∧ s.frozen c = false)
    ∧ (∃ (s : State) (c : Fin 56) (t : Fin 8), budgetDue s c t = true ∧ ((s.th c t).st ≠ ThState.run ∨ s.frozen c = true))
    ∧ (∃ (s : State) (c : Fin 56) (t : Fin 8) (src : ℕ), (s.th c t).deliver = some src ∧ (s.th c t).inh = false ∧ budgetDue s c t = false ∧ s.frozen c =
      false ∧ ((s.th c t).st = ThState.waitev ∨ (s.th c t).st = ThState.run ∧ (s.th c t).woken = some ThState.waitev))
    ∧ (∃ (s : State) (c : Fin 56) (t : Fin 8) (h0 : Half) (h1 : Half), Issues s c t KInstr.reti h0 h1 ∧ (s.th c t).repact = false) :=
  ⟨⟨un, C, T, 0, 0, by decide +kernel⟩,
   ⟨put un (fun th => {th with inh := true}), C, T, 0, 0, by decide +kernel⟩,
   ⟨bu .run, C, T, by decide +kernel⟩,
   ⟨bu .waitev, C, T, by decide +kernel⟩,
   ⟨de .waitev, C, T, 77, by decide +kernel⟩,
   ⟨kwm (.reti) (fun th => {th with inh := true, xpc := 0x77}), C, T, (kEncode (.reti)).1, (kEncode (.reti)).2, by unfold Issues; decide +kernel⟩⟩

end Keeper

namespace Keeper2

def ub : State := (put (base.put (Fld.THREAD_BUDGET_BOUND C T) 0) (fun _ => {thr .nop with used := 1000})).put (Fld.THREAD_BUDGET_BUDGET C T) 500
def dv : State := (put base (fun _ => {thr (.divq 1 2) with st := .run, deliver := some 77}))

theorem test_meets_NearMemory :
    (∃ (a : ℕ), regionOf a ≠ some Region.io ∧ a < 65536)
    ∧ (∃ (a : ℕ), regionOf a = some Region.io) :=
  ⟨⟨0xA004, by decide +kernel⟩,
   ⟨0xB004, by decide +kernel⟩⟩

theorem test_meets_SystemInstructions :
    ∃ (s : State) (c : Fin 56) (t : Fin 8) (mask : Byte) (h0 : Half) (h1 : Half), Issues s c t (KInstr.waitev mask) h0 h1 ∧ eventBits s c t &&& mask ≠
      0 :=
  ⟨kwm (.waitev 0x02) (fun th => {th with mail := some ⟨true,0,0,0,0,0,true⟩, evt := 0xff}), C, T, 0x02, (kEncode (.waitev 0x02)).1, 0,
     by unfold Issues; decide +kernel⟩

theorem test_meets_TrapsAndReturns :
    (∃ (s : State) (c : Fin 56) (t : Fin 8), s.isSet (Fld.THREAD_BUDGET_BOUND ↑c ↑t) = false ∧ s.get (Fld.THREAD_BUDGET_BUDGET ↑c ↑t) ≤ (s.th c
      t).used ∧ (s.th c t).yielded = false)
    ∧ (∃ (s : State) (c : Fin 56) (t : Fin 8) (src : ℕ), (s.th c t).deliver = some src ∧ (s.th c t).inh = false ∧ budgetDue s c t = false ∧ s.frozen c =
      false ∧ ((s.th c t).st = ThState.run ∨ (s.th c t).st = ThState.yielded) ∧ (s.th c t).woken ≠ some ThState.waitev)
    ∧ (∃ (s : State) (c : Fin 56) (t : Fin 8) (h0 : Half) (h1 : Half) (src : ℕ) (qd : BitVec 2) (dm : BitVec 3) (spent : Fin 17), (s.th c t).deliver =
      some src ∧ (s.th c t).inh = false ∧ budgetDue s c t = false ∧ s.frozen c = false ∧ (s.th c t).st = ThState.run ∧ (s.th c t).woken = none ∧
      atPc (s.th c t) = some (h0, h1) ∧ kDecode h0 h1 = some (KInstr.divq qd dm) ∧ 0 < ↑spent ∧ ↑spent ≤ 16)
    ∧ (∃ (s : State) (c : Fin 56) (t : Fin 8), (s.th c t).st = ThState.waitev ∧ eventBits s c t &&& (s.th c t).waitMask ≠ 0)
    ∧ (∃ (s : State) (c : Fin 56) (t : Fin 8) (h0 : Half) (h1 : Half), Issues s c t KInstr.reti h0 h1 ∧ (s.th c t).repact = true ∧ 0 < BitVec.toNat
      (s.th c t).xrc ∧ repPairBad (loadLines (s.kp c) (s.th c t) (s.th c t).xpc) (s.th c t).xpc = false) :=
  ⟨⟨ub, C, T, by decide +kernel⟩,
   ⟨dv, C, T, 77, by decide +kernel⟩,
   ⟨dv, C, T, (kEncode (.divq 1 2)).1, (kEncode (.divq 1 2)).2, 77, 1, 2, 5, by decide +kernel⟩,
   ⟨put base (fun _ => {thr .nop with st := .waitev, waitMask := 3, evt := 1}), C, T, by decide +kernel⟩,
   ⟨(kwm (.reti) (fun th => {th with inh := true, xpc := 0x77, yld := true, repact := true, xrc := 5})).modKp C (fun k => {k with code := [(0x77, 0x1144)]}),
     C, T, (kEncode (.reti)).1, (kEncode (.reti)).2, by unfold Issues; decide +kernel⟩⟩

end Keeper2

namespace Regs

abbrev A1 : BitVec 26 := BitVec.ofNat 26 (Reg.SH_PROG 5)
abbrev A2 : BitVec 26 := BitVec.ofNat 26 (Reg.BE_MODE 5)
def slf : State := rd [(Fld.DEV_STATE_STATE, 1)]
def b2 (l : List (Fld × Nat)) : State := rd ([(Fld.BAR2_CTRL_EN, 1)] ++ l)
def d3 : State := (rd []).modHost (fun h => { h with link := true, d3hot := true, pmeStatus := true })

theorem test_meets_HalfAndBar2Accesses :
    (∃ (a : BitVec 26), a.toNat < 1024 ∧ a.toNat % 16 = 0)
    ∧ (∃ (a : BitVec 26), a.toNat < 1024 ∧ a.toNat % 16 = 8)
    ∧ (∃ (s : State), s.devState = devSelftest)
    ∧ (∃ (s : State), s.devState ≠ devSelftest)
    ∧ (∃ (s : State) (a : BitVec 26) (p : ℕ), p = pageOf a.toNat ∧ s.toll.orderly = false ∧ PageAt s a.toNat ∧ (pageBuf s p).split = none)
    ∧ (∃ (s : State) (a : BitVec 26) (v : Long) (lo : Long) (p : ℕ), p = pageOf a.toNat ∧ s.toll.orderly = false ∧ PageAt s a.toNat ∧ (pageBuf s
      p).split = some (a.toNat, BitVec.toNat lo) ∧ Reaches s a.toNat (BitVec.toNat lo + v.toNat * 2 ^ 32))
    ∧ (∃ (s : State) (a : BitVec 26) (hi : ℕ) (p : ℕ), p = pageOf a.toNat ∧ s.toll.orderly = false ∧ PageAt s a.toNat ∧ (pageBuf s p).snap = some
      (a.toNat, hi))
    ∧ (∃ (s : State) (a : BitVec 26) (hi : ℕ) (p : ℕ), p = pageOf a.toNat ∧ s.toll.orderly = false ∧ PageAt s a.toNat ∧ (pageBuf s p).snap = none ∧
      regRead s a.toNat = (hi, s))
    ∧ (∃ (s : State) (x : BitVec 36) (bs : List Byte) (g : ℕ), g = bar2Addr s x.toNat ∧ g % 8 = 0 ∧ bs.length = 8 ∧ 2 ^ 28 ≤ x.toNat)
    ∧ (∃ (s : State) (x : BitVec 36) (bs : List Byte) (g : ℕ), g = bar2Addr s x.toNat ∧ g % 8 = 0 ∧ bs.length = 8 ∧ x.toNat < 2 ^ 28 ∧ (s.devState =
      devDrydock ∨ s.get Fld.BAR2_CTRL_EN = 0))
    ∧ (∃ (s : State) (x : BitVec 36) (bs : List Byte) (g : ℕ), g = bar2Addr s x.toNat ∧ g % 8 = 0 ∧ bs.length = 8 ∧ x.toNat < 2 ^ 28 ∧ s.devState ≠
      devDrydock ∧ s.get Fld.BAR2_CTRL_EN = 1 ∧ g < s.dramTop ∧ s.poisoned 0 g 8 = false ∧ g < s.devRegion)
    ∧ (∃ (s : State) (x : BitVec 36) (bs : List Byte) (g : ℕ), g = bar2Addr s x.toNat ∧ g % 8 = 0 ∧ bs.length = 8 ∧ x.toNat < 2 ^ 28 ∧ s.devState ≠
      devDrydock ∧ s.get Fld.BAR2_CTRL_EN = 1 ∧ g < s.dramTop ∧ s.poisoned 0 g 8 = false ∧ s.devRegion ≤ g)
    ∧ (∃ (s : State) (x : BitVec 36) (bs : List Byte) (g : ℕ), g = bar2Addr s x.toNat ∧ g % 8 = 0 ∧ bs.length = 8 ∧ x.toNat < 2 ^ 28 ∧ s.devState ≠
      devDrydock ∧ s.get Fld.BAR2_CTRL_EN = 1 ∧ g < s.dramTop ∧ s.poisoned 0 g 8 = true)
    ∧ (∃ (s : State) (x : BitVec 36) (bs : List Byte) (g : ℕ), g = bar2Addr s x.toNat ∧ g % 8 = 0 ∧ bs.length = 8 ∧ x.toNat < 2 ^ 28 ∧ s.devState ≠
      devDrydock ∧ s.get Fld.BAR2_CTRL_EN = 1 ∧ g < s.dramTop ∧ bar2Refuses s g = false)
    ∧ (∃ (s : State) (x : BitVec 36) (bs : List Byte) (g : ℕ), g = bar2Addr s x.toNat ∧ g % 8 = 0 ∧ bs.length = 8 ∧ x.toNat < 2 ^ 28 ∧ s.devState ≠
      devDrydock ∧ s.get Fld.BAR2_CTRL_EN = 1 ∧ g < s.dramTop ∧ bar2Refuses s g = true)
    ∧ (∃ (s : State) (x : BitVec 36) (bs : List Byte) (g : ℕ), g = bar2Addr s x.toNat ∧ g % 8 = 0 ∧ bs.length = 8 ∧ x.toNat < 2 ^ 28 ∧ s.devState ≠
      devDrydock ∧ s.get Fld.BAR2_CTRL_EN = 1 ∧ s.dramTop ≤ g) :=
  ⟨⟨default, by decide +kernel⟩,
   ⟨0x38, by decide +kernel⟩,
   ⟨slf, by decide +kernel⟩,
   ⟨ready, by decide +kernel⟩,
   ⟨ready, A1, _, rfl, by unfold PageAt; decide +kernel⟩,
   ⟨modPage ready (pageOf A1.toNat) (fun b => {b with split := some (A1.toNat, 0x77)}), A1, 0, 0x77, _, rfl,
     by unfold Reaches PageAt; decide +kernel⟩,
   ⟨modPage ready (pageOf A1.toNat) (fun b => {b with snap := some (A1.toNat, 0x77)}), A1, 0x77, _, rfl, by unfold PageAt; decide +kernel⟩,
   ⟨rd [(Fld.SH_PROG_PROG 5, 0x1122334455667788)], A1, 0x1122334455667788, _, rfl, by unfold PageAt; decide +kernel⟩,
   ⟨b2 [], 0x10000000, [1,2,3,4,5,6,7,8], _, rfl, by decide +kernel⟩,
   ⟨rd [(Fld.BAR2_CTRL_EN, 0)], 0x1000, [1,2,3,4,5,6,7,8], _, rfl, by decide +kernel⟩,
   ⟨rd [(Fld.BAR2_CTRL_EN, 1)], 0x1000, [1,2,3,4,5,6,7,8], _, rfl, by decide +kernel⟩,
   ⟨b2 [(Fld.BAR2_BASE_ADDR, ready.devRegion / 2 ^ 20)], 0x1000, [1,2,3,4,5,6,7,8], _, rfl, by decide +kernel⟩,
   ⟨{ b2 [] with poison := [0x200] }, 0x1000, [1,2,3,4,5,6,7,8], _, rfl, by decide +kernel⟩,
   ⟨rd [(Fld.BAR2_CTRL_EN, 1),(Fld.BAR2_CTRL_WP,0)], 0x10000, [1,2,3,4,5,6,7,8], _, rfl, by decide +kernel⟩,
   ⟨rd [(Fld.BAR2_CTRL_EN, 1)], 0x1000, [1,2,3,4,5,6,7,8], _, rfl, by decide +kernel⟩,
   ⟨b2 [(Fld.BAR2_BASE_ADDR, 17 * 2 ^ 10)], 0x1000, [1,2,3,4,5,6,7,8], _, rfl, by decide +kernel⟩⟩

theorem test_meets_RegisterWrites :
    (∃ (s : State) (a : ℕ) (d : FldDef), s.get (fldAt a d) < 2 ^ d.w ∧ (d.acc = Acc.rw ∨ d.acc = Acc.rwnv))
    ∧ (∃ (s : State) (a : ℕ) (d : FldDef), s.get (fldAt a d) < 2 ^ d.w ∧ d.acc = Acc.w1c)
    ∧ (∃ (s : State) (a : ℕ) (d : FldDef), s.get (fldAt a d) < 2 ^ d.w ∧ d.acc = Acc.w1s)
    ∧ (∃ (s : State) (a : ℕ) (d : FldDef), s.get (fldAt a d) < 2 ^ d.w ∧ (d.acc = Acc.ro ∨ d.acc = Acc.wo ∨ d.acc = Acc.rc))
    ∧ (∃ (s : State) (a : ℕ) (d : FldDef) (g : Fld), s.get (fldAt a d) < 2 ^ d.w ∧ fldKey g ≠ fldKey (fldAt a d))
    ∧ (∃ (s : State) (a : BitVec 26), s.toll.orderly = false ∧ barRegion a.toNat = BarRegion.unmapped ∧ s.devState ≠ devDrydock)
    ∧ (∃ (s : State) (a : BitVec 26) (v : Word) (u : State), s.toll.orderly = false ∧ Reaches s a.toNat (v.toNat) ∧ regWrite (Touched s a.toNat) a.toNat
      (v.toNat) = Wr.ok u ∧ u.toll.orderly = false)
    ∧ (∃ (s : State) (a : BitVec 26) (v : Word), s.toll.orderly = false ∧ Reaches s a.toNat (v.toNat) ∧ regWrite (Touched s a.toNat) a.toNat (v.toNat) =
      Wr.refused)
    ∧ (∃ (s : State) (a : BitVec 26), s.toll.orderly = false ∧ PageAt s a.toNat ∧ 256 ≤ a.toNat % 4096 ∧ s.get (Fld.PAGE_CTRL_WR_LOCK (pageOf a.toNat))
      = 1)
    ∧ (∃ (s : State) (a : BitVec 26), s.toll.orderly = false ∧ a.toNat < 1024 ∧ a.toNat % 16 = 0)
    ∧ (∃ (s : State) (a : BitVec 26), s.toll.orderly = false ∧ a.toNat < 1024 ∧ a.toNat % 16 = 8)
    ∧ (∃ (s : State), s.toll.orderly = false ∧ s.devState = devSelftest)
    ∧ (∃ (s : State) (v : Word), s.toll.orderly = false ∧ s.devState ≠ devSelftest ∧ bf (v.toNat) 0 2 = 3 ∧ s.host.d3hot = false)
    ∧ (∃ (s : State) (v : Word), s.toll.orderly = false ∧ s.devState ≠ devSelftest ∧ bf (v.toNat) 0 2 = 0 ∧ s.host.d3hot = true)
    ∧ (∃ (s : State) (v : Word), s.toll.orderly = false ∧ s.devState ≠ devSelftest ∧ bf (v.toNat) 0 2 ≠ if s.host.d3hot = true then 0 else 3) :=
  ⟨⟨rd [(⟨0x100,8,16,0x7777⟩, 0xF0F3)], 0x100, ⟨8,16,.rw,0x7777⟩, by decide +kernel⟩,
   ⟨rd [(⟨0x100,8,16,0x7777⟩, 0xF0F3)], 0x100, ⟨8,16,.w1c,0x7777⟩, by decide +kernel⟩,
   ⟨rd [(⟨0x100,8,16,0x7777⟩, 0xF0F3)], 0x100, ⟨8,16,.w1s,0x7777⟩, by decide +kernel⟩,
   ⟨rd [(⟨0x100,8,16,0x7777⟩, 0xF0F3)], 0x100, ⟨8,16,.ro,0x7777⟩, by decide +kernel⟩,
   ⟨rd [(⟨0x100,8,16,0x7777⟩, 0xF0F3)], 0x100, ⟨8,16,.rw,0x7777⟩, Fld.SH_PROG_PROG 5, by decide +kernel⟩,
   ⟨ready, 0x0FFF000, by decide +kernel⟩,
   ⟨ready, A1, 0x8, (regWrite (Touched ready A1.toNat) A1.toNat 8) |> fun r => match r with | .ok u => u | _ => ready,
     by unfold Reaches PageAt; decide +kernel⟩,
   ⟨rd [(Fld.CHAN_STATE_STATE 5, 1)], A2, 0x1, by unfold Reaches PageAt; decide +kernel⟩,
   ⟨rd [(Fld.PAGE_CTRL_WR_LOCK (pageOf A1.toNat), 1)], A1, by unfold PageAt; decide +kernel⟩,
   ⟨rd [], 0x100, by decide +kernel⟩,
   ⟨rd [], 0x108, by decide +kernel⟩,
   ⟨slf, by decide +kernel⟩,
   ⟨rd [], 0x103, by decide +kernel⟩,
   ⟨d3, 0x8100, by decide +kernel⟩,
   ⟨d3, 3, by decide +kernel⟩⟩

theorem test_meets_ShadowCommands :
    (∃ (s : State) (a : BitVec 26) (p : ℕ), p = pageOf a.toNat ∧ PageAt s (Reg.SHADOW_CTRL p) ∧ s.get (Fld.SHADOW_CTRL_PENDING p) = 1)
    ∧ (∃ (s : State) (a : BitVec 26) (p : ℕ), p = pageOf a.toNat ∧ PageAt s (Reg.SHADOW_CTRL p) ∧ s.get (Fld.SHADOW_CTRL_PENDING p) = 0) :=
  ⟨⟨setF (modPage ready (pageOf A1.toNat) (fun b => {b with shadow := [(1,2)]})) [(Fld.SHADOW_CTRL_PENDING (pageOf A1.toNat),1)], A1, _, rfl,
     by unfold PageAt; decide +kernel⟩,
   ⟨modPage ready (pageOf A1.toNat) (fun b => {b with shadow := [(1,2)]}), A1, _, rfl, by unfold PageAt; decide +kernel⟩⟩

end Regs

namespace Time

def cfgw (us ph : Nat) : Word := BitVec.ofNat 64 (us + ph * 65536)
def pps (now : Nat) (p : Option Nat) (l : List (Fld × Nat)) : State := (rd ([(NOW, now)] ++ l)).modTb (fun t => {t with pps := p})
def b0 : Boot := ⟨0, 0, true, true⟩
def bx : State := { rd [(NOW,777),(TICK,9),(Fld.POUND_STATUS_FREE,3),(Fld.MON0_RESET_MV 2, 1000)] with toll := {ready.toll with boot := 7, rollback := 3}, dram := [(5,6)], pending := [.warmreset b0] }
def stt : SelfTest := ⟨0, 0, 0, [], false, 16, 100, [], 7, 0xFF, [1,2,3,4,5,6,7,8]⟩
def hs (f : HostFn → HostFn) : State := ((rd []).modHost f)
def hm : List (Nat × MsixEntry) := [(3, ⟨1,2,true⟩)]
def up : HostFn := {State.reset.host with link := true, bme := true, msixEn := true, msix := hm}
def wst (s : State) : State := {s with ic := {s.ic with stackTab := [(3, [(1,2)]), (0x41, [(5,6)])]}}
def heldS : State := { (rd [(Fld.SRC_SENSE 300, 1), (Fld.SRC_TARGET 300, 3), (Fld.SRC_PRIO 300, 3)]) with host := {up with d3hot := true, pmeEn := true, pmeStatus := true, pmeOn := true}, ic := {ready.ic with latch := [300]}}
def two (s : State) : State := setF s [(Fld.MON0_WARN_MV 2, 3000), (Fld.MON0_HYST_MV 2, 20), (Fld.MON1_BELOW 2, 1)]
def u0 (s : State) : State := s.modTb (fun t => {t with used := some 0})
def cham (f : Chamber → Chamber) : Chamber := f (State.reset.ch 5).chamber
def hf (st : HalfState) (h : ChHalf) : ChHalf := {h with st := st}
def cw1 : Chamber := cham (fun ch => {ch with weir := true})
def ce1 : Chamber := cham (fun ch => {ch with h0 := hf .filling ch.h0, filling := 0})
def cf1 : Chamber := cham (fun ch => {ch with h0 := hf .filling ch.h0, h1 := hf .full ch.h1, filling := 0})
def nopO : Order := mkO oWait 0 5 0 0
def sqE (f : Seq → Seq) : State := modSeq (rd [(Fld.CHAN_STATE_STATE 5, 1), (Fld.ROUTE_STATE_STATE 5, 2), (Fld.ROUTE_INFO_ORDER_LIMIT 5, 100)]) C f
def exN : ExecOrder := ex 3 (mkO oMark 0 0 0 0) (some 4) none
def exW : ExecOrder := {ex 3 (mkO oWait 0 0 0 0) (some 4) none with count := 2}
def stS (f : TollHouse → TollHouse) : State := {State.reset with toll := f State.reset.toll}
def hw : HostWrite := ⟨0x1000, [1, 2]⟩
def PT : Fin 64 := 40
def esS (c : Nat) (e : Escal) (l : List (Fld × Nat)) : State := {rd ([(Fld.DEV_STATE_STATE, c)] ++ l) with escal := [e]}
def eMin : Escal := ⟨5, 0, 7, 9⟩
def ed : Escal := ⟨59, 0, 0x12, 9⟩

theorem test_meets_TimebaseRegisters :
    (∃ (s : State) (v : Word) (us : ℕ) (ph : ℕ), us = bf (v.toNat) 0 14 ∧ ph = bf (v.toNat) 16 24 ∧ Reaches s Reg.TICK_CFG (v.toNat) ∧ 10 ≤ us ∧ us ≤
      10000 ∧ ph < us * 1000 ∧ s.get Fld.KEY_CFG_OFFSET_NS + s.get Fld.KEY_CFG_EVAL_NS ≤ us * 1000 ∧ routesBusy s = false)
    ∧ (∃ (s : State) (v : Word) (us : ℕ) (ph : ℕ), us = bf (v.toNat) 0 14 ∧ ph = bf (v.toNat) 16 24 ∧ Reaches s Reg.TICK_CFG (v.toNat) ∧ (¬(10 ≤ us ∧ us
      ≤ 10000 ∧ ph < us * 1000) ∨ us * 1000 < s.get Fld.KEY_CFG_OFFSET_NS + s.get Fld.KEY_CFG_EVAL_NS ∨ routesBusy s = true))
    ∧ (∃ (s : State) (v : Word), Reaches s Reg.KEY_CFG (v.toNat) ∧ bf (v.toNat) 0 24 + s.get Fld.KEY_CFG_EVAL_NS ≤ keyPeriod s)
    ∧ (∃ (s : State) (v : Word), Reaches s Reg.KEY_CFG (v.toNat) ∧ keyPeriod s < bf (v.toNat) 0 24 + s.get Fld.KEY_CFG_EVAL_NS)
    ∧ (∃ (s : State), PageAt s Reg.TIME_NS)
    ∧ (∃ (s : State) (t : State) (v : Word), t = (Touched s Reg.LS_CTRL).put Fld.LS_CTRL_COUNT (bf (withField (v.toNat) Fld.LS_CTRL_COMMIT 1) 16 9) ∧
      Reaches s Reg.LS_CTRL (withField (v.toNat) Fld.LS_CTRL_COMMIT 1) ∧ bit (withField (v.toNat) Fld.LS_CTRL_COMMIT 1) 0 = true ∧ lsReject t = 0)
    ∧ (∃ (s : State) (t : State) (v : Word), t = (Touched s Reg.LS_CTRL).put Fld.LS_CTRL_COUNT (bf (withField (v.toNat) Fld.LS_CTRL_COMMIT 1) 16 9) ∧
      Reaches s Reg.LS_CTRL (withField (v.toNat) Fld.LS_CTRL_COMMIT 1) ∧ bit (withField (v.toNat) Fld.LS_CTRL_COMMIT 1) 0 = true ∧ lsReject t ≠ 0)
    ∧ (∃ (s : State) (v : Word), Reaches s Reg.TB_CTRL (v.toNat) ∧ bf (v.toNat) 0 3 < 5)
    ∧ (∃ (s : State) (v : Word), Reaches s Reg.TB_CTRL (v.toNat) ∧ 5 ≤ bf (v.toNat) 0 3)
    ∧ (∃ (s : State) (v : Word), Reaches s Reg.STEP_CTRL (withField (v.toNat) Fld.STEP_CTRL_GO 1) ∧ bit (withField (v.toNat) Fld.STEP_CTRL_GO 1) 0 =
      true ∧ routesBusy s = false)
    ∧ (∃ (s : State) (t : State) (v : Word), t = ((Touched s Reg.STEP_CTRL).putB Fld.STEP_CTRL_FORCE (bit (withField (v.toNat) Fld.STEP_CTRL_GO 1)
      1)).putB Fld.STEP_CTRL_ABS (bit (withField (v.toNat) Fld.STEP_CTRL_GO 1) 2) ∧ Reaches s Reg.STEP_CTRL (withField (v.toNat) Fld.STEP_CTRL_GO
      1) ∧ bit (withField (v.toNat) Fld.STEP_CTRL_GO 1) 0 = true ∧ routesBusy s = true ∧ t.get Fld.STEP_CTRL_FORCE = 0)
    ∧ (∃ (s : State) (t : State) (v : Word), t = ((Touched s Reg.STEP_CTRL).putB Fld.STEP_CTRL_FORCE (bit (withField (v.toNat) Fld.STEP_CTRL_GO 1)
      1)).putB Fld.STEP_CTRL_ABS (bit (withField (v.toNat) Fld.STEP_CTRL_GO 1) 2) ∧ Reaches s Reg.STEP_CTRL (withField (v.toNat) Fld.STEP_CTRL_GO
      1) ∧ bit (withField (v.toNat) Fld.STEP_CTRL_GO 1) 0 = true ∧ routesBusy s = true ∧ t.get Fld.STEP_CTRL_FORCE = 1) :=
  ⟨⟨ready, 0x100, _, _, rfl, rfl, by unfold Reaches PageAt; decide +kernel⟩,
   ⟨ready, cfgw 5 77, _, _, rfl, rfl, by unfold Reaches PageAt; decide +kernel⟩,
   ⟨ready, 0x100, by unfold Reaches PageAt; decide +kernel⟩,
   ⟨ready, 200000, by unfold Reaches PageAt; decide +kernel⟩,
   ⟨ready, by unfold PageAt; decide +kernel⟩,
   ⟨rd [(NOW, 77), (TICK, 3)], _, 1, rfl, by unfold Reaches PageAt; decide +kernel⟩,
   ⟨rd [(NOW, 77), (TICK, 3), (Fld.LS_ENTRY_CHANNEL 0, 77)], _, 0x10000, rfl, by unfold Reaches PageAt; decide +kernel⟩,
   ⟨ready, 0x100, by unfold Reaches PageAt; decide +kernel⟩,
   ⟨ready, cfgw 5 77, by unfold Reaches PageAt; decide +kernel⟩,
   ⟨rd [(NOW, 77), (TICK, 3)], 1, by unfold Reaches PageAt; decide +kernel⟩,
   ⟨rd [(NOW, 7700000), (TICK, 3), (Fld.STEP_DELTA_VALUE, 1000), (Fld.ROUTE_STATE_STATE 5, 2)], _, 1, rfl, by unfold Reaches PageAt; decide +kernel⟩,
   ⟨rd [(NOW, 7700000), (TICK, 3), (Fld.STEP_DELTA_VALUE, 1000), (Fld.ROUTE_STATE_STATE 5, 2)], _, 3, rfl, by unfold Reaches PageAt; decide +kernel⟩⟩

theorem test_meets_PulsePerSecond :
    (∃ (s : State) (p : ℕ) (gap : ℕ), gap = (BitVec.ofNat 64 s.now - BitVec.ofNat 64 p).toInt.natAbs ∧ (s.tb.pps = none ∨ s.tb.pps = some p ∧
      (2000000000 < gap ∨ 999000000 ≤ gap ∧ gap ≤ 1001000000)) ∧ servoTakes s 1 = false)
    ∧ (∃ (s : State) (p : ℕ) (gap : ℕ), gap = (BitVec.ofNat 64 s.now - BitVec.ofNat 64 p).toInt.natAbs ∧ s.tb.pps = some p ∧ (gap < 999000000 ∨
      1001000000 < gap) ∧ gap ≤ 2000000000)
    ∧ (∃ (s : State), (servoState s = servoAcquire ∨ servoState s = servoLocked))
    ∧ (∃ (s : State), (servoState s = servoFree ∨ servoState s = servoHoldover))
    ∧ (∃ (s : State), s.get Fld.TB_CTRL_PPS_OUT_EN = 1 ∧ s.tb.ppsOut = false ∧ s.now % 1000000000 ≤ 1 ∧ devReady ≤ s.devState)
    ∧ (∃ (s : State), (s.get Fld.TB_CTRL_PPS_OUT_EN = 0 ∨ s.devState < devReady))
    ∧ (∃ (s : State), s.tb.ppsOut = true) :=
  ⟨⟨pps 5700000000 none [], 2005000000, _, rfl, by decide +kernel⟩,
   ⟨pps 5000000000 (some 4005000000) [], 4005000000, _, rfl, by decide +kernel⟩,
   ⟨pps 5700000000 none [(Fld.TB_CTRL_SRC,1),(Fld.TB_STATUS_SERVO,2)], by decide +kernel⟩,
   ⟨pps 5700000000 none [], by decide +kernel⟩,
   ⟨pps 5000000000 (some 4005000000) [], by decide +kernel⟩,
   ⟨pps 5000000001 none [(Fld.TB_CTRL_PPS_OUT_EN,1),(Fld.DEV_STATE_STATE,1)], by decide +kernel⟩,
   ⟨(pps 5000000000 none [(Fld.TB_CTRL_PPS_OUT_EN,1)]).modTb (fun t => {t with ppsOut := true}), by decide +kernel⟩⟩

theorem test_meets_TickEdges :
    (∃ (s : State), s.devState ≠ devDrydock)
    ∧ (∃ (s : State) (c : Fin 56), chLocks s ↑c = false)
    ∧ (∃ (ch : Chamber), ch.weir = true)
    ∧ (∃ (ch : Chamber), ch.weir = false ∧ ch.filling < 2 ∧ (ch.half (1 - ch.filling)).st = HalfState.empty)
    ∧ (∃ (ch : Chamber), ch.weir = false ∧ ch.filling < 2 ∧ (ch.half (1 - ch.filling)).st ≠ HalfState.empty)
    ∧ (∃ (s : State) (c : Fin 56) (i : ℕ) (o : Order), (s.sq c).stop = none ∧ (s.sq c).exec = none ∧ (s.sq c).fetch = Fetch.ready i o ∧ s.frozen c =
      false ∧ ((s.sq c).due = true ∧ (s.sq c).atEdge = true ∨ (s.sq c).due = false ∧ (s.sq c).first = true))
    ∧ (∃ (s : State) (c : Fin 56) (i : ℕ) (o : Order), (s.sq c).stop = none ∧ (s.sq c).exec = none ∧ (s.sq c).fetch = Fetch.ready i o ∧ s.frozen c =
      false ∧ (s.sq c).due = true ∧ (s.sq c).atEdge = false)
    ∧ (∃ (s : State) (c : Fin 56) (e : ExecOrder), (s.sq c).exec = some e ∧ (e.order.op ≠ oWait ∨ e.result.isSome = true))
    ∧ (∃ (s : State), s.devState = devReady ∧ routesBegun s = true)
    ∧ (∃ (s : State), s.devState = devRun ∧ routesBusy s = false)
    ∧ (∃ (s : State), (s.devState = devReady ∧ routesBegun s = false ∨ s.devState = devRun ∧ routesBusy s = true))
    ∧ (∃ (s : State) (c : Fin 56) (j : Fin 16), chLocks s ↑c = true ∧ ↑j = (s.ch c).chamber.swaps ∧ ↑j < lockRate s ↑c ∧ s.canReach (s.tb.edgeNs + ↑j *
      s.tb.period / lockRate s ↑c) = true)
    ∧ (∃ (s : State) (c : Fin 56) (j : Fin 16), (chLocks s ↑c = false ∨ ↑j ≠ (s.ch c).chamber.swaps ∨ lockRate s ↑c ≤ ↑j ∨ s.canReach (s.tb.edgeNs + ↑j
      * s.tb.period / lockRate s ↑c) = false))
    ∧ (∃ (s : State) (c : Fin 56) (e : ExecOrder), (s.sq c).exec = some e ∧ e.order.op = oWait ∧ e.count = 0 ∧ e.result = none ∧ s.frozen c = false)
    ∧ (∃ (s : State) (c : Fin 56) (e : ExecOrder), (s.sq c).exec = some e ∧ (e.order.op ≠ oWait ∨ e.count ≠ 0 ∨ e.result.isSome = true ∨ s.frozen c =
      true)) :=
  ⟨⟨rd [], by decide +kernel⟩,
   ⟨rd [], C, by decide +kernel⟩,
   ⟨cw1, by decide +kernel⟩,
   ⟨ce1, by decide +kernel⟩,
   ⟨cf1, by decide +kernel⟩,
   ⟨sqE (fun q => {q with fetch := .ready 0 nopO, first := true, pc := 0}), C, 0, nopO, by decide +kernel⟩,
   ⟨sqE (fun q => {q with fetch := .ready 3 nopO, due := true, atEdge := false, pc := 3}), C, 3, nopO, by decide +kernel⟩,
   ⟨modSeq (rd [(Fld.ROUTE_STATE_STATE 5, 3)]) C (fun q => {q with exec := some exN, pc := 3}), C, exN, by decide +kernel⟩,
   ⟨sqE id, by decide +kernel⟩,
   ⟨rd [(Fld.DEV_STATE_STATE, 4)], by decide +kernel⟩,
   ⟨rd [], by decide +kernel⟩,
   ⟨u0 ((rd [(NOW, 777), (TICK, 9), (Fld.CHAN_STATE_STATE 5, 1), (Fld.LOCK_CFG_RATE_LOG2 5, 2)]).modCh C (fun c => {c with chamber := {c.chamber with swaps := 2}})),
     C, 2, by decide +kernel⟩,
   ⟨(rd [(NOW, 777), (TICK, 9), (Fld.CHAN_STATE_STATE 5, 1), (Fld.LOCK_CFG_RATE_LOG2 5, 2)]).modCh C (fun c => {c with chamber := {c.chamber with swaps := 2}}),
     C, 2, by decide +kernel⟩,
   ⟨modSeq (rd [(Fld.ROUTE_STATE_STATE 5, 3)]) C (fun q => {q with exec := some (ex 3 (mkO oWait 0 0 0 0) (some 4) none), pc := 3}), C,
     ex 3 (mkO oWait 0 0 0 0) (some 4) none, by decide +kernel⟩,
   ⟨modSeq (rd [(Fld.ROUTE_STATE_STATE 5, 3)]) C (fun q => {q with exec := some exN, pc := 3}), C, exN, by decide +kernel⟩⟩

theorem test_meets_ResetsAndSelfTest :
    (∃ (k : Fin 16) (j : Fin 16), j ≠ k)
    ∧ (∃ (s : State) (k : ℕ) (prev : ℕ), s.toll.trial = some (k, prev))
    ∧ (∃ (s : State) (n : Fin 10) (mv : Half), s.dip = none ∧ s.get (Fld.MON0_RESET_MV ↑n) ≠ 0 ∧ monLevel s (↑n) (BitVec.toNat mv) ≤ s.get
      (Fld.MON0_RESET_MV ↑n))
    ∧ (∃ (s : State) (n : Fin 10) (mv : Half), (s.get (Fld.MON0_RESET_MV ↑n) = 0 ∨ s.get (Fld.MON0_RESET_MV ↑n) < monLevel s (↑n) (BitVec.toNat mv)))
    ∧ (∃ (s : State), s.toll.trial = none)
    ∧ (∃ (s : State) (full : Bool), s.toll.resetIn = some full)
    ∧ (∃ (s : State), s.toll.resetIn = none)
    ∧ (∃ (s : State), s.critWait = true)
    ∧ (∃ (s : State), s.critWait = false)
    ∧ (∃ (s : State), (s.devState ≠ devSelftest ∨ s.toll.start ≠ StartUp.none ∨ s.toll.testMode = true ∨ anyBelow s = true))
    ∧ (∃ (s : State) (t : SelfTest), s.devState = devSelftest ∧ s.toll.start = StartUp.none ∧ s.toll.testMode = false ∧ anyBelow s = false ∧ s.toll.rom
      = false ∧ t.step = 2)
    ∧ (∃ (s : State), s.devState = devSelftest ∧ s.toll.start = StartUp.none ∧ s.toll.testMode = false ∧ anyBelow s = false ∧ s.toll.rom = true)
    ∧ (∃ (s : State) (t : SelfTest) (k : ℕ) (d : ℕ), s.devState = devSelftest ∧ s.toll.start = StartUp.none ∧ s.toll.testMode = false ∧ anyBelow s =
      false ∧ testFails s t = some (k, d))
    ∧ (∃ (s : State) (t : SelfTest), s.devState = devSelftest ∧ s.toll.start = StartUp.none ∧ s.toll.testMode = false ∧ anyBelow s = false ∧ testFails s
      t = none ∧ s.toll.factory = [] ∧ s.toll.config = [] ∧ s.toll.repair = [] ∧ t.rows = [] ∧ t.pages = [] ∧ t.mapBad = false ∧ t.plls = 255 ∧
      s.toll.bootmode ≠ 2)
    ∧ (∃ (s : State) (t : SelfTest), s.devState = devSelftest ∧ s.toll.start = StartUp.none ∧ s.toll.testMode = false ∧ anyBelow s = false ∧ testFails s
      t = none ∧ s.toll.factory = [] ∧ s.toll.config = [] ∧ s.toll.repair = [] ∧ t.rows = [] ∧ t.pages = [] ∧ t.mapBad = false ∧ t.plls = 255 ∧
      s.toll.bootmode = 2) :=
  ⟨⟨1, default, by decide +kernel⟩,
   ⟨{bx with toll := {bx.toll with trial := some (1,0)}}, 1, 0, by decide +kernel⟩,
   ⟨bx, 2, 900, by decide +kernel⟩,
   ⟨rd [(Fld.MON0_RESET_MV 2, 1000)], 2, 1001, by decide +kernel⟩,
   ⟨bx, by decide +kernel⟩,
   ⟨{bx with toll := {bx.toll with trial := some (1,0), resetIn := some true}, critWait := true}, true, by decide +kernel⟩,
   ⟨bx, by decide +kernel⟩,
   ⟨{bx with toll := {bx.toll with trial := some (1,0), resetIn := some true}, critWait := true}, by decide +kernel⟩,
   ⟨bx, by decide +kernel⟩,
   ⟨bx, by decide +kernel⟩,
   ⟨State.reset, {stt with step := 2}, by decide +kernel⟩,
   ⟨{State.reset with toll := {State.reset.toll with rom := true}}, by decide +kernel⟩,
   ⟨stS id, {stt with dram := 3}, 6, 1, by decide +kernel⟩,
   ⟨State.reset, stt, by decide +kernel⟩,
   ⟨stS (fun t => {t with bootmode := 2}), stt, by decide +kernel⟩⟩

theorem test_meets_HostFunction :
    (∃ (s : State), (s.host.link = false ∨ s.host.d3hot = true))
    ∧ (∃ (s : State), s.host.link = true ∧ s.host.d3hot = false ∧ s.serving = true ∧ s.pinsHeld.testBit 56 = false)
    ∧ (∃ (s : State) (width : BitVec 4), trainWidth s 0 width.toNat = 0)
    ∧ (∃ (s : State) (width : BitVec 4), trainWidth s 0 width.toNat ≠ 0)
    ∧ (∃ (s : State), s.devState = devSelftest)
    ∧ (∃ (s : State), s.host.pmeStatus = true ∧ s.host.pmeEn = true ∧ hostHeld s = true)
    ∧ (∃ (s : State), (s.host.pmeStatus = false ∨ s.host.pmeEn = false ∨ hostHeld s = false)) :=
  ⟨⟨heldS, by decide +kernel⟩,
   ⟨wst (hs (fun _ => up)), by decide +kernel⟩,
   ⟨wst (hs (fun _ => up)), 0, by decide +kernel⟩,
   ⟨heldS, 8, by decide +kernel⟩,
   ⟨{(rd [(Fld.DEV_STATE_STATE, 1)]) with host := up}, by decide +kernel⟩,
   ⟨heldS, by decide +kernel⟩,
   ⟨wst (hs (fun _ => up)), by decide +kernel⟩⟩

theorem test_meets_SupplyTemperatureState :
    (∃ (s : State) (st : ℕ), st < 8 ∧ st ≠ s.devState ∧ s.devState < 8)
    ∧ (∃ (s : State) (n : Fin 10) (mv : Half) (lvl : ℕ), lvl = monLevel s (↑n) (BitVec.toNat mv) ∧ s.get (Fld.MON0_WARN_MV ↑n) ≤ lvl)
    ∧ (∃ (s : State) (n : Fin 10) (mv : Half) (lvl : ℕ), lvl = monLevel s (↑n) (BitVec.toNat mv) ∧ lvl < s.get (Fld.MON0_WARN_MV ↑n) ∧ (s.devState =
      devReady ∨ s.devState = devRun) ∧ haltDue s = false)
    ∧ (∃ (s : State) (n : Fin 10) (mv : Half) (lvl : ℕ), lvl = monLevel s (↑n) (BitVec.toNat mv) ∧ lvl < s.get (Fld.MON0_WARN_MV ↑n) ∧ s.devState ≠
      devReady ∧ s.devState ≠ devRun)
    ∧ (∃ (s : State) (n : Fin 10) (mv : Half) (lvl : ℕ), lvl = monLevel s (↑n) (BitVec.toNat mv) ∧ lvl < s.get (Fld.MON0_WARN_MV ↑n) ∧ haltDue s = true)
    ∧ (∃ (s : State), anyBelow s = false)
    ∧ (∃ (s : State), anyBelow s = true) :=
  ⟨⟨rd [(TICK,99)], 6, by decide +kernel⟩,
   ⟨rd [(TICK,99), (NOW, 77777), (Fld.MON0_WARN_MV 2, 3000), (Fld.DEV_STATE_STATE, 6)], 2, 3000, _, rfl, by decide +kernel⟩,
   ⟨rd [(TICK,99), (NOW, 77777), (Fld.MON0_WARN_MV 2, 3000)], 2, 1000, _, rfl, by decide +kernel⟩,
   ⟨{two (rd [(TICK,99), (Fld.DEV_STATE_STATE, 6)]) with dip := some ⟨1,2,3,4⟩}, 2, 1000, _, rfl, by decide +kernel⟩,
   ⟨{rd [(TICK,99), (NOW, 77777), (Fld.MON0_WARN_MV 2, 3000), (Fld.DEV_STATE_STATE, 4)] with escal := [⟨3,1,4,5⟩]}, 2, 1000, _, rfl,
     by decide +kernel⟩,
   ⟨rd [(TICK,99)], by decide +kernel⟩,
   ⟨{two (rd [(TICK,99), (Fld.DEV_STATE_STATE, 6)]) with dip := some ⟨1,2,3,4⟩}, by decide +kernel⟩⟩

theorem test_meets_FaultCollector :
    (∃ (s : State) (pin : Fin 64), s.devState ≠ devSelftest ∧ s.devState ≠ devDrydock ∧ s.get Fld.FAULT_STATUS_STATUS < 2 ^ 64 ∧ s.isSet
      Fld.FAULT_TIMER_VALID = true ∧ s.pinsHeld.testBit ↑pin = false)
    ∧ (∃ (s : State) (c : Fin 56), s.devState ≠ devSelftest ∧ s.devState ≠ devDrydock ∧ s.get Fld.FAULT_STATUS_STATUS < 2 ^ 64 ∧ s.isSet
      Fld.FAULT_TIMER_VALID = true ∧ s.pinsHeld.testBit ↑c = false)
    ∧ (∃ (s : State) (pin : Fin 64) (q : Fin 64), s.devState ≠ devSelftest ∧ s.devState ≠ devDrydock ∧ s.isSet Fld.FAULT_TIMER_VALID = false ∧
      s.pinsHeld.testBit ↑pin = false ∧ s.pinsHeld.testBit ↑q = false ∧ q < pin)
    ∧ (∃ (s : State) (pin : Fin 64), s.devState ≠ devSelftest ∧ s.devState ≠ devDrydock ∧ s.pinsHeld.testBit ↑pin = true)
    ∧ (∃ (s : State) (v : Word) (a : BitVec 26), a.toNat = Reg.FAULT_STATUS ∧ Reaches s a.toNat (v.toNat) ∧ s.toll.orderly = false)
    ∧ (∃ (s : State) (v : Word), Reaches s Reg.FAULT_ACK (v.toNat) ∧ s.isSet Fld.FAULT_TIMER_VALID = true ∧ bf (v.toNat) 0 16 = s.get
      Fld.FAULT_FIRST_TICK % 2 ^ 16)
    ∧ (∃ (s : State) (v : Word), Reaches s Reg.FAULT_ACK (v.toNat) ∧ s.isSet Fld.FAULT_TIMER_VALID = true ∧ bf (v.toNat) 0 16 ≠ s.get
      Fld.FAULT_FIRST_TICK % 2 ^ 16)
    ∧ (∃ (s : State) (v : Word), Reaches s Reg.FAULT_ACK (v.toNat) ∧ s.isSet Fld.FAULT_TIMER_VALID = false)
    ∧ (∃ (s : State), s.escal = [] ∧ s.critWait = true ∧ s.isSet Fld.PLACE_STATUS_BRACE_COMMIT = false ∧ s.toll.orderly = false)
    ∧ (∃ (s : State) (e : Escal) (rest : List Escal), s.escal = e :: rest ∧ s.toll.orderly = false ∧ e.cls = 2 ∧ s.devState ≠ devBrace)
    ∧ (∃ (s : State) (e : Escal) (rest : List Escal), s.escal = e :: rest ∧ s.toll.orderly = false ∧ e.cls = 2 ∧ s.devState = devBrace ∧ s.isSet
      Fld.PLACE_STATUS_BRACE_COMMIT = true)
    ∧ (∃ (s : State) (e : Escal) (rest : List Escal), s.escal = e :: rest ∧ s.toll.orderly = false ∧ e.cls = 1 ∧ s.serving = true)
    ∧ (∃ (s : State) (c : Fin 56) (e : Escal) (rest : List Escal), s.escal = e :: rest ∧ s.toll.orderly = false ∧ e.cls = 0 ∧ s.serving = true ∧ e.pin =
      ↑c ∧ chState s ↑c = chEnabled ∧ s.isSet Fld.FAULT_CTRL_AUTO_RESEAT = false)
    ∧ (∃ (s : State) (n : Fin 4) (e : Escal) (rest : List Escal), s.escal = e :: rest ∧ s.toll.orderly = false ∧ e.cls = 0 ∧ s.serving = true ∧ e.pin =
      59 ∧ e.code = 16 + ↑n ∧ drvState s ↑n = drvFailed)
    ∧ (∃ (s : State) (n : Fin 4) (e : Escal) (rest : List Escal), s.escal = e :: rest ∧ s.toll.orderly = false ∧ e.cls = 0 ∧ s.serving = true ∧ e.pin =
      59 ∧ e.code = 16 + ↑n ∧ drvState s ↑n ≠ drvFailed ∧ drvState s ↑n ≠ drvAbsent) :=
  ⟨⟨rd [(Fld.FAULT_TIMER_VALID, 1), (Fld.FAULT_STATUS_STATUS, 7)], 40, by decide +kernel⟩,
   ⟨rd [(Fld.FAULT_TIMER_VALID, 1), (Fld.FAULT_STATUS_STATUS, 7)], 5, by decide +kernel⟩,
   ⟨rd [], PT, 7, by decide +kernel⟩,
   ⟨{rd [] with pinsHeld := 2 ^ 40}, PT, by decide +kernel⟩,
   ⟨{rd [(Fld.FAULT_STATUS_STATUS, 7)] with pinsHeld := 2}, 6, BitVec.ofNat 26 Reg.FAULT_STATUS, by unfold Reaches PageAt; decide +kernel⟩,
   ⟨rd [(Fld.FAULT_TIMER_VALID, 1),(Fld.FAULT_FIRST_TICK, 0x12345)], 0x2345, by unfold Reaches PageAt; decide +kernel⟩,
   ⟨rd [(Fld.FAULT_TIMER_VALID, 1),(Fld.FAULT_FIRST_TICK, 0x12345)], 0x2346, by unfold Reaches PageAt; decide +kernel⟩,
   ⟨rd [(Fld.FAULT_STATUS_STATUS, 7)], 0, by unfold Reaches PageAt; decide +kernel⟩,
   ⟨{rd [] with critWait := true}, by decide +kernel⟩,
   ⟨{rd [] with escal := [⟨3, 2, 5, 9⟩]}, ⟨3, 2, 5, 9⟩, [], by decide +kernel⟩,
   ⟨{rd [(Fld.DEV_STATE_STATE, 5), (Fld.PLACE_STATUS_BRACE_COMMIT, 1)] with escal := [⟨3, 2, 5, 9⟩]}, ⟨3, 2, 5, 9⟩, [], by decide +kernel⟩,
   ⟨esS 4 ⟨3, 1, 5, 9⟩ [], ⟨3, 1, 5, 9⟩, [], by decide +kernel⟩,
   ⟨esS 4 eMin [(Fld.CHAN_STATE_STATE 5, 1), (Fld.FAULT_CTRL_AUTO_RESEAT, 0)], C, eMin, [], by decide +kernel⟩,
   ⟨(esS 4 ed [(Fld.DRIVE_STATE_STATE 2, 6)]).modDrive 2 (fun d => {d with perst := true}), 2, ed, [], by decide +kernel⟩,
   ⟨esS 4 ed [(Fld.DRIVE_STATE_STATE 2, 5)], 2, ed, [], by decide +kernel⟩⟩

end Time

namespace Supply

def up : HostFn := {State.reset.host with link := true, bme := true, msixEn := true}
def heldS : State := { (rd [(Fld.SRC_SENSE 300, 1), (Fld.SRC_TARGET 300, 3),(Fld.SRC_PRIO 300, 2)]) with host := {up with d3hot := true, pmeEn := true, pmeStatus := true, pmeOn := true}, ic := {ready.ic with latch := [300]}}
def ring (n : Nat) : List (Fld × Nat) := [(Fld.CR_CFG_EN n, 1)]
abbrev wv (en sz cr : Nat) : Word := BitVec.ofNat 64 (en + sz * 16 + cr * 2^40 + 8 * 2^16)
abbrev cv (en sz : Nat) : Word := BitVec.ofNat 64 (en + sz * 16)
def hd (t h : Nat) : State := rd (ring 4 ++ [(Fld.CR_TAIL_TAIL 4, t),(Fld.CR_HEAD_HEAD 4, h),(Fld.CR_CFG_SIZE_LOG2 4, 8)])

theorem test_meets_TickEdges :
    ∃ (s : State), s.devState = devDrydock ∧ s.pages = [] ∧ s.tb.sched = none ∧ s.tb.cfg = none ∧ s.tick + 1 < 2 ^ 48 ∧ s.now ≤ nextGrid s ∧ nextGrid
      s < 2 ^ 64 ∧ List.filter (fun kv => kv.1 % (4096 * 64) == 64 * 64 + 3 && kv.2 == 1) s.fld = [] :=
  ⟨(rd [(Fld.DEV_STATE_STATE, 2)]), by decide +kernel⟩

theorem test_meets_QueuesAndRings :
    (∃ (s : State) (n : Fin 256) (v : Word) (w : ℕ), w = withField (v.toNat) (Fld.WQ_CFG_EN ↑n) 1 ∧ bit w 0 = true ∧ Reaches s (Reg.WQ_CFG ↑n) w ∧
      s.isSet (Fld.WQ_CFG_EN ↑n) = false ∧ wqCfgRange w = true ∧ (bf w 40 8 = 255 ∨ s.isSet (Fld.CR_CFG_EN (bf w 40 8)) = true))
    ∧ (∃ (s : State) (n : Fin 256) (v : Word) (w : ℕ), w = withField (v.toNat) (Fld.WQ_CFG_EN ↑n) 0 ∧ bit w 0 = false ∧ Reaches s (Reg.WQ_CFG ↑n) w ∧
      s.isSet (Fld.WQ_CFG_EN ↑n) = true ∧ wqCfgRange w = true)
    ∧ (∃ (s : State) (r : Fin 64) (v : Word) (w : ℕ), w = withField (v.toNat) (Fld.CR_CFG_EN ↑r) 1 ∧ bit w 0 = true ∧ Reaches s (Reg.CR_CFG ↑r) w ∧
      s.isSet (Fld.CR_CFG_EN ↑r) = false ∧ crCfgRange w = true)
    ∧ (∃ (s : State) (r : Fin 64) (v : Word) (w : ℕ), w = withField (v.toNat) (Fld.CR_CFG_EN ↑r) 0 ∧ bit w 0 = false ∧ Reaches s (Reg.CR_CFG ↑r) w ∧
      s.isSet (Fld.CR_CFG_EN ↑r) = true ∧ crCfgRange w = true ∧ crNamed s ↑r = false)
    ∧ (∃ (s : State) (r : Fin 64) (v : Word), Reaches s (Reg.CR_HEAD ↑r) (v.toNat) ∧ (s.get (Fld.CR_TAIL_TAIL ↑r) + 2 ^ 32 - bf (v.toNat) 0 32) % 2 ^ 32
      ≤ (s.get (Fld.CR_TAIL_TAIL ↑r) + 2 ^ 32 - s.get (Fld.CR_HEAD_HEAD ↑r)) % 2 ^ 32 ∧ s.get (Fld.CR_TAIL_GAP_PENDING ↑r) = 0)
    ∧ (∃ (s : State) (r : Fin 64) (v : Word), Reaches s (Reg.CR_HEAD ↑r) (v.toNat) ∧ (s.get (Fld.CR_TAIL_TAIL ↑r) + 2 ^ 32 - bf (v.toNat) 0 32) % 2 ^ 32
      ≤ (s.get (Fld.CR_TAIL_TAIL ↑r) + 2 ^ 32 - s.get (Fld.CR_HEAD_HEAD ↑r)) % 2 ^ 32 ∧ (s.get (Fld.CR_TAIL_TAIL ↑r) + 2 ^ 32 - bf (v.toNat) 0 32)
      % 2 ^ 32 < crSize s ↑r ∧ s.isSet (Fld.CR_TAIL_GAP_PENDING ↑r) = true)
    ∧ (∃ (s : State) (r : Fin 64) (v : Word), Reaches s (Reg.CR_HEAD ↑r) (v.toNat) ∧ (s.get (Fld.CR_TAIL_TAIL ↑r) + 2 ^ 32 - s.get (Fld.CR_HEAD_HEAD
      ↑r)) % 2 ^ 32 < (s.get (Fld.CR_TAIL_TAIL ↑r) + 2 ^ 32 - bf (v.toNat) 0 32) % 2 ^ 32) :=
  ⟨⟨rd (ring 3), 9, wv 0 5 3, _, rfl, by unfold Reaches PageAt; decide +kernel⟩,
   ⟨{rd (ring 3 ++ [(Fld.WQ_CFG_EN 9, 1)]) with polls := [⟨9,0,1⟩,⟨8,0,2⟩]}, 9, wv 1 5 3, _, rfl, by unfold Reaches PageAt; decide +kernel⟩,
   ⟨rd ([]), 4, cv 0 8, _, rfl, by unfold Reaches PageAt; decide +kernel⟩,
   ⟨rd (ring 4), 4, cv 0 8, _, rfl, by unfold Reaches PageAt; decide +kernel⟩,
   ⟨hd 7 3, 4, 6, by unfold Reaches PageAt; decide +kernel⟩,
   ⟨(hd 2 0xFFFFFFFE).put (Fld.CR_TAIL_GAP_PENDING 4) 1, 4, 1, by unfold Reaches PageAt; decide +kernel⟩,
   ⟨hd 7 3, 4, 9, by unfold Reaches PageAt; decide +kernel⟩⟩

end Supply

namespace Queues

def up : HostFn := {State.reset.host with link := true, bme := true, msixEn := true}
def pol (l : List (Fld × Nat)) : State := {rd ([(Fld.WQ_CFG_EN 9, 1), (Fld.WQ_CFG_SIZE_LOG2 9, 5), (Fld.WQ_CFG_PREFETCH_DEPTH 9, 7), (Fld.WQ_BASE_ADDR 9, 0x1000)] ++ l) with host := up}
def q1 : WorkEntry := { mkE 1 5 [(24,8,0),(32,2,5)] with src := .queue, wq := 9 }
def ar : State := {pol [] with accepted := [q1, q1], arb := ⟨List.replicate 256 1, List.replicate 256 3, 0, 0⟩}
def fs : WorkEntry := {mkE opFirmwareStage 0xFF [(24,8,2^63+0x1000),(32,4,8192)] with stage := .running, total := 2}
def fs2 : WorkEntry := {mkE opFirmwareStage 0xFF [(24,8,0x1000),(32,4,8192)] with stage := .running, total := 2}
def en (l : List (Fld × Nat)) : State := rd ([(Fld.CHAN_STATE_STATE 5, 1)] ++ l)
abbrev R := "RouteEntries"
def rs (n : Nat) : WorkEntry := mkE opRouteStart 5 [(24,8,0x4000),(32,2,n)]
def rr : WorkEntry := mkE opRouteResume 5 []
def ru : WorkEntry := mkE opRouteSuspend 5 []
def rh : WorkEntry := mkE opRouteHalt 5 []
def oWaitO := mkO oWait 0 5 0 0
def oStopO := mkO oStop 0 0 0 0
def ordB (o : Order) : List Byte := leBytes 8 o.w0.toNat ++ leBytes 8 o.w1.toNat ++ leBytes 8 o.w2.toNat ++ leBytes 8 o.w3.toNat
def rou (os : List Order) (l : List (Fld × Nat)) : State := ((en ([(Fld.ROUTE_ADDR_ADDR 5, 0x4000), (Fld.ROUTE_INFO_ORDER_LIMIT 5, 2)] ++ l)).dramWrite 0x4000 (os.map ordB).flatten)
def adm (r : Bool) (j : Nat) : State := modSeq (cq (rou [oWaitO, oStopO] [(Fld.ROUTE_STATE_STATE 5, 1)]) {rs 2 with stage := .running}) C (fun q => {q with admission := some ⟨r, j⟩})
def ft (h : Half) (due : Bool) : State := modSeq (rou [oWaitO, oStopO] [(Fld.ROUTE_STATE_STATE 5, 2)]) C (fun q => {q with fetch := .wait 1, pc := 1, due := due, hashes := [(0, oWaitO.hash), (1, h)], used := 64})
def psx : ExecOrder := ex 3 (mkO oStop 0x10 0 0 0) none (some (1,7))
def polI : State := {pol [(NOW, 5000),(Fld.WQ_CFG_POLL_INTERVAL 9, 3)] with wqPolled := [(9, 4000)]}
def arN : State := {pol [(Fld.WQ_ARB_WEIGHT 9, 2), (Fld.WQ_ARB_BURST 9, 2)] with accepted := [q1, q1], arb := ⟨[], [], 9, 0⟩}
def qB : WorkEntry := { mkE opStreamClose 0xFF [(24,1,3)] with src := .queue, wq := 9 }
def arB : State := {pol [] with accepted := [qB], arb := ⟨List.replicate 256 1, List.replicate 256 3, 0, 0⟩}
def wb : List Byte := setB q1.bytes 0 1 0x80
def fq (l : List Nat) : WorkEntry := {mkE opFence 0xFF [] with stage := .running, src := .queue, waits := l, waited := l.length}
def bqs (s : State) (l : List WorkEntry) : State := {s with basinq := l}
def sn2 : WorkEntry := {mkE opSnapshot 0xFF [(24,6,7),(32,4,2),(40,8,0x4000),(48,4,0x10000)] with stage := .running, total := 3, data := List.replicate 100 5}
def cw2 : WorkEntry := {mkE opConfigWrite 0xFF [(24,8,0x4000),(32,4,100)] with stage := .running, total := 1}
def badE : List Byte := setB wb 1 1 0xEE

theorem test_meets_PollingAndDispatch :
    (∃ (s : State) (n : Fin 256) (t : State) (k : ℕ), k = wqWindow s ↑n ∧ wqPolls s ↑n = true ∧ (↑n ∈ s.wqAgain ∧ t = s ∨ ↑n ∉ s.wqAgain ∧ s.isSet
      (Fld.WQ_CFG_POLL_TICK ↑n) = false ∧ s.canReach (wqPollTime s ↑n) = true ∧ t = s.advanceTo (wqPollTime s ↑n)) ∧ 0 < k)
    ∧ (∃ (s : State) (n : Fin 256) (t : State) (k : ℕ), wqPolls s ↑n = true ∧ (↑n ∈ s.wqAgain ∧ t = s ∨ ↑n ∉ s.wqAgain ∧ s.isSet (Fld.WQ_CFG_POLL_TICK
      ↑n) = false ∧ s.canReach (wqPollTime s ↑n) = true ∧ t = s.advanceTo (wqPollTime s ↑n)) ∧ k = wqWindow s ↑n ∧ k = 0)
    ∧ (∃ (s : State) (n : Fin 256), (wqPolls s ↑n = false ∨ ↑n ∉ s.wqAgain ∧ (s.isSet (Fld.WQ_CFG_POLL_TICK ↑n) = true ∨ s.canReach (wqPollTime s ↑n) =
      false)))
    ∧ (∃ (s : State) (n : Fin 256) (p : Poll) (b : List Byte), List.find? (fun p_1 => p_1.wq == ↑n) s.polls = some p ∧ b.length = 64 * p.count ∧
      s.toll.orderly = false ∧ 0 < p.count ∧ p.count < 2 ^ 32 ∧ p.first < 2 ^ 32 ∧ s.get (Fld.WQ_CONS_CONS ↑n) = p.first ∧ leAt b 0 1 / 128 ≠
      phaseOf (wqSize s ↑n) p.first)
    ∧ (∃ (s : State) (n : Fin 256) (p : Poll) (b : List Byte), List.find? (fun p_1 => p_1.wq == ↑n) s.polls = some p ∧ b.length = 64 * p.count ∧
      s.toll.orderly = false ∧ p.count = 1 ∧ p.first < 2 ^ 32 ∧ leAt b 0 1 / 128 = phaseOf (wqSize s ↑n) p.first ∧ malformed b (s.isSet
      (Fld.WQ_CFG_CHK ↑n)) = (0, 0))
    ∧ (∃ (s : State) (n : Fin 256) (size : ℕ) (i : ℕ) (b : List Byte) (r : ℕ) (y : ℕ), leAt b 0 1 / 128 = phaseOf size i ∧ malformed b (s.isSet
      (Fld.WQ_CFG_CHK ↑n)) = (r, y) ∧ r ≠ 0 ∧ r < 16 ∧ y < 64 ∧ s.serving = true)
    ∧ (∃ (b : List Byte), opOperands (leAt b 1 1) = none)
    ∧ (∃ (s : State) (w : State) (a : Arbiter) (k : ℕ) (left : ℕ) (e : WorkEntry), w = arbSettle s ∧ s.serving = true ∧ s.hostOk = true ∧ (arbPick w
      w.arb = some (k, left) ∧ a = w.arb ∨ arbPick w w.arb = none ∧ roundOpen w = false ∧ a = newRound w ∧ arbPick w a = some (k, left)) ∧ wqHead
      w k = some e)
    ∧ (∃ (s : State), (s.serving = false ∨ s.hostOk = false))
    ∧ (∃ (s : State) (serial : ℕ) (e : WorkEntry), basinEntry s serial opFence = some e ∧ e.stage = EntryStage.running ∧ (∀ w ∈ e.waits, ∀ x ∈
      dispatched s, x.serial ≠ w) ∧ e.src = EntrySrc.queue ∧ e.chan = 255 ∧ e.ring = 255 ∧ s.hostOk = true ∧ s.host.held = [])
    ∧ (∃ (s : State) (serial : ℕ) (e : WorkEntry), basinEntry s serial opFence = some e ∧ e.stage = EntryStage.running ∧ (∃ w ∈ e.waits, ∃ x ∈
      dispatched s, x.serial = w))
    ∧ (∃ (s : State) (serial : ℕ), List.find? (fun e => e.serial == serial && decide (e.stage = EntryStage.running) && opLong e.opcode) (dispatched s) =
      none ∧ s.toll.orderly = false)
    ∧ (∃ (s : State) (data : HostRd) (serial : ℕ) (e : WorkEntry), List.find? (fun e_1 => e_1.serial == serial && decide (e_1.stage =
      EntryStage.running) && opLong e_1.opcode) (dispatched s) = some e ∧ s.toll.orderly = false ∧ (∀ x ∈ dispatched s, x.serial = serial → x.last
      = false) ∧ e.opcode = opFirmwareStage ∧ longMay s e (e.arg 24 8) = true ∧ operandRead s (e.arg 24 8 + e.done * 4096) (min 4096 (e.arg 32 4 -
      e.done * 4096)) data = none)
    ∧ (∃ (s : State) (data : HostRd) (serial : ℕ) (e : WorkEntry) (bs : List Byte), List.find? (fun e_1 => e_1.serial == serial && decide (e_1.stage =
      EntryStage.running) && opLong e_1.opcode) (dispatched s) = some e ∧ s.toll.orderly = false ∧ (∀ x ∈ dispatched s, x.serial = serial → x.last
      = false) ∧ e.opcode = opFirmwareStage ∧ longMay s e (e.arg 24 8) = true ∧ operandRead s (e.arg 24 8 + e.done * 4096) (min 4096 (e.arg 32 4 -
      e.done * 4096)) data = some bs ∧ e.done + 1 < e.total)
    ∧ (∃ (s : State) (serial : ℕ) (e : WorkEntry), List.find? (fun e_1 => e_1.serial == serial && decide (e_1.stage = EntryStage.running) && opLong
      e_1.opcode) (dispatched s) = some e ∧ s.toll.orderly = false ∧ (∀ x ∈ dispatched s, x.serial = serial → x.last = false) ∧ e.opcode =
      opSnapshot ∧ longMay s e (e.arg 40 8) = true ∧ e.done + 1 < e.total)
    ∧ (∃ (s : State) (data : HostRd) (serial : ℕ) (e : WorkEntry) (bs : List Byte), List.find? (fun e_1 => e_1.serial == serial && decide (e_1.stage =
      EntryStage.running) && opLong e_1.opcode) (dispatched s) = some e ∧ s.toll.orderly = false ∧ (∀ x ∈ dispatched s, x.serial = serial → x.last
      = false) ∧ e.opcode = opConfigWrite ∧ e.chan = 255 ∧ longMay s e (e.arg 24 8) = true ∧ e.done = 0 ∧ e.total = 1 ∧ e.arg 32 4 ≤ 4096 ∧
      operandRead s (e.arg 24 8) (e.arg 32 4) data = some bs) :=
  ⟨⟨{pol [] with wqAgain := [3,9]}, 9, {pol [] with wqAgain := [3,9]}, _, rfl, by decide +kernel⟩,
   ⟨{pol [] with accepted := List.replicate 8 q1, wqAgain := [9]}, 9, {pol [] with accepted := List.replicate 8 q1, wqAgain := [9]}, 0,
     by decide +kernel⟩,
   ⟨polI, 9, by decide +kernel⟩,
   ⟨{pol [] with polls := [⟨8,0,1⟩, ⟨9,0,2⟩]}, 9, ⟨9,0,2⟩, zeros 128, by decide +kernel⟩,
   ⟨{pol [] with polls := [⟨9,0,1⟩]}, 9, ⟨9,0,1⟩, wb, by decide +kernel⟩,
   ⟨pol [], 9, 32, 0, badE, 1, 1, by decide +kernel⟩,
   ⟨badE, by decide +kernel⟩,
   ⟨ar, _, (arbSettle ar).arb, 9, 3, q1, rfl, by decide +kernel⟩,
   ⟨bq ready {mkE opFence 0xFF [] with stage := .running}, by decide +kernel⟩,
   ⟨bqs (pol []) [fq [3, 4]], 11, fq [3, 4], by decide +kernel⟩,
   ⟨bqs (pol []) [fq [3, 4], {qB with serial := 4}], 11, fq [3, 4], by decide +kernel⟩,
   ⟨bqs (pol []) [], 11, by decide +kernel⟩,
   ⟨bq (pol []) fs, .fail, 11, fs, by decide +kernel⟩,
   ⟨{pol [] with basinq := [fs2], dram := [(0x1001, 7)]}, .fail, 11, fs2,
     (operandRead ({pol [] with basinq := [fs2], dram := [(0x1001, 7)]}) (fs2.arg 24 8 + fs2.done * 4096) (min 4096 (fs2.arg 32 4 - fs2.done * 4096)) .fail).getD [],
     by decide +kernel, by decide +kernel, by decide +kernel, by decide +kernel, by decide +kernel, someGetD (by decide +kernel), by decide +kernel⟩,
   ⟨bqs (pol []) [sn2], 11, sn2, by decide +kernel⟩,
   ⟨(bqs (pol []) [cw2]).modToll (fun t => {t with cfgBusy := true}), .fail, 11, cw2,
     (operandRead ((bqs (pol []) [cw2]).modToll (fun t => {t with cfgBusy := true})) (cw2.arg 24 8) (cw2.arg 32 4) .fail).getD [],
     by decide +kernel, by decide +kernel, by decide +kernel, by decide +kernel, by decide +kernel, by decide +kernel, by decide +kernel, by decide +kernel, by decide +kernel, someGetD (by decide +kernel)⟩⟩

theorem test_meets_RouteEntries :
    (∃ (s : State) (c : Fin 56) (e : WorkEntry), Heads s c opRouteStart e ∧ (e.arg 32 2 = 0 ∨ 1024 < e.arg 32 2))
    ∧ (∃ (s : State) (c : Fin 56) (e : WorkEntry), Heads s c opRouteStart e ∧ 1 ≤ e.arg 32 2 ∧ e.arg 32 2 ≤ 1024 ∧ routeAddrOk s (e.arg 24 8) (e.arg 32
      2) = true ∧ chState s ↑c ≠ chAbsent ∧ rtState s ↑c = rtIdle ∧ mayAdmit s ↑c = true)
    ∧ (∃ (s : State) (c : Fin 56) (e : WorkEntry), Heads s c opRouteResume e ∧ rtState s ↑c = rtSuspended ∧ chState s ↑c ≠ chAbsent ∧ mayAdmit s ↑c =
      true)
    ∧ (∃ (s : State) (c : Fin 56) (e : WorkEntry), Heads s c opRouteSuspend e ∧ chState s ↑c ≠ chAbsent ∧ rtState s ↑c = rtSuspended)
    ∧ (∃ (s : State) (c : Fin 56) (e : WorkEntry), Heads s c opRouteSuspend e ∧ chState s ↑c ≠ chAbsent ∧ (rtState s ↑c = rtRun ∨ rtState s ↑c = rtWait)
      ∧ (s.sq c).exec = none)
    ∧ (∃ (s : State) (c : Fin 56) (e : WorkEntry), Heads s c opRouteHalt e ∧ chState s ↑c ≠ chAbsent ∧ (rtState s ↑c = rtRun ∨ rtState s ↑c = rtWait) ∧
      (s.sq c).exec = none)
    ∧ (∃ (s : State) (c : Fin 56) (e : WorkEntry), Heads s c opRouteHalt e ∧ chState s ↑c ≠ chAbsent ∧ rtState s ↑c = rtSuspended) :=
  ⟨⟨cq (en []) (rs 0), C, rs 0, by unfold Heads; decide +kernel⟩,
   ⟨cq (en []) (rs 1), C, rs 1, by unfold Heads; decide +kernel⟩,
   ⟨cq (en [(Fld.ROUTE_STATE_STATE 5, 4),(Fld.ROUTE_STATE_ORDER 5, 77)]) rr, C, rr, by unfold Heads; decide +kernel⟩,
   ⟨cq (en [(Fld.ROUTE_STATE_STATE 5, 4),(Fld.ROUTE_STATE_ORDER 5, 77)]) ru, C, ru, by unfold Heads; decide +kernel⟩,
   ⟨cq (en [(Fld.ROUTE_STATE_STATE 5, 2),(Fld.ROUTE_STATE_ORDER 5, 77)]) ru, C, ru, by unfold Heads; decide +kernel⟩,
   ⟨cq (en [(Fld.ROUTE_STATE_STATE 5, 2),(Fld.ROUTE_STATE_ORDER 5, 77)]) rh, C, rh, by unfold Heads; decide +kernel⟩,
   ⟨cq (en [(Fld.ROUTE_STATE_STATE 5, 4),(Fld.ROUTE_STATE_ORDER 5, 77),(Fld.ROUTE_STATE_RESIDUAL 5, 66)]) rh, C, rh, by unfold Heads; decide +kernel⟩⟩

theorem test_meets_AdmissionAndFetch :
    (∃ (s : State) (c : Fin 56) (orders : List (ℕ × HostRd)) (a : Admission) (v : Verdict), v = checkRoute s c (routeHost s ↑c) (fun i => fetchOrder s
      (↑c) i ((Option.map (fun x => x.2) (List.find? (fun p => p.1 == i) orders)).getD HostRd.fail)) (s.get (Fld.ROUTE_INFO_ORDER_LIMIT ↑c))
      a.start ∧ (s.sq c).admission = some a ∧ v.reason = 0)
    ∧ (∃ (s : State) (c : Fin 56) (orders : List (ℕ × HostRd)) (a : Admission) (v : Verdict), v = checkRoute s c (routeHost s ↑c) (fun i => fetchOrder s
      (↑c) i ((Option.map (fun x => x.2) (List.find? (fun p => p.1 == i) orders)).getD HostRd.fail)) (s.get (Fld.ROUTE_INFO_ORDER_LIMIT ↑c))
      a.start ∧ (s.sq c).admission = some a ∧ v.reason ≠ 0)
    ∧ (∃ (s : State) (c : Fin 56) (j : ℕ) (o : Order), o = Machine.orderOf (s.dramRead (orderAt s (↑c) j) 32) ∧ (s.sq c).fetch = Fetch.wait j ∧ (s.sq
      c).due = false ∧ (s.sq c).chainHead = none ∧ routeHost s ↑c = false ∧ s.poisoned 0 (orderAt s (↑c) j) 32 = false ∧ SMap.get 0 (List.map (fun
      p => (p.1, p.2.toNat)) (s.sq c).hashes) j = BitVec.toNat o.hash ∧ o.chains = false)
    ∧ (∃ (s : State) (c : Fin 56) (j : ℕ) (o : Order), o = Machine.orderOf (s.dramRead (orderAt s (↑c) j) 32) ∧ (s.sq c).fetch = Fetch.wait j ∧ (s.sq
      c).due = false ∧ (s.sq c).chainHead = none ∧ routeHost s ↑c = false ∧ s.poisoned 0 (orderAt s (↑c) j) 32 = false ∧ SMap.get 0 (List.map (fun
      p => (p.1, p.2.toNat)) (s.sq c).hashes) j ≠ BitVec.toNat o.hash)
    ∧ (∃ (s : State) (c : Fin 56) (j : ℕ), (s.sq c).fetch = Fetch.wait j ∧ (s.sq c).due = false ∧ (s.sq c).chainHead = none ∧ routeHost s ↑c = false ∧
      s.poisoned 0 (orderAt s (↑c) j) 32 = true)
    ∧ (∃ (s : State) (c : Fin 56) (j : ℕ), (s.sq c).fetch = Fetch.wait j ∧ (s.sq c).due = true ∧ j < 1024)
    ∧ (∃ (s : State) (c : Fin 56) (e : ExecOrder) (st : ℕ) (res : ℕ), (s.sq c).exec = some e ∧ e.result = some (st, res) ∧ e.order.ps = true ∧ e.next =
      none ∧ e.idx < 1024 ∧ res < 65536) :=
  ⟨⟨adm false 0, C, default, ⟨false, 0⟩, _, rfl, by decide +kernel⟩,
   ⟨(adm false 0).dramWrite 0x4000 [0x0E], C, default, ⟨false, 0⟩, _, rfl, by decide +kernel⟩,
   ⟨ft oStopO.hash false, C, 1, _, rfl, by decide +kernel⟩,
   ⟨ft 7 false, C, 1, _, rfl, by decide +kernel⟩,
   ⟨{ft 7 false with poison := [0x4028/8]}, C, 1, by decide +kernel⟩,
   ⟨ft 7 true, C, 1, by decide +kernel⟩,
   ⟨modSeq (rou [oWaitO, oStopO] [(Fld.ROUTE_STATE_STATE 5, 2)]) C (fun q => {q with exec := some psx, pc := 3}), C, psx, 1, 7, by decide +kernel⟩⟩

end Queues

namespace Orders

def en (l : List (Fld × Nat)) : State := rd ([(Fld.CHAN_STATE_STATE 5, 1), (Fld.ROUTE_STATE_STATE 5, 2), (Fld.ROUTE_ADDR_ADDR 5, 0x4000), (Fld.ROUTE_INFO_ORDER_LIMIT 5, 100),(NOW, 123456),(TICK, 88)] ++ l)
def dq (o : Order) (i : Nat) (l : List (Fld × Nat)) (f : Seq → Seq) : State := modSeq (en l) C (fun q => f {q with fetch := .ready i o, due := true, pc := i, prev := (0,0)})
def co (o : Order) (l : List (Fld × Nat)) (f : Seq → Seq) : State := dq o 3 l f
def oj := mkO oJump 0 (77 * 2^16) 0 0
def os := mkO oStop 0 0 0 0
def sk (cnt cond : Nat) := mkO oSkipif 0 (cnt + cond * 2^16) 0 0
def lo (cnt : Nat) := mkO oLoop 0 (cnt + 1 * 2^16) 0 0
def wt := mkO oWait 0 4 0 0
def ck := mkO oCall 0 (9 + (2 + 0x1234*256) * 2^16) 0x5555 0x6666
def pb (x : Nat) := mkO oPublish 0 (x * 2^16) 0 0
def mk_ := mkO oMark 0 (0xABCD0012 * 2^16) 0 0x99
def rcv (n : Nat) := mkO oReceive 0 n 0x9000 0
def it (n : Nat) : Rec := ⟨5, 1, 5, 0, 0, List.replicate n 0x77⟩
def fifo (s : State) (f : Fifos → Fifos) : State := s.modFifos C f
def modeU : List (Fld × Nat) := [(Fld.BE_MODE_MODE 5, 5), (Fld.BE_STATUS_ENGINE 5, 1), (Fld.BE_MODE_RXPATH 5, 1)]
def tx (n : Nat) := mkO oTransmit 0 n 0x9000 0
def txi (k n : Nat) : List Byte := padTo 8 (leBytes 2 n ++ leBytes 1 k ++ zeros 13 ++ List.replicate n 0x41)
def txs (o : Order) (l : List Byte) (m : List (Fld × Nat)) : State := (dq o 3 m id).dramWrite 0x9000 l
def exo (n : Nat) := mkO oExchange 0 n 0x9000 0xA000
def dq50 (o : Order) (i : Nat) (l : List (Fld × Nat)) (f : Seq → Seq) : State := modSeq (rd ([(Fld.CHAN_STATE_STATE 50, 1), (Fld.ROUTE_STATE_STATE 50, 2), (Fld.ROUTE_ADDR_ADDR 50, 0x4000), (Fld.ROUTE_INFO_ORDER_LIMIT 50, 100),(NOW, 123456),(TICK, 88)] ++ l)) 50 (fun q => f {q with fetch := .ready i o, due := true, pc := i, prev := (0,0)})
def psx (fl : Nat) (nx : Option Nat) (st r : Nat) : ExecOrder := ex 3 (mkO oWait fl 0 0 0) nx (some (st,r))
def oe (e : ExecOrder) (f : Seq → Seq) : State := modSeq (en []) C (fun q => f {q with exec := some e, pc := 3, runs := [(3, 18)]})
def tmx : ExecOrder := {ex 3 (mkO oReceive 0 (100 + 5*2^16) 0x9000 0) none none with edges := 6, count := 40}
def ojs := mkO oJump 8 (77 * 2^16) 0 0

theorem test_meets_ControlOrders :
    (∃ (s : State) (c : Fin 56) (i : ℕ) (o : Order), DueAt s c i o ∧ Plain o ∧ (s.sq c).chainBuf = [] ∧ o.op = oJump)
    ∧ (∃ (s : State) (c : Fin 56) (i : ℕ) (o : Order), DueAt s c i o ∧ Plain o ∧ (s.sq c).chainBuf = [] ∧ o.op = oStop)
    ∧ (∃ (s : State) (c : Fin 56) (i : ℕ) (o : Order), DueAt s c i o ∧ Plain o ∧ (s.sq c).chainBuf = [] ∧ o.op = oSkipif)
    ∧ (∃ (s : State) (c : Fin 56) (i : ℕ) (o : Order), DueAt s c i o ∧ Plain o ∧ (s.sq c).chainBuf = [] ∧ o.op = oLoop ∧ 1 < o.count ∧ SMap.get 0 (s.sq
      c).loops i = 0)
    ∧ (∃ (s : State) (c : Fin 56) (i : ℕ) (o : Order), DueAt s c i o ∧ Plain o ∧ (s.sq c).chainBuf = [] ∧ o.op = oLoop ∧ SMap.get 0 (s.sq c).loops i =
      1)
    ∧ (∃ (s : State) (c : Fin 56) (i : ℕ) (o : Order), DueAt s c i o ∧ Plain o ∧ (s.sq c).chainBuf = [] ∧ o.op = oWait)
    ∧ (∃ (s : State) (c : Fin 56) (i : ℕ) (o : Order) (t : Fin 8), DueAt s c i o ∧ Plain o ∧ (s.sq c).chainBuf = [] ∧ o.op = oCall ∧ ↑t = o.param % 8 ∧
      (s.th c t).st ≠ ThState.stopped ∧ (s.th c t).st ≠ ThState.halted)
    ∧ (∃ (s : State) (c : Fin 56) (i : ℕ) (o : Order) (t : Fin 8), DueAt s c i o ∧ Plain o ∧ (s.sq c).chainBuf = [] ∧ o.op = oCall ∧ ↑t = o.param % 8 ∧
      ((s.th c t).st = ThState.stopped ∨ (s.th c t).st = ThState.halted))
    ∧ (∃ (s : State) (c : Fin 56) (i : ℕ) (o : Order), DueAt s c i o ∧ Plain o ∧ (s.sq c).chainBuf = [] ∧ o.op = oPublish ∧ bit o.param 8 = true)
    ∧ (∃ (s : State) (c : Fin 56) (i : ℕ) (o : Order), DueAt s c i o ∧ Plain o ∧ (s.sq c).chainBuf = [] ∧ o.op = oPublish ∧ bit o.param 8 = false ∧
      strmState s (bf o.param 0 8) = strmOpen)
    ∧ (∃ (s : State) (c : Fin 56) (i : ℕ) (o : Order), DueAt s c i o ∧ Plain o ∧ (s.sq c).chainBuf = [] ∧ o.op = oPublish ∧ bit o.param 8 = false ∧
      strmState s (bf o.param 0 8) ≠ strmOpen)
    ∧ (∃ (s : State) (c : Fin 56) (i : ℕ) (o : Order), DueAt s c i o ∧ Plain o ∧ (s.sq c).chainBuf = [] ∧ o.op = oMark) :=
  ⟨⟨dq oj 3 [] id, C, 3, oj, by unfold DueAt Plain; decide +kernel⟩,
   ⟨dq os 3 [] id, C, 3, os, by unfold DueAt Plain; decide +kernel⟩,
   ⟨dq (sk 4 0) 3 [] id, C, 3, sk 4 0, by unfold DueAt Plain; decide +kernel⟩,
   ⟨dq (lo 4) 3 [] id, C, 3, lo 4, by unfold DueAt Plain; decide +kernel⟩,
   ⟨dq (lo 4) 3 [] (fun q => {q with loops := [(3,1)]}), C, 3, lo 4, by unfold DueAt Plain; decide +kernel⟩,
   ⟨dq wt 3 [] id, C, 3, wt, by unfold DueAt Plain; decide +kernel⟩,
   ⟨(dq ck 3 [] id).modTh C T (fun t => {t with st := .run}), C, 3, ck, T, by unfold DueAt Plain; decide +kernel⟩,
   ⟨dq ck 3 [] id, C, 3, ck, T, by unfold DueAt Plain; decide +kernel⟩,
   ⟨(dq (pb 0x100) 3 [] id).modCh C (fun c => {c with chamber := {c.chamber with bind := some 4}}), C, 3, pb 0x100,
     by unfold DueAt Plain; decide +kernel⟩,
   ⟨dq (pb 7) 3 [(Fld.STRM_STATE_STATE 7, 1)] id, C, 3, pb 7, by unfold DueAt Plain; decide +kernel⟩,
   ⟨dq (pb 7) 3 [] id, C, 3, pb 7, by unfold DueAt Plain; decide +kernel⟩,
   ⟨dq mk_ 3 [] id, C, 3, mk_, by unfold DueAt Plain; decide +kernel⟩⟩

theorem test_meets_DataOrders :
    (∃ (s : State) (c : Fin 56) (i : ℕ) (o : Order), DueAt s c i o ∧ Plain o ∧ (s.sq c).chainBuf = [] ∧ o.addr < 2 ^ 63 ∧ o.op = oReceive ∧ seqPath s
      ↑c = false)
    ∧ (∃ (s : State) (c : Fin 56) (i : ℕ) (o : Order), DueAt s c i o ∧ Plain o ∧ (s.sq c).chainBuf = [] ∧ o.addr < 2 ^ 63 ∧ o.op = oReceive ∧ seqPath s
      ↑c = true ∧ (s.ch c).fifos.rx = [])
    ∧ (∃ (s : State) (c : Fin 56) (i : ℕ) (o : Order) (r : Rec), DueAt s c i o ∧ Plain o ∧ (s.sq c).chainBuf = [] ∧ o.addr < 2 ^ 63 ∧ o.op = oReceive ∧
      seqPath s ↑c = true ∧ (s.ch c).fifos.rx = [r] ∧ (s.ch c).fifos.rxPos = 0 ∧ isMarker r = false ∧ o.sk = false ∧ (recBytes r).length =
      o.count)
    ∧ (∃ (s : State) (c : Fin 56) (i : ℕ) (o : Order) (r : Rec), DueAt s c i o ∧ Plain o ∧ (s.sq c).chainBuf = [] ∧ o.addr < 2 ^ 63 ∧ o.op = oReceive ∧
      seqPath s ↑c = true ∧ (s.ch c).fifos.rx = [r] ∧ (s.ch c).fifos.rxPos = 0 ∧ isMarker r = false ∧ o.sk = false ∧ o.count < (recBytes r).length
      ∧ o.cn = false)
    ∧ (∃ (s : State) (c : Fin 56) (i : ℕ) (o : Order), DueAt s c i o ∧ Plain o ∧ (s.sq c).chainBuf = [] ∧ o.addr < 2 ^ 63 ∧ o.op = oTransmit ∧
      txRestricted s ↑c = true)
    ∧ (∃ (s : State) (c : Fin 56) (i : ℕ) (o : Order) (b : List Byte), DueAt s c i o ∧ Plain o ∧ (s.sq c).chainBuf = [] ∧ o.addr < 2 ^ 63 ∧ o.op =
      oTransmit ∧ txRestricted s ↑c = false ∧ (¬(↑c < 48 ∧ modeOf s ↑c = modeI2c)) ∧ s.poisoned 0 o.addr o.count = false ∧ txSplit 4096
      (s.dramRead o.addr o.count) = some [b] ∧ txItemOk s (↑c) b = true ∧ b.length ≤ 8192 ∧ (s.ch c).fifos.tx = [])
    ∧ (∃ (s : State) (c : Fin 56) (i : ℕ) (o : Order), DueAt s c i o ∧ Plain o ∧ (s.sq c).chainBuf = [] ∧ o.addr < 2 ^ 63 ∧ o.op = oTransmit ∧
      txRestricted s ↑c = false ∧ (¬(↑c < 48 ∧ modeOf s ↑c = modeI2c)) ∧ s.poisoned 0 o.addr o.count = false ∧ txSplit 4096 (s.dramRead o.addr
      o.count) = none ∧ o.cn = false)
    ∧ (∃ (s : State) (c : Fin 56) (i : ℕ) (o : Order), DueAt s c i o ∧ Plain o ∧ (s.sq c).chainBuf = [] ∧ o.addr < 2 ^ 63 ∧ o.op = oTransmit ∧
      txRestricted s ↑c = false ∧ ↑c < 48 ∧ modeOf s ↑c = modeI2c ∧ s.poisoned 0 o.addr o.count = false)
    ∧ (∃ (s : State) (c : Fin 56) (i : ℕ) (o : Order), DueAt s c i o ∧ Plain o ∧ (s.sq c).chainBuf = [] ∧ o.addr < 2 ^ 63 ∧ o.op = oExchange ∧ 48 ≤ ↑c)
    ∧ (∃ (s : State) (c : Fin 56) (i : ℕ) (o : Order), DueAt s c i o ∧ Plain o ∧ (s.sq c).chainBuf = [] ∧ o.addr < 2 ^ 63 ∧ o.op = oExchange ∧ ↑c < 48 ∧
      seqPath s ↑c = true ∧ selectOk s (↑c) (bf o.param 8 8) = true ∧ txRestricted s ↑c = false ∧ s.poisoned 0 o.addr o.count = false) :=
  ⟨⟨dq (rcv 24) 3 [] id, C, 3, rcv 24, by unfold DueAt Plain; decide +kernel⟩,
   ⟨dq (rcv 24) 3 modeU id, C, 3, rcv 24, by unfold DueAt Plain; decide +kernel⟩,
   ⟨fifo (dq (rcv 24) 3 modeU id) (fun f => {f with rx := [it 5]}), C, 3, rcv 24, it 5, by unfold DueAt Plain; decide +kernel⟩,
   ⟨fifo (dq (rcv 24) 3 modeU id) (fun f => {f with rx := [it 15]}), C, 3, rcv 24, it 15, by unfold DueAt Plain; decide +kernel⟩,
   ⟨dq (tx 24) 3 [(Fld.BE_STATUS_ENGINE 5, 2)] id, C, 3, tx 24, by unfold DueAt Plain; decide +kernel⟩,
   ⟨txs (tx 24) (txi 6 5) modeU, C, 3, tx 24, txi 6 5, by unfold DueAt Plain; decide +kernel⟩,
   ⟨txs (tx 32) (txi 6 5) modeU, C, 3, tx 32, by unfold DueAt Plain; decide +kernel⟩,
   ⟨txs (tx 24) (txi 6 5) [(Fld.BE_MODE_MODE 5, 7), (Fld.BE_STATUS_ENGINE 5, 1)], C, 3, tx 24, by unfold DueAt Plain; decide +kernel⟩,
   ⟨dq50 (exo 20) 3 [] id, 50, 3, exo 20, by unfold DueAt Plain; decide +kernel⟩,
   ⟨txs (exo 20) (txi 6 5) modeU, C, 3, exo 20, by unfold DueAt Plain; decide +kernel⟩⟩

theorem test_meets_OrderEnds :
    (∃ (s : State) (c : Fin 56) (e : ExecOrder) (st : ℕ) (res : ℕ) (n : ℕ), s.frozen c = false ∧ (s.sq c).exec = some e ∧ e.result = some (st, res) ∧
      (s.sq c).stop = none ∧ (s.sq c).suspend = false ∧ e.order.su = false ∧ e.order.ps = true ∧ routeHost s ↑c = false ∧ e.idx < 1024 ∧ st < 256
      ∧ res < 65536 ∧ e.next = some n ∧ st ≤ 1 ∧ (s.sq c).fetch = Fetch.wait n ∧ rtState s ↑c = rtRun)
    ∧ (∃ (s : State) (c : Fin 56) (e : ExecOrder) (st : ℕ) (res : ℕ), s.frozen c = false ∧ (s.sq c).exec = some e ∧ e.result = some (st, res) ∧ (s.sq
      c).stop = none ∧ (s.sq c).suspend = false ∧ e.order.su = false ∧ e.order.ps = true ∧ routeHost s ↑c = false ∧ e.idx < 1024 ∧ st < 256 ∧ res
      < 65536 ∧ e.next = none)
    ∧ (∃ (s : State) (c : Fin 56) (e : ExecOrder), (s.sq c).exec = some e ∧ e.result = none ∧ e.order.op = oReceive ∧ 0 < orderTimeout e.order ∧
      orderTimeout e.order ≤ e.edges ∧ e.order.ps = false ∧ e.next = none ∧ e.idx < 1024 ∧ (s.ch c).bus.later = [])
    ∧ (∃ (s : State) (c : Fin 56) (i : ℕ) (o : Order), DueAt s c i o ∧ o.op = oJump ∧ o.su = true ∧ o.ps = false ∧ (s.sq c).chainBuf = []) :=
  ⟨⟨oe (psx 0x30 (some 4) 1 7) (fun q => {q with fetch := .wait 4}), C, psx 0x30 (some 4) 1 7, 1, 7, 4, by decide +kernel⟩,
   ⟨oe (psx 0x30 none 9 7) id, C, psx 0x30 none 9 7, 9, 7, by decide +kernel⟩,
   ⟨oe tmx id, C, tmx, by decide +kernel⟩,
   ⟨dq ojs 3 [] id, C, 3, ojs, by unfold DueAt; decide +kernel⟩⟩

end Orders

namespace Entries

def en (l : List (Fld × Nat)) : State := rd ([(Fld.CHAN_STATE_STATE 5, 1), (NOW, 123456),(TICK, 88)] ++ l)
def E (op : Nat) (a : List (Nat × Nat × Nat)) := mkE op 5 a
def ce : WorkEntry := {E opChanEnable [] with stage := .edge}
def re (t : Nat) := E opChanReseat [(24,1,t)]
def kl (n : Nat) := E opKeeperLoad [(24,8,0x4000),(32,4,n)]
def kt (s n : Nat) := E opKeeperThread [(24,1,2),(25,1,s),(26,2,n)]
def im : KImage := ⟨[], [⟨2, 1, 0x40, 9⟩], []⟩
def ktS : State := (cq (en [(Fld.KSTATUS_IMAGE_VALID 5,1)]) (kt 1 0)).modKp C (fun k => {k with image := some im})
def B (op : Nat) (a : List (Nat × Nat × Nat)) := mkE op 0xFF a
def sd (i : Nat) : WorkEntry := B opStreamDefine [(24,1,i),(32,8,0x4000),(40,2,64)]
def polB : List Byte := setB (setB ([0x56, 0x53, 0x54, 0x52, 1, 0, 0, 1, 1] ++ zeros 55) 32 4 65536) 36 2 1
def ksB : List Byte := leBytes 4 0x54534B56 ++ [1, 1] ++ zeros 26 ++ [6, 0] ++ zeros 14
def sc : WorkEntry := B opStreamClose [(24,1,9)]
def kl' (k n : Nat) : WorkEntry := B opKeystoneLoad [(24,1,k),(32,8,0x4000),(40,2,n)]
def rb (n : Nat) := B opReadback [(24,1,2),(32,8,0x10000),(40,8,0x4000),(48,4,n)]
def rg (n : Nat) := B opRegBatch [(24,2,n),(32,8,0x4000)]
def cw (n : Nat) := B opConfigWrite [(24,8,0x4000),(32,4,n)]
def fw (n : Nat) := B opFirmwareStage [(24,8,0x4000),(32,4,n)]
def sn : WorkEntry := B opSnapshot [(24,6,7),(32,4,2),(40,8,0x4000),(48,4,0x10000)]
def fe (n : Nat) := B opFence [(24,1,n)]
def fill (n : Nat) : State := (List.range n).foldl (fun s k => bq s {mkE opReadback 0xFF [] with stage := .running, serial := 30+k}) (cq (en []) (kl 64))
def pk : State := (bq ((rd []).dramWrite 0x4000 ksB) (kl' 63 48)).modKs 63 (fun x => {x with pend := .enable true})
def ktR : State := ((cq (en [(Fld.KSTATUS_IMAGE_VALID 5,1)]) {kt 1 0 with stage := .running}).modTh C T (fun t => {t with st := .run, pc := 0x40, cur := none, nxt := none})).modKp C (fun k => {k with code := [(0x40, (kEncode .nop).1)]})
def noL : State := (rd [(Fld.CHAN_STATE_STATE 5, 1)]).modTh C T (fun t => {t with st := .run, pc := 0x10})

theorem test_meets_ChannelQueueEntries :
    (∃ (s : State) (c : Fin 56) (e : WorkEntry), Heads s c opChanEnable e)
    ∧ (∃ (s : State) (c : Fin 56) (e : WorkEntry), chanHead s c opChanEnable = some e ∧ e.stage = EntryStage.edge ∧ enableOk s c = true)
    ∧ (∃ (s : State) (c : Fin 56) (e : WorkEntry), chanHead s c opChanEnable = some e ∧ e.stage = EntryStage.edge ∧ enableOk s c = false)
    ∧ (∃ (s : State) (c : Fin 56) (e : WorkEntry), Heads s c opChanDisable e ∧ chState s ↑c = chEnabled ∧ rtState s ↑c = rtIdle)
    ∧ (∃ (s : State) (c : Fin 56) (e : WorkEntry), Heads s c opChanDisable e ∧ chState s ↑c ≠ chEnabled ∧ chState s ↑c ≠ chFenced)
    ∧ (∃ (s : State) (c : Fin 56) (e : WorkEntry), Heads s c opChanReseat e ∧ (¬(48 ≤ e.arg 24 1 ∧ e.arg 24 1 ≤ 51)) ∧ e.arg 24 1 ≠ 60 ∧ e.arg 24 1 ≠
      255)
    ∧ (∃ (s : State) (c : Fin 56) (e : WorkEntry), Heads s c opChanReseat e ∧ 48 ≤ e.arg 24 1 ∧ e.arg 24 1 ≤ 51 ∧ ↑c < 48 ∧ chState s ↑c = chEnabled ∧
      tileSpare s (↑c) (e.arg 24 1) = true)
    ∧ (∃ (s : State) (c : Fin 56) (e : WorkEntry), Heads s c opChanReseat e ∧ 48 ≤ e.arg 24 1 ∧ e.arg 24 1 ≤ 51 ∧ ↑c < 48 ∧ chState s ↑c = chEnabled ∧
      tileSpare s (↑c) (e.arg 24 1) = false)
    ∧ (∃ (s : State) (c : Fin 56) (e : WorkEntry), Heads s c opKeeperLoad e ∧ longTurn s e = false)
    ∧ (∃ (s : State) (c : Fin 56) (e : WorkEntry), Heads s c opKeeperLoad e ∧ longTurn s e = true ∧ e.arg 32 4 < 64)
    ∧ (∃ (s : State) (c : Fin 56) (e : WorkEntry), Heads s c opKeeperLoad e ∧ longTurn s e = true ∧ 64 ≤ e.arg 32 4 ∧ e.arg 32 4 ≤ 262144 ∧ e.arg 32 4 %
      8 = 0 ∧ bufOk s (e.arg 24 8) (e.arg 32 4) = true ∧ chState s ↑c ≠ chAbsent ∧ rtState s ↑c = rtIdle ∧ (∀ (x : Fin 8), (s.th c x).st ≠
      ThState.run ∧ (s.th c x).st ≠ ThState.waitev ∧ (s.th c x).st ≠ ThState.yielded))
    ∧ (∃ (s : State) (c : Fin 56) (t : Fin 8) (e : WorkEntry) (k : KEntry) (im : KImage), Heads s c opKeeperThread e ∧ e.arg 24 1 = ↑t ∧ e.arg 25 1 = 1
      ∧ (s.kp c).image = some im ∧ im.entries[e.arg 26 2]? = some k ∧ k.kind = 1 ∧ k.thread = ↑t ∧ chState s ↑c = chEnabled ∧ s.isSet
      (Fld.KSTATUS_IMAGE_VALID ↑c) = true ∧ ((s.th c t).st = ThState.stopped ∨ (s.th c t).st = ThState.halted))
    ∧ (∃ (s : State) (c : Fin 56) (t : Fin 8) (e : WorkEntry), Heads s c opKeeperThread e ∧ e.arg 24 1 = ↑t ∧ e.arg 25 1 = 0 ∧ e.arg 26 2 = 0 ∧ chState
      s ↑c ≠ chAbsent)
    ∧ (∃ (s : State) (c : Fin 56) (t : Fin 8) (e : WorkEntry) (h0 : Half) (h1 : Half) (s1 : State), chanHead s c opKeeperThread = some e ∧ e.stage =
      EntryStage.running ∧ e.arg 25 1 = 1 ∧ e.arg 24 1 = ↑t ∧ (s.th c t).cur = none ∧ (s.th c t).nxt = none ∧ (s1 = s.modTh c t fun th =>
      loadLines (s.kp c) th th.pc) ∧ Issues s1 c t KInstr.nop h0 h1)
    ∧ (∃ (s : State) (c : Fin 56) (t : Fin 8) (i : Instr), IssuedBy i c t ∧ (s.th c t).cur = none ∧ (s.th c t).nxt = none)
    ∧ (∃ (s : State) (c : Fin 56), chanHead s c opKeeperThread = none) :=
  ⟨⟨cq (rd []) (E opChanEnable []), C, E opChanEnable [], by unfold Heads; decide +kernel⟩,
   ⟨cq ((rd [(Fld.BE_MODE_MODE 5, 5)]).modTb (fun t => {t with active := [0x05000000]})) ce, C, ce, by decide +kernel⟩,
   ⟨cq (rd []) ce, C, ce, by decide +kernel⟩,
   ⟨cq (en []) (E opChanDisable []), C, E opChanDisable [], by unfold Heads; decide +kernel⟩,
   ⟨cq (rd []) (E opChanDisable []), C, E opChanDisable [], by unfold Heads; decide +kernel⟩,
   ⟨cq (en []) (re 52), C, re 52, by unfold Heads; decide +kernel⟩,
   ⟨cq (en []) (re 48), C, re 48, by unfold Heads; decide +kernel⟩,
   ⟨{cq (en []) (re 51) with tilesOut := [51]}, C, re 51, by unfold Heads; decide +kernel⟩,
   ⟨fill 8, C, kl 64, by unfold Heads; decide +kernel⟩,
   ⟨cq (en []) (kl 63), C, kl 63, by unfold Heads; decide +kernel⟩,
   ⟨cq (en [(Fld.KSTATUS_IMAGE_VALID 5,1)]) (kl 64), C, kl 64, by unfold Heads; decide +kernel⟩,
   ⟨ktS, C, T, kt 1 0, ⟨2,1,0x40,9⟩, im, by unfold Heads; decide +kernel⟩,
   ⟨(cq (en [(Fld.KSTATUS_IMAGE_VALID 5,1)]) (kt 0 0)).modTh C T (fun t => {t with st := .run}), C, T, kt 0 0, by unfold Heads; decide +kernel⟩,
   ⟨ktR, C, T, {kt 1 0 with stage := .running}, (kEncode .nop).1, 0, ktR.modTh C T (fun th => loadLines (ktR.kp C) th th.pc),
     by unfold Issues; decide +kernel⟩,
   ⟨noL, C, T, Instr.nop C T, by unfold IssuedBy; decide +kernel⟩,
   ⟨noL, C, by decide +kernel⟩⟩

theorem test_meets_BasinQueueEntries :
    (∃ (s : State) (serial : ℕ) (e : WorkEntry) (data : HostRd) (b : List Byte), s.toll.orderly = false ∧ InBasin s serial opStreamDefine e ∧ e.arg 40
      2 = 64 ∧ bufOk s (e.arg 32 8) 64 = true ∧ operandWaits s (e.arg 32 8) = false ∧ operandRead s (e.arg 32 8) 64 data = some b ∧ strmState s
      (e.arg 24 1) ≠ strmClosing ∧ (s.strm (e.arg 24 1)).pend = none ∧ polReason b ≠ 0)
    ∧ (∃ (s : State) (serial : ℕ) (e : WorkEntry) (data : HostRd) (b : List Byte), s.toll.orderly = false ∧ InBasin s serial opStreamDefine e ∧ e.arg 40
      2 = 64 ∧ bufOk s (e.arg 32 8) 64 = true ∧ operandWaits s (e.arg 32 8) = false ∧ operandRead s (e.arg 32 8) 64 data = some b ∧ strmState s
      (e.arg 24 1) ≠ strmClosing ∧ (s.strm (e.arg 24 1)).pend = none ∧ polReason b = 0 ∧ polKeys s (polParse b) = true ∧ telEnc (polParse b) =
      false)
    ∧ (∃ (s : State) (serial : ℕ) (e : WorkEntry), s.toll.orderly = false ∧ InBasin s serial opStreamClose e ∧ strmState s (e.arg 24 1) ≠ strmOpen)
    ∧ (∃ (s : State) (serial : ℕ) (e : WorkEntry), s.toll.orderly = false ∧ InBasin s serial opStreamClose e ∧ strmState s (e.arg 24 1) = strmOpen)
    ∧ (∃ (s : State) (serial : ℕ) (e : WorkEntry), s.toll.orderly = false ∧ InBasin s serial opKeystoneLoad e ∧ 64 ≤ e.arg 24 1)
    ∧ (∃ (s : State) (serial : ℕ) (e : WorkEntry), s.toll.orderly = false ∧ InBasin s serial opKeystoneLoad e ∧ e.arg 24 1 < 64 ∧ (s.ks (e.arg 24
      1)).pend ≠ KsPend.none)
    ∧ (∃ (s : State) (serial : ℕ) (e : WorkEntry) (data : HostRd) (b : List Byte), s.toll.orderly = false ∧ InBasin s serial opKeystoneLoad e ∧ e.arg 24
      1 < 64 ∧ (s.ks (e.arg 24 1)).pend = KsPend.none ∧ bufOk s (e.arg 32 8) (e.arg 40 2) = true ∧ operandWaits s (e.arg 32 8) = false ∧
      operandRead s (e.arg 32 8) (e.arg 40 2) data = some b ∧ (ksLoad s (e.arg 24 1) (e.arg 40 2) b serial).1 ≠ St.ok)
    ∧ (∃ (s : State) (serial : ℕ) (e : WorkEntry) (data : HostRd) (b : List Byte), s.toll.orderly = false ∧ InBasin s serial opKeystoneLoad e ∧ e.arg 24
      1 < 64 ∧ (s.ks (e.arg 24 1)).pend = KsPend.none ∧ bufOk s (e.arg 32 8) (e.arg 40 2) = true ∧ operandWaits s (e.arg 32 8) = false ∧
      operandRead s (e.arg 32 8) (e.arg 40 2) data = some b ∧ (ksLoad s (e.arg 24 1) (e.arg 40 2) b serial).1 = St.ok)
    ∧ (∃ (s : State) (serial : ℕ) (e : WorkEntry) (n : Fin 4), InBasin s serial opReadback e ∧ e.arg 24 1 = ↑n ∧ e.arg 32 8 % 4096 = 0 ∧ 4096 ≤ e.arg 48
      4 ∧ e.arg 48 4 ≤ 2 ^ 31 ∧ e.arg 48 4 % 4096 = 0 ∧ bufOk s (e.arg 40 8) (e.arg 48 4) = true ∧ (drvState s ↑n = drvOnline ∨ drvState s ↑n =
      drvReadOnly ∨ drvState s ↑n = drvBlank ∨ drvState s ↑n = drvEjected) ∧ e.arg 32 8 + e.arg 48 4 ≤ (s.drive n).nsBytes ∧ longTurn s e = true)
    ∧ (∃ (s : State) (serial : ℕ) (e : WorkEntry) (data : HostRd) (b : List Byte), InBasin s serial opRegBatch e ∧ 1 ≤ e.arg 24 2 ∧ e.arg 24 2 ≤ 256 ∧
      operandWaits s (e.arg 32 8) = false ∧ bufOk s (e.arg 32 8) (24 * e.arg 24 2) = true ∧ operandRead s (e.arg 32 8) (24 * e.arg 24 2) data =
      some b)
    ∧ (∃ (s : State) (serial : ℕ) (e : WorkEntry), InBasin s serial opRegBatch e ∧ (e.arg 24 2 = 0 ∨ 256 < e.arg 24 2))
    ∧ (∃ (s : State) (serial : ℕ) (e : WorkEntry), InBasin s serial opConfigWrite e ∧ longTurn s e = true ∧ 1 ≤ e.arg 32 4 ∧ e.arg 32 4 ≤ 262144 ∧ bufOk
      s (e.arg 24 8) (e.arg 32 4) = true ∧ s.toll.cfgBusy = false)
    ∧ (∃ (s : State) (serial : ℕ) (e : WorkEntry), InBasin s serial opConfigWrite e ∧ longTurn s e = true ∧ 1 ≤ e.arg 32 4 ∧ e.arg 32 4 ≤ 262144 ∧ bufOk
      s (e.arg 24 8) (e.arg 32 4) = true ∧ s.toll.cfgBusy = true)
    ∧ (∃ (s : State) (serial : ℕ) (e : WorkEntry), InBasin s serial opFirmwareStage e ∧ longTurn s e = true ∧ 1 ≤ e.arg 32 4 ∧ e.arg 32 4 ≤ 3145728 ∧
      bufOk s (e.arg 24 8) (e.arg 32 4) = true ∧ s.toll.fwBusy = none)
    ∧ (∃ (s : State) (serial : ℕ) (e : WorkEntry), InBasin s serial opFirmwareStage e ∧ longTurn s e = true ∧ 1 ≤ e.arg 32 4 ∧ e.arg 32 4 ≤ 3145728 ∧
      bufOk s (e.arg 24 8) (e.arg 32 4) = true ∧ s.toll.fwBusy ≠ none)
    ∧ (∃ (s : State) (serial : ℕ) (e : WorkEntry), InBasin s serial opSnapshot e ∧ longTurn s e = true ∧ 1 ≤ e.arg 32 4 ∧ e.arg 48 4 % 4096 = 0 ∧ bufOk
      s (e.arg 40 8) (e.arg 48 4) = true ∧ s.dones = [])
    ∧ (∃ (s : State) (serial : ℕ) (e : WorkEntry), InBasin s serial opSnapshot e ∧ longTurn s e = true ∧ 1 ≤ e.arg 32 4 ∧ e.arg 48 4 % 4096 = 0 ∧ bufOk
      s (e.arg 40 8) (e.arg 48 4) = true ∧ s.dones ≠ [] ∧ s.get Fld.RING_OLDEST_TICK ≤ e.arg 24 6 ∧ e.arg 24 6 + e.arg 32 4 - 1 ≤ s.get
      Fld.RING_LAST_TICK ∧ (snapImage s (e.arg 24 6) (e.arg 32 4)).length ≤ e.arg 48 4)
    ∧ (∃ (s : State) (serial : ℕ) (e : WorkEntry), InBasin s serial opFence e ∧ e.arg 24 1 ≤ 1)
    ∧ (∃ (s : State) (serial : ℕ) (e : WorkEntry), InBasin s serial opFence e ∧ 1 < e.arg 24 1) :=
  ⟨⟨bq (rd []) (sd 9), 11, sd 9, .fail, zeros 64, by unfold InBasin; decide +kernel⟩,
   ⟨bq ((rd []).dramWrite 0x4000 polB) (sd 9), 11, sd 9, .fail, polB, by unfold InBasin; decide +kernel⟩,
   ⟨bq (rd []) sc, 11, sc, by unfold InBasin; decide +kernel⟩,
   ⟨bq (rd [(Fld.STRM_STATE_STATE 9, 1)]) sc, 11, sc, by unfold InBasin; decide +kernel⟩,
   ⟨bq (rd []) (kl' 64 64), 11, kl' 64 64, by unfold InBasin; decide +kernel⟩,
   ⟨pk, 11, kl' 63 48, by unfold InBasin; decide +kernel⟩,
   ⟨bq (rd []) (kl' 63 64), 11, kl' 63 64, .fail, zeros 64, by unfold InBasin; decide +kernel⟩,
   ⟨bq ((rd []).dramWrite 0x4000 ksB) (kl' 63 48), 11, kl' 63 48, .fail, ksB, by unfold InBasin; decide +kernel⟩,
   ⟨bq ((rd [(Fld.DRIVE_STATE_STATE 2, 5)]).modDrive 2 (fun d => {d with nsBytes := 0x20000})) (rb 4096), 11, rb 4096, 2,
     by unfold InBasin; decide +kernel⟩,
   ⟨bq (rd []) (rg 2), 11, rg 2, .fail, zeros (24*2), by unfold InBasin; decide +kernel⟩,
   ⟨bq (rd []) (rg 0), 11, rg 0, by unfold InBasin; decide +kernel⟩,
   ⟨bq (rd []) (cw 1), 11, cw 1, by unfold InBasin; decide +kernel⟩,
   ⟨bq {rd [] with toll := {ready.toll with cfgBusy := true}} (cw 262144), 11, cw 262144, by unfold InBasin; decide +kernel⟩,
   ⟨bq (rd []) (fw 3145728), 11, fw 3145728, by unfold InBasin; decide +kernel⟩,
   ⟨bq {rd [] with toll := {ready.toll with fwBusy := some 1}} (fw 1), 11, fw 1, by unfold InBasin; decide +kernel⟩,
   ⟨bq (rd []) sn, 11, sn, by unfold InBasin; decide +kernel⟩,
   ⟨bq {rd [(Fld.RING_OLDEST_TICK, 6),(Fld.RING_LAST_TICK, 9)] with dones := (List.range 4).map (fun k => ⟨6+k, 0, 128*k, 128*k, 128*k+128, [], []⟩)} sn,
     11, sn, by unfold InBasin; decide +kernel⟩,
   ⟨bq (rd []) (fe 1), 11, fe 1, by unfold InBasin; decide +kernel⟩,
   ⟨bq (rd []) (fe 2), 11, fe 2, by unfold InBasin; decide +kernel⟩⟩

end Entries

namespace KeeperIo

def clS : State := {rd [(Fld.STRM_STATE_STATE 9, 2)] with streams := [(9, {Stream.reset with upto := some 5, policies := [(1, polParse (zeros 64))]})]}
def en (l : List (Fld × Nat)) : State := rd ([(Fld.CHAN_STATE_STATE 5, 1), (NOW, 123456),(TICK, 88)] ++ l)
abbrev KS := "KeeperServices"
def ml (r : Nat) : State := (modSeq (en [(Fld.ROUTE_STATE_STATE 5, 2)]) C (fun q => {q with exec := some (ex 3 (mkO oCall 0 0 0 0) (some 4) none), pc := 3})).modTh C T (fun t => {t with st := .run, mbRes := 0x44, mail := some ⟨true, r, 1, 2, 3, 4, true⟩})
def pb (q : Byte) (tm : Word) : State := (en [(Fld.SIG_RANGE_BASE 5, 16),(Fld.SIG_RANGE_COUNT 5, 4)]).modKp C (fun k => {k with pubSlot := 17, pubQual := q, pubVal := 77, pubTime := tm})
def cs (n : Nat) : State := (en [(Fld.KSTATUS_CS_WRITE 5, 1)]).modKp C (fun k => {k with csq := n, csAddr := 0xFFFF})
def win (ts len typ fl : Nat) : List Byte := leBytes 8 ts ++ leBytes 2 len ++ leBytes 1 typ ++ leBytes 1 0 ++ leBytes 2 0 ++ leBytes 2 fl ++ List.replicate len 0x01
def kc (w : Nat) (b : List Byte) : State := (tileWrite (en []) C (0x10000 + w) b none)
def rcd (ts now : Nat) : Rec := ⟨if ts = 0 then now else ts, 0x20, 5, 0, 0, List.replicate 8 1⟩
def cpy : Copy := ⟨2, 0, 0, 0x40, true, 24, []⟩
def cpS : State := (kc 0x40 (win 0 8 0x20 0)).modCh C (fun c => {c with chamber := { ((c.chamber.commit 1000 (rcd 0 9)).2) with copies := [cpy] }}) 
def rx (l : List Rec) (s : State) : State := s.modFifos C (fun f => {f with rx := l})
def it (ts : Nat) : Rec := ⟨ts, 8, 5, 0, 0, [3,3,1,0,0,0,0,0]⟩
def txi (k n : Nat) : List Byte := padTo 8 (leBytes 2 n ++ leBytes 1 k ++ zeros 13 ++ List.replicate n 0x41)
def ub : State := (en [(Fld.BE_MODE_MODE 5, 5), (Fld.BE_STATUS_ENGINE 5, 1)]).modFifos C (fun f => {f with build := txi 6 5})
def mbx (n : Nat) : State := (en []).modFifos C (fun f => {f with mbi := (List.range n).map (fun k => .data (BitVec.ofNat 64 k)), mbo := (List.range n).map (fun k => .data (BitVec.ofNat 64 k))})
def kcm : State := ((tileWrite (rd [(Fld.CHAN_STATE_STATE 50, 1), (NOW, 123456), (Fld.ETH_CFG_CAP_EN 50, 1)]) 50 (0x10000 + 0x40) (win 0 8 0x20 0) none)).modEth 50 (fun e => {e with rx := some ⟨999, 1, 0, false, false, 9216, [], 64, true, false, [], false⟩})
def kcP : State := {kc 0x40 (win 0 8 0x20 0) with poison := [tileGranule 5 + 0x10048 / 8]}
def rtsS : State := rx (List.replicate 60 (it 9)) (en [(Fld.BE_MODE_MODE 5, 5), (Fld.BE_STATUS_ENGINE 5, 1), (Fld.UART_CFG_RTSCTS 5, 1), (Fld.UART_CFG_MAX_LEN 5, 16)])

theorem test_meets_BasinQueueEntries :
    ∃ (s : State) (n : Fin 256), s.toll.orderly = false ∧ strmState s ↑n = strmClosing ∧ sharesEnd s ↑n = true ∧ (s.strm ↑n).build = none ∧ (∀ sp ∈
      s.place.spans, sp.stream ≠ ↑n) ∧ (s.strm ↑n).drops = none :=
  ⟨{clS with courses := []}, 9, by decide +kernel⟩

theorem test_meets_KeeperServices :
    (∃ (s : State) (c : Fin 56) (t : Fin 8) (x : ℕ × ℕ) (rest : List (ℕ × ℕ)), stackOf s (tgtThread ↑c ↑t) = x :: rest)
    ∧ (∃ (s : State) (c : Fin 56) (t : Fin 8), stackOf s (tgtThread ↑c ↑t) = [])
    ∧ (∃ (s : State) (c : Fin 56) (t : Fin 8) (m : Mail) (e : ExecOrder), (s.th c t).mail = some m ∧ m.full = true ∧ m.live = true ∧ (s.sq c).exec =
      some e ∧ e.idx = m.order ∧ e.result = none)
    ∧ (∃ (s : State) (c : Fin 56) (t : Fin 8), (s.th c t).mail = none)
    ∧ (∃ (s : State) (c : Fin 56), slotOwner s (BitVec.toNat (s.kp c).pubSlot) = some ↑c ∧ 1 ≤ BitVec.toNat (s.kp c).pubQual ∧ BitVec.toNat (s.kp
      c).pubQual ≤ 3 ∧ BitVec.toNat (s.kp c).pubTime ≤ s.now)
    ∧ (∃ (s : State) (c : Fin 56), slotOwner s (BitVec.toNat (s.kp c).pubSlot) ≠ some ↑c)
    ∧ (∃ (s : State) (c : Fin 56), s.isSet (Fld.KSTATUS_CS_WRITE ↑c) = false)
    ∧ (∃ (s : State) (c : Fin 56), s.isSet (Fld.KSTATUS_CS_WRITE ↑c) = true ∧ 8 ≤ (s.kp c).csq)
    ∧ (∃ (s : State) (c : Fin 56), s.isSet (Fld.KSTATUS_CS_WRITE ↑c) = true ∧ (s.kp c).csq < 8) :=
  ⟨⟨{en [] with ic := {ready.ic with stackTab := [(tgtThread C T, [(1,2),(3,4)]), (7, [(1,2)])]}}, C, T, (1,2), [(3,4)], by decide +kernel⟩,
   ⟨ml 3, C, T, by decide +kernel⟩,
   ⟨ml 3, C, T, ⟨true, 3, 1, 2, 3, 4, true⟩, ex 3 (mkO oCall 0 0 0 0) (some 4) none, by decide +kernel⟩,
   ⟨cs 8, C, T, by decide +kernel⟩,
   ⟨pb 1 0, C, by decide +kernel⟩,
   ⟨ml 3, C, by decide +kernel⟩,
   ⟨ml 3, C, by decide +kernel⟩,
   ⟨cs 8, C, by decide +kernel⟩,
   ⟨cs 7, C, by decide +kernel⟩⟩

theorem test_meets_KeeperCommits :
    (∃ (s : State) (c : Fin 56) (t : Fin 8) (w : Long) (off : ℕ), off = BitVec.toNat w ∧ off < 16384 ∧ off % 8 = 0 ∧ copying s c t = true)
    ∧ (∃ (s : State) (c : Fin 56) (t : Fin 8) (w : Long) (off : ℕ) (hdr : List Byte), off = BitVec.toNat w ∧ hdr = tileRead s c (65536 + off) 16 ∧ off <
      16384 ∧ off % 8 = 0 ∧ copying s c t = false ∧ s.now < leAt hdr 0 8)
    ∧ (∃ (s : State) (c : Fin 56) (t : Fin 8) (w : Long) (off : ℕ) (len : ℕ) (hdr : List Byte), off = BitVec.toNat w ∧ hdr = tileRead s c (65536 + off)
      16 ∧ len = leAt hdr 8 2 ∧ off < 16384 ∧ off % 8 = 0 ∧ copying s c t = false ∧ off + 16 + roundUp 8 len ≤ 16384 ∧ leAt hdr 0 8 ≤ s.now ∧
      tilePoisoned s c (65536 + off) (16 + roundUp 8 len) = true)
    ∧ (∃ (s : State) (c : Fin 56) (t : Fin 8) (w : Long) (off : ℕ) (len : ℕ) (half : ℕ) (pos : ℕ) (hdr : List Byte) (r : Rec), off = BitVec.toNat w ∧
      hdr = tileRead s c (65536 + off) 16 ∧ len = leAt hdr 8 2 ∧ r =
      { ts := if leAt hdr 0 8 = 0 then s.now else leAt hdr 0 8, typ := leAt hdr 10 1, chan := ↑c, seq := 0, flags := leAt hdr 14 2, payload := bsub (tileRead s c (65536 + off) (16 + roundUp 8 len)) 16 len }
      ∧ off < 16384 ∧ off % 8 = 0 ∧ copying s c t = false ∧ off + 16 + roundUp 8 len ≤ 16384 ∧ leAt hdr 0 8 ≤ s.now ∧ tilePoisoned s c (65536 +
      off) (16 + roundUp 8 len) = false ∧ typeOk (↑c) r.typ len r.flags (leAt (tileRead s c (65536 + off) (16 + roundUp 8 len)) 16 1) = true ∧
      midFrame s c = false ∧ ((s.ch c).chamber.commit (chUsable s ↑c) r).1 = Stored.stored half pos)
    ∧ (∃ (s : State) (c : Fin 56) (t : Fin 8) (w : Long) (off : ℕ) (len : ℕ) (hdr : List Byte) (r : Rec), off = BitVec.toNat w ∧ hdr = tileRead s c
      (65536 + off) 16 ∧ len = leAt hdr 8 2 ∧ r =
      { ts := if leAt hdr 0 8 = 0 then s.now else leAt hdr 0 8, typ := leAt hdr 10 1, chan := ↑c, seq := 0, flags := leAt hdr 14 2, payload := bsub (tileRead s c (65536 + off) (16 + roundUp 8 len)) 16 len }
      ∧ off < 16384 ∧ off % 8 = 0 ∧ copying s c t = false ∧ off + 16 + roundUp 8 len ≤ 16384 ∧ leAt hdr 0 8 ≤ s.now ∧ tilePoisoned s c (65536 +
      off) (16 + roundUp 8 len) = false ∧ typeOk (↑c) r.typ len r.flags (leAt (tileRead s c (65536 + off) (16 + roundUp 8 len)) 16 1) = true ∧
      midFrame s c = true)
    ∧ (∃ (s : State) (c : Fin 56) (t : Fin 8) (w : Long) (off : ℕ) (len : ℕ) (hdr : List Byte) (r : Rec), off = BitVec.toNat w ∧ hdr = tileRead s c
      (65536 + off) 16 ∧ len = leAt hdr 8 2 ∧ r =
      { ts := if leAt hdr 0 8 = 0 then s.now else leAt hdr 0 8, typ := leAt hdr 10 1, chan := ↑c, seq := 0, flags := leAt hdr 14 2, payload := bsub (tileRead s c (65536 + off) (16 + roundUp 8 len)) 16 len }
      ∧ off < 16384 ∧ off % 8 = 0 ∧ copying s c t = false ∧ off + 16 + roundUp 8 len ≤ 16384 ∧ leAt hdr 0 8 ≤ s.now ∧ tilePoisoned s c (65536 +
      off) (16 + roundUp 8 len) = false ∧ typeOk (↑c) r.typ len r.flags (leAt (tileRead s c (65536 + off) (16 + roundUp 8 len)) 16 1) = false)
    ∧ (∃ (s : State) (c : Fin 56) (t : Fin 8) (w : Long) (off : ℕ), off = BitVec.toNat w ∧ off < 16384 ∧ off % 8 = 0 ∧ copying s c t = false ∧ (s.ch
      c).fifos.rx = [])
    ∧ (∃ (s : State) (c : Fin 56) (t : Fin 8) (w : Long) (off : ℕ) (r : Rec) (rest : List Rec), off = BitVec.toNat w ∧ off < 16384 ∧ off % 8 = 0 ∧
      copying s c t = false ∧ (s.ch c).fifos.rx = r :: rest ∧ isMarker r = false ∧ s.now < r.ts)
    ∧ (∃ (s : State) (c : Fin 56) (t : Fin 8) (w : Long) (off : ℕ) (half : ℕ) (pos : ℕ) (r : Rec) (rest : List Rec), off = BitVec.toNat w ∧ off < 16384
      ∧ off % 8 = 0 ∧ copying s c t = false ∧ (s.ch c).fifos.rx = r :: rest ∧ isMarker r = false ∧ r.ts ≤ s.now ∧ typeOk (↑c) r.typ
      r.payload.length r.flags (leAt r.payload 0 1) = true ∧ midFrame s c = false ∧ ((s.ch c).chamber.commit (chUsable s ↑c)
      { ts := if r.ts = 0 then s.now else r.ts, typ := r.typ, chan := ↑c, seq := r.seq, flags := r.flags, payload := r.payload }).1 =
      Stored.stored half pos)
    ∧ (∃ (s : State) (c : Fin 56) (t : Fin 8) (w : Long) (off : ℕ) (x : Copy), off = BitVec.toNat w ∧ off < 16384 ∧ off % 8 = 0 ∧ List.find? (fun x_1 =>
      x_1.thread == ↑t) (s.ch c).chamber.copies = some x ∧ (∀ y ∈ (s.eth c).held, ∀ (z : ℕ × ℕ × ℕ × Bool), y.by_ = some z → z.1 ≠ ↑t)) :=
  ⟨⟨cpS, C, T, 0x40, _, rfl, by decide +kernel⟩,
   ⟨kc 0x40 (win 123457 8 0x20 0), C, T, 0x40, _, _, rfl, rfl, by decide +kernel⟩,
   ⟨kcP, C, T, 0x40, _, _, _, rfl, rfl, rfl, by decide +kernel⟩,
   ⟨kc 0x40 (win 0 8 0x20 0), C, T, 0x40, _, _, 0, 0, _, _, rfl, rfl, rfl, rfl, by decide +kernel⟩,
   ⟨kcm, 50, T, 0x40, _, _, _, _, rfl, rfl, rfl, rfl, by decide +kernel⟩,
   ⟨kc 0x3FE8 (win 0 8 0x02 0), C, T, 0x3FE8, _, _, _, _, rfl, rfl, rfl, rfl, by decide +kernel⟩,
   ⟨kcP, C, T, 0x40, _, rfl, by decide +kernel⟩,
   ⟨rx [it 123457, it 10] (en []), C, T, 0x40, _, it 123457, [it 10], rfl, by decide +kernel⟩,
   ⟨rx [it 9, it 10] (en []), C, T, 0x40, _, 0, 0, it 9, [it 10], rfl, by decide +kernel⟩,
   ⟨cpS, C, T, 0x40, _, cpy, rfl, by decide +kernel⟩⟩

theorem test_meets_Fifos :
    (∃ (s : State) (c : Fin 56), (s.ch c).fifos.rx = [])
    ∧ (∃ (s : State) (p : State) (c : Fin 56) (r : Rec) (rest : List Rec), (p = s.modFifos c fun f =>
      { rx := rest, rxPos := 0, rxLast := f.rxLast, tx := f.tx, build := f.build, mbi := f.mbi, mbiLast := f.mbiLast, mbo := f.mbo, mboLast := f.mboLast })
      ∧ (s.ch c).fifos.rx = r :: rest ∧ modeOf s ↑c = modeUart ∧ ↑c < 48 ∧ fioPin p c 2 ≠ fioPin s c 2)
    ∧ (∃ (s : State) (p : State) (c : Fin 56) (r : Rec) (rest : List Rec), (p = s.modFifos c fun f =>
      { rx := rest, rxPos := 0, rxLast := f.rxLast, tx := f.tx, build := f.build, mbi := f.mbi, mbiLast := f.mbiLast, mbo := f.mbo, mboLast := f.mboLast })
      ∧ (s.ch c).fifos.rx = r :: rest ∧ (¬(modeOf s ↑c = modeUart ∧ ↑c < 48 ∧ fioPin p c 2 ≠ fioPin s c 2)))
    ∧ (∃ (s : State) (c : Fin 56) (b : List Byte), (s.ch c).fifos.build = b ∧ txItemOk s (↑c) b = false)
    ∧ (∃ (s : State) (c : Fin 56) (b : List Byte), (s.ch c).fifos.build = b ∧ txItemOk s (↑c) b = true ∧ txHasMarker (s.ch c).fifos = false ∧ txItems
      (s.ch c).fifos < 31 ∧ b.length ≤ txFree (s.ch c).fifos)
    ∧ (∃ (s : State) (c : Fin 56) (b : List Byte), (s.ch c).fifos.build = b ∧ txItemOk s (↑c) b = true ∧ txHasMarker (s.ch c).fifos = false ∧ 31 ≤
      txItems (s.ch c).fifos)
    ∧ (∃ (s : State) (c : Fin 56), (s.ch c).fifos.mbi = [])
    ∧ (∃ (s : State) (c : Fin 56) (w : Word) (l : List MbEnt), (s.ch c).fifos.mbi = MbEnt.data w :: l)
    ∧ (∃ (s : State) (c : Fin 56), (∀ x ∈ (s.ch c).fifos.mbo, ∀ (n : ℕ), x ≠ MbEnt.marker n) ∧ (s.ch c).fifos.mbo.length < 15)
    ∧ (∃ (s : State) (c : Fin 56), (∀ x ∈ (s.ch c).fifos.mbo, ∀ (n : ℕ), x ≠ MbEnt.marker n) ∧ (s.ch c).fifos.mbo.length = 15)
    ∧ (∃ (s : State) (c : Fin 56) (v : Word), Reaches s (Reg.MBI_DATA ↑c) (v.toNat) ∧ (∀ x ∈ (s.ch c).fifos.mbi, ∀ (n : ℕ), x ≠ MbEnt.marker n) ∧ (s.ch
      c).fifos.mbi.length < 15)
    ∧ (∃ (s : State) (c : Fin 56) (w : Word) (l : List MbEnt), PageAt s (Reg.MBO_DATA ↑c) ∧ (s.ch c).fifos.mbo = MbEnt.data w :: l) :=
  ⟨⟨ub, C, by decide +kernel⟩,
   ⟨rtsS, _, C, it 9, List.replicate 59 (it 9), rfl, by decide +kernel⟩,
   ⟨rx [it 9, it 10] (en []), _, C, it 9, [it 10], rfl, by decide +kernel⟩,
   ⟨rtsS, C, default, by decide +kernel⟩,
   ⟨ub, C, txi 6 5, by decide +kernel⟩,
   ⟨ub.modFifos C (fun f => {f with tx := List.replicate 31 (.item (txi 6 5) false)}), C, txi 6 5, by decide +kernel⟩,
   ⟨ub, C, by decide +kernel⟩,
   ⟨mbx 15, C, 0, (List.range 14).map (fun k => .data (BitVec.ofNat 64 (k+1))), by decide +kernel⟩,
   ⟨ub, C, noMarker _ (by decide +kernel), by decide +kernel⟩,
   ⟨mbx 15, C, noMarker _ (by decide +kernel), by decide +kernel⟩,
   ⟨mbx 14, C, 9, by unfold Reaches PageAt; decide +kernel, noMarker _ (by decide +kernel), by decide +kernel⟩,
   ⟨mbx 15, C, 0, (List.range 14).map (fun k => .data (BitVec.ofNat 64 (k+1))), by unfold PageAt; decide +kernel⟩⟩

end KeeperIo

namespace Transfers

def en (l : List (Fld × Nat)) : State := rd ([(Fld.CHAN_STATE_STATE 5, 1), (NOW, 123456),(TICK, 88)] ++ l)
def md (m e : Nat) (l : List (Fld × Nat)) : State := en ([(Fld.BE_MODE_MODE 5, m), (Fld.BE_STATUS_ENGINE 5, e)] ++ l)
def cf : CanFrame := ⟨false, 0x123, false, true, true, false, false, 9, List.replicate 12 7, 0, 0, 0, false, false, 0, true⟩
def lf : LinFrame := ⟨0x3C, [1,2,3], 0xF9, 192, false⟩
abbrev TI := "x"
def sm : SentMsg := ⟨1, 0x7, 168000, 0x123456, 0, 5⟩
def ui : UartItem := ⟨44, [65,66,67], false, false, 0⟩
def txi (k n : Nat) : List Byte := padTo 8 (leBytes 2 n ++ leBytes 1 k ++ zeros 13 ++ List.replicate n 0x41)
def xo (op : Nat) : ExecOrder := ex 3 (mkO op 0 8 0x9000 0xA000) (some 4) none
def xs (m : Nat) (op : Nat) : State := modSeq (md m 1 [(Fld.ROUTE_STATE_STATE 5, 2),(Fld.BE_MODE_RXPATH 5, 1)]) C (fun q => {q with exec := some (xo op), pc := 3})
def lin (n id : Nat) : List Byte := padTo 8 (leBytes 2 n ++ zeros 2 ++ leBytes 4 id ++ zeros 8 ++ List.replicate n 0x41)
def smg : SentMsg := {sm with crc := BitVec.ofNat _ (sentCrc (md 3 1 [(Fld.SENT_CFG_TICK_NS 5, 3000),(Fld.SENT_CFG_NIBBLES 5, 6)]) C sm)}
def xol : ExecOrder := {xo oExchange with loaded := true}
def xsl (m : Nat) : State := modSeq (md 5 m [(Fld.ROUTE_STATE_STATE 5, 2),(Fld.BE_MODE_RXPATH 5, 1)]) C (fun q => {q with exec := some xol, pc := 3})

theorem test_meets_CanAndLin :
    (∃ (s : State) (c : Fin 56) (v : Word), Reaches s (Reg.BE_MODE ↑c) (v.toNat) ∧ ↑c < 48 ∧ chState s ↑c = chDisabled ∧ modeOk (bf (v.toNat) 0 4) =
      true)
    ∧ (∃ (s : State) (c : Fin 56) (v : Word), Reaches s (Reg.BE_MODE ↑c) (v.toNat) ∧ ↑c < 48 ∧ chState s ↑c ≠ chDisabled)
    ∧ (∃ (s : State) (c : Fin 56) (v : Word), Reaches s (Reg.BE_MODE ↑c) (v.toNat) ∧ 48 ≤ ↑c ∧ chState s ↑c = chDisabled ∧ (bf (v.toNat) 0 4 = modeNone
      ∨ bf (v.toNat) 0 4 = modeEth) ∧ bit (v.toNat) 5 = false)
    ∧ (∃ (s : State) (c : Fin 56) (v : Word), Reaches s (Reg.BE_MODE ↑c) (v.toNat) ∧ 48 ≤ ↑c ∧ (chState s ↑c ≠ chDisabled ∨ bf (v.toNat) 0 4 ≠ modeNone
      ∧ bf (v.toNat) 0 4 ≠ modeEth))
    ∧ (∃ (s : State) (c : Fin 56) (f : CanFrame), Receives s c modeCan ∧ canEnabled s (↑c) f = false ∧ s.isSet (Fld.CAN_CFG_PROTO_EXC ↑c) = true)
    ∧ (∃ (s : State) (c : Fin 56) (f : CanFrame), Receives s c modeCan ∧ canEnabled s (↑c) f = false ∧ s.isSet (Fld.CAN_CFG_PROTO_EXC ↑c) = false)
    ∧ (∃ (s : State) (c : Fin 56) (f : CanFrame), Receives s c modeCan ∧ canEnabled s (↑c) f = true ∧ f.data.length ≤ 2048 ∧ filterDecide s (↑c)
      f.id.toNat f.ide f.xl = (true, false))
    ∧ (∃ (s : State) (c : Fin 56) (f : CanFrame), Receives s c modeCan ∧ canEnabled s (↑c) f = true ∧ f.data.length ≤ 2048 ∧ (filterDecide s (↑c)
      f.id.toNat f.ide f.xl).1 = false)
    ∧ (∃ (s : State) (c : Fin 56) (k : Fin 5) (p : Bool), Receives s c modeCan ∧ s.get (Fld.BE_STATUS_TEC ↑c) ≤ 255 ∧ s.get (Fld.BE_STATUS_REC ↑c) ≤ 255
      ∧ (¬(k = 4 ∧ s.get (Fld.BE_STATUS_FCS ↑c) = 1 ∧ p = false)))
    ∧ (∃ (s : State) (c : Fin 56) (k : Fin 5) (p : Bool), Receives s c modeCan ∧ s.get (Fld.BE_STATUS_TEC ↑c) ≤ 255 ∧ s.get (Fld.BE_STATUS_REC ↑c) ≤ 255
      ∧ k = 4 ∧ s.get (Fld.BE_STATUS_FCS ↑c) = 1 ∧ p = false)
    ∧ (∃ (s : State) (c : Fin 56) (b : List Byte) (own : Bool) (rest : List TxEnt), Receives s c modeCan ∧ s.get (Fld.BE_STATUS_TEC ↑c) ≤ 255 ∧ s.get
      (Fld.BE_STATUS_REC ↑c) ≤ 255 ∧ s.isSet (Fld.CAN_CFG_NO_RETX ↑c) = true ∧ (s.ch c).bus.txWait = [] ∧ (s.ch c).fifos.tx = TxEnt.item b own ::
      rest)
    ∧ (∃ (s : State) (c : Fin 56), Receives s c modeCan ∧ s.get (Fld.BE_STATUS_TEC ↑c) ≤ 255 ∧ s.get (Fld.BE_STATUS_REC ↑c) ≤ 255 ∧ s.isSet
      (Fld.CAN_CFG_NO_RETX ↑c) = false)
    ∧ (∃ (s : State) (c : Fin 56) (k : Fin 5), Receives s c modeCan ∧ s.get (Fld.BE_STATUS_TEC ↑c) ≤ 255 ∧ s.get (Fld.BE_STATUS_REC ↑c) ≤ 255 ∧ k ≠ 4)
    ∧ (∃ (s : State) (c : Fin 56), engineOf s ↑c = engRecovering)
    ∧ (∃ (s : State) (c : Fin 56) (brk : Byte), modeOf s ↑c = modeLin ∧ engineOf s ↑c = engListen ∧ s.get (Fld.LIN_CFG_BREAK_DETECT ↑c) ≤ BitVec.toNat
      brk)
    ∧ (∃ (s : State) (c : Fin 56) (brk : Byte), BitVec.toNat brk < s.get (Fld.LIN_CFG_BREAK_DETECT ↑c))
    ∧ (∃ (s : State) (c : Fin 56) (pid : Byte) (brk : Byte), modeOf s ↑c = modeLin ∧ engineOf s ↑c = engOn ∧ s.get (Fld.LIN_CFG_ROLE ↑c) = 1 ∧ s.get
      (Fld.LIN_CFG_BREAK_DETECT ↑c) ≤ BitVec.toNat brk ∧ linParBad (BitVec.toNat pid) = false ∧ linMatch (s.ch c).fifos (BitVec.toNat pid) = none)
    ∧ (∃ (s : State) (c : Fin 56) (pid : Byte) (brk : Byte) (b : List Byte), modeOf s ↑c = modeLin ∧ engineOf s ↑c = engOn ∧ s.get (Fld.LIN_CFG_ROLE ↑c)
      = 1 ∧ s.get (Fld.LIN_CFG_BREAK_DETECT ↑c) ≤ BitVec.toNat brk ∧ linParBad (BitVec.toNat pid) = false ∧ linMatch (s.ch c).fifos (BitVec.toNat
      pid) = some b)
    ∧ (∃ (s : State) (c : Fin 56) (g : LinFrame), Receives s c modeLin ∧ (filterDecide s (↑c) (BitVec.toNat g.pid % 64) false false).1 = true ∧
      linParBad (BitVec.toNat g.pid) = false ∧ g.data.length ≤ 8 ∧ linSumBad g = false)
    ∧ (∃ (s : State) (c : Fin 56) (g : LinFrame), Receives s c modeLin ∧ (filterDecide s (↑c) (BitVec.toNat g.pid % 64) false false).1 = true ∧
      linParBad (BitVec.toNat g.pid) = false ∧ g.data.length ≤ 8 ∧ linSumBad g = true)
    ∧ (∃ (s : State) (c : Fin 56) (id : BitVec 6) (t : ℕ), Quiet s c ∧ ↑c < 48 ∧ (s.ch c).bus.linHdr = some (id.toNat, t) ∧ (filterDecide s (↑c)
      id.toNat false false).1 = true) :=
  ⟨⟨rd [], C, 1, by unfold Reaches PageAt; decide +kernel⟩,
   ⟨en [], C, 1, by unfold Reaches PageAt; decide +kernel⟩,
   ⟨rd [], 50, 9, by unfold Reaches PageAt; decide +kernel⟩,
   ⟨rd [], 50, 1, by unfold Reaches PageAt; decide +kernel⟩,
   ⟨md 1 1 [(Fld.CAN_CFG_FD_EN 5, 0),(Fld.CAN_CFG_PROTO_EXC 5, 1)], C, cf, by unfold Receives Quiet; decide +kernel⟩,
   ⟨md 1 1 [(Fld.CAN_CFG_FD_EN 5, 0),(Fld.CAN_CFG_PROTO_EXC 5, 0)], C, cf, by unfold Receives Quiet; decide +kernel⟩,
   ⟨md 1 1 [(Fld.CAN_CFG_FD_EN 5, 1)], C, cf, by unfold Receives Quiet; decide +kernel⟩,
   ⟨md 1 1 [(Fld.FILT_CTRL_DEFAULT 5, 1)], C, {cf with fdf := false, tx := false, data := [1,2,3]}, by unfold Receives Quiet; decide +kernel⟩,
   ⟨md 1 1 [(Fld.BE_STATUS_TEC 5, 99), (Fld.BE_STATUS_FCS 5, 1)], C, 4, true, by unfold Receives Quiet; decide +kernel⟩,
   ⟨md 1 1 [(Fld.BE_STATUS_TEC 5, 99), (Fld.BE_STATUS_FCS 5, 1)], C, 4, false, by unfold Receives Quiet; decide +kernel⟩,
   ⟨(md 1 1 [(Fld.CAN_CFG_NO_RETX 5, 1)]).modFifos C (fun f => {f with tx := [.item (txi 1 8) false, .item (txi 1 5) false]}), C, txi 1 8, false,
     [.item (txi 1 5) false], by unfold Receives Quiet; decide +kernel⟩,
   ⟨md 1 1 [], C, by unfold Receives Quiet; decide +kernel⟩,
   ⟨md 1 1 [(Fld.BE_STATUS_TEC 5, 248), (Fld.BE_STATUS_REC 5, 250)], C, 2, by unfold Receives Quiet; decide +kernel⟩,
   ⟨md 1 4 [(Fld.BE_STATUS_TEC 5, 99), (Fld.BE_STATUS_REC 5, 77),(Fld.BE_STATUS_FCS 5, 2)], C, by decide +kernel⟩,
   ⟨md 2 2 [], C, 11, by decide +kernel⟩,
   ⟨md 2 2 [], C, 8, by decide +kernel⟩,
   ⟨md 2 1 [(Fld.LIN_CFG_ROLE 5, 1)], C, 0x92, 11, by decide +kernel⟩,
   ⟨(md 2 1 [(Fld.LIN_CFG_ROLE 5, 1)]).modFifos C (fun f => {f with tx := [.item (lin 3 0x11) false, .item (lin 4 0x12) false]}), C, 0x92, 11,
     lin 4 0x12, by decide +kernel⟩,
   ⟨md 2 1 [], C, lf, by unfold Receives Quiet; decide +kernel⟩,
   ⟨md 2 1 [], C, {lf with sum := 0x12}, by unfold Receives Quiet; decide +kernel⟩,
   ⟨(md 2 1 []).modBus C (fun b => {b with linHdr := some (0x3D, 55)}), C, 0x3D, 55, by unfold Quiet; decide +kernel⟩⟩

theorem test_meets_TransfersAndItems :
    (∃ (s : State) (c : Fin 56) (m : SentMsg), Receives s c modeSent ∧ sentCalOk s c m.cal.toNat = true ∧ sentCrcBad s (↑c) m = false ∧ m.kind = 1)
    ∧ (∃ (s : State) (c : Fin 56) (m : SentMsg), Receives s c modeSent ∧ sentTakes s (↑c) (BitVec.toNat m.kind) = true ∧ sentCalOk s c m.cal.toNat =
      false)
    ∧ (∃ (s : State) (c : Fin 56), Receives s c modePsi5 ∧ s.isSet (Fld.PSI5_CFG_SYNC ↑c) = false)
    ∧ (∃ (s : State) (c : Fin 56), modeOf s ↑c = modePsi5 ∧ engineOf s ↑c = engOn ∧ s.isSet (Fld.PSI5_CFG_SYNC ↑c) = true ∧ (s.ch c).bus.psiSeen =
      false)
    ∧ (∃ (s : State) (c : Fin 56), (s.ch c).bus.psiSync = true)
    ∧ (∃ (s : State) (c : Fin 56), Receives s c modeUart ∧ (s.ch c).bus.uart = none ∧ s.get (Fld.UART_CFG_DATA_BITS ↑c) ≠ 9 ∧ 1 < s.get
      (Fld.UART_CFG_MAX_LEN ↑c) ∧ s.isSet (Fld.UART_CFG_DELIM_EN ↑c) = false)
    ∧ (∃ (s : State) (c : Fin 56) (ch : BitVec 9), Receives s c modeUart ∧ (s.ch c).bus.uart = none ∧ s.get (Fld.UART_CFG_DATA_BITS ↑c) ≠ 9 ∧ 1 < s.get
      (Fld.UART_CFG_MAX_LEN ↑c) ∧ s.isSet (Fld.UART_CFG_DELIM_EN ↑c) = true ∧ ch.toNat = s.get (Fld.UART_CFG_DELIM ↑c))
    ∧ (∃ (s : State) (c : Fin 56) (u0 : UartItem), Quiet s c ∧ ↑c < 48 ∧ (s.ch c).bus.uart = some u0 ∧ u0.chars.length ≤ 2048 ∧ u0.frErr = false ∧
      u0.paErr = false ∧ s.get (Fld.UART_CFG_DATA_BITS ↑c) ≠ 9)
    ∧ (∃ (s : State) (c : Fin 56) (n : Fin 4), Receives s c modeTimer ∧ s.get (Fld.PIN_CFG_FUNC ↑c ↑n) = 1 ∧ s.isSet (Fld.PIN_CFG_INVERT ↑c ↑n) = false)
    ∧ (∃ (s : State) (c : Fin 56) (n : Fin 4), Receives s c modeTimer ∧ s.get (Fld.PIN_CFG_FUNC ↑c ↑n) = 2 ∧ s.get (Fld.PIN_CFG_FUNC (↑c) 0) ≠ 3 ∧
      s.isSet (Fld.PIN_CFG_INVERT ↑c ↑n) = false)
    ∧ (∃ (s : State) (c : Fin 56) (n : Fin 4) (p : TimerPin), p = (s.ch c).bus.pins[n] ∧ Receives s c modeTimer ∧ s.get (Fld.PIN_CFG_FUNC ↑c ↑n) = 4 ∧
      p.pwm = true ∧ p.high < p.period)
    ∧ (∃ (s : State) (c : Fin 56) (n : Fin 4) (p : TimerPin), p = (s.ch c).bus.pins[n] ∧ Receives s c modeTimer ∧ s.get (Fld.PIN_CFG_FUNC ↑c ↑n) = 4 ∧
      p.pwm = false)
    ∧ (∃ (s : State) (c : Fin 56) (e : ExecOrder) (b : List Byte) (rest : List TxEnt), ↑c < 48 ∧ engineOf s ↑c = engOn ∧ (modeOf s ↑c = modeCan ∧
      s.isSet (Fld.CAN_CFG_RESTRICTED ↑c) = false ∨ modeOf s ↑c = modeUart ∨ modeOf s ↑c = modeLin ∧ s.get (Fld.LIN_CFG_ROLE ↑c) ≠ 1) ∧ s.frozen c
      = false ∧ (s.ch c).bus.txWait = [] ∧ (s.ch c).fifos.tx = TxEnt.item b true :: rest ∧ (∀ y ∈ rest, ∀ (z : List Byte), y ≠ TxEnt.item z true ∧
      ∀ (k : ℕ), y ≠ TxEnt.marker k) ∧ (s.sq c).exec = some e ∧ e.result = none)
    ∧ (∃ (s : State) (c : Fin 56) (e : ExecOrder) (fr : Bool) (pa : Bool), ↑c < 48 ∧ modeOf s ↑c = modeUart ∧ (s.sq c).exec = some e ∧ e.order.op =
      oExchange ∧ e.loaded = true ∧ e.result = none ∧ (fr || pa) = true)
    ∧ (∃ (s : State) (c : Fin 56) (e : ExecOrder) (bs : List Byte), e.result = none ∧ e.order.sk = false ∧ e.order.op = oExchange ∧ e.order.word2 < 2 ^
      63 ∧ bs.length = e.order.count ∧ (s.ch c).bus.later = [] ∧ inTransferOf s c modeSpi = some e)
    ∧ (∃ (s : State) (c : Fin 56) (e : ExecOrder) (bs : List Byte), e.result = none ∧ e.order.sk = false ∧ e.order.op = oExchange ∧ e.order.word2 < 2 ^
      63 ∧ bs.length = e.order.count ∧ (s.ch c).bus.later = [] ∧ inTransferOf s c modeI2c = some e ∧ (s.ch c).fifos.rx = [])
    ∧ (∃ (s : State) (c : Fin 56) (e : ExecOrder) (left : Half), inTransferOf s c modeI2c = some e ∧ e.result = none ∧ e.order.op ≠ oReceive ∧
      BitVec.toNat left < 65535 ∧ (s.ch c).bus.later = [])
    ∧ (∃ (s : State) (c : Fin 56) (e : ExecOrder) (addr : BitVec 7) (x : ℕ), inTransferOf s c modeI2c = some e ∧ e.order.op = oTransmit ∧ e.result =
      none ∧ (s.ch c).bus.later = [] ∧ x < 64 ∧ s.get (Fld.PT_ENTRY_STATE (↑c) x) = partnerPresent ∧ s.get (Fld.PT_ENTRY_KIND (↑c) x) = 7 ∧ s.get
      (Fld.PT_ENTRY_KEY (↑c) x) = addr.toNat ∧ (∀ y < x, s.get (Fld.PT_ENTRY_STATE (↑c) y) = partnerFree)) :=
  ⟨⟨md 3 1 [(Fld.SENT_CFG_TICK_NS 5, 3000),(Fld.SENT_CFG_NIBBLES 5, 6)], C, smg, by unfold Receives Quiet; decide +kernel⟩,
   ⟨md 3 1 [(Fld.SENT_CFG_TICK_NS 5, 6000),(Fld.SENT_CFG_NIBBLES 5, 6)], C, sm, by unfold Receives Quiet; decide +kernel⟩,
   ⟨md 4 1 [], C, by unfold Receives Quiet; decide +kernel⟩,
   ⟨md 4 1 [(Fld.PSI5_CFG_SYNC 5, 1),(Fld.PSI5_CFG_SYNC_PERIOD_US 5, 50)], C, by decide +kernel⟩,
   ⟨(md 4 1 [(Fld.PSI5_CFG_SYNC 5, 1),(Fld.PSI5_CFG_SYNC_PERIOD_US 5, 50)]).modBus C (fun b => {b with psiSync := true}), C, by decide +kernel⟩,
   ⟨md 5 1 [], C, by unfold Receives Quiet; decide +kernel⟩,
   ⟨md 5 1 [(Fld.UART_CFG_DELIM_EN 5, 1),(Fld.UART_CFG_DELIM 5, 0x0A)], C, 0x0A, by unfold Receives Quiet; decide +kernel⟩,
   ⟨(md 5 1 []).modBus C (fun b => {b with uart := some ui}), C, ui, by unfold Quiet; decide +kernel⟩,
   ⟨md 8 1 [(Fld.PIN_CFG_FUNC 5 2, 1)], C, 2, by unfold Receives Quiet; decide +kernel⟩,
   ⟨md 8 1 [(Fld.PIN_CFG_FUNC 5 2, 2)], C, 2, by unfold Receives Quiet; decide +kernel⟩,
   ⟨(md 8 1 [(Fld.PIN_CFG_FUNC 5 2, 4),(Fld.PIN_CFG_PERIOD 5 2, 1000),(Fld.PIN_CFG_HIGH 5 2, 100)]).modBus C (fun b => {b with pins := b.pins.set 2 {TimerPin.reset with pwm := true, high := 50, period := 900}}),
     C, 2, _, rfl, by unfold Receives Quiet; decide +kernel⟩,
   ⟨(md 8 1 [(Fld.PIN_CFG_FUNC 5 2, 4),(Fld.PIN_CFG_PERIOD 5 2, 1000),(Fld.PIN_CFG_HIGH 5 2, 100)]).modBus C (fun b => {b with pins := b.pins.set 2 {TimerPin.reset with pwm := false, high := 50, period := 900}}),
     C, 2, _, rfl, by unfold Receives Quiet; decide +kernel⟩,
   ⟨(xs 5 oTransmit).modFifos C (fun f => {f with tx := [.item (txi 6 5) true, .item (txi 6 3) false]}), C, xo oTransmit, txi 6 5,
     [.item (txi 6 3) false],
     by decide +kernel, by decide +kernel, by decide +kernel, by decide +kernel, by decide +kernel, by decide +kernel, by simp, by decide +kernel, by decide +kernel⟩,
   ⟨xsl 1, C, xol, true, false, by decide +kernel⟩,
   ⟨xs 6 oExchange, C, xo oExchange, [1,2,3,4,5,6,7,8], by decide +kernel⟩,
   ⟨xs 7 oExchange, C, xo oExchange, [1,2,3,4,5,6,7,8], by decide +kernel⟩,
   ⟨xs 7 oExchange, C, xo oExchange, 7, by decide +kernel⟩,
   ⟨setF (xs 7 oTransmit) [(Fld.PT_ENTRY_STATE 5 0, 1),(Fld.PT_ENTRY_KIND 5 0, 7),(Fld.PT_ENTRY_KEY 5 0, 9)], C, xo oTransmit, 9, 0,
     by decide +kernel⟩⟩

end Transfers

namespace Control

def en (l : List (Fld × Nat)) : State := rd ([(Fld.CHAN_STATE_STATE 5, 1), (Fld.ROUTE_STATE_STATE 5, 2), (Fld.ROUTE_ADDR_ADDR 5, 0x4000), (Fld.ROUTE_INFO_ORDER_LIMIT 5, 100),(NOW, 123456),(TICK, 88)] ++ l)
def dq (o : Order) (i : Nat) (l : List (Fld × Nat)) : State := modSeq (en l) C (fun q => {q with fetch := .ready i o, due := true, pc := i, prev := (0,0)})
def md (m e : Nat) : List (Fld × Nat) := [(Fld.BE_MODE_MODE 5, m), (Fld.BE_STATUS_ENGINE 5, e)]
def ct (code w2 : Nat) : Order := mkO oControl 0 (code * 2^16) 0 w2
abbrev S (o : Order) (l : List (Fld × Nat)) : State := dq o 3 l
def se (code cnt : Nat) : Order := mkO oSense 0 (cnt + code * 2^16) 0x9000 0
def bw (op b58 b56 b52 : Nat) (lo : Nat) : Nat := op * 2^60 + b58 * 2^58 + b56 * 2^56 + b52 * 2^52 + lo
def bs (w : Nat) (l : List (Fld × Nat)) (f : Barge → Barge) : State :=
  let s := (rd ([(Fld.CHAN_STATE_STATE 5, 1), (NOW, 123456),(TICK, 88), (Fld.BM_STATUS_STATE 5, 1), (Fld.ACT_PROG_PROG 5, 0x8000), (Fld.BA_BA 5 0, 0x1000), (Fld.BA_BA 5 1, 2^63+0x777), (Fld.BA_BA 5 2, 0x3000), (Fld.BA_BA 5 3, 0x4000),(Fld.BA_INIT_BA 5 1, 0x6666)] ++ l)).dramWrite 0x8000 ((List.replicate 8 (leBytes 8 (bw 7 0 0 0 0))).flatten)
  s.modCh C (fun c => {c with barge := f {c.barge with npc := 2, cur := some (BitVec.ofNat 64 w), ahead := some (BitVec.ofNat 64 (bw 7 0 0 0 0))}})
abbrev NX : Word := BitVec.ofNat 64 (bw 7 0 0 0 0)
def lpp (k : Nat) (v : Nat) : State := bs (bw 2 (2*k) 0 0 1) [(if k = 0 then Fld.CNT_CNT0 5 else Fld.CNT_CNT1 5, v), (Fld.CNT_INIT_CNT0 5, 77), (Fld.CNT_INIT_CNT1 5, 78)] id
def wt (k n : Nat) (l : List (Fld × Nat)) : State := bs (bw 3 (k/4) (k%4) 0 n) l id
def we (k : BWait) (m : Bool) : State := bs (bw 3 0 2 0 500) [(Fld.BM_STATUS_STATE 5, 2)] (fun b => {b with wait := some k, met := m})
def sg (d : Nat) : Nat := bw 4 d 0 0 (0x1234 * 2^16 + 2)
def upS (s : State) : State := {s with host := {s.host with link := true, bme := true}}
def dq50 (o : Order) (l : List (Fld × Nat)) : State := modSeq (rd ([(Fld.CHAN_STATE_STATE 50, 1), (Fld.ROUTE_STATE_STATE 50, 2), (Fld.ROUTE_ADDR_ADDR 50, 0x4000), (Fld.ROUTE_INFO_ORDER_LIMIT 50, 100),(NOW, 123456),(TICK, 88)] ++ l)) 50 (fun q => {q with fetch := .ready 3 o, due := true, pc := 3, prev := (0,0)})

theorem test_meets_ControlAndSense :
    (∃ (s : State) (c : Fin 56) (i : ℕ) (code : ℕ) (o : Order), code = bf o.param 0 16 ∧ DueAt s c i o ∧ Plain o ∧ (s.sq c).chainBuf = [] ∧ o.op =
      oControl ∧ code = 1 ∧ ↑c < 48 ∧ modeOf s ↑c = modeCan ∧ engineOf s ↑c = engOff)
    ∧ (∃ (s : State) (c : Fin 56) (i : ℕ) (code : ℕ) (o : Order), code = bf o.param 0 16 ∧ DueAt s c i o ∧ Plain o ∧ (s.sq c).chainBuf = [] ∧ o.op =
      oControl ∧ code = 2 ∧ ↑c < 48 ∧ modeOf s ↑c = modeUart ∧ engineOf s ↑c = engOff)
    ∧ (∃ (s : State) (c : Fin 56) (i : ℕ) (code : ℕ) (o : Order), code = bf o.param 0 16 ∧ DueAt s c i o ∧ Plain o ∧ (s.sq c).chainBuf = [] ∧ o.op =
      oControl ∧ code = 2 ∧ ↑c < 48 ∧ modeOf s ↑c = modeCan ∧ engineOf s ↑c = engBusOff)
    ∧ (∃ (s : State) (c : Fin 56) (i : ℕ) (code : ℕ) (o : Order), code = bf o.param 0 16 ∧ DueAt s c i o ∧ Plain o ∧ (s.sq c).chainBuf = [] ∧ o.op =
      oControl ∧ code = 2 ∧ ↑c < 48 ∧ modeOf s ↑c = modeNone)
    ∧ (∃ (s : State) (c : Fin 56) (i : ℕ) (code : ℕ) (o : Order), code = bf o.param 0 16 ∧ DueAt s c i o ∧ Plain o ∧ (s.sq c).chainBuf = [] ∧ o.op =
      oControl ∧ 48 ≤ ↑c ∧ modeOf s ↑c ≠ modeNone ∧ code = 1)
    ∧ (∃ (s : State) (c : Fin 56) (i : ℕ) (code : ℕ) (o : Order), code = bf o.param 0 16 ∧ DueAt s c i o ∧ Plain o ∧ (s.sq c).chainBuf = [] ∧ o.op =
      oControl ∧ 48 ≤ ↑c ∧ modeOf s ↑c ≠ modeNone ∧ code = 2)
    ∧ (∃ (s : State) (c : Fin 56) (i : ℕ) (code : ℕ) (o : Order), code = bf o.param 0 16 ∧ DueAt s c i o ∧ Plain o ∧ (s.sq c).chainBuf = [] ∧ o.op =
      oControl ∧ 48 ≤ ↑c ∧ modeOf s ↑c ≠ modeNone ∧ code = 3)
    ∧ (∃ (s : State) (c : Fin 56) (i : ℕ) (code : ℕ) (o : Order), code = bf o.param 0 16 ∧ DueAt s c i o ∧ Plain o ∧ (s.sq c).chainBuf = [] ∧ o.op =
      oControl ∧ code = 3 ∧ ↑c < 48 ∧ (modeOf s ↑c = modeCan ∨ modeOf s ↑c = modeLin ∨ modeOf s ↑c = modeUart))
    ∧ (∃ (s : State) (c : Fin 56) (i : ℕ) (code : ℕ) (o : Order), code = bf o.param 0 16 ∧ DueAt s c i o ∧ Plain o ∧ (s.sq c).chainBuf = [] ∧ o.op =
      oControl ∧ code = 4 ∧ ↑c < 48 ∧ modeOf s ↑c = modeCan ∧ engineOf s ↑c = engOff ∧ s.isSet (Fld.BE_MODE_SPI_CS ↑c) = false ∧ o.word2 =
      modeLin)
    ∧ (∃ (s : State) (c : Fin 56) (i : ℕ) (code : ℕ) (o : Order), code = bf o.param 0 16 ∧ DueAt s c i o ∧ Plain o ∧ (s.sq c).chainBuf = [] ∧ o.op =
      oControl ∧ code = 4 ∧ ↑c < 48 ∧ modeOf s ↑c = modeCan ∧ engineOf s ↑c = engOn ∧ o.word2 = modeLin)
    ∧ (∃ (s : State) (c : Fin 56) (i : ℕ) (code : ℕ) (o : Order), code = bf o.param 0 16 ∧ DueAt s c i o ∧ Plain o ∧ (s.sq c).chainBuf = [] ∧ o.op =
      oControl ∧ code = 6)
    ∧ (∃ (s : State) (c : Fin 56) (i : ℕ) (code : ℕ) (o : Order) (acks : BitVec 128), code = bf o.param 0 16 ∧ DueAt s c i o ∧ Plain o ∧ (s.sq
      c).chainBuf = [] ∧ o.op = oControl ∧ code = 7 ∧ ↑c < 48 ∧ modeOf s ↑c = modeI2c ∧ acks = 0 ∧ (∀ k < 64, s.get (Fld.PT_ENTRY_STATE (↑c) k) ≠
      partnerPresent))
    ∧ (∃ (s : State) (c : Fin 56) (i : ℕ) (code : ℕ) (o : Order), code = bf o.param 0 16 ∧ DueAt s c i o ∧ Plain o ∧ (s.sq c).chainBuf = [] ∧ o.op =
      oControl ∧ code = 7 ∧ ↑c < 48 ∧ modeOf s ↑c ≠ modeI2c)
    ∧ (∃ (s : State) (c : Fin 56) (i : ℕ) (code : ℕ) (o : Order), code = bf o.param 0 16 ∧ DueAt s c i o ∧ Plain o ∧ (s.sq c).chainBuf = [] ∧ o.op =
      oControl ∧ code = 8)
    ∧ (∃ (s : State) (c : Fin 56) (i : ℕ) (code : ℕ) (o : Order) (v : ℕ), code = bf o.param 0 16 ∧ DueAt s c i o ∧ Plain o ∧ (s.sq c).chainBuf = [] ∧
      o.op = oControl ∧ code = 269 ∧ ↑c < 48 ∧ v = o.word2 ∧ rsvHit (chPage (↑c) 2 + 368) v = false ∧ busCfgOk s (↑c) 368 v = true ∧ modeOf s ↑c ≠
      modeTimer)
    ∧ (∃ (s : State) (c : Fin 56) (i : ℕ) (code : ℕ) (o : Order), code = bf o.param 0 16 ∧ DueAt s c i o ∧ Plain o ∧ (s.sq c).chainBuf = [] ∧ o.op =
      oControl ∧ code = 256 ∧ ↑c < 48 ∧ rsvHit (chPage (↑c) 2 + 264) o.word2 = true ∧ o.cn = false)
    ∧ (∃ (s : State) (c : Fin 56) (i : ℕ) (code : ℕ) (o : Order), code = bf o.param 0 16 ∧ DueAt s c i o ∧ Plain o ∧ (s.sq c).chainBuf = [] ∧ o.op =
      oControl ∧ controlDefined (↑c) code = false)
    ∧ (∃ (s : State) (c : Fin 56) (i : ℕ) (code : ℕ) (o : Order), code = bf o.param 0 16 ∧ DueAt s c i o ∧ Plain o ∧ (s.sq c).chainBuf = [] ∧ o.op =
      oSense ∧ o.addr < 2 ^ 63 ∧ 8 ≤ o.count ∧ o.count % 8 = 0 ∧ code = 1 ∧ o.count ≤ 64)
    ∧ (∃ (s : State) (c : Fin 56) (i : ℕ) (code : ℕ) (o : Order), code = bf o.param 0 16 ∧ DueAt s c i o ∧ Plain o ∧ (s.sq c).chainBuf = [] ∧ o.op =
      oSense ∧ o.addr < 2 ^ 63 ∧ 8 ≤ o.count ∧ o.count % 8 = 0 ∧ code = 2 ∧ o.count = 8)
    ∧ (∃ (s : State) (c : Fin 56) (i : ℕ) (code : ℕ) (o : Order), code = bf o.param 0 16 ∧ DueAt s c i o ∧ Plain o ∧ (s.sq c).chainBuf = [] ∧ o.op =
      oSense ∧ o.addr < 2 ^ 63 ∧ 8 ≤ o.count ∧ o.count % 8 = 0 ∧ code = 2 ∧ 8 < o.count)
    ∧ (∃ (s : State) (c : Fin 56) (i : ℕ) (code : ℕ) (o : Order), code = bf o.param 0 16 ∧ DueAt s c i o ∧ Plain o ∧ (s.sq c).chainBuf = [] ∧ o.op =
      oSense ∧ o.addr < 2 ^ 63 ∧ 8 ≤ o.count ∧ o.count % 8 = 0 ∧ code = 3 ∧ o.count ≤ 1024)
    ∧ (∃ (s : State) (c : Fin 56) (i : ℕ) (code : ℕ) (o : Order), code = bf o.param 0 16 ∧ DueAt s c i o ∧ Plain o ∧ (s.sq c).chainBuf = [] ∧ o.op =
      oSense ∧ o.addr < 2 ^ 63 ∧ 8 ≤ o.count ∧ o.count % 8 = 0 ∧ code = 4 ∧ ↑c < 48 ∧ o.count = 8)
    ∧ (∃ (s : State) (c : Fin 56) (i : ℕ) (code : ℕ) (o : Order), code = bf o.param 0 16 ∧ DueAt s c i o ∧ Plain o ∧ (s.sq c).chainBuf = [] ∧ o.op =
      oSense ∧ o.addr < 2 ^ 63 ∧ 8 ≤ o.count ∧ o.count % 8 = 0 ∧ (¬(1 ≤ code ∧ code ≤ 4))) :=
  ⟨⟨dq (ct 1 0) 3 (md 1 0), C, 3, _, ct 1 0, rfl, by unfold DueAt Plain; decide +kernel⟩,
   ⟨dq (ct 2 0) 3 (md 5 0), C, 3, _, ct 2 0, rfl, by unfold DueAt Plain; decide +kernel⟩,
   ⟨dq (ct 2 0) 3 (md 1 3), C, 3, _, ct 2 0, rfl, by unfold DueAt Plain; decide +kernel⟩,
   ⟨dq (ct 2 0) 3 (md 0 0), C, 3, _, ct 2 0, rfl, by unfold DueAt Plain; decide +kernel⟩,
   ⟨dq50 (ct 1 0) [(Fld.BE_MODE_MODE 50, 9)], 50, 3, _, ct 1 0, rfl, by unfold DueAt Plain; decide +kernel⟩,
   ⟨dq50 (ct 2 0) [(Fld.BE_MODE_MODE 50, 9)], 50, 3, _, ct 2 0, rfl, by unfold DueAt Plain; decide +kernel⟩,
   ⟨dq50 (ct 3 0) [(Fld.BE_MODE_MODE 50, 9),(Fld.BE_STATUS_ENGINE 50, 1)], 50, 3, _, ct 3 0, rfl, by unfold DueAt Plain; decide +kernel⟩,
   ⟨dq (ct 3 0) 3 (md 1 1), C, 3, _, ct 3 0, rfl, by unfold DueAt Plain; decide +kernel⟩,
   ⟨dq (ct 4 2) 3 (md 1 0), C, 3, _, ct 4 2, rfl, by unfold DueAt Plain; decide +kernel⟩,
   ⟨dq (ct 4 2) 3 (md 1 1), C, 3, _, ct 4 2, rfl, by unfold DueAt Plain; decide +kernel⟩,
   ⟨dq (ct 6 0) 3 (md 1 1 ++ [(Fld.PT_ENTRY_STATE 5 7, 1),(Fld.PT_ENTRY_STATE 5 63, 2)]), C, 3, _, ct 6 0, rfl,
     by unfold DueAt Plain; decide +kernel⟩,
   ⟨dq (ct 7 0) 3 (md 7 1 ++ [(Fld.PT_ENTRY_STATE 5 63, 2)]), C, 3, _, ct 7 0, 0, rfl, by unfold DueAt Plain; decide +kernel⟩,
   ⟨dq (ct 7 0) 3 (md 1 1), C, 3, _, ct 7 0, rfl, by unfold DueAt Plain; decide +kernel⟩,
   ⟨dq (ct 8 0) 3 (md 1 1 ++ [(Fld.STATS_CNT_COUNT 5 7, 9)]), C, 3, _, ct 8 0, rfl, by unfold DueAt Plain; decide +kernel⟩,
   ⟨dq (ct 0x10D (2 + 1000*2^16)) 3 (md 1 0), C, 3, _, ct 0x10D (2 + 1000*2^16), 2 + 1000*2^16, rfl, by unfold DueAt Plain; decide +kernel⟩,
   ⟨dq (ct 0x100 (2^63)) 3 (md 1 0), C, 3, _, ct 0x100 (2^63), rfl, by unfold DueAt Plain; decide +kernel⟩,
   ⟨dq (ct 0x55 0) 3 (md 1 0), C, 3, _, ct 0x55 0, rfl, by unfold DueAt Plain; decide +kernel⟩,
   ⟨dq (se 1 8) 3 (md 1 0 ++ [(Fld.STATS_CNT_COUNT 5 0, 9)]), C, 3, _, se 1 8, rfl, by unfold DueAt Plain; decide +kernel⟩,
   ⟨dq (se 2 8) 3 (md 1 1), C, 3, _, se 2 8, rfl, by unfold DueAt Plain; decide +kernel⟩,
   ⟨dq (se 2 16) 3 (md 1 1), C, 3, _, se 2 16, rfl, by unfold DueAt Plain; decide +kernel⟩,
   ⟨dq (se 3 1024) 3 (md 1 1), C, 3, _, se 3 1024, rfl, by unfold DueAt Plain; decide +kernel⟩,
   ⟨dq (se 4 8) 3 (md 1 1), C, 3, _, se 4 8, rfl, by unfold DueAt Plain; decide +kernel⟩,
   ⟨dq (se 5 8) 3 (md 1 1), C, 3, _, se 5 8, rfl, by unfold DueAt Plain; decide +kernel⟩⟩

theorem test_meets_BargeProgram :
    (∃ (s : State) (c : Fin 56) (w : ℕ) (nx : Word), BargeAt s c w nx ∧ bOp w = 6 ∧ bf w 52 4 = 0)
    ∧ (∃ (s : State) (c : Fin 56) (w : ℕ) (d : ℕ) (nx : Word), d = bf w 58 2 ∧ BargeAt s c w nx ∧ bOp w = 6 ∧ bf w 52 4 = 1 ∧ s.get (Fld.BA_BA (↑c) d) <
      2 ^ 64)
    ∧ (∃ (s : State) (c : Fin 56) (w : ℕ) (d : ℕ) (nx : Word), d = bf w 58 2 ∧ BargeAt s c w nx ∧ bOp w = 6 ∧ bf w 52 4 = 2 ∧ s.get (Fld.BA_BA (↑c) d) <
      2 ^ 64)
    ∧ (∃ (s : State) (c : Fin 56) (w : ℕ) (nx : Word), BargeAt s c w nx ∧ bOp w = 6 ∧ bf w 52 4 = 3)
    ∧ (∃ (s : State) (c : Fin 56) (w : ℕ) (nx : Word), BargeAt s c w nx ∧ bOp w = 6 ∧ bf w 52 4 = 4)
    ∧ (∃ (s : State) (c : Fin 56) (w : ℕ) (nx : Word), BargeAt s c w nx ∧ bOp w = 6 ∧ bf w 52 4 = 5)
    ∧ (∃ (s : State) (c : Fin 56) (w : ℕ) (nx : Word), BargeAt s c w nx ∧ bOp w = 7)
    ∧ (∃ (s : State) (c : Fin 56) (w : ℕ) (nx : Word), BargeAt s c w nx ∧ bOp w = 15 ∧ s.isSet (Fld.BM_CTRL_ARM ↑c) = false)
    ∧ (∃ (s : State) (c : Fin 56) (w : ℕ), bmReady s c = some w ∧ bargeValid w = false)
    ∧ (∃ (s : State) (c : Fin 56) (w : ℕ) (nx : Word) (f : Fld), (f = if bit w 59 = true then Fld.CNT_CNT1 ↑c else Fld.CNT_CNT0 ↑c) ∧ BargeAt s c w nx ∧
      bOp w = 2 ∧ s.get f = 0)
    ∧ (∃ (s : State) (c : Fin 56) (w : ℕ) (nx : Word) (f : Fld), (f = if bit w 59 = true then Fld.CNT_CNT1 ↑c else Fld.CNT_CNT0 ↑c) ∧ BargeAt s c w nx ∧
      bOp w = 2 ∧ s.get f = 1)
    ∧ (∃ (s : State) (c : Fin 56) (w : ℕ) (nx : Word) (x : Word) (f : Fld), (f = if bit w 59 = true then Fld.CNT_CNT1 ↑c else Fld.CNT_CNT0 ↑c) ∧ BargeAt
      s c w nx ∧ bOp w = 2 ∧ 1 < s.get f ∧ s.get f < 2 ^ 32 ∧ fetchWord s c (bf w 0 16) = some x)
    ∧ (∃ (s : State) (c : Fin 56) (w : ℕ) (nx : Word), BargeAt s c w nx ∧ bOp w = 3 ∧ bf w 56 4 = 0)
    ∧ (∃ (s : State) (c : Fin 56) (w : ℕ) (nx : Word), BargeAt s c w nx ∧ bOp w = 3 ∧ bf w 56 4 = 1)
    ∧ (∃ (s : State) (c : Fin 56) (w : ℕ) (nx : Word), BargeAt s c w nx ∧ bOp w = 3 ∧ bf w 56 4 = 2)
    ∧ (∃ (s : State) (c : Fin 56) (w : ℕ) (nx : Word), BargeAt s c w nx ∧ bOp w = 3 ∧ bf w 56 4 = 3 ∧ s.isSet (Fld.BM_STATUS_KICK ↑c) = false)
    ∧ (∃ (s : State) (c : Fin 56) (w : ℕ) (nx : Word), BargeAt s c w nx ∧ bOp w = 3 ∧ bf w 56 4 = 3 ∧ s.isSet (Fld.BM_STATUS_KICK ↑c) = true)
    ∧ (∃ (s : State) (c : Fin 56) (nx : Word) (k : BWait), (s.barge c).wait = some k ∧ (s.barge c).ahead = some nx ∧ (s.barge c).met = true ∧ (∀ (t :
      ℕ), k ≠ BWait.time t) ∧ k ≠ BWait.kick)
    ∧ (∃ (s : State) (c : Fin 56) (nx : Word) (k : BWait) (t : ℕ), (s.barge c).wait = some k ∧ (s.barge c).ahead = some nx ∧ k = BWait.time t ∧ t < 2 ^
      64 ∧ s.now < 2 ^ 64 ∧ ((t : Int) - s.now).natAbs < 2 ^ 63 ∧ s.canReach t = true)
    ∧ (∃ (s : State) (c : Fin 56) (w : ℕ) (nx : Word), BargeAt s c w nx ∧ bOp w = 4)
    ∧ (∃ (s : State) (c : Fin 56) (nx : Word) (x : Word), (s.barge c).signal = true ∧ (s.barge c).cur = some x ∧ (s.barge c).ahead = some nx ∧ (s.barge
      c).tickHo = false ∧ (s.barge c).abort = false)
    ∧ (∃ (s : State) (c : Fin 56) (w : ℕ) (nx : Word), BargeAt s c w nx ∧ bOp w = 5 ∧ (s.barge c).hostAt = none)
    ∧ (∃ (s : State) (c : Fin 56) (nx : Word) (x : Word), (s.barge c).fence = true ∧ (s.barge c).cur = some x ∧ (s.barge c).ahead = some nx ∧ (s.barge
      c).hostAt = none)
    ∧ (∃ (s : State) (c : Fin 56) (nx : Word) (x : Word), (s.barge c).fence = true ∧ (s.barge c).cur = some x ∧ (s.barge c).ahead = some nx ∧ (s.barge
      c).hostAt.isSome = true ∧ bf (BitVec.toNat x) 58 2 ≠ 1 ∧ s.hostOk = true) :=
  ⟨⟨bs (bw 6 1 0 0 (2^48 + 0x123456789ABC)) [] id, C, bw 6 1 0 0 (2^48 + 0x123456789ABC), NX, by unfold BargeAt; decide +kernel⟩,
   ⟨bs (bw 6 1 0 1 0x7ABC) [] id, C, bw 6 1 0 1 0x7ABC, _, NX, rfl, by unfold BargeAt; decide +kernel⟩,
   ⟨bs (bw 6 1 0 2 (2^48-8)) [] id, C, bw 6 1 0 2 (2^48-8), _, NX, rfl, by unfold BargeAt; decide +kernel⟩,
   ⟨bs (bw 6 2 1 3 0) [] id, C, bw 6 2 1 3 0, NX, by unfold BargeAt; decide +kernel⟩,
   ⟨bs (bw 6 2 1 4 0) [] id, C, bw 6 2 1 4 0, NX, by unfold BargeAt; decide +kernel⟩,
   ⟨bs (bw 6 1 0 5 0) [] id, C, bw 6 1 0 5 0, NX, by unfold BargeAt; decide +kernel⟩,
   ⟨bs (bw 7 0 0 0 0) [] id, C, bw 7 0 0 0 0, NX, by unfold BargeAt; decide +kernel⟩,
   ⟨bs (bw 15 0 0 0 0) [] id, C, bw 15 0 0 0 0, NX, by unfold BargeAt; decide +kernel⟩,
   ⟨bs 0 [] id, C, 0, by decide +kernel⟩,
   ⟨lpp 0 0, C, bw 2 0 0 0 1, NX, _, rfl, by unfold BargeAt; decide +kernel⟩,
   ⟨lpp 1 1, C, bw 2 2 0 0 1, NX, _, rfl, by unfold BargeAt; decide +kernel⟩,
   ⟨lpp 1 2, C, bw 2 2 0 0 1, NX, NX, _, rfl, by unfold BargeAt; decide +kernel⟩,
   ⟨wt 0 5 [], C, bw 3 0 0 0 5, NX, by unfold BargeAt; decide +kernel⟩,
   ⟨wt 1 0 [], C, bw 3 0 1 0 0, NX, by unfold BargeAt; decide +kernel⟩,
   ⟨wt 2 500 [], C, bw 3 0 2 0 500, NX, by unfold BargeAt; decide +kernel⟩,
   ⟨wt 3 0 [], C, bw 3 0 3 0 0, NX, by unfold BargeAt; decide +kernel⟩,
   ⟨wt 3 0 [(Fld.BM_STATUS_KICK 5, 1)], C, bw 3 0 3 0 0, NX, by unfold BargeAt; decide +kernel⟩,
   ⟨we (.tick 0) true, C, NX, .tick 0, by decide +kernel, by decide +kernel, by decide +kernel, by simp, by decide +kernel⟩,
   ⟨we (.time 2000) false, C, NX, .time 2000, 2000, by decide +kernel⟩,
   ⟨bs (sg 0) [] id, C, sg 0, NX, by unfold BargeAt; decide +kernel⟩,
   ⟨bs (sg 0) [] (fun b => {b with signal := true}), C, NX, BitVec.ofNat 64 (sg 0), by decide +kernel⟩,
   ⟨bs (bw 5 0 0 0 0) [] id, C, bw 5 0 0 0 0, NX, by unfold BargeAt; decide +kernel⟩,
   ⟨bs (bw 5 0 0 0 0) [(Fld.BM_STATUS_STATE 5, 3)] (fun b => {b with fence := true}), C, NX, BitVec.ofNat 64 (bw 5 0 0 0 0), by decide +kernel⟩,
   ⟨upS (bs (bw 5 0 0 0 0) [(Fld.BM_STATUS_STATE 5, 3)] (fun b => {b with fence := true, hostAt := some 0x1000})), C, NX,
     BitVec.ofNat 64 (bw 5 0 0 0 0), by decide +kernel⟩⟩

end Control

namespace BargeMoves

def H (s : State) : State := s.modHost (fun h => {h with link := true, bme := true})
def bw (op b58 b56 b52 : Nat) (lo : Nat) : Nat := op * 2^60 + b58 * 2^58 + b56 * 2^56 + b52 * 2^52 + lo
def bs (w : Nat) (l : List (Fld × Nat)) (f : Barge → Barge) : State :=
  let s := (rd ([(Fld.CHAN_STATE_STATE 5, 1), (NOW, 123456),(TICK, 88), (Fld.BM_STATUS_STATE 5, 1), (Fld.ACT_PROG_PROG 5, 0x8000), (Fld.BA_BA 5 0, 0x1000), (Fld.BA_BA 5 1, 0x2000), (Fld.BA_BA 5 2, 0x3001), (Fld.BA_BA 5 3, 2^62)] ++ l)).dramWrite 0x8000 ((List.replicate 8 (leBytes 8 (bw 7 0 0 0 0))).flatten)
  (s.dramWrite 0x1000 [1,2,3,4,5,6,7,8,9]).modCh C (fun c => {c with barge := f {c.barge with npc := 2, cur := some (BitVec.ofNat 64 w), ahead := some (BitVec.ofNat 64 (bw 7 0 0 0 0))}})
abbrev NX : Word := BitVec.ofNat 64 (bw 7 0 0 0 0)
def mv (s d len inc : Nat) : Nat := bw 1 s d 0 (len + inc * 2^54)
def md (inc : Nat) : State := bs (mv 0 1 16 inc) [] (fun b => {b with move := some ⟨0, 0x1000, 0x2000, 16⟩})

theorem test_meets_BargeMovesAndControl :
    (∃ (s : State) (c : Fin 56) (w : ℕ) (nx : Word) (src : Word) (dst : Word), src = BitVec.ofNat 64 (s.get (Fld.BA_BA (↑c) (bf w 58 2))) ∧ dst =
      BitVec.ofNat 64 (s.get (Fld.BA_BA (↑c) (bf w 56 2))) ∧ BargeAt s c w nx ∧ bOp w = 1 ∧ (BitVec.toNat src % 8 ≠ 0 ∨ BitVec.toNat dst % 8 ≠ 0 ∨
      bf w 0 24 % 8 ≠ 0))
    ∧ (∃ (s : State) (c : Fin 56) (w : ℕ) (nx : Word) (src : Word) (dst : Word), src = BitVec.ofNat 64 (s.get (Fld.BA_BA (↑c) (bf w 58 2))) ∧ dst =
      BitVec.ofNat 64 (s.get (Fld.BA_BA (↑c) (bf w 56 2))) ∧ BargeAt s c w nx ∧ bOp w = 1 ∧ BitVec.toNat src % 8 = 0 ∧ BitVec.toNat dst % 8 = 0 ∧
      bf w 0 24 % 8 = 0 ∧ bargeArea s (↑c) src (bf w 0 24) false = none)
    ∧ (∃ (s : State) (c : Fin 56) (w : ℕ) (nx : Word) (src : Word) (dst : Word), src = BitVec.ofNat 64 (s.get (Fld.BA_BA (↑c) (bf w 58 2))) ∧ dst =
      BitVec.ofNat 64 (s.get (Fld.BA_BA (↑c) (bf w 56 2))) ∧ BargeAt s c w nx ∧ bOp w = 1 ∧ BitVec.toNat src % 8 = 0 ∧ BitVec.toNat dst % 8 = 0 ∧
      bf w 0 24 % 8 = 0 ∧ BitVec.toNat src + bf w 0 24 ≤ s.devRegion ∧ BitVec.toNat dst + bf w 0 24 ≤ s.devRegion)
    ∧ (∃ (s : State) (c : Fin 56) (w : ℕ) (nx : Word) (src : Word) (dst : Word), src = BitVec.ofNat 64 (s.get (Fld.BA_BA (↑c) (bf w 58 2))) ∧ dst =
      BitVec.ofNat 64 (s.get (Fld.BA_BA (↑c) (bf w 56 2))) ∧ BargeAt s c w nx ∧ bOp w = 1 ∧ BitVec.toNat src % 8 = 0 ∧ BitVec.toNat dst % 8 = 0 ∧
      bf w 0 24 % 8 = 0 ∧ BitVec.getLsbD src 63 = true ∧ (bargeArea s (↑c) src (bf w 0 24) false).isSome = true ∧ (bargeArea s (↑c) dst (bf w 0
      24) true).isSome = true ∧ 0 < bf w 0 24 ∧ bf w 0 24 ≤ 512 ∧ BitVec.toNat src % 4096 + bf w 0 24 ≤ 4096)
    ∧ (∃ (s : State) (c : Fin 56) (nx : Word) (x : Word) (src : Word) (dst : Word) (len : ℕ) (ask : ℕ), (s.barge c).move = some
      { asked := ask, src := src, dst := dst, len := len } ∧ (s.barge c).cur = some x ∧ (s.barge c).ahead = some nx ∧ (s.barge c).tickHo = false ∧
      (s.barge c).abort = false ∧ 0 < len ∧ len % 8 = 0 ∧ BitVec.toNat src + len ≤ s.devRegion ∧ BitVec.toNat dst + len ≤ s.devRegion ∧ s.poison =
      [] ∧ (BitVec.toNat src + len ≤ BitVec.toNat dst ∨ BitVec.toNat dst + len ≤ BitVec.toNat src))
    ∧ (∃ (s : State) (c : Fin 56) (x : Word), s.hostOk = false ∧ (s.barge c).move = none ∧ (s.barge c).cur = some x ∧ (s.barge c).fence = true ∧
      (s.barge c).hostAt.isSome = true ∧ bf (BitVec.toNat x) 58 2 ≠ 1)
    ∧ (∃ (s : State) (c : Fin 56) (v : Word), Reaches s (Reg.BM_CTRL ↑c) (withField (v.toNat) (Fld.BM_CTRL_ARM ↑c) 1) ∧ bit (withField (v.toNat)
      (Fld.BM_CTRL_ARM ↑c) 1) 0 = true ∧ s.isSet (Fld.BM_CTRL_ARM ↑c) = false ∧ chAccepts s ↑c = true)
    ∧ (∃ (s : State) (c : Fin 56) (v : Word), Reaches s (Reg.BM_CTRL ↑c) (withField (v.toNat) (Fld.BM_CTRL_ARM ↑c) 1) ∧ bit (withField (v.toNat)
      (Fld.BM_CTRL_ARM ↑c) 1) 0 = true ∧ s.isSet (Fld.BM_CTRL_ARM ↑c) = false ∧ chAccepts s ↑c = false)
    ∧ (∃ (s : State) (c : Fin 56) (v : Word), Reaches s (Reg.BM_CTRL ↑c) (withField (v.toNat) (Fld.BM_CTRL_DISARM ↑c) 1) ∧ bit (withField (v.toNat)
      (Fld.BM_CTRL_DISARM ↑c) 1) 1 = true ∧ s.isSet (Fld.BM_CTRL_ARM ↑c) = true)
    ∧ (∃ (s : State) (c : Fin 56) (v : Word), Reaches s (Reg.SH_PROG ↑c) (v.toNat) ∧ s.isSet (Fld.BM_CTRL_ARM ↑c) = false)
    ∧ (∃ (s : State) (c : Fin 56) (v : Word), Reaches s (Reg.SH_PROG ↑c) (v.toNat) ∧ s.isSet (Fld.BM_CTRL_ARM ↑c) = true)
    ∧ (∃ (s : State) (c : Fin 56), Reaches s (Reg.BM_CMD ↑c) 1 ∧ s.isSet (Fld.BM_STATUS_KICK ↑c) = false)
    ∧ (∃ (s : State) (c : Fin 56), Reaches s (Reg.BM_CMD ↑c) 2 ∧ bmState s ↑c = bmRun ∧ (s.barge c).ended = false ∧ (s.barge c).move = none ∧ (s.barge
      c).signal = false ∧ s.isSet (Fld.BM_CTRL_ARM ↑c) = false)
    ∧ (∃ (s : State) (c : Fin 56), Reaches s (Reg.BM_CMD ↑c) 4 ∧ bmState s ↑c = bmError)
    ∧ (∃ (s : State) (c : Fin 56) (x : Word), s.isSet (Fld.BM_CTRL_ARM ↑c) = true ∧ s.isSet (Fld.BM_CTRL_HANDOVER_TICK ↑c) = false ∧ bmState s ↑c =
      bmIdle ∧ fetchWord (s.put (Fld.ACT_PROG_PROG ↑c) (s.get (Fld.SH_PROG_PROG ↑c))) c 0 = some x) :=
  ⟨⟨bs (mv 0 1 12 3) [] id, C, mv 0 1 12 3, NX, _, _, rfl, rfl, by unfold BargeAt; decide +kernel⟩,
   ⟨bs (mv 3 1 16 3) [] id, C, mv 3 1 16 3, NX, _, _, rfl, rfl, by unfold BargeAt; decide +kernel⟩,
   ⟨bs (mv 0 1 16 3) [] id, C, mv 0 1 16 3, NX, _, _, rfl, rfl, by unfold BargeAt; decide +kernel⟩,
   ⟨bs (mv 0 1 16 3) [(Fld.BA_BA 5 0, 2^63 + 0x1000)] id, C, mv 0 1 16 3, NX, _, _, rfl, rfl, by unfold BargeAt; decide +kernel⟩,
   ⟨md 3, C, NX, BitVec.ofNat 64 (mv 0 1 16 3), 0x1000, 0x2000, 16, default, by decide +kernel⟩,
   ⟨bs (bw 5 0 0 0 0) [(Fld.BM_STATUS_STATE 5, 3)] (fun b => {b with fence := true, hostAt := some 0x1000}), C, BitVec.ofNat 64 (bw 5 0 0 0 0),
     by decide +kernel⟩,
   ⟨bs (bw 5 0 0 0 0) [] id, C, 0, by unfold Reaches PageAt; decide +kernel⟩,
   ⟨rd [], C, 0, by unfold Reaches PageAt; decide +kernel⟩,
   ⟨rd [(Fld.BM_CTRL_ARM 5, 1)], C, 0, by unfold Reaches PageAt; decide +kernel⟩,
   ⟨rd [], C, 0, by unfold Reaches PageAt; decide +kernel⟩,
   ⟨rd [(Fld.BM_CTRL_ARM 5, 1)], C, 0, by unfold Reaches PageAt; decide +kernel⟩,
   ⟨md 3, C, by unfold Reaches PageAt; decide +kernel⟩,
   ⟨bs (mv 0 1 16 3) [] id, C, by unfold Reaches PageAt; decide +kernel⟩,
   ⟨rd [(Fld.BM_STATUS_STATE 5, 4)], C, by unfold Reaches PageAt; decide +kernel⟩,
   ⟨bs 0 [(Fld.BM_CTRL_ARM 5, 1),(Fld.BM_STATUS_STATE 5, 0),(Fld.SH_PROG_PROG 5, 0x8000),(Fld.SH_BA_BA 5 3, 99)] (fun b => {b with cur := none, ahead := none}),
     C, NX, by decide +kernel⟩⟩

end BargeMoves

namespace Ports

abbrev D : Fin 56 := 50
def en (l : List (Fld × Nat)) : State := rd ([(Fld.CHAN_STATE_STATE 50, 1), (NOW, 123456),(TICK, 88),(Fld.BE_MODE_MODE 50, 9), (Fld.BE_STATUS_ENGINE 50, 1),(Fld.ETH_STATUS_LINK 50, 1),(Fld.ETH_CFG_TX_EN 50, 1),(Fld.ETH_CFG_CAP_EN 50, 1),(Fld.ETH_CFG_STRIP_FCS 50, 0)] ++ l)
def eth (s : State) (f : Eth → Eth) : State := s.modEth D f
def hdr : List Byte := List.replicate 12 2 ++ [0x08, 0x00] ++ List.replicate 50 1
def hv : List Byte := List.replicate 12 2 ++ [0x81, 0x00, 0, 5, 0x08, 0x00] ++ List.replicate 50 1
def rx0 : EthRx := ⟨999, 1, 0, false, false, 9216, [], 0, true, false, [], false⟩
def txi (k n : Nat) : List Byte := padTo 8 (leBytes 2 n ++ leBytes 1 k ++ zeros 13 ++ List.replicate n 0x41)
def dl : State := eth (en [(Fld.PTP_CFG_ROLE 50, 2),(Fld.PTP_CFG_PDELAY_MAX_NS 50, 800),(Fld.ETH_LAT_RX_LAT_NS 50, 10)]) (fun e => {e with ptpT1 := some 1000})
def lock (l : List (Fld × Nat)) : State := rd ([(Fld.CHAN_STATE_STATE 5, 1), (NOW, 123456),(TICK, 88)] ++ l)
def rc (n : Nat) : Rec := ⟨5, 0x20, 5, 0, 0, List.replicate n 3⟩
def ch (recs : List Rec) (f : Chamber → Chamber) (s : State) : State := s.modCh C (fun c => {c with chamber := f {c.chamber with h0 := {c.chamber.h0 with st := .full, recs := recs, used := (recs.map recSize).sum, tick := 87, stamp := 1}, h1 := {c.chamber.h1 with st := .filling}, filling := 1, swaps := 1}})
def act (s : State) : State := s.modTb (fun t => {t with active := [0x05000000], edgeNs := 123000})
def lotsCredits : List Credit := (List.range 768).map (fun k => ⟨k, 6, false, [], true, k, 0⟩)
def dr (s : State) : State := ch [rc 8, rc 600] (fun c => {c with h0 := {c.h0 with st := .draining}}) {s with credits := [⟨0,5,false,[],false,7,0⟩,⟨1,5,false,[],false,7,1⟩,⟨2,6,false,[],true,8,0⟩]}
def bas (recs : List Rec) (s : State) : State := {s with basin := {s.basin with h0 := {s.basin.h0 with st := .full, recs := recs, used := (recs.map recSize).sum, tick := 87, stamp := 1}, h1 := {s.basin.h1 with st := .filling}, filling := 1}}
def bCred : List Credit := (List.range 16).map (fun k => ⟨k, 0xFF, false, [], true, k, 0⟩)
def exn (_n off : Option Nat) (num : Nat) : Extent := ⟨num, 5, 87, 0, 40, [rc 24], [none], false, false, off⟩
def crs (off : Option Nat) : Course := ⟨87, 8700000, false, [], [exn none off 7]⟩
def crd : Credit := ⟨0,5,false,List.replicate 40 9,true,7,0⟩
def nx : Course := ⟨88, 8800000, false, [], []⟩
def cc (tick : Nat) (l : List (Fld × Nat)) (ds : List DoneCourse) : State := {lock ([(TICK, tick)] ++ l) with courses := [crs (some 4096), nx], dones := ds}
def sp3 : Stopping := ⟨none, false, 80, 3, true, ⟨0, 0, 0⟩⟩

theorem test_meets_StreamPorts :
    (∃ (s : State) (c : Fin 56) (sfd : Word) (f : State), f = captureAt s c (BitVec.toNat sfd) ∧ 48 ≤ ↑c ∧ chState s ↑c ≠ chFenced ∧ (∀ (p :
      Stopping), (s.ch c).stopping = some p → p.fenced = false) ∧ (s.sq c).exec = none ∧ (s.eth c).rx = none ∧ s.isSet (Fld.ETH_STATUS_LINK ↑c) =
      true ∧ modeOf s ↑c = modeEth ∧ engineOf s ↑c = engOn ∧ (∀ i < 8, f.get (Fld.ETH_FILTER2_ACTION (↑c) i) = 0) ∧ f.get (Fld.FILT_CTRL_DEFAULT
      ↑c) = 0)
    ∧ (∃ (s : State) (c : Fin 56) (sfd : Word) (f : State), f = captureAt s c (BitVec.toNat sfd) ∧ 48 ≤ ↑c ∧ chState s ↑c ≠ chFenced ∧ (∀ (p :
      Stopping), (s.ch c).stopping = some p → p.fenced = false) ∧ (s.sq c).exec = none ∧ (s.eth c).rx = none ∧ s.isSet (Fld.ETH_STATUS_LINK ↑c) =
      true ∧ modeOf s ↑c = modeEth ∧ engineOf s ↑c = engOn ∧ (∀ i < 8, f.get (Fld.ETH_FILTER2_ACTION (↑c) i) = 0) ∧ f.get (Fld.FILT_CTRL_DEFAULT
      ↑c) ≠ 0)
    ∧ (∃ (s : State) (c : Fin 56) (data : List Byte) (all : List Byte) (r : EthRx) (ce : Bool) (err : Bool), all = r.rest ++ data ∧ err = (r.err || ce)
      ∧ 48 ≤ ↑c ∧ chState s ↑c ≠ chFenced ∧ (∀ (p : Stopping), (s.ch c).stopping = some p → p.fenced = false) ∧ (s.sq c).exec = none ∧ (s.eth
      c).rx = some r ∧ 8192 + ethStrip s ↑c < all.length ∧ r.cut + 8192 < r.snap ∧ ethKeeps s (↑c) r = true ∧ (err = false ∨ s.isSet
      (Fld.ETH_CFG_ERR_KEEP ↑c) = true))
    ∧ (∃ (s : State) (c : Fin 56) (data : List Byte) (all : List Byte) (r : EthRx) (ce : Bool) (err : Bool), all = r.rest ++ data ∧ err = (r.err || ce)
      ∧ 48 ≤ ↑c ∧ chState s ↑c ≠ chFenced ∧ (∀ (p : Stopping), (s.ch c).stopping = some p → p.fenced = false) ∧ (s.sq c).exec = none ∧ (s.eth
      c).rx = some r ∧ (r.action = 2 ∨ all.length ≤ 8192 + ethStrip s ↑c ∨ r.snap ≤ r.cut + 8192 ∨ err = true ∧ s.isSet (Fld.ETH_CFG_ERR_KEEP ↑c)
      = false))
    ∧ (∃ (s : State) (c : Fin 56) (data : List Byte) (all : List Byte) (r : EthRx), all = r.rest ++ data ∧ 48 ≤ ↑c ∧ chState s ↑c ≠ chFenced ∧ (∀ (p :
      Stopping), (s.ch c).stopping = some p → p.fenced = false) ∧ (s.sq c).exec = none ∧ (s.eth c).rx = some r ∧ (s.eth c).held = [] ∧ r.cut = 0 ∧
      r.action = 1 ∧ r.track = false ∧ r.err = false ∧ 64 ≤ all.length ∧ all.length ≤ r.snap ∧ all.length ≤ 8192 ∧ s.isSet (Fld.ETH_CFG_CAP_EN ↑c)
      = true ∧ s.isSet (Fld.ETH_CFG_STRIP_FCS ↑c) = false)
    ∧ (∃ (s : State) (c : Fin 56) (k : ℕ) (ts : ℕ) (rest : List (ℕ × ℕ)), 48 ≤ ↑c ∧ ethTxOk s ↑c = true ∧ (s.eth c).ptpQ = (k, ts) :: rest ∧ k ≠
      ptpAnnounce)
    ∧ (∃ (s : State) (c : Fin 56) (ts : ℕ) (rest : List (ℕ × ℕ)), 48 ≤ ↑c ∧ ethTxOk s ↑c = true ∧ (s.eth c).ptpQ = (ptpAnnounce, ts) :: rest)
    ∧ (∃ (s : State) (c : Fin 56) (b : List Byte), 48 ≤ ↑c ∧ ethTxOk s ↑c = true ∧ (s.eth c).ptpQ = [] ∧ (s.ch c).fifos.tx = [TxEnt.item b false] ∧
      (s.ch c).bus.txWait = [])
    ∧ (∃ (s : State) (c : Fin 56) (d : Datagram) (q : List Datagram), 48 ≤ ↑c ∧ ethTxOk s ↑c = true ∧ (s.eth c).ptpQ = [] ∧ (s.ch c).fifos.tx = [] ∧
      (s.eth c).telQ = d :: q ∧ s.isSet (Fld.TEL_CFG_EN ↑c) = true ∧ s.get (Fld.TEL_CFG_RATE_MBPS ↑c) = 0)
    ∧ (∃ (s : State) (c : Fin 56), 48 ≤ ↑c ∧ (s.sq c).exec = none ∧ s.isSet (Fld.ETH_STATUS_LINK ↑c) = false ∧ SMap.get 0 s.portOut (↑c - 43) = 0)
    ∧ (∃ (s : State) (c : Fin 56), 48 ≤ ↑c ∧ (s.sq c).exec = none ∧ SMap.get 0 s.portOut (↑c - 43) ≠ 0)
    ∧ (∃ (s : State) (c : Fin 56) (v : Word), 48 ≤ ↑c ∧ Reaches s (Reg.MDIO_CMD ↑c) (withField (v.toNat) (Fld.MDIO_CMD_GO ↑c) 1) ∧ bit (withField
      (v.toNat) (Fld.MDIO_CMD_GO ↑c) 1) 44 = true ∧ s.isSet (Fld.MDIO_CMD_BUSY ↑c) = false)
    ∧ (∃ (s : State) (c : Fin 56), 48 ≤ ↑c ∧ s.isSet (Fld.MDIO_CMD_BUSY ↑c) = true)
    ∧ (∃ (s : State) (c : Fin 56), 48 ≤ ↑c ∧ s.get (Fld.PTP_CFG_ROLE ↑c) = 2)
    ∧ (∃ (s : State) (c : Fin 56) (sfd : Word) (t2 : Word) (t3 : Word) (t1 : ℕ) (delay : ℕ) (lat : ℕ) (ratio : BitVec 32), lat = (captureAt s c
      (BitVec.toNat sfd)).get (Fld.ETH_LAT_RX_LAT_NS ↑c) ∧ 48 ≤ ↑c ∧ s.get (Fld.PTP_CFG_ROLE ↑c) ≠ 0 ∧ (s.eth c).ptpT1 = some t1 ∧ delay = ptpLink
      (↑t1) (↑(min (BitVec.toNat sfd) s.now - lat)) (↑(BitVec.toNat t2)) (↑(BitVec.toNat t3)) ratio.toInt)
    ∧ (∃ (s : State) (c : Fin 56), 48 ≤ ↑c ∧ s.get (Fld.PTP_CFG_ROLE ↑c) = 1 ∧ s.get (Fld.ETH_STATUS_PTP ↑c) = 2 ∧ s.get Fld.TB_CTRL_SRC_CHAN = ↑c - 48) :=
  ⟨⟨dl, D, 2010, _, rfl, by decide +kernel⟩,
   ⟨en [(Fld.FILT_CTRL_DEFAULT 50, 1)], D, 999, _, rfl, by decide +kernel⟩,
   ⟨eth (en []) (fun e => {e with rx := some {rx0 with snap := 9216}}), D, List.replicate 8193 3, _, rx0, default, _, rfl, rfl, by decide +kernel⟩,
   ⟨eth (en []) (fun e => {e with rx := some rx0}), D, List.replicate 64 3, _, rx0, default, _, rfl, rfl, by decide +kernel⟩,
   ⟨eth (en []) (fun e => {e with rx := some rx0}), D, List.replicate 64 3, _, rx0, rfl, by decide +kernel⟩,
   ⟨eth (en []) (fun e => {e with ptpQ := [(ptpSync,5), (ptpPdelay,0)]}), D, ptpSync, 5, [(ptpPdelay,0)], by decide +kernel⟩,
   ⟨eth (en []) (fun e => {e with ptpQ := [(ptpAnnounce,0), (ptpSync,0)]}), D, 0, [(ptpSync,0)], by decide +kernel⟩,
   ⟨(en []).modFifos D (fun f => {f with tx := [.item (txi 0x10 60) false]}), D, txi 0x10 60, by decide +kernel⟩,
   ⟨eth (en [(Fld.TEL_CFG_EN 50, 1)]) (fun e => {e with telQ := [⟨3, [1,2,3]⟩, ⟨4, [1]⟩], ipId := 65535}), D, ⟨3, [1,2,3]⟩, [⟨4, [1]⟩],
     by decide +kernel⟩,
   ⟨en [(Fld.ETH_STATUS_LINK 50, 0)], D, by decide +kernel⟩,
   ⟨{(en [(Fld.ETH_STATUS_LINK 50, 0)]) with portOut := [(7, 1)]}, D, by decide +kernel⟩,
   ⟨en [], D, 0, by unfold Reaches PageAt; decide +kernel⟩,
   ⟨en [(Fld.MDIO_CMD_BUSY 50, 1)], D, by decide +kernel⟩,
   ⟨dl, D, by decide +kernel⟩,
   ⟨dl, D, 2010, 5000, 5200, 1000, ptpLink 1000 2000 5000 5200 100, _, 100, rfl, by decide +kernel⟩,
   ⟨en [(Fld.PTP_CFG_ROLE 50, 1),(Fld.ETH_STATUS_PTP 50, 2),(Fld.TB_CTRL_SRC_CHAN, 2),(Fld.ETH_LAT_RX_LAT_NS 50, 10),(Fld.TB_CTRL_SRC, 2)], D,
     by decide +kernel⟩⟩

theorem test_meets_PoundAndRing :
    (∃ (s : State) (n : Fin 448) (w : Word) (c : Fin 56) (k : ℕ), s.tb.active[↑n]? = some w ∧ lsChan w = ↑c ∧ ↑n ∉ s.tb.served ∧ chLocks s ↑c = true ∧
      lsSub w < (s.ch c).chamber.swaps ∧ slotBefore s (↑n) w = false ∧ s.canReach (s.tb.edgeNs + lsOff w) = true ∧ (s.ch c).chamber.oldestFull =
      some k ∧ (s.ch c).chamber.draining = none ∧ (((s.ch c).chamber.copies.any fun x_1 => x_1.half == k) = true))
    ∧ (∃ (s : State) (n : Fin 448) (w : Word) (c : Fin 56) (k : ℕ) (h : ChHalf), h = (s.ch c).chamber.half k ∧ s.tb.active[↑n]? = some w ∧ lsChan w = ↑c
      ∧ ↑n ∉ s.tb.served ∧ chLocks s ↑c = true ∧ lsSub w < (s.ch c).chamber.swaps ∧ slotBefore s (↑n) w = false ∧ s.canReach (s.tb.edgeNs + lsOff
      w) = true ∧ (s.ch c).chamber.oldestFull = some k ∧ (s.ch c).chamber.draining = none ∧ (((s.ch c).chamber.copies.any fun x_1 => x_1.half ==
      k) = false) ∧ h.recs = [])
    ∧ (∃ (s : State) (n : Fin 448) (w : Word) (c : Fin 56) (k : ℕ) (p : ℕ) (h : ChHalf), h = (s.ch c).chamber.half k ∧ s.tb.active[↑n]? = some w ∧
      lsChan w = ↑c ∧ ↑n ∉ s.tb.served ∧ chLocks s ↑c = true ∧ lsSub w < (s.ch c).chamber.swaps ∧ slotBefore s (↑n) w = false ∧ s.canReach
      (s.tb.edgeNs + lsOff w) = true ∧ (s.ch c).chamber.oldestFull = some k ∧ (s.ch c).chamber.draining = none ∧ (((s.ch c).chamber.copies.any fun
      x_1 => x_1.half == k) = false) ∧ h.recs ≠ [] ∧ poundGrant s (↑c) (creditsFor h) = some p)
    ∧ (∃ (s : State) (c : Fin 56) (k : ℕ), (s.ch c).chamber.draining = some k)
    ∧ (∃ (s : State) (k : ℕ), s.basin.oldestFull = some k ∧ (s.basin.half k).recs ≠ [] ∧ quotaHeld s 255 + creditsFor (s.basin.half k) ≤ 16)
    ∧ (∃ (s : State) (k : ℕ), s.basin.oldestFull = some k ∧ (s.basin.half k).recs ≠ [] ∧ 16 < quotaHeld s 255 + creditsFor (s.basin.half k))
    ∧ (∃ (s : State) (off : ℕ) (x : Credit) (rest : List Credit) (e : Extent), s.credits = x :: rest ∧ unplaced s = none ∧ List.find? (fun e_1 => decide
      (e_1.num = x.ext)) (List.map (fun c_1 => c_1.exts) s.courses).flatten = some e ∧ e.off = some off)
    ∧ (∃ (s : State) (c : Course) (next : Course) (later : List Course) (prev : ℕ) (off : ℕ) (hdr : List Byte), hdr = courseHeader c c.late prev ∧
      s.courses = c :: next :: later ∧ unplaced s = none ∧ courseOwed s c.tick = false ∧ basinDrained s c.tick = true ∧ ((c.exts.any fun e =>
      e.off.isNone) = false) ∧ ((s.credits.any fun k_1 => c.exts.any fun e => decide (e.num = k_1.ext)) = false) ∧ (prev = if s.ringFirst = true
      then 2 ^ 64 - 1 else s.get Fld.RING_LAST_HDR_OFFSET) ∧ ringPlace s hdr.length = some off)
    ∧ (∃ (s : State) (k : ℕ) (n : Fin 56) (p : Stopping), (s.ch n).stopping = some p ∧ 3 ≤ p.edges ∧ (s.ch n).chamber.oldestFull = some k)
    ∧ (∃ (s : State) (v : Word), Reaches s Reg.RING_SIZE (v.toNat) ∧ s.toll.orderly = false ∧ (∀ (i : Fin 56), chConfigurable s ↑i = true) ∧ 64 ≤ bf
      (v.toNat) 0 16 ∧ (s.get Fld.RING_BASE_ADDR + bf (v.toNat) 0 16) * 2 ^ 20 ≤ s.devRegion)
    ∧ (∃ (s : State) (n : Fin 56) (v : Word), Reaches s Reg.RING_SIZE (v.toNat) ∧ s.toll.orderly = false ∧ (chConfigurable s ↑n = false ∨ bf (v.toNat) 0
      16 < 64 ∨ s.devRegion < (s.get Fld.RING_BASE_ADDR + bf (v.toNat) 0 16) * 2 ^ 20))
    ∧ (∃ (s : State), PageAt s Reg.POUND_STATUS)
    ∧ (∃ (s : State) (m : Fin 10), PageAt s (Reg.MON1 ↑m)) :=
  ⟨⟨act (ch [rc 8, rc 600] (fun c => {c with copies := [⟨0, 0, 0, 0x40, true, 24, []⟩]}) (lock [])), 0, 0x05000000, C, 0, by decide +kernel⟩,
   ⟨act (ch [] id (lock [])), 0, 0x05000000, C, 0, _, rfl, by decide +kernel⟩,
   ⟨act (ch [rc 8, rc 600] id (lock [])), 0, 0x05000000, C, 0, 0, _, rfl, by decide +kernel⟩,
   ⟨dr (lock []), C, 0, by decide +kernel⟩,
   ⟨bas [rc 8, rc 600] (lock []), 0, by decide +kernel⟩,
   ⟨{bas [rc 8, rc 600] (lock []) with credits := bCred}, 0, by decide +kernel⟩,
   ⟨{lock [] with credits := [crd], courses := [crs (some 4096)]}, 4096, crd, [], exn none (some 4096) 7, by decide +kernel⟩,
   ⟨cc 88 [] [], crs (some 4096), nx, [], 2^64-1, (ringPlace (cc 88 [] []) (courseHeader (crs (some 4096)) false (2^64-1)).length).getD 0, _, rfl,
     by decide +kernel⟩,
   ⟨(ch [rc 8] id (lock [])).modCh C (fun c => {c with stopping := some sp3}), 0, C, sp3, by decide +kernel⟩,
   ⟨rd [], 64, by unfold Reaches PageAt; decide +kernel⟩,
   ⟨rd [], C, 63, by unfold Reaches PageAt; decide +kernel⟩,
   ⟨rd [], by unfold PageAt; decide +kernel⟩,
   ⟨rd [(Fld.MON1_MIN_MV 3, 5),(Fld.MON1_NOW_MV 3, 3300),(Fld.MON1_BELOW 3, 1)], 3, by unfold PageAt; decide +kernel⟩⟩

end Ports

namespace Board

def sg (v : Int) (q ts t : Nat) : Sig := ⟨BitVec.ofInt 32 v, q, ts, t⟩
def sb0 (l : List (Fld × Nat)) : State :=
  let s := rd ([(NOW, 123456), (TICK, 88), (Fld.SIG_RANGE_BASE 5, 16), (Fld.SIG_RANGE_COUNT 5, 8), (Fld.SIG_RANGE_BASE 56, 100), (Fld.SIG_RANGE_COUNT 56, 4)] ++ l)
  {s with board := {s.board with live := [(16, sg 5 1 7 8), (18, sg 6 1 7 8), (100, sg 77 1 9 9)], view := [(16, sg 3 1 2 3), (20, sg (-3) 1 2 3), (101, sg 4 1 1 1)]}}
def rv (b m st : Nat) : Word := BitVec.ofNat 64 (b + m * 4096 + st * 2^32)
def hp (v sl q : Nat) : Word := BitVec.ofNat 64 (v + sl * 2^32 + q * 2^48)
def K : Fin 64 := 3
def prog (fire act hold : Nat) : KsProg := ⟨fire, act, 5, 10, 0x55, 0x4000, 20, hold, [⟨1, 2, 16, 1, 0, false⟩, ⟨5, 0, 0, 1, 0, false⟩]⟩
def ksx (f : Nat) (act hold : Nat) (la : Option Nat) (out : Nat) (val : Int) (pd : KsPend) (l : List (Fld × Nat)) : State :=
  let s := sb0 ([(Fld.KEY_CTRL_EN 3, 1), (Fld.KEY_CTRL_OUT 3, out)] ++ l)
  let s := {s with tb := {s.tb with edgeNs := s.now, keyOff := 100, used := some s.now, begun := true}, board := {s.board with view := [(16, sg val 1 2 3)]}}
  s.modKs K (fun _ => ⟨some (prog f act hold), [⟨false, none, 0, none⟩, ⟨false, none, 0, none⟩], la, pd, false⟩)
def ck (s : State) (f act hold : Nat) := ksTerms s (prog f act hold).terms (s.ks K).states []
def OT (v : Bool) : List Bool := [v, v]
def SST : List KsTermSt := [⟨false, none, 0, none⟩, ⟨false, none, 0, none⟩]
def tt (s : State) (o : Bool) : State := ksOut ((s.advanceTo (ksEnd s K)).modKs K (fun x => { x with states := SST, evald := true })) K o
def s1 := ksx 1 2 5 none 0 3 .none []
def s2 := ksx 1 2 5 none 1 3 .none []
def s3 := ksx 2 2 5 none 0 3 .none []
def s4 := ksx 1 0x67 5 (some 85) 0 3 .none []
def s5 := ksx 1 2 5 none 1 0 .none []
def s6 : State := let s := sb0 []; {s with board := {s.board with out0 := (true, 200000), out1 := (true, 100)}}
def s7 := ksx 1 2 5 none 0 0 .none [(Fld.KEY_CTRL_EN 3, 0), (Fld.KEY_CTRL_TERMS 3, 2)]
def s5b := ksx 2 2 5 none 1 0 .none []
def s5c := ksx 2 2 5 (some 85) 1 0 .none []

theorem test_meets_SignalBoard :
    (∃ (s : State) (n : Fin 57) (v : Word) (b : ℕ) (m : ℕ), b = bf (v.toNat) 0 12 ∧ m = bf (v.toNat) 12 13 ∧ Reaches s (Reg.SIG_RANGE ↑n) (v.toNat) ∧
      b + m ≤ 4096 ∧ (↑n < 56 → chConfigurable s ↑n = true) ∧ (∀ j < 57, j ≠ ↑n → m = 0 ∨ s.get (Fld.SIG_RANGE_COUNT j) = 0 ∨ s.get
      (Fld.SIG_RANGE_BASE j) + s.get (Fld.SIG_RANGE_COUNT j) ≤ b ∨ b + m ≤ s.get (Fld.SIG_RANGE_BASE j)))
    ∧ (∃ (s : State) (n : Fin 57) (v : Word) (b : ℕ) (m : ℕ) (ob : ℕ) (om : ℕ), Reaches s (Reg.SIG_RANGE ↑n) (v.toNat) ∧ b = bf (v.toNat) 0 12 ∧ m = bf
      (v.toNat) 12 13 ∧ ob = s.get (Fld.SIG_RANGE_BASE ↑n) ∧ om = s.get (Fld.SIG_RANGE_COUNT ↑n) ∧ 4096 < b + m)
    ∧ (∃ (s : State) (n : Fin 57) (v : Word) (b : ℕ) (m : ℕ) (ob : ℕ) (om : ℕ), Reaches s (Reg.SIG_RANGE ↑n) (v.toNat) ∧ b = bf (v.toNat) 0 12 ∧ m = bf
      (v.toNat) 12 13 ∧ ob = s.get (Fld.SIG_RANGE_BASE ↑n) ∧ om = s.get (Fld.SIG_RANGE_COUNT ↑n) ∧ ↑n < 56 ∧ chConfigurable s ↑n = false)
    ∧ (∃ (s : State) (v : Word) (slot : ℕ), Reaches s Reg.SIG_HOST_PUB (v.toNat) ∧ slot = bf (v.toNat) 32 12 ∧ slotOwner s slot = some 56 ∧ 1 ≤ bf
      (v.toNat) 48 8 ∧ bf (v.toNat) 48 8 ≤ 3)
    ∧ (∃ (s : State) (v : Word) (slot : ℕ), slot = bf (v.toNat) 32 12 ∧ Reaches s Reg.SIG_HOST_PUB (v.toNat) ∧ (slotOwner s slot ≠ some 56 ∨ bf
      (v.toNat) 48 8 = 0 ∨ 3 < bf (v.toNat) 48 8))
    ∧ (∃ (s : State), s.devState ≠ devDrydock) :=
  ⟨⟨sb0 [], 5, 0, _, _, rfl, rfl, by unfold Reaches PageAt; decide +kernel⟩,
   ⟨sb0 [], 5, rv 4000 100 7, 4000, 100, 16, 8, by unfold Reaches PageAt; decide +kernel⟩,
   ⟨sb0 [(Fld.CHAN_STATE_STATE 5, 1)], 5, rv 18 4 7, 18, 4, 16, 8, by unfold Reaches PageAt; decide +kernel⟩,
   ⟨sb0 [], hp 0x80000001 102 2, 102, by unfold Reaches PageAt; decide +kernel⟩,
   ⟨sb0 [], 0, _, rfl, by unfold Reaches PageAt; decide +kernel⟩,
   ⟨sb0 [], by decide +kernel⟩⟩

theorem test_meets_Keystones :
    (∃ (s : State) (t : State) (k : Fin 64) (p : KsProg) (outs : List Bool) (sts : List KsTermSt), (s.ks ↑k).prog = some p ∧ ksDue s ↑k = true ∧
      s.canReach (ksEnd s ↑k) = true ∧ ksTerms s p.terms (s.ks ↑k).states [] = (outs, sts) ∧ (t = ksOut ((s.advanceTo (ksEnd s ↑k)).modKs ↑k fun x
      => { prog := x.prog, states := sts, lastAct := x.lastAct, pend := x.pend, evald := true }) (↑k) (outs.getLastD false)) ∧ outs.getLastD false
      = s.isSet (Fld.KEY_CTRL_OUT ↑k))
    ∧ (∃ (s : State) (t : State) (k : Fin 64) (p : KsProg) (outs : List Bool) (sts : List KsTermSt), (s.ks ↑k).prog = some p ∧ ksDue s ↑k = true ∧
      s.canReach (ksEnd s ↑k) = true ∧ ksTerms s p.terms (s.ks ↑k).states [] = (outs, sts) ∧ (t = ksOut ((s.advanceTo (ksEnd s ↑k)).modKs ↑k fun x
      => { prog := x.prog, states := sts, lastAct := x.lastAct, pend := x.pend, evald := true }) (↑k) (outs.getLastD false)) ∧ outs.getLastD false
      = true ∧ s.isSet (Fld.KEY_CTRL_OUT ↑k) = false ∧ (bit p.fire 0 = false ∨ p.actions = 0))
    ∧ (∃ (s : State) (t : State) (k : Fin 64) (p : KsProg) (outs : List Bool) (sts : List KsTermSt), (s.ks ↑k).prog = some p ∧ ksDue s ↑k = true ∧
      s.canReach (ksEnd s ↑k) = true ∧ ksTerms s p.terms (s.ks ↑k).states [] = (outs, sts) ∧ (t = ksOut ((s.advanceTo (ksEnd s ↑k)).modKs ↑k fun x
      => { prog := x.prog, states := sts, lastAct := x.lastAct, pend := x.pend, evald := true }) (↑k) (outs.getLastD false)) ∧ outs.getLastD false
      = true ∧ s.isSet (Fld.KEY_CTRL_OUT ↑k) = false ∧ bit p.fire 0 = true ∧ p.actions = 2 ∧ (s.ks ↑k).lastAct = none)
    ∧ (∃ (s : State) (t : State) (k : Fin 64) (p : KsProg) (outs : List Bool) (sts : List KsTermSt) (last : ℕ), (s.ks ↑k).prog = some p ∧ ksDue s ↑k =
      true ∧ s.canReach (ksEnd s ↑k) = true ∧ ksTerms s p.terms (s.ks ↑k).states [] = (outs, sts) ∧ (t = ksOut ((s.advanceTo (ksEnd s ↑k)).modKs
      ↑k fun x => { prog := x.prog, states := sts, lastAct := x.lastAct, pend := x.pend, evald := true }) (↑k) (outs.getLastD false)) ∧
      outs.getLastD false = true ∧ s.isSet (Fld.KEY_CTRL_OUT ↑k) = false ∧ bit p.fire 0 = true ∧ p.actions ≠ 0 ∧ (s.ks ↑k).lastAct = some last ∧
      (s.tick + 2 ^ 48 - last) % 2 ^ 48 < p.holdoff)
    ∧ (∃ (s : State) (t : State) (k : Fin 64) (p : KsProg) (outs : List Bool) (sts : List KsTermSt), (s.ks ↑k).prog = some p ∧ ksDue s ↑k = true ∧
      s.canReach (ksEnd s ↑k) = true ∧ ksTerms s p.terms (s.ks ↑k).states [] = (outs, sts) ∧ (t = ksOut ((s.advanceTo (ksEnd s ↑k)).modKs ↑k fun x
      => { prog := x.prog, states := sts, lastAct := x.lastAct, pend := x.pend, evald := true }) (↑k) (outs.getLastD false)) ∧ outs.getLastD false
      = false ∧ s.isSet (Fld.KEY_CTRL_OUT ↑k) = true ∧ (bit p.fire 1 = false ∨ p.actions = 0))
    ∧ (∃ (s : State) (t : State) (k : Fin 64) (p : KsProg) (outs : List Bool) (sts : List KsTermSt), (s.ks ↑k).prog = some p ∧ ksDue s ↑k = true ∧
      s.canReach (ksEnd s ↑k) = true ∧ ksTerms s p.terms (s.ks ↑k).states [] = (outs, sts) ∧ (t = ksOut ((s.advanceTo (ksEnd s ↑k)).modKs ↑k fun x
      => { prog := x.prog, states := sts, lastAct := x.lastAct, pend := x.pend, evald := true }) (↑k) (outs.getLastD false)) ∧ outs.getLastD false
      = false ∧ s.isSet (Fld.KEY_CTRL_OUT ↑k) = true ∧ bit p.fire 1 = true ∧ p.actions = 2 ∧ (s.ks ↑k).lastAct = none)
    ∧ (∃ (s : State) (t : State) (k : Fin 64) (p : KsProg) (outs : List Bool) (sts : List KsTermSt) (last : ℕ), (s.ks ↑k).prog = some p ∧ ksDue s ↑k =
      true ∧ s.canReach (ksEnd s ↑k) = true ∧ ksTerms s p.terms (s.ks ↑k).states [] = (outs, sts) ∧ (t = ksOut ((s.advanceTo (ksEnd s ↑k)).modKs
      ↑k fun x => { prog := x.prog, states := sts, lastAct := x.lastAct, pend := x.pend, evald := true }) (↑k) (outs.getLastD false)) ∧
      outs.getLastD false = false ∧ s.isSet (Fld.KEY_CTRL_OUT ↑k) = true ∧ bit p.fire 1 = true ∧ p.actions ≠ 0 ∧ (s.ks ↑k).lastAct = some last ∧
      (s.tick + 2 ^ 48 - last) % 2 ^ 48 < p.holdoff)
    ∧ (∃ (s : State) (n : Fin 2) (stop : ℕ), (if n = 0 then s.board.out0 else s.board.out1) = (true, stop) ∧ s.canReach stop = true)
    ∧ (∃ (s : State) (n : Fin 2), (if n = 0 then s.board.in0 else s.board.in1).level = false)
    ∧ (∃ (s : State) (k : Fin 64), (s.ks ↑k).pend = KsPend.none ∧ (s.ks ↑k).prog.isSome = true ∧ Reaches s (Reg.KEY_CTRL ↑k) 1 ∧ s.get (Fld.KEY_CTRL_EN
      ↑k) = 0)
    ∧ (∃ (s : State) (k : Fin 64), (s.ks ↑k).pend = KsPend.none ∧ (s.ks ↑k).prog.isSome = true ∧ Reaches s (Reg.KEY_CTRL ↑k) 0 ∧ s.get (Fld.KEY_CTRL_EN
      ↑k) = 1)
    ∧ (∃ (s : State) (k : Fin 64), (s.ks ↑k).pend = KsPend.none ∧ (s.ks ↑k).prog.isSome = true ∧ Reaches s (Reg.KEY_CTRL ↑k) (2 + s.get (Fld.KEY_CTRL_EN
      ↑k)) ∧ s.get (Fld.KEY_CTRL_EN ↑k) < 2)
    ∧ (∃ (s : State) (k : Fin 64), ((s.ks ↑k).prog = none ∨ (s.ks ↑k).pend ≠ KsPend.none) ∧ Reaches s (Reg.KEY_CTRL ↑k) 1 ∧ s.get (Fld.KEY_CTRL_EN ↑k) =
      0)
    ∧ (∃ (s : State) (k : Fin 64), ((s.ks ↑k).prog = none ∨ (s.ks ↑k).pend ≠ KsPend.none) ∧ Reaches s (Reg.KEY_CTRL ↑k) 0 ∧ s.get (Fld.KEY_CTRL_EN ↑k) =
      1)
    ∧ (∃ (s : State) (k : Fin 64), ((s.ks ↑k).prog = none ∨ (s.ks ↑k).pend ≠ KsPend.none) ∧ Reaches s (Reg.KEY_CTRL ↑k) (2 + s.get (Fld.KEY_CTRL_EN ↑k))
      ∧ s.get (Fld.KEY_CTRL_EN ↑k) < 2) :=
  ⟨⟨s2, tt s2 true, K, prog 1 2 5, OT true, SST, by decide +kernel⟩,
   ⟨s3, tt s3 true, K, prog 2 2 5, OT true, SST, by decide +kernel⟩,
   ⟨s1, tt s1 true, K, prog 1 2 5, OT true, SST, by decide +kernel⟩,
   ⟨s4, tt s4 true, K, prog 1 0x67 5, OT true, SST, 85, by decide +kernel⟩,
   ⟨s5, tt s5 false, K, prog 1 2 5, OT false, SST, by decide +kernel⟩,
   ⟨s5b, tt s5b false, K, prog 2 2 5, OT false, SST, by decide +kernel⟩,
   ⟨s5c, tt s5c false, K, prog 2 2 5, OT false, SST, 85, by decide +kernel⟩,
   ⟨s6, 1, 100, by decide +kernel⟩,
   ⟨s1, 0, by decide +kernel⟩,
   ⟨s7, K, by unfold Reaches PageAt; decide +kernel⟩,
   ⟨s1, K, by unfold Reaches PageAt; decide +kernel⟩,
   ⟨s1, K, by unfold Reaches PageAt; decide +kernel⟩,
   ⟨s6, K, by unfold Reaches PageAt; decide +kernel⟩,
   ⟨ksx 1 2 5 none 0 0 (.enable true) [], K, by unfold Reaches PageAt; decide +kernel⟩,
   ⟨s6, K, by unfold Reaches PageAt; decide +kernel⟩⟩

end Board

namespace Storage

def D : Fin 4 := 1
def pol (c : Nat) : Policy := ⟨0, c, 1, 0xF, 3, 0, 0, 0, 0, 0, 1, 1, 0, 0, 65536, 10⟩
def r0 : Rec := ⟨1000, 0x10, 5, 3, 0, List.replicate 40 7⟩
def span (c : Nat) (st : Option (Nat × List Byte)) : Span := ⟨7, 3, 0, false, false, false, 10, 12, [⟨10, 0x5000, r0⟩, ⟨11, 0x6000, r0⟩], pol c, none, st, false, 0, [], [], false⟩
def sx (nb : Nat) : Super := ⟨2, 4, zeros 16, nb, 512, segmentCount nb, 0, 3⟩
def NB : Nat := 2^33
def dr (st : Nat) (l : List (Fld × Nat)) (f : Drive → Drive) : State :=
  (rd ([(NOW, 123456789), (TICK, 1000), (Fld.DRIVE_STATE_STATE 1, st), (Fld.DRIVE_CTRL_ENABLE 1, 1)] ++ l)).modDrive D f
def withSpans (s : State) (l : List Span) : State := {s with place := {s.place with spans := l}}
def c1 := withSpans (dr 5 [] (fun d => {d with present := true, perst := false, sb := some (sx NB), nsBytes := NB})) [span 0 none]
def c2 := withSpans (dr 5 [] (fun d => {d with present := true, perst := false, sb := some (sx NB), nsBytes := NB})) [span 2 none]
def sp0 (w : Bool) : SegSpan := ⟨7, 4096, 4096, 3, 0, 0, 0, 10, 12, w⟩
def sg (st : SegStage) (w : Bool) : Segment := ⟨3, 1, 100, 5, st, 2, 1000, some 1000, 8192, [sp0 w]⟩
def gg (st : SegStage) (w : Bool) : State := dr 5 [] (fun d => {d with present := true, perst := false, sb := some (sx NB), nsBytes := NB, segs := [sg st w], sbNew := if st = .super then some {sx NB with gen := 5, next := 4} else none})
def did (f : Nat) (a b : List Byte) (w : Nat) : DriveId := ⟨if f = 2 then 0x10300 else 0x10400, true, true, if f = 3 then 1 else 0, 63, 8, f != 4, 9, 0, if f = 5 then 5 else BitVec.ofNat 64 (NB / 512), false, true, BitVec.ofNat 8 w, a, b, [], [], []⟩
def A0 := superBytes (sx NB) 1 2 3 4
def dId := dr 2 [] (fun d => {d with present := true, perst := false})
def dOn (f : Drive → Drive) (l : List (Fld × Nat)) := dr 5 l (fun d => f {d with present := true, perst := false, sb := some (sx NB), nsBytes := NB})
def dSt (st : Nat) (l : List (Fld × Nat)) := dr st l (fun d => {d with present := true, perst := false, nsBytes := NB})
def full (f : Segment → Segment) (st : SegStage) : State := dr 5 [] (fun d => {d with present := true, perst := false, sb := some {sx NB with tail := 0, count := 4}, nsBytes := NB, segs := [f (sg st true)]})
def blk : State := {dId with place := {dId.place with haltDone := true}}
def hd0 : List Byte := segHeader ⟨3, 2, 5, 6, .opened, 0, 0, none, 4096, []⟩ (zeros 16) 1 2 3
def dC (c : List (NvmeCmd × Bool)) := dOn (fun d => {d with cmds := c}) []
def dLk := (dr 1 [] (fun d => {d with present := true, perst := false})).modToll (fun t => {t with plls := 255})
def dBk := dr 3 [] (fun d => {d with present := true, perst := false})

/-- A superblock before its CRC is written. -/
def pre : List Byte := [0x56, 0x51, 0x53, 0x42] ++ leBytes 2 2 ++ leBytes 2 2 ++ leBytes 8 4
      ++ (zeros 16 ++ zeros 16).take 16 ++ leBytes 8 NB ++ leBytes 4 512 ++ leBytes 4 (segmentCount NB)
      ++ leBytes 8 0 ++ leBytes 8 3 ++ leBytes 8 1 ++ leBytes 4 2 ++ leBytes 4 3 ++ leBytes 8 4 ++ zeros 4008
theorem pre_length : pre.length = 4096 := by simp [pre]
theorem pre_hdr : bsub pre 88 4 = zeros 4 ∧ pre.take 4 = [0x56, 0x51, 0x53, 0x42] ∧ bsub pre 16 16 = zeros 16 := by decide +kernel
theorem pre_num : leAt pre 4 2 = 2 ∧ leAt pre 6 2 = 2 ∧ leAt pre 8 8 = 4 ∧ leAt pre 32 8 = NB ∧ leAt pre 40 4 = 512 ∧ leAt pre 44 4 = segmentCount NB ∧
  leAt pre 48 8 = 0 ∧ leAt pre 56 8 = 3 := by decide +kernel
theorem A0_eq : A0 = withCrc pre 88 := rfl
theorem hk (o n : Nat) (h : o + n ≤ 88) : bsub A0 o n = bsub pre o n := bsub_withCrc pre 88 o n (by rw [pre_length]; omega) h
theorem A0_num (o n v : Nat) (h : o + n ≤ 88) (hv : leAt pre o n = v) : leAt A0 o n = v := by rw [leAt, hk o n h]; exact hv
theorem A0_parse : superParse A0 = some (sx NB, 2) := by
  obtain ⟨hz, hm, hv⟩ := pre_hdr
  obtain ⟨e4, e6, e8, e32, e40, e44, e48, e56⟩ := pre_num
  have hl : A0.length = 4096 := by rw [A0_eq, withCrc_length pre 88 (by rw [pre_length]; omega), pre_length]
  have hc : crcOk A0 88 = true := crcOk_withCrc pre 88 (by rw [pre_length]; omega) hz
  have ht : A0.take 4 = [0x56, 0x51, 0x53, 0x42] := (hk 0 4 (by omega)).trans hm
  unfold superParse
  rw [A0_num 4 2 _ (by omega) e4, A0_num 6 2 _ (by omega) e6, A0_num 8 8 _ (by omega) e8, A0_num 32 8 _ (by omega) e32,
    A0_num 40 4 _ (by omega) e40, A0_num 44 4 _ (by omega) e44, A0_num 48 8 _ (by omega) e48, A0_num 56 8 _ (by omega) e56,
    hk 16 16 (by omega), hv, ht, hl, hc]
  decide +kernel
theorem super_left (a b : List Byte) (x : Super × Nat) (ha : superParse a = some x) (hb : superParse b = none) : superCurrent a b = some x := by
  unfold superCurrent; rw [ha, hb]
theorem none_parse : superParse [] = none := by simp [superParse]
theorem A0_current : superCurrent A0 [] = some (sx NB, 2) := super_left A0 [] (sx NB, 2) A0_parse none_parse
/-- A segment header before its CRC is written. -/
def hpre : List Byte := [0x56, 0x51, 0x53, 0x47] ++ leBytes 2 2 ++ zeros 2 ++ leBytes 8 3 ++ (zeros 16 ++ zeros 16).take 16
    ++ leBytes 8 1 ++ leBytes 4 2 ++ leBytes 4 3 ++ leBytes 8 5 ++ leBytes 6 6 ++ zeros 2 ++ zeros 4 ++ zeros 4028
theorem hpre_length : hpre.length = 4096 := by simp [hpre]
theorem hd0_eq : hd0 = withCrc hpre 64 := rfl
theorem hpre_hdr : bsub hpre 64 4 = zeros 4 ∧ hpre.take 4 = [0x56, 0x51, 0x53, 0x47] ∧ bsub hpre 16 16 = zeros 16 ∧ leAt hpre 8 8 = 3 ∧
  bsub hpre 6 2 = zeros 2 ∧ bsub hpre 62 2 = zeros 2 := by decide +kernel
theorem hpre_rest : hpre.drop 68 = zeros 4028 := by
  unfold hpre
  rw [List.drop_append_of_le_length (by simp), List.drop_of_length_le (by simp), List.nil_append]
theorem hd0_keep (o n : Nat) (h : o + n ≤ 64) : bsub hd0 o n = bsub hpre o n := bsub_withCrc hpre 64 o n (by rw [hpre_length]; omega) h
theorem hd0_rest : hd0.drop 68 = zeros 4028 := by
  rw [hd0_eq, ← hpre_rest]
  have hl := hpre_length
  unfold withCrc
  rw [List.drop_append_of_le_length (by simp; omega), List.drop_of_length_le (by simp), List.nil_append]
theorem zeros_all (n : Nat) : (zeros n).all (fun x => x == 0) = true := by simp [zeros]
theorem hd0_ok : headerOk hd0 (zeros 16) 3 = true := by
  obtain ⟨hz, hm, hv, hs, h6, h62⟩ := hpre_hdr
  have hl : hd0.length = 4096 := by rw [hd0_eq, withCrc_length hpre 64 (by rw [hpre_length]; omega), hpre_length]
  have hc : crcOk hd0 64 = true := crcOk_withCrc hpre 64 (by rw [hpre_length]; omega) hz
  have ht : hd0.take 4 = [0x56, 0x51, 0x53, 0x47] := (hd0_keep 0 4 (by omega)).trans hm
  have h8 : leAt hd0 8 8 = 3 := by rw [leAt, hd0_keep 8 8 (by omega)]; exact hs
  have h68 : bsub hd0 68 4028 = zeros 4028 := by
    unfold bsub; rw [hd0_rest]; exact List.take_of_length_le (by simp)
  unfold headerOk allZero
  rw [hl, ht, hc, hd0_keep 16 16 (by omega), hv, h8, hd0_keep 6 2 (by omega), h6, hd0_keep 62 2 (by omega), h62, h68, zeros_all, zeros_all]
  decide +kernel
theorem hd0_found (d : DriveId) (hh : d.header = hd0) (hf : d.footer = []) (ha : d.area = []) : segFound d (zeros 16) 3 = some (some []) := by
  unfold segFound
  rw [hh, hf, ha, hd0_ok]
  decide +kernel

theorem test_meets_SegmentCommits :
    (∃ (s : State) (id : ℕ) (sp : Span) (x : Span) (ticks : List ℕ) (data : ℕ × List Byte), ticks = List.map ShareRec.tick sp.recs ∧ data = compressed
      sp.pol.compress (List.map ShareRec.r sp.recs) ∧ x =
      { id := sp.id, stream := sp.stream, no := sp.no, gap := sp.gap, splitS := sp.splitS && firstOf ticks == sp.first, splitE := sp.splitE && lastOf ticks == sp.last, first := firstOf ticks, last := lastOf ticks, recs := sp.recs, pol := sp.pol, drop := sp.drop, stored := some data, placed := sp.placed, again := sp.again, drives := sp.drives, done := sp.done, bad := sp.bad }
      ∧ spanOf s id = some sp ∧ sp.stored = none ∧ engineFree s sp.pol.compress = true ∧ (∀ r ∈ sp.recs, recBad s r = false) ∧ sp.recs ≠ [] ∧
      staged s + spanLen x ≤ stageSize s)
    ∧ (∃ (s : State) (id : ℕ) (sp : Span) (x : Span) (ticks : List ℕ) (data : ℕ × List Byte), ticks = List.map ShareRec.tick sp.recs ∧ data = compressed
      sp.pol.compress (List.map ShareRec.r sp.recs) ∧ x =
      { id := sp.id, stream := sp.stream, no := sp.no, gap := sp.gap, splitS := sp.splitS && firstOf ticks == sp.first, splitE := sp.splitE && lastOf ticks == sp.last, first := firstOf ticks, last := lastOf ticks, recs := sp.recs, pol := sp.pol, drop := sp.drop, stored := some data, placed := sp.placed, again := sp.again, drives := sp.drives, done := sp.done, bad := sp.bad }
      ∧ spanOf s id = some sp ∧ sp.stored = none ∧ engineFree s sp.pol.compress = true ∧ (∀ r ∈ sp.recs, recBad s r = false) ∧ sp.recs ≠ [] ∧
      stageSize s < staged s + spanLen x)
    ∧ (∃ (s : State), s.get Fld.PLACE_CFG_STEP_TICKS ≤ ticksFrom s.place.levelTick s.tick ∧ (s.get Fld.PLACE_CFG_STAGE_HIGH ≤ stagePct s ∨ freeSegs s <
      s.get Fld.PLACE_CFG_SPACE_LOW) ∧ level s < 16)
    ∧ (∃ (s : State), s.get Fld.PLACE_CFG_STEP_TICKS ≤ ticksFrom s.place.levelTick s.tick ∧ stagePct s < s.get Fld.PLACE_CFG_STAGE_HIGH ∧ stagePct s ≤
      s.get Fld.PLACE_CFG_STAGE_LOW ∧ s.get Fld.PLACE_CFG_SPACE_LOW ≤ freeSegs s ∧ 0 < level s ∧ level s ≤ 16)
    ∧ (∃ (s : State) (n : Fin 4) (g : Segment), segOpen (s.drive n) = some g ∧ g.firstNs.isSome = true ∧ (∀ i ∈ List.map (fun x_1 => x_1.1) s.streams,
      gapDue s n i s.place.nextId = false) ∧ s.toll.orderly = false)
    ∧ (∃ (s : State) (n : Fin 4) (g : Segment) (rest : List Segment) (b : Super), (s.drive n).segs = g :: rest ∧ (s.drive n).sb = some b ∧ (s.drive
      n).perst = false ∧ s.toll.orderly = false ∧ g.stage = SegStage.closing ∧ (∀ x_1 ∈ g.spans, x_1.written = true))
    ∧ (∃ (s : State) (n : Fin 4) (g : Segment) (rest : List Segment) (b : Super), (s.drive n).segs = g :: rest ∧ (s.drive n).sb = some b ∧ (s.drive
      n).perst = false ∧ s.toll.orderly = false ∧ g.stage = SegStage.footer)
    ∧ (∃ (s : State) (n : Fin 4) (g : Segment) (rest : List Segment) (b : Super), (s.drive n).segs = g :: rest ∧ (s.drive n).sb = some b ∧ (s.drive
      n).perst = false ∧ s.toll.orderly = false ∧ g.stage = SegStage.flush)
    ∧ (∃ (s : State) (n : Fin 4) (g : Segment) (rest : List Segment) (b : Super), (s.drive n).segs = g :: rest ∧ (s.drive n).sb = some b ∧ (s.drive
      n).perst = false ∧ s.toll.orderly = false ∧ (g.stage ≠ SegStage.closing ∨ ∃ x_1 ∈ g.spans, x_1.written = false))
    ∧ (∃ (s : State) (n : Fin 4) (g : Segment) (rest : List Segment) (b : Super), (s.drive n).segs = g :: rest ∧ (s.drive n).sb = some b ∧ (s.drive
      n).perst = false ∧ s.toll.orderly = false ∧ g.stage ≠ SegStage.footer)
    ∧ (∃ (s : State) (n : Fin 4) (g : Segment) (rest : List Segment) (b : Super), (s.drive n).segs = g :: rest ∧ (s.drive n).sb = some b ∧ (s.drive
      n).perst = false ∧ s.toll.orderly = false ∧ g.stage ≠ SegStage.flush)
    ∧ (∃ (s : State) (n : Fin 4) (g : Segment) (rest : List Segment) (b : Super), (s.drive n).segs = g :: rest ∧ (s.drive n).sb = some b ∧ (s.drive
      n).perst = false ∧ s.toll.orderly = false ∧ (s.drive n).sbNew = none)
    ∧ (∃ (s : State) (g : Segment) (b : Super), recycle s = false ∧ g.seq + 1 < 2 ^ 64 ∧ b.tail ≤ g.seq ∧ g.seq + 2 ≤ b.tail + b.count)
    ∧ (∃ (s : State) (g : Segment) (b : Super), recycle s = false ∧ g.seq + 1 < 2 ^ 64 ∧ b.tail ≤ g.seq ∧ b.tail + b.count < g.seq + 2)
    ∧ (∃ (s : State) (n : Fin 4) (g : Segment) (rest : List Segment) (b : Super) (b' : Super), (s.drive n).segs = g :: rest ∧ (s.drive n).sb = some b ∧
      g.stage = SegStage.super ∧ (s.drive n).sbNew = some b') :=
  ⟨⟨c1, 7, span 0 none, _, _, _, rfl, rfl, rfl, by decide +kernel⟩,
   ⟨{c1 with dramGiB := 0}.put Fld.STAGE_SIZE_MIB 0, 7, span 0 none, _, _, _, rfl, rfl, rfl, by decide +kernel⟩,
   ⟨c1, by decide +kernel⟩,
   ⟨dr 5 [(Fld.PLACE_STATUS_LEVEL, 5), (Fld.DRIVE_STATE_FREE_SEGMENTS 1, 100)] id, by decide +kernel⟩,
   ⟨gg .opened false, D, sg .opened false, by decide +kernel⟩,
   ⟨gg .closing true, D, sg .closing true, [], sx NB, by decide +kernel⟩,
   ⟨gg .footer true, D, sg .footer true, [], sx NB, by decide +kernel⟩,
   ⟨gg .flush true, D, sg .flush true, [], sx NB, by decide +kernel⟩,
   ⟨gg .flush true, D, sg .flush true, [], sx NB, by decide +kernel⟩,
   ⟨gg .flush true, D, sg .flush true, [], sx NB, by decide +kernel⟩,
   ⟨gg .super true, D, sg .super true, [], sx NB, by decide +kernel⟩,
   ⟨gg .flush true, D, sg .flush true, [], sx NB, by decide +kernel⟩,
   ⟨gg .flush true, sg .flush true, sx NB, by decide +kernel⟩,
   ⟨full id .flush, sg .flush true, {sx NB with tail := 0, count := 4}, by decide +kernel⟩,
   ⟨gg .super true, D, sg .super true, [], sx NB, {sx NB with gen := 5, next := 4}, by decide +kernel⟩⟩

theorem test_meets_Drives :
    (∃ (s : State) (n : Fin 4), s.toll.orderly = false ∧ (s.drive n).present = false ∧ s.devState ≠ devDrydock ∧ s.get (Fld.DRIVE_CTRL_ENABLE ↑n) = 1
      ∧ drvState s ↑n = drvAbsent)
    ∧ (∃ (s : State) (n : Fin 4), s.toll.orderly = false ∧ drvState s ↑n = drvLinking ∧ (s.drive n).perst = true)
    ∧ (∃ (s : State) (n : Fin 4) (width : BitVec 3) (w : ℕ), s.toll.orderly = false ∧ drvState s ↑n = drvLinking ∧ (s.drive n).perst = false ∧ pllOk s 3
      = true ∧ w = trainWidth s (↑n + 1) width.toNat ∧ w ≠ 0)
    ∧ (∃ (s : State) (n : Fin 4) (width : BitVec 3) (w : ℕ), s.toll.orderly = false ∧ (drvState s ↑n = drvBlank ∨ drvState s ↑n = drvReadOnly) ∧
      (s.drive n).perst = false ∧ w = trainWidth s (↑n + 1) width.toNat ∧ w ≠ 0)
    ∧ (∃ (s : State) (n : Fin 4) (width : BitVec 3), s.toll.orderly = false ∧ trainWidth s (↑n + 1) width.toNat = 0)
    ∧ (∃ (s : State) (n : Fin 4), s.toll.orderly = false ∧ (s.drive n).present = true ∧ (drvState s ↑n = drvLinking ∨ drvState s ↑n = drvIdentify ∨
      drvState s ↑n = drvOnline))
    ∧ (∃ (s : State) (n : Fin 4) (d : DriveId), s.toll.orderly = false ∧ drvState s ↑n = drvIdentify ∧ driveReason d ≠ 0)
    ∧ (∃ (s : State) (n : Fin 4) (d : DriveId), s.toll.orderly = false ∧ drvState s ↑n = drvIdentify ∧ driveReason d = 0 ∧ drivesWrite s = false)
    ∧ (∃ (s : State) (n : Fin 4) (d : DriveId), s.toll.orderly = false ∧ drvState s ↑n = drvIdentify ∧ driveReason d = 0 ∧ drivesWrite s = true ∧
      superCurrent d.copyA d.copyB = none ∧ s.isSet Fld.PLACE_CFG_AUTO_FORMAT = false)
    ∧ (∃ (s : State) (n : Fin 4) (d : DriveId) (b : Super) (minR : ℕ), s.toll.orderly = false ∧ drvState s ↑n = drvIdentify ∧ driveReason d = 0 ∧
      drivesWrite s = true ∧ superCurrent d.copyA d.copyB = some (b, minR) ∧ (2 < minR ∨ 2 < b.version ∨ b.nsBytes ≠ driveBytes d ∨ b.lba ≠ 2 ^
      BitVec.toNat d.lbads))
    ∧ (∃ (s : State) (n : Fin 4) (d : DriveId) (b : Super) (minR : ℕ), s.toll.orderly = false ∧ drvState s ↑n = drvIdentify ∧ driveReason d = 0 ∧
      drivesWrite s = true ∧ superCurrent d.copyA d.copyB = some (b, minR) ∧ minR ≤ 2 ∧ b.version ≤ 2 ∧ b.nsBytes = driveBytes d ∧ b.lba = 2 ^
      BitVec.toNat d.lbads ∧ segFound d b.volume b.next = none)
    ∧ (∃ (s : State) (n : Fin 4) (d : DriveId) (b : Super) (minR : ℕ) (found : Option (List SegSpan)), s.toll.orderly = false ∧ drvState s ↑n =
      drvIdentify ∧ driveReason d = 0 ∧ drivesWrite s = true ∧ superCurrent d.copyA d.copyB = some (b, minR) ∧ minR ≤ 2 ∧ b.version ≤ 2 ∧
      b.nsBytes = driveBytes d ∧ b.lba = 2 ^ BitVec.toNat d.lbads ∧ segFound d b.volume b.next = some found ∧ recycle s = false ∧ seqPast ((b.next
      + 1) % 2 ^ 64) b.tail + 1 ≤ b.count)
    ∧ (∃ (s : State) (n : Fin 4) (i : ℕ) (cmd : NvmeCmd) (again : Bool), s.toll.orderly = false ∧ drvUsed s n = true ∧ (s.drive n).cmds[i]? = some (cmd,
      again) ∧ (s.drive n).cmds.contains (cmd, true) = false)
    ∧ (∃ (s : State) (n : Fin 4) (i : ℕ) (cmd : NvmeCmd), s.toll.orderly = false ∧ drvUsed s n = true ∧ (drvState s ↑n = drvIdentify ∨ drvState s ↑n =
      drvOnline) ∧ (s.drive n).cmds[i]? = some (cmd, true))
    ∧ (∃ (s : State) (n : Fin 4), s.toll.orderly = false ∧ drvUsed s n = true ∧ drvState s ↑n ≠ drvIdentify ∧ drivesIdle s = false)
    ∧ (∃ (s : State) (n : Fin 4), s.toll.orderly = false ∧ drvState s ↑n ≠ drvAbsent)
    ∧ (∃ (s : State) (t : State) (n : Fin 4) (v : Word) (w : ℕ), s.toll.orderly = false ∧ t = Touched s (Reg.DRIVE_CTRL ↑n) ∧ w = withField (v.toNat)
      (Fld.DRIVE_CTRL_FORMAT ↑n) 1 ∧ Reaches s (Reg.DRIVE_CTRL ↑n) w ∧ bit w 0 = true ∧ bit w 2 = false ∧ (drvState s ↑n = drvBlank ∨ drvState s
      ↑n = drvReadOnly ∧ s.get (Fld.DRIVE_CTRL_ERASE_OK ↑n) = 1) ∧ (s.drive n).perst = false ∧ s.get (Fld.DRIVE_CTRL_ENABLE ↑n) = bf w 3 1 ∧
      drivesWrite s = true)
    ∧ (∃ (s : State) (t : State) (n : Fin 4) (v : Word) (w : ℕ), s.toll.orderly = false ∧ t = Touched s (Reg.DRIVE_CTRL ↑n) ∧ w = withField (v.toNat)
      (Fld.DRIVE_CTRL_FORMAT ↑n) 1 ∧ Reaches s (Reg.DRIVE_CTRL ↑n) w ∧ bit w 0 = true ∧ bit w 2 = false ∧ (drvState s ↑n = drvBlank ∨ drvState s
      ↑n = drvReadOnly ∧ s.get (Fld.DRIVE_CTRL_ERASE_OK ↑n) = 1) ∧ (s.drive n).perst = false ∧ s.get (Fld.DRIVE_CTRL_ENABLE ↑n) = bf w 3 1 ∧
      drivesWrite s = false)
    ∧ (∃ (s : State) (n : Fin 4) (v : Word) (w : ℕ), w = withField (v.toNat) (Fld.DRIVE_CTRL_FORMAT ↑n) 1 ∧ s.toll.orderly = false ∧ Reaches s
      (Reg.DRIVE_CTRL ↑n) w ∧ bit w 0 = true ∧ bit w 2 = false ∧ (drvState s ↑n ≠ drvBlank ∧ (drvState s ↑n ≠ drvReadOnly ∨ s.get
      (Fld.DRIVE_CTRL_ERASE_OK ↑n) = 0) ∨ (s.drive n).perst = true))
    ∧ (∃ (s : State) (t : State) (n : Fin 4) (v : Word) (w : ℕ) (g : Segment), s.toll.orderly = false ∧ t = Touched s (Reg.DRIVE_CTRL ↑n) ∧ w =
      withField (v.toNat) (Fld.DRIVE_CTRL_EJECT ↑n) 1 ∧ Reaches s (Reg.DRIVE_CTRL ↑n) w ∧ bit w 0 = false ∧ bit w 2 = true ∧ drvState s ↑n =
      drvOnline ∧ s.get (Fld.DRIVE_CTRL_ENABLE ↑n) = bf w 3 1 ∧ (∀ i ∈ List.map (fun x => x.1) s.streams, gapDue s n i s.place.nextId = false) ∧
      segOpen (s.drive n) = some g)
    ∧ (∃ (s : State) (t : State) (n : Fin 4) (v : Word) (w : ℕ), s.toll.orderly = false ∧ t = Touched s (Reg.DRIVE_CTRL ↑n) ∧ w = withField (v.toNat)
      (Fld.DRIVE_CTRL_EJECT ↑n) 1 ∧ Reaches s (Reg.DRIVE_CTRL ↑n) w ∧ bit w 0 = false ∧ bit w 2 = true ∧ drvState s ↑n = drvOnline ∧ s.get
      (Fld.DRIVE_CTRL_ENABLE ↑n) = bf w 3 1 ∧ (∀ i ∈ List.map (fun x => x.1) s.streams, gapDue s n i s.place.nextId = false) ∧ (s.drive n).segs =
      [] ∧ s.place.spans = [])
    ∧ (∃ (s : State) (n : Fin 4) (v : Word) (w : ℕ), w = withField (v.toNat) (Fld.DRIVE_CTRL_EJECT ↑n) 1 ∧ s.toll.orderly = false ∧ Reaches s
      (Reg.DRIVE_CTRL ↑n) w ∧ bit w 0 = false ∧ bit w 2 = true ∧ drvState s ↑n ≠ drvOnline)
    ∧ (∃ (s : State) (t : State) (n : Fin 4) (v : Word), s.toll.orderly = false ∧ t = Touched s (Reg.DRIVE_CTRL ↑n) ∧ Reaches s (Reg.DRIVE_CTRL ↑n)
      (v.toNat) ∧ bit (v.toNat) 0 = false ∧ bit (v.toNat) 2 = false ∧ bit (v.toNat) 3 = true ∧ s.get (Fld.DRIVE_CTRL_ENABLE ↑n) = 0 ∧ (s.drive
      n).present = true ∧ drvState s ↑n = drvAbsent)
    ∧ (∃ (s : State) (n : Fin 4) (v : Word), s.toll.orderly = false ∧ Reaches s (Reg.DRIVE_CTRL ↑n) (v.toNat) ∧ bit (v.toNat) 0 = false ∧ bit (v.toNat)
      2 = false ∧ bit (v.toNat) 3 = false ∧ s.get (Fld.DRIVE_CTRL_ENABLE ↑n) = 1 ∧ drvState s ↑n = drvBlank) :=
  ⟨⟨dr 0 [] id, D, by decide +kernel⟩,
   ⟨dr 1 [] (fun d => {d with present := true}), D, by decide +kernel⟩,
   ⟨dLk, D, 4, trainWidth dLk (D + 1) 4, by decide +kernel⟩,
   ⟨dBk, D, 4, trainWidth dBk (D + 1) 4, by decide +kernel⟩,
   ⟨dr 0 [] id, D, default, by decide +kernel⟩,
   ⟨dId, D, by decide +kernel⟩,
   ⟨dId, D, did 5 [] [] 0, by decide +kernel⟩,
   ⟨blk, D, did 0 A0 [] 3, by decide +kernel⟩,
   ⟨dId, D, did 0 [] [] 3, by decide +kernel⟩,
   ⟨dId, D, {did 0 A0 [] 3 with lbads := 12}, sx NB, 2,
     by decide +kernel, by decide +kernel, by decide +kernel, by decide +kernel, A0_current, by decide +kernel⟩,
   ⟨dId, D, did 0 A0 [] 3, sx NB, 2,
     by decide +kernel, by decide +kernel, by decide +kernel, by decide +kernel, A0_current, by decide +kernel, by decide +kernel, by decide +kernel, by decide +kernel, by decide +kernel⟩,
   ⟨dId, D, {did 0 A0 [] 3 with header := hd0}, sx NB, 2, some [],
     by decide +kernel, by decide +kernel, by decide +kernel, by decide +kernel, A0_current, by decide +kernel, by decide +kernel, by decide +kernel, by decide +kernel, hd0_found _ rfl rfl rfl, by decide +kernel, by decide +kernel⟩,
   ⟨dC [(.smart, false), (.flush, false)], D, 0, .smart, false, by decide +kernel⟩,
   ⟨dC [(.smart, false), (.flush, true)], D, 1, .flush, by decide +kernel⟩,
   ⟨dBk, D, by decide +kernel⟩,
   ⟨dId, D, by decide +kernel⟩,
   ⟨dSt 3 [], dSt 3 [], D, BitVec.ofNat 64 9, 9, by unfold Reaches PageAt; decide +kernel⟩,
   ⟨dSt 3 [(Fld.DEV_STATE_STATE, 5)], dSt 3 [(Fld.DEV_STATE_STATE, 5)], D, BitVec.ofNat 64 9, 9, by unfold Reaches PageAt; decide +kernel⟩,
   ⟨dId, D, 0, _, rfl, by unfold Reaches PageAt; decide +kernel⟩,
   ⟨dOn (fun d => {d with cmds := [(.smart, true), (.flush, false)], segs := [sg .opened false]}) [],
     dOn (fun d => {d with cmds := [(.smart, true), (.flush, false)], segs := [sg .opened false]}) [], D, BitVec.ofNat 64 12, 12,
     sg .opened false, by unfold Reaches PageAt; decide +kernel⟩,
   ⟨dOn id [], dOn id [], D, BitVec.ofNat 64 12, 12, by unfold Reaches PageAt; decide +kernel⟩,
   ⟨dId, D, 0, _, rfl, by unfold Reaches PageAt; decide +kernel⟩,
   ⟨dSt 0 [(Fld.DRIVE_CTRL_ENABLE 1, 0)], dSt 0 [(Fld.DRIVE_CTRL_ENABLE 1, 0)], D, BitVec.ofNat 64 8, by unfold Reaches PageAt; decide +kernel⟩,
   ⟨dBk, D, 0, by unfold Reaches PageAt; decide +kernel⟩⟩

end Storage

namespace Controller

def src (l : List (Fld × Nat)) (st : Nat) (f : State → State := id) : State := f ((setF State.reset ([(Fld.DEV_STATE_STATE, st),(NOW, 5000),(TICK, 77)] ++ l)).modHost (fun h => {h with link := true, bme := true, msixEn := true, msix := [(3, ⟨0xFEE00000, 0x41, false⟩)]}))
def so (n pr se tg : Nat) : List (Fld × Nat) := [(Fld.SRC_PRIO n, pr), (Fld.SRC_SENSE n, se), (Fld.SRC_TARGET n, tg)]
def lat (l : List Nat) (s : State) : State := s.modIc (fun i => {i with latch := l})
def stk (l : List (Nat × List (Nat × Nat))) (s : State) : State := s.modIc (fun i => {i with stackTab := l})
def i1 := src (so 40 4 1 3 ++ so 41 4 1 3 ++ so 42 6 1 3 ++ [(Fld.SRC_GROUP 40, 9), (Fld.SRC_GROUP_EN 40, 1), (Fld.GRP_INTERVAL 9, 50)]) 3 (lat [41, 42, 40])
def i2 := src (so 40 4 1 0x40 ++ so 41 5 1 0x100) 3 (fun s => stk [(3, [(4, 99), (5, 98)])] (lat [41, 40] s))
def i3 := (src (so 40 4 1 0x40 ++ so 41 5 1 0x100 ++ so 43 3 2 7) 3 (fun s => stk [(3, [(4, 99), (5, 98)])] (lat [41, 40] s))).modTh 0 0 (fun th => {th with st := .run})
def i4 := src (so 40 4 1 3 ++ so 521 4 2 3) 3 (lat [40])
def rs (ph : ReseatPhase) (fe : Bool) (ed : Nat) (ser : Option Nat) : Reseat := ⟨ser, 5, 49, fe, ph, ed, 80⟩
def rst (r : Reseat) (f : State → State := id) : State := f ((rd [(NOW, 5000), (TICK, 90), (Fld.CHAN_STATE_STATE 5, chReseating), (Fld.CHAN_STATE_TILE 5, 5)]).modCh C (fun c => {c with reseat := some r}))
def rsf : State := (rst (rs .frozen false 0 none)).modCh C (fun c => {c with chamber := {c.chamber with h0 := {c.chamber.h0 with st := .full, tick := 79}}})
def e0 := {mkE 0x13 5 [] with stage := .running}
def sc (l : List (Fld × Nat)) : State := rd ([(Fld.DRAM_RAS_SCRUB_EN, 1), (Fld.LINK_STATE_HOST_WIDTH, 8), (Fld.LINK_STATE_SP_WIDTH2, 1), (Fld.LINK_STATE_SP_WIDTH1, 4)] ++ l)
def tpl (st : Nat) (w : Nat) : State := sc [(Fld.TP_PORT_STATUS_STATE 1, st), (Fld.TP_PORT_STATUS_WIDTH 1, w)]

theorem test_meets_InterruptDelivery :
    (∃ (s : State) (t : BitVec 10) (src : ℕ) (i : ℕ), bestSource s t.toNat = some src ∧ i ∈ eligibleFor s t.toNat)
    ∧ (∃ (s : State) (t : BitVec 10) (src : ℕ), icDelivers s = true ∧ accepting s t.toNat = true ∧ (stackOf s t.toNat).length < 8 ∧ bestSource s t.toNat
      = some src ∧ t.toNat ≠ tgtToll)
    ∧ (∃ (s : State) (t : BitVec 10) (src : ℕ), icDelivers s = true ∧ accepting s t.toNat = true ∧ (stackOf s t.toNat).length < 8 ∧ bestSource s t.toNat
      = some src ∧ t.toNat = tgtToll)
    ∧ (∃ (s : State) (g : BitVec 7), SMap.get 0 s.ic.ticks g.toNat = 0)
    ∧ (∃ (s : State) (v : Fin 64) (x : Word) (top : ℕ × ℕ) (rest : List (ℕ × ℕ)), Reaches s (Reg.HV_EOI ↑v) (BitVec.toNat x) ∧ stackOf s ↑v = top ::
      rest)
    ∧ (∃ (s : State) (v : Fin 64) (x : Word), Reaches s (Reg.HV_EOI ↑v) (BitVec.toNat x) ∧ stackOf s ↑v = [])
    ∧ (∃ (s : State) (n : Fin 640), srcReserved ↑n = true ∧ PageAt s (Reg.SRC ↑n) ∧ s.get (Fld.PAGE_CTRL_WR_LOCK (pageOf (Reg.SRC ↑n))) = 0 ∧ s.get
      (Fld.SHADOW_CTRL_PENDING (pageOf (Reg.SRC ↑n))) = 0 ∧ s.get (Fld.SHADOW_CTRL_HOLD (pageOf (Reg.SRC ↑n))) = 0)
    ∧ (∃ (s : State) (n : Fin 640) (w : ℕ), w = regView s (Reg.SRC ↑n) % 2 ^ 32 + 2 ^ 37 ∧ Reaches s (Reg.SRC ↑n) w ∧ 1 ≤ bf w 4 3 ∧ bf w 4 3 ≤ 3 ∧
      targetOk (bf w 8 10) = true)
    ∧ (∃ (s : State) (n : Fin 640) (w : ℕ), w = regView s (Reg.SRC ↑n) % 2 ^ 32 + 2 ^ 38 ∧ Reaches s (Reg.SRC ↑n) w ∧ bf w 4 3 < 5 ∧ targetOk (bf w 8
      10) = true) :=
  ⟨⟨i4, 3, 40, 40, by decide +kernel⟩,
   ⟨i1, 3, 40, by decide +kernel⟩,
   ⟨i2, 0x40, 40, by decide +kernel⟩,
   ⟨i1, 9, by decide +kernel⟩,
   ⟨i2, 3, 0, (4, 99), [(5, 98)], by unfold Reaches PageAt; decide +kernel⟩,
   ⟨i1, 3, 0, by unfold Reaches PageAt; decide +kernel⟩,
   ⟨i4, 521, by unfold PageAt; decide +kernel⟩,
   ⟨i1, 40, regView i1 (Reg.SRC 40) % 2 ^ 32 + 2 ^ 37, by unfold Reaches PageAt; decide +kernel⟩,
   ⟨i1, 41, regView i1 (Reg.SRC 41) % 2 ^ 32 + 2 ^ 38, by unfold Reaches PageAt; decide +kernel⟩⟩

theorem test_meets_ReseatScrubLanes :
    (∃ (s : State) (c : Fin 56) (r : Reseat), (s.ch c).reseat = some r ∧ r.phase = ReseatPhase.copying)
    ∧ (∃ (s : State) (c : Fin 56) (r : Reseat), (s.ch c).reseat = some r ∧ r.phase = ReseatPhase.frozen)
    ∧ (∃ (s : State) (c : Fin 56) (r : Reseat), (s.ch c).reseat = some r ∧ r.phase = ReseatPhase.waitEdge ∧ 16 ≤ r.edges ∧ entryOf s c r.serial = none)
    ∧ (∃ (s : State) (c : Fin 56) (r : Reseat) (e : WorkEntry), (s.ch c).reseat = some r ∧ r.phase = ReseatPhase.waitEdge ∧ 16 ≤ r.edges ∧ entryOf s c
      r.serial = some e)
    ∧ (∃ (s : State) (a : Word) (syn : Byte) (b : Option ℕ), s.isSet Fld.DRAM_RAS_SCRUB_EN = true ∧ BitVec.toNat a < s.dramTop ∧ s.poison.contains
      (BitVec.toNat a / 8) = false ∧ eccOf (BitVec.toNat syn) = Ecc.corrected b ∧ SMap.get 0 s.pageCorr (BitVec.toNat a / 4096) + 1 < s.get
      Fld.DRAM_RAS_CE_RETIRE)
    ∧ (∃ (s : State) (a : Word) (syn : Byte), s.isSet Fld.DRAM_RAS_SCRUB_EN = true ∧ BitVec.toNat a < s.dramTop ∧ s.poison.contains (BitVec.toNat a / 8)
      = false ∧ eccOf (BitVec.toNat syn) = Ecc.bad)
    ∧ (∃ (s : State) (c : Fin 56) (o : BitVec 17) (syn : Byte) (b : Option ℕ), s.isSet Fld.DRAM_RAS_SCRUB_EN = true ∧ (s.kp c).codeBad.contains (o.toNat
      / 8) = false ∧ eccOf (BitVec.toNat syn) = Ecc.corrected b)
    ∧ (∃ (s : State) (syn : Byte) (b : Option ℕ) (wd : BitVec 32), s.isSet Fld.DRAM_RAS_SCRUB_EN = true ∧ s.poison.contains (2 ^ 42 + wd.toNat) = false
      ∧ eccOf (BitVec.toNat syn) = Ecc.corrected b)
    ∧ (∃ (s : State) (syn : Byte) (wd : BitVec 32), s.isSet Fld.DRAM_RAS_SCRUB_EN = true ∧ s.poison.contains (2 ^ 42 + wd.toNat) = false ∧ eccOf
      (BitVec.toNat syn) = Ecc.bad)
    ∧ (∃ (s : State) (syn : Byte) (b : Option ℕ) (wd : BitVec 32), s.isSet Fld.DRAM_RAS_SCRUB_EN = true ∧ s.poison.contains (2 ^ 41 + wd.toNat) = false
      ∧ eccOf (BitVec.toNat syn) = Ecc.corrected b)
    ∧ (∃ (s : State) (syn : Byte) (wd : BitVec 32), s.isSet Fld.DRAM_RAS_SCRUB_EN = true ∧ s.poison.contains (2 ^ 41 + wd.toNat) = false ∧ eccOf
      (BitVec.toNat syn) = Ecc.bad)
    ∧ (∃ (s : State) (p : Fin 15) (lane : Fin 8) (q : Fin 5) (m : ℕ) (k : ℕ), m = s.get (retiredFld q) ||| 2 ^ lane.val ∧ k = min (max 1 ((if portWidth
      s q = 0 then portCap s ↑q else portWidth s q) / 2)) (widthOf (fullWidth ↑q - weight8 m)) ∧ p = ⟨q.val, by omega⟩ ∧ ↑lane < fullWidth ↑q ∧
      bit (s.get (retiredFld q)) ↑lane = false)
    ∧ (∃ (s : State) (p : Fin 15) (lane : Fin 8) (q : Fin 5) (m : ℕ) (k : ℕ), m = s.get (retiredFld q) ||| 2 ^ lane.val ∧ k = min (max 1 ((if portWidth
      s q = 0 then portCap s ↑q else portWidth s q) / 2)) (widthOf (fullWidth ↑q - weight8 m)) ∧ p = ⟨q.val, by omega⟩ ∧ (fullWidth ↑q ≤ ↑lane ∨
      bit (s.get (retiredFld q)) ↑lane = true))
    ∧ (∃ (s : State) (c : Fin 56) (p : Fin 15) (lane : Fin 8), 48 ≤ ↑c ∧ p.val = c.val - 43 ∧ lane = 0 ∧ (s.sq c).exec = none ∧ (s.eth c).rx = none)
    ∧ (∃ (c : Fin 56) (p : Fin 15) (lane : Fin 8), 48 ≤ ↑c ∧ p.val = c.val - 43 ∧ lane ≠ 0)
    ∧ (∃ (s : State) (p : Fin 15) (lane : Fin 8) (m : ℕ) (x : Fin 2), 13 ≤ ↑p ∧ (x = if ↑p = 13 then 0 else 1) ∧ ↑lane < 2 ∧ m = SMap.get 0 s.portOut ↑p
      ||| 2 ^ lane.val ∧ m = 3)
    ∧ (∃ (s : State) (p : Fin 15) (lane : Fin 8) (m : ℕ) (x : Fin 2), 13 ≤ ↑p ∧ (x = if ↑p = 13 then 0 else 1) ∧ ↑lane < 2 ∧ m = SMap.get 0 s.portOut ↑p
      ||| 2 ^ lane.val ∧ m ≠ 3 ∧ tpTalks s x = true)
    ∧ (∃ (s : State) (p : Fin 15) (lane : Fin 8) (m : ℕ) (x : Fin 2), 13 ≤ ↑p ∧ (x = if ↑p = 13 then 0 else 1) ∧ ↑lane < 2 ∧ m = SMap.get 0 s.portOut ↑p
      ||| 2 ^ lane.val ∧ m ≠ 3 ∧ tpTalks s x = false)
    ∧ (∃ (p : Fin 15) (lane : Fin 8), 13 ≤ ↑p ∧ 2 ≤ ↑lane) :=
  ⟨⟨rst (rs .copying true 0 none), C, rs .copying true 0 none, by decide +kernel⟩,
   ⟨rsf, C, rs .frozen false 0 none, by decide +kernel⟩,
   ⟨rst (rs .waitEdge false 16 none), C, rs .waitEdge false 16 none, by decide +kernel⟩,
   ⟨cq (rst (rs .waitEdge false 16 (some 11))) e0, C, rs .waitEdge false 16 (some 11), e0, by decide +kernel⟩,
   ⟨sc [], 0x1238, 1, (match eccOf 1 with | .corrected b => b | _ => none), by decide +kernel⟩,
   ⟨sc [], 0x1238, 3, by decide +kernel⟩,
   ⟨sc [], C, 0x55, 1, (match eccOf 1 with | .corrected b => b | _ => none), by decide +kernel⟩,
   ⟨sc [], 1, (match eccOf 1 with | .corrected b => b | _ => none), default, by decide +kernel⟩,
   ⟨sc [], 3, default, by decide +kernel⟩,
   ⟨sc [], 1, (match eccOf 1 with | .corrected b => b | _ => none), default, by decide +kernel⟩,
   ⟨sc [], 3, default, by decide +kernel⟩,
   ⟨sc [], 2, 1, 2, 2, 2, by decide +kernel⟩,
   ⟨sc [], 2, 7, 2, 128, 2, by decide +kernel⟩,
   ⟨sc [(Fld.ETH_STATUS_LINK 50, 1)], 50, 7, 0, by decide +kernel⟩,
   ⟨50, 7, 1, by decide +kernel⟩,
   ⟨{(tpl 3 1) with portOut := [(14, 2)]}, 14, 0, 3, 1, by decide +kernel⟩,
   ⟨tpl 3 2, 14, 1, 2, 1, by decide +kernel⟩,
   ⟨tpl 0 0, 14, 1, 2, 1, by decide +kernel⟩,
   ⟨14, 2, by decide +kernel⟩⟩

end Controller

namespace Toll

def rq (l : List Nat) : List Word := (List.range 32).map (fun k => BitVec.ofNat 64 (l.getD k 0))
abbrev Q (r : List Word) : Nat → Nat := (fun k => (r.getD k 0).toNat)
def mb (op : Nat) (l : List Nat) (run : Bool) (g : List (Fld × Nat)) (f : TollHouse → TollHouse := id) : State :=
  (rd ([(NOW, 5000), (TICK, 90), (Fld.MB_STATUS_BUSY, 1)] ++ g)).modToll (fun t => f {t with long := some ⟨op, rq l, run⟩, serial := 0x1234, plls := 255, boot := 9})
def H (s : State) : State := s.modHost (fun h => {h with link := true, bme := true})
def uv (op : Nat) : Nat := op + 0x77 * 2^16
def kx : TollHouse → TollHouse := fun t => {t with keys := t.keys.set 2 ⟨1, [1,2,3], 7⟩}
def kr (l : List Nat) (op : Nat) (f : TollHouse → TollHouse := id) (g : List (Fld × Nat) := []) : State := mb op l false g f
def named (s : State) : State := setF {s with streams := [(3, {Stream.reset with policies := [(0, ⟨0, 0, 1, 0xF, 3, 6, 0, 0, 0, 0, 1, 1, 2, 2, 65536, 10⟩)]})]} [(Fld.STRM_STATE_STATE 3, 1)]

theorem test_meets_MailboxCommands :
    (∃ (st : ℕ) (rsp : List ℕ) (k : ℕ), rsp.length ≤ 32 ∧ st < 256 ∧ k < rsp.length)
    ∧ (∃ (s : State) (req : List Word), Asked s mbGetInfo req ∧ s.toll.bootmode < 4)
    ∧ (∃ (s : State) (req : List Word), Asked s mbSensors req)
    ∧ (∃ (s : State) (req : List Word) (q : ℕ → ℕ), (q = fun k => BitVec.toNat (req.getD k 0)) ∧ Asked s mbLogRead req ∧ 1 ≤ q 1 ∧ q 1 ≤ 16384 ∧ 2 ^ 63
      ≤ q 2)
    ∧ (∃ (s : State) (req : List Word) (q : ℕ → ℕ), (q = fun k => BitVec.toNat (req.getD k 0)) ∧ Asked s mbLogRead req ∧ (q 1 = 0 ∨ 16384 < q 1 ∨ q 2 <
      2 ^ 63))
    ∧ (∃ (s : State) (req : List Word) (q : ℕ → ℕ), (q = fun k => BitVec.toNat (req.getD k 0)) ∧ Asked s mbRepairRead req ∧ 2 ^ 63 ≤ q 0)
    ∧ (∃ (s : State) (req : List Word) (q : ℕ → ℕ), (q = fun k => BitVec.toNat (req.getD k 0)) ∧ Asked s mbRepairRead req ∧ q 0 < 2 ^ 63)
    ∧ (∃ (s : State) (req : List Word) (q : ℕ → ℕ), (q = fun k => BitVec.toNat (req.getD k 0)) ∧ Asked s mbConfigRead req ∧ 2 ^ 63 ≤ q 0)
    ∧ (∃ (s : State) (req : List Word) (q : ℕ → ℕ), (q = fun k => BitVec.toNat (req.getD k 0)) ∧ Asked s mbConfigRead req ∧ q 0 < 2 ^ 63)
    ∧ (∃ (s : State) (req : List Word), Asked s mbRepairClear req)
    ∧ (∃ (s : State) (req : List Word) (op : ℕ), s.toll.long = some { opcode := op, req := req, run := true } ∧ op ≠ mbResetOp ∧ op ≠ mbFwRecover ∧
      s.hostOk = false)
    ∧ (∃ (s : State) (req : List Word) (op : ℕ), s.toll.long = some { opcode := op, req := req, run := true } ∧ op ≠ mbResetOp ∧ op = mbRepairRead ∧
      s.hostOk = true)
    ∧ (∃ (s : State) (req : List Word) (op : ℕ), s.toll.long = some { opcode := op, req := req, run := true } ∧ op ≠ mbResetOp ∧ op = mbConfigRead ∧
      s.hostOk = true ∧ s.toll.config = [])
    ∧ (∃ (s : State) (req : List Word), Asked s mbHaltOp req ∧ s.serving = true)
    ∧ (∃ (s : State) (req : List Word) (q : ℕ → ℕ), (q = fun k => BitVec.toNat (req.getD k 0)) ∧ Asked s mbResetOp req ∧ bit (q 0) 1 = false)
    ∧ (∃ (s : State) (req : List Word) (q : ℕ → ℕ), (q = fun k => BitVec.toNat (req.getD k 0)) ∧ Asked s mbResetOp req ∧ bit (q 0) 1 = true ∧ s.serving
      = true)
    ∧ (∃ (s : State) (v : Word) (w : ℕ), w = withField (v.toNat) Fld.MB_CMD_GO 1 ∧ Reaches s Reg.MB_CMD w ∧ bit w 32 = true ∧ bf w 0 16 = bf (v.toNat) 0
      16 ∧ (bf (v.toNat) 0 16 = 0 ∨ 16 < bf (v.toNat) 0 16) ∧ s.get Fld.MB_STATUS_BUSY = 0)
    ∧ (∃ (s : State) (v : Word) (w : ℕ), w = withField (v.toNat) Fld.MB_CMD_GO 1 ∧ Reaches s Reg.MB_CMD w ∧ bit w 32 = true ∧ bf w 0 16 = bf (v.toNat) 0
      16 ∧ (bf (v.toNat) 0 16 = 0 ∨ 16 < bf (v.toNat) 0 16) ∧ s.get Fld.MB_STATUS_BUSY = 1)
    ∧ (∃ (s : State), s.toll.orderly = true ∧ s.halting = false ∧ commitsDone s = true)
    ∧ (∃ (s : State), s.toll.orderly = true ∧ s.halting = false ∧ commitsDone s = false)
    ∧ (∃ (s : State) (req : List Word), s.toll.long = some { opcode := (Instr.mbHalt, mbHaltOp).2, req := req, run := false } ∧ mbStateOk s
      (Instr.mbHalt, mbHaltOp).2 = false) :=
  ⟨⟨3, [1,2,2^64+5], default, by decide +kernel⟩,
   ⟨mb 1 [] false [], rq [], by unfold Asked; decide +kernel⟩,
   ⟨mb 2 [] false [], rq [], by unfold Asked; decide +kernel⟩,
   ⟨mb 3 [0, 10, 2^63] false [], rq [0, 10, 2^63], _, rfl, by unfold Asked; decide +kernel⟩,
   ⟨mb 3 [0, 0, 2^63] false [], rq [0, 0, 2^63], _, rfl, by unfold Asked; decide +kernel⟩,
   ⟨mb 4 [2^63] false [], rq [2^63], _, rfl, by unfold Asked; decide +kernel⟩,
   ⟨mb 4 [2^62] false [], rq [2^62], _, rfl, by unfold Asked; decide +kernel⟩,
   ⟨mb 16 [2^63] false [], rq [2^63], _, rfl, by unfold Asked; decide +kernel⟩,
   ⟨mb 16 [2^62] false [], rq [2^62], _, rfl, by unfold Asked; decide +kernel⟩,
   ⟨mb 5 [3] false [(Fld.DEV_STATE_STATE, 2)] (fun t => {t with repair := [⟨1, 2, 3, 4, 5⟩, ⟨2, 2, 3, 4, 5⟩, ⟨3, 2, 3, 4, 5⟩, ⟨0, 2, 3, 4, 5⟩, ⟨9, 2, 3, 4, 5⟩]}),
     rq [3], by unfold Asked; decide +kernel⟩,
   ⟨mb 4 [2^63+64] true [], rq [2^63+64], 4, by decide +kernel⟩,
   ⟨H (mb 4 [2^63+64] true []), rq [2^63+64], 4, by decide +kernel⟩,
   ⟨H (mb 16 [2^63+64] true []), rq [2^63+64], 16, by decide +kernel⟩,
   ⟨mb 6 [] false [], rq [], by unfold Asked; decide +kernel⟩,
   ⟨mb 7 [1] false [], rq [1], _, rfl, by unfold Asked; decide +kernel⟩,
   ⟨mb 7 [3] false [], rq [3], _, rfl, by unfold Asked; decide +kernel⟩,
   ⟨rd [], BitVec.ofNat 64 (uv 0), _, rfl, by unfold Reaches PageAt; decide +kernel⟩,
   ⟨mb 7 [3] true [], BitVec.ofNat 64 (uv 0), _, rfl, by unfold Reaches PageAt; decide +kernel⟩,
   ⟨mb 6 [] true [(Fld.DEV_STATE_STATE, 4)] (fun t => {t with orderly := true}), by decide +kernel⟩,
   ⟨{(mb 7 [3] true [(Fld.DEV_STATE_STATE, 6)] (fun t => {t with orderly := true})) with place := {State.reset.place with haltDone := false}},
     by decide +kernel⟩,
   ⟨mb 6 [] false [(Fld.DEV_STATE_STATE, 2)], rq [], by decide +kernel⟩⟩

theorem test_meets_TollHouseStores :
    (∃ (s : State) (req : List Word) (q : ℕ → ℕ) (slot : ℕ) (kind : ℕ), (q = fun k => BitVec.toNat (req.getD k 0)) ∧ Asked s mbKeyWrite req ∧ slot =
      bf (q 0) 0 8 ∧ kind = bf (q 0) 8 8 ∧ slot ≤ 15 ∧ (kind = 1 ∨ kind = 2) ∧ (keySlot s slot).kind = 0)
    ∧ (∃ (s : State) (req : List Word) (q : ℕ → ℕ) (slot : ℕ) (kind : ℕ), (q = fun k => BitVec.toNat (req.getD k 0)) ∧ Asked s mbKeyWrite req ∧ slot =
      bf (q 0) 0 8 ∧ kind = bf (q 0) 8 8 ∧ slot ≤ 15 ∧ (kind = 1 ∨ kind = 2) ∧ (keySlot s slot).kind ≠ 0)
    ∧ (∃ (s : State) (req : List Word) (q : ℕ → ℕ) (slot : ℕ) (kind : ℕ), (q = fun k => BitVec.toNat (req.getD k 0)) ∧ Asked s mbKeyWrite req ∧ slot =
      bf (q 0) 0 8 ∧ kind = bf (q 0) 8 8 ∧ (15 < slot ∨ kind = 0 ∨ 2 < kind))
    ∧ (∃ (s : State) (req : List Word) (q : ℕ → ℕ), (q = fun k => BitVec.toNat (req.getD k 0)) ∧ Asked s mbKeyClear req ∧ q 0 ≤ 15 ∧ slotNamed s (q 0) =
      false)
    ∧ (∃ (s : State) (req : List Word) (q : ℕ → ℕ), (q = fun k => BitVec.toNat (req.getD k 0)) ∧ Asked s mbKeyClear req ∧ q 0 ≤ 15 ∧ slotNamed s (q 0) =
      true)
    ∧ (∃ (s : State) (req : List Word), Asked s mbKeyInfo req)
    ∧ (∃ (s : State) (req : List Word) (q : ℕ → ℕ), (q = fun k => BitVec.toNat (req.getD k 0)) ∧ Asked s mbFwRecover req ∧ 1 ≤ q 1 ∧ q 1 ≤ 3145728 ∧ 2 ^
      63 ≤ q 0 ∧ s.toll.fwBusy = none ∧ s.toll.slotA.state = slotActive)
    ∧ (∃ (s : State) (req : List Word) (q : ℕ → ℕ), (q = fun k => BitVec.toNat (req.getD k 0)) ∧ Asked s mbFwRecover req ∧ 1 ≤ q 1 ∧ q 1 ≤ 3145728 ∧ 2 ^
      63 ≤ q 0 ∧ s.toll.fwBusy.isSome = true)
    ∧ (∃ (s : State) (req : List Word) (q : ℕ → ℕ), (q = fun k => BitVec.toNat (req.getD k 0)) ∧ Asked s mbFwSelect req ∧ q 0 ≤ 1 ∧ (fwSlot s.toll (q
      0)).state = slotValid ∧ s.toll.rollback ≤ (fwSlot s.toll (q 0)).svn)
    ∧ (∃ (s : State) (req : List Word) (q : ℕ → ℕ), (q = fun k => BitVec.toNat (req.getD k 0)) ∧ Asked s mbFwSelect req ∧ q 0 ≤ 1 ∧ ((fwSlot s.toll (q
      0)).state ≠ slotValid ∨ (fwSlot s.toll (q 0)).svn < s.toll.rollback))
    ∧ (∃ (s : State) (req : List Word), Asked s mbCosign req ∧ s.toll.cosign = none)
    ∧ (∃ (s : State) (req : List Word), Asked s mbCosign req ∧ s.toll.cosign.isSome = true)
    ∧ (∃ (s : State) (req : List Word) (q : ℕ → ℕ), (q = fun k => BitVec.toNat (req.getD k 0)) ∧ Asked s mbChallenge req ∧ (q 0 = 1 ∨ q 0 = 2))
    ∧ (∃ (s : State) (req : List Word) (q : ℕ → ℕ), (q = fun k => BitVec.toNat (req.getD k 0)) ∧ Asked s mbChallenge req ∧ (q 0 = 0 ∨ 2 < q 0))
    ∧ (∃ (s : State) (req : List Word), Asked s mbUnlock req ∧ 3 ≤ s.toll.unlockFails)
    ∧ (∃ (s : State) (req : List Word), Asked s mbUnlock req ∧ s.toll.unlockFails < 3 ∧ s.toll.nonce = none)
    ∧ (∃ (s : State), s.devState = devDrydock ∧ s.get Fld.ST_SUMMARY_FAIL_STEP ≠ 0)
    ∧ (∃ (s : State), (s.devState = devSelftest ∨ s.devState = devBrace))
    ∧ (∃ (s : State), s.toll.unlocked = 0 ∧ s.devState ≠ devDrydock)
    ∧ (∃ (s : State), (1 ≤ s.toll.unlocked ∨ s.devState = devDrydock))
    ∧ (∃ (level : Byte), (level = 1 ∨ level = 2)) :=
  ⟨⟨kr [0x203, 7, 8, 9] 8 kx, rq [0x203, 7, 8, 9], _, 3, 2, rfl, by unfold Asked; decide +kernel⟩,
   ⟨kr [0x102, 7, 8, 9] 8 kx, rq [0x102, 7, 8, 9], _, 2, 1, rfl, by unfold Asked; decide +kernel⟩,
   ⟨kr [0x302, 7, 8, 9] 8 kx, rq [0x302, 7, 8, 9], _, 2, 3, rfl, by unfold Asked; decide +kernel⟩,
   ⟨kr [2] 9 kx, rq [2], _, rfl, by unfold Asked; decide +kernel⟩,
   ⟨named (kr [2] 9 kx), rq [2], _, rfl, by unfold Asked; decide +kernel⟩,
   ⟨kr [] 10 kx, rq [], by unfold Asked; decide +kernel⟩,
   ⟨kr [2^63, 4096] 11, rq [2^63, 4096], _, rfl, by unfold Asked; decide +kernel⟩,
   ⟨kr [2^63, 4096] 11 (fun t => {t with fwBusy := some 0}), rq [2^63, 4096], _, rfl, by unfold Asked; decide +kernel⟩,
   ⟨kr [1] 12 (fun t => {t with slotB := ⟨1, 2, 3, []⟩, rollback := 3}), rq [1], _, rfl, by unfold Asked; decide +kernel⟩,
   ⟨kr [1] 12 (fun t => {t with slotB := ⟨1, 2, 3, []⟩, rollback := 4}), rq [1], _, rfl, by unfold Asked; decide +kernel⟩,
   ⟨kr [1, 2, 3] 15, rq [1, 2, 3], by unfold Asked; decide +kernel⟩,
   ⟨kr [1, 2, 3] 15 (fun t => {t with cosign := some []}), rq [1, 2, 3], by unfold Asked; decide +kernel⟩,
   ⟨kr [1] 13, rq [1], _, rfl, by unfold Asked; decide +kernel⟩,
   ⟨kr [7] 13, rq [7], _, rfl, by unfold Asked; decide +kernel⟩,
   ⟨kr [7] 14 (fun t => {t with unlockFails := 3, unlocked := 1}), rq [7], by unfold Asked; decide +kernel⟩,
   ⟨kr [7] 14, rq [7], by unfold Asked; decide +kernel⟩,
   ⟨kr [7] 14 (fun t => {t with logRate := [(5, 1, 3), (6, 1, 0), (7, 16, 9)]}) [(Fld.DEV_STATE_STATE, 2), (Fld.ST_SUMMARY_FAIL_STEP, 3)],
     by decide +kernel⟩,
   ⟨kr [7] 14 id [(Fld.DEV_STATE_STATE, 1)], by decide +kernel⟩,
   ⟨kr [1] 13, by decide +kernel⟩,
   ⟨kr [7] 14 id [(Fld.DEV_STATE_STATE, 2)], by decide +kernel⟩,
   ⟨1, by decide +kernel⟩⟩

end Toll

namespace Links

def P : Fin 2 := 0
def tell (s : State) : State := let s := tpUpdate s; {s with tp := {s.tp with told := helloWords s 0}}
def tp (st : Nat) (g : List (Fld × Nat)) (f : TpPort → TpPort := id) : State :=
  tell (((rd ([(NOW, 5000000), (TICK, 90), (Fld.TP_PORT_STATUS_STATE 0, st), (Fld.TP_PORT_CFG_EN 0, 1), (Fld.TP_PORT_STATUS_REV 0, 2)] ++ g)).modTpPort P f).modToll (fun t => {t with serial := 0x1234, plls := 255}))
def fr (ws : List Nat) (dst : Nat) (syn : List Byte := [0]) (alien : Option Byte := none) : TpFrame := ⟨7, BitVec.ofNat _ dst, 1, 5, ws.map (BitVec.ofNat 64), syn, alien⟩
def hello (port rev : Nat) : Hello := ⟨0x99, 1, rev, port, 5, 1, 2, 3, 1000, 0, 0x99, 5, 1, 0⟩
def mo (s : State) := (s.tp.master, s.tp.via, s.get Fld.TP_STATUS_POSITION, s.get Fld.TP_STATUS_IS_MASTER)
def hs2 := tp 2 [] (fun p => {p with sent := true})
def fs2 := fr [0x99, 1 + 2*2^32 + 1*2^40, 7, 8, 9] 0xFF
def h2 : Hello := helloParse (fs2).words
def lay (ws : List Word) : Bool := ws.length == 5 && allZero (wordBytes ws) 35 5
def hs3 := tp 3 [] (fun p => {p with sent := true})
def hs4 := tp 4 [] (fun p => {p with sent := true})
def al := fr [1] 4 [0, 0] (some 0x40)
def foll (l : List (Fld × Nat)) (f : TpPort → TpPort := id) : State := tp 3 ([(Fld.TP_CFG_MASTER_PRIO, 1), (Fld.TB_CTRL_SRC, 3), (Fld.TB_CTRL_STEP_THRESH_US, 100)] ++ l) (fun p => f {p with hello := some (hello 1 2)})
def dly : Int := 200
def dln : Int := -300
def off : Int := 100
def offa : Int := 110
def seenB : State := let s := tp 3 []; {s with tp := {s.tp with beacons := [⟨0x77, [0x77, 327683], 4000000⟩]}}
def ha : State := tp 2 [] (fun p => {p with sent := true, hello := some (hello 1 2)})
def hu : State := helloOut (tpUpdate ha) P

theorem test_meets_Towpath :
    (∃ (s : State) (p : Fin 2), tpState s p = tpDown ∧ s.isSet (Fld.TP_PORT_CFG_EN ↑p) = true ∧ pllOk s (6 + ↑p) = true ∧ SMap.get 0 s.portOut (13 +
      ↑p) ≠ 3 ∧ (s.tpPort p).retry = false)
    ∧ (∃ (s : State) (p : Fin 2), tpState s p = tpDown ∧ s.isSet (Fld.TP_PORT_CFG_EN ↑p) = true ∧ pllOk s (6 + ↑p) = true ∧ SMap.get 0 s.portOut (13 +
      ↑p) ≠ 3 ∧ (s.tpPort p).retry = true)
    ∧ (∃ (s : State) (p : Fin 2), (pllOk s (6 + ↑p) = false ∨ SMap.get 0 s.portOut (13 + ↑p) = 3))
    ∧ (∃ (s : State) (p : Fin 2), tpState s p = tpTraining)
    ∧ (∃ (s : State) (p : Fin 2), tpTalks s p = false)
    ∧ (∃ (s : State) (t : State) (p : Fin 2) (f : TpFrame) (ws : List Word) (h : Hello), ((tpTake s p f false fun ws_1 => ws_1.length == 5 && allZero
      (wordBytes ws_1) 35 5) = (t, some ws)) ∧ h = helloParse ws)
    ∧ (∃ (s : State) (p : Fin 2) (h : Hello), tpState s p = tpNegotiate ∧ (s.tpPort p).sent = true ∧ helloReturns s p h = false ∧ h.revMax < 256 ∧
      h.port ≠ ↑p)
    ∧ (∃ (s : State) (p : Fin 2) (h : Hello), tpState s p = tpNegotiate ∧ (s.tpPort p).sent = true ∧ h.port = ↑p)
    ∧ (∃ (s : State) (h : Hello), (tpState s 0 = tpNegotiate ∧ (s.tpPort 0).sent = true ∧ h.port ≠ 0 ∨ tpState s 0 = tpUp) ∧ helloReturns s 0 h = true ∧
      s.isSet Fld.TP_STATUS_IS_MASTER = true)
    ∧ (∃ (s : State) (h : Hello) (o : Hello), tpState s 0 = tpBlocked ∧ s.isSet Fld.TP_STATUS_RING = true ∧ o.pos ≠ 15 ∧ h.pos < o.pos)
    ∧ (∃ (s : State) (h : Hello) (o : Hello), tpState s 0 = tpBlocked ∧ s.isSet Fld.TP_STATUS_RING = true ∧ o.pos ≤ h.pos)
    ∧ (∃ (s : State) (p : Fin 2), tpState s p = tpBlocked)
    ∧ (∃ (s : State) (p : Fin 2) (f : TpFrame), tpTalks s p = true ∧ (∃ x ∈ tpSyndromes s p f, eccOf x = Ecc.bad))
    ∧ (∃ (s : State) (p : Fin 2) (f : TpFrame), tpTalks s p = true ∧ (∀ x ∈ tpSyndromes s p f, x = 0) ∧ f.alien.isSome = true)
    ∧ (∃ (s : State) (p : Fin 2) (f : TpFrame) (w0 : Word), tpState s p = tpUp ∧ CleanFrame s p f ∧ f.words = [w0] ∧ s.devState ≠ devDrydock)
    ∧ (∃ (s : State) (p : Fin 2) (f : TpFrame) (w0 : Word) (w1 : Word) (t1 : ℕ) (delay : ℤ), tpState s p = tpUp ∧ CleanFrame s p f ∧ f.words = [w0, w1]
      ∧ (s.tpPort p).t1 = some t1 ∧ s.isSet Fld.TP_STATUS_IS_MASTER = true ∧ delay = (↑(BitVec.toNat w0) - ↑t1 + (↑s.now - ↑(BitVec.toNat w1))) /
      2)
    ∧ (∃ (s : State) (p : Fin 2) (f : TpFrame) (w0 : Word) (w1 : Word) (t1 : ℕ) (delay : ℤ) (off : ℤ), tpState s p = tpUp ∧ CleanFrame s p f ∧ f.words =
      [w0, w1] ∧ (s.tpPort p).t1 = some t1 ∧ s.isSet Fld.TP_STATUS_IS_MASTER = false ∧ s.tp.via = some ↑p ∧ s.devState ≠ devDrydock ∧ servoTakes s
      3 = true ∧ delay = (↑(BitVec.toNat w0) - ↑t1 + (↑s.now - ↑(BitVec.toNat w1))) / 2 ∧ off = (↑(BitVec.toNat w0) - ↑t1 - (↑s.now -
      ↑(BitVec.toNat w1))) / 2 - (BitVec.ofNat 16 (s.get (Fld.TP_PORT_CFG_ASYM_NS ↑p))).toInt ∧ off.natAbs ≤ s.get Fld.TB_CTRL_STEP_THRESH_US *
      1000 ∧ off.natAbs < 2 ^ 31)
    ∧ (∃ (s : State) (p : Fin 2) (f : TpFrame) (w0 : Word) (w1 : Word) (w2 : Word), tpState s p = tpUp ∧ CleanFrame s p f ∧ f.words = [w0, w1, w2] ∧ bf
      (BitVec.toNat w0) 8 8 = 0 ∧ bf (BitVec.toNat w1) 16 48 = 0 ∧ BitVec.toNat f.dst = s.get Fld.TP_STATUS_POSITION ∧ (bf (BitVec.toNat w0) 16
      16, BitVec.toNat f.src) ∉ s.board.tpNow ∧ s.board.tpNow.length < 64 ∧ senseOf s 524 = 1 ∧ s.devState ≠ devDrydock)
    ∧ (∃ (s : State) (p : Fin 2) (f : TpFrame) (w0 : Word) (w1 : Word) (w2 : Word), tpState s p = tpUp ∧ CleanFrame s p f ∧ f.words = [w0, w1, w2] ∧
      BitVec.toNat w0 = 1 ∧ 2 ≤ s.get (Fld.TP_PORT_STATUS_REV ↑p) ∧ BitVec.toNat f.dst = s.get Fld.TP_STATUS_POSITION ∧ bf (BitVec.toNat w1) 24 8
      = 255 ∧ slotOwner s (bf (BitVec.toNat w1) 0 16) = some 56 ∧ 1 ≤ bf (BitVec.toNat w1) 16 8 ∧ bf (BitVec.toNat w1) 16 8 ≤ 3 ∧ BitVec.toNat w2
      ≤ s.now ∧ 0 < BitVec.toNat w2)
    ∧ (∃ (s : State) (p : Fin 2) (f : TpFrame) (w0 : Word) (w1 : Word), tpState s p = tpUp ∧ CleanFrame s p f ∧ f.words = [w0, w1] ∧ bf (BitVec.toNat
      w1) 8 8 = 0 ∧ bf (BitVec.toNat w1) 32 32 = 0 ∧ BitVec.toNat f.dst = s.get Fld.TP_STATUS_POSITION)
    ∧ (∃ (s : State) (p : Fin 2), s.devState = devDrydock ∧ tpState s p = tpUp) :=
  ⟨⟨tp 0 [], P, by decide +kernel⟩,
   ⟨tp 0 [] (fun p => {p with retry := true}), P, by decide +kernel⟩,
   ⟨{tp 0 [] with portOut := SMap.insert [] 13 3}, P, by decide +kernel⟩,
   ⟨tp 1 [], P, by decide +kernel⟩,
   ⟨tp 0 [], P, by decide +kernel⟩,
   ⟨hs2, (tpTake hs2 P fs2 false lay).1, P, fs2, fs2.words, h2, by decide +kernel⟩,
   ⟨hs2, P, h2, by decide +kernel⟩,
   ⟨hs2, P, hello 0 2, by decide +kernel⟩,
   ⟨tp 2 [(Fld.TP_CFG_MASTER_PRIO, 9)] (fun p => {p with sent := true}), {hello 1 2 with serial := 0x1234}, by decide +kernel⟩,
   ⟨tp 4 [(Fld.TP_CFG_MASTER_PRIO, 9), (Fld.TP_STATUS_RING, 1)] (fun p => {p with sent := true}), {hello 1 2 with pos := 1}, hello 1 2,
     by decide +kernel⟩,
   ⟨tp 4 [(Fld.TP_CFG_MASTER_PRIO, 9), (Fld.TP_STATUS_RING, 1)] (fun p => {p with sent := true}), hello 1 2, hello 1 2, by decide +kernel⟩,
   ⟨hs4, P, by decide +kernel⟩,
   ⟨tp 3 [], P, fr [1] 4 [0, 3], by decide +kernel⟩,
   ⟨tp 2 [], P, al, by decide +kernel⟩,
   ⟨tp 3 [], P, fr [77] 0xFF [0,0,0], 77, by unfold CleanFrame; decide +kernel⟩,
   ⟨tp 3 [] (fun p => {p with t1 := some 4999000}), P, fr [4999300, 4999900] 0xFF [0,0,0], 4999300, 4999900, 4999000, dly,
     by unfold CleanFrame; decide +kernel⟩,
   ⟨foll [] (fun p => {p with t1 := some 4999000}), P, fr [4999300, 4999900] 0xFF [0,0,0], 4999300, 4999900, 4999000, dly, off,
     by unfold CleanFrame; decide +kernel⟩,
   ⟨tp 3 [(Fld.SRC_SENSE 524, 1)], P, fr [5570563, 9, 1000] 15 [0,0,0], 5570563, 9, 1000, by unfold CleanFrame; decide +kernel⟩,
   ⟨tp 3 [(Fld.SIG_RANGE_BASE 56, 100), (Fld.SIG_RANGE_COUNT 56, 4)], P, fr [1, 244838889029734, 1000] 15 [0,0,0], 1, 244838889029734, 1000,
     by unfold CleanFrame; decide +kernel⟩,
   ⟨seenB, P, fr [0x77, 327683] 15 [0,0,0], 0x77, 327683, by unfold CleanFrame; decide +kernel⟩,
   ⟨tp 3 [(Fld.DEV_STATE_STATE, 2), (Fld.ST_SUMMARY_FAIL_STEP, 3)], P, by decide +kernel⟩⟩

end Links

namespace Ports2

abbrev D : Fin 56 := 50
def en (l : List (Fld × Nat)) : State := rd ([(Fld.CHAN_STATE_STATE 50, 1), (NOW, 123456),(TICK, 88),(Fld.BE_MODE_MODE 50, 9), (Fld.BE_STATUS_ENGINE 50, 1),(Fld.ETH_STATUS_LINK 50, 1),(Fld.ETH_CFG_TX_EN 50, 1),(Fld.ETH_CFG_CAP_EN 50, 1),(Fld.ETH_CFG_STRIP_FCS 50, 0)] ++ l)
def eth (s : State) (f : Eth → Eth) : State := s.modEth D f
def hdr : List Byte := List.replicate 12 2 ++ [0x08, 0x00] ++ List.replicate 50 1
def hv : List Byte := List.replicate 12 2 ++ [0x81, 0x00, 0, 5, 0x08, 0x00] ++ List.replicate 50 1
def rx0 : EthRx := ⟨999, 1, 0, false, false, 9216, [], 0, true, false, [], false⟩
def txi (k n : Nat) : List Byte := padTo 8 (leBytes 2 n ++ leBytes 1 k ++ zeros 13 ++ List.replicate n 0x41)
def lock (l : List (Fld × Nat)) : State := rd ([(Fld.CHAN_STATE_STATE 5, 1), (NOW, 123456),(TICK, 88)] ++ l)
def rc (n : Nat) : Rec := ⟨5, 0x20, 5, 0, 0, List.replicate n 3⟩
def ch (recs : List Rec) (f : Chamber → Chamber) (s : State) : State := s.modCh C (fun c => {c with chamber := f {c.chamber with h0 := {c.chamber.h0 with st := .full, recs := recs, used := (recs.map recSize).sum, tick := 87, stamp := 1}, h1 := {c.chamber.h1 with st := .filling}, filling := 1, swaps := 1}})
def act (s : State) : State := s.modTb (fun t => {t with active := [0x05000000], edgeNs := 123000})
def lotsCredits : List Credit := (List.range 768).map (fun k => ⟨k, 6, false, [], true, k, 0⟩)
def dr (s : State) : State := ch [rc 8, rc 600] (fun c => {c with h0 := {c.h0 with st := .draining}}) {s with credits := [⟨0,5,false,[],false,7,0⟩,⟨1,5,false,[],false,7,1⟩,⟨2,6,false,[],true,8,0⟩]}
def bas (recs : List Rec) (s : State) : State := {s with basin := {s.basin with h0 := {s.basin.h0 with st := .full, recs := recs, used := (recs.map recSize).sum, tick := 87, stamp := 1}, h1 := {s.basin.h1 with st := .filling}, filling := 1}}
def bCred : List Credit := (List.range 16).map (fun k => ⟨k, 0xFF, false, [], true, k, 0⟩)
def exn (_n off : Option Nat) (num : Nat) : Extent := ⟨num, 5, 87, 0, 40, [rc 24], [none], false, false, off⟩
def crs (off : Option Nat) : Course := ⟨87, 8700000, false, [], [exn none off 7]⟩
def crd : Credit := ⟨0,5,false,List.replicate 40 9,true,7,0⟩
def nx : Course := ⟨88, 8800000, false, [], []⟩
def cc (tick : Nat) (l : List (Fld × Nat)) (ds : List DoneCourse) : State := {lock ([(TICK, tick)] ++ l) with courses := [crs (some 4096), nx], dones := ds}
def sp3 : Stopping := ⟨none, false, 80, 3, true, ⟨0, 0, 0⟩⟩

theorem test_meets_StreamPorts :
    ∃ (s : State) (c : Fin 56) (data : List Byte) (all : List Byte) (r : EthRx), all = r.rest ++ data ∧ 48 ≤ ↑c ∧ chState s ↑c ≠ chFenced ∧ (∀ (p :
      Stopping), (s.ch c).stopping = some p → p.fenced = false) ∧ (s.sq c).exec = none ∧ (s.eth c).rx = some r ∧ (s.eth c).held = [] ∧ r.cut = 0 ∧
      64 ≤ all.length ∧ all.length ≤ 8192 + ethStrip s ↑c ∧ s.isSet (Fld.ETH_CFG_ERR_KEEP ↑c) = false :=
  ⟨eth (en [(Fld.ETH_CFG_ERR_KEEP 50, 0)]) (fun e => {e with rx := some rx0}), D, List.replicate 64 3, _, rx0, rfl, by decide +kernel⟩

theorem test_meets_PoundAndRing :
    ∃ (s : State) (n : Fin 448) (w : Word) (c : Fin 56) (k : ℕ) (h : ChHalf), h = (s.ch c).chamber.half k ∧ s.tb.active[↑n]? = some w ∧ lsChan w = ↑c
      ∧ ↑n ∉ s.tb.served ∧ chLocks s ↑c = true ∧ lsSub w < (s.ch c).chamber.swaps ∧ slotBefore s (↑n) w = false ∧ s.canReach (s.tb.edgeNs + lsOff
      w) = true ∧ (s.ch c).chamber.oldestFull = some k ∧ (s.ch c).chamber.draining = none ∧ (((s.ch c).chamber.copies.any fun x_1 => x_1.half ==
      k) = false) ∧ h.recs ≠ [] ∧ poundGrant s (↑c) (creditsFor h) = none :=
  ⟨act (ch [rc 8, rc 600] id (lock [(Fld.POUND_QUOTA_QUOTA 5, 0),(Fld.POUND_QUOTA_POOL_LIMIT 5, 0)])), 0, 0x05000000, C, 0, _, rfl,
     by decide +kernel⟩

end Ports2


/-- The clauses of HalfAndBar2Accesses and RegisterWrites on sizes, BAR4 and configuration space. -/
theorem test_meets_HostSpaces :
    (∃ (s : State) (a : BitVec 26), s.toll.orderly = false ∧ PageAt s a.toNat) ∧
    (∃ (s : State) (a : BitVec 26) (e : MsixEntry), s.toll.orderly = false ∧ a.toNat < 0x400 ∧ e = msixOf s (a.toNat / 16) ∧ a.toNat % 16 = 0) ∧
    (∃ (s : State) (a : BitVec 26) (e : MsixEntry), s.toll.orderly = false ∧ a.toNat < 0x400 ∧ e = msixOf s (a.toNat / 16) ∧ a.toNat % 16 = 8) ∧
    (∃ s : State, s.toll.orderly = false ∧ s.devState = devSelftest) ∧
    (∃ s : State, s.toll.orderly = false ∧ s.devState ≠ devSelftest) :=
  ⟨⟨ready, BitVec.ofNat 26 (Reg.SH_PROG 5), by unfold PageAt; decide +kernel⟩, ⟨ready, 0x3F0, _, by decide +kernel, by decide +kernel, rfl, by decide +kernel⟩,
   ⟨ready, 0x3F8, _, by decide +kernel, by decide +kernel, rfl, by decide +kernel⟩, ⟨State.reset, by decide +kernel⟩, ⟨ready, by decide +kernel⟩⟩


/-- The clauses of HostFunction on the return to D0 and on Bus Master Enable: posted completions leave when the host can take them, and
wait when it cannot. -/
theorem test_meets_HostFunction_held :
    (∃ s : State, s.devState ≠ devSelftest ∧ s.host.held ≠ [] ∧
      (∀ x ∈ [(Instr.hostD0Return, { s.host with d3hot := false }), (Instr.busMasterEnableSet, { s.host with bme := true })],
        (x.2.link && !x.2.d3hot && x.2.bme) = true)) ∧
    (∃ s : State, s.devState ≠ devSelftest ∧ s.host.held ≠ [] ∧
      (∀ x ∈ [(Instr.hostD0Return, { s.host with d3hot := false }), (Instr.busMasterEnableSet, { s.host with bme := true })],
        (x.2.link && !x.2.d3hot && x.2.bme) = false)) :=
  ⟨⟨ready.modHost (fun h => { h with link := true, bme := true, held := [⟨64, [1]⟩] }), by decide +kernel⟩,
   ⟨ready.modHost (fun h => { h with link := false, held := [⟨64, [1]⟩] }), by decide +kernel⟩⟩

/-- The clause of TollHouseStores on an unlock is met by a nonce drawn and an answer, whatever the signature check says of it. -/
theorem test_meets_unlock : ∃ (s : State) (req : List Word) (level : Nat) (n : Nat) (digest : List Byte) (good : Bool),
    Asked s mbUnlock req ∧ s.toll.unlockFails < 3 ∧ s.toll.nonce = some (level, n) ∧
    digest = sha384 (nonceBytes n ++ leBytes 8 s.toll.serial ++ leBytes 1 level ++ zeros 7) ∧
    good = (Config.sigOk Config.grenathKey digest (reqBytes (fun k => (req.getD k 0).toNat) 0 12) &&
      match s.toll.cosign with | some key => Config.sigOk key digest (reqBytes (fun k => (req.getD k 0).toNat) 12 12) | none => true) ∧
    (SMap.get (0, 0) s.toll.logRate 0x0620).1 < 64 :=
  ⟨(ready.put Fld.MB_STATUS_BUSY 1).modToll (fun t => { t with long := some ⟨mbUnlock, [7], false⟩, nonce := some (2, 77) }), [7], 2, 77, _, _,
   by unfold Asked; decide +kernel, by decide +kernel, by decide +kernel, rfl, rfl, by decide +kernel⟩


/-- A source held in D3hot with PME_En; `noted` says whether the controller has noted it. -/
def pmeHeld (noted : Bool) : State :=
  (Controller.src (Controller.so 40 4 1 3) 3 (Controller.lat [40])).modHost (fun h => { h with d3hot := true, pmeEn := true, pmeOn := noted, pmeStatus := noted })

theorem test_meets_HeldSourceIsNotified_due :
    (pmeDue (settle (pmeHeld false)) = true ∧ (pmeHeld false).host.pmeOn = false) ∧
    (pmeDue (settle (pmeHeld true)) = true ∧ (pmeHeld true).host.pmeOn = true) ∧ pmeDue (settle ready) = false ∧
    ∃ v : Word, PmeNoted (pmeHeld true) = true ∧ pmeDue (pmeHeld true) = true ∧ (pmeHeld true).devState ≠ devSelftest ∧ bf v.toNat 0 2 = 3 ∧
      bit v.toNat 15 = true :=
  ⟨by decide +kernel, by decide +kernel, by decide +kernel, 0x8003, by decide +kernel⟩

theorem test_meets_EveryStepKeepsDramWf : DramWf (ready.dramWrite 0x1000 [1, 0, 2]) = true ∧
    ∃ t, step (ready.dramWrite 0x1000 [1, 0, 2]) = .next t := ⟨by decide +kernel, _, rfl⟩
end Sys2Proof.Tests
end

section
/-!
PROOF. What the host's register writes do (R6, R325, R326, R358, R395, R396, R398, R401): fields, pages, the MSI-X table, configuration space.
-/
namespace Sys2Proof.Machine

/-! ### Fields by access code

A write of one register field by its access code (R6): what the field then holds, and that no other field changes. -/

theorem bf_lt (v lo w : Nat) : bf v lo w < 2 ^ w := Nat.mod_lt _ (Nat.two_pow_pos w)

/-- Taking from a number the bits it shares with another clears those bits and keeps the rest. -/
theorem testBit_sub_and (x b i : Nat) : (x - (x &&& b)).testBit i = (x.testBit i && !b.testBit i) := by
  induction i generalizing x b with
  | zero =>
    have hle : x &&& b ≤ x := Nat.and_le_left
    have hand : (x &&& b) % 2 = 1 ↔ x % 2 = 1 ∧ b % 2 = 1 := Nat.and_mod_two_eq_one
    rw [Nat.testBit_zero, Nat.testBit_zero, Nat.testBit_zero, Bool.eq_iff_iff]
    simp only [Bool.and_eq_true, Bool.not_eq_true', decide_eq_true_eq, decide_eq_false_iff_not]
    omega
  | succ i ih =>
    have half : (x - (x &&& b)) / 2 = x / 2 - (x / 2 &&& b / 2) := by
      have hle : x &&& b ≤ x := Nat.and_le_left
      have hand : (x &&& b) % 2 = 1 ↔ x % 2 = 1 ∧ b % 2 = 1 := Nat.and_mod_two_eq_one
      rw [← Nat.and_div_two]
      omega
    rw [Nat.testBit_succ, Nat.testBit_succ, Nat.testBit_succ, half, ih]

/-- A value that fits the field is what a read after its write gives. -/
theorem State.get_put_of_lt (s : State) {f : Fld} {v : Nat} (h : v < 2 ^ f.w) : (s.put f v).get f = v := by
  rw [State.get_put_same, Nat.mod_eq_of_lt h]

section
variable (s : State) (a v : Nat) (d : FldDef)

/-- RW and RWNV take the bits written. -/
theorem get_fldWrite_rw (h : d.acc = .rw ∨ d.acc = .rwnv) : (fldWrite s a v d).get (fldAt a d) = bf v d.lo d.w := by
  have hp : fldWrite s a v d = s.put (fldAt a d) (bf v d.lo d.w) := by
    rcases h with h | h <;> simp only [fldWrite, h]
  rw [hp]
  exact s.get_put_of_lt (bf_lt _ _ _)

/-- W1C loses the bits written as 1. -/
theorem testBit_get_fldWrite_w1c (hw : s.get (fldAt a d) < 2 ^ d.w) (h : d.acc = .w1c) (i : Nat) :
    ((fldWrite s a v d).get (fldAt a d)).testBit i = ((s.get (fldAt a d)).testBit i && !(bf v d.lo d.w).testBit i) := by
  simp only [fldWrite, h]
  rw [State.get_put_of_lt s (Nat.lt_of_le_of_lt (Nat.sub_le _ _) hw), testBit_sub_and]

/-- W1S gains the bits written as 1. -/
theorem testBit_get_fldWrite_w1s (hw : s.get (fldAt a d) < 2 ^ d.w) (h : d.acc = .w1s) (i : Nat) :
    ((fldWrite s a v d).get (fldAt a d)).testBit i = ((s.get (fldAt a d)).testBit i || (bf v d.lo d.w).testBit i) := by
  simp only [fldWrite, h]
  have hfit : s.get (fldAt a d) ||| bf v d.lo d.w < 2 ^ (fldAt a d).w := Nat.or_lt_two_pow hw (bf_lt _ _ _)
  rw [State.get_put_of_lt s hfit, Nat.testBit_or]

/-- RO, WO and RC keep what they held. -/
theorem fldWrite_of_not_writable (h : d.acc = .ro ∨ d.acc = .wo ∨ d.acc = .rc) : fldWrite s a v d = s := by
  rcases h with h | h | h <;> simp only [fldWrite, h]

/-- No field at another place changes. -/
theorem get_fldWrite_ne {g : Fld} (hg : fldKey g ≠ fldKey (fldAt a d)) : (fldWrite s a v d).get g = s.get g := by
  unfold fldWrite
  cases d.acc with
  | rw | rwnv | w1c | w1s => exact State.get_put_ne s _ hg
  | ro | wo | rc => rfl

end

/-! ### Pages of BAR0

Writes of BAR0 by the host: of no page, under a write lock, in a wrong size, and through a register's rule (R395, R396, R398, R401). -/

/-- REGISTER_WRITE does what the write to its space makes, unless a waiting RESET responds to it. -/
theorem does_registerWrite {s u : State} {sp : RegSpace} {a : BitVec 26} {v : Word} (hu : spaceWrite s sp a.toNat v.toNat = u)
    (ho : u.toll.orderly = false) : Does (.registerWrite sp a v) s u := by
  subst hu
  show done (orderlyCheck (spaceWrite s sp a.toNat v.toNat)) = _
  rw [orderlyCheck_id ho]
  rfl

/-- An access outside DRYDOCK to an address of no page is noted and counted; a read answers zero. -/
theorem does_unmappedAccess {s : State} {a : BitVec 26} (ha : barRegion a.toNat = .unmapped) (hd : s.devState ≠ devDrydock) (write : Bool) :
    Does (.unmappedAccess a write) s (if write then (s.raise Fld.HP_EVT_UNMAPPED).bumpSat Fld.HP_STATS_UNMAPPED 1
      else ((s.raise Fld.HP_EVT_UNMAPPED).bumpSat Fld.HP_STATS_UNMAPPED 1).answer 0) := by
  show done (unmappedAccess s a.toNat write) = _
  simp only [unmappedAccess, ha, unmappedHit, hd, if_true, if_false]
  rfl

/-- Noting an access error touches no part of the Toll House. -/
@[simp] theorem pageErr_toll (s : State) (a b : Nat) : (pageErr s a b).toll = s.toll := by
  unfold pageErr
  simp only
  split <;> rfl

/-- A 64-bit write of an address in a page that answers is a write of that page, whose snapshot it drops. -/
theorem hostWrite64_of_pageAt {s : State} {a : Nat} (h : PageAt s a) (v : Nat) :
    hostWrite64 s a v = pageWrite (Touched s a) a v := by
  obtain ⟨halign, hregion, hanswers, hwaits⟩ := h
  simp only [hostWrite64, halign, hregion, hanswers, hwaits, if_true, ne_eq, not_true_eq_false, if_false, Bool.false_eq_true]
  rfl

/-- WR_LOCK refuses a write beyond the header. -/
theorem pageWrite_of_locked {s : State} {a : Nat} (hoff : 0x100 ≤ a % 0x1000) (hlock : s.get (Fld.PAGE_CTRL_WR_LOCK (pageOf a)) = 1)
    (v : Nat) : pageWrite s a v = pageErr s a errState := by
  have hset : s.isSet (Fld.PAGE_CTRL_WR_LOCK (pageOf a)) = true := by rw [State.isSet_eq, hlock]; rfl
  simp only [pageWrite, Nat.not_lt.mpr hoff, if_false, hset, Bool.true_or, if_true]

/-- An address is its page and its offset there. -/
theorem pageOf_add_offset (a : Nat) : pageOf a + a % 0x1000 = a := by
  unfold pageOf
  omega

/-- A size error in a page that answers sets SIZE there and drops the page's snapshot. -/
theorem sizeError_of_pageAt {s : State} {a : Nat} (h : PageAt s a) : sizeError s a = pageErr (Touched s a) a errSize := by
  obtain ⟨-, hregion, hanswers, -⟩ := h
  simp only [sizeError, hregion, hanswers, Bool.not_true, Bool.false_eq_true, if_false, BarRegion.owner, pageOf_add_offset]
  rfl

/-- A write with a size error, in a page that answers, is discarded and noted. -/
theorem spaceWrite_bad_of_pageAt {s : State} {a : Nat} (h : PageAt s a) (v : Nat) :
    spaceWrite s (.bar0 .bad) a v = pageErr (Touched s a) a errSize := by
  rw [← sizeError_of_pageAt h]
  obtain ⟨-, hregion, -, hwaits⟩ := h
  simp only [spaceWrite, barWrite, hregion, hwaits, Bool.false_eq_true, if_false]

/-! #### REGISTER_WRITE of BAR0 -/

section
variable {s : State} {a : BitVec 26} {v : Word} (ho : s.toll.orderly = false)
include ho

/-- A write that makes an access error, and nothing else, completes with it noted on the page. -/
theorem does_registerWrite_pageErr {size : AccSize} {b : Nat}
    (hw : spaceWrite s (.bar0 size) a.toNat v.toNat = pageErr (Touched s a.toNat) a.toNat b) :
    Does (.registerWrite (.bar0 size) a v) s (pageErr (Touched s a.toNat) a.toNat b) :=
  does_registerWrite hw (by rw [pageErr_toll, touched_toll, ho])

theorem does_registerWrite_of_refused (hr : Reaches s a.toNat v.toNat)
    (hu : regWrite (Touched s a.toNat) a.toNat v.toNat = .refused) :
    Does (.registerWrite (.bar0 .word) a v) s (pageErr (Touched s a.toNat) a.toNat errState) :=
  does_registerWrite_pageErr ho ((hostWrite64_reaches hr).trans (by rw [hu]; rfl))

theorem does_registerWrite_of_locked (hp : PageAt s a.toNat) (hoff : 0x100 ≤ a.toNat % 0x1000)
    (hlock : s.get (Fld.PAGE_CTRL_WR_LOCK (pageOf a.toNat)) = 1) :
    Does (.registerWrite (.bar0 .word) a v) s (pageErr (Touched s a.toNat) a.toNat errState) :=
  does_registerWrite_pageErr ho
    ((hostWrite64_of_pageAt hp v.toNat).trans (pageWrite_of_locked hoff ((touched_get s a.toNat _).trans hlock) v.toNat))

theorem does_registerWrite_of_sizeError (hp : PageAt s a.toNat) :
    Does (.registerWrite (.bar0 .bad) a v) s (pageErr (Touched s a.toNat) a.toNat errSize) :=
  does_registerWrite_pageErr ho (spaceWrite_bad_of_pageAt hp v.toNat)

end

/-- A write that reaches a register's rule does what the rule accepts. -/
theorem does_registerWrite_of_ok {s u : State} {a : BitVec 26} {v : Word} (hr : Reaches s a.toNat v.toNat)
    (hu : regWrite (Touched s a.toNat) a.toNat v.toNat = .ok u) (ho : u.toll.orderly = false) :
    Does (.registerWrite (.bar0 .word) a v) s u :=
  does_registerWrite ((hostWrite64_reaches hr).trans (by rw [hu])) ho

/-! ### The MSI-X table

Writes of the MSI-X table through BAR4 (R325): each changes its own entry alone. -/

/-- Of two insertions at one key the second stays. -/
theorem SMap.insert_insert_same {α : Type} (m : List (Nat × α)) (k : Nat) (v w : α) :
    SMap.insert (SMap.insert m k v) k w = SMap.insert m k w := by
  induction m with
  | nil => simp [SMap.insert]
  | cons p t ih =>
    obtain ⟨j, u⟩ := p
    rcases Nat.lt_trichotomy k j with h | h | h
    · simp [SMap.insert, h]
    · simp [SMap.insert, h]
    · have hlt : ¬ k < j := by omega
      have hne : ¬ k = j := by omega
      simp [SMap.insert, hlt, hne, ih]

/-- The state with entry `n` of the MSI-X table replaced. -/
def withMsix (s : State) (n : Nat) (e : MsixEntry) : State := s.modHost (fun h => { h with msix := SMap.insert h.msix n e })

@[simp] theorem msixOf_withMsix_same (s : State) (n : Nat) (e : MsixEntry) : msixOf (withMsix s n e) n = e :=
  SMap.get_insert_same _ _ _ _

theorem msixOf_withMsix_ne (s : State) {n m : Nat} (e : MsixEntry) (h : m ≠ n) : msixOf (withMsix s n e) m = msixOf s m :=
  SMap.get_insert_ne _ _ _ h

theorem withMsix_withMsix (s : State) (n : Nat) (e e' : MsixEntry) : withMsix (withMsix s n e) n e' = withMsix s n e' := by
  show s.modHost (fun h => { h with msix := SMap.insert (SMap.insert h.msix n e) n e' }) = _
  simp only [SMap.insert_insert_same]
  rfl

section
variable (s : State) {off : Nat} (v : Nat)

theorem msixWrite_addrLow (ht : off < 0x400) (hw : off % 16 = 0) : msixWrite s off v =
    withMsix s (off / 16) { msixOf s (off / 16) with addr := (msixOf s (off / 16)).addr / 2 ^ 32 * 2 ^ 32 + v % 2 ^ 32 / 4 * 4 } := by
  simp only [msixWrite, hw, ht, if_true]
  rfl

theorem msixWrite_addrHigh (ht : off < 0x400) (hw : off % 16 = 4) : msixWrite s off v =
    withMsix s (off / 16) { msixOf s (off / 16) with addr := (msixOf s (off / 16)).addr % 2 ^ 32 + v % 2 ^ 32 * 2 ^ 32 } := by
  simp only [msixWrite, hw, ht, if_true]
  rfl

theorem msixWrite_data (ht : off < 0x400) (hw : off % 16 = 8) : msixWrite s off v =
    withMsix s (off / 16) { msixOf s (off / 16) with data := v % 2 ^ 32 } := by
  simp only [msixWrite, hw, ht, if_true]
  rfl

theorem msixWrite_mask (ht : off < 0x400) (hw : off % 16 = 12) : msixWrite s off v =
    withMsix s (off / 16) { msixOf s (off / 16) with mask := bit (v % 2 ^ 32) 0 } := by
  simp only [msixWrite, hw, ht, if_true]
  rfl

/-- An 8 B write of an entry's address. -/
theorem spaceWrite_msixAddr (ht : off < 0x400) (hw : off % 16 = 0) (hv : v < 2 ^ 64) : spaceWrite s (.bar4 true) off v =
    withMsix s (off / 16) { msixOf s (off / 16) with addr := v / 4 * 4 } := by
  have hhigh : (off + 4) / 16 = off / 16 := by omega
  have hlow : off / 8 * 8 = off := by omega
  have haddr (x : Nat) : (x / 2 ^ 32 * 2 ^ 32 + v % 2 ^ 32 / 4 * 4) % 2 ^ 32 + v / 2 ^ 32 % 2 ^ 32 * 2 ^ 32 = v / 4 * 4 := by omega
  show msixWrite (msixWrite s (off / 8 * 8) v) (off / 8 * 8 + 4) (v / 2 ^ 32) = _
  rw [hlow, msixWrite_addrLow s v ht hw, msixWrite_addrHigh _ _ (by omega) (by omega), hhigh, msixOf_withMsix_same, withMsix_withMsix,
    haddr]

/-- An 8 B write of an entry's data and mask. -/
theorem spaceWrite_msixData (ht : off < 0x400) (hw : off % 16 = 8) : spaceWrite s (.bar4 true) off v =
    withMsix s (off / 16) ⟨(msixOf s (off / 16)).addr, v % 2 ^ 32, bit v 32⟩ := by
  have hhigh : (off + 4) / 16 = off / 16 := by omega
  have hlow : off / 8 * 8 = off := by omega
  have hmask : bit (v / 2 ^ 32 % 2 ^ 32) 0 = bit v 32 := by
    unfold bit
    congr 1
    omega
  show msixWrite (msixWrite s (off / 8 * 8) v) (off / 8 * 8 + 4) (v / 2 ^ 32) = _
  rw [hlow, msixWrite_data s v ht hw, msixWrite_mask _ _ (by omega) (by omega), hhigh, msixOf_withMsix_same, withMsix_withMsix, hmask]

end

/-- A write whose effect is a new entry of the MSI-X table changes that entry alone. -/
theorem doesSome_of_withMsix {s : State} {a : BitVec 26} {v : Word} {n : Nat} {e : MsixEntry} (ho : s.toll.orderly = false)
    (hw : spaceWrite s (.bar4 true) a.toNat v.toNat = withMsix s n e) :
    DoesSome (.registerWrite (.bar4 true) a v) s (fun u =>
      msixOf u n = e ∧ (∀ m, m ≠ n → msixOf u m = msixOf s m) ∧ u.out = s.out ∧ u.fld = s.fld) :=
  ⟨withMsix s n e, does_registerWrite hw ho, msixOf_withMsix_same s n e, fun _ hm => msixOf_withMsix_ne s e hm, rfl, rfl⟩

/-! ### Configuration space

Writes of configuration space: before READY, and of PMCSR (R326, R358; its place is log entry 123). -/

/-! #### Going back to D0 -/

/-- `t` differs from `s` in the work entries, the completions held and what is sent alone. -/
def ReleasesHeld (s t : State) : Prop :=
  ∃ cs q o w, t = { s with chans := cs, basinq := q, out := o, host := { s.host with held := w } }

theorem ReleasesHeld.refl (s : State) : ReleasesHeld s s := ⟨_, _, _, _, rfl⟩

theorem ReleasesHeld.trans {s t u : State} (h : ReleasesHeld s t) (k : ReleasesHeld t u) : ReleasesHeld s u := by
  obtain ⟨_, _, _, _, rfl⟩ := h
  obtain ⟨_, _, _, _, rfl⟩ := k
  exact ⟨_, _, _, _, rfl⟩

theorem ReleasesHeld.hostWrite (s : State) (addr : Nat) (data : List Byte) : ReleasesHeld s (s.hostWrite addr data) := ⟨_, _, _, _, rfl⟩

theorem ReleasesHeld.updEntry (s : State) (e : WorkEntry) : ReleasesHeld s (updEntry s e) := by
  unfold Machine.updEntry
  split <;> exact ⟨_, _, _, _, rfl⟩

/-- What every step of a fold keeps, the fold keeps. -/
theorem ReleasesHeld.foldl {α : Type} (f : State → α → State) (hf : ∀ s x, ReleasesHeld s (f s x)) (l : List α) (s : State) :
    ReleasesHeld s (l.foldl f s) := by
  induction l generalizing s with
  | nil => exact .refl s
  | cons x t ih => exact (hf s x).trans (ih (f s x))

theorem heldFlush_releasesHeld (s : State) : ReleasesHeld s (heldFlush s) := by
  unfold heldFlush
  split
  · have hempty : ReleasesHeld s (s.modHost (fun h => { h with held := [] })) := ⟨_, _, _, _, rfl⟩
    have hsend := hempty.trans (ReleasesHeld.foldl _ (fun u w => .hostWrite u w.addr w.data) s.host.held _)
    exact hsend.trans (.foldl _ (fun u e => .updEntry u _) _ _)
  · exact .refl s

/-- Back in D0 the function has its other registers as they were. -/
theorem hostD0_frame (s : State) : (hostD0 s).host.d3hot = false ∧ (hostD0 s).host.pmeEn = s.host.pmeEn ∧
    (hostD0 s).host.pmeStatus = s.host.pmeStatus ∧ (hostD0 s).fld = s.fld ∧ (hostD0 s).toll = s.toll := by
  obtain ⟨cs, q, o, w, h⟩ := heldFlush_releasesHeld (s.modHost (fun h => { h with d3hot := false }))
  unfold hostD0
  rw [h]
  exact ⟨rfl, rfl, rfl, rfl, rfl⟩

/-- In D3hot no request toward host memory can be issued, so what is in flight is lost. -/
theorem hostD3_eq (s : State) : hostD3 s = { s.modHost (fun h => { h with d3hot := true }) with polls := [] } := by
  have hlost : (s.modHost (fun h => { h with d3hot := true })).hostOk = false := by simp [State.hostOk]
  simp only [hostD3, pollsLost, hlost, Bool.false_eq_true, if_false]

/-! #### PMCSR -/

/-- What a write of PMCSR does beside the power state: PME_En takes its bit, PME_Status is cleared where the bit is 1. -/
def withPmcsr (s : State) (v : Nat) : State :=
  s.modHost (fun h => { h with pmeEn := bit v 8, pmeStatus := h.pmeStatus && !bit v 15 })

theorem configWrite_of_selftest {s : State} (hd : s.devState = devSelftest) (off v : Nat) : configWrite s off v = s.emit .configRetry := by
  simp only [configWrite, hd, if_true]

theorem configWrite_pmcsr {s : State} (hd : s.devState ≠ devSelftest) (v : Nat) : configWrite s 0x44 v = powerWrite (withPmcsr s v) v := by
  simp only [configWrite, hd, if_false]
  rfl

/-- The power state written is bits 1:0. -/
theorem powerBits_eq (v : Nat) : bf v 0 2 = v % 4 := by simp [bf]

theorem powerWrite_d3 {s : State} {v : Nat} (hv : bf v 0 2 = 3) (hh : s.host.d3hot = false) : powerWrite s v = hostD3 s := by
  rw [powerBits_eq] at hv
  simp [powerWrite, hv, hh]

theorem powerWrite_d0 {s : State} {v : Nat} (hv : bf v 0 2 = 0) (hh : s.host.d3hot = true) : powerWrite s v = hostD0 s := by
  rw [powerBits_eq] at hv
  simp [powerWrite, hv, hh]

/-- A power state that is not the other one of the two changes nothing. -/
theorem powerWrite_stays {s : State} {v : Nat} (hv : bf v 0 2 ≠ (if s.host.d3hot then 0 else 3)) : powerWrite s v = s := by
  rw [powerBits_eq] at hv
  cases hh : s.host.d3hot <;> simp_all [powerWrite]

/-! #### REGISTER_WRITE of configuration space -/

theorem spaceWrite_config (s : State) (off v : Nat) : spaceWrite s .config off v = configWrite s off v := rfl

theorem does_configWrite_of_selftest {s : State} (ho : s.toll.orderly = false) (hd : s.devState = devSelftest) (a : BitVec 26) (v : Word) :
    Does (.registerWrite .config a v) s (s.emit .configRetry) :=
  does_registerWrite ((spaceWrite_config s _ _).trans (configWrite_of_selftest hd _ _)) ho

section
variable {s u : State} {v : Word} (hd : s.devState ≠ devSelftest)
include hd

/-- A write of PMCSR does what the power state written makes of the state with PME_En and PME_Status written. -/
theorem does_pmcsrWrite (hw : powerWrite (withPmcsr s v.toNat) v.toNat = u) (ho : u.toll.orderly = false) :
    Does (.registerWrite .config 0x44 v) s u :=
  does_registerWrite ((spaceWrite_config s _ _).trans ((configWrite_pmcsr hd v.toNat).trans hw)) ho

theorem does_pmcsrWrite_d3 (ho : s.toll.orderly = false) (hv : bf v.toNat 0 2 = 3) (hh : s.host.d3hot = false) :
    Does (.registerWrite .config 0x44 v) s
      { (withPmcsr s v.toNat).modHost (fun h => { h with d3hot := true }) with polls := [] } :=
  does_pmcsrWrite hd ((powerWrite_d3 (s := withPmcsr s v.toNat) hv hh).trans (hostD3_eq _)) ho

theorem doesSome_pmcsrWrite_d0 (ho : s.toll.orderly = false) (hv : bf v.toNat 0 2 = 0) (hh : s.host.d3hot = true) :
    DoesSome (.registerWrite .config 0x44 v) s (fun u => u.host.d3hot = false ∧
      u.host.pmeEn = (withPmcsr s v.toNat).host.pmeEn ∧ u.host.pmeStatus = (withPmcsr s v.toNat).host.pmeStatus ∧ u.fld = s.fld) := by
  obtain ⟨hd3, hen, hst, hfld, htoll⟩ := hostD0_frame (withPmcsr s v.toNat)
  have hquiet : (hostD0 (withPmcsr s v.toNat)).toll.orderly = false := by rw [htoll]; exact ho
  exact ⟨hostD0 (withPmcsr s v.toNat), does_pmcsrWrite hd (powerWrite_d0 hv hh) hquiet, hd3, hen, hst, hfld⟩

theorem does_pmcsrWrite_stays (ho : s.toll.orderly = false) (hv : bf v.toNat 0 2 ≠ (if s.host.d3hot then 0 else 3)) :
    Does (.registerWrite .config 0x44 v) s (withPmcsr s v.toNat) :=
  does_pmcsrWrite hd (powerWrite_stays hv) ho

end

/-! ### The statement

The statement on register writes, from the laws of fields, pages, the MSI-X table and configuration space. -/

/-- Settles O16: field by field from the access codes, and space by space from what a write to each makes. -/
theorem registerWrites : Obligations.RegisterWrites := by
  unfold Obligations.RegisterWrites
  constructor
  · intro s a v d hw
    exact ⟨get_fldWrite_rw s a v d, testBit_get_fldWrite_w1c s a v d hw, testBit_get_fldWrite_w1s s a v d hw,
      fldWrite_of_not_writable s a v d, fun _ => get_fldWrite_ne s a v d⟩
  · intro s p a v ho
    refine ⟨fun ha hd => ⟨does_unmappedAccess ha hd true, does_unmappedAccess ha hd false⟩,
      fun hr => ⟨fun _ => does_registerWrite_of_ok hr, does_registerWrite_of_refused ho hr⟩,
      does_registerWrite_of_locked ho, does_registerWrite_of_sizeError ho, ?msix,
      fun hd => does_configWrite_of_selftest ho hd a v, ?pmcsr⟩
    case msix =>
      rintro ht _ rfl
      exact ⟨fun hw => doesSome_of_withMsix ho (spaceWrite_msixAddr s v.toNat ht hw v.isLt),
        fun hw => doesSome_of_withMsix ho (spaceWrite_msixData s v.toNat ht hw)⟩
    case pmcsr =>
      rintro hd rfl
      exact ⟨does_pmcsrWrite_d3 hd ho, doesSome_pmcsrWrite_d0 hd ho, does_pmcsrWrite_stays hd ho⟩

end Sys2Proof.Machine
end

section
/-!
PROOF. What a write of device DRAM does (R28, R404), and the state after reset (R17, R31, R32, R147, R173, R241, R248, R268, R286, R315).
-/
namespace Sys2Proof.Machine

/-! ### Device DRAM -/

theorem memWrite_get (m : List Host.Cell) (a : Nat) (bs : List Byte) (x : Nat) :
    SMap.get (0 : Byte) (memWrite m a bs) x = if a ≤ x ∧ x < a + bs.length then bs.getD (x - a) 0 else SMap.get 0 m x := by
  split
  · next h =>
    have hlt : x - a < bs.length := by omega
    rw [← Nat.add_sub_of_le h.1, memWrite_get_in m a bs _ hlt, Nat.add_sub_of_le h.1, List.getD_eq_getElem _ _ hlt]
  · next h => exact memWrite_get_out m a bs x (by omega)

/-- Settles O60: the bytes of a write, the canonical form it keeps, and its frame. -/
theorem dramReadsBack : Obligations.DramReadsBack := by
  intro s a bs b
  exact ⟨memWrite_get s.dram a bs b, State.dramWrite_wf s a bs, rfl⟩

/-! ### The state after reset -/

theorem reset_ch (c : Fin 56) : State.reset.ch c = Chan.reset := by simp [State.ch, State.reset]

theorem reset_th (c : Fin 56) (t : Fin 8) : State.reset.th c t = Thread.reset := by simp [State.th, reset_ch, Chan.reset]

/-- No channel's event register and no mailbox holds anything after reset. -/
theorem reset_chanRaw (c : Fin 56) (k : Nat) : chanRaw State.reset c k = false := by
  unfold chanRaw
  split
  case h_6 => rw [reset_ch]; rfl
  all_goals rfl

theorem reset_ksIrq (i : Nat) : bit (State.reset.get Fld.KS_IRQ_IRQ) i = false := by
  have hz : State.reset.get Fld.KS_IRQ_IRQ = 0 := rfl
  rw [hz, bit, Nat.zero_div]
  rfl

theorem reset_basinRaw (src : Nat) : basinRaw State.reset src = false := by
  unfold basinRaw
  split
  · rfl
  · split
    · exact reset_ksIrq _
    · split <;> rfl

/-- Every source's signal is low after reset: no event register holds anything. -/
theorem reset_rawOf (src : Nat) : rawOf State.reset src = false := by
  have he : errSource State.reset src = false := rfl
  unfold rawOf
  split
  · rfl
  · split
    · rw [reset_chanRaw, he]; rfl
    · rw [reset_basinRaw, he]; rfl

/-- SENSE is 0 after reset, and 1 for the pulse sources: no source is sensed low. -/
theorem reset_senseOf_ne (src : Nat) : senseOf State.reset src ≠ 4 := by
  change (if src = 513 ∨ src = 524 then 1 else 0) ≠ 4
  split <;> decide

theorem reset_srcPending (src : Nat) : srcPending State.reset src = false := by
  have hdry : State.reset.devState ≠ devDrydock := by decide
  unfold srcPending
  rw [if_neg hdry]
  split
  · rfl
  · split
    · exact reset_rawOf src
    · exact absurd ‹_› (reset_senseOf_ne src)
    · rfl

/-- Settles O57. -/
theorem resetState : Obligations.ResetState := by
  refine ⟨rfl, rfl, rfl, rfl, fun c t => ⟨?_, rfl⟩, rfl, rfl, rfl, fun _ => rfl, fun _ => rfl, fun src => ⟨reset_srcPending src, rfl⟩, rfl, rfl⟩
  rw [reset_th]; rfl

end Sys2Proof.Machine
end

section
/-!
PROOF. What a keeper's write does to the bytes of its tile (R25, R118).
-/
namespace Sys2Proof.Machine

/-! ### Bytes of a tile (R25, R196) -/

/-- The own-tile offsets that hold a byte: shared SRAM, thread-private SRAM, chamber window. -/
def tileHolds (off : Nat) : Prop := off < 0xE000 ∨ (0x10000 ≤ off ∧ off < 0x14000)

theorem SMap.get_set {α : Type} [DecidableEq α] (d : α) (m : List (Nat × α)) (k : Nat) (v : α) (j : Nat) :
    SMap.get d (SMap.set d m k v) j = if j = k then v else SMap.get d m j := by
  split
  · next h => rw [h, SMap.get_set_same]
  · next h => exact SMap.get_set_ne _ _ _ _ h

@[simp] theorem State.modKp_kp (s : State) (c : Fin 56) (f : Keeper → Keeper) : (s.modKp c f).kp c = f (s.kp c) := by
  simp [State.kp, State.modKp]

@[simp] theorem State.modKp_th (s : State) (c : Fin 56) (f : Keeper → Keeper) (t : Fin 8) : (s.modKp c f).th c t = s.th c t := by
  simp [State.th, State.modKp]

/-- A byte of a tile is read from the shared SRAM, the private SRAMs and the chamber window alone. -/
theorem tileByte_congr {s u : State} {c : Fin 56} (hs : (u.kp c).sram = (s.kp c).sram) (hw : (u.kp c).window = (s.kp c).window)
    (hp : ∀ t, (u.th c t).priv = (s.th c t).priv) (off : Nat) : tileByte u c off = tileByte s c off := by
  simp only [tileByte, hs, hw, hp]

theorem tileByte_of_ch_eq {s u : State} {c : Fin 56} (h : u.ch c = s.ch c) (off : Nat) : tileByte u c off = tileByte s c off :=
  tileByte_congr (by simp only [State.kp, h]) (by simp only [State.kp, h]) (fun t => by simp only [State.th, h]) off

section
variable (s : State) (c : Fin 56) {off : Nat} (b : Byte) (x : Nat)

theorem tileByte_tileSet_shared (h : off < 0xA000) :
    tileByte (tileSet s c off b) c x = if x = off then b else tileByte s c x := by
  simp only [tileSet, h, if_true]
  unfold tileByte
  rw [State.modKp_kp]
  simp only [State.modKp_th, SMap.get_set]
  split
  · rfl
  · rw [if_neg (by omega : x ≠ off)]

theorem tileByte_tileSet_private (h : ¬ off < 0xA000) (h' : off < 0xE000) :
    tileByte (tileSet s c off b) c x = if x = off then b else tileByte s c x := by
  simp only [tileSet, h, h', if_true, if_false]
  unfold tileByte
  rw [State.modTh_kp]
  split
  · rw [if_neg (by omega : x ≠ off)]
  · split
    · by_cases ht : (off - 0xA000) / 0x800 % 8 = (x - 0xA000) / 0x800 % 8
      · simp only [ht, State.modTh_th_same, SMap.get_set]
        exact if_congr (by omega) rfl rfl
      · have hne : x ≠ off := fun e => ht (by rw [e])
        simp only [if_neg hne]
        rw [State.modTh_th_ne _ _ _ (fun e => ht (Fin.mk.inj e))]
    · rw [if_neg (by omega : x ≠ off)]

theorem tileByte_tileSet_window (h : 0x10000 ≤ off) (h' : off < 0x14000) :
    tileByte (tileSet s c off b) c x = if x = off then b else tileByte s c x := by
  have hsram : ¬ off < 0xA000 := by omega
  have hpriv : ¬ off < 0xE000 := by omega
  simp only [tileSet, hsram, hpriv, h, h', and_self, if_true, if_false]
  unfold tileByte
  rw [State.modKp_kp]
  simp only [State.modKp_th, SMap.get_set]
  split
  · rw [if_neg (by omega : x ≠ off)]
  · split
    · rw [if_neg (by omega : x ≠ off)]
    · split
      · exact if_congr (by omega) rfl rfl
      · rw [if_neg (by omega : x ≠ off)]

/-- A byte set in a tile reads back, and no other byte of the tile changes. -/
theorem tileByte_tileSet (h : tileHolds off) : tileByte (tileSet s c off b) c x = if x = off then b else tileByte s c x := by
  rcases h with h | ⟨h, h'⟩
  · by_cases hs : off < 0xA000
    · exact tileByte_tileSet_shared s c b x hs
    · exact tileByte_tileSet_private s c b x hs h
  · exact tileByte_tileSet_window s c b x h h'

theorem tileSet_ch_ne {d : Fin 56} (h : c ≠ d) : (tileSet s c off b).ch d = s.ch d := by
  unfold tileSet
  split
  · exact State.modCh_ch_ne _ _ h
  · split
    · exact State.modCh_ch_ne _ _ h
    · split
      · exact State.modCh_ch_ne _ _ h
      · rfl

theorem tileSet_fld : (tileSet s c off b).fld = s.fld := by
  unfold tileSet
  split
  · rfl
  · split
    · rfl
    · split <;> rfl

end

/-- Bytes set one after another read back, and no other byte of the tile changes. -/
theorem tileByte_tileSets (s : State) (c : Fin 56) (off : Nat) (bs : List Byte) (h : ∀ i < bs.length, tileHolds (off + i)) (x : Nat) :
    tileByte (tileSets s c off bs) c x = if off ≤ x ∧ x < off + bs.length then bs.getD (x - off) 0 else tileByte s c x := by
  induction bs generalizing s off with
  | nil => rw [if_neg (by simp)]; rfl
  | cons b t ih =>
    have hhere : tileHolds off := h 0 (by simp)
    have hrest : ∀ i < t.length, tileHolds (off + 1 + i) := fun i hi => by
      rw [Nat.add_assoc, Nat.add_comm 1]
      exact h (i + 1) (by simpa using hi)
    rw [tileSets, ih _ _ hrest, tileByte_tileSet _ _ _ _ hhere, List.length_cons]
    by_cases hx : x = off
    · subst hx
      simp
    · by_cases hin : off + 1 ≤ x ∧ x < off + 1 + t.length
      · have hsub : x - off = x - (off + 1) + 1 := by omega
        rw [if_pos hin, if_pos (by omega), hsub, List.getD_cons_succ]
      · rw [if_neg hin, if_neg hx, if_neg (by omega)]

theorem tileSets_ch_ne (s : State) {c d : Fin 56} (h : c ≠ d) (off : Nat) (bs : List Byte) : (tileSets s c off bs).ch d = s.ch d := by
  induction bs generalizing s off with
  | nil => rfl
  | cons b t ih => rw [tileSets, ih, tileSet_ch_ne _ _ _ h]

theorem tileSets_fld (s : State) (c : Fin 56) (off : Nat) (bs : List Byte) : (tileSets s c off bs).fld = s.fld := by
  induction bs generalizing s off with
  | nil => rfl
  | cons b t ih => rw [tileSets, ih, tileSet_fld]

/-! ### A write of a tile -/

/-- Losing reservations changes no byte of a tile. -/
theorem tileByte_tileUnreserve (s : State) (c : Fin 56) (off n : Nat) (w : Option (Fin 8)) (x : Nat) :
    tileByte (tileUnreserve s c off n w) c x = tileByte s c x := by
  unfold tileUnreserve
  split
  · refine tileByte_congr (by simp [State.kp]) (by simp [State.kp]) (fun t => ?_) x
    simp only [State.th, State.modCh_ch_same, Fin.getElem_fin, Vector.getElem_ofFn]
    split
    · split <;> rfl
    · rfl
  · rfl

theorem tileUnreserve_ch_ne (s : State) {c d : Fin 56} (h : c ≠ d) (off n : Nat) (w : Option (Fin 8)) :
    (tileUnreserve s c off n w).ch d = s.ch d := by
  unfold tileUnreserve
  split
  · exact State.modCh_ch_ne _ _ h
  · rfl

theorem tileUnreserve_fld (s : State) (c : Fin 56) (off n : Nat) (w : Option (Fin 8)) : (tileUnreserve s c off n w).fld = s.fld := by
  unfold tileUnreserve
  split <;> rfl

/-- Blocks of a copy read early are no bytes of the tile: it reads as before. -/
theorem tileByte_copyReads (s : State) (c : Fin 56) (x : Nat) : tileByte (copyReads s c) c x = tileByte s c x := by
  simp only [copyReads, State.drawFree_fst, State.drawFree_snd]
  refine tileByte_congr ?_ ?_ (fun t => ?_) x
  · rw [State.kp, State.modCh_ch_same]; rfl
  · rw [State.kp, State.modCh_ch_same]; rfl
  · rw [State.th, State.modCh_ch_same]; rfl

theorem copyReads_ch_ne (s : State) {c d : Fin 56} (h : c ≠ d) : (copyReads s c).ch d = s.ch d := State.modCh_ch_ne _ _ h

theorem copyReads_fld (s : State) (c : Fin 56) : (copyReads s c).fld = s.fld := rfl

section
variable (s : State) (c : Fin 56) (off : Nat) (bs : List Byte) (w : Option (Fin 8))

theorem tileByte_tileWrite (h : ∀ i < bs.length, tileHolds (off + i)) (x : Nat) :
    tileByte (tileWrite s c off bs w) c x = if off ≤ x ∧ x < off + bs.length then bs.getD (x - off) 0 else tileByte s c x := by
  have hpoison (u : State) (l : List Nat) : tileByte { u with poison := l } c x = tileByte u c x := tileByte_of_ch_eq rfl x
  simp only [tileWrite]
  rw [hpoison, tileByte_tileUnreserve, tileByte_tileSets _ _ _ _ h]
  split
  · rfl
  · split
    · exact tileByte_copyReads s c x
    · rfl

theorem tileWrite_ch_ne {d : Fin 56} (h : c ≠ d) : (tileWrite s c off bs w).ch d = s.ch d := by
  change (tileUnreserve _ _ _ _ _).ch d = s.ch d
  rw [tileUnreserve_ch_ne _ h, tileSets_ch_ne _ h]
  split
  · exact copyReads_ch_ne s h
  · rfl

theorem tileWrite_fld : (tileWrite s c off bs w).fld = s.fld := by
  change (tileUnreserve _ _ _ _ _).fld = s.fld
  rw [tileUnreserve_fld, tileSets_fld]
  split <;> rfl

end

/-! ### A keeper's write (R25, R118) -/

/-- An access that R118 lets pass lies in one region. -/
theorem regionOf_of_alignFail {a n : Nat} (h : alignFail none a n = none) (i : Nat) (hi : i < n) :
    (regionOf a).isSome = true ∧ regionOf (a + i) = regionOf a := by
  unfold alignFail at h
  split at h
  · exact absurd h (by simp)
  · next r hr =>
    rw [hr]
    simp only [Option.isSome_none, Bool.false_and, Bool.false_eq_true, if_false, List.find?_eq_none, List.mem_map, List.mem_range] at h
    simpa using h (a + i) ⟨i, hi, rfl⟩

/-- Outside tile I/O the bytes of such an access have own-tile offsets in a row, each of which holds a byte. -/
theorem tileHolds_of_alignFail {a n : Nat} (t : Fin 8) (h : alignFail none a n = none) (hio : isIo a = false) (i : Nat) (hi : i < n) :
    tileHolds (tileOff t a + i) := by
  have ht := t.isLt
  obtain ⟨hsome, hreg⟩ := regionOf_of_alignFail h i hi
  simp only [isIo, decide_eq_false_iff_not] at hio
  unfold regionOf at hsome hreg
  unfold tileHolds tileOff
  grind

/-- Settles O7: a write outside tile I/O sets bytes of the tile that its region holds. -/
theorem keeperWritesItsBytesOnly : Obligations.KeeperWritesItsBytesOnly := by
  intro s c t a bs hal hio _
  have hwrite : dataWrite s c t a bs = tileWrite s c (tileOff t a) bs (some t) := by simp [dataWrite, hio]
  have hbyte := tileByte_tileWrite s c (tileOff t a) bs (some t) (tileHolds_of_alignFail t hal hio)
  rw [hwrite]
  refine ⟨fun i hi => ?stored, fun off hoff => ?others, fun c' off hc => ?otherTiles, fun g => ?fields⟩
  case stored => rw [hbyte, if_pos (by omega), Nat.add_sub_cancel_left, List.getD_eq_getElem _ _ hi]
  case others => rw [hbyte, if_neg (by omega)]
  case otherTiles => exact tileByte_of_ch_eq (tileWrite_ch_ne s c _ bs _ (Ne.symm hc)) off
  case fields => simp only [State.get, tileWrite_fld]

end Sys2Proof.Machine
end

section
/-!
PROOF. What leaves the device's DRAM as it is, one lemma per operation: the state's own operations, records, events and interrupts.
`simp -implicitDefEqProofs` stands where a lemma with a hypothesis is used: its hypothesis is then met by the lemmas `rfl` proves, too.
-/
namespace Sys2Proof.Machine

@[simp] theorem State.dram_ite (p : Prop) [Decidable p] (a b : State) : (if p then a else b).dram = if p then a.dram else b.dram :=
  apply_ite State.dram p a b

@[simp] theorem State.dram_snd_ite {α : Type} (p : Prop) [Decidable p] (x y : α × State) :
    (if p then x else y).2.dram = if p then x.2.dram else y.2.dram := apply_ite (fun z : α × State => z.2.dram) p x y

@[simp] theorem foldl_dram {α : Type} {f : State → α → State} (h : ∀ s a, (f s a).dram = s.dram) (l : List α) (s : State) :
    (l.foldl f s).dram = s.dram := by
  induction l generalizing s with
  | nil => rfl
  | cons a l ih => rw [List.foldl_cons, ih, h]

theorem foldl_dram_fst {α β : Type} {f : State × β → α → State × β} (h : ∀ x a, (f x a).1.dram = x.1.dram) (l : List α) (x : State × β) :
    (l.foldl f x).1.dram = x.1.dram := by
  induction l generalizing x with
  | nil => rfl
  | cons a l ih => rw [List.foldl_cons, ih, h]


/-- Whatever state a register write leaves holds the same device DRAM. -/
def Wr.KeepsDram (w : Wr) (s : State) : Prop :=
  match w with
  | .ok t | .own t => t.dram = s.dram
  | .refused => True

@[simp] theorem Wr.keepsDram_ok (s t : State) : (Wr.ok t).KeepsDram s ↔ t.dram = s.dram := Iff.rfl
@[simp] theorem Wr.keepsDram_own (s t : State) : (Wr.own t).KeepsDram s ↔ t.dram = s.dram := Iff.rfl
@[simp] theorem Wr.keepsDram_refused (s : State) : Wr.refused.KeepsDram s := trivial
@[simp] theorem Wr.keepsDram_ite (p : Prop) [Decidable p] (a b : Wr) (s : State) :
    (if p then a else b).KeepsDram s ↔ if p then a.KeepsDram s else b.KeepsDram s := by split <;> rfl

@[simp] theorem Wr.keepsDram_dite (p : Prop) [Decidable p] (a : p → Wr) (b : ¬p → Wr) (s : State) :
    (if h : p then a h else b h).KeepsDram s ↔ if h : p then (a h).KeepsDram s else (b h).KeepsDram s := by split <;> rfl

/-- Whatever state an instruction's own effect leaves holds the same device DRAM. -/
def KRes.KeepsDram (r : KRes) (s : State) : Prop :=
  match r with
  | .next t | .jump t _ | .held t _ _ | .wait t => t.dram = s.dram
  | .trap _ _ => True

@[simp] theorem KRes.keepsDram_next (s t : State) : (KRes.next t).KeepsDram s ↔ t.dram = s.dram := Iff.rfl
@[simp] theorem KRes.keepsDram_jump (s t : State) (pc : Half) : (KRes.jump t pc).KeepsDram s ↔ t.dram = s.dram := Iff.rfl
@[simp] theorem KRes.keepsDram_held (s t : State) (pc : Half) (l : Line) : (KRes.held t pc l).KeepsDram s ↔ t.dram = s.dram := Iff.rfl
@[simp] theorem KRes.keepsDram_wait (s t : State) : (KRes.wait t).KeepsDram s ↔ t.dram = s.dram := Iff.rfl
@[simp] theorem KRes.keepsDram_trap (s : State) (cause : Nat) (fail : Option Nat) : (KRes.trap cause fail).KeepsDram s := trivial
@[simp] theorem KRes.keepsDram_ite (p : Prop) [Decidable p] (a b : KRes) (s : State) :
    (if p then a else b).KeepsDram s ↔ if p then a.KeepsDram s else b.KeepsDram s := by split <;> rfl

/-! ### The operations over the state -/

@[simp] theorem State.raise_dram (s : State) (f : Fld) : (s.raise f).dram = s.dram := rfl

@[simp] theorem State.clear_dram (s : State) (f : Fld) : (s.clear f).dram = s.dram := rfl

@[simp] theorem State.putB_dram (s : State) (f : Fld) (b : Bool) : (s.putB f b).dram = s.dram := rfl

@[simp] theorem State.bumpWrap_dram (s : State) (f : Fld) (n : Nat) : (s.bumpWrap f n).dram = s.dram := rfl

@[simp] theorem State.bumpSat_dram (s : State) (f : Fld) (n : Nat) : (s.bumpSat f n).dram = s.dram := rfl

@[simp] theorem State.pass_dram (s : State) (n : Nat) : (s.pass n).dram = s.dram := by simp [State.pass]

@[simp] theorem State.advanceTo_dram (s : State) (ns : Nat) : (s.advanceTo ns).dram = s.dram := by simp [State.advanceTo]

@[simp] theorem State.modTh_dram (s : State) (c : Fin 56) (t : Fin 8) (f : Thread → Thread) : (s.modTh c t f).dram = s.dram := rfl

@[simp] theorem State.modKp_dram (s : State) (c : Fin 56) (f : Keeper → Keeper) : (s.modKp c f).dram = s.dram := rfl

@[simp] theorem State.modFifos_dram (s : State) (c : Fin 56) (f : Fifos → Fifos) : (s.modFifos c f).dram = s.dram := rfl

@[simp] theorem State.modBus_dram (s : State) (c : Fin 56) (f : Bus → Bus) : (s.modBus c f).dram = s.dram := rfl

@[simp] theorem State.modSq_dram (s : State) (c : Fin 56) (f : Seq → Seq) : (s.modSq c f).dram = s.dram := rfl

@[simp] theorem State.modBarge_dram (s : State) (c : Fin 56) (f : Barge → Barge) : (s.modBarge c f).dram = s.dram := rfl

@[simp] theorem State.modEth_dram (s : State) (c : Fin 56) (f : Eth → Eth) : (s.modEth c f).dram = s.dram := rfl

@[simp] theorem State.eachCh_dram {s : State} {f : State → Fin 56 → State} (h : ∀ s c, (f s c).dram = s.dram) :
    (s.eachCh f).dram = s.dram := foldl_dram h _ _

@[simp] theorem State.eachTh_dram {s : State} {c : Fin 56} {f : State → Fin 56 → Fin 8 → State} (h : ∀ s c t, (f s c t).dram = s.dram) :
    (s.eachTh c f).dram = s.dram := foldl_dram (fun s t => h s c t) _ _

@[simp] theorem State.modKs_dram (s : State) (k : Nat) (f : Keystone → Keystone) : (s.modKs k f).dram = s.dram := rfl

@[simp] theorem State.modTpPort_dram (s : State) (p : Fin 2) (f : TpPort → TpPort) : (s.modTpPort p f).dram = s.dram := by simp [State.modTpPort]

@[simp] theorem State.drawFree_dram (s : State) : (s.drawFree).2.dram = s.dram := rfl

@[simp] theorem State.answer_dram (s : State) (v : Nat) : (s.answer v).dram = s.dram := rfl

@[simp] theorem State.hostWrite_dram (s : State) (addr : Nat) (data : List Byte) : (s.hostWrite addr data).dram = s.dram := rfl

@[simp] theorem State.dramSizes_dram (s : State) : (s.dramSizes).dram = s.dram := rfl

@[simp] theorem State.orderResult_dram (s : State) (c : Fin 56) (idx status residual : Nat) :
    (s.orderResult c idx status residual).dram = s.dram := rfl

@[simp] theorem State.setEvt_dram (s : State) (c : Fin 56) (t : Fin 8) (b : Nat) : (s.setEvt c t b).dram = s.dram := rfl

/-! ### Records, lock chambers, the pound and the ring (10) -/

@[simp] theorem chCommitNow_dram (s : State) (c : Fin 56) (r : Rec) : (chCommitNow s c r).2.dram = s.dram := by
  simp only [chCommitNow]
  split <;> simp

@[simp] theorem chCommit_dram (s : State) (c : Fin 56) (r : Rec) : (chCommit s c r).2.dram = s.dram := by
  unfold chCommit
  split <;> simp

@[simp] theorem basinCommit_dram (s : State) (r : Rec) : (basinCommit s r).dram = s.dram := rfl

@[simp] theorem diagRec_dram (s : State) (subtype b1 w2 w4 w8 w16 : Nat) : (diagRec s subtype b1 w2 w4 w8 w16).dram = s.dram := rfl

@[simp] theorem chSwap_dram (s : State) (c : Fin 56) (tick sub : Nat) : (chSwap s c tick sub).dram = s.dram := by simp [chSwap]

@[simp] theorem swapEvents_dram (s : State) (c : Fin 56) (b : Nat) : (swapEvents s c b).dram = s.dram := State.eachTh_dram fun _ _ _ => rfl

@[simp] theorem poundStatus_dram (s : State) : (poundStatus s).dram = s.dram := by simp [poundStatus]

@[simp] theorem poundTake_dram (s : State) (c k p ext : Nat) : (poundTake s c k p ext).dram = s.dram := by simp [poundTake]

@[simp] theorem ringTake_dram (s : State) (off n : Nat) : (ringTake s off n).dram = s.dram := rfl

@[simp] theorem modExt_dram (s : State) (num : Nat) (f : Extent → Extent) : (modExt s num f).dram = s.dram := rfl

@[simp] theorem fillCredits_dram (s : State) (c : Nat) (h : ChHalf) : (fillCredits s c h).dram = s.dram := rfl

@[simp] theorem ringTail_dram (s : State) : (ringTail s).dram = s.dram := rfl

@[simp] theorem releaseCourses_dram (s : State) (free : Nat → Bool) : (releaseCourses s free).dram = s.dram := by simp [releaseCourses]

/-! ### The event log, the interrupt controller and the device state (14, 15, 16) -/

@[simp] theorem consoleLine_dram (s : State) (code : Nat) : (consoleLine s code).dram = s.dram := rfl

@[simp] theorem logWrite_dram (s : State) (src code : Nat) (data : List Byte) : (logWrite s src code data).dram = s.dram := by
  simp only [logWrite]
  split <;> simp

@[simp] theorem thLog_dram (s : State) (src code : Nat) (data : List Byte) : (thLog s src code data).dram = s.dram := by simp [thLog]

@[simp] theorem busEvent_dram (s : State) (c : Fin 56) : (busEvent s c).dram = s.dram := State.eachTh_dram fun _ _ _ => rfl

@[simp] theorem icSeen_dram (s : State) (i : Nat) : (icSeen s i).dram = s.dram := rfl

@[simp] theorem icResense_dram (s : State) : (icResense s).dram = s.dram := by simp -implicitDefEqProofs [icResense]

@[simp] theorem icPop_dram (s : State) (t : Nat) : (icPop s t).2.dram = s.dram := by
  unfold icPop
  split <;> simp

@[simp] theorem icEoi_dram (s : State) (t : Nat) : (icEoi s t).dram = s.dram := by simp [icEoi]

@[simp] theorem icEmptyStack_dram (s : State) (t : Nat) : (icEmptyStack s t).dram = s.dram := rfl

@[simp] theorem icWithdraw_dram (s : State) (src : Nat) : (icWithdraw s src).dram = s.dram := by simp [icWithdraw]

@[simp] theorem holdOff_dram (s : State) (src t : Nat) : (holdOff s src t).dram = s.dram := by simp [holdOff]

@[simp] theorem icInform_dram (s : State) (src t : Nat) :
    (icInform s src t).dram = s.dram := by
  unfold icInform
  repeat' split
  all_goals simp

@[simp] theorem icDeliverSrc_dram (s : State) (src : Nat) : (icDeliverSrc s src).dram = s.dram := by simp [icDeliverSrc]

@[simp] theorem icDeliver_dram (s : State) (t : Nat) : (icDeliver s t).dram = s.dram := by
  unfold icDeliver
  repeat' split
  all_goals simp

@[simp] theorem icPulse_dram (s : State) (src : Nat) : (icPulse s src).dram = s.dram := by
  unfold icPulse
  repeat' split
  all_goals simp

@[simp] theorem faultValid_dram (s : State) (v : Bool) : (faultValid s v).dram = s.dram := by simp [faultValid]

@[simp] theorem setDev_dram (s : State) (st : Nat) : (setDev s st).dram = s.dram := by simp [setDev]

@[simp] theorem rtSet_dram (s : State) (c st : Nat) : (rtSet s c st).dram = s.dram := rfl

@[simp] theorem routeEnds_dram (s : State) (c : Fin 56) (status idx residual : Nat) : (routeEnds s c status idx residual).dram = s.dram := rfl

@[simp] theorem routeStopping_dram (s : State) (c : Fin 56) (k : StopKind) : (routeStopping s c k).dram = s.dram := rfl

@[simp] theorem haltRoute_dram (s : State) (c : Fin 56) : (haltRoute s c).dram = s.dram := by simp [haltRoute]

@[simp] theorem devHaltNow_dram (s : State) (cause : Nat) : (devHaltNow s cause).dram = s.dram := by simp [devHaltNow]

@[simp] theorem faultRec_dram (s : State) (pin code cls tick : Nat) (esc : Bool) : (faultRec s pin code cls tick esc).dram = s.dram := rfl

@[simp] theorem errorPin_dram (s : State) (pin code : Nat) : (errorPin s pin code).dram = s.dram := by simp [errorPin]

end Sys2Proof.Machine
end

section
/-!
PROOF. What leaves the device's DRAM as it is: channels, signals, tile memories, the barge mover and register writes.
-/
namespace Sys2Proof.Machine

/-! ### Modes, engine and channel states (07) -/

@[simp] theorem drivePin_dram (s : State) (c : Fin 56) (n : Nat) : (drivePin s c n).dram = s.dram := rfl

@[simp] theorem drivePins_dram (s : State) (c : Fin 56) : (drivePins s c).dram = s.dram := by simp [drivePins]

@[simp] theorem driveLender_dram (s : State) (c : Fin 56) : (driveLender s c).dram = s.dram := by
  unfold driveLender
  split <;> simp

@[simp] theorem driveSelects_dram (s : State) (c : Fin 56) : (driveSelects s c).dram = s.dram := by simp [driveSelects]

@[simp] theorem rtsMoves_dram (old s : State) (c : Fin 56) : (rtsMoves old s c).dram = s.dram := by simp [rtsMoves]

/-! ### FIFOs, the partner table and the counters of a channel (07) -/

@[simp] theorem statAdd_dram (s : State) (c i n : Nat) : (statAdd s c i n).dram = s.dram := rfl

@[simp] theorem statClear_dram (s : State) (c : Nat) : (statClear s c).dram = s.dram := rfl

@[simp] theorem detailAdd_dram (s : State) (c lo w : Nat) : (detailAdd s c lo w).dram = s.dram := by simp [detailAdd]

@[simp] theorem rxPlace_dram (s : State) (c : Fin 56) (r : Rec) : (rxPlace s c r).dram = s.dram := by simp [rxPlace]

@[simp] theorem rxDrop_dram (s : State) (c : Fin 56) : (rxDrop s c).dram = s.dram := by simp [rxDrop]

@[simp] theorem rxDataRead_dram (s : State) (c : Fin 56) : (rxDataRead s c).2.dram = s.dram := by
  simp only [rxDataRead]
  split <;> simp

@[simp] theorem rxPop_dram (s : State) (c : Fin 56) : (rxPop s c).dram = s.dram := by
  unfold rxPop
  split <;> simp

@[simp] theorem txQueue_dram (s : State) (c : Fin 56) (b : List Byte) : (txQueue s c b).dram = s.dram := by simp [txQueue]

@[simp] theorem txReach_dram (s : State) (c : Fin 56) : (txReach s c).dram = s.dram := by
  unfold txReach
  split <;> simp

@[simp] theorem txDataWrite_dram (s : State) (c : Fin 56) (w : Word) : (txDataWrite s c w).dram = s.dram := rfl

@[simp] theorem txSent_dram (s : State) (c : Fin 56) : (txSent s c).2.dram = s.dram := by
  simp only [txSent]
  split
  · split
    · split <;> simp
    · simp
  · simp

theorem txSent_dram_of_eq {s t : State} {c : Fin 56} {o : Option (List Byte)} (h : txSent s c = (o, t)) : t.dram = s.dram := by
  rw [← txSent_dram s c, h]

@[simp] theorem mbiPush_dram (s : State) (c : Fin 56) (w : Word) : (mbiPush s c w).dram = s.dram := by simp [mbiPush]

@[simp] theorem mbiRead_dram (s : State) (c : Fin 56) : (mbiRead s c).2.dram = s.dram := by
  simp only [mbiRead]
  split <;> simp

@[simp] theorem mboPush_dram (s : State) (c : Fin 56) (w : Word) : (mboPush s c w).dram = s.dram := by simp [mboPush]

@[simp] theorem mboRead_dram (s : State) (c : Fin 56) : (mboRead s c).2.dram = s.dram := by
  simp only [mboRead]
  split <;> simp

@[simp] theorem fifosClear_dram (s : State) (c : Fin 56) : (fifosClear s c).dram = s.dram := rfl

@[simp] theorem partnerAppear_dram (s : State) (c : Fin 56) (i ts : Nat) : (partnerAppear s c i ts).dram = s.dram := by simp [partnerAppear]

@[simp] theorem partnerLeave_dram (s : State) (c : Fin 56) (i ts : Nat) : (partnerLeave s c i ts).dram = s.dram := by simp [partnerLeave]

@[simp] theorem partnerSeen_dram (s : State) (c : Fin 56) (kind key ts : Nat) :
    (partnerSeen s c kind key ts).dram = s.dram := by
  unfold partnerSeen
  dsimp only
  repeat' split
  all_goals simp

@[simp] theorem partnerNack_dram (s : State) (c : Fin 56) (key : Nat) : (partnerNack s c key).dram = s.dram := by
  unfold partnerNack
  split <;> simp

@[simp] theorem partnersAtEdge_dram (s : State) (c : Fin 56) : (partnersAtEdge s c).dram = s.dram := by simp [partnersAtEdge]

@[simp] theorem partnersClear_dram (s : State) (c : Fin 56) : (partnersClear s c).dram = s.dram := by simp -implicitDefEqProofs [partnersClear]

/-! ### Field channels (07) -/

@[simp] theorem busTurnOn_dram (s : State) (c : Fin 56) (listen : Bool) : (busTurnOn s c listen).dram = s.dram := by simp [busTurnOn]

@[simp] theorem busTurnOff_dram (s : State) (c : Fin 56) : (busTurnOff s c).dram = s.dram := by simp [busTurnOff]

@[simp] theorem lateItem_dram (s : State) (c : Fin 56) (ts : Nat) : (lateItem s c ts).dram = s.dram := by
  unfold lateItem
  split <;> simp

@[simp] theorem protoError_dram (s : State) (c : Fin 56) : (protoError s c).dram = s.dram := by simp [protoError]

@[simp] theorem canConfine_dram (s : State) (c : Fin 56) (tec rec_ : Nat) : (canConfine s c tec rec_).dram = s.dram := by simp [canConfine]

@[simp] theorem canError_dram (s : State) (c : Fin 56) (kind : Nat) (tx primary : Bool) :
    (canError s c kind tx primary).dram = s.dram := by simp [canError]

@[simp] theorem xlSwitch_dram (s : State) (c : Fin 56) (f : CanFrame) : (xlSwitch s c f).dram = s.dram := by simp [xlSwitch]

@[simp] theorem canFrame_dram (s : State) (c : Fin 56) (f : CanFrame) (ts : Nat) : (canFrame s c f ts).dram = s.dram := by simp [canFrame]

@[simp] theorem canRecovered_dram (s : State) (c : Fin 56) : (canRecovered s c).dram = s.dram := by simp [canRecovered]

@[simp] theorem linCommand_dram (s : State) (c : Fin 56) (b : List Byte) : (linCommand s c b).dram = s.dram := rfl

@[simp] theorem linFirst_dram (s : State) (c : Fin 56) (id : Nat) : (linFirst s c id).dram = s.dram := rfl

@[simp] theorem linHeader_dram (s : State) (c : Fin 56) (pid brk ts : Nat) :
    (linHeader s c pid brk ts).dram = s.dram := by
  unfold linHeader
  dsimp only
  repeat' split
  all_goals simp

@[simp] theorem linFrame_dram (s : State) (c : Fin 56) (f : LinFrame) (ts : Nat) : (linFrame s c f ts).dram = s.dram := by simp [linFrame]

@[simp] theorem linTimeout_dram (s : State) (c : Fin 56) (pid rate : Nat) : (linTimeout s c pid rate).dram = s.dram := by
  unfold linTimeout
  split <;> simp

@[simp] theorem sentMessage_dram (s : State) (c : Fin 56) (m : SentMsg) (ts : Nat) : (sentMessage s c m ts).dram = s.dram := by simp [sentMessage]

@[simp] theorem psi5Frame_dram (s : State) (c : Fin 56) (data ts check : Nat) (manchErr : Bool) :
    (psi5Frame s c data ts check manchErr).dram = s.dram := by
  unfold psi5Frame
  dsimp only
  repeat' split
  all_goals simp

@[simp] theorem psi5Sync_dram (s : State) (c : Fin 56) : (psi5Sync s c).dram = s.dram := by simp [psi5Sync]

@[simp] theorem psi5SyncFall_dram (s : State) (c : Fin 56) : (psi5SyncFall s c).dram = s.dram := by simp [psi5SyncFall]

@[simp] theorem uartEnd_dram (s : State) (c : Fin 56) (why : Nat) : (uartEnd s c why).dram = s.dram := by
  unfold uartEnd
  split <;> simp

@[simp] theorem uartChar_dram (s : State) (c : Fin 56) (ch ts : Nat) (frErr paErr : Bool) :
    (uartChar s c ch ts frErr paErr).dram = s.dram := by simp [uartChar]

@[simp] theorem modPin_dram (s : State) (c : Fin 56) (n : Fin 4) (f : TimerPin → TimerPin) : (modPin s c n f).dram = s.dram := rfl

@[simp] theorem digitalEdge_dram (s : State) (c : Fin 56) (n : Fin 4) (level : Bool) (ts : Nat) :
    (digitalEdge s c n level ts).dram = s.dram := by simp [digitalEdge]

@[simp] theorem captureEdge_dram (s : State) (c : Fin 56) (n : Fin 4) (level : Bool) (ts : Nat) :
    (captureEdge s c n level ts).dram = s.dram := by simp [captureEdge]

@[simp] theorem timerAtEdge_dram (s : State) (c : Fin 56) : (timerAtEdge s c).dram = s.dram := by simp [timerAtEdge]

@[simp] theorem pwmPeriod_dram (s : State) (c : Fin 56) (n : Fin 4) : (pwmPeriod s c n).dram = s.dram := by simp [pwmPeriod]

@[simp] theorem txPush_dram (s : State) (c : Fin 56) : (txPush s c).dram = s.dram := by simp [txPush]

@[simp] theorem txFeed_dram (fuel : Nat) (s : State) (c : Fin 56) : (txFeed fuel s c).dram = s.dram := by
  induction fuel generalizing s with
  | zero => rfl
  | succ k ih =>
    unfold txFeed
    dsimp only
    split
    · rfl
    · split
      · rw [ih]; rfl
      · rfl

@[simp] theorem engineCode_dram {s : State} {c : Fin 56} {f : State → State} (h : (f s).dram = s.dram) : (engineCode s c f).2.dram = s.dram := by
  simp only [engineCode]
  split
  · rfl
  · split
    · rfl
    · exact h

@[simp] theorem fieldOnListen_dram (s : State) (c : Fin 56) : (fieldOnListen s c).2.dram = s.dram := by simp [fieldOnListen]

@[simp] theorem fieldOn_dram (s : State) (c : Fin 56) : (fieldOn s c).2.dram = s.dram := by simp [fieldOn]

@[simp] theorem fieldOff_dram (s : State) (c : Fin 56) : (fieldOff s c).2.dram = s.dram := by simp [fieldOff]

@[simp] theorem fieldSetMode_dram (s : State) (c : Fin 56) (w2 : Nat) :
    (fieldSetMode s c w2).2.dram = s.dram := by
  unfold fieldSetMode
  split <;> simp

/-! ### The guard code and the frames of the towpath (15, 17) -/

@[simp] theorem tpSendRaw_dram (s : State) (p : Fin 2) (typ src dst hops : Nat) (payload : List Nat) :
    (tpSendRaw s p typ src dst hops payload).dram = s.dram := by simp [tpSendRaw]

@[simp] theorem tpWithhold_dram (s : State) (p : Fin 2) : (tpWithhold s p).dram = s.dram := by simp [tpWithhold]

@[simp] theorem tpSend_dram (s : State) (p : Fin 2) (typ dst : Nat) (payload : List Nat) :
    (tpSend s p typ dst payload).dram = s.dram := by simp [tpSend]

@[simp] theorem tpSendAll_dram (s : State) (typ : Nat) (payload : List Nat) : (tpSendAll s typ payload).dram = s.dram := by simp [tpSendAll]

/-! ### The signal board and the keystones (11) -/

theorem sigPublish_dram {s t : State} {p slot : Nat} {value : Long} {qual ts : Nat} (h : sigPublish s p slot value qual ts = some t) :
    t.dram = s.dram := by
  unfold sigPublish at h
  split at h
  · cases h; rfl
  · cases h

@[simp] theorem sigEmpty_dram (s : State) (base n : Nat) : (sigEmpty s base n).dram = s.dram := rfl

@[simp] theorem sigStale_dram (s : State) (c : Nat) : (sigStale s c).dram = s.dram := rfl

@[simp] theorem sigClearChan_dram (s : State) (c : Nat) : (sigClearChan s c).dram = s.dram := rfl

@[simp] theorem sigEdge_dram (s : State) : (sigEdge s).dram = s.dram := rfl

theorem wrSigRange_dram {s t : State} {i v : Nat} (h : wrSigRange s i v = some t) : t.dram = s.dram := by
  simp only [wrSigRange] at h
  split at h
  · cases h
  · cases h; rfl

@[simp] theorem wrSigHostPub_dram (s : State) (v : Nat) : (wrSigHostPub s v).dram = s.dram := by
  unfold wrSigHostPub
  split
  case h_1 t ht => exact sigPublish_dram ht
  case h_2 => rfl

@[simp] theorem sigRead_dram (s : State) (addr : Nat) : (sigRead s addr).2.dram = s.dram := by
  unfold sigRead
  split <;> simp

@[simp] theorem ksState_dram (s : State) (k : Nat) : (ksState s k).dram = s.dram := rfl

@[simp] theorem ksPend_dram (s : State) (k : Nat) (p : KsPend) : (ksPend s k p).dram = s.dram := rfl

@[simp] theorem ksEvalNs_dram (s : State) : (ksEvalNs s).dram = s.dram := by simp [ksEvalNs]

@[simp] theorem ksOut_dram (s : State) (k : Nat) (b : Bool) : (ksOut s k b).dram = s.dram := rfl

@[simp] theorem ksEdge1_dram (s : State) (k : Nat) : (ksEdge1 s k).dram = s.dram := by
  unfold ksEdge1
  split <;> simp

@[simp] theorem ksEdge_dram (s : State) : (ksEdge s).dram = s.dram := by simp [ksEdge]

theorem wrKeyCtrl_dram {s t : State} {k v : Nat} (h : wrKeyCtrl s k v = some t) : t.dram = s.dram := by
  simp only [wrKeyCtrl] at h
  split at h
  · cases h; rfl
  · split at h
    · cases h
    · cases h; simp

theorem cmdPush_dram {s t : State} {c : Fin 56} {e : WorkEntry} (h : cmdPush s c e = some t) : t.dram = s.dram := by
  unfold cmdPush at h
  split at h
  · cases h; rfl
  · cases h

@[simp] theorem cmdPush_getD_dram (s u : State) (c : Fin 56) (e : WorkEntry) (h : u.dram = s.dram) :
    ((cmdPush s c e).getD u).dram = s.dram := by
  cases hp : cmdPush s c e with
  | none => exact h
  | some t => exact cmdPush_dram hp

@[simp] theorem ksRouteDropped_dram (s : State) (k : Nat) (c : Fin 56) : (ksRouteDropped s k c).dram = s.dram := rfl

@[simp] theorem trigOut_dram (s : State) (n pulseUs endK : Nat) : (trigOut s n pulseUs endK).dram = s.dram := by simp [trigOut]

@[simp] theorem ksAction_dram (s : State) (k : Nat) (p : KsProg) (rose : Bool) (terms endK i : Nat) :
    (ksAction s k p rose terms endK i).dram = s.dram := by
  unfold ksAction
  split
  case h_3 =>
    split
    · dsimp only
      split
      · next ht => exact cmdPush_dram ht
      · simp
    · rfl
  all_goals simp

@[simp] theorem ksAct_dram (s : State) (k : Nat) (p : KsProg) (rose : Bool) (terms endK : Nat) : (ksAct s k p rose terms endK).dram = s.dram := by
  simp only [ksAct]
  split
  · rfl
  · split <;> simp

@[simp] theorem ksEvaluate_dram (s : State) (k : Nat) : (ksEvaluate s k).dram = s.dram := by
  unfold ksEvaluate
  split
  · rfl
  · dsimp only
    split
    · rfl
    · simp -implicitDefEqProofs

@[simp] theorem trigOutEnd_dram (s : State) (n : Fin 2) :
    (trigOutEnd s n).dram = s.dram := by simp -implicitDefEqProofs [trigOutEnd]

@[simp] theorem trigLow_dram (s : State) : (trigLow s).dram = s.dram := by simp [trigLow]

@[simp] theorem trigIn_dram (s : State) (n : Fin 2) (level : Bool) : (trigIn s n level).dram = s.dram := by simp [trigIn]

/-! ### A tile's memories (01, 06, 08) -/

@[simp] theorem tileSet_dram (s : State) (c : Fin 56) (off : Nat) (b : Byte) : (tileSet s c off b).dram = s.dram := by simp [tileSet]

@[simp] theorem tileSets_dram (s : State) (c : Fin 56) (off : Nat) (bs : List Byte) : (tileSets s c off bs).dram = s.dram := by
  induction bs generalizing s off with
  | nil => rfl
  | cons b t ih => rw [tileSets, ih, tileSet_dram]

@[simp] theorem tileUnreserve_dram (s : State) (c : Fin 56) (off n : Nat) (by_ : Option (Fin 8)) :
    (tileUnreserve s c off n by_).dram = s.dram := by simp [tileUnreserve]

@[simp] theorem copyReads_dram (s : State) (c : Fin 56) : (copyReads s c).dram = s.dram := rfl

@[simp] theorem tileWrite_dram (s : State) (c : Fin 56) (off : Nat) (bs : List Byte) (by_ : Option (Fin 8)) :
    (tileWrite s c off bs by_).dram = s.dram := by simp [tileWrite]

@[simp] theorem repairAdd_dram (s : State) (kind unit sub index : Nat) : (repairAdd s kind unit sub index).dram = s.dram := by simp [repairAdd]

@[simp] theorem rowRepair_dram (s : State) (c : Fin 56) (off : Nat) : (rowRepair s c off).dram = s.dram := by simp [rowRepair]

@[simp] theorem rowCorrected_dram (s : State) (c : Fin 56) (off : Nat) : (rowCorrected s c off).dram = s.dram := by
  simp only [rowCorrected]
  split <;> simp

@[simp] theorem tileEcc_dram (s : State) (c : Fin 56) (off : Nat) : (tileEcc s c off).dram = s.dram := by simp [tileEcc]

@[simp] theorem pageRetire_dram (s : State) (page : Nat) : (pageRetire s page).dram = s.dram := by simp [pageRetire]

@[simp] theorem dramReport_dram (s : State) (addr : Nat) : (dramReport s addr).dram = s.dram := by simp [dramReport]

@[simp] theorem dramEcc_dram (s : State) (addr : Nat) : (dramEcc s addr).dram = s.dram := by simp [dramEcc]

@[simp] theorem dramMeet_dram (s : State) (a n : Nat) : (dramMeet s a n).dram = s.dram := by
  unfold dramMeet
  split <;> simp

@[simp] theorem operandEcc_dram (s : State) (a n : Nat) : (operandEcc s a n).dram = s.dram := by simp [operandEcc]

@[simp] theorem codeSets_dram (s : State) (c : Fin 56) (off : Nat) (bs : List Byte) : (codeSets s c off bs).dram = s.dram := by
  induction bs generalizing s off with
  | nil => rfl
  | cons b t ih => rw [codeSets, ih]; rfl

@[simp] theorem codeWrite_dram (s : State) (c : Fin 56) (off : Nat) (bs : List Byte) : (codeWrite s c off bs).dram = s.dram := by simp [codeWrite]

@[simp] theorem chResult_dram (s : State) (c : Fin 56) (t : Fin 8) (r : Nat) : (chResult s c t r).dram = s.dram := rfl

@[simp] theorem chBad_dram (s : State) (c : Fin 56) (t : Fin 8) : (chBad s c t).dram = s.dram := rfl

@[simp] theorem chStored_dram (x : Stored × State) (c : Fin 56) (t : Fin 8) (r : Rec) (off size : Nat) (stamp : Bool) :
    (chStored x c t r off size stamp).dram = x.2.dram := by
  unfold chStored
  split <;> simp

@[simp] theorem chPlace_dram (s : State) (c : Fin 56) (t : Fin 8) (r : Rec) (win : Option (Nat × Nat)) : (chPlace s c t r win).dram = s.dram := by
  simp [chPlace]

@[simp] theorem heldFlushCommits_dram (s : State) (c : Fin 56) : (heldFlushCommits s c).dram = s.dram := by
  unfold heldFlushCommits
  refine (foldl_dram (fun t h => ?_) _ _).trans (by simp)
  split
  · split <;> simp
  · simp

@[simp] theorem chCommitWindow_dram (s : State) (c : Fin 56) (t : Fin 8) (w : Nat) :
    (chCommitWindow s c t w).dram = s.dram := by simp [chCommitWindow]

@[simp] theorem chCommitRx_dram (s : State) (c : Fin 56) (t : Fin 8) (w : Nat) :
    (chCommitRx s c t w).dram = s.dram := by
  unfold chCommitRx
  repeat' split
  all_goals simp

@[simp] theorem chCommitWrite_dram (s : State) (c : Fin 56) (t : Fin 8) (w : Nat) : (chCommitWrite s c t w).dram = s.dram := by
  unfold chCommitWrite
  split <;> simp

@[simp] theorem copyDone_dram (s : State) (c : Fin 56) (t : Fin 8) : (copyDone s c t).dram = s.dram := by
  unfold copyDone
  split <;> simp

/-! ### The barge mover (08) -/

@[simp] theorem bmSet_dram (s : State) (c st : Nat) : (bmSet s c st).dram = s.dram := rfl

@[simp] theorem fetchEcc_dram (s : State) (c : Fin 56) (i : Nat) : (fetchEcc s c i).dram = s.dram := by
  simp only [fetchEcc]
  split <;> simp

@[simp] theorem bmErr_dram (s : State) (c : Fin 56) (code pc : Nat) (w : Option Word) (residual : Nat) :
    (bmErr s c code pc w residual).dram = s.dram := rfl

@[simp] theorem bmNext_dram (s : State) (c : Fin 56) (i : Nat) (w : Option Word) : (bmNext s c i w).dram = s.dram := by
  unfold bmNext
  repeat' split
  all_goals simp

@[simp] theorem bmFall_dram (s : State) (c : Fin 56) : (bmFall s c).dram = s.dram := by simp [bmFall]

@[simp] theorem bmHandover_dram (s : State) (c : Fin 56) : (bmHandover s c).dram = s.dram := by simp -implicitDefEqProofs [bmHandover]

@[simp] theorem bmEnd_dram (s : State) (c : Fin 56) : (bmEnd s c).dram = s.dram := by simp [bmEnd]

@[simp] theorem bmHandoverDue_dram (s : State) (c : Fin 56) : (bmHandoverDue s c).dram = s.dram := by simp [bmHandoverDue]

@[simp] theorem bmTick_dram (s : State) (c : Fin 56) : (bmTick s c).dram = s.dram := by simp [bmTick]

@[simp] theorem bmSubSwap_dram (s : State) (c : Fin 56) : (bmSubSwap s c).dram = s.dram := rfl

@[simp] theorem bmRest_dram (s : State) (c : Fin 56) : (bmRest s c).dram = s.dram := rfl

@[simp] theorem bmBoundary_dram {s : State} {c : Fin 56} {next : State → State} (h : (next s).dram = s.dram) :
    (bmBoundary s c next).dram = s.dram := by simp [bmBoundary, h]

@[simp] theorem bmMoveErr_dram (s : State) (c : Fin 56) (code : Nat) (w : Word) (residual : Nat) :
    (bmMoveErr s c code w residual).dram = s.dram := by simp [bmMoveErr]

@[simp] theorem bmStop_dram (s : State) (c : Fin 56) : (bmStop s c).dram = s.dram := by simp -implicitDefEqProofs [bmStop]

@[simp] theorem bmShadowRefused_dram (s : State) (c : Nat) : (bmShadowRefused s c).dram = s.dram := rfl

@[simp] theorem wrShadow_dram (s : State) (c : Fin 56) (off v : Nat) : (wrShadow s c off v).dram = s.dram := by simp [wrShadow]

@[simp] theorem disarmWins_dram (s : State) : (disarmWins s).2.dram = s.dram := rfl

@[simp] theorem bmDisarm_dram (s : State) (c : Fin 56) : (bmDisarm s c).dram = s.dram := by simp [bmDisarm]

@[simp] theorem wrBmCtrl_dram (s : State) (c : Fin 56) (v : Nat) :
    (wrBmCtrl s c v).dram = s.dram := by
  unfold wrBmCtrl
  split <;> simp

@[simp] theorem bmKick_dram (s : State) (c : Nat) : (bmKick s c).dram = s.dram := by simp [bmKick]

@[simp] theorem bmAbort_dram (s : State) (c : Fin 56) : (bmAbort s c).dram = s.dram := by simp [bmAbort]

@[simp] theorem bmClear_dram (s : State) (c : Nat) : (bmClear s c).dram = s.dram := by simp [bmClear]

@[simp] theorem wrBmCmd_dram (s : State) (c : Fin 56) (v : Nat) : (wrBmCmd s c v).dram = s.dram := by simp [wrBmCmd]

@[simp] theorem bmDispatch_dram {s : State} {c : Fin 56} {sel : Nat → Bool} {f : State → Nat → State} (h : ∀ s w, (f s w).dram = s.dram) :
    (bmDispatch s c sel f).dram = s.dram := by
  unfold bmDispatch
  split <;> simp [h]

@[simp] theorem bmUndefined_dram (s : State) (c : Fin 56) : (bmUndefined s c).dram = s.dram := by
  unfold bmUndefined
  split <;> simp

@[simp] theorem hostReads_dram (k : Nat) (s : State) (addr len : Nat) : (hostReads k s addr len).dram = s.dram := by
  induction k generalizing s addr len with
  | zero => rfl
  | succ k ih =>
    unfold hostReads
    split
    · rfl
    · rw [ih]; rfl

@[simp] theorem moveAsk_dram (s : State) (m : BMove) (got : Nat) : (moveAsk s m got).1.dram = s.dram := by
  simp only [moveAsk]
  split <;> simp

@[simp] theorem bmMove_dram (s : State) (c : Fin 56) : (bmMove s c).dram = s.dram := by
  refine bmDispatch_dram fun t w => ?_
  dsimp only
  split
  · simp
  · split
    · split <;> simp
    · simp

@[simp] theorem moveRead_dram (s : State) (c : Fin 56) (a : Area) (data : List Byte) (i free : Nat) :
    (moveRead s c a data i free).2.dram = s.dram := by
  unfold moveRead
  split
  case h_2 => split <;> simp
  case h_3 => split <;> simp
  all_goals simp

@[simp] theorem hostPayloads_dram (fuel : Nat) (s : State) (addr : Nat) (bs : List Byte) : (hostPayloads fuel s addr bs).dram = s.dram := by
  induction fuel generalizing s addr bs with
  | zero => rfl
  | succ k ih =>
    unfold hostPayloads
    split
    · rfl
    · rw [ih]; rfl

theorem sourceEcc_dram {s t : State} {c : Fin 56} {a : Option Area} {i : Nat} (h : sourceEcc s c a i = some t) : t.dram = s.dram := by
  unfold sourceEcc at h
  split at h
  · rw [← Option.some.inj h, errorPin_dram]
  · split at h
    · rw [← Option.some.inj h, tileEcc_dram]
    · cases h
  · rw [← Option.some.inj h, errorPin_dram]
  · rw [← Option.some.inj h, errorPin_dram, State.bumpSat_dram]
  · cases h

@[simp] theorem bmLoop_dram (s : State) (c : Fin 56) : (bmLoop s c).dram = s.dram := by simp [bmLoop]

@[simp] theorem bmWait_dram (s : State) (c : Fin 56) : (bmWait s c).dram = s.dram := by
  refine bmDispatch_dram fun t w => ?_
  dsimp only
  split <;> simp

@[simp] theorem bmWaitEnd_dram (s : State) (c : Fin 56) : (bmWaitEnd s c).dram = s.dram := by
  simp only [bmWaitEnd]
  split <;> simp -implicitDefEqProofs

@[simp] theorem bmSignal_dram (s : State) (c : Fin 56) : (bmSignal s c).dram = s.dram := bmDispatch_dram fun _ _ => rfl

@[simp] theorem bmSignalFire_dram (s : State) (c : Fin 56) : (bmSignalFire s c).dram = s.dram := by
  simp only [bmSignalFire]
  split <;> simp

@[simp] theorem bmFence_dram (s : State) (c : Fin 56) : (bmFence s c).dram = s.dram := by
  refine bmDispatch_dram fun t w => ?_
  dsimp only
  split <;> simp

@[simp] theorem bmFenceDone_dram (s : State) (c : Fin 56) (ok : Bool) : (bmFenceDone s c ok).dram = s.dram := by
  simp only [bmFenceDone]
  split <;> simp

@[simp] theorem bmAddr_dram {s : State} {c : Fin 56} {opc : Nat} {f : State → Nat → Nat → Nat → State}
    (h : ∀ t i j w, (f t i j w).dram = t.dram) : (bmAddr s c opc f).dram = s.dram :=
  bmDispatch_dram fun t w => (bmFall_dram _ c).trans (h t _ _ w)

@[simp] theorem bmSetl_dram (s : State) (c : Fin 56) : (bmSetl s c).dram = s.dram := bmAddr_dram fun _ _ _ _ => State.put_dram _ _ _

@[simp] theorem bmSeth_dram (s : State) (c : Fin 56) : (bmSeth s c).dram = s.dram := bmAddr_dram fun _ _ _ _ => State.put_dram _ _ _

@[simp] theorem bmAdd_dram (s : State) (c : Fin 56) : (bmAdd s c).dram = s.dram := bmAddr_dram fun _ _ _ _ => State.put_dram _ _ _

@[simp] theorem bmMov_dram (s : State) (c : Fin 56) : (bmMov s c).dram = s.dram := bmAddr_dram fun _ _ _ _ => State.put_dram _ _ _

@[simp] theorem bmSwap_dram (s : State) (c : Fin 56) : (bmSwap s c).dram = s.dram := bmAddr_dram fun _ _ _ _ => rfl

@[simp] theorem bmRestore_dram (s : State) (c : Fin 56) : (bmRestore s c).dram = s.dram := bmAddr_dram fun _ _ _ _ => State.put_dram _ _ _

@[simp] theorem bmNop_dram (s : State) (c : Fin 56) : (bmNop s c).dram = s.dram := by simp [bmNop]

@[simp] theorem bmStopIns_dram (s : State) (c : Fin 56) : (bmStopIns s c).dram = s.dram := by simp [bmStopIns]

/-! ### Stream channels (09) -/

@[simp] theorem captureNote_dram (s : State) (c : Fin 56) : (captureNote s c).dram = s.dram := rfl

@[simp] theorem captureAt_dram (s : State) (c : Fin 56) (sfd : Nat) : (captureAt s c sfd).dram = s.dram := by
  unfold captureAt
  split <;> simp

@[simp] theorem ethDecide_dram (s : State) (c : Fin 56) (sfd : Nat) (h : List Byte) : (ethDecide s c sfd h).dram = s.dram := by simp [ethDecide]

@[simp] theorem ethPiece_dram (s : State) (c : Fin 56) (r : EthRx) (flags : Nat) (payload : List Byte) :
    (ethPiece s c r flags payload).dram = s.dram := by simp [ethPiece]

@[simp] theorem ethPieceCommit_dram (s : State) (c : Fin 56) (data : List Byte) (codeErr : Bool) :
    (ethPieceCommit s c data codeErr).dram = s.dram := by
  unfold ethPieceCommit
  split <;> simp

@[simp] theorem ethItem_dram (s : State) (c : Fin 56) (r : EthRx) (flags cap wire : Nat) (all fcs : List Byte) :
    (ethItem s c r flags cap wire all fcs).dram = s.dram := by simp [ethItem]

@[simp] theorem ethEnds_dram (s : State) (c : Fin 56) (r : EthRx) (data : List Byte) (fcsErr codeErr : Bool) :
    (ethEnds s c r data fcsErr codeErr).dram = s.dram := by simp [ethEnds]

@[simp] theorem ethFrameEnd_dram (s : State) (c : Fin 56) (data : List Byte) (fcsErr codeErr : Bool) :
    (ethFrameEnd s c data fcsErr codeErr).dram = s.dram := by
  simp only [ethFrameEnd]
  split <;> simp

@[simp] theorem ethTurnOff_dram (s : State) (c : Fin 56) : (ethTurnOff s c).dram = s.dram := by simp [ethTurnOff]

@[simp] theorem ethLinkUp_dram (s : State) (c : Fin 56) (speed : Nat) : (ethLinkUp s c speed).dram = s.dram := by simp [ethLinkUp]

@[simp] theorem ethLinkDown_dram (s : State) (c : Fin 56) (data : List Byte) :
    (ethLinkDown s c data).dram = s.dram := by
  unfold ethLinkDown
  dsimp only
  repeat' split
  all_goals simp

@[simp] theorem ethPhyInt_dram (s : State) (c : Fin 56) : (ethPhyInt s c).dram = s.dram := by simp [ethPhyInt]

@[simp] theorem wrMdio_dram (s : State) (c : Fin 56) (v : Nat) : (wrMdio s c v).dram = s.dram := by simp [wrMdio]

@[simp] theorem ethMdioDone_dram (s : State) (c : Fin 56) (data : Nat) : (ethMdioDone s c data).dram = s.dram := by simp [ethMdioDone]

@[simp] theorem ptpQueue_dram (s : State) (c : Fin 56) (l : List (Nat × Nat)) : (ptpQueue s c l).dram = s.dram := by simp [ptpQueue]

@[simp] theorem ptpOut_dram (s : State) (c : Fin 56) (kind ts : Nat) : (ptpOut s c kind ts).2.dram = s.dram := by
  unfold ptpOut
  split <;> simp

@[simp] theorem ptpStatus_dram (s : State) (c : Fin 56) : (ptpStatus s c).dram = s.dram := rfl

@[simp] theorem ptpDelay_dram (s : State) (c : Fin 56) (sfd t2 t3 : Nat) (ratio : ℤ) : (ptpDelay s c sfd t2 t3 ratio).dram = s.dram := by
  unfold ptpDelay
  split <;> simp

@[simp] theorem ptpAnswer_dram (s : State) (c : Fin 56) (sfd : Nat) : (ptpAnswer s c sfd).dram = s.dram := by simp [ptpAnswer]

@[simp] theorem ptpSyncSend_dram (s : State) (c : Fin 56) : (ptpSyncSend s c).dram = s.dram := by simp [ptpSyncSend]

@[simp] theorem ptpPdelaySend_dram (s : State) (c : Fin 56) : (ptpPdelaySend s c).dram = s.dram := by simp [ptpPdelaySend]

@[simp] theorem ethFrameSent_dram (s : State) (c : Fin 56) (sfd : Nat) : (ethFrameSent s c sfd).dram = s.dram := by
  simp only [ethFrameSent]
  split
  · rfl
  · split
    · simp
    · split
      · next ht => simp [txSent_dram_of_eq ht]
      · next ht => exact txSent_dram_of_eq ht

@[simp] theorem telSend_dram (s : State) (c : Fin 56) : (telSend s c).dram = s.dram := by
  simp only [telSend]
  split <;> simp

theorem telPush_dram {s t : State} {c : Fin 56} {d : Datagram} (h : telPush s c d = some t) : t.dram = s.dram := by
  unfold telPush at h
  split at h
  · cases h; rfl
  · cases h

/-! ### Registers by address (18) -/

@[simp] theorem fldWrite_dram (s : State) (a v : Nat) (d : FldDef) : (fldWrite s a v d).dram = s.dram := by
  unfold fldWrite
  split <;> simp

@[simp] theorem regApply_dram (s : State) (a v : Nat) : (regApply s a v).dram = s.dram := by
  unfold regApply
  split <;> simp

@[simp] theorem pageErr_dram (s : State) (a b : Nat) : (pageErr s a b).dram = s.dram := by simp [pageErr]

/-! ### Writes of the bus engine registers (07, 09) -/

@[simp] theorem cfgRefused_dram (s : State) (c : Fin 56) : (cfgRefused s c).dram = s.dram := rfl

@[simp] theorem linRole_dram (s : State) (c : Fin 56) : (linRole s c).dram = s.dram := by simp [linRole]

@[simp] theorem wrBus_dram (s : State) (c : Fin 56) (off v : Nat) : (wrBus s c off v).KeepsDram s := by simp [wrBus]

@[simp] theorem busLater_dram (s : State) (c : Fin 56) : (busLater s c).dram = s.dram := by simp [busLater]

@[simp] theorem keeperBusWrite_dram (s : State) (c : Fin 56) (off v : Nat) : (keeperBusWrite s c off v).dram = s.dram := by
  have hbus := wrBus_dram s c off v
  unfold keeperBusWrite
  split
  · next h => rw [h] at hbus; exact hbus
  · next h => rw [h] at hbus; exact hbus
  · simp

@[simp] theorem wrBarge_dram (s : State) (c : Fin 56) (off v : Nat) : (wrBarge s c off v).dram = s.dram := by simp [wrBarge]

end Sys2Proof.Machine
end

section
/-!
PROOF. What leaves the device's DRAM as it is: keeper threads, the timebase, work queues, routes and orders.
-/
namespace Sys2Proof.Machine

/-! ### Tile I/O space (06) -/

@[simp] theorem ioReadByte_dram (s : State) (c : Fin 56) (t : Fin 8) (a : Nat) : (ioReadByte s c t a).2.dram = s.dram := by
  unfold ioReadByte
  split <;> simp

@[simp] theorem ioRead_dram (s : State) (c : Fin 56) (t : Fin 8) (a n : Nat) : (ioRead s c t a n).2.dram = s.dram := by
  induction n generalizing s a with
  | zero => rfl
  | succ k ih =>
    unfold ioRead
    exact (ih _ _).trans (ioReadByte_dram s c t a)

@[simp] theorem mbReply_dram (s : State) (c : Fin 56) (t : Fin 8) (v : Nat) : (mbReply s c t v).dram = s.dram := by
  simp only [mbReply]
  split <;> simp

@[simp] theorem pubGo_dram (s : State) (c : Fin 56) : (pubGo s c).dram = s.dram := by
  unfold pubGo
  dsimp only
  split
  case h_1 t ht => exact sigPublish_dram ht
  case h_2 => rfl

@[simp] theorem csWrite_dram (s : State) (c : Fin 56) (h : Half) : (csWrite s c h).dram = s.dram := by simp [csWrite]

@[simp] theorem csProgrammed_dram (s : State) (c : Fin 56) : (csProgrammed s c).dram = s.dram := rfl

@[simp] theorem ioStage_dram (s : State) (c : Fin 56) (a : Nat) (bs : List Byte) : (ioStage s c a bs).dram = s.dram := rfl

@[simp] theorem kStage_dram (s : State) (c : Fin 56) (a : Nat) (bs : List Byte) : (kStage s c a bs).dram = s.dram := rfl

@[simp] theorem kUnstage_dram (s : State) (c : Fin 56) (r old : Nat) : (kUnstage s c r old).2.dram = s.dram := rfl

@[simp] theorem ioWriteReg_dram (s : State) (c : Fin 56) (t : Fin 8) (r n a : Nat) (bs : List Byte) : (ioWriteReg s c t r n a bs).dram = s.dram := by
  simp only [ioWriteReg]
  split
  · simp
  · split
    · split <;> simp
    · split
      · simp
      · split
        · split <;> simp
        · split
          · simp
          · split
            · simp
            · split <;> simp -implicitDefEqProofs

@[simp] theorem ioWrite_dram (fuel : Nat) (s : State) (c : Fin 56) (t : Fin 8) (a : Nat) (bs : List Byte) : (ioWrite fuel s c t a bs).dram = s.dram := by
  induction fuel generalizing s a bs with
  | zero => rfl
  | succ k ih =>
    unfold ioWrite
    split
    · rfl
    · split
      · rw [ih]; rfl
      · rw [ih]; simp

@[simp] theorem dataRead_dram (s : State) (c : Fin 56) (t : Fin 8) (a n : Nat) : (dataRead s c t a n).2.dram = s.dram := by
  unfold dataRead
  split <;> simp

@[simp] theorem dataWrite_dram (s : State) (c : Fin 56) (t : Fin 8) (a : Nat) (bs : List Byte) :
    (dataWrite s c t a bs).dram = s.dram := by simp [dataWrite]

@[simp] theorem dataEcc_dram (s : State) (c : Fin 56) (t : Fin 8) (a : Nat) : (dataEcc s c t a).dram = s.dram := by simp [dataEcc]

/-! ### How a keeper thread executes (05, 06) -/

@[simp] theorem charge_dram (s : State) (c : Fin 56) (t : Fin 8) (n : Nat) : (charge s c t n).dram = s.dram := by simp [charge]

@[simp] theorem trapEntry_dram (s : State) (c : Fin 56) (t : Fin 8) (cause : Nat) (xpc : Half) (ins : Option Long) (fail : Option Nat) (divab : Bool) :
    (trapEntry s c t cause xpc ins fail divab).dram = s.dram := by simp [trapEntry]

@[simp] theorem threadLeaves_dram (s : State) (c : Fin 56) (t : Fin 8) (st : ThState) :
    (threadLeaves s c t st).dram = s.dram := by
  unfold threadLeaves
  dsimp only
  repeat' split
  all_goals simp

@[simp] theorem doubleFault_dram (s : State) (c : Fin 56) (t : Fin 8) (cause : Nat) (pc : Half) :
    (doubleFault s c t cause pc).dram = s.dram := by simp [doubleFault]

@[simp] theorem syncTrap_dram (s : State) (c : Fin 56) (t : Fin 8) (cause n : Nat) (xpc : Half) (ins : Long) (fail : Option Nat) :
    (syncTrap s c t cause n xpc ins fail).dram = s.dram := by simp [syncTrap]

@[simp] theorem kReg_keepsDram (s u : State) (c : Fin 56) (t : Fin 8) (f : Thread → Thread) :
    (kReg u c t f).KeepsDram s ↔ u.dram = s.dram := Iff.rfl

@[simp] theorem kLoad_dram (s : State) (c : Fin 56) (t : Fin 8) (a n : Nat) (dst : LoadDst) : (kLoad s c t a n dst).KeepsDram s := by
  unfold kLoad
  split
  · trivial
  · split
    · trivial
    · exact dataRead_dram s c t a n

@[simp] theorem kStore_dram (s : State) (c : Fin 56) (t : Fin 8) (a n v : Nat) : (kStore s c t a n v).KeepsDram s := by
  unfold kStore
  split
  · trivial
  · split
    · trivial
    · exact dataWrite_dram s c t a _

@[simp] theorem readPlace_dram (s : State) (c : Fin 56) (t : Fin 8) (d : Vector Byte 8) (p : OpPlace) : (readPlace s c t d p).2.dram = s.dram := by
  unfold readPlace
  split <;> simp

@[simp] theorem writePlace_dram (s : State) (c : Fin 56) (t : Fin 8) (p : OpPlace) (ops : List MOpnd) (a : Vector Half 8) (v : Byte) :
    (writePlace s c t p ops a v).dram = s.dram := by
  unfold writePlace
  split <;> simp

@[simp] theorem kMm2_dram (s : State) (c : Fin 56) (t : Fin 8) (op : M2Op) (dst src : MOpnd) (x : Nat) : (kMm2 s c t op dst src x).KeepsDram s := by
  unfold kMm2
  dsimp only
  split
  · trivial
  · split
    · trivial
    · split <;> simp

@[simp] theorem kMm3_dram (s : State) (c : Fin 56) (t : Fin 8) (op : M3Op) (dst oa ob : MOpnd) (x : Nat) : (kMm3 s c t op dst oa ob x).KeepsDram s := by
  unfold kMm3
  dsimp only
  split
  · trivial
  · split
    · trivial
    · simp

@[simp] theorem kEffect_dram (s : State) (c : Fin 56) (t : Fin 8) (len : Nat) (i : KInstr) : (kEffect s c t len i).KeepsDram s := by
  cases i <;> simp only [kEffect]
  case divq | cbP | jmpP | callP | retP => split <;> simp
  case tas | lrB | scB =>
    split
    · trivial
    · split <;> simp
  all_goals simp

@[simp] theorem kIssue_dram (s : State) (c : Fin 56) (t : Fin 8) (i : KInstr) (h0 h1 : Half) : (kIssue s c t i h0 h1).dram = s.dram := by
  have heff := kEffect_dram s c t (kLen h0) i
  cases hk : kEffect s c t (kLen h0) i with
  | trap cause fail => cases fail <;> simp [kIssue, hk]
  | next u | wait u | held u | jump u =>
    have hu : u.dram = s.dram := by simpa [hk] using heff
    simp only [kIssue, hk]
    repeat' split
    all_goals simp [hu]

@[simp] theorem fetchTrap_dram (s : State) (c : Fin 56) (t : Fin 8) : (fetchTrap s c t).dram = s.dram := by simp [fetchTrap]

@[simp] theorem kStep_dram (s : State) (c : Fin 56) (t : Fin 8) (i : KInstr) :
    (kStep s c t i).dram = s.dram := by
  unfold kStep
  repeat' split
  all_goals simp

@[simp] theorem kUndefined_dram (s : State) (c : Fin 56) (t : Fin 8) :
    (kUndefined s c t).dram = s.dram := by
  unfold kUndefined
  repeat' split
  all_goals simp

@[simp] theorem kBudgetTrap_dram (s : State) (c : Fin 56) (t : Fin 8) : (kBudgetTrap s c t).dram = s.dram := by simp [kBudgetTrap]

@[simp] theorem kInterruptTrap_dram (s : State) (c : Fin 56) (t : Fin 8) (spent : Nat) :
    (kInterruptTrap s c t spent).dram = s.dram := by simp [kInterruptTrap]

@[simp] theorem kWake_dram (s : State) (c : Fin 56) (t : Fin 8) : (kWake s c t).dram = s.dram := by simp [kWake]

@[simp] theorem startThread_dram (s : State) (c : Fin 56) (t : Fin 8) (addr : Half) : (startThread s c t addr).dram = s.dram := by simp [startThread]

/-! ### The timebase and the tick grid (02) -/

@[simp] theorem tbclk_dram (s : State) : (tbclk s).dram = s.dram := by simp [tbclk]

@[simp] theorem lsCommit_dram (s : State) : (lsCommit s).dram = s.dram := by simp [lsCommit]

@[simp] theorem wrLsCtrl_dram (s : State) (v : Nat) : (wrLsCtrl s v).dram = s.dram := by simp [wrLsCtrl]

@[simp] theorem wrTickCfg_dram (s : State) (v : Nat) : (wrTickCfg s v).KeepsDram s := by simp [wrTickCfg]

@[simp] theorem wrKeyCfg_dram (s : State) (v : Nat) : (wrKeyCfg s v).KeepsDram s := by simp [wrKeyCfg]

@[simp] theorem timeRead_dram (s : State) : (timeRead s).2.dram = s.dram := rfl

@[simp] theorem applyStep_dram (s : State) (d req : ℤ) (cause : Nat) (edge : Bool) : (applyStep s d req cause edge).dram = s.dram := rfl

@[simp] theorem stepNow_dram (s : State) (d : ℤ) (cause : Nat) : (stepNow s d cause).dram = s.dram := rfl

@[simp] theorem servoTrim_dram (s : State) (off : ℤ) : (servoTrim s off).dram = s.dram := rfl

@[simp] theorem stepAtEdge_dram (s : State) :
    (stepAtEdge s).dram = s.dram := by
  unfold stepAtEdge
  dsimp only
  repeat' split
  all_goals simp

@[simp] theorem stepGo_dram (s : State) : (stepGo s).dram = s.dram := by simp [stepGo]

@[simp] theorem wrStepCtrl_dram (s : State) (v : Nat) : (wrStepCtrl s v).dram = s.dram := by simp [wrStepCtrl]

@[simp] theorem wrTbCtrl_dram (s : State) (v : Nat) : (wrTbCtrl s v).KeepsDram s := by simp [wrTbCtrl]

@[simp] theorem servoMove_dram (s : State) (off : ℤ) : (servoMove s off).dram = s.dram := by simp [servoMove]

@[simp] theorem servoMeasure_dram (s : State) (src : Nat) (off : ℤ) : (servoMeasure s src off).dram = s.dram := by simp [servoMeasure]

@[simp] theorem holdoverTimeout_dram (s : State) : (holdoverTimeout s).dram = s.dram := by simp [holdoverTimeout]

@[simp] theorem ppsIn_dram (s : State) : (ppsIn s).dram = s.dram := by simp [ppsIn]

@[simp] theorem ppsRise_dram (s : State) : (ppsRise s).dram = s.dram := by simp [ppsRise]

@[simp] theorem ppsFall_dram (s : State) : (ppsFall s).dram = s.dram := by simp [ppsFall]

@[simp] theorem tbEdge_dram (s : State) :
    (tbEdge s).dram = s.dram := by
  unfold tbEdge
  dsimp only
  repeat' split
  all_goals simp

/-! ### Work queues, completions and the host function (03, 14) -/

@[simp] theorem malfHalt_dram (s : State) (n idx : Nat) (b : List Byte) (reason byte : Nat) : (malfHalt s n idx b reason byte).dram = s.dram := by
  simp -implicitDefEqProofs [malfHalt]

@[simp] theorem wqIssue_dram (s : State) (n : Nat) : (wqIssue s n).dram = s.dram := by simp [wqIssue]

@[simp] theorem wqPoll_dram (s : State) (n : Nat) : (wqPoll s n).dram = s.dram := by simp [wqPoll]

@[simp] theorem wqTickPolls_dram (s : State) : (wqTickPolls s).dram = s.dram := by simp [wqTickPolls]

@[simp] theorem wqAccept_dram (s : State) (n size : Nat) (es : List (Nat × List Byte)) : (wqAccept s n size es).dram = s.dram := by
  induction es generalizing s with
  | nil => rfl
  | cons e rest ih =>
    unfold wqAccept
    dsimp only
    split
    · rfl
    · split
      · simp
      · rw [ih]; rfl

@[simp] theorem aerReport_dram (s : State) : (aerReport s).dram = s.dram := rfl

@[simp] theorem wqWhole_dram (s : State) (n : Nat) (p : Poll) : (wqWhole s n p).dram = s.dram := by simp [wqWhole]

@[simp] theorem wqReturn_dram (s : State) (n : Nat) (data : HostRd) :
    (wqReturn s n data).dram = s.dram := by
  unfold wqReturn
  repeat' split
  all_goals simp

@[simp] theorem arbSettle_dram (s : State) : (arbSettle s).dram = s.dram := rfl

@[simp] theorem enqueue_dram (s : State) (e : WorkEntry) : (enqueue s e).dram = s.dram := by
  unfold enqueue
  split <;> simp

@[simp] theorem wqDispatch_dram (s : State) (a : Arbiter) (n left : Nat) : (wqDispatch s a n left).dram = s.dram := by
  unfold wqDispatch
  split <;> simp

@[simp] theorem entryDispatch_dram (s : State) : (entryDispatch s).dram = s.dram := by
  unfold entryDispatch
  dsimp only
  repeat' split
  all_goals simp

@[simp] theorem wqForget_dram (s : State) (n : Nat) : (wqForget s n).dram = s.dram := rfl

@[simp] theorem wqDrop_dram (s : State) (n : Nat) : (wqDrop s n).dram = s.dram := rfl

@[simp] theorem wqStart_dram (s : State) (n : Nat) : (wqStart s n).dram = s.dram := rfl

@[simp] theorem wrWqCfg_dram (s : State) (n v : Nat) : (wrWqCfg s n v).KeepsDram s := by simp [wrWqCfg]

@[simp] theorem wrWqBase_dram (s : State) (n v : Nat) : (wrWqBase s n v).KeepsDram s := by simp [wrWqBase]

@[simp] theorem wrWqArb_dram (s : State) (n v : Nat) : (wrWqArb s n v).KeepsDram s := by simp [wrWqArb]

@[simp] theorem compWrite_dram (s : State) (addr : Nat) (data : List Byte) : (compWrite s addr data).dram = s.dram := by simp [compWrite]

@[simp] theorem crPut_dram (s : State) (r : Nat) (lo : List Byte) (flags : Nat) (hi : List Byte) :
    (crPut s r lo flags hi).dram = s.dram := by simp [crPut]

@[simp] theorem crGapPut_dram (s : State) (r : Nat) : (crGapPut s r).dram = s.dram := by simp [crGapPut]

@[simp] theorem crRecord_dram (s : State) (e : WorkEntry) (status : Nat) : (crRecord s e status).dram = s.dram := by simp [crRecord]

@[simp] theorem crStart_dram (s : State) (r : Nat) : (crStart s r).dram = s.dram := rfl

@[simp] theorem wrCrCfg_dram (s : State) (r v : Nat) : (wrCrCfg s r v).KeepsDram s := by simp [wrCrCfg]

@[simp] theorem wrCrBase_dram (s : State) (r v : Nat) : (wrCrBase s r v).KeepsDram s := by simp [wrCrBase]

@[simp] theorem wrCrHead_dram (s : State) (r v : Nat) : (wrCrHead s r v).KeepsDram s := by simp [wrCrHead]

@[simp] theorem dequeue_dram (s : State) (e : WorkEntry) : (dequeue s e).dram = s.dram := by
  unfold dequeue
  split <;> simp

@[simp] theorem complete_dram (s : State) (e : WorkEntry) (status : Nat) (result : List Byte) :
    (complete s e status result).dram = s.dram := by simp [complete]

@[simp] theorem completeLong_dram (s : State) (e : WorkEntry) (status : Nat) : (completeLong s e status).dram = s.dram := by simp [completeLong]

@[simp] theorem updEntry_dram (s : State) (e : WorkEntry) : (updEntry s e).dram = s.dram := by
  unfold updEntry
  split <;> simp

@[simp] theorem longProgress_dram (s : State) (e : WorkEntry) : (longProgress s e).dram = s.dram := by simp [longProgress]

@[simp] theorem longAtEdge_dram (s : State) : (longAtEdge s).dram = s.dram := by simp [longAtEdge]

@[simp] theorem chanStart_dram {s : State} {c : Fin 56} {opc : Nat} {f : WorkEntry → State} (h : ∀ e, (f e).dram = s.dram) :
    (chanStart s c opc f).dram = s.dram := by
  unfold chanStart
  split
  · split
    · exact h _
    · rfl
  · rfl

@[simp] theorem basinStart_dram {s : State} {serial opc : Nat} {key : WorkEntry → Option Nat} {f : WorkEntry → State}
    (h : ∀ e, (f e).dram = s.dram) : (basinStart s serial opc key f).dram = s.dram := by
  unfold basinStart
  split
  · simp [h]
  · rfl

@[simp] theorem longRefuse_dram (s : State) (e : WorkEntry) (status len : Nat) : (longRefuse s e status len).dram = s.dram := by simp [longRefuse]

@[simp] theorem longStart_dram (s : State) (e : WorkEntry) (len : Nat) : (longStart s e len).dram = s.dram := by simp [longStart]

@[simp] theorem longsResume_dram (s : State) : (longsResume s).dram = s.dram := by simp [longsResume]

@[simp] theorem fenceStart_dram (s : State) (serial : Nat) : (fenceStart s serial).dram = s.dram := by
  unfold fenceStart
  split <;> simp

@[simp] theorem fenceComplete_dram (s : State) (serial : Nat) : (fenceComplete s serial).dram = s.dram := by
  unfold fenceComplete
  split <;> simp

@[simp] theorem heldFlush_dram (s : State) : (heldFlush s).dram = s.dram := by simp -implicitDefEqProofs [heldFlush]

@[simp] theorem pollsLost_dram (s : State) : (pollsLost s).dram = s.dram := by simp [pollsLost]

@[simp] theorem inConfig_dram {s : State} {f : State → State} (h : ∀ s, (f s).dram = s.dram) : (inConfig s f).dram = s.dram := by
  simp [inConfig, h]

@[simp] theorem hostD3_dram (s : State) : (hostD3 s).dram = s.dram := by simp [hostD3]

@[simp] theorem hostD0_dram (s : State) : (hostD0 s).dram = s.dram := by simp [hostD0]

@[simp] theorem hostBmeClear_dram (s : State) : (hostBmeClear s).dram = s.dram := by simp [hostBmeClear]

@[simp] theorem hostBmeSet_dram (s : State) : (hostBmeSet s).dram = s.dram := by simp [hostBmeSet]

@[simp] theorem hostLinkUp_dram (s : State) : (hostLinkUp s).dram = s.dram := by simp [hostLinkUp]

@[simp] theorem hostHotReset_dram (s : State) : (hostHotReset s).dram = s.dram := rfl

@[simp] theorem hostLinkDown_dram (s : State) : (hostLinkDown s).dram = s.dram := rfl

@[simp] theorem pmeRepeat_dram (s : State) : (pmeRepeat s).dram = s.dram := by simp [pmeRepeat]

/-! ### The route checker (04) -/

@[simp] theorem fetchMeets_dram (s : State) (c i : Nat) : (fetchMeets s c i).dram = s.dram := by simp [fetchMeets]

/-! ### The order sequencer (04) -/

@[simp] theorem seqCharge_dram (s : State) (c : Fin 56) (n : Nat) : (seqCharge s c n).dram = s.dram := rfl

@[simp] theorem routeWaiters_dram (s : State) (c : Fin 56) : (routeWaiters s c).dram = s.dram := by
  unfold routeWaiters
  split <;> simp

@[simp] theorem mailDead_dram (s : State) (c : Fin 56) : (mailDead s c).dram = s.dram := State.eachTh_dram fun _ _ _ => rfl

@[simp] theorem engineRelease_dram (s : State) (c : Fin 56) : (engineRelease s c).dram = s.dram := by simp [engineRelease]

@[simp] theorem routeEnd_dram (s : State) (c : Fin 56) (status idx residual : Nat) :
    (routeEnd s c status idx residual).dram = s.dram := by simp [routeEnd]

@[simp] theorem routeSuspended_dram (s : State) (c : Fin 56) (idx residual : Nat) :
    (routeSuspended s c idx residual).dram = s.dram := by simp [routeSuspended]

@[simp] theorem fetchStart_dram (s : State) (c : Fin 56) (i : Nat) : (fetchStart s c i).dram = s.dram := rfl

@[simp] theorem dueReady_dram (s : State) (c : Fin 56) (o : Order) : (dueReady s c o).dram = s.dram := by simp [dueReady]

@[simp] theorem becomeDue_dram (s : State) (c : Fin 56) (i : Nat) : (becomeDue s c i).dram = s.dram := by
  simp only [becomeDue]
  split <;> simp

@[simp] theorem fetched_dram (s : State) (c : Fin 56) (j : Nat) (o : Order) : (fetched s c j o).dram = s.dram := by
  unfold fetched
  dsimp only
  repeat' split
  all_goals simp

@[simp] theorem fetchSettled_dram (s : State) (c : Fin 56) :
    (fetchSettled s c).dram = s.dram := by
  unfold fetchSettled
  dsimp only
  repeat' split
  all_goals simp

@[simp] theorem fetchReturn_dram (s : State) (c : Fin 56) (data : HostRd) (late : Bool) :
    (fetchReturn s c data late).dram = s.dram := by
  unfold fetchReturn
  dsimp only
  repeat' split
  all_goals simp

@[simp] theorem fetchTimeout_dram (s : State) (c : Fin 56) : (fetchTimeout s c).dram = s.dram := by
  unfold fetchTimeout
  split <;> simp

@[simp] theorem startOrder_dram (s : State) (c : Fin 56) (i : Nat) (o : Order) : (startOrder s c i o).dram = s.dram := rfl

@[simp] theorem orderRun_dram {s : State} {c : Fin 56} {sel : Order → Bool} {f : State → ExecOrder → State}
    (h : ∀ t e, (f t e).dram = t.dram) : (orderRun s c sel f).dram = s.dram := by
  unfold orderRun
  dsimp only
  repeat' split
  all_goals simp [h]

@[simp] theorem orderAfter_dram (s : State) (c : Fin 56) (idx st res : Nat) (a : After) (susp : Bool) :
    (orderAfter s c idx st res a susp).dram = s.dram := by
  unfold orderAfter
  split <;> simp

@[simp] theorem orderGives_dram (s : State) (c : Fin 56) (st res : Nat) : (orderGives s c st res).dram = s.dram := by
  unfold orderGives
  split <;> simp

@[simp] theorem areaMeets_dram (s : State) (as : List Order) : (areaMeets s as).dram = s.dram := by
  unfold areaMeets
  split <;> simp

@[simp] theorem residualOf_dram (s : State) (c : Fin 56) (e : ExecOrder) :
    (residualOf s c e).2.dram = s.dram := by
  unfold residualOf
  split <;> simp

@[simp] theorem startRejected_dram (s : State) (c : Fin 56) (e : WorkEntry) : (startRejected s c e).dram = s.dram := by
  unfold startRejected
  split <;> simp

@[simp] theorem admitResult_dram (s : State) (c : Nat) (v : Verdict) : (admitResult s c v).dram = s.dram := rfl

@[simp] theorem admitRefused_dram (s : State) (c : Fin 56) (e : WorkEntry) : (admitRefused s c e).dram = s.dram := by simp [admitRefused]

@[simp] theorem admitBegin_dram (s : State) (c : Fin 56) (e : WorkEntry) (resume : Bool) (start : Nat) :
    (admitBegin s c e resume start).dram = s.dram := by simp [admitBegin]

@[simp] theorem routeStart_dram (s : State) (c : Fin 56) : (routeStart s c).dram = s.dram := by
  refine chanStart_dram fun e => ?_
  dsimp only
  repeat' split
  all_goals simp

@[simp] theorem routeResume_dram (s : State) (c : Fin 56) : (routeResume s c).dram = s.dram := by simp [routeResume]

@[simp] theorem admitted_dram (s : State) (c : Fin 56) (a : Admission) (v : Verdict) : (admitted s c a v).dram = s.dram := rfl

@[simp] theorem admissionEnd_dram (s : State) (c : Fin 56) (orders : List (Nat × HostRd)) : (admissionEnd s c orders).dram = s.dram := by
  unfold admissionEnd
  split <;> simp

@[simp] theorem admitCancelled_dram (s : State) (c : Fin 56) (k : StopKind) : (admitCancelled s c k).dram = s.dram := by
  simp only [admitCancelled]
  split <;> simp

@[simp] theorem startCompletes_dram (s : State) (c : Fin 56) (status : Nat) : (startCompletes s c status).dram = s.dram := by
  unfold startCompletes
  split <;> simp

@[simp] theorem seqEdgeStart_dram (s : State) (c : Fin 56) : (seqEdgeStart s c).dram = s.dram := by
  simp only [seqEdgeStart]
  split <;> simp

@[simp] theorem seqEdgeWait_dram (s : State) (c : Fin 56) : (seqEdgeWait s c).dram = s.dram := rfl

@[simp] theorem seqEdgeUsed_dram (s : State) (c : Fin 56) : (seqEdgeUsed s c).dram = s.dram := rfl

@[simp] theorem setNext_dram (s : State) (c : Fin 56) (n : Nat) : (setNext s c n).dram = s.dram := rfl

@[simp] theorem ordWait_dram (s : State) (c : Fin 56) : (ordWait s c).dram = s.dram := by simp [ordWait]

@[simp] theorem timeoutResidual_dram (s : State) (c : Fin 56) (e : ExecOrder) (left : Nat) : (timeoutResidual s c e left).2.dram = s.dram := by
  unfold timeoutResidual
  split <;> simp

@[simp] theorem transferEnds_dram (s : State) (c : Fin 56) (st res : Nat) : (transferEnds s c st res).dram = s.dram := by simp [transferEnds]

@[simp] theorem i2cFails_dram {s : State} {c : Fin 56} {left st : Nat} {f : State → State} (h : (f s).dram = s.dram) :
    (i2cFails s c left st f).dram = s.dram := by
  unfold i2cFails
  split <;> simp [h]

@[simp] theorem i2cStretch_dram (s : State) (c : Fin 56) (left : Nat) : (i2cStretch s c left).dram = s.dram := i2cFails_dram rfl

@[simp] theorem i2cArb_dram (s : State) (c : Fin 56) (left : Nat) : (i2cArb s c left).dram = s.dram := i2cFails_dram rfl

@[simp] theorem i2cNack_dram (s : State) (c : Fin 56) (ofAddr : Bool) (addr left : Nat) :
    (i2cNack s c ofAddr addr left).dram = s.dram := by simp [i2cNack]

@[simp] theorem orderBusError_dram (s : State) (c : Fin 56) (e : ExecOrder) : (orderBusError s c e).dram = s.dram := by simp [orderBusError]

@[simp] theorem txGiveUp_dram (s : State) (c : Fin 56) :
    (txGiveUp s c).dram = s.dram := by
  unfold txGiveUp
  dsimp only
  repeat' split
  all_goals simp

@[simp] theorem txError_dram (s : State) (c : Fin 56) (tx : Bool) :
    (txError s c tx).dram = s.dram := by
  unfold txError
  dsimp only
  repeat' split
  all_goals simp

@[simp] theorem linTxError_dram (s : State) (c : Fin 56) (f : LinFrame) :
    (linTxError s c f).dram = s.dram := by
  unfold linTxError
  repeat' split
  all_goals simp

@[simp] theorem streamEngine_dram {s : State} {c : Fin 56} {f : State → State} (h : (f s).dram = s.dram) : (streamEngine s c f).2.dram = s.dram := by
  unfold streamEngine
  split
  · rfl
  · exact h

end Sys2Proof.Machine
end

section
/-!
PROOF. What leaves the device's DRAM as it is: sequences of a channel, streams, placement, drives and the towpath.
-/
namespace Sys2Proof.Machine

/-! ### Enabling, disabling, fencing and moving a channel (04, 06, 07, 15) -/

@[simp] theorem spareRegs_dram (s : State) : (spareRegs s).dram = s.dram := by simp [spareRegs]

@[simp] theorem retireTile_dram (s : State) (t : Nat) : (retireTile s t).dram = s.dram := by simp [retireTile]

@[simp] theorem chanEnable_dram (s : State) (c : Fin 56) : (chanEnable s c).dram = s.dram := by simp [chanEnable]

@[simp] theorem lend_dram (s : State) (c : Fin 56) (on : Bool) : (lend s c on).dram = s.dram := by simp [lend]

@[simp] theorem engineEnable_dram (s : State) (c : Fin 56) (auto : Bool) : (engineEnable s c auto).dram = s.dram := by simp [engineEnable]

@[simp] theorem autostartThreads_dram (s : State) (c : Fin 56) : (autostartThreads s c).dram = s.dram := by
  unfold autostartThreads
  split
  · refine State.eachTh_dram fun t _ k => ?_
    split
    · split
      · split <;> simp
      · rfl
    · rfl
  · rfl

@[simp] theorem chanEnabled_dram (s : State) (c : Fin 56) : (chanEnabled s c).dram = s.dram := by simp [chanEnabled]

@[simp] theorem enableEdge_dram (s : State) (c : Fin 56) : (enableEdge s c).dram = s.dram := by
  unfold enableEdge
  split <;> simp

@[simp] theorem engineStop_dram (s : State) (c : Fin 56) : (engineStop s c).dram = s.dram := by simp [engineStop]

@[simp] theorem unseenLost_dram (s : State) (c : Fin 56) : (unseenLost s c).2.dram = s.dram := by
  simp only [unseenLost]
  split <;> simp

@[simp] theorem engineLoses_dram (s : State) (c : Fin 56) :
    (engineLoses s c).2.dram = s.dram := by
  unfold engineLoses
  split <;> simp

@[simp] theorem fencedItem_dram (s : State) (c : Fin 56) (ts : Option Nat) : (fencedItem s c ts).dram = s.dram := rfl

@[simp] theorem threadsStop_dram (s : State) (c : Fin 56) : (threadsStop s c).dram = s.dram := by simp [threadsStop]

@[simp] theorem startFenced_dram (s : State) (c : Fin 56) : (startFenced s c).dram = s.dram := by
  unfold startFenced
  split <;> simp

@[simp] theorem lossCommit_dram (s : State) (c : Fin 56) (g : GapCount) : (lossCommit s c g).dram = s.dram := by simp [lossCommit]

@[simp] theorem stopEdge1_dram (s : State) (c : Fin 56) (p : Stopping) : (stopEdge1 s c p).dram = s.dram := by simp [stopEdge1]

@[simp] theorem stopCheck_dram (s : State) (c : Fin 56) :
    (stopCheck s c).dram = s.dram := by
  unfold stopCheck
  dsimp only
  repeat' split
  all_goals simp

@[simp] theorem stopEdge_dram (s : State) (c : Fin 56) : (stopEdge s c).dram = s.dram := by
  unfold stopEdge
  split <;> simp

@[simp] theorem reseatBegin_dram (s : State) (c : Fin 56) (serial : Option Nat) (t : Nat) :
    (reseatBegin s c serial t).dram = s.dram := by simp [reseatBegin]

@[simp] theorem chanReseat_dram (s : State) (c : Fin 56) (ok : Bool) : (chanReseat s c ok).dram = s.dram := by
  refine chanStart_dram fun e => ?_
  dsimp only
  repeat' split
  all_goals simp

@[simp] theorem autoReseat_dram (bad : Nat) (s : State) (c : Fin 56) : (autoReseat bad s c).dram = s.dram := by
  induction bad generalizing s with
  | zero =>
    unfold autoReseat
    split
    · split <;> simp_all
    · rfl
  | succ k ih =>
    unfold autoReseat
    split
    · split <;> simp_all
    · rfl

@[simp] theorem reseatCopied_dram (s : State) (c : Fin 56) : (reseatCopied s c).dram = s.dram := rfl

@[simp] theorem reseatDone_dram (s : State) (c : Fin 56) (r : Reseat) :
    (reseatDone s c r).dram = s.dram := by
  unfold reseatDone
  dsimp only
  repeat' split
  all_goals simp

@[simp] theorem reseatCheck_dram (s : State) (c : Fin 56) : (reseatCheck s c).dram = s.dram := by
  unfold reseatCheck
  split <;> simp

@[simp] theorem cutOk_dram (s : State) (c : Fin 56) : (cutOk s c).2.dram = s.dram := by
  simp only [cutOk]
  split <;> simp

@[simp] theorem reseatFenced_dram (s : State) (c : Fin 56) (r : Reseat) : (reseatFenced s c r).dram = s.dram := by
  simp only [reseatFenced]
  split <;> simp

@[simp] theorem reseatEdge_dram (s : State) (c : Fin 56) :
    (reseatEdge s c).dram = s.dram := by
  unfold reseatEdge
  dsimp only
  repeat' split
  all_goals simp

@[simp] theorem reseatTimeout_dram (s : State) (c : Fin 56) :
    (reseatTimeout s c).dram = s.dram := by
  unfold reseatTimeout
  dsimp only
  repeat' split
  all_goals simp

@[simp] theorem startIssued_dram (s : State) (c : Fin 56) (t : Fin 8) : (startIssued s c t).dram = s.dram := by
  unfold startIssued
  split <;> simp

@[simp] theorem inSlot_dram {s : State} {c : Fin 56} {t : Fin 8} {f : State → State} (h : ∀ s, (f s).dram = s.dram) :
    (inSlot s c t f).dram = s.dram := by simp [inSlot, h]

@[simp] theorem kIssues_dram (s : State) (c : Fin 56) (t : Fin 8) (i : KInstr) : (kIssues s c t i).dram = s.dram := by simp [kIssues]

@[simp] theorem keeperStart_dram (s : State) (c : Fin 56) : (keeperStart s c).dram = s.dram := by
  refine chanStart_dram fun e => ?_
  dsimp only
  repeat' split
  all_goals simp

@[simp] theorem keeperStop_dram (s : State) (c : Fin 56) : (keeperStop s c).dram = s.dram := by simp [keeperStop]

@[simp] theorem imgStore_dram (s : State) (c : Fin 56) (b : List Byte) (p k : Nat) : (imgStore s c b p k).dram = s.dram := by simp [imgStore]

@[simp] theorem imgZero_dram (s : State) (c : Fin 56) (b : List Byte) : (imgZero s c b).dram = s.dram := by simp -implicitDefEqProofs [imgZero]

@[simp] theorem imgAccept_dram (s : State) (c : Fin 56) (b : List Byte) : (imgAccept s c b).dram = s.dram := rfl

@[simp] theorem keeperLoad_dram (s : State) (c : Fin 56) : (keeperLoad s c).dram = s.dram := by simp [keeperLoad]

@[simp] theorem loadFails_dram (s : State) (c : Fin 56) (e : WorkEntry) (reason : Nat) : (loadFails s c e reason).dram = s.dram := by simp [loadFails]

@[simp] theorem keeperLoadStep_dram (s : State) (c : Fin 56) (data : HostRd) :
    (keeperLoadStep s c data).dram = s.dram := by
  unfold keeperLoadStep
  dsimp only
  repeat' split
  all_goals simp

/-! ### Streams (12) -/

@[simp] theorem eachStrm_dram {s : State} {f : State → Nat → State} (h : ∀ s i, (f s i).dram = s.dram) : (eachStrm s f).dram = s.dram :=
  foldl_dram h _ _

@[simp] theorem polPrune_dram (s : State) (i : Nat) : (polPrune s i).dram = s.dram := rfl

@[simp] theorem strmRegs_dram (s : State) : (strmRegs s).dram = s.dram := by
  refine eachStrm_dram fun t i => ?_
  split <;> rfl

@[simp] theorem dropRecs_dram (s : State) (i : Nat) (p : Policy) (before : Nat) (rs : List ShareRec) :
    (dropRecs s i p before rs).dram = s.dram := by simp [dropRecs]

@[simp] theorem epochUp_dram (s : State) (p : Policy) : (epochUp s p).dram = s.dram := by
  unfold epochUp
  split
  · refine eachStrm_dram fun t j => ?_
    split
    · split <;> simp
    · rfl
  · rfl

@[simp] theorem epochShow_dram (s : State) (i : Nat) (p : Policy) : (epochShow s i p).dram = s.dram := by simp [epochShow]

@[simp] theorem telCloseAs_dram (s : State) (i : Nat) (p : Policy) : (telCloseAs s i p).dram = s.dram := by
  unfold telCloseAs
  dsimp only
  split
  · split
    · rfl
    · split
      case h_1 t ht => split <;> simp [telPush_dram ht]
      case h_2 => simp
  · rfl

@[simp] theorem telClose_dram (s : State) (i : Nat) : (telClose s i).dram = s.dram := by
  unfold telClose
  split <;> simp

@[simp] theorem telRecord_dram (s : State) (i : Nat) (p : Policy) (t : Nat) (r : Rec) : (telRecord s i p t r).dram = s.dram := by
  unfold telRecord
  split <;> simp

@[simp] theorem telOffer_dram (s : State) (i : Nat) (p : Policy) (t : Nat) (rs : List ShareRec) : (telOffer s i p t rs).dram = s.dram := by
  simp [telOffer]

@[simp] theorem telEdge_dram (s : State) : (telEdge s).dram = s.dram := by simp [telEdge]

@[simp] theorem shareCourse_dram (s : State) (d : DoneCourse) : (shareCourse s d).dram = s.dram := by simp [shareCourse]

@[simp] theorem spanClose_dram (s : State) (i : Nat) (cut : Bool) : (spanClose s i cut).dram = s.dram := by
  simp only [spanClose]
  split <;> simp

@[simp] theorem spanAdd_dram (s : State) (i : Nat) (p : Policy) (r : ShareRec) : (spanAdd s i p r).dram = s.dram := by
  unfold spanAdd
  split <;> simp

@[simp] theorem shareTake_dram (s : State) (i : Nat) (p : Policy) (t : Nat) (rs : List ShareRec) : (shareTake s i p t rs).dram = s.dram := by
  simp [shareTake]

@[simp] theorem sharesDecide_dram (fuel : Nat) (s : State) (i : Nat) : (sharesDecide fuel s i).dram = s.dram := by
  induction fuel generalizing s with
  | zero => rfl
  | succ k ih =>
    unfold sharesDecide
    dsimp only
    split
    · rfl
    · split
      · rw [ih]; rfl
      · split
        · rw [ih]; simp
        · rfl

@[simp] theorem strmsDecide_dram (s : State) : (strmsDecide s).dram = s.dram := by simp [strmsDecide]

@[simp] theorem ringAdvance_dram (s : State) : (ringAdvance s).dram = s.dram := by simp [ringAdvance]

@[simp] theorem memLoss_dram (fuel : Nat) (s : State) (bad : List ShareRec) : (memLoss fuel s bad).dram = s.dram := by
  induction fuel generalizing s bad with
  | zero => rfl
  | succ k ih =>
    unfold memLoss
    split
    · rfl
    · rw [ih]; simp

@[simp] theorem modSpan_dram (s : State) (id : Nat) (f : Span → Span) : (modSpan s id f).dram = s.dram := rfl

@[simp] theorem dropSpan_dram (s : State) (id : Nat) : (dropSpan s id).dram = s.dram := rfl

@[simp] theorem recsEcc_dram (s : State) (bad : List ShareRec) : (recsEcc s bad).dram = s.dram := by simp [recsEcc]

theorem spanCompress_dram {s t : State} {id : Nat} (h : spanCompress s id = some t) : t.dram = s.dram := by
  unfold spanCompress at h
  split at h
  · cases h
  · split at h
    · cases h
    · dsimp only at h
      split at h
      · cases h
      · cases h; simp

@[simp] theorem defResult_dram (s : State) (i reason : Nat) : (defResult s i reason).dram = s.dram := rfl

@[simp] theorem strmDefine_dram (s : State) (i : Nat) (b : List Byte) (serial : Option Nat) :
    (strmDefine s i b serial).2.dram = s.dram := by simp -implicitDefEqProofs [strmDefine]

@[simp] theorem streamDefine_dram (s : State) (serial : Nat) (data : HostRd) : (streamDefine s serial data).dram = s.dram := by
  refine basinStart_dram fun e => ?_
  dsimp only
  repeat' split
  all_goals simp

@[simp] theorem strmOpenNew_dram (s : State) (i : Nat) (p : Policy) : (strmOpenNew s i p).dram = s.dram := rfl

@[simp] theorem strmOpenEdge_dram (s : State) (i : Nat) :
    (strmOpenEdge s i).dram = s.dram := by
  unfold strmOpenEdge
  dsimp only
  repeat' split
  all_goals simp

@[simp] theorem streamClose_dram (s : State) (serial : Nat) : (streamClose s serial).dram = s.dram := by simp [streamClose]

@[simp] theorem strmUnbind_dram (s : State) (i : Nat) : (strmUnbind s i).dram = s.dram := by simp [strmUnbind]

@[simp] theorem strmTrigs_dram (s : State) (ended : Nat) : (strmTrigs s ended).dram = s.dram := by simp -implicitDefEqProofs [strmTrigs]

@[simp] theorem spanAge_dram (s : State) (i : Nat) : (spanAge s i).dram = s.dram := by
  unfold spanAge
  split <;> simp

@[simp] theorem strmsEdge_dram (s : State) : (strmsEdge s).dram = s.dram := by simp [strmsEdge]

/-! ### Placement, segments and drives (12, 13) -/

@[simp] theorem nvmePost_dram (s : State) (n : Fin 4) (c : NvmeCmd) : (nvmePost s n c).dram = s.dram := by simp [nvmePost]

@[simp] theorem nvme_dram (s : State) (n : Fin 4) (c : NvmeCmd) : (nvme s n c).dram = s.dram := by
  unfold nvme
  split <;> simp

@[simp] theorem nvmeDone_dram (s : State) (n : Fin 4) (p : NvmeCmd → Bool) : (nvmeDone s n p).dram = s.dram := rfl

@[simp] theorem driveRegs_dram (s : State) (n : Fin 4) : (driveRegs s n).dram = s.dram := rfl

@[simp] theorem segStart_dram (s : State) (n : Fin 4) : (segStart s n).dram = s.dram := by
  simp only [segStart]
  split <;> simp

@[simp] theorem modLastSeg_dram (s : State) (n : Fin 4) (f : Segment → Segment) : (modLastSeg s n f).dram = s.dram := rfl

@[simp] theorem segWrite_dram (s : State) (n : Fin 4) (sp : Span) : (segWrite s n sp).dram = s.dram := by
  simp only [segWrite]
  split <;> simp

@[simp] theorem gapMake_dram (s : State) (i : Nat) : (gapMake s i).dram = s.dram := by
  unfold gapMake
  split <;> simp

@[simp] theorem gapWrite_dram (s : State) (n : Fin 4) (i lim : Nat) : (gapWrite s n i lim).dram = s.dram := by
  unfold gapWrite
  refine (foldl_dram (fun t sp => ?_) _ _).trans (by simp)
  split <;> simp

@[simp] theorem gapsWrite_dram (s : State) (n : Fin 4) (open_ : Bool) : (gapsWrite s n open_).dram = s.dram := by
  simp only [gapsWrite]
  split
  · rfl
  · rw [foldl_dram (fun t i => gapWrite_dram t n i _)]
    split <;> simp

@[simp] theorem segClose_dram (s : State) (n : Fin 4) (cause : Nat) : (segClose s n cause).dram = s.dram := by
  simp only [segClose]
  split <;> simp

@[simp] theorem spanOn_dram (s : State) (n : Fin 4) (sp : Span) : (spanOn s n sp).dram = s.dram := by simp [spanOn]

@[simp] theorem mirrorShort_dram (s : State) (i : Nat) : (mirrorShort s i).dram = s.dram := rfl

@[simp] theorem strmFull_dram (s : State) (i : Nat) (full : Bool) : (strmFull s i full).dram = s.dram := by simp [strmFull]

@[simp] theorem spanBad_dram (s : State) (sp : Span) : (spanBad s sp).dram = s.dram := by simp [spanBad]

theorem placeSpan_dram {s t : State} {sp : Span} (h : placeSpan s sp = some t) : t.dram = s.dram := by
  unfold placeSpan at h
  dsimp only at h
  split at h
  · cases h
  · split at h
    · cases h
    · split at h
      · split at h
        · cases h
        · rw [← Option.some.inj h, strmFull_dram, dropSpan_dram, dropRecs_dram]
      · split at h
        · split at h
          · cases h
          · rw [← Option.some.inj h]
        · rw [← Option.some.inj h]
          split <;> simp

@[simp] theorem placeList_dram (s : State) (ids blocked : List Nat) : (placeList s ids blocked).dram = s.dram := by
  induction ids generalizing s blocked with
  | nil => rfl
  | cons id t ih =>
    unfold placeList
    split
    · exact ih _ _
    · split
      · exact ih _ _
      · split
        · exact ih _ _
        · split
          · rw [ih]; simp
          · split
            · next hp => rw [ih, placeSpan_dram hp]
            · exact ih _ _

@[simp] theorem spanFinish_dram (s : State) (id : Nat) : (spanFinish s id).dram = s.dram := by
  unfold spanFinish
  split <;> simp

@[simp] theorem spanLost_dram (s : State) (n : Fin 4) (id : Nat) :
    (spanLost s n id).dram = s.dram := by
  unfold spanLost
  dsimp only
  repeat' split
  all_goals simp

@[simp] theorem spanAgain_dram (s : State) (id : Nat) :
    (spanAgain s id).dram = s.dram := by
  unfold spanAgain
  dsimp only
  repeat' split
  all_goals simp

@[simp] theorem spansAgain_dram (s : State) : (spansAgain s).dram = s.dram := by simp [spansAgain]

@[simp] theorem placeAll_dram (s : State) : (placeAll s).dram = s.dram := by simp [placeAll]

@[simp] theorem driveLost_dram (s : State) (n : Fin 4) : (driveLost s n).dram = s.dram := by simp [driveLost]

@[simp] theorem braceCheck_dram (s : State) : (braceCheck s).dram = s.dram := by simp [braceCheck]

@[simp] theorem superWrite_dram (s : State) (n : Fin 4) (b : Super) : (superWrite s n b).dram = s.dram := by simp [superWrite]

@[simp] theorem segMove_dram (s : State) (n : Fin 4) (st : SegStage) : (segMove s n st).dram = s.dram := rfl

@[simp] theorem superStart_dram (s : State) (n : Fin 4) (b : Super) : (superStart s n b).dram = s.dram := by simp [superStart]

@[simp] theorem superPump_dram (s : State) (n : Fin 4) : (superPump s n).dram = s.dram := by
  unfold superPump
  dsimp only
  repeat' split
  all_goals simp

@[simp] theorem braceEnter_dram (s : State) : (braceEnter s).dram = s.dram := by simp [braceEnter]

@[simp] theorem ejectCheck_dram (s : State) (n : Fin 4) : (ejectCheck s n).dram = s.dram := by simp [ejectCheck]

@[simp] theorem closeCommit_dram (s : State) : (closeCommit s).dram = s.dram := by simp [closeCommit]

@[simp] theorem haltCommit_dram (s : State) : (haltCommit s).dram = s.dram := by simp [haltCommit]

@[simp] theorem placeSettle_dram (s : State) : (placeSettle s).dram = s.dram := by simp [placeSettle]

@[simp] theorem compressionDone_dram (s : State) (id : Nat) : (compressionDone s id).dram = s.dram := by
  unfold compressionDone
  split
  case h_1 t ht => rw [placeSettle_dram, spanCompress_dram ht]
  case h_2 => rfl

@[simp] theorem spanWritten_dram (s : State) (n : Fin 4) (id : Nat) : (spanWritten s n id).dram = s.dram := by simp [spanWritten]

@[simp] theorem segCommit_dram (s : State) (n : Fin 4) : (segCommit s n).dram = s.dram := by
  unfold segCommit
  split <;> simp

@[simp] theorem commitExpire_dram (s : State) (n : Fin 4) : (commitExpire s n).dram = s.dram := by
  unfold commitExpire
  split <;> simp

@[simp] theorem footerWritten_dram (s : State) (n : Fin 4) : (footerWritten s n).dram = s.dram := by
  unfold footerWritten
  split <;> simp

@[simp] theorem flushDone_dram (s : State) (n : Fin 4) : (flushDone s n).dram = s.dram := by
  unfold flushDone
  split <;> simp

@[simp] theorem superWritten_dram (s : State) (n : Fin 4) : (superWritten s n).dram = s.dram := by
  unfold superWritten
  split <;> simp -implicitDefEqProofs

@[simp] theorem streamCloseDone_dram (s : State) (i : Nat) (abandon : Bool) : (streamCloseDone s i abandon).dram = s.dram := by
  simp only [streamCloseDone]
  repeat' split
  all_goals simp

@[simp] theorem degradeDrop_dram (s : State) : (degradeDrop s).dram = s.dram := by
  simp only [degradeDrop]
  rw [eachStrm_dram, foldl_dram]
  · simp
  · intro t i
    split <;> simp

@[simp] theorem degradeStep_dram (s : State) : (degradeStep s).dram = s.dram := by simp [degradeStep]

@[simp] theorem drvPerst_dram (s : State) (n : Fin 4) (a : Bool) : (drvPerst s n a).dram = s.dram := by simp [drvPerst]

@[simp] theorem drvWidth_dram (s : State) (n : Fin 4) (w : Nat) : (drvWidth s n w).dram = s.dram := by
  unfold drvWidth
  split <;> simp

@[simp] theorem capPort_dram (s : State) (p w : Nat) : (capPort s p w).dram = s.dram := rfl

@[simp] theorem drvLink_dram (s : State) (n : Fin 4) : (drvLink s n).dram = s.dram := by simp [drvLink]

@[simp] theorem driveFail_dram (s : State) (n : Fin 4) (reason : Nat) : (driveFail s n reason).dram = s.dram := by simp [driveFail]

@[simp] theorem cmdFailed_dram (s : State) (n : Fin 4) (c : NvmeCmd) : (cmdFailed s n c).dram = s.dram := by simp [cmdFailed]

@[simp] theorem drivePresent_dram (s : State) (n : Fin 4) : (drivePresent s n).dram = s.dram := by simp [drivePresent]

@[simp] theorem drivePerst_dram (s : State) (n : Fin 4) : (drivePerst s n).dram = s.dram := by simp [drivePerst]

@[simp] theorem driveLinkUp_dram (s : State) (n : Fin 4) (offer : Nat) : (driveLinkUp s n offer).dram = s.dram := by simp [driveLinkUp]

@[simp] theorem driveLinkTimeout_dram (s : State) (n : Fin 4) : (driveLinkTimeout s n).dram = s.dram := by simp [driveLinkTimeout]

@[simp] theorem driveLinkLost_dram (s : State) (n : Fin 4) : (driveLinkLost s n).dram = s.dram := by simp [driveLinkLost]

@[simp] theorem driveTimeout_dram (s : State) (n : Fin 4) : (driveTimeout s n).dram = s.dram := by simp [driveTimeout]

@[simp] theorem driveRemoved_dram (s : State) (n : Fin 4) : (driveRemoved s n).dram = s.dram := by simp [driveRemoved]

@[simp] theorem driveFormat_dram (s : State) (n : Fin 4) : (driveFormat s n).2.dram = s.dram := by simp [driveFormat]

@[simp] theorem driveOnline_dram (s : State) (n : Fin 4) (b : Super) (segs : List Segment) :
    (driveOnline s n b segs).dram = s.dram := by simp [driveOnline]

@[simp] theorem driveKnows_dram (s : State) (n : Fin 4) (d : DriveId) (b : Super) : (driveKnows s n d b).dram = s.dram := rfl

/-- `superNext` is made a variable first (`id` keeps it one in the proof term), so that the kernel does not evaluate its
arithmetic modulo 2^64 where it compares the branches. -/
@[simp] theorem driveSeal_dram (s : State) (n : Fin 4) (d : DriveId) (b : Super) : (driveSeal s n d b).2.2.dram = s.dram := by
  rw [driveSeal.eq_def]
  generalize superNext = next
  revert next
  refine id fun next => ?_
  split
  · rfl
  · dsimp only
    split
    · rw [superWrite_dram, State.dram_ite, thLog_dram, nvme_dram, nvme_dram, ite_self]
    · rw [State.dram_ite, thLog_dram, nvme_dram, nvme_dram, ite_self]

@[simp] theorem driveWarn_dram (s : State) (n : Fin 4) (warn : Nat) : (driveWarn s n warn).dram = s.dram := by simp [driveWarn]

@[simp] theorem driveSetup_dram (s : State) (n : Fin 4) (d : DriveId) : (driveSetup s n d).dram = s.dram := by simp [driveSetup]

@[simp] theorem driveMount_dram (s : State) (n : Fin 4) (d : DriveId) : (driveMount s n d).dram = s.dram := by
  simp only [driveMount]
  split <;> simp

@[simp] theorem driveIdentified_dram (s : State) (n : Fin 4) (d : DriveId) : (driveIdentified s n d).dram = s.dram := by simp [driveIdentified]

@[simp] theorem formatStart_dram (s : State) (n : Fin 4) : (formatStart s n).dram = s.dram := by simp [formatStart]

@[simp] theorem driveResume_dram (s : State) (n : Fin 4) :
    (driveResume s n).dram = s.dram := by
  unfold driveResume
  repeat' split
  all_goals simp

@[simp] theorem levelAge_dram (s : State) : (levelAge s).dram = s.dram := by
  unfold levelAge
  split
  · rfl
  · exact State.modPlace_dram _ _

@[simp] theorem placeEdge_dram (s : State) : (placeEdge s).dram = s.dram := by simp [placeEdge]

@[simp] theorem nvmePoll_dram (s : State) (n : Fin 4) (comps : List (Nat × Bool)) : (nvmePoll s n comps).dram = s.dram := by
  unfold nvmePoll
  refine foldl_dram (fun t p => ?_) _ _
  split <;> simp

@[simp] theorem smartPoll_dram (s : State) (n : Fin 4) (warn : Nat) : (smartPoll s n warn).dram = s.dram := by simp [smartPoll]

@[simp] theorem driveEnable_dram (s : State) (n : Fin 4) (en : Bool) : (driveEnable s n en).dram = s.dram := by simp [driveEnable]

@[simp] theorem wrDriveCtrl_dram (s : State) (n : Fin 4) (v : Nat) : (wrDriveCtrl s n v).KeepsDram s := by simp [wrDriveCtrl]

@[simp] theorem wrStage_dram (s : State) (reg v base size : Nat) : (wrStage s reg v base size).KeepsDram s := by simp [wrStage]

@[simp] theorem wrStageBase_dram (s : State) (v : Nat) : (wrStageBase s v).KeepsDram s := by simp [wrStageBase]

@[simp] theorem wrStageSize_dram (s : State) (v : Nat) : (wrStageSize s v).KeepsDram s := by simp [wrStageSize]

@[simp] theorem wrPlaceCfg_dram (s : State) (v : Nat) : (wrPlaceCfg s v).KeepsDram s := by simp [wrPlaceCfg]

@[simp] theorem wrQuayCfg_dram (s : State) (v : Nat) : (wrQuayCfg s v).KeepsDram s := by simp [wrQuayCfg]

@[simp] theorem wrRing_dram (s : State) (reg v base size : Nat) : (wrRing s reg v base size).KeepsDram s := by simp [wrRing]

@[simp] theorem wrRingBase_dram (s : State) (v : Nat) : (wrRingBase s v).KeepsDram s := by simp [wrRingBase]

@[simp] theorem wrRingSize_dram (s : State) (v : Nat) : (wrRingSize s v).KeepsDram s := by simp [wrRingSize]

@[simp] theorem readbackStart_dram (s : State) (serial : Nat) : (readbackStart s serial).dram = s.dram := by
  refine basinStart_dram fun e => ?_
  dsimp only
  repeat' split
  all_goals simp

@[simp] theorem snapshotStart_dram (s : State) (serial : Nat) : (snapshotStart s serial).dram = s.dram := by simp [snapshotStart]

/-! ### Reset and firmware trials (16) -/

@[simp] theorem trialDone_dram (s : State) : (trialDone s).dram = s.dram := by
  unfold trialDone
  split <;> simp

@[simp] theorem trialFails_dram (s : State) : (trialFails s).dram = s.dram := by
  unfold trialFails
  split <;> simp

/-! ### The towpath (17) -/

@[simp] theorem tpUpdate_dram (s : State) : (tpUpdate s).dram = s.dram := by simp [tpUpdate]

@[simp] theorem tpMove_dram (s : State) (p : Fin 2) (st : Nat) : (tpMove s p st).dram = s.dram := by simp [tpMove]

@[simp] theorem ringOpen_dram (s : State) : (ringOpen s).dram = s.dram := by simp [ringOpen]

@[simp] theorem tpDrop_dram (s : State) (p : Fin 2) (fault : Bool) : (tpDrop s p fault).dram = s.dram := by simp [tpDrop]

@[simp] theorem tpSignal_dram (s : State) (p : Fin 2) : (tpSignal s p).dram = s.dram := by simp [tpSignal]

@[simp] theorem tpAfterHello_dram (s : State) (p : Fin 2) (h : Hello) (old : Option Hello) : (tpAfterHello s p h old).dram = s.dram := by
  simp [tpAfterHello]
  split <;> simp

@[simp] theorem tpLock_dram (s : State) (p : Fin 2) (two : Bool) : (tpLock s p two).dram = s.dram := by simp [tpLock]

@[simp] theorem tpTrainTimeout_dram (s : State) (p : Fin 2) : (tpTrainTimeout s p).dram = s.dram := by simp [tpTrainTimeout]

@[simp] theorem tpRetry_dram (s : State) (p : Fin 2) : (tpRetry s p).dram = s.dram := by simp [tpRetry]

@[simp] theorem tpLoss_dram (s : State) (p : Fin 2) : (tpLoss s p).dram = s.dram := by simp [tpLoss]

@[simp] theorem helloOut_dram (s : State) (p : Fin 2) :
    (helloOut s p).dram = s.dram := by
  unfold helloOut
  dsimp only
  repeat' split
  all_goals simp

@[simp] theorem tpHelloSend_dram (s : State) (p : Fin 2) : (tpHelloSend s p).dram = s.dram := by simp [tpHelloSend]

@[simp] theorem tpBad_dram (s : State) (p : Fin 2) : (tpBad s p).dram = s.dram := rfl

@[simp] theorem tpTake_dram (s : State) (p : Fin 2) (f : TpFrame) (up : Bool) (layout : List Word → Bool) : (tpTake s p f up layout).1.dram = s.dram := by
  unfold tpTake
  split
  · rfl
  · dsimp only
    split
    · simp
    · split
      · simp
      · split <;> simp

theorem tpTake_dram_of_eq {s t : State} {p : Fin 2} {f : TpFrame} {up : Bool} {layout : List Word → Bool} {o : Option (List Word)}
    (h : tpTake s p f up layout = (t, o)) : t.dram = s.dram := by
  rw [← tpTake_dram s p f up layout, h]

@[simp] theorem tpForward_dram (s : State) (p : Fin 2) (typ : Nat) (f : TpFrame) (ws : List Word) :
    (tpForward s p typ f ws).dram = s.dram := by simp [tpForward]

@[simp] theorem tpHelloIn_dram (s : State) (p : Fin 2) (f : TpFrame) : (tpHelloIn s p f).dram = s.dram := by
  unfold tpHelloIn
  split
  · next ht => simp [tpTake_dram_of_eq ht]
  · next ht => exact tpTake_dram_of_eq ht

@[simp] theorem syncReqSend_dram (s : State) : (syncReqSend s).dram = s.dram := by
  unfold syncReqSend
  split <;> simp

@[simp] theorem syncReq_dram (s : State) (p : Fin 2) (f : TpFrame) : (syncReq s p f).dram = s.dram := by
  unfold syncReq
  split
  · next ht => simp [tpTake_dram_of_eq ht]
  · next ht => exact tpTake_dram_of_eq ht

@[simp] theorem syncRsp_dram (s : State) (p : Fin 2) (f : TpFrame) : (syncRsp s p f).dram = s.dram := by
  unfold syncRsp
  split
  · next ht =>
    split
    · simp [tpTake_dram_of_eq ht]
    · exact tpTake_dram_of_eq ht
  · next ht => exact tpTake_dram_of_eq ht

@[simp] theorem tpKsIn_dram (s : State) (p : Fin 2) (f : TpFrame) : (tpKsIn s p f).dram = s.dram := by
  unfold tpKsIn
  split
  · next ht => simp [tpTake_dram_of_eq ht]
  · next ht => exact tpTake_dram_of_eq ht

@[simp] theorem tpImport_dram (s : State) (b : List Byte) : (tpImport s b).dram = s.dram := by
  unfold tpImport
  dsimp only
  split
  · split
    case h_1 t ht => exact sigPublish_dram ht
    case h_2 => rfl
  · rfl

@[simp] theorem tpSignalsIn_dram (s : State) (p : Fin 2) (f : TpFrame) : (tpSignalsIn s p f).dram = s.dram := by
  unfold tpSignalsIn
  split
  · next ht => simp [tpTake_dram_of_eq ht]
  · next ht => exact tpTake_dram_of_eq ht

@[simp] theorem tpSignalsSend_dram (s : State) : (tpSignalsSend s).dram = s.dram := by simp [tpSignalsSend]

@[simp] theorem beaconSend_dram (s : State) (p : Fin 2) : (beaconSend s p).dram = s.dram := by simp [beaconSend]

@[simp] theorem tpBeaconIn_dram (s : State) (p : Fin 2) (f : TpFrame) : (tpBeaconIn s p f).dram = s.dram := by
  unfold tpBeaconIn
  split
  · next ht => simp [tpTake_dram_of_eq ht]
  · next ht => exact tpTake_dram_of_eq ht

@[simp] theorem wrTpPort_dram (s : State) (p : Fin 2) (v : Nat) : (wrTpPort s p v).dram = s.dram := by simp [wrTpPort]

@[simp] theorem wrTpCfg_dram (s : State) (v : Nat) : (wrTpCfg s v).dram = s.dram := by simp [wrTpCfg]

end Sys2Proof.Machine
end

section
/-!
PROOF. What leaves the device's DRAM as it is: faults, the Toll House, accesses of the host, start-up and the tick edge.
-/
namespace Sys2Proof.Machine

/-! ### Escalation, fences, supply and temperature (15) -/

@[simp] theorem faultAck_dram (s : State) (v : Nat) : (faultAck s v).KeepsDram s := by simp [faultAck]

@[simp] theorem faultTick_dram (s : State) : (faultTick s).dram = s.dram := by simp [faultTick]

@[simp] theorem fenceDrive_dram (s : State) (n : Fin 4) : (fenceDrive s n).dram = s.dram := by simp [fenceDrive]

@[simp] theorem wrFaultClass_dram (s : State) (a v : Nat) : (wrFaultClass s a v).KeepsDram s := by simp [wrFaultClass]

@[simp] theorem wrFaultCtrl_dram (s : State) (v : Nat) : (wrFaultCtrl s v).KeepsDram s := by simp [wrFaultCtrl]

@[simp] theorem wrDramRas_dram (s : State) (v : Nat) : (wrDramRas s v).KeepsDram s := by simp [wrDramRas]

@[simp] theorem wrMon_dram (s : State) (n v : Nat) : (wrMon s n v).KeepsDram s := by simp [wrMon]

@[simp] theorem wrThermCfg_dram (s : State) (v : Nat) : (wrThermCfg s v).KeepsDram s := by simp [wrThermCfg]

@[simp] theorem monRead_dram (s : State) (n : Nat) : (monRead s n).2.dram = s.dram := rfl

@[simp] theorem monTake_dram (s : State) (n lvl : Nat) : (monTake s n lvl).dram = s.dram := rfl

@[simp] theorem monWarn_dram (s : State) (n : Fin 10) (mv ts : Nat) : (monWarn s n mv ts).dram = s.dram := by simp [monWarn]

@[simp] theorem supplyWarn_dram (s : State) (l : List MonDip) : (supplyWarn s l).dram = s.dram := by simp [supplyWarn]

@[simp] theorem dipEnd_dram (s : State) : (dipEnd s).dram = s.dram := by
  unfold dipEnd
  split <;> simp

@[simp] theorem supplyRecover_dram (s : State) (mvs : List Nat) (low : Nat) : (supplyRecover s mvs low).dram = s.dram := by
  cases hd : s.dip <;> simp [supplyRecover, hd]

@[simp] theorem braceExit_dram (s : State) :
    (braceExit s).dram = s.dram := by
  unfold braceExit
  repeat' split
  all_goals simp

@[simp] theorem thermalSample_dram (s : State) (temps : List ℤ) : (thermalSample s temps).dram = s.dram := by simp [thermalSample]

@[simp] theorem poisonAt_dram (s : State) (g : Nat) : (poisonAt s g).dram = s.dram := by simp [poisonAt]

@[simp] theorem eccOther_dram (s : State) (i : Nat) (e : Ecc) : (eccOther s i e).dram = s.dram := by
  unfold eccOther
  split <;> simp

@[simp] theorem stageHit_dram (s : State) (a : Nat) : (stageHit s a).dram = s.dram := by
  simp only [stageHit]
  repeat' split
  all_goals simp

@[simp] theorem scrubDram_dram (s : State) (a syn : Nat) :
    (scrubDram s a syn).dram = s.dram := by
  unfold scrubDram
  dsimp only
  repeat' split
  all_goals simp

@[simp] theorem scrubSram_dram (s : State) (c : Fin 56) (off syn : Nat) : (scrubSram s c off syn).dram = s.dram := by
  simp only [scrubSram]
  split <;> simp

@[simp] theorem scrubCode_dram (s : State) (c : Fin 56) (off syn : Nat) : (scrubCode s c off syn).dram = s.dram := by
  simp only [scrubCode]
  split <;> simp

@[simp] theorem scrubOther_dram (s : State) (i g syn : Nat) : (scrubOther s i g syn).dram = s.dram := by simp [scrubOther]

@[simp] theorem scrubRead_dram (s : State) (p : ScrubAt) (syn : Nat) : (scrubRead s p syn).dram = s.dram := by
  unfold scrubRead
  repeat' split
  all_goals simp

@[simp] theorem pinCounted_dram (s : State) (pin code : Nat) : (pinCounted s pin code).dram = s.dram := by simp [pinCounted]

@[simp] theorem pinLevel_dram (s : State) (pin code : Nat) (hold : Bool) : (pinLevel s pin code hold).dram = s.dram := by simp [pinLevel]

@[simp] theorem pinAssert_dram (s : State) (l : List PinLevel) : (pinAssert s l).dram = s.dram := by simp [pinAssert]

@[simp] theorem wrFaultStatus_dram (s : State) (v : Nat) : (wrFaultStatus s v).KeepsDram s := by simp [wrFaultStatus]

@[simp] theorem setPortWidth_dram (s : State) (p : Fin 5) (w : Nat) : (setPortWidth s p w).dram = s.dram := by
  unfold setPortWidth
  split <;> simp

@[simp] theorem laneRepair_dram (s : State) (p lane : Nat) : (laneRepair s p lane).dram = s.dram := by
  simp only [laneRepair]
  split <;> simp

@[simp] theorem pcieRetire_dram (s : State) (p : Fin 5) (lane : Nat) : (pcieRetire s p lane).dram = s.dram := by simp [pcieRetire]

/-! ### The Toll House while the device runs (16) -/

@[simp] theorem mbDone_dram (s : State) (status : Nat) (rsp : List Nat) : (mbDone s status rsp).dram = s.dram := by simp -implicitDefEqProofs [mbDone]

@[simp] theorem wrMbCmd_dram (s : State) (v : Nat) : (wrMbCmd s v).KeepsDram s := by simp [wrMbCmd]

@[simp] theorem wrMbReq_dram (s : State) (k v : Nat) : (wrMbReq s k v).KeepsDram s := by simp [wrMbReq]

@[simp] theorem mbRun_dram {s : State} {op : Nat} {f : (Nat → Nat) → State} (h : ∀ g, (f g).dram = s.dram) : (mbRun s op f).dram = s.dram := by
  unfold mbRun
  split <;> simp [h]

@[simp] theorem mbLong_dram (s : State) : (mbLong s).dram = s.dram := rfl

@[simp] theorem mbInfo_dram (s : State) : (mbInfo s).dram = s.dram := by simp [mbInfo]

@[simp] theorem mbSense_dram (s : State) : (mbSense s).dram = s.dram := by simp [mbSense]

@[simp] theorem mbLogStart_dram (s : State) : (mbLogStart s).dram = s.dram := by simp [mbLogStart]

@[simp] theorem mbLogEnd_dram (s : State) (q : Nat → Nat) : (mbLogEnd s q).dram = s.dram := by
  simp only [mbLogEnd]
  split <;> simp

@[simp] theorem mbReadStart_dram (s : State) (op : Nat) : (mbReadStart s op).dram = s.dram := by simp [mbReadStart]

@[simp] theorem mbRepClear_dram (s : State) : (mbRepClear s).dram = s.dram := by simp [mbRepClear]

@[simp] theorem mbHalt_dram (s : State) : (mbHalt s).dram = s.dram := by simp [mbHalt]

@[simp] theorem resetRespond_dram (s : State) (full : Bool) : (resetRespond s full).dram = s.dram := rfl

@[simp] theorem orderlyCheck_dram (s : State) : (orderlyCheck s).dram = s.dram := by simp [orderlyCheck]

@[simp] theorem mbReset_dram (s : State) : (mbReset s).dram = s.dram := by simp [mbReset]

@[simp] theorem orderlyTimeout_dram (s : State) : (orderlyTimeout s).dram = s.dram := by simp [orderlyTimeout]

@[simp] theorem keyLog_dram (s : State) (code slot : Nat) (k : KeySlot) : (keyLog s code slot k).dram = s.dram := by simp [keyLog]

@[simp] theorem keyErase_dram (s : State) (slot : Nat) : (keyErase s slot).dram = s.dram := by simp [keyErase]

@[simp] theorem mbKeyPut_dram (s : State) : (mbKeyPut s).dram = s.dram := by simp [mbKeyPut]

@[simp] theorem mbKeyErase_dram (s : State) : (mbKeyErase s).dram = s.dram := by simp [mbKeyErase]

@[simp] theorem mbKeys_dram (s : State) : (mbKeys s).dram = s.dram := by simp [mbKeys]

@[simp] theorem fwBegin_dram (s : State) : (fwBegin s).dram = s.dram := rfl

@[simp] theorem fwStore_dram (s : State) (bs : List Byte) : (fwStore s bs).dram = s.dram := by
  unfold fwStore
  split <;> simp

@[simp] theorem fwFinish_dram (s : State) (len : Nat) : (fwFinish s len).2.dram = s.dram := by
  unfold fwFinish
  split <;> simp

@[simp] theorem fwStageStart_dram (s : State) (serial : Nat) : (fwStageStart s serial).dram = s.dram := by simp [fwStageStart]

@[simp] theorem fwStageStep_dram (s : State) (e : WorkEntry) (data : HostRd) :
    (fwStageStep s e data).dram = s.dram := by
  unfold fwStageStep
  dsimp only
  repeat' split
  all_goals simp

@[simp] theorem mbRecoverStart_dram (s : State) : (mbRecoverStart s).dram = s.dram := by simp [mbRecoverStart]

@[simp] theorem mbSelect_dram (s : State) : (mbSelect s).dram = s.dram := by simp [mbSelect]

@[simp] theorem mbCosignSet_dram (s : State) : (mbCosignSet s).dram = s.dram := by simp [mbCosignSet]

@[simp] theorem cfgWriteStart_dram (s : State) (serial : Nat) : (cfgWriteStart s serial).dram = s.dram := by simp [cfgWriteStart]

@[simp] theorem cfgWriteStep_dram (s : State) (e : WorkEntry) (data : HostRd) :
    (cfgWriteStep s e data).dram = s.dram := by
  unfold cfgWriteStep
  dsimp only
  repeat' split
  all_goals simp

@[simp] theorem mbCopy_dram (s : State) (a : Nat) (bs : List Byte) (rsp : List Nat) : (mbCopy s a bs rsp).dram = s.dram := by simp [mbCopy]

@[simp] theorem mbLongDone_dram (s : State) (data : HostRd) :
    (mbLongDone s data).dram = s.dram := by
  unfold mbLongDone
  repeat' split
  all_goals simp

@[simp] theorem challenge_dram (s : State) (level : Nat) : (challenge s level).2.dram = s.dram := rfl

@[simp] theorem mbDebugChallenge_dram (s : State) : (mbDebugChallenge s).dram = s.dram := by simp [mbDebugChallenge]

@[simp] theorem unlockLog_dram (s : State) (level st : Nat) : (unlockLog s level st).dram = s.dram := by simp [unlockLog]

@[simp] theorem unlock_dram (s : State) (sig cust : List Byte) : (unlock s sig cust).2.dram = s.dram := by
  unfold unlock
  split
  · simp
  · dsimp only
    split
    · simp
    · split <;> simp -implicitDefEqProofs

@[simp] theorem mbDebugUnlock_dram (s : State) : (mbDebugUnlock s).dram = s.dram := by simp [mbDebugUnlock]

@[simp] theorem nonceExpire_dram (s : State) : (nonceExpire s).dram = s.dram := rfl

@[simp] theorem jtagOp_dram (s : State) (o : JtagOp) : (jtagOp s o).dram = s.dram := by
  unfold jtagOp
  dsimp only
  split <;> simp -implicitDefEqProofs

@[simp] theorem logSecond_dram (s : State) : (logSecond s).dram = s.dram := by simp [logSecond]

@[simp] theorem drydockConsole_dram (s : State) : (drydockConsole s).dram = s.dram := by simp [drydockConsole]

@[simp] theorem statBlink_dram (s : State) : (statBlink s).dram = s.dram := by simp [statBlink]

/-! ### Accesses of the host (18) -/

@[simp] theorem modPage_dram (s : State) (p : Nat) (f : PageBuf → PageBuf) : (modPage s p f).dram = s.dram := rfl

@[simp] theorem regRead_dram (s : State) (a : Nat) :
    (regRead s a).2.dram = s.dram := by
  unfold regRead
  dsimp only
  repeat' split
  all_goals simp

@[simp] theorem wrSrc_dram (s : State) (a v : Nat) : (wrSrc s a v).KeepsDram s := by simp [wrSrc]

@[simp] theorem wrChan_dram (s : State) (a v : Nat) : (wrChan s a v).KeepsDram s := by simp [wrChan]

@[simp] theorem wrSeq_dram (s : State) (a v : Nat) : (wrSeq s a v).KeepsDram s := by simp [wrSeq]

@[simp] theorem wrPartner_dram (s : State) (a v : Nat) : (wrPartner s a v).KeepsDram s := by simp [wrPartner]

@[simp] theorem wrKeeper_dram (s : State) (a v : Nat) : (wrKeeper s a v).KeepsDram s := by simp [wrKeeper]

@[simp] theorem wrQueue_dram (s : State) (n o a v : Nat) : (wrQueue s n o a v).KeepsDram s := by
  unfold wrQueue
  split <;> simp

@[simp] theorem wrCring_dram (s : State) (r o a v : Nat) : (wrCring s r o a v).KeepsDram s := by
  unfold wrCring
  split <;> simp

@[simp] theorem regWrite_dram (s : State) (a v : Nat) : (regWrite s a v).KeepsDram s := by
  unfold regWrite
  dsimp only
  split
  · rfl
  · split
    case h_15 =>
      split
      · split
        · next ht => exact wrSigRange_dram ht
        · trivial
      · split
        · split
          · next ht => exact sigPublish_dram ht
          · simp
        · simp
    case h_16 =>
      split
      · split
        · next ht => exact wrKeyCtrl_dram ht
        · trivial
      · simp
    all_goals simp

@[simp] theorem applyWrite_dram (s : State) (a v : Nat) : (applyWrite s a v).2.dram = s.dram := by
  have hreg := regWrite_dram (if rsvHit a v then pageErr s a errRsv else s) a (rsvStrip a v)
  simp only [applyWrite]
  split
  · next hw => rw [hw] at hreg; exact hreg.trans (by simp)
  · next hw => rw [hw] at hreg; exact hreg.trans (by simp)
  · simp

@[simp] theorem wrShadowCtrl_dram (s : State) (p v : Nat) : (wrShadowCtrl s p v).dram = s.dram := by simp [wrShadowCtrl]

@[simp] theorem headerWrite_dram (s : State) (p o v : Nat) : (headerWrite s p o v).dram = s.dram := by simp [headerWrite]

@[simp] theorem State.hold_dram (s : State) (x : HostAcc) : (s.hold x).dram = s.dram := rfl

@[simp] theorem unmappedHit_dram (s : State) : (unmappedHit s).dram = s.dram := by simp [unmappedHit]

@[simp] theorem snapDrop_dram (s : State) (p : Nat) : (snapDrop s p).dram = s.dram := rfl

@[simp] theorem sizeError_dram (s : State) (a : Nat) :
    (sizeError s a).dram = s.dram := by
  unfold sizeError
  dsimp only
  repeat' split
  all_goals simp

@[simp] theorem pageWrite_dram (s : State) (a v : Nat) : (pageWrite s a v).dram = s.dram := by simp [pageWrite]

@[simp] theorem windowWrite_dram (s : State) (r : BarRegion) (v n : Nat) : (windowWrite s r v n).dram = s.dram := by
  unfold windowWrite
  split <;> simp

@[simp] theorem hostWrite64_dram (s : State) (a v : Nat) :
    (hostWrite64 s a v).dram = s.dram := by
  unfold hostWrite64
  dsimp only
  repeat' split
  all_goals simp

@[simp] theorem hostWriteLow_dram (s : State) (a v : Nat) :
    (hostWriteLow s a v).dram = s.dram := by
  unfold hostWriteLow
  dsimp only
  repeat' split
  all_goals simp

@[simp] theorem hostWriteHigh_dram (s : State) (a v : Nat) :
    (hostWriteHigh s a v).dram = s.dram := by
  unfold hostWriteHigh
  dsimp only
  repeat' split
  all_goals simp

@[simp] theorem viewRead_dram (s : State) (r : BarRegion) (n : Nat) : (viewRead s r n).dram = s.dram := by
  unfold viewRead
  split <;> simp

@[simp] theorem hostRead64_dram (s : State) (a : Nat) :
    (hostRead64 s a).dram = s.dram := by
  unfold hostRead64
  dsimp only
  repeat' split
  all_goals simp

@[simp] theorem hostReadLow_dram (s : State) (a : Nat) :
    (hostReadLow s a).dram = s.dram := by
  unfold hostReadLow
  dsimp only
  repeat' split
  all_goals simp

@[simp] theorem hostReadHigh_dram (s : State) (a : Nat) :
    (hostReadHigh s a).dram = s.dram := by
  unfold hostReadHigh
  dsimp only
  repeat' split
  all_goals simp

@[simp] theorem batchWrite_dram (s : State) (lock : Bool) (x : Nat × Nat × Nat) :
    (batchWrite s lock x).2.dram = s.dram := by
  unfold batchWrite
  dsimp only
  repeat' split
  all_goals simp

@[simp] theorem keepSet_dram {l : List Fld} {f : State → State} {x : State × List Fld} (h : (f x.1).dram = x.1.dram) :
    (keepSet l f x).1.dram = x.1.dram := h

@[simp] theorem batchRun_dram (l : List Fld) (x : State × List Fld) (b : List Byte) (n i : Nat) : (batchRun l x b n i).1.1.dram = x.1.dram := by
  induction n generalizing x i with
  | zero => rfl
  | succ k ih =>
    unfold batchRun
    split
    · rfl
    · rw [ih]; simp

@[simp] theorem batchError_dram (s : State) (x : Nat × Nat × Nat) : (batchError s x).dram = s.dram := by
  have hb := batchWrite_dram s true x
  unfold batchError
  split
  case h_1 t ht => simpa [ht] using hb
  case h_2 => simp

@[simp] theorem regBatch_dram (s : State) (serial : Nat) (data : HostRd) : (regBatch s serial data).dram = s.dram := by
  refine basinStart_dram fun e => ?_
  dsimp only
  repeat' split
  all_goals simp

@[simp] theorem batchApply_dram (l : List Fld) (x : State × List Fld) (e : WorkEntry) : (batchApply l x e).1.dram = x.1.dram := by
  have hrun := batchRun_dram l x e.data (e.arg 24 2) 0
  simp only [batchApply]
  split
  · next h => rw [h] at hrun; simpa using hrun
  · simp

@[simp] theorem batchesApply_dram (l : List Fld) (x : State × List Fld) : (batchesApply l x).1.dram = x.1.dram :=
  foldl_dram_fst (batchApply_dram l) _ _

@[simp] theorem stagedWrite_dram (p : Nat) (x : State × Option (Nat × Nat)) (w : Nat × Word) : (stagedWrite p x w).1.dram = x.1.dram := by
  simp only [stagedWrite]
  split <;> simp

@[simp] theorem stagedFirst_dram (old : State) (p : Nat) (x : State × Option (Nat × Nat)) : (stagedFirst old p x).dram = x.1.dram := by
  unfold stagedFirst
  split
  · simp
  · split <;> simp

@[simp] theorem shadowApply_dram (s : State) (p : Nat) : (shadowApply s p).dram = s.dram := by
  simp [shadowApply, foldl_dram_fst (stagedWrite_dram p)]

@[simp] theorem shadowsApply_dram (l : List Fld) (x : State × List Fld) : (shadowsApply l x).1.dram = x.1.dram := by
  unfold shadowsApply
  refine foldl_dram_fst (fun x e => ?_) _ _
  split <;> simp

@[simp] theorem shadowsEmpty_dram (s : State) : (shadowsEmpty s).dram = s.dram := by simp -implicitDefEqProofs [shadowsEmpty]

@[simp] theorem shadowsEdge_dram (l : List Fld) (x : State × List Fld) : (shadowsEdge l x).dram = x.1.dram := by
  simp [shadowsEdge, foldl_dram State.raise_dram]

@[simp] theorem edgeWrites_dram (l : List Fld) (x : State × List Fld) : (edgeWrites l x).dram = x.1.dram := by simp [edgeWrites]

@[simp] theorem bar2Read_dram (s : State) (x n : Nat) : (bar2Read s x n).dram = s.dram := by
  simp [bar2Read]

@[simp] theorem msixWrite_dram (s : State) (off v : Nat) : (msixWrite s off v).dram = s.dram := by simp [msixWrite]

@[simp] theorem powerWrite_dram (s : State) (v : Nat) : (powerWrite s v).dram = s.dram := by simp [powerWrite]

@[simp] theorem bmeWrite_dram (s : State) (on : Bool) : (bmeWrite s on).dram = s.dram := by simp [bmeWrite]

@[simp] theorem configWrite_dram (s : State) (off v : Nat) :
    (configWrite s off v).dram = s.dram := by
  unfold configWrite
  repeat' split
  all_goals simp

@[simp] theorem configRead_dram (s : State) (off : Nat) : (configRead s off).dram = s.dram := by simp [configRead]

@[simp] theorem barRead_dram (s : State) (size : AccSize) (a : Nat) : (barRead s size a).dram = s.dram := by
  simp only [barRead]
  split
  · split
    · simp
    · refine foldl_dram (fun t x => ?_) _ _
      split <;> simp
  · split <;> simp

@[simp] theorem barWrite_dram (s : State) (size : AccSize) (a v : Nat) : (barWrite s size a v).dram = s.dram := by
  simp only [barWrite]
  split
  · split
    · simp
    · refine foldl_dram (fun t x => ?_) _ _
      split <;> simp
  · split <;> simp

@[simp] theorem hostResume_dram (s : State) (c : Fin 56) : (hostResume s c).dram = s.dram := by
  simp only [hostResume]
  split
  · rfl
  · refine foldl_dram (fun t x => ?_) _ _
    split <;> simp

@[simp] theorem spaceRead_dram (s : State) (sp : RegSpace) (a : Nat) : (spaceRead s sp a).dram = s.dram := by
  unfold spaceRead
  split <;> simp

@[simp] theorem spaceWrite_dram (s : State) (sp : RegSpace) (a v : Nat) : (spaceWrite s sp a v).dram = s.dram := by
  unfold spaceWrite
  split <;> simp

/-! ### Start-up (15, 16) -/

@[simp] theorem ksLoad_dram (s : State) (k len : Nat) (b : List Byte) (serial : Nat) : (ksLoad s k len b serial).2.dram = s.dram := by
  unfold ksLoad
  split <;> simp

@[simp] theorem keystoneLoad_dram (s : State) (serial : Nat) (data : HostRd) : (keystoneLoad s serial data).dram = s.dram := by
  refine basinStart_dram fun e => ?_
  dsimp only
  repeat' split
  all_goals simp

@[simp] theorem keystonesInstalled_dram (s : State) : (keystonesInstalled s).dram = s.dram := by simp [keystonesInstalled]

@[simp] theorem recReject_dram (s : State) (i typ reason : Nat) : (recReject s i typ reason).dram = s.dram := by simp [recReject]

@[simp] theorem recRejectFree_dram (s : State) (i typ : Nat) : (recRejectFree s i typ).dram = s.dram := by simp [recRejectFree]

@[simp] theorem recReg_dram (s : State) (r : CfgRec) : (recReg s r).dram = s.dram := by
  have hb := batchWrite_dram s false (leAt r.body 0 8, leAt r.body 8 8, leAt r.body 16 8)
  unfold recReg
  dsimp only
  split
  · simp
  · split
    case h_1 t ht => simpa [ht] using hb
    case h_2 t ht => simpa [ht] using hb

@[simp] theorem recLock_dram (s : State) (r : CfgRec) (first : Bool) : (recLock s r first).dram = s.dram := by simp -implicitDefEqProofs [recLock]

@[simp] theorem recKeeper_dram (s : State) (r : CfgRec) : (recKeeper s r).dram = s.dram := by
  unfold recKeeper
  split <;> simp

@[simp] theorem recStream_dram (s : State) (r : CfgRec) : (recStream s r).dram = s.dram := by simp [recStream]

@[simp] theorem recKeystone_dram (s : State) (r : CfgRec) : (recKeystone s r).dram = s.dram := by simp [recKeystone]

@[simp] theorem recAuto_dram (s : State) (r : CfgRec) : (recAuto s r).dram = s.dram := by simp [recAuto]

@[simp] theorem userLayer_dram (s : State) : (userLayer s).2.dram = s.dram := by
  unfold userLayer
  split <;> simp

@[simp] theorem mapTiles_dram (s : State) (bad : Nat → Bool) (epll : Bool) : (mapTiles s bad epll).dram = s.dram := by
  simp -implicitDefEqProofs [mapTiles]

@[simp] theorem spllLost_dram (s : State) (n : Fin 4) : (spllLost s n).dram = s.dram := by simp [spllLost]

@[simp] theorem testRepairs_dram (s : State) (t : SelfTest) : (testRepairs s t).dram = s.dram := by simp -implicitDefEqProofs [testRepairs]

@[simp] theorem testLog_dram (s : State) : (testLog s).dram = s.dram := by simp [testLog]

@[simp] theorem drydockEnter_dram (s : State) (step detail : Nat) : (drydockEnter s step detail).dram = s.dram := by simp [drydockEnter]

@[simp] theorem autoTake_dram (s : State) (a : AutoRec) : (autoTake s a).dram = s.dram := by
  unfold autoTake
  split <;> simp

@[simp] theorem autostart_dram (s : State) : (autostart s).dram = s.dram := by simp [autostart]

@[simp] theorem readyEnter_dram (s : State) : (readyEnter s).dram = s.dram := by simp [readyEnter]

@[simp] theorem startEdge_dram (s : State) : (startEdge s).dram = s.dram := by
  unfold startEdge
  split <;> simp

/-! ### The tick edge (02) -/

@[simp] theorem swapsAtEdge_dram (s : State) (ended : Nat) : (swapsAtEdge s ended).dram = s.dram := by simp [swapsAtEdge]

@[simp] theorem courseOpen_dram (s : State) : (courseOpen s).dram = s.dram := rfl

@[simp] theorem channelsAtEdge_dram (s : State) : (channelsAtEdge s).dram = s.dram := by simp [channelsAtEdge]

@[simp] theorem threadsAtEdge_dram (s : State) : (threadsAtEdge s).dram = s.dram := by simp -implicitDefEqProofs [threadsAtEdge]

@[simp] theorem longAbandon_dram (s : State) (e : WorkEntry) : (longAbandon s e).dram = s.dram := by simp [longAbandon]

@[simp] theorem haltAbandons_dram (s : State) : (haltAbandons s).dram = s.dram := by simp [haltAbandons]

@[simp] theorem runReady_dram (s : State) : (runReady s).dram = s.dram := by simp [runReady]

@[simp] theorem stateAtEdge_dram (s : State) : (stateAtEdge s).dram = s.dram := by simp [stateAtEdge]

@[simp] theorem holdTicks_dram (s : State) : (holdTicks s).dram = s.dram := rfl

@[simp] theorem edgeSwap_dram (s : State) : (edgeSwap s).dram = s.dram := by simp [edgeSwap]

@[simp] theorem edgeChans_dram (s : State) : (edgeChans s).dram = s.dram := by simp [edgeChans]

@[simp] theorem edgeDevice_dram (s : State) : (edgeDevice s).1.dram = s.dram := by simp [edgeDevice]

@[simp] theorem edgeApply_dram (l : List Fld) (x : State × List Fld) : (edgeApply l x).dram = x.1.dram := by simp [edgeApply]

@[simp] theorem subTickSwap_dram (s : State) (c : Fin 56) (j : Nat) :
    (subTickSwap s c j).dram = s.dram := by simp -implicitDefEqProofs [subTickSwap]

/-! ### Drain slots and chambers (02, 10) -/

@[simp] theorem drainRefused_dram (s : State) (c i : Nat) (ch : Chamber) : (drainRefused s c i ch).1.dram = s.dram := by
  simp [drainRefused]

@[simp] theorem drainDone_dram (s : State) (c : Fin 56) : (drainDone s c).dram = s.dram := by
  simp only [drainDone]
  split <;> simp

@[simp] theorem txItemSent_dram (s : State) (c : Fin 56) : (txItemSent s c).dram = s.dram := by
  unfold txItemSent
  dsimp only
  split
  · split
    · rfl
    · split
      · next ht =>
        have hs := txSent_dram_of_eq ht
        rw [txFeed_dram]
        simp [hs]
      · next ht =>
        have hs := txSent_dram_of_eq ht
        rw [hs, State.modBus_dram]
  · rfl

@[simp] theorem holdoffExpire_dram (s : State) (g : Nat) : (holdoffExpire s g).dram = s.dram := by simp [holdoffExpire]

@[simp] theorem ptpMessage_dram (s : State) (c : Fin 56) (m : PtpMsg) : (ptpMessage s c m).dram = s.dram := by
  unfold ptpMessage
  split <;> simp

@[simp] theorem hostDown_dram (s : State) : (hostDown s).dram = s.dram := by simp [hostDown]

@[simp] theorem hostTrained_dram (s : State) (offer : Nat) : (hostTrained s offer).dram = s.dram := by simp [hostTrained]

@[simp] theorem unknownCmd_dram (s : State) (v : Word) : (unknownCmd s v).dram = s.dram := by simp [unknownCmd]

@[simp] theorem tpHelloLost_dram (s : State) (p : Fin 2) : (tpHelloLost s p).dram = s.dram := by simp [tpHelloLost]

@[simp] theorem unmappedAccess_dram (s : State) (a : Nat) (write : Bool) : (unmappedAccess s a write).dram = s.dram := by simp [unmappedAccess]

/-! ### The keeper's instructions -/

@[simp] theorem kCompare_dram (s : State) (c : Fin 56) (t : Fin 8) (cls : Nat) (f : Cls → KInstr) : (kCompare s c t cls f).dram = s.dram := by
  unfold kCompare
  split <;> simp

end Sys2Proof.Machine
end

section
/-!
PROOF. Every step keeps the device's DRAM in canonical form (R28, R404): what writes device DRAM, then every command.
-/
namespace Sys2Proof.Machine

/-- A memory in canonical form: addresses strictly rising, no entry that reads as an unlisted byte. -/
def Canon (m : List Host.Cell) : Prop := SMap.wf (fun _ => (0 : Byte)) m = true

theorem dramWf_iff_canon (s : State) : DramWf s = true ↔ Canon s.dram := Iff.rfl

@[simp] theorem canon_nil : Canon [] := rfl

@[simp] theorem canon_ite (p : Prop) [Decidable p] (m n : List Host.Cell) : Canon (if p then m else n) ↔ if p then Canon m else Canon n := by
  split <;> rfl

theorem foldl_canon {α : Type} {f : State → α → State} (hf : ∀ s a, Canon s.dram → Canon (f s a).dram) (l : List α) {s : State}
    (h : Canon s.dram) : Canon (l.foldl f s).dram := by
  induction l generalizing s with
  | nil => exact h
  | cons a l ih => exact ih (hf s a h)

@[simp] theorem State.eachCh_canon {s : State} {f : State → Fin 56 → State} (h : Canon s.dram)
    (hf : ∀ s c, Canon s.dram → Canon (f s c).dram) : Canon (s.eachCh f).dram := foldl_canon hf _ h

@[simp] theorem chanStart_canon {s : State} {c : Fin 56} {opc : Nat} {f : WorkEntry → State} (h : Canon s.dram)
    (hf : ∀ e, Canon (f e).dram) : Canon (chanStart s c opc f).dram := by
  unfold chanStart
  split
  · split
    · exact hf _
    · exact h
  · exact h

@[simp] theorem orderRun_canon {s : State} {c : Fin 56} {sel : Order → Bool} {f : State → ExecOrder → State} (h : Canon s.dram)
    (hf : ∀ t e, Canon t.dram → Canon (f t e).dram) : Canon (orderRun s c sel f).dram := by
  unfold orderRun
  dsimp only
  repeat' split
  all_goals simp -implicitDefEqProofs [h, hf]

@[simp] theorem State.dramWrite_canon {s : State} (a : Nat) (bs : List Byte) (h : Canon s.dram) : Canon (s.dramWrite a bs).dram :=
  s.dramWrite_wf a bs h

@[simp] theorem execLoaded_dram (s : State) (c : Fin 56) : (execLoaded s c).dram = s.dram := rfl

@[simp] theorem State.reset_dram : State.reset.dram = [] := rfl

/-! ### Records, lock chambers, the pound and the ring (10) -/

@[simp] theorem placeExts_canon (fuel : Nat) (s : State) (h : Canon s.dram) : Canon (placeExts fuel s).dram := by
  induction fuel generalizing s with
  | zero => exact h
  | succ k ih =>
    unfold placeExts
    split
    · exact h
    · split
      · simpa using h
      · refine ih _ ?_
        simp -implicitDefEqProofs [h]

@[simp] theorem addExt_canon (s : State) (e : Extent) (h : Canon s.dram) : Canon (addExt s e).dram := by simp -implicitDefEqProofs [addExt, h]

@[simp] theorem drainStart_canon (s : State) (c i : Nat) (ch : Chamber) (p : Nat) (h : Canon s.dram) :
    Canon (drainStart s c i ch p).1.dram := by
  simp only [drainStart]
  split
  · exact h
  · simp -implicitDefEqProofs [h]

@[simp] theorem creditRelease_canon (s : State) (h : Canon s.dram) : Canon (creditRelease s).dram := by
  unfold creditRelease
  dsimp only
  repeat' split
  all_goals simp -implicitDefEqProofs [h]

@[simp] theorem courseWrite_canon (s : State) (h : Canon s.dram) : Canon (courseWrite s).1.dram := by
  rw [courseWrite.eq_def]
  generalize ringPlace = place
  revert place
  refine id fun place => ?_
  split
  · exact h
  · exact h
  · dsimp only
    split
    · simp -implicitDefEqProofs [h]
    · split <;> simp -implicitDefEqProofs [h]

/-! ### The barge mover (08) -/

@[simp] theorem moveWrite_canon (s : State) (c : Fin 56) (a : Area) (i : Nat) (bs : List Byte) (h : Canon s.dram) : Canon (moveWrite s c a i bs).dram := by
  simp only [moveWrite]
  split <;> simp -implicitDefEqProofs [h]

@[simp] theorem moveWords_canon (fuel : Nat) (s : State) (c : Fin 56) (a b : Area) (data : List Byte) (i free : Nat) (out : List Byte)
    (h : Canon s.dram) : Canon (moveWords fuel s c a b data i free out).1.dram := by
  induction fuel generalizing s i out with
  | zero => exact h
  | succ k ih =>
    have hr : Canon (moveRead s c a data i free).2.dram := by simpa using h
    unfold moveWords
    split
    case h_1 t ht => simpa [ht] using hr
    case h_2 bs t ht => exact ih _ _ _ (moveWrite_canon _ _ _ _ _ (by simpa [ht] using hr))

@[simp] theorem moveRun_canon (s : State) (c : Fin 56) (m : BMove) (n : Nat) (data : List Byte) (h : Canon s.dram) :
    Canon (moveRun s c m n data).1.dram := by
  simp only [moveRun]
  split
  · rw [State.bumpWrap_dram]
    split
    · split <;> simp -implicitDefEqProofs [h]
    · simp -implicitDefEqProofs [h]
  · simpa using h

@[simp] theorem sourceEcc_getD_dram (s : State) (c : Fin 56) (a : Option Area) (i : Nat) : ((sourceEcc s c a i).getD s).dram = s.dram := by
  cases he : sourceEcc s c a i with
  | none => rfl
  | some t => exact sourceEcc_dram he

@[simp] theorem bmMoveDone_canon (s : State) (c : Fin 56) (data : List Byte) (ok : Bool) (ecc : Option Nat) (h : Canon s.dram) :
    Canon (bmMoveDone s c data ok ecc).dram := by
  unfold bmMoveDone
  dsimp only
  split
  case h_1 m w hm hw =>
    split
    · exact h
    · split
      · exact h
      · generalize hr : moveRun _ c m _ data = r
        have hr : Canon r.1.dram := by
          rw [← hr]
          simp -implicitDefEqProofs [h]
        repeat' split
        all_goals simp -implicitDefEqProofs [hr]
  case h_2 => exact h

@[simp] theorem bmHostTimeout_canon (s : State) (c : Fin 56) (data : List Byte) (n : Nat) (h : Canon s.dram) :
    Canon (bmHostTimeout s c data n).dram := by
  unfold bmHostTimeout
  dsimp only
  repeat' split
  all_goals simp -implicitDefEqProofs [h]

/-! ### The order sequencer (04) -/

@[simp] theorem postOrder_canon (s : State) (c : Fin 56) (idx state status residual : Nat) (h : Canon s.dram) : Canon (postOrder s c idx state status residual).dram := by
  simp -implicitDefEqProofs [postOrder, h]

@[simp] theorem orderFinish_canon (s : State) (c : Fin 56) (drop : Bool) (h : Canon s.dram) : Canon (orderFinish s c drop).dram := by
  unfold orderFinish
  dsimp only
  repeat' split
  all_goals simp -implicitDefEqProofs [h]

@[simp] theorem orderNow_canon (s : State) (c : Fin 56) (st res : Nat) (h : Canon s.dram) : Canon (orderNow s c st res).dram :=
  orderFinish_canon _ _ _ (by simpa using h)

@[simp] theorem orderDone_canon (s : State) (c : Fin 56) (h : Canon s.dram) : Canon (orderDone s c).dram := by
  simp -implicitDefEqProofs [orderDone, h]

@[simp] theorem bufWrite_canon (s : State) (a : Nat) (bs : List Byte) (h : Canon s.dram) : Canon (bufWrite s a bs).dram := by
  simp -implicitDefEqProofs [bufWrite, h]

@[simp] theorem areaStore_canon (s : State) (c : Fin 56) (as : List Order) (pos : Nat) (bs : List Byte) (h : Canon s.dram) :
    Canon (areaStore s c as pos bs).dram := by
  induction as generalizing s pos bs with
  | nil => exact h
  | cons o rest ih =>
    unfold areaStore
    split
    · exact ih _ _ _ h
    · apply ih
      split <;> simp -implicitDefEqProofs [h]

@[simp] theorem interruptOrder_canon (s : State) (c : Fin 56) (e : ExecOrder) (state status : Nat) (h : Canon s.dram) : Canon (interruptOrder s c e state status).2.dram := by
  simp -implicitDefEqProofs [interruptOrder, h]

@[simp] theorem suspendNow_canon (s : State) (c : Fin 56) (h : Canon s.dram) : Canon (suspendNow s c).dram := by
  simp only [suspendNow]
  split <;> simp -implicitDefEqProofs [h]

@[simp] theorem routeSuspend_canon (s : State) (c : Fin 56) (h : Canon s.dram) : Canon (routeSuspend s c).dram := by
  simp -implicitDefEqProofs [routeSuspend, h]

@[simp] theorem routeStop_canon (s : State) (c : Fin 56) (k : StopKind) (h : Canon s.dram) : Canon (routeStop s c k).dram := by
  simp only [routeStop]
  repeat' split
  all_goals simp -implicitDefEqProofs [h]

@[simp] theorem routeHalt_canon (s : State) (c : Fin 56) (h : Canon s.dram) : Canon (routeHalt s c).dram := by
  simp -implicitDefEqProofs [routeHalt, h]

@[simp] theorem seqEdgeStop_canon (s : State) (c : Fin 56) (k : StopKind) (h : Canon s.dram) : Canon (seqEdgeStop s c k).dram := by
  unfold seqEdgeStop
  dsimp only
  repeat' split
  all_goals simp -implicitDefEqProofs [h]

@[simp] theorem seqEdge_canon (s : State) (c : Fin 56) (h : Canon s.dram) : Canon (seqEdge s c).dram := by
  simp only [seqEdge]
  repeat' split
  all_goals simp -implicitDefEqProofs [h]

@[simp] theorem ordJump_canon (s : State) (c : Fin 56) (h : Canon s.dram) : Canon (ordJump s c).dram :=
  orderRun_canon h fun _ _ ht => by simp -implicitDefEqProofs [ht]

@[simp] theorem ordStop_canon (s : State) (c : Fin 56) (h : Canon s.dram) : Canon (ordStop s c).dram :=
  orderRun_canon h fun _ _ ht => by simp -implicitDefEqProofs [ht]

@[simp] theorem ordLoop_canon (s : State) (c : Fin 56) (h : Canon s.dram) : Canon (ordLoop s c).dram :=
  orderRun_canon h fun _ _ ht => by simp -implicitDefEqProofs [ht]

@[simp] theorem ordSkipif_canon (s : State) (c : Fin 56) (h : Canon s.dram) : Canon (ordSkipif s c).dram :=
  orderRun_canon h fun _ _ ht => by simp -implicitDefEqProofs [ht]

@[simp] theorem ordPublish_canon (s : State) (c : Fin 56) (h : Canon s.dram) : Canon (ordPublish s c).dram :=
  orderRun_canon h fun _ _ ht => by simp -implicitDefEqProofs [ht]

@[simp] theorem ordMark_canon (s : State) (c : Fin 56) (h : Canon s.dram) : Canon (ordMark s c).dram :=
  orderRun_canon h fun _ _ ht => by simp -implicitDefEqProofs [ht]

@[simp] theorem waitExpire_canon (s : State) (c : Fin 56) (h : Canon s.dram) : Canon (waitExpire s c).dram := by
  simp only [waitExpire]
  split <;> simp -implicitDefEqProofs [h]

@[simp] theorem ordCall_canon (s : State) (c : Fin 56) (h : Canon s.dram) : Canon (ordCall s c).dram :=
  orderRun_canon h fun _ _ ht => by simp -implicitDefEqProofs [ht]

@[simp] theorem orderTimesOut_canon (s : State) (c : Fin 56) (left : Nat) (h : Canon s.dram) : Canon (orderTimesOut s c left).dram := by
  simp only [orderTimesOut]
  split <;> simp -implicitDefEqProofs [h]

@[simp] theorem hostTransferTimeout_canon (s : State) (c : Fin 56) (h : Canon s.dram) : Canon (hostTransferTimeout s c).dram := by
  simp only [hostTransferTimeout]
  split <;> simp -implicitDefEqProofs [h]

@[simp] theorem recvPump_canon (fuel : Nat) (s : State) (c : Fin 56) (h : Canon s.dram) : Canon (recvPump fuel s c).dram := by
  induction fuel generalizing s with
  | zero => exact h
  | succ k ih =>
    unfold recvPump
    dsimp only
    repeat' split
    all_goals simp -implicitDefEqProofs [h, ih]

@[simp] theorem ordReceive_canon (s : State) (c : Fin 56) (h : Canon s.dram) : Canon (ordReceive s c).dram :=
  orderRun_canon h fun _ _ ht => by simp -implicitDefEqProofs [ht]

@[simp] theorem withData_canon {s : State} {c : Fin 56} {e : ExecOrder} {as : List Order} {data : HostRd} {f : State → List Byte → State}
    (h : Canon s.dram) (hf : ∀ t bs, Canon t.dram → Canon (f t bs).dram) : Canon (withData s c e as data f).dram := by
  unfold withData
  split
  · exact h
  · split <;> simp -implicitDefEqProofs [h, hf]

@[simp] theorem ordTransmit_canon (s : State) (c : Fin 56) (data : HostRd) (h : Canon s.dram) : Canon (ordTransmit s c data).dram := by
  refine orderRun_canon h fun t e ht => ?_
  split
  · simp -implicitDefEqProofs [ht]
  · refine withData_canon ht fun u bs hu => ?_
    repeat' split
    all_goals simp -implicitDefEqProofs [hu]

@[simp] theorem ordExchange_canon (s : State) (c : Fin 56) (data : HostRd) (h : Canon s.dram) : Canon (ordExchange s c data).dram := by
  refine orderRun_canon h fun t e ht => ?_
  dsimp only
  split
  · simp -implicitDefEqProofs [ht]
  · exact withData_canon ht fun u bs hu => by simp -implicitDefEqProofs [hu]

@[simp] theorem exStore_canon (s : State) (c : Fin 56) (e : ExecOrder) (bs : List Byte) (h : Canon s.dram) : Canon (exStore s c e bs).dram := by
  simp -implicitDefEqProofs [exStore, h]

@[simp] theorem spiDone_canon (s : State) (c : Fin 56) (bs : List Byte) (h : Canon s.dram) : Canon (spiDone s c bs).dram := by
  simp only [spiDone]
  split <;> simp -implicitDefEqProofs [h]

@[simp] theorem i2cDone_canon (s : State) (c : Fin 56) (addr : Nat) (bs : List Byte) (h : Canon s.dram) : Canon (i2cDone s c addr bs).dram := by
  simp only [i2cDone]
  split <;> simp -implicitDefEqProofs [h]

theorem uartExchange_canon {s t : State} {c : Fin 56} {ch : Nat} {err : Bool} (h : Canon s.dram) (ht : uartExchange s c ch err = some t) :
    Canon t.dram := by
  unfold uartExchange at ht
  split at ht
  case h_1 e he =>
    split at ht
    · split at ht
      · rw [← Option.some.inj ht]
        simp -implicitDefEqProofs [h]
      · rw [← Option.some.inj ht]
        split <;> simp -implicitDefEqProofs [h]
    · cases ht
  case h_2 => cases ht

@[simp] theorem ordControl_canon {s : State} {c : Fin 56} {sel : Nat → Bool} {f : State → Nat → Nat × State} (h : Canon s.dram)
    (hf : ∀ t w, Canon t.dram → Canon (f t w).2.dram) : Canon (ordControl s c sel f).dram :=
  orderRun_canon h fun t _ ht => orderNow_canon _ _ _ _ (hf t _ ht)

@[simp] theorem ctlOnListen_canon (s : State) (c : Fin 56) (h : Canon s.dram) : Canon (ctlOnListen s c).dram := by
  simp -implicitDefEqProofs [ctlOnListen, h]

@[simp] theorem ctlOn_canon (s : State) (c : Fin 56) (h : Canon s.dram) : Canon (ctlOn s c).dram := by simp -implicitDefEqProofs [ctlOn, h]

@[simp] theorem ctlOff_canon (s : State) (c : Fin 56) (h : Canon s.dram) : Canon (ctlOff s c).dram := by simp -implicitDefEqProofs [ctlOff, h]

@[simp] theorem ctlSetMode_canon (s : State) (c : Fin 56) (h : Canon s.dram) : Canon (ctlSetMode s c).dram := by
  simp -implicitDefEqProofs [ctlSetMode, h]

@[simp] theorem ctlClearPartners_canon (s : State) (c : Fin 56) (h : Canon s.dram) : Canon (ctlClearPartners s c).dram := by
  simp -implicitDefEqProofs [ctlClearPartners, h]

@[simp] theorem ctlScan_canon (s : State) (c : Fin 56) (acks : Nat) (h : Canon s.dram) : Canon (ctlScan s c acks).dram := by
  simp -implicitDefEqProofs [ctlScan, h]

@[simp] theorem ctlClearCounters_canon (s : State) (c : Fin 56) (h : Canon s.dram) : Canon (ctlClearCounters s c).dram := by
  simp -implicitDefEqProofs [ctlClearCounters, h]

@[simp] theorem ctlSetCfg_canon (s : State) (c : Fin 56) (h : Canon s.dram) : Canon (ctlSetCfg s c).dram := by
  refine orderRun_canon h fun t e ht => ?_
  dsimp only
  split
  · exact orderNow_canon _ _ _ _ ht
  · have hw := wrBus_dram t c (0x108 + (bf e.order.param 0 16 - 0x100) * 8) e.order.word2
    split
    case h_1 u hu =>
      rw [hu, Wr.keepsDram_ok] at hw
      exact orderNow_canon _ _ _ _ (hw ▸ ht)
    case h_2 r hu =>
      apply orderNow_canon
      split
      case h_1 u hu => 
        rw [hu, Wr.keepsDram_own] at hw
        exact hw ▸ ht
      case h_2 => exact ht

@[simp] theorem ctlUndefined_canon (s : State) (c : Fin 56) (h : Canon s.dram) : Canon (ctlUndefined s c).dram := by
  simp -implicitDefEqProofs [ctlUndefined, h]

@[simp] theorem ordSense_canon (s : State) (c : Fin 56) (code : Nat) (block : State → List Byte) (h : Canon s.dram) :
    Canon (ordSense s c code block).dram := by
  refine orderRun_canon h fun t e ht => ?_
  dsimp only
  repeat' split
  all_goals simp -implicitDefEqProofs [ht]

@[simp] theorem senseCounters_canon (s : State) (c : Fin 56) (h : Canon s.dram) : Canon (senseCounters s c).dram := by
  simp -implicitDefEqProofs [senseCounters, h]

@[simp] theorem senseStatus_canon (s : State) (c : Fin 56) (h : Canon s.dram) : Canon (senseStatus s c).dram := by
  simp -implicitDefEqProofs [senseStatus, h]

@[simp] theorem sensePartners_canon (s : State) (c : Fin 56) (h : Canon s.dram) : Canon (sensePartners s c).dram := by
  simp -implicitDefEqProofs [sensePartners, h]

@[simp] theorem senseConfig_canon (s : State) (c : Fin 56) (h : Canon s.dram) : Canon (senseConfig s c).dram := by
  simp -implicitDefEqProofs [senseConfig, h]

@[simp] theorem senseUndefined_canon (s : State) (c : Fin 56) (h : Canon s.dram) : Canon (senseUndefined s c).dram :=
  orderRun_canon h fun _ _ ht => by simp -implicitDefEqProofs [ht]

/-! ### Enabling, disabling, fencing and moving a channel (04, 06, 07, 15) -/

@[simp] theorem chanDisable_canon (s : State) (c : Fin 56) (h : Canon s.dram) : Canon (chanDisable s c).dram := by
  simp -implicitDefEqProofs [chanDisable, h]

@[simp] theorem chanFence_canon (s : State) (c : Fin 56) (h : Canon s.dram) : Canon (chanFence s c).dram := by
  simp -implicitDefEqProofs [chanFence, h]

@[simp] theorem lostDrain_canon (s : State) (c : Fin 56) (h : Canon s.dram) : Canon (lostDrain s c).dram := by
  simp only [lostDrain]
  split <;> simp -implicitDefEqProofs [h]

@[simp] theorem reseatResume_canon (s : State) (c : Fin 56) (h : Canon s.dram) : Canon (reseatResume s c).dram := by
  unfold reseatResume
  dsimp only
  repeat' split
  all_goals simp -implicitDefEqProofs [h]

/-! ### Placement, segments and drives (12, 13) -/

@[simp] theorem courseComplete_canon (s : State) (h : Canon s.dram) : Canon (courseComplete s).dram := by
  have hw := courseWrite_canon s h
  unfold courseComplete
  split
  case h_1 t d ht => simpa [ht] using hw
  case h_2 t ht => simpa [ht] using hw

@[simp] theorem operandWrite_canon (s : State) (a : Nat) (bs : List Byte) (h : Canon s.dram) : Canon (operandWrite s a bs).dram := by
  simp -implicitDefEqProofs [operandWrite, h]

@[simp] theorem readbackStep_canon (s : State) (e : WorkEntry) (data : HostRd) (h : Canon s.dram) : Canon (readbackStep s e data).dram := by
  unfold readbackStep
  dsimp only
  repeat' split
  all_goals simp -implicitDefEqProofs [h]

@[simp] theorem snapshotStep_canon (s : State) (e : WorkEntry) (h : Canon s.dram) : Canon (snapshotStep s e).dram := by
  simp -implicitDefEqProofs [snapshotStep, h]

/-! ### Reset and firmware trials (16) -/

/-- A reset empties the device's DRAM (log entry 7). -/
@[simp] theorem deviceReset_dram (s : State) (cause mon low : Nat) (b : Boot) : (deviceReset s cause mon low b).dram = [] := by
  simp only [deviceReset]
  split
  · simp -implicitDefEqProofs 
  · split
    · split <;> simp -implicitDefEqProofs 
    · simp -implicitDefEqProofs

@[simp] theorem poreset_dram (s : State) (b : Boot) (p : PowerUp) : (poreset s b p).dram = [] := by
  unfold poreset
  split <;> simp

@[simp] theorem warmReset_dram (s : State) (b : Boot) : (warmReset s b).dram = [] := deviceReset_dram ..

@[simp] theorem trialTimeout_canon (s : State) (b : Boot) (h : Canon s.dram) : Canon (trialTimeout s b).dram := by
  simp -implicitDefEqProofs [trialTimeout, h]

/-! ### Escalation, fences, supply and temperature (15) -/

@[simp] theorem blockFence_canon (s : State) (pin code bad : Nat) (h : Canon s.dram) : Canon (blockFence s pin code bad).dram := by
  unfold blockFence
  repeat' split
  all_goals simp -implicitDefEqProofs [h]

@[simp] theorem faultEscalate_canon (s : State) (bad : Nat) (b : Boot) (h : Canon s.dram) : Canon (faultEscalate s bad b).dram := by
  simp only [faultEscalate]
  split <;> simp -implicitDefEqProofs [h]

@[simp] theorem braceTimeout_canon (s : State) (b : Boot) (h : Canon s.dram) : Canon (braceTimeout s b).dram := by
  simp -implicitDefEqProofs [braceTimeout, h]

@[simp] theorem supplyReset_canon (s : State) (n : Fin 10) (mv : Nat) (b : Boot) (h : Canon s.dram) : Canon (supplyReset s n mv b).dram := by
  simp only [supplyReset]
  split <;> simp -implicitDefEqProofs [h]

@[simp] theorem received_canon (s : State) (c : Fin 56) (h : Canon s.dram) : Canon (received s c).dram := by simp -implicitDefEqProofs [received, h]

@[simp] theorem laneRetire_canon (s : State) (p : Fin 15) (lane : Nat) (h : Canon s.dram) : Canon (laneRetire s p lane).dram := by
  simp only [laneRetire]
  split <;> simp -implicitDefEqProofs [h]

/-! ### The Toll House while the device runs (16) -/

@[simp] theorem resetFire_canon (s : State) (b : Boot) (h : Canon s.dram) : Canon (resetFire s b).dram := by
  unfold resetFire
  split
  · rw [warmReset_dram]
    exact canon_nil
  · exact h

/-! ### Accesses of the host (18) -/

@[simp] theorem bar2Write_canon (s : State) (x : Nat) (bs : List Byte) (h : Canon s.dram) : Canon (bar2Write s x bs).dram := by
  unfold bar2Write
  split
  · exact h
  · refine foldl_canon (fun t g ht => ?_) _ h
    split
    · simpa using ht
    · split
      · simpa using ht
      · apply State.dramWrite_canon
        simpa using ht

/-! ### Start-up (15, 16) -/

@[simp] theorem recDram_canon (s : State) (r : CfgRec) (h : Canon s.dram) : Canon (recDram s r).dram := by simp -implicitDefEqProofs [recDram, h]

@[simp] theorem recTake_canon (s : State) (r : CfgRec) (first : Bool) (h : Canon s.dram) : Canon (recTake s r first).dram := by
  simp only [recTake]
  split <;> simp -implicitDefEqProofs [h]

@[simp] theorem cfgTake_canon (x : State × Bool) (i : CfgItem) (h : Canon x.1.dram) : Canon (cfgTake x i).1.dram := by
  simp only [cfgTake]
  repeat' split
  all_goals simp -implicitDefEqProofs [h]

theorem foldl_cfgTake_canon (l : List CfgItem) (x : State × Bool) (h : Canon x.1.dram) : Canon (l.foldl cfgTake x).1.dram := by
  induction l generalizing x with
  | nil => exact h
  | cons i l ih => exact ih _ (cfgTake_canon x i h)

@[simp] theorem configApply_canon (s : State) (h : Canon s.dram) : Canon (configApply s).1.dram := by
  simp only [configApply]
  exact foldl_cfgTake_canon _ _ (by simpa using h)

@[simp] theorem selftestComplete_canon (s : State) (t : SelfTest) (h : Canon s.dram) : Canon (selftestComplete s t).dram := by
  unfold selftestComplete
  split
  · exact h
  · rw [tpUpdate_dram]
    dsimp only
    repeat' split
    all_goals simp -implicitDefEqProofs [h]

/-! ### The tick edge (02) -/

@[simp] theorem haltStops_canon (s : State) (h : Canon s.dram) : Canon (haltStops s).dram := by simp +contextual [haltStops, h]

@[simp] theorem edgeRoutes_canon (s : State) (h : Canon s.dram) : Canon (edgeRoutes s).dram := by
  have hu : Canon (s.eachCh seqEdgeUsed).dram := by simpa -implicitDefEqProofs using h
  have he : Canon ((haltStops (s.eachCh seqEdgeUsed)).eachCh (fun s c => if s.frozen c then s else seqEdge s c)).dram :=
    State.eachCh_canon (haltStops_canon _ hu) fun t c ht => by
      split
      · exact ht
      · exact seqEdge_canon t c ht
  have hw : Canon ((haltAbandons ((haltStops (s.eachCh seqEdgeUsed)).eachCh
      (fun s c => if s.frozen c then s else seqEdge s c))).eachCh seqEdgeWait).dram := by simpa -implicitDefEqProofs using he
  have hr := State.eachCh_canon hw fun t c ht => recvPump_canon 64 t c ht
  simpa -implicitDefEqProofs [edgeRoutes] using hr

@[simp] theorem tickEdge_canon (s : State) (h : Canon s.dram) : Canon (tickEdge s).dram := by simp -implicitDefEqProofs [tickEdge, h]

/-! ### Drain slots and chambers (02, 10) -/

@[simp] theorem drainAsk_canon (s : State) (c i : Nat) (ch : Chamber) (h : Canon s.dram) : Canon (drainAsk s c i ch).1.dram := by
  simp only [drainAsk]
  repeat' split
  all_goals simp -implicitDefEqProofs [h]

@[simp] theorem drainTry_canon (s : State) (c : Fin 56) (h : Canon s.dram) : Canon (drainTry s c).dram := by
  unfold drainTry
  dsimp only
  repeat' split
  all_goals simp -implicitDefEqProofs [h]

@[simp] theorem drainSlot_canon (s : State) (i : Nat) (h : Canon s.dram) : Canon (drainSlot s i).dram := by
  unfold drainSlot
  dsimp only
  repeat' split
  all_goals simp -implicitDefEqProofs [h]

@[simp] theorem copyEnd_canon (s : State) (c : Fin 56) (t : Fin 8) (h : Canon s.dram) : Canon (copyEnd s c t).dram := by
  simp -implicitDefEqProofs [copyEnd, h]

@[simp] theorem basinDrain_canon (s : State) (h : Canon s.dram) : Canon (basinDrain s).dram := by
  unfold basinDrain
  dsimp only
  repeat' split
  all_goals simp -implicitDefEqProofs [h]

@[simp] theorem longStepOf_canon (s : State) (e : WorkEntry) (data : HostRd) (h : Canon s.dram) : Canon (longStepOf s e data).dram := by
  unfold longStepOf
  repeat' split
  all_goals simp -implicitDefEqProofs [h]

@[simp] theorem longStep_canon (s : State) (serial : Nat) (data : HostRd) (h : Canon s.dram) : Canon (longStep s serial data).dram := by
  unfold longStep
  dsimp only
  repeat' split
  all_goals simp -implicitDefEqProofs [h]

/-! ### Every command, and a step -/

/-- The state a command completes in holds device DRAM in canonical form. -/
def NextCanon (o : Host.Outcome State Fault Refusal) : Prop := ∀ t, o = .next t → Canon t.dram

theorem done_nextCanon {s : State} (h : Canon s.dram) : NextCanon (done s) := by
  intro t ht
  cases ht
  rwa [settle_dram]

theorem execUartCharacter_nextCanon (c : Fin 56) (ch : BitVec 9) (ts : Word) (frErr paErr : Bool) (s : State) (h : Canon s.dram) :
    NextCanon (execUartCharacter c ch ts frErr paErr s) := by
  refine done_nextCanon ?_
  split
  case h_1 t ht => exact uartExchange_canon h ht
  case h_2 => simp -implicitDefEqProofs [h]

theorem exec_nextCanon (i : Instr) (s : State) (h : Canon s.dram) : NextCanon (exec i s) := by
  cases i
  case uartCharacter c ch ts f p => exact execUartCharacter_nextCanon c ch ts f p s h
  all_goals
    refine done_nextCanon ?_
    simp -implicitDefEqProofs [h]

theorem step_nextCanon {s : State} (h : Canon s.dram) : NextCanon (step s) := by
  unfold step
  split
  case h_1 =>
    intro t ht
    cases ht
    rwa [tbclk_dram]
  case h_2 c rest hp => exact exec_nextCanon c { s with pending := rest } h

/-- Settles O56: only `State.dramWrite` and the resets change the device's DRAM, a write keeps the canonical form, and a reset
empties the DRAM. -/
theorem everyStepKeepsDramWf : Obligations.EveryStepKeepsDramWf := by
  unfold Obligations.EveryStepKeepsDramWf
  exact fun s t h ht => step_nextCanon h t ht

end Sys2Proof.Machine
end

section
/-!
PROOF. What the event log, an event source's pulse and a change of the device's state write and leave (14, 16, R17, R361).
-/
namespace Sys2Proof.Machine

/-! ### The event log (16) and deliveries of the interrupt controller (14) -/

/-- The parts of the state that writing an entry of the event log can change. -/
theorem logWrite_eq (s : State) (src code : Nat) (data : List Byte) :
    ∃ th k o, logWrite s src code data = { s with toll := th, free := k, out := o } := by
  unfold logWrite
  dsimp only
  by_cases h : (Config.freeWord s.drawFree.1).toNat % 3 = 2
  · rw [if_pos h]
    exact ⟨_, _, _, rfl⟩
  · rw [if_neg h]
    exact ⟨_, _, _, rfl⟩

/-- The parts of the state that logging an event can change. -/
theorem thLog_eq (s : State) (src code : Nat) (data : List Byte) :
    ∃ th k o, thLog s src code data = { s with toll := th, free := k, out := o } := by
  generalize hx : thLog s src code data = x
  unfold thLog at hx
  dsimp only at hx
  split at hx
  · obtain ⟨th, k, o, h⟩ := logWrite_eq (s.modToll _) src code data
    exact ⟨th, k, o, hx.symm.trans h⟩
  · subst hx
    exact ⟨_, _, _, rfl⟩

@[simp] theorem thLog_get (s : State) (src code : Nat) (data : List Byte) (g : Fld) : (thLog s src code data).get g = s.get g := by
  obtain ⟨th, k, o, h⟩ := thLog_eq s src code data
  rw [h]
  rfl

/-- The part of the state that taking the top of a target's stack can change. -/
theorem icPop_eq (s : State) (t : Nat) : ∃ i, (icPop s t).2 = { s with ic := i } := by
  generalize hx : (icPop s t).2 = x
  unfold icPop at hx
  split at hx <;> (subst hx; exact ⟨_, rfl⟩)

/-- The parts of the state that the word of a delivery to its target can change. -/
theorem icInform_eq (s : State) (src t : Nat) :
    ∃ cs i th k o, icInform s src t = { s with chans := cs, ic := i, toll := th, free := k, out := o } := by
  generalize hx : icInform s src t = x
  unfold icInform at hx
  split at hx
  · subst hx
    exact ⟨_, _, _, _, _, rfl⟩
  · split at hx
    · obtain ⟨th, k, o, h⟩ := thLog_eq s 0xFE 0x0500 (leBytes 2 src)
      obtain ⟨i, hi⟩ := icPop_eq (thLog s 0xFE 0x0500 (leBytes 2 src)) t
      rw [← hx, hi, h]
      exact ⟨_, _, _, _, _, rfl⟩
    · split at hx <;> (subst hx; exact ⟨_, _, _, _, _, rfl⟩)

/-- The parts of the state that a group's hold-off can change. -/
theorem holdOff_eq (s : State) (src t : Nat) : ∃ f i, holdOff s src t = { s with fld := f, ic := i } := by
  generalize hx : holdOff s src t = x
  unfold holdOff at hx
  dsimp only at hx
  split at hx <;> (subst hx; exact ⟨_, _, rfl⟩)

/-- The parts of the state that a delivery can change. -/
theorem icDeliverSrc_eq (s : State) (src : Nat) :
    ∃ f cs i th k o, icDeliverSrc s src = { s with fld := f, chans := cs, ic := i, toll := th, free := k, out := o } := by
  unfold icDeliverSrc
  dsimp only
  generalize hu : State.modIc (s.modIc _) _ = u
  obtain ⟨f, i, hf⟩ := holdOff_eq u src (targetOf s src)
  obtain ⟨cs, i, th, k, o, h⟩ := icInform_eq (holdOff u src (targetOf s src)) src (targetOf s src)
  rw [h, hf, ← hu]
  exact ⟨_, _, _, _, _, _, rfl⟩

/-- What the pulse of an event source does: nothing, its delivery, or a latch of it (R317, R318). -/
theorem icPulse_cases (s : State) (src : Nat) :
    icPulse s src = s ∨ icPulse s src = icDeliverSrc s src ∨ ∃ f, icPulse s src = s.modIc f := by
  unfold icPulse
  split
  · exact .inl rfl
  · split
    · exact (ite_eq_or_eq _ _ _).elim (fun h => .inr (.inl h)) .inl
    · exact .inl rfl
    · exact (ite_eq_or_eq _ _ _).elim .inl (fun h => .inr (.inr ⟨_, h⟩))

/-- The parts of the state that an event source's pulse can change. -/
theorem icPulse_eq (s : State) (src : Nat) :
    ∃ f cs i th k o, icPulse s src = { s with fld := f, chans := cs, ic := i, toll := th, free := k, out := o } := by
  obtain h | h | ⟨f, h⟩ := icPulse_cases s src
  · exact ⟨_, _, _, _, _, _, h⟩
  · exact h ▸ icDeliverSrc_eq s src
  · exact ⟨_, _, _, _, _, _, h⟩

/-- A hold-off writes no register below those of the groups. -/
theorem holdOff_get (s : State) (src t : Nat) {g : Fld} (hg : fldKey g < 0x2006100 * 64) : (holdOff s src t).get g = s.get g := by
  have hh (i : Nat) : fldKey g ≠ fldKey (Fld.GRP_HOLDING i) := by
    simp only [fldKey, Fld.GRP_HOLDING, Reg.GRP] at *
    omega
  have hc (i : Nat) : fldKey g ≠ fldKey (Fld.GRP_COALESCED i) := by
    simp only [fldKey, Fld.GRP_COALESCED, Reg.GRP] at *
    omega
  simp only [holdOff]
  split
  · rw [State.modIc_get, State.bumpSat, State.get_put_ne _ _ (hc _), State.raise, State.get_put_ne _ _ (hh _)]
  · rfl

theorem icDeliverSrc_get (s : State) (src : Nat) {g : Fld} (hg : fldKey g < 0x2006100 * 64) : (icDeliverSrc s src).get g = s.get g := by
  unfold icDeliverSrc
  dsimp only
  generalize hu : State.modIc (s.modIc _) _ = u
  obtain ⟨cs, i, th, k, o, h⟩ := icInform_eq (holdOff u src (targetOf s src)) src (targetOf s src)
  calc (icInform (holdOff u src (targetOf s src)) src (targetOf s src)).get g
      = (holdOff u src (targetOf s src)).get g := by rw [h]; rfl
    _ = u.get g := holdOff_get u src _ hg
    _ = s.get g := by rw [← hu]; rfl

theorem icPulse_get (s : State) (src : Nat) {g : Fld} (hg : fldKey g < 0x2006100 * 64) : (icPulse s src).get g = s.get g := by
  obtain h | h | ⟨f, h⟩ := icPulse_cases s src
  · rw [h]
  · rw [h, icDeliverSrc_get s src hg]
  · rw [h, State.modIc_get]

/-! ### A change of the device's state (R17, R361) -/

/-- The registers of the device's state after a change to `st`. -/
def devMoved (s : State) (st : Nat) : State :=
  ((s.put Fld.DEV_STATE_PREV_STATE s.devState).put Fld.DEV_STATE_STATE st).put Fld.DEV_STATE_TICK_ENTRY_TICK s.tick

/-- A change of state writes its registers, pulses source 513, logs the change and drives STAT. -/
theorem setDev_of_ne {s : State} {st : Nat} (h : s.devState ≠ st) :
    ∃ data, setDev s st = (fun t => t.emit (.stat (statBits t))) (consoleLine (thLog (icPulse (devMoved s st) 513) 0xFF 0x0004 data) 0x0004) := by
  unfold setDev
  rw [if_neg h]
  exact ⟨_, rfl⟩

theorem setDev_get {s : State} {st : Nat} (h : s.devState ≠ st) {g : Fld} (hg : fldKey g < 0x2006100 * 64) :
    (setDev s st).get g = (devMoved s st).get g := by
  obtain ⟨data, hd⟩ := setDev_of_ne h
  rw [hd, State.emit_get, consoleLine, State.emit_get, thLog_get, icPulse_get _ _ hg]

/-- The parts of the state that a change of the device's state can change. -/
theorem setDev_eq {s : State} {st : Nat} (h : s.devState ≠ st) :
    ∃ f cs i th k o, setDev s st = { s with fld := f, chans := cs, ic := i, toll := th, free := k, out := o } := by
  obtain ⟨data, hd⟩ := setDev_of_ne h
  obtain ⟨f, cs, i, th, k, o, hp⟩ := icPulse_eq (devMoved s st) 513
  obtain ⟨th, k, o, ht⟩ := thLog_eq (icPulse (devMoved s st) 513) 0xFF 0x0004 data
  rw [hd, ht, hp]
  exact ⟨_, _, _, _, _, _, rfl⟩

theorem statBits_emit (s : State) (e : OutEvent) : statBits (s.emit e) = statBits s := rfl

theorem setDev_out {s : State} {st : Nat} (h : s.devState ≠ st) : (setDev s st).out.getLast? = some (.stat (statBits (setDev s st))) := by
  obtain ⟨data, hd⟩ := setDev_of_ne h
  rw [hd]
  generalize consoleLine _ 0x0004 = u
  dsimp only
  rw [statBits_emit, State.emit_out, List.getLast?_concat]

theorem setDev_devState {s : State} {st : Nat} (h : s.devState ≠ st) (hst : st < 16) : (setDev s st).devState = st := by
  rw [State.devState, setDev_get h (by decide), devMoved, State.get_put_ne _ _ (by decide), State.get_put_same]
  exact Nat.mod_eq_of_lt hst

theorem setDev_prevState {s : State} {st : Nat} (h : s.devState ≠ st) (hs : s.devState < 16) :
    (setDev s st).get Fld.DEV_STATE_PREV_STATE = s.devState := by
  rw [setDev_get h (by decide), devMoved, State.get_put_ne _ _ (by decide), State.get_put_ne _ _ (by decide), State.get_put_same]
  exact Nat.mod_eq_of_lt hs

theorem setDev_entryTick {s : State} {st : Nat} (h : s.devState ≠ st) : (setDev s st).get Fld.DEV_STATE_TICK_ENTRY_TICK = s.tick % 2 ^ 48 := by
  rw [setDev_get h (by decide), devMoved, State.get_put_same]
  rfl

theorem deviceStateChange (s : State) (st : Nat) (hst : st < 8) (hne : st ≠ s.devState) (hs : s.devState < 8) :
      (setDev s st).devState = st ∧ (setDev s st).get Fld.DEV_STATE_PREV_STATE = s.devState ∧
      (setDev s st).get Fld.DEV_STATE_TICK_ENTRY_TICK = s.tick % 2 ^ 48 ∧ (setDev s st).dram = s.dram ∧
      (setDev s st).accepted = s.accepted ∧ (setDev s st).basinq = s.basinq ∧ (setDev s st).streams = s.streams ∧
      (setDev s st).out.getLast? = some (.stat (statBits (setDev s st))) := by
  have h := hne.symm
  obtain ⟨f, cs, i, th, k, o, he⟩ := setDev_eq h
  refine ⟨setDev_devState h (by omega), setDev_prevState h (by omega), setDev_entryTick h, setDev_dram .., ?_, ?_, ?_, setDev_out h⟩ <;>
    rw [he]

end Sys2Proof.Machine
end

section
/-!
PROOF. The supply monitors, the temperature sensors and changes of the device's state (R17, R350, R352).
-/
namespace Sys2Proof.Machine

/-! ### The supply monitors (R350) -/

theorem monTake_get_of_ne (s : State) (n lvl : Nat) {g : Fld} (hnow : fldKey g ≠ fldKey (Fld.MON1_NOW_MV n))
    (hmin : fldKey g ≠ fldKey (Fld.MON1_MIN_MV n)) : (monTake s n lvl).get g = s.get g :=
  (State.get_put_ne _ _ hmin).trans (State.get_put_ne _ _ hnow)

theorem monTake_get_now (s : State) (n lvl : Nat) : (monTake s n lvl).get (Fld.MON1_NOW_MV n) = lvl % 2 ^ 16 := by
  have hmin : fldKey (Fld.MON1_NOW_MV n) ≠ fldKey (Fld.MON1_MIN_MV n) := by simp [fldKey, Fld.MON1_NOW_MV, Fld.MON1_MIN_MV]
  exact (State.get_put_ne _ _ hmin).trans (State.get_put_same ..)

@[simp] theorem monTake_dip_isSome (s : State) (n lvl : Nat) : (monTake s n lvl).dip.isSome = s.dip.isSome := Option.isSome_map ..

/-- A measurement leaves what lies below the monitors' registers alone. -/
theorem monTake_get_of_lt (s : State) (n lvl : Nat) {g : Fld} (hg : fldKey g < 0x32118 * 64) : (monTake s n lvl).get g = s.get g := by
  apply monTake_get_of_ne <;> simp only [fldKey, Fld.MON1_NOW_MV, Fld.MON1_MIN_MV, Reg.MON1] at * <;> omega

theorem monTake_get_below (s : State) (n k lvl : Nat) : (monTake s n lvl).get (Fld.MON1_BELOW k) = s.get (Fld.MON1_BELOW k) := by
  apply monTake_get_of_ne <;> simp only [fldKey, Fld.MON1_NOW_MV, Fld.MON1_MIN_MV, Fld.MON1_BELOW, Reg.MON1] <;> omega

theorem monTake_get_now_of_ne (s : State) {n k : Nat} (lvl : Nat) (h : k ≠ n) :
    (monTake s n lvl).get (Fld.MON1_NOW_MV k) = s.get (Fld.MON1_NOW_MV k) := by
  apply monTake_get_of_ne <;> simp only [fldKey, Fld.MON1_NOW_MV, Fld.MON1_MIN_MV, Reg.MON1] <;> omega

theorem monLevel_congr {s t : State} (h : t.get Fld.VSENSE_CFG_SCALE = s.get Fld.VSENSE_CFG_SCALE) (n mv : Nat) :
    monLevel t n mv = monLevel s n mv := by simp only [monLevel, h]

/-- A warning of monitor `n` at `lvl` is marked and logged. -/
def warned (s : State) (n lvl : Nat) : State :=
  thLog { ((monTake s n lvl).raise (Fld.MON1_BELOW n)).raise Fld.SUPPLY_EVT_WARN with recovered := false }
    0xFE 0x0300 (leBytes 1 n ++ leBytes 2 lvl)

/-- A dip begins with the warning unless one is under way. -/
def dipped (s : State) (n lvl ts : Nat) : State :=
  if s.dip.isNone then { warned s n lvl with dip := some ⟨s.tick, n, lvl, min ts s.now⟩ } else warned s n lvl

theorem warned_get (s : State) (n lvl : Nat) (g : Fld) :
    (warned s n lvl).get g = (((monTake s n lvl).raise (Fld.MON1_BELOW n)).raise Fld.SUPPLY_EVT_WARN).get g := thLog_get ..

theorem warned_get_of_lt (s : State) (n lvl : Nat) {g : Fld} (hg : fldKey g < 0x32108 * 64) : (warned s n lvl).get g = s.get g := by
  rw [warned_get, State.raise, State.raise, State.get_put_ne, State.get_put_ne, monTake_get_of_lt]
  all_goals
    simp only [fldKey, Fld.SUPPLY_EVT_WARN, Reg.SUPPLY_EVT, Fld.MON1_BELOW, Reg.MON1] at *
    omega

@[simp] theorem dipped_get (s : State) (n lvl ts : Nat) (g : Fld) : (dipped s n lvl ts).get g = (warned s n lvl).get g := by
  unfold dipped
  split <;> rfl

theorem dipped_devState (s : State) (n lvl ts : Nat) : (dipped s n lvl ts).devState = s.devState :=
  (dipped_get ..).trans (warned_get_of_lt s n lvl (by decide))

theorem dipped_below (s : State) (n lvl ts : Nat) : (dipped s n lvl ts).get (Fld.MON1_BELOW n) = 1 := by
  rw [dipped_get, warned_get, State.raise, State.raise, State.get_put_ne, State.get_put_same]
  · rfl
  · simp only [fldKey, Fld.SUPPLY_EVT_WARN, Reg.SUPPLY_EVT, Fld.MON1_BELOW, Reg.MON1]
    omega

theorem dipped_warn (s : State) (n lvl ts : Nat) : (dipped s n lvl ts).isSet Fld.SUPPLY_EVT_WARN = true := by
  rw [State.isSet, dipped_get, warned_get, State.raise, State.get_put_same]
  rfl

theorem dipped_now (s : State) (n lvl ts : Nat) : (dipped s n lvl ts).get (Fld.MON1_NOW_MV n) = lvl % 2 ^ 16 := by
  rw [dipped_get, warned_get, State.raise, State.raise, State.get_put_ne, State.get_put_ne, monTake_get_now]
  all_goals
    simp only [fldKey, Fld.SUPPLY_EVT_WARN, Reg.SUPPLY_EVT, Fld.MON1_BELOW, Fld.MON1_NOW_MV, Reg.MON1]
    omega

/-- What a warning leaves beside the registers, the log and the dip. -/
theorem warned_eq (s : State) (n lvl : Nat) :
    ∃ f th k o, warned s n lvl = { s with fld := f, toll := th, free := k, out := o, dip := (monTake s n lvl).dip, recovered := false } := by
  obtain ⟨th, k, o, h⟩ := thLog_eq { ((monTake s n lvl).raise (Fld.MON1_BELOW n)).raise Fld.SUPPLY_EVT_WARN with recovered := false }
    0xFE 0x0300 (leBytes 1 n ++ leBytes 2 lvl)
  exact ⟨_, th, k, o, h⟩

theorem warned_dip_isNone (s : State) (n lvl : Nat) : (warned s n lvl).dip.isNone = s.dip.isNone := by
  obtain ⟨f, th, k, o, h⟩ := warned_eq s n lvl
  rw [h]
  exact Option.isNone_map ..

theorem dipped_recovered (s : State) (n lvl ts : Nat) : (dipped s n lvl ts).recovered = false := by
  obtain ⟨f, th, k, o, h⟩ := warned_eq s n lvl
  unfold dipped
  split <;> rw [h]

theorem dipped_dip (s : State) (n lvl ts : Nat) : (dipped s n lvl ts).dip.isSome = true := by
  have h := warned_dip_isNone s n lvl
  unfold dipped
  split
  · rfl
  · next hs => simpa [hs] using h

theorem dipped_haltDue (s : State) (n lvl ts : Nat) : haltDue (dipped s n lvl ts) = haltDue s := by
  have he : (dipped s n lvl ts).escal = s.escal := by
    obtain ⟨f, th, k, o, h⟩ := warned_eq s n lvl
    unfold dipped
    split <;> rw [h]
  simp only [haltDue, State.serving, dipped_devState, he]

/-- At or above its warning level a monitor changes nothing. -/
theorem monWarn_of_le {s : State} {n : Fin 10} {mv : Nat} (ts : Nat) (h : s.get (Fld.MON0_WARN_MV n) ≤ monLevel s n mv) :
    monWarn s n mv ts = s := by
  unfold monWarn
  exact if_pos h

/-- Below it the warning is noted, and from READY or RUN the device goes to BRACE unless HALT is due. -/
theorem monWarn_of_lt {s : State} {n : Fin 10} {mv : Nat} (ts : Nat) (h : monLevel s n mv < s.get (Fld.MON0_WARN_MV n)) :
    monWarn s n mv ts = if (s.devState = devReady ∨ s.devState = devRun) ∧ haltDue s = false then
      braceEnter (setDev ((dipped s n (monLevel s n mv) ts).bumpSat Fld.DEV_STATE_BRACE_COUNT 1) devBrace)
      else dipped s n (monLevel s n mv) ts := by
  have htick : (warned s n (monLevel s n mv)).tick = s.tick := warned_get_of_lt s n _ (by decide)
  have hnow : (warned s n (monLevel s n mv)).now = s.now := warned_get_of_lt s n _ (by decide)
  have hw : monWarn s n mv ts = if ((dipped s n (monLevel s n mv) ts).devState = devReady ∨ (dipped s n (monLevel s n mv) ts).devState = devRun) ∧
      !haltDue (dipped s n (monLevel s n mv) ts) then
      braceEnter (setDev ((dipped s n (monLevel s n mv) ts).bumpSat Fld.DEV_STATE_BRACE_COUNT 1) devBrace)
      else dipped s n (monLevel s n mv) ts := by
    rw [dipped, ← warned_dip_isNone s n (monLevel s n mv), ← htick, ← hnow]
    unfold monWarn
    exact if_neg (by omega)
  simp only [hw, dipped_devState, dipped_haltDue, Bool.not_eq_true']

theorem doesThen_supplyWarn (s : State) (n : Fin 10) (mv : Half) (ts : Word) :
    DoesThen (.supplyWarn n ⟨mv, []⟩ ts) s (monWarn s n mv.toNat ts.toNat) := rfl

/-! ### The end of a dip (R350) -/

/-- The level that a list of measurements gives monitor `n`. -/
def levelIn (s : State) (mvs : List Nat) (n : Nat) : Nat := monLevel s n (mvs.getD n 0)

/-- Monitor `n`'s measurement at the end of a dip: marked no longer when `up`. -/
def recoverOne (mvs : List Nat) (up : Nat → Bool) (s : State) (n : Nat) : State :=
  if up n then (monTake s n (levelIn s mvs n)).clear (Fld.MON1_BELOW n) else monTake s n (levelIn s mvs n)

theorem recoverOne_get_ne (mvs : List Nat) (up : Nat → Bool) (s : State) {n : Nat} {g : Fld} (hb : fldKey g ≠ fldKey (Fld.MON1_BELOW n)) :
    (recoverOne mvs up s n).get g = (monTake s n (levelIn s mvs n)).get g := by
  unfold recoverOne
  split
  · exact State.get_put_ne _ _ hb
  · rfl

theorem recoverOne_get_of_lt (mvs : List Nat) (up : Nat → Bool) (s : State) (n : Nat) {g : Fld} (hg : fldKey g < 0x32118 * 64) :
    (recoverOne mvs up s n).get g = s.get g := by
  rw [recoverOne_get_ne, monTake_get_of_lt _ _ _ hg]
  simp only [fldKey, Fld.MON1_BELOW, Reg.MON1] at *
  omega

theorem recoverOne_now (mvs : List Nat) (up : Nat → Bool) (s : State) (n : Nat) :
    (recoverOne mvs up s n).get (Fld.MON1_NOW_MV n) = levelIn s mvs n % 2 ^ 16 := by
  rw [recoverOne_get_ne, monTake_get_now]
  simp [fldKey, Fld.MON1_NOW_MV, Fld.MON1_BELOW]

theorem recoverOne_now_ne (mvs : List Nat) (up : Nat → Bool) (s : State) {n k : Nat} (h : k ≠ n) :
    (recoverOne mvs up s n).get (Fld.MON1_NOW_MV k) = s.get (Fld.MON1_NOW_MV k) := by
  rw [recoverOne_get_ne, monTake_get_now_of_ne _ _ h]
  simp only [fldKey, Fld.MON1_NOW_MV, Fld.MON1_BELOW, Reg.MON1]
  omega

theorem recoverOne_below (mvs : List Nat) (up : Nat → Bool) (s : State) (n : Nat) :
    (recoverOne mvs up s n).get (Fld.MON1_BELOW n) = if up n then 0 else s.get (Fld.MON1_BELOW n) := by
  unfold recoverOne
  split
  · exact State.get_put_same ..
  · exact monTake_get_below ..

theorem recoverOne_below_ne (mvs : List Nat) (up : Nat → Bool) (s : State) {n k : Nat} (h : k ≠ n) :
    (recoverOne mvs up s n).get (Fld.MON1_BELOW k) = s.get (Fld.MON1_BELOW k) := by
  rw [recoverOne_get_ne, monTake_get_below]
  simp only [fldKey, Fld.MON1_BELOW, Reg.MON1]
  omega

theorem recoverOne_recovered (mvs : List Nat) (up : Nat → Bool) (s : State) (n : Nat) : (recoverOne mvs up s n).recovered = s.recovered := by
  unfold recoverOne
  split <;> rfl

theorem recoverOne_dip (mvs : List Nat) (up : Nat → Bool) (s : State) (n : Nat) : (recoverOne mvs up s n).dip.isSome = s.dip.isSome := by
  unfold recoverOne
  split <;> exact monTake_dip_isSome ..

/-- What the measurements of the monitors below `m` leave of the state `s`. -/
structure Measured (s : State) (mvs : List Nat) (up : Nat → Bool) (m : Nat) (u : State) : Prop where
  low : ∀ g : Fld, fldKey g < 0x32118 * 64 → u.get g = s.get g
  recovered : u.recovered = s.recovered
  dip : u.dip.isSome = s.dip.isSome
  now : ∀ k < m, u.get (Fld.MON1_NOW_MV k) = levelIn s mvs k % 2 ^ 16
  below : ∀ k, u.get (Fld.MON1_BELOW k) = if k < m ∧ up k then 0 else s.get (Fld.MON1_BELOW k)

theorem measured_recoverOne {s u : State} {mvs : List Nat} {up : Nat → Bool} {m : Nat} (h : Measured s mvs up m u) :
    Measured s mvs up (m + 1) (recoverOne mvs up u m) where
  low g hg := (recoverOne_get_of_lt mvs up u m hg).trans (h.low g hg)
  recovered := (recoverOne_recovered ..).trans h.recovered
  dip := (recoverOne_dip ..).trans h.dip
  now k hk := by
    rcases Nat.lt_succ_iff_lt_or_eq.mp hk with hlt | rfl
    · rw [recoverOne_now_ne mvs up u (Nat.ne_of_lt hlt), h.now k hlt]
    · rw [recoverOne_now, levelIn, levelIn, monLevel_congr (h.low _ (by decide))]
  below k := by
    by_cases hk : k = m
    · subst hk
      rw [recoverOne_below, h.below]
      simp
    · rw [recoverOne_below_ne mvs up u hk, h.below]
      have : (k < m + 1) ↔ k < m := by omega
      simp only [this]

theorem measured_range (s : State) (mvs : List Nat) (up : Nat → Bool) (m : Nat) {t : State} (h : Measured s mvs up 0 t) :
    Measured s mvs up m ((List.range m).foldl (recoverOne mvs up) t) := by
  induction m with
  | zero => exact h
  | succ k ih =>
    rw [List.range_succ, List.foldl_append]
    exact measured_recoverOne ih

/-- Before the monitors are read the dip's own lowest level is noted. -/
def dipLow (s : State) (low : Nat) : State :=
  match s.dip with
  | some d => monTake s d.mon (monLevel s d.mon low)
  | none => s

theorem measured_dipLow (s : State) (mvs : List Nat) (up : Nat → Bool) (low : Nat) : Measured s mvs up 0 (dipLow s low) := by
  unfold dipLow
  split
  · exact ⟨fun g hg => monTake_get_of_lt _ _ _ hg, rfl, monTake_dip_isSome .., fun k hk => absurd hk (Nat.not_lt_zero k),
      fun k => by simp [monTake_get_below]⟩
  · exact ⟨fun g hg => rfl, rfl, rfl, fun k hk => absurd hk (Nat.not_lt_zero k), fun k => by simp⟩

/-- A monitor has risen above its warning level and hysteresis. -/
def risen (s : State) (mvs : List Nat) (n : Nat) : Bool := decide (s.get (Fld.MON0_WARN_MV n) + s.get (Fld.MON0_HYST_MV n) < levelIn s mvs n)

/-- The state once all ten monitors are measured. -/
def measured (s : State) (mvs : List Nat) (low : Nat) : State := (List.range 10).foldl (recoverOne mvs (risen s mvs)) (dipLow s low)

theorem measured_measured (s : State) (mvs : List Nat) (low : Nat) : Measured s mvs (risen s mvs) 10 (measured s mvs low) :=
  measured_range s mvs (risen s mvs) 10 (measured_dipLow s mvs (risen s mvs) low)

theorem supplyRecover_eq {s : State} (mvs : List Nat) (low : Nat) (h : anyBelow s = true) :
    supplyRecover s mvs low = if !(List.range 10).all (risen s mvs) then measured s mvs low
      else if (measured s mvs low).devState = devBrace then { measured s mvs low with recovered := true } else dipEnd (measured s mvs low) := by
  unfold supplyRecover
  rw [if_pos h]
  rfl

theorem supplyRecover_of_not {s : State} (mvs : List Nat) (low : Nat) (h : anyBelow s = false) : supplyRecover s mvs low = s := by
  unfold supplyRecover
  exact if_neg (by simp [h])

theorem doesThen_supplyRecover (s : State) (levels : List Half) (low : Half) :
    DoesThen (.supplyRecover levels low) s (supplyRecover s (levels.map (·.toNat)) low.toNat) := rfl

theorem dipEnd_dip (s : State) : (dipEnd s).dip = none := by
  unfold dipEnd
  split
  · assumption
  · rfl

theorem dipEnd_recover {s : State} (h : s.dip.isSome = true) : (dipEnd s).isSet Fld.SUPPLY_EVT_RECOVER = true := by
  unfold dipEnd
  split
  · next hd => simp [hd] at h
  · exact bne_iff_ne.mpr ((thLog_get ..).trans (State.get_put_same ..) ▸ Nat.one_ne_zero)

theorem dipEnd_get {s : State} {g : Fld} (hg : fldKey g ≠ fldKey Fld.SUPPLY_EVT_RECOVER) : (dipEnd s).get g = s.get g := by
  unfold dipEnd
  split
  · rfl
  · exact (thLog_get ..).trans (State.get_put_ne _ _ hg)

/-- Whether the dip ends or not, the registers of the monitors and of the device's state are those of the measurement. -/
theorem supplyRecover_get {s : State} (mvs : List Nat) (low : Nat) (h : anyBelow s = true) {g : Fld}
    (hg : fldKey g ≠ fldKey Fld.SUPPLY_EVT_RECOVER) : (supplyRecover s mvs low).get g = (measured s mvs low).get g := by
  rw [supplyRecover_eq mvs low h]
  split
  · rfl
  · split
    · rfl
    · exact dipEnd_get hg

theorem supplyRecover_devState {s : State} (mvs : List Nat) (low : Nat) (h : anyBelow s = true) :
    (supplyRecover s mvs low).devState = s.devState :=
  (supplyRecover_get mvs low h (by decide)).trans ((measured_measured s mvs low).low _ (by decide))

theorem supplyRecover_now {s : State} (mvs : List Nat) (low : Nat) (h : anyBelow s = true) {k : Nat} (hk : k < 10) :
    (supplyRecover s mvs low).get (Fld.MON1_NOW_MV k) = levelIn s mvs k % 2 ^ 16 := by
  rw [supplyRecover_get mvs low h, (measured_measured s mvs low).now k hk]
  simp only [fldKey, Fld.MON1_NOW_MV, Reg.MON1, Fld.SUPPLY_EVT_RECOVER, Reg.SUPPLY_EVT]
  omega

theorem supplyRecover_below {s : State} (mvs : List Nat) (low : Nat) (h : anyBelow s = true) {k : Nat} (hk : k < 10) :
    (supplyRecover s mvs low).get (Fld.MON1_BELOW k) = if risen s mvs k then 0 else s.get (Fld.MON1_BELOW k) := by
  rw [supplyRecover_get mvs low h, (measured_measured s mvs low).below k]
  · simp [hk]
  · simp only [fldKey, Fld.MON1_BELOW, Reg.MON1, Fld.SUPPLY_EVT_RECOVER, Reg.SUPPLY_EVT]
    omega

theorem all_risen_iff (s : State) (mvs : List Nat) : (List.range 10).all (risen s mvs) = true ↔ ∀ k < 10, risen s mvs k = true := by
  simp only [List.all_eq_true, List.mem_range]

/-- While a monitor is still low the dip goes on. -/
theorem supplyRecover_of_low {s : State} (mvs : List Nat) (low : Nat) (h : anyBelow s = true) (hlow : ∃ k < 10, risen s mvs k = false) :
    supplyRecover s mvs low = measured s mvs low := by
  obtain ⟨k, hk, hr⟩ := hlow
  have hall : (List.range 10).all (risen s mvs) = false := by
    rw [Bool.eq_false_iff, Ne, all_risen_iff]
    exact fun ha => by simp [ha k hk] at hr
  rw [supplyRecover_eq mvs low h, hall]
  rfl

/-- In BRACE the recovery is noted for the next edge. -/
theorem supplyRecover_of_brace {s : State} (mvs : List Nat) (low : Nat) (h : anyBelow s = true) (hup : ∀ k < 10, risen s mvs k = true)
    (hst : s.devState = devBrace) : supplyRecover s mvs low = { measured s mvs low with recovered := true } := by
  have hd : (measured s mvs low).devState = devBrace := ((measured_measured s mvs low).low _ (by decide)).trans hst
  rw [supplyRecover_eq mvs low h, (all_risen_iff s mvs).mpr hup, hd]
  rfl

/-- Outside BRACE the dip ends at once. -/
theorem supplyRecover_of_all {s : State} (mvs : List Nat) (low : Nat) (h : anyBelow s = true) (hup : ∀ k < 10, risen s mvs k = true)
    (hst : s.devState ≠ devBrace) : supplyRecover s mvs low = dipEnd (measured s mvs low) := by
  have hd : (measured s mvs low).devState ≠ devBrace := fun hb => hst (((measured_measured s mvs low).low _ (by decide)).symm.trans hb)
  rw [supplyRecover_eq mvs low h, (all_risen_iff s mvs).mpr hup, if_neg (by simp), if_neg hd]

/-! ### The temperature sensors (R352) -/

theorem foldl_max_mem (l : List Int) (a : Int) : l.foldl max a = a ∨ l.foldl max a ∈ l := by
  induction l generalizing a with
  | nil => exact .inl rfl
  | cons b l ih =>
    rw [List.foldl_cons]
    rcases ih (max a b) with h | h
    · rw [h]
      rcases max_choice a b with hm | hm <;> simp [hm]
    · exact .inr (List.mem_cons_of_mem _ h)

/-- The sixteen sensors' temperatures. -/
def degrees (temps : List Int) : List Int := (List.range 16).map (fun i => temps.getD i 0)

/-- The highest of them. -/
def hottest (ts : List Int) : Int := ts.foldl max (ts.getD 0 0)

/-- The sensors that are the hottest. -/
def hotSensors (ts : List Int) : List Nat := (List.range 16).filter (fun i => ts.getD i 0 == hottest ts)

theorem mem_hotSensors {ts : List Int} {i : Nat} : i ∈ hotSensors ts ↔ i < 16 ∧ ts.getD i 0 = hottest ts := by
  simp [hotSensors]

theorem hotSensors_ne_nil {ts : List Int} (h : ts.length = 16) : hotSensors ts ≠ [] := by
  have hex : ∃ i < 16, ts.getD i 0 = hottest ts := by
    rcases foldl_max_mem ts (ts.getD 0 0) with hm | hm
    · exact ⟨0, by decide, hm.symm⟩
    · obtain ⟨i, hi, he⟩ := List.mem_iff_getElem.mp hm
      exact ⟨i, h ▸ hi, by rw [List.getD_eq_getElem _ _ hi, he]; rfl⟩
  obtain ⟨i, hi⟩ := hex
  exact List.ne_nil_of_mem (mem_hotSensors.mpr hi)

/-- The sensor that THERM_STATUS names: one of the hottest. -/
def hotPick (s : State) (ts : List Int) : Nat :=
  (hotSensors ts).getD ((Config.freeWord s.free).toNat % (hotSensors ts).length) 0

theorem hotPick_mem (s : State) {ts : List Int} (h : ts.length = 16) : hotPick s ts ∈ hotSensors ts := by
  have hl : (Config.freeWord s.free).toNat % (hotSensors ts).length < (hotSensors ts).length :=
    Nat.mod_lt _ (List.length_pos_of_ne_nil (hotSensors_ne_nil h))
  rw [hotPick, List.getD_eq_getElem _ _ hl]
  exact List.getElem_mem hl

/-- The registers after a sample of temperatures `ts`. -/
def tempTaken (s : State) (ts : List Int) : State :=
  ((({ s with free := s.free + 8 }.modToll (fun t => { t with temps := ts })).put Fld.THERM_STATUS_TMAX_C (BitVec.ofInt 8 (hottest ts)).toNat).put
    Fld.THERM_STATUS_SENSOR (hotPick s ts)).put Fld.THERM_STATUS_LEVEL (thermLevel s (hottest ts))

/-- The event of a level. -/
def thermEvt (l : Nat) : Fld :=
  if l = 1 then Fld.THERM_EVT_WARN else if l = 2 then Fld.THERM_EVT_THROTTLE else if l = 3 then Fld.THERM_EVT_CRIT
    else Fld.THERM_EVT_NORMAL

/-- A change of the level sets its event, is recorded and logged. -/
def levelChanged (s : State) (ts : List Int) : State :=
  thLog (diagRec ((tempTaken s ts).raise (thermEvt (thermLevel s (hottest ts)))) 5 (thermLevel s (hottest ts)) (hotPick s ts)
    (BitVec.ofInt 32 (hottest ts)).toNat 0 0) 0xFE 0x0310
    (leBytes 1 (thermLevel s (hottest ts)) ++ leBytes 1 (hotPick s ts) ++ leInt 1 (hottest ts))

theorem thermalSample_eq (s : State) (temps : List Int) :
    thermalSample s temps = if thermLevel s (hottest (degrees temps)) = s.get Fld.THERM_STATUS_LEVEL then tempTaken s (degrees temps)
      else placeSettle (if thermLevel s (hottest (degrees temps)) = 3 then errorPin (levelChanged s (degrees temps)) pinToll 0x10
        else levelChanged s (degrees temps)) := rfl

theorem doesThen_thermalSample (s : State) (temps : List Byte) :
    DoesThen (.thermalSample temps) s (thermalSample s (temps.map (·.toInt))) := rfl

theorem thermLevel_lt (s : State) (m : Int) : thermLevel s m < 4 := by
  simp only [thermLevel]
  repeat' split
  all_goals decide

theorem tempTaken_get_ne (s : State) (ts : List Int) {g : Fld} (ht : fldKey g ≠ fldKey Fld.THERM_STATUS_TMAX_C)
    (hs : fldKey g ≠ fldKey Fld.THERM_STATUS_SENSOR) (hl : fldKey g ≠ fldKey Fld.THERM_STATUS_LEVEL) : (tempTaken s ts).get g = s.get g := by
  rw [tempTaken, State.get_put_ne _ _ hl, State.get_put_ne _ _ hs, State.get_put_ne _ _ ht]
  rfl

theorem tempTaken_level (s : State) (ts : List Int) : (tempTaken s ts).get Fld.THERM_STATUS_LEVEL = thermLevel s (hottest ts) :=
  State.get_put_of_lt _ (thermLevel_lt ..)

theorem tempTaken_sensor (s : State) {ts : List Int} (h : ts.length = 16) : (tempTaken s ts).get Fld.THERM_STATUS_SENSOR = hotPick s ts := by
  rw [tempTaken, State.get_put_ne _ _ (by decide)]
  exact State.get_put_of_lt _ (mem_hotSensors.mp (hotPick_mem s h)).1

theorem tempTaken_tmax (s : State) (ts : List Int) : (tempTaken s ts).get Fld.THERM_STATUS_TMAX_C = (BitVec.ofInt 8 (hottest ts)).toNat := by
  rw [tempTaken, State.get_put_ne _ _ (by decide), State.get_put_ne _ _ (by decide)]
  exact State.get_put_of_lt _ (BitVec.isLt _)

theorem levelChanged_get (s : State) (ts : List Int) (g : Fld) :
    (levelChanged s ts).get g = ((tempTaken s ts).raise (thermEvt (thermLevel s (hottest ts)))).get g := thLog_get ..

theorem thermEvt_addr (l : Nat) : (thermEvt l).addr = Reg.THERM_EVT ∧ (thermEvt l).lo < 4 ∧ (thermEvt l).w = 1 := by
  unfold thermEvt
  repeat' split
  all_goals decide

/-- A change of the level sets no field of another register. -/
theorem levelChanged_get_ne (s : State) (ts : List Int) {g : Fld} (hg : fldKey g < Reg.THERM_EVT * 64) :
    (levelChanged s ts).get g = (tempTaken s ts).get g := by
  rw [levelChanged_get, State.raise, State.get_put_ne]
  have := (thermEvt_addr (thermLevel s (hottest ts))).1
  simp only [fldKey] at *
  omega

theorem levelChanged_evt (s : State) (ts : List Int) : (levelChanged s ts).isSet (thermEvt (thermLevel s (hottest ts))) = true := by
  rw [State.isSet, levelChanged_get, State.raise, State.get_put_same, (thermEvt_addr _).2.2]
  rfl

/-- What a sample shows in THERM_STATUS: the highest temperature, a sensor that has it, and the level. -/
structure ShowsHeat (s : State) (ts : List Int) (u : State) : Prop where
  sensor_lt : u.get Fld.THERM_STATUS_SENSOR < 16
  sensor : ts.getD (u.get Fld.THERM_STATUS_SENSOR) 0 = hottest ts
  tmax : u.get Fld.THERM_STATUS_TMAX_C = (BitVec.ofInt 8 (hottest ts)).toNat
  level : u.get Fld.THERM_STATUS_LEVEL = thermLevel s (hottest ts)
  devState : u.devState = s.devState

theorem showsHeat_tempTaken (s : State) {ts : List Int} (h : ts.length = 16) : ShowsHeat s ts (tempTaken s ts) := by
  have hs := tempTaken_sensor s h
  obtain ⟨hlt, hm⟩ := mem_hotSensors.mp (hotPick_mem s h)
  exact ⟨hs ▸ hlt, hs ▸ hm, tempTaken_tmax s ts, tempTaken_level s ts, tempTaken_get_ne s ts (by decide) (by decide) (by decide)⟩

theorem showsHeat_levelChanged (s : State) {ts : List Int} (h : ts.length = 16) : ShowsHeat s ts (levelChanged s ts) := by
  obtain ⟨hlt, hm, ht, hl, hd⟩ := showsHeat_tempTaken s h
  have hs := levelChanged_get_ne s ts (g := Fld.THERM_STATUS_SENSOR) (by decide)
  exact ⟨hs ▸ hlt, hs ▸ hm, (levelChanged_get_ne s ts (by decide)).trans ht, (levelChanged_get_ne s ts (by decide)).trans hl,
    (levelChanged_get_ne s ts (by decide)).trans hd⟩

/-! ### The statement's clauses -/

theorem supplyWarn_clause {s t w : State} {n : Fin 10} {mv : Half} {ts : Word} {lvl : Nat} (hlvl : lvl = monLevel s n mv.toNat) :
    (s.get (Fld.MON0_WARN_MV n) ≤ lvl → DoesThen (.supplyWarn n ⟨mv, []⟩ ts) s s) ∧
    (lvl < s.get (Fld.MON0_WARN_MV n) →
      t = thLog { ((monTake s n lvl).raise (Fld.MON1_BELOW n)).raise Fld.SUPPLY_EVT_WARN with recovered := false }
        0xFE 0x0300 (leBytes 1 n ++ leBytes 2 lvl) →
      w = (if s.dip.isNone then { t with dip := some ⟨s.tick, n, lvl, min ts.toNat s.now⟩ } else t) →
      w.get (Fld.MON1_BELOW n) = 1 ∧ w.isSet Fld.SUPPLY_EVT_WARN = true ∧ w.get (Fld.MON1_NOW_MV n) = lvl % 2 ^ 16 ∧
      w.recovered = false ∧ w.dip.isSome = true ∧ w.devState = s.devState ∧
      ((s.devState = devReady ∨ s.devState = devRun) → haltDue s = false → DoesThen (.supplyWarn n ⟨mv, []⟩ ts) s
        (braceEnter (setDev (w.bumpSat Fld.DEV_STATE_BRACE_COUNT 1) devBrace))) ∧
      (s.devState ≠ devReady → s.devState ≠ devRun → DoesThen (.supplyWarn n ⟨mv, []⟩ ts) s w) ∧
      (haltDue s = true → DoesThen (.supplyWarn n ⟨mv, []⟩ ts) s w)) := by
  have hdoes := doesThen_supplyWarn s n mv ts
  subst hlvl
  refine ⟨fun hle => ?noWarning, fun hlt ht hw => ?warning⟩
  case noWarning => rwa [monWarn_of_le _ hle] at hdoes
  case warning =>
    obtain rfl : w = dipped s n (monLevel s n mv.toNat) ts.toNat := by rw [hw, ht]; rfl
    rw [monWarn_of_lt _ hlt] at hdoes
    refine ⟨dipped_below .., dipped_warn .., dipped_now .., dipped_recovered .., dipped_dip .., dipped_devState .., fun hst hh => ?_,
      fun hr hn => ?_, fun hh => ?_⟩
    · rwa [if_pos ⟨hst, hh⟩] at hdoes
    · rwa [if_neg fun h => h.1.elim hr hn] at hdoes
    · rwa [if_neg fun h => by simp [hh] at h] at hdoes

theorem supplyRecover_clause {s : State} {levels : List Half} {low : Half} {up : Nat → Bool}
    (hup : up = fun k => decide (s.get (Fld.MON0_WARN_MV k) + s.get (Fld.MON0_HYST_MV k) < monLevel s k ((levels.map (·.toNat)).getD k 0))) :
    (anyBelow s = false → DoesThen (.supplyRecover levels low) s s) ∧
    (anyBelow s = true → ∃ u, DoesThen (.supplyRecover levels low) s u ∧ u.devState = s.devState ∧
      (∀ k < 10, u.get (Fld.MON1_NOW_MV k) = monLevel s k ((levels.map (·.toNat)).getD k 0) % 2 ^ 16 ∧
        (up k = true → u.isSet (Fld.MON1_BELOW k) = false) ∧ (up k = false → u.isSet (Fld.MON1_BELOW k) = s.isSet (Fld.MON1_BELOW k))) ∧
      ((∀ k < 10, up k = true) → s.devState = devBrace → u.recovered = true ∧ u.dip.isSome = s.dip.isSome) ∧
      ((∀ k < 10, up k = true) → s.devState ≠ devBrace → u.dip = none ∧ (s.dip.isSome = true → u.isSet Fld.SUPPLY_EVT_RECOVER = true)) ∧
      ((∃ k < 10, up k = false) → u.recovered = s.recovered ∧ u.dip.isSome = s.dip.isSome)) := by
  obtain rfl : up = risen s (levels.map (·.toNat)) := hup
  have hdoes := doesThen_supplyRecover s levels low
  have hm := measured_measured s (levels.map (·.toNat)) low.toNat
  refine ⟨fun hno => ?none, fun hany => ⟨_, hdoes, supplyRecover_devState _ _ hany,
    fun k hk => ⟨supplyRecover_now _ _ hany hk, fun hr => ?risen, fun hr => ?low⟩, fun hall hst => ?brace, fun hall hst => ?ends, fun hlow => ?goesOn⟩⟩
  case none => rwa [supplyRecover_of_not _ _ hno] at hdoes
  case risen => rw [State.isSet, supplyRecover_below _ _ hany hk, hr]; rfl
  case low => rw [State.isSet, supplyRecover_below _ _ hany hk, hr]; rfl
  case brace =>
    rw [supplyRecover_of_brace _ _ hany hall hst]
    exact ⟨rfl, hm.dip⟩
  case ends =>
    rw [supplyRecover_of_all _ _ hany hall hst]
    exact ⟨dipEnd_dip _, fun hd => dipEnd_recover (hm.dip.trans hd)⟩
  case goesOn =>
    rw [supplyRecover_of_low _ _ hany hlow]
    exact ⟨hm.recovered, hm.dip⟩

theorem thermalSample_clause {s : State} {temps : List Byte} {deg : List Int} {m : Int} {l : Nat}
    (hdeg : deg = (List.range 16).map (fun i => (temps.map (·.toInt)).getD i 0)) (hm : m = deg.foldl max (deg.getD 0 0))
    (hl : l = thermLevel s m) :
    ∃ u, u.get Fld.THERM_STATUS_SENSOR < 16 ∧ deg.getD (u.get Fld.THERM_STATUS_SENSOR) 0 = m ∧
      u.get Fld.THERM_STATUS_TMAX_C = (BitVec.ofInt 8 m).toNat ∧ u.get Fld.THERM_STATUS_LEVEL = l ∧ u.devState = s.devState ∧
      (l = s.get Fld.THERM_STATUS_LEVEL → DoesThen (.thermalSample temps) s u ∧ u.get Fld.THERM_EVT_WARN = s.get Fld.THERM_EVT_WARN ∧
        u.get Fld.THERM_EVT_CRIT = s.get Fld.THERM_EVT_CRIT) ∧
      (l ≠ s.get Fld.THERM_STATUS_LEVEL →
        u.isSet (if l = 1 then Fld.THERM_EVT_WARN else if l = 2 then Fld.THERM_EVT_THROTTLE else if l = 3 then Fld.THERM_EVT_CRIT
          else Fld.THERM_EVT_NORMAL) = true ∧
        DoesThen (.thermalSample temps) s (placeSettle (if l = 3 then errorPin u pinToll 0x10 else u))) := by
  have hdoes := doesThen_thermalSample s temps
  have hlen : deg.length = 16 := by simp [hdeg]
  obtain rfl : m = hottest deg := hm
  rw [thermalSample_eq, show degrees (temps.map (·.toInt)) = deg from hdeg.symm, ← hl] at hdoes
  by_cases hsame : l = s.get Fld.THERM_STATUS_LEVEL
  · rw [if_pos hsame] at hdoes
    obtain ⟨hlt, hs, ht, hv, hd⟩ := showsHeat_tempTaken s hlen
    exact ⟨tempTaken s deg, hlt, hs, ht, hv.trans hl.symm, hd, fun _ => ⟨hdoes, tempTaken_get_ne s deg (by decide) (by decide) (by decide),
      tempTaken_get_ne s deg (by decide) (by decide) (by decide)⟩, fun hne => absurd hsame hne⟩
  · rw [if_neg hsame] at hdoes
    obtain ⟨hlt, hs, ht, hv, hd⟩ := showsHeat_levelChanged s hlen
    exact ⟨levelChanged s deg, hlt, hs, ht, hv.trans hl.symm, hd, fun he => absurd he hsame,
      fun _ => ⟨hl ▸ levelChanged_evt s deg, hdoes⟩⟩

/-- Settles O23: each command's effect is one of the equations above, and what it does not write it leaves. -/
theorem supplyTemperatureState : Obligations.SupplyTemperatureState :=
  ⟨deviceStateChange, fun _ _ _ _ _ _ _ _ _ _ _ _ _ _ => ⟨supplyWarn_clause, supplyRecover_clause, thermalSample_clause⟩⟩

end Sys2Proof.Machine
end

section
/-!
PROOF. The end of self-test (R359, R360): a state in which the failed step is overwritten.
-/
namespace Sys2Proof.Machine

/-! ### What the end of self-test does to ST_SUMMARY -/

/-- A change of the device's state leaves the registers above DEV_STATE_TICK and below the interrupt controller's groups. -/
theorem setDev_get_of_lt (s : State) (st : Nat) {g : Fld} (hlow : Reg.DEV_STATE_TICK * 64 < fldKey g) (hg : fldKey g < 0x2006100 * 64) :
    (setDev s st).get g = s.get g := by
  by_cases h : s.devState = st
  · rw [setDev, if_pos h]
  · rw [setDev_get h hg, devMoved, State.get_put_ne, State.get_put_ne, State.get_put_ne]
    all_goals
      simp only [fldKey, Fld.DEV_STATE_PREV_STATE, Fld.DEV_STATE_STATE, Fld.DEV_STATE_TICK_ENTRY_TICK, Reg.DEV_STATE, Reg.DEV_STATE_TICK] at *
      omega

@[simp] theorem testLog_get (s : State) (g : Fld) : (testLog s).get g = s.get g := by simp [testLog]

@[simp] theorem trialDone_get (s : State) (g : Fld) : (trialDone s).get g = s.get g := by
  unfold trialDone
  split
  · rfl
  · dsimp only
    split <;> simp

theorem State.get_ite (p : Prop) [Decidable p] (s t : State) (g : Fld) : (if p then s else t).get g = if p then s.get g else t.get g :=
  apply_ite (fun u => u.get g) p s t

/-- An update of the towpath's registers leaves the failed step alone. -/
theorem tpUpdate_failStep (s : State) : (tpUpdate s).get Fld.ST_SUMMARY_FAIL_STEP = s.get Fld.ST_SUMMARY_FAIL_STEP := by
  unfold tpUpdate
  extract_lets pos moved m sized old mk port
  have hsized : sized.get Fld.ST_SUMMARY_FAIL_STEP = s.get Fld.ST_SUMMARY_FAIL_STEP := by
    subst sized moved
    simp (disch := decide) only [State.raise, State.get_put_ne, State.get_ite, ite_self]
  rw [← hsized]
  split
  extract_lets named changed active near eq ticks
  have hactive : active.get Fld.ST_SUMMARY_FAIL_STEP = sized.get Fld.ST_SUMMARY_FAIL_STEP := by
    subst active changed named
    simp (disch := decide) only [State.raise, State.putB, State.get_put_ne, State.get_ite, ite_self]
    rfl
  rw [State.putB, State.get_put_ne _ _ (by decide), ← hactive]
  subst ticks
  simp (disch := decide) only [State.raise, State.get_put_ne, State.get_ite, ite_self]

/-- The step and its detail are noted. -/
def failNoted (s : State) (step detail : Nat) : State :=
  ((s.put Fld.ST_SUMMARY_FAIL_STEP step).put Fld.ST_SUMMARY_FAIL_CODE (step * 2 ^ 12 + detail)).modToll
    (fun t => { t with blink := 0, rom := t.rom && step == 1 })

/-- Every drive that is there is lost and ABSENT. -/
def drivesLeave (s : State) : State :=
  (List.finRange 4).foldl (fun s (n : Fin 4) =>
    if drvState s n = drvAbsent then s
    else ((drvWidth (drvPerst (driveLost s n) n true) n 0).put (Fld.DRIVE_STATE_STATE n) drvAbsent).put (Fld.DRIVE_CAP_SEGMENTS n) 0) s

theorem drydockEnter_failStep (s : State) (step detail : Nat) :
    (drydockEnter s step detail).get Fld.ST_SUMMARY_FAIL_STEP = (drivesLeave (failNoted s step detail)).get Fld.ST_SUMMARY_FAIL_STEP := by
  have hset : ∀ t, (setDev t devDrydock).get Fld.ST_SUMMARY_FAIL_STEP = t.get Fld.ST_SUMMARY_FAIL_STEP :=
    fun t => setDev_get_of_lt t devDrydock (by decide) (by decide)
  unfold drydockEnter
  dsimp only
  simp only [State.get_ite, trialDone_get, State.emit_get, hset, testLog_get, ite_self]
  rfl

/-! ### A span of no stream -/

/-- A bad span that names stream 1600. No such stream exists, but the statement speaks of every state: its MIRROR_SHORT field
has the place of ST_SUMMARY.FAIL_STEP. -/
def straySpan : Span :=
  { id := 0, stream := 1600, no := 0, gap := false, splitS := false, splitE := false, first := 0, last := 0, recs := [],
    pol := ⟨0, 0, 0, 0, 0, 0, 0, 0, 0, 0, 0, 0, 0, 0, 0, 0⟩, drop := none, stored := none, placed := true, again := 1, drives := [3],
    done := [], bad := true }

/-- The state after reset with a drive in its first slot and the span of no stream. -/
def strayState : State :=
  { State.reset.put (Fld.DRIVE_STATE_STATE 0) 1 with place := { State.reset.place with spans := [straySpan] } }

/-- A self-test whose step 2 fails. -/
def failedTest : SelfTest := ⟨2, 0, 0, [], false, 16, 0, [], 0, 0xFF, []⟩

/-- A test that fails at a later step than the ROM's repairs what it found and leads to DRYDOCK. -/
theorem selftestComplete_of_fails {s : State} {t : SelfTest} {k d : Nat}
    (h : ¬ (s.devState ≠ devSelftest ∨ s.toll.start ≠ .none ∨ s.toll.testMode ∨ anyBelow s)) (hf : testFails s t = some (k, d)) (hk : k ≠ 1) :
    selftestComplete s t = tpUpdate (drydockEnter ((testRepairs s t).put Fld.ST_SUMMARY_DURATION_MS t.ms.toNat) k d) := by
  unfold selftestComplete
  rw [if_neg h, hf]
  split
  case h_1 heq => exact absurd (Prod.mk.inj (Option.some.inj heq)).1 hk
  case h_2 k' d' _ heq =>
    obtain ⟨rfl, rfl⟩ := Prod.mk.inj (Option.some.inj heq)
    rfl
  case h_3 heq => cases heq

theorem selftestComplete_stray : selftestComplete strayState failedTest =
    tpUpdate (drydockEnter ((testRepairs strayState failedTest).put Fld.ST_SUMMARY_DURATION_MS 0) 2 0) :=
  selftestComplete_of_fails (by decide +kernel) rfl (by decide)

theorem drivesLeave_stray :
    (drivesLeave (failNoted ((testRepairs strayState failedTest).put Fld.ST_SUMMARY_DURATION_MS 0) 2 0)).get Fld.ST_SUMMARY_FAIL_STEP = 1 := by
  decide +kernel

theorem selftestComplete_stray_failStep : (selftestComplete strayState failedTest).get Fld.ST_SUMMARY_FAIL_STEP = 1 := by
  rw [selftestComplete_stray, tpUpdate_failStep, drydockEnter_failStep, drivesLeave_stray]

/-- Refutes O21: the drives leave before DRYDOCK once the failed step is noted, and the loss of a span that names stream 1600 sets that
stream's MIRROR_SHORT, whose place is FAIL_STEP's: step 2 fails and FAIL_STEP reads 1. -/
theorem not_resetsAndSelfTest : ¬ Obligations.ResetsAndSelfTest := by
  unfold Obligations.ResetsAndSelfTest
  rintro ⟨-, h⟩
  obtain ⟨u, hu, -, hstep, -⟩ := ((h strayState failedTest).2 (by decide +kernel) rfl rfl (by decide +kernel)).1 rfl rfl
  have hsettle : settle (selftestComplete strayState failedTest) = settle u := by injection hu
  have hget := congrArg (fun t => t.get Fld.ST_SUMMARY_FAIL_STEP) hsettle
  simp only [settle_get _ Fld.ST_SUMMARY_FAIL_STEP (by decide) (by decide)] at hget
  rw [selftestComplete_stray_failStep, hstep] at hget
  exact absurd hget (by decide)

end Sys2Proof.Machine
end

section
/-!
PROOF. A step and the command at the front of the queue (R30).
-/
namespace Sys2Proof.Machine

/-- With TRIM 0 and nothing accumulated, a cycle of TBCLK before the next edge passes 1 ns (R30). -/
theorem tbclk_of_untrimmed {s : State} (htrim : s.get Fld.TB_TRIM_TRIM = 0) (hacc : s.tb.acc = 0) (hedge : s.now < nextGrid s) :
    ∃ acc, tbclk s = (s.pass 1).modTb (fun t => { t with acc := acc }) := by
  unfold tbclk
  rw [if_neg (Nat.not_le.mpr hedge), htrim, hacc]
  exact ⟨_, rfl⟩

/-- Time that passes short of the wrap changes TIME_NS alone. -/
theorem State.pass_of_lt {s : State} {n : Nat} (h : s.now + n < 2 ^ 64) : s.pass n = s.put Fld.TIME_NS_TIME_NS (s.now + n) := by
  unfold State.pass
  dsimp only
  rw [if_pos h]

/-- Settles O53: the step takes the front command, and with none waiting it is a cycle of TBCLK. -/
theorem stepRunsFront : Obligations.StepRunsFront := by
  refine ⟨fun s c rest h => ?_, fun s h => ?_, fun s h htrim hacc hedge hwrap => ?_⟩
  · rw [step, h]
  · rw [step, h]
  · obtain ⟨acc, hclk⟩ := tbclk_of_untrimmed htrim hacc hedge
    rw [State.pass_of_lt hwrap] at hclk
    refine ⟨_, by rw [step, h], ?_⟩
    rw [hclk]
    have hnow : (s.put Fld.TIME_NS_TIME_NS (s.now + 1)).now = s.now + 1 := State.get_put_of_lt s hwrap
    exact ⟨hnow, State.get_put_ne s _ (by decide), rfl, rfl⟩

end Sys2Proof.Machine
end


section
/-!
PROOF. What the keeper's system instructions do (R45, R142, R143, R158, R163).
-/
namespace Sys2Proof.Machine

section
variable {s : State} {c : Fin 56} {t : Fin 8} {i : KInstr} {h0 h1 : Half}

theorem kLen_of_issues (h : Issues s c t i h0 h1) : kLen h0 = i.len := by
  obtain ⟨-, -, -, hdec⟩ := h
  exact kLen_of hdec

/-- An instruction that R141 forbids under REP issues outside a REP alone. -/
theorem rep_of_issues (h : Issues s c t i h0 h1) (hf : repForbidden i = true) : (s.th c t).rep = none := by
  obtain ⟨hmay, -, hat, hdec⟩ := h
  simp only [mayIssue, repForbids, hat, hdec, hf, Bool.and_true, Bool.and_eq_true, Bool.not_eq_true', Option.isSome_eq_false_iff,
    Option.isNone_iff_eq_none] at hmay
  exact hmay.2

/-- What differs from an update of the thread in that thread alone differs in it alone. -/
theorem onlyThread_of_modTh {f : Thread → Thread} {out : Host.Outcome State Fault Refusal} {P : Thread → Prop}
    (h : OnlyThread (s.modTh c t f) c t out P) : OnlyThread s c t out P := by
  obtain ⟨u, th', hout, hP, hu⟩ := h
  rw [State.modTh_modTh] at hu
  exact ⟨u, th', hout, hP, hu⟩

theorem onlyThread_mono {out : Host.Outcome State Fault Refusal} {P Q : Thread → Prop} (h : OnlyThread s c t out P)
    (hPQ : ∀ th', P th' → Q th') : OnlyThread s c t out Q := by
  obtain ⟨u, th', hout, hP, hu⟩ := h
  exact ⟨u, th', hout, hPQ th' hP, hu⟩

/-! ### SYS and BRK (R158) -/

/-- An instruction that issues as a trap of two cycles past itself takes that trap. -/
theorem takesTrap_of_kIssue {cause : Nat} (h : Issues s c t i h0 h1) (hlen : i.len = 1) (hinh : (s.th c t).inh = false)
    (hi : kIssue s c t i h0 h1 = syncTrap s c t cause 2 ((s.th c t).pc + BitVec.ofNat 16 (kLen h0)) (xinsOf h0 h1) none) :
    TakesTrap s c t (done (kIssues s c t i)) cause 2 ((s.th c t).pc + 1) (fun th' => th'.xins = xinsOf h0 h1) := by
  rw [kLen_of_issues h, hlen] at hi
  rw [kStep_issue h, hi]
  exact takes_mono (fun _ hx => hx.1) (syncTrap_takes cause 2 _ _ none hinh)

/-! ### YIELD (R45) -/

/-- A thread that gives up the rest of its tick. -/
def Thread.gaveUp (th : Thread) : Thread := { th with st := .yielded, yielded := true }

/-- Outside a REP, what falls through from a thread that has given up its tick is YIELDED, and else falls through as the thread would. -/
theorem yields_of_fallsKeeping {th th' : Thread} {len cyc : Nat} (hrep : th.rep = none) (h : FallsKeeping th.gaveUp th' len cyc []) :
    th'.st = .yielded ∧ th'.yielded = true ∧ FallsKeeping th { th' with st := th.st, yielded := th.yielded } len cyc [] := by
  obtain ⟨hused, hfalls, hregs, hsys, -, hrests⟩ := h
  obtain ⟨hst, hyld⟩ := hrests (.inl fun n hn => absurd (hrep.symm.trans hn) (by simp))
  refine ⟨hst, congrArg Thread.yielded hsys, hused, hfalls, hregs, ?_, fun ⟨n, hn, _⟩ => absurd (hrep.symm.trans hn) (by simp), fun _ => ⟨rfl, hyld⟩⟩
  exact congrArg (fun x : Thread => { x with st := th.st, yielded := th.yielded }) hsys

theorem kStep_yield (h : Issues s c t .yield h0 h1) : OnlyThread s c t (done (kIssues s c t .yield)) (fun th' =>
    th'.st = .yielded ∧ th'.yielded = true ∧ FallsKeeping (s.th c t) { th' with st := (s.th c t).st, yielded := (s.th c t).yielded } 1 1 []) := by
  have hafter := kStep_after (s1 := s.modTh c t Thread.gaveUp) h (by simp) (by simp) (by simp) rfl
  rw [AfterWrite, State.th_modTh, kLen_of_issues h] at hafter
  exact onlyThread_mono (onlyThread_of_modTh hafter) (fun _ => yields_of_fallsKeeping (rep_of_issues h rfl))

/-! ### IFLUSH (R142, R154) -/

/-- The target buffer with every line read anew. -/
def Thread.refilled (k : Keeper) (th : Thread) : Thread :=
  { th with tb := th.tb.map (fun e => (e.1, { e.2 with line := readLine k e.2.line.num })) }

/-- IFLUSH reads the target buffer's lines and goes on as a branch to the next instruction does. -/
theorem kIssue_iflush (h : Issues s c t .iflush h0 h1) : kIssue s c t .iflush h0 h1 =
    ((charge (s.modTh c t (Thread.refilled (s.kp c))) c t 4).modTh c t Thread.ageLoads).modTh c t
      (fun th => jumpTo (s.kp c) th ((s.th c t).pc + 1)) := by
  have heffect : kEffect s c t (kLen h0) .iflush = .next (s.modTh c t (Thread.refilled (s.kp c))) := rfl
  unfold kIssue
  simp only [heffect, Bool.false_and, Bool.false_eq_true, if_false, State.modTh_kp, charge_kp]
  rw [kLen_of_issues h]
  rfl

theorem refilled_of_systemKept {k : Keeper} {th th' : Thread} (h : SystemKept (th.refilled k) th') :
    th'.tb = (th.refilled k).tb ∧ SystemKept th { th' with tb := th.tb } := by
  unfold SystemKept at *
  exact ⟨by rw [h], congrArg (fun x : Thread => { x with tb := th.tb }) h⟩

theorem kStep_iflush (h : Issues s c t .iflush h0 h1) : OnlyThread s c t (done (kIssues s c t .iflush)) (fun th' =>
    th'.pc = (s.th c t).pc + 1 ∧ th'.cur = some (readLine (s.kp c) (th'.pc.toNat / 16)) ∧
    th'.tb = ((s.th c t).refilled (s.kp c)).tb ∧ th'.used = (s.th c t).used + 4 ∧ RegsKept (s.th c t) th' [] ∧
    SystemKept (s.th c t) { th' with tb := (s.th c t).tb }) := by
  have hu := charged_only (s.modTh c t (Thread.refilled (s.kp c))) c t 4 Thread.ageLoads (fun th => jumpTo (s.kp c) th ((s.th c t).pc + 1))
  rw [← kIssue_iflush h, State.th_modTh, ← kStep_issue h] at hu
  refine onlyThread_of_modTh ⟨_, _, rfl, ?_, hu⟩
  obtain ⟨hpc, -, hused, hregs, hsys⟩ := branchKeeping (th := (s.th c t).refilled (s.kp c)) (ws := []) (cyc := 4) rfl rfl (fun _ hl => hl)
    ⟨fun _ _ _ => rfl, fun _ _ _ => rfl, fun _ _ _ => rfl⟩ rfl (jumpTo_eq (s.kp c) _ ((s.th c t).pc + 1))
  obtain ⟨htb, hkept⟩ := refilled_of_systemKept hsys
  exact ⟨hpc, rfl, htb, hused, hregs, hkept⟩

/-! ### WAITEV (R163) -/

/-- A thread that waits for the events of a mask. -/
def Thread.waitingFor (mask : Byte) (th : Thread) : Thread := { th with st := .waitev, waitMask := mask }

theorem waitingFor_of_systemKept {mask : Byte} {th th' : Thread} (h : SystemKept (th.waitingFor mask) th') :
    th'.st = .waitev ∧ th'.waitMask = mask ∧ SystemKept th { th' with st := th.st, waitMask := th.waitMask } := by
  unfold SystemKept at *
  exact ⟨by rw [h]; rfl, by rw [h]; rfl, congrArg (fun x : Thread => { x with st := th.st, waitMask := th.waitMask }) h⟩

theorem kStep_waitev_goesOn {mask : Byte} (h : Issues s c t (.waitev mask) h0 h1) (he : eventBits s c t &&& mask ≠ 0) :
    OnlyThread s c t (done (kIssues s c t (.waitev mask))) (fun th' => FallsKeeping (s.th c t) th' 1 1 []) := by
  have heffect : kEffect s c t (kLen h0) (.waitev mask) = .next s := by
    simp only [kEffect, bne_iff_ne.mpr he, if_true]
  have hafter := kStep_after h (by simp) (by simp) (by simp) heffect
  rwa [AfterWrite, kLen_of_issues h] at hafter

theorem kStep_waitev_waits {mask : Byte} (h : Issues s c t (.waitev mask) h0 h1) (he : eventBits s c t &&& mask = 0) :
    OnlyThread s c t (done (kIssues s c t (.waitev mask))) (fun th' => th'.st = .waitev ∧ th'.waitMask = mask ∧ th'.pc = (s.th c t).pc + 1 ∧
      th'.used = (s.th c t).used + 1 ∧ RegsKept (s.th c t) th' [] ∧
      SystemKept (s.th c t) { th' with st := (s.th c t).st, waitMask := (s.th c t).waitMask }) := by
  have heffect : kEffect s c t (kLen h0) (.waitev mask) = .wait (s.modTh c t (Thread.waitingFor mask)) := by
    simp only [kEffect, he, bne_self_eq_false, Bool.false_eq_true, if_false]
    rfl
  refine onlyThread_mono (onlyThread_of_modTh (kStep_wait h (by simp) (by simp) heffect)) ?_
  rintro _ rfl
  rw [kLen_of_issues h, State.th_modTh]
  obtain ⟨hpc, -, hused, hregs, hsys⟩ := branchKeeping (th := (s.th c t).waitingFor mask) (ws := []) (cyc := 1) rfl rfl (fun _ hl => hl)
    ⟨fun _ _ _ => rfl, fun _ _ _ => rfl, fun _ _ _ => rfl⟩ rfl (advancePc_eq ((s.modTh c t (Thread.waitingFor mask)).kp c) _ ((s.th c t).pc + 1))
  obtain ⟨hst, hmask, hkept⟩ := waitingFor_of_systemKept hsys
  exact ⟨hst, hmask, hpc, hused, hregs, hkept⟩

end

/-- Settles O13, instruction by instruction. -/
theorem systemInstructions : Obligations.SystemInstructions := by
  intro s c t u imm mask h0 h1
  refine ⟨fun h => ?nop, kStep_yield, kStep_iflush, fun h hinh => takesTrap_of_kIssue h rfl hinh rfl,
    fun h hinh => takesTrap_of_kIssue h rfl hinh rfl, kStep_waitev_goesOn, kStep_waitev_waits, fun h => ?signal⟩
  case nop =>
    have hafter := kStep_after h (by simp) (by simp) (by simp) rfl
    rwa [AfterWrite, kLen_of_issues h] at hafter
  case signal =>
    have hafter := kStep_after h (by simp) (by simp) (by simp) rfl
    rwa [kLen_of_issues h] at hafter

end Sys2Proof.Machine
end

section
/-!
PROOF. Edges of PPS_IN, holdover and PPS_OUT (R46, R47, R422).
-/
namespace Sys2Proof.Machine

/-- A flag reads as set once it has been raised. -/
theorem State.isSet_raise (s : State) {f : Fld} (hw : 0 < f.w) : (s.raise f).isSet f = true := by
  rw [State.isSet_eq, State.raise_eq, State.get_put_of_lt s (Nat.one_lt_two_pow hw.ne')]
  rfl

/-- A write of another field leaves a flag as it was. -/
theorem State.isSet_put_ne (s : State) {f g : Fld} (v : Nat) (h : fldKey g ≠ fldKey f) : (s.put f v).isSet g = s.isSet g := by
  rw [State.isSet_eq, State.get_put_ne s v h, State.isSet_eq]

/-! ### PPS_IN (R46) -/

/-- What PPS_IN is ahead of the nearest whole second of TIME_NS, as the servo measures it. -/
def ppsOffset (s : State) : Int :=
  if s.now % 1000000000 < 500000000 then ((s.now % 1000000000 : Nat) : Int) else ((s.now % 1000000000 : Nat) : Int) - 1000000000

/-- The distance of an edge from the last accepted one, TIME_NS being a 64-bit count. -/
def ppsGap (s : State) (p : Nat) : Nat := (BitVec.ofNat 64 s.now - BitVec.ofNat 64 p).toInt.natAbs

/-- A gap that R46 accepts: of more than 2 s, or within 1 ms of one second. -/
def ppsGapOk (gap : Nat) : Prop := 2000000000 < gap ∨ (999000000 ≤ gap ∧ gap ≤ 1001000000)

theorem ppsGapOk_iff (gap : Nat) :
    (decide (2000000000 < gap) || decide (((gap : Int) - 1000000000).natAbs ≤ 1000000)) = true ↔ ppsGapOk gap := by
  simp only [Bool.or_eq_true, decide_eq_true_eq, ppsGapOk]
  omega

theorem ppsIn_of_accepted {s : State} (h : s.tb.pps = none ∨ ∃ p, s.tb.pps = some p ∧ ppsGapOk (ppsGap s p)) :
    ppsIn s = servoMeasure (s.modTb (fun t => { t with pps := some s.now })) 1 (ppsOffset s) := by
  unfold ppsIn
  rcases h with h | ⟨p, h, hok⟩
  · rw [h]
    rfl
  · dsimp only
    rw [h]
    exact if_pos ((ppsGapOk_iff _).mpr hok)

theorem ppsIn_of_rejected {s : State} {p : Nat} (h : s.tb.pps = some p) (hbad : ¬ ppsGapOk (ppsGap s p)) :
    ppsIn s = s.raise Fld.TB_EVENTS_PPS_REJECT := by
  unfold ppsIn
  dsimp only
  rw [h]
  exact if_neg (fun hok => hbad ((ppsGapOk_iff _).mp hok))

/-- A measurement of a source that the servo does not use changes nothing. -/
theorem servoMeasure_of_not_taken {s : State} {src : Nat} (h : servoTakes s src = false) (off : Int) : servoMeasure s src off = s := by
  rw [servoMeasure, h]
  rfl

/-! ### Holdover (R47) -/

/-- TRIM at the mean of the last trims, if there are any. -/
def trimFrozen (s : State) : State :=
  if s.tb.trims.isEmpty then s else s.put Fld.TB_TRIM_TRIM (BitVec.ofInt 32 (s.tb.trims.sum / s.tb.trims.length)).toNat

/-- No source is active when the source was to be the best of those that answer. -/
def sourceDropped (s : State) : State := if s.get Fld.TB_CTRL_SRC = 4 then s.put Fld.TB_STATUS_ACTIVE_SRC 0 else s

theorem holdoverTimeout_of_following {s : State} (h : servoState s = servoAcquire ∨ servoState s = servoLocked) :
    holdoverTimeout s = ((sourceDropped (trimFrozen s)).put Fld.TB_STATUS_SERVO servoHoldover).raise Fld.TB_EVENTS_HOLDOVER := by
  unfold holdoverTimeout
  rw [if_pos h]
  rfl

theorem holdoverTimeout_of_idle {s : State} (h : servoState s = servoFree ∨ servoState s = servoHoldover) : holdoverTimeout s = s := by
  unfold holdoverTimeout
  refine if_neg ?_
  rcases h with h | h <;> rw [h] <;> decide

theorem trimFrozen_get (s : State) {g : Fld} (hg : fldKey g ≠ fldKey Fld.TB_TRIM_TRIM) : (trimFrozen s).get g = s.get g := by
  unfold trimFrozen
  split
  · rfl
  · exact State.get_put_ne s _ hg

theorem trimFrozen_tb (s : State) : (trimFrozen s).tb = s.tb := by
  unfold trimFrozen
  split <;> rfl

theorem trimFrozen_trim (s : State) (h : s.tb.trims ≠ []) :
    (trimFrozen s).get Fld.TB_TRIM_TRIM = (BitVec.ofInt 32 (s.tb.trims.sum / s.tb.trims.length)).toNat := by
  unfold trimFrozen
  rw [if_neg (by simpa using h)]
  exact State.get_put_of_lt s (BitVec.isLt _)

theorem trimFrozen_of_no_trims {s : State} (h : s.tb.trims = []) : trimFrozen s = s := by
  unfold trimFrozen
  rw [h]
  rfl

theorem sourceDropped_get (s : State) {g : Fld} (hg : fldKey g ≠ fldKey Fld.TB_STATUS_ACTIVE_SRC) : (sourceDropped s).get g = s.get g := by
  unfold sourceDropped
  split
  · exact State.get_put_ne s _ hg
  · rfl

theorem sourceDropped_tb (s : State) : (sourceDropped s).tb = s.tb := by
  unfold sourceDropped
  split <;> rfl

theorem sourceDropped_active (s : State) :
    (sourceDropped s).get Fld.TB_STATUS_ACTIVE_SRC = if s.get Fld.TB_CTRL_SRC = 4 then 0 else s.get Fld.TB_STATUS_ACTIVE_SRC := by
  unfold sourceDropped
  split
  · exact State.get_put_same s _ _
  · rfl

/-- What a timeout leaves of any field but the servo's state and its event. -/
theorem holdoverTimeout_get {s : State} (h : servoState s = servoAcquire ∨ servoState s = servoLocked) {g : Fld}
    (hservo : fldKey g ≠ fldKey Fld.TB_STATUS_SERVO) (hevent : fldKey g ≠ fldKey Fld.TB_EVENTS_HOLDOVER) :
    (holdoverTimeout s).get g = (sourceDropped (trimFrozen s)).get g := by
  rw [holdoverTimeout_of_following h, State.get_raise_ne _ _ _ hevent, State.get_put_ne _ _ hservo]

theorem doesSome_holdoverTimeout {s : State} (h : servoState s = servoAcquire ∨ servoState s = servoLocked) :
    DoesSome .holdoverTimeout s (fun u => servoState u = servoHoldover ∧
      u.isSet Fld.TB_EVENTS_HOLDOVER = true ∧ u.tb = s.tb ∧ u.now = s.now ∧
      u.get Fld.TB_STATUS_ACTIVE_SRC = (if s.get Fld.TB_CTRL_SRC = 4 then 0 else s.get Fld.TB_STATUS_ACTIVE_SRC) ∧
      (s.tb.trims = [] → u.get Fld.TB_TRIM_TRIM = s.get Fld.TB_TRIM_TRIM) ∧
      (s.tb.trims ≠ [] → u.get Fld.TB_TRIM_TRIM = (BitVec.ofInt 32 (s.tb.trims.sum / s.tb.trims.length)).toNat)) := by
  have htrim : (holdoverTimeout s).get Fld.TB_TRIM_TRIM = (trimFrozen s).get Fld.TB_TRIM_TRIM := by
    rw [holdoverTimeout_get h (by decide) (by decide), sourceDropped_get _ (by decide)]
  refine ⟨holdoverTimeout s, rfl, ?servo, ?event, ?tb, ?now, ?active, fun hnone => ?_, fun hsome => ?_⟩
  case servo =>
    rw [servoState, holdoverTimeout_of_following h, State.get_raise_ne _ _ _ (by decide)]
    exact State.get_put_of_lt _ (by decide)
  case event =>
    rw [holdoverTimeout_of_following h]
    exact State.isSet_raise _ (by decide)
  case tb => rw [holdoverTimeout_of_following h, State.raise_eq, State.put_tb, State.put_tb, sourceDropped_tb, trimFrozen_tb]
  case now =>
    rw [State.now, holdoverTimeout_get h (by decide) (by decide), sourceDropped_get _ (by decide), trimFrozen_get _ (by decide), State.now]
  case active =>
    rw [holdoverTimeout_get h (by decide) (by decide), sourceDropped_active, trimFrozen_get _ (by decide), trimFrozen_get _ (by decide)]
  · rw [htrim, trimFrozen_of_no_trims hnone]
  · rw [htrim, trimFrozen_trim s hsome]

/-! ### PPS_OUT (R422) -/

theorem ppsRise_of_second {s : State} (hen : s.get Fld.TB_CTRL_PPS_OUT_EN = 1) (hlow : s.tb.ppsOut = false) (hsec : s.now % 1000000000 ≤ 1)
    (hready : devReady ≤ s.devState) : ppsRise s = (s.modTb (fun t => { t with ppsOut := true })).emit (.ppsOut true) := by
  unfold ppsRise
  rw [State.isSet_eq, hen, hlow, decide_eq_true hsec, decide_eq_true hready]
  rfl

theorem ppsRise_of_off {s : State} (h : s.get Fld.TB_CTRL_PPS_OUT_EN = 0 ∨ s.devState < devReady) : ppsRise s = s := by
  unfold ppsRise
  rcases h with h | h
  · rw [State.isSet_eq, h]
    rfl
  · rw [decide_eq_false (Nat.not_le.mpr h), Bool.and_false]
    rfl

theorem ppsFall_of_high {s : State} (h : s.tb.ppsOut = true) :
    ppsFall s = (s.modTb (fun t => { t with ppsOut := false })).emit (.ppsOut false) := if_pos h

/-- Settles O19: the three pins' commands, each by what its operation does in the case at hand. -/
theorem pulsePerSecond : Obligations.PulsePerSecond := by
  rintro s p _
  refine ⟨?_, doesSome_holdoverTimeout, fun h => congrArg done (holdoverTimeout_of_idle h),
    fun hen hlow hsec hready => congrArg done (ppsRise_of_second hen hlow hsec hready), fun h => congrArg done (ppsRise_of_off h),
    fun h => congrArg done (ppsFall_of_high h)⟩
  rintro rfl
  refine ⟨fun h => ?_, fun hp hbad hnear => ?_⟩
  · have hin := ppsIn_of_accepted (h.imp_right fun ⟨hp, hok⟩ => ⟨p, hp, hok⟩)
    refine ⟨congrArg done hin, fun hnot => ?_⟩
    have hunused : servoTakes (s.modTb (fun t => { t with pps := some s.now })) 1 = false := hnot
    exact congrArg done (hin.trans (servoMeasure_of_not_taken hunused _))
  · have hno : ¬ ppsGapOk (ppsGap s p) := by
      rw [ppsGapOk, not_or, not_and_or, not_lt, not_le, not_le]
      exact ⟨hnear, hbad⟩
    exact congrArg done (ppsIn_of_rejected hp hno)

end Sys2Proof.Machine
end

section
/-!
PROOF. Services of a keeper's tile: EOI, replies, publishing, the code store, the time (R31, R104, R161, R167, R168, R253, R427).
-/
namespace Sys2Proof.Machine

@[simp] theorem State.modSq_sq_same (s : State) (c : Fin 56) (f : Seq → Seq) : (s.modSq c f).sq c = f (s.sq c) := by
  simp [State.sq, State.modSq]

@[simp] theorem State.modKp_kp_same (s : State) (c : Fin 56) (f : Keeper → Keeper) : (s.modKp c f).kp c = f (s.kp c) := by
  simp [State.kp, State.modKp]

@[simp] theorem State.modTh_sq (s : State) (c : Fin 56) (t : Fin 8) (f : Thread → Thread) : (s.modTh c t f).sq c = s.sq c := by
  simp [State.sq, State.modTh]

@[simp] theorem State.modSq_th (s : State) (c : Fin 56) (f : Seq → Seq) (t : Fin 8) : (s.modSq c f).th c t = s.th c t := by
  simp [State.th, State.modSq]

/-! ### EOI (R323) -/

/-- An EOI of a target whose stack holds something pops it. -/
theorem icEoi_of_cons {s : State} {t : Nat} {x : Nat × Nat} {rest : List (Nat × Nat)} (h : stackOf s t = x :: rest) :
    icEoi s t = s.modIc (fun ic => { ic with stackTab := SMap.set [] ic.stackTab t rest }) := by
  simp only [icEoi, icPop, h, Bool.false_eq_true, if_false]

theorem icEoi_of_empty {s : State} {t : Nat} (h : stackOf s t = []) : icEoi s t = s.raise Fld.IC_EVT_EOI_EMPTY := by
  simp only [icEoi, icPop, h, if_true]

/-! ### Replies (R104, R167) -/

/-- The mailbox and MB_RESIDUAL after a reply. -/
def Thread.replied (th : Thread) : Thread := { th with mail := th.mail.map (fun m => { m with full := false, live := false }), mbRes := 0 }

/-- A status that CALL-KEEPER may not carry sets BAD_REPLY. -/
def replyNoted (s : State) (c : Fin 56) (v : Nat) : State := if replyOk v then s else s.raise (Fld.ROUTE_EVT_BAD_REPLY c)

/-- A reply to a live call gives its order the status and the residual. -/
theorem mbReply_of_call {s : State} {c : Fin 56} {t : Fin 8} {m : Mail} (v : Nat) (hm : (s.th c t).mail = some m) (hfull : m.full = true)
    (hlive : m.live = true) : mbReply s c t v =
      ((replyNoted s c v).orderResult c m.order (if replyOk v then v else St.busError) (s.th c t).mbRes.toNat).modTh c t Thread.replied := by
  unfold mbReply
  simp only [hm, hfull, hlive, Bool.and_true, if_true]
  rfl

theorem mbReply_of_no_mail {s : State} {c : Fin 56} {t : Fin 8} (v : Nat) (hm : (s.th c t).mail = none) : mbReply s c t v =
    ((s.raise (Fld.ROUTE_EVT_STRAY_REPLY c)).bumpSat (Fld.SEQ_STATS_STRAY_REPLY c) 1).modTh c t Thread.replied := by
  unfold mbReply
  simp only [hm]
  rfl

/-- The result of the order in execution becomes known. -/
theorem orderResult_resolves {s : State} {c : Fin 56} {e : ExecOrder} (he : (s.sq c).exec = some e) (hnone : e.result = none) (st res : Nat) :
    Resolved (s.orderResult c e.idx st res) c e st res := by
  simp [Resolved, State.orderResult, he, hnone]

theorem replyNoted_chans (s : State) (c : Fin 56) (v : Nat) : (replyNoted s c v).chans = s.chans := by
  unfold replyNoted
  split <;> rfl

theorem replyNoted_isSet {s : State} {c : Fin 56} {v : Nat} (h : replyOk v = false) :
    (replyNoted s c v).isSet (Fld.ROUTE_EVT_BAD_REPLY c) = true := by
  rw [replyNoted, h]
  exact State.isSet_raise s Nat.one_pos

theorem doesSome_mbReply_of_call {s : State} {c : Fin 56} {t : Fin 8} {m : Mail} {e : ExecOrder} (v : Byte)
    (hm : (s.th c t).mail = some m) (hfull : m.full = true) (hlive : m.live = true) (he : (s.sq c).exec = some e) (hidx : e.idx = m.order)
    (hnone : e.result = none) :
    DoesSome (.mbReply c t v) s (fun u => Resolved u c e (if replyOk v.toNat then v.toNat else St.busError) (s.th c t).mbRes.toNat ∧
      (u.th c t).mail = some { m with full := false, live := false } ∧ (u.th c t).mbRes = 0 ∧
      (replyOk v.toNat = false → u.isSet (Fld.ROUTE_EVT_BAD_REPLY c) = true)) := by
  have hchan : (replyNoted s c v.toNat).ch c = s.ch c := congrArg (·[c]) (replyNoted_chans s c v.toNat)
  have hexec : ((replyNoted s c v.toNat).sq c).exec = some e := by rw [State.sq, hchan]; exact he
  have hthread : (replyNoted s c v.toNat).th c t = s.th c t := by rw [State.th, hchan]; rfl
  have hresolved := orderResult_resolves hexec hnone (if replyOk v.toNat then v.toNat else St.busError) (s.th c t).mbRes.toNat
  refine ⟨_, congrArg done (mbReply_of_call v.toNat hm hfull hlive), ?_, ?_, ?_, fun hbad => replyNoted_isSet hbad⟩
  · rw [Resolved, State.modTh_sq, ← hidx]
    exact hresolved
  · rw [State.orderResult, State.modTh_th_same, State.modSq_th, hthread, Thread.replied, hm]
    rfl
  · rw [State.modTh_th_same]
    rfl

theorem doesSome_mbReply_of_no_mail {s : State} {c : Fin 56} {t : Fin 8} (v : Byte) (hm : (s.th c t).mail = none) :
    DoesSome (.mbReply c t v) s (fun u => u.isSet (Fld.ROUTE_EVT_STRAY_REPLY c) = true ∧ u.sq c = s.sq c) := by
  refine ⟨_, congrArg done (mbReply_of_no_mail v.toNat hm), ?_, State.modTh_sq _ _ _ _⟩
  have hkey : fldKey (Fld.ROUTE_EVT_STRAY_REPLY c) ≠ fldKey (Fld.SEQ_STATS_STRAY_REPLY c) := by
    simp only [fldKey, Fld.ROUTE_EVT_STRAY_REPLY, Fld.SEQ_STATS_STRAY_REPLY, Reg.ROUTE_EVT, Reg.SEQ_STATS]
    omega
  exact (State.isSet_put_ne _ _ hkey).trans (State.isSet_raise s Nat.one_pos)

/-! ### Publishing (R253) -/

/-- The signal a keeper's publish carries. -/
def Keeper.signal (k : Keeper) (s : State) : Sig :=
  ⟨k.pubVal, k.pubQual.toNat, if k.pubTime.toNat = 0 then s.now else k.pubTime.toNat, s.tick⟩

theorem pubGo_of_owned {s : State} {c : Fin 56} (hown : slotOwner s (s.kp c).pubSlot.toNat = some c.val) (hlo : 1 ≤ (s.kp c).pubQual.toNat)
    (hhi : (s.kp c).pubQual.toNat ≤ 3) (htime : (s.kp c).pubTime.toNat ≤ s.now) :
    pubGo s c = s.modBoard (fun b => { b with live := SMap.set Sig.empty b.live (s.kp c).pubSlot.toNat ((s.kp c).signal s) }) := by
  simp only [pubGo, sigPublish, hown, hlo, hhi, htime, and_self, if_true, Keeper.signal]

theorem pubGo_of_not_owned {s : State} {c : Fin 56} (hown : slotOwner s (s.kp c).pubSlot.toNat ≠ some c.val) :
    pubGo s c = s.raise (Fld.KEVT_PUB_REFUSED c) := by
  simp only [pubGo, sigPublish, hown, false_and, if_false]

/-! ### The code store (R427) -/

theorem csWrite_of_off {s : State} {c : Fin 56} (h : Half) (hoff : s.isSet (Fld.KSTATUS_CS_WRITE c) = false) :
    csWrite s c h = s.raise (Fld.KEVT_CS_REFUSED c) := by
  simp only [csWrite, hoff, Bool.not_false, if_true]

theorem csWrite_of_full {s : State} {c : Fin 56} (h : Half) (hon : s.isSet (Fld.KSTATUS_CS_WRITE c) = true) (hfull : 8 ≤ (s.kp c).csq) :
    csWrite s c h = s.raise (Fld.KEVT_CS_LOST c) := by
  simp only [csWrite, hon, hfull, Bool.not_true, Bool.false_eq_true, if_false, if_true]

theorem csWrite_of_room {s : State} {c : Fin 56} (h : Half) (hon : s.isSet (Fld.KSTATUS_CS_WRITE c) = true) (hroom : (s.kp c).csq < 8) :
    csWrite s c h = s.modKp c (fun k => { k with code := SMap.set 0 k.code k.csAddr.toNat h, csq := k.csq + 1, csAddr := k.csAddr + 1 }) := by
  simp only [csWrite, hon, Nat.not_le.mpr hroom, Bool.not_true, Bool.false_eq_true, if_false]

/-! ### The time (R31) -/

/-- The time and the tick latched for the keeper's reads. -/
def timeLatched (s : State) (c : Fin 56) : State := s.modKp c (fun k => { k with latTime := s.now, latTick := s.tick })

/-- A read of a byte of tile I/O that is not one with an effect leaves the state as it was. -/
theorem ioReadByte_snd_of_plain (s : State) (c : Fin 56) (t : Fin 8) {a : Nat} (htime : a ≠ 0xB600) (hrx : a ≠ 0xB80F) (hmb : a ≠ 0xB887) :
    (ioReadByte s c t a).2 = s := by
  unfold ioReadByte
  split
  · rfl
  · simp only [htime, hrx, hmb, if_false]

theorem ioReadByte_snd_time (s : State) (c : Fin 56) (t : Fin 8) : (ioReadByte s c t 0xB600).2 = timeLatched s c := rfl

/-- A read of bytes without an effect leaves the state as it was. -/
theorem ioRead_snd_of_plain (s : State) (c : Fin 56) (t : Fin 8) {a n : Nat}
    (h : ∀ x, a ≤ x → x < a + n → x ≠ 0xB600 ∧ x ≠ 0xB80F ∧ x ≠ 0xB887) : (ioRead s c t a n).2 = s := by
  induction n generalizing a with
  | zero => rfl
  | succ n ih =>
    obtain ⟨htime, hrx, hmb⟩ := h a le_rfl (by omega)
    change (ioRead (ioReadByte s c t a).2 c t (a + 1) n).2 = s
    rw [ioReadByte_snd_of_plain s c t htime hrx hmb]
    exact ih fun x hlo hhi => h x (by omega) (by omega)

/-- A read of TIME_NS latches the time with its first byte. -/
theorem ioRead_snd_time (s : State) (c : Fin 56) (t : Fin 8) : (ioRead s c t 0xB600 8).2 = timeLatched s c := by
  change (ioRead (ioReadByte s c t 0xB600).2 c t 0xB601 7).2 = _
  rw [ioReadByte_snd_time]
  exact ioRead_snd_of_plain _ c t fun x _ _ => by omega

/-- Settles O34, service by service. -/
theorem keeperServices : Obligations.KeeperServices := by
  intro s c t v h m e x rest
  refine ⟨fun hs => ?eoi, fun hs => congrArg done (icEoi_of_empty hs), doesSome_mbReply_of_call v, doesSome_mbReply_of_no_mail v,
    fun hown hlo hhi htime => ?pub, fun hown => congrArg done (pubGo_of_not_owned hown), fun hoff => congrArg done (csWrite_of_off h hoff),
    fun hon hfull => congrArg done (csWrite_of_full h hon hfull), fun hon hroom => ?code, rfl, ?time⟩
  case eoi =>
    refine ⟨_, congrArg done (icEoi_of_cons hs), ?_, rfl⟩
    exact SMap.get_set_same [] s.ic.stackTab _ rest
  case pub =>
    refine ⟨_, congrArg done (pubGo_of_owned hown hlo hhi htime), ?_, rfl⟩
    exact SMap.get_set_same Sig.empty s.board.live _ _
  case code =>
    refine ⟨_, congrArg done (csWrite_of_room h hon hroom), ?_⟩
    beta_reduce
    rw [State.modKp_kp_same]
    exact ⟨SMap.get_set_same 0 (s.kp c).code _ h, rfl, rfl⟩
  case time =>
    refine ⟨_, congrArg done (ioRead_snd_time s c t), ?_⟩
    beta_reduce
    rw [timeLatched, State.modKp_kp_same]
    exact ⟨rfl, rfl, rfl⟩

end Sys2Proof.Machine
end

section
/-!
PROOF. A step of the time whose STEP_DELTA stands above its register's width (R49, R50).
-/
namespace Sys2Proof.Machine

/-- A state after reset whose STEP_DELTA field holds 2^64, one more than its 64 bits give. -/
def overStep : State := { State.reset with fld := SMap.insert State.reset.fld (fldKey Fld.STEP_DELTA_VALUE) (2 ^ 64) }

/-- A write of STEP_CTRL with GO and ABS. -/
def stepAbs : Word := 5

theorem overStep_delta : overStep.get Fld.STEP_DELTA_VALUE = 2 ^ 64 := by decide +kernel

theorem overStep_reaches : Reaches overStep Reg.STEP_CTRL (withField stepAbs.toNat Fld.STEP_CTRL_GO 1) := by
  unfold Reaches PageAt
  decide +kernel

theorem hostWrite64_overStep_now :
    (hostWrite64 overStep Reg.STEP_CTRL (withField stepAbs.toNat Fld.STEP_CTRL_GO 1)).now = 0 := by
  decide +kernel

/-- Refutes O18: its clause on an absolute step takes STEP_DELTA as the state's field holds it, while TIME_NS takes it modulo 2^64; in a
state whose field holds 2^64 the step leaves TIME_NS at 0. Writes of STEP_DELTA keep the field below 2^64, so no run reaches such a state. -/
theorem not_timebaseRegisters : ¬ Obligations.TimebaseRegisters := by
  unfold Obligations.TimebaseRegisters
  rintro ⟨-, h⟩
  obtain ⟨-, -, -, hstep⟩ := h overStep _ stepAbs
  obtain ⟨u, hu, hnow, -⟩ := (hstep overStep_reaches (by decide) rfl).1 (by decide +kernel)
  have hsettle : settle (hostWrite64 overStep Reg.STEP_CTRL (withField stepAbs.toNat Fld.STEP_CTRL_GO 1)) = settle u := by injection hu
  have hget := congrArg (fun t => t.get Fld.TIME_NS_TIME_NS) hsettle
  simp only [settle_get _ Fld.TIME_NS_TIME_NS (by decide) (by decide)] at hget
  have habs : u.now = 2 ^ 64 := (hnow (by decide +kernel)).trans overStep_delta
  have hzero : u.now = 0 := hget.symm.trans hostWrite64_overStep_now
  exact absurd (habs.symm.trans hzero) (by decide)

end Sys2Proof.Machine
end

section
/-!
PROOF. Halves of a chamber, and what a drain, a course and the ring leave as they were (R237, R240, R242, R246).
-/
namespace Sys2Proof.Machine

/-! ### Halves -/

@[simp] theorem Chamber.half_modHalf_same (ch : Chamber) (k : Nat) (f : ChHalf → ChHalf) : (ch.modHalf k f).half k = f (ch.half k) := by
  unfold Chamber.modHalf Chamber.half
  split_ifs <;> rfl

theorem Chamber.modHalf_modHalf (ch : Chamber) (k : Nat) (f g : ChHalf → ChHalf) :
    (ch.modHalf k f).modHalf k g = ch.modHalf k (fun h => g (f h)) := by
  unfold Chamber.modHalf
  split_ifs <;> rfl

/-- A drain's end does not depend on what its half became meanwhile. -/
theorem drainEnd_modHalf (ch : Chamber) (k chan : Nat) (f : ChHalf → ChHalf) : drainEnd (ch.modHalf k f) k chan = drainEnd ch k chan := by
  simp only [drainEnd, Chamber.modHalf_modHalf]

theorem Chamber.st_of_oldestFull {ch : Chamber} {k : Nat} (h : ch.oldestFull = some k) : (ch.half k).st = .full :=
  beq_iff_eq.mp (List.find?_some (p := fun i => (ch.half i).st == .full) h)

/-! ### Placing extents in the ring (R243, R247) -/

/-- The state once extent `e` has its place at `off`: the head moves past it, and its header and padding are written, and its records
when no credit holds them. -/
def extPlaced (s : State) (e : Extent) (off : Nat) : State :=
  let t := (modExt (ringTake s off (extSize e)) e.num (fun e => { e with off := some off })).dramWrite (ringBase s + off) (extHeader e)
  let t := t.dramWrite (ringBase s + off + 16 + e.len) (zeros (extSize e - 16 - e.len))
  if s.credits.any (fun k => k.ext == e.num) then t else t.dramWrite (ringBase s + off + 16) (e.recs.map recBytes).flatten

theorem extPlaced_eq (s : State) (e : Extent) (off : Nat) :
    ∃ f cs d po, extPlaced s e off = { s with fld := f, courses := cs, dram := d, poison := po } := by
  unfold extPlaced
  dsimp only
  split <;> exact ⟨_, _, _, _, rfl⟩

theorem extPlaced_get (s : State) (e : Extent) (off : Nat) {g : Fld} (hhead : fldKey g ≠ fldKey Fld.RING_HEAD_OFFSET) :
    (extPlaced s e off).get g = s.get g := by
  unfold extPlaced
  dsimp only
  split <;> exact State.get_put_ne s _ hhead

theorem ringBase_ringTake (s : State) (off n : Nat) : ringBase (ringTake s off n) = ringBase s :=
  congrArg (· * 2 ^ 20) (State.get_put_ne s _ (by decide))

theorem placeExts_of_room {n : Nat} {s : State} {e : Extent} {off : Nat} (he : unplaced s = some e)
    (hroom : ringPlace s (extSize e) = some off) : placeExts (n + 1) s = placeExts n (extPlaced s e off) := by
  have hbase := ringBase_ringTake s off (extSize e)
  conv_lhs => unfold placeExts
  simp only [he, hroom]
  rw [extPlaced, ← hbase]
  rfl

theorem placeExts_of_full {n : Nat} {s : State} {e : Extent} (he : unplaced s = some e) (hroom : ringPlace s (extSize e) = none) :
    placeExts (n + 1) s = s.raise Fld.POUND_EVT_RING_FULL := by
  simp only [placeExts, he, hroom]

/-- With every extent placed there is nothing to do. -/
theorem placeExts_of_placed (n : Nat) {s : State} (h : unplaced s = none) : placeExts n s = s := by
  cases n with
  | zero => rfl
  | succ n => simp only [placeExts, h]

/-- Placing extents changes registers, the courses and the DRAM alone. -/
theorem placeExts_eq (n : Nat) (s : State) :
    ∃ f cs d po, placeExts n s = { s with fld := f, courses := cs, dram := d, poison := po } := by
  induction n generalizing s with
  | zero => exact ⟨_, _, _, _, rfl⟩
  | succ n ih =>
    cases he : unplaced s with
    | none => exact ⟨_, _, _, _, placeExts_of_placed _ he⟩
    | some e =>
      cases hroom : ringPlace s (extSize e) with
      | none => exact ⟨_, _, _, _, placeExts_of_full he hroom⟩
      | some off =>
        obtain ⟨_, _, _, _, hplaced⟩ := extPlaced_eq s e off
        obtain ⟨f, cs, d, po, h⟩ := ih (extPlaced s e off)
        refine ⟨f, cs, d, po, ?_⟩
        rw [placeExts_of_room he hroom, h, hplaced]

/-- Placing extents writes RING_HEAD and RING_FULL alone among the registers. -/
theorem placeExts_get (n : Nat) (s : State) {g : Fld} (hhead : fldKey g ≠ fldKey Fld.RING_HEAD_OFFSET)
    (hfull : fldKey g ≠ fldKey Fld.POUND_EVT_RING_FULL) : (placeExts n s).get g = s.get g := by
  induction n generalizing s with
  | zero => rfl
  | succ n ih =>
    cases he : unplaced s with
    | none => rw [placeExts_of_placed _ he]
    | some e =>
      cases hroom : ringPlace s (extSize e) with
      | none => rw [placeExts_of_full he hroom, State.get_raise_ne s _ g hfull]
      | some off => rw [placeExts_of_room he hroom, ih, extPlaced_get s e off hhead]

/-- The state once a new extent has joined its course. -/
def extJoined (s : State) (e : Extent) : State :=
  { s with
    nextExt := s.nextExt + 1
    courses := s.courses.map (fun c => if c.tick = e.tick then { c with exts := c.exts ++ [e] } else c) }

/-- A new extent takes a number and is placed; registers, the courses and the DRAM change. -/
theorem addExt_eq (s : State) (e : Extent) :
    ∃ f cs d po, addExt s e = { s with fld := f, courses := cs, dram := d, poison := po, nextExt := s.nextExt + 1 } := by
  obtain ⟨f, cs, d, po, h⟩ := placeExts_eq 64 (extJoined s e)
  exact ⟨f, cs, d, po, h⟩

theorem addExt_get (s : State) (e : Extent) {g : Fld} (hhead : fldKey g ≠ fldKey Fld.RING_HEAD_OFFSET)
    (hfull : fldKey g ≠ fldKey Fld.POUND_EVT_RING_FULL) : (addExt s e).get g = s.get g :=
  placeExts_get 64 _ hhead hfull

@[simp] theorem addExt_credits (s : State) (e : Extent) : (addExt s e).credits = s.credits := by
  obtain ⟨_, _, _, _, h⟩ := addExt_eq s e
  rw [h]

@[simp] theorem addExt_ch (s : State) (e : Extent) (c : Fin 56) : (addExt s e).ch c = s.ch c := by
  obtain ⟨_, _, _, _, h⟩ := addExt_eq s e
  rw [h]
  rfl

/-! ### Registers alone -/

/-- The second state differs from the first in registers alone. -/
def RegsOnly (s u : State) : Prop := ∃ f, u = { s with fld := f }

theorem RegsOnly.refl (s : State) : RegsOnly s s := ⟨s.fld, rfl⟩

theorem RegsOnly.put {s u : State} (h : RegsOnly s u) (g : Fld) (v : Nat) : RegsOnly s (u.put g v) := by
  obtain ⟨f, rfl⟩ := h
  exact ⟨_, rfl⟩

theorem RegsOnly.ite {s u t : State} (p : Prop) [Decidable p] (hu : RegsOnly s u) (ht : RegsOnly s t) : RegsOnly s (if p then u else t) := by
  split
  · exact hu
  · exact ht

/-! ### Credits (R242) -/

/-- The `k` credits that extent `ext` of channel `c` takes from the place of the pound's ring where the last allocation ended, the last
`p` of them from the pool. -/
def creditRun (next c k p ext : Nat) : List Credit :=
  (List.range k).map (fun i => ⟨(next + i) % 768, c, decide (k - p ≤ i), [], false, ext, i⟩)

@[simp] theorem creditRun_length (next c k p ext : Nat) : (creditRun next c k p ext).length = k := by
  rw [creditRun, List.length_map, List.length_range]

/-- The pound's status is a matter of registers. -/
theorem regsOnly_poundStatus (s : State) : RegsOnly s (poundStatus s) := by
  unfold poundStatus
  refine RegsOnly.ite _ (RegsOnly.put ?_ _ _) ?_ <;> exact (((RegsOnly.refl s).put _ _).put _ _).put _ _

theorem poundTake_eq (s : State) (c k p ext : Nat) : ∃ f, poundTake s c k p ext =
    { s with fld := f, credits := s.credits ++ creditRun s.nextCredit c k p ext, nextCredit := (s.nextCredit + k) % 768 } :=
  regsOnly_poundStatus { s with credits := s.credits ++ creditRun s.nextCredit c k p ext, nextCredit := (s.nextCredit + k) % 768 }

/-- The pound's grant looks at the credits held, the quotas and the pool limits. -/
theorem poundGrant_congr {s u : State} (hcredits : u.credits = s.credits)
    (hquota : ∀ c, u.get (Fld.POUND_QUOTA_QUOTA c) = s.get (Fld.POUND_QUOTA_QUOTA c))
    (hlimit : ∀ c, u.get (Fld.POUND_QUOTA_POOL_LIMIT c) = s.get (Fld.POUND_QUOTA_POOL_LIMIT c)) (c k : Nat) :
    poundGrant u c k = poundGrant s c k := by
  have hheld (c : Nat) : quotaHeld u c = quotaHeld s c := by rw [quotaHeld, hcredits, quotaHeld]
  have hpool (c : Nat) : poolHeld u c = poolHeld s c := by rw [poolHeld, hcredits, poolHeld]
  have hfree : poolFree u = poolFree s := by simp only [poolFree, quotaSum, hcredits, hquota]
  simp only [poundGrant, hheld, hpool, hfree, hquota, hlimit]

theorem poundGrant_basin (s : State) (k : Nat) : poundGrant s 0xFF k = if quotaHeld s 0xFF + k ≤ 16 then some 0 else none := rfl

/-! ### A drain that begins, and one that is refused (R237, R242) -/

/-- The half begins to drain. -/
def ChHalf.begun (h : ChHalf) : ChHalf := { h with st := .draining }

/-- The half was refused credits. -/
def ChHalf.denied (h : ChHalf) : ChHalf := { h with refused := true }

theorem drainStart_of_empty (s : State) (c : Nat) {i : Nat} {ch : Chamber} (p : Nat) (h : (ch.half i).recs = []) :
    drainStart s c i ch p = (s, ch.modHalf i ChHalf.begun) := by
  simp only [drainStart, h, List.isEmpty_nil, if_true]
  rfl

theorem drainStart_snd (s : State) (c i : Nat) (ch : Chamber) (p : Nat) : (drainStart s c i ch p).2 = ch.modHalf i ChHalf.begun := by
  unfold drainStart
  dsimp only
  split <;> rfl

/-- The state once the pound has given `k` credits to the next extent of channel `c`. -/
def creditsTaken (s : State) (c k p : Nat) : State :=
  { s with credits := s.credits ++ creditRun s.nextCredit c k p s.nextExt, nextCredit := (s.nextCredit + k) % 768 }

/-- A half with records takes its credits and an extent. -/
theorem drainStart_fst (s : State) (c : Nat) {i : Nat} {ch : Chamber} (p : Nat) (h : (ch.half i).recs ≠ []) :
    ∃ f cs d po, (drainStart s c i ch p).1 = { creditsTaken s c (creditsFor (ch.half i)) p with
                                                fld := f, courses := cs, dram := d, poison := po, nextExt := s.nextExt + 1 } := by
  obtain ⟨f, htake⟩ := poundTake_eq s c (creditsFor (ch.half i)) p s.nextExt
  unfold drainStart
  rw [if_neg (by rwa [List.isEmpty_iff])]
  dsimp only
  change ∃ _ _ _ _, addExt (State.bumpWrap (if c < 56 then (((poundTake s c (creditsFor (ch.half i)) p s.nextExt).put _ _).put _ _)
    else poundTake s c (creditsFor (ch.half i)) p s.nextExt) _ _) _ = _
  rw [htake]
  split <;> exact addExt_eq _ _

/-- What a refusal leaves in the registers. -/
def refusalNoted (s : State) (c : Nat) : State :=
  let s := (s.raise Fld.POUND_EVT_REFUSED).bumpWrap Fld.POUND_STATS_REFUSALS 1
  if c < 56 then (s.raise (Fld.CH_EVT_REFUSED c)).bumpWrap (Fld.CH_STATS0_REFUSED c) 1 else s

theorem drainRefused_eq (s : State) (c i : Nat) (ch : Chamber) :
    drainRefused s c i ch = (refusalNoted s c, ch.modHalf i ChHalf.denied) := rfl

theorem regsOnly_refusalNoted (s : State) (c : Nat) : RegsOnly s (refusalNoted s c) :=
  have hput := ((RegsOnly.refl s).put _ _).put _ _
  hput.put _ _ |>.put _ _ |>.ite _ hput

@[simp] theorem refusalNoted_credits (s : State) (c : Nat) : (refusalNoted s c).credits = s.credits := by
  obtain ⟨f, h⟩ := regsOnly_refusalNoted s c
  rw [h]

@[simp] theorem refusalNoted_tb (s : State) (c : Nat) : (refusalNoted s c).tb = s.tb := by
  obtain ⟨f, h⟩ := regsOnly_refusalNoted s c
  rw [h]

theorem refusalNoted_pound (s : State) (c : Nat) : (refusalNoted s c).isSet Fld.POUND_EVT_REFUSED = true := by
  have hpound : ((s.raise Fld.POUND_EVT_REFUSED).bumpWrap Fld.POUND_STATS_REFUSALS 1).isSet Fld.POUND_EVT_REFUSED = true :=
    (State.isSet_put_ne _ _ (by decide)).trans (State.isSet_raise s Nat.one_pos)
  unfold refusalNoted
  dsimp only
  split
  · refine ((State.isSet_put_ne _ _ ?_).trans (State.isSet_put_ne _ _ ?_)).trans hpound <;>
      simp only [fldKey, Fld.POUND_EVT_REFUSED, Fld.CH_STATS0_REFUSED, Fld.CH_EVT_REFUSED, Reg.POUND_EVT, Reg.CH_STATS0, Reg.CH_EVT, chPage] <;>
      omega
  · exact hpound

theorem refusalNoted_channel (s : State) (c : Fin 56) : (refusalNoted s c).isSet (Fld.CH_EVT_REFUSED c) = true := by
  have hkey : fldKey (Fld.CH_EVT_REFUSED c) ≠ fldKey (Fld.CH_STATS0_REFUSED c) := by
    simp only [fldKey, Fld.CH_EVT_REFUSED, Fld.CH_STATS0_REFUSED, Reg.CH_EVT, Reg.CH_STATS0]
    omega
  unfold refusalNoted
  dsimp only
  rw [if_pos c.isLt]
  exact (State.isSet_put_ne _ _ hkey).trans (State.isSet_raise _ Nat.one_pos)

theorem drainAsk_of_empty (s : State) (c : Nat) {i : Nat} {ch : Chamber} (h : (ch.half i).recs = []) :
    drainAsk s c i ch = (s, ch.modHalf i ChHalf.begun) := by
  unfold drainAsk
  rw [if_pos (by rw [h]; rfl), drainStart_of_empty s c 0 h]

theorem drainAsk_of_granted {s : State} {c i p : Nat} {ch : Chamber} (h : (ch.half i).recs ≠ [])
    (hgrant : poundGrant s c (creditsFor (ch.half i)) = some p) : drainAsk s c i ch = drainStart s c i ch p := by
  unfold drainAsk
  simp only [List.isEmpty_iff, h, hgrant, if_false]

theorem drainAsk_of_refused {s : State} {c i : Nat} {ch : Chamber} (h : (ch.half i).recs ≠ [])
    (hgrant : poundGrant s c (creditsFor (ch.half i)) = none) :
    drainAsk s c i ch = (refusalNoted s c, ch.modHalf i ChHalf.denied) := by
  unfold drainAsk
  simp only [List.isEmpty_iff, h, hgrant, if_false, drainRefused_eq]

end Sys2Proof.Machine
end

section
/-!
PROOF. Drain slots and the ends of drains (R40, R237, R239, R240, R242).
-/
namespace Sys2Proof.Machine

/-! ### The oldest FULL half asks (R238, R242) -/

/-- The channel's chamber with a slot noted as waiting for copies, or not. -/
def Chamber.awaits (ch : Chamber) (b : Bool) : Chamber := { ch with due := b }

section
variable {s : State} {c : Fin 56} {k : Nat} (hfull : (s.ch c).chamber.oldestFull = some k) (hidle : (s.ch c).chamber.draining = none)
include hfull hidle

theorem drainTry_of_copying (hcopy : (s.ch c).chamber.copies.any (fun x => x.half == k) = true) :
    drainTry s c = s.modCh c (fun x => { x with chamber := x.chamber.awaits true }) := by
  simp only [drainTry, hfull, hidle, hcopy, Option.isSome_none, Bool.false_eq_true, if_false, if_true, Chamber.awaits]

theorem drainTry_of_copied (hcopy : (s.ch c).chamber.copies.any (fun x => x.half == k) = false) :
    drainTry s c = (drainAsk s c k ((s.ch c).chamber.awaits false)).1.modCh c
      (fun x => { x with chamber := (drainAsk s c k ((s.ch c).chamber.awaits false)).2 }) := by
  simp only [drainTry, hfull, hidle, hcopy, Option.isSome_none, Bool.false_eq_true, if_false, Chamber.awaits]

end

/-! ### A slot that is reached (R40) -/

/-- Time that passes changes TIME_NS and the timebase alone, and leaves the entries served in the tick. -/
theorem State.pass_eq (s : State) (n : Nat) : ∃ u b, s.pass n =
    (s.put Fld.TIME_NS_TIME_NS (s.now + n)).modTb (fun t => { t with used := u, notBefore := b }) := by
  unfold State.pass
  dsimp only
  split
  · exact ⟨s.tb.used, s.tb.notBefore, rfl⟩
  · exact ⟨_, _, rfl⟩

theorem State.modTb_modTb (s : State) (f g : Timebase → Timebase) : (s.modTb f).modTb g = s.modTb (fun t => g (f t)) := rfl

theorem State.modCh_isSet (s : State) (c : Fin 56) (f : Chan → Chan) (g : Fld) : (s.modCh c f).isSet g = s.isSet g := rfl

/-- The time has come to entry `n` of the active schedule, and it is served. -/
def slotReached (s : State) (n : Nat) (w : Word) : State :=
  (s.advanceTo (s.tb.edgeNs + lsOff w)).modTb (fun t => { t with served := n :: t.served })

theorem slotReached_eq (s : State) (n : Nat) (w : Word) : ∃ v u b, slotReached s n w =
    (s.put Fld.TIME_NS_TIME_NS v).modTb (fun t => { t with used := u, notBefore := b, served := n :: t.served }) := by
  obtain ⟨u, b, h⟩ := s.pass_eq (s.ahead (s.tb.edgeNs + lsOff w))
  refine ⟨s.now + s.ahead (s.tb.edgeNs + lsOff w), u, b, ?_⟩
  rw [slotReached, State.advanceTo, h, State.modTb_modTb]

section
variable (s : State) (n : Nat) (w : Word)

@[simp] theorem slotReached_credits : (slotReached s n w).credits = s.credits := by
  obtain ⟨_, _, _, h⟩ := slotReached_eq s n w
  rw [h]
  rfl

@[simp] theorem slotReached_courses : (slotReached s n w).courses = s.courses := by
  obtain ⟨_, _, _, h⟩ := slotReached_eq s n w
  rw [h]
  rfl

@[simp] theorem slotReached_nextCredit : (slotReached s n w).nextCredit = s.nextCredit := by
  obtain ⟨_, _, _, h⟩ := slotReached_eq s n w
  rw [h]
  rfl

@[simp] theorem slotReached_nextExt : (slotReached s n w).nextExt = s.nextExt := by
  obtain ⟨_, _, _, h⟩ := slotReached_eq s n w
  rw [h]
  rfl

@[simp] theorem slotReached_ch (c : Fin 56) : (slotReached s n w).ch c = s.ch c := by
  obtain ⟨_, _, _, h⟩ := slotReached_eq s n w
  rw [h]
  rfl

@[simp] theorem slotReached_served : (slotReached s n w).tb.served = n :: s.tb.served := by
  obtain ⟨_, _, _, h⟩ := slotReached_eq s n w
  rw [h]
  rfl

theorem slotReached_get {g : Fld} (hg : fldKey g ≠ fldKey Fld.TIME_NS_TIME_NS) : (slotReached s n w).get g = s.get g := by
  obtain ⟨_, _, _, h⟩ := slotReached_eq s n w
  rw [h]
  exact State.get_put_ne s _ hg

theorem poundGrant_slotReached (c k : Nat) : poundGrant (slotReached s n w) c k = poundGrant s c k := by
  refine poundGrant_congr (slotReached_credits s n w) (fun c => slotReached_get s n w ?_) (fun c => slotReached_get s n w ?_) c k <;>
    simp only [fldKey, Fld.POUND_QUOTA_QUOTA, Fld.POUND_QUOTA_POOL_LIMIT, Fld.TIME_NS_TIME_NS, Reg.POUND_QUOTA, Reg.TIME_NS, chPage] <;>
    omega

end

/-- A slot that is due, before no entry of the same KCLK and within reach is served (R40, R242). -/
theorem drainSlot_of_due {s : State} {n : Nat} {w : Word} {c : Fin 56} (hentry : s.tb.active[n]? = some w) (hchan : lsChan w = c.val)
    (hserved : n ∉ s.tb.served) (hlocks : chLocks s c = true) (hswap : lsSub w < (s.ch c).chamber.swaps)
    (hfirst : slotBefore s n w = false) (hreach : s.canReach (s.tb.edgeNs + lsOff w) = true) :
    drainSlot s n = drainTry (slotReached s n w) c := by
  have hlt : lsChan w < 56 := hchan ▸ c.isLt
  obtain rfl : (⟨lsChan w, hlt⟩ : Fin 56) = c := Fin.ext hchan
  have hcontains : s.tb.served.contains n = false := by simpa using hserved
  have hdue : slotDue s n = true := by
    simp only [slotDue, hentry, dif_pos hlt, hcontains, hlocks, hswap, decide_true, Bool.not_false, Bool.and_self]
  simp only [drainSlot, hentry, dif_pos hlt, hdue, hfirst, hreach, Bool.not_false, and_self, if_true]
  rfl

/-! ### The slot's outcomes -/

section
variable {s : State} {n : Fin 448} {w : Word} {c : Fin 56} {k p : Nat} (hdrain : drainSlot s n = drainTry (slotReached s n w) c)
  (hfull : (s.ch c).chamber.oldestFull = some k) (hidle : (s.ch c).chamber.draining = none)
include hdrain hfull hidle

theorem doesSome_drainSlot_of_copying (hcopy : (s.ch c).chamber.copies.any (fun x => x.half == k) = true) :
    DoesSome (.drainSlot n) s (fun u => u.credits = s.credits ∧ (u.ch c).chamber = { (s.ch c).chamber with due := true } ∧
      u.tb.served = n.val :: s.tb.served) := by
  rw [← slotReached_ch s n w c] at hfull hidle hcopy
  refine ⟨_, congrArg done (hdrain.trans (drainTry_of_copying hfull hidle hcopy)), ?_, ?_, ?_⟩
  · rw [State.modCh_credits, slotReached_credits]
  · rw [State.modCh_ch_same, slotReached_ch]
    rfl
  · rw [State.modCh_tb, slotReached_served]

/-- A slot whose half lacks no copy asks the pound. -/
theorem drainSlot_of_copied (hcopy : (s.ch c).chamber.copies.any (fun x => x.half == k) = false) :
    drainSlot s n = (drainAsk (slotReached s n w) c k ((s.ch c).chamber.awaits false)).1.modCh c
      (fun x => { x with chamber := (drainAsk (slotReached s n w) c k ((s.ch c).chamber.awaits false)).2 }) := by
  rw [← slotReached_ch s n w c] at hfull hidle hcopy
  rw [hdrain, drainTry_of_copied hfull hidle hcopy, slotReached_ch]

variable (hcopy : (s.ch c).chamber.copies.any (fun x => x.half == k) = false)
include hcopy

theorem doesSome_drainSlot_of_empty (hrecs : ((s.ch c).chamber.half k).recs = []) :
    DoesSome (.drainSlot n) s (fun u => u.credits = s.credits ∧ u.courses = s.courses ∧
      (u.ch c).chamber = { (s.ch c).chamber with due := false }.modHalf k (fun h => { h with st := .draining })) := by
  have hask := drainSlot_of_copied hdrain hfull hidle hcopy
  rw [drainAsk_of_empty _ c (ch := (s.ch c).chamber.awaits false) hrecs] at hask
  refine ⟨_, congrArg done hask, ?_, ?_, ?_⟩
  · rw [State.modCh_credits, slotReached_credits]
  · rw [State.modCh_courses, slotReached_courses]
  · rw [State.modCh_ch_same]
    rfl

theorem doesSome_drainSlot_of_granted (hrecs : ((s.ch c).chamber.half k).recs ≠ [])
    (hgrant : poundGrant s c (creditsFor ((s.ch c).chamber.half k)) = some p) :
    DoesSome (.drainSlot n) s (fun u =>
      u.credits = s.credits ++ creditRun s.nextCredit c (creditsFor ((s.ch c).chamber.half k)) p s.nextExt ∧
      u.nextCredit = (s.nextCredit + creditsFor ((s.ch c).chamber.half k)) % 768 ∧ u.tb.served = n.val :: s.tb.served ∧
      (u.ch c).chamber = { (s.ch c).chamber with due := false }.modHalf k (fun h => { h with st := .draining })) := by
  have hask := drainSlot_of_copied hdrain hfull hidle hcopy
  rw [← poundGrant_slotReached s n w] at hgrant
  rw [drainAsk_of_granted (ch := (s.ch c).chamber.awaits false) hrecs hgrant, drainStart_snd] at hask
  obtain ⟨f, cs, d, po, hstart⟩ := drainStart_fst (slotReached s n w) c (ch := (s.ch c).chamber.awaits false) p hrecs
  rw [hstart] at hask
  refine ⟨_, congrArg done hask, ?_, ?_, slotReached_served s n w, ?_⟩
  · change (slotReached s n w).credits ++ creditRun (slotReached s n w).nextCredit c _ p (slotReached s n w).nextExt = _
    rw [slotReached_credits, slotReached_nextCredit, slotReached_nextExt]
    rfl
  · change ((slotReached s n w).nextCredit + _) % 768 = _
    rw [slotReached_nextCredit]
    rfl
  · rw [State.modCh_ch_same]
    rfl

theorem doesSome_drainSlot_of_refused (hrecs : ((s.ch c).chamber.half k).recs ≠ [])
    (hgrant : poundGrant s c (creditsFor ((s.ch c).chamber.half k)) = none) :
    DoesSome (.drainSlot n) s (fun u => u.credits = s.credits ∧ u.isSet Fld.POUND_EVT_REFUSED = true ∧
      u.isSet (Fld.CH_EVT_REFUSED c) = true ∧ u.tb.served = n.val :: s.tb.served ∧
      (u.ch c).chamber = { (s.ch c).chamber with due := false }.modHalf k (fun h => { h with refused := true })) := by
  have hask := drainSlot_of_copied hdrain hfull hidle hcopy
  rw [← poundGrant_slotReached s n w] at hgrant
  rw [drainAsk_of_refused (ch := (s.ch c).chamber.awaits false) hrecs hgrant] at hask
  dsimp only at hask
  refine ⟨_, congrArg done hask, ?_, ?_, ?_, ?_, ?_⟩
  · rw [State.modCh_credits, refusalNoted_credits, slotReached_credits]
  · rw [State.modCh_isSet, refusalNoted_pound]
  · rw [State.modCh_isSet, refusalNoted_channel]
  · rw [State.modCh_tb, refusalNoted_tb, slotReached_served]
  · rw [State.modCh_ch_same]
    rfl

end

/-! ### The end of a drain (R237, R239, R240) -/

/-- A gap record that the half's end writes is counted (R240). -/
def weirCounted (s : State) (c : Fin 56) : State :=
  if (s.ch c).chamber.weir && (s.ch c).chamber.weirGap.isSome then s.bumpWrap (Fld.CH_STATS1_GAPS c) 1 else s

theorem regsOnly_weirCounted (s : State) (c : Fin 56) : RegsOnly s (weirCounted s c) :=
  ((RegsOnly.refl s).put _ _).ite _ (RegsOnly.refl s)

theorem weirCounted_get (s : State) (c : Fin 56) {g : Fld} (hg : fldKey g ≠ fldKey (Fld.CH_STATS1_GAPS c)) :
    (weirCounted s c).get g = s.get g := by
  rw [weirCounted, State.get_ite, State.bumpWrap, State.get_put_ne s _ hg, ite_self]

/-- The half's credits hold its bytes, the drain is counted and the half is free again. -/
def halfDrained (s : State) (c : Fin 56) (k : Nat) : State :=
  (weirCounted ((fillCredits s c ((s.ch c).chamber.half k)).bumpWrap (Fld.CH_STATS0_DRAINS c) 1) c).modCh c
    (fun x => { x with chamber := drainEnd x.chamber k c })

theorem drainDone_of_draining {s : State} {c : Fin 56} {k : Nat} (h : (s.ch c).chamber.draining = some k) :
    drainDone s c = reseatCheck (stopCheck (halfDrained s c k) c) c := by
  simp only [drainDone, h]
  rfl

theorem does_drainEnd {s : State} {c : Fin 56} {k : Nat} (h : (s.ch c).chamber.draining = some k) :
    ∃ t, Does (.drainEnd c) s (reseatCheck (stopCheck t c) c) ∧
      (t.ch c).chamber = drainEnd (s.ch c).chamber k c ∧ t.dram = s.dram ∧ t.courses = s.courses ∧
      t.get (Fld.CH_STATS0_DRAINS c) = (s.get (Fld.CH_STATS0_DRAINS c) + 1) % 2 ^ 32 ∧
      t.credits = (fillCredits s c ((s.ch c).chamber.half k)).credits := by
  have hkey : fldKey (Fld.CH_STATS0_DRAINS c) ≠ fldKey (Fld.CH_STATS1_GAPS c) := by
    simp only [fldKey, Fld.CH_STATS0_DRAINS, Fld.CH_STATS1_GAPS, Reg.CH_STATS0, Reg.CH_STATS1]
    omega
  obtain ⟨f, hcounted⟩ := regsOnly_weirCounted ((fillCredits s c ((s.ch c).chamber.half k)).bumpWrap (Fld.CH_STATS0_DRAINS c) 1) c
  refine ⟨_, congrArg done (drainDone_of_draining h), ?_, ?_, ?_, ?_, ?_⟩
  · rw [halfDrained, State.modCh_ch_same, hcounted]
    rfl
  · rw [halfDrained, hcounted]
    rfl
  · rw [halfDrained, hcounted]
    rfl
  · rw [halfDrained, State.modCh_get, weirCounted_get _ c hkey]
    exact State.get_put_same _ _ _
  · rw [halfDrained, hcounted]
    rfl

/-! ### The Basin chamber's drain (R242) -/

theorem basinDrain_of_full {s : State} {k : Nat} (h : s.basin.oldestFull = some k) :
    basinDrain s = if ((drainAsk s 0xFF k s.basin).2.half k).st = .draining then
      { fillCredits (drainAsk s 0xFF k s.basin).1 0xFF ((drainAsk s 0xFF k s.basin).2.half k) with
        basin := drainEnd (drainAsk s 0xFF k s.basin).2 k 0xFF }
      else { (drainAsk s 0xFF k s.basin).1 with basin := (drainAsk s 0xFF k s.basin).2 } := by
  simp only [basinDrain, h]

section
variable {s : State} {k : Nat} (hfull : s.basin.oldestFull = some k) (hrecs : (s.basin.half k).recs ≠ [])
include hfull hrecs

theorem doesSome_basinDrain_of_granted (hroom : quotaHeld s 0xFF + creditsFor (s.basin.half k) ≤ 16) :
    DoesSome .basinChamberDrain s (fun u => u.basin = drainEnd s.basin k 0xFF ∧
      u.credits.length = s.credits.length + creditsFor (s.basin.half k) ∧ u.chans = s.chans) := by
  have hgrant : poundGrant s 0xFF (creditsFor (s.basin.half k)) = some 0 := by rw [poundGrant_basin, if_pos hroom]
  have hbegun : (s.basin.half k).begun.st = .draining := rfl
  have hdrain := basinDrain_of_full hfull
  rw [drainAsk_of_granted hrecs hgrant, drainStart_snd, Chamber.half_modHalf_same, if_pos hbegun, drainEnd_modHalf] at hdrain
  obtain ⟨f, cs, d, po, hstart⟩ := drainStart_fst s 0xFF 0 hrecs
  refine ⟨_, congrArg done hdrain, rfl, ?_, ?_⟩
  · rw [hstart]
    change (List.map _ (s.credits ++ creditRun s.nextCredit 0xFF _ 0 s.nextExt)).length = _
    rw [List.length_map, List.length_append, creditRun_length]
  · rw [hstart]
    rfl

theorem doesSome_basinDrain_of_refused (hroom : 16 < quotaHeld s 0xFF + creditsFor (s.basin.half k)) :
    DoesSome .basinChamberDrain s (fun u => u.basin = s.basin.modHalf k (fun h => { h with refused := true }) ∧
      u.credits = s.credits ∧ u.isSet Fld.POUND_EVT_REFUSED = true) := by
  have hgrant : poundGrant s 0xFF (creditsFor (s.basin.half k)) = none := by rw [poundGrant_basin, if_neg (Nat.not_le.mpr hroom)]
  have hst : ((s.basin.modHalf k ChHalf.denied).half k).st ≠ .draining := by
    rw [Chamber.half_modHalf_same, ChHalf.denied, Chamber.st_of_oldestFull hfull]
    decide
  have hdrain := basinDrain_of_full hfull
  rw [drainAsk_of_refused hrecs hgrant, if_neg hst] at hdrain
  exact ⟨_, congrArg done hdrain, rfl, refusalNoted_credits s 0xFF, refusalNoted_pound s 0xFF⟩

end

/-! ### A credit's release (R244) -/

theorem creditRelease_of_placed {s : State} {x : Credit} {rest : List Credit} {e : Extent} {off : Nat} (hhead : s.credits = x :: rest)
    (hplaced : unplaced s = none) (hext : ((s.courses.map (fun c => c.exts)).flatten).find? (fun e => e.num = x.ext) = some e)
    (hoff : e.off = some off) :
    creditRelease s = poundStatus { s.dramWrite (ringBase s + off + 16 + x.pos * 512) (creditData s x) with credits := rest } := by
  simp only [creditRelease, hhead, placeExts_of_placed 64 hplaced, hext, Option.bind_some, hoff]

end Sys2Proof.Machine
end

section
/-!
PROOF. Complete courses, lost drains, the placement of the ring and the minima that a read restarts (R8, R243, R246–R248).
-/
namespace Sys2Proof.Machine

/-! ### A complete course (R246) -/

/-- A course that is late is noted. -/
def lateNoted (s : State) (c : Course) : State := if c.late then s.raise Fld.TB_EVENTS_COURSE_LATE else s

theorem lateNoted_get (s : State) (c : Course) {g : Fld} (hlate : fldKey g ≠ fldKey Fld.TB_EVENTS_COURSE_LATE) :
    (lateNoted s c).get g = s.get g := by
  rw [lateNoted, State.get_ite, State.get_raise_ne s _ g hlate, ite_self]

theorem lateNoted_isSet (s : State) {c : Course} (h : c.late = true) : (lateNoted s c).isSet Fld.TB_EVENTS_COURSE_LATE = true := by
  rw [lateNoted, if_pos h]
  exact State.isSet_raise s Nat.one_pos

/-- A late course, or none, changes registers alone. -/
theorem regsOnly_lateNoted (s : State) (c : Course) : RegsOnly s (lateNoted s c) :=
  ((RegsOnly.refl s).put _ _).ite _ (RegsOnly.refl s)

/-- The ring and its registers once the header of course `c` stands at `off`. -/
def headerWritten (s : State) (c : Course) (off : Nat) (hdr : List Byte) : State :=
  let t := (ringTake s off hdr.length).dramWrite (ringBase s + off) hdr
  let t := lateNoted ((t.put Fld.RING_LAST_TICK c.tick).put Fld.RING_LAST_HDR_OFFSET off) c
  if t.dones.isEmpty then t.put Fld.RING_OLDEST_TICK c.tick else t

/-- What the ring keeps of the course. -/
def Course.done (c : Course) (off len : Nat) : DoneCourse :=
  ⟨c.tick, c.edgeNs, match c.exts with | e :: _ => e.off.getD off | [] => off, off, off + len, c.step, c.exts⟩

section
variable (s : State) (c : Course) (off : Nat) (hdr : List Byte)

/-- Beside the registers a written header changes the DRAM alone. -/
theorem regsOnly_headerWritten : RegsOnly (s.dramWrite (ringBase s + off) hdr) (headerWritten s c off hdr) := by
  obtain ⟨f, h⟩ := regsOnly_lateNoted
    ((((ringTake s off hdr.length).dramWrite (ringBase s + off) hdr).put Fld.RING_LAST_TICK c.tick).put Fld.RING_LAST_HDR_OFFSET off) c
  have hlate : RegsOnly (s.dramWrite (ringBase s + off) hdr) (lateNoted _ c) := ⟨f, h⟩
  exact (hlate.put _ _).ite _ hlate

theorem headerWritten_lastTick : (headerWritten s c off hdr).get Fld.RING_LAST_TICK = c.tick % 2 ^ 48 := by
  unfold headerWritten
  rw [State.get_ite, State.get_put_ne _ _ (by decide), ite_self, lateNoted_get _ _ (by decide), State.get_put_ne _ _ (by decide)]
  exact State.get_put_same _ _ _

theorem headerWritten_late (h : c.late = true) : (headerWritten s c off hdr).isSet Fld.TB_EVENTS_COURSE_LATE = true := by
  unfold headerWritten
  dsimp only
  split
  · exact (State.isSet_put_ne _ _ (by decide)).trans (lateNoted_isSet _ h)
  · exact lateNoted_isSet _ h

end

/-- The state once the oldest course is complete. -/
def courseClosed (s : State) (c : Course) (rest : List Course) (off : Nat) (hdr : List Byte) : State :=
  { headerWritten s c off hdr with courses := rest, dones := (headerWritten s c off hdr).dones ++ [c.done off hdr.length], ringFirst := false }

section
variable {s : State} {c next : Course} {later : List Course} {off prev : Nat} {hdr : List Byte} (hcourses : s.courses = c :: next :: later)
  (hplaced : unplaced s = none) (howed : courseOwed s c.tick = false) (hbasin : basinDrained s c.tick = true)
  (hoffs : c.exts.any (fun e => e.off.isNone) = false)
  (hpound : s.credits.any (fun k => c.exts.any (fun e => e.num = k.ext)) = false)
  (hprev : prev = if s.ringFirst then 2 ^ 64 - 1 else s.get Fld.RING_LAST_HDR_OFFSET) (hhdr : hdr = courseHeader c c.late prev)
  (hroom : ringPlace s hdr.length = some off)
include hcourses hplaced howed hbasin hoffs hpound hprev hhdr hroom

theorem courseWrite_of_complete : courseWrite s = (courseClosed s c (next :: later) off hdr, some (c.done off hdr.length)) := by
  unfold courseWrite
  rw [hcourses]
  simp only [placeExts_of_placed 64 hplaced, hcourses, List.headD_cons, howed, hbasin, hoffs, hpound, Bool.not_true, Bool.or_false,
    Bool.false_eq_true, if_false, ← hprev, ← hhdr, hroom]
  rfl

end

/-! ### A lost drain (R243) -/

/-- The half is empty and its loss noted. -/
def lossNoted (s : State) (c : Fin 56) (k : Nat) : State :=
  (((weirCounted s c).modCh c (fun x => { x with chamber := drainEnd x.chamber k c })).raise (Fld.CH_EVT_LOST c)).raise
    Fld.POUND_EVT_LOST_DRAIN

/-- A half still FULL after its bound is lost; a gap extent stands for the records it consumed numbers for. -/
theorem lostDrain_of_full {s : State} {c : Fin 56} {p : Stopping} {k : Nat} (hstop : (s.ch c).stopping = some p) (hbound : 3 ≤ p.edges)
    (hfull : (s.ch c).chamber.oldestFull = some k) :
    ∃ t, lostDrain s c = stopCheck t c ∧ (t = lossNoted s c k ∨ ∃ e, t = addExt (lossNoted s c k) e) := by
  simp only [lostDrain, hstop, hfull, Nat.not_lt.mpr hbound, if_false]
  refine ⟨_, rfl, ?_⟩
  split
  · exact .inl rfl
  · exact .inr ⟨_, rfl⟩

section
variable (s : State) (c : Fin 56) (k : Nat)

theorem lossNoted_ch : ((lossNoted s c k).ch c).chamber = drainEnd (s.ch c).chamber k c := by
  obtain ⟨f, h⟩ := regsOnly_weirCounted s c
  rw [lossNoted, State.raise_eq, State.put_ch, State.raise_eq, State.put_ch, State.modCh_ch_same, h]
  rfl

theorem lossNoted_credits : (lossNoted s c k).credits = s.credits := by
  obtain ⟨f, h⟩ := regsOnly_weirCounted s c
  rw [lossNoted, h]
  rfl

theorem lossNoted_lost : (lossNoted s c k).isSet (Fld.CH_EVT_LOST c) = true := by
  refine (State.isSet_put_ne _ _ ?_).trans (State.isSet_raise _ Nat.one_pos)
  simp only [fldKey, Fld.CH_EVT_LOST, Fld.POUND_EVT_LOST_DRAIN, Reg.CH_EVT, Reg.POUND_EVT, chPage]
  omega

theorem lossNoted_pound : (lossNoted s c k).isSet Fld.POUND_EVT_LOST_DRAIN = true := State.isSet_raise _ Nat.one_pos

end

theorem addExt_isSet (s : State) (e : Extent) {g : Fld} (hhead : fldKey g ≠ fldKey Fld.RING_HEAD_OFFSET)
    (hfull : fldKey g ≠ fldKey Fld.POUND_EVT_RING_FULL) : (addExt s e).isSet g = s.isSet g := by
  rw [State.isSet_eq, addExt_get s e hhead hfull, State.isSet_eq]

theorem does_lostDrain {s : State} {c : Fin 56} {p : Stopping} {k : Nat} (hstop : (s.ch c).stopping = some p) (hbound : 3 ≤ p.edges)
    (hfull : (s.ch c).chamber.oldestFull = some k) :
    ∃ t, Does (.lostDrain c) s (stopCheck t c) ∧ (t.ch c).chamber = drainEnd (s.ch c).chamber k c ∧ t.credits = s.credits ∧
      t.isSet (Fld.CH_EVT_LOST c) = true ∧ t.isSet Fld.POUND_EVT_LOST_DRAIN = true := by
  have hkeys : fldKey (Fld.CH_EVT_LOST c) ≠ fldKey Fld.RING_HEAD_OFFSET ∧ fldKey (Fld.CH_EVT_LOST c) ≠ fldKey Fld.POUND_EVT_RING_FULL := by
    simp only [fldKey, Fld.CH_EVT_LOST, Fld.RING_HEAD_OFFSET, Fld.POUND_EVT_RING_FULL, Reg.CH_EVT, Reg.RING_HEAD, Reg.POUND_EVT, chPage]
    omega
  obtain ⟨t, ht, rfl | ⟨e, rfl⟩⟩ := lostDrain_of_full hstop hbound hfull
  · exact ⟨_, congrArg done ht, lossNoted_ch s c k, lossNoted_credits s c k, lossNoted_lost s c k, lossNoted_pound s c k⟩
  · refine ⟨_, congrArg done ht, ?_, ?_, ?_, ?_⟩
    · rw [addExt_ch, lossNoted_ch]
    · rw [addExt_credits, lossNoted_credits]
    · rw [addExt_isSet _ e hkeys.1 hkeys.2, lossNoted_lost]
    · rw [addExt_isSet _ e (by decide) (by decide), lossNoted_pound]

/-! ### The placement of the ring (R247, R248) -/

theorem regWrite_ringSize (s : State) (v : Nat) : regWrite s Reg.RING_SIZE v = wrRingSize s v := rfl

theorem regApply_ringSize (s : State) (v : Nat) : regApply s Reg.RING_SIZE v = s.put Fld.RING_SIZE_MIB (bf v 0 16) := rfl

/-- The channels, the size and the end of the ring allow the placement. -/
def ringFits (s : State) (size : Nat) : Prop :=
  (∀ i : Fin 56, chConfigurable s i = true) ∧ 64 ≤ size ∧ (s.get Fld.RING_BASE_ADDR + size) * 2 ^ 20 ≤ s.devRegion

theorem chConfigurable_eq (s : State) (c : Fin 56) : [chDisabled, chLent, chAbsent].contains (chState s c) = chConfigurable s c := by
  simp only [List.contains_cons, List.contains_nil, Bool.or_false, Bool.or_assoc, chConfigurable]

theorem wrRing_guard (s : State) (size : Nat) :
    ((List.finRange 56).all (fun c => [chDisabled, chLent, chAbsent].contains (chState s c)) && decide (64 ≤ size)
      && decide ((s.get Fld.RING_BASE_ADDR + size) * 2 ^ 20 ≤ s.devRegion)) = true ↔ ringFits s size := by
  simp only [chConfigurable_eq, Bool.and_eq_true, List.all_eq_true, List.mem_finRange, forall_const, decide_eq_true_eq, ringFits, and_assoc]

/-- The registers that say what the ring holds are those of an empty one. -/
def ringEmptied (s : State) : State :=
  let t := (s.put Fld.RING_HEAD_OFFSET 0).put Fld.RING_TAIL_OFFSET 0
  ((t.put Fld.RING_OLDEST_TICK 0).put Fld.RING_LAST_TICK 0).put Fld.RING_LAST_HDR_OFFSET 0

/-- The ring placed anew, empty. -/
def ringPlaced (s : State) (size : Nat) : State :=
  { ringEmptied (s.put Fld.RING_SIZE_MIB size) with
    dones := []
    ringFirst := true
    courses := s.courses.map (fun c => { c with exts := c.exts.map (fun e => { e with off := none }) }) }

theorem ringPlaced_get (s : State) (size : Nat) (g : Fld) :
    (ringPlaced s size).get g = (ringEmptied (s.put Fld.RING_SIZE_MIB size)).get g := rfl

/-- The registers of what a ring holds. -/
def ringContents : List Fld :=
  [Fld.RING_HEAD_OFFSET, Fld.RING_TAIL_OFFSET, Fld.RING_OLDEST_TICK, Fld.RING_LAST_TICK, Fld.RING_LAST_HDR_OFFSET]

theorem ringEmptied_get (s : State) {g : Fld} (hg : ∀ f ∈ ringContents, fldKey g ≠ fldKey f) : (ringEmptied s).get g = s.get g := by
  simp only [ringContents, List.forall_mem_cons] at hg
  obtain ⟨hhead, htail, holdest, hlast, hhdr, -⟩ := hg
  rw [ringEmptied, State.get_put_ne _ _ hhdr, State.get_put_ne _ _ hlast, State.get_put_ne _ _ holdest, State.get_put_ne _ _ htail,
    State.get_put_ne _ _ hhead]

theorem ringEmptied_contents (s : State) : ∀ g ∈ ringContents, (ringEmptied s).get g = 0 := by
  simp only [ringContents, List.forall_mem_cons]
  refine ⟨?_, ?_, ?_, ?_, ?_, List.forall_mem_nil _⟩ <;>
    simp (disch := decide) only [ringEmptied, State.get_put_ne, State.get_put_same, Nat.zero_mod]

theorem wrRingSize_of_fits {s : State} {v : Nat} (h : ringFits s (bf v 0 16)) : wrRingSize s v = .ok (ringPlaced s (bf v 0 16)) := by
  rw [wrRingSize, wrRing, if_pos ((wrRing_guard s _).mpr h), regApply_ringSize]
  rfl

theorem wrRingSize_of_not_fits {s : State} {v : Nat} (h : ¬ ringFits s (bf v 0 16)) : wrRingSize s v = .refused := by
  rw [wrRingSize, wrRing, if_neg (fun hguard => h ((wrRing_guard s _).mp hguard))]

theorem doesSome_ringConfigWrite {s : State} {v : Word} (hreach : Reaches s Reg.RING_SIZE v.toNat) (horder : s.toll.orderly = false)
    (hfits : ringFits s (bf v.toNat 0 16)) :
    DoesSome (.ringConfigWrite true v) s (fun u => u.dones = [] ∧ u.get Fld.RING_HEAD_OFFSET = 0 ∧ u.get Fld.RING_TAIL_OFFSET = 0 ∧
      u.get Fld.RING_OLDEST_TICK = 0 ∧ u.get Fld.RING_LAST_TICK = 0 ∧ u.get Fld.RING_LAST_HDR_OFFSET = 0 ∧
      u.get Fld.RING_SIZE_MIB = bf v.toNat 0 16 ∧ u.get Fld.RING_BASE_ADDR = s.get Fld.RING_BASE_ADDR ∧ u.dram = s.dram) := by
  have hwrite : hostWrite64 s Reg.RING_SIZE v.toNat = ringPlaced (Touched s Reg.RING_SIZE) (bf v.toNat 0 16) := by
    rw [hostWrite64_reaches hreach, regWrite_ringSize, wrRingSize_of_fits (s := Touched s Reg.RING_SIZE) hfits]
  have hempty := ringEmptied_contents ((Touched s Reg.RING_SIZE).put Fld.RING_SIZE_MIB (bf v.toNat 0 16))
  simp only [ringContents, List.forall_mem_cons] at hempty
  obtain ⟨hhead, htail, holdest, hlast, hhdr, -⟩ := hempty
  refine ⟨_, congrArg done ((congrArg orderlyCheck hwrite).trans (orderlyCheck_id horder)), rfl, hhead, htail, holdest, hlast, hhdr, ?_, ?_,
    rfl⟩
  · rw [ringPlaced_get, ringEmptied_get _ (by decide)]
    exact State.get_put_of_lt _ (bf_lt v.toNat 0 16)
  · rw [ringPlaced_get, ringEmptied_get _ (by decide), State.get_put_ne _ _ (by decide), touched_get]

theorem does_ringConfigWrite_refused {s : State} {v : Word} (hreach : Reaches s Reg.RING_SIZE v.toNat) (horder : s.toll.orderly = false)
    (hfits : ¬ ringFits s (bf v.toNat 0 16)) :
    Does (.ringConfigWrite true v) s (pageErr (Touched s Reg.RING_SIZE) Reg.RING_SIZE 1) := by
  have hwrite : hostWrite64 s Reg.RING_SIZE v.toNat = pageErr (Touched s Reg.RING_SIZE) Reg.RING_SIZE 1 := by
    rw [hostWrite64_reaches hreach, regWrite_ringSize, wrRingSize_of_not_fits (s := Touched s Reg.RING_SIZE) hfits]
  have horderly : (pageErr (Touched s Reg.RING_SIZE) Reg.RING_SIZE 1).toll.orderly = false := by rw [pageErr_toll]; exact horder
  exact congrArg done ((congrArg orderlyCheck hwrite).trans (orderlyCheck_id horderly))

/-! ### Minima that a read restarts (R8) -/

/-- A read of a register that answers gives its value and drops the page's snapshot. -/
theorem hostRead64_of_pageAt {s : State} {a : Nat} (h : PageAt s a) :
    hostRead64 s a = (snapDrop (regRead s a).2 (pageOf a)).answer (regRead s a).1 := by
  obtain ⟨halign, hregion, hanswers, hwaits⟩ := h
  simp only [hostRead64, halign, hregion, hanswers, hwaits, ne_eq, not_true_eq_false, Bool.not_true, Bool.false_eq_true, if_false, reduceCtorEq]

theorem regRead_poundStatus (s : State) :
    regRead s Reg.POUND_STATUS = (regVal s Reg.POUND_STATUS, s.put Fld.POUND_STATUS_MIN_FREE (s.get Fld.POUND_STATUS_FREE)) := rfl

theorem regRead_mon1 (s : State) (m : Fin 10) : regRead s (Reg.MON1 m) = monRead s m := by
  have htime : Reg.MON1 m ≠ Reg.TIME_NS := by simp only [Reg.MON1, Reg.TIME_NS]; omega
  have hpound : Reg.MON1 m ≠ Reg.POUND_STATUS := by simp only [Reg.MON1, Reg.POUND_STATUS]; omega
  have hplace : 0x32110 ≤ Reg.MON1 m ∧ Reg.MON1 m < 0x321B0 ∧ Reg.MON1 m % 16 = 8 := by simp only [Reg.MON1]; omega
  have hindex : (Reg.MON1 m - 0x32118) / 16 = m.val := by simp only [Reg.MON1]; omega
  rw [regRead, if_neg htime, if_neg hpound, if_pos hplace, hindex]

theorem monRead_eq (s : State) (m : Nat) : (monRead s m).2 = s.put (Fld.MON1_MIN_MV m) (s.get (Fld.MON1_NOW_MV m)) := rfl

theorem doesSome_poundStatusRead {s : State} (h : PageAt s Reg.POUND_STATUS) :
    DoesSome .poundStatusRead s (fun u => u.out = s.out ++ [.readData (BitVec.ofNat 64 (regVal s Reg.POUND_STATUS)) false] ∧
      u.get Fld.POUND_STATUS_MIN_FREE = s.get Fld.POUND_STATUS_FREE % 2 ^ 10 ∧ u.credits = s.credits) := by
  refine ⟨_, congrArg done (hostRead64_of_pageAt h), ?_⟩
  rw [regRead_poundStatus]
  exact ⟨rfl, State.get_put_same _ _ _, rfl⟩

theorem doesSome_monMinRead {s : State} {m : Fin 10} (h : PageAt s (Reg.MON1 m)) :
    DoesSome (.monMinRead m) s (fun u => u.get (Fld.MON1_MIN_MV m) = s.get (Fld.MON1_NOW_MV m) % 2 ^ 16 ∧
      u.get (Fld.MON1_NOW_MV m) = s.get (Fld.MON1_NOW_MV m) ∧ u.get (Fld.MON1_BELOW m) = s.get (Fld.MON1_BELOW m) ∧
      u.devState = s.devState) := by
  have hother {g : Fld} (hg : fldKey g ≠ fldKey (Fld.MON1_MIN_MV m)) :
      (s.put (Fld.MON1_MIN_MV m) (s.get (Fld.MON1_NOW_MV m))).get g = s.get g := State.get_put_ne s _ hg
  refine ⟨_, congrArg done (hostRead64_of_pageAt h), ?_⟩
  rw [regRead_mon1, monRead_eq]
  refine ⟨State.get_put_same _ _ _, hother ?_, hother ?_, hother ?_⟩ <;>
    simp only [fldKey, Fld.MON1_NOW_MV, Fld.MON1_MIN_MV, Fld.MON1_BELOW, Fld.DEV_STATE_STATE, Reg.MON1, Reg.DEV_STATE] <;>
    omega

/-! ### The obligation -/

/-- Settles O43, command by command. -/
theorem poundAndRing : Obligations.PoundAndRing := by
  refine ⟨fun s n w c k p off h x rest e => ⟨?slot, does_drainEnd, ?basin, ?release⟩,
    fun s c next later prev off k hdr n m p v => ⟨?course, does_lostDrain, ?ring, doesSome_poundStatusRead, doesSome_monMinRead⟩⟩
  case slot =>
    rintro hentry hchan hserved hlocks hswap hfirst hreach hfull hidle rfl
    have hdrain := drainSlot_of_due hentry hchan hserved hlocks hswap hfirst hreach
    exact ⟨doesSome_drainSlot_of_copying hdrain hfull hidle, doesSome_drainSlot_of_empty hdrain hfull hidle,
      doesSome_drainSlot_of_granted hdrain hfull hidle, doesSome_drainSlot_of_refused hdrain hfull hidle⟩
  case basin =>
    intro hfull hrecs
    exact ⟨doesSome_basinDrain_of_granted hfull hrecs, doesSome_basinDrain_of_refused hfull hrecs⟩
  case release =>
    intro hhead hplaced hext hoff
    exact congrArg done (creditRelease_of_placed hhead hplaced hext hoff)
  case course =>
    intro hcourses hplaced howed hbasin hoffs hpound hprev hhdr hroom
    have hwrite := courseWrite_of_complete hcourses hplaced howed hbasin hoffs hpound hprev hhdr hroom
    obtain ⟨f, hwritten⟩ := regsOnly_headerWritten s c off hdr
    refine ⟨courseClosed s c (next :: later) off hdr, c.done off hdr.length, ?_, rfl, ?_, rfl, rfl, rfl, ?_,
      headerWritten_lastTick s c off hdr, headerWritten_late s c off hdr⟩
    · change done (orderlyCheck (courseComplete s)) = _
      rw [courseComplete, hwrite]
      rfl
    · rw [courseClosed, hwritten]
      rfl
    · rw [courseClosed, hwritten]
  case ring =>
    intro hreach horder
    refine ⟨fun hchans hsize hend => doesSome_ringConfigWrite hreach horder ⟨hchans, hsize, hend⟩,
      fun hfail => does_ringConfigWrite_refused hreach horder ?_⟩
    rintro ⟨hchans, hsize, hend⟩
    rcases hfail with hchan | hsmall | hpast
    · exact absurd (hchans n) (by rw [hchan]; decide)
    · exact absurd hsize (Nat.not_le.mpr hsmall)
    · exact absurd hend (Nat.not_le.mpr hpast)

end Sys2Proof.Machine
end

section
/-!
PROOF. What leaves the command queues as they are: reports of errors, completion writes (R72, R76, R336).
-/
namespace Sys2Proof.Machine

/-! ### Operations that leave the command queues as they are -/

/-- `u` has the channels and the Basin's queue of `s`, and an orderly RESET waits in it if it does in `s`. -/
structure KeepsEntries (s u : State) : Prop where
  chans : u.chans = s.chans
  basinq : u.basinq = s.basinq
  orderly : u.toll.orderly = s.toll.orderly

theorem KeepsEntries.refl (s : State) : KeepsEntries s s := ⟨rfl, rfl, rfl⟩

theorem KeepsEntries.trans {s t u : State} (h : KeepsEntries s t) (k : KeepsEntries t u) : KeepsEntries s u :=
  ⟨k.chans.trans h.chans, k.basinq.trans h.basinq, k.orderly.trans h.orderly⟩

theorem KeepsEntries.put {s u : State} (h : KeepsEntries s u) (f : Fld) (v : Nat) : KeepsEntries s (u.put f v) := ⟨h.chans, h.basinq, h.orderly⟩

theorem KeepsEntries.emit {s u : State} (h : KeepsEntries s u) (e : OutEvent) : KeepsEntries s (u.emit e) := ⟨h.chans, h.basinq, h.orderly⟩

theorem KeepsEntries.ite {s t u : State} (p : Prop) [Decidable p] (ht : KeepsEntries s t) (hu : KeepsEntries s u) :
    KeepsEntries s (if p then t else u) := by
  split
  · exact ht
  · exact hu

theorem KeepsEntries.dispatched {s u : State} (h : KeepsEntries s u) : dispatched u = dispatched s := by
  rw [Machine.dispatched, Machine.dispatched, h.chans, h.basinq]

theorem keepsEntries_thLog (s : State) (src code : Nat) (data : List Byte) : KeepsEntries s (thLog s src code data) := by
  obtain ⟨th, k, o, h⟩ := thLog_eq s src code data
  refine ⟨by rw [h], by rw [h], ?_⟩
  unfold thLog logWrite
  dsimp only
  split
  · split <;> rfl
  · rfl

theorem keepsEntries_faultValid (s : State) (v : Bool) : KeepsEntries s (faultValid s v) :=
  have hput := (KeepsEntries.refl s).put Fld.FAULT_TIMER_VALID (b2n v)
  .ite _ hput (hput.emit _)

theorem keepsEntries_faultRec (s : State) (pin code cls tick : Nat) (esc : Bool) : KeepsEntries s (faultRec s pin code cls tick esc) :=
  ⟨rfl, rfl, rfl⟩

/-- An error pin's assertion. -/
theorem keepsEntries_errorPin (s : State) (pin code : Nat) : KeepsEntries s (errorPin s pin code) := by
  unfold errorPin
  refine .ite _ (.refl s) ?_
  have hseen : KeepsEntries s { s with pinsSeen := s.pinsSeen ||| 2 ^ pin } := ⟨rfl, rfl, rfl⟩
  extract_lets seen status cls grace named coded valid timed first logged
  have hstatus : KeepsEntries s status := hseen.put _ _
  have hcoded : KeepsEntries s coded := (((hstatus.put _ _).put _ _).put _ _).put _ _
  have htimed : KeepsEntries s timed := ((hcoded.trans (keepsEntries_faultValid coded true)).put _ _).put _ _
  refine .ite _ (hstatus.put _ _) ?_
  exact (htimed.trans (keepsEntries_thLog timed _ _ _)).trans (keepsEntries_faultRec logged _ _ _ _ _)

theorem keepsEntries_repairAdd (s : State) (kind unit sub index : Nat) : KeepsEntries s (repairAdd s kind unit sub index) := by
  unfold repairAdd
  refine .ite _ ((KeepsEntries.refl s).put _ _) ?_
  extract_lets added counted tiles
  have hadded : KeepsEntries s added := ⟨rfl, rfl, rfl⟩
  have hcounted : KeepsEntries s counted := hadded.put _ _
  exact KeepsEntries.trans (.ite _ (hcounted.put _ _) hcounted) (keepsEntries_thLog _ _ _ _)

theorem keepsEntries_pageRetire (s : State) (page : Nat) : KeepsEntries s (pageRetire s page) := by
  unfold pageRetire
  refine .ite _ (((KeepsEntries.refl s).put _ _).trans (keepsEntries_errorPin _ _ _)) ?_
  extract_lets again retired counted raised
  have hretired : KeepsEntries s retired := ⟨rfl, rfl, rfl⟩
  have hraised : KeepsEntries s raised := ((hretired.put _ _).put _ _).put _ _
  exact .ite _ hraised (hraised.trans (keepsEntries_repairAdd ..))

/-- An uncorrectable word of device DRAM is met. -/
theorem keepsEntries_dramEcc (s : State) (addr : Nat) : KeepsEntries s (dramEcc s addr) := by
  have hreport : KeepsEntries s (dramReport s addr) :=
    ((((KeepsEntries.refl s).put _ _).put _ _).put _ _).trans (keepsEntries_errorPin _ _ _)
  exact .ite _ hreport (hreport.trans (keepsEntries_pageRetire ..))

theorem keepsEntries_operandEcc (s : State) (a n : Nat) : KeepsEntries s (operandEcc s a n) := by
  refine .ite _ (.refl s) ?_
  unfold dramMeet
  split
  · exact keepsEntries_dramEcc ..
  · exact .refl s

theorem keepsEntries_compWrite (s : State) (addr : Nat) (data : List Byte) : KeepsEntries s (compWrite s addr data) :=
  .ite _ ((KeepsEntries.refl s).emit _) ⟨rfl, rfl, rfl⟩

theorem keepsEntries_crPut (s : State) (r : Nat) (lo : List Byte) (flags : Nat) (hi : List Byte) : KeepsEntries s (crPut s r lo flags hi) :=
  (keepsEntries_compWrite ..).put _ _

theorem keepsEntries_crGapPut (s : State) (r : Nat) : KeepsEntries s (crGapPut s r) := by
  refine .ite _ ?_ (.refl s)
  extract_lets n put cleared erased
  have hcleared : KeepsEntries s cleared := ((keepsEntries_crPut ..).put _ _).put _ _
  have herased : KeepsEntries s erased := hcleared.trans ⟨rfl, rfl, rfl⟩
  exact .ite _ herased (herased.put _ _)

theorem keepsEntries_crRecord (s : State) (e : WorkEntry) (status : Nat) : KeepsEntries s (crRecord s e status) := by
  unfold crRecord
  extract_lets r gap noted notify put mode
  have hgap : KeepsEntries s gap := keepsEntries_crGapPut ..
  have hnoted : KeepsEntries s noted := .ite _ hgap (hgap.trans ⟨rfl, rfl, rfl⟩)
  have hput : KeepsEntries s put := hgap.trans (keepsEntries_crPut ..)
  exact .ite _ (.refl s) (.ite _ (((hnoted.put _ _).put _ _).put _ _) (.ite _ (hput.put _ _) hput))

/-- A completion takes the entry from its command queue and leaves the queues otherwise as they are. -/
theorem keepsEntries_complete (s : State) (e : WorkEntry) (status : Nat) (result : List Byte) :
    KeepsEntries (dequeue s e) (complete s e status result) := by
  unfold complete
  extract_lets t own written owned recorded
  have hrecorded : KeepsEntries t recorded :=
    ((keepsEntries_compWrite ..).trans (keepsEntries_compWrite ..)).trans (keepsEntries_crRecord ..)
  exact .ite _ (.refl t) (.ite _ (hrecorded.put _ _) hrecorded)

theorem dequeue_of_basin {e : WorkEntry} (h : 56 ≤ e.chan) (s : State) :
    dequeue s e = { s with basinq := s.basinq.filter (fun y => y.serial != e.serial) } :=
  dif_neg (Nat.not_lt.mpr h)

/-- A completed Basin entry has left the Basin's queue. -/
theorem complete_basinq_of_basin {e : WorkEntry} (h : 56 ≤ e.chan) (s : State) (status : Nat) (result : List Byte) :
    (complete s e status result).basinq = s.basinq.filter (fun y => y.serial != e.serial) := by
  rw [(keepsEntries_complete s e status result).basinq, dequeue_of_basin h]

end Sys2Proof.Machine
end

section
/-!
PROOF. A SNAPSHOT of a course that holds an uncorrectable word (R294, R336).
-/
namespace Sys2Proof.Machine

/-! ### The start of a SNAPSHOT -/

/-- A Basin entry that has not started, with no earlier one of its opcode there, starts. -/
theorem basinStart_of_inBasin {s : State} {serial opc : Nat} {e : WorkEntry} (h : InBasin s serial opc e) (key : WorkEntry → Option Nat)
    (f : WorkEntry → State) : basinStart s serial opc key f = f e := by
  obtain ⟨hentry, hstage, hfirst⟩ := h
  have hbefore : s.basinq.filter (fun x => x.opcode == opc && decide (x.serial < serial)) = [] := by
    simpa [List.filter_eq_nil_iff] using hfirst
  simp only [basinStart, hentry, hstage, hbefore, decide_true, List.all_nil, List.any_nil, Bool.not_false, Bool.and_self, if_true]

/-- A SNAPSHOT whose operands pass and whose courses are retained is refused when one of their words is uncorrectable. -/
theorem snapshotStart_of_bad {s : State} {serial a : Nat} {e : WorkEntry} (h : InBasin s serial opSnapshot e) (hturn : longTurn s e = true)
    (hbuf : ¬ (e.arg 32 4 = 0 ∨ e.arg 48 4 % 4096 ≠ 0 ∨ (!bufOk s (e.arg 40 8) (e.arg 48 4)) = true))
    (hretained : ¬ (s.dones.isEmpty = true ∨ tickAfter (e.arg 24 6) (s.get Fld.RING_OLDEST_TICK) = true ∨
      tickAfter (s.get Fld.RING_LAST_TICK) ((e.arg 24 6 + e.arg 32 4 + (2 ^ 48 - 1)) % 2 ^ 48) = true))
    (hroom : (snapImage s (e.arg 24 6) (e.arg 32 4)).length ≤ e.arg 48 4) (hbad : snapBad s (e.arg 24 6) (e.arg 32 4) = some a) :
    snapshotStart s serial = longRefuse (dramEcc s a) e St.busError (snapImage s (e.arg 24 6) (e.arg 32 4)).length := by
  rw [snapshotStart, basinStart_of_inBasin h]
  simp only [hturn, hbuf, hretained, Nat.not_lt.mpr hroom, hbad, Bool.not_true, Bool.false_eq_true, if_false, Option.isSome_some, if_true,
    Option.getD_some]

/-! ### A ring with an uncorrectable word -/

/-- A SNAPSHOT of the course of tick 0 to host memory, dispatched with number 11: FIRST_TICK 0, TICK_COUNT 1, HOST_ADDR 2^63,
HOST_LEN 4096. -/
def snapEntry : WorkEntry :=
  { bytes := [0x80, 0x24, 0xFF] ++ zeros 29 ++ [1] ++ zeros 14 ++ [0x80, 0, 0x10] ++ zeros 14, src := .queue, wq := 0, idx := 0, slot := 0,
    ring := 0xFF, serial := 11, stage := .queued, waits := [], waited := 0, total := 0, done := 0, stepped := false, data := [], last := false,
    idle := false }

/-- The course of tick 0: one extent of one word, at the start of the ring. -/
def shortCourse : DoneCourse :=
  { tick := 0, edgeNs := 0, start := 0, hdr := 128, stop := 256, step := [],
    exts := [{ num := 0, chan := 5, tick := 0, sub := 0, len := 8, recs := [], tags := [], hasGap := false, refused := false, off := some 0 }] }

/-- A ready device that retains the course, whose word behind the extent's header, granule 2 of DRAM, is poisoned. -/
def poisonedRing : State :=
  { State.reset.put Fld.DEV_STATE_STATE devReady with basinq := [snapEntry], dones := [shortCourse], poison := [2] }

theorem inBasin_poisonedRing : InBasin poisonedRing 11 opSnapshot snapEntry := ⟨by decide +kernel, rfl, by decide +kernel⟩

theorem snapshotStart_poisonedRing : snapshotStart poisonedRing 11 =
    longRefuse (dramEcc poisonedRing 16) snapEntry St.busError (snapImage poisonedRing (snapEntry.arg 24 6) (snapEntry.arg 32 4)).length :=
  snapshotStart_of_bad inBasin_poisonedRing (by decide +kernel) (by decide +kernel) (by decide +kernel) (by decide +kernel) (by decide +kernel)

/-- The word read as uncorrectable ends the entry, which leaves the Basin's queue. -/
theorem snapshotStart_poisonedRing_basinq : (snapshotStart poisonedRing 11).basinq = [] := by
  rw [snapshotStart_poisonedRing, longRefuse, complete_basinq_of_basin (by decide +kernel), (keepsEntries_dramEcc ..).basinq]
  rfl

/-- Refutes O33: a SNAPSHOT of a retained course that holds an uncorrectable word ends with BUS_ERROR at once, where the statement has it
run. -/
theorem not_basinQueueEntries : ¬ Obligations.BasinQueueEntries := by
  unfold Obligations.BasinQueueEntries
  rintro ⟨-, h⟩
  obtain ⟨-, -, -, -, hsnapshot, -⟩ := h poisonedRing 11 snapEntry .fail [] 0
  obtain ⟨u, hu, -, x, hx, -⟩ := (hsnapshot inBasin_poisonedRing (by decide +kernel) (by decide +kernel) (by decide +kernel)
    (by decide +kernel)).2 (by decide +kernel) (by decide +kernel) (by decide +kernel) (by decide +kernel)
  have hsettle : settle (snapshotStart poisonedRing 11) = settle u := by injection hu
  have hbasin : u.basinq = [] := by
    rw [← settle_basinq u, ← hsettle, settle_basinq, snapshotStart_poisonedRing_basinq]
  rw [basinEntry, hbasin] at hx
  cases hx

end Sys2Proof.Machine
end

section
/-!
PROOF. The host function's link, power and bus-master states (R86, R326, R338, R356, R358).
-/
namespace Sys2Proof.Machine

/-! ### A link that goes down (R326) -/

theorem SMap.find?_filter {α : Type} (p : Nat → Bool) (m : List (Nat × α)) (k : Nat) :
    SMap.find? (m.filter (fun x => p x.1)) k = if p k then SMap.find? m k else none := by
  induction m with
  | nil => simp [SMap.find?]
  | cons x t ih =>
    obtain ⟨j, v⟩ := x
    rw [List.filter_cons]
    by_cases hj : j = k
    · subst hj
      cases hp : p j <;> simp [SMap.find?, hp, ih]
    · cases hp : p j <;> simp [SMap.find?, hj, ih]

/-- What the loss of the link leaves of `s`: the MSI-X table and the host vectors' stacks are empty, no read is under way. -/
def linkLost (s : State) : State :=
  { s with
    host := { s.host with link := false, msix := [], msixEn := false, fnMask := false }
    ic := { s.ic with stackTab := s.ic.stackTab.filter (fun p => decide (0x40 ≤ p.1)) }
    polls := [] }

theorem pollsLost_of_unreached {s : State} (h : s.hostOk = false) : pollsLost s = { s with polls := [] } := by
  simp only [pollsLost, h, Bool.false_eq_true, if_false]

theorem hostLinkDown_eq (s : State) : hostLinkDown s = linkLost s := by
  have hdown : (hostHotReset (s.modHost (fun h => { h with link := false }))).hostOk = false := by
    simp [State.hostOk, hostHotReset]
  rw [hostLinkDown, pollsLost_of_unreached hdown]
  simp only [hostHotReset, linkLost, State.modHost, State.modIc]

theorem stackOf_linkLost (s : State) (v : Nat) : stackOf (linkLost s) v = if 0x40 ≤ v then stackOf s v else [] := by
  have hfind := SMap.find?_filter (fun j => decide (0x40 ≤ j)) s.ic.stackTab v
  simp only [stackOf, SMap.get, linkLost, hfind, decide_eq_true_eq]
  split_ifs <;> rfl

theorem stackOf_linkLost_put_host (s : State) {v : Nat} (h : v < 0x40) : stackOf ((linkLost s).put Fld.LINK_STATE_HOST_WIDTH 0) v = [] :=
  (stackOf_linkLost s v).trans (if_neg (Nat.not_le.mpr h))

theorem stackOf_linkLost_put_other (s : State) {v : Nat} (h : 0x40 ≤ v) :
    stackOf ((linkLost s).put Fld.LINK_STATE_HOST_WIDTH 0) v = stackOf s v :=
  (stackOf_linkLost s v).trans (if_pos h)

theorem linkLost_width (s : State) : ((linkLost s).put Fld.LINK_STATE_HOST_WIDTH 0).get Fld.LINK_STATE_HOST_WIDTH = 0 :=
  State.get_put_same _ _ _

theorem doesSome_hostPerst (s : State) :
    DoesSome .hostPerst s (fun u => u.host.link = false ∧ u.host.msix = [] ∧ u.host.msixEn = false ∧ u.get Fld.LINK_STATE_HOST_WIDTH = 0 ∧
      u.polls = [] ∧ u.host.held = s.host.held ∧
      (∀ v, v < 0x40 → stackOf u v = []) ∧ (∀ v, 0x40 ≤ v → stackOf u v = stackOf s v) ∧ u.devState = s.devState ∧ u.chans = s.chans) :=
  ⟨_, congrArg (fun t : State => done (t.put Fld.LINK_STATE_HOST_WIDTH 0)) (hostLinkDown_eq s), rfl, rfl, rfl, linkLost_width s, rfl, rfl,
    fun _ => stackOf_linkLost_put_host s, fun _ => stackOf_linkLost_put_other s, State.get_put_ne (linkLost s) 0 (by decide), rfl⟩

/-! ### The host port's error pin (R338) -/

@[simp] theorem faultValid_get {g : Fld} (hg : fldKey g ≠ fldKey Fld.FAULT_TIMER_VALID) (s : State) (v : Bool) :
    (faultValid s v).get g = s.get g := by
  rw [faultValid, State.get_ite, State.emit_get, ite_self, State.putB, State.get_put_ne _ _ hg]

@[simp] theorem faultRec_get (s : State) (pin code cls tick : Nat) (esc : Bool) (g : Fld) :
    (faultRec s pin code cls tick esc).get g = s.get g := rfl

/-- A pin that asserts sets its bit of FAULT_STATUS. -/
theorem errorPin_status {s : State} {pin : Nat} (code : Nat)
    (h : ¬ (s.devState = devSelftest ∨ s.devState = devDrydock ∨ bit s.pinsHeld pin = true)) :
    (errorPin s pin code).get Fld.FAULT_STATUS_STATUS = (s.get Fld.FAULT_STATUS_STATUS ||| 2 ^ pin) % 2 ^ 64 := by
  unfold errorPin
  rw [if_neg h]
  extract_lets seen status cls grace named coded valid timed first logged
  have hstatus : status.get Fld.FAULT_STATUS_STATUS = (s.get Fld.FAULT_STATUS_STATUS ||| 2 ^ pin) % 2 ^ 64 := State.get_put_same _ _ _
  have hcoded : coded.get Fld.FAULT_STATUS_STATUS = status.get Fld.FAULT_STATUS_STATUS := by
    simp (disch := decide) only [coded, named, State.get_put_ne]
  have htimed : timed.get Fld.FAULT_STATUS_STATUS = coded.get Fld.FAULT_STATUS_STATUS := by
    simp (disch := decide) only [timed, valid, State.clear, State.get_put_ne, faultValid_get]
  have hlogged : logged.get Fld.FAULT_STATUS_STATUS = timed.get Fld.FAULT_STATUS_STATUS := thLog_get ..
  rw [State.get_ite, faultRec_get, hlogged, htimed, hcoded, State.raise, State.get_put_ne _ _ (by decide), ite_self, hstatus]

/-- A link lost in D0 asserts the host port's pin first. -/
theorem hostDown_of_d0 {s : State} (hlink : s.host.link = true) (hd0 : s.host.d3hot = false) :
    hostDown s = (linkLost (errorPin s pinHost 0x02)).put Fld.LINK_STATE_HOST_WIDTH 0 := by
  simp only [hostDown, hlink, hd0, Bool.not_false, Bool.and_self, if_true, hostLinkDown_eq]

theorem hostDown_of_not_d0 {s : State} (h : s.host.link = false ∨ s.host.d3hot = true) :
    hostDown s = (linkLost s).put Fld.LINK_STATE_HOST_WIDTH 0 := by
  have hcond : (s.host.link && !s.host.d3hot) = false := by rcases h with h | h <;> simp [h]
  simp only [hostDown, hcond, Bool.false_eq_true, if_false, hostLinkDown_eq]

theorem doesSome_hostLinkDown_of_not_d0 {s : State} (h : s.host.link = false ∨ s.host.d3hot = true) :
    DoesSome .hostLinkDown s (fun u => u.host.link = false ∧ u.host.msix = [] ∧ u.get Fld.LINK_STATE_HOST_WIDTH = 0 ∧ u.polls = [] ∧
      u.host.held = s.host.held ∧ (∀ v, v < 0x40 → stackOf u v = []) ∧ u.chans = s.chans) :=
  ⟨_, congrArg done (hostDown_of_not_d0 h), rfl, rfl, linkLost_width s, rfl, rfl, fun _ => stackOf_linkLost_put_host s, rfl⟩

theorem State.serving_iff (s : State) : s.serving = true ↔ s.devState = devReady ∨ s.devState = devRun ∨ s.devState = devBrace := by
  simp [State.serving, or_assoc]

theorem bit_eq_testBit (v i : Nat) : bit v i = v.testBit i := by
  rw [bit, Nat.testBit_eq_decide_div_mod_eq]
  rfl

theorem doesSome_hostLinkDown_of_d0 {s : State} (hlink : s.host.link = true) (hd0 : s.host.d3hot = false) (hserving : s.serving = true)
    (hpin : s.pinsHeld.testBit 56 = false) :
    DoesSome .hostLinkDown s (fun u => u.host.link = false ∧ (u.get Fld.FAULT_STATUS_STATUS).testBit 56 = true ∧
      u.get Fld.LINK_STATE_HOST_WIDTH = 0 ∧ u.polls = []) := by
  have hasserts : ¬ (s.devState = devSelftest ∨ s.devState = devDrydock ∨ bit s.pinsHeld pinHost = true) := by
    rw [bit_eq_testBit, show pinHost = 56 from rfl, hpin]
    rcases (State.serving_iff s).mp hserving with h | h | h <;> rw [h] <;> decide
  refine ⟨_, congrArg done (hostDown_of_d0 hlink hd0), rfl, ?_, linkLost_width _, rfl⟩
  rw [State.get_put_ne _ _ (by decide), show (linkLost (errorPin s pinHost 2)).get _ = (errorPin s pinHost 2).get _ from rfl,
    errorPin_status 2 hasserts, Nat.testBit_mod_two_pow, Nat.testBit_or, show pinHost = 56 from rfl, Nat.testBit_two_pow_self, Bool.or_true]
  rfl

/-! ### What the host missed (R86) -/

theorem updEntry_eq (s : State) (e : WorkEntry) : ∃ cs q, updEntry s e = { s with chans := cs, basinq := q } := by
  unfold updEntry
  split <;> exact ⟨_, _, rfl⟩

/-- Updates of entries change the command queues alone. -/
theorem foldl_updEntry_eq (f : WorkEntry → WorkEntry) (l : List WorkEntry) (s : State) :
    ∃ cs q, l.foldl (fun s e => updEntry s (f e)) s = { s with chans := cs, basinq := q } := by
  induction l generalizing s with
  | nil => exact ⟨_, _, rfl⟩
  | cons e l ih =>
    obtain ⟨cs, q, he⟩ := updEntry_eq s (f e)
    obtain ⟨cs', q', hl⟩ := ih (updEntry s (f e))
    exact ⟨cs', q', by rw [List.foldl_cons, hl, he]⟩

theorem foldl_hostWrite (l : List HostWrite) (s : State) :
    l.foldl (fun s w => s.hostWrite w.addr w.data) s = { s with out := s.out ++ l.map OutEvent.hostWrite } := by
  induction l generalizing s with
  | nil => simp
  | cons w l ih =>
    rw [List.foldl_cons, ih]
    simp only [State.hostWrite, State.emit, List.map_cons, List.append_assoc, List.singleton_append]

/-- While the host cannot be reached the completions stay held. -/
theorem heldFlush_of_unreached {s : State} (h : s.hostOk = false) : heldFlush s = s := by simp [heldFlush, h]

/-- Once the host can be reached the held completions are written in their order. -/
theorem heldFlush_of_reached {s : State} (h : s.hostOk = true) : ∃ cs q, heldFlush s =
    { s with host := { s.host with held := [] }, out := s.out ++ s.host.held.map OutEvent.hostWrite, chans := cs, basinq := q } := by
  obtain ⟨cs, q, hl⟩ := foldl_updEntry_eq (fun e => { e with idle := false }) _
    (s.host.held.foldl (fun s w => s.hostWrite w.addr w.data) (s.modHost (fun h => { h with held := [] })))
  refine ⟨cs, q, ?_⟩
  rw [heldFlush, if_pos h, longsResume, hl, foldl_hostWrite]
  rfl

/-! ### A link that comes up (R358) -/

theorem trainWidth_lt (s : State) (p offer : Nat) : trainWidth s p offer < 16 := by
  unfold trainWidth widthOf
  cases hw : [8, 4, 2, 1].find? (fun w => decide (w ≤ min offer (portCap s p))) with
  | none => decide
  | some w =>
    have hmem := List.mem_of_find?_eq_some hw
    simp only [List.mem_cons, List.not_mem_nil, or_false] at hmem
    rw [Option.getD_some]
    omega

theorem doesSome_hostLinkUp {s : State} {width : BitVec 4} (h : trainWidth s 0 width.toNat ≠ 0) :
    DoesSome (.hostLinkUp width) s (fun u =>
      u.get Fld.LINK_STATE_HOST_WIDTH = trainWidth s 0 width.toNat ∧ u.devState = s.devState ∧ u.polls = s.polls ∧
      u.host = { s.host with link := true, held := if s.host.d3hot || !s.host.bme then s.host.held else [] } ∧
      u.out = s.out ++ (if s.host.d3hot || !s.host.bme then [] else s.host.held.map OutEvent.hostWrite)) := by
  have hdoes : Does (.hostLinkUp width) s ((hostLinkUp s).put Fld.LINK_STATE_HOST_WIDTH (trainWidth s 0 width.toNat)) :=
    congrArg done (if_neg h)
  refine ⟨_, hdoes, State.get_put_of_lt _ (trainWidth_lt ..), (State.get_put_ne _ _ (by decide)).trans ?_, ?_⟩
  all_goals cases hok : (s.modHost (fun h => { h with link := true })).hostOk
  case refine_1.false => rw [hostLinkUp, heldFlush_of_unreached hok]; rfl
  case refine_1.true =>
    obtain ⟨cs, q, hflush⟩ := heldFlush_of_reached hok
    rw [hostLinkUp, hflush]
    rfl
  all_goals
    have hheld : (s.host.d3hot || !s.host.bme) = !(s.modHost (fun h => { h with link := true })).hostOk := by
      simp [State.hostOk]
    rw [hheld, hok]
  case refine_2.false =>
    rw [hostLinkUp, heldFlush_of_unreached hok]
    exact ⟨rfl, rfl, (List.append_nil _).symm⟩
  case refine_2.true =>
    obtain ⟨cs, q, hflush⟩ := heldFlush_of_reached hok
    rw [hostLinkUp, hflush]
    exact ⟨rfl, rfl, rfl⟩

/-! ### Writes of configuration space (R86, R358, R407) -/

theorem inConfig_of_selftest {s : State} (h : s.devState = devSelftest) (f : State → State) : inConfig s f = s.emit .configRetry := if_pos h

theorem inConfig_of_started {s : State} (h : s.devState ≠ devSelftest) (f : State → State) : inConfig s f = f s := if_neg h

theorem does_hostD3hotEntry {s : State} (h : s.devState ≠ devSelftest) :
    Does .hostD3hotEntry s { s.modHost (fun h => { h with d3hot := true }) with polls := [] } := by
  have hlost : hostD3 s = { s.modHost (fun h => { h with d3hot := true }) with polls := [] } := by
    rw [hostD3, pollsLost_of_unreached (by simp [State.hostOk])]
  exact congrArg done ((inConfig_of_started h _).trans hlost)

theorem does_hostBmeClear {s : State} (h : s.devState ≠ devSelftest) :
    Does .hostBmeClear s { s.modHost (fun h => { h with bme := false }) with polls := [] } := by
  have hlost : hostBmeClear s = { s.modHost (fun h => { h with bme := false }) with polls := [] } := by
    rw [Machine.hostBmeClear, pollsLost_of_unreached (by simp [State.hostOk])]
  exact congrArg done ((inConfig_of_started h _).trans hlost)

/-- A command that only gives the host function the state `x` and then writes what was held, if the host can be reached. -/
theorem does_heldFlush {s : State} {i : Instr} {x : HostFn} (hheld : x.held = s.host.held) (hi : exec i s = done (heldFlush { s with host := x })) :
    ((x.link && !x.d3hot && x.bme) = true → DoesSome i s (fun u => u.host = { x with held := [] } ∧
      u.out = s.out ++ s.host.held.map OutEvent.hostWrite ∧ u.polls = s.polls ∧ u.fld = s.fld)) ∧
    ((x.link && !x.d3hot && x.bme) = false → Does i s { s with host := x }) := by
  refine ⟨fun hok => ?_, fun hok => ?_⟩
  · obtain ⟨cs, q, hflush⟩ := heldFlush_of_reached (s := { s with host := x }) hok
    refine ⟨_, hi, ?_⟩
    rw [hflush, hheld]
    exact ⟨rfl, rfl, rfl, rfl⟩
  · rw [Does, Completes, hi, heldFlush_of_unreached (s := { s with host := x }) hok]
    rfl

/-! ### The statement -/

/-- Settles O22, command by command. -/
theorem hostFunction : Obligations.HostFunction := by
  refine fun s width => ⟨doesSome_hostPerst s, doesSome_hostLinkDown_of_not_d0, doesSome_hostLinkDown_of_d0, fun h => congrArg done (if_pos h),
    doesSome_hostLinkUp, fun i hi hst => ?retry, fun hst => ⟨does_hostD3hotEntry hst, does_hostBmeClear hst, fun x hx => ?reached⟩,
    fun hstatus hen hheld => ?repeats, fun h => ?quiet⟩
  case retry =>
    simp only [List.mem_cons, List.not_mem_nil, or_false] at hi
    rcases hi with rfl | rfl | rfl | rfl <;> exact congrArg done (inConfig_of_selftest hst _)
  case reached =>
    simp only [List.mem_cons, List.not_mem_nil, or_false] at hx
    rcases hx with rfl | rfl <;> exact does_heldFlush rfl (congrArg done (inConfig_of_started hst _))
  case repeats => exact congrArg done (if_pos (by rw [hstatus, hen, hheld]; rfl))
  case quiet =>
    refine congrArg done (if_neg ?_)
    rcases h with h | h | h <;> simp [h]

end Sys2Proof.Machine
end

section
/-!
PROOF. Work queues and completion rings as the host configures them (R55, R57, R78, R87).
-/
namespace Sys2Proof.Machine

/-! ### A plain write of a register (R6, R398) -/

section
variable {a v : Nat} {l : List FldDef}

theorem foldl_fldWrite_get_ne (s : State) {g : Fld} (hg : ∀ d ∈ l, fldKey g ≠ fldKey (fldAt a d)) :
    (l.foldl (fun s d => fldWrite s a v d) s).get g = s.get g := by
  induction l generalizing s with
  | nil => rfl
  | cons d l ih =>
    obtain ⟨hd, hl⟩ := List.forall_mem_cons.mp hg
    rw [List.foldl_cons, ih _ hl, get_fldWrite_ne _ _ _ _ hd]

/-- Of fields at different places each RW field takes its bits. -/
theorem foldl_fldWrite_get (s : State) (hl : l.Pairwise (fun d d' => d.lo ≠ d'.lo)) {d : FldDef} (hd : d ∈ l)
    (hacc : d.acc = .rw ∨ d.acc = .rwnv) : (l.foldl (fun s d => fldWrite s a v d) s).get (fldAt a d) = bf v d.lo d.w := by
  induction l generalizing s with
  | nil => cases hd
  | cons d' l ih =>
    obtain ⟨hfirst, hrest⟩ := List.pairwise_cons.mp hl
    rw [List.foldl_cons]
    rcases List.mem_cons.mp hd with rfl | hmem
    · rw [foldl_fldWrite_get_ne, get_fldWrite_rw _ _ _ _ hacc]
      intro x hx hkey
      exact hfirst x hx (Nat.add_left_cancel hkey)
    · exact ih _ hrest hmem

theorem regsOnly_fldWrite (s : State) (a v : Nat) (d : FldDef) : RegsOnly s (fldWrite s a v d) := by
  unfold fldWrite
  cases d.acc with
  | rw | rwnv | w1c | w1s => exact (RegsOnly.refl s).put _ _
  | ro | wo | rc => exact .refl s

theorem regsOnly_foldl_fldWrite (s : State) : RegsOnly s (l.foldl (fun s d => fldWrite s a v d) s) := by
  induction l generalizing s with
  | nil => exact .refl s
  | cons d l ih =>
    obtain ⟨f, hd⟩ := regsOnly_fldWrite s a v d
    obtain ⟨f', hl⟩ := ih (fldWrite s a v d)
    exact ⟨f', by rw [List.foldl_cons, hl, hd]⟩

theorem regsOnly_regApply (s : State) (a v : Nat) : RegsOnly s (regApply s a v) := by
  unfold regApply
  split
  · exact .refl s
  · exact regsOnly_foldl_fldWrite s

end

/-- A register's RW field takes its bits of a plain write. -/
theorem regApply_get {a : Nat} {r : RegDef} (hr : regAt a = some r) (hl : r.flds.Pairwise (fun d d' => d.lo ≠ d'.lo)) {d : FldDef}
    (hd : d ∈ r.flds) (hacc : d.acc = .rw ∨ d.acc = .rwnv) (s : State) (v : Nat) : (regApply s a v).get (fldAt a d) = bf v d.lo d.w := by
  rw [regApply, hr]
  exact foldl_fldWrite_get s hl hd hacc

/-! ### The registers of a work queue -/

/-- The row of WQ_CFG in the table of its page. -/
def wqCfgRow : RegDef :=
  ⟨0x108, 32, 0x40, 0, [⟨0, 1, .rw, 0⟩, ⟨1, 1, .rw, 0⟩, ⟨4, 5, .rw, 4⟩, ⟨9, 1, .rw, 0⟩,
    ⟨16, 16, .rw, 100⟩, ⟨32, 5, .rw, 0⟩, ⟨40, 8, .rw, 255⟩]⟩

theorem regAt_wqCfg (n : Fin 256) : regAt (Reg.WQ_CFG n) = some wqCfgRow := by
  revert n
  decide +kernel

theorem fldAt_wqCfg (n : Fin 256) (d : FldDef) : fldAt (Reg.WQ_CFG n) d = ⟨Reg.WQ_CFG n, d.lo, d.w, d.rst⟩ := by
  have hrange : Reg.WQ_CFG n < 0x20000 := by unfold Reg.WQ_CFG; omega
  simp only [fldAt, rstOf]
  rw [if_neg (by omega), if_neg (by omega), if_neg (by omega)]

theorem regWrite_wqCfg (s : State) (n : Fin 256) (v : Nat) : regWrite s (Reg.WQ_CFG n) v = wrWqCfg s n v := by
  have hpage : pageOf (Reg.WQ_CFG n) = 0x11000 + n / 32 * 0x1000 := by unfold pageOf Reg.WQ_CFG; omega
  have htype : pageType (pageOf (Reg.WQ_CFG n)) = 0x31 := by
    rw [hpage]
    unfold pageType
    repeat rw [if_neg (by omega)]
    rw [if_pos (by omega)]
  have hindex : pageIndex (pageOf (Reg.WQ_CFG n)) * 32 + (Reg.WQ_CFG n % 0x1000 - 0x100) / 0x40 = n := by
    rw [hpage]
    unfold pageIndex Reg.WQ_CFG
    rw [if_neg (by omega), if_pos (by omega)]
    omega
  have hoff : Reg.WQ_CFG n % 0x1000 % 0x40 = 8 := by unfold Reg.WQ_CFG; omega
  simp only [regWrite, regAt_wqCfg, Option.isNone_some, Bool.false_eq_true, if_false, htype, hindex, hoff, wrQueue]

/-! ### Enabling and disabling a work queue (R55, R57) -/

theorem hostWrite64_of_ok {s u : State} {a v : Nat} (h : Reaches s a v) (hw : regWrite (Touched s a) a v = .ok u) : hostWrite64 s a v = u := by
  rw [hostWrite64_reaches h, hw]

theorem hostWrite64_of_own {s u : State} {a v : Nat} (h : Reaches s a v) (hw : regWrite (Touched s a) a v = .own u) : hostWrite64 s a v = u := by
  rw [hostWrite64_reaches h, hw]

theorem bf_of_bit {v i : Nat} (h : bit v i = true) : bf v i 1 = 1 := by simpa [bit, bf] using h

theorem bf_of_not_bit {v i : Nat} (h : bit v i = false) : bf v i 1 = 0 := by
  simp only [bit, beq_eq_false_iff_ne] at h
  simp only [bf]
  omega

theorem wqCfg_en (s : State) (n : Fin 256) (v : Nat) : (regApply s (Reg.WQ_CFG n) v).get (Fld.WQ_CFG_EN n) = bf v 0 1 := by
  have h := regApply_get (regAt_wqCfg n) (by decide) (d := ⟨0, 1, .rw, 0⟩) (by decide) (.inl rfl) s v
  rwa [fldAt_wqCfg] at h

theorem wqCfg_size (s : State) (n : Fin 256) (v : Nat) : (regApply s (Reg.WQ_CFG n) v).get (Fld.WQ_CFG_SIZE_LOG2 n) = bf v 4 5 := by
  have h := regApply_get (regAt_wqCfg n) (by decide) (d := ⟨4, 5, .rw, 4⟩) (by decide) (.inl rfl) s v
  rwa [fldAt_wqCfg] at h

theorem wrWqCfg_of_enable {s : State} {n w : Nat} (hen : bit w 0 = true) (hwas : s.isSet (Fld.WQ_CFG_EN n) = false)
    (hrange : wqCfgRange w = true) (hring : bf w 40 8 = 255 ∨ s.isSet (Fld.CR_CFG_EN (bf w 40 8)) = true) :
    wrWqCfg s n w = .ok (wqStart (regApply s (Reg.WQ_CFG n) w) n) := by
  have hring' : (bf w 40 8 != 255 && !s.isSet (Fld.CR_CFG_EN (bf w 40 8))) = false := by
    rcases hring with h | h <;> simp [h]
  simp only [wrWqCfg, hen, hwas, hrange, Bool.false_and, Bool.not_true, Bool.or_self, Bool.false_eq_true, if_false, Bool.true_and, hring',
    if_true]

theorem wrWqCfg_of_disable {s : State} {n w : Nat} (hen : bit w 0 = false) (hwas : s.isSet (Fld.WQ_CFG_EN n) = true)
    (hrange : wqCfgRange w = true) : wrWqCfg s n w = .ok (wqDrop (regApply s (Reg.WQ_CFG n) w) n) := by
  simp only [wrWqCfg, hen, hwas, hrange, Bool.and_false, Bool.false_and, Bool.not_true, Bool.or_self, Bool.false_eq_true, if_false, if_true]

theorem fldKey_ne_of_addr {f g : Fld} (hf : f.lo < 64) (hg : g.lo < 64) (h : g.addr ≠ f.addr) : fldKey g ≠ fldKey f := by
  unfold fldKey
  omega

/-- A started queue keeps the fields at other addresses than WQ_CONS and WQ_STAT. -/
theorem wqStart_get (s : State) (n : Nat) {g : Fld} (hlo : g.lo < 64) (hcons : g.addr ≠ Reg.WQ_CONS n) (hstat : g.addr ≠ Reg.WQ_STAT n) :
    (wqStart s n).get g = s.get g := by
  have hcons' {lo w rst : Nat} (h : lo < 64) : fldKey g ≠ fldKey ⟨Reg.WQ_CONS n, lo, w, rst⟩ := fldKey_ne_of_addr h hlo hcons
  have hstat' {lo w rst : Nat} (h : lo < 64) : fldKey g ≠ fldKey ⟨Reg.WQ_STAT n, lo, w, rst⟩ := fldKey_ne_of_addr h hlo hstat
  calc (wqStart s n).get g = _ := State.get_put_ne _ _ (hstat' (by decide))
    _ = _ := State.get_put_ne _ _ (hstat' (by decide))
    _ = _ := State.get_put_ne _ _ (hcons' (by decide))
    _ = _ := State.get_put_ne _ _ (hcons' (by decide))
    _ = _ := State.get_put_ne _ _ (hcons' (by decide))
    _ = s.get g := rfl

theorem wqStart_cons (s : State) (n : Nat) : (wqStart s n).get (Fld.WQ_CONS_CONS n) = 0 ∧ (wqStart s n).get (Fld.WQ_CONS_PHASE n) = 1 ∧
    (wqStart s n).get (Fld.WQ_STAT_ACCEPTED n) = 0 := by
  simp only [wqStart, State.clear]
  refine ⟨?_, ?_, ?_⟩
  · rw [State.get_put_ne, State.get_put_ne, State.get_put_ne, State.get_put_ne, State.get_put_same, Nat.zero_mod] <;>
      simp only [fldKey, Fld.WQ_CONS_CONS, Fld.WQ_CONS_PHASE, Fld.WQ_CONS_FAILED, Fld.WQ_STAT_ACCEPTED, Fld.WQ_STAT_DISCARDS,
        Reg.WQ_CONS, Reg.WQ_STAT] <;>
      omega
  · rw [State.get_put_ne, State.get_put_ne, State.get_put_ne, State.get_put_same, Fld.WQ_CONS_PHASE] <;>
      simp only [fldKey, Fld.WQ_CONS_PHASE, Fld.WQ_CONS_FAILED, Fld.WQ_STAT_ACCEPTED, Fld.WQ_STAT_DISCARDS, Reg.WQ_CONS, Reg.WQ_STAT] <;> omega
  · rw [State.get_put_ne, State.get_put_same, Nat.zero_mod]
    simp only [fldKey, Fld.WQ_STAT_ACCEPTED, Fld.WQ_STAT_DISCARDS]
    omega

theorem doesSome_wqEnable {s : State} {n : Fin 256} {v : Word} {w : Nat} (hw : w = withField v.toNat (Fld.WQ_CFG_EN n) 1) (hen : bit w 0 = true)
    (hreach : Reaches s (Reg.WQ_CFG n) w) (hwas : s.isSet (Fld.WQ_CFG_EN n) = false) (hrange : wqCfgRange w = true)
    (hring : bf w 40 8 = 255 ∨ s.isSet (Fld.CR_CFG_EN (bf w 40 8)) = true) :
    DoesSome (.wqEnable n v) s (fun u => u.isSet (Fld.WQ_CFG_EN n) = true ∧ u.get (Fld.WQ_CFG_SIZE_LOG2 n) = bf w 4 5 ∧
      u.get (Fld.WQ_CONS_CONS n) = 0 ∧ u.get (Fld.WQ_CONS_PHASE n) = 1 ∧ u.get (Fld.WQ_STAT_ACCEPTED n) = 0 ∧
      u.accepted = s.accepted ∧ u.polls = s.polls) := by
  subst hw
  have hcons : Reg.WQ_CFG n ≠ Reg.WQ_CONS n := by simp only [Reg.WQ_CFG, Reg.WQ_CONS]; omega
  have hstat : Reg.WQ_CFG n ≠ Reg.WQ_STAT n := by simp only [Reg.WQ_CFG, Reg.WQ_STAT]; omega
  have hwrite := hostWrite64_of_ok hreach ((regWrite_wqCfg _ n _).trans (wrWqCfg_of_enable (s := Touched s _) hen hwas hrange hring))
  obtain ⟨hc, hp, ha⟩ := wqStart_cons (regApply (Touched s (Reg.WQ_CFG n)) (Reg.WQ_CFG n) (withField v.toNat (Fld.WQ_CFG_EN n) 1)) n
  obtain ⟨f, hregs⟩ := regsOnly_regApply (Touched s (Reg.WQ_CFG n)) (Reg.WQ_CFG n) (withField v.toNat (Fld.WQ_CFG_EN n) 1)
  refine ⟨_, congrArg done hwrite, ?_, ?_, hc, hp, ha, ?_, ?_⟩
  · rw [State.isSet, wqStart_get _ _ (show 0 < 64 by decide) hcons hstat, wqCfg_en, bf_of_bit hen]
    rfl
  · rw [wqStart_get _ _ (show 4 < 64 by decide) hcons hstat, wqCfg_size]
  · rw [hregs]
    rfl
  · rw [hregs]
    rfl

theorem wqDrop_get (s : State) (n : Nat) (g : Fld) : (wqDrop s n).get g = s.get g := rfl

theorem wqDrop_entries (s : State) (n : Nat) : (wqDrop s n).accepted = s.accepted.filter (fun e => e.wq != n) ∧
    (wqDrop s n).polls = s.polls.filter (fun p => p.wq != n) ∧ dispatched (wqDrop s n) = dispatched s := ⟨rfl, rfl, rfl⟩

theorem doesSome_wqDisable {s : State} {n : Fin 256} {v : Word} {w : Nat} (hw : w = withField v.toNat (Fld.WQ_CFG_EN n) 0) (hen : bit w 0 = false)
    (hreach : Reaches s (Reg.WQ_CFG n) w) (hwas : s.isSet (Fld.WQ_CFG_EN n) = true) (hrange : wqCfgRange w = true) :
    DoesSome (.wqDisable n v) s (fun u => u.isSet (Fld.WQ_CFG_EN n) = false ∧ u.accepted = s.accepted.filter (fun e => e.wq != n.val) ∧
      u.polls = s.polls.filter (fun p => p.wq != n.val) ∧ dispatched u = dispatched s) := by
  subst hw
  have hwrite := hostWrite64_of_ok hreach ((regWrite_wqCfg _ n _).trans (wrWqCfg_of_disable (s := Touched s _) hen hwas hrange))
  obtain ⟨haccepted, hpolls, hqueues⟩ :=
    wqDrop_entries (regApply (Touched s (Reg.WQ_CFG n)) (Reg.WQ_CFG n) (withField v.toNat (Fld.WQ_CFG_EN n) 0)) n
  obtain ⟨f, hregs⟩ := regsOnly_regApply (Touched s (Reg.WQ_CFG n)) (Reg.WQ_CFG n) (withField v.toNat (Fld.WQ_CFG_EN n) 0)
  refine ⟨_, congrArg done hwrite, ?_, haccepted.trans ?_, hpolls.trans ?_, hqueues.trans ?_⟩
  · rw [State.isSet, wqDrop_get, wqCfg_en, bf_of_not_bit hen]
    rfl
  all_goals
    rw [hregs]
    rfl

/-! ### The registers of a completion ring -/

/-- The row of CR_CFG in the table of its page. -/
def crCfgRow : RegDef := ⟨0x108, 16, 0x40, 0, [⟨0, 1, .rw, 0⟩, ⟨4, 5, .rw, 4⟩, ⟨10, 2, .rw, 0⟩]⟩

theorem regAt_crCfg (r : Fin 64) : regAt (Reg.CR_CFG r) = some crCfgRow := by
  revert r
  decide +kernel

theorem regAt_crHead (r : Fin 64) : (regAt (Reg.CR_HEAD r)).isNone = false := by
  revert r
  decide +kernel

theorem fldAt_crCfg (r : Fin 64) (d : FldDef) : fldAt (Reg.CR_CFG r) d = ⟨Reg.CR_CFG r, d.lo, d.w, d.rst⟩ := by
  have hrange : Reg.CR_CFG r < 0x20000 := by unfold Reg.CR_CFG; omega
  simp only [fldAt, rstOf]
  rw [if_neg (by omega), if_neg (by omega), if_neg (by omega)]

/-- Where a register of a completion ring's block lies. -/
theorem crBlock_place {r : Fin 64} {a o : Nat} (ho : o < 0x40) (ha : a = 0x19000 + r / 16 * 0x1000 + (0x100 + o) + r % 16 * 0x40) :
    pageType (pageOf a) = 0x32 ∧ pageIndex (pageOf a) * 16 + (a % 0x1000 - 0x100) / 0x40 = r ∧ a % 0x1000 % 0x40 = o := by
  have hpage : pageOf a = 0x19000 + r / 16 * 0x1000 := by unfold pageOf; omega
  refine ⟨?_, ?_, by omega⟩
  · rw [hpage]
    unfold pageType
    repeat rw [if_neg (by omega)]
    rw [if_pos (by omega)]
  · rw [hpage]
    unfold pageIndex
    rw [if_neg (by omega), if_neg (by omega), if_pos (by omega)]
    omega

theorem wrCring_cfg (s : State) (r a v : Nat) : wrCring s r 8 a v = wrCrCfg s r v := by
  unfold wrCring
  simp only

theorem wrCring_head (s : State) (r a v : Nat) : wrCring s r 0x18 a v = wrCrHead s r v := by
  unfold wrCring
  simp only

theorem regWrite_crCfg (s : State) (r : Fin 64) (v : Nat) : regWrite s (Reg.CR_CFG r) v = wrCrCfg s r v := by
  obtain ⟨htype, hindex, hoff⟩ := crBlock_place (r := r) (a := Reg.CR_CFG r) (o := 8) (by decide) (by unfold Reg.CR_CFG; omega)
  simp only [regWrite, regAt_crCfg, Option.isNone_some, Bool.false_eq_true, if_false, htype, hindex, hoff, wrCring_cfg]

theorem regWrite_crHead (s : State) (r : Fin 64) (v : Nat) : regWrite s (Reg.CR_HEAD r) v = wrCrHead s r v := by
  obtain ⟨htype, hindex, hoff⟩ := crBlock_place (r := r) (a := Reg.CR_HEAD r) (o := 0x18) (by decide) (by unfold Reg.CR_HEAD; omega)
  simp only [regWrite, regAt_crHead, Bool.false_eq_true, if_false, htype, hindex, hoff, wrCring_head]

theorem crCfg_en (s : State) (r : Fin 64) (v : Nat) : (regApply s (Reg.CR_CFG r) v).get (Fld.CR_CFG_EN r) = bf v 0 1 := by
  have h := regApply_get (regAt_crCfg r) (by decide) (d := ⟨0, 1, .rw, 0⟩) (by decide) (.inl rfl) s v
  rwa [fldAt_crCfg] at h

/-! ### Enabling and disabling a completion ring (R78) -/

theorem wrCrCfg_of_enable {s : State} {r w : Nat} (hen : bit w 0 = true) (hwas : s.isSet (Fld.CR_CFG_EN r) = false) (hrange : crCfgRange w = true) :
    wrCrCfg s r w = .ok (crStart (regApply s (Reg.CR_CFG r) w) r) := by
  simp only [wrCrCfg, hen, hwas, hrange, Bool.false_and, Bool.not_true, Bool.or_self, Bool.false_eq_true, if_false, if_true]

theorem wrCrCfg_of_disable {s : State} {r w : Nat} (hen : bit w 0 = false) (hrange : crCfgRange w = true) (hnamed : crNamed s r = false) :
    wrCrCfg s r w = .ok (regApply s (Reg.CR_CFG r) w) := by
  simp only [wrCrCfg, hen, hrange, hnamed, Bool.and_false, Bool.not_true, Bool.or_self, Bool.false_eq_true, if_false]

/-- The fields of a completion ring that start at 0. -/
def crCounts (r : Nat) : List Fld :=
  [Fld.CR_TAIL_TAIL r, Fld.CR_TAIL_GAP_PENDING r, Fld.CR_HEAD_HEAD r, Fld.CR_OVF_TOTAL r, Fld.CR_OVF_PENDING r]

theorem crStart_get_eq (s : State) (r : Nat) (g : Fld) : (crStart s r).get g =
    (((((s.put (Fld.CR_TAIL_TAIL r) 0).put (Fld.CR_TAIL_GAP_PENDING r) 0).put (Fld.CR_HEAD_HEAD r) 0).put (Fld.CR_OVF_TOTAL r) 0).put
      (Fld.CR_OVF_PENDING r) 0).get g := by
  simp only [crStart, State.clear]
  rfl

theorem crStart_counts (s : State) (r : Nat) : ∀ f ∈ crCounts r, (crStart s r).get f = 0 := by
  have keep {s : State} {f g : Fld} (hrst : f.rst = g.rst) (h : s.get g = 0) : (s.put f 0).get g = 0 := by
    by_cases hk : fldKey g = fldKey f
    · simp [State.get, State.put, hk, hrst]
    · rw [State.get_put_ne _ _ hk, h]
  have first (s : State) (f : Fld) : (s.put f 0).get f = 0 := by rw [State.get_put_same, Nat.zero_mod]
  simp only [crCounts, List.forall_mem_cons, crStart_get_eq]
  refine ⟨?_, ?_, ?_, ?_, first _ _, nofun⟩
  · exact keep rfl (keep rfl (keep rfl (keep rfl (first _ _))))
  · exact keep rfl (keep rfl (keep rfl (first _ _)))
  · exact keep rfl (keep rfl (first _ _))
  · exact keep rfl (first _ _)

theorem crStart_get (s : State) (r : Nat) {g : Fld} (hg : ∀ f ∈ crCounts r, fldKey g ≠ fldKey f) : (crStart s r).get g = s.get g := by
  simp only [crCounts, List.forall_mem_cons] at hg
  obtain ⟨htail, hgap, hhead, htotal, hpending, -⟩ := hg
  rw [crStart_get_eq, State.get_put_ne _ _ hpending, State.get_put_ne _ _ htotal, State.get_put_ne _ _ hhead, State.get_put_ne _ _ hgap,
    State.get_put_ne _ _ htail]

theorem crCfg_en_ne (r : Nat) : ∀ f ∈ crCounts r, fldKey (Fld.CR_CFG_EN r) ≠ fldKey f := by
  simp only [crCounts, List.forall_mem_cons, fldKey, Fld.CR_CFG_EN, Fld.CR_TAIL_TAIL, Fld.CR_TAIL_GAP_PENDING, Fld.CR_HEAD_HEAD, Fld.CR_OVF_TOTAL,
    Fld.CR_OVF_PENDING, Reg.CR_CFG, Reg.CR_TAIL, Reg.CR_HEAD, Reg.CR_OVF]
  refine ⟨?_, ?_, ?_, ?_, ?_, nofun⟩ <;> omega

theorem doesSome_crEnable {s : State} {r : Fin 64} {v : Word} {w : Nat} (hw : w = withField v.toNat (Fld.CR_CFG_EN r) 1) (hen : bit w 0 = true)
    (hreach : Reaches s (Reg.CR_CFG r) w) (hwas : s.isSet (Fld.CR_CFG_EN r) = false) (hrange : crCfgRange w = true) :
    DoesSome (.crEnable r v) s (fun u => u.isSet (Fld.CR_CFG_EN r) = true ∧ u.get (Fld.CR_TAIL_TAIL r) = 0 ∧ u.get (Fld.CR_HEAD_HEAD r) = 0 ∧
      u.get (Fld.CR_OVF_TOTAL r) = 0 ∧ u.get (Fld.CR_OVF_PENDING r) = 0) := by
  subst hw
  have hwrite := hostWrite64_of_ok hreach ((regWrite_crCfg _ r _).trans (wrCrCfg_of_enable (s := Touched s _) hen hwas hrange))
  have hcounts := crStart_counts (regApply (Touched s (Reg.CR_CFG r)) (Reg.CR_CFG r) (withField v.toNat (Fld.CR_CFG_EN r) 1)) r
  simp only [crCounts, List.forall_mem_cons] at hcounts
  obtain ⟨htail, -, hhead, htotal, hpending, -⟩ := hcounts
  refine ⟨_, congrArg done hwrite, ?_, htail, hhead, htotal, hpending⟩
  rw [State.isSet, crStart_get _ _ (crCfg_en_ne r), crCfg_en, bf_of_bit hen]
  rfl

theorem doesSome_crDisable {s : State} {r : Fin 64} {v : Word} {w : Nat} (hw : w = withField v.toNat (Fld.CR_CFG_EN r) 0) (hen : bit w 0 = false)
    (hreach : Reaches s (Reg.CR_CFG r) w) (hrange : crCfgRange w = true) (hnamed : crNamed s r = false) :
    DoesSome (.crDisable r v) s (fun u => u.isSet (Fld.CR_CFG_EN r) = false) := by
  subst hw
  have hwrite := hostWrite64_of_ok hreach ((regWrite_crCfg _ r _).trans (wrCrCfg_of_disable (s := Touched s _) hen hrange hnamed))
  refine ⟨_, congrArg done hwrite, ?_⟩
  change (_ != 0) = false
  rw [crCfg_en, bf_of_not_bit hen]
  rfl

/-! ### CR_HEAD (R79, R87) -/

/-- A completion record moves the tail, and no other field. -/
theorem crPut_get (s : State) (r : Nat) (lo : List Byte) (flags : Nat) (hi : List Byte) (g : Fld) :
    (crPut s r lo flags hi).get g = (s.put (Fld.CR_TAIL_TAIL r) (s.get (Fld.CR_TAIL_TAIL r) + 1)).get g := by
  simp only [crPut, State.get, State.put, compWrite]
  split <;> rfl

/-- The ring with its pending GAP record written at the tail. -/
def gapRecord (s : State) (r : Nat) : State :=
  crPut s r (leBytes 4 (s.get (Fld.CR_OVF_PENDING r)) ++ leBytes 2 0xFFFF ++ leBytes 1 0x3F) 0
    (leBytes 6 (SMap.get 0 s.crGap r) ++ leBytes 1 0xFF ++ zeros 1)

theorem gapRecord_get (s : State) (r : Nat) (g : Fld) :
    (gapRecord s r).get g = (s.put (Fld.CR_TAIL_TAIL r) (s.get (Fld.CR_TAIL_TAIL r) + 1)).get g := crPut_get ..

theorem crGapPut_get {s : State} {r : Nat} (hpending : s.isSet (Fld.CR_TAIL_GAP_PENDING r) = true) (hroom : crHeld s r < crSize s r) {g : Fld}
    (hg : fldKey g ≠ fldKey (Fld.CR_EVT_GAP r)) :
    (crGapPut s r).get g = (((gapRecord s r).put (Fld.CR_OVF_PENDING r) 0).put (Fld.CR_TAIL_GAP_PENDING r) 0).get g := by
  unfold crGapPut
  rw [if_pos (by simp only [hpending, hroom, decide_true, Bool.and_self])]
  extract_lets n put cleared erased
  rw [State.get_ite, State.get_raise_ne _ _ _ hg, ite_self]
  rfl

/-- A pending GAP record written: the tail moves past it, and the count of lost records starts again. -/
theorem crGapPut_counts {s : State} {r : Nat} (hpending : s.isSet (Fld.CR_TAIL_GAP_PENDING r) = true) (hroom : crHeld s r < crSize s r) :
    (crGapPut s r).get (Fld.CR_HEAD_HEAD r) = s.get (Fld.CR_HEAD_HEAD r) ∧ (crGapPut s r).get (Fld.CR_TAIL_GAP_PENDING r) = 0 ∧
    (crGapPut s r).get (Fld.CR_OVF_PENDING r) = 0 ∧ (crGapPut s r).get (Fld.CR_TAIL_TAIL r) = (s.get (Fld.CR_TAIL_TAIL r) + 1) % 2 ^ 32 := by
  rw [crGapPut_get hpending hroom, crGapPut_get hpending hroom, crGapPut_get hpending hroom, crGapPut_get hpending hroom]
  rotate_left
  iterate 4
    simp only [fldKey, Fld.CR_HEAD_HEAD, Fld.CR_TAIL_GAP_PENDING, Fld.CR_OVF_PENDING, Fld.CR_TAIL_TAIL, Fld.CR_EVT_GAP, Reg.CR_HEAD, Reg.CR_TAIL,
      Reg.CR_OVF, Reg.CR_EVT]
    omega
  have key : fldKey (Fld.CR_HEAD_HEAD r) ≠ fldKey (Fld.CR_TAIL_GAP_PENDING r) ∧ fldKey (Fld.CR_HEAD_HEAD r) ≠ fldKey (Fld.CR_OVF_PENDING r) ∧
      fldKey (Fld.CR_HEAD_HEAD r) ≠ fldKey (Fld.CR_TAIL_TAIL r) ∧ fldKey (Fld.CR_OVF_PENDING r) ≠ fldKey (Fld.CR_TAIL_GAP_PENDING r) ∧
      fldKey (Fld.CR_TAIL_TAIL r) ≠ fldKey (Fld.CR_TAIL_GAP_PENDING r) ∧ fldKey (Fld.CR_TAIL_TAIL r) ≠ fldKey (Fld.CR_OVF_PENDING r) := by
    simp only [fldKey, Fld.CR_HEAD_HEAD, Fld.CR_TAIL_GAP_PENDING, Fld.CR_OVF_PENDING, Fld.CR_TAIL_TAIL, Reg.CR_HEAD, Reg.CR_TAIL, Reg.CR_OVF]
    omega
  obtain ⟨hhg, hho, hht, hog, htg, hto⟩ := key
  refine ⟨?_, ?_, ?_, ?_⟩
  · rw [State.get_put_ne _ _ hhg, State.get_put_ne _ _ hho, gapRecord_get, State.get_put_ne _ _ hht]
  · rw [State.get_put_same, Nat.zero_mod]
  · rw [State.get_put_ne _ _ hog, State.get_put_same, Nat.zero_mod]
  · rw [State.get_put_ne _ _ htg, State.get_put_ne _ _ hto, gapRecord_get, State.get_put_same]
    rfl

theorem crGapPut_of_no_gap {s : State} {r : Nat} (h : s.get (Fld.CR_TAIL_GAP_PENDING r) = 0) : crGapPut s r = s := by
  simp [crGapPut, State.isSet_eq, h]

section
variable {s : State} {r : Fin 64} {v : Word} (hreach : Reaches s (Reg.CR_HEAD r) v.toNat)
include hreach

theorem does_crHeadWrite_of_within (hwithin : (s.get (Fld.CR_TAIL_TAIL r) + 2 ^ 32 - bf v.toNat 0 32) % 2 ^ 32 ≤
      (s.get (Fld.CR_TAIL_TAIL r) + 2 ^ 32 - s.get (Fld.CR_HEAD_HEAD r)) % 2 ^ 32) :
    Does (.crHeadWrite r v) s (crGapPut ((Touched s (Reg.CR_HEAD r)).put (Fld.CR_HEAD_HEAD r) (bf v.toNat 0 32)) r) := by
  have hwr : wrCrHead (Touched s (Reg.CR_HEAD r)) r v.toNat = .ok _ := if_pos hwithin
  exact congrArg done (hostWrite64_of_ok hreach ((regWrite_crHead _ r _).trans hwr))

theorem does_crHeadWrite_of_beyond (hbeyond : (s.get (Fld.CR_TAIL_TAIL r) + 2 ^ 32 - s.get (Fld.CR_HEAD_HEAD r)) % 2 ^ 32 <
      (s.get (Fld.CR_TAIL_TAIL r) + 2 ^ 32 - bf v.toNat 0 32) % 2 ^ 32) :
    Does (.crHeadWrite r v) s (pageErr ((Touched s (Reg.CR_HEAD r)).raise (Fld.CR_EVT_HEAD_BAD r)) (Reg.CR_HEAD r) errState) := by
  have hwr : wrCrHead (Touched s (Reg.CR_HEAD r)) r v.toNat = .own _ := if_neg (Nat.not_le.mpr hbeyond)
  exact congrArg done (hostWrite64_of_own hreach ((regWrite_crHead _ r _).trans hwr))

end

/-- A field of the ring after a new head, if it is not the head. -/
theorem headPut_get (s : State) (r : Fin 64) (x : Nat) {g : Fld} (hg : fldKey g ≠ fldKey (Fld.CR_HEAD_HEAD r)) :
    ((Touched s (Reg.CR_HEAD r)).put (Fld.CR_HEAD_HEAD r) x).get g = s.get g := State.get_put_ne _ _ hg

/-! ### The obligation -/

/-- Settles O25, command by command. -/
theorem queuesAndRings : Obligations.QueuesAndRings := by
  refine fun s n r v w => ⟨doesSome_wqEnable, doesSome_wqDisable, doesSome_crEnable, fun hw hen hreach _ => doesSome_crDisable hw hen hreach,
    fun hreach => ⟨fun hwithin hno => ?noGap, fun hwithin hroom hpending => ?gap, does_crHeadWrite_of_beyond hreach⟩⟩
  all_goals
    have htail : fldKey (Fld.CR_TAIL_TAIL r) ≠ fldKey (Fld.CR_HEAD_HEAD r) := by
      simp only [fldKey, Fld.CR_TAIL_TAIL, Fld.CR_HEAD_HEAD, Reg.CR_TAIL, Reg.CR_HEAD]
      omega
    have hgap : fldKey (Fld.CR_TAIL_GAP_PENDING r) ≠ fldKey (Fld.CR_HEAD_HEAD r) := by
      simp only [fldKey, Fld.CR_TAIL_GAP_PENDING, Fld.CR_HEAD_HEAD, Reg.CR_TAIL, Reg.CR_HEAD]
      omega
    have hdoes := does_crHeadWrite_of_within hreach hwithin
  case noGap =>
    rwa [crGapPut_of_no_gap ((headPut_get s r _ hgap).trans hno)] at hdoes
  case gap =>
    have hsize : fldKey (Fld.CR_CFG_SIZE_LOG2 r) ≠ fldKey (Fld.CR_HEAD_HEAD r) := by
      simp only [fldKey, Fld.CR_CFG_SIZE_LOG2, Fld.CR_HEAD_HEAD, Reg.CR_CFG, Reg.CR_HEAD]
      omega
    have hhead : ((Touched s (Reg.CR_HEAD r)).put (Fld.CR_HEAD_HEAD r) (bf v.toNat 0 32)).get (Fld.CR_HEAD_HEAD r) = bf v.toNat 0 32 :=
      State.get_put_of_lt _ (bf_lt v.toNat 0 32)
    have hcounts := crGapPut_counts (s := (Touched s (Reg.CR_HEAD r)).put (Fld.CR_HEAD_HEAD r) (bf v.toNat 0 32)) (r := r)
      (by rwa [State.isSet_put_ne _ _ hgap]) (by rwa [crHeld, crSize, hhead, headPut_get s r _ htail, headPut_get s r _ hsize])
    rw [hhead, headPut_get s r _ htail] at hcounts
    obtain ⟨hnew, hcleared, hlost, hpast⟩ := hcounts
    exact ⟨_, hdoes, hnew, by rw [State.isSet_eq, hcleared]; rfl, hlost, hpast⟩

end Sys2Proof.Machine
end

section
/-!
PROOF. Polls, dispatch of entries, long operations and FENCE (R66, R67, R70, R71, R73, R74, R76, R81, R83, R369).
-/
namespace Sys2Proof.Machine

/-! ### A poll (R66, R67) -/

/-- The fields of a work queue and the entries a poll looks at are the same in `s` and `t`. -/
structure SamePoll (s t : State) (n : Nat) : Prop where
  base : t.get (Fld.WQ_BASE_ADDR n) = s.get (Fld.WQ_BASE_ADDR n)
  cons : t.get (Fld.WQ_CONS_CONS n) = s.get (Fld.WQ_CONS_CONS n)
  size : t.get (Fld.WQ_CFG_SIZE_LOG2 n) = s.get (Fld.WQ_CFG_SIZE_LOG2 n)
  depth : t.get (Fld.WQ_CFG_PREFETCH_DEPTH n) = s.get (Fld.WQ_CFG_PREFETCH_DEPTH n)
  accepted : t.accepted = s.accepted
  dispatched : dispatched t = dispatched s
  out : t.out = s.out
  polls : t.polls = s.polls
  polled : t.wqPolled = s.wqPolled
  again : t.wqAgain = s.wqAgain

theorem SamePoll.window {s t : State} {n : Nat} (h : SamePoll s t n) : wqWindow t n = wqWindow s n := by
  simp only [wqWindow, wqSize, wqOpen, h.cons, h.size, h.depth, h.accepted, h.dispatched]
  rfl

/-- Time that passes up to an instant changes TIME_NS and the timebase alone. -/
theorem State.advanceTo_eq (s : State) (ns : Nat) : ∃ v u b, s.advanceTo ns =
    (s.put Fld.TIME_NS_TIME_NS v).modTb (fun t => { t with used := u, notBefore := b }) := by
  obtain ⟨u, b, h⟩ := State.pass_eq s (s.ahead ns)
  exact ⟨_, u, b, h⟩

theorem State.advanceTo_get (s : State) (ns : Nat) {g : Fld} (hg : fldKey g ≠ fldKey Fld.TIME_NS_TIME_NS) : (s.advanceTo ns).get g = s.get g := by
  obtain ⟨v, u, b, h⟩ := State.advanceTo_eq s ns
  rw [h]
  exact State.get_put_ne s _ hg

theorem samePoll_advanceTo (s : State) (n : Fin 256) (ns : Nat) : SamePoll s (s.advanceTo ns) n := by
  obtain ⟨v, u, b, h⟩ := State.advanceTo_eq s ns
  constructor
  case base | cons | size | depth =>
    apply State.advanceTo_get
    simp only [fldKey, Fld.WQ_BASE_ADDR, Fld.WQ_CONS_CONS, Fld.WQ_CFG_SIZE_LOG2, Fld.WQ_CFG_PREFETCH_DEPTH, Fld.TIME_NS_TIME_NS, Reg.WQ_BASE,
      Reg.WQ_CONS, Reg.WQ_CFG, Reg.TIME_NS]
    omega
  all_goals
    rw [h]
    rfl

/-- What a poll of `k` slots reads from slot `a` of a ring of `size`: two reads where the window wraps it. -/
def windowReads (base size a k : Nat) : List OutEvent :=
  OutEvent.hostRead (base + a * 64) (min k (size - a) * 64) :: (if size < a + k then [OutEvent.hostRead base ((a + k - size) * 64)] else [])

theorem emit_windowReads (s : State) {base size a k : Nat} (ha : a < size) :
    (if min k (size - a) < k then (s.emit (.hostRead (base + a * 64) (min k (size - a) * 64))).emit (.hostRead base ((k - min k (size - a)) * 64))
      else s.emit (.hostRead (base + a * 64) (min k (size - a) * 64))) = { s with out := s.out ++ windowReads base size a k } := by
  unfold windowReads
  by_cases hwrap : size < a + k
  · have hrest : k - min k (size - a) = a + k - size := by omega
    rw [if_pos hwrap, if_pos (by omega), hrest]
    simp only [State.emit, List.append_assoc, List.singleton_append]
  · rw [if_neg hwrap, if_neg (by omega)]
    rfl

theorem wqIssue_of_pos {t : State} {n : Nat} (h : 0 < wqWindow t n) : wqIssue t n = { t with
    out := t.out ++ windowReads (t.get (Fld.WQ_BASE_ADDR n) * 64) (wqSize t n) (t.get (Fld.WQ_CONS_CONS n) % wqSize t n) (wqWindow t n)
    polls := t.polls ++ [⟨n, t.get (Fld.WQ_CONS_CONS n), wqWindow t n⟩]
    wqPolled := SMap.insert t.wqPolled n t.now, wqAgain := t.wqAgain.filter (· != n) } :=
  (if_pos h).trans (congrArg (fun u : State => { u with polls := u.polls ++ [(⟨n, t.get (Fld.WQ_CONS_CONS n), wqWindow t n⟩ : Poll)] })
    (emit_windowReads _ (Nat.mod_lt _ (Nat.two_pow_pos _))))

theorem wqIssue_of_zero {t : State} {n : Nat} (h : wqWindow t n = 0) : wqIssue t n = { t with
    wqPolled := SMap.insert t.wqPolled n t.now, wqAgain := t.wqAgain.filter (· != n) } := by
  unfold wqIssue
  rw [h, if_neg (Nat.lt_irrefl 0)]

/-- The instant a due poll is made: at once, or when its interval has passed. -/
def PollDue (s t : State) (n : Fin 256) : Prop :=
  n.val ∈ s.wqAgain ∧ t = s ∨ n.val ∉ s.wqAgain ∧ s.isSet (Fld.WQ_CFG_POLL_TICK n) = false ∧
    s.canReach (wqPollTime s n) = true ∧ t = s.advanceTo (wqPollTime s n)

theorem PollDue.samePoll {s t : State} {n : Fin 256} (h : PollDue s t n) : SamePoll s t n := by
  rcases h with ⟨-, rfl⟩ | ⟨-, -, -, rfl⟩
  · exact ⟨rfl, rfl, rfl, rfl, rfl, rfl, rfl, rfl, rfl, rfl⟩
  · exact samePoll_advanceTo ..

theorem wqPoll_of_due {s t : State} {n : Fin 256} (hpolls : wqPolls s n = true) (h : PollDue s t n) : wqPoll s n = wqIssue t n := by
  unfold wqPoll
  rw [hpolls]
  rcases h with ⟨hagain, rfl⟩ | ⟨hagain, htick, hreach, rfl⟩
  · simp [hagain]
  · simp [hagain, htick, hreach]

theorem wqPoll_of_not_due {s : State} {n : Fin 256} (h : wqPolls s n = false ∨
    n.val ∉ s.wqAgain ∧ (s.isSet (Fld.WQ_CFG_POLL_TICK n) = true ∨ s.canReach (wqPollTime s n) = false)) : wqPoll s n = s := by
  unfold wqPoll
  rcases h with h | ⟨hagain, htick | hreach⟩
  · simp [h]
  · simp [hagain, htick]
  · simp [hagain, hreach]

theorem does_wqPoll {s t : State} {n : Fin 256} {k : Nat} (hpolls : wqPolls s n = true) (hdue : PollDue s t n) (hk : k = wqWindow s n) :
    (0 < k → Does (.wqPoll n) s { t with
      out := s.out ++ windowReads (s.get (Fld.WQ_BASE_ADDR n) * 64) (wqSize s n) (s.get (Fld.WQ_CONS_CONS n) % wqSize s n) k
      polls := s.polls ++ [⟨n, s.get (Fld.WQ_CONS_CONS n), k⟩], wqPolled := SMap.insert s.wqPolled n t.now
      wqAgain := s.wqAgain.filter (· != n.val) }) ∧
    (k = 0 → Does (.wqPoll n) s { t with wqPolled := SMap.insert s.wqPolled n t.now, wqAgain := s.wqAgain.filter (· != n.val) }) := by
  have hsame := hdue.samePoll
  have hwindow : wqWindow t n = k := hsame.window.trans hk.symm
  have hpoll := wqPoll_of_due hpolls hdue
  refine ⟨fun hpos => congrArg done (hpoll.trans ?_), fun hzero => congrArg done (hpoll.trans ?_)⟩
  · rw [wqIssue_of_pos (hwindow ▸ hpos), hwindow, wqSize, wqSize, hsame.base, hsame.cons, hsame.size, hsame.out, hsame.polls, hsame.polled,
      hsame.again]
  · rw [wqIssue_of_zero (hwindow.trans hzero), hsame.polled, hsame.again]

/-! ### What a poll returns (R70, R71, R73) -/

/-- The slots a poll read, with their indices. -/
def pollSlots (p : Poll) (b : List Byte) : List (Nat × List Byte) :=
  (List.range p.count).map (fun k => ((p.first + k) % 2 ^ 32, bsub b (64 * k) 64))

theorem bsub_append_of_le {b c : List Byte} {off n : Nat} (h : off + n ≤ b.length) : bsub (b ++ c) off n = bsub b off n := by
  unfold bsub
  rw [List.drop_append_of_le_length (by omega), List.take_append_of_le_length (by rw [List.length_drop]; omega)]

theorem pollSlots_padded {p : Poll} {b : List Byte} (h : b.length = 64 * p.count) (c : List Byte) : pollSlots p (b ++ c) = pollSlots p b := by
  refine List.map_congr_left fun k hk => ?_
  rw [bsub_append_of_le]
  have := List.mem_range.mp hk
  omega

/-- The first slot keeps its index, and the rest follow. -/
theorem pollSlots_cons {p : Poll} (hcount : 0 < p.count) (hfirst : p.first < 2 ^ 32) (b : List Byte) :
    ∃ rest, rest.length = p.count - 1 ∧ pollSlots p b = (p.first, bsub b 0 64) :: rest := by
  obtain ⟨m, hm⟩ := Nat.exists_eq_succ_of_ne_zero hcount.ne'
  refine ⟨(List.range m).map ((fun k => ((p.first + k) % 2 ^ 32, bsub b (64 * k) 64)) ∘ Nat.succ), ?_, ?_⟩
  · rw [List.length_map, List.length_range, hm, Nat.succ_sub_one]
  · rw [pollSlots, hm, List.range_succ_eq_map, List.map_cons, List.map_map, Nat.add_zero, Nat.mod_eq_of_lt hfirst, Nat.mul_zero]

theorem leAt_bsub_zero {b : List Byte} {off n m : Nat} (h : off + n ≤ m) : leAt (bsub b 0 m) off n = leAt b off n := by
  simp only [leAt, bsub, List.drop_zero, List.drop_take, List.take_take]
  rw [min_eq_left (by omega)]

section
variable {s w : State} {n : Fin 256} {p : Poll} (hp : s.polls.find? (fun p => p.wq == n.val) = some p)
  (hw : w = { s with polls := s.polls.filter (fun p => p.wq != n.val) })
include hp hw

theorem wqReturn_fail : wqReturn s n .fail = aerReport ((w.raise (Fld.WQ_CONS_FAILED n)).raise Fld.WQ_EVT_POLL_FAIL) := by
  rw [wqReturn, hp, hw]

theorem wqReturn_ok {b : List Byte} (hb : b.length = 64 * p.count) :
    wqReturn s n (.ok b) = wqWhole (wqAccept w n (wqSize s n) (pollSlots p b)) n p := by
  rw [← pollSlots_padded hb (zeros (64 * p.count)), wqReturn, hp, hw]
  rfl

end

theorem wqAccept_of_old_phase {s : State} {n size i : Nat} {b : List Byte} (h : leAt b 0 1 / 128 ≠ phaseOf size i)
    (rest : List (Nat × List Byte)) :
    wqAccept s n size ((i, b) :: rest) = s.put (Fld.WQ_STAT_DISCARDS n) (s.get (Fld.WQ_STAT_DISCARDS n) + 1 + rest.length) := by
  rw [wqAccept, if_pos h]

/-- CONS past the entry of index `i`, which counts as accepted (R70, R71). -/
def consPast (s : State) (n size i : Nat) : State :=
  ((s.put (Fld.WQ_CONS_CONS n) ((i + 1) % 2 ^ 32)).put (Fld.WQ_CONS_PHASE n) (phaseOf size ((i + 1) % 2 ^ 32))).bumpWrap
    (Fld.WQ_STAT_ACCEPTED n) 1

/-- An entry of queue `n` as accepted. -/
def acceptedEntry (s : State) (n size i : Nat) (b : List Byte) : WorkEntry :=
  ⟨b, .queue, n, i, s.get (Fld.WQ_BASE_ADDR n) * 64 + i % size * 64, 0xFF, 0, .queued, [], 0, 0, 0, false, [], false, false⟩

theorem consPast_get (s : State) (n size i : Nat) {g : Fld} (hlo : g.lo < 64) (hcons : g.addr ≠ Reg.WQ_CONS n) (hstat : g.addr ≠ Reg.WQ_STAT n) :
    (consPast s n size i).get g = s.get g := by
  have hcons' {lo w rst : Nat} (h : lo < 64) : fldKey g ≠ fldKey ⟨Reg.WQ_CONS n, lo, w, rst⟩ := fldKey_ne_of_addr h hlo hcons
  have hstat' {lo w rst : Nat} (h : lo < 64) : fldKey g ≠ fldKey ⟨Reg.WQ_STAT n, lo, w, rst⟩ := fldKey_ne_of_addr h hlo hstat
  calc (consPast s n size i).get g = _ := State.get_put_ne _ _ (hstat' (by decide))
    _ = _ := State.get_put_ne _ _ (hcons' (by decide))
    _ = s.get g := State.get_put_ne _ _ (hcons' (by decide))

theorem consPast_cons (s : State) (n size i : Nat) : (consPast s n size i).get (Fld.WQ_CONS_CONS n) = (i + 1) % 2 ^ 32 ∧
    (consPast s n size i).get (Fld.WQ_CONS_PHASE n) = phaseOf size ((i + 1) % 2 ^ 32) ∧
    (consPast s n size i).get (Fld.WQ_STAT_ACCEPTED n) = (s.get (Fld.WQ_STAT_ACCEPTED n) + 1) % 2 ^ 32 := by
  have key : fldKey (Fld.WQ_CONS_CONS n) ≠ fldKey (Fld.WQ_STAT_ACCEPTED n) ∧ fldKey (Fld.WQ_CONS_CONS n) ≠ fldKey (Fld.WQ_CONS_PHASE n) ∧
      fldKey (Fld.WQ_CONS_PHASE n) ≠ fldKey (Fld.WQ_STAT_ACCEPTED n) := by
    simp only [fldKey, Fld.WQ_CONS_CONS, Fld.WQ_CONS_PHASE, Fld.WQ_STAT_ACCEPTED, Reg.WQ_CONS, Reg.WQ_STAT]
    omega
  obtain ⟨hca, hcp, hpa⟩ := key
  have hphase : phaseOf size ((i + 1) % 2 ^ 32) < 2 := by unfold phaseOf; omega
  unfold consPast State.bumpWrap
  refine ⟨?_, ?_, ?_⟩
  · rw [State.get_put_ne _ _ hca, State.get_put_ne _ _ hcp, State.get_put_same]
    exact Nat.mod_mod _ _
  · rw [State.get_put_ne _ _ hpa]
    exact State.get_put_of_lt _ hphase
  · rw [State.get_put_same, State.get_put_ne _ _ hpa.symm, State.get_put_ne _ _ hca.symm]
    rfl

theorem consPast_chk (s : State) (n size i : Nat) : (consPast s n size i).isSet (Fld.WQ_CFG_CHK n) = s.isSet (Fld.WQ_CFG_CHK n) := by
  rw [State.isSet_eq, State.isSet_eq, consPast_get _ _ _ _ (show 1 < 64 by decide)] <;>
    simp only [Fld.WQ_CFG_CHK, Reg.WQ_CFG, Reg.WQ_CONS, Reg.WQ_STAT] <;> omega

theorem consPast_devState (s : State) (n size i : Nat) : (consPast s n size i).devState = s.devState := by
  rw [State.devState, State.devState, consPast_get _ _ _ _ (show 0 < 64 by decide)] <;>
    simp only [Fld.DEV_STATE_STATE, Reg.DEV_STATE, Reg.WQ_CONS, Reg.WQ_STAT] <;> omega

/-- An entry of the phase expected is taken: CONS passes it, and it is accepted or halts the device. -/
theorem wqAccept_of_phase {s : State} {n size i : Nat} {b : List Byte} (h : leAt b 0 1 / 128 = phaseOf size i) (rest : List (Nat × List Byte)) :
    wqAccept s n size ((i, b) :: rest) =
      if (malformed b (s.isSet (Fld.WQ_CFG_CHK n))).1 ≠ 0 then
        malfHalt (consPast s n size i) n i b (malformed b (s.isSet (Fld.WQ_CFG_CHK n))).1 (malformed b (s.isSet (Fld.WQ_CFG_CHK n))).2
      else wqAccept { consPast s n size i with accepted := s.accepted ++ [acceptedEntry (consPast s n size i) n size i b] } n size rest := by
  rw [← consPast_chk s n size i, wqAccept, if_neg (not_not_intro h)]
  rfl

/-! ### The command of a poll's return -/

theorem wqWhole_of_cons_ne {s : State} {n : Nat} {p : Poll} (h : s.get (Fld.WQ_CONS_CONS n) ≠ (p.first + p.count) % 2 ^ 32) :
    wqWhole s n p = s :=
  if_neg fun hwhole => h hwhole.2

/-- A poll whose window was accepted whole asks for the next one, and changes nothing else. -/
theorem wqWhole_eq (s : State) (n : Nat) (p : Poll) : ∃ l, wqWhole s n p = { s with wqAgain := l } := by
  unfold wqWhole
  split
  · exact ⟨_, rfl⟩
  · exact ⟨s.wqAgain, rfl⟩

theorem aerReport_toll (s : State) : (aerReport s).toll = s.toll := rfl

section
variable {s w : State} {n : Fin 256} {p : Poll} {b : List Byte} (hp : s.polls.find? (fun p => p.wq == n.val) = some p)
  (hw : w = { s with polls := s.polls.filter (fun p => p.wq != n.val) })
include hp hw

theorem does_wqPollReturn_fail (horder : s.toll.orderly = false) :
    Does (.wqPollReturn n .fail) s (aerReport ((w.raise (Fld.WQ_CONS_FAILED n)).raise Fld.WQ_EVT_POLL_FAIL)) := by
  have horderly : (aerReport ((w.raise (Fld.WQ_CONS_FAILED n)).raise Fld.WQ_EVT_POLL_FAIL)).toll.orderly = false := by
    rw [aerReport_toll, hw]
    exact horder
  exact congrArg done ((congrArg orderlyCheck (wqReturn_fail hp hw)).trans (orderlyCheck_id horderly))

theorem doesThen_wqPollReturn (hb : b.length = 64 * p.count) :
    DoesThen (.wqPollReturn n (.ok b)) s (wqWhole (wqAccept w n (wqSize s n) (pollSlots p b)) n p) :=
  congrArg (fun u => done (orderlyCheck u)) (wqReturn_ok hp hw hb)

theorem does_wqPollReturn_of_old_phase (hb : b.length = 64 * p.count) (horder : s.toll.orderly = false) (hcount : 0 < p.count)
    (hlt : p.count < 2 ^ 32) (hfirst : p.first < 2 ^ 32) (hcons : s.get (Fld.WQ_CONS_CONS n) = p.first)
    (hphase : leAt b 0 1 / 128 ≠ phaseOf (wqSize s n) p.first) :
    Does (.wqPollReturn n (.ok b)) s (w.put (Fld.WQ_STAT_DISCARDS n) (s.get (Fld.WQ_STAT_DISCARDS n) + p.count)) := by
  obtain ⟨rest, hrest, hslots⟩ := pollSlots_cons hcount hfirst b
  have haccept : wqAccept w n (wqSize s n) (pollSlots p b) = w.put (Fld.WQ_STAT_DISCARDS n) (s.get (Fld.WQ_STAT_DISCARDS n) + p.count) := by
    rw [hslots, wqAccept_of_old_phase (by rwa [leAt_bsub_zero (by decide)]), hrest, hw, Nat.add_assoc, Nat.add_sub_cancel' hcount]
    rfl
  have hkey : fldKey (Fld.WQ_CONS_CONS n) ≠ fldKey (Fld.WQ_STAT_DISCARDS n) := by
    simp only [fldKey, Fld.WQ_CONS_CONS, Fld.WQ_STAT_DISCARDS, Reg.WQ_CONS, Reg.WQ_STAT]
    omega
  have hkept : (w.put (Fld.WQ_STAT_DISCARDS n) (s.get (Fld.WQ_STAT_DISCARDS n) + p.count)).get (Fld.WQ_CONS_CONS n) = p.first := by
    rw [State.get_put_ne _ _ hkey, hw]
    exact hcons
  have hreturn := wqReturn_ok hp hw hb
  rw [haccept, wqWhole_of_cons_ne (by rw [hkept]; omega)] at hreturn
  exact congrArg done ((congrArg orderlyCheck hreturn).trans (orderlyCheck_id (by rw [hw]; exact horder)))

theorem doesSome_wqPollReturn_of_accepted (hb : b.length = 64 * p.count) (horder : s.toll.orderly = false) (hcount : p.count = 1)
    (hfirst : p.first < 2 ^ 32) (hphase : leAt b 0 1 / 128 = phaseOf (wqSize s n) p.first)
    (hform : malformed b (s.isSet (Fld.WQ_CFG_CHK n)) = (0, 0)) :
    DoesSome (.wqPollReturn n (.ok b)) s (fun u => (∃ e, u.accepted = s.accepted ++ [e] ∧ e.bytes = b ∧ e.wq = n.val ∧ e.idx = p.first ∧
        e.src = .queue ∧ e.stage = .queued ∧ e.slot = s.get (Fld.WQ_BASE_ADDR n) * 64 + p.first % wqSize s n * 64) ∧
      u.get (Fld.WQ_CONS_CONS n) = (p.first + 1) % 2 ^ 32 ∧
      u.get (Fld.WQ_CONS_PHASE n) = phaseOf (wqSize s n) ((p.first + 1) % 2 ^ 32) ∧ u.polls = w.polls ∧ u.devState = s.devState ∧
      u.get (Fld.WQ_STAT_ACCEPTED n) = (s.get (Fld.WQ_STAT_ACCEPTED n) + 1) % 2 ^ 32) := by
  obtain ⟨rest, hrest, hslots⟩ := pollSlots_cons (by omega) hfirst b
  obtain rfl : rest = [] := List.eq_nil_of_length_eq_zero (by omega)
  have hwhole : bsub b 0 64 = b := by simp [bsub, hb, hcount]
  have hreturn := wqReturn_ok hp hw hb
  obtain ⟨l, hagain⟩ := wqWhole_eq (wqAccept w n (wqSize s n) (pollSlots p b)) n p
  have hform' : malformed b (w.isSet (Fld.WQ_CFG_CHK n)) = (0, 0) := by rw [hw]; exact hform
  rw [hagain, hslots, hwhole, wqAccept_of_phase hphase, hform', if_neg (by decide), wqAccept] at hreturn
  obtain ⟨hcons, hturn, haccepted⟩ := consPast_cons w n (wqSize s n) p.first
  have hget {g : Fld} : w.get g = s.get g := by rw [hw]; rfl
  refine ⟨_, congrArg done ((congrArg orderlyCheck hreturn).trans (orderlyCheck_id ?_)),
    ⟨acceptedEntry (consPast w n (wqSize s n) p.first) n (wqSize s n) p.first b, ?_, rfl, rfl, rfl, rfl, rfl, ?_⟩, hcons, hturn, rfl, ?_,
    haccepted.trans (by rw [hget])⟩
  · rw [hw]
    exact horder
  · rw [hw]
  · rw [acceptedEntry, consPast_get _ _ _ _ (show 6 < 64 by decide), hget] <;>
      simp only [Fld.WQ_BASE_ADDR, Reg.WQ_BASE, Reg.WQ_CONS, Reg.WQ_STAT] <;> omega
  · exact (consPast_devState w n (wqSize s n) p.first).trans hget

end

end Sys2Proof.Machine
end

section
/-!
PROOF. An entry that is malformed halts the device (R74, R75).
-/
namespace Sys2Proof.Machine

/-! ### Operations that leave every command queue as it is -/

/-- The command queues and the Basin's queue of `u` are those of `s`. -/
structure KeepsQueues (s u : State) : Prop where
  cmdq (c : Fin 56) : (u.ch c).cmdq = (s.ch c).cmdq
  basinq : u.basinq = s.basinq

theorem KeepsQueues.refl (s : State) : KeepsQueues s s := ⟨fun _ => rfl, rfl⟩

theorem KeepsQueues.trans {s t u : State} (h : KeepsQueues s t) (k : KeepsQueues t u) : KeepsQueues s u :=
  ⟨fun c => (k.cmdq c).trans (h.cmdq c), k.basinq.trans h.basinq⟩

theorem KeepsQueues.dispatched {s u : State} (h : KeepsQueues s u) : dispatched u = dispatched s := by
  have hqueues : u.chans.toList.map Chan.cmdq = s.chans.toList.map Chan.cmdq := by
    refine List.ext_getElem (by simp) fun i hi _ => ?_
    rw [List.length_map, Vector.length_toList] at hi
    rw [List.getElem_map, List.getElem_map, Vector.getElem_toList, Vector.getElem_toList]
    exact h.cmdq ⟨i, hi⟩
  rw [Machine.dispatched, Machine.dispatched, hqueues, h.basinq]

theorem KeepsEntries.keepsQueues {s u : State} (h : KeepsEntries s u) : KeepsQueues s u :=
  ⟨fun c => by rw [State.ch, State.ch, h.chans], h.basinq⟩

theorem KeepsQueues.put {s u : State} (h : KeepsQueues s u) (f : Fld) (v : Nat) : KeepsQueues s (u.put f v) := ⟨h.cmdq, h.basinq⟩

theorem KeepsQueues.emit {s u : State} (h : KeepsQueues s u) (e : OutEvent) : KeepsQueues s (u.emit e) := ⟨h.cmdq, h.basinq⟩

theorem keepsQueues_modCh (s : State) (c : Fin 56) {f : Chan → Chan} (hf : (f (s.ch c)).cmdq = (s.ch c).cmdq) : KeepsQueues s (s.modCh c f) := by
  refine ⟨fun d => ?_, rfl⟩
  by_cases hd : c = d
  · rw [← hd, State.modCh_ch_same, hf]
  · rw [State.modCh_ch_ne _ _ hd]

theorem KeepsQueues.eachCh {f : State → Fin 56 → State} (hf : ∀ s c, KeepsQueues s (f s c)) (s : State) : KeepsQueues s (s.eachCh f) := by
  unfold State.eachCh
  generalize List.finRange 56 = l
  induction l generalizing s with
  | nil => exact .refl s
  | cons c l ih => exact (hf s c).trans (ih _)

theorem State.eachCh_get {f : State → Fin 56 → State} {g : Fld} (hf : ∀ s c, (f s c).get g = s.get g) (s : State) :
    (s.eachCh f).get g = s.get g := by
  unfold State.eachCh
  generalize List.finRange 56 = l
  induction l generalizing s with
  | nil => rfl
  | cons c l ih => rw [List.foldl_cons, ih, hf]

/-! ### A delivery of the interrupt controller leaves the queues (R318) -/

theorem keepsQueues_icInform (s : State) (src t : Nat) : KeepsQueues s (icInform s src t) := by
  unfold icInform
  split
  · exact ⟨fun _ => rfl, rfl⟩
  · split
    · obtain ⟨i, hi⟩ := icPop_eq (thLog s 0xFE 0x0500 (leBytes 2 src)) t
      rw [hi]
      exact (keepsEntries_thLog s _ _ _).keepsQueues.trans ⟨fun _ => rfl, rfl⟩
    · split
      · exact keepsQueues_modCh _ _ rfl
      · exact .refl s

theorem keepsQueues_icDeliverSrc (s : State) (src : Nat) : KeepsQueues s (icDeliverSrc s src) := by
  unfold icDeliverSrc
  dsimp only
  refine KeepsQueues.trans ?_ (keepsQueues_icInform _ _ _)
  generalize hu : State.modIc (s.modIc _) _ = u
  obtain ⟨f, i, hf⟩ := holdOff_eq u src (targetOf s src)
  rw [hf, ← hu]
  exact ⟨fun _ => rfl, rfl⟩

theorem keepsQueues_icPulse (s : State) (src : Nat) : KeepsQueues s (icPulse s src) := by
  obtain h | h | ⟨f, h⟩ := icPulse_cases s src
  · rw [h]
    exact .refl s
  · rw [h]
    exact keepsQueues_icDeliverSrc s src
  · rw [h]
    exact ⟨fun _ => rfl, rfl⟩

theorem keepsQueues_setDev {s : State} {st : Nat} (h : s.devState ≠ st) : KeepsQueues s (setDev s st) := by
  obtain ⟨data, hd⟩ := setDev_of_ne h
  have hmoved : KeepsQueues s (devMoved s st) := (((KeepsQueues.refl s).put _ _).put _ _).put _ _
  have hlogged := (hmoved.trans (keepsQueues_icPulse _ 513)).trans (keepsEntries_thLog _ 0xFF 0x0004 data).keepsQueues
  rw [hd]
  exact (hlogged.emit _).emit _

/-! ### A halt of the device (R75, R110) -/

theorem keepsQueues_routeEnds (s : State) (c : Fin 56) (status idx residual : Nat) : KeepsQueues s (routeEnds s c status idx residual) := by
  have hfields := (((((KeepsQueues.refl s).put (Fld.ROUTE_STATE_STATE c) rtIdle).put (Fld.ROUTE_STATE_END_VALID c) 1).put
    (Fld.ROUTE_STATE_END_STATUS c) status).put (Fld.ROUTE_STATE_ORDER c) idx).put (Fld.ROUTE_STATE_RESIDUAL c) residual
  unfold routeEnds
  exact (hfields.put (Fld.ROUTE_EVT_END c) 1).trans (keepsQueues_modCh _ c rfl)

theorem keepsQueues_routeStopping (s : State) (c : Fin 56) (k : StopKind) : KeepsQueues s (routeStopping s c k) := by
  unfold routeStopping
  exact ((KeepsQueues.refl s).put (Fld.ROUTE_STATE_STATE c) rtStopping).trans (keepsQueues_modCh _ c rfl)

theorem keepsQueues_haltRoute (s : State) (c : Fin 56) : KeepsQueues s (haltRoute s c) := by
  unfold haltRoute
  dsimp only
  split
  · exact keepsQueues_routeEnds ..
  · split
    · exact keepsQueues_routeStopping ..
    · exact .refl s

section
variable (s : State) (c : Fin 56) {g : Fld} (hg : fldKey g < 0x1000000 * 64)
include hg

theorem key_ne_route : (∀ lo w rst, fldKey g ≠ fldKey ⟨Reg.ROUTE_STATE c, lo, w, rst⟩) ∧ fldKey g ≠ fldKey (Fld.ROUTE_EVT_END c) := by
  simp only [fldKey, Fld.ROUTE_EVT_END, Reg.ROUTE_STATE, Reg.ROUTE_EVT, chPage] at *
  constructor
  · omega
  · omega

theorem routeEnds_get (status idx residual : Nat) : (routeEnds s c status idx residual).get g = s.get g := by
  obtain ⟨hstate, hevt⟩ := key_ne_route c hg
  simp only [routeEnds, rtSet, State.raise, State.modSq_eq, State.modCh_get]
  rw [State.get_put_ne _ _ hevt]
  iterate 5 refine (State.get_put_ne _ _ (hstate _ _ _)).trans ?_
  rfl

theorem routeStopping_get (k : StopKind) : (routeStopping s c k).get g = s.get g := by
  obtain ⟨hstate, -⟩ := key_ne_route c hg
  calc (routeStopping s c k).get g = (rtSet s c rtStopping).get g := rfl
    _ = s.get g := State.get_put_ne _ _ (hstate _ _ _)

theorem haltRoute_get : (haltRoute s c).get g = s.get g := by
  unfold haltRoute
  dsimp only
  split
  · exact routeEnds_get s c hg ..
  · split
    · exact routeStopping_get s c hg _
    · rfl

end

/-- The device as it enters HALT for a cause, its routes not yet stopped. -/
def haltEntered (s : State) (cause : Nat) : State := { s.put Fld.DEV_STATE_HALT_CAUSE cause with halting := true }

theorem haltEntered_get (s : State) (cause : Nat) (g : Fld) : (haltEntered s cause).get g = (s.put Fld.DEV_STATE_HALT_CAUSE cause).get g := rfl

theorem haltEntered_devState (s : State) (cause : Nat) : (haltEntered s cause).devState = s.devState :=
  State.get_put_ne s cause (by decide)

theorem serving_ne_halt {s : State} (h : s.serving = true) : s.devState ≠ devHalt := by
  intro hhalt
  rw [State.serving, hhalt] at h
  exact absurd h (by decide)

theorem devHaltNow_of_serving {s : State} (h : s.serving = true) (cause : Nat) :
    devHaltNow s cause = (setDev (haltEntered s cause) devHalt).eachCh haltRoute := if_pos h

section
variable {s : State} (h : s.serving = true) (cause : Nat)
include h

theorem keepsQueues_devHaltNow : KeepsQueues s (devHaltNow s cause) := by
  have hne : (haltEntered s cause).devState ≠ devHalt := haltEntered_devState s cause ▸ serving_ne_halt h
  rw [devHaltNow_of_serving h]
  have hentered : KeepsQueues s (haltEntered s cause) := ⟨fun _ => rfl, rfl⟩
  exact (hentered.trans (keepsQueues_setDev hne)).trans (.eachCh keepsQueues_haltRoute _)

theorem devHaltNow_get {g : Fld} (hg : fldKey g < 0x1000000 * 64) :
    (devHaltNow s cause).get g = (devMoved (haltEntered s cause) devHalt).get g := by
  have hne : (haltEntered s cause).devState ≠ devHalt := haltEntered_devState s cause ▸ serving_ne_halt h
  rw [devHaltNow_of_serving h, State.eachCh_get fun s c => haltRoute_get s c hg, setDev_get hne (by omega)]

theorem devHaltNow_devState : (devHaltNow s cause).devState = devHalt := by
  rw [State.devState, devHaltNow_get h cause (by decide), devMoved, State.get_put_ne _ _ (by decide), State.get_put_same]
  rfl

theorem devHaltNow_cause : (devHaltNow s cause).get Fld.DEV_STATE_HALT_CAUSE = cause % 2 ^ 8 := by
  rw [devHaltNow_get h cause (by decide), devMoved, State.get_put_ne _ _ (by decide), State.get_put_ne _ _ (by decide),
    State.get_put_ne _ _ (by decide), haltEntered_get, State.get_put_same]
  rfl

/-- A halt writes the registers of DEV_STATE and DEV_STATE_TICK, and none above them and below the channels' pages. -/
theorem devHaltNow_get_of_lt {g : Fld} (hlow : (Reg.DEV_STATE_TICK + 8) * 64 ≤ fldKey g) (hg : fldKey g < 0x1000000 * 64) :
    (devHaltNow s cause).get g = s.get g := by
  rw [devHaltNow_get h cause hg, devMoved, State.get_put_ne, State.get_put_ne, State.get_put_ne, haltEntered_get]
  · refine State.get_put_ne s cause ?_
    simp only [fldKey, Fld.DEV_STATE_HALT_CAUSE, Reg.DEV_STATE, Reg.DEV_STATE_TICK] at *
    omega
  all_goals
    simp only [fldKey, Fld.DEV_STATE_PREV_STATE, Fld.DEV_STATE_STATE, Fld.DEV_STATE_TICK_ENTRY_TICK, Reg.DEV_STATE, Reg.DEV_STATE_TICK] at *
    omega

end

/-! ### A malformed entry (R74, R75) -/

/-- MALF_INFO, MALF_TICK and MALF_ENTRY keep the entry that was refused. -/
def malfNoted (s : State) (n idx : Nat) (b : List Byte) (reason byte : Nat) : State :=
  let s := (s.put Fld.MALF_INFO_WQ n).put Fld.MALF_INFO_REASON reason
  let s := ((s.put Fld.MALF_INFO_BYTE byte).put Fld.MALF_INFO_INDEX idx).put Fld.MALF_TICK_TICK s.tick
  (List.range 8).foldl (fun s k => s.put (Fld.MALF_ENTRY_BYTES k) (leAt b (8 * k) 8)) s

/-- The three events a malformed entry logs. -/
def malfLogged (s : State) (info tick : Nat) (b : List Byte) : State :=
  thLog (thLog (thLog s 0xFF 0x0101 (leBytes 8 info ++ leBytes 8 tick)) 0xFF 0x0102 (bsub b 0 32)) 0xFF 0x0103 (bsub b 32 32)

theorem malfLogged_get (s : State) (info tick : Nat) (b : List Byte) (g : Fld) : (malfLogged s info tick b).get g = s.get g := by
  simp only [malfLogged, thLog_get]

theorem keepsQueues_malfLogged (s : State) (info tick : Nat) (b : List Byte) : KeepsQueues s (malfLogged s info tick b) :=
  (((keepsEntries_thLog ..).trans (keepsEntries_thLog ..)).trans (keepsEntries_thLog ..)).keepsQueues

/-- After the halt and its events the queues' entries and polls are dropped. -/
theorem malfHalt_eq (s : State) (n idx : Nat) (b : List Byte) (reason byte : Nat) : ∃ u,
    (∀ g, u.get g = (devHaltNow (malfNoted s n idx b reason byte) 1).get g) ∧
    KeepsQueues (devHaltNow (malfNoted s n idx b reason byte) 1) u ∧
    malfHalt s n idx b reason byte = { u with accepted := [], polls := [] } :=
  ⟨_, malfLogged_get _ _ _ b, keepsQueues_malfLogged _ _ _ b, rfl⟩

theorem foldl_put_get {f : Nat → Fld} {v : Nat → Nat} {g : Fld} (hg : ∀ k, fldKey g ≠ fldKey (f k)) (l : List Nat) (s : State) :
    (l.foldl (fun s k => s.put (f k) (v k)) s).get g = s.get g := by
  induction l generalizing s with
  | nil => rfl
  | cons k l ih => rw [List.foldl_cons, ih, State.get_put_ne _ _ (hg k)]

theorem KeepsQueues.foldl_put {s u : State} (h : KeepsQueues s u) (f : Nat → Fld) (v : Nat → Nat) (l : List Nat) :
    KeepsQueues s (l.foldl (fun s k => s.put (f k) (v k)) u) := by
  induction l generalizing u with
  | nil => exact h
  | cons k l ih => exact ih (h.put (f k) (v k))

section
variable (s : State) (n idx : Nat) (b : List Byte) (reason byte : Nat)

theorem keepsQueues_malfNoted : KeepsQueues s (malfNoted s n idx b reason byte) :=
  .foldl_put ((((((KeepsQueues.refl s).put _ _).put _ _).put _ _).put _ _).put _ _) _ _ _

theorem malfNoted_devState : (malfNoted s n idx b reason byte).devState = s.devState := by
  rw [malfNoted, State.devState, foldl_put_get]
  · simp (disch := decide) only [State.get_put_ne]
    rfl
  · intro k
    simp only [fldKey, Fld.DEV_STATE_STATE, Fld.MALF_ENTRY_BYTES, Reg.DEV_STATE, Reg.MALF_ENTRY]
    omega

theorem malfNoted_info : (malfNoted s n idx b reason byte).get Fld.MALF_INFO_WQ = n % 2 ^ 8 ∧
    (malfNoted s n idx b reason byte).get Fld.MALF_INFO_REASON = reason % 2 ^ 4 ∧
    (malfNoted s n idx b reason byte).get Fld.MALF_INFO_BYTE = byte % 2 ^ 6 ∧
    (malfNoted s n idx b reason byte).get Fld.MALF_INFO_INDEX = idx % 2 ^ 32 := by
  have hentry {g : Fld} (hg : g.addr = Reg.MALF_INFO) (hlo : g.lo < 64) (k : Nat) : fldKey g ≠ fldKey (Fld.MALF_ENTRY_BYTES k) := by
    simp only [fldKey, hg, Fld.MALF_ENTRY_BYTES, Reg.MALF_INFO, Reg.MALF_ENTRY]
    omega
  unfold malfNoted
  refine ⟨?_, ?_, ?_, ?_⟩
  all_goals
    rw [foldl_put_get (hentry rfl (by decide))]
    simp (disch := decide) only [State.get_put_ne, State.get_put_same]
    rfl

end

/-- A malformed entry halts the device and is kept; what was accepted is dropped, and what was dispatched stays. -/
theorem malfHalt_of_serving {s : State} (h : s.serving = true) (n : Fin 256) (idx : Nat) (b : List Byte) {reason byte : Nat} (hr : reason < 16)
    (hy : byte < 64) :
    (malfHalt s n idx b reason byte).devState = devHalt ∧ (malfHalt s n idx b reason byte).get Fld.DEV_STATE_HALT_CAUSE = 1 ∧
    (malfHalt s n idx b reason byte).get Fld.MALF_INFO_WQ = n ∧ (malfHalt s n idx b reason byte).get Fld.MALF_INFO_REASON = reason ∧
    (malfHalt s n idx b reason byte).get Fld.MALF_INFO_BYTE = byte ∧ (malfHalt s n idx b reason byte).get Fld.MALF_INFO_INDEX = idx % 2 ^ 32 ∧
    (malfHalt s n idx b reason byte).accepted = [] ∧ (malfHalt s n idx b reason byte).polls = [] ∧
    dispatched (malfHalt s n idx b reason byte) = dispatched s := by
  obtain ⟨u, hu, hlogged, heq⟩ := malfHalt_eq s n idx b reason byte
  have hserving : (malfNoted s n idx b reason byte).serving = true := by rwa [State.serving, malfNoted_devState]
  have hget (g : Fld) : (malfHalt s n idx b reason byte).get g = (devHaltNow (malfNoted s n idx b reason byte) 1).get g := by
    rw [heq]
    exact hu g
  have hnoted {g : Fld} (hlow : (Reg.DEV_STATE_TICK + 8) * 64 ≤ fldKey g) (hg : fldKey g < 0x1000000 * 64) :
      (malfHalt s n idx b reason byte).get g = (malfNoted s n idx b reason byte).get g :=
    (hget g).trans (devHaltNow_get_of_lt hserving 1 hlow hg)
  have hqueues := ((keepsQueues_malfNoted s n idx b reason byte).trans (keepsQueues_devHaltNow hserving 1)).trans hlogged
  obtain ⟨hwq, hreason, hbyte, hindex⟩ := malfNoted_info s n idx b reason byte
  refine ⟨(hget _).trans (devHaltNow_devState hserving 1), (hget _).trans (devHaltNow_cause hserving 1), ?_, ?_, ?_, ?_, ?_, ?_, ?_⟩
  · rw [hnoted (by decide) (by decide), hwq]
    exact Nat.mod_eq_of_lt n.isLt
  · rw [hnoted (by decide) (by decide), hreason]
    exact Nat.mod_eq_of_lt hr
  · rw [hnoted (by decide) (by decide), hbyte]
    exact Nat.mod_eq_of_lt hy
  · rw [hnoted (by decide) (by decide), hindex]
  · rw [heq]
  · rw [heq]
  · rw [heq]
    exact hqueues.dispatched

theorem wqAccept_of_malformed {s : State} {n : Fin 256} {size i : Nat} {b : List Byte} {rest : List (Nat × List Byte)} {r y : Nat}
    (hphase : leAt b 0 1 / 128 = phaseOf size i) (hform : malformed b (s.isSet (Fld.WQ_CFG_CHK n)) = (r, y)) (hr : r ≠ 0) :
    wqAccept s n size ((i, b) :: rest) = malfHalt (consPast s n size i) n i b r y := by
  rw [wqAccept_of_phase hphase, hform, if_pos hr]

theorem consPast_serving (s : State) (n size i : Nat) : (consPast s n size i).serving = s.serving := by
  rw [State.serving, State.serving, consPast_devState]

/-- An entry with an opcode that is not defined is malformed at its byte 1. -/
theorem malformed_of_undefined {b : List Byte} (h : opOperands (leAt b 1 1) = none) (chk : Bool) : malformed b chk = (1, 1) := by
  rw [malformed, h]

end Sys2Proof.Machine
end

section
/-!
PROOF. The arbiter's dispatch of an accepted entry (R76, log 28).
-/
namespace Sys2Proof.Machine

/-- The arbiter after it has settled: past a queue whose turn is over, and without credits where no round is open. -/
def arbSettled (s : State) : Arbiter :=
  let a := if 0 < s.arb.left ∧ !wqReady s s.arb.credits s.arb.pos then { s.arb with pos := (s.arb.pos + 1) % 256, left := 0 } else s.arb
  if roundOpen s then a else { a with credits := [] }

theorem arbSettle_eq (s : State) : arbSettle s = { s with arb := arbSettled s } := rfl

theorem arbSettle_ch (s : State) (c : Fin 56) : (arbSettle s).ch c = s.ch c := rfl

theorem arbSettle_basinq (s : State) : (arbSettle s).basinq = s.basinq := rfl

theorem wqReady_nil (s : State) (k : Nat) : wqReady s [] k = false := by
  unfold wqReady
  split <;> simp

/-- An arbiter with turns left at a queue that is ready after it has settled stays there. -/
theorem arbSettled_of_ready {s : State} (hready : wqReady s (arbSettled s).credits s.arb.pos = true) :
    (arbSettled s).left = s.arb.left ∧ (arbSettled s).pos = s.arb.pos := by
  by_cases hopen : roundOpen s = true
  · have hcredits : (arbSettled s).credits = s.arb.credits := by
      simp only [arbSettled, hopen, if_true]
      split <;> rfl
    rw [hcredits] at hready
    simp [arbSettled, hopen, hready]
  · have hcredits : (arbSettled s).credits = [] := by simp only [arbSettled, hopen, if_false, Bool.false_eq_true]
    rw [hcredits, wqReady_nil] at hready
    exact absurd hready Bool.false_ne_true

/-- The entry as it is dispatched from queue `k` (R76, R77, R83). -/
def dispatchedEntry (s : State) (k : Nat) (e : WorkEntry) : WorkEntry :=
  let waits := if e.opcode = opFence then
      ((dispatched s).filter (fun x => x.src = .queue && (e.arg 24 1 == 1 || x.wq == k))).map WorkEntry.serial
    else []
  { e with ring := s.get (Fld.WQ_CFG_CR k), serial := s.serial, waits := waits, waited := waits.length }

/-- The state in which the arbiter has taken the entry at the head of queue `k`. -/
def entryTaken (s : State) (a : Arbiter) (k left : Nat) (e : WorkEntry) : State :=
  let a := { a with credits := a.credits.set k (a.credits.getD k 0 - 1), pos := if left - 1 = 0 then (k + 1) % 256 else k
                    left := left - 1 }
  let s := { s with accepted := eraseFirst (fun x => x.wq == k) s.accepted, serial := s.serial + 1, arb := a }
  if opLong e.opcode then s.raise (Fld.WQ_CONS_LONG_ACTIVE k) else s

theorem wqDispatch_of_head {s : State} {a : Arbiter} {k left : Nat} {e : WorkEntry} (h : wqHead s k = some e) :
    wqDispatch s a k left = arbSettle (enqueue (entryTaken s a k left e) (dispatchedEntry s k e)) := by
  rw [wqDispatch, h]
  rfl

section
variable (s : State) (a : Arbiter) (k left : Nat) (e : WorkEntry)

theorem entryTaken_eq : ∃ f c, entryTaken s a k left e = { s with
    fld := f, accepted := eraseFirst (fun x => x.wq == k) s.accepted, serial := s.serial + 1
    arb := { a with credits := c, pos := if left - 1 = 0 then (k + 1) % 256 else k, left := left - 1 } } := by
  unfold entryTaken
  dsimp only
  split
  · exact ⟨_, _, rfl⟩
  · exact ⟨_, _, rfl⟩

theorem entryTaken_longActive (h : opLong e.opcode = true) : (entryTaken s a k left e).isSet (Fld.WQ_CONS_LONG_ACTIVE k) = true := by
  unfold entryTaken
  rw [if_pos h]
  exact State.isSet_raise _ Nat.one_pos

end

theorem enqueue_of_chan {e : WorkEntry} (h : e.chan < 56) (s : State) :
    enqueue s e = s.modCh ⟨e.chan, h⟩ (fun x => { x with cmdq := x.cmdq ++ [e] }) := dif_pos h

theorem enqueue_of_basin {e : WorkEntry} (h : 56 ≤ e.chan) (s : State) : enqueue s e = { s with basinq := s.basinq ++ [e] } :=
  dif_neg (Nat.not_lt.mpr h)

theorem enqueue_cmdq {e : WorkEntry} (h : e.chan < 56) (s : State) :
    ((enqueue s e).ch ⟨e.chan, h⟩).cmdq = (s.ch ⟨e.chan, h⟩).cmdq ++ [e] ∧ (enqueue s e).basinq = s.basinq := by
  rw [enqueue_of_chan h, State.modCh_ch_same]
  exact ⟨rfl, rfl⟩

/-- An entry put in its command queue changes the queues alone. -/
theorem enqueue_eq (s : State) (e : WorkEntry) : ∃ cs q, enqueue s e = { s with chans := cs, basinq := q } := by
  unfold enqueue
  split
  · exact ⟨_, s.basinq, rfl⟩
  · exact ⟨s.chans, _, rfl⟩

/-- The queue that the arbiter serves next, in the round that is open or a new one. -/
def Picks (w : State) (a : Arbiter) (k left : Nat) : Prop :=
  arbPick w w.arb = some (k, left) ∧ a = w.arb ∨
    arbPick w w.arb = none ∧ roundOpen w = false ∧ a = newRound w ∧ arbPick w a = some (k, left)

theorem entryDispatch_of_picks {s : State} {a : Arbiter} {k left : Nat} (hserving : s.serving = true) (hhost : s.hostOk = true)
    (h : Picks (arbSettle s) a k left) : entryDispatch s = wqDispatch (arbSettle s) a k left := by
  unfold entryDispatch
  rw [hserving, hhost, Bool.and_self, if_pos rfl]
  rcases h with ⟨hpick, rfl⟩ | ⟨hnone, hround, rfl, hpick⟩
  · simp only [hpick]
  · simp only [hnone, hround, Bool.false_eq_true, if_false, hpick]

theorem entryDispatch_of_not_served {s : State} (h : s.serving = false ∨ s.hostOk = false) : entryDispatch s = s := by
  unfold entryDispatch
  rcases h with h | h <;> simp [h]

/-- The state after the dispatch of the entry `e` at the head of queue `k`. -/
def entryQueued (s : State) (a : Arbiter) (k left : Nat) (e : WorkEntry) : State :=
  enqueue (entryTaken (arbSettle s) a k left e) (dispatchedEntry s k e)

theorem doesSome_entryDispatch {s : State} {a : Arbiter} {k left : Nat} {e : WorkEntry} (hserving : s.serving = true) (hhost : s.hostOk = true)
    (hpicks : Picks (arbSettle s) a k left) (hhead : wqHead (arbSettle s) k = some e) :
    DoesSome .entryDispatch s (fun u => u.accepted = eraseFirst (fun x => x.wq == k) s.accepted ∧ u.serial = s.serial + 1 ∧
      (∀ h : e.chan < 56, (u.ch ⟨e.chan, h⟩).cmdq = (s.ch ⟨e.chan, h⟩).cmdq ++ [dispatchedEntry s k e] ∧ u.basinq = s.basinq) ∧
      (56 ≤ e.chan → u.basinq = s.basinq ++ [dispatchedEntry s k e] ∧ u.chans = s.chans) ∧
      (opLong e.opcode = true → u.isSet (Fld.WQ_CONS_LONG_ACTIVE k) = true) ∧
      (wqReady u u.arb.credits k = true → 1 < left → u.arb.left = left - 1 ∧ u.arb.pos = k)) := by
  have hdispatch : entryDispatch s = arbSettle (entryQueued s a k left e) :=
    (entryDispatch_of_picks hserving hhost hpicks).trans (wqDispatch_of_head hhead)
  obtain ⟨f, c, htaken⟩ := entryTaken_eq (arbSettle s) a k left e
  obtain ⟨cs, q, hqueued⟩ := enqueue_eq (entryTaken (arbSettle s) a k left e) (dispatchedEntry s k e)
  refine ⟨_, congrArg done hdispatch, ?_, ?_, fun h => ?_, fun h => ?_, fun h => ?_, fun hready hleft => ?_⟩
  · rw [arbSettle_eq, entryQueued, hqueued, htaken]
    rfl
  · rw [arbSettle_eq, entryQueued, hqueued, htaken]
    rfl
  · have hch : (entryTaken (arbSettle s) a k left e).ch ⟨e.chan, h⟩ = s.ch ⟨e.chan, h⟩ := by
      rw [htaken]
      rfl
    obtain ⟨hcmdq, hbasin⟩ := enqueue_cmdq (e := dispatchedEntry s k e) h (entryTaken (arbSettle s) a k left e)
    rw [arbSettle_ch, arbSettle_basinq, entryQueued, hbasin]
    refine ⟨hcmdq.trans (congrArg (fun x : Chan => x.cmdq ++ [dispatchedEntry s k e]) hch), ?_⟩
    rw [htaken, arbSettle_basinq]
  · rw [arbSettle_eq, entryQueued, enqueue_of_basin (e := dispatchedEntry s k e) h, htaken]
    exact ⟨rfl, rfl⟩
  · have hactive := entryTaken_longActive (arbSettle s) a k left e h
    rw [arbSettle_eq, entryQueued, hqueued]
    exact hactive
  · have harb : (entryQueued s a k left e).arb.left = left - 1 ∧ (entryQueued s a k left e).arb.pos = k := by
      rw [entryQueued, hqueued, htaken]
      exact ⟨rfl, if_neg (by omega)⟩
    obtain ⟨hturns, hpos⟩ := harb
    obtain ⟨hl, hk⟩ := arbSettled_of_ready (s := entryQueued s a k left e) (by rwa [hpos])
    exact ⟨hl.trans hturns, hk.trans hpos⟩

end Sys2Proof.Machine
end

section
/-!
PROOF. FENCE and the steps of long operations (R81, R83, R369).
-/
namespace Sys2Proof.Machine

/-! ### FENCE (R83) -/

section
variable {s : State} {serial : Nat} {e : WorkEntry} (he : basinEntry s serial opFence = some e)
include he

theorem fenceComplete_of_gone (hrun : e.stage = .running) (h : ∀ w ∈ e.waits, ∀ x ∈ dispatched s, x.serial ≠ w) :
    fenceComplete s serial = complete s e St.ok (leBytes 4 e.waited) := by
  have hall : e.waits.all (fun w => !(dispatched s).any (fun x => x.serial == w)) = true := by simpa using h
  rw [fenceComplete, he]
  simp only [hrun, hall, decide_true, Bool.and_self, if_true]

theorem fenceComplete_of_waiting (h : ∃ w ∈ e.waits, ∃ x ∈ dispatched s, x.serial = w) : fenceComplete s serial = s := by
  have hall : e.waits.all (fun w => !(dispatched s).any (fun x => x.serial == w)) = false := by simpa using h
  rw [fenceComplete, he]
  simp only [hall, Bool.and_false, Bool.false_eq_true, if_false]

end

theorem basinEntry_opcode {s : State} {serial opc : Nat} {e : WorkEntry} (h : basinEntry s serial opc = some e) : e.opcode = opc := by
  have := List.find?_some h
  simp only [Bool.and_eq_true, beq_iff_eq] at this
  exact this.2

theorem compWrite_of_reached {s : State} (h : s.hostOk = true) (hheld : s.host.held = []) (addr : Nat) (data : List Byte) :
    compWrite s addr data = s.hostWrite addr data := by
  rw [compWrite, h, hheld]
  rfl

theorem crRecord_of_no_ring {e : WorkEntry} (h : 64 ≤ e.ring) (s : State) (status : Nat) : crRecord s e status = s := if_pos (.inl h)

/-- A completion without a ring, the host reached: status and result in the slot first, then its byte 0. -/
theorem complete_out {s : State} {e : WorkEntry} (hsrc : e.src = .queue) (hchan : 56 ≤ e.chan) (hring : 64 ≤ e.ring) 
    (hlong : opLong e.opcode = false) (hhost : s.hostOk = true) (hheld : s.host.held = []) (status : Nat) (result : List Byte) :
    (complete s e status result).out = s.out ++
      [OutEvent.hostWrite ⟨e.slot + 1, leBytes 1 status ++ bsub e.bytes 2 6 ++ (result ++ zeros 8).take 8 ++ leBytes 8 s.now⟩,
       OutEvent.hostWrite ⟨e.slot, leBytes 1 (leAt e.bytes 0 1 / 128 * 192 + leAt e.bytes 0 1 % 64)⟩] := by
  have hdequeued : (dequeue s e).hostOk = true ∧ (dequeue s e).host.held = [] ∧ (dequeue s e).out = s.out ∧ (dequeue s e).now = s.now := by
    rw [dequeue_of_basin hchan]
    exact ⟨hhost, hheld, rfl, rfl⟩
  obtain ⟨hhost, hheld, hout, hnow⟩ := hdequeued
  simp only [complete, hsrc, hlong, ne_eq, not_true_eq_false, Bool.false_eq_true, if_false]
  generalize dequeue s e = t at hhost hheld hout hnow
  rw [crRecord_of_no_ring hring, compWrite_of_reached (s := t) hhost hheld, compWrite_of_reached (s := t.hostWrite _ _) hhost hheld]
  simp only [State.hostWrite, State.emit, hout, hnow, List.append_assoc, List.singleton_append]

/-! ### The entries a step leaves in the command queues -/

theorem mem_dispatched {s : State} {x : WorkEntry} : x ∈ dispatched s ↔ (∃ c : Fin 56, x ∈ (s.ch c).cmdq) ∨ x ∈ s.basinq := by
  rw [dispatched, List.mem_append]
  refine or_congr_left ⟨fun h => ?_, fun ⟨c, hc⟩ => ?_⟩
  · obtain ⟨l, hl, hx⟩ := List.mem_flatten.mp h
    obtain ⟨y, hy, rfl⟩ := List.mem_map.mp hl
    obtain ⟨i, hi, rfl⟩ := Vector.mem_iff_getElem.mp (Vector.mem_toList_iff.mp hy)
    exact ⟨⟨i, hi⟩, hx⟩
  · exact List.mem_flatten.mpr ⟨_, List.mem_map.mpr ⟨s.ch c, Vector.mem_toList_iff.mpr (Vector.getElem_mem c.isLt), rfl⟩, hc⟩

/-- A change of one channel leaves the entries of the others. -/
theorem mem_dispatched_of_modCh {s : State} {c : Fin 56} {f : Chan → Chan} {x : WorkEntry} (h : x ∈ dispatched (s.modCh c f)) :
    x ∈ (f (s.ch c)).cmdq ∨ x ∈ dispatched s := by
  obtain ⟨d, hd⟩ | hbasin := mem_dispatched.mp h
  · by_cases hcd : c = d
    · rw [← hcd, State.modCh_ch_same] at hd
      exact .inl hd
    · rw [State.modCh_ch_ne _ _ hcd] at hd
      exact .inr (mem_dispatched.mpr (.inl ⟨d, hd⟩))
  · exact .inr (mem_dispatched.mpr (.inr hbasin))

/-- A change of the Basin's queue leaves the entries of the channels. -/
theorem mem_dispatched_of_basinq {s : State} {q : List WorkEntry} {x : WorkEntry} (h : x ∈ dispatched { s with basinq := q }) :
    x ∈ q ∨ x ∈ dispatched s := by
  obtain hchan | hbasin := mem_dispatched.mp h
  · exact .inr (mem_dispatched.mpr (.inl hchan))
  · exact .inl hbasin

theorem mem_dispatched_of_dequeue {s : State} {e x : WorkEntry} (h : x ∈ dispatched (dequeue s e)) : x ∈ dispatched s := by
  unfold dequeue at h
  split at h
  next hchan =>
    obtain hx | hx := mem_dispatched_of_modCh h
    · exact mem_dispatched.mpr (.inl ⟨⟨e.chan, hchan⟩, List.mem_of_mem_filter hx⟩)
    · exact hx
  next =>
    obtain hx | hx := mem_dispatched_of_basinq h
    · exact mem_dispatched.mpr (.inr (List.mem_of_mem_filter hx))
    · exact hx

theorem mem_map_replaced {q : List WorkEntry} {e x : WorkEntry} (h : x ∈ q.map (fun y => if y.serial = e.serial then e else y)) :
    x ∈ q ∨ x = e := by
  obtain ⟨y, hy, rfl⟩ := List.mem_map.mp h
  split
  · exact .inr rfl
  · exact .inl hy

/-- The entries after one of them is replaced: those there were, and the new one. -/
theorem mem_dispatched_of_updEntry {s : State} {e x : WorkEntry} (h : x ∈ dispatched (updEntry s e)) : x ∈ dispatched s ∨ x = e := by
  unfold updEntry at h
  split at h
  next hchan =>
    obtain hx | hx := mem_dispatched_of_modCh h
    · exact (mem_map_replaced hx).imp_left fun hx => mem_dispatched.mpr (.inl ⟨⟨e.chan, hchan⟩, hx⟩)
    · exact .inl hx
  next =>
    obtain hx | hx := mem_dispatched_of_basinq h
    · exact (mem_map_replaced hx).imp_left fun hx => mem_dispatched.mpr (.inr hx)
    · exact .inl hx

theorem mem_dispatched_of_completeLong {s : State} {e x : WorkEntry} {status : Nat} (h : x ∈ dispatched (completeLong s e status)) :
    x ∈ dispatched s := by
  rw [completeLong, (keepsEntries_complete s e status _).dispatched] at h
  exact mem_dispatched_of_dequeue h

/-! ### A step of a long operation (R81) -/

/-- The running long operation of a dispatch number. -/
def runningLong (s : State) (serial : Nat) : Option WorkEntry :=
  (dispatched s).find? (fun e => e.serial == serial && e.stage = .running && opLong e.opcode)

theorem longStep_of_none {s : State} {serial : Nat} (h : runningLong s serial = none) (data : HostRd) : longStep s serial data = s := by
  unfold runningLong at h
  rw [longStep, h]

/-- A step after which no entry of its number stands at its last step leaves what it did. -/
theorem longStep_of_not_last {s u : State} {serial : Nat} {e : WorkEntry} {data : HostRd} (he : runningLong s serial = some e)
    (hstep : longStepOf s e data = u) (hlast : ∀ x ∈ dispatched u, x.serial = serial → x.last = false) : longStep s serial data = u := by
  unfold runningLong at he
  rw [longStep, he]
  dsimp only
  rw [hstep]
  split
  next x hx =>
    have hserial : x.serial = serial := by simpa using List.find?_some hx
    rw [hlast x (List.mem_of_find?_eq_some hx) hserial, Bool.false_and, if_neg Bool.false_ne_true]
  next => rfl

theorem does_longOpStepDone {s u : State} {serial : Nat} {e : WorkEntry} {data : HostRd} (he : runningLong s serial = some e)
    (hstep : longStepOf s e data = u) (hlast : ∀ x ∈ dispatched u, x.serial = serial → x.last = false) (horder : u.toll.orderly = false) :
    Does (.longOpStepDone serial data) s u :=
  congrArg done ((congrArg orderlyCheck (longStep_of_not_last he hstep hlast)).trans (orderlyCheck_id horder))

/-! ### The steps of a FIRMWARE_STAGE, a SNAPSHOT and a CONFIG_IMAGE_WRITE (R369) -/

theorem keepsEntries_fwStore (s : State) (bs : List Byte) : KeepsEntries s (fwStore s bs) := by
  unfold fwStore
  split
  next k _ =>
    refine ⟨rfl, rfl, ?_⟩
    simp only [State.modToll, modSlot]
    split <;> rfl
  next => exact .refl s

theorem keepsEntries_operandWrite (s : State) (a : Nat) (bs : List Byte) : KeepsEntries s (operandWrite s a bs) :=
  .ite _ ((KeepsEntries.refl s).emit _) ⟨rfl, rfl, rfl⟩

section
variable {s : State} {e : WorkEntry} {data : HostRd} {bs : List Byte}

theorem longStepOf_of_firmware (h : e.opcode = opFirmwareStage) : longStepOf s e data = fwStageStep s e data := by
  rw [longStepOf, h]
  rfl

theorem longStepOf_of_snapshot (h : e.opcode = opSnapshot) : longStepOf s e data = snapshotStep s e := by
  rw [longStepOf, h]
  rfl

theorem longStepOf_of_config (h : e.opcode = opConfigWrite) : longStepOf s e data = cfgWriteStep s e data := by
  rw [longStepOf, h]
  rfl

theorem fwStageStep_of_error (hmay : longMay s e (e.arg 24 8) = true)
    (hread : operandRead s (e.arg 24 8 + e.done * 4096) (min 4096 (e.arg 32 4 - e.done * 4096)) data = none) :
    fwStageStep s e data = completeLong ((operandEcc s (e.arg 24 8 + e.done * 4096)
      (min 4096 (e.arg 32 4 - e.done * 4096))).modToll (fun t => { t with fwBusy := none })) e St.busError := by
  simp only [fwStageStep, hmay, hread, Bool.not_true, Bool.false_eq_true, if_false]

theorem fwStageStep_of_read (hmay : longMay s e (e.arg 24 8) = true)
    (hread : operandRead s (e.arg 24 8 + e.done * 4096) (min 4096 (e.arg 32 4 - e.done * 4096)) data = some bs) (hmore : e.done + 1 < e.total) :
    fwStageStep s e data = updEntry (fwStore s bs) (longStepped s e) := by
  simp only [fwStageStep, hmay, hread, Bool.not_true, Bool.false_eq_true, if_false]
  exact if_pos hmore

theorem snapshotStep_of_more (hmay : longMay s e (e.arg 40 8) = true) (hmore : e.done + 1 < e.total) :
    snapshotStep s e = updEntry (operandWrite s (e.arg 40 8 + e.done * 4096) (bsub e.data (e.done * 4096) 4096)) (longStepped s e) := by
  simp only [snapshotStep, hmay, Bool.not_true, Bool.false_eq_true, if_false]
  exact if_pos hmore

end

/-- The check at the end of a CONFIG_IMAGE_WRITE of the image `b`. -/
def cfgEnd (s : State) (e : WorkEntry) (b : List Byte) : State :=
  let s := s.modToll (fun t => { t with cfgBusy := false })
  if cfgReason b (fwMajor s) = 0 ∧ e.arg 32 4 = leAt b 8 4 ∧ leAt b 5 1 = 2 then
    completeLong (s.modToll (fun t => { t with config := b, staging := t.config })) e St.ok
  else completeLong s e 0x81

theorem updEntry_toll (s : State) (e : WorkEntry) : (updEntry s e).toll = s.toll := by
  obtain ⟨cs, q, h⟩ := updEntry_eq s e
  rw [h]

theorem fwMajor_updEntry (s : State) (e : WorkEntry) : fwMajor (updEntry s e) = fwMajor s := by
  obtain ⟨cs, q, h⟩ := updEntry_eq s e
  rw [h]
  rfl

/-- The bytes of an image in staging, and its entry a step further. -/
def cfgStored (s : State) (e : WorkEntry) (bs : List Byte) : State :=
  updEntry (s.modToll (fun t => { t with staging := bs ++ t.staging.drop bs.length })) (longStepped s e)

theorem cfgWriteStep_of_only {s : State} {e : WorkEntry} {data : HostRd} {bs : List Byte}
    (hmay : longMay s e (e.arg 24 8) = true) (hdone : e.done = 0) (htotal : e.total = 1) (hlen : e.arg 32 4 ≤ 4096)
    (hread : operandRead s (e.arg 24 8) (e.arg 32 4) data = some bs) :
    cfgWriteStep s e data = cfgEnd (cfgStored s e bs) (longStepped s e)
      (bsub (bs ++ s.toll.staging.drop bs.length) 0 (e.arg 32 4)) := by
  have hstep : ¬ (longStepped s e).done < (longStepped s e).total := by
    rw [longStepped, hdone, htotal]
    exact Nat.lt_irrefl 1
  simp only [cfgWriteStep, cfgStored, hmay, hdone, Nat.zero_mul, Nat.add_zero, Nat.zero_add, Nat.sub_zero, min_eq_right hlen, hread,
    Bool.not_true, Bool.false_eq_true, if_false, hstep, updEntry_toll, List.take_zero, List.nil_append]
  rfl

/-! ### What a completion leaves of the Toll House -/

theorem compWrite_toll (s : State) (addr : Nat) (data : List Byte) : (compWrite s addr data).toll = s.toll := by
  unfold compWrite
  split <;> rfl

theorem crPut_toll (s : State) (r : Nat) (lo : List Byte) (flags : Nat) (hi : List Byte) : (crPut s r lo flags hi).toll = s.toll :=
  compWrite_toll ..

theorem crGapPut_toll (s : State) (r : Nat) : (crGapPut s r).toll = s.toll := by
  unfold crGapPut
  dsimp only
  split
  · split <;> simp [State.raise, State.clear, crPut_toll]
  · rfl

theorem crRecord_toll (s : State) (e : WorkEntry) (status : Nat) : (crRecord s e status).toll = s.toll := by
  unfold crRecord
  dsimp only
  split
  · rfl
  · split
    · split <;> simp [State.raise, State.bumpSat, crGapPut_toll]
    · split <;> simp [State.raise, crPut_toll, crGapPut_toll]

theorem dequeue_toll (s : State) (e : WorkEntry) : (dequeue s e).toll = s.toll := by
  unfold dequeue
  split <;> rfl

theorem complete_toll (s : State) (e : WorkEntry) (status : Nat) (result : List Byte) : (complete s e status result).toll = s.toll := by
  unfold complete
  dsimp only
  split
  · exact dequeue_toll s e
  · have hrecorded (t : State) (a : Nat) (b : List Byte) :
        (crRecord (compWrite (compWrite t (e.slot + 1) b) e.slot (leBytes 1 a)) e status).toll = t.toll := by
      rw [crRecord_toll, compWrite_toll, compWrite_toll]
    split
    · exact (hrecorded ..).trans (dequeue_toll s e)
    · exact (hrecorded ..).trans (dequeue_toll s e)

theorem dispatched_modToll (s : State) (f : TollHouse → TollHouse) : dispatched (s.modToll f) = dispatched s := rfl

/-- The image a CONFIG_IMAGE_WRITE puts in force is the one written, if it passes its check. -/
def cfgTaken (s : State) (e : WorkEntry) (b : List Byte) : List Byte :=
  if cfgReason b (fwMajor s) = 0 ∧ e.arg 32 4 = leAt b 8 4 ∧ leAt b 5 1 = 2 then b else s.toll.config

/-- The Toll House after the check, and the state that the entry's completion then leaves. -/
theorem cfgEnd_eq (s : State) (e : WorkEntry) (b : List Byte) : ∃ st stack, cfgEnd s e b =
    completeLong (s.modToll (fun t => { t with cfgBusy := false, config := cfgTaken s e b, staging := stack })) e st := by
  by_cases h : cfgReason b (fwMajor s) = 0 ∧ e.arg 32 4 = leAt b 8 4 ∧ leAt b 5 1 = 2
  · rw [cfgTaken, if_pos h]
    exact ⟨St.ok, s.toll.config, if_pos h⟩
  · rw [cfgTaken, if_neg h]
    exact ⟨0x81, s.toll.staging, if_neg h⟩

theorem cfgEnd_toll (s : State) (e : WorkEntry) (b : List Byte) :
    (cfgEnd s e b).toll.cfgBusy = false ∧ (cfgEnd s e b).toll.orderly = s.toll.orderly ∧ (cfgEnd s e b).toll.config = cfgTaken s e b := by
  obtain ⟨st, stack, h⟩ := cfgEnd_eq s e b
  rw [h, completeLong, complete_toll]
  exact ⟨rfl, rfl, rfl⟩

theorem cfgEnd_basinq {e : WorkEntry} (hchan : 56 ≤ e.chan) (s : State) (b : List Byte) :
    (cfgEnd s e b).basinq = s.basinq.filter (fun y => y.serial != e.serial) := by
  obtain ⟨st, stack, h⟩ := cfgEnd_eq s e b
  rw [h, completeLong, complete_basinq_of_basin hchan]
  rfl

theorem mem_dispatched_of_cfgEnd {s : State} {e x : WorkEntry} {b : List Byte} (h : x ∈ dispatched (cfgEnd s e b)) : x ∈ dispatched s := by
  obtain ⟨st, stack, heq⟩ := cfgEnd_eq s e b
  rw [heq] at h
  have hmem := mem_dispatched_of_completeLong h
  rwa [dispatched_modToll] at hmem

/-! ### The command of a long operation's step -/

theorem runningLong_serial {s : State} {serial : Nat} {e : WorkEntry} (h : runningLong s serial = some e) : e.serial = serial := by
  have hfound := List.find?_some h
  simp only [Bool.and_eq_true, beq_iff_eq] at hfound
  exact hfound.1.1

section
variable {s : State} {serial : Nat} {e : WorkEntry} {data : HostRd} (he : runningLong s serial = some e) (horder : s.toll.orderly = false)
  (hlast : ∀ x ∈ dispatched s, x.serial = serial → x.last = false)
include he hlast

theorem runningLong_last : e.last = false :=
  hlast e (List.mem_of_find?_eq_some he) (runningLong_serial he)

/-- No entry of the operation's number stands at its last step once the entry is replaced by its next step. -/
theorem not_last_of_updEntry {u : State} (hu : KeepsEntries s u) :
    ∀ x ∈ dispatched (updEntry u (longStepped s e)), x.serial = serial → x.last = false := by
  intro x hx hserial
  obtain hx | rfl := mem_dispatched_of_updEntry hx
  · exact hlast x (hu.dispatched ▸ hx) hserial
  · change e.last = false
    exact runningLong_last he hlast

include horder

theorem does_longOpStepDone_of_updEntry {u : State} (hu : KeepsEntries s u) (hstep : longStepOf s e data = updEntry u (longStepped s e)) :
    Does (.longOpStepDone serial data) s (updEntry u (longStepped s e)) :=
  does_longOpStepDone he hstep (not_last_of_updEntry he hlast hu) (by rw [updEntry_toll, hu.orderly, horder])

theorem does_longOpStepDone_of_error {u : State} {status : Nat} (hu : KeepsEntries s u) (hstep : longStepOf s e data = completeLong u e status) :
    Does (.longOpStepDone serial data) s (completeLong u e status) := by
  refine does_longOpStepDone he hstep (fun x hx hserial => hlast x ?_ hserial) ?_
  · exact hu.dispatched ▸ mem_dispatched_of_completeLong hx
  · rw [completeLong, complete_toll, hu.orderly, horder]

theorem does_firmwareStep (hop : e.opcode = opFirmwareStage) (hmay : longMay s e (e.arg 24 8) = true) :
    (operandRead s (e.arg 24 8 + e.done * 4096) (min 4096 (e.arg 32 4 - e.done * 4096)) data = none →
      Does (.longOpStepDone serial data) s (completeLong ((operandEcc s (e.arg 24 8 + e.done * 4096)
        (min 4096 (e.arg 32 4 - e.done * 4096))).modToll (fun t => { t with fwBusy := none })) e St.busError)) ∧
    (∀ bs, operandRead s (e.arg 24 8 + e.done * 4096) (min 4096 (e.arg 32 4 - e.done * 4096)) data = some bs → e.done + 1 < e.total →
      Does (.longOpStepDone serial data) s (updEntry (fwStore s bs) (longStepped s e))) := by
  refine ⟨fun hread => ?_, fun bs hread hmore => ?_⟩
  · exact does_longOpStepDone_of_error he horder hlast ((keepsEntries_operandEcc s _ _).trans ⟨rfl, rfl, rfl⟩)
      ((longStepOf_of_firmware hop).trans (fwStageStep_of_error hmay hread))
  · exact does_longOpStepDone_of_updEntry he horder hlast (keepsEntries_fwStore s bs)
      ((longStepOf_of_firmware hop).trans (fwStageStep_of_read hmay hread hmore))

theorem does_snapshotStep (hop : e.opcode = opSnapshot) (hmay : longMay s e (e.arg 40 8) = true) (hmore : e.done + 1 < e.total) :
    Does (.longOpStepDone serial data) s
      (updEntry (operandWrite s (e.arg 40 8 + e.done * 4096) (bsub e.data (e.done * 4096) 4096)) (longStepped s e)) :=
  does_longOpStepDone_of_updEntry he horder hlast (keepsEntries_operandWrite s _ _)
    ((longStepOf_of_snapshot hop).trans (snapshotStep_of_more hmay hmore))

theorem doesSome_configStep {bs b : List Byte} (hop : e.opcode = opConfigWrite) (hchan : e.chan = 0xFF) (hmay : longMay s e (e.arg 24 8) = true)
    (hdone : e.done = 0) (htotal : e.total = 1) (hlen : e.arg 32 4 ≤ 4096) (hread : operandRead s (e.arg 24 8) (e.arg 32 4) data = some bs)
    (hb : b = bsub (bs ++ s.toll.staging.drop bs.length) 0 (e.arg 32 4)) :
    DoesSome (.longOpStepDone serial data) s (fun u => u.toll.cfgBusy = false ∧ (∀ x ∈ u.basinq, x.serial ≠ serial) ∧
      u.toll.config = (if cfgReason b (fwMajor s) = 0 ∧ e.arg 32 4 = leAt b 8 4 ∧ leAt b 5 1 = 2 then b else s.toll.config)) := by
  have hkept : KeepsEntries s (s.modToll (fun t => { t with staging := bs ++ t.staging.drop bs.length })) := ⟨rfl, rfl, rfl⟩
  have hstep : longStepOf s e data = cfgEnd (cfgStored s e bs) (longStepped s e) b :=
    hb ▸ (longStepOf_of_config hop).trans (cfgWriteStep_of_only hmay hdone htotal hlen hread)
  obtain ⟨hbusy, horderly, hconfig⟩ := cfgEnd_toll (cfgStored s e bs) (longStepped s e) b
  refine ⟨_, does_longOpStepDone he hstep (fun x hx => not_last_of_updEntry he hlast hkept x (mem_dispatched_of_cfgEnd hx)) ?_, hbusy,
    fun x hx hserial => ?_, hconfig.trans ?_⟩
  · rw [horderly, cfgStored, updEntry_toll]
    exact horder
  · rw [cfgEnd_basinq (e := longStepped s e) (show 56 ≤ e.chan by omega)] at hx
    have hne := (List.mem_filter.mp hx).2
    simp [longStepped, runningLong_serial he, hserial] at hne
  · rw [cfgTaken, cfgStored, fwMajor_updEntry, updEntry_toll]
    rfl

end

/-! ### The obligation -/

/-- Settles O26, command by command. -/
theorem pollingAndDispatch : Obligations.PollingAndDispatch := by
  refine fun s n data serial => ⟨fun t a k hpolls hdue ha hk => ?poll, fun h => congrArg done (wqPoll_of_not_due h),
    fun p hp w hw => ⟨does_wqPollReturn_fail hp hw, fun b hb => ⟨doesThen_wqPollReturn hp hw hb, does_wqPollReturn_of_old_phase hp hw hb,
      doesSome_wqPollReturn_of_accepted hp hw hb⟩⟩,
    fun size i b rest r y hphase hform hr hr' hy hserving => ?malformed,
    fun b h => ⟨malformed_of_undefined h true, malformed_of_undefined h false⟩,
    fun w a k left e hserving hhost hw hpick hhead ws x hws hx => ?dispatch,
    fun h => congrArg done (entryDispatch_of_not_served h),
    fun e he hrun => ⟨fun hgone => ⟨congrArg done (fenceComplete_of_gone he hrun hgone), fun hsrc hchan hring hhost hheld => ?fence⟩,
      fun hwaits => congrArg done (fenceComplete_of_waiting he hwaits)⟩,
    fun he horder => congrArg done ((congrArg orderlyCheck (longStep_of_none he data)).trans (orderlyCheck_id horder)),
    fun e he horder hlast => ⟨does_firmwareStep he horder hlast, does_snapshotStep he horder hlast,
      fun bs b => doesSome_configStep he horder hlast⟩⟩
  case poll =>
    subst ha
    exact does_wqPoll hpolls hdue hk
  case malformed =>
    have hhalt := malfHalt_of_serving ((consPast_serving s n size i).trans hserving) n i b hr' hy
    rw [wqAccept_of_malformed hphase hform hr]
    exact hhalt
  case dispatch =>
    subst hw hws hx
    exact doesSome_entryDispatch hserving hhost hpick hhead
  case fence =>
    have hopcode := basinEntry_opcode he
    refine ⟨complete_basinq_of_basin (by omega) s _ _, ?_⟩
    have hresult : (leBytes 4 e.waited ++ zeros 8).take 8 = leBytes 4 e.waited ++ zeros 4 := rfl
    have hlong : opLong e.opcode = false := by
      rw [hopcode]
      rfl
    rw [complete_out hsrc (by omega) (by omega) hlong hhost hheld, hresult]
    simp only [List.append_assoc]

end Sys2Proof.Machine
end

section
/-!
PROOF. Entries in the queue of a channel that they do not name: ROUTE_SUSPEND (R111) and CHANNEL_DISABLE (R115).
-/
namespace Sys2Proof.Machine

/-- An entry of an opcode that names channel 0, not yet started. -/
def strayEntry (op : Nat) : WorkEntry :=
  { bytes := [0x80, BitVec.ofNat 8 op, 0], src := .queue, wq := 0, idx := 0, slot := 0, ring := 0xFF, serial := 11, stage := .queued, waits := [],
    waited := 0, total := 0, done := 0, stepped := false, data := [], last := false, idle := false }

/-- Channel 1 is ENABLED, its route in a state, and the entry that names channel 0 heads its queue. -/
def strayQueue (op rt : Nat) : State :=
  ((State.reset.put (Fld.CHAN_STATE_STATE 1) chEnabled).put (Fld.ROUTE_STATE_STATE 1) rt).modCh 1 (fun x => { x with cmdq := [strayEntry op] })

/-- The queue of channel 1 is not the one where a ROUTE_SUSPEND that names channel 0 is marked and from which it completes. -/
theorem routeSuspend_strayQueue :
    chanHead (routeSuspend (strayQueue opRouteSuspend rtRun) 1) 1 opRouteSuspend = some (strayEntry opRouteSuspend) := by
  decide +kernel

theorem chanDisable_strayQueue :
    chanHead (chanDisable (strayQueue opChanDisable rtIdle) 1) 1 opChanDisable = some (strayEntry opChanDisable) := by
  decide +kernel

/-- The head of a channel's queue is what the command leaves there: sampling the interrupt sources does not touch it. -/
theorem chanHead_of_settle_eq {s u : State} (h : settle s = settle u) (c : Fin 56) (op : Nat) : chanHead u c op = chanHead s c op := by
  have hch : u.ch c = s.ch c := by rw [← settle_ch u, ← h, settle_ch]
  unfold chanHead
  rw [hch]

/-- Refutes O27: its clause on a suspension between two orders has the entry leave the channel's queue, which an entry that names another
channel, at the head of that queue, does not. Dispatch puts an entry in the queue of the channel it names, so no run reaches such a
state. -/
theorem not_routeEntries : ¬ Obligations.RouteEntries := by
  unfold Obligations.RouteEntries
  intro h
  obtain ⟨-, -, hsuspend, -⟩ := h (strayQueue opRouteSuspend rtRun) 1 (strayEntry opRouteSuspend)
  have hheads : Heads (strayQueue opRouteSuspend rtRun) 1 opRouteSuspend (strayEntry opRouteSuspend) := ⟨by decide +kernel, rfl⟩
  obtain ⟨u, hu, -, -, -, hleft⟩ := (hsuspend hheads (by decide +kernel)).2 (.inl (by decide +kernel)) (by decide +kernel)
  have hsettle : settle (routeSuspend (strayQueue opRouteSuspend rtRun) 1) = settle u := by injection hu
  exact hleft ((chanHead_of_settle_eq hsettle 1 _).trans routeSuspend_strayQueue)

/-- Refutes O32: its clause on CHANNEL_DISABLE has the entry run in the channel's queue, while an entry that names another channel, at the
head of that queue, stays unstarted there. Dispatch puts an entry in the queue of the channel it names, so no run reaches such a
state. -/
theorem not_channelQueueEntries : ¬ Obligations.ChannelQueueEntries := by
  unfold Obligations.ChannelQueueEntries
  rintro ⟨h, -⟩
  obtain ⟨-, -, hdisable, -⟩ := h (strayQueue opChanDisable rtIdle) 1 (strayEntry opChanDisable) true
  have hheads : Heads (strayQueue opChanDisable rtIdle) 1 opChanDisable (strayEntry opChanDisable) := ⟨by decide +kernel, rfl⟩
  obtain ⟨u, hu, -, -, hrunning, -⟩ := (hdisable hheads).1 (by decide +kernel) (by decide +kernel)
  have hsettle : settle (chanDisable (strayQueue opChanDisable rtIdle) 1) = settle u := by injection hu
  have hqueued : chanHead u 1 opChanDisable = some (strayEntry opChanDisable) :=
    (chanHead_of_settle_eq hsettle 1 _).trans chanDisable_strayQueue
  exact absurd (hqueued.symm.trans hrunning) (by decide)

end Sys2Proof.Machine
end

section
/-!
PROOF. The order sequencer's parts of a channel under the state's own operations, and what a completion leaves of them (R59, R76, R77).
-/
namespace Sys2Proof.Machine

/-! ### Sequencer, FIFOs and bus engine of a channel -/

section
variable (s : State) (c : Fin 56)

@[simp] theorem State.put_sq (f : Fld) (v : Nat) : (s.put f v).sq c = s.sq c := rfl
@[simp] theorem State.emit_sq (e : OutEvent) : (s.emit e).sq c = s.sq c := rfl
@[simp] theorem State.dramWrite_sq (a : Nat) (bs : List Byte) : (s.dramWrite a bs).sq c = s.sq c := rfl

@[simp] theorem State.modFifos_sq (f : Fifos → Fifos) : (s.modFifos c f).sq c = s.sq c := by simp [State.modFifos, State.sq]
@[simp] theorem State.modBus_sq (f : Bus → Bus) : (s.modBus c f).sq c = s.sq c := by simp [State.modBus, State.sq]

@[simp] theorem State.modSq_fifos (f : Seq → Seq) : ((s.modSq c f).ch c).fifos = (s.ch c).fifos := by simp [State.modSq]
@[simp] theorem State.modBus_fifos (f : Bus → Bus) : ((s.modBus c f).ch c).fifos = (s.ch c).fifos := by simp [State.modBus]
@[simp] theorem State.modFifos_fifos (f : Fifos → Fifos) : ((s.modFifos c f).ch c).fifos = f (s.ch c).fifos := by simp [State.modFifos]

@[simp] theorem State.modBus_bus (f : Bus → Bus) : ((s.modBus c f).ch c).bus = f (s.ch c).bus := by simp [State.modBus]
@[simp] theorem State.modFifos_bus (f : Fifos → Fifos) : ((s.modFifos c f).ch c).bus = (s.ch c).bus := by simp [State.modFifos]
@[simp] theorem State.modSq_bus (f : Seq → Seq) : ((s.modSq c f).ch c).bus = (s.ch c).bus := by simp [State.modSq]

@[simp] theorem State.modSq_get (f : Seq → Seq) (g : Fld) : (s.modSq c f).get g = s.get g := rfl
@[simp] theorem State.modSq_isSet (f : Seq → Seq) (g : Fld) : (s.modSq c f).isSet g = s.isSet g := rfl
@[simp] theorem State.modFifos_get (f : Fifos → Fifos) (g : Fld) : (s.modFifos c f).get g = s.get g := rfl
@[simp] theorem State.modBus_get (f : Bus → Bus) (g : Fld) : (s.modBus c f).get g = s.get g := rfl

/-- Two updates of the sequencer that give it the same contents are one. -/
theorem State.modSq_congr {s : State} {c : Fin 56} {f g : Seq → Seq} (h : f (s.sq c) = g (s.sq c)) : s.modSq c f = s.modSq c g := by
  have hf : f (s.ch c).sq = g (s.ch c).sq := h
  simp only [State.modSq, State.modCh, hf]

theorem State.modSq_modSq (f g : Seq → Seq) : (s.modSq c f).modSq c g = s.modSq c (fun q => g (f q)) := by
  simp [State.modSq, State.modCh, State.ch]

end

/-! ### Bytes of device DRAM -/

theorem State.dramRead_length (s : State) (a n : Nat) : (s.dramRead a n).length = n := by simp [State.dramRead]

theorem State.dramRead_congr {s u : State} (h : u.dram = s.dram) (a n : Nat) : u.dramRead a n = s.dramRead a n := by
  simp only [State.dramRead, State.dramByte, h]

/-- Bytes written to device DRAM read back. -/
theorem State.dramRead_dramWrite (s : State) (a : Nat) (bs : List Byte) : (s.dramWrite a bs).dramRead a bs.length = bs := by
  refine List.ext_getElem (State.dramRead_length _ _ _) fun i hi hi' => ?_
  simp only [State.dramRead, List.getElem_map, List.getElem_range]
  exact State.dramByte_write_in s a bs i hi'

/-! ### A completion -/

/-- The fields of channel windows in `u` are those in `s` (R394). -/
def KeepsWindows (s u : State) : Prop := ∀ g : Fld, 0x1000000 * 64 ≤ fldKey g → u.get g = s.get g

theorem KeepsWindows.refl (s : State) : KeepsWindows s s := fun _ _ => rfl

theorem KeepsWindows.trans {s t u : State} (h : KeepsWindows s t) (k : KeepsWindows t u) : KeepsWindows s u :=
  fun g hg => (k g hg).trans (h g hg)

theorem KeepsWindows.put {s u : State} (h : KeepsWindows s u) {f : Fld} (hf : fldKey f < 0x1000000 * 64) (v : Nat) :
    KeepsWindows s (u.put f v) :=
  fun g hg => (State.get_put_ne u v (by omega)).trans (h g hg)

theorem KeepsWindows.ite {s t u : State} (p : Prop) [Decidable p] (ht : KeepsWindows s t) (hu : KeepsWindows s u) :
    KeepsWindows s (if p then t else u) := by
  split
  · exact ht
  · exact hu

theorem keepsWindows_compWrite (s : State) (addr : Nat) (data : List Byte) : KeepsWindows s (compWrite s addr data) :=
  .ite _ (.refl s) (.refl s)

theorem keepsWindows_dequeue (s : State) (e : WorkEntry) : KeepsWindows s (dequeue s e) := by
  unfold dequeue
  split
  · exact .refl s
  · exact .refl s

section
variable {r : Nat} (hr : r < 64)
include hr

/-- The registers of the completion rings lie below the channel windows. -/
theorem ringKey_lt : (∀ lo w rst, lo < 64 → fldKey ⟨Reg.CR_TAIL r, lo, w, rst⟩ < 0x1000000 * 64) ∧
    (∀ lo w rst, lo < 64 → fldKey ⟨Reg.CR_OVF r, lo, w, rst⟩ < 0x1000000 * 64) ∧
    (∀ lo w rst, lo < 64 → fldKey ⟨Reg.CR_EVT r, lo, w, rst⟩ < 0x1000000 * 64) := by
  simp only [fldKey, Reg.CR_TAIL, Reg.CR_OVF, Reg.CR_EVT]
  refine ⟨?_, ?_, ?_⟩
  · omega
  · omega
  · omega

theorem keepsWindows_crPut (s : State) (lo : List Byte) (flags : Nat) (hi : List Byte) : KeepsWindows s (crPut s r lo flags hi) :=
  (keepsWindows_compWrite _ _ _).put ((ringKey_lt hr).1 _ _ _ (by decide)) _

theorem keepsWindows_crGapPut (s : State) : KeepsWindows s (crGapPut s r) := by
  obtain ⟨htail, hovf, hevt⟩ := ringKey_lt hr
  refine .ite _ ?_ (.refl s)
  extract_lets n put cleared erased
  have hcleared : KeepsWindows s cleared :=
    ((keepsWindows_crPut hr _ _ _ _).put (hovf _ _ _ (by decide)) _).put (htail _ _ _ (by decide)) _
  have herased : KeepsWindows s erased := hcleared
  exact .ite _ herased (herased.put (hevt _ _ _ (by decide)) _)

end

theorem keepsWindows_crRecord (s : State) (e : WorkEntry) (status : Nat) : KeepsWindows s (crRecord s e status) := by
  unfold crRecord
  extract_lets r gap noted notify put mode
  by_cases hr : r < 64
  · obtain ⟨htail, hovf, hevt⟩ := ringKey_lt hr
    have hgap : KeepsWindows s gap := keepsWindows_crGapPut hr s
    have hnoted : KeepsWindows s noted := .ite _ hgap hgap
    have hput : KeepsWindows s put := hgap.trans (keepsWindows_crPut hr _ _ _ _)
    exact .ite _ (.refl s) (.ite _ (((hnoted.put (hovf _ _ _ (by decide)) _).put (hovf _ _ _ (by decide)) _).put (htail _ _ _ (by decide)) _)
      (.ite _ (hput.put (hevt _ _ _ (by decide)) _) hput))
  · rw [if_pos (.inl (Nat.not_lt.mp hr))]
    exact .refl s

/-- The completion of an entry that is no long operation leaves the channel windows' registers as they are. -/
theorem keepsWindows_complete {e : WorkEntry} (hlong : opLong e.opcode = false) (s : State) (status : Nat) (result : List Byte) :
    KeepsWindows s (complete s e status result) := by
  unfold complete
  extract_lets t own written owned recorded
  have ht : KeepsWindows s t := keepsWindows_dequeue s e
  have hrecorded : KeepsWindows s recorded :=
    ((ht.trans (keepsWindows_compWrite _ _ _)).trans (keepsWindows_compWrite _ _ _)).trans (keepsWindows_crRecord _ _ _)
  rw [hlong]
  exact .ite _ ht hrecorded

/-- Taking an entry from its queue leaves the rest of every channel as it is. -/
theorem dequeue_ch (s : State) (e : WorkEntry) (c : Fin 56) : ∃ q, (dequeue s e).ch c = { s.ch c with cmdq := q } := by
  unfold dequeue
  split
  case isTrue h =>
    by_cases hc : (⟨e.chan, h⟩ : Fin 56) = c
    · subst hc
      exact ⟨_, State.modCh_ch_same ..⟩
    · exact ⟨_, State.modCh_ch_ne _ _ hc⟩
  case isFalse => exact ⟨_, rfl⟩

theorem complete_ch (s : State) (e : WorkEntry) (status : Nat) (result : List Byte) (c : Fin 56) :
    ∃ q, (complete s e status result).ch c = { s.ch c with cmdq := q } := by
  obtain ⟨q, hq⟩ := dequeue_ch s e c
  refine ⟨q, ?_⟩
  rw [← hq, State.ch, State.ch, (keepsEntries_complete s e status result).chans]

end Sys2Proof.Machine
end

section
/-!
PROOF. What ends a route, makes an order due and completes one (R89, R93, R94, R101, R102, R107, R111).
-/
namespace Sys2Proof.Machine

/-! ### The register fields of a route

Their places in the ROUTE page of a channel's window (R394), by which they differ. -/

section
variable (c : Nat)

@[simp] theorem key_routeState : fldKey (Fld.ROUTE_STATE_STATE c) = chPage c 1 * 64 + 0x4200 := by
  simp only [fldKey, Fld.ROUTE_STATE_STATE, Reg.ROUTE_STATE, Nat.add_mul]

@[simp] theorem key_routeEndValid : fldKey (Fld.ROUTE_STATE_END_VALID c) = chPage c 1 * 64 + 0x4204 := by
  simp only [fldKey, Fld.ROUTE_STATE_END_VALID, Reg.ROUTE_STATE, Nat.add_mul, Nat.add_assoc]

@[simp] theorem key_routeEndStatus : fldKey (Fld.ROUTE_STATE_END_STATUS c) = chPage c 1 * 64 + 0x4208 := by
  simp only [fldKey, Fld.ROUTE_STATE_END_STATUS, Reg.ROUTE_STATE, Nat.add_mul, Nat.add_assoc]

@[simp] theorem key_routeOrder : fldKey (Fld.ROUTE_STATE_ORDER c) = chPage c 1 * 64 + 0x4210 := by
  simp only [fldKey, Fld.ROUTE_STATE_ORDER, Reg.ROUTE_STATE, Nat.add_mul, Nat.add_assoc]

@[simp] theorem key_routeResidual : fldKey (Fld.ROUTE_STATE_RESIDUAL c) = chPage c 1 * 64 + 0x4220 := by
  simp only [fldKey, Fld.ROUTE_STATE_RESIDUAL, Reg.ROUTE_STATE, Nat.add_mul, Nat.add_assoc]

@[simp] theorem key_routeNotify : fldKey (Fld.ROUTE_EVT_NOTIFY c) = chPage c 1 * 64 + 0x4800 := by
  simp only [fldKey, Fld.ROUTE_EVT_NOTIFY, Reg.ROUTE_EVT, Nat.add_mul]

@[simp] theorem key_routeEnd : fldKey (Fld.ROUTE_EVT_END c) = chPage c 1 * 64 + 0x4801 := by
  simp only [fldKey, Fld.ROUTE_EVT_END, Reg.ROUTE_EVT, Nat.add_mul, Nat.add_assoc]

@[simp] theorem key_routeSuspend : fldKey (Fld.ROUTE_EVT_SUSPEND c) = chPage c 1 * 64 + 0x4802 := by
  simp only [fldKey, Fld.ROUTE_EVT_SUSPEND, Reg.ROUTE_EVT, Nat.add_mul, Nat.add_assoc]

@[simp] theorem key_ordersDone : fldKey (Fld.SEQ_STATS_ORDERS_DONE c) = chPage c 1 * 64 + 0x5000 := by
  simp only [fldKey, Fld.SEQ_STATS_ORDERS_DONE, Reg.SEQ_STATS, Nat.add_mul]

@[simp] theorem width_routeState : (Fld.ROUTE_STATE_STATE c).w = 3 := rfl
@[simp] theorem width_routeEndValid : (Fld.ROUTE_STATE_END_VALID c).w = 1 := rfl
@[simp] theorem width_routeEndStatus : (Fld.ROUTE_STATE_END_STATUS c).w = 8 := rfl
@[simp] theorem width_routeOrder : (Fld.ROUTE_STATE_ORDER c).w = 10 := rfl
@[simp] theorem width_routeResidual : (Fld.ROUTE_STATE_RESIDUAL c).w = 16 := rfl
@[simp] theorem width_routeNotify : (Fld.ROUTE_EVT_NOTIFY c).w = 1 := rfl
@[simp] theorem width_routeEnd : (Fld.ROUTE_EVT_END c).w = 1 := rfl
@[simp] theorem width_routeSuspend : (Fld.ROUTE_EVT_SUSPEND c).w = 1 := rfl
@[simp] theorem width_ordersDone : (Fld.SEQ_STATS_ORDERS_DONE c).w = 32 := rfl

/-- The ROUTE page lies in the channel windows. -/
theorem window_le_page (p : Nat) : 0x1000000 * 64 ≤ chPage c p * 64 := by
  unfold chPage
  omega

end

/-! ### Entries that wait for the route -/

/-- Nothing of a channel but its command queue is in `u` other than in `s`, and the registers of the channel windows are as they were. -/
structure KeepsRoute (s u : State) (c : Fin 56) : Prop where
  sq : u.sq c = s.sq c
  fifos : (u.ch c).fifos = (s.ch c).fifos
  get : KeepsWindows s u

theorem KeepsRoute.refl (s : State) (c : Fin 56) : KeepsRoute s s c := ⟨rfl, rfl, .refl s⟩

theorem keepsRoute_complete {e : WorkEntry} (hlong : opLong e.opcode = false) (s : State) (c : Fin 56) (status : Nat) (result : List Byte) :
    KeepsRoute s (complete s e status result) c := by
  obtain ⟨q, hq⟩ := complete_ch s e status result c
  exact ⟨by simp only [State.sq, hq], by simp only [hq], keepsWindows_complete hlong s status result⟩

/-- An entry that the route's end or suspension completes leaves the route as it is. -/
theorem keepsRoute_routeWaiters (s : State) (c : Fin 56) : KeepsRoute s (routeWaiters s c) c := by
  unfold routeWaiters
  dsimp only
  split
  case h_2 => exact .refl s c
  case h_1 e _ _ =>
    split_ifs with hstage hhalt hsuspended hidle
    · exact .refl s c
    · exact keepsRoute_complete (by rw [hhalt.1]; rfl) s c _ _
    · exact keepsRoute_complete (by rw [hsuspended.1]; rfl) s c _ _
    · exact keepsRoute_complete (by rw [hidle.1]; rfl) s c _ _
    · exact .refl s c

theorem KeepsRoute.ended {s u : State} {c : Fin 56} {st idx res : Nat} (h : KeepsRoute s u c) (he : Ended s c st idx res) :
    Ended u c st idx res := by
  have hget (g : Fld) (k : Nat) (hg : fldKey g = chPage c 1 * 64 + k) : u.get g = s.get g :=
    h.get g (hg ▸ (window_le_page c 1).trans (Nat.le_add_right _ _))
  obtain ⟨hstate, hvalid, hstatus, hidx, hres, hevt, hexec⟩ := he
  refine ⟨?_, ?_, ?_, ?_, ?_, ?_, by rw [h.sq, hexec]⟩
  · exact (hget _ _ (key_routeState c)).trans hstate
  · rw [State.isSet, hget _ _ (key_routeEndValid c)]; exact hvalid
  · exact (hget _ _ (key_routeEndStatus c)).trans hstatus
  · exact (hget _ _ (key_routeOrder c)).trans hidx
  · exact (hget _ _ (key_routeResidual c)).trans hres
  · rw [State.isSet, hget _ _ (key_routeEnd c)]; exact hevt

/-! ### The end and the suspension of a route -/

theorem ended_routeEnds (s : State) (c : Fin 56) {st idx res : Nat} (hst : st < 256) (hidx : idx < 1024) (hres : res < 65536) :
    Ended (routeEnds s c st idx res) c st idx res := by
  have hget (g : Fld) : (routeEnds s c st idx res).get g = (((((((s.put (Fld.ROUTE_STATE_STATE c) rtIdle).raise
      (Fld.ROUTE_STATE_END_VALID c)).put (Fld.ROUTE_STATE_END_STATUS c) st).put (Fld.ROUTE_STATE_ORDER c) idx).put
      (Fld.ROUTE_STATE_RESIDUAL c) res).raise (Fld.ROUTE_EVT_END c)).get g) := rfl
  have hexec : ((routeEnds s c st idx res).sq c).exec = none := by simp [routeEnds, seqIdle]
  refine ⟨?_, ?_, ?_, ?_, ?_, ?_, hexec⟩
  · simp [rtState, hget, State.raise_eq, State.get_put_ne, rtIdle]
  · simp [State.isSet, hget, State.raise_eq, State.get_put_ne]
  · simpa [hget, State.raise_eq, State.get_put_ne] using hst
  · simpa [hget, State.raise_eq, State.get_put_ne] using hidx
  · simpa [hget, State.raise_eq, State.get_put_ne] using hres
  · simp [State.isSet, hget, State.raise_eq]

/-- The end of a route leaves its status, its last order and the residual (R101, R107). -/
theorem ended_routeEnd (s : State) (c : Fin 56) {st idx res : Nat} (hst : st < 256) (hidx : idx < 1024) (hres : res < 65536) :
    Ended (routeEnd s c st idx res) c st idx res :=
  (keepsRoute_routeWaiters _ c).ended (ended_routeEnds s c hst hidx hres)

/-- The route as it suspends at order `n`, before the entry that waited for it completes. -/
def routeHeld (s : State) (c : Fin 56) (n res : Nat) : State :=
  ((((rtSet s c rtSuspended).put (Fld.ROUTE_STATE_ORDER c) n).put (Fld.ROUTE_STATE_RESIDUAL c) res).raise (Fld.ROUTE_EVT_SUSPEND c)).modSq c
    (fun q => { seqIdle q with pc := n })

theorem routeSuspended_eq (s : State) (c : Fin 56) (n res : Nat) : routeSuspended s c n res = routeWaiters (routeHeld s c n res) c := rfl

/-- A route that suspends keeps the order it is to go on with (R111). -/
theorem suspended_routeSuspended (s : State) (c : Fin 56) {n : Nat} (hn : n < 1024) (res : Nat) :
    rtState (routeSuspended s c n res) c = rtSuspended ∧ (routeSuspended s c n res).get (Fld.ROUTE_STATE_ORDER c) = n ∧
      (routeSuspended s c n res).isSet (Fld.ROUTE_EVT_SUSPEND c) = true ∧ ((routeSuspended s c n res).sq c).exec = none := by
  have hkeeps := keepsRoute_routeWaiters (routeHeld s c n res) c
  have hget (g : Fld) (k : Nat) (hg : fldKey g = chPage c 1 * 64 + k) :
      (routeWaiters (routeHeld s c n res) c).get g = (routeHeld s c n res).get g :=
    hkeeps.get g (hg ▸ (window_le_page c 1).trans (Nat.le_add_right _ _))
  rw [routeSuspended_eq]
  refine ⟨?_, ?_, ?_, ?_⟩
  · rw [rtState, hget _ _ (key_routeState c)]
    simp [routeHeld, rtSet, State.raise_eq, State.get_put_ne, rtSuspended]
  · rw [hget _ _ (key_routeOrder c)]
    simpa [routeHeld, State.raise_eq, State.get_put_ne] using hn
  · rw [State.isSet, hget _ _ (key_routeSuspend c)]
    simp [routeHeld, State.raise_eq]
  · rw [hkeeps.sq]
    simp [routeHeld, seqIdle]

/-! ### What follows an order (R93, R101) -/

section
variable {q : Seq} {e : ExecOrder} {st : Nat}

/-- An order that none follows ends the route. -/
theorem afterOrder_of_last (h : e.next = none) : afterOrder q e st = .ends := by
  unfold afterOrder
  rw [h]
  split <;> rfl

/-- REJECTED_STATE ends the route, whatever follows. -/
theorem afterOrder_of_rejectedState : afterOrder q e St.rejectedState = .ends := by
  unfold afterOrder
  split
  · rfl
  · split
    · rfl
    · rfl

/-- A route that goes on does so with OK or OK_RESIDUAL. -/
theorem afterOrder_of_continues {n : Nat} (hstop : q.stop = none) (hnext : e.next = some n) (hst : st ≤ 1) : afterOrder q e st = .goes n := by
  simp [afterOrder, hstop, hnext, stContinues, hst]

end

/-! ### The close of an order (R101, R102) -/

/-- The order in execution closes: it posts with POST_STATE `post` where it posts, notifies where it notifies, is counted and charged. -/
def orderClosed (s : State) (c : Fin 56) (e : ExecOrder) (post st res : Nat) : State :=
  let s := if e.order.ps then postOrder s c e.idx post st res else s
  let s := if e.order.nt then s.raise (Fld.ROUTE_EVT_NOTIFY c) else s
  let s := seqCharge (s.bumpWrap (Fld.SEQ_STATS_ORDERS_DONE c) 1) c (flagCost e.order)
  s.modSq c (fun q => { q with prev := (st, res), exec := none })

/-- Nothing keeps the order from its post. -/
def MayPost (s : State) (c : Fin 56) (e : ExecOrder) : Prop := e.order.ps = true → postOk s c = true

section
variable {s : State} {c : Fin 56} {e : ExecOrder} {st res : Nat} (hexec : (s.sq c).exec = some e) (hresult : e.result = some (st, res))
  (hpost : MayPost s c e)
include hexec hresult hpost

theorem orderFinish_of_ends (hafter : afterOrder (s.sq c) e st = .ends) :
    orderFinish s c false = routeEnd (orderClosed s c e 3 st res) c st e.idx res := by
  have hmay : (e.order.ps && !postOk s c) = false := by
    cases hps : e.order.ps
    · rfl
    · simp [hpost hps]
  simp [orderFinish, hexec, hresult, hafter, hmay, orderAfter, orderClosed]

theorem orderFinish_of_goes {n : Nat} (hafter : afterOrder (s.sq c) e st = .goes n) :
    orderFinish s c false =
      if e.order.su || (s.sq c).suspend then routeSuspended (orderClosed s c e 5 st res) c n res
      else becomeDue (orderClosed s c e 1 st res) c n := by
  have hmay : (e.order.ps && !postOk s c) = false := by
    cases hps : e.order.ps
    · rfl
    · simp [hpost hps]
  cases hsusp : (e.order.su || (s.sq c).suspend) <;>
    simp [orderFinish, hexec, hresult, hafter, hmay, hsusp, orderAfter, orderClosed]

end

theorem postOrder_sq (s : State) (c : Fin 56) (idx state status residual : Nat) :
    (postOrder s c idx state status residual).sq c = s.sq c := by
  unfold postOrder
  extract_lets runs b a
  split <;> rfl

theorem postOrder_fifos (s : State) (c : Fin 56) (idx state status residual : Nat) :
    ((postOrder s c idx state status residual).ch c).fifos = (s.ch c).fifos := by
  unfold postOrder
  extract_lets runs b a
  split <;> rfl

theorem postOrder_get (s : State) (c : Fin 56) (idx state status residual : Nat) (g : Fld) :
    (postOrder s c idx state status residual).get g = s.get g := by
  unfold postOrder
  extract_lets runs b a
  split <;> rfl

section
variable (s : State) (c : Fin 56) (e : ExecOrder) (post st res : Nat)

theorem orderClosed_sq : (orderClosed s c e post st res).sq c =
    { s.sq c with used := (s.sq c).used + flagCost e.order, prev := (st, res), exec := none } := by
  unfold orderClosed
  split_ifs <;> simp [seqCharge, State.bumpWrap, State.raise_eq, postOrder_sq]

theorem orderClosed_fifos : ((orderClosed s c e post st res).ch c).fifos = (s.ch c).fifos := by
  unfold orderClosed
  split_ifs <;> simp [seqCharge, State.bumpWrap, State.raise_eq, postOrder_fifos]

theorem orderClosed_dram : (orderClosed s c e post st res).dram = if e.order.ps then (postOrder s c e.idx post st res).dram else s.dram := by
  unfold orderClosed
  split_ifs <;> rfl

theorem orderClosed_rtState : rtState (orderClosed s c e post st res) c = rtState s c := by
  unfold orderClosed rtState
  split_ifs <;> simp [seqCharge, State.bumpWrap, State.raise_eq, postOrder_get, State.get_put_ne]

/-- ORDERS_DONE counts the order (R101). -/
theorem orderClosed_ordersDone : (orderClosed s c e post st res).get (Fld.SEQ_STATS_ORDERS_DONE c) =
    (s.get (Fld.SEQ_STATS_ORDERS_DONE c) + 1) % 2 ^ 32 := by
  unfold orderClosed
  split_ifs <;> simp [seqCharge, State.bumpWrap, State.raise_eq, postOrder_get, State.get_put_ne]

/-- NOTIFY is set by an order with NT. -/
theorem orderClosed_notify (hnt : e.order.nt = true) : (orderClosed s c e post st res).isSet (Fld.ROUTE_EVT_NOTIFY c) = true := by
  simp [orderClosed, hnt, seqCharge, State.bumpWrap, State.isSet, State.raise_eq, State.get_put_ne]

end

/-- An order whose fetch is under way becomes due, and nothing else begins. -/
theorem becomeDue_of_wait {s : State} {c : Fin 56} {i n : Nat} (h : (s.sq c).fetch = .wait n) :
    becomeDue s c i =
      (s.put (Fld.ROUTE_STATE_ORDER c) i).modSq c (fun q => { q with pc := i, due := true, atEdge := false, exec := none }) := by
  simp [becomeDue, h]

/-- The route goes on with the order whose fetch is under way (R93, R94). -/
theorem goesOn_becomeDue {s : State} {c : Fin 56} {n st res : Nat} (hfetch : (s.sq c).fetch = .wait n) (hprev : (s.sq c).prev = (st, res))
    (hrun : rtState s c = rtRun) : GoesOn (becomeDue s c n) c n st res := by
  rw [becomeDue_of_wait hfetch]
  refine ⟨?_, ?_, ?_, ?_, ?_, ?_, ?_⟩
  · simp
  · simp
  · simp
  · simpa using hfetch
  · simpa using hprev
  · simp
  · rw [← hrun]
    simp [rtState, State.get_put_ne]

/-! ### The completion of an order (R101) -/

section
variable {s : State} {c : Fin 56} {e : ExecOrder} {st res : Nat} (hexec : (s.sq c).exec = some e) (hresult : e.result = some (st, res))
  (hpost : MayPost s c e)
include hexec hresult hpost

theorem ended_orderFinish (hafter : afterOrder (s.sq c) e st = .ends) (hst : st < 256) (hidx : e.idx < 1024) (hres : res < 65536) :
    Ended (orderFinish s c false) c st e.idx res := by
  rw [orderFinish_of_ends hexec hresult hpost hafter]
  exact ended_routeEnd _ c hst hidx hres

/-- An order whose successor is being fetched, on a route that nothing suspends or stops, makes it due. -/
theorem orderFinish_of_next {n : Nat} (hstop : (s.sq c).stop = none) (hsuspend : (s.sq c).suspend = false) (hsu : e.order.su = false)
    (hnext : e.next = some n) (hst : st ≤ 1) : orderFinish s c false = becomeDue (orderClosed s c e 1 st res) c n := by
  rw [orderFinish_of_goes hexec hresult hpost (afterOrder_of_continues hstop hnext hst), hsu, hsuspend]
  rfl

theorem goesOn_orderFinish {n : Nat} (hstop : (s.sq c).stop = none) (hsuspend : (s.sq c).suspend = false) (hsu : e.order.su = false)
    (hnext : e.next = some n) (hst : st ≤ 1) (hfetch : (s.sq c).fetch = .wait n) (hrun : rtState s c = rtRun) :
    GoesOn (orderFinish s c false) c n st res := by
  rw [orderFinish_of_next hexec hresult hpost hstop hsuspend hsu hnext hst]
  refine goesOn_becomeDue ?_ ?_ ?_
  · rw [orderClosed_sq, hfetch]
  · rw [orderClosed_sq]
  · rw [orderClosed_rtState, hrun]

end

/-! ### A result becomes known -/

/-- The order `e` executes, and its status and residual have become known. -/
def orderKnown (s : State) (c : Fin 56) (e : ExecOrder) (st res : Nat) : State :=
  s.modSq c (fun q => { q with exec := some { e with result := some (st, min 0xFFFF res) } })

theorem orderKnown_sq (s : State) (c : Fin 56) (e : ExecOrder) (st res : Nat) :
    (orderKnown s c e st res).sq c = { s.sq c with exec := some { e with result := some (st, min 0xFFFF res) } } :=
  State.modSq_sq_same ..

/-- The end of an order that neither posts nor is followed. -/
theorem ended_orderFinish_orderKnown {s : State} {c : Fin 56} {e : ExecOrder} {st res : Nat} (hps : e.order.ps = false)
    (hafter : afterOrder (s.sq c) e st = .ends) (hst : st < 256) (hidx : e.idx < 1024) :
    Ended (orderFinish (orderKnown s c e st res) c false) c st e.idx (min 0xFFFF res) := by
  have hq := orderKnown_sq s c e st res
  refine ended_orderFinish (e := { e with result := some (st, min 0xFFFF res) }) (by rw [hq]) rfl (fun h => ?_) ?_ hst hidx (by omega)
  · exact absurd (hps.symm.trans h) (by decide)
  · rw [hq]
    exact hafter

section
variable {s : State} {c : Fin 56} {e : ExecOrder} (hexec : (s.sq c).exec = some e) (hnone : e.result = none)
include hexec hnone

theorem orderGives_of_exec (st res : Nat) : orderGives s c st res = orderKnown s c e st res := by
  simp only [orderGives, hexec, State.orderResult]
  exact State.modSq_congr (by simp [hexec, hnone])

theorem orderNow_of_exec (st res : Nat) :
    orderNow s c st res = orderFinish (orderKnown s c { e with loaded := true } st res) c false := by
  have hloaded : ((execLoaded s c).sq c).exec = some { e with loaded := true } := by simp [execLoaded, hexec]
  rw [orderNow, orderGives_of_exec hloaded hnone, orderKnown, execLoaded, State.modSq_modSq]
  rfl

/-- An order that ends its route in the step that runs it. -/
theorem ended_orderNow {st res : Nat} (hps : e.order.ps = false) (hafter : afterOrder (s.sq c) e st = .ends) (hst : st < 256)
    (hidx : e.idx < 1024) : Ended (orderNow s c st res) c st e.idx (min 0xFFFF res) := by
  rw [orderNow_of_exec hexec hnone]
  exact ended_orderFinish_orderKnown (e := { e with loaded := true }) hps hafter hst hidx

end

end Sys2Proof.Machine
end

section
/-!
PROOF. How an order starts (R89, R94), and the statement on the ends of orders (R93, R97, R101, R102, R111).
-/
namespace Sys2Proof.Machine

/-! ### The start of an order -/

section
variable (s : State) (c : Fin 56) (i : Nat) (o : Order)

theorem startOrder_stop : ((startOrder s c i o).sq c).stop = (s.sq c).stop := by simp [startOrder, seqCharge, rtSet]

theorem startOrder_suspend : ((startOrder s c i o).sq c).suspend = (s.sq c).suspend := by simp [startOrder, seqCharge, rtSet]

/-- The order after it is fetched at once, unless SU suspends the route before it. -/
theorem startOrder_fetch {n : Nat} (hsu : o.su = false) (hnext : nextStatic i (s.sq c).chainBuf.length o = some n) :
    ((startOrder s c i o).sq c).fetch = .wait n := by
  simp [startOrder, seqCharge, rtSet, hsu, hnext]

variable {o} (hop : o.op ≠ oWait)
include hop

theorem startOrder_exec : ((startOrder s c i o).sq c).exec = some (Started s c i o) := by
  simp [startOrder, seqCharge, rtSet, hop, Started]

theorem startOrder_rtState : rtState (startOrder s c i o) c = rtRun := by
  simp [startOrder, seqCharge, rtSet, rtState, hop, rtRun]

/-- The order that is due and fetched starts and runs its body. -/
theorem orderRun_of_dueAt {sel : Order → Bool} (h : DueAt s c i o) (hsel : sel o = true) (f : State → ExecOrder → State) :
    orderRun s c sel f = f (startOrder s c i o) (Started s c i o) := by
  obtain ⟨hfrozen, hexec, hfetch, hdue, hedge, hfirst, -⟩ := h
  simp [orderRun, hfrozen, hexec, hfetch, hdue, hedge, hfirst, hsel, startOrder_exec s c i hop]

end

theorem Order.target_lt (o : Order) : o.target < 1024 := bf_lt ..

theorem Order.count_lt (o : Order) : o.count < 65536 := bf_lt ..

/-! ### JUMP with SU (R97, R111) -/

/-- A JUMP with SU suspends the route before its target. -/
theorem ordJump_of_dueAt {s : State} {c : Fin 56} {i : Nat} {o : Order} (h : DueAt s c i o) (hop : o.op = oJump) (hsu : o.su = true)
    (hps : o.ps = false) : ∃ t, ordJump s c = routeSuspended t c o.target 0 := by
  have hwait : o.op ≠ oWait := by rw [hop]; decide
  have hexec := startOrder_exec s c i hwait
  obtain ⟨-, -, -, -, -, -, hstop, -⟩ := id h
  have hnext : (Started s c i o).next = some o.target := by simp [Started, nextStatic, hop]
  have hq := orderKnown_sq (startOrder s c i o) c { Started s c i o with loaded := true } St.ok 0
  have hafter := afterOrder_of_continues (q := (startOrder s c i o).sq c) (st := St.ok) ((startOrder_stop ..).trans hstop) hnext (by decide)
  rw [ordJump, orderRun_of_dueAt s c i hwait h (by simp [hop]), orderNow_of_exec hexec rfl,
    orderFinish_of_goes (e := { Started s c i o with loaded := true, result := some (St.ok, 0) }) (by rw [hq]; rfl) rfl
      (fun hp => absurd (hps.symm.trans hp) (by decide)) (by rw [hq]; exact hafter)]
  exact ⟨_, if_pos (by simp [Started, hsu])⟩

/-! ### The release of the engine (R100) -/

/-- `u` differs from `s` in what is sent alone, and has sent `sent` since. -/
def Sends (s u : State) (sent : List OutEvent) : Prop := u = { s with out := s.out ++ sent }

theorem Sends.refl (s : State) : Sends s s [] := by simp [Sends]

theorem Sends.emit (s : State) (e : OutEvent) : Sends s (s.emit e) [e] := rfl

theorem Sends.trans {s t u : State} {a b : List OutEvent} (h : Sends s t a) (k : Sends t u b) : Sends s u (a ++ b) := by
  rw [Sends, k, h]
  simp

theorem Sends.out {s u : State} {sent : List OutEvent} (h : Sends s u sent) : u.out = s.out ++ sent := by rw [h]

theorem Sends.sq {s u : State} {sent : List OutEvent} (h : Sends s u sent) (c : Fin 56) : u.sq c = s.sq c := by rw [h]; rfl

theorem Sends.fifos {s u : State} {sent : List OutEvent} (h : Sends s u sent) (c : Fin 56) : (u.ch c).fifos = (s.ch c).fifos := by rw [h]; rfl

theorem Sends.get {s u : State} {sent : List OutEvent} (h : Sends s u sent) (g : Fld) : u.get g = s.get g := by rw [h]; rfl

theorem sends_drivePins (s : State) (c : Fin 56) : ∃ sent, Sends s (drivePins s c) sent := by
  unfold drivePins
  split
  · exact ⟨_, (((Sends.emit s _).trans (.emit _ _)).trans (.emit _ _)).trans (.emit _ _)⟩
  · exact ⟨_, .refl s⟩

/-- The chip selects are driven in SPI mode alone. -/
theorem sends_driveSelects (s : State) (c : Fin 56) : ∃ sent, Sends s (driveSelects s c) sent ∧ (modeOf s c ≠ modeSpi → sent = []) := by
  unfold driveSelects
  split
  case isTrue hspi =>
    have hpin : Sends s (drivePin s c 3) [_] := .emit s _
    unfold driveLender
    split
    · obtain ⟨sent, hsent⟩ := sends_drivePins (drivePin s c 3) ⟨c.val + 1, by omega⟩
      exact ⟨_, hpin.trans hsent, fun h => absurd hspi h⟩
    · exact ⟨_, hpin, fun h => absurd hspi h⟩
  case isFalse => exact ⟨[], .refl s, fun _ => rfl⟩

/-- An update of the threads of a channel leaves the rest of it as it is. -/
theorem foldl_modTh_ch (f : Fin 8 → Thread → Thread) (c : Fin 56) (l : List (Fin 8)) (s : State) :
    ∃ ts, (l.foldl (fun s t => s.modTh c t (f t)) s).ch c = { s.ch c with threads := ts } := by
  induction l generalizing s with
  | nil => exact ⟨_, rfl⟩
  | cons t l ih =>
    obtain ⟨ts, hts⟩ := ih (s.modTh c t (f t))
    exact ⟨ts, by rw [List.foldl_cons, hts, State.modTh_eq, State.modCh_ch_same]⟩

theorem mailDead_ch (s : State) (c : Fin 56) : ∃ ts, (mailDead s c).ch c = { s.ch c with threads := ts } := foldl_modTh_ch _ c _ s

theorem busLater_of_none {s : State} {c : Fin 56} (h : (s.ch c).bus.later = []) :
    busLater s c = s.modBus c (fun b => { b with later := [] }) := by
  simp [busLater, h]

/-- With no configuration write that waits, the release of the engine leaves the sequencer as it is, but that its order has handed nothing
over. -/
theorem engineRelease_sq {s : State} {c : Fin 56} (h : (s.ch c).bus.later = []) :
    (engineRelease s c).sq c = { s.sq c with exec := (s.sq c).exec.map (fun e => { e with loaded := false }) } := by
  unfold engineRelease
  extract_lets dropped disowned unloaded
  obtain ⟨ts, hts⟩ := mailDead_ch unloaded c
  have hlater : ((mailDead unloaded c).ch c).bus.later = [] := by
    rw [hts]
    simp [unloaded, disowned, dropped, h]
  obtain ⟨sent, hsent, -⟩ := sends_driveSelects (busLater (mailDead unloaded c) c) c
  rw [hsent.sq, busLater_of_none hlater, State.modBus_sq, State.sq, hts]
  change unloaded.sq c = _
  simp only [unloaded, disowned, dropped, State.modSq_sq_same, State.modFifos_sq, State.modBus_sq]
  rfl

/-! ### ORDER_TIMEOUT (R100) -/

/-- A RECEIVE that times out ends with what it has not received. -/
theorem ended_orderTimesOut {s : State} {c : Fin 56} {e : ExecOrder} (hexec : (s.sq c).exec = some e) (hnone : e.result = none)
    (hop : e.order.op = oReceive) (hpos : 0 < orderTimeout e.order) (hpast : orderTimeout e.order ≤ e.edges) (hps : e.order.ps = false)
    (hnext : e.next = none) (hidx : e.idx < 1024) (hlater : (s.ch c).bus.later = []) (left : Nat) :
    Ended (orderTimesOut s c left) c St.timeout e.idx (min 0xFFFF (areaTotal e - e.count)) := by
  have hresidual : timeoutResidual s c e left = (areaTotal e - e.count, s) := by
    simp [timeoutResidual, residualOf, hop, oReceive, oExchange, oTransmit, oWait, oSense]
  have hreleased : ((engineRelease s c).sq c).exec = some { e with loaded := false } := by rw [engineRelease_sq hlater, hexec]; rfl
  have hgives : orderTimesOut s c left =
      orderFinish (orderKnown (engineRelease s c) c { e with loaded := false } St.timeout (areaTotal e - e.count)) c false := by
    rw [← orderGives_of_exec hreleased hnone]
    simp [orderTimesOut, hexec, hnone, hresidual, hpast, Nat.pos_iff_ne_zero.mp hpos]
  rw [hgives]
  exact ended_orderFinish_orderKnown (e := { e with loaded := false }) hps (afterOrder_of_last hnext) (by decide) hidx

/-! ### ORDER_DONE with PS (R102) -/

section
variable {s : State} {c : Fin 56} {e : ExecOrder} {st res : Nat} (hhost : routeHost s c = false) (hps : e.order.ps = true)
include hhost

theorem mayPost_of_dram : MayPost s c e := fun _ => by simp [postOk, hhost]

include hps

/-- What an order posts in its word 3. -/
theorem orderClosed_post (post : Nat) : (orderClosed s c e post st res).dramRead (orderAt s c e.idx + 24) 8 =
    leBytes 1 (post + 16 * (SMap.get 0 (s.sq c).runs e.idx % 16)) ++ leBytes 1 st ++ leBytes 2 res ++ leBytes 4 s.tick := by
  have hdram : (orderClosed s c e post st res).dram = (s.dramWrite (orderAt s c e.idx + 24)
      (leBytes 1 (post + 16 * (SMap.get 0 (s.sq c).runs e.idx % 16)) ++ leBytes 1 st ++ leBytes 2 res ++ leBytes 4 s.tick)).dram := by
    rw [orderClosed_dram, if_pos hps]
    simp only [postOrder, hhost, Bool.false_eq_true, if_false]
  rw [State.dramRead_congr hdram]
  exact State.dramRead_dramWrite s _ _

end

/-- Settles O31: the order closes with its post and its count, and the route goes on, ends or suspends after it. -/
theorem orderEnds : Obligations.OrderEnds := by
  intro s c e st res i o left
  refine ⟨fun hfrozen hexec hresult hstop hsuspend hsu hps hhost hidx hst hres => ⟨fun n hnext hcont hfetch hrun => ?next, fun hnext => ?last⟩,
    fun hexec hnone hop hpos hpast hps hnext hidx hlater =>
      ⟨_, rfl, ended_orderTimesOut hexec hnone hop hpos hpast hps hnext hidx hlater left.toNat⟩,
    fun hdue hop hsu hps _ => ?jump⟩
  case next =>
    have hdone : orderDone s c = becomeDue (orderClosed s c e 1 st res) c n := by
      rw [orderDone, hfrozen]
      exact orderFinish_of_next hexec hresult (mayPost_of_dram hhost) hstop hsuspend hsu hnext hcont
    have hwait : ((orderClosed s c e 1 st res).sq c).fetch = .wait n := by rw [orderClosed_sq, hfetch]
    refine ⟨becomeDue (orderClosed s c e 1 st res) c n, congrArg done hdone, goesOn_becomeDue hwait (by rw [orderClosed_sq]) ?_, ?_, ?_,
      fun hnt => ?_⟩
    · rw [orderClosed_rtState, hrun]
    · rw [State.dramRead_congr (becomeDue_dram ..)]
      exact orderClosed_post hhost hps 1
    · rw [becomeDue_of_wait hwait, State.modSq_get, State.get_put_ne _ _ (by simp), orderClosed_ordersDone]
    · rw [becomeDue_of_wait hwait, State.modSq_isSet, State.isSet_put_ne _ _ (by simp), orderClosed_notify _ _ _ _ _ _ hnt]
  case last =>
    have hdone : orderDone s c = routeEnd (orderClosed s c e 3 st res) c st e.idx res := by
      rw [orderDone, hfrozen]
      exact orderFinish_of_ends hexec hresult (mayPost_of_dram hhost) (afterOrder_of_last hnext)
    refine ⟨routeEnd (orderClosed s c e 3 st res) c st e.idx res, congrArg done hdone, ended_routeEnd _ c hst hidx hres, ?_⟩
    rw [State.dramRead_congr (routeEnd_dram ..)]
    exact orderClosed_post hhost hps 3
  case jump =>
    obtain ⟨t, ht⟩ := ordJump_of_dueAt hdue hop hsu hps
    exact ⟨routeSuspended t c o.target 0, congrArg done ht, suspended_routeSuspended t c o.target_lt 0⟩

end Sys2Proof.Machine
end

section
/-!
PROOF. The statement on RECEIVE, TRANSMIT and EXCHANGE (R96, R100, R189).
-/
namespace Sys2Proof.Machine

/-! ### FIFOs and device DRAM under the end of an order -/

section
variable (s : State) (c : Fin 56)

@[simp] theorem routeWaiters_fifos : ((routeWaiters s c).ch c).fifos = (s.ch c).fifos := (keepsRoute_routeWaiters s c).fifos

@[simp] theorem routeEnd_fifos (status idx residual : Nat) : ((routeEnd s c status idx residual).ch c).fifos = (s.ch c).fifos := by
  rw [routeEnd, routeWaiters_fifos]
  simp [routeEnds, State.raise_eq, rtSet]

@[simp] theorem routeSuspended_fifos (idx residual : Nat) : ((routeSuspended s c idx residual).ch c).fifos = (s.ch c).fifos := by
  rw [routeSuspended_eq, routeWaiters_fifos]
  simp [routeHeld, State.raise_eq, rtSet]

@[simp] theorem fetchStart_fifos (i : Nat) : ((fetchStart s c i).ch c).fifos = (s.ch c).fifos := State.modSq_fifos ..

@[simp] theorem dueReady_fifos (o : Order) : ((dueReady s c o).ch c).fifos = (s.ch c).fifos := by
  unfold dueReady
  split
  · rw [rtSet, State.put_ch, State.modSq_fifos]
  · rfl

@[simp] theorem becomeDue_fifos (i : Nat) : ((becomeDue s c i).ch c).fifos = (s.ch c).fifos := by
  unfold becomeDue
  extract_lets due
  have hdue : (due.ch c).fifos = (s.ch c).fifos := State.modSq_fifos ..
  split
  · split
    · rw [dueReady_fifos, hdue]
    · rw [fetchStart_fifos, hdue]
  · rw [routeEnd_fifos, hdue]
  · rw [hdue]
  · rw [fetchStart_fifos, hdue]

@[simp] theorem orderAfter_fifos (idx st res : Nat) (a : After) (susp : Bool) :
    ((orderAfter s c idx st res a susp).ch c).fifos = (s.ch c).fifos := by
  unfold orderAfter
  split
  · split <;> simp
  · simp

end

/-- What ends or follows an order without PS leaves the FIFOs and device DRAM as they are. -/
theorem orderFinish_buffers {s : State} {c : Fin 56} {e : ExecOrder} {st res : Nat} (hexec : (s.sq c).exec = some e)
    (hresult : e.result = some (st, res)) (hps : e.order.ps = false) :
    ((orderFinish s c false).ch c).fifos = (s.ch c).fifos ∧ (orderFinish s c false).dram = s.dram := by
  have hdram (post : Nat) : (orderClosed s c e post st res).dram = s.dram := by simp [orderClosed_dram, hps]
  have hpost : MayPost s c e := fun h => absurd (hps.symm.trans h) (by decide)
  cases hafter : afterOrder (s.sq c) e st with
  | ends =>
    rw [orderFinish_of_ends hexec hresult hpost hafter]
    simp [orderClosed_fifos, hdram]
  | goes n =>
    rw [orderFinish_of_goes hexec hresult hpost hafter]
    split <;> simp [orderClosed_fifos, hdram]
  | unknown =>
    simp only [orderFinish, hexec, hresult, Bool.false_and, Bool.false_eq_true, if_false, hafter]
    split <;> simp [fetchStart]

/-! ### The bus engine's registers -/

/-- The registers of the bus engine of a channel, and of the pages above (R394), are in `u` as in `s`. -/
def KeepsEngine (s u : State) (c : Nat) : Prop := ∀ g : Fld, chPage c 2 * 64 ≤ fldKey g → u.get g = s.get g

section
variable {s u : State} {c : Nat} (h : KeepsEngine s u c)
include h

theorem KeepsEngine.get (off lo w rst : Nat) : u.get ⟨chPage c 2 + off, lo, w, rst⟩ = s.get ⟨chPage c 2 + off, lo, w, rst⟩ :=
  h _ (by simp only [fldKey]; omega)

theorem KeepsEngine.modeOf : modeOf u c = modeOf s c := h.get ..

theorem KeepsEngine.seqPath : seqPath u c = seqPath s c := congrArg (· != 0) (h.get ..)

theorem KeepsEngine.txRestricted : txRestricted u c = txRestricted s c := by
  have hengine : engineOf u c = engineOf s c := h.get ..
  have hcan : u.isSet (Fld.CAN_CFG_RESTRICTED c) = s.isSet (Fld.CAN_CFG_RESTRICTED c) := congrArg (· != 0) (h.get ..)
  have heth : u.isSet (Fld.ETH_CFG_TX_EN c) = s.isSet (Fld.ETH_CFG_TX_EN c) := congrArg (· != 0) (h.get ..)
  simp only [Machine.txRestricted, hengine, h.modeOf, hcan, heth]

theorem KeepsEngine.txItemOk (b : List Byte) : txItemOk u c b = txItemOk s c b := by
  have hfd : u.isSet (Fld.CAN_CFG_FD_EN c) = s.isSet (Fld.CAN_CFG_FD_EN c) := congrArg (· != 0) (h.get ..)
  have hxl : u.isSet (Fld.CAN_CFG_XL_EN c) = s.isSet (Fld.CAN_CFG_XL_EN c) := congrArg (· != 0) (h.get ..)
  simp only [Machine.txItemOk, h.modeOf, hfd, hxl]

theorem KeepsEngine.selectOk (sel : Nat) : selectOk u c sel = selectOk s c sel := by
  have hcs : u.isSet (Fld.BE_MODE_SPI_CS c) = s.isSet (Fld.BE_MODE_SPI_CS c) := congrArg (· != 0) (h.get ..)
  simp only [Machine.selectOk, h.modeOf, hcs]

end

/-- The start of an order writes the route's registers alone. -/
theorem keepsEngine_startOrder (s : State) (c : Fin 56) (i : Nat) (o : Order) : KeepsEngine s (startOrder s c i o) c := by
  intro g hg
  have hlt : chPage c 1 + 0x1000 = chPage c 2 := by unfold chPage; omega
  have hstate : fldKey g ≠ fldKey (Fld.ROUTE_STATE_STATE c) := by rw [key_routeState]; omega
  have horder : fldKey g ≠ fldKey (Fld.ROUTE_STATE_ORDER c) := by rw [key_routeOrder]; omega
  simp only [startOrder, seqCharge, rtSet, State.modSq_get, State.get_put_ne _ _ hstate, State.get_put_ne _ _ horder]

@[simp] theorem startOrder_fifos (s : State) (c : Fin 56) (i : Nat) (o : Order) : ((startOrder s c i o).ch c).fifos = (s.ch c).fifos := by
  simp [startOrder, seqCharge, rtSet]

/-! ### The order that runs -/

/-- The route runs on from order `e`: nothing suspends or stops it, and the order that follows is being fetched. -/
structure RunsOn (u : State) (c : Fin 56) (e : ExecOrder) : Prop where
  stop : (u.sq c).stop = none
  suspend : (u.sq c).suspend = false
  fetch : ∀ n, e.next = some n → (u.sq c).fetch = .wait n
  run : rtState u c = rtRun

theorem runsOn_startOrder {s : State} {c : Fin 56} {i : Nat} {o : Order} (h : DueAt s c i o) (hop : o.op ≠ oWait) (hsu : o.su = false) :
    RunsOn (startOrder s c i o) c (Started s c i o) := by
  obtain ⟨-, -, -, -, -, -, hstop, hsuspend, -⟩ := h
  exact ⟨(startOrder_stop ..).trans hstop, (startOrder_suspend ..).trans hsuspend, fun n hn => startOrder_fetch s c i o hsu hn,
    startOrder_rtState s c i hop⟩

/-- With OK or OK_RESIDUAL the route goes on with the order that follows, or ends where none does. -/
theorem RunsOn.passes {u : State} {c : Fin 56} {e : ExecOrder} {st : Nat} (h : RunsOn u c e) (hps : e.order.ps = false)
    (hsu : e.order.su = false) (hst : st ≤ 1) (hidx : e.idx < 1024) (res : Nat) :
    Passes (orderFinish (orderKnown u c e st res) c false) c e.idx e.next st (min 0xFFFF res) := by
  cases hnext : e.next with
  | none => exact ended_orderFinish_orderKnown hps (afterOrder_of_last hnext) (by omega) hidx
  | some n =>
    have hq := orderKnown_sq u c e st res
    refine goesOn_orderFinish (e := { e with result := some (st, min 0xFFFF res) }) (by rw [hq]) rfl
      (fun hp => absurd (hps.symm.trans hp) (by decide)) (by rw [hq]; exact h.stop) (by rw [hq]; exact h.suspend) hsu hnext hst
      (by rw [hq]; exact h.fetch n hnext) h.run

section
variable {s : State} {c : Fin 56} {i : Nat} {o : Order}

theorem idx_lt_of_dueAt (h : DueAt s c i o) : i < 1024 := by
  obtain ⟨-, -, -, -, -, -, -, -, hidx⟩ := h
  exact hidx

theorem areas_started (hchain : (s.sq c).chainBuf = []) : areas (Started s c i o) = [o] := by simp [areas, Started, hchain]

theorem areaTotal_started (hchain : (s.sq c).chainBuf = []) : areaTotal (Started s c i o) = o.count := by
  simp [areaTotal, areas_started hchain]

/-- The order ends its route with none of its area transferred. -/
theorem ended_of_dueAt {st : Nat} (h : DueAt s c i o) (hps : o.ps = false) (hchain : (s.sq c).chainBuf = []) (hst : st < 256) {u : State}
    (hexec : (u.sq c).exec = some (Started s c i o)) (hafter : afterOrder (u.sq c) (Started s c i o) st = .ends) :
    Ended (orderNow u c st (areaTotal (Started s c i o))) c st i o.count := by
  have hcount : min 0xFFFF o.count = o.count := by have := o.count_lt; omega
  have hend := ended_orderNow (res := o.count) hexec rfl hps hafter hst (idx_lt_of_dueAt h)
  rw [areaTotal_started hchain]
  rwa [hcount] at hend

theorem next_of_last (hcn : o.cn = false) (hop : o.op ≠ oJump) : (Started s c i o).next = none := by
  simp [Started, nextStatic, hcn, hop]

end

/-! ### The data area (R96) -/

/-- The sequencer, the FIFOs and the registers are in `u` as in `s`, but for the cycles charged. -/
structure ChargesAlone (s u : State) (c : Fin 56) : Prop where
  sq : ∃ k, u.sq c = { s.sq c with used := k }
  fifos : (u.ch c).fifos = (s.ch c).fifos
  get : ∀ g, u.get g = s.get g

theorem ChargesAlone.refl (s : State) (c : Fin 56) : ChargesAlone s s c := ⟨⟨_, rfl⟩, rfl, fun _ => rfl⟩

theorem ChargesAlone.trans {s t u : State} {c : Fin 56} (h : ChargesAlone s t c) (k : ChargesAlone t u c) : ChargesAlone s u c := by
  obtain ⟨⟨m, hm⟩, hfifos, hget⟩ := h
  obtain ⟨⟨n, hn⟩, hfifos', hget'⟩ := k
  exact ⟨⟨n, by rw [hn, hm]⟩, hfifos'.trans hfifos, fun g => (hget' g).trans (hget g)⟩

theorem chargesAlone_seqCharge (s : State) (c : Fin 56) (n : Nat) : ChargesAlone s (seqCharge s c n) c :=
  ⟨⟨_, State.modSq_sq_same ..⟩, State.modSq_fifos .., fun _ => rfl⟩

theorem chargesAlone_bufWrite (s : State) (c : Fin 56) (a : Nat) (bs : List Byte) : ChargesAlone s (bufWrite s a bs) c := by
  unfold bufWrite
  split
  · exact .refl s c
  · split
    · exact ⟨⟨_, rfl⟩, rfl, fun _ => rfl⟩
    · exact ⟨⟨_, rfl⟩, rfl, fun _ => rfl⟩

theorem chargesAlone_areaStore (c : Fin 56) (as : List Order) (s : State) (pos : Nat) (bs : List Byte) :
    ChargesAlone s (areaStore s c as pos bs) c := by
  induction as generalizing s pos bs with
  | nil => exact .refl s c
  | cons o rest ih =>
    unfold areaStore
    split
    · exact ih ..
    · extract_lets here n charged stored
      have hcharged : ChargesAlone s charged c := chargesAlone_seqCharge ..
      refine ChargesAlone.trans ?_ (ih ..)
      unfold stored
      split
      · exact hcharged
      · exact hcharged.trans (chargesAlone_bufWrite ..)

/-- Bytes that fill a data area in device DRAM are there. -/
theorem areaStore_dramRead {o : Order} {bs : List Byte} (hsk : o.sk = false) (haddr : o.addr < 2 ^ 63) (hlen : bs.length = o.count)
    (s : State) (c : Fin 56) : (areaStore s c [o] 0 bs).dramRead o.addr o.count = bs := by
  rcases Nat.eq_zero_or_pos o.count with hzero | hpos
  · rw [hzero, List.eq_nil_of_length_eq_zero (hlen.trans hzero)]
    rfl
  · have hempty : bs.isEmpty = false := by
      cases bs with
      | nil => simp at hlen; omega
      | cons => rfl
    have hwrite (t : State) : bufWrite t (o.addr + 0) bs = t.dramWrite o.addr bs := by
      simp only [bufWrite, hempty, Nat.add_zero, Nat.not_le.mpr haddr, Bool.false_eq_true, if_false]
    have htake : bs.take (o.count - 0) = bs := List.take_of_length_le hlen.le
    simp only [areaStore, Nat.not_le.mpr hpos, if_false, hsk, Bool.false_eq_true, htake, hwrite]
    rw [← hlen, State.dramRead_dramWrite]

/-! ### RECEIVE (R100) -/

/-- The head item leaves the RX FIFO, and RTS may follow. -/
theorem sends_rxDrop (s : State) (c : Fin 56) :
    ∃ sent, Sends (s.modFifos c (fun f => { f with rx := f.rx.tail, rxPos := 0 })) (rxDrop s c) sent := by
  unfold rxDrop rtsMoves
  split
  · exact ⟨_, .emit _ _⟩
  · exact ⟨_, .refl _⟩

/-- What a RECEIVE takes of the item at the head of the RX FIFO stands in its data areas, and the item is gone. -/
def itemTaken (s : State) (c : Fin 56) (e : ExecOrder) (r : Rec) : State :=
  areaStore (rxDrop s c) c (areas e) 0 ((recBytes r).take (areaTotal e))

theorem itemTaken_frame (s : State) (c : Fin 56) (e : ExecOrder) (r : Rec) :
    (∃ k, (itemTaken s c e r).sq c = { s.sq c with used := k }) ∧ ((itemTaken s c e r).ch c).fifos.rx = (s.ch c).fifos.rx.tail ∧
      ∀ g, (itemTaken s c e r).get g = s.get g := by
  obtain ⟨sent, hsent⟩ := sends_rxDrop s c
  obtain ⟨hsq, hfifos, hget⟩ := chargesAlone_areaStore c (areas e) (rxDrop s c) 0 ((recBytes r).take (areaTotal e))
  refine ⟨?_, ?_, fun g => ?_⟩
  · rwa [hsent.sq, State.modFifos_sq] at hsq
  · rw [itemTaken, hfifos, hsent.fifos, State.modFifos_fifos]
  · rw [itemTaken, hget, hsent.get, State.modFifos_get]

section
variable {s : State} {c : Fin 56} {e : ExecOrder} {r : Rec} (hexec : (s.sq c).exec = some e) (hop : e.order.op = oReceive)
  (hloaded : e.loaded = true) (hnone : e.result = none) (hcount : e.count = 0) (hhost : areasHost (areas e) = false)
  (hrx : (s.ch c).fifos.rx = [r]) (hpos : (s.ch c).fifos.rxPos = 0) (hitem : isMarker r = false)
include hexec hop hloaded hnone hcount hhost hrx hpos hitem

/-- An item that fills the areas completes the RECEIVE, a longer one ends it with OVERRUN. -/
theorem recvPump_of_item (k : Nat) :
    ((recBytes r).length = areaTotal e → recvPump (k + 1) s c = orderGives (itemTaken s c e r) c St.ok 0) ∧
    (areaTotal e < (recBytes r).length → recvPump (k + 1) s c = orderGives (itemTaken s c e r) c St.overrun 0) := by
  constructor
  · intro hlen
    simp [recvPump, itemTaken, hexec, hop, hloaded, hnone, hcount, hhost, hrx, hpos, hitem, hlen]
  · intro hlen
    simp [recvPump, itemTaken, hexec, hop, hloaded, hnone, hcount, hhost, hrx, hpos, hitem, hlen]

end

/-- The order with its body run. -/
def ExecOrder.handedOver (e : ExecOrder) : ExecOrder := { e with loaded := true }

theorem execLoaded_exec {s : State} {c : Fin 56} {e : ExecOrder} (hexec : (s.sq c).exec = some e) :
    ((execLoaded s c).sq c).exec = some e.handedOver := by
  simp [execLoaded, hexec, ExecOrder.handedOver]

theorem orderFinish_of_running {s : State} {c : Fin 56} {e : ExecOrder} (hexec : (s.sq c).exec = some e) (hnone : e.result = none)
    (drop : Bool) : orderFinish s c drop = s := by
  simp only [orderFinish, hexec, hnone]

section
variable {s : State} {c : Fin 56} {i : Nat} {o : Order} (h : DueAt s c i o) (hop : o.op = oReceive)
include h hop

theorem ordReceive_of_dueAt : ordReceive s c =
    if seqPath s c then orderFinish (recvPump 64 (execLoaded (startOrder s c i o) c) c) c false
    else orderNow (startOrder s c i o) c St.rejectedState (areaTotal (Started s c i o)) := by
  rw [ordReceive, orderRun_of_dueAt s c i (by rw [hop]; decide) h (by simp [hop]), (keepsEngine_startOrder s c i o).seqPath]
  cases seqPath s c <;> rfl

/-- A RECEIVE with no item to take waits. -/
theorem ordReceive_of_empty (hpath : seqPath s c = true) (hrx : (s.ch c).fifos.rx = []) :
    ordReceive s c = execLoaded (startOrder s c i o) c := by
  have hexec := execLoaded_exec (startOrder_exec s c i (o := o) (by rw [hop]; decide))
  have hempty : ((execLoaded (startOrder s c i o) c).ch c).fifos.rx = [] := by
    rw [execLoaded, State.modSq_fifos, startOrder_fifos, hrx]
  have hpump : recvPump 64 (execLoaded (startOrder s c i o) c) c = execLoaded (startOrder s c i o) c := by
    simp only [recvPump, hexec, hempty]
  rw [ordReceive_of_dueAt h hop, if_pos hpath, hpump, orderFinish_of_running hexec rfl]

section
variable (hchain : (s.sq c).chainBuf = [])
include hchain

theorem ended_ordReceive_of_keeperPath (hps : o.ps = false) (hpath : seqPath s c = false) :
    Ended (ordReceive s c) c St.rejectedState i o.count := by
  rw [ordReceive_of_dueAt h hop, hpath]
  exact ended_of_dueAt h hps hchain (by decide) (startOrder_exec s c i (by rw [hop]; decide)) afterOrder_of_rejectedState

end

end

/-- The state of a RECEIVE that has started and has taken the item at the head of the RX FIFO. -/
def itemReceived (s : State) (c : Fin 56) (i : Nat) (o : Order) (r : Rec) : State :=
  itemTaken (execLoaded (startOrder s c i o) c) c (Started s c i o).handedOver r

section
variable {s : State} {c : Fin 56} {i : Nat} {o : Order} {r : Rec} (hop : o.op = oReceive)
include hop

theorem itemReceived_exec : ((itemReceived s c i o r).sq c).exec = some (Started s c i o).handedOver := by
  obtain ⟨⟨k, hk⟩, -, -⟩ := itemTaken_frame (execLoaded (startOrder s c i o) c) c (Started s c i o).handedOver r
  rw [itemReceived, hk]
  exact execLoaded_exec (startOrder_exec s c i (by rw [hop]; decide))

theorem itemReceived_runsOn (h : DueAt s c i o) (hsu : o.su = false) : RunsOn (itemReceived s c i o r) c (Started s c i o).handedOver := by
  obtain ⟨hstop, hsuspend, hfetch, hrun⟩ := runsOn_startOrder h (by rw [hop]; decide) hsu
  obtain ⟨⟨k, hk⟩, -, hget⟩ := itemTaken_frame (execLoaded (startOrder s c i o) c) c (Started s c i o).handedOver r
  have hsq : (itemReceived s c i o r).sq c = { (execLoaded (startOrder s c i o) c).sq c with used := k } := hk
  simp only [execLoaded, State.modSq_sq_same] at hsq
  exact ⟨by rw [hsq, hstop], by rw [hsq, hsuspend], fun n hn => by rw [hsq, hfetch n hn], (hget _).trans hrun⟩

end

/-- The item has left the RX FIFO. -/
theorem itemReceived_rx {s : State} {c : Fin 56} {r : Rec} (i : Nat) (o : Order) (hrx : (s.ch c).fifos.rx = [r]) :
    ((itemReceived s c i o r).ch c).fifos.rx = [] := by
  obtain ⟨-, hfifos, -⟩ := itemTaken_frame (execLoaded (startOrder s c i o) c) c (Started s c i o).handedOver r
  rw [itemReceived, hfifos, execLoaded, State.modSq_fifos, startOrder_fifos, hrx]
  rfl

/-- Its first bytes stand in the area. -/
theorem itemReceived_dramRead {s : State} {c : Fin 56} {o : Order} {r : Rec} (i : Nat) (hchain : (s.sq c).chainBuf = [])
    (haddr : o.addr < 2 ^ 63) (hsk : o.sk = false) (hlen : o.count ≤ (recBytes r).length) :
    (itemReceived s c i o r).dramRead o.addr o.count = (recBytes r).take o.count := by
  have hareas : areas (Started s c i o).handedOver = [o] := areas_started (i := i) hchain
  have htotal : areaTotal (Started s c i o).handedOver = o.count := areaTotal_started (i := i) hchain
  rw [itemReceived, itemTaken, hareas, htotal]
  exact areaStore_dramRead hsk haddr (by rw [List.length_take, Nat.min_eq_left hlen]) ..

/-- When the order has ended the item has left the RX FIFO, and its first bytes stand in the area. -/
theorem orderFinish_itemReceived {s : State} {c : Fin 56} {o : Order} {r : Rec} (i st : Nat) (hps : o.ps = false)
    (hchain : (s.sq c).chainBuf = []) (haddr : o.addr < 2 ^ 63) (hrx : (s.ch c).fifos.rx = [r]) (hsk : o.sk = false)
    (hlen : o.count ≤ (recBytes r).length) {u : State}
    (hu : u = orderFinish (orderKnown (itemReceived s c i o r) c (Started s c i o).handedOver st 0) c false) :
    (u.ch c).fifos.rx = [] ∧ u.dramRead o.addr o.count = (recBytes r).take o.count := by
  have hq := orderKnown_sq (itemReceived s c i o r) c (Started s c i o).handedOver st 0
  have hknown : ((orderKnown (itemReceived s c i o r) c (Started s c i o).handedOver st 0).ch c).fifos = ((itemReceived s c i o r).ch c).fifos :=
    State.modSq_fifos ..
  obtain ⟨hfifos, hdram⟩ := orderFinish_buffers (e := { (Started s c i o).handedOver with result := some (st, 0) }) (by rw [hq]; rfl) rfl hps
  rw [← hu] at hfifos hdram
  refine ⟨?_, ?_⟩
  · rw [hfifos, hknown, itemReceived_rx i o hrx]
  · rw [State.dramRead_congr (s := itemReceived s c i o r) (hdram.trans rfl), itemReceived_dramRead i hchain haddr hsk hlen]

section
variable {s : State} {c : Fin 56} {i : Nat} {o : Order} {r : Rec} (h : DueAt s c i o) (hop : o.op = oReceive)
  (hchain : (s.sq c).chainBuf = []) (haddr : o.addr < 2 ^ 63) (hpath : seqPath s c = true) (hrx : (s.ch c).fifos.rx = [r])
  (hpos : (s.ch c).fifos.rxPos = 0) (hitem : isMarker r = false)
include h hop hchain haddr hpath hrx hpos hitem

/-- A RECEIVE takes the item: with OK where it fills the area, with OVERRUN where it is longer. -/
theorem ordReceive_of_item {st : Nat} (hst : (recBytes r).length = o.count ∧ st = St.ok ∨ o.count < (recBytes r).length ∧ st = St.overrun) :
    ordReceive s c = orderFinish (orderKnown (itemReceived s c i o r) c (Started s c i o).handedOver st 0) c false := by
  have hexec := execLoaded_exec (startOrder_exec s c i (o := o) (by rw [hop]; decide))
  have hfifos : ((execLoaded (startOrder s c i o) c).ch c).fifos = (s.ch c).fifos := by
    rw [execLoaded, State.modSq_fifos, startOrder_fifos]
  have hareas : areas (Started s c i o).handedOver = [o] := areas_started (i := i) hchain
  have htotal : areaTotal (Started s c i o).handedOver = o.count := areaTotal_started (i := i) hchain
  have hhost : areasHost [o] = false := by simpa [areasHost] using fun _ => haddr
  obtain ⟨hwhole, hlonger⟩ := recvPump_of_item (r := r) hexec hop rfl rfl rfl (by rw [hareas, hhost]) (by rw [hfifos, hrx]) (by rw [hfifos, hpos])
    hitem 63
  rw [ordReceive_of_dueAt h hop, if_pos hpath, ← orderGives_of_exec (itemReceived_exec hop) rfl]
  rcases hst with ⟨hlen, rfl⟩ | ⟨hlen, rfl⟩
  · rw [hwhole (hlen.trans htotal.symm)]
    rfl
  · rw [hlonger (htotal ▸ hlen)]
    rfl

theorem doesSome_receive_of_whole (hplain : Plain o) (hsk : o.sk = false) (hlen : (recBytes r).length = o.count) :
    DoesSome (.receive c) s (fun u => Passes u c i (nextStatic i 0 o) St.ok 0 ∧ u.dramRead o.addr o.count = recBytes r ∧
      (u.ch c).fifos.rx = []) := by
  obtain ⟨hsu, hps⟩ := hplain
  have heq := ordReceive_of_item h hop hchain haddr hpath hrx hpos hitem (.inl ⟨hlen, rfl⟩)
  have hpasses := (itemReceived_runsOn (r := r) hop h hsu).passes (st := St.ok) hps hsu (by decide) (idx_lt_of_dueAt h) 0
  obtain ⟨hempty, hread⟩ := orderFinish_itemReceived i St.ok hps hchain haddr hrx hsk hlen.ge heq
  have hnext : (Started s c i o).handedOver.next = nextStatic i 0 o := by simp [ExecOrder.handedOver, Started, hchain]
  rw [hnext, ← heq] at hpasses
  exact ⟨_, rfl, hpasses, hread.trans (List.take_of_length_le hlen.le), hempty⟩

theorem doesSome_receive_of_longer (hps : o.ps = false) (hsk : o.sk = false) (hlen : o.count < (recBytes r).length) (hcn : o.cn = false) :
    DoesSome (.receive c) s (fun u => Ended u c St.overrun i 0 ∧ u.dramRead o.addr o.count = (recBytes r).take o.count) := by
  have heq := ordReceive_of_item h hop hchain haddr hpath hrx hpos hitem (.inr ⟨hlen, rfl⟩)
  obtain ⟨-, hread⟩ := orderFinish_itemReceived i St.overrun hps hchain haddr hrx hsk hlen.le heq
  have hnext : (Started s c i o).handedOver.next = none := next_of_last hcn (by rw [hop]; decide)
  have hended := ended_orderFinish_orderKnown (s := itemReceived s c i o r) (c := c) (res := 0) hps (afterOrder_of_last hnext)
    (show St.overrun < 256 by decide) (idx_lt_of_dueAt h)
  rw [← heq] at hended
  exact ⟨_, rfl, hended, hread⟩

end

theorem doesSome_receive_of_empty {s : State} {c : Fin 56} {i : Nat} {o : Order} (h : DueAt s c i o) (hop : o.op = oReceive)
    (hpath : seqPath s c = true) (hrx : (s.ch c).fifos.rx = []) : DoesSome (.receive c) s (fun u =>
      rtState u c = rtRun ∧ (u.sq c).exec = some { Started s c i o with loaded := true } ∧ u.dram = s.dram) := by
  have hwait : o.op ≠ oWait := by rw [hop]; decide
  refine ⟨_, congrArg done (ordReceive_of_empty h hop hpath hrx), ?_, execLoaded_exec (startOrder_exec s c i hwait), rfl⟩
  exact startOrder_rtState s c i hwait

/-! ### The data an order reads (R96) -/

/-- An order with one area in device DRAM has its bytes at once. -/
theorem withData_of_dram {s : State} {o : Order} (haddr : o.addr < 2 ^ 63) (hgood : s.poisoned 0 o.addr o.count = false) (c : Fin 56)
    (e : ExecOrder) (data : HostRd) (f : State → List Byte → State) :
    withData s c e [o] data f = f (seqCharge s c (areaReadCost s c [o])) (s.dramRead o.addr o.count) := by
  have hnear : ¬ 9223372036854775808 ≤ o.addr := by omega
  simp [withData, areaRead, hnear, hgood]

/-- The state of an order with one area that has started and has read its bytes. -/
def dataFetched (s : State) (c : Fin 56) (i : Nat) (o : Order) : State :=
  seqCharge (startOrder s c i o) c (areaReadCost (startOrder s c i o) c [o])

section
variable (s : State) (c : Fin 56) (i : Nat) (o : Order)

theorem dataFetched_exec (hop : o.op ≠ oWait) : ((dataFetched s c i o).sq c).exec = some (Started s c i o) := by
  obtain ⟨k, hk⟩ := (chargesAlone_seqCharge (startOrder s c i o) c (areaReadCost (startOrder s c i o) c [o])).sq
  rw [dataFetched, hk]
  exact startOrder_exec s c i hop

theorem dataFetched_fifos : ((dataFetched s c i o).ch c).fifos = (s.ch c).fifos := by
  rw [dataFetched, seqCharge, State.modSq_fifos, startOrder_fifos]

theorem keepsEngine_dataFetched : KeepsEngine s (dataFetched s c i o) c := keepsEngine_startOrder s c i o

variable {s o} (haddr : o.addr < 2 ^ 63) (hgood : s.poisoned 0 o.addr o.count = false)
include haddr hgood

theorem withData_startOrder (e : ExecOrder) (data : HostRd) (f : State → List Byte → State) :
    withData (startOrder s c i o) c e [o] data f = f (dataFetched s c i o) (s.dramRead o.addr o.count) :=
  withData_of_dram (s := startOrder s c i o) haddr hgood ..

end

/-- An item that fits in the empty TX FIFO is placed there. -/
theorem txFeed_of_item {s : State} {c : Fin 56} {b : List Byte} (hempty : (s.ch c).fifos.tx = []) (hlen : b.length ≤ 8192) (k : Nat) :
    ((txFeed (k + 2) (s.modBus c (fun x => { x with txWait := [b] })) c).ch c).fifos.tx = [.item b true] ∧
      (txFeed (k + 2) (s.modBus c (fun x => { x with txWait := [b] })) c).sq c = s.sq c := by
  have hfits : txItems (s.ch c).fifos < 31 ∧ b.length ≤ txFree (s.ch c).fifos := by
    simp [txItems, txFree, txBytes, hempty, hlen]
  simp [txFeed, hfits, hempty]

/-- What a TRANSMIT does with its bytes: to the bus in I2C mode, else item by item to the TX FIFO. -/
def bytesTransmitted (s : State) (c : Fin 56) (e : ExecOrder) (bs : List Byte) : State :=
  if c.val < 48 ∧ modeOf s c = modeI2c then (execLoaded s c).emit (.busTx c bs)
  else match txSplit 4096 bs with
    | some items =>
      if items.all (txItemOk s c) then txFeed 31 ((execLoaded s c).modBus c (fun b => { b with txWait := items })) c
      else orderNow s c 0x83 (areaTotal e)
    | none => orderNow s c 0x83 (areaTotal e)

section
variable {s : State} {c : Fin 56} {i : Nat} {o : Order} (h : DueAt s c i o) (hchain : (s.sq c).chainBuf = []) (haddr : o.addr < 2 ^ 63)
  (data : HostRd)
include h hchain

/-! ### TRANSMIT (R100) -/

section
variable (hop : o.op = oTransmit)
include hop

theorem ended_ordTransmit_of_restricted (hps : o.ps = false) (htx : txRestricted s c = true) :
    Ended (ordTransmit s c data) c St.rejectedState i o.count := by
  have hwait : o.op ≠ oWait := by rw [hop]; decide
  rw [ordTransmit, orderRun_of_dueAt s c i hwait h (by simp [hop]), (keepsEngine_startOrder s c i o).txRestricted, if_pos htx]
  exact ended_of_dueAt h hps hchain (by decide) (startOrder_exec s c i hwait) afterOrder_of_rejectedState

variable (htx : txRestricted s c = false) (hgood : s.poisoned 0 o.addr o.count = false)
include haddr htx hgood

theorem ordTransmit_of_dueAt :
    ordTransmit s c data = bytesTransmitted (dataFetched s c i o) c (Started s c i o) (s.dramRead o.addr o.count) := by
  have hwait : o.op ≠ oWait := by rw [hop]; decide
  rw [ordTransmit, orderRun_of_dueAt s c i hwait h (by simp [hop]), (keepsEngine_startOrder s c i o).txRestricted, htx,
    if_neg Bool.false_ne_true, areas_started hchain, withData_startOrder c i haddr hgood]
  rfl

theorem doesSome_transmit_of_i2c (hi2c : c.val < 48 ∧ modeOf s c = modeI2c) : DoesSome (.transmit c data) s (fun u =>
    u.out = s.out ++ [.busTx c (s.dramRead o.addr o.count)] ∧ (u.sq c).exec = some { Started s c i o with loaded := true }) := by
  have heq := ordTransmit_of_dueAt h hchain haddr data hop htx hgood
  rw [bytesTransmitted, if_pos (by rwa [(keepsEngine_dataFetched s c i o).modeOf])] at heq
  exact ⟨_, congrArg done heq, rfl, execLoaded_exec (dataFetched_exec s c i o (by rw [hop]; decide))⟩

theorem doesSome_transmit_of_item {b : List Byte} (hi2c : ¬ (c.val < 48 ∧ modeOf s c = modeI2c))
    (hsplit : txSplit 4096 (s.dramRead o.addr o.count) = some [b]) (hok : txItemOk s c b = true) (hlen : b.length ≤ 8192)
    (hempty : (s.ch c).fifos.tx = []) : DoesSome (.transmit c data) s (fun u =>
      (u.ch c).fifos.tx = [.item b true] ∧ (u.sq c).exec = some { Started s c i o with loaded := true }) := by
  have heq := ordTransmit_of_dueAt h hchain haddr data hop htx hgood
  have hall : [b].all (txItemOk (dataFetched s c i o) c) = true := by
    simp [(keepsEngine_dataFetched s c i o).txItemOk, hok]
  rw [bytesTransmitted, if_neg (by rwa [(keepsEngine_dataFetched s c i o).modeOf]), hsplit] at heq
  have hfifos : ((execLoaded (dataFetched s c i o) c).ch c).fifos.tx = [] := by
    rw [execLoaded, State.modSq_fifos, dataFetched_fifos, hempty]
  obtain ⟨htx, hsq⟩ := txFeed_of_item hfifos hlen 29
  exact ⟨_, congrArg done (heq.trans (if_pos hall)), htx, by rw [hsq]; exact execLoaded_exec (dataFetched_exec s c i o (by rw [hop]; decide))⟩

theorem doesSome_transmit_of_malformed (hps : o.ps = false) (hi2c : ¬ (c.val < 48 ∧ modeOf s c = modeI2c))
    (hsplit : txSplit 4096 (s.dramRead o.addr o.count) = none) (hcn : o.cn = false) :
    DoesSome (.transmit c data) s (fun u => Ended u c 0x83 i o.count) := by
  have heq := ordTransmit_of_dueAt h hchain haddr data hop htx hgood
  rw [bytesTransmitted, if_neg (by rwa [(keepsEngine_dataFetched s c i o).modeOf]), hsplit] at heq
  refine ⟨_, congrArg done heq, ended_of_dueAt h hps hchain (by decide) (dataFetched_exec s c i o (by rw [hop]; decide)) ?_⟩
  exact afterOrder_of_last (next_of_last hcn (by rw [hop]; decide))

end

/-! ### EXCHANGE (R100) -/

section
variable (hop : o.op = oExchange)
include hop

theorem ended_ordExchange_of_barge (hps : o.ps = false) (hbarge : 48 ≤ c.val) :
    Ended (ordExchange s c data) c St.rejectedState i o.count := by
  have hwait : o.op ≠ oWait := by rw [hop]; decide
  have heq : ordExchange s c data = orderNow (startOrder s c i o) c St.rejectedState (areaTotal (Started s c i o)) := by
    rw [ordExchange, orderRun_of_dueAt s c i hwait h (by simp [hop])]
    exact if_pos (.inl hbarge)
  rw [heq]
  exact ended_of_dueAt h hps hchain (by decide) (startOrder_exec s c i hwait) afterOrder_of_rejectedState

end

omit hchain in
/-- An EXCHANGE the channel can do sends SELECT and its bytes. -/
theorem doesSome_exchange (hop : o.op = oExchange) (haddr : o.addr < 2 ^ 63) (hgood : s.poisoned 0 o.addr o.count = false)
    (hkeeper : c.val < 48) (hpath : seqPath s c = true) (hsel : selectOk s c (bf o.param 8 8) = true) (htx : txRestricted s c = false) :
    DoesSome (.exchange c data) s (fun u =>
      (∃ pins, u.out = s.out ++ .busTx c (leBytes 1 (bf o.param 8 8) ++ s.dramRead o.addr o.count) :: pins ∧
        (modeOf s c ≠ modeSpi → pins = [])) ∧
      (u.sq c).exec = some { Started s c i o with loaded := true }) := by
  have hwait : o.op ≠ oWait := by rw [hop]; decide
  have hkeeps := keepsEngine_startOrder s c i o
  have hcan : ¬ (48 ≤ c.val ∨ (!seqPath (startOrder s c i o) c) = true ∨ (!selectOk (startOrder s c i o) c (bf o.param 8 8)) = true ∨
      txRestricted (startOrder s c i o) c = true) := by
    rw [hkeeps.seqPath, hkeeps.selectOk, hkeeps.txRestricted, hpath, hsel, htx]
    simp [hkeeper]
  have heq : ordExchange s c data = driveSelects ((execLoaded (dataFetched s c i o) c).emit
      (.busTx c (leBytes 1 (bf o.param 8 8) ++ s.dramRead o.addr o.count))) c := by
    rw [ordExchange, orderRun_of_dueAt s c i hwait h (by simp [hop])]
    exact (if_neg hcan).trans (withData_startOrder c i haddr hgood ..)
  obtain ⟨pins, hpins, hspi⟩ := sends_driveSelects
    ((execLoaded (dataFetched s c i o) c).emit (.busTx c (leBytes 1 (bf o.param 8 8) ++ s.dramRead o.addr o.count))) c
  refine ⟨_, congrArg done heq, ⟨pins, ?_, fun hm => hspi ?_⟩, ?_⟩
  · rw [hpins.out, State.emit_out]
    exact List.append_assoc ..
  · exact fun hm' => hm (((keepsEngine_dataFetched s c i o).modeOf).symm.trans hm')
  · rw [hpins.sq]
    exact execLoaded_exec (dataFetched_exec s c i o hwait)

end

/-! ### The obligation -/

/-- Settles O30: each clause runs the order from its start, which keeps the registers of the bus engine and the FIFOs. -/
theorem dataOrders : Obligations.DataOrders := by
  unfold Obligations.DataOrders
  intro s c i o data r b h hplain hchain haddr
  obtain ⟨-, hps⟩ := id hplain
  refine ⟨fun hop => ⟨fun hpath => ?_, fun hpath hrx => ?_, fun hpath hrx hpos hitem hsk => ⟨fun hlen => ?_, fun hlen hcn => ?_⟩⟩,
    fun hop => ⟨fun htx => ?_, fun htx hi2c hgood => ⟨fun hsplit hok hlen hempty => ?_, fun hsplit hcn => ?_⟩,
      fun htx hkeeper hi2c hgood => ?_⟩,
    fun hop => ⟨fun hbarge => ?_, fun hkeeper hpath hsel htx hgood => ?_⟩⟩
  · exact ⟨_, rfl, ended_ordReceive_of_keeperPath h hop hchain hps hpath⟩
  · exact doesSome_receive_of_empty h hop hpath hrx
  · exact doesSome_receive_of_whole h hop hchain haddr hpath hrx hpos hitem hplain hsk hlen
  · exact doesSome_receive_of_longer h hop hchain haddr hpath hrx hpos hitem hps hsk hlen hcn
  · exact ⟨_, rfl, ended_ordTransmit_of_restricted h hchain data hop hps htx⟩
  · exact doesSome_transmit_of_item h hchain haddr data hop htx hgood hi2c hsplit hok hlen hempty
  · exact doesSome_transmit_of_malformed h hchain haddr data hop htx hgood hps hi2c hsplit hcn
  · exact doesSome_transmit_of_i2c h hchain haddr data hop htx hgood ⟨hkeeper, hi2c⟩
  · exact ⟨_, rfl, ended_ordExchange_of_barge h hchain data hop hps hbarge⟩
  · exact doesSome_exchange h data hop haddr hgood hkeeper hpath hsel htx

end Sys2Proof.Machine
end

section
/-!
PROOF. A keeper instruction is read back from the halfwords it is written as (R120–R142): the fields of a halfword given as a sum, then
the forms group by group, in the order of the decoder.
-/
namespace Sys2Proof.Machine

/-! ### Fields of a halfword given as a number -/

theorem bits_ofNat {n hi lo v : Nat} (h : n % 65536 / 2 ^ lo % 2 ^ (hi + 1 - lo) = v) : bits (BitVec.ofNat 16 n) hi lo = v := by
  rw [bits, BitVec.toNat_ofNat, ← h]

theorem fieldAt_ofNat {n w lo : Nat} {x : BitVec w} (h : n % 65536 / 2 ^ lo % 2 ^ w = x.toNat) : fieldAt w (BitVec.ofNat 16 n) lo = x :=
  BitVec.eq_of_toNat_eq (by rw [fieldAt, BitVec.toNat_ofNat, BitVec.toNat_ofNat, ← h])

theorem ofNat_of_toNat {n w : Nat} {x : BitVec w} (h : n = x.toNat) : BitVec.ofNat w n = x := by
  rw [h, BitVec.ofNat_toNat, BitVec.setWidth_eq]

/-! ### Numbers of the operations and conditions -/

@[simp] theorem dOpOf_code (o : DOp) : dOpOf o.code = some o := by cases o <;> rfl
@[simp] theorem qOpOf_code (o : QOp) : qOpOf o.code = some o := by cases o <;> rfl
@[simp] theorem condOf_code (o : Cond) : condOf o.code = o := by cases o <;> rfl
@[simp] theorem m2OpOf_code (o : M2Op) : m2OpOf o.code = o := by cases o <;> rfl
@[simp] theorem m3OpOf_code (o : M3Op) : m3OpOf o.code = some o := by cases o <;> rfl
theorem DOp.code_lt (o : DOp) : o.code < 15 := by cases o <;> decide
theorem QOp.code_lt (o : QOp) : o.code < 15 := by cases o <;> decide
theorem Cond.code_lt (o : Cond) : o.code < 8 := by cases o <;> decide
theorem M2Op.code_lt (o : M2Op) : o.code < 8 := by cases o <;> decide
theorem M3Op.code_lt (o : M3Op) : o.code < 7 := by cases o <;> decide

/-! ### Groups of the first halfword (R120, R122, R123) -/

section
variable {n : Nat} (h1 : Half)

theorem kDecode_short (hn : n < 0xC000) : kDecode (BitVec.ofNat 16 n) h1 = decodeShort (BitVec.ofNat 16 n) := by
  have hlong : bits (BitVec.ofNat 16 n) 15 14 ≠ 3 := by rw [bits_ofNat rfl]; omega
  simp [kDecode, isLong, hlong]

theorem kDecode_sys (hn : n < 0x1000) : kDecode (BitVec.ofNat 16 n) h1 = decodeSys (BitVec.ofNat 16 n) := by
  simp (disch := omega) only [kDecode_short, decodeShort, bits_ofNat (v := 0)]

theorem kDecode_acc (hlo : 0x7000 ≤ n) (hhi : n < 0x8000) : kDecode (BitVec.ofNat 16 n) h1 = decodeAcc (BitVec.ofNat 16 n) := by
  simp (disch := omega) only [kDecode_short, decodeShort, bits_ofNat (v := 7)]

theorem kDecode_branch (hlo : 0xC000 ≤ n) (hhi : n < 0xD000) : kDecode (BitVec.ofNat 16 n) h1 = decodeBranch (BitVec.ofNat 16 n) h1 := by
  simp (disch := omega) only [kDecode, isLong, bits_ofNat (v := 3), bits_ofNat (v := 0), beq_self_eq_true, if_true]

theorem kDecode_imm (hlo : 0xD000 ≤ n) (hhi : n < 0xE000) : kDecode (BitVec.ofNat 16 n) h1 = decodeImm (BitVec.ofNat 16 n) h1 := by
  simp (disch := omega) only [kDecode, isLong, bits_ofNat (v := 3), bits_ofNat (v := 1), beq_self_eq_true, if_true]

theorem kDecode_mm (hlo : 0xF000 ≤ n) (hhi : n < 0x10000) : kDecode (BitVec.ofNat 16 n) h1 = decodeMm (BitVec.ofNat 16 n) h1 := by
  simp (disch := omega) only [kDecode, isLong, bits_ofNat (v := 3), beq_self_eq_true, if_true]

end
/-! ### System and control, group 0x0 -/

section
variable (h1 : Half)

theorem kDecode_sysCall (imm : Byte) : kDecode (BitVec.ofNat 16 (0x0100 + imm.toNat)) h1 = some (.sys imm) := by
  simp (disch := omega) only [kDecode_sys, decodeSys, bits_ofNat (v := 1), fieldAt_ofNat (x := imm)]

theorem kDecode_brk (imm : Byte) : kDecode (BitVec.ofNat 16 (0x0200 + imm.toNat)) h1 = some (.brk imm) := by
  simp (disch := omega) only [kDecode_sys, decodeSys, bits_ofNat (v := 2), fieldAt_ofNat (x := imm)]

theorem kDecode_waitev (mask : Byte) (hmask : mask ≠ 0) : kDecode (BitVec.ofNat 16 (0x0300 + mask.toNat)) h1 = some (.waitev mask) := by
  simp (disch := omega) only [kDecode_sys, decodeSys, bits_ofNat (v := 3), fieldAt_ofNat (x := mask), hmask, if_false]

theorem kDecode_signal (t : BitVec 3) : kDecode (BitVec.ofNat 16 (0x0400 + t.toNat)) h1 = some (.signal t) := by
  simp (disch := omega) only [kDecode_sys, decodeSys, bits_ofNat (v := 4), bits_ofNat (v := 0), fieldAt_ofNat (x := t),
    if_true]

theorem kDecode_repImm (u : Byte) : kDecode (BitVec.ofNat 16 (0x0500 + u.toNat)) h1 = some (.repImm u) := by
  simp (disch := omega) only [kDecode_sys, decodeSys, bits_ofNat (v := 5), fieldAt_ofNat (x := u)]

theorem kDecode_repReg (n : BitVec 3) : kDecode (BitVec.ofNat 16 (0x0600 + n.toNat)) h1 = some (.repReg n) := by
  simp (disch := omega) only [kDecode_sys, decodeSys, bits_ofNat (v := 6), bits_ofNat (v := 0), fieldAt_ofNat (x := n),
    if_true]

theorem kDecode_jmpP (k : BitVec 4) : kDecode (BitVec.ofNat 16 (0x0700 + k.toNat)) h1 = some (.jmpP k) := by
  simp (disch := omega) only [kDecode_sys, decodeSys, bits_ofNat (v := 7), bits_ofNat (v := 0), fieldAt_ofNat (x := k),
    if_true]

theorem kDecode_callP (k : BitVec 4) : kDecode (BitVec.ofNat 16 (0x0800 + k.toNat)) h1 = some (.callP k) := by
  simp (disch := omega) only [kDecode_sys, decodeSys, bits_ofNat (v := 8), bits_ofNat (v := 0), fieldAt_ofNat (x := k),
    if_true]

theorem kDecode_tas (d n : BitVec 3) : kDecode (BitVec.ofNat 16 (0x0900 + d.toNat * 8 + n.toNat)) h1 = some (.tas d n) := by
  simp (disch := omega) only [kDecode_sys, decodeSys, bits_ofNat (v := 9), bits_ofNat (v := 0), fieldAt_ofNat (x := d),
    fieldAt_ofNat (x := n), if_true]

theorem kDecode_lrB (d n : BitVec 3) : kDecode (BitVec.ofNat 16 (0x0A00 + d.toNat * 8 + n.toNat)) h1 = some (.lrB d n) := by
  simp (disch := omega) only [kDecode_sys, decodeSys, bits_ofNat (v := 10), bits_ofNat (v := 0), fieldAt_ofNat (x := d),
    fieldAt_ofNat (x := n), if_true]

theorem kDecode_scB (d n : BitVec 3) : kDecode (BitVec.ofNat 16 (0x0B00 + d.toNat * 8 + n.toNat)) h1 = some (.scB d n) := by
  simp (disch := omega) only [kDecode_sys, decodeSys, bits_ofNat (v := 11), bits_ofNat (v := 0), fieldAt_ofNat (x := d),
    fieldAt_ofNat (x := n), if_true]

/-! ### Data operations, near memory and CB_P, groups 0x1 to 0x6 and 0x8 to 0xB -/

theorem kDecode_dreg (op : DOp) (d s : BitVec 3) :
    kDecode (BitVec.ofNat 16 (0x1000 + op.code * 0x100 + d.toNat * 32 + s.toNat * 4)) h1 = some (.dreg op d s) := by
  have hop := op.code_lt
  simp (disch := omega) only [kDecode_short, decodeShort, bits_ofNat (v := 1), bits_ofNat (v := 0), bits_ofNat (v := op.code),
    fieldAt_ofNat (x := d), fieldAt_ofNat (x := s), if_true, dOpOf_code, Option.map_some]

theorem kDecode_dimm : ∀ p ∈ [(0x2000, DImm.movi), (0x2800, .addi), (0x3000, .andi), (0x3800, .ori)], ∀ (d : BitVec 3) (imm : Byte),
    kDecode (BitVec.ofNat 16 (p.1 + d.toNat * 0x100 + imm.toNat)) h1 = some (.dimm p.2 d imm) := by
  intro p hp d imm
  fin_cases hp <;>
    simp (disch := omega) only [kDecode_short, decodeShort, bits_ofNat (v := 2), bits_ofNat (v := 3), bits_ofNat (v := 0),
      bits_ofNat (v := 1), fieldAt_ofNat (x := d), fieldAt_ofNat (x := imm), if_true, one_ne_zero, if_false]

theorem kDecode_ldB (d n : BitVec 3) (u : BitVec 5) :
    kDecode (BitVec.ofNat 16 (0x4000 + d.toNat * 0x100 + n.toNat * 32 + u.toNat)) h1 = some (.ldB d n u) := by
  simp (disch := omega) only [kDecode_short, decodeShort, bits_ofNat (v := 4), bits_ofNat (v := 0), fieldAt_ofNat (x := d),
    fieldAt_ofNat (x := n), fieldAt_ofNat (x := u), if_true]

theorem kDecode_stB (d n : BitVec 3) (u : BitVec 5) :
    kDecode (BitVec.ofNat 16 (0x4800 + d.toNat * 0x100 + n.toNat * 32 + u.toNat)) h1 = some (.stB d n u) := by
  simp (disch := omega) only [kDecode_short, decodeShort, bits_ofNat (v := 4), bits_ofNat (v := 1), fieldAt_ofNat (x := d),
    fieldAt_ofNat (x := n), fieldAt_ofNat (x := u), one_ne_zero, if_false]

theorem kDecode_ldW (a n : BitVec 3) (u : BitVec 5) :
    kDecode (BitVec.ofNat 16 (0x5000 + a.toNat * 0x100 + n.toNat * 32 + u.toNat)) h1 = some (.ldW a n u) := by
  simp (disch := omega) only [kDecode_short, decodeShort, bits_ofNat (v := 5), bits_ofNat (v := 0), fieldAt_ofNat (x := a),
    fieldAt_ofNat (x := n), fieldAt_ofNat (x := u), if_true]

theorem kDecode_stW (a n : BitVec 3) (u : BitVec 5) :
    kDecode (BitVec.ofNat 16 (0x5800 + a.toNat * 0x100 + n.toNat * 32 + u.toNat)) h1 = some (.stW a n u) := by
  simp (disch := omega) only [kDecode_short, decodeShort, bits_ofNat (v := 5), bits_ofNat (v := 1), fieldAt_ofNat (x := a),
    fieldAt_ofNat (x := n), fieldAt_ofNat (x := u), one_ne_zero, if_false]

theorem kDecode_ldL (q : BitVec 2) (n : BitVec 3) (u : BitVec 6) :
    kDecode (BitVec.ofNat 16 (0x6000 + q.toNat * 0x200 + n.toNat * 64 + u.toNat)) h1 = some (.ldL q n u) := by
  simp (disch := omega) only [kDecode_short, decodeShort, bits_ofNat (v := 6), bits_ofNat (v := 0), fieldAt_ofNat (x := q),
    fieldAt_ofNat (x := n), fieldAt_ofNat (x := u), if_true]

theorem kDecode_stL (q : BitVec 2) (n : BitVec 3) (u : BitVec 6) :
    kDecode (BitVec.ofNat 16 (0x6800 + q.toNat * 0x200 + n.toNat * 64 + u.toNat)) h1 = some (.stL q n u) := by
  simp (disch := omega) only [kDecode_short, decodeShort, bits_ofNat (v := 6), bits_ofNat (v := 1), fieldAt_ofNat (x := q),
    fieldAt_ofNat (x := n), fieldAt_ofNat (x := u), one_ne_zero, if_false]

/-- CB_P's group number holds the condition's upper bits, so it is 8 to 11. -/
theorem decodeShort_cbP {n : Nat} (hlo : 0x8000 ≤ n) (hhi : n < 0xC000) : decodeShort (BitVec.ofNat 16 n) =
    (let c := condOf (bits (BitVec.ofNat 16 n) 13 11)
     let cl : Cls := if bits (BitVec.ofNat 16 n) 10 10 = 0 then .d else .a
     if condOk c cl then some (.cbP c cl (fieldAt 3 (BitVec.ofNat 16 n) 7) (fieldAt 3 (BitVec.ofNat 16 n) 4) (fieldAt 4 (BitVec.ofNat 16 n) 0))
     else none) := by
  have hgroup : bits (BitVec.ofNat 16 n) 15 12 = n / 2 ^ 12 := bits_ofNat (by omega)
  obtain h | h | h | h : n / 2 ^ 12 = 8 ∨ n / 2 ^ 12 = 9 ∨ n / 2 ^ 12 = 10 ∨ n / 2 ^ 12 = 11 := by omega
  all_goals simp only [decodeShort, hgroup, h]

theorem kDecode_cbP (c : Cond) (cl : Cls) (r s : BitVec 3) (k : BitVec 4) (hq : cl ≠ .q) (hok : condOk c cl = true) :
    kDecode (BitVec.ofNat 16 (0x8000 + c.code * 0x800 + (if cl = .a then 0x400 else 0) + r.toNat * 0x80 + s.toNat * 16 + k.toNat)) h1 =
      some (.cbP c cl r s k) := by
  have hc := c.code_lt
  cases cl with
  | q => exact absurd rfl hq
  | d =>
    simp (disch := omega) only [reduceCtorEq, if_false, kDecode_short, decodeShort_cbP, bits_ofNat (v := c.code),
      bits_ofNat (v := 0), fieldAt_ofNat (x := r), fieldAt_ofNat (x := s), fieldAt_ofNat (x := k), condOf_code, if_true, hok]
  | a =>
    simp (disch := omega) only [if_true, kDecode_short, decodeShort_cbP, bits_ofNat (v := c.code),
      bits_ofNat (v := 1), fieldAt_ofNat (x := r), fieldAt_ofNat (x := s), fieldAt_ofNat (x := k), condOf_code, one_ne_zero, if_false, hok]

/-! ### Address, accumulator and transfer operations, group 0x7 -/

theorem kDecode_areg (op : AOp) (x y : BitVec 3) (hx : op.onQ = true → x.toNat < 4) :
    kDecode (BitVec.ofNat 16 (0x7000 + op.code x.toNat y.toNat)) h1 = some (.areg op x y) := by
  cases op <;> simp only [AOp.onQ, forall_const, Bool.false_eq_true, false_imp_iff] at hx <;>
    simp (disch := omega) only [AOp.code, kDecode_acc, decodeAcc, bits_ofNat (v := 0), bits_ofNat (v := 1), bits_ofNat (v := 2),
      bits_ofNat (v := 3), bits_ofNat (v := 4), bits_ofNat (v := 5), bits_ofNat (v := 6), bits_ofNat (v := 7), bits_ofNat (v := x.toNat),
      fieldAt_ofNat (x := x), fieldAt_ofNat (x := y), ofNat_of_toNat (x := x), if_true]

theorem kDecode_addqW (x : BitVec 3) (m : BitVec 5) :
    kDecode (BitVec.ofNat 16 (0x7300 + x.toNat * 32 + m.toNat)) h1 = some (.addqW x m) := by
  simp (disch := omega) only [kDecode_acc, decodeAcc, bits_ofNat (v := 3), fieldAt_ofNat (x := x), fieldAt_ofNat (x := m)]

theorem kDecode_qreg (op : QOp) (d s : BitVec 2) :
    kDecode (BitVec.ofNat 16 (0x7700 + op.code * 16 + d.toNat * 4 + s.toNat)) h1 = some (.qreg op d s) := by
  have hop := op.code_lt
  simp (disch := omega) only [kDecode_acc, decodeAcc, bits_ofNat (v := 7), bits_ofNat (v := op.code), fieldAt_ofNat (x := d),
    fieldAt_ofNat (x := s), qOpOf_code, Option.map_some]

theorem kDecode_divq (d : BitVec 2) (x : BitVec 3) : kDecode (BitVec.ofNat 16 (0x7800 + d.toNat * 8 + x.toNat)) h1 = some (.divq d x) := by
  simp (disch := omega) only [kDecode_acc, decodeAcc, bits_ofNat (v := 8), bits_ofNat (v := 0), fieldAt_ofNat (x := d),
    fieldAt_ofNat (x := x), if_true]

theorem kDecode_qsh : ∀ p ∈ [(0x7900, QSh.shl), (0x7980, .shr), (0x7A00, .sar), (0x7A80, .ror)], ∀ (q : BitVec 2) (u : BitVec 5),
    kDecode (BitVec.ofNat 16 (p.1 + q.toNat * 0x20 + u.toNat)) h1 = some (.qsh p.2 q u) := by
  intro p hp q u
  fin_cases hp <;>
    simp (disch := omega) only [kDecode_acc, decodeAcc, bits_ofNat (v := 9), bits_ofNat (v := 10), bits_ofNat (v := 0), bits_ofNat (v := 1),
      fieldAt_ofNat (x := q), fieldAt_ofNat (x := u), if_true, one_ne_zero, if_false]

theorem kDecode_dsh : ∀ p ∈ [(0x7B00, DSh.shl), (0x7B40, .shr), (0x7B80, .sar), (0x7BC0, .rol)], ∀ d u : BitVec 3,
    kDecode (BitVec.ofNat 16 (p.1 + d.toNat * 8 + u.toNat)) h1 = some (.dsh p.2 d u) := by
  intro p hp d u
  fin_cases hp <;>
    simp (disch := omega) only [kDecode_acc, decodeAcc, bits_ofNat (v := 11), bits_ofNat (v := 0), bits_ofNat (v := 1), bits_ofNat (v := 2),
      bits_ofNat (v := 3), fieldAt_ofNat (x := d), fieldAt_ofNat (x := u)]

theorem kDecode_addqL (q : BitVec 2) (m : BitVec 6) :
    kDecode (BitVec.ofNat 16 (0x7C00 + m.toNat * 4 + q.toNat)) h1 = some (.addqL q m) := by
  simp (disch := omega) only [kDecode_acc, decodeAcc, bits_ofNat (v := 12), fieldAt_ofNat (x := q), fieldAt_ofNat (x := m)]

/-! ### Branches, 0xC000 to 0xCFFF -/

theorem kDecode_cbD (c : Cond) (r s : BitVec 3) :
    kDecode (BitVec.ofNat 16 (0xC000 + c.code * 0x100 + 0 + r.toNat * 8 + s.toNat)) h1 = some (.cb c .d r s h1) := by
  have hc := c.code_lt
  simp (disch := omega) only [kDecode_branch, decodeBranch, bits_ofNat (v := 0), bits_ofNat (v := c.code), fieldAt_ofNat (x := r),
    fieldAt_ofNat (x := s), condOf_code, if_true]

theorem kDecode_cbA (c : Cond) (r s : BitVec 3) (hok : condOk c .a = true) :
    kDecode (BitVec.ofNat 16 (0xC000 + c.code * 0x100 + 0x40 + r.toNat * 8 + s.toNat)) h1 = some (.cb c .a r s h1) := by
  have hc := c.code_lt
  simp (disch := omega) only [kDecode_branch, decodeBranch, bits_ofNat (v := 0), bits_ofNat (v := 1), bits_ofNat (v := c.code),
    fieldAt_ofNat (x := r), fieldAt_ofNat (x := s), condOf_code, hok, if_true]

theorem kDecode_cbQ (c : Cond) (r s : BitVec 3) (hr : r.toNat < 4) (hs : s.toNat < 4) :
    kDecode (BitVec.ofNat 16 (0xC000 + c.code * 0x100 + 0x80 + r.toNat * 8 + s.toNat)) h1 = some (.cb c .q r s h1) := by
  have hc := c.code_lt
  simp (disch := omega) only [kDecode_branch, decodeBranch, bits_ofNat (v := 0), bits_ofNat (v := 2), bits_ofNat (v := c.code),
    fieldAt_ofNat (x := r), fieldAt_ofNat (x := s), condOf_code, and_self, if_true]

theorem kDecode_cbi (c : Cond) (r : BitVec 3) (imm : Byte) (disp : BitVec 11) :
    kDecode (BitVec.ofNat 16 (0xC800 + c.code * 0x40 + r.toNat * 8 + imm.toNat / 32))
      (BitVec.ofNat 16 (imm.toNat % 32 * 0x800 + disp.toNat)) = some (.cbi c r imm disp) := by
  have hc := c.code_lt
  simp (disch := omega) only [kDecode_branch, decodeBranch, bits_ofNat (v := 1), bits_ofNat (v := 0), bits_ofNat (v := c.code),
    bits_ofNat (v := imm.toNat / 32), bits_ofNat (v := imm.toNat % 32), ofNat_of_toNat (x := imm), fieldAt_ofNat (x := r),
    fieldAt_ofNat (x := disp), condOf_code, one_ne_zero, if_false]

theorem kDecode_jmp : kDecode (BitVec.ofNat 16 0xCA00) h1 = some (.jmp h1) := by
  simp (disch := omega) only [kDecode_branch, decodeBranch, bits_ofNat (v := 1), bits_ofNat (v := 0), one_ne_zero, ne_eq,
    not_true_eq_false, if_false, if_true]

theorem kDecode_call : kDecode (BitVec.ofNat 16 0xCB00) h1 = some (.call h1) := by
  simp (disch := omega) only [kDecode_branch, decodeBranch, bits_ofNat (v := 1), bits_ofNat (v := 0), one_ne_zero, ne_eq,
    not_true_eq_false, if_false, if_true]

theorem kDecode_jmpI (n : BitVec 3) : kDecode (BitVec.ofNat 16 (0xCA80 + n.toNat)) 0 = some (.jmpI n) := by
  simp (disch := omega) only [kDecode_branch, decodeBranch, bits_ofNat (v := 1), bits_ofNat (v := 0), fieldAt_ofNat (x := n),
    one_ne_zero, ne_eq, not_true_eq_false, if_false, if_true]

theorem kDecode_callI (n : BitVec 3) : kDecode (BitVec.ofNat 16 (0xCB80 + n.toNat)) 0 = some (.callI n) := by
  simp (disch := omega) only [kDecode_branch, decodeBranch, bits_ofNat (v := 1), bits_ofNat (v := 0), fieldAt_ofNat (x := n),
    one_ne_zero, ne_eq, not_true_eq_false, if_false]

theorem kDecode_tbl (k : BitVec 4) : kDecode (BitVec.ofNat 16 (0xCC00 + k.toNat)) h1 = some (.tbl k h1) := by
  simp (disch := omega) only [kDecode_branch, decodeBranch, bits_ofNat (v := 1), bits_ofNat (v := 0), bits_ofNat (v := 2),
    fieldAt_ofNat (x := k), one_ne_zero, if_false, if_true]

/-! ### Long immediates and bit fields, 0xD000 to 0xDFFF -/

theorem kDecode_moviW (n : BitVec 3) : kDecode (BitVec.ofNat 16 (0xD000 + n.toNat)) h1 = some (.moviW n h1) := by
  simp (disch := omega) only [kDecode_imm, decodeImm, bits_ofNat (v := 0), fieldAt_ofNat (x := n), if_true]

theorem kDecode_addiW (n : BitVec 3) : kDecode (BitVec.ofNat 16 (0xD200 + n.toNat)) h1 = some (.addiW n h1) := by
  simp (disch := omega) only [kDecode_imm, decodeImm, bits_ofNat (v := 1), bits_ofNat (v := 0), fieldAt_ofNat (x := n), if_true]

theorem kDecode_moviL (q : BitVec 2) : kDecode (BitVec.ofNat 16 (0xD400 + q.toNat)) h1 = some (.moviL q h1) := by
  simp (disch := omega) only [kDecode_imm, decodeImm, bits_ofNat (v := 2), bits_ofNat (v := 0), fieldAt_ofNat (x := q), if_true]

theorem kDecode_movhiL (q : BitVec 2) : kDecode (BitVec.ofNat 16 (0xD600 + q.toNat)) h1 = some (.movhiL q h1) := by
  simp (disch := omega) only [kDecode_imm, decodeImm, bits_ofNat (v := 3), bits_ofNat (v := 0), fieldAt_ofNat (x := q), if_true]

theorem kDecode_addiL (q : BitVec 2) : kDecode (BitVec.ofNat 16 (0xD800 + q.toNat)) h1 = some (.addiL q h1) := by
  simp (disch := omega) only [kDecode_imm, decodeImm, bits_ofNat (v := 4), bits_ofNat (v := 0), fieldAt_ofNat (x := q), if_true]

end

section
variable (d s : BitVec 2) (pos wm1 : BitVec 5)

theorem kDecode_bfx (h : pos.toNat + wm1.toNat + 1 ≤ 32) :
    kDecode (BitVec.ofNat 16 (0xDA00 + d.toNat * 0x80 + s.toNat * 32 + pos.toNat))
      (BitVec.ofNat 16 (wm1.toNat * 0x800)) = some (.bfx d s pos wm1) := by
  have hfits : ¬ 32 < pos.toNat + wm1.toNat + 1 := by omega
  simp (disch := omega) only [kDecode_imm, decodeImm, bits_ofNat (v := 5), bits_ofNat (v := 0), bits_ofNat (v := pos.toNat),
    bits_ofNat (v := wm1.toNat), fieldAt_ofNat (x := d), fieldAt_ofNat (x := s), fieldAt_ofNat (x := pos), fieldAt_ofNat (x := wm1),
    ne_eq, not_true_eq_false, hfits, or_self, if_false, if_true]

theorem kDecode_bfi (h : pos.toNat + wm1.toNat + 1 ≤ 32) :
    kDecode (BitVec.ofNat 16 (0xDA00 + d.toNat * 0x80 + s.toNat * 32 + pos.toNat))
      (BitVec.ofNat 16 (wm1.toNat * 0x800 + 0x400)) = some (.bfi d s pos wm1) := by
  have hfits : ¬ 32 < pos.toNat + wm1.toNat + 1 := by omega
  simp (disch := omega) only [kDecode_imm, decodeImm, bits_ofNat (v := 5), bits_ofNat (v := 0), bits_ofNat (v := 1),
    bits_ofNat (v := pos.toNat), bits_ofNat (v := wm1.toNat), fieldAt_ofNat (x := d), fieldAt_ofNat (x := s), fieldAt_ofNat (x := pos),
    fieldAt_ofNat (x := wm1), ne_eq, not_true_eq_false, hfits, or_self, one_ne_zero, if_false]

end

/-! ### Memory-to-memory forms, 0xF000 to 0xFFFF (R132, R133) -/

/-- The operands of a three-operand form that has an encoding pass the decoder's checks. -/
theorem mmOk_three {modes : List (BitVec 3)} {x : Nat} (h : mmOk modes x 8 true = true) :
    ¬ (modes.filter usesX).length > 1 ∧ ¬ ((modes.filter usesX).length == 0 && x != 0) = true ∧
    ¬ (modes.filter usesX).any (fun m => m == 5 || m == 6) = true ∧ ¬ ((modes.filter usesX).any (· == 4) && x / 8 != 0) = true := by
  simp only [mmOk] at h
  generalize modes.filter usesX = uses at *
  simp only [Bool.and_eq_true, Bool.or_eq_true, Bool.not_eq_true', decide_eq_true_eq, beq_iff_eq, Bool.true_and, Bool.or_eq_false_iff,
    List.contains_eq_mem, decide_eq_false_iff_not] at h
  obtain ⟨⟨⟨hone, hzero⟩, hfour⟩, hfive, hsix⟩ := h
  refine ⟨by omega, ?_, ?_, ?_⟩
  · simp only [Bool.and_eq_true, beq_iff_eq, bne_iff_ne]
    omega
  · simp only [List.any_eq_true, Bool.or_eq_true, beq_iff_eq]
    rintro ⟨m, hm, rfl | rfl⟩
    · exact hfive hm
    · exact hsix hm
  · simp only [Bool.and_eq_true, List.any_eq_true, beq_iff_eq, bne_iff_ne]
    rintro ⟨⟨m, hm, rfl⟩, hx⟩
    have := hfour.resolve_left (fun h => h hm)
    omega

/-- The operands of a two-operand form that has an encoding pass the decoder's checks. -/
theorem mmOk_two {a b : BitVec 3} {x : Nat} (h : mmOk [a, b] x 8 false = true) :
    ¬ (usesX a && usesX b) = true ∧ ¬ (!usesX a && !usesX b && x != 0) = true ∧ ¬ ((a == 4 || b == 4) && x / 8 != 0) = true := by
  simp only [mmOk, Bool.and_eq_true, Bool.or_eq_true, Bool.not_eq_true', decide_eq_true_eq, decide_eq_false_iff_not, beq_iff_eq,
    List.contains_eq_mem, List.mem_filter] at h
  obtain ⟨⟨⟨hone, hzero⟩, hfour⟩, -⟩ := h
  have hlow (hm : 4 ∈ [a, b]) : x < 8 := hfour.resolve_left (fun hn => hn ⟨hm, rfl⟩)
  refine ⟨fun hab => ?_, fun hab => ?_, fun hab => ?_⟩
  · simp only [Bool.and_eq_true] at hab
    simp [hab] at hone
  · simp only [Bool.and_eq_true, Bool.not_eq_true', bne_iff_ne] at hab
    simp [hab] at hzero
  · simp only [Bool.and_eq_true, Bool.or_eq_true, beq_iff_eq, bne_iff_ne] at hab
    have : x < 8 := hlow (by simpa [eq_comm] using hab.1)
    omega

theorem kDecode_mm2 (op : M2Op) (dst src : MOpnd) (x : BitVec 12) (h : mmOk [dst.mode, src.mode] x.toNat 8 false = true) :
    kDecode (BitVec.ofNat 16 (0xF000 + op.code * 0x100 + dst.mode.toNat * 32 + dst.reg.toNat * 4 + src.mode.toNat / 2))
      (BitVec.ofNat 16 (src.mode.toNat % 2 * 0x8000 + src.reg.toNat * 0x1000 + x.toNat)) = some (.mm2 op dst src x) := by
  have hop := op.code_lt
  obtain ⟨hone, hzero, hfour⟩ := mmOk_two h
  have hx : (x != 0) = (x.toNat != 0) := by simp [bne, BitVec.toNat_eq]
  simp (disch := omega) only [kDecode_mm, decodeMm, bits_ofNat (v := 0), bits_ofNat (v := op.code), fieldAt_ofNat (x := dst.mode),
    fieldAt_ofNat (x := dst.reg), fieldAt_ofNat (x := src.reg), fieldAt_ofNat (x := x), bits_ofNat (v := src.mode.toNat / 2),
    bits_ofNat (v := src.mode.toNat % 2), bits_ofNat (v := x.toNat / 8), ofNat_of_toNat (x := src.mode), m2OpOf_code, hx, hone, hzero, hfour,
    if_true, Bool.false_eq_true, if_false]

theorem kDecode_mm3 (op : M3Op) (dst a b : MOpnd) (x : BitVec 6) (h : mmOk [dst.mode, a.mode, b.mode] x.toNat 8 true = true) :
    kDecode (BitVec.ofNat 16 (0xF800 + op.code * 0x100 + dst.mode.toNat * 32 + dst.reg.toNat * 4 + a.mode.toNat / 2))
      (BitVec.ofNat 16 (a.mode.toNat % 2 * 0x8000 + a.reg.toNat * 0x1000 + b.mode.toNat * 0x200 + b.reg.toNat * 64 + x.toNat)) = some (.mm3 op dst a b x) := by
  have hop := op.code_lt
  obtain ⟨hone, hzero, hfive, hfour⟩ := mmOk_three h
  have hx : (x != 0) = (x.toNat != 0) := by simp [bne, BitVec.toNat_eq]
  simp (disch := omega) only [kDecode_mm, decodeMm, bits_ofNat (v := 1), bits_ofNat (v := op.code), fieldAt_ofNat (x := dst.mode),
    fieldAt_ofNat (x := dst.reg), fieldAt_ofNat (x := a.reg), fieldAt_ofNat (x := b.mode), fieldAt_ofNat (x := b.reg), fieldAt_ofNat (x := x),
    bits_ofNat (v := a.mode.toNat / 2), bits_ofNat (v := a.mode.toNat % 2), bits_ofNat (v := x.toNat / 8), ofNat_of_toNat (x := a.mode),
    m3OpOf_code, Option.map_some, hx, hone, hzero, hfive, hfour, one_ne_zero,
    Bool.false_eq_true, if_false]

/-! ### The round trip -/

/-- A short form that has an encoding is read back, whatever halfword follows it. -/
theorem kDecode_kEncode_short {i : KInstr} (hwf : i.wf = true) (hlen : i.len = 1) (h1 : Half) : kDecode (kEncode i).1 h1 = some i := by
  cases i with
  | dreg op d s => exact kDecode_dreg h1 op d s
  | dimm op d imm => cases op <;> exact kDecode_dimm h1 (_, _) (by decide) d imm
  | dsh op d u => cases op <;> exact kDecode_dsh h1 (_, _) (by decide) d u
  | areg op x y => exact kDecode_areg h1 op x y (fun hq => by simpa [KInstr.wf, hq] using hwf)
  | addqW x m => exact kDecode_addqW h1 x m
  | qreg op d s => exact kDecode_qreg h1 op d s
  | qsh op q u => cases op <;> exact kDecode_qsh h1 (_, _) (by decide) q u
  | addqL q m => exact kDecode_addqL h1 q m
  | divq d x => exact kDecode_divq h1 d x
  | ldB d n u => exact kDecode_ldB h1 d n u
  | stB d n u => exact kDecode_stB h1 d n u
  | ldW a n u => exact kDecode_ldW h1 a n u
  | stW a n u => exact kDecode_stW h1 a n u
  | ldL q n u => exact kDecode_ldL h1 q n u
  | stL q n u => exact kDecode_stL h1 q n u
  | cbP c cl r s k =>
    simp only [KInstr.wf, Bool.and_eq_true, bne_iff_ne] at hwf
    exact kDecode_cbP h1 c cl r s k hwf.1 hwf.2
  | jmpP k => exact kDecode_jmpP h1 k
  | callP k => exact kDecode_callP h1 k
  | tas d n => exact kDecode_tas h1 d n
  | lrB d n => exact kDecode_lrB h1 d n
  | scB d n => exact kDecode_scB h1 d n
  | repImm u => exact kDecode_repImm h1 u
  | repReg n => exact kDecode_repReg h1 n
  | sys imm => exact kDecode_sysCall h1 imm
  | brk imm => exact kDecode_brk h1 imm
  | waitev mask => exact kDecode_waitev h1 mask (by simpa [KInstr.wf] using hwf)
  | signal t => exact kDecode_signal h1 t
  | retP | ret | nop | yield | reti | iflush => rfl
  | mm2 | mm3 | cb | cbi | jmp | call | jmpI | callI | tbl | moviW | addiW | moviL | movhiL | addiL | bfx | bfi =>
    simp [KInstr.len] at hlen

/-- A form whose second halfword is an operand as it stands. -/
theorem kDecode_of_snd {i : KInstr} {h1 : Half} (hsnd : (kEncode i).2 = BitVec.ofNat 16 h1.toNat) (h : kDecode (kEncode i).1 h1 = some i) :
    kDecode (kEncode i).1 (kEncode i).2 = some i := by
  rw [hsnd, ofNat_of_toNat rfl, h]

/-- A long form that has an encoding is read back. -/
theorem kDecode_kEncode_long {i : KInstr} (hwf : i.wf = true) (hlen : i.len = 2) : kDecode (kEncode i).1 (kEncode i).2 = some i := by
  cases i with
  | mm2 op dst src x => exact kDecode_mm2 op dst src x hwf
  | mm3 op dst a b x => exact kDecode_mm3 op dst a b x hwf
  | cb c cl r s target =>
    simp only [KInstr.wf, Bool.and_eq_true, Bool.or_eq_true, bne_iff_ne, decide_eq_true_eq] at hwf
    obtain ⟨hok, hq⟩ := hwf
    cases cl with
    | d => exact kDecode_of_snd rfl (kDecode_cbD target c r s)
    | a => exact kDecode_of_snd rfl (kDecode_cbA target c r s hok)
    | q =>
      obtain ⟨hr, hs⟩ := hq.resolve_left (fun hn => hn rfl)
      exact kDecode_of_snd rfl (kDecode_cbQ target c r s hr hs)
  | cbi c r imm disp => exact kDecode_cbi c r imm disp
  | jmp target => exact kDecode_of_snd rfl (kDecode_jmp target)
  | call target => exact kDecode_of_snd rfl (kDecode_call target)
  | jmpI n => exact kDecode_jmpI n
  | callI n => exact kDecode_callI n
  | tbl k target => exact kDecode_of_snd rfl (kDecode_tbl target k)
  | moviW n imm => exact kDecode_of_snd rfl (kDecode_moviW imm n)
  | addiW n imm => exact kDecode_of_snd rfl (kDecode_addiW imm n)
  | moviL q imm => exact kDecode_of_snd rfl (kDecode_moviL imm q)
  | movhiL q imm => exact kDecode_of_snd rfl (kDecode_movhiL imm q)
  | addiL q imm => exact kDecode_of_snd rfl (kDecode_addiL imm q)
  | bfx d s pos wm1 => exact kDecode_bfx d s pos wm1 (of_decide_eq_true hwf)
  | bfi d s pos wm1 => exact kDecode_bfi d s pos wm1 (of_decide_eq_true hwf)
  | dreg | dimm | dsh | areg | addqW | qreg | qsh | addqL | divq | ldB | stB | ldW | stW | ldL | stL | cbP | jmpP | callP | retP | ret | tas
  | lrB | scB | repImm | repReg | nop | yield | reti | iflush | sys | brk | waitev | signal => simp [KInstr.len] at hlen

theorem len_eq_one_or_two (i : KInstr) : i.len = 1 ∨ i.len = 2 := by
  cases i <;> simp [KInstr.len]

/-- Settles O58: the forms of one halfword, then the forms of two. -/
theorem keeperEncodingRoundTrip : Obligations.KeeperEncodingRoundTrip := by
  intro i hwf
  rcases len_eq_one_or_two i with hlen | hlen
  · exact ⟨kDecode_kEncode_short hwf hlen _, fun _ => kDecode_kEncode_short hwf hlen⟩
  · have hdec := kDecode_kEncode_long hwf hlen
    refine ⟨hdec, fun hone => ?_⟩
    rw [kLen_of hdec, hlen] at hone
    exact absurd hone (by decide)

/-- Settles O59, word by word. -/
theorem keeperWords : Obligations.KeeperWords := by
  unfold Obligations.KeeperWords
  decide

end Sys2Proof.Machine
end

section
/-!
PROOF. The keeper's data, accumulator and division instructions: what each gives its destination (R124, R125, R127, R130).
-/
namespace Sys2Proof.Machine

/-! ### Encodings that spell nothing -/

theorem kDecode_dreg_undefined (d s : BitVec 3) (h1 : Half) :
    kDecode (BitVec.ofNat 16 (0x1F00 + d.toNat * 0x20 + s.toNat * 4)) h1 = none := by
  simp (disch := omega) only [kDecode_short, decodeShort, bits_ofNat (v := 1), bits_ofNat (v := 0), bits_ofNat (v := 15), if_true, dOpOf,
    Option.map_none]

theorem kDecode_qreg_undefined (d s : BitVec 2) (h1 : Half) :
    kDecode (BitVec.ofNat 16 (0x77F0 + d.toNat * 4 + s.toNat)) h1 = none := by
  simp (disch := omega) only [kDecode_acc, decodeAcc, bits_ofNat (v := 7), bits_ofNat (v := 15), qOpOf, Option.map_none]

/-! ### Values -/

theorem ofNat_min {w : Nat} (x y : BitVec w) : BitVec.ofNat w (min x.toNat y.toNat) = if x.toNat ≤ y.toNat then x else y := by
  rw [Nat.min_def, apply_ite (BitVec.ofNat w)]
  simp only [BitVec.ofNat_toNat, BitVec.setWidth_eq]

theorem ofNat_max {w : Nat} (x y : BitVec w) : BitVec.ofNat w (max x.toNat y.toNat) = if x.toNat ≤ y.toNat then y else x := by
  rw [Nat.max_def, apply_ite (BitVec.ofNat w)]
  simp only [BitVec.ofNat_toNat, BitVec.setWidth_eq]

/-- The low half of an accumulator, as the model takes it and as a width. -/
theorem ofNat_low_half (q : Long) : BitVec.ofNat 16 q.toNat = q.setWidth 16 := BitVec.ofNat_toNat 16 q

/-- The high half of an accumulator, as the model takes it and as a shift. -/
theorem ofNat_high_half (q : Long) : BitVec.ofNat 16 (q.toNat / 65536) = (q >>> 16).setWidth 16 := by
  rw [← BitVec.ofNat_toNat, BitVec.toNat_ushiftRight, Nat.shiftRight_eq_div_pow]

theorem sProd_eq (q : Long) : sProd q = BitVec.ofInt 32 ((q.setWidth 16).toInt * ((q >>> 16).setWidth 16).toInt) := by
  rw [sProd, ofNat_low_half, ofNat_high_half]

theorem uProd_eq (q : Long) : uProd q = BitVec.ofNat 32 ((q.setWidth 16).toNat * ((q >>> 16).setWidth 16).toNat) := by
  have hhigh : q.toNat / 65536 < 65536 := by have := q.isLt; omega
  rw [uProd, ← ofNat_low_half, ← ofNat_high_half, BitVec.toNat_ofNat, BitVec.toNat_ofNat, Nat.mod_eq_of_lt hhigh]

/-- DIVQ's result, by halves: the remainder above the quotient (R130). -/
theorem divqVal_some {q : Long} {a : Half} (ha : a.toNat ≠ 0) (hfits : q.toNat / 65536 < a.toNat) :
    divqVal q a = some (BitVec.ofNat 16 (q.toNat % a.toNat) ++ BitVec.ofNat 16 (q.toNat / a.toNat)) := by
  have hdivides : ¬ (a = 0 ∨ q.toNat / 65536 ≥ a.toNat) := by
    rintro (h | h)
    · exact ha (by rw [h]; rfl)
    · omega
  have hrem : q.toNat % a.toNat < 65536 := (Nat.mod_lt _ (Nat.pos_of_ne_zero ha)).trans a.isLt
  have hquo : q.toNat / a.toNat < 65536 := by
    rw [Nat.div_lt_iff_lt_mul (Nat.pos_of_ne_zero ha)]
    omega
  rw [divqVal, if_neg hdivides]
  congr 1
  apply BitVec.eq_of_toNat_eq
  rw [BitVec.toNat_append, BitVec.toNat_ofNat, BitVec.toNat_ofNat, BitVec.toNat_ofNat, Nat.mod_eq_of_lt hrem, Nat.mod_eq_of_lt hquo,
    ← Nat.shiftLeft_add_eq_or_of_lt hquo, Nat.shiftLeft_eq, Nat.mod_eq_of_lt (by omega)]

theorem divqVal_none {q : Long} {a : Half} (h : a.toNat = 0 ∨ a.toNat ≤ q.toNat / 65536) : divqVal q a = none := by
  rw [divqVal, if_pos]
  exact h.imp_left (fun h => BitVec.eq_of_toNat_eq h)

/-! ### What an instruction gives its destination -/

section
variable {s : State} {c : Fin 56} {t : Fin 8} {h0 h1 : Half}

theorem gives_dreg {op : DOp} {d r : BitVec 3} (h : Issues s c t (.dreg op d r) h0 h1) :
    GivesD s c t h0 1 d (dOpVal op ((s.th c t).getD d) ((s.th c t).getD r)) (done (kIssues s c t (.dreg op d r))) :=
  kStep_setD (v := fun th => dOpVal op (th.getD d) (th.getD r)) h (by simp) (by simp) (by simp) rfl

theorem gives_dimm {op : DImm} {d : BitVec 3} {imm : Byte} (h : Issues s c t (.dimm op d imm) h0 h1) :
    GivesD s c t h0 1 d (dImmVal op ((s.th c t).getD d) imm) (done (kIssues s c t (.dimm op d imm))) :=
  kStep_setD (v := fun th => dImmVal op (th.getD d) imm) h (by simp) (by simp) (by simp) rfl

theorem gives_dsh {op : DSh} {d u : BitVec 3} (h : Issues s c t (.dsh op d u) h0 h1) :
    GivesD s c t h0 1 d (dShVal op ((s.th c t).getD d) u.toNat) (done (kIssues s c t (.dsh op d u))) :=
  kStep_setD (v := fun th => dShVal op (th.getD d) u.toNat) h (by simp) (by simp) (by simp) rfl

theorem gives_qreg {op : QOp} {d r : BitVec 2} (h : Issues s c t (.qreg op d r) h0 h1) :
    GivesQ s c t h0 1 d (qOpVal op ((s.th c t).getQ d) ((s.th c t).getQ r)) (done (kIssues s c t (.qreg op d r))) :=
  kStep_setQ (v := fun th => qOpVal op (th.getQ d) (th.getQ r)) h (by simp) (by simp) (by simp) rfl

theorem gives_divq {d : BitVec 2} {x : BitVec 3} {v : Long} (h : Issues s c t (.divq d x) h0 h1)
    (hv : divqVal ((s.th c t).getQ d) ((s.th c t).getA x) = some v) :
    GivesQ s c t h0 17 d v (done (kIssues s c t (.divq d x))) :=
  kStep_setQ (v := fun _ => v) h (by simp) (by simp) (by simp) (by simp only [kEffect, hv])

/-- DIVQ without a quotient takes the DIV trap after its 17 cycles (R130). -/
theorem traps_divq {d : BitVec 2} {x : BitVec 3} (h : Issues s c t (.divq d x) h0 h1) (hinh : (s.th c t).inh = false)
    (hv : divqVal ((s.th c t).getQ d) ((s.th c t).getA x) = none) :
    TakesTrap s c t (done (kIssues s c t (.divq d x))) 2 17 (s.th c t).pc (fun th' => th'.xins = xinsOf h0 h1) := by
  have hissue : kIssue s c t (.divq d x) h0 h1 = syncTrap s c t 2 17 (s.th c t).pc (xinsOf h0 h1) none := by
    simp only [kIssue, kEffect, hv, Bool.false_and, Bool.false_eq_true, if_false]
    rfl
  rw [kStep_issue h, hissue]
  exact takes_mono (fun _ hx => hx.1) (syncTrap_takes 2 17 _ _ none hinh)

end

/-! ### The obligations -/

/-- Settles O1: the encodings by OP, then what each operation gives Dd. -/
theorem dataRegisterOperations : Obligations.DataRegisterOperations := by
  refine ⟨fun p hp d r h1 => ?enc, kDecode_dreg_undefined, ?vals⟩
  case enc =>
    have hcode : p.1 = p.2.code := by revert p; decide
    rw [hcode]
    exact kDecode_dreg h1 p.2 d r
  case vals =>
    rintro s c t d r h0 h1 x y rfl rfl
    rw [ofNat_min, ofNat_max]
    exact ⟨gives_dreg, gives_dreg, gives_dreg, gives_dreg, gives_dreg, gives_dreg, gives_dreg, gives_dreg, gives_dreg, gives_dreg, gives_dreg,
      gives_dreg, gives_dreg, gives_dreg, gives_dreg⟩

/-- Settles O2: the encodings, then what each operation gives Dd. -/
theorem dataImmediates : Obligations.DataImmediates := by
  refine ⟨fun p hp d imm h1 => kDecode_dimm h1 p hp d imm, fun p hp d u h1 => kDecode_dsh h1 p hp d u, ?vals⟩
  rintro s c t d u imm h0 h1 x rfl
  exact ⟨gives_dimm, gives_dimm, gives_dimm, gives_dimm, gives_dsh, gives_dsh, gives_dsh, gives_dsh, by simp [BitVec.rotateLeft_def, BitVec.ushiftRight_eq_zero]⟩

/-- Settles O4: the encodings by op, then what each operation gives Qd. -/
theorem accumulatorOperations : Obligations.AccumulatorOperations := by
  refine ⟨fun p hp d r h1 => ?enc, kDecode_qreg_undefined, ?vals⟩
  case enc =>
    have hcode : p.1 = p.2.code := by revert p; decide
    rw [hcode]
    exact kDecode_qreg h1 p.2 d r
  case vals =>
    rintro s c t d r h0 h1 x y sp up rfl rfl rfl rfl
    rw [← sProd_eq, ← uProd_eq]
    exact ⟨gives_qreg, gives_qreg, gives_qreg, gives_qreg, gives_qreg, gives_qreg, gives_qreg, gives_qreg, gives_qreg, gives_qreg, gives_qreg,
      gives_qreg, gives_qreg, gives_qreg, gives_qreg⟩

/-- Settles O5: the quotient and the remainder, or the trap. -/
theorem divqDividesOrTraps : Obligations.DivqDividesOrTraps := by
  rintro s c t d x h0 h1 q a rfl rfl h
  exact ⟨fun ha hfits => gives_divq h (divqVal_some ha hfits), fun hnone hinh => traps_divq h hinh (divqVal_none hnone)⟩

/-- Settles O8: each mode as the form gives it. -/
theorem operandModes : Obligations.OperandModes := by
  intro a d r x
  refine ⟨rfl, rfl, rfl, rfl, fun m => ?_, rfl, rfl, rfl⟩
  have hm : m.toNat % 8 = m.toNat := Nat.mod_eq_of_lt m.isLt
  simp [formOpnd, hm]

end Sys2Proof.Machine
end

section
/-!
PROOF. The keeper's address register operations and transfers, accumulator immediates, long immediates and bit fields (R126, R128, R129).
-/
namespace Sys2Proof.Machine

/-! ### Encodings that spell nothing -/

section
variable (h1 : Half)

theorem kDecode_areg_undefined : ∀ p ∈ [0x7000, 0x7100, 0x7200, 0x7400], ∀ (z : BitVec 2) (x y : BitVec 3), z ≠ 0 →
    kDecode (BitVec.ofNat 16 (p + z.toNat * 0x40 + x.toNat * 8 + y.toNat)) h1 = none := by
  intro p hp z x y hz
  have hz' : z.toNat ≠ 0 := fun h => hz (BitVec.eq_of_toNat_eq h)
  fin_cases hp <;>
    simp (disch := omega) only [kDecode_acc, decodeAcc, bits_ofNat (v := 0), bits_ofNat (v := 1), bits_ofNat (v := 2), bits_ofNat (v := 4),
      bits_ofNat (v := z.toNat), hz', if_false]

theorem kDecode_immW_undefined : ∀ p ∈ [0xD000, 0xD200], ∀ (z : BitVec 6) (n : BitVec 3), z ≠ 0 →
    kDecode (BitVec.ofNat 16 (p + z.toNat * 8 + n.toNat)) h1 = none := by
  intro p hp z n hz
  have hz' : z.toNat ≠ 0 := fun h => hz (BitVec.eq_of_toNat_eq h)
  fin_cases hp <;>
    simp (disch := omega) only [kDecode_imm, decodeImm, bits_ofNat (v := 0), bits_ofNat (v := 1), bits_ofNat (v := z.toNat), hz', if_false]

theorem kDecode_immL_undefined : ∀ p ∈ [0xD400, 0xD600, 0xD800], ∀ (z : BitVec 7) (q : BitVec 2), z ≠ 0 →
    kDecode (BitVec.ofNat 16 (p + z.toNat * 4 + q.toNat)) h1 = none := by
  intro p hp z q hz
  have hz' : z.toNat ≠ 0 := fun h => hz (BitVec.eq_of_toNat_eq h)
  fin_cases hp <;>
    simp (disch := omega) only [kDecode_imm, decodeImm, bits_ofNat (v := 2), bits_ofNat (v := 3), bits_ofNat (v := 4),
      bits_ofNat (v := z.toNat), hz', if_false]

theorem kDecode_bitField_undefined (d r : BitVec 2) (pos wm1 : BitVec 5) (z : BitVec 11)
    (h : 32 < pos.toNat + wm1.toNat + 1 ∨ z.setWidth 10 ≠ (0 : BitVec 10)) :
    kDecode (BitVec.ofNat 16 (0xDA00 + d.toNat * 0x80 + r.toNat * 0x20 + pos.toNat)) (BitVec.ofNat 16 (wm1.toNat * 0x800 + z.toNat)) =
      none := by
  have hbad : z.toNat % 1024 ≠ 0 ∨ 32 < pos.toNat + wm1.toNat + 1 := h.symm.imp_left (fun hz hmod => hz (BitVec.eq_of_toNat_eq hmod))
  simp (disch := omega) only [kDecode_imm, decodeImm, bits_ofNat (v := 5), bits_ofNat (v := z.toNat % 1024), bits_ofNat (v := pos.toNat),
    bits_ofNat (v := wm1.toNat), ne_eq, hbad, if_true]

theorem kDecode_afterBitFields (z : BitVec 10) : kDecode (BitVec.ofNat 16 (0xDC00 + z.toNat)) h1 = none := by
  obtain hz | hz : z.toNat / 512 = 0 ∨ z.toNat / 512 = 1 := by omega
  · simp (disch := omega) only [kDecode_imm, decodeImm, bits_ofNat (v := 6)]
  · simp (disch := omega) only [kDecode_imm, decodeImm, bits_ofNat (v := 7)]

end

/-! ### Values -/

theorem ofNat_byte_above (x : Half) (b : Byte) : BitVec.ofNat 16 (b.toNat * 256 + x.toNat % 256) = b ++ x.setWidth 8 := by
  apply BitVec.eq_of_toNat_eq
  rw [BitVec.toNat_append, ← Nat.shiftLeft_add_eq_or_of_lt (BitVec.isLt _), BitVec.toNat_setWidth, BitVec.toNat_ofNat, Nat.shiftLeft_eq]
  omega

theorem ofNat_half_above (imm : Half) (x : Long) : BitVec.ofNat 32 (imm.toNat * 65536 + x.toNat % 65536) = imm ++ x.setWidth 16 := by
  apply BitVec.eq_of_toNat_eq
  rw [BitVec.toNat_append, ← Nat.shiftLeft_add_eq_or_of_lt (BitVec.isLt _), BitVec.toNat_setWidth, BitVec.toNat_ofNat, Nat.shiftLeft_eq]
  omega

theorem ofNat_shifted_out (q : Long) : BitVec.ofNat 32 (q.toNat * 256) = q <<< 8 := by
  apply BitVec.eq_of_toNat_eq
  rw [BitVec.toNat_ofNat, BitVec.toNat_shiftLeft, Nat.shiftLeft_eq]

theorem ofNat_shifted_in (q : Long) (b : Byte) : BitVec.ofNat 32 (q.toNat * 256 + b.toNat) = q <<< 8 ||| b.setWidth 32 := by
  have hdisj : q <<< 8 &&& b.setWidth 32 = 0#32 := by
    ext i hi
    simp
    grind
  rw [← BitVec.add_eq_or_of_and_eq_zero _ _ hdisj, BitVec.ofNat_add, ofNat_shifted_out, BitVec.ofNat_toNat]

theorem ofNat_high_byte (x : Half) : BitVec.ofNat 8 (x.toNat / 256) = (x >>> 8).setWidth 8 := by
  rw [← BitVec.ofNat_toNat, BitVec.toNat_ushiftRight, Nat.shiftRight_eq_div_pow]

theorem ofNat_top_byte (q : Long) : BitVec.ofNat 8 (q.toNat / 2 ^ 24) = (q >>> 24).setWidth 8 := by
  rw [← BitVec.ofNat_toNat, BitVec.toNat_ushiftRight, Nat.shiftRight_eq_div_pow]

theorem getLsbD_bfxVal (y : Long) (pos wm1 : BitVec 5) (i : Nat) :
    (bfxVal y pos.toNat (wm1.toNat + 1)).getLsbD i = (decide (i ≤ wm1.toNat) && y.getLsbD (pos.toNat + i)) := by
  rw [bfxVal, BitVec.getLsbD_ofNat, Nat.testBit_mod_two_pow, Nat.testBit_div_two_pow, Nat.add_comm i, ← Bool.and_assoc]
  congr 1
  simp only [← Bool.decide_and, decide_eq_decide]
  omega

/-- Clearing the bits of a mask. -/
theorem ofNat_sub_and (d : Long) (m : Nat) : BitVec.ofNat 32 (d.toNat - (d.toNat &&& m)) = d &&& ~~~ BitVec.ofNat 32 m := by
  have hsplit : (d &&& ~~~ BitVec.ofNat 32 m) + (d &&& BitVec.ofNat 32 m) = d := by
    rw [BitVec.add_eq_or_of_and_eq_zero]
    · ext i hi; simp; grind
    · ext i hi; simp; grind
  have hmask : BitVec.ofNat 32 (d.toNat &&& m) = d &&& BitVec.ofNat 32 m := by
    ext i hi
    simp
  have hsum : BitVec.ofNat 32 (d.toNat - (d.toNat &&& m)) + (d &&& BitVec.ofNat 32 m) = d := by
    rw [← hmask, ← BitVec.ofNat_add, Nat.sub_add_cancel Nat.and_le_left, BitVec.ofNat_toNat, BitVec.setWidth_eq]
  exact add_right_cancel (hsum.trans hsplit.symm)

/-- The bits that a field of `w` bits at `pos` covers. -/
theorem testBit_fieldMask (w pos i : Nat) : ((2 ^ w - 1) * 2 ^ pos).testBit i = decide (pos ≤ i ∧ i < pos + w) := by
  rw [Nat.testBit_mul_two_pow, Nat.testBit_two_pow_sub_one, ← Bool.decide_and, decide_eq_decide]
  omega

theorem getLsbD_bfiVal (d y : Long) (pos wm1 : BitVec 5) (i : Nat) (hi : i < 32) :
    (bfiVal d y pos.toNat (wm1.toNat + 1)).getLsbD i =
      (if pos.toNat ≤ i ∧ i ≤ pos.toNat + wm1.toNat then y.getLsbD (i - pos.toNat) else d.getLsbD i) := by
  have hin (j : Nat) : (y.toNat % 2 ^ (wm1.toNat + 1) * 2 ^ pos.toNat).testBit j =
      (decide (pos.toNat ≤ j ∧ j < pos.toNat + (wm1.toNat + 1)) && y.getLsbD (j - pos.toNat)) := by
    rw [Nat.testBit_mul_two_pow, Nat.testBit_mod_two_pow, ← Bool.and_assoc, ← Bool.decide_and]
    congr 1
    rw [decide_eq_decide]
    omega
  rw [bfiVal, BitVec.ofNat_add, ofNat_sub_and, BitVec.add_eq_or_of_and_eq_zero]
  · simp only [BitVec.getLsbD_or, BitVec.getLsbD_and, BitVec.getLsbD_not, BitVec.getLsbD_ofNat, hin, testBit_fieldMask, hi, decide_true,
      Bool.true_and]
    by_cases h : pos.toNat ≤ i ∧ i < pos.toNat + (wm1.toNat + 1)
    · rw [if_pos (by omega)]
      simp [h]
    · rw [if_neg (by omega)]
      simp [h]
  · refine BitVec.eq_of_getLsbD_eq (fun j hj => ?_)
    simp only [BitVec.getLsbD_and, BitVec.getLsbD_not, BitVec.getLsbD_ofNat, hin, testBit_fieldMask]
    cases decide (pos.toNat ≤ j ∧ j < pos.toNat + (wm1.toNat + 1)) <;> simp

/-! ### Address register operations and transfers, one by one (R126) -/

section
variable (th : Thread) (x y : BitVec 3) (q : BitVec 2)

theorem toNat_onQ : (q.setWidth 3).toNat = q.toNat := BitVec.toNat_setWidth_of_le (by decide)

theorem setWidth_onQ : BitVec.setWidth 2 (q.setWidth 3) = q := by
  rw [← BitVec.ofNat_toNat, ofNat_of_toNat (toNat_onQ q)]

theorem kAreg_addxW : kAreg th .addxW x y = th.setA x (th.getA x + (th.getD y).setWidth 16) := by
  simp only [kAreg, BitVec.ofNat_toNat]
theorem kAreg_movlB : kAreg th .movlB x y = th.setD x ((th.getA y).setWidth 8) := by
  simp only [kAreg, BitVec.ofNat_toNat]
theorem kAreg_movhB : kAreg th .movhB x y = th.setD x ((th.getA y >>> 8).setWidth 8) := by
  simp only [kAreg, ofNat_high_byte]
theorem kAreg_movzW : kAreg th .movzW x y = th.setA x ((th.getD y).setWidth 16) := by
  simp only [kAreg, BitVec.ofNat_toNat]
theorem kAreg_inshW : kAreg th .inshW x y = th.setA x (th.getD y ++ (th.getA x).setWidth 8) := by
  simp only [kAreg, ofNat_byte_above]
theorem kAreg_movzLD : kAreg th .movzLD (q.setWidth 3) y = th.setQ q ((th.getD y).setWidth 32) := by
  simp only [kAreg, BitVec.ofNat_toNat, setWidth_onQ]
theorem kAreg_movsLD : kAreg th .movsLD (q.setWidth 3) y = th.setQ q ((th.getD y).signExtend 32) := by
  simp only [kAreg, BitVec.ofNat_toNat, setWidth_onQ, BitVec.signExtend]
theorem kAreg_movzLA : kAreg th .movzLA (q.setWidth 3) y = th.setQ q ((th.getA y).setWidth 32) := by
  simp only [kAreg, BitVec.ofNat_toNat, setWidth_onQ]
theorem kAreg_movsLA : kAreg th .movsLA (q.setWidth 3) y = th.setQ q ((th.getA y).signExtend 32) := by
  simp only [kAreg, BitVec.ofNat_toNat, setWidth_onQ, BitVec.signExtend]
theorem kAreg_movBQ : kAreg th .movBQ (q.setWidth 3) y = th.setD y ((th.getQ q).setWidth 8) := by
  simp only [kAreg, BitVec.ofNat_toNat, setWidth_onQ]
theorem kAreg_movWQ : kAreg th .movWQ (q.setWidth 3) y = th.setA y ((th.getQ q).setWidth 16) := by
  simp only [kAreg, BitVec.ofNat_toNat, setWidth_onQ]
theorem kAreg_shinL : kAreg th .shinL (q.setWidth 3) y = th.setQ q (th.getQ q <<< 8 ||| (th.getD y).setWidth 32) := by
  simp only [kAreg, BitVec.ofNat_toNat, setWidth_onQ, ofNat_shifted_in]
theorem kAreg_shoutL : kAreg th .shoutL (q.setWidth 3) y = (th.setD y ((th.getQ q >>> 24).setWidth 8)).setQ q (th.getQ q <<< 8) := by
  simp only [kAreg, BitVec.ofNat_toNat, setWidth_onQ, ofNat_shifted_out, ofNat_top_byte]

end

/-! ### What an instruction gives its destination -/

section
variable {s : State} {c : Fin 56} {t : Fin 8} {h0 h1 : Half} {i : KInstr}

/-- An effect on the thread is what it makes of the thread as it is. -/
theorem kReg_congr {f g : Thread → Thread} (h : f (s.th c t) = g (s.th c t)) : kReg s c t f = kReg s c t g := by
  rw [kReg, kReg, State.modTh_const, h, ← State.modTh_const]

section
variable {op : AOp} {x y : BitVec 3} (h : Issues s c t (.areg op x y) h0 h1)
include h

theorem givesA_areg {n : BitVec 3} {v : Half} (hv : kAreg (s.th c t) op x y = (s.th c t).setA n v) :
    GivesA s c t h0 1 n v (done (kIssues s c t (.areg op x y))) :=
  kStep_setA (v := fun _ => v) h (by simp) (by simp) (by simp) (kReg_congr hv)

theorem givesD_areg {d : BitVec 3} {v : Byte} (hv : kAreg (s.th c t) op x y = (s.th c t).setD d v) :
    GivesD s c t h0 1 d v (done (kIssues s c t (.areg op x y))) :=
  kStep_setD (v := fun _ => v) h (by simp) (by simp) (by simp) (kReg_congr hv)

theorem givesQ_areg {q : BitVec 2} {v : Long} (hv : kAreg (s.th c t) op x y = (s.th c t).setQ q v) :
    GivesQ s c t h0 1 q v (done (kIssues s c t (.areg op x y))) :=
  kStep_setQ (v := fun _ => v) h (by simp) (by simp) (by simp) (kReg_congr hv)

end

/-- A write of a data register and of an accumulator keeps every other register. -/
theorem setD_setQ_regsKept (th : Thread) (d : BitVec 3) (v : Byte) (q : BitVec 2) (w : Long) :
    RegsKept th ((th.setD d v).setQ q w) [.d d, .q q] :=
  ⟨fun _ hi _ => Thread.setD_getD_ne th v (fun e => hi (by simp [e])), fun _ _ _ => rfl,
    fun _ hi _ => Thread.setQ_getQ_ne (th.setD d v) w (fun e => hi (by simp [e]))⟩

theorem setD_setQ_loads {th : Thread} {d : BitVec 3} {v : Byte} {q : BitVec 2} {w : Long} {l : PendLoad}
    (hl : l ∈ ((th.setD d v).setQ q w).loads) : l ∈ (th.setD d v).loads := setQ_loads (th.setD d v) q w l hl

/-- SHOUT_L writes a data register and the accumulator it shifts (R126). -/
theorem gives_shoutL {q : BitVec 2} {y : BitVec 3} (h : Issues s c t (.areg .shoutL (q.setWidth 3) y) h0 h1) :
    OnlyThread s c t (done (kIssues s c t (.areg .shoutL (q.setWidth 3) y))) (fun th' =>
      th'.getD y = ((s.th c t).getQ q >>> 24).setWidth 8 ∧ th'.getQ q = (s.th c t).getQ q <<< 8 ∧
      FallsKeeping (s.th c t) th' (kLen h0) 1 [.d y, .q q]) := by
  refine onlyThread_mono (kStep_reg h (by simp) (by simp) (by simp) rfl) ?_
  rintro _ rfl
  rw [kAreg_shoutL]
  refine ⟨?_, ?_, fallsKeeping rfl rfl rfl (fun l hl => setD_loads _ _ _ l (setD_setQ_loads hl)) (setD_setQ_regsKept _ _ _ _ _) rfl⟩
  · rw [fallThrough_aged_getD (fun l hl => setD_noLoad _ _ _ l (setD_setQ_loads hl))]
    simp
  · rw [fallThrough_aged_getQ (setQ_noLoad _ _ _)]
    simp

theorem gives_qsh {op : QSh} {q : BitVec 2} {u : BitVec 5} (h : Issues s c t (.qsh op q u) h0 h1) :
    GivesQ s c t h0 1 q (qShVal op ((s.th c t).getQ q) u.toNat) (done (kIssues s c t (.qsh op q u))) :=
  kStep_setQ (v := fun th => qShVal op (th.getQ q) u.toNat) h (by simp) (by simp) (by simp) rfl

end

/-! ### The obligation -/

theorem AOp.code_onA : ∀ p ∈ [(0x7000, AOp.movW), (0x7100, .addW), (0x7200, .subW), (0x7400, .addxW), (0x7500, .movlB), (0x7540, .movhB),
    (0x7580, .movzW), (0x75C0, .inshW)], p.2.onQ = false ∧ ∀ x y : Nat, p.1 + x * 8 + y = 0x7000 + p.2.code x y := by
  intro p hp
  fin_cases hp <;> exact ⟨rfl, fun x y => by simp only [AOp.code]; omega⟩

theorem AOp.code_onQ : ∀ p ∈ [(0x7600, AOp.movzLD), (0x7620, .movsLD), (0x7640, .movzLA), (0x7660, .movsLA), (0x7680, .movBQ), (0x76A0, .movWQ),
    (0x76C0, .shinL), (0x76E0, .shoutL)], ∀ x y : Nat, p.1 + x * 8 + y = 0x7000 + p.2.code x y := by
  intro p hp
  fin_cases hp <;> exact fun x y => by simp only [AOp.code]; omega

/-- Settles O3: in each half the encodings, what spells nothing, then what each instruction gives its destination. -/
theorem addressAndLongForms : Obligations.AddressAndLongForms := by
  refine ⟨⟨fun p hp x y h1 => ?encA, fun x m h1 => kDecode_addqW h1 x m, fun p hp q y h1 => ?encQ,
      fun p hp z x y h1 => kDecode_areg_undefined h1 p hp z x y, ?valsA⟩,
    fun p hp q u h1 => kDecode_qsh h1 p hp q u, fun q m h1 => kDecode_addqL h1 q m,
    fun n imm => ⟨kDecode_moviW imm n, kDecode_addiW imm n⟩,
    fun q imm => ⟨kDecode_moviL imm q, kDecode_movhiL imm q, kDecode_addiL imm q⟩,
    fun p hp z n h1 => kDecode_immW_undefined h1 p hp z n, fun p hp z q h1 => kDecode_immL_undefined h1 p hp z q,
    fun d r pos wm1 => ⟨fun h => ⟨kDecode_bfx d r pos wm1 h, kDecode_bfi d r pos wm1 h⟩, kDecode_bitField_undefined d r pos wm1⟩,
    fun z h1 => kDecode_afterBitFields h1 z, ?valsL⟩
  case encA =>
    obtain ⟨hq, hcode⟩ := AOp.code_onA p hp
    rw [hcode]
    exact kDecode_areg h1 p.2 x y (by simp [hq])
  case encQ =>
    rw [AOp.code_onQ p hp, ← toNat_onQ]
    exact kDecode_areg h1 p.2 _ y (fun _ => (toNat_onQ q).trans_lt q.isLt)
  case valsA =>
    rintro s c t x y q m h0 h1 ax ay dy qv rfl rfl rfl rfl
    exact ⟨fun h => givesA_areg h rfl, fun h => givesA_areg h rfl, fun h => givesA_areg h rfl,
      fun h => kStep_setA (v := fun th => th.getA x + m.signExtend 16) h (by simp) (by simp) (by simp) rfl,
      fun h => givesA_areg h (kAreg_addxW _ x y), fun h => givesD_areg h (kAreg_movlB _ x y), fun h => givesD_areg h (kAreg_movhB _ x y),
      fun h => givesA_areg h (kAreg_movzW _ x y), fun h => givesA_areg h (kAreg_inshW _ x y), fun h => givesQ_areg h (kAreg_movzLD _ y q),
      fun h => givesQ_areg h (kAreg_movsLD _ y q), fun h => givesQ_areg h (kAreg_movzLA _ y q), fun h => givesQ_areg h (kAreg_movsLA _ y q),
      fun h => givesD_areg h (kAreg_movBQ _ y q), fun h => givesA_areg h (kAreg_movWQ _ y q), fun h => givesQ_areg h (kAreg_shinL _ y q),
      gives_shoutL⟩
  case valsL =>
    rintro s c t n q r u pos wm1 m imm h0 h1 an x y rfl rfl rfl
    refine ⟨gives_qsh, gives_qsh, gives_qsh, gives_qsh,
      fun h => kStep_setQ (v := fun th => th.getQ q + m.signExtend 32) h (by simp) (by simp) (by simp) rfl,
      fun h => kStep_setA (v := fun _ => imm) h (by simp) (by simp) (by simp) rfl,
      fun h => kStep_setA (v := fun th => th.getA n + imm) h (by simp) (by simp) (by simp) rfl,
      fun h => kStep_setQ (v := fun _ => imm.signExtend 32) h (by simp) (by simp) (by simp) rfl,
      fun h => kStep_setQ (v := fun th => imm ++ (th.getQ q).setWidth 16) h (by simp) (by simp) (by simp) ?movhi,
      fun h => kStep_setQ (v := fun th => th.getQ q + imm.signExtend 32) h (by simp) (by simp) (by simp) rfl,
      fun h => ⟨_, kStep_setQ (v := fun th => bfxVal (th.getQ r) pos.toNat (wm1.toNat + 1)) h (by simp) (by simp) (by simp) rfl,
        getLsbD_bfxVal _ pos wm1⟩,
      fun h => ⟨_, kStep_setQ (v := fun th => bfiVal (th.getQ q) (th.getQ r) pos.toNat (wm1.toNat + 1)) h (by simp) (by simp) (by simp) rfl,
        getLsbD_bfiVal _ _ pos wm1⟩⟩
    case movhi => simp only [kEffect, ofNat_half_above]

end Sys2Proof.Machine
end

section
/-!
PROOF. The keeper's near loads and stores and its memory-to-memory forms (R118, R119, R131, R133, R134).
-/
namespace Sys2Proof.Machine

/-! ### A load on its way (R119) -/

/-- The thread with other loads on their way. -/
def Thread.withLoads (ls : List PendLoad) (th : Thread) : Thread := { th with loads := ls }

theorem Thread.commitLoad_withLoads (th : Thread) (ls : List PendLoad) (l : PendLoad) :
    (th.withLoads ls).commitLoad l = (th.commitLoad l).withLoads ls := by
  unfold Thread.commitLoad
  split <;> rfl

theorem Thread.commits_withLoads (th : Thread) (ls : List PendLoad) (xs : List PendLoad) :
    xs.foldl Thread.commitLoad (th.withLoads ls) = (xs.foldl Thread.commitLoad th).withLoads ls := by
  induction xs generalizing th with
  | nil => rfl
  | cons l xs ih => rw [List.foldl_cons, Thread.commitLoad_withLoads, ih, List.foldl_cons]

/-- A load issues and is aged once by its own instruction: it is then one of the loads on their way, and nothing else differs. -/
theorem Thread.ageLoads_addLoad (th : Thread) {delay : Nat} (hdelay : 1 ≤ delay) (dst : LoadDst) (v : Long) :
    (th.addLoad delay dst v).ageLoads = (th.dropLoad dst).ageLoads.withLoads ((th.dropLoad dst).ageLoads.loads ++ [⟨delay, dst, v⟩]) := by
  have hlate : ¬ delay + 1 ≤ 1 := by omega
  have hgoes : 1 < delay + 1 := by omega
  have hadd : th.addLoad delay dst v = (th.dropLoad dst).withLoads ((th.dropLoad dst).loads ++ [⟨delay + 1, dst, v⟩]) := rfl
  have hloads (x : Thread) (ls : List PendLoad) : (x.withLoads ls).loads = ls := rfl
  rw [hadd]
  unfold Thread.ageLoads
  simp only [hloads, List.filter_append, List.filter_cons, List.filter_nil, hlate, hgoes, decide_true, decide_false, Bool.false_eq_true,
    if_true, if_false, List.append_nil, List.map_append, List.map_cons, List.map_nil, Nat.add_sub_cancel, Thread.commits_withLoads]
  rfl

theorem advancePc_withLoads (k : Keeper) (th : Thread) (pc : Half) (ls : List PendLoad) :
    advancePc k (th.withLoads ls) pc = (advancePc k th pc).withLoads ls := by
  by_cases hcur : th.cur.map Line.num = some (pc.toNat / 16)
  · simp only [advancePc, Thread.withLoads, hcur, if_true]
  · by_cases hnxt : th.nxt.map Line.num = some (pc.toNat / 16)
    · simp only [advancePc, Thread.withLoads, hcur, hnxt, if_true, if_false]
    · simp only [advancePc, Thread.withLoads, hcur, hnxt, if_false, loadLines]

/-- After the last repetition a thread that is to be left YIELDED is YIELDED (R159). -/
def Thread.rested (th : Thread) : Thread := if th.yldAfter then { th with st := .yielded, yldAfter := false } else th

theorem Thread.rested_withLoads (th : Thread) (ls : List PendLoad) : (th.withLoads ls).rested = th.rested.withLoads ls := by
  rw [Thread.rested, Thread.rested, apply_ite (Thread.withLoads ls)]
  rfl

theorem fallThrough_of_last (k : Keeper) {th : Thread} {n : Nat} (hrep : th.rep = some n) (hn : n ≤ 1) (len : Nat) :
    fallThrough k th len = (advancePc k { th with rep := none } (th.pc + BitVec.ofNat 16 len)).rested := by
  simp only [fallThrough, hrep, hn, if_true]
  rfl

theorem fallThrough_withLoads (k : Keeper) (th : Thread) (len : Nat) (ls : List PendLoad) :
    fallThrough k (th.withLoads ls) len = (fallThrough k th len).withLoads ls := by
  cases hrep : th.rep with
  | none =>
    have hrep' : (th.withLoads ls).rep = none := hrep
    simp only [fallThrough, hrep, hrep']
    exact advancePc_withLoads k th _ ls
  | some n =>
    have hrep' : (th.withLoads ls).rep = some n := hrep
    by_cases hn : n ≤ 1
    · rw [fallThrough_of_last k hrep hn, fallThrough_of_last k hrep' hn, ← Thread.rested_withLoads]
      exact congrArg Thread.rested (advancePc_withLoads k { th with rep := none } _ ls)
    · simp only [fallThrough, hrep, hrep', hn, if_false]
      rfl

/-- Which loads are on their way is no part of what falling through keeps. -/
theorem fallsKeeping_withLoads {th th' : Thread} {len cyc : Nat} {ws : List LoadDst} (h : FallsKeeping th th' len cyc ws)
    (ls : List PendLoad) : FallsKeeping th (th'.withLoads ls) len cyc ws := by
  obtain ⟨hused, hfalls, hregs, hsys, hrests⟩ := h
  exact ⟨hused, hfalls, hregs, congrArg (Thread.withLoads ls) hsys, hrests⟩

section
variable {s s1 : State} {c : Fin 56} {t : Fin 8} {i : KInstr} {h0 h1 : Half}

/-- An instruction that has an effect beyond its thread, then one on its thread, and falls through. -/
theorem kStep_on {f : Thread → Thread} (h : Issues s c t i h0 h1) (hr : ∀ u, i ≠ .repImm u) (hr' : ∀ n, i ≠ .repReg n) (hf : i ≠ .iflush)
    (he : kEffect s c t (kLen h0) i = .next (s1.modTh c t f)) :
    OnlyThread s1 c t (done (kIssues s c t i)) (fun th' => th' = fallThrough (s1.kp c)
      (({ f (s1.th c t) with used := (f (s1.th c t)).used + kCycles i } : Thread).ageLoads) (kLen h0)) := by
  have hnext := kStep_next h hr hr' hf he
  rw [State.th_modTh, State.modTh_kp] at hnext
  exact onlyThread_of_modTh hnext

/-- An instruction that sends a value on its way to a register. -/
theorem kStep_addLoad {delay : Nat} {dst : LoadDst} {v : Long} (h : Issues s c t i h0 h1) (hr : ∀ u, i ≠ .repImm u)
    (hr' : ∀ n, i ≠ .repReg n) (hf : i ≠ .iflush) (hdelay : 1 ≤ delay)
    (he : kEffect s c t (kLen h0) i = .next (s1.modTh c t (fun th => th.addLoad delay dst v))) :
    OnlyThread s1 c t (done (kIssues s c t i)) (fun th' =>
      ⟨delay, dst, v⟩ ∈ th'.loads ∧ FallsKeeping (s1.th c t) th' i.len (kCycles i) []) := by
  refine onlyThread_mono (kStep_on h hr hr' hf he) ?_
  rintro _ rfl
  generalize s1.th c t = th
  have haged := ({ th with used := th.used + kCycles i } : Thread).ageLoads_addLoad hdelay dst v
  change (({ th.addLoad delay dst v with used := (th.addLoad delay dst v).used + kCycles i } : Thread).ageLoads) = _ at haged
  rw [haged, fallThrough_withLoads, kLen_of_issues h]
  refine ⟨List.mem_append_right _ List.mem_cons_self, fallsKeeping_withLoads ?_ _⟩
  exact fallsKeeping (g := th.dropLoad dst) rfl rfl rfl (fun _ hl => List.mem_of_mem_filter hl)
    ⟨fun _ _ _ => rfl, fun _ _ _ => rfl, fun _ _ _ => rfl⟩ rfl

/-- An instruction whose access leaves its region takes the ALIGN trap (R118, R158). -/
theorem takesTrap_align {x : Nat} (h : Issues s c t i h0 h1) (hinh : (s.th c t).inh = false) (hr : ∀ u, i ≠ .repImm u)
    (hr' : ∀ n, i ≠ .repReg n) (he : kEffect s c t (kLen h0) i = .trap causeAlign (some x)) :
    TakesTrap s c t (done (kIssues s c t i)) 1 1 (s.th c t).pc (fun th' => th'.xaddr = BitVec.ofNat 16 x ∧ th'.xov = decide (0xFFFF < x)) :=
  takes_mono (fun _ hx => hx.2 x rfl) (kStep_trap h hinh hr hr' (.inl rfl) he)

end

/-! ### Near loads and stores (R131) -/

theorem loadDelay_pos (a : Nat) : 1 ≤ loadDelay a := by
  unfold loadDelay
  split <;> decide

theorem isIo_iff (a : Nat) : isIo a = true ↔ regionOf a = some .io := by
  simp only [isIo, decide_eq_true_eq, regionOf]
  grind

section
variable {s : State} {c : Fin 56} {t : Fin 8} {h0 h1 : Half} {a n : Nat}

theorem kLoad_reads (hal : alignFail none a n = none) (hgood : readPoisoned s c t a n = false) (dst : LoadDst) :
    kLoad s c t a n dst = .next ((dataRead s c t a n).2.modTh c t (fun th =>
      th.addLoad (loadDelay a) dst (BitVec.ofNat 32 (leNat (dataRead s c t a n).1)))) := by
  simp only [kLoad, hal, hgood, Bool.false_eq_true, if_false, kReg]

theorem kLoad_fails {x : Nat} (hal : alignFail none a n = some x) (dst : LoadDst) : kLoad s c t a n dst = .trap causeAlign (some x) := by
  simp only [kLoad, hal]

theorem kStore_writes (hal : alignFail none a n = none) (hgood : dataPoisoned s c t a n = false) (v : Nat) :
    kStore s c t a n v = .next (dataWrite s c t a (leBytes n v)) := by
  simp only [kStore, hal, hgood, Bool.false_eq_true, if_false]

theorem kStore_fails {x : Nat} (hal : alignFail none a n = some x) (v : Nat) : kStore s c t a n v = .trap causeAlign (some x) := by
  simp only [kStore, hal]

variable {i : KInstr}

/-- What a near load does, in its region and out of it. -/
theorem nearLoad {dst : LoadDst} (h : Issues s c t i h0 h1) (hr : ∀ u, i ≠ .repImm u) (hr' : ∀ n, i ≠ .repReg n) (hf : i ≠ .iflush)
    (he : ∀ len, kEffect s c t len i = kLoad s c t a n dst) (hcyc : kCycles i = 1) (hlen : i.len = 1) :
    (alignFail none a n = none → readPoisoned s c t a n = false →
      OnlyThread (dataRead s c t a n).2 c t (done (kIssues s c t i)) (fun th' =>
        ⟨loadDelay a, dst, BitVec.ofNat 32 (leNat (dataRead s c t a n).1)⟩ ∈ th'.loads ∧
        FallsKeeping ((dataRead s c t a n).2.th c t) th' 1 1 [])) ∧
    (∀ x, alignFail none a n = some x → (s.th c t).inh = false → TakesTrap s c t (done (kIssues s c t i)) 1 1 (s.th c t).pc (fun th' =>
      th'.xaddr = BitVec.ofNat 16 x ∧ th'.xov = decide (0xFFFF < x))) := by
  refine ⟨fun hal hgood => ?_, fun x hal hinh => takesTrap_align h hinh hr hr' ((he _).trans (kLoad_fails hal dst))⟩
  have hload := kStep_addLoad h hr hr' hf (loadDelay_pos a) ((he _).trans (kLoad_reads hal hgood dst))
  rwa [hcyc, hlen] at hload

/-- What a near store does, in its region and out of it. -/
theorem nearStore {v : Nat} (h : Issues s c t i h0 h1) (hr : ∀ u, i ≠ .repImm u) (hr' : ∀ n, i ≠ .repReg n) (hf : i ≠ .iflush)
    (he : ∀ len, kEffect s c t len i = kStore s c t a n v) (hcyc : kCycles i = 1) (hlen : i.len = 1) :
    (alignFail none a n = none → dataPoisoned s c t a n = false →
      OnlyThread (dataWrite s c t a (leBytes n v)) c t (done (kIssues s c t i)) (fun th' =>
        FallsKeeping ((dataWrite s c t a (leBytes n v)).th c t) th' 1 1 [])) ∧
    (∀ x, alignFail none a n = some x → (s.th c t).inh = false → TakesTrap s c t (done (kIssues s c t i)) 1 1 (s.th c t).pc (fun th' =>
      th'.xaddr = BitVec.ofNat 16 x ∧ th'.xov = decide (0xFFFF < x))) := by
  refine ⟨fun hal hgood => ?_, fun x hal hinh => takesTrap_align h hinh hr hr' ((he _).trans (kStore_fails hal v))⟩
  have hstore := kStep_after h hr hr' hf ((he _).trans (kStore_writes hal hgood v))
  rwa [kLen_of_issues h, hcyc, hlen] at hstore

end

/-- Settles O6: the three loads, where a load reads, then the three stores. -/
theorem nearMemory : Obligations.NearMemory := by
  refine ⟨fun s c t d n q u w h0 h1 a => ⟨?ldB, ?ldW, ?ldL, fun hreg _ => ⟨?reads, if_neg hreg⟩, fun hreg => if_pos hreg⟩,
    fun s c t d n q u w h0 h1 a => ⟨?stB, ?stW, ?stL⟩⟩
  case ldB | ldW | ldL =>
    rintro _ _ rfl rfl h rfl
    exact nearLoad h (by simp) (by simp) (by simp) (fun _ => rfl) rfl rfl
  case reads =>
    have hio : isIo a = false := Bool.eq_false_iff.mpr (fun h => hreg ((isIo_iff a).mp h))
    simp only [dataRead, hio, Bool.false_eq_true, if_false]
  case stB | stW | stL =>
    rintro _ _ rfl rfl h rfl _ rfl
    exact nearStore h (by simp) (by simp) (by simp) (fun _ => rfl) rfl rfl

/-! ### Memory-to-memory forms (R133, R134) -/

section
variable {s : State} {c : Fin 56} {t : Fin 8} {h0 h1 : Half}

section
variable {dst src : MOpnd} {x : Nat} {ps pd : OpPlace} {a1 a2 : Vector Half 8} {rs rd : Byte × State}
  (hps : formOpnd (s.th c t).a (s.th c t).d src x = (ps, a1)) (hpd : formOpnd a1 (s.th c t).d dst x = (pd, a2))
  (hfs : placeFail ps = none) (hfd : placeFail pd = none) (hes : placeEcc s c t ps true = none)
  (hrs : rs = readPlace s c t (s.th c t).d ps)
include hps hpd hfs hfd hes hrs

/-- A two-operand form that leaves its destination unread. -/
theorem kMm2_of_source {op : M2Op} (hop : m2ReadsDst op = false) (hed : placeEcc s c t pd false = none) :
    kMm2 s c t op dst src x = .next (writePlace rs.2 c t pd [src, dst] a2 (m2Val op 0 rs.1)) := by
  simp only [kMm2, hps, hpd, hfs, hfd, hes, hop, hed, Option.or_none, Bool.false_eq_true, if_false, hrs]

/-- A two-operand form that computes with its destination. -/
theorem kMm2_of_both {op : M2Op} (hop : m2ReadsDst op = true) (hrd : rd = readPlace rs.2 c t (s.th c t).d pd)
    (hed : placeEcc s c t pd true = none) :
    kMm2 s c t op dst src x = .next (writePlace rd.2 c t pd [src, dst] a2 (m2Val op rd.1 rs.1)) := by
  simp only [kMm2, hps, hpd, hfs, hfd, hes, hop, hed, Option.or_none, if_true, hrs, hrd]

end

theorem kMm3_writes {op : M3Op} {dst oa ob : MOpnd} {x : Nat} {pa pb pd : OpPlace} {a1 a2 a3 : Vector Half 8} {ra rb : Byte × State}
    (hpa : formOpnd (s.th c t).a (s.th c t).d oa x = (pa, a1)) (hpb : formOpnd a1 (s.th c t).d ob x = (pb, a2))
    (hpd : formOpnd a2 (s.th c t).d dst x = (pd, a3)) (hfa : placeFail pa = none) (hfb : placeFail pb = none) (hfd : placeFail pd = none)
    (hea : placeEcc s c t pa true = none) (heb : placeEcc s c t pb true = none) (hed : placeEcc s c t pd false = none)
    (hra : ra = readPlace s c t (s.th c t).d pa) (hrb : rb = readPlace ra.2 c t (s.th c t).d pb) :
    kMm3 s c t op dst oa ob x = .next (writePlace rb.2 c t pd [oa, ob, dst] a3 (m3Val op ra.1 rb.1)) := by
  simp only [kMm3, hpa, hpb, hpd, hfa, hfb, hfd, hea, heb, hed, Option.or_none, hra, hrb]

theorem memForm_mm2 {op : M2Op} {dst src : MOpnd} {x : BitVec 12} {s1 : State} (he : kMm2 s c t op dst src x.toNat = .next s1)
    (h : Issues s c t (.mm2 op dst src x) h0 h1) : MemForm s1 c t 3 (done (kIssues s c t (.mm2 op dst src x))) := by
  have hafter := kStep_after h (by simp) (by simp) (by simp) he
  rwa [kLen_of_issues h] at hafter

theorem memForm_mm3 {op : M3Op} {dst oa ob : MOpnd} {x : BitVec 6} {s1 : State} (he : kMm3 s c t op dst oa ob x.toNat = .next s1)
    (h : Issues s c t (.mm3 op dst oa ob x) h0 h1) : MemForm s1 c t 4 (done (kIssues s c t (.mm3 op dst oa ob x))) := by
  have hafter := kStep_after h (by simp) (by simp) (by simp) he
  rwa [kLen_of_issues h] at hafter

end

/-- Settles O9: the two-operand forms by whether they read their destination, then the three-operand forms. -/
theorem memoryForms : Obligations.MemoryForms := by
  constructor
  · intro s c t dst src x h0 h1 ps pd a1 a2 rs rd hps hpd hfs hfd hes hed hrs hrd
    have hsource {op : M2Op} (hop : m2ReadsDst op = false) := kMm2_of_source hps hpd hfs hfd hes hrs hop hed
    have hboth {op : M2Op} (hop : m2ReadsDst op = true) := kMm2_of_both hps hpd hfs hfd hes hrs hop hrd
    exact ⟨memForm_mm2 (hsource rfl), fun h he => memForm_mm2 (hboth rfl he) h, fun h he => memForm_mm2 (hboth rfl he) h,
      fun h he => memForm_mm2 (hboth rfl he) h, fun h he => memForm_mm2 (hboth rfl he) h, fun h he => memForm_mm2 (hboth rfl he) h,
      memForm_mm2 (hsource rfl), memForm_mm2 (hsource rfl)⟩
  · intro s c t dst oa ob x h0 h1 pa pb pd a1 a2 a3 ra rb hpa hpb hpd hfa hfb hfd hea heb hed hra hrb
    have hwrites (op : M3Op) := kMm3_writes (op := op) hpa hpb hpd hfa hfb hfd hea heb hed hra hrb
    rw [ofNat_min, ofNat_max]
    exact ⟨memForm_mm3 (hwrites .add), memForm_mm3 (hwrites .sub), memForm_mm3 (hwrites .and), memForm_mm3 (hwrites .or),
      memForm_mm3 (hwrites .xor), memForm_mm3 (hwrites .minu), memForm_mm3 (hwrites .maxu)⟩

end Sys2Proof.Machine
end

section
/-!
PROOF. The keeper's conditions, branches, jumps, calls, returns and target buffer (R135–R137, R143).
-/
namespace Sys2Proof.Machine

/-! ### Conditions (R135) -/

/-- Each condition by its number. -/
theorem condHolds_condOf (w : Nat) (r s : BitVec w) :
    (condHolds (condOf 0) r s = true ↔ r = s) ∧ (condHolds (condOf 1) r s = true ↔ r ≠ s) ∧
    (condHolds (condOf 2) r s = true ↔ r.toInt < s.toInt) ∧ (condHolds (condOf 3) r s = true ↔ s.toInt ≤ r.toInt) ∧
    (condHolds (condOf 4) r s = true ↔ r.toNat < s.toNat) ∧ (condHolds (condOf 5) r s = true ↔ s.toNat ≤ r.toNat) ∧
    (condHolds (condOf 6) r s = true ↔ r &&& s ≠ 0) ∧ (condHolds (condOf 7) r s = true ↔ r &&& s = 0) :=
  ⟨beq_iff_eq, bne_iff_ne, decide_eq_true_iff, decide_eq_true_iff, decide_eq_true_iff, decide_eq_true_iff, bne_iff_ne, beq_iff_eq⟩

section
variable {s : State} {c : Fin 56} {t : Fin 8} {h0 h1 : Half} {i : KInstr}

/-- A compare-and-branch of a defined class is the issue of its instruction. -/
theorem kCompare_of {cls : Nat} {cl : Cls} (h : clsOf cls = some cl) (f : Cls → KInstr) : kCompare s c t cls f = kIssues s c t (f cl) := by
  rw [kCompare, h]

/-- An instruction without an effect falls through. -/
theorem fallsThrough {len cyc : Nat} (h : Issues s c t i h0 h1) (hr : ∀ u, i ≠ .repImm u) (hr' : ∀ n, i ≠ .repReg n) (hf : i ≠ .iflush)
    (hlen : i.len = len) (hcyc : kCycles i = cyc) (he : kEffect s c t (kLen h0) i = .next s) :
    OnlyThread s c t (done (kIssues s c t i)) (fun th' => FallsKeeping (s.th c t) th' len cyc []) := by
  have hafter := kStep_after h hr hr' hf he
  rwa [kLen_of_issues h, hlen, hcyc] at hafter

/-- A branch that finds no held line takes the TBMISS trap (R152, R158). -/
theorem takesTrap_miss (h : Issues s c t i h0 h1) (hinh : (s.th c t).inh = false) (hr : ∀ u, i ≠ .repImm u) (hr' : ∀ n, i ≠ .repReg n)
    (he : kEffect s c t (kLen h0) i = .trap causeTbmiss none) :
    TakesTrap s c t (done (kIssues s c t i)) 3 1 (s.th c t).pc (fun th' => th'.xins = xinsOf h0 h1) :=
  takes_mono (fun _ hx => hx.1) (kStep_trap h hinh hr hr' (.inr rfl) he)

theorem takesTrap_weaken {cause cyc : Nat} {pc : Half} {out : Host.Outcome State Fault Refusal} {P : Thread → Prop}
    (h : TakesTrap s c t out cause cyc pc P) : TakesTrap s c t out cause cyc pc (fun _ => True) :=
  takes_mono (fun _ _ => trivial) h

/-- What CB does, by whether its condition holds. -/
theorem branches_cb {cd : Cond} {cl : Cls} {r q : BitVec 3} {target : Half} (h : Issues s c t (.cb cd cl r q target) h0 h1) :
    (condOn (s.th c t) cl cd r q = true → Branches s c t 3 target [] (done (kIssues s c t (.cb cd cl r q target)))) ∧
    (condOn (s.th c t) cl cd r q = false →
      OnlyThread s c t (done (kIssues s c t (.cb cd cl r q target))) (fun th' => FallsKeeping (s.th c t) th' 2 3 [])) :=
  ⟨fun hc => kStep_branches h (by simp) (by simp) (by simp) (.inl (by simp only [kEffect, hc, if_true])),
    fun hc => fallsThrough h (by simp) (by simp) (by simp) rfl rfl (by simp only [kEffect, hc, Bool.false_eq_true, if_false])⟩

/-- What CBI does; its target counts from the instruction after it. -/
theorem branches_cbi {cd : Cond} {r : BitVec 3} {imm : Byte} {disp : BitVec 11} (h : Issues s c t (.cbi cd r imm disp) h0 h1) :
    (condHolds cd ((s.th c t).getD r) imm = true →
      Branches s c t 3 ((s.th c t).pc + 2 + disp.signExtend 16) [] (done (kIssues s c t (.cbi cd r imm disp)))) ∧
    (condHolds cd ((s.th c t).getD r) imm = false →
      OnlyThread s c t (done (kIssues s c t (.cbi cd r imm disp))) (fun th' => FallsKeeping (s.th c t) th' 2 3 [])) := by
  refine ⟨fun hc => kStep_branches h (by simp) (by simp) (by simp) (.inl ?_),
    fun hc => fallsThrough h (by simp) (by simp) (by simp) rfl rfl (by simp only [kEffect, hc, Bool.false_eq_true, if_false])⟩
  simp only [kEffect, hc, if_true, kLen_of_issues h]
  rfl

/-- What CB_P does with a target buffer entry, and without. -/
theorem branches_cbP {cd : Cond} {cl : Cls} {r q : BitVec 3} {k : BitVec 4} (h : Issues s c t (.cbP cd cl r q k) h0 h1) :
    (∀ e, tbGet (s.th c t) k = some e →
      (condOn (s.th c t) cl cd r q = true → Branches s c t 1 e.target [] (done (kIssues s c t (.cbP cd cl r q k)))) ∧
      (condOn (s.th c t) cl cd r q = false →
        OnlyThread s c t (done (kIssues s c t (.cbP cd cl r q k))) (fun th' => FallsKeeping (s.th c t) th' 1 1 []))) ∧
    (tbGet (s.th c t) k = none → (s.th c t).inh = false →
      TakesTrap s c t (done (kIssues s c t (.cbP cd cl r q k))) 3 1 (s.th c t).pc (fun th' => th'.xins = xinsOf h0 h1)) :=
  ⟨fun e he => ⟨fun hc => kStep_branches h (by simp) (by simp) (by simp) (.inr ⟨e.line, by simp only [kEffect, he, hc, if_true]⟩),
      fun hc => fallsThrough h (by simp) (by simp) (by simp) rfl rfl (by simp only [kEffect, he, hc, Bool.false_eq_true, if_false])⟩,
    fun hnone hinh => takesTrap_miss h hinh (by simp) (by simp) (by simp only [kEffect, hnone])⟩

end

/-- Settles O10: the conditions, then each branch. -/
theorem conditionsAndBranches : Obligations.ConditionsAndBranches := by
  refine ⟨condHolds_condOf, fun s c t cond cls cl r q k target h0 h1 imm disp hcls => ⟨fun h => ?cb, branches_cbi, fun h => ?cbP⟩⟩
  case cb =>
    have hexec : exec (.cb c t cond cls r q target) s = done (kIssues s c t (.cb (condOf cond.toNat) cl r q target)) :=
      congrArg done (kCompare_of hcls _)
    rw [hexec]
    exact branches_cb h
  case cbP =>
    have hexec : exec (.cbP c t cond cls r q k) s = done (kIssues s c t (.cbP (condOf cond.toNat) cl r q k)) :=
      congrArg done (kCompare_of hcls _)
    rw [hexec]
    exact branches_cbP h

/-! ### Jumps, calls and returns (R136) -/

section
variable {s : State} {c : Fin 56} {t : Fin 8} {h0 h1 : Half}

theorem calls_direct {target : Half} (h : Issues s c t (.call target) h0 h1) :
    Calls s c t 3 target ((s.th c t).pc + 2) (done (kIssues s c t (.call target))) :=
  kStep_calls h (by simp) (by simp) (by simp) (.inl (by rw [kLen_of_issues h]; rfl))

theorem calls_indirect {n : BitVec 3} (h : Issues s c t (.callI n) h0 h1) :
    Calls s c t 3 ((s.th c t).getA n) ((s.th c t).pc + 2) (done (kIssues s c t (.callI n))) :=
  kStep_calls h (by simp) (by simp) (by simp) (.inl (by rw [kLen_of_issues h]; rfl))

/-- JMP_P through a target buffer entry, and without one. -/
theorem branches_jmpP {k : BitVec 4} (h : Issues s c t (.jmpP k) h0 h1) :
    (∀ e, tbGet (s.th c t) k = some e → Branches s c t 1 e.target [] (done (kIssues s c t (.jmpP k)))) ∧
    (tbGet (s.th c t) k = none → (s.th c t).inh = false →
      TakesTrap s c t (done (kIssues s c t (.jmpP k))) 3 1 (s.th c t).pc (fun _ => True)) :=
  ⟨fun e he => kStep_branches h (by simp) (by simp) (by simp) (.inr ⟨e.line, by simp only [kEffect, he]⟩),
    fun hnone hinh => takesTrap_weaken (takesTrap_miss h hinh (by simp) (by simp) (by simp only [kEffect, hnone]))⟩

/-- CALL_P through a target buffer entry, and without one. -/
theorem calls_held {k : BitVec 4} (h : Issues s c t (.callP k) h0 h1) :
    (∀ e, tbGet (s.th c t) k = some e → Calls s c t 1 e.target ((s.th c t).pc + 1) (done (kIssues s c t (.callP k)))) ∧
    (tbGet (s.th c t) k = none → (s.th c t).inh = false →
      TakesTrap s c t (done (kIssues s c t (.callP k))) 3 1 (s.th c t).pc (fun _ => True)) :=
  ⟨fun e he => kStep_calls h (by simp) (by simp) (by simp) (.inr ⟨e.line, by simp only [kEffect, he, kLen_of_issues h]; rfl⟩),
    fun hnone hinh => takesTrap_weaken (takesTrap_miss h hinh (by simp) (by simp) (by simp only [kEffect, hnone]))⟩

/-- RET_P through the line of the target buffer that holds A7, and without one. -/
theorem branches_retP (h : Issues s c t .retP h0 h1) :
    ((∃ e ∈ (s.th c t).tb, e.2.line.num = ((s.th c t).getA 7).toNat / 16) →
      Branches s c t 1 ((s.th c t).getA 7) [] (done (kIssues s c t .retP))) ∧
    ((∀ e ∈ (s.th c t).tb, e.2.line.num ≠ ((s.th c t).getA 7).toNat / 16) → (s.th c t).inh = false →
      TakesTrap s c t (done (kIssues s c t .retP)) 3 1 (s.th c t).pc (fun _ => True)) := by
  refine ⟨fun ⟨e, he, hline⟩ => ?held, fun hnone hinh => takesTrap_weaken (takesTrap_miss h hinh (by simp) (by simp) ?miss)⟩
  case held =>
    have hfound : ((s.th c t).tb.find? (fun e => e.2.line.num = ((s.th c t).getA 7).toNat / 16)).isSome :=
      List.find?_isSome.mpr ⟨e, he, decide_eq_true hline⟩
    obtain ⟨x, hx⟩ := Option.isSome_iff_exists.mp hfound
    exact kStep_branches h (by simp) (by simp) (by simp) (.inr ⟨x.2.line, by simp only [kEffect, hx]⟩)
  case miss =>
    have hnot : (s.th c t).tb.find? (fun e => e.2.line.num = ((s.th c t).getA 7).toNat / 16) = none :=
      List.find?_eq_none.mpr (fun e he => by simpa using hnone e he)
    simp only [kEffect, hnot]

/-! ### TBL (R137) -/

/-- The thread with another target buffer. -/
def Thread.withBuffer (tb : List (Nat × TbEntry)) (th : Thread) : Thread := { th with tb := tb }

theorem withBuffer_of_fallsKeeping {tb : List (Nat × TbEntry)} {th th' : Thread} {len cyc : Nat} {ws : List LoadDst}
    (h : FallsKeeping (th.withBuffer tb) th' len cyc ws) : th'.tb = tb ∧ FallsKeeping th { th' with tb := th.tb } len cyc ws := by
  obtain ⟨hused, hfalls, hregs, hsys, hrests⟩ := h
  exact ⟨congrArg Thread.tb hsys, hused, hfalls, hregs, congrArg (Thread.withBuffer th.tb) hsys, hrests⟩

theorem kStep_tbl {k : BitVec 4} {target : Half} (h : Issues s c t (.tbl k target) h0 h1) :
    OnlyThread s c t (done (kIssues s c t (.tbl k target))) (fun th' =>
      tbGet th' k = some ⟨target, readLine (s.kp c) (target.toNat / 16)⟩ ∧ (∀ j, j ≠ k → tbGet th' j = tbGet (s.th c t) j) ∧
      FallsKeeping (s.th c t) { th' with tb := (s.th c t).tb } 2 4 []) := by
  have hafter := kStep_after (s1 := s.modTh c t (fun th =>
    th.withBuffer (SMap.insert th.tb k.toNat ⟨target, readLine (s.kp c) (target.toNat / 16)⟩))) h (by simp) (by simp) (by simp) rfl
  rw [AfterWrite, State.th_modTh, kLen_of_issues h] at hafter
  refine onlyThread_mono (onlyThread_of_modTh hafter) (fun th' hth' => ?_)
  obtain ⟨htb, hkept⟩ := withBuffer_of_fallsKeeping hth'
  refine ⟨?_, fun j hj => ?_, hkept⟩
  · rw [tbGet, htb, SMap.find?_insert_same]
  · rw [tbGet, htb, SMap.find?_insert_ne _ _ (fun e => hj (BitVec.eq_of_toNat_eq e))]
    rfl

end

/-- Settles O11, instruction by instruction. -/
theorem jumpsCallsAndReturns : Obligations.JumpsCallsAndReturns := by
  intro s c t n k target h0 h1
  exact ⟨fun h => kStep_branches h (by simp) (by simp) (by simp) (.inl rfl), fun h => kStep_branches h (by simp) (by simp) (by simp) (.inl rfl),
    fun h => kStep_branches h (by simp) (by simp) (by simp) (.inl rfl), calls_direct, calls_indirect, branches_jmpP, calls_held, branches_retP,
    kStep_tbl⟩

end Sys2Proof.Machine
end

section
/-!
PROOF. The keeper's atomics on shared SRAM and the repetition of an instruction (R138–R141).
-/
namespace Sys2Proof.Machine

/-! ### Reservations (R139) -/

/-- The thread with another reservation. -/
def Thread.reserving (r : Option Nat) (th : Thread) : Thread := { th with resv := r }

theorem reserving_of_fallsKeeping {r : Option Nat} {th th' : Thread} {len cyc : Nat} {ws : List LoadDst}
    (h : FallsKeeping (th.reserving r) th' len cyc ws) : th'.resv = r ∧ FallsKeeping th { th' with resv := th.resv } len cyc ws := by
  obtain ⟨hused, hfalls, hregs, hsys, hrests⟩ := h
  exact ⟨congrArg Thread.resv hsys, hused, hfalls, hregs, congrArg (Thread.reserving th.resv) hsys, hrests⟩

/-! ### Accesses of shared SRAM (R138) -/

theorem alignFail_shared {a : Nat} (h : a < 0xA000) : alignFail (some .shared) a 1 = none := by
  simp [alignFail, regionOf, h]

theorem alignFail_shared_outside {a : Nat} (h : 0xA000 ≤ a) : alignFail (some .shared) a 1 = some a := by
  have hreg : regionOf a ≠ some .shared := by
    unfold regionOf
    grind
  unfold alignFail
  cases hr : regionOf a with
  | none => rfl
  | some r =>
    have hne : (some Region.shared != some r) = true := by
      rw [bne_iff_ne, ← hr]
      exact hreg.symm
    simp only [Option.isSome_some, hne, Bool.and_self, if_true]

theorem dataRead_shared (s : State) (c : Fin 56) (t : Fin 8) {a : Nat} (h : a < 0xA000) : dataRead s c t a 1 = ([tileByte s c a], s) := by
  have hio : isIo a = false := decide_eq_false (by omega)
  simp only [dataRead, hio, Bool.false_eq_true, if_false, tileOff, h, if_true]
  rfl

theorem leNat_singleton (v : Byte) : BitVec.ofNat 32 (leNat [v]) = v.setWidth 32 := by
  simp only [leNat, Nat.mul_zero, Nat.add_zero, BitVec.ofNat_toNat]

section
variable {s s1 : State} {c : Fin 56} {t : Fin 8} {h0 h1 : Half} {i : KInstr} {d n : BitVec 3} {a : Nat}

/-- An instruction that has an effect beyond its thread, then writes a data register. -/
theorem kStep_on_setD {v : Byte} (h : Issues s c t i h0 h1) (hr : ∀ u, i ≠ .repImm u) (hr' : ∀ n, i ≠ .repReg n) (hf : i ≠ .iflush)
    (he : kEffect s c t (kLen h0) i = .next (s1.modTh c t (fun th => th.setD d v))) :
    OnlyThread s1 c t (done (kIssues s c t i)) (fun th' =>
      th'.getD d = v ∧ FallsKeeping (s1.th c t) th' i.len (kCycles i) [.d d]) := by
  refine onlyThread_mono (kStep_on h hr hr' hf he) ?_
  rintro _ rfl
  rw [kLen_of_issues h]
  refine ⟨?_, fallsKeeping rfl rfl rfl (setD_loads _ _ _) (setD_regsKept _ _ _) rfl⟩
  rw [fallThrough_aged_getD (setD_noLoad _ _ _), Thread.setD_getD_same]

section
variable (ha : a = ((s.th c t).getA n).toNat) (hin : a < 0xA000) (hgood : dataPoisoned s c t a 1 = false)
include ha hin hgood

/-- TAS reads the byte and leaves 0xFF. -/
theorem kStep_tas (h : Issues s c t (.tas d n) h0 h1) :
    OnlyThread (dataWrite s c t a [0xFF]) c t (done (kIssues s c t (.tas d n))) (fun th' =>
      ⟨1, .d d, (tileByte s c a).setWidth 32⟩ ∈ th'.loads ∧ FallsKeeping ((dataWrite s c t a [0xFF]).th c t) th' 1 2 []) := by
  refine kStep_addLoad h (by simp) (by simp) (by simp) (Nat.le_refl 1) ?_
  simp only [kEffect, ← ha, alignFail_shared hin, hgood, Bool.false_eq_true, if_false, dataRead_shared s c t hin, leNat_singleton, kReg]

/-- LR_B reads the byte and reserves its granule. -/
theorem kStep_lrB (h : Issues s c t (.lrB d n) h0 h1) :
    OnlyThread s c t (done (kIssues s c t (.lrB d n))) (fun th' =>
      ⟨1, .d d, (tileByte s c a).setWidth 32⟩ ∈ th'.loads ∧ th'.resv = some (a / 8) ∧
      FallsKeeping (s.th c t) { th' with resv := (s.th c t).resv } 1 1 []) := by
  have hload := kStep_addLoad (s1 := s.modTh c t (Thread.reserving (some (a / 8)))) (delay := 1) (dst := .d d)
    (v := (tileByte s c a).setWidth 32) h (by simp) (by simp) (by simp) (Nat.le_refl 1) (by
      simp only [kEffect, ← ha, alignFail_shared hin, hgood, Bool.false_eq_true, if_false, dataRead_shared s c t hin, leNat_singleton, kReg,
        State.modTh_modTh]
      rfl)
  rw [State.th_modTh] at hload
  exact onlyThread_mono (onlyThread_of_modTh hload) (fun _ ⟨hmem, hkept⟩ => ⟨hmem, reserving_of_fallsKeeping hkept⟩)

/-- SC_B writes Dd while its thread holds the reservation; it is then gone. -/
theorem kStep_scB_stores (h : Issues s c t (.scB d n) h0 h1) (hresv : (s.th c t).resv = some (a / 8)) :
    OnlyThread (dataWrite s c t a [(s.th c t).getD d]) c t (done (kIssues s c t (.scB d n))) (fun th' =>
      th'.getD d = 0 ∧ th'.resv = none ∧ FallsKeeping ((dataWrite s c t a [(s.th c t).getD d]).th c t)
        { th' with resv := ((dataWrite s c t a [(s.th c t).getD d]).th c t).resv } 1 2 [.d d]) := by
  have hset := kStep_on_setD (s1 := (dataWrite s c t a [(s.th c t).getD d]).modTh c t (Thread.reserving none)) (d := d) (v := 0)
    h (by simp) (by simp) (by simp) (by
      simp only [kEffect, ← ha, alignFail_shared hin, hgood, hresv, beq_self_eq_true, Bool.false_eq_true, if_false, if_true, kReg,
        State.modTh_modTh]
      rfl)
  rw [State.th_modTh] at hset
  exact onlyThread_mono (onlyThread_of_modTh hset) (fun _ ⟨hzero, hkept⟩ => ⟨hzero, reserving_of_fallsKeeping hkept⟩)

/-- Without the reservation SC_B writes nothing. -/
theorem kStep_scB_fails (h : Issues s c t (.scB d n) h0 h1) (hresv : (s.th c t).resv ≠ some (a / 8)) :
    OnlyThread s c t (done (kIssues s c t (.scB d n))) (fun th' =>
      th'.getD d = 1 ∧ th'.resv = none ∧ FallsKeeping (s.th c t) { th' with resv := (s.th c t).resv } 1 2 [.d d]) := by
  have hset := kStep_on_setD (s1 := s.modTh c t (Thread.reserving none)) (d := d) (v := 1) h (by simp) (by simp) (by simp) (by
    simp only [kEffect, ← ha, alignFail_shared hin, hgood, beq_eq_false_iff_ne.mpr hresv, Bool.false_eq_true, if_false, kReg,
      State.modTh_modTh]
    rfl)
  rw [State.th_modTh] at hset
  exact onlyThread_mono (onlyThread_of_modTh hset) (fun _ ⟨hone, hkept⟩ => ⟨hone, reserving_of_fallsKeeping hkept⟩)

end

/-- Outside the shared region an atomic takes the ALIGN trap. -/
theorem takesTrap_atomic (ha : a = ((s.th c t).getA n).toNat) (hout : 0xA000 ≤ a) (hinh : (s.th c t).inh = false)
    (hi : i = .tas d n ∨ i = .lrB d n ∨ i = .scB d n) (h : Issues s c t i h0 h1) :
    TakesTrap s c t (done (kIssues s c t i)) 1 1 (s.th c t).pc (fun th' => th'.xaddr = BitVec.ofNat 16 a) := by
  have heffect : kEffect s c t (kLen h0) i = .trap causeAlign (some a) := by
    rcases hi with rfl | rfl | rfl <;> simp only [kEffect, ← ha, alignFail_shared_outside hout]
  refine takes_mono (fun _ hx => hx.1) (takesTrap_align h hinh ?_ ?_ heffect)
  all_goals rcases hi with rfl | rfl | rfl <;> simp

end

/-! ### REP (R140, R141) -/

/-- The halfword that one held line has for an address. -/
def lineHalf (l : Option Line) (pc : Half) : Option Half :=
  match l with
  | some l => if l.num = pc.toNat / 16 then l.words[pc.toNat % 16]? else none
  | none => none

theorem heldHalf_eq (th : Thread) (pc : Half) : heldHalf th pc = (lineHalf th.cur pc).or (lineHalf th.nxt pc) := by
  change (match lineHalf th.cur pc with | some h => some h | none => lineHalf th.nxt pc) = _
  cases lineHalf th.cur pc <;> rfl

theorem lineHalf_none {l : Option Line} {pc : Half} (h : l.map Line.num ≠ some (pc.toNat / 16)) : lineHalf l pc = none := by
  cases l with
  | none => rfl
  | some l =>
    have hnum : l.num ≠ pc.toNat / 16 := fun e => h (congrArg some e)
    simp only [lineHalf, hnum, if_false]

/-- The halfword a thread holds at the address it moves to is the one it held there. -/
theorem heldHalf_advancePc (k : Keeper) {th : Thread} {pc hn : Half} (h : heldHalf th pc = some hn) :
    heldHalf (advancePc k th pc) pc = some hn := by
  by_cases hcur : th.cur.map Line.num = some (pc.toNat / 16)
  · simp only [advancePc, hcur, if_true]
    exact h
  · rw [heldHalf_eq, lineHalf_none hcur, Option.none_or] at h
    by_cases hnxt : th.nxt.map Line.num = some (pc.toNat / 16)
    · simp only [advancePc, hcur, hnxt, if_true, if_false]
      rw [heldHalf_eq, h, Option.some_or]
    · rw [lineHalf_none hnxt] at h
      cases h

/-- The thread with another count of repetitions. -/
def Thread.repeating (r : Option Nat) (th : Thread) : Thread := { th with rep := r }

/-- A count above 0 leaves PC at the instruction to repeat (R140). -/
theorem settleRep_pos (k : Keeper) {th : Thread} {count : Nat} (hrep : th.rep = some count) (hpos : 0 < count) : settleRep k th = th := by
  obtain ⟨n, rfl⟩ := Nat.exists_eq_succ_of_ne_zero hpos.ne'
  simp only [settleRep, hrep]

/-- The thread past an instruction repeated 0 times: at `pc`, with the lines `cur` and `nxt`. -/
def Thread.skipped (pc : Half) (cur nxt : Option Line) (th : Thread) : Thread := { th with rep := none, pc := pc, cur := cur, nxt := nxt }

/-- A count of 0 skips it. -/
theorem settleRep_zero (k : Keeper) {th : Thread} {hn : Half} (hrep : th.rep = some 0) (hheld : heldHalf th th.pc = some hn) :
    ∃ cur nxt, settleRep k th = th.skipped (th.pc + BitVec.ofNat 16 (kLen hn)) cur nxt := by
  simp only [settleRep, hrep, hheld]
  exact ⟨_, _, advancePc_eq k { th with rep := none } _⟩

theorem systemKept_skipped {th th' : Thread} (h : SystemKept th th') (pc : Half) (cur nxt : Option Line) :
    SystemKept th (th'.skipped pc cur nxt) := congrArg (Thread.skipped pc cur nxt) h

section
variable {s : State} {c : Fin 56} {t : Fin 8} {h0 h1 : Half} {i : KInstr} {count : Nat}
  (hi : (∃ u, i = .repImm u) ∨ ∃ n, i = .repReg n) (h : Issues s c t i h0 h1)
include hi h

/-- A REP before an instruction that may not stand under it takes the UNDEF trap (R141). -/
theorem takesTrap_rep (hbad : repPairBad (s.th c t) ((s.th c t).pc + 1) = true) (hinh : (s.th c t).inh = false) :
    TakesTrap s c t (done (kIssues s c t i)) 0 1 (s.th c t).pc (fun th' => th'.xins = xinsOf h0 h1) := by
  have hissue : kIssue s c t i h0 h1 = syncTrap s c t 0 1 (s.th c t).pc (xinsOf h0 h1) none := by
    rcases hi with ⟨u, rfl⟩ | ⟨n, rfl⟩ <;> simp only [kIssue, hbad, Bool.and_self, if_true] <;> rfl
  rw [kStep_issue h, hissue]
  exact takes_mono (fun _ hx => hx.1) (syncTrap_takes 0 1 _ _ none hinh)

/-- A REP that may stand counts its repetitions and moves on. -/
theorem kIssue_rep (hbad : repPairBad (s.th c t) ((s.th c t).pc + 1) = false)
    (he : kEffect s c t 1 i = kReg s c t (Thread.repeating (some count))) :
    kIssue s c t i h0 h1 = ((charge (s.modTh c t (Thread.repeating (some count))) c t 1).modTh c t Thread.ageLoads).modTh c t
      (fun th => settleRep (s.kp c) (advancePc (s.kp c) th ((s.th c t).pc + 1))) := by
  have hlen : kLen h0 = 1 := by
    rw [kLen_of_issues h]
    rcases hi with ⟨u, rfl⟩ | ⟨n, rfl⟩ <;> rfl
  have hcyc : kCycles i = 1 := by
    rcases hi with ⟨u, rfl⟩ | ⟨n, rfl⟩ <;> rfl
  unfold kIssue
  have hone : BitVec.ofNat 16 1 = (1 : Half) := rfl
  simp only [hlen, hone, he, kReg, hcyc]
  rcases hi with ⟨u, rfl⟩ | ⟨n, rfl⟩ <;>
    simp only [hbad, Bool.and_false, Bool.false_eq_true, if_false, if_true, State.modTh_kp, charge_kp]

end

/-- What is left of a thread after the REP: PC and the repetitions left, by the count. -/
theorem rep_keeps {th : Thread} {k : Keeper} {count : Nat} {hn : Half} (hheld : heldHalf th (th.pc + 1) = some hn) {x : Thread}
    (hx : x = settleRep k (advancePc k (({ th.repeating (some count) with used := th.used + 1 } : Thread).ageLoads) (th.pc + 1))) :
    x.used = th.used + 1 ∧ RegsKept th x [] ∧ SystemKept th x ∧ (0 < count → x.pc = th.pc + 1 ∧ x.rep = some count) ∧
    (count = 0 → x.pc = th.pc + 1 + BitVec.ofNat 16 (kLen hn) ∧ x.rep = none) := by
  subst hx
  set y := ({ th.repeating (some count) with used := th.used + 1 } : Thread).ageLoads with hy
  have hymid : heldHalf y (th.pc + 1) = some hn := by
    rw [hy, Thread.ageLoads_eq]
    exact hheld
  obtain ⟨hpc, hrep, hused, hregs, hsys⟩ := branchKeeping (th := th.repeating (some count)) (g := th.repeating (some count)) (ws := [])
    (cyc := 1) rfl rfl (fun _ hl => hl) ⟨fun _ _ _ => rfl, fun _ _ _ => rfl, fun _ _ _ => rfl⟩ rfl (advancePc_eq k y (th.pc + 1))
  rcases Nat.eq_zero_or_pos count with hzero | hpos
  · have hmid : heldHalf (advancePc k y (th.pc + 1)) (advancePc k y (th.pc + 1)).pc = some hn := by
      rw [hpc]
      exact heldHalf_advancePc k hymid
    obtain ⟨cur, nxt, hskip⟩ := settleRep_zero k (hrep.trans (congrArg some hzero)) hmid
    rw [hskip, hpc]
    exact ⟨hused, hregs, systemKept_skipped hsys _ _ _, fun h => absurd hzero h.ne', fun _ => ⟨rfl, rfl⟩⟩
  · rw [settleRep_pos k hrep hpos]
    exact ⟨hused, hregs, hsys, fun _ => ⟨hpc, hrep⟩, fun h => absurd h hpos.ne'⟩

theorem kStep_rep {s : State} {c : Fin 56} {t : Fin 8} {h0 h1 hn : Half} {i : KInstr} {count : Nat}
    (hi : (∃ u, i = .repImm u) ∨ ∃ n, i = .repReg n) (h : Issues s c t i h0 h1)
    (hbad : repPairBad (s.th c t) ((s.th c t).pc + 1) = false) (he : kEffect s c t 1 i = kReg s c t (Thread.repeating (some count)))
    (hheld : heldHalf (s.th c t) ((s.th c t).pc + 1) = some hn) :
    OnlyThread s c t (done (kIssues s c t i)) (fun th' =>
      th'.used = (s.th c t).used + 1 ∧ RegsKept (s.th c t) th' [] ∧ SystemKept (s.th c t) th' ∧
      (0 < count → th'.pc = (s.th c t).pc + 1 ∧ th'.rep = some count) ∧
      (count = 0 → th'.pc = (s.th c t).pc + 1 + BitVec.ofNat 16 (kLen hn) ∧ th'.rep = none)) := by
  have hu := charged_only (s.modTh c t (Thread.repeating (some count))) c t 1 Thread.ageLoads
    (fun th => settleRep (s.kp c) (advancePc (s.kp c) th ((s.th c t).pc + 1)))
  rw [← kIssue_rep hi h hbad he, State.th_modTh, ← kStep_issue h] at hu
  exact onlyThread_of_modTh ⟨_, _, rfl, rep_keeps hheld rfl, hu⟩

/-- Settles O12: the atomics inside the shared region and outside it, then REP by its count and by the pair it begins. -/
theorem atomicsAndRepeat : Obligations.AtomicsAndRepeat := by
  constructor
  · rintro s c t d n h0 h1 a v ha rfl
    exact ⟨fun hin hgood => ⟨kStep_tas ha hin hgood, kStep_lrB ha hin hgood, kStep_scB_stores ha hin hgood, kStep_scB_fails ha hin hgood⟩,
      fun hout hinh => ⟨takesTrap_atomic ha hout hinh (.inl rfl), takesTrap_atomic ha hout hinh (.inr (.inl rfl)),
        takesTrap_atomic ha hout hinh (.inr (.inr rfl))⟩⟩
  · rintro s c t u n h0 h1 hn count i k hik h
    have hi : (∃ u, i = .repImm u) ∨ ∃ n, i = .repReg n := hik.imp (fun h => ⟨u, h.1⟩) (fun h => ⟨n, h.1⟩)
    have hk : exec k s = done (kIssues s c t i) := by
      rcases hik with ⟨rfl, rfl, -⟩ | ⟨rfl, rfl, -⟩ <;> rfl
    have heffect : kEffect s c t 1 i = kReg s c t (Thread.repeating (some count)) := by
      rcases hik with ⟨rfl, -, rfl⟩ | ⟨rfl, -, rfl⟩
      · rfl
      · exact kReg_congr rfl
    rw [hk]
    exact ⟨fun hbad hheld => kStep_rep hi h hbad heffect hheld, fun hbad hinh => takesTrap_rep hi h hbad hinh⟩

end Sys2Proof.Machine
end

section
/-!
PROOF. A budget that ends in a thread that holds no line (R44, R161).
-/
namespace Sys2Proof.Machine

/-- A thread that holds no line is left as it was by an event that charges it nothing. -/
theorem inSlot_of_no_line {s : State} {c : Fin 56} {t : Fin 8} {f : State → State}
    (hcur : (s.th c t).cur = none) (hnxt : (s.th c t).nxt = none)
    (hused : ((f (s.modTh c t (fun th => loadLines (s.kp c) th th.pc))).th c t).used = (s.th c t).used) :
    inSlot s c t f = s := by
  simp [inSlot, hcur, hnxt, hused]

/-- Reset, with BUDGET 0 and BOUND 0 written to the first thread of channel 0. -/
def noBudget : State := (State.reset.put (Fld.THREAD_BUDGET_BUDGET 0 0) 0).put (Fld.THREAD_BUDGET_BOUND 0 0) 0

theorem noBudget_over : noBudget.get (Fld.THREAD_BUDGET_OVER 0 0) = 0 := by decide +kernel

theorem exec_budgetTrap_noBudget : exec (.budgetTrap 0 0) noBudget = .next (settle noBudget) := by
  have hslot : inSlot noBudget 0 0 (fun s => kBudgetTrap s 0 0) = noBudget :=
    inSlot_of_no_line rfl rfl (by decide +kernel)
  exact congrArg done hslot

/-- Refutes O14: its clause on a BUDGET_TRAP of a thread with BOUND 0 does not ask that the thread holds a line to execute from. A thread
that has not run since reset holds none; with BUDGET at 0 its count meets the clause, but it has no time slot and OVER stays 0. -/
theorem not_trapsAndReturns : ¬ Obligations.TrapsAndReturns := by
  unfold Obligations.TrapsAndReturns
  intro h
  obtain ⟨-, -, -, hover, -⟩ := h noBudget 0 0 0 0 0 0 0 0
  obtain ⟨u, hu, -, hset⟩ := hover (by decide +kernel) (by decide +kernel) rfl
  have hsettle : settle noBudget = settle u := by injection exec_budgetTrap_noBudget.symm.trans hu
  have hget : noBudget.get (Fld.THREAD_BUDGET_OVER 0 0) = u.get (Fld.THREAD_BUDGET_OVER 0 0) := by
    have hboth := congrArg (fun s => s.get (Fld.THREAD_BUDGET_OVER 0 0)) hsettle
    simpa only [settle_get _ (Fld.THREAD_BUDGET_OVER 0 0) (by decide) (by decide)] using hboth
  have hzero : u.isSet (Fld.THREAD_BUDGET_OVER 0 0) = false := by
    rw [State.isSet_eq, ← hget, noBudget_over]
    rfl
  exact absurd (hzero.symm.trans hset) (by decide)

end Sys2Proof.Machine
end

section
/-!
PROOF. The FIFOs and mailboxes of a channel (R188, R189).
-/
namespace Sys2Proof.Machine

/-! ### Updates of the FIFOs -/

/-- Two updates of the FIFOs that give them the same contents are one. -/
theorem State.modFifos_congr {s : State} {c : Fin 56} {f g : Fifos → Fifos} (h : f (s.ch c).fifos = g (s.ch c).fifos) :
    s.modFifos c f = s.modFifos c g := by
  simp only [State.modFifos, State.modCh, h]

theorem State.modFifos_modFifos (s : State) (c : Fin 56) (f g : Fifos → Fifos) :
    (s.modFifos c f).modFifos c g = s.modFifos c (fun x => g (f x)) := by
  simp [State.modFifos, State.modCh, State.ch]

/-! ### The RX FIFO -/

theorem rxDrop_of_cons {s : State} {c : Fin 56} {r : Rec} {rest : List Rec} (h : (s.ch c).fifos.rx = r :: rest) :
    rxDrop s c = rtsMoves s (s.modFifos c (fun f => { f with rx := rest, rxPos := 0 })) c := by
  rw [rxDrop, State.modFifos_congr (g := fun f => { f with rx := rest, rxPos := 0 }) (by rw [h]; rfl)]

section
variable {s : State} {c : Fin 56}

/-- A read or a pop of the empty RX FIFO sets UNDERRUN. -/
theorem does_rx_of_empty (h : (s.ch c).fifos.rx = []) :
    Does (.rxDataRead c) s (s.raise (Fld.FIFO_EVT_RX_UNDERRUN c)) ∧ Does (.rxPop c) s (s.raise (Fld.FIFO_EVT_RX_UNDERRUN c)) := by
  have hread : (rxDataRead s c).2 = s.raise (Fld.FIFO_EVT_RX_UNDERRUN c) := by simp only [rxDataRead, h]
  have hpop : rxPop s c = s.raise (Fld.FIFO_EVT_RX_UNDERRUN c) := by simp only [rxPop, h]
  exact ⟨congrArg done hread, congrArg done hpop⟩

variable {r : Rec} {rest : List Rec} (h : (s.ch c).fifos.rx = r :: rest)
include h

/-- RX_DATA gives the next 8 bytes of the oldest item, which goes after its last ones. -/
theorem doesSome_rxDataRead_of_cons : DoesSome (.rxDataRead c) s (fun u =>
    (u.ch c).fifos.rxLast = BitVec.ofNat 64 (leNat (((recBytes r).drop (s.ch c).fifos.rxPos).take 8)) ∧
    (if recSize r ≤ (s.ch c).fifos.rxPos + 8 then (u.ch c).fifos.rx = rest ∧ (u.ch c).fifos.rxPos = 0
      else (u.ch c).fifos.rx = r :: rest ∧ (u.ch c).fifos.rxPos = (s.ch c).fifos.rxPos + 8)) := by
  refine ⟨(rxDataRead s c).2, rfl, ?_⟩
  simp only [rxDataRead, h]
  split
  case isTrue =>
    obtain ⟨sent, hsent⟩ := sends_rxDrop (s.modFifos c (fun f => { f with
      rxLast := BitVec.ofNat 64 (leNat (((recBytes r).drop (s.ch c).fifos.rxPos).take 8)), rxPos := f.rxPos + 8 })) c
    simp only [hsent.fifos, State.modFifos_fifos, h, List.tail_cons, and_self]
  case isFalse => simp only [State.modFifos_fifos, h, and_self]

/-- RX_POP drops the oldest item, and RTS_N follows the room it makes (R175). -/
theorem does_rxPop_of_cons {p : State} (hp : p = s.modFifos c (fun f => { f with rx := rest, rxPos := 0 })) :
    (modeOf s c = modeUart ∧ c.val < 48 ∧ fioPin p c 2 ≠ fioPin s c 2 → Does (.rxPop c) s (drivePin p c 2)) ∧
    (¬(modeOf s c = modeUart ∧ c.val < 48 ∧ fioPin p c 2 ≠ fioPin s c 2) → Does (.rxPop c) s p) := by
  have hpop : rxPop s c = rtsMoves s p c := by
    simp only [rxPop, h]
    rw [rxDrop_of_cons h, hp]
  have hmode : modeOf p c = modeOf s c := by rw [hp]; rfl
  refine ⟨fun hmoves => congrArg done (hpop.trans ?_), fun hstays => congrArg done (hpop.trans ?_)⟩
  · exact if_pos (by rwa [hmode])
  · exact if_neg (by rwa [hmode])

end

/-! ### The TX FIFO -/

section
variable {s : State} {c : Fin 56}

/-- A TX_PUSH of bytes that are no item discards them and sets TX_BAD. -/
theorem doesSome_txPush_of_bad (hbad : txItemOk s c (s.ch c).fifos.build = false) : DoesSome (.txPush c) s (fun u =>
    u.isSet (Fld.FIFO_EVT_TX_BAD c) = true ∧ (u.ch c).fifos.tx = (s.ch c).fifos.tx ∧ (u.ch c).fifos.build = []) := by
  refine ⟨(s.modFifos c (fun f => { f with build := [] })).raise (Fld.FIFO_EVT_TX_BAD c), congrArg done (if_neg ?_), ?_, ?_, ?_⟩
  · exact Bool.eq_false_iff.mp hbad
  · exact State.isSet_raise _ Nat.one_pos
  · rw [State.raise_eq, State.put_ch, State.modFifos_fifos]
  · rw [State.raise_eq, State.put_ch, State.modFifos_fifos]

variable (hok : txItemOk s c (s.ch c).fifos.build = true) (hmarker : txHasMarker (s.ch c).fifos = false)
include hok

theorem txPush_of_ok : txPush s c = txQueue (s.modFifos c (fun f => { f with build := [] })) c (s.ch c).fifos.build := if_pos hok

include hmarker

/-- With no marker held an item is queued last where it finds room, and becomes a marker where no slot is free. -/
theorem txPush_of_room (hslot : txItems (s.ch c).fifos < 31) (hroom : (s.ch c).fifos.build.length ≤ txFree (s.ch c).fifos) :
    txPush s c = s.modFifos c (fun f => { f with build := [], tx := f.tx ++ [.item (s.ch c).fifos.build false] }) := by
  have hmarker' : txHasMarker { (s.ch c).fifos with build := [] } = false := hmarker
  have hroom' : txItems { (s.ch c).fifos with build := [] } < 31 ∧
      (s.ch c).fifos.build.length ≤ txFree { (s.ch c).fifos with build := [] } := ⟨hslot, hroom⟩
  simp only [txPush_of_ok hok, txQueue, State.modFifos_fifos, hmarker', hroom', Bool.false_eq_true, if_false, and_self, if_true,
    State.modFifos_modFifos]

theorem txPush_of_full (hfull : 31 ≤ txItems (s.ch c).fifos) :
    txPush s c = s.modFifos c (fun f => { f with build := [], tx := f.tx ++ [.marker 1] }) := by
  have hmarker' : txHasMarker { (s.ch c).fifos with build := [] } = false := hmarker
  have hfull' : ¬ txItems { (s.ch c).fifos with build := [] } < 31 := Nat.not_lt.mpr hfull
  simp only [txPush_of_ok hok, txQueue, State.modFifos_fifos, hmarker', hfull', false_and, Bool.false_eq_true, if_false,
    State.modFifos_modFifos]

end

/-! ### Mailboxes -/

section
variable {l : List MbEnt} (hl : ∀ x ∈ l, ∀ n, x ≠ .marker n)
include hl

theorem no_marker_any : l.any (fun e => match e with | .marker _ => true | _ => false) = false := by
  refine List.any_eq_false.mpr fun x hx => ?_
  cases x with
  | data => exact Bool.false_ne_true
  | marker n => exact absurd rfl (hl _ hx n)

/-- A push without a marker goes last where a slot is free, and becomes a marker where none is. -/
theorem mbPush_of_room (hroom : l.length < 15) (w : Word) : mbPush l w = (l ++ [.data w], false) := by
  exact (if_neg (Bool.eq_false_iff.mp (no_marker_any hl))).trans (if_pos hroom)

theorem mbPush_of_full (hfull : l.length = 15) (w : Word) : mbPush l w = (l ++ [.marker 1], true) := by
  exact (if_neg (Bool.eq_false_iff.mp (no_marker_any hl))).trans (if_neg (by omega))

end

section
variable {s : State} {c : Fin 56}

theorem mboPush_of_room (hl : ∀ x ∈ (s.ch c).fifos.mbo, ∀ n, x ≠ .marker n) (hroom : (s.ch c).fifos.mbo.length < 15) (v : Word) :
    mboPush s c v = s.modFifos c (fun f => { f with mbo := f.mbo ++ [.data v] }) := by
  simp only [mboPush, mbPush_of_room hl hroom, Bool.false_eq_true, if_false]
  exact State.modFifos_congr rfl

theorem mboPush_of_full (hl : ∀ x ∈ (s.ch c).fifos.mbo, ∀ n, x ≠ .marker n) (hfull : (s.ch c).fifos.mbo.length = 15) (v : Word) :
    mboPush s c v = (s.modFifos c (fun f => { f with mbo := f.mbo ++ [.marker 1] })).raise (Fld.FIFO_EVT_MBO_GAP c) := by
  simp only [mboPush, mbPush_of_full hl hfull]
  exact congrArg (State.raise · _) (State.modFifos_congr rfl)

theorem mbiPush_of_room (hl : ∀ x ∈ (s.ch c).fifos.mbi, ∀ n, x ≠ .marker n) (hroom : (s.ch c).fifos.mbi.length < 15) (v : Word) :
    mbiPush s c v = s.modFifos c (fun f => { f with mbi := f.mbi ++ [.data v] }) := by
  simp only [mbiPush, mbPush_of_room hl hroom, Bool.false_eq_true, if_false]
  exact State.modFifos_congr rfl

end

/-! ### The mailbox registers of the host -/

theorem chPage_eq (c p : Nat) : chPage c p = 0x1000000 + c * 0x40000 + p * 0x1000 := rfl

/-- The register at an offset of a page of a channel's window (R394): its offset, the type of its page, its channel. -/
theorem window_place {a : Nat} {c : Fin 56} {p off : Nat} (ha : a = chPage c p + off) (hp : p < 8) (hoff : off < 0x1000) :
    a % 0x1000 = off ∧ pageType (pageOf a) = 0x100 + p ∧ winChan a = c := by
  rw [chPage_eq] at ha
  refine ⟨by omega, ?_, by rw [winChan]; omega⟩
  have hpage : pageOf a = chPage c p := by rw [chPage_eq, pageOf]; omega
  rw [hpage, chPage_eq, pageType, if_pos (by omega), if_pos (by omega)]
  omega

theorem regAt_mbiData (c : Fin 56) : (regAt (Reg.MBI_DATA c)).isNone = false := by
  revert c
  decide +kernel

theorem regWrite_mbiData (s : State) (c : Fin 56) (v : Nat) :
    regWrite s (Reg.MBI_DATA c) v = .ok (mbiPush s c (BitVec.ofNat 64 v)) := by
  obtain ⟨hoff, htype, hchan⟩ := window_place (a := Reg.MBI_DATA c) rfl (by decide) (by decide)
  have hlt : winChan (Reg.MBI_DATA c) < 56 := hchan.trans_lt c.isLt
  have hc : (⟨winChan (Reg.MBI_DATA c), hlt⟩ : Fin 56) = c := Fin.ext hchan
  simp only [regWrite, regAt_mbiData, Bool.false_eq_true, if_false, htype, hoff, if_true, hlt, dite_true, hc]

/-- A host write of MBI_DATA is a push. -/
theorem hostWrite64_mbiData {s : State} {c : Fin 56} {v : Word} (h : Reaches s (Reg.MBI_DATA c) v.toNat) :
    hostWrite64 s (Reg.MBI_DATA c) v.toNat = mbiPush (Touched s (Reg.MBI_DATA c)) c v := by
  rw [hostWrite64_of_ok h (regWrite_mbiData ..), BitVec.ofNat_toNat, BitVec.setWidth_eq]

theorem regRead_mboData (s : State) (c : Fin 56) : regRead s (Reg.MBO_DATA c) = ((mboRead s c).1.toNat, (mboRead s c).2) := by
  obtain ⟨hoff, htype, hchan⟩ := window_place (a := Reg.MBO_DATA c) rfl (by decide) (by decide)
  have hlow : 0x1000000 ≤ Reg.MBO_DATA c := by rw [Reg.MBO_DATA, chPage_eq]; omega
  have htime : Reg.MBO_DATA c ≠ Reg.TIME_NS := by rw [Reg.TIME_NS]; omega
  have hpound : Reg.MBO_DATA c ≠ Reg.POUND_STATUS := by rw [Reg.POUND_STATUS]; omega
  have hmon : ¬ (0x32110 ≤ Reg.MBO_DATA c ∧ Reg.MBO_DATA c < 0x321B0 ∧ Reg.MBO_DATA c % 16 = 8) := by omega
  have hlt : winChan (Reg.MBO_DATA c) < 56 := hchan.trans_lt c.isLt
  have hc : (⟨winChan (Reg.MBO_DATA c), hlt⟩ : Fin 56) = c := Fin.ext hchan
  rw [regRead, if_neg htime, if_neg hpound, if_neg hmon, dif_pos ⟨htype, hoff, hlt⟩, hc]

/-- A host read of MBO_DATA takes the oldest value (R188). -/
theorem doesSome_hostMboRead {s : State} {c : Fin 56} {w : Word} {l : List MbEnt} (hpage : PageAt s (Reg.MBO_DATA c))
    (hmbo : (s.ch c).fifos.mbo = .data w :: l) : DoesSome (.hostMboRead c) s (fun u =>
      u.out = s.out ++ [.readData w false] ∧ (u.ch c).fifos.mbo = l ∧ (u.ch c).fifos.mboLast = w) := by
  have hread : mboRead s c = (w, s.modFifos c (fun f => { f with mbo := l, mboLast := w })) := by simp only [mboRead, hmbo]
  refine ⟨_, congrArg done (hostRead64_of_pageAt hpage), ?_⟩
  rw [regRead_mboData, hread]
  have hfifos := State.modFifos_fifos s c (fun f => { f with mbo := l, mboLast := w })
  refine ⟨?_, congrArg Fifos.mbo hfifos, congrArg Fifos.mboLast hfifos⟩
  rw [State.answer, State.emit_out, BitVec.ofNat_toNat, BitVec.setWidth_eq]
  rfl

/-! ### The obligation -/

/-- Settles O36: each clause reads off what the FIFO's operation does in its case. -/
theorem fifos : Obligations.Fifos := by
  unfold Obligations.Fifos
  intro s p c v r rest b w l
  refine ⟨does_rx_of_empty, fun hrx => ⟨doesSome_rxDataRead_of_cons hrx, does_rxPop_of_cons hrx⟩, rfl, ?_, fun hmbi => ?_, fun hmbi => ?_,
    fun hmbo => ⟨fun hroom => ?_, fun hfull => ?_⟩, fun hreach hmbi hroom => ?_, fun hpage hmbo => doesSome_hostMboRead hpage hmbo⟩
  · rintro rfl
    exact ⟨doesSome_txPush_of_bad, fun hok hmarker hslot hroom => congrArg done (txPush_of_room hok hmarker hslot hroom),
      fun hok hmarker hfull => congrArg done (txPush_of_full hok hmarker hfull)⟩
  · have hread : (mbiRead s c).2 = s.raise (Fld.FIFO_EVT_MBI_UNDERRUN c) := by simp only [mbiRead, hmbi]
    exact congrArg done hread
  · have hread : (mbiRead s c).2 = s.modFifos c (fun f => { f with mbi := l, mbiLast := w }) := by simp only [mbiRead, hmbi, mbValue]
    exact congrArg done hread
  · exact congrArg done (mboPush_of_room hmbo hroom v)
  · exact congrArg done (mboPush_of_full hmbo hfull v)
  · exact congrArg done ((hostWrite64_mbiData hreach).trans (mbiPush_of_room (s := Touched s (Reg.MBI_DATA c)) hmbi hroom v))

end Sys2Proof.Machine
end

section
/-!
PROOF. What an engine's events and the items it places leave as they were, and the items placed (R177, R188, R192, R194, R195).
-/
namespace Sys2Proof.Machine

/-! ### The pages of a channel's window (R394) -/

section
variable {c p q off i lo w rst : Nat}

theorem key_lt_page (hpq : p < q) (hoff : off < 0x1000) (hlo : lo < 64) : fldKey ⟨chPage c p + off, lo, w, rst⟩ < chPage c q * 64 := by
  simp only [fldKey, chPage_eq]
  omega

theorem page_le_key (hpq : p ≤ q) : chPage c p * 64 ≤ fldKey ⟨chPage c q + off, lo, w, rst⟩ := by
  simp only [fldKey, chPage_eq]
  omega

theorem page_le_entry (hpq : p ≤ q) : chPage c p * 64 ≤ fldKey ⟨chPage c q + off + i, lo, w, rst⟩ := by
  simp only [fldKey, chPage_eq]
  omega

end

/-- The time and the tick lie below the channel windows. -/
theorem now_lt_page (c p : Nat) : fldKey Fld.TIME_NS_TIME_NS < chPage c p * 64 := by
  simp only [fldKey, Fld.TIME_NS_TIME_NS, Reg.TIME_NS, chPage_eq]
  omega

theorem tick_lt_page (c p : Nat) : fldKey Fld.TICKNO_TICKNO < chPage c p * 64 := by
  simp only [fldKey, Fld.TICKNO_TICKNO, Reg.TICKNO, chPage_eq]
  omega

/-! ### Events to the keeper's threads (R162) -/

theorem foldl_modTh_eq (f : Fin 8 → Thread → Thread) (c : Fin 56) (l : List (Fin 8)) (s : State) :
    ∃ x, l.foldl (fun s t => s.modTh c t (f t)) s = { s with chans := x } := by
  induction l generalizing s with
  | nil => exact ⟨s.chans, rfl⟩
  | cons t l ih =>
    obtain ⟨x, hx⟩ := ih (s.modTh c t (f t))
    exact ⟨x, hx⟩

theorem busEvent_eq (s : State) (c : Fin 56) : ∃ x, busEvent s c = { s with chans := x } := foldl_modTh_eq _ c _ s

theorem busEvent_ch (s : State) (c : Fin 56) : ∃ ts, (busEvent s c).ch c = { s.ch c with threads := ts } := foldl_modTh_ch _ c _ s

@[simp] theorem busEvent_get (s : State) (c : Fin 56) (g : Fld) : (busEvent s c).get g = s.get g := by
  obtain ⟨x, hx⟩ := busEvent_eq s c
  rw [hx]
  rfl

@[simp] theorem busEvent_isSet (s : State) (c : Fin 56) (g : Fld) : (busEvent s c).isSet g = s.isSet g :=
  congrArg (· != 0) (busEvent_get s c g)

@[simp] theorem busEvent_out (s : State) (c : Fin 56) : (busEvent s c).out = s.out := by
  obtain ⟨x, hx⟩ := busEvent_eq s c
  rw [hx]

/-! ### Sequencer, FIFOs and bus engine kept -/

/-- The sequencer, the FIFOs and the bus engine of a channel are in `u` as in `s`. -/
structure KeepsItems (s u : State) (c : Fin 56) : Prop where
  sq : u.sq c = s.sq c
  fifos : (u.ch c).fifos = (s.ch c).fifos
  bus : (u.ch c).bus = (s.ch c).bus

theorem KeepsItems.refl (s : State) (c : Fin 56) : KeepsItems s s c := ⟨rfl, rfl, rfl⟩

section
variable {s u : State} {c : Fin 56} (h : KeepsItems s u c)
include h

theorem KeepsItems.trans {t : State} (k : KeepsItems u t c) : KeepsItems s t c :=
  ⟨k.sq.trans h.sq, k.fifos.trans h.fifos, k.bus.trans h.bus⟩

theorem KeepsItems.put (f : Fld) (v : Nat) : KeepsItems s (u.put f v) c := ⟨h.sq, h.fifos, h.bus⟩

theorem KeepsItems.ite {t : State} (b : Prop) [Decidable b] (k : KeepsItems s t c) : KeepsItems s (if b then u else t) c := by
  split
  · exact h
  · exact k

theorem KeepsItems.busEvent : KeepsItems s (busEvent u c) c := by
  obtain ⟨ts, hts⟩ := busEvent_ch u c
  exact h.trans ⟨by rw [State.sq, hts]; rfl, by rw [hts], by rw [hts]⟩

theorem KeepsItems.sends {t : State} {sent : List OutEvent} (k : Sends u t sent) : KeepsItems s t c := by
  rw [Sends] at k
  rw [k]
  exact ⟨h.sq, h.fifos, h.bus⟩

end

theorem Sends.keepsItems {s u : State} {sent : List OutEvent} (h : Sends s u sent) (c : Fin 56) : KeepsItems s u c := (KeepsItems.refl s c).sends h

theorem keepsItems_protoError (s : State) (c : Fin 56) : KeepsItems s (protoError s c) c := (((KeepsItems.refl s c).put _ _).put _ _).busEvent

theorem keepsItems_detailAdd (s : State) (c : Fin 56) (lo w : Nat) : KeepsItems s (detailAdd s c lo w) c :=
  ((KeepsItems.refl s c).put _ _).ite _ (.refl s c)

/-! ### Registers kept -/

theorem statAdd_get {c : Nat} (s : State) (i n : Nat) {g : Fld} (hg : fldKey g < chPage c 7 * 64) : (statAdd s c i n).get g = s.get g :=
  State.get_put_ne s _ (hg.trans_le (page_le_entry le_rfl)).ne

theorem detailAdd_get {c : Nat} (s : State) (lo w : Nat) {g : Fld} (hg : fldKey g < chPage c 7 * 64) :
    (detailAdd s c lo w).get g = s.get g := by
  unfold detailAdd
  extract_lets v part
  split
  · exact State.get_put_ne s _ (hg.trans_le (page_le_entry le_rfl)).ne
  · rfl

theorem protoError_get {c : Fin 56} (s : State) {g : Fld} (hevt : fldKey g ≠ fldKey (Fld.BE_EVT_PROTO_ERR c)) (hg : fldKey g < chPage c 7 * 64) :
    (protoError s c).get g = s.get g := by
  rw [protoError, busEvent_get, State.raise_eq, State.get_put_ne _ _ hevt, statAdd_get s _ _ hg]

theorem protoError_isSet (s : State) (c : Fin 56) : (protoError s c).isSet (Fld.BE_EVT_PROTO_ERR c) = true := by
  rw [protoError, busEvent_isSet]
  exact State.isSet_raise _ Nat.one_pos

/-! ### An item comes -/

/-- `u` differs from `s`, of channel `c`, in the RX FIFO alone, whose head is kept where it is no marker, and in registers of its FIFOs and
of the pages above them. -/
structure ItemsOnly (s u : State) (c : Fin 56) : Prop where
  sq : u.sq c = s.sq c
  bus : (u.ch c).bus = (s.ch c).bus
  head : ∀ r, (s.ch c).fifos.rx.head? = some r → isMarker r = false → (u.ch c).fifos.rx.head? = some r
  get : ∀ g, fldKey g < chPage c 4 * 64 → u.get g = s.get g

theorem ItemsOnly.refl (s : State) (c : Fin 56) : ItemsOnly s s c := ⟨rfl, rfl, fun _ h _ => h, fun _ _ => rfl⟩

section
variable {s u : State} {c : Fin 56} (h : ItemsOnly s u c)
include h

theorem ItemsOnly.trans {t : State} (k : ItemsOnly u t c) : ItemsOnly s t c :=
  ⟨k.sq.trans h.sq, k.bus.trans h.bus, fun r hr hm => k.head r (h.head r hr hm) hm, fun g hg => (k.get g hg).trans (h.get g hg)⟩

theorem ItemsOnly.put {f : Fld} (hf : chPage c 4 * 64 ≤ fldKey f) (v : Nat) : ItemsOnly s (u.put f v) c :=
  ⟨h.sq, h.bus, h.head, fun g hg => (State.get_put_ne u v (hg.trans_le hf).ne).trans (h.get g hg)⟩

theorem ItemsOnly.ite {t : State} (b : Prop) [Decidable b] (k : ItemsOnly s t c) : ItemsOnly s (if b then u else t) c := by
  split
  · exact h
  · exact k

theorem ItemsOnly.sends {t : State} {sent : List OutEvent} (k : Sends u t sent) : ItemsOnly s t c := by
  rw [Sends] at k
  rw [k]
  exact ⟨h.sq, h.bus, h.head, h.get⟩

theorem ItemsOnly.isSet {f : Fld} (hf : fldKey f < chPage c 4 * 64) : u.isSet f = s.isSet f := congrArg (· != 0) (h.get f hf)

theorem ItemsOnly.modRx (f : Fifos → Fifos)
    (hf : ∀ r, (u.ch c).fifos.rx.head? = some r → isMarker r = false → (f (u.ch c).fifos).rx.head? = some r) :
    ItemsOnly s (u.modFifos c f) c :=
  ⟨(State.modFifos_sq ..).trans h.sq, (State.modFifos_bus ..).trans h.bus,
    fun r hr hm => by rw [State.modFifos_fifos]; exact hf r (h.head r hr hm) hm, h.get⟩

end

theorem sends_rtsMoves (old s : State) (c : Fin 56) : ∃ sent, Sends s (rtsMoves old s c) sent := by
  unfold rtsMoves
  split
  · exact ⟨_, .emit _ _⟩
  · exact ⟨_, .refl _⟩

theorem itemsOnly_statAdd (s : State) (c : Fin 56) (i n : Nat) : ItemsOnly s (statAdd s c i n) c :=
  (ItemsOnly.refl s c).put (page_le_entry (by decide)) _

theorem itemsOnly_rxPlace (s : State) (c : Fin 56) (r : Rec) : ItemsOnly s (rxPlace s c r) c := by
  unfold rxPlace
  extract_lets f items dropped t
  have hstat (i : Nat) : ItemsOnly s (if c.val < 48 then statAdd s c i 1 else s) c := (itemsOnly_statAdd s c i 1).ite _ (.refl s c)
  have ht : ItemsOnly s t c := by
    refine ItemsOnly.ite (h := ?counted) _ (ItemsOnly.ite (h := ?stored) _ ?lost)
    case counted =>
      refine (hstat _).modRx _ fun m hm hitem => ?_
      rw [List.head?_map, hm, Option.map_some, hitem, if_neg Bool.false_ne_true]
    case stored => exact (hstat _).modRx _ fun m hm _ => by rw [List.head?_append, hm, Option.some_or]
    case lost =>
      exact ((hstat _).modRx _ fun m hm _ => by rw [List.head?_append, hm, Option.some_or]).put (page_le_key le_rfl) _
  obtain ⟨sent, hsent⟩ := sends_rtsMoves s t c
  exact ht.sends hsent

/-! ### Partners (R194, R195) -/

theorem itemsOnly_partnerAppear (s : State) (c : Fin 56) (i ts : Nat) : ItemsOnly s (partnerAppear s c i ts) c :=
  ((((ItemsOnly.refl s c).put (page_le_entry (by decide)) _).put (page_le_key (by decide)) _).put (page_le_entry (by decide)) _).trans
    (itemsOnly_rxPlace _ _ _)

theorem itemsOnly_partnerLeave (s : State) (c : Fin 56) (i ts : Nat) : ItemsOnly s (partnerLeave s c i ts) c :=
  (((ItemsOnly.refl s c).put (page_le_entry (by decide)) _).put (page_le_key (by decide)) _).trans (itemsOnly_rxPlace _ _ _)

theorem itemsOnly_partnerSeen (s : State) (c : Fin 56) (kind key ts : Nat) : ItemsOnly s (partnerSeen s c kind key ts) c := by
  unfold partnerSeen
  extract_lets held note
  have hnote {u : State} (hu : ItemsOnly s u c) (i : Nat) : ItemsOnly s (note u i) c :=
    (hu.put (page_le_entry (by decide)) _).put (page_le_entry (by decide)) _
  clear_value held
  cases held with
  | some i =>
    have hback : ItemsOnly s (if s.get (Fld.PT_ENTRY_STATE c i) = partnerAbsent then partnerAppear s c i ts else s) c :=
      (itemsOnly_partnerAppear s c i ts).ite _ (.refl s c)
    exact hnote hback i
  | none =>
    dsimp only
    split
    case h_1 i _ =>
      have hnew := ((ItemsOnly.refl s c).put (f := Fld.PT_ENTRY_KIND c i) (page_le_entry (by decide)) kind).put
        (f := Fld.PT_ENTRY_KEY c i) (page_le_entry (by decide)) key
      exact hnote (hnew.trans (itemsOnly_partnerAppear _ _ _ _)) i
    case h_2 => exact ((ItemsOnly.refl s c).put (page_le_key (by decide)) _).put (page_le_key (by decide)) _

theorem itemsOnly_partnerNack (s : State) (c : Fin 56) (key : Nat) : ItemsOnly s (partnerNack s c key) c := by
  unfold partnerNack
  split
  · exact itemsOnly_partnerLeave ..
  · exact .refl s c

/-! ### An item placed alone -/

section
variable {s : State} {c : Fin 56} {r : Rec} (hc : c.val < 48) (hrx : (s.ch c).fifos.rx = []) (hsize : recSize r ≤ 16384)
include hc hrx hsize

/-- An item that the empty RX FIFO can hold is placed alone and counted. -/
theorem placed_rxPlace : Placed s (rxPlace s c r) c r := by
  have hroom : ((s.ch c).fifos.rx.filter (fun r => !isMarker r)).length < 63 ∧ recSize r ≤ rxFree (s.ch c).fifos := by
    simp [rxFree, rxBytes, hrx, hsize]
  have hmarker : ¬ (s.ch c).fifos.rx.any isMarker = true := by simp [hrx]
  have hplace : rxPlace s c r = rtsMoves s ((statAdd s c statItemsOk 1).modFifos c (fun f => { f with rx := f.rx ++ [r] })) c := by
    simp only [rxPlace, hmarker, hroom, hc, and_self, if_true, if_false, Bool.false_eq_true]
  obtain ⟨sent, hsent⟩ := sends_rtsMoves s ((statAdd s c statItemsOk 1).modFifos c (fun f => { f with rx := f.rx ++ [r] })) c
  rw [hplace]
  refine ⟨?_, ?_⟩
  · rw [hsent.fifos, State.modFifos_fifos, statAdd, State.bumpWrap, State.put_ch, hrx, List.nil_append]
  · rw [hsent.get, State.modFifos_get, statAdd, State.bumpWrap]
    exact State.get_put_same ..

/-- It stands at the head, whatever items come after it. -/
theorem placedFirst_rxPlace (hitem : isMarker r = false) {u : State} (hu : ItemsOnly (rxPlace s c r) u c) : PlacedFirst u c r := by
  obtain ⟨hplaced, -⟩ := placed_rxPlace hc hrx hsize
  exact hu.head r (by rw [hplaced]; rfl) hitem

end

/-- What leaves the count of items as it was before them keeps the claim. -/
theorem Placed.of_count {s t u : State} {c : Fin 56} {r : Rec} (h : Placed t u c r)
    (hcount : t.get (Fld.STATS_CNT_COUNT c statItemsOk) = s.get (Fld.STATS_CNT_COUNT c statItemsOk)) : Placed s u c r := by
  obtain ⟨hrx, hstat⟩ := h
  exact ⟨hrx, by rw [hstat, hcount]⟩

/-! ### What surrounds the event of an item -/

section
variable {s : State} {c : Fin 56}

/-- With no order in execution, or one whose result is known, or one of another kind, no RECEIVE takes what came. -/
theorem received_of_idle (h : ∀ e, (s.sq c).exec = some e → e.order.op ≠ oReceive) : received s c = s := by
  unfold received recvPump
  split
  case h_1 e r _ hexec _ => exact if_pos (.inl (h e hexec))
  case h_2 => rfl

theorem received_of_none (h : (s.sq c).exec = none) : received s c = s := received_of_idle fun e he => by rw [h] at he; cases he

/-- An update that gives a channel what it holds changes nothing. -/
theorem State.modCh_of_eq {f : Chan → Chan} (h : f (s.ch c) = s.ch c) : s.modCh c f = s := by
  rw [State.modCh, h, State.ch]
  simp

/-- An item of a channel that is in no fence counts for none. -/
theorem fencedItem_of_quiet (h : Quiet s c) (ts : Option Nat) : fencedItem s c ts = s := by
  obtain ⟨-, -, hfence, -⟩ := h
  have hstop {g : GapCount} : (s.ch c).stopping.map (fun p => if p.fenced then { p with lost := p.lost.join g } else p) = (s.ch c).stopping := by
    cases hp : (s.ch c).stopping with
    | none => rfl
    | some p => rw [Option.map_some, hfence p hp, if_neg Bool.false_ne_true]
  unfold fencedItem
  extract_lets g
  exact State.modCh_of_eq (by rw [hstop])

theorem engineUp_of_on (h : engineOf s c = engOn) : engineUp s c = true := by simp [engineUp, h]

end

end Sys2Proof.Machine
end

section
/-!
PROOF. Items of SENT, PSI5, UART and TIMER channels (R177, R182, R183, R186).
-/
namespace Sys2Proof.Machine

/-! ### The event of an item -/

theorem recSize_le {r : Rec} (h : r.payload.length ≤ 16368) : recSize r ≤ 16384 := by
  rw [recSize]
  omega

/-- On a quiet channel an event does what its engine `f` makes of it. -/
theorem received_fencedItem (f : State → State) {s u : State} {c : Fin 56} {ts : Option Nat} (h : Quiet s c) (hf : f s = u)
    (hidle : (u.sq c).exec = none) : received (f (fencedItem s c ts)) c = u := by
  rw [fencedItem_of_quiet h, hf, received_of_none hidle]

/-! ### SENT (R182) -/

section
variable {s : State} {c : Fin 56} {m : SentMsg} (ts : Word) (h : Receives s c modeSent)
include h

/-- A message whose calibration pulse and CRC are right becomes an item, and its pulse the last accepted one. -/
theorem doesSome_sentMessage_of_good (hcal : sentCalOk s c m.cal.toNat = true) (hcrc : sentCrcBad s c m = false) (hkind : m.kind = 1) :
    DoesSome (.sentMessage c m ts) s (fun u => (u.ch c).bus.sentCal = some m.cal.toNat ∧ PlacedFirst u c ⟨min ts.toNat s.now, 0x04, c.val, 0, 0,
      leBytes 1 1 ++ leBytes 1 (s.get (Fld.SENT_CFG_NIBBLES c)) ++ leBytes 1 (m.status.toNat % 16) ++ leBytes 1 0 ++ leBytes 4 m.cal.toNat ++
        leBytes 4 m.data.toNat ++ leBytes 1 m.serialId.toNat ++ leBytes 3 0⟩) := by
  obtain ⟨hquiet, hc, hmode, hengine⟩ := h
  obtain ⟨hexec, -, -, hrx⟩ := id hquiet
  set t := s.modBus c (fun b => { b with sentCal := some m.cal.toNat }) with ht
  set r : Rec := ⟨min ts.toNat s.now, 0x04, c.val, 0, 0, _⟩ with hr
  have heq : sentMessage s c m ts.toNat = partnerSeen (rxPlace t c r) c 0x04 0 (min ts.toNat s.now) := by
    simp [sentMessage, hmode, engineUp_of_on hengine, sentTakes, hkind, hcal, hcrc, ht, hr, clampTs, State.now]
  have hplaced := itemsOnly_rxPlace t c r
  have hseen := itemsOnly_partnerSeen (rxPlace t c r) c 0x04 0 (min ts.toNat s.now)
  have hall := hplaced.trans hseen
  have hidle : ((partnerSeen (rxPlace t c r) c 0x04 0 (min ts.toNat s.now)).sq c).exec = none := by
    rw [hall.sq, ht, State.modBus_sq, hexec]
  refine ⟨_, congrArg done (received_fencedItem (sentMessage · c m ts.toNat) hquiet heq hidle), ?_, ?_⟩
  · rw [hall.bus, ht, State.modBus_bus]
  · exact placedFirst_rxPlace hc (by rw [ht, State.modBus_fifos, hrx]) (recSize_le (by simp [hr])) rfl hseen

/-- A message whose calibration pulse is not accepted is lost. -/
theorem doesSome_sentMessage_of_cal (htakes : sentTakes s c m.kind.toNat = true) (hcal : sentCalOk s c m.cal.toNat = false) :
    DoesSome (.sentMessage c m ts) s (fun u => (u.ch c).fifos.rx = [] ∧ u.isSet (Fld.BE_EVT_SYNC_LOST c) = true) := by
  obtain ⟨hquiet, -, hmode, hengine⟩ := h
  obtain ⟨hexec, -, -, hrx⟩ := id hquiet
  set t := detailAdd (statAdd s c statProto 1) c 32 32 with ht
  have heq : sentMessage s c m ts.toNat = busEvent (t.raise (Fld.BE_EVT_SYNC_LOST c)) c := by
    simp [sentMessage, hmode, engineUp_of_on hengine, htakes, hcal, ht]
  have hkeeps : KeepsItems s (busEvent (t.raise (Fld.BE_EVT_SYNC_LOST c)) c) c :=
    ((((KeepsItems.refl s c).put _ _).trans (keepsItems_detailAdd _ _ _ _)).put _ _).busEvent
  refine ⟨_, congrArg done (received_fencedItem (sentMessage · c m ts.toNat) hquiet heq (by rw [hkeeps.sq, hexec])), ?_, ?_⟩
  · rw [hkeeps.fifos, hrx]
  · rw [busEvent_isSet]
    exact State.isSet_raise _ Nat.one_pos

end

/-! ### PSI5 (R183) -/

/-- The counts and events of a PSI5 frame's errors. -/
def psi5Errors (s : State) (c : Fin 56) (check any : Bool) : State :=
  let s := if check then detailAdd s c 0 32 else s
  if any then protoError s c else s

theorem keepsItems_psi5Errors (s : State) (c : Fin 56) (check any : Bool) : KeepsItems s (psi5Errors s c check any) c := by
  have hcheck : KeepsItems s (if check then detailAdd s c 0 32 else s) c := (keepsItems_detailAdd s c 0 32).ite _ (.refl s c)
  exact (hcheck.trans (keepsItems_protoError _ c)).ite _ hcheck

theorem psi5Errors_isSet (s : State) (c : Fin 56) (check : Bool) : (psi5Errors s c check true).isSet (Fld.BE_EVT_PROTO_ERR c) = true := by
  rw [psi5Errors, if_pos rfl]
  exact protoError_isSet _ c

section
variable {s : State} {c : Fin 56}

/-- The item of a PSI5 frame of `k` data bits in slot 0. -/
def psi5Item (s : State) (c : Fin 56) (k data ts : Nat) (ce me : Bool) : Rec :=
  ⟨min ts s.now, 0x05, c.val, 0, if ce || me then 2 else 0,
    leBytes 4 (data % 2 ^ k) ++ leBytes 1 0 ++ leBytes 1 ((if ce then 1 else 0) + (if me then 2 else 0)) ++ leBytes 2 0⟩

section
variable {k : Nat} {ce me : Bool} {check : BitVec 3} {data : Long} (ts : Word) (h : Receives s c modePsi5)
  (hsync : s.isSet (Fld.PSI5_CFG_SYNC c) = false) (hk : k = s.get (Fld.PSI5_CFG_DATA_BITS c))
  (hce : ce = (check.toNat % (if s.isSet (Fld.PSI5_CFG_CHECK c) then 8 else 2) !=
    psi5Check (s.isSet (Fld.PSI5_CFG_CHECK c)) k (data.toNat % 2 ^ k)))
include h hsync hk hce

theorem psi5Frame_of_async : psi5Frame s c data.toNat ts.toNat check.toNat me =
    if ce || me then rxPlace (psi5Errors s c ce (ce || me)) c (psi5Item s c k data.toNat ts.toNat ce me)
    else partnerSeen (rxPlace (psi5Errors s c ce (ce || me)) c (psi5Item s c k data.toNat ts.toNat ce me)) c 0x05 0 (min ts.toNat s.now) := by
  obtain ⟨-, -, hmode, hengine⟩ := h
  simp only [psi5Frame, hmode, engineUp_of_on hengine, hsync, ← hk, ← hce, BEq.rfl, Bool.and_self, if_true, Bool.false_eq_true, if_false,
    psi5Errors, psi5Item, clampTs]

/-- A frame without slots becomes an item, with the errors of its check bits and of its coding. -/
theorem doesSome_psi5Frame : DoesSome (.psi5Frame c data ts check me) s (fun u =>
    PlacedFirst u c (psi5Item s c k data.toNat ts.toNat ce me) ∧ ((ce || me) = true → u.isSet (Fld.BE_EVT_PROTO_ERR c) = true)) := by
  have heq := psi5Frame_of_async (me := me) ts h hsync hk hce
  obtain ⟨hquiet, hc, -⟩ := h
  obtain ⟨hexec, -, -, hrx⟩ := id hquiet
  have hkeeps := keepsItems_psi5Errors s c ce (ce || me)
  have hu : ItemsOnly (rxPlace (psi5Errors s c ce (ce || me)) c (psi5Item s c k data.toNat ts.toNat ce me))
      (psi5Frame s c data.toNat ts.toNat check.toNat me) c := by
    rw [heq]
    exact (ItemsOnly.refl _ c).ite _ (itemsOnly_partnerSeen ..)
  have hall := (itemsOnly_rxPlace _ c _).trans hu
  refine ⟨_, congrArg done (received_fencedItem (psi5Frame · c data.toNat ts.toNat check.toNat me) hquiet rfl
    (by rw [hall.sq, hkeeps.sq, hexec])), ?_, fun hany => ?_⟩
  · exact placedFirst_rxPlace hc (by rw [hkeeps.fifos, hrx]) (recSize_le (by simp [psi5Item])) rfl hu
  · rw [hall.isSet (f := Fld.BE_EVT_PROTO_ERR c) (key_lt_page (by decide) (by decide) (by decide)), hany]
    exact psi5Errors_isSet s c ce

end

/-- The SYNC request rises at the present multiple of its period. -/
theorem doesSome_psi5Sync (hmode : modeOf s c = modePsi5) (hengine : engineOf s c = engOn) (hsync : s.isSet (Fld.PSI5_CFG_SYNC c) = true)
    (hseen : (s.ch c).bus.psiSeen = false) : DoesSome (.psi5Sync c) s (fun u =>
      u.out = s.out ++ [.pin c 1 true] ∧ (u.ch c).bus.psiSync = true ∧ (u.ch c).bus.psiSeen = true ∧
      (u.ch c).bus.psiNs = s.now / (s.get (Fld.PSI5_CFG_SYNC_PERIOD_US c) * 1000) * (s.get (Fld.PSI5_CFG_SYNC_PERIOD_US c) * 1000)) := by
  refine ⟨psi5Sync s c, rfl, ?_⟩
  simp [psi5Sync, hmode, engineUp_of_on hengine, hsync, hseen, State.modBus]

theorem does_psi5SyncFall (hhigh : (s.ch c).bus.psiSync = true) :
    Does (.psi5SyncFall c) s ((s.modBus c (fun b => { b with psiSync := false })).emit (.pin c 1 false)) := congrArg done (if_pos hhigh)

end

end Sys2Proof.Machine
end

section
/-!
PROOF. Items of UART channels and edges of TIMER channels (R177, R186).
-/
namespace Sys2Proof.Machine

/-! ### UART (R177) -/

/-- The item of characters without errors. -/
def uartRec (u : UartItem) (c why : Nat) : Rec :=
  ⟨u.ts, 0x06, c, 0, 0, leBytes 2 u.chars.length ++ leBytes 1 why ++ leBytes 1 0 ++ leBytes 2 0xFFFF ++ leBytes 2 0 ++
    (u.chars.map (leBytes 1)).flatten⟩

theorem uartRec_length (u : UartItem) (c why : Nat) : (uartRec u c why).payload.length = 8 + u.chars.length := by
  simp [uartRec, List.length_flatten, Function.comp_def]
  omega

section
variable {s : State} {c : Fin 56}

theorem uartEnd_of_clean {u : UartItem} (huart : (s.ch c).bus.uart = some u) (hframing : u.frErr = false) (hparity : u.paErr = false)
    (hnarrow : s.get (Fld.UART_CFG_DATA_BITS c) ≠ 9) (why : Nat) :
    uartEnd s c why = rxPlace (s.modBus c (fun b => { b with uart := none })) c (uartRec u c why) := by
  simp [uartEnd, huart, hframing, hparity, hnarrow, uartRec]

/-- What an item's end leaves. -/
theorem placed_uartEnd {u : UartItem} (hc : c.val < 48) (hrx : (s.ch c).fifos.rx = []) (huart : (s.ch c).bus.uart = some u)
    (hframing : u.frErr = false) (hparity : u.paErr = false) (hnarrow : s.get (Fld.UART_CFG_DATA_BITS c) ≠ 9)
    (hlen : u.chars.length ≤ 2048) (why : Nat) :
    ((uartEnd s c why).ch c).bus.uart = none ∧ Placed s (uartEnd s c why) c (uartRec u c why) ∧ (uartEnd s c why).sq c = s.sq c := by
  have hsize : recSize (uartRec u c why) ≤ 16384 := recSize_le (by rw [uartRec_length]; omega)
  have hplaced := itemsOnly_rxPlace (s.modBus c (fun b => { b with uart := none })) c (uartRec u c why)
  rw [uartEnd_of_clean huart hframing hparity hnarrow]
  refine ⟨?_, Placed.of_count (placed_rxPlace hc ?_ hsize) rfl, ?_⟩
  · rw [hplaced.bus, State.modBus_bus]
  · rw [State.modBus_fifos, hrx]
  · rw [hplaced.sq, State.modBus_sq]

theorem uartExchange_of_idle (hexec : (s.sq c).exec = none) (ch : Nat) (err : Bool) : uartExchange s c ch err = none := by
  simp only [uartExchange, hexec]

/-- Two updates of the engine that give it the same contents are one. -/
theorem State.modBus_congr {f g : Bus → Bus} (h : f (s.ch c).bus = g (s.ch c).bus) : s.modBus c f = s.modBus c g := by
  simp only [State.modBus, State.modCh, h]

/-- A first character begins an item. -/
def uartBegun (s : State) (c : Fin 56) (ch ts : Nat) : State :=
  s.modBus c (fun b => { b with uart := some ⟨min ts s.now, [ch], false, false, 0⟩ })

theorem uartChar_of_first (hmode : modeOf s c = modeUart) (hengine : engineOf s c = engOn) (huart : (s.ch c).bus.uart = none)
    (hnarrow : s.get (Fld.UART_CFG_DATA_BITS c) ≠ 9) (hmax : 1 < s.get (Fld.UART_CFG_MAX_LEN c)) (ch ts : Nat) :
    uartChar s c ch ts false false =
      if s.isSet (Fld.UART_CFG_DELIM_EN c) && ch == s.get (Fld.UART_CFG_DELIM c) then uartEnd (uartBegun s c ch ts) c 4
      else uartBegun s c ch ts := by
  have hlong : ¬ s.get (Fld.UART_CFG_MAX_LEN c) ≤ 1 := Nat.not_le.mpr hmax
  have hitem : ((uartBegun s c ch ts).ch c).bus.uart = some ⟨min ts s.now, [ch], false, false, 0⟩ := by simp [uartBegun]
  have hget (g : Fld) : (uartBegun s c ch ts).get g = s.get g := rfl
  have hset (g : Fld) : (uartBegun s c ch ts).isSet g = s.isSet g := rfl
  unfold uartChar
  rw [if_pos (by rw [hmode, engineUp_of_on hengine, BEq.rfl, Bool.and_self])]
  extract_lets wide t s₁ s₂ n
  have hbegun : s₂ = uartBegun s c ch ts := State.modBus_congr (by simp [s₁, huart, t, clampTs])
  have hone : n = 1 := by simp [n, hbegun, hitem]
  have hwide : wide = false := beq_eq_false_iff_ne.mpr hnarrow
  simp only [hone, hwide, hbegun, hget, hset, Bool.false_eq_true, if_false, Nat.mul_one, hlong]

variable (hquiet : Quiet s c) (hc : c.val < 48)
include hquiet hc

theorem doesSome_uartItemEnd {u : UartItem} (huart : (s.ch c).bus.uart = some u) (hlen : u.chars.length ≤ 2048) (hframing : u.frErr = false)
    (hparity : u.paErr = false) (hnarrow : s.get (Fld.UART_CFG_DATA_BITS c) ≠ 9) :
    DoesSome (.uartItemEnd c) s (fun v => (v.ch c).bus.uart = none ∧ Placed s v c (uartRec u c 16)) := by
  obtain ⟨hexec, -, -, hrx⟩ := id hquiet
  obtain ⟨hnone, hplaced, hsq⟩ := placed_uartEnd hc hrx huart hframing hparity hnarrow hlen 16
  exact ⟨_, congrArg done (received_fencedItem (uartEnd · c 16) hquiet rfl (by rw [hsq, hexec])), hnone, hplaced⟩

variable (hmode : modeOf s c = modeUart) (hengine : engineOf s c = engOn) (huart : (s.ch c).bus.uart = none)
  (hnarrow : s.get (Fld.UART_CFG_DATA_BITS c) ≠ 9) (hmax : 1 < s.get (Fld.UART_CFG_MAX_LEN c)) (ch : BitVec 9) (ts : Word)
include hmode hengine huart hnarrow hmax

omit hc in
theorem does_uartCharacter_of_begun (hdelim : s.isSet (Fld.UART_CFG_DELIM_EN c) = false) :
    Does (.uartCharacter c ch ts false false) s (uartBegun s c ch.toNat ts.toNat) := by
  obtain ⟨hexec, -⟩ := hquiet
  have hchar := uartChar_of_first hmode hengine huart hnarrow hmax ch.toNat ts.toNat
  rw [hdelim, Bool.false_and, if_neg Bool.false_ne_true] at hchar
  have hidle : ((uartBegun s c ch.toNat ts.toNat).sq c).exec = none := by rw [uartBegun, State.modBus_sq, hexec]
  show execUartCharacter c ch ts false false s = _
  rw [execUartCharacter, uartExchange_of_idle hexec, hchar, received_of_none hidle]
  rfl

/-- A delimiter ends the item it begins. -/
theorem doesSome_uartCharacter_of_delim (hdelim : s.isSet (Fld.UART_CFG_DELIM_EN c) = true) (hch : ch.toNat = s.get (Fld.UART_CFG_DELIM c)) :
    DoesSome (.uartCharacter c ch ts false false) s (fun u =>
      Placed s u c (uartRec ⟨min ts.toNat s.now, [ch.toNat], false, false, 0⟩ c 4) ∧ (u.ch c).bus.uart = none) := by
  obtain ⟨hexec, -, -, hrx⟩ := hquiet
  have hchar := uartChar_of_first hmode hengine huart hnarrow hmax ch.toNat ts.toNat
  rw [hdelim, hch, BEq.rfl, Bool.and_self, if_pos rfl, ← hch] at hchar
  obtain ⟨hnone, hplaced, hsq⟩ := placed_uartEnd (s := uartBegun s c ch.toNat ts.toNat) (u := ⟨min ts.toNat s.now, [ch.toNat], false, false, 0⟩)
    hc (by rw [uartBegun, State.modBus_fifos, hrx]) (by rw [uartBegun, State.modBus_bus]) rfl rfl hnarrow (by simp) 4
  have hidle : ((uartEnd (uartBegun s c ch.toNat ts.toNat) c 4).sq c).exec = none := by rw [hsq, uartBegun, State.modBus_sq, hexec]
  refine ⟨uartEnd (uartBegun s c ch.toNat ts.toNat) c 4, ?_, Placed.of_count hplaced rfl, hnone⟩
  show execUartCharacter c ch ts false false s = _
  rw [execUartCharacter, uartExchange_of_idle hexec, hchar, received_of_none hidle]
  rfl

end

/-! ### TIMER (R186) -/

section
variable (s : State) (c : Fin 56) (n : Fin 4) (f : TimerPin → TimerPin)

theorem modPin_same : ((modPin s c n f).ch c).bus.pins[n] = f (s.ch c).bus.pins[n] := by simp [modPin]

theorem modPin_ne {k : Fin 4} (h : k ≠ n) : ((modPin s c n f).ch c).bus.pins[k] = (s.ch c).bus.pins[k] := by
  have hval : n.val ≠ k.val := fun e => h (Fin.ext e.symm)
  simp [modPin, hval]

end

section
variable {s : State} {c : Fin 56} {n : Fin 4} (h : Receives s c modeTimer)
include h

/-- A filtered edge of a digital input becomes an item. -/
theorem doesSome_digitalEdge (hfunc : s.get (Fld.PIN_CFG_FUNC c n) = 1) (hinvert : s.isSet (Fld.PIN_CFG_INVERT c n) = false) (lvl : Bool)
    (ts : Word) : DoesSome (.digitalEdge c n lvl ts) s (fun u => Placed s u c ⟨min ts.toNat s.now, 0x08, c.val, 0, 0,
      leBytes 1 n ++ leBytes 1 3 ++ leBytes 1 (if lvl then 1 else 0) ++ leBytes 1 0 ++ leBytes 4 0⟩) := by
  obtain ⟨hquiet, hc, hmode, hengine⟩ := h
  obtain ⟨hexec, -, -, hrx⟩ := id hquiet
  have heq : digitalEdge s c n lvl ts.toNat = rxPlace (modPin s c n (fun p => { p with level := lvl })) c ⟨min ts.toNat s.now, 0x08, c.val, 0, 0,
      leBytes 1 n ++ leBytes 1 3 ++ leBytes 1 (if lvl then 1 else 0) ++ leBytes 1 0 ++ leBytes 4 0⟩ := by
    simp only [digitalEdge, hmode, engineUp_of_on hengine, hfunc, hinvert, BEq.rfl, Bool.and_self, if_true, Bool.bne_false, clampTs]
    rfl
  refine ⟨_, congrArg done (received_fencedItem (digitalEdge · c n lvl ts.toNat) hquiet heq ?_), Placed.of_count (placed_rxPlace hc ?_ ?_) rfl⟩
  · rw [(itemsOnly_rxPlace _ c _).sq, modPin, State.modBus_sq, hexec]
  · rw [modPin, State.modBus_fifos, hrx]
  · exact recSize_le (by simp)

/-- A rising edge of a capture pin is counted. -/
theorem doesSome_captureEdge {p : TimerPin} (hfunc : s.get (Fld.PIN_CFG_FUNC c n) = 2) (hquad : s.get (Fld.PIN_CFG_FUNC c 0) ≠ 3)
    (hinvert : s.isSet (Fld.PIN_CFG_INVERT c n) = false) (hp : p = (s.ch c).bus.pins[n]) (ts : Word) :
    DoesSome (.captureEdge c n true ts) s (fun u => (u.ch c).bus.pins[n].rises = p.rises + 1 ∧
      (u.ch c).bus.pins[n].lastNs = min ts.toNat s.now ∧ (u.ch c).bus.pins[n].lastQ = some (qclk (min ts.toNat s.now)) ∧
      (u.ch c).bus.pins[n].level = true ∧ ∀ k : Fin 4, k ≠ n → (u.ch c).bus.pins[k] = (s.ch c).bus.pins[k]) := by
  obtain ⟨-, -, hmode, hengine⟩ := h
  have heq : captureEdge s c n true ts.toNat = modPin s c n (fun p => capturePin p true (min ts.toNat s.now)) := by
    simp [captureEdge, hmode, engineUp_of_on hengine, hquad, hfunc, hinvert, clampTs]
  have hpin := modPin_same s c n (fun p => capturePin p true (min ts.toNat s.now))
  rw [← hp] at hpin
  refine ⟨_, congrArg done heq, ?_⟩
  beta_reduce
  rw [hpin]
  exact ⟨rfl, rfl, rfl, rfl, fun k hk => modPin_ne s c n _ hk⟩

/-- A PWM output falls at HIGH, and takes up PERIOD and HIGH when it rises. -/
theorem doesSome_pwmPeriod {p : TimerPin} (hfunc : s.get (Fld.PIN_CFG_FUNC c n) = 4) (hp : p = (s.ch c).bus.pins[n]) :
    (p.pwm = true → p.high < p.period → DoesSome (.pwmPeriod c n) s (fun u => (u.ch c).bus.pins[n].pwm = false ∧
      u.out = s.out ++ [.pin c n (s.isSet (Fld.PIN_CFG_INVERT c n))])) ∧
    (p.pwm = false → DoesSome (.pwmPeriod c n) s (fun u => (u.ch c).bus.pins[n].period = s.get (Fld.PIN_CFG_PERIOD c n) ∧
      (u.ch c).bus.pins[n].high = s.get (Fld.PIN_CFG_HIGH c n))) := by
  obtain ⟨-, -, hmode, hengine⟩ := h
  refine ⟨fun hpwm hlow => ?_, fun hpwm => ?_⟩
  · have heq : pwmPeriod s c n = (modPin s c n (fun p => { p with pwm := false })).emit (.pin c n (s.isSet (Fld.PIN_CFG_INVERT c n))) := by
      simp only [pwmPeriod, hmode, engineUp_of_on hengine, hfunc, BEq.rfl, Bool.and_self, if_true, ← hp, hpwm, hlow, decide_true]
    refine ⟨_, congrArg done heq, ?_, rfl⟩
    rw [State.emit_ch, modPin_same]
  · have heq : pwmPeriod s c n = (modPin s c n (fun p => { p with
        pwm := decide (0 < s.get (Fld.PIN_CFG_HIGH c n)), period := s.get (Fld.PIN_CFG_PERIOD c n), high := s.get (Fld.PIN_CFG_HIGH c n) })).emit
        (.pin c n (decide (0 < s.get (Fld.PIN_CFG_HIGH c n)) != s.isSet (Fld.PIN_CFG_INVERT c n))) := by
      simp only [pwmPeriod, hmode, engineUp_of_on hengine, hfunc, BEq.rfl, Bool.and_self, if_true, ← hp, hpwm, Bool.false_and,
        Bool.false_eq_true, if_false]
    refine ⟨_, congrArg done heq, ?_⟩
    beta_reduce
    rw [State.emit_ch, modPin_same]
    exact ⟨rfl, rfl⟩

end

end Sys2Proof.Machine
end

section
/-!
PROOF. Transmissions and transfers (R100, R181, R184, R188, R189, R192), and the statement on items and transfers.
-/
namespace Sys2Proof.Machine

/-! ### Configuration writes that waited (R184) -/

theorem RegsOnly.sq {s u : State} (h : RegsOnly s u) (c : Fin 56) : u.sq c = s.sq c := by
  obtain ⟨f, rfl⟩ := h
  rfl

theorem regsOnly_foldl_regApply (l : List (Nat × Word)) (s : State) : RegsOnly s (l.foldl (fun s w => regApply s w.1 w.2.toNat) s) := by
  induction l generalizing s with
  | nil => exact .refl s
  | cons w l ih =>
    obtain ⟨f, hfirst⟩ := regsOnly_regApply s w.1 w.2.toNat
    obtain ⟨g, hrest⟩ := ih (regApply s w.1 w.2.toNat)
    exact ⟨g, by rw [List.foldl_cons, hrest, hfirst]⟩

/-- They leave the sequencer as it is. -/
theorem busLater_sq (s : State) (c : Fin 56) : (busLater s c).sq c = s.sq c := by
  unfold busLater
  extract_lets l t
  have ht : t.sq c = s.sq c := ((regsOnly_foldl_regApply l _).sq c).trans (State.modBus_sq ..)
  obtain ⟨sent, hsent⟩ := sends_drivePins t c
  split
  · exact ht
  · rw [hsent.sq, ht]

/-- The release of the engine leaves the sequencer as it is, but that its order has handed nothing over. -/
theorem engineRelease_exec (s : State) (c : Fin 56) :
    ((engineRelease s c).sq c).exec = (s.sq c).exec.map (fun e => { e with loaded := false }) := by
  unfold engineRelease
  extract_lets dropped disowned unloaded
  obtain ⟨ts, hts⟩ := mailDead_ch unloaded c
  obtain ⟨sent, hsent, -⟩ := sends_driveSelects (busLater (mailDead unloaded c) c) c
  rw [hsent.sq, busLater_sq, State.sq, hts]
  change (unloaded.sq c).exec = _
  simp only [unloaded, disowned, dropped, State.modSq_sq_same, State.modFifos_sq, State.modBus_sq]

/-! ### The end of a transfer -/

section
variable {s : State} {c : Fin 56} {e : ExecOrder}

theorem Sends.bus {u : State} {sent : List OutEvent} (h : Sends s u sent) (c : Fin 56) : (u.ch c).bus = (s.ch c).bus := by rw [h]; rfl

/-- Its order's result becomes known. -/
theorem resolved_transferEnds (hexec : (s.sq c).exec = some e) (hnone : e.result = none) (st res : Nat) :
    Resolved (transferEnds s c st res) c e st (min 0xFFFF res) := by
  have hcounted : ((if st = St.ok then statAdd s c statTxOk 1 else s).sq c).exec = some e := by split <;> exact hexec
  rw [transferEnds, orderGives_of_exec hcounted hnone, Resolved, busLater_sq]
  obtain ⟨sent, hsent, -⟩ := sends_driveSelects (orderKnown (if st = St.ok then statAdd s c statTxOk 1 else s) c e st res) c
  rw [hsent.sq, orderKnown_sq]

/-- With no configuration write that waits, the registers below the counters stay. -/
theorem transferEnds_get (hexec : (s.sq c).exec = some e) (hnone : e.result = none) (hlater : (s.ch c).bus.later = []) (st res : Nat)
    {g : Fld} (hg : fldKey g < chPage c 7 * 64) : (transferEnds s c st res).get g = s.get g := by
  set t := if st = St.ok then statAdd s c statTxOk 1 else s with ht
  have hcounted : (t.sq c).exec = some e := by rw [ht]; split <;> exact hexec
  have hlater' : (t.ch c).bus.later = [] := by rw [ht]; split <;> exact hlater
  have hget : t.get g = s.get g := by
    rw [ht]
    split
    · exact statAdd_get s _ _ hg
    · rfl
  obtain ⟨sent, hsent, -⟩ := sends_driveSelects (orderKnown t c e st res) c
  have hbus : ((driveSelects (orderKnown t c e st res) c).ch c).bus.later = [] := by
    rw [hsent.bus, orderKnown, State.modSq_bus, hlater']
  rw [transferEnds, ← ht, orderGives_of_exec hcounted hnone, busLater_of_none hbus, State.modBus_get, hsent.get]
  exact hget

end

/-! ### SPI and I2C (R184, R189) -/

section
variable {s : State} {c : Fin 56} {e : ExecOrder} {m : Nat}

theorem exec_of_inTransferOf (h : inTransferOf s c m = some e) : (s.sq c).exec = some e := by
  unfold inTransferOf at h
  split at h
  case h_1 e' hexec =>
    split at h
    · rw [hexec, h]
    · cases h
  case h_2 => cases h

/-- The receive buffer of an EXCHANGE in device DRAM. -/
theorem exOk_of_dram (hword : e.order.word2 < 2 ^ 63) : exOk s e = true := by
  have hnear : ¬ 2 ^ 63 ≤ ({ e.order with w1 := e.order.w2 } : Order).addr := Nat.not_le.mpr hword
  simp only [exOk, exArea, areasHost, List.any_cons, List.any_nil, hnear, decide_false, Bool.and_false, Bool.or_false, Bool.not_false,
    Bool.true_or]

theorem exStore_exec (bs : List Byte) : ((exStore s c e bs).sq c).exec = (s.sq c).exec := by
  obtain ⟨⟨k, hk⟩, -, -⟩ := chargesAlone_areaStore c (exArea e.order) s 0 ((bs ++ zeros e.order.count).take e.order.count)
  rw [exStore, hk]

theorem exStore_dramRead {bs : List Byte} (hsk : e.order.sk = false) (hword : e.order.word2 < 2 ^ 63) (hlen : bs.length = e.order.count) :
    (exStore s c e bs).dramRead e.order.word2 e.order.count = bs := by
  rw [exStore, ← hlen, List.take_left', hlen]
  · exact areaStore_dramRead (o := { e.order with w1 := e.order.w2 }) hsk hword hlen s c
  · rfl

section
variable {bs : List Byte} (hnone : e.result = none) (hsk : e.order.sk = false) (hword : e.order.word2 < 2 ^ 63)
  (hlen : bs.length = e.order.count)
include hnone hsk hword hlen

theorem resolved_exStore (hexec : (s.sq c).exec = some e) :
    Resolved (transferEnds (exStore s c e bs) c St.ok 0) c e St.ok 0 ∧
      (transferEnds (exStore s c e bs) c St.ok 0).dramRead e.order.word2 e.order.count = bs := by
  refine ⟨resolved_transferEnds (by rw [exStore_exec, hexec]) hnone St.ok 0, ?_⟩
  rw [State.dramRead_congr (transferEnds_dram ..), exStore_dramRead hsk hword hlen]

theorem doesSome_spiTransferDone (h : inTransferOf s c modeSpi = some e) : DoesSome (.spiTransferDone c bs) s (fun u =>
    Resolved u c e St.ok 0 ∧ u.dramRead e.order.word2 e.order.count = bs) := by
  have heq : spiDone s c bs = transferEnds (exStore s c e bs) c St.ok 0 := by
    simp only [spiDone, h, exOk_of_dram hword, if_true]
  exact ⟨_, congrArg done heq, resolved_exStore hnone hsk hword hlen (exec_of_inTransferOf h)⟩

end

/-- A RECEIVE aside, an order in execution takes no item. -/
theorem received_of_resolved {u : State} {st res : Nat} (h : Resolved u c e st res) (hop : e.order.op ≠ oReceive) : received u c = u :=
  received_of_idle fun e' he' => by
    rw [h] at he'
    cases he'
    exact hop

section
variable (h : inTransferOf s c modeI2c = some e) (hnone : e.result = none)
include h hnone

theorem doesSome_i2cTransferDone_of_exchange {bs : List Byte} (hsk : e.order.sk = false) (hop : e.order.op = oExchange)
    (hword : e.order.word2 < 2 ^ 63) (hlen : bs.length = e.order.count) (addr : BitVec 7) :
    DoesSome (.i2cTransferDone c addr bs) s (fun u => Resolved u c e St.ok 0 ∧ u.dramRead e.order.word2 e.order.count = bs) := by
  have hseen := itemsOnly_partnerSeen s c 0x07 (bf e.order.param 8 7) s.now
  have hexec : ((partnerSeen s c 0x07 (bf e.order.param 8 7) s.now).sq c).exec = some e := by rw [hseen.sq, exec_of_inTransferOf h]
  have heq : i2cDone s c addr.toNat bs = transferEnds (exStore (partnerSeen s c 0x07 (bf e.order.param 8 7) s.now) c e bs) c St.ok 0 := by
    simp only [i2cDone, h, exOk_of_dram hword, hop, if_true]
  have hres := resolved_exStore hnone hsk hword hlen hexec
  refine ⟨_, congrArg done ?_, hres⟩
  rw [heq, received_of_resolved hres.1 (by rw [hop]; decide)]

omit h hnone in
/-- A partner whose entry is held and PRESENT is found, and its entry notes the tick (R195). -/
theorem partnerSeen_lastTick {x : Nat} (hx : x < 64) {kind key : Nat}
    (hpresent : s.get (Fld.PT_ENTRY_STATE c x) = partnerPresent) (hkind : s.get (Fld.PT_ENTRY_KIND c x) = kind)
    (hkey : s.get (Fld.PT_ENTRY_KEY c x) = key) (hfirst : ∀ y, y < x → s.get (Fld.PT_ENTRY_STATE c y) = partnerFree) (ts : Nat) :
    (partnerSeen s c kind key ts).get (Fld.PT_ENTRY1_LAST_TICK c x) = s.tick % 2 ^ 48 := by
  have hheld : (List.range 64).find? (fun i => s.get (Fld.PT_ENTRY_STATE c i) != partnerFree
      && s.get (Fld.PT_ENTRY_KIND c i) == kind && s.get (Fld.PT_ENTRY_KEY c i) == key) = some x := by
    refine List.find?_range_eq_some.mpr ⟨?_, List.mem_range.mpr hx, fun y hy => ?_⟩
    · simp [hpresent, hkind, hkey, partnerPresent, partnerFree]
    · simp [hfirst y hy]
  have hback : ¬ s.get (Fld.PT_ENTRY_STATE c x) = partnerAbsent := by rw [hpresent]; decide
  have hseen : fldKey (Fld.PT_ENTRY1_LAST_TICK c x) ≠ fldKey (Fld.PT_ENTRY1_SEEN c x) := by
    simp only [fldKey, Fld.PT_ENTRY1_LAST_TICK, Fld.PT_ENTRY1_SEEN]
    omega
  simp only [partnerSeen, hheld, if_neg hback]
  rw [State.bumpSat, State.get_put_ne _ _ hseen, State.get_put_same]
  rfl

/-- A transfer ends with an error, and the event it sets stays set. -/
theorem i2cFails_spec (hlater : (s.ch c).bus.later = []) {g : Fld} (hg : fldKey g < chPage c 4 * 64) (hw : 0 < g.w) {left : Nat}
    (hleft : left < 0xFFFF) (st : Nat) {f : State → State} (hf : ItemsOnly (s.raise g) (f s) c) :
    Resolved (i2cFails s c left st f) c e st left ∧ (i2cFails s c left st f).isSet g = true := by
  have heq : i2cFails s c left st f = transferEnds (busEvent (f s) c) c st left := by simp only [i2cFails, h]
  have hkeeps := (KeepsItems.refl (f s) c).busEvent
  have hexec : ((busEvent (f s) c).sq c).exec = some e := by
    rw [hkeeps.sq, hf.sq, State.raise_eq]
    exact exec_of_inTransferOf (s := s) h
  have hlater' : ((busEvent (f s) c).ch c).bus.later = [] := by
    rw [hkeeps.bus, hf.bus]
    exact hlater
  have hres := resolved_transferEnds hexec hnone st left
  rw [Nat.min_eq_right hleft.le] at hres
  rw [heq]
  refine ⟨hres, ?_⟩
  have hpages : chPage c 4 * 64 ≤ chPage c 7 * 64 := by simp only [chPage_eq]; omega
  rw [State.isSet_eq, transferEnds_get hexec hnone hlater' st left (hg.trans_le hpages), busEvent_get, hf.get g hg, ← State.isSet_eq]
  exact State.isSet_raise s hw

/-- A known partner's entry notes the tick (R195). -/
theorem doesSome_i2cTransferDone_of_transmit (hop : e.order.op = oTransmit) (hlater : (s.ch c).bus.later = []) {x : Nat} (hx : x < 64)
    {addr : BitVec 7} (hpresent : s.get (Fld.PT_ENTRY_STATE c x) = partnerPresent) (hkind : s.get (Fld.PT_ENTRY_KIND c x) = 0x07)
    (hkey : s.get (Fld.PT_ENTRY_KEY c x) = addr.toNat) (hfirst : ∀ y, y < x → s.get (Fld.PT_ENTRY_STATE c y) = partnerFree)
    (bs : List Byte) : DoesSome (.i2cTransferDone c addr bs) s (fun u =>
      Resolved u c e St.ok 0 ∧ u.get (Fld.PT_ENTRY1_LAST_TICK c x) = s.tick % 2 ^ 48) := by
  have hnot : e.order.op ≠ oExchange := by rw [hop]; decide
  have hseen := itemsOnly_partnerSeen s c 0x07 addr.toNat s.now
  have hexec : ((partnerSeen s c 0x07 addr.toNat s.now).sq c).exec = some e := by rw [hseen.sq, exec_of_inTransferOf h]
  have hok : exOk s e = true := by simp [exOk, hop, oTransmit, oExchange]
  have heq : i2cDone s c addr.toNat bs = transferEnds (partnerSeen s c 0x07 addr.toNat s.now) c St.ok 0 := by
    simp only [i2cDone, h, hok, hnot, if_true, if_false]
  have hres := resolved_transferEnds hexec hnone St.ok 0
  refine ⟨_, congrArg done ?_, hres, ?_⟩
  · rw [heq, received_of_resolved hres (by rw [hop]; decide)]
  · have hbelow : fldKey (Fld.PT_ENTRY1_LAST_TICK c x) < chPage c 7 * 64 := by
      simp only [fldKey, Fld.PT_ENTRY1_LAST_TICK, Reg.PT_ENTRY1, chPage_eq]
      omega
    rw [transferEnds_get hexec hnone (by rw [hseen.bus]; exact hlater) _ _ hbelow, partnerSeen_lastTick hx hpresent hkind hkey hfirst]

/-- The errors of an I2C transfer, each with its status and its event (R184). -/
theorem doesSome_i2c_errors (hop : e.order.op ≠ oReceive) (hlater : (s.ch c).bus.later = []) {left : Half} (hleft : left.toNat < 0xFFFF)
    (addr : BitVec 7) :
    DoesSome (.i2cStretchTimeout c left) s (fun u => Resolved u c e St.busError left.toNat ∧ u.isSet (Fld.BE_EVT_PROTO_ERR c) = true) ∧
    DoesSome (.i2cArbLost c left) s (fun u => Resolved u c e St.busError left.toNat ∧ u.isSet (Fld.BE_EVT_ARB_LOST c) = true) ∧
    DoesSome (.i2cNack c true addr left) s (fun u => Resolved u c e St.noPartner left.toNat ∧ u.isSet (Fld.BE_EVT_NO_RESPONSE c) = true) ∧
    DoesSome (.i2cNack c false addr left) s (fun u => Resolved u c e St.busError left.toNat) := by
  have hproto : fldKey (Fld.BE_EVT_PROTO_ERR c) < chPage c 4 * 64 := key_lt_page (by decide) (by decide) (by decide)
  have harb : fldKey (Fld.BE_EVT_ARB_LOST c) < chPage c 4 * 64 := key_lt_page (by decide) (by decide) (by decide)
  have hresponse : fldKey (Fld.BE_EVT_NO_RESPONSE c) < chPage c 4 * 64 := key_lt_page (by decide) (by decide) (by decide)
  refine ⟨⟨_, rfl, ?_⟩, ⟨_, rfl, ?_⟩, ?_, ?_⟩
  · exact i2cFails_spec h hnone hlater hproto Nat.one_pos hleft _ (.refl _ c)
  · exact i2cFails_spec h hnone hlater harb Nat.one_pos hleft _ (.refl _ c)
  · have hfails := i2cFails_spec h hnone hlater hresponse Nat.one_pos hleft St.noPartner
      (f := fun s => partnerNack (s.raise (Fld.BE_EVT_NO_RESPONSE c)) c addr.toNat) (itemsOnly_partnerNack _ c _)
    exact ⟨_, congrArg done (received_of_resolved hfails.1 hop), hfails⟩
  · have hfails := i2cFails_spec h hnone hlater hresponse Nat.one_pos hleft St.busError
      (f := fun s => partnerSeen (s.raise (Fld.BE_EVT_NO_RESPONSE c)) c 0x07 addr.toNat (s.raise (Fld.BE_EVT_NO_RESPONSE c)).now)
      (itemsOnly_partnerSeen _ c _ _ _)
    exact ⟨_, congrArg done (received_of_resolved hfails.1 hop), hfails.1⟩

end

end

/-! ### A UART EXCHANGE that meets an error (R100) -/

section
variable {s : State} {c : Fin 56} {e : ExecOrder}

theorem residualOf_of_uartExchange (hop : e.order.op = oExchange) (hmode : modeOf s c = modeUart) :
    residualOf s c e = (areaTotal e - (s.ch c).bus.exRx.length, s) := by
  simp [residualOf, hop, hmode, oExchange, oWait, oSense, oReceive, oTransmit]

theorem modeKey_ne_protoKey (c : Nat) : fldKey (Fld.BE_MODE_MODE c) ≠ fldKey (Fld.BE_EVT_PROTO_ERR c) := by
  simp only [fldKey, Fld.BE_MODE_MODE, Fld.BE_EVT_PROTO_ERR, Reg.BE_MODE, Reg.BE_EVT]
  omega

theorem doesSome_uartCharacter_of_error (hmode : modeOf s c = modeUart) (hexec : (s.sq c).exec = some e) (hop : e.order.op = oExchange)
    (hloaded : e.loaded = true) (hnone : e.result = none) {fr pa : Bool} (herr : fr || pa) (ch : BitVec 9) (ts : Word) :
    DoesSome (.uartCharacter c ch ts fr pa) s (fun u =>
      (u.sq c).exec = some { e with loaded := false, result := some (St.busError, min 0xFFFF (areaTotal e - (s.ch c).bus.exRx.length)) }) := by
  have hkeeps := keepsItems_protoError s c
  have hmode' : modeOf (protoError s c) c = modeUart := by
    rw [← hmode]
    exact protoError_get s (modeKey_ne_protoKey c) (key_lt_page (by decide) (by decide) (by decide))
  have hreleased : ((engineRelease (protoError s c) c).sq c).exec = some { e with loaded := false } := by
    rw [engineRelease_exec, hkeeps.sq, hexec]
    rfl
  have hgives : orderBusError (protoError s c) c e = orderKnown (engineRelease (protoError s c) c) c { e with loaded := false }
      St.busError (areaTotal e - (s.ch c).bus.exRx.length) := by
    rw [orderBusError, residualOf_of_uartExchange hop hmode', hkeeps.bus]
    exact orderGives_of_exec hreleased hnone _ _
  have hexchange : uartExchange s c ch.toNat (fr || pa) = some (orderBusError (protoError s c) c e) := by
    simp only [uartExchange, hexec, hmode, hop, hloaded, hnone, Option.isNone_none, and_self, herr, if_true]
  refine ⟨orderBusError (protoError s c) c e, congrArg done ?_, ?_⟩
  · rw [hexchange]
  · beta_reduce
    rw [hgives, orderKnown_sq]

/-! ### An item leaves (R100, R188, R192) -/

/-- The engine reaches no marker. -/
theorem txReach_of_no_marker (h : ∀ k, (s.ch c).fifos.tx.head? ≠ some (.marker k)) : txReach s c = s := by
  unfold txReach
  split
  case h_1 n rest htx => exact absurd (by rw [htx]; rfl) (h n)
  case h_2 => rfl

theorem txFeed_of_none (h : (s.ch c).bus.txWait = []) (k : Nat) : txFeed k s c = s := by
  cases k with
  | zero => rfl
  | succ k => simp only [txFeed, h]

/-- What the last item of a TRANSMIT leaves. -/
def lastItemSent (s : State) (c : Fin 56) (e : ExecOrder) (rest : List TxEnt) : State :=
  ((statAdd s c statTxOk 1).modFifos c (fun f => { f with tx := rest })).orderResult c e.idx St.ok 0

section
variable {b : List Byte} {rest : List TxEnt}

theorem lastItemSent_frame : ((lastItemSent s c e rest).ch c).fifos.tx = rest ∧ ((lastItemSent s c e rest).ch c).bus = (s.ch c).bus ∧
    (lastItemSent s c e rest).out = s.out ∧
    (lastItemSent s c e rest).get (Fld.STATS_CNT_COUNT c statTxOk) = (s.get (Fld.STATS_CNT_COUNT c statTxOk) + 1) % 2 ^ 64 := by
  refine ⟨?_, ?_, rfl, ?_⟩
  · rw [lastItemSent, State.orderResult, State.modSq_fifos, State.modFifos_fifos]
  · rw [lastItemSent, State.orderResult, State.modSq_bus, State.modFifos_bus]
    rfl
  · rw [lastItemSent, State.orderResult, State.modSq_get, State.modFifos_get, statAdd, State.bumpWrap]
    exact State.get_put_same ..

theorem resolved_lastItemSent (hexec : (s.sq c).exec = some e) (hnone : e.result = none) : Resolved (lastItemSent s c e rest) c e St.ok 0 :=
  orderResult_resolves (by rw [State.modFifos_sq]; exact hexec) hnone St.ok 0

variable (htx : (s.ch c).fifos.tx = .item b true :: rest) (hrest : ∀ y ∈ rest, ∀ z, y ≠ .item z true ∧ ∀ k, y ≠ .marker k)
  (hwait : (s.ch c).bus.txWait = []) (hexec : (s.sq c).exec = some e)
include htx hrest hwait hexec

theorem txSent_of_last : txSent s c = (some b, lastItemSent s c e rest) := by
  have hafter : txReach (lastItemSent s c e rest) c = lastItemSent s c e rest := by
    refine txReach_of_no_marker fun k hk => ?_
    rw [lastItemSent_frame.1] at hk
    exact (hrest _ (List.mem_of_mem_head? hk) []).2 k rfl
  unfold txSent
  extract_lets t
  have ht : t = s := txReach_of_no_marker (by rw [htx]; simp)
  rw [ht]
  split
  case h_2 hnot => exact absurd htx (hnot _ _ _)
  case h_1 b' own rest' htx' =>
    obtain ⟨⟨rfl, rfl⟩, rfl⟩ : (b' = b ∧ own = true) ∧ rest' = rest := by simpa [htx, eq_comm] using htx'
    extract_lets left more given
    have hown : more = false := by
      refine Bool.or_eq_false_iff.mpr ⟨List.any_eq_false.mpr fun y hy => ?_, ?_⟩
      · obtain ⟨hitem, hmarker⟩ := forall_and.mp (hrest y hy)
        match y with
        | .item z true => exact absurd rfl (hitem z)
        | .item z false => exact Bool.false_ne_true
        | .marker k => exact Bool.false_ne_true
      · simp [left, hwait, statAdd, State.bumpWrap]
    have hgiven : given = lastItemSent s c e rest' := by
      simp [given, hown, left, statAdd, State.bumpWrap, hexec, lastItemSent]
    rw [hgiven, hafter]

/-- What the engine sends of an item (R181, R188). -/
def itemBytes (s : State) (c : Fin 56) (b : List Byte) : List OutEvent :=
  if modeOf s c = modeLin then [.linBreak c 13, .busTx c ([0x55] ++ leBytes 1 (linPid (leNat ((b.drop 4).take 4))) ++ linResponse b)]
  else if modeOf s c = modeUart then [.busTx c ((b.drop 16).take (txLen b))] else [.busTx c b]

omit htx hrest hwait hexec in
theorem sends_itemBytes (s t : State) (c : Fin 56) (b : List Byte) :
    Sends t (if modeOf s c = modeLin then linCommand t c b
      else t.emit (.busTx c (if modeOf s c = modeUart then (b.drop 16).take (txLen b) else b))) (itemBytes s c b) := by
  unfold itemBytes
  split
  · exact (Sends.emit t _).trans (.emit _ _)
  · split
    · exact .emit t _
    · exact .emit t _

theorem doesSome_txItemSent (hc : c.val < 48) (hengine : engineOf s c = engOn)
    (hmode : (modeOf s c = modeCan ∧ s.isSet (Fld.CAN_CFG_RESTRICTED c) = false) ∨ modeOf s c = modeUart ∨
      (modeOf s c = modeLin ∧ s.get (Fld.LIN_CFG_ROLE c) ≠ 1)) (hfrozen : s.frozen c = false) (hnone : e.result = none) :
    DoesSome (.txItemSent c) s (fun u => (u.ch c).fifos.tx = rest ∧ Resolved u c e St.ok 0 ∧ u.out = s.out ++ itemBytes s c b ∧
      u.get (Fld.STATS_CNT_COUNT c statTxOk) = (s.get (Fld.STATS_CNT_COUNT c statTxOk) + 1) % 2 ^ 64) := by
  set t := s.modBus c (fun b => { b with linSend := false }) with ht
  have hsent : txSent t c = (some b, lastItemSent t c e rest) := by
    refine txSent_of_last ?_ hrest ?_ ?_
    · rw [ht, State.modBus_fifos, htx]
    · rw [ht, State.modBus_bus, hwait]
    · rw [ht, State.modBus_sq, hexec]
  obtain ⟨hleft, hbus, hout, hcount⟩ := lastItemSent_frame (s := t) (c := c) (e := e) (rest := rest)
  have hsends := sends_itemBytes s (lastItemSent t c e rest) c b
  generalize hu : (if modeOf s c = modeLin then linCommand (lastItemSent t c e rest) c b
      else (lastItemSent t c e rest).emit (.busTx c (if modeOf s c = modeUart then (b.drop 16).take (txLen b) else b))) = u at hsends
  have hwait' : (u.ch c).bus.txWait = [] := by rw [hsends.bus, hbus, ht, State.modBus_bus, hwait]
  have heq : txItemSent s c = u := by
    rw [← txFeed_of_none hwait' 31, ← hu]
    rcases hmode with ⟨hcan, hfree⟩ | huart | ⟨hlin, hrole⟩
    · simp [txItemSent, hc, hengine, hcan, hfree, hfrozen, ← ht, hsent, modeCan, modeLin, modeUart]
    · simp [txItemSent, hc, hengine, huart, hfrozen, ← ht, hsent, modeCan, modeLin, modeUart]
    · simp [txItemSent, hc, hengine, hlin, hrole, hfrozen, ← ht, hsent, modeCan, modeLin, modeUart]
  refine ⟨u, congrArg done heq, ?_, ?_, ?_, ?_⟩
  · rw [hsends.fifos, hleft]
  · rw [Resolved, hsends.sq]
    exact resolved_lastItemSent (by rw [ht, State.modBus_sq, hexec]) hnone
  · rw [hsends.out, hout]
    rfl
  · rw [hsends.get, hcount]
    rfl

end

end

/-! ### The obligation -/

/-- Settles O38: the items of each mode first, then transmissions and transfers. -/
theorem transfersAndItems : Obligations.TransfersAndItems := by
  unfold Obligations.TransfersAndItems
  refine ⟨fun s c ts m data ch n lvl u0 p check k ce me => ⟨?_, ?_, ?_, ?_, ?_, ?_, ?_, ?_, ?_, ?_⟩,
    fun s c e bs b rest addr left x ch ts fr pa => ⟨?_, ?_, ?_, ?_, ?_⟩⟩
  · exact fun h hcal hcrc hkind => doesSome_sentMessage_of_good ts h hcal hcrc hkind
  · exact fun h htakes hcal => doesSome_sentMessage_of_cal ts h htakes hcal
  · exact fun h hsync hk hce => doesSome_psi5Frame ts h hsync hk hce
  · exact doesSome_psi5Sync
  · exact does_psi5SyncFall
  · intro ⟨hquiet, hc, hmode, hengine⟩ huart hnarrow hmax
    exact ⟨does_uartCharacter_of_begun hquiet hmode hengine huart hnarrow hmax ch ts,
      doesSome_uartCharacter_of_delim hquiet hc hmode hengine huart hnarrow hmax ch ts⟩
  · exact fun hquiet hc => doesSome_uartItemEnd hquiet hc
  · exact fun h hfunc hinvert => doesSome_digitalEdge h hfunc hinvert lvl ts
  · exact fun h hfunc hquad hinvert hp => doesSome_captureEdge h hfunc hquad hinvert hp ts
  · exact fun h hfunc hp => doesSome_pwmPeriod h hfunc hp
  · exact fun hc hengine hmode hfrozen hwait htx hrest hexec hnone =>
      doesSome_txItemSent htx hrest hwait hexec hc hengine hmode hfrozen hnone
  · exact fun _ hmode hexec hop hloaded hnone herr => doesSome_uartCharacter_of_error hmode hexec hop hloaded hnone herr ch ts
  · exact fun hnone hsk hop hword hlen _ => ⟨doesSome_spiTransferDone hnone hsk hword hlen,
      fun h _ => doesSome_i2cTransferDone_of_exchange h hnone hsk hop hword hlen addr⟩
  · exact fun h hnone hop hleft hlater => doesSome_i2c_errors h hnone hop hlater hleft addr
  · exact fun h hop hnone hlater hx hpresent hkind hkey hfirst =>
      doesSome_i2cTransferDone_of_transmit h hnone hop hlater hx hpresent hkind hkey hfirst bs

end Sys2Proof.Machine
end

section
/-!
PROOF. BE_MODE, and the CAN engine (R172, R178, R180, R187).
-/
namespace Sys2Proof.Machine

/-! ### BE_MODE (R172) -/

theorem regAt_beMode (c : Fin 56) : regAt (Reg.BE_MODE c) =
    some ⟨0x100, 1, 0x8, 0, [⟨0, 4, .rwnv, 0⟩, ⟨4, 1, .rwnv, 0⟩, ⟨5, 1, .rwnv, 0⟩, ⟨6, 1, .rwnv, 0⟩]⟩ := by
  revert c
  decide +kernel

theorem fldAt_beMode (c : Fin 56) : fldAt (Reg.BE_MODE c) ⟨0, 4, .rwnv, 0⟩ = Fld.BE_MODE_MODE c := by
  revert c
  decide +kernel

theorem beMode_mode (s : State) (c : Fin 56) (v : Nat) : modeOf (regApply s (Reg.BE_MODE c) v) c = bf v 0 4 := by
  have h := regApply_get (regAt_beMode c) (by decide) (d := ⟨0, 4, .rwnv, 0⟩) (by decide) (.inr rfl) s v
  rwa [fldAt_beMode] at h

/-- A write of BE_MODE is one of the bus engine. -/
theorem regWrite_beMode (s : State) (c : Fin 56) (v : Nat) : regWrite s (Reg.BE_MODE c) v = wrBus s c 0x100 v := by
  obtain ⟨hoff, htype, hchan⟩ := window_place (a := Reg.BE_MODE c) (p := 2) rfl (by decide) (by decide)
  have hlt : winChan (Reg.BE_MODE c) < 56 := hchan.trans_lt c.isLt
  have hc : (⟨winChan (Reg.BE_MODE c), hlt⟩ : Fin 56) = c := Fin.ext hchan
  simp only [regWrite, regAt_beMode, Option.isNone_some, Bool.false_eq_true, if_false, htype, hoff, hlt, dite_true, hc]

section
variable {s : State} {c : Fin 56} {v : Word} (h : Reaches s (Reg.BE_MODE c) v.toNat)
include h

theorem hostWrite64_beMode_of_refused (hrefused : wrBus (Touched s (Reg.BE_MODE c)) c 0x100 v.toNat = .refused) :
    hostWrite64 s (Reg.BE_MODE c) v.toNat = pageErr (Touched s (Reg.BE_MODE c)) (Reg.BE_MODE c) 1 := by
  rw [hostWrite64_reaches h, regWrite_beMode, hrefused]

/-- A DISABLED field channel takes every mode of R172, any other none. -/
theorem beModeWrite_of_field (hc : c.val < 48) :
    (chState s c = chDisabled → modeOk (bf v.toNat 0 4) = true → DoesSome (.beModeWrite c v) s (fun u => modeOf u c = bf v.toNat 0 4)) ∧
    (chState s c ≠ chDisabled → Does (.beModeWrite c v) s (pageErr (Touched s (Reg.BE_MODE c)) (Reg.BE_MODE c) 1)) := by
  refine ⟨fun hdisabled hmode => ?_, fun hstate => congrArg done (hostWrite64_beMode_of_refused h ?_)⟩
  · have hwrite : wrBus (Touched s (Reg.BE_MODE c)) c 0x100 v.toNat =
        .ok (drivePins (regApply (Touched s (Reg.BE_MODE c)) (Reg.BE_MODE c) v.toNat) c) := by
      rw [wrBus, if_pos hc, if_pos rfl, if_pos ⟨hdisabled, hmode⟩]
      rfl
    obtain ⟨sent, hsent⟩ := sends_drivePins (regApply (Touched s (Reg.BE_MODE c)) (Reg.BE_MODE c) v.toNat) c
    refine ⟨_, congrArg done (hostWrite64_of_ok h ((regWrite_beMode ..).trans hwrite)), ?_⟩
    beta_reduce
    rw [modeOf, hsent.get]
    exact beMode_mode _ c v.toNat
  · rw [wrBus, if_pos hc, if_pos rfl, if_neg fun hok => hstate hok.1]

/-- A DISABLED stream channel takes NONE and ETH. -/
theorem beModeWrite_of_stream (hc : 48 ≤ c.val) :
    (chState s c = chDisabled → bf v.toNat 0 4 = modeNone ∨ bf v.toNat 0 4 = modeEth → bit v.toNat 5 = false →
      DoesSome (.beModeWrite c v) s (fun u => modeOf u c = bf v.toNat 0 4)) ∧
    (chState s c ≠ chDisabled ∨ bf v.toNat 0 4 ≠ modeNone ∧ bf v.toNat 0 4 ≠ modeEth →
      Does (.beModeWrite c v) s (pageErr (Touched s (Reg.BE_MODE c)) (Reg.BE_MODE c) 1)) := by
  refine ⟨fun hdisabled hmode hbit => ?_, fun hbad => congrArg done (hostWrite64_beMode_of_refused h ?_)⟩
  · have hwrite : wrBus (Touched s (Reg.BE_MODE c)) c 0x100 v.toNat = .ok (regApply (Touched s (Reg.BE_MODE c)) (Reg.BE_MODE c) v.toNat) := by
      rw [wrBus, if_neg (by omega), if_pos rfl, if_pos ⟨hdisabled, hmode, by rw [hbit]; rfl⟩]
      rfl
    refine ⟨_, congrArg done (hostWrite64_of_ok h ((regWrite_beMode ..).trans hwrite)), ?_⟩
    exact beMode_mode _ c v.toNat
  · rw [wrBus, if_neg (by omega), if_pos rfl, if_neg]
    rintro ⟨hdisabled, hmode, -⟩
    rcases hbad with hstate | ⟨hnone, heth⟩
    · exact hstate hdisabled
    · exact hmode.elim hnone heth

end

end Sys2Proof.Machine
end

section
/-!
PROOF. The CAN engine (R178, R180, R187).
-/
namespace Sys2Proof.Machine

/-! ### The filters (R187) -/

/-- The filters read their own registers alone. -/
theorem filterDecide_congr {s u : State} {c : Nat}
    (h : ∀ off lo w rst, 0x190 ≤ off → off < 0x300 → lo < 64 → u.get ⟨chPage c 2 + off, lo, w, rst⟩ = s.get ⟨chPage c 2 + off, lo, w, rst⟩)
    (id : Nat) (ide xl : Bool) : filterDecide u c id ide xl = filterDecide s c id ide xl := by
  have hfilter {i lo w : Nat} (hi : i < 32) (hlo : lo < 64) : u.get ⟨Reg.FILTER c i, lo, w, 0⟩ = s.get ⟨Reg.FILTER c i, lo, w, 0⟩ := by
    rw [Reg.FILTER, Nat.add_assoc]
    exact h _ _ _ _ (by omega) (by omega) hlo
  have hdefault : u.get (Fld.FILT_CTRL_DEFAULT c) = s.get (Fld.FILT_CTRL_DEFAULT c) := h 0x190 _ _ _ (by decide) (by decide) (by decide)
  unfold filterDecide
  extract_lets hit hit'
  have hhit : hit = hit' := by
    refine List.find?_congr fun i hi => ?_
    have hi := List.mem_range.mp hi
    simp only [Fld.FILTER_ACTION, Fld.FILTER_IDE, Fld.FILTER_XL, Fld.FILTER_MASK, Fld.FILTER_ID, hfilter hi (show 62 < 64 by decide),
      hfilter hi (show 29 < 64 by decide), hfilter hi (show 30 < 64 by decide), hfilter hi (show 32 < 64 by decide),
      hfilter hi (show 0 < 64 by decide)]
  rw [hhit]
  cases hcase : hit' with
  | none => simp only [hdefault]
  | some i =>
    have hi : i < 32 := List.mem_range.mp (List.mem_of_find?_eq_some hcase)
    have haction : u.get (Fld.FILTER_ACTION c i) = s.get (Fld.FILTER_ACTION c i) := hfilter hi (by decide)
    have htrack : u.isSet (Fld.FILTER_TRACK c i) = s.isSet (Fld.FILTER_TRACK c i) := congrArg (· != 0) (hfilter hi (by decide))
    simp only [haction, htrack]

/-! ### Status and events of the engine alone -/

/-- `u` differs from `s`, of channel `c`, in its threads' events and in BE_STATUS and BE_EVT alone. -/
structure StatusOnly (s u : State) (c : Fin 56) : Prop where
  items : KeepsItems s u c
  get : ∀ g, fldKey g < Reg.BE_STATUS c * 64 ∨ (Reg.BE_STATUS c + 16) * 64 ≤ fldKey g → u.get g = s.get g

theorem StatusOnly.refl (s : State) (c : Fin 56) : StatusOnly s s c := ⟨.refl s c, fun _ _ => rfl⟩

section
variable {s u : State} {c : Fin 56} (h : StatusOnly s u c)
include h

theorem StatusOnly.trans {t : State} (k : StatusOnly u t c) : StatusOnly s t c :=
  ⟨h.items.trans k.items, fun g hg => (k.get g hg).trans (h.get g hg)⟩

theorem StatusOnly.put {off lo w rst : Nat} (hoff : off < 16) (hlo : lo < 64) (v : Nat) :
    StatusOnly s (u.put ⟨Reg.BE_STATUS c + off, lo, w, rst⟩ v) c := by
  refine ⟨h.items.put _ _, fun g hg => (State.get_put_ne u v ?_).trans (h.get g hg)⟩
  have hkey : fldKey ⟨Reg.BE_STATUS c + off, lo, w, rst⟩ = (Reg.BE_STATUS c + off) * 64 + lo := rfl
  omega

theorem StatusOnly.busEvent : StatusOnly s (busEvent u c) c := ⟨h.items.busEvent, fun g hg => (busEvent_get u c g).trans (h.get g hg)⟩

theorem StatusOnly.ite {t : State} (b : Prop) [Decidable b] (k : StatusOnly s t c) : StatusOnly s (if b then u else t) c := by
  split
  · exact h
  · exact k

/-- The filters decide as before. -/
theorem StatusOnly.filterDecide (id : Nat) (ide xl : Bool) : filterDecide u c id ide xl = filterDecide s c id ide xl := by
  refine filterDecide_congr (fun off lo w rst hlow _ _ => ?_) id ide xl
  exact h.get _ (.inr (Nat.le_add_right_of_le (Nat.mul_le_mul_right 64 (Nat.add_le_add_left hlow (chPage c 2)))))

theorem StatusOnly.now : u.now = s.now :=
  h.get _ (.inl (by simp only [fldKey, Fld.TIME_NS_TIME_NS, Reg.TIME_NS, Reg.BE_STATUS, chPage_eq]; omega))

theorem StatusOnly.count (i : Nat) : u.get (Fld.STATS_CNT_COUNT c i) = s.get (Fld.STATS_CNT_COUNT c i) :=
  h.get _ (.inr (by simp only [fldKey, Fld.STATS_CNT_COUNT, Reg.STATS_CNT, Reg.BE_STATUS, chPage_eq]; omega))

end

theorem Sends.statusOnly {s u : State} {sent : List OutEvent} (h : Sends s u sent) (c : Fin 56) : StatusOnly s u c := ⟨h.keepsItems c, fun g _ => h.get g⟩

/-! ### Fault confinement (R178, R180) -/

/-- The fault confinement state of error counters: error-active, error-passive, bus-off. -/
def canFcs (tec rec_ : Nat) : Nat := if 255 < tec then 2 else if 127 < tec ∨ 127 < rec_ then 1 else 0

/-- The error counters and the fault confinement state that follows them. -/
def canCounted (s : State) (c : Fin 56) (tec rec_ : Nat) : State :=
  ((s.put (Fld.BE_STATUS_TEC c) (min tec 255)).put (Fld.BE_STATUS_REC c) (min rec_ 255)).put (Fld.BE_STATUS_FCS c)
    (canFcs tec rec_)

theorem statusOnly_canConfine (s : State) (c : Fin 56) (tec rec_ : Nat) : StatusOnly s (canConfine s c tec rec_) c := by
  unfold canConfine
  extract_lets old fcs counted passive
  have hcounted : StatusOnly s counted c :=
    (((StatusOnly.refl s c).put (off := 0) (by decide) (by decide) _).put (off := 0) (by decide) (by decide) _).put (off := 0) (by decide)
      (by decide) _
  have hpassive : StatusOnly s passive c := ((hcounted.put (off := 8) (by decide) (by decide) _).busEvent).ite _ hcounted
  exact (((hpassive.put (off := 0) (by decide) (by decide) _).put (off := 8) (by decide) (by decide) _).busEvent).ite _ hpassive

section
variable {a lo lo' w w' rst rst' : Nat}

/-- Fields at different places of one register. -/
theorem key_ne_of_lo (h : lo ≠ lo') : fldKey ⟨a, lo, w, rst⟩ ≠ fldKey ⟨a, lo', w', rst'⟩ := fun hkey => h (Nat.add_left_cancel hkey)

theorem status_lt_evt (c : Nat) (hlo : lo < 64) : fldKey ⟨Reg.BE_STATUS c, lo, w, rst⟩ < fldKey ⟨Reg.BE_EVT c, lo', w', rst'⟩ := by
  simp only [fldKey, Reg.BE_STATUS, Reg.BE_EVT]
  omega

end

/-- The event of an engine that becomes error-passive follows the counters. -/
def canWarned (s : State) (c : Fin 56) (tec rec_ : Nat) : State :=
  if canFcs tec rec_ = 1 ∧ s.get (Fld.BE_STATUS_FCS c) ≠ 1 then
    busEvent ((canCounted s c tec rec_).raise (Fld.BE_EVT_ERR_PASSIVE c)) c
  else canCounted s c tec rec_

section
variable (s : State) (c : Fin 56) {tec rec_ : Nat}

theorem canWarned_get {g : Fld} (hpassive : fldKey g ≠ fldKey (Fld.BE_EVT_ERR_PASSIVE c)) :
    (canWarned s c tec rec_).get g = (canCounted s c tec rec_).get g := by
  unfold canWarned
  split
  · rw [busEvent_get, State.raise_eq, State.get_put_ne _ _ hpassive]
  · rfl

theorem canConfine_of_high (htec : 255 < tec) : canConfine s c tec rec_ =
    busEvent (((canWarned s c tec rec_).put (Fld.BE_STATUS_ENGINE c) engBusOff).raise (Fld.BE_EVT_BUS_OFF c)) c := by
  simp [canConfine, canWarned, canCounted, canFcs, htec]

theorem canConfine_of_low (htec : tec ≤ 255) : canConfine s c tec rec_ = canWarned s c tec rec_ := by
  have hfcs : canFcs tec rec_ ≠ 2 := by
    rw [canFcs, if_neg (by omega)]
    split <;> decide
  exact if_neg hfcs

/-- No other field than the engine's state and the two events changes after the counters. -/
theorem canConfine_get {g : Fld} (hengine : fldKey g ≠ fldKey (Fld.BE_STATUS_ENGINE c)) (hoff : fldKey g ≠ fldKey (Fld.BE_EVT_BUS_OFF c))
    (hpassive : fldKey g ≠ fldKey (Fld.BE_EVT_ERR_PASSIVE c)) : (canConfine s c tec rec_).get g = (canCounted s c tec rec_).get g := by
  rcases Nat.lt_or_ge 255 tec with htec | htec
  · rw [canConfine_of_high s c htec, busEvent_get, State.raise_eq, State.get_put_ne _ _ hoff, State.get_put_ne _ _ hengine,
      canWarned_get s c hpassive]
  · rw [canConfine_of_low s c htec, canWarned_get s c hpassive]

theorem canConfine_tec : (canConfine s c tec rec_).get (Fld.BE_STATUS_TEC c) = min tec 255 := by
  have hfcs : fldKey (Fld.BE_STATUS_TEC c) ≠ fldKey (Fld.BE_STATUS_FCS c) := key_ne_of_lo (by decide)
  have hrec : fldKey (Fld.BE_STATUS_TEC c) ≠ fldKey (Fld.BE_STATUS_REC c) := key_ne_of_lo (by decide)
  rw [canConfine_get s c (g := Fld.BE_STATUS_TEC c) (key_ne_of_lo (by decide)) (status_lt_evt c (by decide)).ne
    (status_lt_evt c (by decide)).ne, canCounted, State.get_put_ne _ _ hfcs, State.get_put_ne _ _ hrec]
  exact State.get_put_of_lt s (show min tec 255 < 2 ^ 8 by omega)

theorem canConfine_rec : (canConfine s c tec rec_).get (Fld.BE_STATUS_REC c) = min rec_ 255 := by
  have hfcs : fldKey (Fld.BE_STATUS_REC c) ≠ fldKey (Fld.BE_STATUS_FCS c) := key_ne_of_lo (by decide)
  rw [canConfine_get s c (g := Fld.BE_STATUS_REC c) (key_ne_of_lo (by decide)) (status_lt_evt c (by decide)).ne
    (status_lt_evt c (by decide)).ne, canCounted, State.get_put_ne _ _ hfcs]
  exact State.get_put_of_lt _ (show min rec_ 255 < 2 ^ 8 by omega)

/-- What is neither a counter nor the fault confinement state is kept by the counters. -/
theorem canCounted_get {g : Fld} (htec : fldKey g ≠ fldKey (Fld.BE_STATUS_TEC c)) (hrec : fldKey g ≠ fldKey (Fld.BE_STATUS_REC c))
    (hfcs : fldKey g ≠ fldKey (Fld.BE_STATUS_FCS c)) : (canCounted s c tec rec_).get g = s.get g := by
  rw [canCounted, State.get_put_ne _ _ hfcs, State.get_put_ne _ _ hrec, State.get_put_ne _ _ htec]

theorem canConfine_protoErr : (canConfine s c tec rec_).isSet (Fld.BE_EVT_PROTO_ERR c) = s.isSet (Fld.BE_EVT_PROTO_ERR c) := by
  have hkept := canConfine_get s c (tec := tec) (rec_ := rec_) (g := Fld.BE_EVT_PROTO_ERR c) (status_lt_evt c (by decide)).ne'
    (key_ne_of_lo (by decide)) (key_ne_of_lo (by decide))
  rw [State.isSet_eq, hkept, canCounted_get s c (g := Fld.BE_EVT_PROTO_ERR c) (status_lt_evt c (by decide)).ne' (status_lt_evt c (by decide)).ne'
    (status_lt_evt c (by decide)).ne']
  rfl

/-- The transmit counter passes 255. -/
theorem canConfine_busOff (htec : 255 < tec) : engineOf (canConfine s c tec rec_) c = engBusOff ∧
    (canConfine s c tec rec_).isSet (Fld.BE_EVT_BUS_OFF c) = true := by
  have hevt : fldKey (Fld.BE_STATUS_ENGINE c) ≠ fldKey (Fld.BE_EVT_BUS_OFF c) := (status_lt_evt c (by decide)).ne
  rw [canConfine_of_high s c htec, engineOf, busEvent_get, busEvent_isSet, State.raise_eq, State.get_put_ne _ _ hevt]
  exact ⟨State.get_put_same .., State.isSet_raise _ Nat.one_pos⟩

theorem canConfine_engine (htec : tec ≤ 255) : engineOf (canConfine s c tec rec_) c = engineOf s c := by
  have hkept := canCounted_get s c (tec := tec) (rec_ := rec_) (g := Fld.BE_STATUS_ENGINE c) (key_ne_of_lo (by decide))
    (key_ne_of_lo (by decide)) (key_ne_of_lo (by decide))
  rw [canConfine_of_low s c htec, engineOf, canWarned_get s c (g := Fld.BE_STATUS_ENGINE c) (status_lt_evt c (by decide)).ne]
  exact hkept

end

/-! ### Protocol errors (R178) -/

/-- The counts of an error of a kind, and its event. -/
def errorCounted (s : State) (c : Fin 56) (kind : Nat) : State :=
  if kind = 4 then protoError s c else detailAdd (protoError s c) c (16 * (kind % 4)) 16

section
variable (s : State) (c : Fin 56) (kind : Nat)

theorem keepsItems_errorCounted : KeepsItems s (errorCounted s c kind) c :=
  (keepsItems_protoError s c).ite _ ((keepsItems_protoError s c).trans (keepsItems_detailAdd ..))

theorem errorCounted_get {g : Fld} (hevt : fldKey g ≠ fldKey (Fld.BE_EVT_PROTO_ERR c)) (hg : fldKey g < chPage c 7 * 64) :
    (errorCounted s c kind).get g = s.get g := by
  unfold errorCounted
  split
  · exact protoError_get s hevt hg
  · rw [detailAdd_get _ _ _ hg, protoError_get s hevt hg]

theorem errorCounted_status {lo w rst : Nat} (hlo : lo < 64) :
    (errorCounted s c kind).get ⟨Reg.BE_STATUS c, lo, w, rst⟩ = s.get ⟨Reg.BE_STATUS c, lo, w, rst⟩ :=
  errorCounted_get s c kind (status_lt_evt c hlo).ne (key_lt_page (by decide) (by decide) hlo)

theorem errorCounted_isSet : (errorCounted s c kind).isSet (Fld.BE_EVT_PROTO_ERR c) = true := by
  unfold errorCounted
  split
  · exact protoError_isSet s c
  · rw [State.isSet_eq, detailAdd_get _ _ _ (g := Fld.BE_EVT_PROTO_ERR c) (key_lt_page (by decide) (by decide) (by decide)), ← State.isSet_eq]
    exact protoError_isSet s c

end

section
variable {s : State} {c : Fin 56} (hmode : modeOf s c = modeCan) (hengine : engineOf s c = engOn) (kind : Nat) (primary : Bool)
include hmode hengine

/-- As transmitter the transmit counter rises by 8, but for a missing acknowledgement of an error-passive one. -/
theorem canError_of_sender : canError s c kind true primary = canConfine (errorCounted s c kind) c
    (if kind = 4 ∧ s.get (Fld.BE_STATUS_FCS c) = 1 ∧ !primary then s.get (Fld.BE_STATUS_TEC c) else s.get (Fld.BE_STATUS_TEC c) + 8)
    (s.get (Fld.BE_STATUS_REC c)) := by
  unfold canError
  rw [if_pos (by simp [hmode, engineUp_of_on hengine])]
  extract_lets t tec rc
  have hstatus {lo w rst : Nat} (hlo : lo < 64) : t.get ⟨Reg.BE_STATUS c, lo, w, rst⟩ = s.get ⟨Reg.BE_STATUS c, lo, w, rst⟩ :=
    errorCounted_status s c kind hlo
  have hon : engineOf t c = engOn := (hstatus (by decide)).trans hengine
  have htec : tec = s.get (Fld.BE_STATUS_TEC c) := hstatus (by decide)
  have hrc : rc = s.get (Fld.BE_STATUS_REC c) := hstatus (by decide)
  have hfcs : t.get (Fld.BE_STATUS_FCS c) = s.get (Fld.BE_STATUS_FCS c) := hstatus (by decide)
  rw [if_neg (by rw [hon]; decide), if_pos rfl, htec, hrc, hfcs]
  rfl

/-- As receiver, which meets no missing acknowledgement, the receive counter rises by 1, or by 8. -/
theorem canError_of_receiver (hkind : kind ≠ 4) : canError s c kind false primary = canConfine (errorCounted s c kind) c
    (s.get (Fld.BE_STATUS_TEC c)) (s.get (Fld.BE_STATUS_REC c) + (if primary then 8 else 1)) := by
  unfold canError
  rw [if_pos (by simp [hmode, engineUp_of_on hengine, hkind])]
  extract_lets t tec rc
  have hstatus {lo w rst : Nat} (hlo : lo < 64) : t.get ⟨Reg.BE_STATUS c, lo, w, rst⟩ = s.get ⟨Reg.BE_STATUS c, lo, w, rst⟩ :=
    errorCounted_status s c kind hlo
  have hon : engineOf t c = engOn := (hstatus (by decide)).trans hengine
  have htec : tec = s.get (Fld.BE_STATUS_TEC c) := hstatus (by decide)
  have hrc : rc = s.get (Fld.BE_STATUS_REC c) := hstatus (by decide)
  rw [if_neg (by rw [hon]; decide), if_neg Bool.false_ne_true, htec, hrc]
  rfl

end

/-! ### The frame whose transmission failed (R100, R178) -/

section
variable {s : State} {c : Fin 56}

theorem transmitting_of_none (hexec : (s.sq c).exec = none) : transmitting s c = none := by simp only [transmitting, hexec]

theorem txFeed_get (k : Nat) (s : State) (g : Fld) : (txFeed k s c).get g = s.get g := by
  induction k generalizing s with
  | zero => rfl
  | succ k ih =>
    unfold txFeed
    extract_lets f
    split
    · rfl
    · split
      · rw [ih]
        rfl
      · rfl

theorem txFeed_sq (k : Nat) (s : State) : (txFeed k s c).sq c = s.sq c := by
  induction k generalizing s with
  | zero => rfl
  | succ k ih =>
    unfold txFeed
    extract_lets f
    split
    · rfl
    · split
      · rw [ih, State.modBus_sq, State.modFifos_sq]
      · rfl

theorem txFeed_rx (k : Nat) (s : State) : ((txFeed k s c).ch c).fifos.rx = (s.ch c).fifos.rx := by
  induction k generalizing s with
  | zero => rfl
  | succ k ih =>
    unfold txFeed
    extract_lets f
    split
    · rfl
    · split
      · rw [ih, State.modBus_fifos, State.modFifos_fifos]
      · rfl

theorem txReach_frame (s : State) (c : Fin 56) :
    (txReach s c).sq c = s.sq c ∧ ((txReach s c).ch c).fifos.rx = (s.ch c).fifos.rx ∧
      ∀ g, fldKey g < chPage c 4 * 64 → (txReach s c).get g = s.get g := by
  unfold txReach
  split
  case h_1 n rest _ =>
    refine ⟨State.modFifos_sq .., by rw [State.modFifos_fifos]; rfl, fun g hg => ?_⟩
    rw [State.modFifos_get, State.raise_eq, State.get_put_ne _ _ (f := Fld.FIFO_EVT_TX_GAP c) (hg.trans_le (page_le_key le_rfl)).ne,
      statAdd_get s _ _ (hg.trans_le (by simp only [chPage_eq]; omega))]
  case h_2 => exact ⟨rfl, rfl, fun _ _ => rfl⟩

/-- With no order in execution the engine gives up the item alone. -/
theorem txGiveUp_of_idle (hexec : (s.sq c).exec = none) :
    (txGiveUp s c).sq c = s.sq c ∧ ((txGiveUp s c).ch c).fifos.rx = (s.ch c).fifos.rx ∧
      ∀ g, fldKey g < chPage c 4 * 64 → (txGiveUp s c).get g = s.get g := by
  obtain ⟨hsq, hrx, hget⟩ := txReach_frame s c
  unfold txGiveUp
  extract_lets t
  split
  case h_1 b own rest _ =>
    have hnone : transmitting t c = none := transmitting_of_none (by rw [show t.sq c = _ from hsq, hexec])
    cases own
    all_goals
      simp only [hnone]
      exact ⟨(txFeed_sq ..).trans ((State.modFifos_sq ..).trans hsq),
        (txFeed_rx ..).trans ((congrArg Fifos.rx (State.modFifos_fifos ..)).trans hrx), fun g hg => (txFeed_get ..).trans (hget g hg)⟩
  case h_2 => exact ⟨hsq, hrx, hget⟩

/-- The item at the head is gone. -/
theorem txGiveUp_tx (hexec : (s.sq c).exec = none) (hwait : (s.ch c).bus.txWait = []) {b : List Byte} {own : Bool} {rest : List TxEnt}
    (htx : (s.ch c).fifos.tx = .item b own :: rest) : ((txGiveUp s c).ch c).fifos.tx = rest := by
  have hreach : txReach s c = s := txReach_of_no_marker (by rw [htx]; simp)
  have hfeed : txFeed 31 (s.modFifos c (fun f => { f with tx := f.tx.tail })) c = s.modFifos c (fun f => { f with tx := f.tx.tail }) :=
    txFeed_of_none (by rw [State.modFifos_bus, hwait]) 31
  cases own <;> simp [txGiveUp, hreach, htx, transmitting_of_none hexec, hfeed]

/-- With no order in execution an error gives up at most the frame. -/
theorem txError_of_idle (hexec : (s.sq c).exec = none) (hmode : modeOf s c = modeCan) (tx : Bool) :
    txError s c tx = if tx && s.isSet (Fld.CAN_CFG_NO_RETX c) then txGiveUp s c else s := by
  obtain ⟨hgone, -⟩ := txGiveUp_of_idle hexec
  unfold txError
  rw [if_pos hmode]
  extract_lets t
  have hnone : transmitting t c = none := by
    refine transmitting_of_none ?_
    unfold t
    split
    · rw [hgone, hexec]
    · exact hexec
  split
  case h_1 e _ he => exact absurd (hnone.symm.trans he) (by simp)
  case h_2 => rfl

end

end Sys2Proof.Machine
end

section
/-!
PROOF. CAN protocol errors and frames (R177, R178, R180, R187).
-/
namespace Sys2Proof.Machine

/-! ### The event of a protocol error (R178) -/

section
variable {s : State} {c : Fin 56} (h : Receives s c modeCan)
include h

/-- What a protocol error comes to, when the error counters have become `tec` and `rec_`. -/
theorem canErrorEnds {kind : Fin 5} {tx primary : Bool} {tec rec_ : Nat}
    (herror : canError s c kind tx primary = canConfine (errorCounted s c kind) c tec rec_) :
    ∃ u, Does (.canProtocolError c kind tx primary) s u ∧
      (∀ g, fldKey g < chPage c 4 * 64 → u.get g = (canConfine (errorCounted s c kind) c tec rec_).get g) ∧
      u.isSet (Fld.BE_EVT_PROTO_ERR c) = true ∧
      ((tx && s.isSet (Fld.CAN_CFG_NO_RETX c)) = false → (u.ch c).fifos.tx = (s.ch c).fifos.tx) ∧
      ((tx && s.isSet (Fld.CAN_CFG_NO_RETX c)) = true → (s.ch c).bus.txWait = [] → ∀ b own rest,
        (s.ch c).fifos.tx = .item b own :: rest → (u.ch c).fifos.tx = rest) := by
  obtain ⟨⟨hexec, -⟩, -, hmode, -⟩ := h
  set t := canConfine (errorCounted s c kind) c tec rec_ with ht
  have hstatus : StatusOnly (errorCounted s c kind) t c := statusOnly_canConfine ..
  have hitems : KeepsItems s t c := (keepsItems_errorCounted s c kind).trans hstatus.items
  have hconfig {off lo w rst : Nat} (hoff : off < 0x180) (hlo : lo < 64) :
      t.get ⟨chPage c 2 + off, lo, w, rst⟩ = s.get ⟨chPage c 2 + off, lo, w, rst⟩ := by
    have hkey : fldKey ⟨chPage c 2 + off, lo, w, rst⟩ = (chPage c 2 + off) * 64 + lo := rfl
    have hevt : fldKey (Fld.BE_EVT_PROTO_ERR c) = (chPage c 2 + 0x188) * 64 + 1 := rfl
    rw [hstatus.get _ (.inl (by rw [hkey, Reg.BE_STATUS]; omega)),
      errorCounted_get s c kind (by omega) (key_lt_page (by decide) (by omega) hlo)]
  have hidle : (t.sq c).exec = none := by rw [hitems.sq, hexec]
  have hretx : t.isSet (Fld.CAN_CFG_NO_RETX c) = s.isSet (Fld.CAN_CFG_NO_RETX c) := congrArg (· != 0) (hconfig (by decide) (by decide))
  have hends := txError_of_idle hidle ((hconfig (by decide) (by decide)).trans hmode) tx
  rw [hretx] at hends
  have hproto : t.isSet (Fld.BE_EVT_PROTO_ERR c) = true := (canConfine_protoErr ..).trans (errorCounted_isSet s c kind)
  obtain ⟨-, -, hget⟩ := txGiveUp_of_idle hidle
  cases hgives : tx && s.isSet (Fld.CAN_CFG_NO_RETX c) with
  | true =>
    rw [hgives, if_pos rfl] at hends
    refine ⟨txGiveUp t c, congrArg done ((congrArg (txError · c tx) herror).trans hends), hget, ?_, (by simp), fun _ hwait b own rest htx => ?_⟩
    · rw [State.isSet_eq, hget (Fld.BE_EVT_PROTO_ERR c) (key_lt_page (by decide) (by decide) (by decide)), ← State.isSet_eq]
      exact hproto
    · exact txGiveUp_tx hidle (by rw [hitems.bus, hwait]) (by rw [hitems.fifos, htx])
  | false =>
    rw [hgives, if_neg Bool.false_ne_true] at hends
    exact ⟨t, congrArg done ((congrArg (txError · c tx) herror).trans hends), fun _ _ => rfl, hproto, fun _ => by rw [hitems.fifos], by simp⟩

variable (k : Fin 5) (p : Bool)

theorem doesSome_canProtocolError_of_rises (htec : s.get (Fld.BE_STATUS_TEC c) ≤ 255) (hrec : s.get (Fld.BE_STATUS_REC c) ≤ 255)
    (hrises : ¬ (k = 4 ∧ s.get (Fld.BE_STATUS_FCS c) = 1 ∧ p = false)) :
    DoesSome (.canProtocolError c k true p) s (fun u => u.get (Fld.BE_STATUS_TEC c) = min 255 (s.get (Fld.BE_STATUS_TEC c) + 8) ∧
      u.get (Fld.BE_STATUS_REC c) = s.get (Fld.BE_STATUS_REC c) ∧ u.isSet (Fld.BE_EVT_PROTO_ERR c) = true ∧
      (247 < s.get (Fld.BE_STATUS_TEC c) → engineOf u c = engBusOff ∧ u.isSet (Fld.BE_EVT_BUS_OFF c) = true)) := by
  obtain ⟨-, -, hmode, hengine⟩ := id h
  have herror := canError_of_sender hmode hengine k p
  rw [if_neg fun ⟨hack, hfcs, hp⟩ => hrises ⟨Fin.ext hack, hfcs, by simpa using hp⟩] at herror
  obtain ⟨u, hdoes, hget, hproto, -⟩ := canErrorEnds h herror
  have hstatus {lo w rst : Nat} (hlo : lo < 64) := hget ⟨Reg.BE_STATUS c, lo, w, rst⟩ (key_lt_page (by decide) (by decide) hlo)
  refine ⟨u, hdoes, (hstatus (by decide)).trans ?_, (hstatus (by decide)).trans ?_, hproto, fun hhigh => ?_⟩
  · rw [Nat.min_comm]
    exact canConfine_tec ..
  · exact (canConfine_rec ..).trans (Nat.min_eq_left hrec)
  · obtain ⟨hoff, hset⟩ := canConfine_busOff (errorCounted s c k) c (rec_ := s.get (Fld.BE_STATUS_REC c))
      (show 255 < s.get (Fld.BE_STATUS_TEC c) + 8 by omega)
    refine ⟨(hstatus (by decide)).trans hoff, ?_⟩
    rw [State.isSet_eq, hget (Fld.BE_EVT_BUS_OFF c) (key_lt_page (by decide) (by decide) (by decide)), ← State.isSet_eq, hset]

/-- An error-passive transmitter that is not acknowledged keeps its counter. -/
theorem doesSome_canProtocolError_of_kept (htec : s.get (Fld.BE_STATUS_TEC c) ≤ 255) (hk : k = 4)
    (hfcs : s.get (Fld.BE_STATUS_FCS c) = 1) (hp : p = false) : DoesSome (.canProtocolError c k true p) s (fun u =>
      u.get (Fld.BE_STATUS_TEC c) = s.get (Fld.BE_STATUS_TEC c) ∧ u.isSet (Fld.BE_EVT_PROTO_ERR c) = true) := by
  obtain ⟨-, -, hmode, hengine⟩ := id h
  have herror := canError_of_sender hmode hengine k p
  rw [if_pos ⟨congrArg Fin.val hk, hfcs, by rw [hp]; rfl⟩] at herror
  obtain ⟨u, hdoes, hget, hproto, -⟩ := canErrorEnds h herror
  refine ⟨u, hdoes, (hget _ (key_lt_page (by decide) (by decide) (by decide))).trans ?_, hproto⟩
  exact (canConfine_tec ..).trans (Nat.min_eq_left htec)

/-- The frame is given up with NO_RETX alone. -/
theorem doesSome_canProtocolError_tx :
    (s.isSet (Fld.CAN_CFG_NO_RETX c) = true → (s.ch c).bus.txWait = [] → ∀ {b own rest}, (s.ch c).fifos.tx = .item b own :: rest →
      DoesSome (.canProtocolError c k true p) s (fun u => (u.ch c).fifos.tx = rest)) ∧
    (s.isSet (Fld.CAN_CFG_NO_RETX c) = false →
      DoesSome (.canProtocolError c k true p) s (fun u => (u.ch c).fifos.tx = (s.ch c).fifos.tx)) := by
  obtain ⟨-, -, hmode, hengine⟩ := id h
  obtain ⟨u, hdoes, -, -, hkept, hgone⟩ := canErrorEnds h (canError_of_sender hmode hengine k p)
  exact ⟨fun hretx hwait b own rest htx => ⟨u, hdoes, hgone (by rw [hretx]; rfl) hwait b own rest htx⟩,
    fun hretx => ⟨u, hdoes, hkept (by rw [hretx]; rfl)⟩⟩

/-- As receiver. -/
theorem doesSome_canProtocolError_of_receiver (htec : s.get (Fld.BE_STATUS_TEC c) ≤ 255) (hk : k ≠ 4) :
    DoesSome (.canProtocolError c k false p) s (fun u =>
    u.get (Fld.BE_STATUS_REC c) = min 255 (s.get (Fld.BE_STATUS_REC c) + (if p then 8 else 1)) ∧
    u.get (Fld.BE_STATUS_TEC c) = s.get (Fld.BE_STATUS_TEC c) ∧ engineOf u c = engOn) := by
  obtain ⟨-, -, hmode, hengine⟩ := id h
  obtain ⟨u, hdoes, hget, -⟩ := canErrorEnds h (canError_of_receiver hmode hengine k p fun hval => hk (Fin.ext hval))
  have hstatus {lo w rst : Nat} (hlo : lo < 64) := hget ⟨Reg.BE_STATUS c, lo, w, rst⟩ (key_lt_page (by decide) (by decide) hlo)
  refine ⟨u, hdoes, (hstatus (by decide)).trans ?_, (hstatus (by decide)).trans ?_, (hstatus (by decide)).trans ?_⟩
  · rw [Nat.min_comm]
    exact canConfine_rec ..
  · exact (canConfine_tec ..).trans (Nat.min_eq_left htec)
  · exact (canConfine_engine _ c htec).trans ((errorCounted_status s c k (by decide)).trans hengine)

theorem does_canProtocolError_of_ack : Does (.canProtocolError c 4 false p) s s := by
  obtain ⟨⟨hexec, -⟩, -, hmode, -⟩ := h
  have herror : canError s c (4 : Fin 5) false p = s := by simp [canError]
  refine congrArg done ?_
  rw [herror, txError_of_idle hexec hmode]
  rfl

end

/-! ### Frames (R177, R187) -/

/-- A frame whose format is not enabled is waited out, or is a form error. -/
theorem canFrame_of_disabled {s : State} {c : Fin 56} (h : Receives s c modeCan) {f : CanFrame} (hformat : canEnabled s c f = false) (ts : Word) :
    (s.isSet (Fld.CAN_CFG_PROTO_EXC c) = true → Does (.canFrame c f ts) s s) ∧
    (s.isSet (Fld.CAN_CFG_PROTO_EXC c) = false →
      DoesSome (.canFrame c f ts) s (fun u => u.isSet (Fld.BE_EVT_PROTO_ERR c) = true ∧ (u.ch c).fifos.rx = [])) := by
  obtain ⟨hquiet, -, hmode, hengine⟩ := h
  obtain ⟨hexec, -, -, hrx⟩ := id hquiet
  have hframe : canFrame s c f ts.toNat = if s.isSet (Fld.CAN_CFG_PROTO_EXC c) then s else canError s c 2 false false :=
    if_pos (by rw [hmode, engineUp_of_on hengine, hformat]; rfl)
  refine ⟨fun hexc => congrArg done (received_fencedItem (canFrame · c f ts.toNat) hquiet ?_ hexec), fun hexc => ?_⟩
  · rw [hframe, if_pos hexc]
  · rw [hexc, if_neg Bool.false_ne_true, canError_of_receiver hmode hengine 2 false (by decide)] at hframe
    have hitems (tec rec_ : Nat) : KeepsItems s (canConfine (errorCounted s c 2) c tec rec_) c :=
      (keepsItems_errorCounted s c 2).trans (statusOnly_canConfine ..).items
    refine ⟨_, congrArg done (received_fencedItem (canFrame · c f ts.toNat) hquiet hframe (by rw [(hitems ..).sq, hexec])), ?_, ?_⟩
    · exact (canConfine_protoErr ..).trans (errorCounted_isSet s c 2)
    · rw [(hitems ..).fifos, hrx]

theorem canPayload_length (f : CanFrame) : (canPayload f).length ≤ f.data.length + 16 := by
  unfold canPayload
  split
  · simp
    omega
  · simp
    omega

theorem sends_xlSwitch (s : State) (c : Fin 56) (f : CanFrame) : ∃ sent, Sends s (xlSwitch s c f) sent := by
  unfold xlSwitch
  extract_lets m
  split
  · exact ⟨_, .refl s⟩
  · split
    · exact ⟨_, .emit s _⟩
    · split
      · exact ⟨_, (Sends.emit s _).trans (.emit _ _)⟩
      · exact ⟨_, .refl s⟩

section
variable {s : State} {c : Fin 56} (h : Receives s c modeCan) {f : CanFrame} (hformat : canEnabled s c f = true)
include h hformat

/-- The counters move with a frame; then the filters accept it, and it becomes an item, or it is counted. -/
theorem canFrame_of_enabled (ts : Nat) : ∃ t, StatusOnly s t c ∧
    (filterDecide s c f.id.toNat f.ide f.xl = (true, false) → canFrame s c f ts =
      rxPlace t c ⟨min ts s.now, if f.xl then 0x02 else 0x01, c.val, 0, if f.tx then 1 else 0, canPayload f⟩) ∧
    ((filterDecide s c f.id.toNat f.ide f.xl).1 = false → canFrame s c f ts = statAdd t c statFiltered 1) := by
  obtain ⟨-, -, hmode, hengine⟩ := h
  unfold canFrame
  rw [if_neg (by simp [hformat]), if_pos (by rw [hmode, engineUp_of_on hengine]; rfl)]
  extract_lets t tec rc u
  obtain ⟨sent, hsent⟩ := sends_xlSwitch s c f
  have hu : StatusOnly s u c := (hsent.statusOnly c).trans ((statusOnly_canConfine ..).ite _ (statusOnly_canConfine ..))
  refine ⟨u, hu, fun haccepts => ?_, fun hrefuses => ?_⟩
  · rw [hu.filterDecide, haccepts, ← hu.now]
    rfl
  · rw [hu.filterDecide]
    generalize filterDecide s c f.id.toNat f.ide f.xl = d at hrefuses
    obtain ⟨ok, track⟩ := d
    cases hrefuses
    rfl

theorem doesSome_canFrame (hlen : f.data.length ≤ 2048) (ts : Word) :
    (filterDecide s c f.id.toNat f.ide f.xl = (true, false) →
      DoesSome (.canFrame c f ts) s (fun u =>
        Placed s u c ⟨min ts.toNat s.now, if f.xl then 0x02 else 0x01, c.val, 0, if f.tx then 1 else 0, canPayload f⟩)) ∧
    ((filterDecide s c f.id.toNat f.ide f.xl).1 = false → DoesSome (.canFrame c f ts) s (fun u => (u.ch c).fifos.rx = [] ∧
      u.get (Fld.STATS_CNT_COUNT c statFiltered) = (s.get (Fld.STATS_CNT_COUNT c statFiltered) + 1) % 2 ^ 64)) := by
  obtain ⟨t, ht, haccepted, hfiltered⟩ := canFrame_of_enabled h hformat ts.toNat
  obtain ⟨hquiet, hc, -⟩ := h
  obtain ⟨hexec, -, -, hrx⟩ := id hquiet
  refine ⟨fun haccepts => ⟨_, congrArg done (received_fencedItem (canFrame · c f ts.toNat) hquiet (haccepted haccepts) ?_), ?_⟩,
    fun hrefuses => ⟨_, congrArg done (received_fencedItem (canFrame · c f ts.toNat) hquiet (hfiltered hrefuses) ?_), ?_, ?_⟩⟩
  · rw [(itemsOnly_rxPlace t c _).sq, ht.items.sq, hexec]
  · have hsize := canPayload_length f
    exact Placed.of_count (placed_rxPlace hc (by rw [ht.items.fifos, hrx]) (recSize_le (hsize.trans (by omega)))) (ht.count _)
  · exact (congrArg Seq.exec ht.items.sq).trans hexec
  · exact (congrArg Fifos.rx ht.items.fifos).trans hrx
  · rw [statAdd, State.bumpWrap, ht.count]
    exact State.get_put_same ..

end

end Sys2Proof.Machine
end

section
/-!
PROOF. LIN headers and frames (R177, R181), and the statement on CAN and LIN.
-/
namespace Sys2Proof.Machine

/-! ### Headers (R181) -/

/-- The item that matches a header stands first in the TX FIFO. -/
theorem linFirst_head {s : State} {c : Fin 56} {id : Nat} {b : List Byte} (h : linMatch (s.ch c).fifos id = some b) :
    ∃ own, ((linFirst s c id).ch c).fifos.tx.head? = some (.item b own) := by
  rw [linMatch, List.find?_filterMap, Option.bind_eq_some_iff] at h
  obtain ⟨e, hfind, he⟩ := h
  unfold linFirst
  extract_lets hit
  have hsame : (s.ch c).fifos.tx.find? hit = some e := by
    rw [← hfind]
    refine congrArg (List.find? · _) (funext fun x => ?_)
    cases x <;> rfl
  rw [State.modFifos_fifos]
  simp only [hsame]
  cases e with
  | item b' own =>
    cases he
    exact ⟨own, rfl⟩
  | marker n => cases he

section
variable {s : State} {c : Fin 56} (pid brk : Byte) (ts : Word)

theorem does_linHeader_of_listener (hmode : modeOf s c = modeLin) (hengine : engineOf s c = engListen)
    (hbreak : s.get (Fld.LIN_CFG_BREAK_DETECT c) ≤ brk.toNat) : Does (.linHeader c ⟨pid, brk⟩ ts) s
      (s.modBus c (fun b => { b with linHdr := some (pid.toNat % 64, min ts.toNat s.now), linSend := false })) := by
  have hlistens : s.get (Fld.BE_STATUS_ENGINE c) = engListen := hengine
  refine congrArg done ?_
  simp [linHeader, hmode, engineUp, engineOf, hlistens, hbreak, clampTs, engOn, engListen]

theorem does_linHeader_of_short (hbreak : brk.toNat < s.get (Fld.LIN_CFG_BREAK_DETECT c)) : Does (.linHeader c ⟨pid, brk⟩ ts) s s :=
  congrArg done (if_neg (by simp [hbreak]))

/-- A responder answers from a matching TX item, or stays silent. -/
theorem doesSome_linHeader_of_responder (hmode : modeOf s c = modeLin) (hengine : engineOf s c = engOn)
    (hrole : s.get (Fld.LIN_CFG_ROLE c) = 1) (hbreak : s.get (Fld.LIN_CFG_BREAK_DETECT c) ≤ brk.toNat) (hparity : linParBad pid.toNat = false) :
    (linMatch (s.ch c).fifos pid.toNat = none →
      DoesSome (.linHeader c ⟨pid, brk⟩ ts) s (fun u => u.isSet (Fld.BE_EVT_NO_RESPONSE c) = true ∧ u.out = s.out)) ∧
    (∀ b, linMatch (s.ch c).fifos pid.toNat = some b →
      DoesSome (.linHeader c ⟨pid, brk⟩ ts) s (fun u => u.out = s.out ++ [.busTx c (linResponse b)] ∧ (u.ch c).bus.linSend = true ∧
        ∃ own, (u.ch c).fifos.tx.head? = some (.item b own))) := by
  set t := s.modBus c (fun b => { b with linHdr := some (pid.toNat % 64, min ts.toNat s.now), linSend := false }) with ht
  have hfifos : (t.ch c).fifos = (s.ch c).fifos := State.modBus_fifos ..
  have hheader : linHeader s c pid.toNat brk.toNat ts.toNat = (match linMatch (t.ch c).fifos pid.toNat with
      | some b => ((linFirst t c pid.toNat).modBus c (fun b => { b with linSend := true })).emit (.busTx c (linResponse b))
      | none => busEvent (t.raise (Fld.BE_EVT_NO_RESPONSE c)) c) := by
    unfold linHeader
    rw [if_pos (by simp [hmode, engineUp_of_on hengine, hbreak])]
    extract_lets u
    have hanswers : (engineOf u c == engOn && u.get (Fld.LIN_CFG_ROLE c) == 1 && !linParBad pid.toNat) = true := by
      rw [hparity, show engineOf u c = engOn from hengine, show u.get (Fld.LIN_CFG_ROLE c) = 1 from hrole]
      rfl
    rw [if_pos hanswers]
    rfl
  rw [hfifos] at hheader
  refine ⟨fun hnone => ?_, fun b hmatch => ?_⟩
  · rw [hnone] at hheader
    refine ⟨_, congrArg done hheader, ?_, ?_⟩
    · rw [busEvent_isSet]
      exact State.isSet_raise _ Nat.one_pos
    · rw [busEvent_out]
      rfl
  · rw [hmatch] at hheader
    obtain ⟨own, hown⟩ := linFirst_head (s := t) (c := c) (id := pid.toNat) (by rw [hfifos, hmatch])
    refine ⟨_, congrArg done hheader, rfl, ?_, own, ?_⟩
    · rw [State.emit_ch, State.modBus_bus]
    · rw [State.emit_ch, State.modBus_fifos, hown]

end

/-! ### Frames and responses that do not come (R177) -/

/-- The sequencer, the RX FIFO and the registers of a channel below those of its FIFOs are in `u` as in `s`, but for the event of a protocol
error. -/
structure KeepsRx (s u : State) (c : Fin 56) : Prop where
  sq : u.sq c = s.sq c
  rx : (u.ch c).fifos.rx = (s.ch c).fifos.rx
  get : ∀ g, fldKey g < chPage c 4 * 64 → fldKey g ≠ fldKey (Fld.BE_EVT_PROTO_ERR c) → u.get g = s.get g

theorem KeepsRx.refl (s : State) (c : Fin 56) : KeepsRx s s c := ⟨rfl, rfl, fun _ _ _ => rfl⟩

section
variable {s u : State} {c : Fin 56} (h : KeepsRx s u c)
include h

theorem KeepsRx.trans {t : State} (k : KeepsRx u t c) : KeepsRx s t c :=
  ⟨k.sq.trans h.sq, k.rx.trans h.rx, fun g hg hne => (k.get g hg hne).trans (h.get g hg hne)⟩

theorem KeepsRx.modBus (f : Bus → Bus) : KeepsRx s (u.modBus c f) c :=
  ⟨(State.modBus_sq ..).trans h.sq, (congrArg Fifos.rx (State.modBus_fifos ..)).trans h.rx, h.get⟩

theorem KeepsRx.ite {t : State} (b : Prop) [Decidable b] (k : KeepsRx s t c) : KeepsRx s (if b then u else t) c := by
  split
  · exact h
  · exact k

theorem KeepsRx.config {off lo w rst : Nat} (hoff : off < 0x1000) (hne : off ≠ 0x188) (hlo : lo < 64) :
    u.get ⟨chPage c 2 + off, lo, w, rst⟩ = s.get ⟨chPage c 2 + off, lo, w, rst⟩ := by
  refine h.get _ (key_lt_page (by decide) hoff hlo) fun hkey => hne ?_
  simp only [fldKey, Fld.BE_EVT_PROTO_ERR, Reg.BE_EVT] at hkey
  omega

theorem KeepsRx.filterDecide (id : Nat) (ide xl : Bool) : filterDecide u c id ide xl = filterDecide s c id ide xl :=
  filterDecide_congr (fun _ _ _ _ hlow hhigh hlo => h.config (by omega) (by omega) hlo) id ide xl

theorem KeepsRx.linRate (rate : Nat) : linRate u c rate = linRate s c rate := by
  have hauto : u.isSet (Fld.LIN_CFG_AUTOBAUD c) = s.isSet (Fld.LIN_CFG_AUTOBAUD c) :=
    congrArg (· != 0) (h.config (by decide) (by decide) (by decide))
  have hrole : u.get (Fld.LIN_CFG_ROLE c) = s.get (Fld.LIN_CFG_ROLE c) := h.config (by decide) (by decide) (by decide)
  have hbaud : u.get (Fld.LIN_CFG_BAUD c) = s.get (Fld.LIN_CFG_BAUD c) := h.config (by decide) (by decide) (by decide)
  simp only [Machine.linRate, hauto, hrole, hbaud]

theorem KeepsRx.now : u.now = s.now := by
  refine h.get _ (now_lt_page c 4) ((now_lt_page c 2).trans_le (page_le_key le_rfl)).ne

end

theorem keepsRx_protoError (s : State) (c : Fin 56) : KeepsRx s (protoError s c) c := by
  have hitems := keepsItems_protoError s c
  refine ⟨hitems.sq, congrArg Fifos.rx hitems.fifos, fun g hg hne => protoError_get s hne (hg.trans_le ?_)⟩
  simp only [chPage_eq]
  omega

/-- What becomes of the item of a frame that ended with an error. -/
theorem keepsRx_linTxError {s : State} {c : Fin 56} (hexec : (s.sq c).exec = none) (g : LinFrame) : KeepsRx s (linTxError s c g) c := by
  obtain ⟨hsq, hrx, hget⟩ := txGiveUp_of_idle hexec
  have hgone : KeepsRx s (txGiveUp s c) c := ⟨hsq, hrx, fun x hx _ => hget x hx⟩
  unfold linTxError
  simp only [transmitting_of_none hexec]
  exact ((KeepsRx.refl s c).ite _ (hgone.modBus _)).ite _ (.refl s c)

section
variable {s : State} {c : Fin 56} (h : Receives s c modeLin) {g : LinFrame}
  (haccepts : (filterDecide s c (g.pid.toNat % 64) false false).1 = true) (hparity : linParBad g.pid.toNat = false)

/-- The item of a LIN frame whose PID is right. -/
def linItem (s : State) (c : Fin 56) (g : LinFrame) (ts : Nat) : Rec :=
  ⟨min ts s.now, 0x03, c.val, 0, (if g.tx then 1 else 0) + (if linSumBad g then 2 else 0),
    linPayload g.pid.toNat g.data g.sum.toNat ((if linSumBad g then 2 else 0) + (if 0x3C ≤ g.pid.toNat % 64 then 8 else 0)) (linRate s c g.rate.toNat)⟩

theorem linPayload_length (pid : Nat) (data : List Byte) (sum flags rate : Nat) : (linPayload pid data sum flags rate).length = data.length + 8 := by
  simp [linPayload]
  omega

include h haccepts hparity

/-- An accepted frame is placed, after the event of a checksum error. -/
theorem linFrame_of_accepted (ts : Nat) : ∃ t, KeepsRx s t c ∧ (linSumBad g = true → t.isSet (Fld.BE_EVT_PROTO_ERR c) = true) ∧
    ItemsOnly (rxPlace t c (linItem s c g ts)) (linFrame (linTxError s c g) c g ts) c := by
  obtain ⟨⟨hexec, -⟩, -, hmode, hengine⟩ := h
  have hleft := keepsRx_linTxError hexec g
  have hmode' : modeOf (linTxError s c g) c = modeLin := (hleft.config (by decide) (by decide) (by decide)).trans hmode
  have hengine' : engineOf (linTxError s c g) c = engOn := (hleft.config (by decide) (by decide) (by decide)).trans hengine
  unfold linFrame
  rw [if_pos (by rw [hmode', engineUp_of_on hengine']; rfl)]
  extract_lets id par err u v
  have herr : err = linSumBad g := by simp [err, par, hparity]
  have hu : KeepsRx s u c := hleft.modBus _
  have hv : KeepsRx s v c := (hu.trans (keepsRx_protoError u c)).ite _ hu
  refine ⟨v, hv, fun hbad => ?_, ?_⟩
  · rw [show v = protoError u c from if_pos (herr.trans hbad)]
    exact protoError_isSet u c
  · have hitem : (⟨clampTs v ts, 0x03, c.val, 0, (if g.tx then 1 else 0) + (if err then 2 else 0), linPayload g.pid.toNat g.data g.sum.toNat
        ((if linSumBad g then 2 else 0) + (if par then 4 else 0) + (if 0x3C ≤ id then 8 else 0)) (linRate v c g.rate.toNat)⟩ : Rec) =
        linItem s c g ts := by
      have hpar : par = false := hparity
      rw [hv.linRate, clampTs, hv.now, herr, hpar]
      rfl
    rw [hv.filterDecide]
    generalize filterDecide s c (g.pid.toNat % 64) false false = d at haccepts
    obtain ⟨ok, track⟩ := d
    cases haccepts
    rw [← hitem]
    exact (ItemsOnly.refl _ c).ite _ (itemsOnly_partnerSeen ..)

theorem doesSome_linFrame (hlen : g.data.length ≤ 8) (ts : Word) : DoesSome (.linFrame c g ts) s (fun u =>
    PlacedFirst u c (linItem s c g ts.toNat) ∧ (linSumBad g = true → u.isSet (Fld.BE_EVT_PROTO_ERR c) = true)) := by
  obtain ⟨t, ht, hbad, hu⟩ := linFrame_of_accepted h haccepts hparity ts.toNat
  obtain ⟨hquiet, hc, -⟩ := h
  obtain ⟨hexec, -, -, hrx⟩ := id hquiet
  have hall := (itemsOnly_rxPlace t c (linItem s c g ts.toNat)).trans hu
  have hsize : recSize (linItem s c g ts.toNat) ≤ 16384 := recSize_le (by rw [linItem, linPayload_length]; omega)
  refine ⟨_, congrArg done (received_fencedItem (fun x => linFrame (linTxError x c g) c g ts.toNat) hquiet rfl
    (by rw [hall.sq, ht.sq, hexec])), placedFirst_rxPlace hc (by rw [ht.rx, hrx]) hsize rfl hu, fun herr => ?_⟩
  rw [hall.isSet (f := Fld.BE_EVT_PROTO_ERR c) (key_lt_page (by decide) (by decide) (by decide)), hbad herr]

end

/-- A header whose response does not come becomes an item. -/
theorem doesSome_linResponseTimeout {s : State} {c : Fin 56} (hquiet : Quiet s c) (hc : c.val < 48) {id : BitVec 6} {t : Nat}
    (hheader : (s.ch c).bus.linHdr = some (id.toNat, t)) (haccepts : (filterDecide s c id.toNat false false).1 = true) (pid : Byte) (rate : Half) :
    DoesSome (.linResponseTimeout c pid rate) s (fun u => (u.ch c).bus.linHdr = none ∧
      Placed s u c ⟨t, 0x03, c.val, 0, 0, linPayload pid.toNat [] 0 (1 + (if 0x3C ≤ id.toNat then 8 else 0)) (linRate s c rate.toNat)⟩) := by
  obtain ⟨hexec, -, -, hrx⟩ := hquiet
  set u := s.modBus c (fun b => { b with linHdr := none }) with hu
  set r : Rec := ⟨t, 0x03, c.val, 0, 0, linPayload pid.toNat [] 0 (1 + (if 0x3C ≤ id.toNat then 8 else 0)) (linRate s c rate.toNat)⟩ with hr
  have hkept : KeepsRx s u c := (KeepsRx.refl s c).modBus _
  have hplaced := itemsOnly_rxPlace u c r
  have hsize : recSize r ≤ 16384 := recSize_le (by rw [hr, linPayload_length, List.length_nil]; omega)
  have heq : linTimeout s c pid.toNat rate.toNat = rxPlace u c r := by
    simp only [linTimeout, hheader]
    rw [← hu, hkept.filterDecide, hkept.linRate]
    generalize filterDecide s c id.toNat false false = d at haccepts
    obtain ⟨ok, track⟩ := d
    cases haccepts
    rfl
  have hidle : received (rxPlace u c r) c = rxPlace u c r := received_of_none (by rw [hplaced.sq, hkept.sq, hexec])
  refine ⟨rxPlace u c r, congrArg done ?_, ?_, ?_⟩
  · rw [heq, hidle]
  · rw [hplaced.bus, hu, State.modBus_bus]
  · exact Placed.of_count (placed_rxPlace hc (by rw [hkept.rx, hrx]) hsize) rfl

/-! ### The obligation -/

/-- Settles O37: BE_MODE, the CAN engine and the LIN engine in turn. -/
theorem canAndLin : Obligations.CanAndLin := by
  unfold Obligations.CanAndLin
  intro s c v ts f g k p id pid brk rate t b own rest
  refine ⟨fun h hc => beModeWrite_of_field h hc, fun h hc => beModeWrite_of_stream h hc, fun h hformat => canFrame_of_disabled h hformat ts,
    fun h hformat hlen => doesSome_canFrame h hformat hlen ts,
    fun h htec hrec => ⟨doesSome_canProtocolError_of_rises h k p htec hrec, doesSome_canProtocolError_of_kept h k p htec, ?_, ?_, ?_,
      doesSome_canProtocolError_of_receiver h k p htec⟩,
    fun hrecovering => congrArg done (if_pos hrecovering), does_linHeader_of_listener pid brk ts, does_linHeader_of_short pid brk ts,
    fun hmode hengine hrole hbreak hparity => ?_, fun h haccepts hparity hlen => ⟨fun hsum => ?_, fun hsum => ?_⟩,
    fun hquiet hc hheader haccepts => doesSome_linResponseTimeout hquiet hc hheader haccepts pid rate⟩
  · exact fun hretx hwait htx => (doesSome_canProtocolError_tx h k p).1 hretx hwait htx
  · exact (doesSome_canProtocolError_tx h k p).2
  · rintro rfl
    exact does_canProtocolError_of_ack h p
  · obtain ⟨hsilent, hanswers⟩ := doesSome_linHeader_of_responder pid brk ts hmode hengine hrole hbreak hparity
    exact ⟨hsilent, hanswers b⟩
  · obtain ⟨u, hdoes, hplaced, -⟩ := doesSome_linFrame h haccepts hparity hlen ts
    simp only [linItem, hsum, Bool.false_eq_true, if_false, Nat.add_zero, Nat.zero_add] at hplaced
    exact ⟨u, hdoes, hplaced⟩
  · obtain ⟨u, hdoes, hplaced, hproto⟩ := doesSome_linFrame h haccepts hparity hlen ts
    simp only [linItem, hsum, if_true] at hplaced
    exact ⟨u, hdoes, hplaced, hproto hsum⟩

end Sys2Proof.Machine
end

section
/-!
PROOF. Orders that complete in the step that runs them: what they leave of the bus engine (R93, R101, R190, R191).
-/
namespace Sys2Proof.Machine

/-! ### The bus engine's registers under the end of an order -/

section
variable {s u : State} {c : Fin 56}

theorem KeepsEngine.refl (s : State) (c : Nat) : KeepsEngine s s c := fun _ _ => rfl

theorem KeepsEngine.trans {t : State} (h : KeepsEngine s u c) (k : KeepsEngine u t c) : KeepsEngine s t c :=
  fun g hg => (k g hg).trans (h g hg)

/-- Registers of the route stand on its page. -/
theorem KeepsEngine.put {off lo w rst : Nat} (h : KeepsEngine s u c) (hoff : off < 0x1000) (hlo : lo < 64) (v : Nat) :
    KeepsEngine s (u.put ⟨chPage c 1 + off, lo, w, rst⟩ v) c :=
  fun g hg => (State.get_put_ne u v ((key_lt_page (by decide) hoff hlo).trans_le hg).ne').trans (h g hg)

theorem KeepsEngine.modSq (h : KeepsEngine s u c) (f : Seq → Seq) : KeepsEngine s (u.modSq c f) c := h

theorem KeepsEngine.engineOf (h : KeepsEngine s u c) : engineOf u c = engineOf s c := h.get ..

theorem keepsEngine_orderClosed (s : State) (c : Fin 56) {e : ExecOrder} (hps : e.order.ps = false) (post st res : Nat) :
    KeepsEngine s (orderClosed s c e post st res) c := by
  unfold orderClosed
  rw [hps, if_neg Bool.false_ne_true]
  extract_lets posted notified
  have hnotified : KeepsEngine s notified c := by
    unfold notified
    split
    · exact (KeepsEngine.refl s c).put (off := 0x120) (by decide) (by decide) _
    · exact .refl s c
  have hcounted : KeepsEngine s (notified.bumpWrap (Fld.SEQ_STATS_ORDERS_DONE c) 1) c :=
    hnotified.put (off := 0x140) (by decide) (by decide) _
  exact (hcounted.modSq _).modSq _

theorem keepsEngine_routeEnd (s : State) (c : Fin 56) (st idx res : Nat) : KeepsEngine s (routeEnd s c st idx res) c := by
  have hends : KeepsEngine s (routeEnds s c st idx res) c :=
    ((((((((KeepsEngine.refl s c).put (off := 0x108) (by decide) (by decide) _).put (off := 0x108) (by decide) (by decide) _).put (off := 0x108)
      (by decide) (by decide) _).put (off := 0x108) (by decide) (by decide) _).put (off := 0x108) (by decide) (by decide) _).put (off := 0x120)
      (by decide) (by decide) _).modSq _)
  exact hends.trans fun g hg => (keepsRoute_routeWaiters _ c).get g ((window_le_page (c := c) 2).trans hg)

section
variable {e : ExecOrder} {st res : Nat} (hps : e.order.ps = false)
include hps

/-- An order that ends its route leaves the engine as it is. -/
theorem keepsEngine_orderFinish_of_ends (hafter : afterOrder (s.sq c) e st = .ends) :
    KeepsEngine s (orderFinish (orderKnown s c e st res) c false) c := by
  have hq := orderKnown_sq s c e st res
  rw [orderFinish_of_ends (e := { e with result := some (st, min 0xFFFF res) }) (by rw [hq]) rfl
    (fun h => absurd (hps.symm.trans h) (by decide)) (by rw [hq]; exact hafter)]
  exact (keepsEngine_orderClosed (orderKnown s c e st res) c (e := { e with result := some (st, min 0xFFFF res) }) hps 3 st _).trans
    (keepsEngine_routeEnd _ c st _ _)

/-- So does one after which the route goes on. -/
theorem RunsOn.keepsEngine (h : RunsOn s c e) (hsu : e.order.su = false) (hst : st ≤ 1) :
    KeepsEngine s (orderFinish (orderKnown s c e st res) c false) c := by
  cases hnext : e.next with
  | none => exact keepsEngine_orderFinish_of_ends hps (afterOrder_of_last hnext)
  | some n =>
    have hq := orderKnown_sq s c e st res
    have hclosed := keepsEngine_orderClosed (orderKnown s c e st res) c (e := { e with result := some (st, min 0xFFFF res) }) hps 1 st
      (min 0xFFFF res)
    rw [orderFinish_of_next (e := { e with result := some (st, min 0xFFFF res) }) (by rw [hq]) rfl
      (fun hp => absurd (hps.symm.trans hp) (by decide)) (by rw [hq]; exact h.stop) (by rw [hq]; exact h.suspend) hsu hnext hst,
      becomeDue_of_wait (n := n) (by rw [orderClosed_sq, hq]; exact h.fetch n hnext)]
    exact (KeepsEngine.put hclosed (off := 0x108) (by decide) (by decide) _).modSq _

end

end

/-! ### What the body of an order keeps of its route -/

/-- The sequencer of a channel, but for the cycles it has used, and the state of its route are in `u` as in `s`. -/
structure KeepsRun (s u : State) (c : Fin 56) : Prop where
  sq : ∃ k, u.sq c = { s.sq c with used := k }
  state : rtState u c = rtState s c

theorem KeepsRun.refl (s : State) (c : Fin 56) : KeepsRun s s c := ⟨⟨_, rfl⟩, rfl⟩

theorem KeepsRun.trans {s t u : State} {c : Fin 56} (h : KeepsRun s t c) (k : KeepsRun t u c) : KeepsRun s u c := by
  obtain ⟨⟨m, hm⟩, hstate⟩ := h
  obtain ⟨⟨n, hn⟩, hstate'⟩ := k
  exact ⟨⟨n, by rw [hn, hm]⟩, hstate'.trans hstate⟩

theorem keepsRun_of_sq {s u : State} {c : Fin 56} (hsq : u.sq c = s.sq c) (hstate : rtState u c = rtState s c) : KeepsRun s u c :=
  ⟨⟨_, hsq⟩, hstate⟩

section
variable {s t : State} {c : Fin 56} {i : Nat} {o : Order} (h : DueAt s c i o) (hplain : Plain o)
  (hop : o.op ≠ oWait) (hrun : KeepsRun (startOrder s c i o) t c)
include h hplain hop hrun

omit h hplain in
theorem KeepsRun.exec : (t.sq c).exec = some (Started s c i o) := by
  obtain ⟨⟨k, hk⟩, -⟩ := hrun
  rw [hk]
  exact startOrder_exec s c i hop

/-- The order passes with OK or OK_RESIDUAL. -/
theorem KeepsRun.passes (hchain : (s.sq c).chainBuf = []) {st : Nat} (hst : st ≤ 1) {res : Nat} (hres : res < 65536) :
    Passes (orderNow t c st res) c i (nextStatic i 0 o) st res ∧ KeepsEngine t (orderNow t c st res) c ∧
      (orderNow t c st res).dram = t.dram := by
  obtain ⟨hsu, hps⟩ := hplain
  obtain ⟨hstop, hsuspend, hfetch, hstate⟩ := runsOn_startOrder h hop hsu
  have hexec := hrun.exec hop
  obtain ⟨⟨k, hk⟩, hkept⟩ := hrun
  have hon : RunsOn t c { Started s c i o with loaded := true } :=
    ⟨by rw [hk]; exact hstop, by rw [hk]; exact hsuspend, fun n hn => by rw [hk]; exact hfetch n hn, hkept.trans hstate⟩
  have hnext : (Started s c i o).next = nextStatic i 0 o := by simp [Started, hchain]
  have hpasses := hon.passes (st := st) hps hsu hst (idx_lt_of_dueAt h) res
  rw [Nat.min_eq_right (by omega)] at hpasses
  rw [orderNow_of_exec hexec rfl, ← hnext]
  refine ⟨hpasses, hon.keepsEngine hps hsu hst, ?_⟩
  exact (orderFinish_buffers (e := { Started s c i o with loaded := true, result := some (st, min 0xFFFF res) })
    (by rw [orderKnown_sq]) rfl hps).2

/-- The order ends its route. -/
theorem KeepsRun.ends {st : Nat} (hst : st < 256) (hafter : ∀ q, afterOrder q (Started s c i o) st = .ends) {res : Nat} (hres : res < 65536) :
    Ended (orderNow t c st res) c st i res ∧ KeepsEngine t (orderNow t c st res) c := by
  obtain ⟨-, hps⟩ := hplain
  have hexec := hrun.exec hop
  have hended := ended_orderNow (res := res) hexec rfl hps (hafter _) hst (idx_lt_of_dueAt h)
  rw [Nat.min_eq_right (by omega)] at hended
  refine ⟨hended, ?_⟩
  rw [orderNow_of_exec hexec rfl]
  exact keepsEngine_orderFinish_of_ends (e := { Started s c i o with loaded := true }) hps (hafter _)

end

/-! ### CONTROL (R190) -/

section
variable {s t : State} {c : Fin 56} {i : Nat} {o : Order} (h : DueAt s c i o) (hplain : Plain o)
  (hop : o.op = oControl) {sel : Nat → Bool} (hsel : sel (bf o.param 0 16) = true) {f : State → Nat → Nat × State} {st : Nat}
  (hf : f (startOrder s c i o) o.word2 = (st, t)) (hrun : KeepsRun (startOrder s c i o) t c)
include h hplain hop hsel hf hrun

theorem passes_ordControl (hchain : (s.sq c).chainBuf = []) (hst : st = St.ok) :
    Passes (ordControl s c sel f) c i (nextStatic i 0 o) St.ok 0 ∧ KeepsEngine t (ordControl s c sel f) c := by
  have hwait : o.op ≠ oWait := by rw [hop]; decide
  have hstarted : f (startOrder s c i o) (Started s c i o).order.word2 = (st, t) := hf
  have heq : ordControl s c sel f = orderNow t c St.ok 0 := by
    rw [ordControl, orderRun_of_dueAt s c i hwait h (by rw [hop, hsel]; rfl), hstarted, hst]
  rw [heq]
  obtain ⟨hpasses, hkeeps, -⟩ := hrun.passes h hplain hwait hchain (st := St.ok) (by decide) (res := 0) (by decide)
  exact ⟨hpasses, hkeeps⟩

theorem ended_ordControl (hst : st = St.rejectedState) :
    Ended (ordControl s c sel f) c St.rejectedState i 0 ∧ KeepsEngine t (ordControl s c sel f) c := by
  have hwait : o.op ≠ oWait := by rw [hop]; decide
  have hstarted : f (startOrder s c i o) (Started s c i o).order.word2 = (st, t) := hf
  have heq : ordControl s c sel f = orderNow t c St.rejectedState 0 := by
    rw [ordControl, orderRun_of_dueAt s c i hwait h (by rw [hop, hsel]; rfl), hstarted, hst]
  rw [heq]
  exact hrun.ends h hplain hwait (by decide) (fun _ => afterOrder_of_rejectedState) (by decide)

end

end Sys2Proof.Machine
end

section
/-!
PROOF. The engine's operations under CONTROL: what they keep of the route and give the engine (R176, R190).
-/
namespace Sys2Proof.Machine

/-! ### The route kept -/

section
variable {s u : State} {c : Fin 56} (h : KeepsRun s u c)
include h

theorem KeepsRun.put {f : Fld} (hf : fldKey f ≠ fldKey (Fld.ROUTE_STATE_STATE c)) (v : Nat) : KeepsRun s (u.put f v) c :=
  ⟨h.sq, (State.get_put_ne u v hf.symm).trans h.state⟩

/-- Registers of the engine's page and of those above are not the route's. -/
theorem KeepsRun.putEngine {f : Fld} (hf : chPage c 2 * 64 ≤ fldKey f) (v : Nat) : KeepsRun s (u.put f v) c :=
  h.put ((key_lt_page (by decide) (by decide) (by decide)).trans_le hf).ne' v

theorem KeepsRun.statAdd (i n : Nat) : KeepsRun s (statAdd u c i n) c := h.putEngine (page_le_entry (by decide)) _

theorem KeepsRun.modBus (f : Bus → Bus) : KeepsRun s (u.modBus c f) c := by
  obtain ⟨⟨k, hk⟩, hstate⟩ := h
  exact ⟨⟨k, by rw [State.modBus_sq, hk]⟩, hstate⟩

theorem KeepsRun.sends {t : State} {sent : List OutEvent} (k : Sends u t sent) : KeepsRun s t c := by
  obtain ⟨⟨n, hn⟩, hstate⟩ := h
  exact ⟨⟨n, by rw [k.sq, hn]⟩, (k.get _).trans hstate⟩

theorem KeepsRun.ite {t : State} (b : Prop) [Decidable b] (k : KeepsRun s t c) : KeepsRun s (if b then u else t) c := by
  split
  · exact h
  · exact k

end

theorem sends_driveLender (s : State) (c : Fin 56) : ∃ sent, Sends s (driveLender s c) sent := by
  unfold driveLender
  split
  · exact sends_drivePins s _
  · exact ⟨_, .refl s⟩

theorem sends_safePins (s : State) (c : Fin 56) : ∃ sent, Sends s (driveLender (drivePins s c) c) sent := by
  obtain ⟨pins, hpins⟩ := sends_drivePins s c
  obtain ⟨sent, hsent⟩ := sends_driveLender (drivePins s c) c
  exact ⟨_, hpins.trans hsent⟩

/-! ### The engine on and off (R190) -/

/-- The state of an engine that turns ON, to listen or not. -/
def engineOn (s : State) (c : Nat) (listen : Bool) : Nat :=
  if listen && (modeOf s c == modeCan || modeOf s c == modeLin) then engListen
  else if modeOf s c == modeCan && s.isSet (Fld.CAN_CFG_LISTEN c) then engListen
  else if modeOf s c == modeLin && s.get (Fld.LIN_CFG_ROLE c) == 0 then engListen
  else engOn

section
variable (s : State) (c : Fin 56)

theorem engineOf_put {e : Nat} (h : e < 8) : engineOf (s.put (Fld.BE_STATUS_ENGINE c) e) c = e := State.get_put_of_lt s h

theorem busTurnOn_spec (listen : Bool) : KeepsRun s (busTurnOn s c listen) c ∧ engineOf (busTurnOn s c listen) c = engineOn s c listen := by
  unfold busTurnOn
  extract_lets m e on counted started
  have hstatus {lo w rst : Nat} : chPage c 2 * 64 ≤ fldKey ⟨Reg.BE_STATUS c, lo, w, rst⟩ := page_le_key (off := 0x180) le_rfl
  have hon : KeepsRun s on c := (KeepsRun.refl s c).putEngine hstatus _
  have hcounted : KeepsRun s counted c := (((hon.putEngine hstatus _).putEngine hstatus _).putEngine hstatus _).ite _ hon
  have hlt : e < 2 ^ 3 := by
    unfold e
    split_ifs <;> decide
  have hengine : engineOf counted c = e := by
    have hset : engineOf on c = e := State.get_put_of_lt s hlt
    unfold counted
    split
    · have htec : fldKey (Fld.BE_STATUS_ENGINE c) ≠ fldKey (Fld.BE_STATUS_TEC c) := key_ne_of_lo (by decide)
      have hrec : fldKey (Fld.BE_STATUS_ENGINE c) ≠ fldKey (Fld.BE_STATUS_REC c) := key_ne_of_lo (by decide)
      have hfcs : fldKey (Fld.BE_STATUS_ENGINE c) ≠ fldKey (Fld.BE_STATUS_FCS c) := key_ne_of_lo (by decide)
      rw [engineOf, State.get_put_ne _ _ hfcs, State.get_put_ne _ _ hrec, State.get_put_ne _ _ htec]
      exact hset
    · exact hset
  obtain ⟨sent, hsent⟩ := sends_drivePins started c
  exact ⟨(hcounted.modBus _).sends hsent, (hsent.get _).trans hengine⟩

theorem busTurnOff_spec : KeepsRun s (busTurnOff s c) c ∧ engineOf (busTurnOff s c) c = engOff := by
  unfold busTurnOff
  extract_lets b lost counted off stopped
  have hcounted : KeepsRun s counted c := (KeepsRun.refl s c).statAdd _ _
  have hstopped : KeepsRun s stopped c := hcounted.putEngine (page_le_key (off := 0x180) le_rfl) _
  obtain ⟨sent, hsent⟩ := sends_safePins (stopped.modBus c (fun b =>
    { b with uart := none, linHdr := none, linSend := false, psiSync := false, offNs := off })) c
  refine ⟨(hstopped.modBus _).sends hsent, ?_⟩
  rw [engineOf, hsent.get, State.modBus_get]
  exact engineOf_put counted c (by decide)

end

end Sys2Proof.Machine
end

section
/-!
PROOF. CONTROL on stream channels, SET_MODE, the partner table and the counters (R190, R226).
-/
namespace Sys2Proof.Machine

/-! ### Records that waited for a frame (R223, R226) -/

/-- The route of a channel and the registers of its engine are in `u` as in `s`. -/
structure KeepsControl (s u : State) (c : Fin 56) : Prop where
  run : KeepsRun s u c
  engine : KeepsEngine s u c

theorem KeepsControl.refl (s : State) (c : Fin 56) : KeepsControl s s c := ⟨.refl s c, .refl s c⟩

section
variable {s u : State} {c : Fin 56} (h : KeepsControl s u c)
include h

theorem KeepsControl.trans {t : State} (k : KeepsControl u t c) : KeepsControl s t c := ⟨h.run.trans k.run, h.engine.trans k.engine⟩

/-- Registers of the chamber stand on the first page. -/
theorem KeepsControl.put {off lo w rst : Nat} (hoff : off < 0x1000) (hlo : lo < 64) (v : Nat) :
    KeepsControl s (u.put ⟨chPage c 0 + off, lo, w, rst⟩ v) c := by
  refine ⟨h.run.put ?_ v, fun g hg => (State.get_put_ne u v ?_).trans (h.engine g hg)⟩
  · exact ((key_lt_page (by decide) hoff hlo).trans_le (page_le_key (p := 1) (off := 0x108) le_rfl)).ne
  · exact ((key_lt_page (by decide) hoff hlo).trans_le hg).ne'

theorem KeepsControl.modCh {f : Chan → Chan} (hf : (f (u.ch c)).sq = (u.ch c).sq) : KeepsControl s (u.modCh c f) c := by
  obtain ⟨⟨k, hk⟩, hstate⟩ := h.run
  refine ⟨⟨⟨k, ?_⟩, hstate⟩, h.engine⟩
  rw [← hk, State.sq, State.modCh_ch_same, hf]
  rfl

theorem KeepsControl.ite {t : State} (b : Prop) [Decidable b] (k : KeepsControl s t c) : KeepsControl s (if b then u else t) c := by
  split
  · exact h
  · exact k

end

theorem keepsControl_chCommitNow (s : State) (c : Fin 56) (r : Rec) : KeepsControl s (chCommitNow s c r).2 c := by
  unfold chCommitNow
  split
  case h_1 o ch _ =>
  have hcommit : KeepsControl s (s.modCh c (fun x => { x with chamber := ch })) c := (KeepsControl.refl s c).modCh rfl
  have hspill {t : State} (ht : KeepsControl s t c) : KeepsControl s ((t.bumpSat (Fld.CH_STATS1_DROPPED c) 1).raise (Fld.CH_EVT_SPILL c)) c :=
    KeepsControl.put (KeepsControl.put ht (off := 0x128) (by decide) (by decide) _) (off := 0x130) (by decide) (by decide) _
  split
  · exact hcommit
  · exact (KeepsControl.put (hspill hcommit) (off := 0x128) (by decide) (by decide) _).ite _ (hspill hcommit)
  · exact hspill hcommit
  · exact hcommit

theorem keepsControl_chResult (s : State) (c : Fin 56) (t : Fin 8) (r : Nat) : KeepsControl s (chResult s c t r) c := by
  unfold chResult State.modKp
  exact (KeepsControl.refl s c).modCh rfl

theorem keepsControl_chStored (x : Stored × State) (c : Fin 56) (t : Fin 8) (r : Rec) (off size : Nat) (stamp : Bool) :
    KeepsControl x.2 (chStored x c t r off size stamp) c := by
  unfold chStored
  split
  · exact KeepsControl.trans ((KeepsControl.refl _ c).modCh rfl) (keepsControl_chResult _ c t 1)
  · exact KeepsControl.trans ((KeepsControl.refl _ c).modCh rfl) (keepsControl_chResult _ c t 1)
  · exact keepsControl_chResult _ c t 2

theorem keepsControl_heldFlushCommits (s : State) (c : Fin 56) : KeepsControl s (heldFlushCommits s c) c := by
  unfold heldFlushCommits
  extract_lets l
  have hstart : KeepsControl s (s.modEth c (fun e => { e with held := [] })) c := (KeepsControl.refl s c).modCh rfl
  generalize s.modEth c (fun e => { e with held := [] }) = u at hstart ⊢
  clear_value l
  induction l generalizing u with
  | nil => exact hstart
  | cons x l ih =>
    refine ih _ (hstart.trans ?_)
    beta_reduce
    split
    · split
      · exact (keepsControl_chCommitNow u c x.r).trans (keepsControl_chStored ..)
      · exact .refl u c
    · exact keepsControl_chCommitNow u c x.r

/-- The engine of a stream channel turns OFF. -/
theorem ethTurnOff_spec (s : State) (c : Fin 56) : KeepsRun s (ethTurnOff s c) c ∧ engineOf (ethTurnOff s c) c = engOff := by
  unfold ethTurnOff
  extract_lets counted
  have hcounted : KeepsRun s counted c := ((KeepsRun.refl s c).statAdd _ _).ite _ (.refl s c)
  have hoff : KeepsRun s (counted.put (Fld.BE_STATUS_ENGINE c) engOff) c := hcounted.putEngine (page_le_key (off := 0x180) le_rfl) _
  have hdrop : KeepsControl (counted.put (Fld.BE_STATUS_ENGINE c) engOff)
      ((counted.put (Fld.BE_STATUS_ENGINE c) engOff).modEth c (fun e => { e with rx := none })) c := (KeepsControl.refl _ c).modCh rfl
  have hflush := hdrop.trans (keepsControl_heldFlushCommits _ c)
  exact ⟨hoff.trans hflush.run, hflush.engine.engineOf.trans (engineOf_put counted c (by decide))⟩

/-! ### SET_MODE -/

/-- A field channel whose engine is OFF takes another mode, here LIN without SEQ_PATH. -/
theorem fieldSetMode_of_lin {s : State} {c : Fin 56} (hengine : engineOf s c = engOff) (hselect : s.isSet (Fld.BE_MODE_SPI_CS c) = false) :
    ∃ t, fieldSetMode s c modeLin = (St.ok, t) ∧ KeepsRun s t c ∧ modeOf t c = modeLin ∧ seqPath t c = false := by
  have hchecks : modeChecks s c modeLin = true := by simp [modeChecks, hselect, modeLin, modeLend]
  set u := ((s.put (Fld.BE_MODE_MODE c) modeLin).put (Fld.BE_MODE_RXPATH c) 0).put (Fld.BE_STATUS_ENGINE c) engOff with hu
  obtain ⟨sent, hsent⟩ := sends_drivePins u c
  have hmodeKey : fldKey (Fld.BE_MODE_MODE c) < fldKey (Fld.BE_STATUS_ENGINE c) := by
    simp only [fldKey, Fld.BE_MODE_MODE, Fld.BE_STATUS_ENGINE, Reg.BE_MODE, Reg.BE_STATUS]
    omega
  have hpathKey : fldKey (Fld.BE_MODE_RXPATH c) < fldKey (Fld.BE_STATUS_ENGINE c) := by
    simp only [fldKey, Fld.BE_MODE_RXPATH, Fld.BE_STATUS_ENGINE, Reg.BE_MODE, Reg.BE_STATUS]
    omega
  have hplace : fldKey (Fld.BE_MODE_MODE c) ≠ fldKey (Fld.BE_MODE_RXPATH c) := key_ne_of_lo (by decide)
  refine ⟨drivePins u c, ?_, KeepsRun.sends ?_ hsent, ?_, ?_⟩
  · have hmode : bf modeLin 0 4 = modeLin := by decide
    have hlow : ¬ (2 ^ 5 ≤ modeLin ∨ (!modeOk modeLin) = true) := by decide
    simp only [fieldSetMode, hmode, hlow, hengine, hchecks, ne_eq, not_true_eq_false, if_false, Bool.not_true, Bool.false_eq_true]
    rfl
  · exact ((((KeepsRun.refl s c).putEngine (page_le_key (off := 0x100) le_rfl) _).putEngine (page_le_key (off := 0x100) le_rfl) _).putEngine
      (page_le_key (off := 0x180) le_rfl) _)
  · rw [modeOf, hsent.get, hu, State.get_put_ne _ _ hmodeKey.ne, State.get_put_ne _ _ hplace]
    exact State.get_put_of_lt s (show modeLin < 2 ^ 4 by decide)
  · rw [seqPath, State.isSet_eq, hsent.get, hu, State.get_put_ne _ _ hpathKey.ne, State.get_put_same]
    rfl

/-! ### Tables cleared -/

section
variable {f : Nat → Fld} (hf : ∀ i j, i ≠ j → fldKey (f i) ≠ fldKey (f j)) {v k : Nat}
include hf

theorem foldl_put_kept (l : List Nat) (s : State) (h : s.get (f k) = v % 2 ^ (f k).w) :
    (l.foldl (fun s i => s.put (f i) v) s).get (f k) = v % 2 ^ (f k).w := by
  induction l generalizing s with
  | nil => exact h
  | cons i l ih =>
    refine ih _ ?_
    by_cases hi : k = i
    · rw [hi, State.get_put_same]
    · rw [State.get_put_ne _ _ (hf k i hi), h]

/-- A value put in every field of a list. -/
theorem foldl_put_mem {l : List Nat} (hk : k ∈ l) (s : State) : (l.foldl (fun s i => s.put (f i) v) s).get (f k) = v % 2 ^ (f k).w := by
  induction l generalizing s with
  | nil => cases hk
  | cons i l ih =>
    obtain rfl | hl := List.mem_cons.mp hk
    · exact foldl_put_kept hf l _ (State.get_put_same ..)
    · exact ih hl _

end

theorem keepsRun_foldl_put {s : State} {c : Fin 56} {f : Nat → Fld} (hf : ∀ i, chPage c 2 * 64 ≤ fldKey (f i)) (v : Nat) (l : List Nat) :
    KeepsRun s (l.foldl (fun s i => s.put (f i) v) s) c := by
  suffices h : ∀ u, KeepsRun s u c → KeepsRun s (l.foldl (fun s i => s.put (f i) v) u) c from h s (.refl s c)
  induction l with
  | nil => exact fun _ hu => hu
  | cons i l ih => exact fun u hu => ih _ (hu.putEngine (hf i) v)

/-- CLEAR_PARTNERS frees every entry. -/
theorem partnersClear_spec (s : State) (c : Fin 56) :
    KeepsRun s (partnersClear s c) c ∧ ∀ k, k < 64 → (partnersClear s c).get (Fld.PT_ENTRY_STATE c k) = partnerFree := by
  refine ⟨keepsRun_foldl_put (fun i => ?_) _ _, fun k hk => foldl_put_mem (f := fun k => Fld.PT_ENTRY_STATE c k) ?_ (List.mem_range.mpr hk) s⟩
  · exact page_le_entry (by decide)
  · intro i j hij
    simp only [fldKey, Fld.PT_ENTRY_STATE, Reg.PT_ENTRY]
    omega

/-- CLEAR_COUNTERS clears every counter of R192. -/
theorem statClear_spec (s : State) (c : Fin 56) :
    KeepsRun s (statClear s c) c ∧ ∀ k, k < 8 → (statClear s c).get (Fld.STATS_CNT_COUNT c k) = 0 := by
  refine ⟨keepsRun_foldl_put (fun i => ?_) _ _, fun k hk => foldl_put_mem (f := fun k => Fld.STATS_CNT_COUNT c k) ?_ (List.mem_range.mpr hk) s⟩
  · exact page_le_entry (by decide)
  · intro i j hij
    simp only [fldKey, Fld.STATS_CNT_COUNT, Reg.STATS_CNT]
    omega

/-- A scan that nothing acknowledges changes no table without a PRESENT partner. -/
theorem scan_of_none {s : State} {c : Fin 56} (h : ∀ k, k < 64 → s.get (Fld.PT_ENTRY_STATE c k) ≠ partnerPresent) :
    (List.range 112).foldl (fun s i =>
      if bit 0 (i + 8) then partnerSeen s c 0x07 (i + 8) s.now else partnerNack s c (i + 8)) s = s := by
  have hnack (key : Nat) : partnerNack s c key = s := by
    have hfind : (List.range 64).find? (fun i => s.get (Fld.PT_ENTRY_STATE c i) == partnerPresent
        && s.get (Fld.PT_ENTRY_KIND c i) == 0x07 && s.get (Fld.PT_ENTRY_KEY c i) == key) = none := by
      refine List.find?_eq_none.mpr fun k hk => ?_
      simp [h k (List.mem_range.mp hk)]
    simp only [partnerNack, hfind]
  have hbit (n : Nat) : bit 0 n = false := by simp [bit]
  induction List.range 112 with
  | nil => rfl
  | cons i l ih =>
    rw [List.foldl_cons, hbit, if_neg Bool.false_ne_true, hnack, ih]

end Sys2Proof.Machine
end

section
/-!
PROOF. CONTROL by code (R176, R190, R226).
-/
namespace Sys2Proof.Machine

/-! ### The engine's codes (R190) -/

/-- In a mode with an engine that turns on and off, its codes act. -/
theorem engineCode_of_engine {s : State} {c : Fin 56} {f : State → State} (hmode : modeOf s c = modeCan ∨ modeOf s c = modeLin ∨ modeOf s c = modeUart) :
    engineCode s c f = (St.ok, f s) := by
  rcases hmode with h | h | h <;> simp [engineCode, h, ctrlMode, modeCan, modeLin, modeUart, modeNone, modeLend, modeSpi, modeI2c]

theorem streamEngine_of_engine {s : State} {c : Fin 56} {f : State → State} (hmode : modeOf s c ≠ modeNone) : streamEngine s c f = (St.ok, f s) :=
  if_neg hmode

theorem putEngine_spec (s : State) (c : Fin 56) {e : Nat} (he : e < 8) :
    KeepsRun s (s.put (Fld.BE_STATUS_ENGINE c) e) c ∧ engineOf (s.put (Fld.BE_STATUS_ENGINE c) e) c = e :=
  ⟨(KeepsRun.refl s c).putEngine (page_le_key (off := 0x180) le_rfl) _, engineOf_put s c he⟩

section
variable {s : State} {c : Fin 56} {i code : Nat} {o : Order} (h : DueAt s c i o) (hplain : Plain o) (hchain : (s.sq c).chainBuf = [])
  (hop : o.op = oControl) (hcode : code = bf o.param 0 16)
include h hplain hchain hop hcode

/-- A code that gives the engine a state passes with it. -/
theorem passes_engine {sel : Nat → Bool} (hsel : sel code = true) {f : State → Nat → Nat × State} {t : State} {e : Nat}
    (hf : f (startOrder s c i o) o.word2 = (St.ok, t)) (ht : KeepsRun (startOrder s c i o) t c ∧ engineOf t c = e) :
    Passes (ordControl s c sel f) c i (nextStatic i 0 o) St.ok 0 ∧ engineOf (ordControl s c sel f) c = e := by
  obtain ⟨hrun, hengine⟩ := ht
  obtain ⟨hpasses, hkeeps⟩ := passes_ordControl (sel := sel) h hplain hop (by rwa [← hcode]) hf hrun hchain rfl
  exact ⟨hpasses, hkeeps.engineOf.trans hengine⟩

/-- BUS_ON_LISTEN on a field channel. -/
theorem control_busOnListen (hk : code = 1) (hc : c.val < 48) (hmode : modeOf s c = modeCan) (hengine : engineOf s c = engOff) :
    DoesSome (.busOnListen c) s (fun u => Passes u c i (nextStatic i 0 o) St.ok 0 ∧ engineOf u c = engListen) := by
  have hkeeps := keepsEngine_startOrder s c i o
  have hmode' := hkeeps.modeOf.trans hmode
  have hengine' := hkeeps.engineOf.trans hengine
  have hon := busTurnOn_spec (startOrder s c i o) c true
  rw [engineOn, hmode', if_pos (by rfl)] at hon
  refine ⟨_, rfl, passes_engine h hplain hchain hop hcode (by rw [hk]; rfl) ?_ hon⟩
  rw [if_pos hc, fieldOnListen, engineCode_of_engine (.inl hmode'), if_neg (by rw [hengine']; decide)]

/-- BUS_ON on a field channel turns the engine ON. -/
theorem control_busOn (hk : code = 2) (hc : c.val < 48) (hmode : modeOf s c = modeUart) (hengine : engineOf s c = engOff) :
    DoesSome (.busOn c) s (fun u => Passes u c i (nextStatic i 0 o) St.ok 0 ∧ engineOf u c = engOn) := by
  have hkeeps := keepsEngine_startOrder s c i o
  have hmode' := hkeeps.modeOf.trans hmode
  have hengine' := hkeeps.engineOf.trans hengine
  have hon := busTurnOn_spec (startOrder s c i o) c false
  rw [engineOn, hmode', if_neg (by decide), if_neg (by simp [modeUart, modeCan]), if_neg (by simp [modeUart, modeLin])] at hon
  refine ⟨_, rfl, passes_engine h hplain hchain hop hcode (by rw [hk]; rfl) ?_ hon⟩
  rw [if_pos hc, fieldOn, engineCode_of_engine (.inr (.inr hmode')), if_neg (by rw [hengine']; decide), if_neg (by rw [hengine']; decide)]

/-- BUS_ON in BUS_OFF state starts the recovery. -/
theorem control_busOn_of_busOff (hk : code = 2) (hc : c.val < 48) (hmode : modeOf s c = modeCan) (hengine : engineOf s c = engBusOff) :
    DoesSome (.busOn c) s (fun u => Passes u c i (nextStatic i 0 o) St.ok 0 ∧ engineOf u c = engRecovering) := by
  have hkeeps := keepsEngine_startOrder s c i o
  have hmode' := hkeeps.modeOf.trans hmode
  have hengine' := hkeeps.engineOf.trans hengine
  refine ⟨_, rfl, passes_engine h hplain hchain hop hcode (by rw [hk]; rfl) ?_ (putEngine_spec _ c (show engRecovering < 8 by decide))⟩
  rw [if_pos hc, fieldOn, engineCode_of_engine (.inl hmode'), if_pos hengine']

omit hchain in
/-- In mode NONE there is no engine to turn ON. -/
theorem control_busOn_of_none (hk : code = 2) (hc : c.val < 48) (hmode : modeOf s c = modeNone) :
    DoesSome (.busOn c) s (fun u => Ended u c St.rejectedState i 0) := by
  have hmode' := (keepsEngine_startOrder s c i o).modeOf.trans hmode
  refine ⟨_, rfl, (ended_ordControl h hplain hop (st := St.rejectedState) (by rw [← hcode, hk]; rfl) ?_ (.refl _ c) rfl).1⟩
  rw [if_pos hc, fieldOn, engineCode, if_pos (.inl hmode')]

/-- BUS_OFF on a field channel. -/
theorem control_busOff (hk : code = 3) (hc : c.val < 48) (hmode : modeOf s c = modeCan ∨ modeOf s c = modeLin ∨ modeOf s c = modeUart) :
    DoesSome (.busOff c) s (fun u => Passes u c i (nextStatic i 0 o) St.ok 0 ∧ engineOf u c = engOff) := by
  rw [← (keepsEngine_startOrder s c i o).modeOf] at hmode
  refine ⟨_, rfl, passes_engine h hplain hchain hop hcode (by rw [hk]; rfl) ?_ (busTurnOff_spec _ c)⟩
  rw [if_pos hc, fieldOff, engineCode_of_engine hmode]

/-- The engine's codes on a stream channel. -/
theorem control_engine_stream (hc : 48 ≤ c.val) (hmode : modeOf s c ≠ modeNone) :
    (code = 1 → DoesSome (.busOnListen c) s (fun u => Passes u c i (nextStatic i 0 o) St.ok 0 ∧ engineOf u c = engListen)) ∧
    (code = 2 → DoesSome (.busOn c) s (fun u => Passes u c i (nextStatic i 0 o) St.ok 0 ∧ engineOf u c = engOn)) ∧
    (code = 3 → DoesSome (.busOff c) s (fun u => Passes u c i (nextStatic i 0 o) St.ok 0 ∧ engineOf u c = engOff)) := by
  have hmode' : modeOf (startOrder s c i o) c ≠ modeNone := by rwa [(keepsEngine_startOrder s c i o).modeOf]
  have hstream : ¬ c.val < 48 := by omega
  refine ⟨fun hk => ?_, fun hk => ?_, fun hk => ?_⟩
  · refine ⟨_, rfl, passes_engine h hplain hchain hop hcode (by rw [hk]; rfl) ?_ (putEngine_spec _ c (show engListen < 8 by decide))⟩
    rw [if_neg hstream, streamEngine_of_engine hmode']
  · refine ⟨_, rfl, passes_engine h hplain hchain hop hcode (by rw [hk]; rfl) ?_ (putEngine_spec _ c (show engOn < 8 by decide))⟩
    rw [if_neg hstream, streamEngine_of_engine hmode']
  · refine ⟨_, rfl, passes_engine h hplain hchain hop hcode (by rw [hk]; rfl) ?_ (ethTurnOff_spec _ c)⟩
    rw [if_neg hstream, streamEngine_of_engine hmode']

/-- SET_MODE with the engine OFF. -/
theorem control_setMode (hk : code = 4) (hc : c.val < 48) (_ : modeOf s c = modeCan) (hengine : engineOf s c = engOff)
    (hselect : s.isSet (Fld.BE_MODE_SPI_CS c) = false) (hword : o.word2 = modeLin) : DoesSome (.setMode c) s (fun u =>
      Passes u c i (nextStatic i 0 o) St.ok 0 ∧ modeOf u c = modeLin ∧ seqPath u c = false) := by
  have hkeeps := keepsEngine_startOrder s c i o
  have hselect' : (startOrder s c i o).isSet (Fld.BE_MODE_SPI_CS c) = false := (congrArg (· != 0) (hkeeps.get ..)).trans hselect
  obtain ⟨t, hset, hrun, hlin, hpath⟩ := fieldSetMode_of_lin (hkeeps.engineOf.trans hengine) hselect'
  obtain ⟨hpasses, hleft⟩ := passes_ordControl (sel := fun k => k == 4 && decide (c.val < 48)) (f := fun s w => fieldSetMode s c w) h hplain hop
    (by rw [← hcode, hk, decide_eq_true hc]; rfl) (by rw [hword]; exact hset) hrun hchain rfl
  exact ⟨_, rfl, hpasses, hleft.modeOf.trans hlin, hleft.seqPath.trans hpath⟩

omit hchain in
/-- SET_MODE with the engine ON. -/
theorem control_setMode_of_on (hk : code = 4) (hc : c.val < 48) (hmode : modeOf s c = modeCan) (hengine : engineOf s c = engOn)
    (hword : o.word2 = modeLin) : DoesSome (.setMode c) s (fun u => Ended u c St.rejectedState i 0 ∧ modeOf u c = modeCan) := by
  have hkeeps := keepsEngine_startOrder s c i o
  have hbusy : engineOf (startOrder s c i o) c ≠ engOff := by rw [hkeeps.engineOf, hengine]; decide
  have hset : fieldSetMode (startOrder s c i o) c modeLin = (St.rejectedState, startOrder s c i o) := by
    rw [fieldSetMode, if_neg (by decide), if_pos hbusy]
  obtain ⟨hended, hleft⟩ := ended_ordControl (sel := fun k => k == 4 && decide (c.val < 48)) (f := fun s w => fieldSetMode s c w) h hplain hop
    (by rw [← hcode, hk, decide_eq_true hc]; rfl) (by rw [hword]; exact hset) (.refl _ c) rfl
  exact ⟨_, rfl, hended, hleft.modeOf.trans (hkeeps.modeOf.trans hmode)⟩

theorem control_clearPartners (hk : code = 6) : DoesSome (.clearPartners c) s (fun u => Passes u c i (nextStatic i 0 o) St.ok 0 ∧
    ∀ k, k < 64 → u.get (Fld.PT_ENTRY_STATE c k) = partnerFree) := by
  obtain ⟨hrun, hfree⟩ := partnersClear_spec (startOrder s c i o) c
  obtain ⟨hpasses, hleft⟩ := passes_ordControl (sel := (· == 6)) (f := fun s _ => (St.ok, partnersClear s c)) h hplain hop
    (by rw [← hcode, hk]; rfl) rfl hrun hchain rfl
  exact ⟨_, rfl, hpasses, fun k hlt => (hleft _ (page_le_entry (by decide))).trans (hfree k hlt)⟩

theorem control_clearCounters (hk : code = 8) : DoesSome (.clearCounters c) s (fun u => Passes u c i (nextStatic i 0 o) St.ok 0 ∧
    ∀ k, k < 8 → u.get (Fld.STATS_CNT_COUNT c k) = 0) := by
  obtain ⟨hrun, hzero⟩ := statClear_spec (startOrder s c i o) c
  obtain ⟨hpasses, hleft⟩ := passes_ordControl (sel := (· == 8)) (f := fun s _ => (St.ok, statClear s c)) h hplain hop
    (by rw [← hcode, hk]; rfl) rfl hrun hchain rfl
  exact ⟨_, rfl, hpasses, fun k hlt => (hleft _ (page_le_entry (by decide))).trans (hzero k hlt)⟩

/-- A PARTNER_SCAN that nothing acknowledges. -/
theorem control_scan {acks : BitVec 128} (hk : code = 7) (hc : c.val < 48) (hmode : modeOf s c = modeI2c) (hacks : acks = 0)
    (hnone : ∀ k, k < 64 → s.get (Fld.PT_ENTRY_STATE c k) ≠ partnerPresent) : DoesSome (.partnerScan c acks) s (fun u =>
      Passes u c i (nextStatic i 0 o) St.ok 0 ∧ ∀ k, k < 64 → u.get (Fld.PT_ENTRY_STATE c k) = s.get (Fld.PT_ENTRY_STATE c k)) := by
  have hkeeps := keepsEngine_startOrder s c i o
  have hentry (k : Nat) : (startOrder s c i o).get (Fld.PT_ENTRY_STATE c k) = s.get (Fld.PT_ENTRY_STATE c k) :=
    hkeeps _ (page_le_entry (by decide))
  have hscan := scan_of_none (s := startOrder s c i o) (c := c) fun k hlt => by rw [hentry]; exact hnone k hlt
  subst hacks
  have hends : Passes (ctlScan s c (0 : BitVec 128).toNat) c i (nextStatic i 0 o) St.ok 0 ∧
      KeepsEngine (startOrder s c i o) (ctlScan s c (0 : BitVec 128).toNat) c := by
    refine passes_ordControl h hplain hop (by rw [← hcode, hk, decide_eq_true hc]; rfl) ?_ (.refl _ c) hchain rfl
    rw [if_pos (hkeeps.modeOf.trans hmode)]
    exact congrArg (Prod.mk St.ok) hscan
  obtain ⟨hpasses, hleft⟩ := hends
  exact ⟨_, rfl, hpasses, fun k _ => (hleft _ (page_le_entry (by decide))).trans (hentry k)⟩

omit hchain in
/-- A PARTNER_SCAN in another mode than I2C. -/
theorem control_scan_of_other {acks : BitVec 128} (hk : code = 7) (hc : c.val < 48) (hmode : modeOf s c ≠ modeI2c) :
    DoesSome (.partnerScan c acks) s (fun u => Ended u c St.rejectedState i 0) := by
  refine ⟨_, rfl, (ended_ordControl h hplain hop (by rw [← hcode, hk, decide_eq_true hc]; rfl) ?_ (.refl _ c) rfl).1⟩
  rw [if_neg (by rwa [(keepsEngine_startOrder s c i o).modeOf])]

omit hchain in
/-- A code that the channel does not define. -/
theorem control_undefined (hundefined : controlDefined c code = false) :
    DoesSome (.controlCodeUndefined c) s (fun u => Ended u c St.rejectedState i 0) :=
  ⟨_, rfl, (ended_ordControl (sel := fun k => !controlDefined c k) (f := fun s _ => (St.rejectedState, s)) h hplain hop
    (by rw [← hcode, hundefined]; rfl) rfl (.refl _ c) rfl).1⟩

end

end Sys2Proof.Machine
end

section
/-!
PROOF. SET_CFG and SENSE by code (R190, R191, R226), and the statement on them.
-/
namespace Sys2Proof.Machine

/-! ### PIN_CFG3 (R186, R426) -/

/-- The row of the PIN_CFG registers in the table of their page. -/
def pinCfgRow : RegDef :=
  ⟨0x158, 4, 0x8, 1, [⟨0, 3, .rwnv, 0⟩, ⟨3, 1, .rwnv, 0⟩, ⟨4, 2, .rwnv, 2⟩, ⟨6, 1, .rwnv, 0⟩, ⟨8, 8, .rwnv, 0⟩, ⟨16, 24, .rwnv, 0⟩,
    ⟨40, 24, .rwnv, 0⟩]⟩

theorem regAt_pinCfg3 {c : Fin 56} (hc : c.val < 48) : regAt (chPage c 2 + 0x170) = some pinCfgRow := by
  revert c
  decide +kernel

theorem fldAt_pinCfg3 {c : Fin 56} (hc : c.val < 48) : fldAt (chPage c 2 + 0x170) ⟨0, 3, .rwnv, 0⟩ = Fld.PIN_CFG_FUNC c 3 := by
  revert c
  decide +kernel

/-- A write of the engine's page leaves the route as it is. -/
theorem keepsRun_regApply (s : State) {c : Fin 56} {a : Nat} (ha : chPage c 2 ≤ a) (v : Nat) : KeepsRun s (regApply s a v) c := by
  refine keepsRun_of_sq ((regsOnly_regApply s a v).sq c) ?_
  unfold regApply
  split
  · rfl
  · refine foldl_fldWrite_get_ne s fun d _ => ?_
    have hroute : fldKey (Fld.ROUTE_STATE_STATE c) < chPage c 2 * 64 := key_lt_page (by decide) (by decide) (by decide)
    have hkey : fldKey (fldAt a d) = a * 64 + d.lo := rfl
    omega

theorem KeepsEngine.busCfgOk_pin3 {s u : State} {c : Nat} (h : KeepsEngine s u c) (v : Nat) : busCfgOk u c 0x170 v = busCfgOk s c 0x170 v := by
  have hfunc (n : Nat) : u.get (Fld.PIN_CFG_FUNC c n) = s.get (Fld.PIN_CFG_FUNC c n) := h _ (page_le_entry le_rfl)
  have hengine : Machine.engineOf u c = Machine.engineOf s c := h.get ..
  have hpin : pinCfgOk u c 3 v = pinCfgOk s c 3 v := by simp only [pinCfgOk, hfunc, hengine]
  exact hpin

/-- A value that its checks accept is written, and the pin follows it. -/
theorem wrBus_pin3 {s : State} {c : Fin 56} (hc : c.val < 48) {v : Nat} (hok : busCfgOk s c 0x170 v = true) :
    ∃ t, wrBus s c 0x170 v = .ok t ∧ KeepsRun s t c ∧ t.get (Fld.PIN_CFG_FUNC c 3) = bf v 0 3 := by
  have hfunc := regApply_get (regAt_pinCfg3 hc) (by decide) (d := ⟨0, 3, .rwnv, 0⟩) (by decide) (.inr rfl) s v
  rw [fldAt_pinCfg3 hc] at hfunc
  have hsent : Sends (regApply s (chPage c 2 + 0x170) v) (drivePin (regApply s (chPage c 2 + 0x170) v) c 3) [_] := .emit _ _
  refine ⟨drivePin (regApply s (chPage c 2 + 0x170) v) c 3, ?_, (keepsRun_regApply s (Nat.le_add_right _ _) v).sends hsent,
    (hsent.get _).trans hfunc⟩
  rw [wrBus, if_pos hc, if_neg (by decide), if_neg (by decide), if_neg (by rw [hok]; decide), if_neg (fun h => absurd h.1 (by decide))]
  exact congrArg Wr.ok (if_pos (by decide))

section
variable {s : State} {c : Fin 56} {i code : Nat} {o : Order} (h : DueAt s c i o) (hplain : Plain o) (hop : o.op = oControl)
  (hcode : code = bf o.param 0 16) (hc : c.val < 48)
include h hplain hop hcode hc

/-- SET_CFG of PIN_CFG3 with a value that is accepted. -/
theorem control_setCfg_of_ok (hchain : (s.sq c).chainBuf = []) (hk : code = 0x10D) (hrsv : rsvHit (chPage c 2 + 0x170) o.word2 = false)
    (hok : busCfgOk s c 0x170 o.word2 = true) : DoesSome (.setCfg c) s (fun u =>
      Passes u c i (nextStatic i 0 o) St.ok 0 ∧ u.get (Fld.PIN_CFG_FUNC c 3) = bf o.word2 0 3) := by
  have hwait : o.op ≠ oWait := by rw [hop]; decide
  have hparam : bf o.param 0 16 = 0x10D := hcode.symm.trans hk
  obtain ⟨t, hwrite, hrun, hfunc⟩ := wrBus_pin3 hc (((keepsEngine_startOrder s c i o).busCfgOk_pin3 o.word2).trans hok)
  have heq : ctlSetCfg s c = orderNow t c St.ok 0 := by
    rw [ctlSetCfg, orderRun_of_dueAt s c i hwait h (by simp [hop, setCfgCode, hparam, hc])]
    simp only [Started, hparam, Nat.reduceSub, Nat.reduceMul, Nat.reduceAdd, hrsv, Bool.false_eq_true, if_false, hwrite]
  obtain ⟨hpasses, hkeeps, -⟩ := hrun.passes h hplain hwait hchain (st := St.ok) (by decide) (res := 0) (by decide)
  refine ⟨_, congrArg done heq, hpasses, (hkeeps _ (page_le_entry le_rfl)).trans hfunc⟩

/-- SET_CFG of CAN_CFG with a reserved bit set. -/
theorem control_setCfg_of_reserved (hk : code = 0x100) (hrsv : rsvHit (chPage c 2 + 0x108) o.word2 = true) (hcn : o.cn = false) :
    DoesSome (.setCfg c) s (fun u => Ended u c 0x82 i 0) := by
  have hwait : o.op ≠ oWait := by rw [hop]; decide
  have hparam : bf o.param 0 16 = 0x100 := hcode.symm.trans hk
  have hnext : (Started s c i o).next = none := next_of_last hcn (by rw [hop]; decide)
  have heq : ctlSetCfg s c = orderNow (startOrder s c i o) c 0x82 0 := by
    rw [ctlSetCfg, orderRun_of_dueAt s c i hwait h (by simp [hop, setCfgCode, hparam, hc])]
    simp only [Started, hparam, Nat.sub_self, Nat.zero_mul, Nat.add_zero, hrsv, if_true]
  obtain ⟨hended, -⟩ := (KeepsRun.refl (startOrder s c i o) c).ends h hplain hwait (st := 0x82) (by decide)
    (fun _ => afterOrder_of_last hnext) (res := 0) (by decide)
  exact ⟨_, congrArg done heq, hended⟩

end

end Sys2Proof.Machine
end

section
/-!
PROOF. SENSE by code (R191, R226), and the statement on CONTROL and SENSE.
-/
namespace Sys2Proof.Machine

/-! ### The blocks of SENSE (R191) -/

theorem countersBlock_length (s : State) (c : Nat) : (countersBlock s c).length = 64 := by
  simp [countersBlock, Function.comp_def]

theorem partnersBlock_length (s : State) (c : Nat) : (partnersBlock s c).length = 1024 := by
  simp [partnersBlock, Function.comp_def]

/-- The block of the configuration registers. -/
def configBlock (s : State) (c : Fin 56) : List Byte :=
  ((List.range (if c.val < 48 then 14 else 15)).map (fun i => leBytes 8 (regVal s (chPage c 2 + 0x108 + 8 * i)))).flatten

/-- CAN_CFG, or what a stream channel has in its place, stands first. -/
theorem configBlock_take (s : State) (c : Fin 56) : (configBlock s c).take 8 = leBytes 8 (regVal s (chPage c 2 + 0x108)) := by
  obtain ⟨n, hn⟩ : ∃ n, (if c.val < 48 then 14 else 15) = n + 1 := by
    split
    · exact ⟨13, rfl⟩
    · exact ⟨14, rfl⟩
  rw [configBlock, hn, List.range_succ_eq_map, List.map_cons, List.flatten_cons, List.take_left' (leBytes_length ..), Nat.mul_zero, Nat.add_zero]

/-- An order that starts leaves the tick as it is. -/
theorem startOrder_tick (s : State) (c : Fin 56) (i : Nat) (o : Order) : (startOrder s c i o).tick = s.tick := by
  have hstate : fldKey Fld.TICKNO_TICKNO ≠ fldKey (Fld.ROUTE_STATE_STATE c) := ((tick_lt_page c 1).trans_le (page_le_key le_rfl)).ne
  have horder : fldKey Fld.TICKNO_TICKNO ≠ fldKey (Fld.ROUTE_STATE_ORDER c) := ((tick_lt_page c 1).trans_le (page_le_key le_rfl)).ne
  simp only [State.tick, startOrder, seqCharge, rtSet, State.modSq_get, State.get_put_ne _ _ hstate, State.get_put_ne _ _ horder]

section
variable {s u : State} {c : Fin 56} (h : KeepsEngine s u c)
include h

theorem KeepsEngine.regVal {a : Nat} (ha : chPage c 2 ≤ a) : regVal u a = regVal s a := by
  unfold Machine.regVal
  split
  · rfl
  · refine congrArg List.sum (List.map_congr_left fun d _ => ?_)
    have hkey : fldKey (fldAt a d) = a * 64 + d.lo := rfl
    rw [h (fldAt a d) (by omega)]

theorem KeepsEngine.partnersBlock : partnersBlock u c = partnersBlock s c := by
  have hentry (k lo w : Nat) : u.get ⟨Reg.PT_ENTRY c k, lo, w, 0⟩ = s.get ⟨Reg.PT_ENTRY c k, lo, w, 0⟩ := h _ (page_le_entry (by decide))
  have hseen (k lo w : Nat) : u.get ⟨Reg.PT_ENTRY1 c k, lo, w, 0⟩ = s.get ⟨Reg.PT_ENTRY1 c k, lo, w, 0⟩ := h _ (page_le_entry (by decide))
  simp only [Machine.partnersBlock, Fld.PT_ENTRY_STATE, Fld.PT_ENTRY_KIND, Fld.PT_ENTRY_KEY, Fld.PT_ENTRY1_LAST_TICK, Fld.PT_ENTRY1_SEEN, hentry,
    hseen]

theorem KeepsEngine.countersBlock (htick : u.tick = s.tick) : countersBlock u c = countersBlock s c := by
  have hcount (k : Nat) : u.get (Fld.STATS_CNT_COUNT c k) = s.get (Fld.STATS_CNT_COUNT c k) := h _ (page_le_entry (by decide))
  simp only [Machine.countersBlock, hcount, htick]

end

/-! ### A SENSE order (R191) -/

section
variable {s : State} {c : Fin 56} {i code : Nat} {o : Order} (h : DueAt s c i o) (hplain : Plain o) (hchain : (s.sq c).chainBuf = [])
  (hop : o.op = oSense) (hcode : code = bf o.param 0 16) (haddr : o.addr < 2 ^ 63)
include h hplain hop hcode

theorem sense_undefined (hundefined : ¬ (1 ≤ code ∧ code ≤ 4)) :
    DoesSome (.senseCodeUndefined c) s (fun u => Ended u c St.rejectedState i o.count) := by
  have hwait : o.op ≠ oWait := by rw [hop]; decide
  have heq : senseUndefined s c = orderNow (startOrder s c i o) c St.rejectedState o.count := by
    rw [senseUndefined, orderRun_of_dueAt s c i hwait h (by rw [← hcode, decide_eq_false hundefined, hop]; rfl)]
    rfl
  obtain ⟨hended, -⟩ := (KeepsRun.refl (startOrder s c i o) c).ends h hplain hwait (st := St.rejectedState) (by decide)
    (fun _ => afterOrder_of_rejectedState) o.count_lt
  exact ⟨_, congrArg done heq, hended⟩

include hchain haddr

/-- The block is written from its first byte; what the buffer holds beyond it is the residual. -/
theorem passes_ordSense {block : State → List Byte} {bs : List Byte} (hblock : (block (startOrder s c i o)).take o.count = bs) (hsome : bs ≠ []) :
    Passes (ordSense s c code block) c i (nextStatic i 0 o) (if bs.length < o.count then St.okResidual else St.ok) (o.count - bs.length) ∧
      (ordSense s c code block).dramRead o.addr bs.length = bs := by
  have hwait : o.op ≠ oWait := by rw [hop]; decide
  set S := startOrder s c i o with hS
  set t := bufWrite (seqCharge S c (writeCost o.addr bs.length)) o.addr bs with ht
  have hcharges : ChargesAlone S t c := (chargesAlone_seqCharge S c _).trans (chargesAlone_bufWrite ..)
  have hrun : KeepsRun S t c := ⟨hcharges.sq, hcharges.get _⟩
  have hdram : t.dramRead o.addr bs.length = bs := by
    have hempty : bs.isEmpty = false := by simpa using hsome
    simp only [ht, bufWrite, hempty, Nat.not_le.mpr haddr, Bool.false_eq_true, if_false]
    exact State.dramRead_dramWrite ..
  have hlen : bs.length ≤ o.count := by rw [← hblock]; exact List.length_take_le ..
  have hcount := o.count_lt
  have heq : ordSense s c code block =
      orderNow t c (if bs.length < o.count then St.okResidual else St.ok) (o.count - bs.length) := by
    have hnear : ¬ (2 ^ 63 ≤ o.addr ∧ (!S.hostOk) = true) := fun hfar => Nat.not_le.mpr haddr hfar.1
    have hbody : ordSense s c code block =
        if bs.length < o.count then orderNow t c St.okResidual (o.count - bs.length) else orderNow t c St.ok 0 := by
      rw [ordSense, orderRun_of_dueAt s c i hwait h (by rw [hop, ← hcode]; simp), ht, ← hblock]
      exact if_neg hnear
    rw [hbody]
    split
    · rfl
    · rw [Nat.sub_eq_zero_of_le (by omega)]
  have hst : (if bs.length < o.count then St.okResidual else St.ok) ≤ 1 := by split <;> decide
  obtain ⟨hpasses, -, hkept⟩ := hrun.passes h hplain hwait hchain hst (res := o.count - bs.length) (by omega)
  rw [heq]
  exact ⟨hpasses, (State.dramRead_congr hkept ..).trans hdram⟩

/-- A block that fills the buffer. -/
theorem passes_ordSense_of_fills {block : State → List Byte} {b : List Byte} (hblock : block (startOrder s c i o) = b) (hpos : 8 ≤ o.count)
    (hlen : o.count ≤ b.length) : Passes (ordSense s c code block) c i (nextStatic i 0 o) St.ok 0 ∧
      (ordSense s c code block).dramRead o.addr o.count = b.take o.count := by
  have htake : (b.take o.count).length = o.count := List.length_take_of_le hlen
  have hsome : b.take o.count ≠ [] := List.ne_nil_of_length_pos (by omega)
  have hends := passes_ordSense h hplain hchain hop hcode haddr (congrArg (List.take o.count) hblock) hsome
  rw [htake, if_neg (Nat.lt_irrefl _), Nat.sub_self] at hends
  exact hends

/-- The four blocks. -/
theorem sense_blocks (hpos : 8 ≤ o.count) :
    (code = 1 → o.count ≤ 64 → DoesSome (.senseCounters c) s (fun u => Passes u c i (nextStatic i 0 o) St.ok 0 ∧
      u.dramRead o.addr o.count = (countersBlock s c).take o.count)) ∧
    (code = 2 → o.count = 8 → DoesSome (.senseBeStatus c) s (fun u => Passes u c i (nextStatic i 0 o) St.ok 0 ∧
      u.dramRead o.addr 8 = leBytes 8 (regVal s (Reg.BE_STATUS c)))) ∧
    (code = 2 → 8 < o.count → DoesSome (.senseBeStatus c) s (fun u => Passes u c i (nextStatic i 0 o) St.okResidual (o.count - 8) ∧
      u.dramRead o.addr 8 = leBytes 8 (regVal s (Reg.BE_STATUS c)))) ∧
    (code = 3 → o.count ≤ 1024 → DoesSome (.sensePartnerTable c) s (fun u => Passes u c i (nextStatic i 0 o) St.ok 0 ∧
      u.dramRead o.addr o.count = (partnersBlock s c).take o.count)) ∧
    (code = 4 → c.val < 48 → o.count = 8 → DoesSome (.senseBusengConfig c) s (fun u => Passes u c i (nextStatic i 0 o) St.ok 0 ∧
      u.dramRead o.addr 8 = leBytes 8 (regVal s (chPage c 2 + 0x108)))) := by
  have hkeeps := keepsEngine_startOrder s c i o
  have hstatus : leBytes 8 (regVal (startOrder s c i o) (Reg.BE_STATUS c)) = leBytes 8 (regVal s (Reg.BE_STATUS c)) :=
    congrArg (leBytes 8) (hkeeps.regVal (Nat.le_add_right _ _))
  refine ⟨fun hk hlen => ?_, fun hk hlen => ?_, fun hk hlen => ?_, fun hk hlen => ?_, fun hk hc hlen => ?_⟩
  · subst hk
    exact ⟨_, rfl, passes_ordSense_of_fills h hplain hchain hop hcode haddr (block := fun s => countersBlock s c)
      (hkeeps.countersBlock (startOrder_tick s c i o)) hpos (by rw [countersBlock_length]; exact hlen)⟩
  · subst hk
    obtain ⟨hpasses, hread⟩ := passes_ordSense_of_fills h hplain hchain hop hcode haddr
      (block := fun s => leBytes 8 (regVal s (Reg.BE_STATUS c))) hstatus hpos (by rw [leBytes_length, hlen])
    rw [hlen, List.take_of_length_le (by rw [leBytes_length])] at hread
    exact ⟨_, rfl, hpasses, hread⟩
  · subst hk
    have hblock : (leBytes 8 (regVal (startOrder s c i o) (Reg.BE_STATUS c))).take o.count = leBytes 8 (regVal s (Reg.BE_STATUS c)) := by
      rw [hstatus, List.take_of_length_le (by rw [leBytes_length]; exact hlen.le)]
    obtain ⟨hpasses, hread⟩ := passes_ordSense h hplain hchain hop hcode haddr (block := fun s => leBytes 8 (regVal s (Reg.BE_STATUS c))) hblock
      (List.ne_nil_of_length_pos (by rw [leBytes_length]; decide))
    rw [leBytes_length] at hpasses hread
    rw [if_pos hlen] at hpasses
    exact ⟨_, rfl, hpasses, hread⟩
  · subst hk
    exact ⟨_, rfl, passes_ordSense_of_fills h hplain hchain hop hcode haddr (block := fun s => partnersBlock s c)
      hkeeps.partnersBlock hpos (by rw [partnersBlock_length]; exact hlen)⟩
  · subst hk
    have hblock : ((configBlock (startOrder s c i o) c).take o.count) = leBytes 8 (regVal s (chPage c 2 + 0x108)) := by
      rw [hlen, configBlock_take, hkeeps.regVal (Nat.le_add_right _ _)]
    obtain ⟨hpasses, hread⟩ := passes_ordSense h hplain hchain hop hcode haddr (block := fun s => configBlock s c) hblock
      (List.ne_nil_of_length_pos (by rw [leBytes_length]; decide))
    rw [leBytes_length] at hpasses hread
    rw [hlen, if_neg (Nat.lt_irrefl 8), Nat.sub_self] at hpasses
    exact ⟨_, rfl, hpasses, hread⟩

end

/-! ### The obligation -/

/-- Settles O39: the codes of CONTROL, then those of SENSE. -/
theorem controlAndSense : Obligations.ControlAndSense := by
  unfold Obligations.ControlAndSense
  refine ⟨fun s c i code o acks v h hplain hchain hop hcode => ?control, fun s c i code o h hplain hchain hop hcode haddr hpos _ => ?sense⟩
  case control =>
    refine ⟨control_busOnListen h hplain hchain hop hcode, control_busOn h hplain hchain hop hcode,
      control_busOn_of_busOff h hplain hchain hop hcode, control_busOn_of_none h hplain hop hcode,
      control_engine_stream h hplain hchain hop hcode, control_busOff h hplain hchain hop hcode, control_setMode h hplain hchain hop hcode,
      control_setMode_of_on h hplain hop hcode, control_clearPartners h hplain hchain hop hcode, control_scan h hplain hchain hop hcode,
      control_scan_of_other h hplain hop hcode, control_clearCounters h hplain hchain hop hcode, ?_,
      fun hk hc => control_setCfg_of_reserved h hplain hop hcode hc hk, control_undefined h hplain hop hcode⟩
    rintro hk hc rfl hrsv hok -
    exact control_setCfg_of_ok h hplain hop hcode hc hchain hk hrsv hok
  case sense =>
    obtain ⟨hcounters, hstatus, hlonger, hpartners, hconfig⟩ := sense_blocks h hplain hchain hop hcode haddr hpos
    exact ⟨hcounters, hstatus, hlonger, hpartners, hconfig, sense_undefined h hplain hop hcode⟩

end Sys2Proof.Machine
end
